-- ==== Sys2Proof/Word.lean ====
section
/-!
DEFINITION. The word types and their plainest arithmetic.
-/

namespace Sys2Proof

/-- A register or bus word. -/
abbrev Word := BitVec 32

/-- A byte of a memory window. -/
abbrev Byte := BitVec 8

end Sys2Proof
end

