-- ==== Sys2Proof/Syntax.lean ====
section
/-!
DEFINITION. The commands the block takes: the rows of spec/opcode_table.json, each with the values
that reach the module from outside with it (a word written, a packet's content, a pad level, a
converter's reading).
-/

namespace Sys2Proof

/-- Who makes a register-port access (R318): SPI, link U or JTAG. -/
inductive Initiator where
  | spi | linkU | jtag
  deriving DecidableEq, Repr

/-- What reading a tile directory entry finds (R71). -/
inductive DirRead where
  /-- No error. -/
  | good
  /-- A single-bit error, corrected. -/
  | corrected
  /-- A double-bit error. -/
  | double
  deriving DecidableEq, Repr

/-- One engine's copy of the raster position and of the PWM counter (R193): `skew` is the array-clock
cycles by which its position is ahead of RAS. -/
structure EngineCopy where
  skew : Int := 0
  c : Nat := 0
  a : Nat := 0
  deriving DecidableEq, Repr

/-- A pixel of a row whose defect-map copy has changed by itself: column, which copy (true = the second),
and the state it then holds (R172). -/
structure MapUpset where
  x : Nat
  second : Bool
  state : Nat
  deriving DecidableEq, Repr

/-- A row that composition has not handed over in time: the pixels that each layer has delivered, and the upsets of the
gain row and the defect map that its processing meets (R111, R171, R172). -/
structure Delivered where
  pixels : List Nat
  gain : List Nat := []
  map : List MapUpset := []
  deriving DecidableEq, Repr

/-- The compliance report of a line (R247). -/
inductive Compliance where
  /-- No column was lit in the line. -/
  | none
  /-- The report fails parity; `upsets` are the words of LP7's coefficients that an upset hits. -/
  | bad (upsets : List Nat)
  /-- H_MIN in steps of 10 mV, and OUT; upsets of LP7's coefficient words, and whether one hits its states (R246). -/
  | report (hMin : BitVec 7) (out : Bool) (upsets : List Nat) (stateUpset : Bool)
  deriving DecidableEq, Repr

/-- The far end of dark net A, or B, differs from its driven level, or agrees again (R202). -/
structure NetReturn where
  netB : Bool
  bad : Bool
  deriving DecidableEq, Repr

/-- What has arrived between SOP and EOP: its words; whether an EOP ended them; whether a code error fell among them, or a
word of the receive buffer fails parity (R343, R352). -/
structure RxFrame where
  words : List Word
  eop : Bool := true
  upset : Bool := false
  deriving DecidableEq, Repr

/-- What the two measurements of a calibration item found (R454, R455). -/
inductive CalPair where
  /-- LINK: per channel, the positions of the sampler with no disagreement. -/
  | link (a b : List (BitVec 32))
  /-- PRECHARGE: its values come from the calibration slots. -/
  | precharge
  /-- ISNS: per phase, the sum of 1,024 conversions. -/
  | isns (a b : List Int)
  /-- TRIM: per sensor, the sum of 16 counts. -/
  | trim (a b : List Nat)
  deriving DecidableEq, Repr

/-- What the island and the blocks it serves read at a safety tick (R275, R37, R274, R290, R299, R321, R436):
pad levels, the array current in mA, supplies and rails in mV, clock counts, and the readbacks. -/
structure TickIn where
  darkA : Bool := false
  darkB : Bool := true
  srst : Bool := true
  lrmFb : Bool := false
  /-- Array current in mA. -/
  current : Nat := 0
  /-- VDDH and the island's regulator, in mV. -/
  vddh : Nat := 1800
  vreg : Nat := 750
  /-- Counts of the array clock and of OSC_IN over the tick. -/
  arrayCount : Nat := 250
  oscCount : Nat := 250
  /-- Readbacks of SAFE_A, SAFE_B, FAULT_P and FAULT_N. -/
  safeA : Bool := false
  safeB : Bool := false
  faultP : Bool := true
  faultN : Bool := false
  /-- Levels of the seal straps. -/
  seals : Byte := 0
  /-- Rails in mV. -/
  vdd : Nat := 750
  vpix : Nat := 1100
  vdda : Nat := 900
  vddio : Nat := 3300
  /-- Directory entries that a bit error has hit in this tick: tile, and whether two of its bits are wrong (R71). -/
  dirHits : List (Nat × Bool) := []
  /-- Codes whose base-class entry has failed parity in this tick (R325). -/
  classHits : List Byte := []
  /-- TRST_N has been low in this tick (R418). -/
  trst : Bool := false
  /-- TMS and TDI at each rising edge of TCK in this tick (R418). -/
  tck : List (Bool × Bool) := []
  /-- Code errors that CVN_IN met in this tick and no frame command carries, and frames that it discarded whole (R366). -/
  cvnErrors : Nat := 0
  cvnDiscards : Nat := 0
  deriving DecidableEq, Repr

/-- Header of a forward packet that has passed its frame check; LEN is the length of the payload (R344). -/
structure PktHead where
  bc : Bool := false
  tg : Bool := false
  dest : BitVec 12 := 0
  seq : BitVec 12 := 0
  rack : BitVec 12 := 0
  rnak : Bool := false
  rv : Bool := false
  deriving DecidableEq, Repr

/-- What one physical receive lane brings in a training set (R333); `inverted` is its polarity on the wire,
`eyeOk` the module's target met, `answered` a result reported for the request in flight.  No rule gives an effect to the
RATE, SHORT, PRE and POST of the far end. -/
structure TsLane where
  codeError : Bool := false
  inverted : Bool := false
  /-- Symbol 2. -/
  lane : BitVec 2 := 0
  /-- Symbol 3. -/
  rate : BitVec 2 := 0
  /-- Symbol 4, bit 3; the other flags follow. -/
  short : Bool := false
  locked : Bool := false
  eqDone : Bool := false
  ready : Bool := false
  /-- Symbol 5: a new request to the return-lane transmitter; 0 = none. -/
  request : Byte := 0
  /-- Symbols 6 and 7. -/
  pre : Byte := 0
  post : Byte := 0
  /-- Symbol 8: 0 = APPLIED; 1 = AT_LIMIT; 2 = FIXED. -/
  result : Byte := 0
  answered : Bool := false
  eyeOk : Bool := false
  deriving DecidableEq, Repr

/-- How the share of an EPOCH frame is read: whether its CRC passes, and the code errors between the epoch cycle of the frame
and the end of this share (R366, R381). -/
structure ShareRead where
  crcOk : Bool
  codeErrors : Nat := 0
  deriving DecidableEq, Repr

/-- An EPOCH frame as it reaches a slave (R368, R369). -/
structure EpochFrame where
  epoch : Nat
  frame : BitVec 32
  curVb : Nat
  nSlots : Nat
  vb : Nat
  k : Nat
  nxNSlots : Nat
  nxVb : Nat
  nxK : Nat
  c : Nat
  a : Nat
  shLen : Nat
  deriving DecidableEq, Repr

/-- A frame as the master receives it (R383): an ENUM or an EPOCH frame, whether its header passes, its number
(EPOCH or ENUM_ID) and its code errors; the status pairs of an EPOCH frame as their two symbols, first symbol
in bit 1; the fills of an ENUM frame's token section, and whether that section holds a 0 or a code
error. -/
structure RingFrame where
  enum : Bool := false
  good : Bool := true
  num : Nat := 0
  codeErrors : Nat := 0
  thr : BitVec 2 := 1
  alarm : BitVec 2 := 1
  nopos : BitVec 2 := 1
  fills : Nat := 0
  tokenBad : Bool := false
  deriving DecidableEq, Repr

/-- Parity upsets that the row actions of a line meet: columns of the gain row, pixels of the defect map,
columns whose pre-charge tap fails (R171, R172, R192). -/
structure LineUpsets where
  gain : List Nat := []
  map : List MapUpset := []
  taps : List Nat := []
  deriving DecidableEq, Repr

/-- What a step of the boot loader brings in: a disagreement of the fuse votes, the RAMs of step 4 that fail
their test, as bits of BST_RAM_FAIL, and the bytes read from the flash (R403, R444). -/
structure BootIn where
  voteBad : Bool := false
  ramFail : BitVec 9 := 0
  bytes : List Byte := []
  deriving DecidableEq, Repr







/-- The commands of the block: one constructor per row of the table of operations and events. -/
inductive Instr where
  /-- RETIME (R58): A write of 1 to RAS_CTRL.RETIME is checked against the RAS_NEXT values and is rejected, or becomes pending, or arms or starts the raster. -/
  | retime (who : Initiator) (v : Word)
  /-- RASTER_START (R62): At the 64th array-clock cycle after an accepted starting RETIME, the raster starts at (F, 0, 0) with a lead-in frame and arms the stall watchdog. -/
  | rasterStart
  /-- START_OF_BLANK (R64): The first cycle of (f, 512, 0) is the commit instant, where commit, FOLLOW, budget, signature, RETIME-hold and epoch actions take place. -/
  | startOfBlank
  /-- FRAME_DONE (R64): At the first cycle of (f + 1, 0, 0) the frame number advances, FRAME_DONE is set and frame-start actions run. -/
  | frameDone (tachEdges : Nat)
  /-- LINE_START (R32): At the first cycle of (f, l, 0), the line-start pulse goes to the island and the row actions of the line begin. -/
  | lineStart (upsets : LineUpsets)
  /-- DISPLAY_LOAD (R186): At the end of slot 2, every pixel of the row loads its display latch from its storage latch. -/
  | displayLoad (upsets : List (Nat × BitVec 16))
  /-- EMITTER_SENSE (R208): In slots 3–4 row l is probed and test-pulsed, and the results are classified. -/
  | emitterSense (high : List Nat) (low : List Nat) (volts : List (Nat × Nat))
  /-- READBACK (R220): In slots 5–7 the storage words of row l are read back, and their parity and row CRC are checked. -/
  | readback (upsets : List (Nat × BitVec 16))
  /-- SPARE_SLOT_MASK_WRITE (R152): In a spare slot, MSK writes the next darkening, brightening or scrub row into the pixel mask latches. -/
  | spareSlotMaskWrite (slot : BitVec 12) (upsets : List Nat)
  /-- MASK_EPOCH (R149): At a mask epoch, a pass starts if a reason is pending, or the epoch is skipped or passes idle. -/
  | maskEpoch
  /-- MASK_PASS_GROUP (R151): Every 16 cycles of a pass, four rows are rasterised into TARGET and classified against LATCHED. -/
  | maskPassGroup (latchedUpsets : List (Nat × Nat))
  /-- ROW_GROUP_BOUNDARY (R49): At the cycle boundary of a row group, pending lower mask levels become active and released pixels resume conduction. -/
  | rowGroupBoundary (g : BitVec 6)
  /-- ISET_MEASURE (R197): ARY measures I_REF once per line, or every 16,384 cycles while stopped, and checks its window. -/
  | isetMeasure (iref : BitVec 14) (limited : Bool)
  /-- ISET_FAULT (R197): After 4 consecutive measurements outside the window, FLT_ARY_ISET is raised and ISET_BAD is set. -/
  | isetFault
  /-- HEADROOM_TRIM (R247): At (f, l, 8), LP7 evaluates the compliance report and trims the rail set-point. -/
  | headroomTrim (r : Compliance)
  /-- BAND_FETCH_START (R109): At line 16b − 24 the fetch of band b starts for every enabled layer. -/
  | bandFetchStart
  /-- TILE_CRC_CHECK (R77): Once a fetched tile has been fully read, its CRC is compared with the directory, and the tile is released or marked BAD. -/
  | tileCrcCheck (upsets : List (Nat × Byte)) (dirRead : DirRead)
  /-- ROW_COMPOSITION (R108): Row y is blended from its released layers and handed to LUM. -/
  | rowComposition (ttUpsets : List Nat) (coefUpsets : List Nat)
  /-- COMPOSITION_DEADLINE (R110): At line y − 2, undelivered pixels of row y underrun late and the row is handed to LUM. -/
  | compositionDeadline (delivered : Delivered)
  /-- OUT_STALL (R113): After 512 consecutive skipped rows, FLT_CMP_OUT_STALL is raised. -/
  | outStall
  /-- GAIN_RELOAD_ROW (R170): During a reload, one gain row per line is read, checked and swapped into the working copy. -/
  | gainReloadRow
  /-- INNER_SAMPLE (R230): At each inner sample, VSNS is converted, V_SET is formed and a switching period begins. -/
  | innerSample (vsns : BitVec 12) (ref : BitVec 12) (vsnsValid : Bool) (refValid : Bool) (psHigh : Bool)
  /-- PHASE_PULSE_START (R231): PWMp goes high at its staggered start in the period, with the duty in force. -/
  | phasePulseStart (p : BitVec 3)
  /-- PHASE_PULSE_END (R231): PWMp goes low after H cycles. -/
  | phasePulseEnd (p : BitVec 3)
  /-- ISNS_CONVERSION (R232): A phase current is converted at the centre of its pulse. -/
  | isnsConversion (p : BitVec 3) (code : BitVec 12) (valid : Bool)
  /-- LOOP_EVALUATION (R239): When its conversion completes, a loop evaluates its main or fallback law and stores its output, or overruns. -/
  | loopEvaluation (upsets : List Nat) (stateUpset : Bool)
  /-- LOOP_FALLBACK (R245): On a third consecutive overrun, the loop switches to its fallback law. -/
  | loopFallback
  /-- RAIL_START_TIMEOUT (R249): A rail that has not reached RUN within START_TO outer samples goes to TRIP. -/
  | railStartTimeout
  /-- VLED_OVP (R234): VSNS above OVP_MV in 2 consecutive inner samples raises FLT_LPE_OVP. -/
  | vledOvp
  /-- VLED_UVP (R234): VSNS below the floor for 8 outer samples in RUN raises FLT_LPE_UVP and trips the rail. -/
  | vledUvp
  /-- ISNS_RANGE_FAULT (R234): A current code at full scale in 2 consecutive periods trips the rail. -/
  | isnsRangeFault
  /-- ISNS_REF_FAULT (R234): ISNS_REF out of range for 4 consecutive outer samples trips the rail. -/
  | isnsRefFault
  /-- PS_FLT_N_LOW (R234): A filtered low on PS_FLT_N raises FLT_LPE_STAGE and trips the rail while it is in START or RUN. -/
  | psFltNLow
  /-- CBC_TRIP (R252): The analog comparator of a phase cuts its pulse and counts a cycle-by-cycle trip. -/
  | cbcTrip (p : BitVec 3)
  /-- PHASE_OC (R252): A phase tripping in CBC_RUN consecutive periods raises FLT_LPE_PHASE_OC and trips the rail. -/
  | phaseOc
  /-- CREST_FALLBACK (R248): A crest missing for 2 commit instants, or failing parity, puts LPE on the model crest with the trim forced to 0. -/
  | crestFallback (parity : Bool)
  /-- FAN_PERIOD (R254): Every DIV lines a fan period starts, with GPIO0 high for the duty. -/
  | fanPeriod
  /-- TACH_FAULT (R254): FRAMES consecutive frames with too few tach edges raise FLT_LPE_FAN and force the fan duty to U_MAX. -/
  | tachFault
  /-- RAIL_EN_WRITE (R251): A write of LPE_CTRL.RAIL_EN requests the rail, or stops it and leaves TRIP. -/
  | railEnWrite (who : Initiator) (v : Word)
  /-- SWAP (R243): A write of 1 to LPE_CTRL.SWAP requests a bank swap at the next outer sample, or is rejected. -/
  | swapBanks (who : Initiator) (v : Word)
  /-- LOOP_BANK_SWAP (R244): At the outer sample after an accepted swap request, the banks change places and the states are carried over. -/
  | loopBankSwap
  /-- FB_CLEAR (R245): A write of FB_CLEAR returns a loop to its main law at the next sample. -/
  | fbClear (who : Initiator) (loop : BitVec 4) (v : Word)
  /-- LPE_COEF_M_WRITE (R242): A write stores a coefficient mantissa and shift, subject to the bank rules. -/
  | lpeCoefMWrite (who : Initiator) (v : Word)
  /-- LPE_COEF_M_READ (R242): A read returns the addressed mantissa and loads SHIFT, with the index incrementing if INC is set. -/
  | lpeCoefMRead (who : Initiator)
  /-- SENSOR_GATE (R259): A 1,024-cycle count gate of all 32 sensors starts every fourth line, or every 65,536 cycles while stopped. -/
  | sensorGate (counts : List Nat)
  /-- SENSOR_PUBLISH (R261): Sixteen cycles after the gate, the readings are published and the thermal rules are evaluated. -/
  | sensorPublish
  /-- SENSOR_BROKEN (R260): A sensor out of range in 3 consecutive conversions becomes broken and publishes its threshold + 1 K. -/
  | sensorBroken
  /-- SHUTDOWN_END (R270): After 16 qualifying publications, the shutdown ends and the module runs BOOT to IDLE. -/
  | shutdownEnd
  /-- THROTTLE_GRACE_EXPIRY (R264): A tier reading at LEVEL or above for GRACE × 1,000 ticks makes the throttle cause stand. -/
  | throttleGraceExpiry
  /-- THROTTLE_RETIME_ISSUE (R265): In the first RUNNING cycle, THM issues the throttled RETIME, or handles its rejection. -/
  | throttleRetimeIssue
  /-- THROTTLE_RELEASE (R267): After the release hold, THM issues a RETIME back to the base timing. -/
  | throttleRelease
  /-- SLAVE_THROTTLE_TIMEOUT (R268): A slave not throttled GRACE × 1,000 ticks after its request raises FLT_THM_THROTTLE_REJ. -/
  | slaveThrottleTimeout
  /-- SAFETY_TICK (R57): Each 10 µs island tick samples the pads, converts the array current and advances the tick counters. -/
  | safetyTick (t : TickIn)
  /-- DARK_PAD_ACTIVE (R277): An active level on DARK_A or DARK_B asserts both dark nets and restarts the relight counter. -/
  | darkPadActive (a : Bool) (b : Bool)
  /-- DARK_RELIGHT_EXPIRY (R278): The relight counter expires, and the pad dark request ends or becomes DARK_HOLD. -/
  | darkRelightExpiry
  /-- DARK_DISCREPANCY (R279): DISC reaching N latches the discrepancy and raises FLT_SAF_DARK_DISC. -/
  | darkDiscrepancy
  /-- DARK_SW (R277): A write of SAF_CMD.DARK_SW places or ends the software dark request. -/
  | darkSw (who : Initiator) (v : Word)
  /-- FIRMWARE_OASIS_REQUEST (R295): A write of SAF_CMD.OASIS places or withdraws the firmware oasis request. -/
  | firmwareOasisRequest (who : Initiator) (v : Word)
  /-- SAF_LOCK (R303): A write of 1 to SAF_LOCK.LOCK locks the safety configuration registers until RESET_N. -/
  | safLock (who : Initiator) (v : Word)
  /-- DARK_NET_MISMATCH (R280): A dark-net return that differs from the driven level in 2 checked cycles raises FLT_SAF_DARKNET. -/
  | darkNetMismatch (net : NetReturn)
  /-- DARK_NET_PROOF (R280): In INIT, each dark net is released and re-asserted for one tick to prove its return. -/
  | darkNetProof (pass : Bool)
  /-- LEAVE_INIT (R284): At the first tick with every condition met, the island leaves INIT for REMOVED or starts a relight. -/
  | leaveInit
  /-- SRST_FALL (R285): A filtered falling edge of SRST_N starts measuring the pulse width. -/
  | srstFall
  /-- SRST_RISE (R286): A filtered rising edge of SRST_N is judged for width and causes, and is accepted or refused. -/
  | srstRise
  /-- SRST_STUCK (R285): SRST_N low for 500,001 ticks raises FLT_SAF_SRST_STUCK. -/
  | srstStuck
  /-- RELIGHT_FB_TIMEOUT (R287): LRM_FB not closed within FB_TIME ticks of a relight re-sets the removal latch. -/
  | relightFbTimeout
  /-- RELIGHT_COMPLETE (R287): With LRM_FB closed and IN_REG set, the island releases the source disable and the dark nets. -/
  | relightComplete
  /-- DIM_ENTRY (R288): At the first tick after the dim latch is set, the island samples its dim settings and begins the ramp. -/
  | dimEntry
  /-- RAMP_TICK (R289): Each tick of a safe-dim ramp sets the envelope E as CEIL and ENV. -/
  | rampTick
  /-- ENVELOPE_EXCEEDED (R290): An array current above the limit code at 2 consecutive ticks raises FLT_SAF_ENVELOPE. -/
  | envelopeExceeded
  /-- LRM_FB_MISMATCH (R292): The filtered LRM_FB failing to follow LRM raises FLT_SAF_LRM_FB. -/
  | lrmFbMismatch
  /-- OASIS_BOOT_CHECK (R294): In INIT, the oasis path reads and checks every table and row of all eight copies. -/
  | oasisBootCheck
  /-- OASIS_ROW_CHECK (R294): While a beam is shown, each stored row is read and checked before LUM uses it, failing over to the other copy. -/
  | oasisRowCheck (v : BitVec 7)
  /-- SEAL_READ_START (R296): A strap read starts with the pull-ups on, when the island leaves reset or RESET_N is released. -/
  | sealReadStart
  /-- SEAL_LATCH (R296): At tick 20 the strap values and open flags are latched, and open straps raise faults. -/
  | sealLatch
  /-- SAFE_OUT_FAIL (R299): A SAFE_A or SAFE_B readback wrong at 2 ticks raises FLT_SAF_OUT. -/
  | safeOutFail
  /-- ISLAND_SUPPLY_FAULT (R274): An island supply outside its window at 2 ticks raises FLT_SAF_SUPPLY. -/
  | islandSupplyFault
  /-- ISLAND_RESET (R274): VDDH below the reset threshold holds the island in reset, with the dark nets asserted. -/
  | islandReset
  /-- ISLAND_RESET_END (R274): The end of the island's reset starts the island in INIT. -/
  | islandResetEnd
  /-- CLOCK_MONITOR_FAIL (R37): A monitored clock count outside its window at 2 consecutive ticks raises its clock fault. -/
  | clockMonitorFail
  /-- ISLAND_OSC_STOP (R37): The RC detector finds the island oscillator stopped and removes light. -/
  | islandOscStop (stopped : Bool)
  /-- CLOCK_OFF_GRANT_END (R38): The clock-off grant ends on PLL lock, or after 50 ticks, and the clock checks resume. -/
  | clockOffGrantEnd
  /-- RASTER_STALL (R32): No line-start pulse for 20 ticks asserts the dark nets and raises FLT_RAS_STALL. -/
  | rasterStall
  /-- ENGINE_MISMATCH (R194): West and east engine states differing stops writes, reloads the east copy and raises FLT_ARY_ENGINE_LOCK. -/
  | engineMismatch (west : EngineCopy) (east : EngineCopy)
  /-- REF_MONITOR_FAULT (R200): I_ref differing from its commanded value in 2 checks raises FLT_ARY_REF_MON. -/
  | refMonitorFault (first : Nat) (second : Nat)
  /-- FAULT_LIVE_RISE (R310): The rise of a fault's live signal latches or counts it and applies its class reaction. -/
  | faultLiveRise (code : Byte)
  /-- FAULT_LIVE_FALL (R310): The fall of a live signal moves an ACKED code to NONE, or marks the record CLEARED. -/
  | faultLiveFall (code : Byte)
  /-- FAULT_PAIR_INVALID (R307): A dual-rail pair invalid for 2 cycles acts as live and raises FLT_COL_PAIR. -/
  | faultPairInvalid (code : Byte) (bad : Bool)
  /-- FAULT_PAIR_PROOF (R308): Every 1,000 ticks each powered pair is strobed and must answer with a one-cycle pattern. -/
  | faultPairProof (failed : List Byte)
  /-- T1_EXPIRY (R310): The t1 timer of a PENDING C1 code expires, and the code escalates to C2. -/
  | t1Expiry (code : Byte)
  /-- T2_EXPIRY (R310): The t2 timer of a PENDING C2 code expires, and the code escalates to C3. -/
  | t2Expiry (code : Byte)
  /-- FLT_ACK (R314): A write of FLT_ACK.CODE acknowledges a PENDING code. -/
  | fltAck (who : Initiator) (v : Word)
  /-- FLT_INJECT (R322): A write of FLT_INJECT drives a code's pair to the fault pattern, or is refused. -/
  | fltInject (who : Initiator) (v : Word)
  /-- INJECTION_END (R322): After DURATION ticks, the injected pair returns to idle. -/
  | injectionEnd
  /-- FLT_FIRST_REL (R316): A write of 1 releases the first-error record. -/
  | fltFirstRel (who : Initiator) (v : Word)
  /-- FAULT_PIN_FAIL (R321): A FAULT_P or FAULT_N readback wrong at 2 ticks raises FLT_COL_PIN. -/
  | faultPinFail
  /-- LINK_DOWN_EXPIRY (R334): After 10 ticks in DOWN with EN = 1, the port enters DETECT. -/
  | linkDownExpiry (d : Bool)
  /-- SIGNAL_DETECTED (R334): Signal on every receive lane for 10 ticks moves the port to COMMA_LOCK. -/
  | signalDetected (d : Bool)
  /-- TS1_RECEIVED (R333): A received TS1 advances comma lock, polarity, lane order or equalisation, or signals a far-end retrain. -/
  | ts1Received (d : Bool) (lanes : List TsLane)
  /-- TS2_RECEIVED (R337): A received TS2 advances deskew, READY and entry to ACTIVE, or an L1 or L2 exit. -/
  | ts2Received (d : Bool) (lanes : List TsLane) (skew : Nat)
  /-- TRAINING_TIMEOUT (R338): A training state exceeding its timeout raises FLT_LNK_TRAIN and returns the port to DOWN. -/
  | trainingTimeout (d : Bool)
  /-- TRAIN (R336): A TRAIN packet on the return lane carries equalisation requests that the transmitter applies. -/
  | trainPacket (w0 : Word) (w1 : Word) (w2 : Word) (w3 : Word)
  /-- SKP_TIMEOUT (R339): No SKP set for 10 ticks sends the port to DOWN with cause 2. -/
  | skpTimeout (d : Bool)
  /-- CODE_ERROR_LIMIT (R339): More than ERR_LIMIT code errors in one window sends the port to DOWN with cause 1. -/
  | codeErrorLimit (d : Bool) (n : BitVec 16)
  /-- EIOS_RECEIVED (R341): A received EIOS requests L1 or L2, which port U grants or declines. -/
  | eiosReceived (d : Bool) (l2 : Bool)
  /-- L1_IDLE_EXPIRY (R341): Port D with nothing to send for 10 ticks requests L1. -/
  | l1IdleExpiry
  /-- LOW_POWER_EXIT_TIMEOUT (R341): An L1 or L2 exit not completed in time sends the port to DOWN with cause 5. -/
  | lowPowerExitTimeout (d : Bool)
  /-- RETRAIN (R339): A write of 1 to LNK_x_CTRL.RETRAIN sends the port to DOWN with cause 0. -/
  | retrain (who : Initiator) (d : Bool) (v : Word)
  /-- PACKET_FRAME_FAIL (R349): A packet failing its frame check at the head of the buffer draws a replay NAK. -/
  | packetFrameFail (f : RxFrame)
  /-- RECEIVE_BUFFER_FULL (R347): A packet arriving with no free receive slot draws a replay NAK with FULL. -/
  | receiveBufferFull (h : PktHead)
  /-- IDLE (R345): An IDLE packet carries return-lane acknowledgement and is otherwise discarded. -/
  | idlePacket (d : Bool) (h : PktHead) (payload : List Word)
  /-- TILE_WRITE (R73): A TILE_WRITE is checked and forwarded or applied, storing and sealing the tile or drawing a NAK. -/
  | tileWrite (h : PktHead) (payload : List Word) (dirRead : DirRead)
  /-- MEM_WRITE (R74): A MEM_WRITE is checked, and its bytes are written to layer memory, unsealing the tiles it touches. -/
  | memWrite (h : PktHead) (payload : List Word)
  /-- REG_WRITE (R348): A REG_WRITE applies consecutive register words one per cycle and is acknowledged. -/
  | regWrite (h : PktHead) (payload : List Word)
  /-- REG_READ (R348): A REG_READ waits for return-buffer room, reads n words and queues a READ_RESP. -/
  | regRead (h : PktHead) (payload : List Word)
  /-- COMMIT (R119): A COMMIT packet arms or withdraws a commit, as GLB_COMMIT does. -/
  | commitPacket (h : PktHead) (payload : List Word)
  /-- OBJECT_LIST (R142): An OBJECT_LIST packet delivers a list to MSK, which checks it. -/
  | objectList (h : PktHead) (payload : List Word)
  /-- PACKET_FORWARD (R356): A packet for another module is taken into D's replay buffer and sent downstream when credit allows. -/
  | packetForward
  /-- ACK_NAK (R350): An ACK or NAK received on D's return lane frees its replay buffer or triggers a replay. -/
  | ackNak (seq : BitVec 12) (nak : Bool) (replay : Bool) (status : Byte) (free : BitVec 5) (upset : Bool)
  /-- RETURN_PACKET_RECEIVED (R356): A READ_RESP or MSG from downstream is placed in U's return buffer and acknowledged. -/
  | returnPacketReceived (w0 w1 : Word) (rest : List Word) (eop : Bool) (upset : Bool)
  /-- D_REPLAY_TIMEOUT (R352): No acknowledgement progress for REPLAY_TO ticks makes D resend, and the fourth resend exits with cause 3. -/
  | dReplayTimeout (upset : Bool)
  /-- RETURN_RESEND_TIMEOUT (R353): RACK not advancing for RET_TO ticks resends the return lane, and the fourth resend drops the buffer. -/
  | returnResendTimeout
  /-- HOST_TIMEOUT (R358): No accepted sequenced packet for TIMEOUT × 100 ticks sets HOST_TIMEOUT. -/
  | hostTimeout
  /-- IRQ_MESSAGE (R357): An enabled IRQ event sends an IRQ message once the hold-off has run out. -/
  | irqMessage
  /-- LNK_INJECT (R361): A write to LNK_INJECT arms one link error injection, or is refused. -/
  | lnkInject (who : Initiator) (v : Word)
  /-- EPOCH_FRAME_RECEIVED (R374): At the epoch cycle a slave starts, confirms or resynchronises its raster from the EPOCH header. -/
  | epochFrameReceived (h : EpochFrame) (crcOk : Bool) (codeErrors : Nat) (cyc : Nat)
  /-- EPOCH_MISSING (R377): Reaching (f, 510 + VB, 0) without an on-time epoch sets FLYWHEEL. -/
  | epochMissing
  /-- EPOCH_LOST (R377): EP_TO consecutive flywheel frames raise FLT_CVN_EPOCH_LOST. -/
  | epochLost
  /-- SLAVE_RESYNC_LOAD (R376): At the master's next frame start a resynchronising slave loads position, frame, timing, c and a. -/
  | slaveResyncLoad
  /-- ENUM (R371): A write of 1 to CVN_CTRL.ENUM requests an ENUM frame. -/
  | enumRequest (who : Initiator) (en : Bool)
  /-- ENUM_FRAME_SEND (R371): Once the line is idle, the master sends the ENUM frame. -/
  | enumFrameSend
  /-- ENUM_FRAME_RECEIVED (R372): A slave takes the first token, and its position takes effect at the end of the frame. -/
  | enumFrameReceived (id : Byte) (good : Bool) (codeErrors : Nat) (fills : Nat) (token : Bool)
  /-- SHARE_RECEIVED (R381): A slave takes and checks its share and writes it to CVN_RX_SHARE. -/
  | shareReceived (bytes : List Byte) (read : ShareRead)
  /-- SHARE_DIM_WRITE (R381): Sixteen cycles after a good share with DIM_MAP, the shadow of LUM_DIM is written. -/
  | shareDimWrite
  /-- MASTER_FRAME_RECEIVED (R383): A master accepts a ring return and its status pairs, or flags two masters. -/
  | masterFrameReceived (r : RingFrame)
  /-- RING_RETURN_TIMEOUT (R383): No accepted return within 2 frames raises FLT_CVN_RING and clears RING_OK. -/
  | ringReturnTimeout
  /-- TDM_EDGE (R388): A heartbeat edge on TDM_IN is judged valid or invalid and counts towards presence. -/
  | tdmEdge (gap : Nat)
  /-- TDM_LOSS (R389): 160 island cycles without a valid edge after presence send the standby to CLAIM, or raise NO_TAKEOVER. -/
  | tdmLoss
  /-- STANDBY_WAIT_EXPIRY (R389): No presence since STANDBY entry for 160 or 10,000 cycles moves the module to CLAIM. -/
  | standbyWaitExpiry
  /-- CLAIM_TO_ACTIVE (R389): After 200 cycles in CLAIM, the module becomes ACTIVE and releases its standby hold. -/
  | claimToActive
  /-- ABDICATION (R389): An ACTIVE module that becomes FAULTED returns to STANDBY in the same island cycle. -/
  | abdication
  /-- TDM_OUT_MISMATCH (R388): TDM_OUT readback wrong for 10 cycles raises FLT_CVN_TDM_OUT. -/
  | tdmOutMismatch (bad : Bool)
  /-- TANDEM_DARK_END (R391): The tandem dark request ends after I_ref has read 0 for 1,000 cycles under the hold. -/
  | tandemDarkEnd
  /-- RESET_N_LOW (R426): RESET_N taken as low puts the module in OFF. -/
  | resetNLow
  /-- RESET_N_RELEASE (R426): The release of RESET_N with VDD in range, or the return of VDD, enters BOOT and reads the straps. -/
  | resetNRelease (vdd : Bool) (vddio : Nat)
  /-- BOOT_STEP_DONE (R403): A boot-loader step completes and the next one starts, ending in IDLE. -/
  | bootStepDone (b : BootIn)
  /-- BOOT_STEP_TIMEOUT (R403): A boot step exceeding its tick timeout fails its slot or raises FLT_CFG_NO_IMAGE. -/
  | bootStepTimeout
  /-- PWR_REQ (R427): A write of PWR_REQ.TARGET starts, reverses, latches or refuses a power transition. -/
  | pwrReq (who : Initiator) (v : Word)
  /-- PIX_READY (R428): PIX is ready in L1; the latch test runs and L2 issues the starting RETIME. -/
  | pixReady
  /-- RASTER_STOP (R428): In S1 the raster stops after line 511 + VB, the watchdog is disarmed and the island goes DARK. -/
  | rasterStop
  /-- TRANSITION_STEP_DONE (R430): A step of S2 or D1–D5 completes and the transition moves on or reaches its abort point. -/
  | transitionStepDone
  /-- TRANSITION_STEP_TIMEOUT (R428): A step not ended within STEP ticks raises FLT_PWR_STEP_TIMEOUT and abandons the transition. -/
  | transitionStepTimeout
  /-- SLAVE_START_TIMEOUT (R428): A SLAVE raster not started by an epoch within START ticks abandons L2. -/
  | slaveStartTimeout
  /-- WAKE_EVENT (R431): A wake source in DORMANT starts the wake sequence, or reverses a DORMANT entry. -/
  | wakeEvent (source : BitVec 3)
  /-- WAKE_STEP_READY (R431): The ready signal of a wake step starts the next step, ending in IDLE. -/
  | wakeStepReady (retentionOk : Bool)
  /-- WAKE_STEP_TIMEOUT (R431): A wake step that times out raises FLT_PWR_WAKE and restarts the wake, or runs BOOT. -/
  | wakeStepTimeout
  /-- RAIL_WINDOW_FAULT (R436): A supply rail outside its window at 2 ticks raises its PWR fault. -/
  | railWindowFault
  /-- PLL_LOCK_LOSS (R436): Loss of main PLL lock raises FLT_PWR_PLL. -/
  | pllLockLoss
  /-- PLL_RELOCK (R436): The main PLL relocks by itself and the array-clock blocks resume. -/
  | pllRelock
  /-- VPIX_LOSS (R500): VPIX below 0.80 V makes PIX count as off, with latches lost. -/
  | vpixLoss
  /-- VPIX_RESTORED (R500): VPIX back in its window for 2 ticks powers PIX up, with latches, masks and CRCs reset. -/
  | vpixRestored
  /-- FREEZE_REQUEST (R421): A filtered high on FREEZE stops the raster and the CORE clocks, or is refused. -/
  | freezeRequest (high : Bool)
  /-- GPIO3_RISING_EDGE (R52): A filtered GPIO3 edge is a FOLLOW cadence event or a wake event. -/
  | gpio3RisingEdge
  /-- START (R438): A job command START in a slot begins the job type named in TYPE, or fails with a refusal. -/
  | startJob (who : Initiator) (n : BitVec 2) (t : BitVec 4)
  /-- MEM_SCAN (R87): START of a MEM_SCAN job copies the range and seed and begins the CRC scan, or refuses it. -/
  | memScan (who : Initiator) (n : BitVec 2)
  /-- NVM_WRITE (R411): START of an NVM_WRITE job copies source, destination and length and begins writing units, or refuses it. -/
  | nvmWrite (who : Initiator) (n : BitVec 2)
  /-- BIST_RUN (R453): START of a BIST_RUN job begins a ROTATE or a POST run, or refuses it. -/
  | bistRun (who : Initiator) (n : BitVec 2)
  /-- CAL_RUN (R458): START of a CAL_RUN job begins measuring the selected items, or refuses it. -/
  | calRun (who : Initiator) (n : BitVec 2)
  /-- IMAGE_LOAD (R405): START of an IMAGE_LOAD job reads an image into staging and checks it, or refuses it. -/
  | imageLoad (who : Initiator) (n : BitVec 2)
  /-- RESTRUCTURE (R406): START of a RESTRUCTURE job places the CFG oasis request to apply the staged image, or refuses it. -/
  | restructure (who : Initiator) (n : BitVec 2)
  /-- DEFECT_REBUILD (R219): START of a DEFECT_REBUILD job runs STORE, CLEAR or RESTORE of the defect map. -/
  | defectRebuild (who : Initiator) (n : BitVec 2)
  /-- LIFECYCLE (R417): START of a LIFECYCLE job checks the path and token towards TARGET, or refuses it. -/
  | lifecycle (who : Initiator) (n : BitVec 2)
  /-- REC_CHECKPOINT (R471): START of a REC_CHECKPOINT job starts a recorder checkpoint, or refuses it as BUSY. -/
  | recCheckpoint (who : Initiator) (n : BitVec 2)
  /-- SUSPEND (R438): The SUSPEND command asks a running job to stop at its next suspension point. -/
  | suspendJob (who : Initiator) (n : BitVec 2)
  /-- JOB_SUSPENDED (R438): A job reaching its suspension point with SUSPEND pending enters SUSPENDED. -/
  | jobSuspended (n : BitVec 2) (pos : Nat)
  /-- RESUME (R438): The RESUME command continues a suspended job from where it stood. -/
  | resumeJob (who : Initiator) (n : BitVec 2)
  /-- CANCEL (R438): The CANCEL command cancels a running or suspended job, keeping the state before or after its commit point. -/
  | cancelJob (who : Initiator) (n : BitVec 2)
  /-- SCAN_COMPLETE (R89): A memory scan writes CHK_RESULT at its commit point and ends DONE. -/
  | scanComplete
  /-- NVM_UNIT_START (R410): The non-volatile writer starts the next 64-byte unit once NVM_OK = 1 and it is that writer's turn. -/
  | nvmUnitStart
  /-- NVM_UNIT_DONE (R410): A write unit completes, possibly reaching its job's commit point. -/
  | nvmUnitDone
  /-- IMAGE_STAGED (R405): An image read and checked without fault sets STAGED, or the job fails. -/
  | imageStaged (flash : List Byte)
  /-- RESTRUCTURE_SWAP (R407): At a commit instant after an oasis frame, the staged structure takes effect in one cycle. -/
  | restructureSwap
  /-- RESTRUCTURE_NO_OASIS (R407): No swap within 8 commit instants ends the job FAILED with NO_OASIS. -/
  | restructureNoOasis
  /-- LIFECYCLE_FUSE_BLOW (R417): After NVM_OK, the life-cycle fuse is blown and the new state governs. -/
  | lifecycleFuseBlow (verified : Bool)
  /-- DROP (R405): A write of 1 to CFG_IMG.DROP discards a staged image. -/
  | dropImage (who : Initiator) (v : Word)
  /-- KEY_WRITE (R415): A write of a CFG_KEY word is stored in BLANK and discarded otherwise. -/
  | keyWrite (who : Initiator) (n : BitVec 3) (v : Word)
  /-- LK0640_ENTRY (R420): The JTAG LK0640 test entry removes light, stops the raster and clears the secrets. -/
  | lk0640Entry
  /-- SCAN (R416): The JTAG SCAN instruction opens the internal chains, clearing the secrets first, or is refused. -/
  | scanEntry
  /-- IDCODE (R418): The JTAG IDCODE instruction returns GLB_ID. -/
  | idcode
  /-- REGACC_READ (R419): A JTAG REGACC read of one word is checked and performed as initiator 14. -/
  | regaccRead (a : Word)
  /-- REGACC_WRITE (R419): A JTAG REGACC write of one word is checked and applied as initiator 14. -/
  | regaccWrite (a : Word) (v : Word)
  /-- POST_GROUP_DONE (R444): A POST group completes, and the next group starts or POST ends with its result. -/
  | postGroupDone (banks : BitVec 17) (rams : BitVec 4)
  /-- LATCH_TEST_ROW (R448): The latch test writes and reads back patterns and mask levels for one row. -/
  | latchTestRow (failed : List Nat)
  /-- BG_TEST_SLICE (R450): A background March SS slice of the bank under TEST runs each line, or every 65,536 cycles while stopped. -/
  | bgTestSlice
  /-- BANK_TEST_DONE (R451): The background test of a bank ends, and the bank passes or is retired. -/
  | bankTestDone (pass : Bool)
  /-- MIGRATE_DONE (R85): After the last tile is copied, the logical bank switches to the nomad bank in the first idle cycle. -/
  | migrateDone
  /-- BG_EN_WRITE (R85): A write of LMC_CTRL.BG_EN starts rotation or abandons MIGRATE. -/
  | bgEnWrite (who : Initiator) (v : Word)
  /-- BANK_EN_WRITE (R86): A write of LMC_BANK_EN powers banks on or off, and tiles of banks switched off become EMPTY. -/
  | bankEnWrite (who : Initiator) (v : Word)
  /-- SEAL (R75): A write of LMC_SEAL starts a seal of a tile, or is refused or discarded. -/
  | sealTile (who : Initiator) (v : Word)
  /-- SEAL_COMPLETE (R75): The seal's CRC comparison ends, and BUSY clears with the directory update. -/
  | sealComplete (dirRead : DirRead)
  /-- CMP_TT_DATA_READ (R105): A read of CMP_TT_DATA returns a table entry, with the index incrementing if INC is set. -/
  | cmpTtDataRead (who : Initiator)
  /-- CMP_TT_DATA_WRITE (R105): A write of CMP_TT_DATA stores an entry unless it is in the active bank. -/
  | cmpTtDataWrite (who : Initiator) (v : Word)
  /-- SCL_COEF_DATA_READ (R134): A read of SCL_COEF_DATA returns a coefficient, with auto-increment. -/
  | sclCoefDataRead (who : Initiator)
  /-- SCL_COEF_DATA_WRITE (R134): A write of SCL_COEF_DATA stores a coefficient unless it is in the active bank. -/
  | sclCoefDataWrite (who : Initiator) (v : Word)
  /-- ARY_PC_DATA_READ (R192): A read of ARY_PC_DATA returns the pre-charge tap of COL, with auto-increment. -/
  | aryPcDataRead (who : Initiator)
  /-- ARY_PC_DATA_WRITE (R192): A write of ARY_PC_DATA sets a column's pre-charge tap from the next write slot. -/
  | aryPcDataWrite (who : Initiator) (v : Word)
  /-- CVN_SH_DATA_ACCESS (R396): A read or write of the share RAM word, with auto-increment. -/
  | cvnShDataAccess (who : Initiator) (write : Option Word)
  /-- HLT_DEFECT_SET (R215): A write raises a pixel to DEAD or ISOLATED with cause MANUAL. -/
  | hltDefectSet (who : Initiator) (v : Word)
  /-- HLT_DLOG0_READ (R216): A read of HLT_DLOG0 returns and removes the oldest defect-log entry. -/
  | hltDlog0Read (who : Initiator)
  /-- DEFECT_LIMIT_WRITE (R217): A write of HLT_DEFECT_LIMIT compares the defect count and may raise FLT_HLT_DEFECT_LIMIT. -/
  | defectLimitWrite (who : Initiator) (v : Word)
  /-- SENSE_ROW_FAULT (R211): A row discarded in 3 consecutive frames raises FLT_HLT_SENSE_ROW. -/
  | senseRowFault
  /-- RB_PERSIST (R221): A row that mismatches in PERSIST consecutive frames raises FLT_HLT_RB_PERSIST. -/
  | rbPersist
  /-- SIGNATURE_MISS_LIMIT (R225): A region failing its comparison MISS_LIMIT times in a row raises FLT_HLT_SIG_OUT or FLT_HLT_SIG_RB. -/
  | signatureMissLimit
  /-- MSK_SUBMIT (R142): A write of MSK_SUBMIT.LEN submits the staged list for checking and acceptance. -/
  | mskSubmit (who : Initiator) (v : Word)
  /-- LIST_TIMEOUT (R158): EPOCHS consecutive epochs without a list set TIMED_OUT and run a pass under TO_ACTION. -/
  | listTimeout
  /-- GAIN_RELOAD (R169): A write of 1 to LUM_GAIN_RELOAD.GO starts a reload of the gain map. -/
  | gainReload (who : Initiator) (v : Word)
  /-- COMMIT_ARM (R122): A GLB_COMMIT write with ARM = 1 is checked for readiness and alive, and arms a commit or is rejected. -/
  | commitArm (who : Initiator) (rdy : BitVec 12) (alive : Byte)
  /-- COMMIT_WITHDRAW (R119): A GLB_COMMIT write with ARM = 0 withdraws any armed commit. -/
  | commitWithdraw (who : Initiator)
  /-- COMMIT_STALE (R124): STALE consecutive instants without a taken commit raise FLT_GLB_STALE. -/
  | commitStale
  /-- FOLLOW_TIMEOUT (R54): TIMEOUT follow windows without a cadence event clear the lock and raise FLT_RAS_FOLLOW_LOST. -/
  | followTimeout
  /-- OPERATING_SECOND (R464): Each 100,000 ticks with CORE on adds an operating second, fills the histogram bins and may start a periodic checkpoint. -/
  | operatingSecond (upset : Option (Bool × Nat))
  /-- LIT_SECOND (R463): Each 100,000 lit ticks adds a lit second. -/
  | litSecond
  /-- CHECKPOINT_START (R468): A checkpoint swaps the accumulator banks and begins writing the copy not in force. -/
  | checkpointStart
  /-- CHECKPOINT_COMMIT (R468): The writing of the check word makes the new copy in force and clears the frozen bank. -/
  | checkpointCommit
  /-- CHECKPOINT_TIMEOUT (R469): No commit within CP_TO seconds fails the checkpoint and merges the banks back. -/
  | checkpointTimeout
  /-- CAL_AUTO_TRIGGER (R457): An automatic calibration item starts on link ACTIVE, raster start, drift or rail OFF. -/
  | calAutoTrigger
  /-- CAL_ITEM_COMPLETE (R455): A measurement pair ends, and the item is accepted, measured again or failed by the mirage check. -/
  | calItemComplete (p : CalPair)
  /-- STATUS (R478): An SPI STATUS or status-only frame returns the status byte and response buffer without access. -/
  | spiStatus (tag : Byte) (len : BitVec 16) (a : Word)
  /-- RD (R477): An SPI RD frame reads LEN consecutive words. -/
  | spiRd (tag : Byte) (len : BitVec 16) (a : Word)
  /-- WR (R477): An SPI WR frame writes LEN consecutive words. -/
  | spiWr (tag : Byte) (len : BitVec 16) (a : Word) (data : List Word)
  /-- RD_FIX (R477): An SPI RD_FIX frame reads one address LEN times. -/
  | spiRdFix (tag : Byte) (len : BitVec 16) (a : Word)
  /-- WR_FIX (R477): An SPI WR_FIX frame writes one address LEN times. -/
  | spiWrFix (tag : Byte) (len : BitVec 16) (a : Word) (data : List Word)
  /-- MEM_RD (R477): An SPI MEM_RD frame reads LEN bytes of layer or non-volatile memory. -/
  | spiMemRd (tag : Byte) (len : BitVec 16) (a : Word)
  /-- MEM_WR (R485): An SPI MEM_WR frame writes LEN bytes of layer memory, decided as a whole. -/
  | spiMemWr (tag : Byte) (len : BitVec 16) (a : Word) (data : List Byte)
  /-- SPI_FRAME_REJECTED (R479): An SPI frame judged SHORT, CRC or OVERRUN makes no access and sets LOST. -/
  | spiFrameRejected (crc : Bool)
  /-- SPI_TIMEOUT (R479): SPI_SCK idle for 100 ticks with SPI_CS_N low judges the frame TIMEOUT. -/
  | spiTimeout
  /-- SPI_RESPONSE_READY (R482): The last word of an accepted frame is decided, the response buffer fills and RSP_VALID is set. -/
  | spiResponseReady
  /-- IRQ_STATUS_CLEAR (R491): A W1C write to GLB_IRQ_STATUS clears event bits and updates IRQ_N. -/
  | irqStatusClear (who : Initiator) (v : Word)
  /-- IRQ_RAW_READ (R491): A read of GLB_IRQ_RAW returns the raw events and clears them. -/
  | irqRawRead (who : Initiator)
  /-- READ_CLEAR_REGISTER (R14): A read of an RC or RC1 register returns its value and clears or sets its fields. -/
  | readClearRegister (who : Initiator) (a : BitVec 17)
  /-- REGISTER_WRITE (R14): A write to a register without a row of its own is decided and applied by its access code. -/
  | registerWrite (who : Initiator) (a : BitVec 17) (v : Word)
  /-- VDD_BELOW_THRESHOLD (R426): VDD falling below its power-on threshold puts the module in OFF and withdraws the clock-off grant, so the island removes light. -/
  | vddBelowThreshold
  /-- VDDA_LNK_LOSS (R500): Loss of VDDA_LNK takes both link ports out of ACTIVE and holds REFOUT at differential low. -/
  | vddaLnkLoss
  /-- NOMAD_DOMAIN_READY (R85): The nomad bank's MEM domain becomes ready and MIGRATE of the next logical bank begins. -/
  | nomadDomainReady
  /-- RESTORE_MERGE_DONE (R219): A DEFECT_REBUILD job in RESTORE mode merges its last pixel, reaches its commit point and ends DONE. -/
  | restoreMergeDone
  /-- BODY_READ_TIMEOUT (R405): An IMAGE_LOAD body read that overruns 50,000 ticks ends the job FAILED with TIMEOUT. -/
  | bodyReadTimeout
  /-- PRE_CHARGE_CALIBRATION_SLOT (R456): In slot N_SLOTS − 1 of a calibration-window line, each column is pre-charged at its candidate tap and a reference-latch sample is taken. -/
  | preChargeCalibrationSlot (ones : List Nat)
  /-- PACKET_TYPE_NOT_USED (R345): A packet of an unused type, or of a return type on the forward lanes, at the head of U's buffer is refused with a non-replay NAK of status TYPE. -/
  | packetTypeNotUsed (type : BitVec 4) (h : PktHead) (payload : List Word)
  /-- SPI_OP_NOT_USED (R478): An accepted SPI frame whose OP is not used is refused as a whole with RESULT TYPE. -/
  | spiOpNotUsed (op : BitVec 4) (tag : Byte) (len : BitVec 16) (a : Word)
  deriving DecidableEq, Repr

end Sys2Proof
end

