-- ==== Sys2Proof/Decode.lean ====
section
/-!
DEFINITION. The words of the opcode table.  No row of spec/opcode_table.json gives bits: a command of this block is an
event with the values it carries, and no word spells one.
-/

namespace Sys2Proof

/-- The command that a word of `nbits` bits spells by the table: none, since no row of the table has bits. -/
def decodeTableWord (_nbits _w : Nat) : Option Instr := none

end Sys2Proof
end

