-- ==== Sys2Proof/Config.lean ====
section
/-!
DEFINITION. What the spec leaves to the unit or leaves open.  An `opaque` constant is a free value: it has
no body, so nothing can be proved of it that does not hold for every value.
-/

namespace Sys2Proof.Config

/-- The unit's number, which CFG_CHAL0 shows (R417 leaves the unit its number). -/
opaque unitId : BitVec 32

/-- The random challenge word of the n-th drawing (CFG_CHAL1). -/
opaque challenge : Nat → BitVec 32

/-- The reading, as a T code, of a count whose sensor has a trim with N1 = N2 (R259 gives no value). -/
opaque trimReading : Nat → Int

/-- Whether the mean of 16 counts with the given sum is rounded up (R454 gives no rounding). -/
opaque trimRoundsUp : Nat → Bool

/-- The sampler phase of the n-th LINK measurement in which every position disagrees (R454 gives none). -/
opaque linkPhase : Nat → BitVec 5

/-- Whether a write unit that a loss of VDD interrupts holds its new bytes (R410 leaves it open). -/
opaque unitWritten : Nat → Bool

/-- Pixels that a layer has delivered of a late row when its deadline passes and no command says so: the n-th such row,
the layer (R110 leaves the pace of delivery open). -/
opaque delivered : Nat → Nat → Nat

/-- The PRE, POST and PRESET bits of the request that the module sends for a receive lane after n requests (R336 leaves the
search to the module). -/
opaque eqRequest : Nat → Nat → BitVec 5

/-- The informative EYE of a request (R346). -/
opaque eye : Nat → Nat → BitVec 16

/-- INDEX of the NAK of a MEM_WRITE whose first byte in a bank that is off has an index above 255 (R346 gives INDEX 8 bits). -/
opaque ackIndex : Nat → BitVec 8

/-- The RESULT that GLB_ACC_ERR shows for a REGACC that the life cycle refuses: R347 has no code for REFUSED (R418, R419). -/
opaque refusedResult : BitVec 8

/-- The tiles that an abandoned MIGRATE had copied (R85 leaves its pace open); 768 and more stand for all. -/
opaque tilesCopied : Nat → Nat

/-- The CRC field of a directory entry after its n-th double-bit error (R71 gives none). -/
opaque lostCrc : Nat → BitVec 32

end Sys2Proof.Config
end

