-- ==== Sys2Proof/Machine/Bytes.lean ====
section
/-!
DEFINITION. Byte order, the check codes of R9 and R10, and the bit-field reads used throughout.
-/

namespace Sys2Proof.Machine

/-- Bits `hi` down to `lo` of a natural number (R11). -/
def bitsOf (n hi lo : Nat) : Nat := n / 2 ^ lo % 2 ^ (hi + 1 - lo)

/-- Bit `i` of a natural number. -/
def bitOf (n i : Nat) : Bool := n / 2 ^ i % 2 == 1

/-- 1 for true, 0 for false. -/
def b2n (b : Bool) : Nat := if b then 1 else 0

/-- The lesser of a count plus one and its ceiling: the counters saturate. -/
def satInc (n top : Nat) : Nat := if n < top then n + 1 else top

/-- One bit of the reflected CRC-32 step. -/
def crc32Bit (c : Word) : Word :=
  if c.getLsbD 0 then (c >>> 1) ^^^ 0xEDB88320#32 else c >>> 1

/-- `n` bits of the reflected CRC-32 step. -/
def crc32Bits : Nat → Word → Word
  | 0, c => c
  | n + 1, c => crc32Bits n (crc32Bit c)

/-- One byte into a running CRC-32. -/
def crc32Byte (c : Word) (b : Byte) : Word := crc32Bits 8 (c ^^^ b.setWidth 32)

/-- A running CRC-32 over bytes, from a given register value, before the final XOR. -/
def crc32Run (c : Word) (bs : List Byte) : Word := bs.foldl crc32Byte c

/-- CRC-32 with the parameters of R9. -/
def crc32 (bs : List Byte) : Word := crc32Run 0xFFFFFFFF#32 bs ^^^ 0xFFFFFFFF#32

/-- One bit of the CRC-8 step, polynomial 0x2F. -/
def crc8Bit (c : Byte) : Byte := if c.getLsbD 7 then (c <<< 1) ^^^ 0x2F#8 else c <<< 1

/-- `n` bits of the CRC-8 step. -/
def crc8Bits : Nat → Byte → Byte
  | 0, c => c
  | n + 1, c => crc8Bits n (crc8Bit c)

/-- CRC-8 with the parameters of R10. -/
def crc8 (bs : List Byte) : Byte :=
  bs.foldl (fun c b => crc8Bits 8 (c ^^^ b)) 0xFF#8 ^^^ 0xFF#8

/-- Bytes of a word, least significant first (R12). -/
def leBytes (w : Word) : List Byte :=
  [w.extractLsb' 0 8, w.extractLsb' 8 8, w.extractLsb' 16 8, w.extractLsb' 24 8]

/-- Bytes of a word, most significant first (R475). -/
def beBytes (w : Word) : List Byte := (leBytes w).reverse

/-- The number that bytes spell, least significant first (R12). -/
def leNat : List Byte → Nat
  | [] => 0
  | b :: t => b.toNat + 256 * leNat t

/-- `n` bytes of a number, least significant first. -/
def natBytes : Nat → Nat → List Byte
  | 0, _ => []
  | n + 1, v => BitVec.ofNat 8 v :: natBytes n (v / 256)

/-- The words that bytes spell, least significant byte first; a last part of fewer than four bytes
counts as if it were followed by zeros. -/
def leWords : List Byte → List Word
  | [] => []
  | [a] => [BitVec.ofNat 32 (leNat [a])]
  | [a, b] => [BitVec.ofNat 32 (leNat [a, b])]
  | [a, b, c] => [BitVec.ofNat 32 (leNat [a, b, c])]
  | a :: b :: c :: d :: t => BitVec.ofNat 32 (leNat [a, b, c, d]) :: leWords t

/-- Two's complement reading of the low `w` bits of `n`. -/
def toSigned (w n : Nat) : Int :=
  let m := n % 2 ^ w
  if m < 2 ^ (w - 1) then (m : Int) else (m : Int) - (2 ^ w : Nat)

/-- The low `w` bits of an integer, in two's complement. -/
def ofSigned (w : Nat) (i : Int) : Nat := (i % ((2 ^ w : Nat) : Int)).toNat

/-- `i` limited to lo ≤ · ≤ hi. -/
def clampInt (i lo hi : Int) : Int := if i < lo then lo else if hi < i then hi else i

/-- Odd parity of the `n` low bits of `v`: true if the number of ones among them is odd. -/
def oddOnes : Nat → Nat → Bool
  | 0, _ => false
  | n + 1, v => xor (v % 2 == 1) (oddOnes n (v / 2))

end Sys2Proof.Machine
end

