-- ==== Sys2Proof/Machine/FaultTable.lean ====
section
/-!
DEFINITION. The fault table: every code of the chapters' fault tables with its default class
(R304), and the INIT and ACCESS values that R512 and the owning chapters give it.
-/

namespace Sys2Proof.Machine.Code

/-- FLT_RAS_STALL, default class C4. -/
def RAS_STALL : Nat := 0x01
/-- FLT_RAS_FOLLOW_LOST, default class C0. -/
def RAS_FOLLOW_LOST : Nat := 0x02
/-- FLT_LMC_TILE_CRC, default class C1. -/
def LMC_TILE_CRC : Nat := 0x10
/-- FLT_LMC_DIR_CORR, default class C0. -/
def LMC_DIR_CORR : Nat := 0x11
/-- FLT_LMC_DIR_DED, default class C1. -/
def LMC_DIR_DED : Nat := 0x12
/-- FLT_LMC_UNSEALED_USE, default class C0. -/
def LMC_UNSEALED_USE : Nat := 0x13
/-- FLT_LMC_LOCKED_WRITE, default class C0. -/
def LMC_LOCKED_WRITE : Nat := 0x14
/-- FLT_LMC_ARRIVAL_CRC, default class C0. -/
def LMC_ARRIVAL_CRC : Nat := 0x15
/-- FLT_LMC_BANK_RETIRED, default class C1. -/
def LMC_BANK_RETIRED : Nat := 0x16
/-- FLT_CMP_LAYER_URUN, default class C0. -/
def CMP_LAYER_URUN : Nat := 0x20
/-- FLT_CMP_OUT_URUN, default class C0. -/
def CMP_OUT_URUN : Nat := 0x21
/-- FLT_CMP_OUT_STALL, default class C1. -/
def CMP_OUT_STALL : Nat := 0x22
/-- FLT_CMP_TT_PARITY, default class C1. -/
def CMP_TT_PARITY : Nat := 0x23
/-- FLT_GLB_COMMIT_REJ, default class C0. -/
def GLB_COMMIT_REJ : Nat := 0x24
/-- FLT_GLB_ALIVE, default class C1. -/
def GLB_ALIVE : Nat := 0x25
/-- FLT_GLB_STALE, default class C1. -/
def GLB_STALE : Nat := 0x26
/-- FLT_SCL_DEGRADED, default class C0. -/
def SCL_DEGRADED : Nat := 0x27
/-- FLT_SCL_COEF_PARITY, default class C1. -/
def SCL_COEF_PARITY : Nat := 0x28
/-- FLT_MSK_LIST_REJ, default class C0. -/
def MSK_LIST_REJ : Nat := 0x30
/-- FLT_MSK_LIST_STALE, default class C0. -/
def MSK_LIST_STALE : Nat := 0x31
/-- FLT_MSK_LIST_TIMEOUT, default class C1. -/
def MSK_LIST_TIMEOUT : Nat := 0x32
/-- FLT_MSK_IMAGE_PARITY, default class C0. -/
def MSK_IMAGE_PARITY : Nat := 0x33
/-- FLT_MSK_EPOCH_SKIP, default class C0. -/
def MSK_EPOCH_SKIP : Nat := 0x34
/-- FLT_LUM_GAIN_PARITY, default class C0. -/
def LUM_GAIN_PARITY : Nat := 0x40
/-- FLT_LUM_MAP_MISMATCH, default class C1. -/
def LUM_MAP_MISMATCH : Nat := 0x41
/-- FLT_LUM_BUDGET_CONT, default class C0. -/
def LUM_BUDGET_CONT : Nat := 0x42
/-- FLT_LUM_GAIN_ROW, default class C1. -/
def LUM_GAIN_ROW : Nat := 0x43
/-- FLT_ARY_ENGINE_LOCK, default class C3. -/
def ARY_ENGINE_LOCK : Nat := 0x48
/-- FLT_ARY_ISET, default class C3. -/
def ARY_ISET : Nat := 0x49
/-- FLT_ARY_REF_MON, default class C3. -/
def ARY_REF_MON : Nat := 0x4A
/-- FLT_ARY_DAC_CLAMP, default class C0. -/
def ARY_DAC_CLAMP : Nat := 0x4B
/-- FLT_HLT_PIXEL_DEFECT, default class C0. -/
def HLT_PIXEL_DEFECT : Nat := 0x50
/-- FLT_HLT_ISO_LEAK, default class C4. -/
def HLT_ISO_LEAK : Nat := 0x51
/-- FLT_HLT_SENSE_ROW, default class C1. -/
def HLT_SENSE_ROW : Nat := 0x52
/-- FLT_HLT_RB_PARITY, default class C0. -/
def HLT_RB_PARITY : Nat := 0x53
/-- FLT_HLT_RB_MISMATCH, default class C1. -/
def HLT_RB_MISMATCH : Nat := 0x54
/-- FLT_HLT_RB_PERSIST, default class C2. -/
def HLT_RB_PERSIST : Nat := 0x55
/-- FLT_HLT_SIG_OUT, default class C1. -/
def HLT_SIG_OUT : Nat := 0x56
/-- FLT_HLT_SIG_RB, default class C2. -/
def HLT_SIG_RB : Nat := 0x57
/-- FLT_HLT_DEFECT_LIMIT, default class C1. -/
def HLT_DEFECT_LIMIT : Nat := 0x58
/-- FLT_HLT_MAP_NVM, default class C1. -/
def HLT_MAP_NVM : Nat := 0x59
/-- FLT_LPE_FALLBACK, default class C1. -/
def LPE_FALLBACK : Nat := 0x60
/-- FLT_LPE_PARITY, default class C0. -/
def LPE_PARITY : Nat := 0x61
/-- FLT_LPE_CREST, default class C1. -/
def LPE_CREST : Nat := 0x62
/-- FLT_LPE_COMPLIANCE, default class C1. -/
def LPE_COMPLIANCE : Nat := 0x63
/-- FLT_LPE_PHASE_OC, default class C3. -/
def LPE_PHASE_OC : Nat := 0x64
/-- FLT_LPE_OVP, default class C4. -/
def LPE_OVP : Nat := 0x65
/-- FLT_LPE_UVP, default class C3. -/
def LPE_UVP : Nat := 0x66
/-- FLT_LPE_STAGE, default class C3. -/
def LPE_STAGE : Nat := 0x67
/-- FLT_LPE_ISNS_RANGE, default class C3. -/
def LPE_ISNS_RANGE : Nat := 0x68
/-- FLT_LPE_ISNS_REF, default class C3. -/
def LPE_ISNS_REF : Nat := 0x69
/-- FLT_LPE_RAIL_START, default class C3. -/
def LPE_RAIL_START : Nat := 0x6A
/-- FLT_LPE_FAN, default class C1. -/
def LPE_FAN : Nat := 0x6B
/-- FLT_THM_ZONE_OFF, default class C1. -/
def THM_ZONE_OFF : Nat := 0x70
/-- FLT_THM_THROTTLE, default class C0. -/
def THM_THROTTLE : Nat := 0x71
/-- FLT_THM_THROTTLE_REJ, default class C2. -/
def THM_THROTTLE_REJ : Nat := 0x72
/-- FLT_THM_SHUTDOWN, default class C4. -/
def THM_SHUTDOWN : Nat := 0x73
/-- FLT_THM_SENSOR, default class C1. -/
def THM_SENSOR : Nat := 0x74
/-- FLT_THM_TRIM, default class C1. -/
def THM_TRIM : Nat := 0x75
/-- FLT_THM_NVM_WINDOW, default class C0. -/
def THM_NVM_WINDOW : Nat := 0x76
/-- FLT_SAF_DARK_DISC, default class C4. -/
def SAF_DARK_DISC : Nat := 0x80
/-- FLT_SAF_SRST_STUCK, default class C1. -/
def SAF_SRST_STUCK : Nat := 0x81
/-- FLT_SAF_SRST_REFUSED, default class C0. -/
def SAF_SRST_REFUSED : Nat := 0x82
/-- FLT_SAF_SEAL_OPEN, default class C4. -/
def SAF_SEAL_OPEN : Nat := 0x83
/-- FLT_SAF_SEAL_MISMATCH, default class C4. -/
def SAF_SEAL_MISMATCH : Nat := 0x84
/-- FLT_SAF_ENVELOPE, default class C4. -/
def SAF_ENVELOPE : Nat := 0x85
/-- FLT_SAF_LRM_FB, default class C4. -/
def SAF_LRM_FB : Nat := 0x86
/-- FLT_SAF_DARKNET, default class C4. -/
def SAF_DARKNET : Nat := 0x87
/-- FLT_SAF_CLK_ARRAY, default class C4. -/
def SAF_CLK_ARRAY : Nat := 0x88
/-- FLT_SAF_CLK_OSCIN, default class C1. -/
def SAF_CLK_OSCIN : Nat := 0x89
/-- FLT_SAF_CLK_ISLAND, default class C4. -/
def SAF_CLK_ISLAND : Nat := 0x8A
/-- FLT_SAF_OASIS_COPY, default class C1. -/
def SAF_OASIS_COPY : Nat := 0x8B
/-- FLT_SAF_OASIS_NONE, default class C4. -/
def SAF_OASIS_NONE : Nat := 0x8C
/-- FLT_SAF_OUT, default class C1. -/
def SAF_OUT : Nat := 0x8D
/-- FLT_SAF_SUPPLY, default class C4. -/
def SAF_SUPPLY : Nat := 0x8E
/-- FLT_LNK_U_DOWN, default class C1. -/
def LNK_U_DOWN : Nat := 0x90
/-- FLT_LNK_D_DOWN, default class C1. -/
def LNK_D_DOWN : Nat := 0x91
/-- FLT_LNK_TRAIN, default class C0. -/
def LNK_TRAIN : Nat := 0x92
/-- FLT_LNK_WIRING, default class C1. -/
def LNK_WIRING : Nat := 0x93
/-- FLT_LNK_CRC, default class C0. -/
def LNK_CRC : Nat := 0x94
/-- FLT_LNK_REFUSED, default class C0. -/
def LNK_REFUSED : Nat := 0x95
/-- FLT_LNK_RETURN, default class C1. -/
def LNK_RETURN : Nat := 0x96
/-- FLT_LNK_HOST_TIMEOUT, default class C0. -/
def LNK_HOST_TIMEOUT : Nat := 0x97
/-- FLT_LNK_BUF_PARITY, default class C1. -/
def LNK_BUF_PARITY : Nat := 0x98
/-- FLT_CVN_CODE, default class C0. -/
def CVN_CODE : Nat := 0xA0
/-- FLT_CVN_ENUM, default class C1. -/
def CVN_ENUM : Nat := 0xA1
/-- FLT_CVN_EPOCH_LATE, default class C0. -/
def CVN_EPOCH_LATE : Nat := 0xA2
/-- FLT_CVN_RESYNC, default class C0. -/
def CVN_RESYNC : Nat := 0xA3
/-- FLT_CVN_EPOCH_LOST, default class C1. -/
def CVN_EPOCH_LOST : Nat := 0xA4
/-- FLT_CVN_SLAVE_BANK, default class C3. -/
def CVN_SLAVE_BANK : Nat := 0xA5
/-- FLT_CVN_TWO_MASTERS, default class C1. -/
def CVN_TWO_MASTERS : Nat := 0xA6
/-- FLT_CVN_RING, default class C1. -/
def CVN_RING : Nat := 0xA7
/-- FLT_CVN_CHAIN_ALARM, default class C0. -/
def CVN_CHAIN_ALARM : Nat := 0xA8
/-- FLT_CVN_TDM_TAKEOVER, default class C1. -/
def CVN_TDM_TAKEOVER : Nat := 0xA9
/-- FLT_CVN_TDM_CONFLICT, default class C1. -/
def CVN_TDM_CONFLICT : Nat := 0xAA
/-- FLT_CVN_TDM_OUT, default class C1. -/
def CVN_TDM_OUT : Nat := 0xAB
/-- FLT_CVN_TDM_NO_TAKEOVER, default class C1. -/
def CVN_TDM_NO_TAKEOVER : Nat := 0xAC
/-- FLT_CFG_NO_IMAGE, default class C1. -/
def CFG_NO_IMAGE : Nat := 0xB0
/-- FLT_CFG_SLOT_BAD, default class C0. -/
def CFG_SLOT_BAD : Nat := 0xB1
/-- FLT_CFG_FUSE, default class C1. -/
def CFG_FUSE : Nat := 0xB2
/-- FLT_CFG_GAIN_ROW, default class C1. -/
def CFG_GAIN_ROW : Nat := 0xB3
/-- FLT_CFG_NVM_RECORD, default class C1. -/
def CFG_NVM_RECORD : Nat := 0xB4
/-- FLT_CFG_TEST_ENTRY, default class C4. -/
def CFG_TEST_ENTRY : Nat := 0xB5
/-- FLT_CFG_END, default class C4. -/
def CFG_END : Nat := 0xB6
/-- FLT_CFG_FREEZE_REF, default class C0. -/
def CFG_FREEZE_REF : Nat := 0xB7
/-- FLT_PWR_OFFBLOCK, default class C0. -/
def PWR_OFFBLOCK : Nat := 0xC0
/-- FLT_PWR_STEP_TIMEOUT, default class C1. -/
def PWR_STEP_TIMEOUT : Nat := 0xC1
/-- FLT_PWR_WAKE, default class C1. -/
def PWR_WAKE : Nat := 0xC2
/-- FLT_PWR_VDD, default class C4. -/
def PWR_VDD : Nat := 0xC3
/-- FLT_PWR_VPIX, default class C3. -/
def PWR_VPIX : Nat := 0xC4
/-- FLT_PWR_VDDA_LNK, default class C1. -/
def PWR_VDDA_LNK : Nat := 0xC5
/-- FLT_PWR_VDDIO, default class C4. -/
def PWR_VDDIO : Nat := 0xC6
/-- FLT_PWR_PLL, default class C3. -/
def PWR_PLL : Nat := 0xC7
/-- FLT_BST_POST_RAM, default class C2. -/
def BST_POST_RAM : Nat := 0xD0
/-- FLT_BST_LATCH, default class C1. -/
def BST_LATCH : Nat := 0xD1
/-- FLT_BST_LATCH_ROW, default class C2. -/
def BST_LATCH_ROW : Nat := 0xD2
/-- FLT_CAL_MIRAGE, default class C1. -/
def CAL_MIRAGE : Nat := 0xD3
/-- FLT_CAL_NVM, default class C1. -/
def CAL_NVM : Nat := 0xD4
/-- FLT_CAL_LIMIT, default class C0. -/
def CAL_LIMIT : Nat := 0xD5
/-- FLT_REC_NVM, default class C1. -/
def REC_NVM : Nat := 0xE0
/-- FLT_REC_CP_FAIL, default class C1. -/
def REC_CP_FAIL : Nat := 0xE1
/-- FLT_REC_SUPPRESS, default class C0. -/
def REC_SUPPRESS : Nat := 0xE2
/-- FLT_REC_PARITY, default class C1. -/
def REC_PARITY : Nat := 0xE3
/-- FLT_REC_LOG_FULL, default class C0. -/
def REC_LOG_FULL : Nat := 0xE4
/-- FLT_COL_PAIR, default class C1. -/
def COL_PAIR : Nat := 0xF0
/-- FLT_COL_PROOF, default class C1. -/
def COL_PROOF : Nat := 0xF1
/-- FLT_COL_PIN, default class C1. -/
def COL_PIN : Nat := 0xF2
/-- FLT_COL_TABLE, default class C2. -/
def COL_TABLE : Nat := 0xF3
/-- FLT_COL_INJECT, default class C0. -/
def COL_INJECT : Nat := 0xF4

end Sys2Proof.Machine.Code

namespace Sys2Proof.Machine

/-- One row of a fault table: the code, its default class, and the INIT and ACCESS of R512 where they
do not depend on the access that met the fault. -/
structure FaultRow where
  code   : Nat
  cls    : Nat
  init   : Nat
  access : Nat
  deriving DecidableEq, Repr

/-- Codes 0x00-0x5F (R66, and the fault tables of chapters 03 to 09). -/
def faultRowsA : List FaultRow := [
  ⟨0x01, 4, 31, 6⟩,
  ⟨0x02, 0, 31, 0⟩,
  ⟨0x10, 1, 3, 3⟩,
  ⟨0x11, 0, 3, 3⟩,
  ⟨0x12, 1, 3, 3⟩,
  ⟨0x13, 0, 3, 3⟩,
  ⟨0x14, 0, 0, 2⟩,
  ⟨0x15, 0, 1, 5⟩,
  ⟨0x16, 1, 9, 4⟩,
  ⟨0x20, 0, 3, 3⟩,
  ⟨0x21, 0, 6, 0⟩,
  ⟨0x22, 1, 6, 0⟩,
  ⟨0x23, 1, 3, 3⟩,
  ⟨0x24, 0, 0, 2⟩,
  ⟨0x25, 1, 0, 2⟩,
  ⟨0x26, 1, 31, 0⟩,
  ⟨0x27, 0, 4, 0⟩,
  ⟨0x28, 1, 4, 3⟩,
  ⟨0x30, 0, 0, 2⟩,
  ⟨0x31, 0, 0, 2⟩,
  ⟨0x32, 1, 31, 0⟩,
  ⟨0x33, 0, 5, 1⟩,
  ⟨0x34, 0, 5, 0⟩,
  ⟨0x40, 0, 6, 1⟩,
  ⟨0x41, 1, 6, 0⟩,
  ⟨0x42, 0, 6, 0⟩,
  ⟨0x43, 1, 6, 1⟩,
  ⟨0x48, 3, 31, 0⟩,
  ⟨0x49, 3, 31, 6⟩,
  ⟨0x4A, 3, 31, 6⟩,
  ⟨0x4B, 0, 31, 0⟩,
  ⟨0x50, 0, 7, 6⟩,
  ⟨0x51, 4, 7, 6⟩,
  ⟨0x52, 1, 7, 6⟩,
  ⟨0x53, 0, 7, 1⟩,
  ⟨0x54, 1, 7, 1⟩,
  ⟨0x55, 2, 7, 1⟩,
  ⟨0x56, 1, 7, 0⟩,
  ⟨0x57, 2, 7, 1⟩,
  ⟨0x58, 1, 7, 0⟩,
  ⟨0x59, 1, 13, 1⟩]

/-- Codes 0x60-0xFF (the fault tables of chapters 10 to 19, and R325). -/
def faultRowsB : List FaultRow := [
  ⟨0x60, 1, 31, 6⟩,
  ⟨0x61, 0, 31, 6⟩,
  ⟨0x62, 1, 31, 6⟩,
  ⟨0x63, 1, 31, 6⟩,
  ⟨0x64, 3, 31, 6⟩,
  ⟨0x65, 4, 31, 6⟩,
  ⟨0x66, 3, 31, 6⟩,
  ⟨0x67, 3, 31, 6⟩,
  ⟨0x68, 3, 31, 6⟩,
  ⟨0x69, 3, 31, 6⟩,
  ⟨0x6A, 3, 31, 6⟩,
  ⟨0x6B, 1, 31, 6⟩,
  ⟨0x70, 1, 31, 6⟩,
  ⟨0x71, 0, 31, 6⟩,
  ⟨0x72, 2, 31, 6⟩,
  ⟨0x73, 4, 31, 6⟩,
  ⟨0x74, 1, 31, 6⟩,
  ⟨0x75, 1, 31, 6⟩,
  ⟨0x76, 0, 31, 6⟩,
  ⟨0x80, 4, 31, 6⟩,
  ⟨0x81, 1, 31, 6⟩,
  ⟨0x82, 0, 31, 6⟩,
  ⟨0x83, 4, 31, 6⟩,
  ⟨0x84, 4, 31, 6⟩,
  ⟨0x85, 4, 31, 6⟩,
  ⟨0x86, 4, 31, 6⟩,
  ⟨0x87, 4, 31, 6⟩,
  ⟨0x88, 4, 31, 6⟩,
  ⟨0x89, 1, 31, 6⟩,
  ⟨0x8A, 4, 31, 6⟩,
  ⟨0x8B, 1, 15, 1⟩,
  ⟨0x8C, 4, 15, 1⟩,
  ⟨0x8D, 1, 31, 6⟩,
  ⟨0x8E, 4, 31, 6⟩,
  ⟨0x90, 1, 1, 6⟩,
  ⟨0x91, 1, 2, 6⟩,
  ⟨0x92, 0, 1, 6⟩,
  ⟨0x93, 1, 1, 6⟩,
  ⟨0x94, 0, 1, 5⟩,
  ⟨0x95, 0, 1, 5⟩,
  ⟨0x96, 1, 1, 6⟩,
  ⟨0x97, 0, 1, 6⟩,
  ⟨0x98, 1, 1, 6⟩,
  ⟨0xA0, 0, 31, 6⟩,
  ⟨0xA1, 1, 31, 6⟩,
  ⟨0xA2, 0, 31, 6⟩,
  ⟨0xA3, 0, 31, 6⟩,
  ⟨0xA4, 1, 31, 6⟩,
  ⟨0xA5, 3, 31, 6⟩,
  ⟨0xA6, 1, 31, 6⟩,
  ⟨0xA7, 1, 31, 6⟩,
  ⟨0xA8, 0, 31, 6⟩,
  ⟨0xA9, 1, 31, 6⟩,
  ⟨0xAA, 1, 31, 6⟩,
  ⟨0xAB, 1, 31, 6⟩,
  ⟨0xAC, 1, 31, 6⟩,
  ⟨0xB0, 1, 13, 6⟩,
  ⟨0xB1, 0, 13, 6⟩,
  ⟨0xB2, 1, 13, 6⟩,
  ⟨0xB3, 1, 13, 6⟩,
  ⟨0xB4, 1, 13, 6⟩,
  ⟨0xB5, 4, 13, 6⟩,
  ⟨0xB6, 4, 13, 6⟩,
  ⟨0xB7, 0, 13, 0⟩,
  ⟨0xC0, 0, 31, 2⟩,
  ⟨0xC1, 1, 31, 6⟩,
  ⟨0xC2, 1, 31, 6⟩,
  ⟨0xC3, 4, 31, 6⟩,
  ⟨0xC4, 3, 31, 6⟩,
  ⟨0xC5, 1, 31, 6⟩,
  ⟨0xC6, 4, 31, 6⟩,
  ⟨0xC7, 3, 31, 6⟩,
  ⟨0xD0, 2, 9, 4⟩,
  ⟨0xD1, 1, 9, 4⟩,
  ⟨0xD2, 2, 9, 4⟩,
  ⟨0xD3, 1, 11, 4⟩,
  ⟨0xD4, 1, 11, 4⟩,
  ⟨0xD5, 0, 11, 4⟩,
  ⟨0xE0, 1, 12, 0⟩,
  ⟨0xE1, 1, 12, 2⟩,
  ⟨0xE2, 0, 12, 0⟩,
  ⟨0xE3, 1, 12, 0⟩,
  ⟨0xE4, 0, 12, 0⟩,
  ⟨0xF0, 1, 31, 6⟩,
  ⟨0xF1, 1, 31, 6⟩,
  ⟨0xF2, 1, 31, 6⟩,
  ⟨0xF3, 2, 31, 0⟩,
  ⟨0xF4, 0, 0, 2⟩]

/-- The row of a code; none for a code marked "not used" (R304). -/
def faultRow (n : Nat) : Option FaultRow :=
  (if n < 0x60 then faultRowsA else faultRowsB).find? (fun r => r.code == n)

/-- The code has a source (R304). -/
def codeUsed (n : Nat) : Bool := (faultRow n).isSome

/-- The default class of a code (R304); a code not used reads 0. -/
def defaultClass (n : Nat) : Nat :=
  match faultRow n with
  | some r => r.cls
  | none => 0

end Sys2Proof.Machine
end

