-- ==== Sys2Proof/Machine/RegMap.lean ====
section
/-!
DEFINITION. The register map: every register of the spec's register tables, with its offset, its
array stride and count, its reset values and its fields' access codes (R14, R23, R489 and the
register tables of each block's chapter).  A reserved bit belongs to no field (R15).
-/

namespace Sys2Proof.Machine

/-- The access codes of R14. -/
inductive Access where
  | ro | rw | rws | w1c | w1s | wo | rc | rc1
  deriving DecidableEq, Repr

/-- A field of a register: the word's address and the bits `hi` down to `lo` (R11). -/
structure Field where
  addr : Nat
  hi   : Nat
  lo   : Nat
  deriving DecidableEq, Repr

/-- The bits of one field within its word, with the access code the register's table gives it. -/
structure FieldBits where
  access : Access
  hi     : Nat
  lo     : Nat
  deriving DecidableEq, Repr

/-- One row of a register table.  An array of `count` registers stands `stride` bytes apart;
`resets` holds one value for all of them or one value for each. -/
structure RegRow where
  addr   : Nat
  stride : Nat
  count  : Nat
  resets : List Nat
  fields : List FieldBits
  deriving DecidableEq, Repr

/-- The registers of block GLB (spec/05_scalers_commit.md, spec/20_host_registers.md). -/
def regRows_glb : List RegRow := [
  -- GLB_ID
  ⟨0x0, 4, 1, [0x4c4b2048], [⟨.ro, 31, 16⟩, ⟨.ro, 15, 0⟩]⟩,
  -- GLB_STEP
  ⟨0x4, 4, 1, [0x43], [⟨.ro, 11, 8⟩, ⟨.ro, 7, 0⟩]⟩,
  -- GLB_SCRATCH
  ⟨0x8, 4, 1, [0x0], [⟨.rw, 31, 0⟩]⟩,
  -- GLB_STATE
  ⟨0x10, 4, 1, [0x0], [⟨.ro, 31, 20⟩, ⟨.ro, 18, 16⟩, ⟨.ro, 13, 12⟩, ⟨.ro, 8, 8⟩, ⟨.ro, 6, 4⟩, ⟨.ro, 2, 0⟩]⟩,
  -- GLB_IRQ_STATUS
  ⟨0x20, 4, 1, [0x0], [⟨.w1c, 23, 0⟩]⟩,
  -- GLB_IRQ_ENABLE
  ⟨0x24, 4, 1, [0x0], [⟨.rw, 23, 0⟩]⟩,
  -- GLB_IRQ_RAW
  ⟨0x28, 4, 1, [0x0], [⟨.rc, 23, 0⟩]⟩,
  -- GLB_SPI_CNT
  ⟨0x30, 4, 1, [0x0], [⟨.rc, 31, 24⟩, ⟨.rc, 23, 16⟩, ⟨.rc, 15, 8⟩, ⟨.rc, 7, 0⟩]⟩,
  -- GLB_ACC_ERR
  ⟨0x34, 4, 1, [0x0], [⟨.rc, 31, 31⟩, ⟨.ro, 23, 16⟩, ⟨.ro, 12, 8⟩, ⟨.ro, 0, 0⟩]⟩,
  -- GLB_ACC_ADDR
  ⟨0x38, 4, 1, [0x0], [⟨.ro, 31, 0⟩]⟩,
  -- GLB_COMMIT
  ⟨0x40, 4, 1, [0x0], [⟨.wo, 27, 16⟩, ⟨.wo, 8, 8⟩, ⟨.wo, 7, 0⟩]⟩,
  -- GLB_COMMIT_STATUS
  ⟨0x44, 4, 1, [0x0], [⟨.ro, 28, 28⟩, ⟨.ro, 11, 8⟩, ⟨.ro, 7, 4⟩, ⟨.ro, 3, 2⟩, ⟨.ro, 1, 0⟩]⟩,
  -- GLB_COMMIT_TARGET
  ⟨0x48, 4, 1, [0x0], [⟨.ro, 31, 0⟩]⟩,
  -- GLB_COMMIT_CTRL
  ⟨0x4c, 4, 1, [0x1], [⟨.ro, 24, 24⟩, ⟨.ro, 23, 16⟩, ⟨.rw, 15, 8⟩, ⟨.rw, 7, 0⟩]⟩,
  -- GLB_POS
  ⟨0x50, 4, 1, [0x0], [⟨.ro, 26, 16⟩, ⟨.ro, 11, 0⟩]⟩,
  -- GLB_FRAME
  ⟨0x54, 4, 1, [0x0], [⟨.ro, 31, 0⟩]⟩,
  -- GLB_HOLD_MODE
  ⟨0x58, 4, 1, [0x0], [⟨.rw, 23, 0⟩]⟩,
  -- GLB_SYNC_GROUP
  ⟨0x5c, 4, 1, [0x0], [⟨.rw, 23, 0⟩]⟩,
  -- GLB_OFFBLOCK_COUNT
  ⟨0x60, 4, 1, [0x0], [⟨.rc, 31, 0⟩]⟩,
  -- GLB_COMMIT_CNT
  ⟨0x64, 4, 1, [0x0], [⟨.rc, 31, 24⟩, ⟨.rc, 23, 16⟩, ⟨.rc, 15, 8⟩, ⟨.rc, 7, 0⟩]⟩,
  -- GLB_COMMIT_LAYERS
  ⟨0x68, 4, 1, [0x0], [⟨.ro, 27, 16⟩, ⟨.ro, 11, 0⟩]⟩,
  -- GLB_HOLD_CNTn
  ⟨0x70, 4, 6, [0x0], [⟨.rc, 31, 16⟩, ⟨.rc, 15, 0⟩]⟩
]

/-- The registers of block RAS (spec/02_raster_time.md). -/
def regRows_ras : List RegRow := [
  -- RAS_CTRL
  ⟨0x1000, 4, 1, [0x0], [⟨.wo, 0, 0⟩]⟩,
  -- RAS_NEXT_TIMING
  ⟨0x1010, 4, 1, [0x20017f], [⟨.rw, 25, 16⟩, ⟨.rw, 11, 0⟩]⟩,
  -- RAS_NEXT_PWM
  ⟨0x1014, 4, 1, [0x11], [⟨.rw, 8, 0⟩]⟩,
  -- RAS_NEXT_MODE
  ⟨0x1018, 4, 1, [0x0], [⟨.rw, 5, 4⟩, ⟨.rw, 1, 0⟩]⟩,
  -- RAS_FOLLOW
  ⟨0x1020, 4, 1, [0x80201f4], [⟨.rws, 31, 24⟩, ⟨.rws, 23, 16⟩, ⟨.rws, 10, 0⟩]⟩,
  -- RAS_ACT_TIMING
  ⟨0x1030, 4, 1, [0x0], [⟨.ro, 25, 16⟩, ⟨.ro, 11, 0⟩]⟩,
  -- RAS_ACT_PWM
  ⟨0x1034, 4, 1, [0x0], [⟨.ro, 8, 0⟩]⟩,
  -- RAS_ACT_MODE
  ⟨0x1038, 4, 1, [0x0], [⟨.ro, 5, 4⟩, ⟨.ro, 1, 0⟩]⟩,
  -- RAS_STATUS
  ⟨0x1040, 4, 1, [0x0], [⟨.ro, 28, 20⟩, ⟨.ro, 19, 10⟩, ⟨.ro, 3, 3⟩, ⟨.ro, 2, 2⟩, ⟨.ro, 1, 0⟩]⟩,
  -- RAS_RETIME_STATUS
  ⟨0x1044, 4, 1, [0x0], [⟨.ro, 11, 8⟩, ⟨.ro, 4, 4⟩, ⟨.ro, 1, 0⟩]⟩,
  -- RAS_RETIME_FRAME
  ⟨0x1048, 4, 1, [0x0], [⟨.ro, 31, 0⟩]⟩,
  -- RAS_LINE_MATCH
  ⟨0x1050, 4, 1, [0x7ff], [⟨.rw, 10, 0⟩]⟩,
  -- RAS_FSYNC
  ⟨0x1054, 4, 1, [0x4], [⟨.rw, 7, 0⟩]⟩,
  -- RAS_FOLLOW_CNT
  ⟨0x1060, 4, 1, [0x0], [⟨.rc, 31, 16⟩, ⟨.rc, 15, 0⟩]⟩,
  -- RAS_FOLLOW_ERR
  ⟨0x1064, 4, 1, [0x0], [⟨.ro, 27, 16⟩, ⟨.ro, 1, 0⟩]⟩
]

/-- The registers of block LMC (spec/03_layer_memory.md). -/
def regRows_lmc : List RegRow := [
  -- LMC_CTRL
  ⟨0x2000, 4, 1, [0x1], [⟨.rw, 0, 0⟩]⟩,
  -- LMC_STATUS
  ⟨0x2004, 4, 1, [0x1f1f00], [⟨.ro, 31, 31⟩, ⟨.ro, 20, 16⟩, ⟨.ro, 12, 8⟩, ⟨.ro, 1, 0⟩]⟩,
  -- LMC_BANK_MAPn
  ⟨0x2010, 4, 4, [0x3020100, 0x7060504, 0xb0a0908, 0xf0e0d0c], [⟨.ro, 28, 24⟩, ⟨.ro, 20, 16⟩, ⟨.ro, 12, 8⟩, ⟨.ro, 4, 0⟩]⟩,
  -- LMC_NOMAD
  ⟨0x2020, 4, 1, [0x10], [⟨.ro, 4, 0⟩]⟩,
  -- LMC_BANK_EN
  ⟨0x2024, 4, 1, [0xffff], [⟨.rw, 15, 0⟩]⟩,
  -- LMC_SEAL_CRC
  ⟨0x2030, 4, 1, [0x0], [⟨.rw, 31, 0⟩]⟩,
  -- LMC_SEAL
  ⟨0x2034, 4, 1, [0x0], [⟨.wo, 31, 31⟩, ⟨.wo, 13, 0⟩]⟩,
  -- LMC_SEAL_STATUS
  ⟨0x2038, 4, 1, [0x0], [⟨.ro, 31, 31⟩, ⟨.ro, 16, 16⟩, ⟨.ro, 11, 8⟩, ⟨.ro, 1, 0⟩]⟩,
  -- LMC_LOCKn
  ⟨0x2040, 4, 8, [0x0], [⟨.rw, 31, 31⟩, ⟨.rw, 29, 16⟩, ⟨.rw, 13, 0⟩]⟩,
  -- LMC_DIR_SEL
  ⟨0x2060, 4, 1, [0x0], [⟨.rw, 13, 0⟩]⟩,
  -- LMC_DIR_CRC
  ⟨0x2064, 4, 1, [0x0], [⟨.ro, 31, 0⟩]⟩,
  -- LMC_DIR_STATE
  ⟨0x2068, 4, 1, [0x0], [⟨.ro, 4, 4⟩, ⟨.ro, 1, 0⟩]⟩,
  -- LMC_LAYER_SEALED
  ⟨0x206c, 4, 1, [0x0], [⟨.ro, 11, 0⟩]⟩,
  -- LMC_CNT0
  ⟨0x2070, 4, 1, [0x0], [⟨.rc, 31, 16⟩, ⟨.rc, 15, 0⟩]⟩,
  -- LMC_CNT1
  ⟨0x2074, 4, 1, [0x0], [⟨.rc, 31, 16⟩, ⟨.rc, 15, 0⟩]⟩,
  -- LMC_CNT2
  ⟨0x2078, 4, 1, [0x0], [⟨.rc, 31, 16⟩, ⟨.rc, 15, 0⟩]⟩
]

/-- The registers of block CMP (spec/04_layers_blending.md). -/
def regRows_cmp : List RegRow := [
  -- CMP_BG
  ⟨0x3000, 4, 1, [0x0], [⟨.rws, 15, 0⟩]⟩,
  -- CMP_WR
  ⟨0x3004, 4, 1, [0x366d], [⟨.rws, 16, 0⟩]⟩,
  -- CMP_WG
  ⟨0x3008, 4, 1, [0xb717], [⟨.rws, 16, 0⟩]⟩,
  -- CMP_WB
  ⟨0x300c, 4, 1, [0x127c], [⟨.rws, 16, 0⟩]⟩,
  -- CMP_LAYER_TYPE
  ⟨0x3010, 4, 1, [0x0], [⟨.ro, 23, 0⟩]⟩,
  -- CMP_LAYER_CLASS
  ⟨0x3014, 4, 1, [0x0], [⟨.ro, 11, 0⟩]⟩,
  -- CMP_TT_ADDR
  ⟨0x3020, 4, 1, [0x0], [⟨.rw, 31, 31⟩, ⟨.rw, 27, 24⟩, ⟨.rw, 16, 16⟩, ⟨.rw, 7, 0⟩]⟩,
  -- CMP_TT_DATA
  ⟨0x3024, 4, 1, [0x0], [⟨.rw, 15, 0⟩]⟩,
  -- CMP_TT_STATUS
  ⟨0x3028, 4, 1, [0x0], [⟨.w1c, 1, 1⟩, ⟨.w1c, 0, 0⟩]⟩,
  -- CMP_OUT_CNT
  ⟨0x3030, 4, 1, [0x0], [⟨.rc, 31, 16⟩, ⟨.rc, 15, 0⟩]⟩,
  -- CMP_URUN_FLAGS
  ⟨0x3034, 4, 1, [0x0], [⟨.w1c, 16, 16⟩, ⟨.w1c, 11, 0⟩]⟩,
  -- CMP_Ln_CTRL
  ⟨0x3100, 32, 12, [0xffff0000], [⟨.rws, 31, 16⟩, ⟨.rws, 10, 10⟩, ⟨.rws, 9, 9⟩, ⟨.rws, 8, 8⟩, ⟨.rws, 7, 4⟩, ⟨.rws, 0, 0⟩]⟩,
  -- CMP_Ln_SURF
  ⟨0x3104, 32, 12, [0x0], [⟨.rws, 31, 24⟩, ⟨.rws, 23, 16⟩, ⟨.rws, 13, 0⟩]⟩,
  -- CMP_Ln_POS
  ⟨0x3108, 32, 12, [0x0], [⟨.rws, 27, 16⟩, ⟨.rws, 11, 0⟩]⟩,
  -- CMP_Ln_SIZE
  ⟨0x310c, 32, 12, [0x0], [⟨.rws, 27, 16⟩, ⟨.rws, 11, 0⟩]⟩,
  -- CMP_Ln_SRC
  ⟨0x3110, 32, 12, [0x0], [⟨.rws, 30, 16⟩, ⟨.rws, 14, 0⟩]⟩,
  -- CMP_Ln_UBG
  ⟨0x3114, 32, 12, [0x0], [⟨.rws, 31, 16⟩, ⟨.rws, 15, 0⟩]⟩,
  -- CMP_Ln_URUN
  ⟨0x3118, 32, 12, [0x0], [⟨.rc, 31, 16⟩, ⟨.rc, 15, 0⟩]⟩
]

/-- The registers of block SCL (spec/05_scalers_commit.md). -/
def regRows_scl : List RegRow := [
  -- SCL_COEF_ADDR
  ⟨0x4000, 4, 1, [0x0], [⟨.rw, 31, 31⟩, ⟨.rw, 25, 24⟩, ⟨.rw, 20, 20⟩, ⟨.rw, 16, 16⟩, ⟨.rw, 13, 8⟩, ⟨.rw, 2, 0⟩]⟩,
  -- SCL_COEF_DATA
  ⟨0x4004, 4, 1, [0x0], [⟨.rw, 11, 0⟩]⟩,
  -- SCL_COEF_STATUS
  ⟨0x4008, 4, 1, [0x0], [⟨.w1c, 1, 1⟩, ⟨.w1c, 0, 0⟩]⟩,
  -- SCL_SCn_CTRL
  ⟨0x4100, 64, 4, [0x200], [⟨.rws, 16, 16⟩, ⟨.rws, 12, 12⟩, ⟨.rws, 11, 8⟩, ⟨.rws, 5, 4⟩, ⟨.rws, 0, 0⟩]⟩,
  -- SCL_SCn_IN
  ⟨0x4104, 64, 4, [0x0], [⟨.rws, 27, 16⟩, ⟨.rws, 11, 0⟩]⟩,
  -- SCL_SCn_HSTEP
  ⟨0x4108, 64, 4, [0x10000], [⟨.rws, 18, 0⟩]⟩,
  -- SCL_SCn_VSTEP
  ⟨0x410c, 64, 4, [0x10000], [⟨.rws, 18, 0⟩]⟩,
  -- SCL_SCn_INIT
  ⟨0x4110, 64, 4, [0x0], [⟨.rws, 31, 16⟩, ⟨.rws, 15, 0⟩]⟩,
  -- SCL_SCn_GRANT
  ⟨0x4114, 64, 4, [0x0], [⟨.ro, 7, 0⟩]⟩,
  -- SCL_SCn_STATUS
  ⟨0x4118, 64, 4, [0x0], [⟨.ro, 31, 31⟩, ⟨.ro, 19, 16⟩, ⟨.ro, 7, 0⟩]⟩
]

/-- The registers of block MSK (spec/06_object_masks.md). -/
def regRows_msk : List RegRow := [
  -- MSK_CTRL
  ⟨0x5000, 4, 1, [0x1], [⟨.rws, 5, 4⟩, ⟨.rw, 0, 0⟩]⟩,
  -- MSK_EPOCH
  ⟨0x5004, 4, 1, [0x4], [⟨.rws, 26, 16⟩, ⟨.rws, 6, 0⟩]⟩,
  -- MSK_ORIGIN
  ⟨0x5008, 4, 1, [0x0], [⟨.rws, 31, 16⟩, ⟨.rws, 15, 0⟩]⟩,
  -- MSK_TIMEOUT
  ⟨0x500c, 4, 1, [0x0], [⟨.rws, 15, 0⟩]⟩,
  -- MSK_FBn
  ⟨0x5010, 4, 4, [0x0], [⟨.rws, 31, 0⟩]⟩,
  -- MSK_SUBMIT
  ⟨0x5020, 4, 1, [0x0], [⟨.wo, 8, 0⟩]⟩,
  -- MSK_LIST_STATUS
  ⟨0x5024, 4, 1, [0x0], [⟨.ro, 31, 24⟩, ⟨.ro, 23, 23⟩, ⟨.ro, 22, 16⟩, ⟨.ro, 13, 8⟩, ⟨.ro, 7, 4⟩, ⟨.ro, 1, 0⟩]⟩,
  -- MSK_STATUS
  ⟨0x5028, 4, 1, [0x0], [⟨.ro, 31, 31⟩, ⟨.ro, 30, 30⟩, ⟨.ro, 19, 10⟩, ⟨.ro, 9, 0⟩]⟩,
  -- MSK_APPLIED
  ⟨0x502c, 4, 1, [0x0], [⟨.ro, 8, 8⟩, ⟨.ro, 7, 0⟩]⟩,
  -- MSK_LAT
  ⟨0x5030, 4, 1, [0x0], [⟨.ro, 15, 0⟩]⟩,
  -- MSK_LAT_MAX
  ⟨0x5034, 4, 1, [0x0], [⟨.rc, 15, 0⟩]⟩,
  -- MSK_CNT0
  ⟨0x5038, 4, 1, [0x0], [⟨.rc, 31, 16⟩, ⟨.rc, 15, 0⟩]⟩,
  -- MSK_CNT1
  ⟨0x503c, 4, 1, [0x0], [⟨.rc, 31, 16⟩, ⟨.rc, 15, 0⟩]⟩,
  -- MSK_CNT2
  ⟨0x5040, 4, 1, [0x0], [⟨.rc, 31, 16⟩, ⟨.rc, 15, 0⟩]⟩,
  -- MSK_STAGEn
  ⟨0x5400, 4, 257, [0x0], [⟨.rw, 31, 0⟩]⟩
]

/-- The registers of block LUM (spec/07_luminance_pipeline.md). -/
def regRows_lum : List RegRow := [
  -- LUM_CTRL
  ⟨0x6000, 4, 1, [0x1], [⟨.rws, 15, 8⟩, ⟨.rws, 1, 1⟩, ⟨.rws, 0, 0⟩]⟩,
  -- LUM_DIM
  ⟨0x6004, 4, 1, [0xffff], [⟨.rws, 15, 0⟩]⟩,
  -- LUM_LIMIT_PEAK
  ⟨0x6008, 4, 1, [0xf42400], [⟨.rws, 31, 0⟩]⟩,
  -- LUM_LIMIT_CONT
  ⟨0x600c, 4, 1, [0x989680], [⟨.rws, 31, 0⟩]⟩,
  -- LUM_BOOST
  ⟨0x6010, 4, 1, [0x2930018], [⟨.rws, 31, 16⟩, ⟨.rws, 7, 0⟩]⟩,
  -- LUM_BUDGET_STATUS
  ⟨0x6014, 4, 1, [0xffffffff], [⟨.ro, 31, 16⟩, ⟨.ro, 15, 0⟩]⟩,
  -- LUM_LF_MIN
  ⟨0x6018, 4, 1, [0xffff], [⟨.rc1, 15, 0⟩]⟩,
  -- LUM_DEMAND
  ⟨0x601c, 4, 1, [0x0], [⟨.ro, 31, 0⟩]⟩,
  -- LUM_STATE
  ⟨0x6020, 4, 1, [0xffff0000], [⟨.ro, 31, 16⟩, ⟨.ro, 4, 4⟩, ⟨.ro, 3, 3⟩, ⟨.ro, 2, 2⟩, ⟨.ro, 1, 0⟩]⟩,
  -- LUM_CREST
  ⟨0x6024, 4, 1, [0x0], [⟨.ro, 15, 0⟩]⟩,
  -- LUM_VMIN
  ⟨0x6028, 4, 1, [0xa8c], [⟨.rws, 15, 0⟩]⟩,
  -- LUM_VFn
  ⟨0x6030, 4, 4, [0xf8300abe, 0xf8300b22, 0xf8300bb8, 0xf8300ce4], [⟨.rws, 31, 16⟩, ⟨.rws, 15, 0⟩]⟩,
  -- LUM_GAIN_RELOAD
  ⟨0x6040, 4, 1, [0x0], [⟨.wo, 0, 0⟩]⟩,
  -- LUM_CNT
  ⟨0x6044, 4, 1, [0x0], [⟨.rc, 31, 16⟩, ⟨.rc, 15, 8⟩, ⟨.rc, 7, 0⟩]⟩
]

/-- The registers of block ARY (spec/08_array_drive.md). -/
def regRows_ary : List RegRow := [
  -- ARY_CTRL
  ⟨0x7000, 4, 1, [0x0], [⟨.rws, 0, 0⟩]⟩,
  -- ARY_IU
  ⟨0x7004, 4, 1, [0x28f], [⟨.rws, 9, 0⟩]⟩,
  -- ARY_STATUS
  ⟨0x7008, 4, 1, [0xffffa3f8], [⟨.ro, 31, 16⟩, ⟨.ro, 15, 6⟩, ⟨.ro, 5, 5⟩, ⟨.ro, 4, 4⟩, ⟨.ro, 3, 3⟩, ⟨.ro, 2, 2⟩, ⟨.ro, 1, 1⟩, ⟨.ro, 0, 0⟩]⟩,
  -- ARY_ISET
  ⟨0x700c, 4, 1, [0x0], [⟨.ro, 31, 31⟩, ⟨.ro, 13, 0⟩]⟩,
  -- ARY_COUNT
  ⟨0x7010, 4, 1, [0x0], [⟨.ro, 11, 0⟩]⟩,
  -- ARY_PC_ADDR
  ⟨0x7020, 4, 1, [0x0], [⟨.rw, 31, 31⟩, ⟨.rw, 10, 0⟩]⟩,
  -- ARY_PC_DATA
  ⟨0x7024, 4, 1, [0x0], [⟨.rw, 3, 0⟩]⟩,
  -- ARY_CNT
  ⟨0x7028, 4, 1, [0x0], [⟨.rc, 31, 16⟩, ⟨.rc, 15, 0⟩]⟩
]

/-- The registers of block HLT (spec/09_pixel_health.md). -/
def regRows_hlt : List RegRow := [
  -- HLT_SENSE_CFG
  ⟨0x8000, 4, 1, [0x4b01002], [⟨.rw, 27, 16⟩, ⟨.rw, 15, 8⟩, ⟨.rw, 2, 0⟩]⟩,
  -- HLT_CNT
  ⟨0x8004, 4, 1, [0x0], [⟨.rc, 31, 24⟩, ⟨.rc, 23, 16⟩, ⟨.rc, 15, 0⟩]⟩,
  -- HLT_DEFECT_CNT
  ⟨0x8008, 4, 1, [0x0], [⟨.ro, 31, 16⟩, ⟨.ro, 15, 0⟩]⟩,
  -- HLT_DEFECT_LIMIT
  ⟨0x800c, 4, 1, [0x3e8], [⟨.rw, 20, 0⟩]⟩,
  -- HLT_DEFECT_SET
  ⟨0x8010, 4, 1, [0x0], [⟨.wo, 31, 30⟩, ⟨.wo, 24, 16⟩, ⟨.wo, 10, 0⟩]⟩,
  -- HLT_DEFECT_SEL
  ⟨0x8014, 4, 1, [0x0], [⟨.rw, 24, 16⟩, ⟨.rw, 10, 0⟩]⟩,
  -- HLT_DEFECT_STATE
  ⟨0x8018, 4, 1, [0x0], [⟨.ro, 14, 12⟩, ⟨.ro, 6, 4⟩, ⟨.ro, 1, 0⟩]⟩,
  -- HLT_DLOG0
  ⟨0x8020, 4, 1, [0x0], [⟨.rc, 31, 31⟩, ⟨.rc, 30, 28⟩, ⟨.rc, 24, 16⟩, ⟨.rc, 10, 0⟩]⟩,
  -- HLT_DLOG1
  ⟨0x8024, 4, 1, [0x0], [⟨.ro, 31, 0⟩]⟩,
  -- HLT_REBUILD
  ⟨0x8028, 4, 1, [0x0], [⟨.ro, 9, 8⟩, ⟨.ro, 7, 4⟩, ⟨.rw, 1, 0⟩]⟩,
  -- HLT_RB_CNT
  ⟨0x8030, 4, 1, [0x0], [⟨.rc, 31, 16⟩, ⟨.rc, 15, 0⟩]⟩,
  -- HLT_RB_CFG
  ⟨0x8034, 4, 1, [0x3], [⟨.rw, 3, 0⟩]⟩,
  -- HLT_SIG_CFG
  ⟨0x8040, 4, 1, [0x1], [⟨.ro, 21, 16⟩, ⟨.rw, 7, 0⟩]⟩,
  -- HLT_SIG_OUT_FLAGS
  ⟨0x8044, 4, 1, [0x0], [⟨.w1c, 31, 0⟩]⟩,
  -- HLT_SIG_RB_FLAGS
  ⟨0x8048, 4, 1, [0x0], [⟨.w1c, 31, 0⟩]⟩,
  -- HLT_SIG_FRAME
  ⟨0x804c, 4, 1, [0x0], [⟨.ro, 31, 0⟩]⟩,
  -- HLT_Rn_CTRL
  ⟨0x8400, 32, 32, [0x0], [⟨.rws, 2, 2⟩, ⟨.rws, 1, 1⟩, ⟨.rws, 0, 0⟩]⟩,
  -- HLT_Rn_P0
  ⟨0x8404, 32, 32, [0x0], [⟨.rws, 24, 16⟩, ⟨.rws, 11, 0⟩]⟩,
  -- HLT_Rn_P1
  ⟨0x8408, 32, 32, [0x0], [⟨.rws, 24, 16⟩, ⟨.rws, 11, 0⟩]⟩,
  -- HLT_Rn_EXP
  ⟨0x840c, 32, 32, [0x0], [⟨.rws, 31, 0⟩]⟩,
  -- HLT_Rn_OUT
  ⟨0x8410, 32, 32, [0x0], [⟨.ro, 31, 0⟩]⟩,
  -- HLT_Rn_RB
  ⟨0x8414, 32, 32, [0x0], [⟨.ro, 31, 0⟩]⟩,
  -- HLT_Rn_STATUS
  ⟨0x8418, 32, 32, [0x0], [⟨.ro, 3, 3⟩, ⟨.ro, 2, 2⟩, ⟨.ro, 1, 1⟩, ⟨.ro, 0, 0⟩]⟩
]

/-- The registers of block LPE (spec/10_rail_control.md). -/
def regRows_lpe : List RegRow := [
  -- LPE_CTRL
  ⟨0x9000, 4, 1, [0x16], [⟨.wo, 8, 8⟩, ⟨.rw, 4, 4⟩, ⟨.rw, 2, 2⟩, ⟨.rw, 1, 1⟩, ⟨.rw, 0, 0⟩]⟩,
  -- LPE_TOPO
  ⟨0x9004, 4, 1, [0x0], [⟨.ro, 8, 8⟩, ⟨.ro, 2, 0⟩]⟩,
  -- LPE_STATUS
  ⟨0x9008, 4, 1, [0x0], [⟨.ro, 31, 16⟩, ⟨.ro, 12, 12⟩, ⟨.ro, 11, 10⟩, ⟨.ro, 8, 8⟩, ⟨.ro, 7, 7⟩, ⟨.ro, 4, 4⟩, ⟨.ro, 2, 0⟩]⟩,
  -- LPE_BANK_A
  ⟨0x9010, 4, 1, [0x0], [⟨.rw, 31, 31⟩, ⟨.rw, 26, 18⟩, ⟨.rw, 13, 12⟩, ⟨.rw, 8, 0⟩]⟩,
  -- LPE_BANK_B
  ⟨0x9014, 4, 1, [0x0], [⟨.rw, 31, 31⟩, ⟨.rw, 26, 18⟩, ⟨.rw, 13, 12⟩, ⟨.rw, 8, 0⟩]⟩,
  -- LPE_COEF_ADDR
  ⟨0x9020, 4, 1, [0x0], [⟨.rw, 31, 31⟩, ⟨.rw, 24, 24⟩, ⟨.rw, 19, 16⟩, ⟨.rw, 3, 0⟩]⟩,
  -- LPE_COEF_S
  ⟨0x9024, 4, 1, [0x0], [⟨.rw, 5, 0⟩]⟩,
  -- LPE_COEF_M
  ⟨0x9028, 4, 1, [0x0], [⟨.rw, 31, 0⟩]⟩,
  -- LPE_COEF_STATUS
  ⟨0x902c, 4, 1, [0x0], [⟨.w1c, 2, 2⟩, ⟨.w1c, 1, 1⟩, ⟨.w1c, 0, 0⟩]⟩,
  -- LPE_VSET
  ⟨0x9030, 4, 1, [0x13880a28], [⟨.rw, 31, 16⟩, ⟨.rw, 15, 0⟩]⟩,
  -- LPE_HEAD
  ⟨0x9034, 4, 1, [0x1c20c864], [⟨.rw, 31, 20⟩, ⟨.rw, 19, 8⟩, ⟨.rw, 7, 0⟩]⟩,
  -- LPE_PROT
  ⟨0x9038, 4, 1, [0x15180190], [⟨.rw, 31, 16⟩, ⟨.rw, 15, 0⟩]⟩,
  -- LPE_START
  ⟨0x903c, 4, 1, [0x10000008], [⟨.rw, 31, 16⟩, ⟨.rw, 7, 0⟩]⟩,
  -- LPE_REG
  ⟨0x9040, 4, 1, [0x40064], [⟨.rw, 23, 16⟩, ⟨.rw, 15, 0⟩]⟩,
  -- LPE_ILIM
  ⟨0x9044, 4, 1, [0x100003ff], [⟨.rw, 31, 24⟩, ⟨.rw, 9, 0⟩]⟩,
  -- LPE_MEAS
  ⟨0x9050, 4, 1, [0x0], [⟨.ro, 31, 16⟩, ⟨.ro, 15, 0⟩]⟩,
  -- LPE_FAN
  ⟨0x9060, 4, 1, [0x3000154], [⟨.rw, 27, 24⟩, ⟨.rw, 15, 0⟩]⟩,
  -- LPE_TACH
  ⟨0x9064, 4, 1, [0x3c000000], [⟨.rw, 31, 24⟩, ⟨.rw, 23, 16⟩, ⟨.ro, 15, 0⟩]⟩,
  -- LPE_CNT
  ⟨0x9070, 4, 1, [0x0], [⟨.rc, 15, 0⟩]⟩,
  -- LPE_LPn_STATUS
  ⟨0x9100, 16, 9, [0x0], [⟨.ro, 9, 8⟩, ⟨.w1c, 7, 7⟩, ⟨.w1c, 6, 6⟩, ⟨.w1c, 5, 5⟩, ⟨.w1c, 4, 4⟩, ⟨.ro, 3, 3⟩, ⟨.ro, 2, 2⟩, ⟨.ro, 1, 1⟩, ⟨.ro, 0, 0⟩]⟩,
  -- LPE_LPn_OUT
  ⟨0x9104, 16, 9, [0x0], [⟨.ro, 31, 0⟩]⟩,
  -- LPE_LPn_CNT
  ⟨0x9108, 16, 9, [0x0], [⟨.rc, 31, 16⟩, ⟨.rc, 15, 0⟩]⟩,
  -- LPE_LPn_CMD
  ⟨0x910c, 16, 9, [0x0], [⟨.wo, 0, 0⟩]⟩
]

/-- The registers of block THM (spec/11_thermal.md). -/
def regRows_thm : List RegRow := [
  -- THM_DERATE
  ⟨0xa000, 4, 1, [0x1a4], [⟨.rw, 11, 0⟩]⟩,
  -- THM_ZONE
  ⟨0xa004, 4, 1, [0x2080258], [⟨.rw, 27, 16⟩, ⟨.rw, 11, 0⟩]⟩,
  -- THM_THROTTLE
  ⟨0xa008, 4, 1, [0x1c01e0], [⟨.rw, 31, 31⟩, ⟨.rw, 23, 12⟩, ⟨.rw, 11, 0⟩]⟩,
  -- THM_GRACE
  ⟨0xa00c, 4, 1, [0xc8], [⟨.rw, 7, 0⟩]⟩,
  -- THM_SHUTDOWN
  ⟨0xa010, 4, 1, [0x1b8021c], [⟨.rw, 27, 16⟩, ⟨.rw, 11, 0⟩]⟩,
  -- THM_STATUS
  ⟨0xa020, 4, 1, [0x0], [⟨.ro, 31, 31⟩, ⟨.ro, 30, 30⟩, ⟨.ro, 29, 29⟩, ⟨.ro, 28, 28⟩, ⟨.ro, 27, 27⟩, ⟨.ro, 26, 26⟩, ⟨.ro, 25, 25⟩, ⟨.ro, 24, 20⟩, ⟨.ro, 15, 0⟩]⟩,
  -- THM_BROKEN
  ⟨0xa024, 4, 1, [0x0], [⟨.ro, 31, 0⟩]⟩,
  -- THM_HOT
  ⟨0xa028, 4, 1, [0x0], [⟨.ro, 27, 16⟩, ⟨.ro, 11, 0⟩]⟩,
  -- THM_CNT
  ⟨0xa02c, 4, 1, [0x0], [⟨.rc, 31, 16⟩, ⟨.rc, 15, 0⟩]⟩,
  -- THM_ZFn
  ⟨0xa030, 4, 8, [0x0], [⟨.ro, 26, 16⟩, ⟨.ro, 10, 0⟩]⟩,
  -- THM_TSn
  ⟨0xa100, 4, 32, [0x0], [⟨.ro, 31, 31⟩, ⟨.ro, 30, 30⟩, ⟨.ro, 11, 0⟩]⟩
]

/-- The registers of block SAF (spec/12_safety.md). -/
def regRows_saf : List RegRow := [
  -- SAF_STATE
  ⟨0xb000, 4, 1, [0x0], [⟨.w1c, 23, 23⟩, ⟨.ro, 22, 22⟩, ⟨.ro, 21, 20⟩, ⟨.ro, 19, 19⟩, ⟨.ro, 18, 18⟩, ⟨.ro, 17, 16⟩, ⟨.ro, 11, 11⟩, ⟨.ro, 10, 10⟩, ⟨.ro, 9, 9⟩, ⟨.ro, 8, 8⟩, ⟨.ro, 7, 7⟩, ⟨.ro, 6, 6⟩, ⟨.ro, 5, 5⟩, ⟨.ro, 4, 4⟩, ⟨.ro, 3, 3⟩, ⟨.ro, 2, 0⟩]⟩,
  -- SAF_SEAL
  ⟨0xb004, 4, 1, [0x0], [⟨.ro, 25, 25⟩, ⟨.ro, 24, 24⟩, ⟨.ro, 23, 16⟩, ⟨.ro, 15, 8⟩, ⟨.ro, 7, 0⟩]⟩,
  -- SAF_CMD
  ⟨0xb008, 4, 1, [0x0], [⟨.rw, 9, 8⟩, ⟨.rw, 4, 4⟩, ⟨.rw, 0, 0⟩]⟩,
  -- SAF_LOCK
  ⟨0xb00c, 4, 1, [0x0], [⟨.w1s, 0, 0⟩]⟩,
  -- SAF_DIM
  ⟨0xb010, 4, 1, [0x199a0000], [⟨.rw, 31, 16⟩, ⟨.rw, 9, 8⟩, ⟨.rw, 0, 0⟩]⟩,
  -- SAF_RAMP
  ⟨0xb014, 4, 1, [0x7530], [⟨.rw, 19, 0⟩]⟩,
  -- SAF_OASIS
  ⟨0xb018, 4, 1, [0x0], [⟨.rw, 5, 4⟩, ⟨.rw, 1, 0⟩]⟩,
  -- SAF_MON
  ⟨0xb01c, 4, 1, [0x1f4251c], [⟨.rw, 31, 16⟩, ⟨.rw, 15, 0⟩]⟩,
  -- SAF_LRM
  ⟨0xb020, 4, 1, [0xa], [⟨.rw, 7, 0⟩]⟩,
  -- SAF_ENV
  ⟨0xb024, 4, 1, [0xffffffff], [⟨.ro, 31, 16⟩, ⟨.ro, 15, 0⟩]⟩,
  -- SAF_IMON
  ⟨0xb028, 4, 1, [0x0], [⟨.ro, 15, 8⟩, ⟨.ro, 7, 0⟩]⟩,
  -- SAF_OASIS_STATUS
  ⟨0xb02c, 4, 1, [0x0], [⟨.ro, 11, 8⟩, ⟨.ro, 7, 0⟩]⟩,
  -- SAF_DISC
  ⟨0xb030, 4, 1, [0x0], [⟨.rc, 31, 16⟩, ⟨.ro, 15, 0⟩]⟩,
  -- SAF_SRST
  ⟨0xb034, 4, 1, [0x0], [⟨.ro, 21, 20⟩, ⟨.ro, 19, 0⟩]⟩,
  -- SAF_CNT
  ⟨0xb038, 4, 1, [0x0], [⟨.rc, 31, 24⟩, ⟨.rc, 23, 16⟩, ⟨.rc, 15, 0⟩]⟩,
  -- SAF_TICK
  ⟨0xb03c, 4, 1, [0x0], [⟨.ro, 31, 0⟩]⟩
]

/-- The registers of block FLT (spec/13_faults.md). -/
def regRows_flt : List RegRow := [
  -- FLT_CTRL
  ⟨0xc000, 4, 1, [0x101], [⟨.rw, 10, 8⟩, ⟨.rw, 2, 0⟩]⟩,
  -- FLT_STATUS
  ⟨0xc004, 4, 1, [0x70000], [⟨.ro, 31, 24⟩, ⟨.ro, 18, 16⟩, ⟨.ro, 8, 8⟩, ⟨.w1c, 1, 1⟩, ⟨.w1c, 0, 0⟩]⟩,
  -- FLT_T1
  ⟨0xc008, 4, 1, [0x2710], [⟨.rw, 19, 0⟩]⟩,
  -- FLT_T2
  ⟨0xc00c, 4, 1, [0x186a0], [⟨.rw, 19, 0⟩]⟩,
  -- FLT_ACK
  ⟨0xc010, 4, 1, [0x0], [⟨.wo, 7, 0⟩]⟩,
  -- FLT_INJECT
  ⟨0xc014, 4, 1, [0x0], [⟨.wo, 15, 8⟩, ⟨.wo, 7, 0⟩]⟩,
  -- FLT_FIRST_REL
  ⟨0xc018, 4, 1, [0x0], [⟨.wo, 0, 0⟩]⟩,
  -- FLT_FIRST0
  ⟨0xc020, 4, 1, [0x0], [⟨.ro, 31, 31⟩, ⟨.ro, 30, 30⟩, ⟨.ro, 29, 29⟩, ⟨.ro, 28, 28⟩, ⟨.ro, 27, 27⟩, ⟨.ro, 26, 24⟩, ⟨.ro, 20, 16⟩, ⟨.ro, 10, 8⟩, ⟨.ro, 7, 0⟩]⟩,
  -- FLT_FIRST_ADDR
  ⟨0xc024, 4, 1, [0x0], [⟨.ro, 31, 0⟩]⟩,
  -- FLT_FIRST_TSn
  ⟨0xc028, 4, 3, [0x0], [⟨.ro, 31, 0⟩]⟩,
  -- FLT_FIRST_TICK
  ⟨0xc034, 4, 1, [0x0], [⟨.ro, 31, 0⟩]⟩,
  -- FLT_FIRST_CLR_TSn
  ⟨0xc038, 4, 3, [0x0], [⟨.ro, 31, 0⟩]⟩,
  -- FLT_FIRST_CLR_TICK
  ⟨0xc044, 4, 1, [0x0], [⟨.ro, 31, 0⟩]⟩,
  -- FLT_PENDn
  ⟨0xc080, 4, 8, [0x0], [⟨.ro, 31, 0⟩]⟩,
  -- FLT_MASKn
  ⟨0xc0a0, 4, 8, [0x0], [⟨.rw, 31, 0⟩]⟩,
  -- FLT_Cnn
  ⟨0xc400, 4, 256, [0x0], [⟨.ro, 31, 24⟩, ⟨.ro, 10, 8⟩, ⟨.ro, 6, 4⟩, ⟨.ro, 3, 3⟩, ⟨.ro, 2, 2⟩, ⟨.ro, 1, 0⟩]⟩
]

/-- The registers of block LNK (spec/14_gocel_link.md). -/
def regRows_lnk : List RegRow := [
  -- LNK_U_CTRL
  ⟨0xd000, 4, 1, [0x1], [⟨.wo, 8, 8⟩, ⟨.rw, 5, 5⟩, ⟨.rw, 4, 4⟩, ⟨.rw, 3, 3⟩, ⟨.rw, 2, 1⟩, ⟨.rw, 0, 0⟩]⟩,
  -- LNK_U_STATUS
  ⟨0xd004, 4, 1, [0x0], [⟨.ro, 15, 12⟩, ⟨.ro, 11, 11⟩, ⟨.ro, 9, 8⟩, ⟨.ro, 5, 4⟩, ⟨.ro, 3, 0⟩]⟩,
  -- LNK_U_SEQ
  ⟨0xd008, 4, 1, [0x0], [⟨.ro, 27, 16⟩, ⟨.ro, 11, 0⟩]⟩,
  -- LNK_U_LAST
  ⟨0xd00c, 4, 1, [0x0], [⟨.ro, 31, 31⟩, ⟨.ro, 11, 0⟩]⟩,
  -- LNK_U_REFUSE
  ⟨0xd010, 4, 1, [0x0], [⟨.ro, 31, 28⟩, ⟨.ro, 23, 16⟩, ⟨.ro, 11, 0⟩]⟩,
  -- LNK_U_CNT0
  ⟨0xd014, 4, 1, [0x0], [⟨.rc, 31, 16⟩, ⟨.rc, 15, 0⟩]⟩,
  -- LNK_U_CNT1
  ⟨0xd018, 4, 1, [0x0], [⟨.rc, 31, 16⟩, ⟨.rc, 15, 0⟩]⟩,
  -- LNK_U_CNT2
  ⟨0xd01c, 4, 1, [0x0], [⟨.rc, 31, 24⟩, ⟨.rc, 23, 16⟩, ⟨.rc, 15, 0⟩]⟩,
  -- LNK_U_FIRn
  ⟨0xd020, 4, 4, [0x2c0400, 0x0, 0x0, 0x0], [⟨.ro, 24, 24⟩, ⟨.ro, 21, 16⟩, ⟨.ro, 12, 8⟩, ⟨.ro, 3, 0⟩]⟩,
  -- LNK_U_ERR
  ⟨0xd030, 4, 1, [0xa0a0040], [⟨.rw, 31, 24⟩, ⟨.rw, 23, 16⟩, ⟨.rw, 15, 0⟩]⟩,
  -- LNK_D_CTRL
  ⟨0xd100, 4, 1, [0x0], [⟨.wo, 8, 8⟩, ⟨.rw, 5, 5⟩, ⟨.rw, 4, 4⟩, ⟨.rw, 3, 3⟩, ⟨.rw, 2, 1⟩, ⟨.rw, 0, 0⟩]⟩,
  -- LNK_D_STATUS
  ⟨0xd104, 4, 1, [0x0], [⟨.ro, 15, 12⟩, ⟨.ro, 11, 11⟩, ⟨.ro, 9, 8⟩, ⟨.ro, 5, 4⟩, ⟨.ro, 3, 0⟩]⟩,
  -- LNK_D_SEQ
  ⟨0xd108, 4, 1, [0x0], [⟨.ro, 27, 16⟩, ⟨.ro, 11, 0⟩]⟩,
  -- LNK_D_LAST
  ⟨0xd10c, 4, 1, [0x0], [⟨.ro, 31, 31⟩, ⟨.ro, 11, 0⟩]⟩,
  -- LNK_D_REFUSE
  ⟨0xd110, 4, 1, [0x0], [⟨.ro, 31, 28⟩, ⟨.ro, 23, 16⟩, ⟨.ro, 11, 0⟩]⟩,
  -- LNK_D_CNT0
  ⟨0xd114, 4, 1, [0x0], [⟨.rc, 31, 16⟩, ⟨.rc, 15, 0⟩]⟩,
  -- LNK_D_CNT1
  ⟨0xd118, 4, 1, [0x0], [⟨.rc, 31, 16⟩, ⟨.rc, 15, 0⟩]⟩,
  -- LNK_D_CNT2
  ⟨0xd11c, 4, 1, [0x0], [⟨.rc, 31, 24⟩, ⟨.rc, 23, 16⟩, ⟨.rc, 15, 0⟩]⟩,
  -- LNK_D_FIRn
  ⟨0xd120, 4, 4, [0x2c0400], [⟨.ro, 24, 24⟩, ⟨.ro, 21, 16⟩, ⟨.ro, 12, 8⟩, ⟨.ro, 3, 0⟩]⟩,
  -- LNK_D_ERR
  ⟨0xd130, 4, 1, [0xa0a0040], [⟨.rw, 31, 24⟩, ⟨.rw, 23, 16⟩, ⟨.rw, 15, 0⟩]⟩,
  -- LNK_MSG
  ⟨0xd200, 4, 1, [0x0], [⟨.rw, 23, 8⟩, ⟨.rw, 1, 1⟩, ⟨.rw, 0, 0⟩]⟩,
  -- LNK_HOST_TO
  ⟨0xd204, 4, 1, [0x0], [⟨.rw, 15, 0⟩]⟩,
  -- LNK_INJECT
  ⟨0xd208, 4, 1, [0x0], [⟨.w1c, 31, 31⟩, ⟨.ro, 30, 30⟩, ⟨.wo, 5, 4⟩, ⟨.wo, 2, 0⟩]⟩
]

/-- The registers of block CVN (spec/15_caravan_tandem.md). -/
def regRows_cvn : List RegRow := [
  -- CVN_CTRL
  ⟨0xe000, 4, 1, [0x1], [⟨.wo, 1, 1⟩, ⟨.rw, 0, 0⟩]⟩,
  -- CVN_CFG
  ⟨0xe004, 4, 1, [0x8000810], [⟨.ro, 31, 24⟩, ⟨.ro, 17, 17⟩, ⟨.ro, 16, 16⟩, ⟨.ro, 15, 8⟩, ⟨.ro, 7, 0⟩]⟩,
  -- CVN_STATUS
  ⟨0xe008, 4, 1, [0x0], [⟨.ro, 31, 31⟩, ⟨.ro, 30, 30⟩, ⟨.ro, 29, 29⟩, ⟨.ro, 28, 28⟩, ⟨.ro, 27, 27⟩, ⟨.w1c, 26, 26⟩, ⟨.ro, 11, 0⟩]⟩,
  -- CVN_RING
  ⟨0xe00c, 4, 1, [0x0], [⟨.ro, 31, 31⟩, ⟨.ro, 18, 18⟩, ⟨.ro, 17, 17⟩, ⟨.ro, 16, 16⟩, ⟨.ro, 11, 0⟩]⟩,
  -- CVN_EPOCH
  ⟨0xe010, 4, 1, [0x0], [⟨.ro, 23, 16⟩, ⟨.ro, 15, 0⟩]⟩,
  -- CVN_SH_CFG
  ⟨0xe014, 4, 1, [0x0], [⟨.rw, 28, 24⟩, ⟨.ro, 16, 16⟩, ⟨.rw, 11, 0⟩]⟩,
  -- CVN_SH_ADDR
  ⟨0xe018, 4, 1, [0x0], [⟨.rw, 31, 31⟩, ⟨.rw, 13, 0⟩]⟩,
  -- CVN_SH_DATA
  ⟨0xe01c, 4, 1, [0x0], [⟨.rw, 31, 0⟩]⟩,
  -- CVN_RX_SHAREn
  ⟨0xe020, 4, 4, [0x0], [⟨.ro, 31, 0⟩]⟩,
  -- CVN_CNT
  ⟨0xe030, 4, 1, [0x0], [⟨.rc, 31, 16⟩, ⟨.rc, 15, 8⟩, ⟨.rc, 7, 0⟩]⟩,
  -- CVN_TDM_CFG
  ⟨0xe040, 4, 1, [0x30fff], [⟨.ro, 31, 31⟩, ⟨.ro, 30, 30⟩, ⟨.rw, 18, 16⟩, ⟨.ro, 11, 0⟩]⟩,
  -- CVN_TDM_STATUS
  ⟨0xe044, 4, 1, [0x0], [⟨.ro, 9, 9⟩, ⟨.ro, 8, 8⟩, ⟨.ro, 7, 7⟩, ⟨.ro, 6, 6⟩, ⟨.ro, 5, 5⟩, ⟨.ro, 1, 0⟩]⟩,
  -- CVN_TDM_CNT
  ⟨0xe048, 4, 1, [0x0], [⟨.rc, 31, 16⟩, ⟨.rc, 15, 8⟩, ⟨.rc, 7, 0⟩]⟩
]

/-- The registers of block CFG (spec/16_config_lifecycle.md). -/
def regRows_cfg : List RegRow := [
  -- CFG_STATUS
  ⟨0xf000, 4, 1, [0x0], [⟨.ro, 31, 31⟩, ⟨.ro, 30, 29⟩, ⟨.ro, 28, 28⟩, ⟨.ro, 27, 27⟩, ⟨.ro, 26, 26⟩, ⟨.ro, 25, 25⟩, ⟨.ro, 24, 24⟩, ⟨.w1c, 23, 23⟩, ⟨.ro, 15, 0⟩]⟩,
  -- CFG_BOOT
  ⟨0xf004, 4, 1, [0x0], [⟨.ro, 31, 16⟩, ⟨.ro, 15, 0⟩]⟩,
  -- CFG_BOOT_REASON
  ⟨0xf008, 4, 1, [0x0], [⟨.ro, 12, 8⟩, ⟨.ro, 4, 0⟩]⟩,
  -- CFG_IMG
  ⟨0xf010, 4, 1, [0x0], [⟨.wo, 8, 8⟩, ⟨.rw, 1, 0⟩]⟩,
  -- CFG_IMG_ADDR
  ⟨0xf014, 4, 1, [0x1000000], [⟨.rw, 31, 0⟩]⟩,
  -- CFG_IMG_STATUS
  ⟨0xf018, 4, 1, [0x0], [⟨.ro, 31, 16⟩, ⟨.ro, 12, 8⟩, ⟨.ro, 1, 0⟩]⟩,
  -- CFG_RS_STATUS
  ⟨0xf01c, 4, 1, [0x0], [⟨.ro, 12, 8⟩, ⟨.ro, 5, 4⟩, ⟨.ro, 1, 0⟩]⟩,
  -- CFG_LC
  ⟨0xf020, 4, 1, [0x0], [⟨.ro, 17, 16⟩, ⟨.ro, 12, 8⟩, ⟨.rw, 6, 4⟩, ⟨.ro, 2, 0⟩]⟩,
  -- CFG_CHAL0
  ⟨0xf024, 4, 1, [0x0], [⟨.ro, 31, 0⟩]⟩,
  -- CFG_CHAL1
  ⟨0xf028, 4, 1, [0x0], [⟨.ro, 31, 0⟩]⟩,
  -- CFG_TOKEN0
  ⟨0xf02c, 4, 1, [0x0], [⟨.wo, 31, 0⟩]⟩,
  -- CFG_TOKEN1
  ⟨0xf030, 4, 1, [0x0], [⟨.wo, 31, 0⟩]⟩,
  -- CFG_KEYn
  ⟨0xf040, 4, 8, [0x0], [⟨.wo, 31, 0⟩]⟩,
  -- CFG_KCV
  ⟨0xf060, 4, 1, [0x0], [⟨.ro, 31, 16⟩, ⟨.ro, 15, 0⟩]⟩,
  -- CFG_FLOOR
  ⟨0xf064, 4, 1, [0x0], [⟨.ro, 15, 0⟩]⟩,
  -- CFG_NVM_SRC
  ⟨0xf070, 4, 1, [0x0], [⟨.rw, 31, 0⟩]⟩,
  -- CFG_NVM_DST
  ⟨0xf074, 4, 1, [0x0], [⟨.rw, 31, 0⟩]⟩,
  -- CFG_NVM_LEN
  ⟨0xf078, 4, 1, [0x0], [⟨.rw, 21, 0⟩]⟩,
  -- CFG_NVM_STATUS
  ⟨0xf07c, 4, 1, [0x0], [⟨.ro, 31, 31⟩, ⟨.ro, 30, 30⟩, ⟨.ro, 12, 8⟩, ⟨.ro, 1, 0⟩]⟩,
  -- CFG_GPIO
  ⟨0xf080, 4, 1, [0x0], [⟨.ro, 7, 0⟩]⟩
]

/-- The registers of block PWR (spec/17_power_jobs.md). -/
def regRows_pwr : List RegRow := [
  -- PWR_REQ
  ⟨0x10000, 4, 1, [0x0], [⟨.wo, 2, 0⟩]⟩,
  -- PWR_STATUS
  ⟨0x10004, 4, 1, [0x0], [⟨.ro, 22, 20⟩, ⟨.ro, 19, 16⟩, ⟨.ro, 15, 15⟩, ⟨.ro, 14, 12⟩, ⟨.ro, 11, 11⟩, ⟨.ro, 10, 8⟩, ⟨.ro, 2, 0⟩]⟩,
  -- PWR_WAKE
  ⟨0x10008, 4, 1, [0x1], [⟨.ro, 10, 8⟩, ⟨.rw, 2, 2⟩, ⟨.rw, 1, 1⟩, ⟨.rw, 0, 0⟩]⟩,
  -- PWR_DOM
  ⟨0x1000c, 4, 1, [0x0], [⟨.ro, 20, 4⟩, ⟨.ro, 3, 3⟩, ⟨.ro, 2, 2⟩, ⟨.ro, 1, 1⟩, ⟨.ro, 0, 0⟩]⟩,
  -- PWR_TIMEOUT
  ⟨0x10010, 4, 1, [0x27100064], [⟨.rw, 31, 16⟩, ⟨.rw, 15, 0⟩]⟩,
  -- PWR_CNT
  ⟨0x10014, 4, 1, [0x0], [⟨.rc, 31, 16⟩, ⟨.rc, 15, 0⟩]⟩,
  -- PWR_JOBn_CMD
  ⟨0x10100, 16, 4, [0x0], [⟨.wo, 10, 8⟩, ⟨.wo, 3, 0⟩]⟩,
  -- PWR_JOBn_STATUS
  ⟨0x10104, 16, 4, [0x0], [⟨.w1c, 16, 16⟩, ⟨.ro, 15, 15⟩, ⟨.ro, 11, 8⟩, ⟨.ro, 7, 4⟩, ⟨.ro, 2, 0⟩]⟩
]

/-- The registers of block BST (spec/18_selftest_calibration.md). -/
def regRows_bst : List RegRow := [
  -- BST_CTRL
  ⟨0x11000, 4, 1, [0x104001], [⟨.rw, 24, 16⟩, ⟨.rw, 15, 8⟩, ⟨.rw, 0, 0⟩]⟩,
  -- BST_STATUS
  ⟨0x11004, 4, 1, [0x0], [⟨.ro, 31, 31⟩, ⟨.ro, 30, 30⟩, ⟨.ro, 29, 28⟩, ⟨.ro, 18, 16⟩]⟩,
  -- BST_RAM_FAIL
  ⟨0x11008, 4, 1, [0x0], [⟨.ro, 8, 0⟩]⟩,
  -- BST_BANK_FAIL
  ⟨0x1100c, 4, 1, [0x0], [⟨.ro, 16, 0⟩]⟩,
  -- BST_LATCH
  ⟨0x11010, 4, 1, [0x0], [⟨.rc, 31, 16⟩, ⟨.ro, 8, 0⟩]⟩,
  -- BST_BG
  ⟨0x11014, 4, 1, [0x0], [⟨.rc, 31, 16⟩, ⟨.rc, 15, 0⟩]⟩,
  -- BST_RUN
  ⟨0x11020, 4, 1, [0x0], [⟨.rw, 1, 0⟩]⟩,
  -- BST_RUN_STATUS
  ⟨0x11024, 4, 1, [0x0], [⟨.ro, 6, 4⟩, ⟨.ro, 3, 0⟩]⟩
]

/-- The registers of block CAL (spec/18_selftest_calibration.md). -/
def regRows_cal : List RegRow := [
  -- CAL_CTRL
  ⟨0x12000, 4, 1, [0x32801], [⟨.rw, 19, 16⟩, ⟨.rw, 15, 8⟩, ⟨.rw, 0, 0⟩]⟩,
  -- CAL_RUN
  ⟨0x12004, 4, 1, [0x0], [⟨.rw, 27, 16⟩, ⟨.rw, 9, 8⟩, ⟨.rw, 4, 4⟩, ⟨.rw, 3, 0⟩]⟩,
  -- CAL_STATUS
  ⟨0x12008, 4, 1, [0x0], [⟨.ro, 31, 31⟩, ⟨.ro, 30, 30⟩, ⟨.ro, 29, 28⟩, ⟨.ro, 27, 24⟩, ⟨.ro, 19, 16⟩, ⟨.ro, 12, 8⟩, ⟨.ro, 3, 0⟩]⟩,
  -- CAL_GEN
  ⟨0x1200c, 4, 1, [0x0], [⟨.ro, 31, 16⟩, ⟨.ro, 1, 0⟩]⟩,
  -- CAL_LINK
  ⟨0x12010, 4, 1, [0x10101010], [⟨.ro, 28, 24⟩, ⟨.ro, 20, 16⟩, ⟨.ro, 12, 8⟩, ⟨.ro, 4, 0⟩]⟩,
  -- CAL_LINK_D
  ⟨0x12014, 4, 1, [0x10], [⟨.ro, 12, 8⟩, ⟨.ro, 4, 0⟩]⟩,
  -- CAL_ISNS0
  ⟨0x12018, 4, 1, [0x0], [⟨.ro, 31, 0⟩]⟩,
  -- CAL_ISNS1
  ⟨0x1201c, 4, 1, [0x0], [⟨.ro, 31, 0⟩]⟩,
  -- CAL_TEMP
  ⟨0x12020, 4, 1, [0x0], [⟨.ro, 27, 16⟩, ⟨.ro, 11, 0⟩]⟩,
  -- CAL_CNT
  ⟨0x12024, 4, 1, [0x0], [⟨.rc, 31, 16⟩, ⟨.rc, 15, 0⟩]⟩
]

/-- The registers of block REC (spec/19_recorder.md). -/
def regRows_rec : List RegRow := [
  -- REC_CTRL
  ⟨0x13000, 4, 1, [0x2583c02], [⟨.rw, 31, 16⟩, ⟨.rw, 15, 8⟩, ⟨.rw, 1, 1⟩]⟩,
  -- REC_STATUS
  ⟨0x13004, 4, 1, [0x0], [⟨.ro, 31, 31⟩, ⟨.ro, 30, 30⟩, ⟨.ro, 29, 29⟩, ⟨.ro, 28, 28⟩, ⟨.ro, 25, 25⟩, ⟨.ro, 24, 16⟩]⟩,
  -- REC_SEQ
  ⟨0x13008, 4, 1, [0x0], [⟨.ro, 17, 16⟩, ⟨.ro, 15, 0⟩]⟩,
  -- REC_CP_STATUS
  ⟨0x1300c, 4, 1, [0x0], [⟨.ro, 11, 8⟩, ⟨.ro, 1, 0⟩]⟩,
  -- REC_OPSEC
  ⟨0x13010, 4, 1, [0x0], [⟨.ro, 31, 0⟩]⟩,
  -- REC_LITSEC
  ⟨0x13014, 4, 1, [0x0], [⟨.ro, 31, 0⟩]⟩,
  -- REC_PCC
  ⟨0x13018, 4, 1, [0x0], [⟨.ro, 31, 0⟩]⟩,
  -- REC_CNT
  ⟨0x1301c, 4, 1, [0x0], [⟨.rc, 31, 16⟩, ⟨.rc, 15, 0⟩]⟩,
  -- REC_CODE_SEL
  ⟨0x13020, 4, 1, [0x0], [⟨.rw, 7, 0⟩]⟩,
  -- REC_CODE_CNT
  ⟨0x13024, 4, 1, [0x0], [⟨.ro, 31, 0⟩]⟩,
  -- REC_CODE_AUX
  ⟨0x13028, 4, 1, [0x10], [⟨.ro, 31, 16⟩, ⟨.rw, 7, 0⟩]⟩
]

/-- The registers of block CHK (spec/03_layer_memory.md). -/
def regRows_chk : List RegRow := [
  -- CHK_ADDR
  ⟨0x14000, 4, 1, [0x1000000], [⟨.rw, 31, 0⟩]⟩,
  -- CHK_LEN
  ⟨0x14004, 4, 1, [0x0], [⟨.rw, 25, 0⟩]⟩,
  -- CHK_SEED
  ⟨0x14008, 4, 1, [0x0], [⟨.rw, 31, 0⟩]⟩,
  -- CHK_RESULT
  ⟨0x1400c, 4, 1, [0x0], [⟨.ro, 31, 0⟩]⟩,
  -- CHK_STATUS
  ⟨0x14010, 4, 1, [0x0], [⟨.ro, 7, 4⟩, ⟨.ro, 1, 0⟩]⟩,
  -- CHK_PROGRESS
  ⟨0x14014, 4, 1, [0x0], [⟨.ro, 25, 0⟩]⟩
]

/-- Every register of the map, in ascending address order. -/
def regRows : List RegRow :=
  regRows_glb ++ regRows_ras ++ regRows_lmc ++ regRows_cmp ++ regRows_scl ++ regRows_msk ++ regRows_lum ++ regRows_ary ++ regRows_hlt ++ regRows_lpe ++ regRows_thm ++ regRows_saf ++ regRows_flt ++ regRows_lnk ++ regRows_cvn ++ regRows_cfg ++ regRows_pwr ++ regRows_bst ++ regRows_cal ++ regRows_rec ++ regRows_chk

/-- The table row that holds the register at byte address `a` (a multiple of 4), searched in one
block's rows. -/
def findRow : List RegRow → Nat → Option RegRow
  | [], _ => none
  | r :: t, a =>
    if r.addr ≤ a ∧ a < r.addr + r.stride * r.count ∧ (a - r.addr) % r.stride = 0 then some r
    else findRow t a

/-- The rows of the block whose 4 KiB window (R23) holds address `a`. -/
def rowsOfWindow (a : Nat) : List RegRow :=
  match a / 0x1000 with
  | 0 => regRows_glb
  | 1 => regRows_ras
  | 2 => regRows_lmc
  | 3 => regRows_cmp
  | 4 => regRows_scl
  | 5 => regRows_msk
  | 6 => regRows_lum
  | 7 => regRows_ary
  | 8 => regRows_hlt
  | 9 => regRows_lpe
  | 10 => regRows_thm
  | 11 => regRows_saf
  | 12 => regRows_flt
  | 13 => regRows_lnk
  | 14 => regRows_cvn
  | 15 => regRows_cfg
  | 16 => regRows_pwr
  | 17 => regRows_bst
  | 18 => regRows_cal
  | 19 => regRows_rec
  | 20 => regRows_chk
  | _ => []

/-- The row of the register at `a`; none at a reserved offset (R485). -/
def regRow (a : Nat) : Option RegRow := findRow (rowsOfWindow a) a

/-- The value the register at `a` takes at the reset events of its block (R488); a reserved offset
reads 0. -/
def regReset (a : Nat) : Word :=
  match regRow a with
  | none => 0
  | some r =>
    match r.resets with
    | [v] => BitVec.ofNat 32 v
    | vs => BitVec.ofNat 32 (vs.getD ((a - r.addr) / r.stride) 0)

/-- The bits `hi` down to `lo` of a word, all ones. -/
def bitMask (hi lo : Nat) : Word := BitVec.ofNat 32 (2 ^ (hi + 1) - 2 ^ lo)

/-- The bits of register `a` whose access code is `c`. -/
def accessMask (c : Access) (a : Nat) : Word :=
  match regRow a with
  | none => 0
  | some r => r.fields.foldl (fun m f => if f.access = c then m ||| bitMask f.hi f.lo else m) 0

/-- Some field of the register at `a` is writable; a register of only RO or RC fields is not
(R485). -/
def hasWritable (a : Nat) : Bool :=
  match regRow a with
  | none => false
  | some r => r.fields.any fun f =>
      match f.access with
      | .ro | .rc | .rc1 => false
      | .rw | .rws | .w1c | .w1s | .wo => true

end Sys2Proof.Machine
end

