-- ==== Sys2Proof/Machine/Fields.lean ====
section
/-!
DEFINITION. A name for every field of the register tables: `F.<REGISTER>_<FIELD>`, and for every
register's address: `A.<REGISTER>`.  An array of registers takes the index of the register.
-/

namespace Sys2Proof.Machine.A

def GLB_ID : Nat := 0x0
def GLB_STEP : Nat := 0x4
def GLB_SCRATCH : Nat := 0x8
def GLB_STATE : Nat := 0x10
def GLB_IRQ_STATUS : Nat := 0x20
def GLB_IRQ_ENABLE : Nat := 0x24
def GLB_IRQ_RAW : Nat := 0x28
def GLB_SPI_CNT : Nat := 0x30
def GLB_ACC_ERR : Nat := 0x34
def GLB_ACC_ADDR : Nat := 0x38
def GLB_COMMIT : Nat := 0x40
def GLB_COMMIT_STATUS : Nat := 0x44
def GLB_COMMIT_TARGET : Nat := 0x48
def GLB_COMMIT_CTRL : Nat := 0x4c
def GLB_POS : Nat := 0x50
def GLB_FRAME : Nat := 0x54
def GLB_HOLD_MODE : Nat := 0x58
def GLB_SYNC_GROUP : Nat := 0x5c
def GLB_OFFBLOCK_COUNT : Nat := 0x60
def GLB_COMMIT_CNT : Nat := 0x64
def GLB_COMMIT_LAYERS : Nat := 0x68
def GLB_HOLD_CNTn (n : Nat) : Nat := 0x70 + 4 * n
def RAS_CTRL : Nat := 0x1000
def RAS_NEXT_TIMING : Nat := 0x1010
def RAS_NEXT_PWM : Nat := 0x1014
def RAS_NEXT_MODE : Nat := 0x1018
def RAS_FOLLOW : Nat := 0x1020
def RAS_ACT_TIMING : Nat := 0x1030
def RAS_ACT_PWM : Nat := 0x1034
def RAS_ACT_MODE : Nat := 0x1038
def RAS_STATUS : Nat := 0x1040
def RAS_RETIME_STATUS : Nat := 0x1044
def RAS_RETIME_FRAME : Nat := 0x1048
def RAS_LINE_MATCH : Nat := 0x1050
def RAS_FSYNC : Nat := 0x1054
def RAS_FOLLOW_CNT : Nat := 0x1060
def RAS_FOLLOW_ERR : Nat := 0x1064
def LMC_CTRL : Nat := 0x2000
def LMC_STATUS : Nat := 0x2004
def LMC_BANK_MAPn (n : Nat) : Nat := 0x2010 + 4 * n
def LMC_NOMAD : Nat := 0x2020
def LMC_BANK_EN : Nat := 0x2024
def LMC_SEAL_CRC : Nat := 0x2030
def LMC_SEAL : Nat := 0x2034
def LMC_SEAL_STATUS : Nat := 0x2038
def LMC_LOCKn (n : Nat) : Nat := 0x2040 + 4 * n
def LMC_DIR_SEL : Nat := 0x2060
def LMC_DIR_CRC : Nat := 0x2064
def LMC_DIR_STATE : Nat := 0x2068
def LMC_LAYER_SEALED : Nat := 0x206c
def LMC_CNT0 : Nat := 0x2070
def LMC_CNT1 : Nat := 0x2074
def LMC_CNT2 : Nat := 0x2078
def CMP_BG : Nat := 0x3000
def CMP_WR : Nat := 0x3004
def CMP_WG : Nat := 0x3008
def CMP_WB : Nat := 0x300c
def CMP_LAYER_TYPE : Nat := 0x3010
def CMP_LAYER_CLASS : Nat := 0x3014
def CMP_TT_ADDR : Nat := 0x3020
def CMP_TT_DATA : Nat := 0x3024
def CMP_TT_STATUS : Nat := 0x3028
def CMP_OUT_CNT : Nat := 0x3030
def CMP_URUN_FLAGS : Nat := 0x3034
def CMP_Ln_CTRL (n : Nat) : Nat := 0x3100 + 32 * n
def CMP_Ln_SURF (n : Nat) : Nat := 0x3104 + 32 * n
def CMP_Ln_POS (n : Nat) : Nat := 0x3108 + 32 * n
def CMP_Ln_SIZE (n : Nat) : Nat := 0x310c + 32 * n
def CMP_Ln_SRC (n : Nat) : Nat := 0x3110 + 32 * n
def CMP_Ln_UBG (n : Nat) : Nat := 0x3114 + 32 * n
def CMP_Ln_URUN (n : Nat) : Nat := 0x3118 + 32 * n
def SCL_COEF_ADDR : Nat := 0x4000
def SCL_COEF_DATA : Nat := 0x4004
def SCL_COEF_STATUS : Nat := 0x4008
def SCL_SCn_CTRL (n : Nat) : Nat := 0x4100 + 64 * n
def SCL_SCn_IN (n : Nat) : Nat := 0x4104 + 64 * n
def SCL_SCn_HSTEP (n : Nat) : Nat := 0x4108 + 64 * n
def SCL_SCn_VSTEP (n : Nat) : Nat := 0x410c + 64 * n
def SCL_SCn_INIT (n : Nat) : Nat := 0x4110 + 64 * n
def SCL_SCn_GRANT (n : Nat) : Nat := 0x4114 + 64 * n
def SCL_SCn_STATUS (n : Nat) : Nat := 0x4118 + 64 * n
def MSK_CTRL : Nat := 0x5000
def MSK_EPOCH : Nat := 0x5004
def MSK_ORIGIN : Nat := 0x5008
def MSK_TIMEOUT : Nat := 0x500c
def MSK_FBn (n : Nat) : Nat := 0x5010 + 4 * n
def MSK_SUBMIT : Nat := 0x5020
def MSK_LIST_STATUS : Nat := 0x5024
def MSK_STATUS : Nat := 0x5028
def MSK_APPLIED : Nat := 0x502c
def MSK_LAT : Nat := 0x5030
def MSK_LAT_MAX : Nat := 0x5034
def MSK_CNT0 : Nat := 0x5038
def MSK_CNT1 : Nat := 0x503c
def MSK_CNT2 : Nat := 0x5040
def MSK_STAGEn (n : Nat) : Nat := 0x5400 + 4 * n
def LUM_CTRL : Nat := 0x6000
def LUM_DIM : Nat := 0x6004
def LUM_LIMIT_PEAK : Nat := 0x6008
def LUM_LIMIT_CONT : Nat := 0x600c
def LUM_BOOST : Nat := 0x6010
def LUM_BUDGET_STATUS : Nat := 0x6014
def LUM_LF_MIN : Nat := 0x6018
def LUM_DEMAND : Nat := 0x601c
def LUM_STATE : Nat := 0x6020
def LUM_CREST : Nat := 0x6024
def LUM_VMIN : Nat := 0x6028
def LUM_VFn (n : Nat) : Nat := 0x6030 + 4 * n
def LUM_GAIN_RELOAD : Nat := 0x6040
def LUM_CNT : Nat := 0x6044
def ARY_CTRL : Nat := 0x7000
def ARY_IU : Nat := 0x7004
def ARY_STATUS : Nat := 0x7008
def ARY_ISET : Nat := 0x700c
def ARY_COUNT : Nat := 0x7010
def ARY_PC_ADDR : Nat := 0x7020
def ARY_PC_DATA : Nat := 0x7024
def ARY_CNT : Nat := 0x7028
def HLT_SENSE_CFG : Nat := 0x8000
def HLT_CNT : Nat := 0x8004
def HLT_DEFECT_CNT : Nat := 0x8008
def HLT_DEFECT_LIMIT : Nat := 0x800c
def HLT_DEFECT_SET : Nat := 0x8010
def HLT_DEFECT_SEL : Nat := 0x8014
def HLT_DEFECT_STATE : Nat := 0x8018
def HLT_DLOG0 : Nat := 0x8020
def HLT_DLOG1 : Nat := 0x8024
def HLT_REBUILD : Nat := 0x8028
def HLT_RB_CNT : Nat := 0x8030
def HLT_RB_CFG : Nat := 0x8034
def HLT_SIG_CFG : Nat := 0x8040
def HLT_SIG_OUT_FLAGS : Nat := 0x8044
def HLT_SIG_RB_FLAGS : Nat := 0x8048
def HLT_SIG_FRAME : Nat := 0x804c
def HLT_Rn_CTRL (n : Nat) : Nat := 0x8400 + 32 * n
def HLT_Rn_P0 (n : Nat) : Nat := 0x8404 + 32 * n
def HLT_Rn_P1 (n : Nat) : Nat := 0x8408 + 32 * n
def HLT_Rn_EXP (n : Nat) : Nat := 0x840c + 32 * n
def HLT_Rn_OUT (n : Nat) : Nat := 0x8410 + 32 * n
def HLT_Rn_RB (n : Nat) : Nat := 0x8414 + 32 * n
def HLT_Rn_STATUS (n : Nat) : Nat := 0x8418 + 32 * n
def LPE_CTRL : Nat := 0x9000
def LPE_TOPO : Nat := 0x9004
def LPE_STATUS : Nat := 0x9008
def LPE_BANK_A : Nat := 0x9010
def LPE_BANK_B : Nat := 0x9014
def LPE_COEF_ADDR : Nat := 0x9020
def LPE_COEF_S : Nat := 0x9024
def LPE_COEF_M : Nat := 0x9028
def LPE_COEF_STATUS : Nat := 0x902c
def LPE_VSET : Nat := 0x9030
def LPE_HEAD : Nat := 0x9034
def LPE_PROT : Nat := 0x9038
def LPE_START : Nat := 0x903c
def LPE_REG : Nat := 0x9040
def LPE_ILIM : Nat := 0x9044
def LPE_MEAS : Nat := 0x9050
def LPE_FAN : Nat := 0x9060
def LPE_TACH : Nat := 0x9064
def LPE_CNT : Nat := 0x9070
def LPE_LPn_STATUS (n : Nat) : Nat := 0x9100 + 16 * n
def LPE_LPn_OUT (n : Nat) : Nat := 0x9104 + 16 * n
def LPE_LPn_CNT (n : Nat) : Nat := 0x9108 + 16 * n
def LPE_LPn_CMD (n : Nat) : Nat := 0x910c + 16 * n
def THM_DERATE : Nat := 0xa000
def THM_ZONE : Nat := 0xa004
def THM_THROTTLE : Nat := 0xa008
def THM_GRACE : Nat := 0xa00c
def THM_SHUTDOWN : Nat := 0xa010
def THM_STATUS : Nat := 0xa020
def THM_BROKEN : Nat := 0xa024
def THM_HOT : Nat := 0xa028
def THM_CNT : Nat := 0xa02c
def THM_ZFn (n : Nat) : Nat := 0xa030 + 4 * n
def THM_TSn (n : Nat) : Nat := 0xa100 + 4 * n
def SAF_STATE : Nat := 0xb000
def SAF_SEAL : Nat := 0xb004
def SAF_CMD : Nat := 0xb008
def SAF_LOCK : Nat := 0xb00c
def SAF_DIM : Nat := 0xb010
def SAF_RAMP : Nat := 0xb014
def SAF_OASIS : Nat := 0xb018
def SAF_MON : Nat := 0xb01c
def SAF_LRM : Nat := 0xb020
def SAF_ENV : Nat := 0xb024
def SAF_IMON : Nat := 0xb028
def SAF_OASIS_STATUS : Nat := 0xb02c
def SAF_DISC : Nat := 0xb030
def SAF_SRST : Nat := 0xb034
def SAF_CNT : Nat := 0xb038
def SAF_TICK : Nat := 0xb03c
def FLT_CTRL : Nat := 0xc000
def FLT_STATUS : Nat := 0xc004
def FLT_T1 : Nat := 0xc008
def FLT_T2 : Nat := 0xc00c
def FLT_ACK : Nat := 0xc010
def FLT_INJECT : Nat := 0xc014
def FLT_FIRST_REL : Nat := 0xc018
def FLT_FIRST0 : Nat := 0xc020
def FLT_FIRST_ADDR : Nat := 0xc024
def FLT_FIRST_TSn (n : Nat) : Nat := 0xc028 + 4 * n
def FLT_FIRST_TICK : Nat := 0xc034
def FLT_FIRST_CLR_TSn (n : Nat) : Nat := 0xc038 + 4 * n
def FLT_FIRST_CLR_TICK : Nat := 0xc044
def FLT_PENDn (n : Nat) : Nat := 0xc080 + 4 * n
def FLT_MASKn (n : Nat) : Nat := 0xc0a0 + 4 * n
def FLT_Cnn (n : Nat) : Nat := 0xc400 + 4 * n
def LNK_U_CTRL : Nat := 0xd000
def LNK_U_STATUS : Nat := 0xd004
def LNK_U_SEQ : Nat := 0xd008
def LNK_U_LAST : Nat := 0xd00c
def LNK_U_REFUSE : Nat := 0xd010
def LNK_U_CNT0 : Nat := 0xd014
def LNK_U_CNT1 : Nat := 0xd018
def LNK_U_CNT2 : Nat := 0xd01c
def LNK_U_FIRn (n : Nat) : Nat := 0xd020 + 4 * n
def LNK_U_ERR : Nat := 0xd030
def LNK_D_CTRL : Nat := 0xd100
def LNK_D_STATUS : Nat := 0xd104
def LNK_D_SEQ : Nat := 0xd108
def LNK_D_LAST : Nat := 0xd10c
def LNK_D_REFUSE : Nat := 0xd110
def LNK_D_CNT0 : Nat := 0xd114
def LNK_D_CNT1 : Nat := 0xd118
def LNK_D_CNT2 : Nat := 0xd11c
def LNK_D_FIRn (n : Nat) : Nat := 0xd120 + 4 * n
def LNK_D_ERR : Nat := 0xd130
def LNK_MSG : Nat := 0xd200
def LNK_HOST_TO : Nat := 0xd204
def LNK_INJECT : Nat := 0xd208
def CVN_CTRL : Nat := 0xe000
def CVN_CFG : Nat := 0xe004
def CVN_STATUS : Nat := 0xe008
def CVN_RING : Nat := 0xe00c
def CVN_EPOCH : Nat := 0xe010
def CVN_SH_CFG : Nat := 0xe014
def CVN_SH_ADDR : Nat := 0xe018
def CVN_SH_DATA : Nat := 0xe01c
def CVN_RX_SHAREn (n : Nat) : Nat := 0xe020 + 4 * n
def CVN_CNT : Nat := 0xe030
def CVN_TDM_CFG : Nat := 0xe040
def CVN_TDM_STATUS : Nat := 0xe044
def CVN_TDM_CNT : Nat := 0xe048
def CFG_STATUS : Nat := 0xf000
def CFG_BOOT : Nat := 0xf004
def CFG_BOOT_REASON : Nat := 0xf008
def CFG_IMG : Nat := 0xf010
def CFG_IMG_ADDR : Nat := 0xf014
def CFG_IMG_STATUS : Nat := 0xf018
def CFG_RS_STATUS : Nat := 0xf01c
def CFG_LC : Nat := 0xf020
def CFG_CHAL0 : Nat := 0xf024
def CFG_CHAL1 : Nat := 0xf028
def CFG_TOKEN0 : Nat := 0xf02c
def CFG_TOKEN1 : Nat := 0xf030
def CFG_KEYn (n : Nat) : Nat := 0xf040 + 4 * n
def CFG_KCV : Nat := 0xf060
def CFG_FLOOR : Nat := 0xf064
def CFG_NVM_SRC : Nat := 0xf070
def CFG_NVM_DST : Nat := 0xf074
def CFG_NVM_LEN : Nat := 0xf078
def CFG_NVM_STATUS : Nat := 0xf07c
def CFG_GPIO : Nat := 0xf080
def PWR_REQ : Nat := 0x10000
def PWR_STATUS : Nat := 0x10004
def PWR_WAKE : Nat := 0x10008
def PWR_DOM : Nat := 0x1000c
def PWR_TIMEOUT : Nat := 0x10010
def PWR_CNT : Nat := 0x10014
def PWR_JOBn_CMD (n : Nat) : Nat := 0x10100 + 16 * n
def PWR_JOBn_STATUS (n : Nat) : Nat := 0x10104 + 16 * n
def BST_CTRL : Nat := 0x11000
def BST_STATUS : Nat := 0x11004
def BST_RAM_FAIL : Nat := 0x11008
def BST_BANK_FAIL : Nat := 0x1100c
def BST_LATCH : Nat := 0x11010
def BST_BG : Nat := 0x11014
def BST_RUN : Nat := 0x11020
def BST_RUN_STATUS : Nat := 0x11024
def CAL_CTRL : Nat := 0x12000
def CAL_RUN : Nat := 0x12004
def CAL_STATUS : Nat := 0x12008
def CAL_GEN : Nat := 0x1200c
def CAL_LINK : Nat := 0x12010
def CAL_LINK_D : Nat := 0x12014
def CAL_ISNS0 : Nat := 0x12018
def CAL_ISNS1 : Nat := 0x1201c
def CAL_TEMP : Nat := 0x12020
def CAL_CNT : Nat := 0x12024
def REC_CTRL : Nat := 0x13000
def REC_STATUS : Nat := 0x13004
def REC_SEQ : Nat := 0x13008
def REC_CP_STATUS : Nat := 0x1300c
def REC_OPSEC : Nat := 0x13010
def REC_LITSEC : Nat := 0x13014
def REC_PCC : Nat := 0x13018
def REC_CNT : Nat := 0x1301c
def REC_CODE_SEL : Nat := 0x13020
def REC_CODE_CNT : Nat := 0x13024
def REC_CODE_AUX : Nat := 0x13028
def CHK_ADDR : Nat := 0x14000
def CHK_LEN : Nat := 0x14004
def CHK_SEED : Nat := 0x14008
def CHK_RESULT : Nat := 0x1400c
def CHK_STATUS : Nat := 0x14010
def CHK_PROGRESS : Nat := 0x14014

end Sys2Proof.Machine.A

namespace Sys2Proof.Machine.F

def GLB_ID_FAMILY : Field := ⟨0x0, 31, 16⟩
def GLB_ID_PART : Field := ⟨0x0, 15, 0⟩
def GLB_STEP_ORDER : Field := ⟨0x4, 11, 8⟩
def GLB_STEP_STEP : Field := ⟨0x4, 7, 0⟩
def GLB_SCRATCH_VALUE : Field := ⟨0x8, 31, 0⟩
def GLB_STATE_POS : Field := ⟨0x10, 31, 20⟩
def GLB_STATE_SAFETY : Field := ⟨0x10, 18, 16⟩
def GLB_STATE_TDM_ROLE : Field := ⟨0x10, 13, 12⟩
def GLB_STATE_MASTER : Field := ⟨0x10, 8, 8⟩
def GLB_STATE_LC : Field := ⟨0x10, 6, 4⟩
def GLB_STATE_POWER : Field := ⟨0x10, 2, 0⟩
def GLB_IRQ_STATUS_EVENT : Field := ⟨0x20, 23, 0⟩
def GLB_IRQ_ENABLE_EN : Field := ⟨0x24, 23, 0⟩
def GLB_IRQ_RAW_EVENT : Field := ⟨0x28, 23, 0⟩
def GLB_SPI_CNT_CRC : Field := ⟨0x30, 31, 24⟩
def GLB_SPI_CNT_SHORT : Field := ⟨0x30, 23, 16⟩
def GLB_SPI_CNT_TIMEOUT : Field := ⟨0x30, 15, 8⟩
def GLB_SPI_CNT_OVERRUN : Field := ⟨0x30, 7, 0⟩
def GLB_ACC_ERR_VALID : Field := ⟨0x34, 31, 31⟩
def GLB_ACC_ERR_RESULT : Field := ⟨0x34, 23, 16⟩
def GLB_ACC_ERR_INIT : Field := ⟨0x34, 12, 8⟩
def GLB_ACC_ERR_WRITE : Field := ⟨0x34, 0, 0⟩
def GLB_ACC_ADDR_ADDR : Field := ⟨0x38, 31, 0⟩
def GLB_COMMIT_RDY : Field := ⟨0x40, 27, 16⟩
def GLB_COMMIT_ARM : Field := ⟨0x40, 8, 8⟩
def GLB_COMMIT_ALIVE : Field := ⟨0x40, 7, 0⟩
def GLB_COMMIT_STATUS_DEGRADED : Field := ⟨0x44, 28, 28⟩
def GLB_COMMIT_STATUS_LAYER : Field := ⟨0x44, 11, 8⟩
def GLB_COMMIT_STATUS_REASON : Field := ⟨0x44, 7, 4⟩
def GLB_COMMIT_STATUS_LAST : Field := ⟨0x44, 3, 2⟩
def GLB_COMMIT_STATUS_STATE : Field := ⟨0x44, 1, 0⟩
def GLB_COMMIT_TARGET_FRAME : Field := ⟨0x48, 31, 0⟩
def GLB_COMMIT_CTRL_ALIVE_VALID : Field := ⟨0x4c, 24, 24⟩
def GLB_COMMIT_CTRL_LAST_ALIVE : Field := ⟨0x4c, 23, 16⟩
def GLB_COMMIT_CTRL_STALE : Field := ⟨0x4c, 15, 8⟩
def GLB_COMMIT_CTRL_MAX_DELTA : Field := ⟨0x4c, 7, 0⟩
def GLB_POS_LINE : Field := ⟨0x50, 26, 16⟩
def GLB_POS_SLOT : Field := ⟨0x50, 11, 0⟩
def GLB_FRAME_FRAME : Field := ⟨0x54, 31, 0⟩
def GLB_HOLD_MODE_MODE : Field := ⟨0x58, 23, 0⟩
def GLB_SYNC_GROUP_GROUP : Field := ⟨0x5c, 23, 0⟩
def GLB_OFFBLOCK_COUNT_COUNT : Field := ⟨0x60, 31, 0⟩
def GLB_COMMIT_CNT_REJECTED : Field := ⟨0x64, 31, 24⟩
def GLB_COMMIT_CNT_REPLACED : Field := ⟨0x64, 23, 16⟩
def GLB_COMMIT_CNT_HELD : Field := ⟨0x64, 15, 8⟩
def GLB_COMMIT_CNT_TAKEN : Field := ⟨0x64, 7, 0⟩
def GLB_COMMIT_LAYERS_DROPPED : Field := ⟨0x68, 27, 16⟩
def GLB_COMMIT_LAYERS_KEPT : Field := ⟨0x68, 11, 0⟩
def GLB_HOLD_CNTn_ODD (n : Nat) : Field := ⟨0x70 + 4 * n, 31, 16⟩
def GLB_HOLD_CNTn_EVEN (n : Nat) : Field := ⟨0x70 + 4 * n, 15, 0⟩
def RAS_CTRL_RETIME : Field := ⟨0x1000, 0, 0⟩
def RAS_NEXT_TIMING_VB : Field := ⟨0x1010, 25, 16⟩
def RAS_NEXT_TIMING_N_SLOTS : Field := ⟨0x1010, 11, 0⟩
def RAS_NEXT_PWM_K : Field := ⟨0x1014, 8, 0⟩
def RAS_NEXT_MODE_FOLLOW_SRC : Field := ⟨0x1018, 5, 4⟩
def RAS_NEXT_MODE_MODE : Field := ⟨0x1018, 1, 0⟩
def RAS_FOLLOW_TIMEOUT : Field := ⟨0x1020, 31, 24⟩
def RAS_FOLLOW_DB : Field := ⟨0x1020, 23, 16⟩
def RAS_FOLLOW_LINE : Field := ⟨0x1020, 10, 0⟩
def RAS_ACT_TIMING_VB : Field := ⟨0x1030, 25, 16⟩
def RAS_ACT_TIMING_N_SLOTS : Field := ⟨0x1030, 11, 0⟩
def RAS_ACT_PWM_K : Field := ⟨0x1034, 8, 0⟩
def RAS_ACT_MODE_FOLLOW_SRC : Field := ⟨0x1038, 5, 4⟩
def RAS_ACT_MODE_MODE : Field := ⟨0x1038, 1, 0⟩
def RAS_STATUS_P : Field := ⟨0x1040, 28, 20⟩
def RAS_STATUS_CUR_VB : Field := ⟨0x1040, 19, 10⟩
def RAS_STATUS_FLYWHEEL : Field := ⟨0x1040, 3, 3⟩
def RAS_STATUS_FOLLOW_LOCK : Field := ⟨0x1040, 2, 2⟩
def RAS_STATUS_RUN : Field := ⟨0x1040, 1, 0⟩
def RAS_RETIME_STATUS_REASON : Field := ⟨0x1044, 11, 8⟩
def RAS_RETIME_STATUS_IGNORED : Field := ⟨0x1044, 4, 4⟩
def RAS_RETIME_STATUS_RESULT : Field := ⟨0x1044, 1, 0⟩
def RAS_RETIME_FRAME_TARGET : Field := ⟨0x1048, 31, 0⟩
def RAS_LINE_MATCH_LINE : Field := ⟨0x1050, 10, 0⟩
def RAS_FSYNC_WIDTH : Field := ⟨0x1054, 7, 0⟩
def RAS_FOLLOW_CNT_EXTRA : Field := ⟨0x1060, 31, 16⟩
def RAS_FOLLOW_CNT_MISSED : Field := ⟨0x1060, 15, 0⟩
def RAS_FOLLOW_ERR_E : Field := ⟨0x1064, 27, 16⟩
def RAS_FOLLOW_ERR_TRIM : Field := ⟨0x1064, 1, 0⟩
def LMC_CTRL_BG_EN : Field := ⟨0x2000, 0, 0⟩
def LMC_STATUS_POST : Field := ⟨0x2004, 31, 31⟩
def LMC_STATUS_MIGRATE_BANK : Field := ⟨0x2004, 20, 16⟩
def LMC_STATUS_TEST_PHYS : Field := ⟨0x2004, 12, 8⟩
def LMC_STATUS_BG_PHASE : Field := ⟨0x2004, 1, 0⟩
def LMC_BANK_MAPn_PHYS3 (n : Nat) : Field := ⟨0x2010 + 4 * n, 28, 24⟩
def LMC_BANK_MAPn_PHYS2 (n : Nat) : Field := ⟨0x2010 + 4 * n, 20, 16⟩
def LMC_BANK_MAPn_PHYS1 (n : Nat) : Field := ⟨0x2010 + 4 * n, 12, 8⟩
def LMC_BANK_MAPn_PHYS0 (n : Nat) : Field := ⟨0x2010 + 4 * n, 4, 0⟩
def LMC_NOMAD_PHYS : Field := ⟨0x2020, 4, 0⟩
def LMC_BANK_EN_EN : Field := ⟨0x2024, 15, 0⟩
def LMC_SEAL_CRC_CRC : Field := ⟨0x2030, 31, 0⟩
def LMC_SEAL_SELF : Field := ⟨0x2034, 31, 31⟩
def LMC_SEAL_TILE : Field := ⟨0x2034, 13, 0⟩
def LMC_SEAL_STATUS_BUSY : Field := ⟨0x2038, 31, 31⟩
def LMC_SEAL_STATUS_OVERRUN : Field := ⟨0x2038, 16, 16⟩
def LMC_SEAL_STATUS_REASON : Field := ⟨0x2038, 11, 8⟩
def LMC_SEAL_STATUS_RESULT : Field := ⟨0x2038, 1, 0⟩
def LMC_LOCKn_EN (n : Nat) : Field := ⟨0x2040 + 4 * n, 31, 31⟩
def LMC_LOCKn_COUNT (n : Nat) : Field := ⟨0x2040 + 4 * n, 29, 16⟩
def LMC_LOCKn_FIRST (n : Nat) : Field := ⟨0x2040 + 4 * n, 13, 0⟩
def LMC_DIR_SEL_TILE : Field := ⟨0x2060, 13, 0⟩
def LMC_DIR_CRC_CRC : Field := ⟨0x2064, 31, 0⟩
def LMC_DIR_STATE_LOCKED : Field := ⟨0x2068, 4, 4⟩
def LMC_DIR_STATE_STATE : Field := ⟨0x2068, 1, 0⟩
def LMC_LAYER_SEALED_SEALED : Field := ⟨0x206c, 11, 0⟩
def LMC_CNT0_CRC_FAIL : Field := ⟨0x2070, 31, 16⟩
def LMC_CNT0_UNSEALED_USE : Field := ⟨0x2070, 15, 0⟩
def LMC_CNT1_LOCKED_WRITE : Field := ⟨0x2074, 31, 16⟩
def LMC_CNT1_DIR_CORR : Field := ⟨0x2074, 15, 0⟩
def LMC_CNT2_ARRIVAL_FAIL : Field := ⟨0x2078, 31, 16⟩
def LMC_CNT2_BAD_USE : Field := ⟨0x2078, 15, 0⟩
def CMP_BG_BG : Field := ⟨0x3000, 15, 0⟩
def CMP_WR_W : Field := ⟨0x3004, 16, 0⟩
def CMP_WG_W : Field := ⟨0x3008, 16, 0⟩
def CMP_WB_W : Field := ⟨0x300c, 16, 0⟩
def CMP_LAYER_TYPE_TYPE : Field := ⟨0x3010, 23, 0⟩
def CMP_LAYER_CLASS_SYMBOL : Field := ⟨0x3014, 11, 0⟩
def CMP_TT_ADDR_INC : Field := ⟨0x3020, 31, 31⟩
def CMP_TT_ADDR_LAYER : Field := ⟨0x3020, 27, 24⟩
def CMP_TT_ADDR_BANK : Field := ⟨0x3020, 16, 16⟩
def CMP_TT_ADDR_INDEX : Field := ⟨0x3020, 7, 0⟩
def CMP_TT_DATA_ENTRY : Field := ⟨0x3024, 15, 0⟩
def CMP_TT_STATUS_RANGE : Field := ⟨0x3028, 1, 1⟩
def CMP_TT_STATUS_ACTIVE_WRITE : Field := ⟨0x3028, 0, 0⟩
def CMP_OUT_CNT_STALLS : Field := ⟨0x3030, 31, 16⟩
def CMP_OUT_CNT_OUT_URUN : Field := ⟨0x3030, 15, 0⟩
def CMP_URUN_FLAGS_OUT : Field := ⟨0x3034, 16, 16⟩
def CMP_URUN_FLAGS_LAYER : Field := ⟨0x3034, 11, 0⟩
def CMP_Ln_CTRL_LA (n : Nat) : Field := ⟨0x3100 + 32 * n, 31, 16⟩
def CMP_Ln_CTRL_TT_SEL (n : Nat) : Field := ⟨0x3100 + 32 * n, 10, 10⟩
def CMP_Ln_CTRL_OP (n : Nat) : Field := ⟨0x3100 + 32 * n, 9, 9⟩
def CMP_Ln_CTRL_PREMUL (n : Nat) : Field := ⟨0x3100 + 32 * n, 8, 8⟩
def CMP_Ln_CTRL_FORMAT (n : Nat) : Field := ⟨0x3100 + 32 * n, 7, 4⟩
def CMP_Ln_CTRL_EN (n : Nat) : Field := ⟨0x3100 + 32 * n, 0, 0⟩
def CMP_Ln_SURF_H_T (n : Nat) : Field := ⟨0x3104 + 32 * n, 31, 24⟩
def CMP_Ln_SURF_W_T (n : Nat) : Field := ⟨0x3104 + 32 * n, 23, 16⟩
def CMP_Ln_SURF_BASE_TILE (n : Nat) : Field := ⟨0x3104 + 32 * n, 13, 0⟩
def CMP_Ln_POS_DY (n : Nat) : Field := ⟨0x3108 + 32 * n, 27, 16⟩
def CMP_Ln_POS_DX (n : Nat) : Field := ⟨0x3108 + 32 * n, 11, 0⟩
def CMP_Ln_SIZE_H (n : Nat) : Field := ⟨0x310c + 32 * n, 27, 16⟩
def CMP_Ln_SIZE_W (n : Nat) : Field := ⟨0x310c + 32 * n, 11, 0⟩
def CMP_Ln_SRC_SY (n : Nat) : Field := ⟨0x3110 + 32 * n, 30, 16⟩
def CMP_Ln_SRC_SX (n : Nat) : Field := ⟨0x3110 + 32 * n, 14, 0⟩
def CMP_Ln_UBG_A (n : Nat) : Field := ⟨0x3114 + 32 * n, 31, 16⟩
def CMP_Ln_UBG_L (n : Nat) : Field := ⟨0x3114 + 32 * n, 15, 0⟩
def CMP_Ln_URUN_TILE_ROWS (n : Nat) : Field := ⟨0x3118 + 32 * n, 31, 16⟩
def CMP_Ln_URUN_LATE_ROWS (n : Nat) : Field := ⟨0x3118 + 32 * n, 15, 0⟩
def SCL_COEF_ADDR_INC : Field := ⟨0x4000, 31, 31⟩
def SCL_COEF_ADDR_SCALER : Field := ⟨0x4000, 25, 24⟩
def SCL_COEF_ADDR_BANK : Field := ⟨0x4000, 20, 20⟩
def SCL_COEF_ADDR_DIR : Field := ⟨0x4000, 16, 16⟩
def SCL_COEF_ADDR_PHASE : Field := ⟨0x4000, 13, 8⟩
def SCL_COEF_ADDR_TAP : Field := ⟨0x4000, 2, 0⟩
def SCL_COEF_DATA_COEF : Field := ⟨0x4004, 11, 0⟩
def SCL_COEF_STATUS_RANGE : Field := ⟨0x4008, 1, 1⟩
def SCL_COEF_STATUS_ACTIVE_WRITE : Field := ⟨0x4008, 0, 0⟩
def SCL_SCn_CTRL_COEF_SEL (n : Nat) : Field := ⟨0x4100 + 64 * n, 16, 16⟩
def SCL_SCn_CTRL_AUTO_TAPS (n : Nat) : Field := ⟨0x4100 + 64 * n, 12, 12⟩
def SCL_SCn_CTRL_V_TAPS (n : Nat) : Field := ⟨0x4100 + 64 * n, 11, 8⟩
def SCL_SCn_CTRL_LAYER (n : Nat) : Field := ⟨0x4100 + 64 * n, 5, 4⟩
def SCL_SCn_CTRL_EN (n : Nat) : Field := ⟨0x4100 + 64 * n, 0, 0⟩
def SCL_SCn_IN_IH (n : Nat) : Field := ⟨0x4104 + 64 * n, 27, 16⟩
def SCL_SCn_IN_IW (n : Nat) : Field := ⟨0x4104 + 64 * n, 11, 0⟩
def SCL_SCn_HSTEP_STEP (n : Nat) : Field := ⟨0x4108 + 64 * n, 18, 0⟩
def SCL_SCn_VSTEP_STEP (n : Nat) : Field := ⟨0x410c + 64 * n, 18, 0⟩
def SCL_SCn_INIT_V_INIT (n : Nat) : Field := ⟨0x4110 + 64 * n, 31, 16⟩
def SCL_SCn_INIT_H_INIT (n : Nat) : Field := ⟨0x4110 + 64 * n, 15, 0⟩
def SCL_SCn_GRANT_GRANT (n : Nat) : Field := ⟨0x4114 + 64 * n, 7, 0⟩
def SCL_SCn_STATUS_DEGRADED (n : Nat) : Field := ⟨0x4118 + 64 * n, 31, 31⟩
def SCL_SCn_STATUS_EFF_TAPS (n : Nat) : Field := ⟨0x4118 + 64 * n, 19, 16⟩
def SCL_SCn_STATUS_NEED (n : Nat) : Field := ⟨0x4118 + 64 * n, 7, 0⟩
def MSK_CTRL_TO_ACTION : Field := ⟨0x5000, 5, 4⟩
def MSK_CTRL_SCRUB : Field := ⟨0x5000, 0, 0⟩
def MSK_EPOCH_PHASE : Field := ⟨0x5004, 26, 16⟩
def MSK_EPOCH_PERIOD : Field := ⟨0x5004, 6, 0⟩
def MSK_ORIGIN_OY : Field := ⟨0x5008, 31, 16⟩
def MSK_ORIGIN_OX : Field := ⟨0x5008, 15, 0⟩
def MSK_TIMEOUT_EPOCHS : Field := ⟨0x500c, 15, 0⟩
def MSK_FBn_WORD (n : Nat) : Field := ⟨0x5010 + 4 * n, 31, 0⟩
def MSK_SUBMIT_LEN : Field := ⟨0x5020, 8, 0⟩
def MSK_LIST_STATUS_LAST_GEN : Field := ⟨0x5024, 31, 24⟩
def MSK_LIST_STATUS_GEN_VALID : Field := ⟨0x5024, 23, 23⟩
def MSK_LIST_STATUS_ACT_COUNT : Field := ⟨0x5024, 22, 16⟩
def MSK_LIST_STATUS_OBJ : Field := ⟨0x5024, 13, 8⟩
def MSK_LIST_STATUS_REASON : Field := ⟨0x5024, 7, 4⟩
def MSK_LIST_STATUS_RESULT : Field := ⟨0x5024, 1, 0⟩
def MSK_STATUS_PASS : Field := ⟨0x5028, 31, 31⟩
def MSK_STATUS_TIMED_OUT : Field := ⟨0x5028, 30, 30⟩
def MSK_STATUS_DARK_ROWS : Field := ⟨0x5028, 19, 10⟩
def MSK_STATUS_BRIGHT_ROWS : Field := ⟨0x5028, 9, 0⟩
def MSK_APPLIED_VALID : Field := ⟨0x502c, 8, 8⟩
def MSK_APPLIED_GEN : Field := ⟨0x502c, 7, 0⟩
def MSK_LAT_LAST : Field := ⟨0x5030, 15, 0⟩
def MSK_LAT_MAX_MAX : Field := ⟨0x5034, 15, 0⟩
def MSK_CNT0_ACCEPTED : Field := ⟨0x5038, 31, 16⟩
def MSK_CNT0_REJECTED : Field := ⟨0x5038, 15, 0⟩
def MSK_CNT1_SKIPPED : Field := ⟨0x503c, 31, 16⟩
def MSK_CNT1_LATE : Field := ⟨0x503c, 15, 0⟩
def MSK_CNT2_PARITY : Field := ⟨0x5040, 31, 16⟩
def MSK_CNT2_DUPLICATE : Field := ⟨0x5040, 15, 0⟩
def MSK_STAGEn_WORD (n : Nat) : Field := ⟨0x5400 + 4 * n, 31, 0⟩
def LUM_CTRL_FILL : Field := ⟨0x6000, 15, 8⟩
def LUM_CTRL_FILL_EN : Field := ⟨0x6000, 1, 1⟩
def LUM_CTRL_GAIN_EN : Field := ⟨0x6000, 0, 0⟩
def LUM_DIM_DIM : Field := ⟨0x6004, 15, 0⟩
def LUM_LIMIT_PEAK_LIMIT : Field := ⟨0x6008, 31, 0⟩
def LUM_LIMIT_CONT_LIMIT : Field := ⟨0x600c, 31, 0⟩
def LUM_BOOST_RELEASE : Field := ⟨0x6010, 31, 16⟩
def LUM_BOOST_FRAMES : Field := ⟨0x6010, 7, 0⟩
def LUM_BUDGET_STATUS_BUDGET : Field := ⟨0x6014, 31, 16⟩
def LUM_BUDGET_STATUS_LF : Field := ⟨0x6014, 15, 0⟩
def LUM_LF_MIN_MIN : Field := ⟨0x6018, 15, 0⟩
def LUM_DEMAND_Q : Field := ⟨0x601c, 31, 0⟩
def LUM_STATE_CREDIT : Field := ⟨0x6020, 31, 16⟩
def LUM_STATE_RELOAD_BUSY : Field := ⟨0x6020, 4, 4⟩
def LUM_STATE_CONT : Field := ⟨0x6020, 3, 3⟩
def LUM_STATE_SOURCE : Field := ⟨0x6020, 2, 2⟩
def LUM_STATE_BEAM : Field := ⟨0x6020, 1, 0⟩
def LUM_CREST_MV : Field := ⟨0x6024, 15, 0⟩
def LUM_VMIN_VMIN : Field := ⟨0x6028, 15, 0⟩
def LUM_VFn_TC (n : Nat) : Field := ⟨0x6030 + 4 * n, 31, 16⟩
def LUM_VFn_V25 (n : Nat) : Field := ⟨0x6030 + 4 * n, 15, 0⟩
def LUM_GAIN_RELOAD_GO : Field := ⟨0x6040, 0, 0⟩
def LUM_CNT_LIMIT_EVENTS : Field := ⟨0x6044, 31, 16⟩
def LUM_CNT_MAP_MISMATCH : Field := ⟨0x6044, 15, 8⟩
def LUM_CNT_GAIN_PARITY : Field := ⟨0x6044, 7, 0⟩
def ARY_CTRL_SRC_EN : Field := ⟨0x7000, 0, 0⟩
def ARY_IU_DAC : Field := ⟨0x7004, 9, 0⟩
def ARY_STATUS_CEIL : Field := ⟨0x7008, 31, 16⟩
def ARY_STATUS_DAC_EFF : Field := ⟨0x7008, 15, 6⟩
def ARY_STATUS_LOCK_OK : Field := ⟨0x7008, 5, 5⟩
def ARY_STATUS_DARK_B : Field := ⟨0x7008, 4, 4⟩
def ARY_STATUS_DARK_A : Field := ⟨0x7008, 3, 3⟩
def ARY_STATUS_SRC_OFF : Field := ⟨0x7008, 2, 2⟩
def ARY_STATUS_ISET_BAD : Field := ⟨0x7008, 1, 1⟩
def ARY_STATUS_CLAMPED : Field := ⟨0x7008, 0, 0⟩
def ARY_ISET_LIMITED : Field := ⟨0x700c, 31, 31⟩
def ARY_ISET_IREF : Field := ⟨0x700c, 13, 0⟩
def ARY_COUNT_C : Field := ⟨0x7010, 11, 0⟩
def ARY_PC_ADDR_INC : Field := ⟨0x7020, 31, 31⟩
def ARY_PC_ADDR_COL : Field := ⟨0x7020, 10, 0⟩
def ARY_PC_DATA_TAP : Field := ⟨0x7024, 3, 0⟩
def ARY_CNT_LOCK_LOSS : Field := ⟨0x7028, 31, 16⟩
def ARY_CNT_DARK_EVENTS : Field := ⟨0x7028, 15, 0⟩
def HLT_SENSE_CFG_SHORT_MV : Field := ⟨0x8000, 27, 16⟩
def HLT_SENSE_CFG_ROW_LIMIT : Field := ⟨0x8000, 15, 8⟩
def HLT_SENSE_CFG_CONFIRM : Field := ⟨0x8000, 2, 0⟩
def HLT_CNT_DLOG_OVF : Field := ⟨0x8004, 31, 24⟩
def HLT_CNT_ROW_DISCARD : Field := ⟨0x8004, 23, 16⟩
def HLT_CNT_SENSE_DISCARD : Field := ⟨0x8004, 15, 0⟩
def HLT_DEFECT_CNT_ISOLATED : Field := ⟨0x8008, 31, 16⟩
def HLT_DEFECT_CNT_DEAD : Field := ⟨0x8008, 15, 0⟩
def HLT_DEFECT_LIMIT_LIMIT : Field := ⟨0x800c, 20, 0⟩
def HLT_DEFECT_SET_STATE : Field := ⟨0x8010, 31, 30⟩
def HLT_DEFECT_SET_Y : Field := ⟨0x8010, 24, 16⟩
def HLT_DEFECT_SET_X : Field := ⟨0x8010, 10, 0⟩
def HLT_DEFECT_SEL_Y : Field := ⟨0x8014, 24, 16⟩
def HLT_DEFECT_SEL_X : Field := ⟨0x8014, 10, 0⟩
def HLT_DEFECT_STATE_CNT_STUCK : Field := ⟨0x8018, 14, 12⟩
def HLT_DEFECT_STATE_CAUSE : Field := ⟨0x8018, 6, 4⟩
def HLT_DEFECT_STATE_STATE : Field := ⟨0x8018, 1, 0⟩
def HLT_DLOG0_VALID : Field := ⟨0x8020, 31, 31⟩
def HLT_DLOG0_CAUSE : Field := ⟨0x8020, 30, 28⟩
def HLT_DLOG0_Y : Field := ⟨0x8020, 24, 16⟩
def HLT_DLOG0_X : Field := ⟨0x8020, 10, 0⟩
def HLT_DLOG1_FRAME : Field := ⟨0x8024, 31, 0⟩
def HLT_REBUILD_RESULT : Field := ⟨0x8028, 9, 8⟩
def HLT_REBUILD_REASON : Field := ⟨0x8028, 7, 4⟩
def HLT_REBUILD_MODE : Field := ⟨0x8028, 1, 0⟩
def HLT_RB_CNT_MISMATCH_ROWS : Field := ⟨0x8030, 31, 16⟩
def HLT_RB_CNT_PARITY : Field := ⟨0x8030, 15, 0⟩
def HLT_RB_CFG_PERSIST : Field := ⟨0x8034, 3, 0⟩
def HLT_SIG_CFG_N_REG : Field := ⟨0x8040, 21, 16⟩
def HLT_SIG_CFG_MISS_LIMIT : Field := ⟨0x8040, 7, 0⟩
def HLT_SIG_OUT_FLAGS_FLAGS : Field := ⟨0x8044, 31, 0⟩
def HLT_SIG_RB_FLAGS_FLAGS : Field := ⟨0x8048, 31, 0⟩
def HLT_SIG_FRAME_FRAME : Field := ⟨0x804c, 31, 0⟩
def HLT_Rn_CTRL_MODE (n : Nat) : Field := ⟨0x8400 + 32 * n, 2, 2⟩
def HLT_Rn_CTRL_TAP_RB (n : Nat) : Field := ⟨0x8400 + 32 * n, 1, 1⟩
def HLT_Rn_CTRL_TAP_OUT (n : Nat) : Field := ⟨0x8400 + 32 * n, 0, 0⟩
def HLT_Rn_P0_Y0 (n : Nat) : Field := ⟨0x8404 + 32 * n, 24, 16⟩
def HLT_Rn_P0_X0 (n : Nat) : Field := ⟨0x8404 + 32 * n, 11, 0⟩
def HLT_Rn_P1_Y1 (n : Nat) : Field := ⟨0x8408 + 32 * n, 24, 16⟩
def HLT_Rn_P1_X1 (n : Nat) : Field := ⟨0x8408 + 32 * n, 11, 0⟩
def HLT_Rn_EXP_CRC (n : Nat) : Field := ⟨0x840c + 32 * n, 31, 0⟩
def HLT_Rn_OUT_CRC (n : Nat) : Field := ⟨0x8410 + 32 * n, 31, 0⟩
def HLT_Rn_RB_CRC (n : Nat) : Field := ⟨0x8414 + 32 * n, 31, 0⟩
def HLT_Rn_STATUS_INVALID (n : Nat) : Field := ⟨0x8418 + 32 * n, 3, 3⟩
def HLT_Rn_STATUS_INCOMPLETE (n : Nat) : Field := ⟨0x8418 + 32 * n, 2, 2⟩
def HLT_Rn_STATUS_RB_FAIL (n : Nat) : Field := ⟨0x8418 + 32 * n, 1, 1⟩
def HLT_Rn_STATUS_OUT_FAIL (n : Nat) : Field := ⟨0x8418 + 32 * n, 0, 0⟩
def LPE_CTRL_SWAP : Field := ⟨0x9000, 8, 8⟩
def LPE_CTRL_SWAP_MODE : Field := ⟨0x9000, 4, 4⟩
def LPE_CTRL_FFL_EN : Field := ⟨0x9000, 2, 2⟩
def LPE_CTRL_LP7_EN : Field := ⟨0x9000, 1, 1⟩
def LPE_CTRL_RAIL_EN : Field := ⟨0x9000, 0, 0⟩
def LPE_TOPO_FAN : Field := ⟨0x9004, 8, 8⟩
def LPE_TOPO_N_PH : Field := ⟨0x9004, 2, 0⟩
def LPE_STATUS_VSET : Field := ⟨0x9008, 31, 16⟩
def LPE_STATUS_CREST_FB : Field := ⟨0x9008, 12, 12⟩
def LPE_STATUS_SWAP_RESULT : Field := ⟨0x9008, 11, 10⟩
def LPE_STATUS_ACT_BANK : Field := ⟨0x9008, 8, 8⟩
def LPE_STATUS_STOP : Field := ⟨0x9008, 7, 7⟩
def LPE_STATUS_IN_REG : Field := ⟨0x9008, 4, 4⟩
def LPE_STATUS_RAIL : Field := ⟨0x9008, 2, 0⟩
def LPE_BANK_A_READY : Field := ⟨0x9010, 31, 31⟩
def LPE_BANK_A_FB3 : Field := ⟨0x9010, 26, 18⟩
def LPE_BANK_A_K_OUT : Field := ⟨0x9010, 13, 12⟩
def LPE_BANK_A_M_SW : Field := ⟨0x9010, 8, 0⟩
def LPE_BANK_B_READY : Field := ⟨0x9014, 31, 31⟩
def LPE_BANK_B_FB3 : Field := ⟨0x9014, 26, 18⟩
def LPE_BANK_B_K_OUT : Field := ⟨0x9014, 13, 12⟩
def LPE_BANK_B_M_SW : Field := ⟨0x9014, 8, 0⟩
def LPE_COEF_ADDR_INC : Field := ⟨0x9020, 31, 31⟩
def LPE_COEF_ADDR_BANK : Field := ⟨0x9020, 24, 24⟩
def LPE_COEF_ADDR_LOOP : Field := ⟨0x9020, 19, 16⟩
def LPE_COEF_ADDR_INDEX : Field := ⟨0x9020, 3, 0⟩
def LPE_COEF_S_SHIFT : Field := ⟨0x9024, 5, 0⟩
def LPE_COEF_M_MANT : Field := ⟨0x9028, 31, 0⟩
def LPE_COEF_STATUS_PENDING : Field := ⟨0x902c, 2, 2⟩
def LPE_COEF_STATUS_RANGE : Field := ⟨0x902c, 1, 1⟩
def LPE_COEF_STATUS_ACTIVE_WRITE : Field := ⟨0x902c, 0, 0⟩
def LPE_VSET_VSET_MAX : Field := ⟨0x9030, 31, 16⟩
def LPE_VSET_VSET_MIN : Field := ⟨0x9030, 15, 0⟩
def LPE_HEAD_HEAD_NOM : Field := ⟨0x9034, 31, 20⟩
def LPE_HEAD_HEAD_TGT : Field := ⟨0x9034, 19, 8⟩
def LPE_HEAD_BACK : Field := ⟨0x9034, 7, 0⟩
def LPE_PROT_OVP_MV : Field := ⟨0x9038, 31, 16⟩
def LPE_PROT_UV_MARGIN : Field := ⟨0x9038, 15, 0⟩
def LPE_START_START_TO : Field := ⟨0x903c, 31, 16⟩
def LPE_START_RAMP_MV : Field := ⟨0x903c, 7, 0⟩
def LPE_REG_REG_CNT : Field := ⟨0x9040, 23, 16⟩
def LPE_REG_REG_WIN : Field := ⟨0x9040, 15, 0⟩
def LPE_ILIM_CBC_RUN : Field := ⟨0x9044, 31, 24⟩
def LPE_ILIM_LIM : Field := ⟨0x9044, 9, 0⟩
def LPE_MEAS_REF_MV : Field := ⟨0x9050, 31, 16⟩
def LPE_MEAS_VSNS_MV : Field := ⟨0x9050, 15, 0⟩
def LPE_FAN_DIV : Field := ⟨0x9060, 27, 24⟩
def LPE_FAN_T_TGT : Field := ⟨0x9060, 15, 0⟩
def LPE_TACH_FRAMES : Field := ⟨0x9064, 31, 24⟩
def LPE_TACH_MIN : Field := ⟨0x9064, 23, 16⟩
def LPE_TACH_EDGES : Field := ⟨0x9064, 15, 0⟩
def LPE_CNT_CREST_FB : Field := ⟨0x9070, 15, 0⟩
def LPE_LPn_STATUS_RUN (n : Nat) : Field := ⟨0x9100 + 16 * n, 9, 8⟩
def LPE_LPn_STATUS_BUMP (n : Nat) : Field := ⟨0x9100 + 16 * n, 7, 7⟩
def LPE_LPn_STATUS_SAT_I (n : Nat) : Field := ⟨0x9100 + 16 * n, 6, 6⟩
def LPE_LPn_STATUS_SAT_LO (n : Nat) : Field := ⟨0x9100 + 16 * n, 5, 5⟩
def LPE_LPn_STATUS_SAT_HI (n : Nat) : Field := ⟨0x9100 + 16 * n, 4, 4⟩
def LPE_LPn_STATUS_FALLBACK (n : Nat) : Field := ⟨0x9100 + 16 * n, 3, 3⟩
def LPE_LPn_STATUS_LIVE_SAT_I (n : Nat) : Field := ⟨0x9100 + 16 * n, 2, 2⟩
def LPE_LPn_STATUS_LIVE_SAT_LO (n : Nat) : Field := ⟨0x9100 + 16 * n, 1, 1⟩
def LPE_LPn_STATUS_LIVE_SAT_HI (n : Nat) : Field := ⟨0x9100 + 16 * n, 0, 0⟩
def LPE_LPn_OUT_U (n : Nat) : Field := ⟨0x9104 + 16 * n, 31, 0⟩
def LPE_LPn_CNT_OVERRUN (n : Nat) : Field := ⟨0x9108 + 16 * n, 31, 16⟩
def LPE_LPn_CNT_CBC (n : Nat) : Field := ⟨0x9108 + 16 * n, 15, 0⟩
def LPE_LPn_CMD_FB_CLEAR (n : Nat) : Field := ⟨0x910c + 16 * n, 0, 0⟩
def THM_DERATE_KNEE : Field := ⟨0xa000, 11, 0⟩
def THM_ZONE_ZRESTART : Field := ⟨0xa004, 27, 16⟩
def THM_ZONE_ZOFF : Field := ⟨0xa004, 11, 0⟩
def THM_THROTTLE_EN : Field := ⟨0xa008, 31, 31⟩
def THM_THROTTLE_RELEASE : Field := ⟨0xa008, 23, 12⟩
def THM_THROTTLE_LEVEL : Field := ⟨0xa008, 11, 0⟩
def THM_GRACE_GRACE : Field := ⟨0xa00c, 7, 0⟩
def THM_SHUTDOWN_RESTART : Field := ⟨0xa010, 27, 16⟩
def THM_SHUTDOWN_SHUT : Field := ⟨0xa010, 11, 0⟩
def THM_STATUS_SHUTDOWN : Field := ⟨0xa020, 31, 31⟩
def THM_STATUS_THROTTLED : Field := ⟨0xa020, 30, 30⟩
def THM_STATUS_THR_PENDING : Field := ⟨0xa020, 29, 29⟩
def THM_STATUS_THR_REQ : Field := ⟨0xa020, 28, 28⟩
def THM_STATUS_THR_FAIL : Field := ⟨0xa020, 27, 27⟩
def THM_STATUS_NVM_OK : Field := ⟨0xa020, 26, 26⟩
def THM_STATUS_TRIM_DEFAULT : Field := ⟨0xa020, 25, 25⟩
def THM_STATUS_VOTES : Field := ⟨0xa020, 24, 20⟩
def THM_STATUS_ZONE_OFF : Field := ⟨0xa020, 15, 0⟩
def THM_BROKEN_BROKEN : Field := ⟨0xa024, 31, 0⟩
def THM_HOT_TIER : Field := ⟨0xa028, 27, 16⟩
def THM_HOT_ZONE : Field := ⟨0xa028, 11, 0⟩
def THM_CNT_REJECTS : Field := ⟨0xa02c, 31, 16⟩
def THM_CNT_ZONE_OFFS : Field := ⟨0xa02c, 15, 0⟩
def THM_ZFn_Z_ODD (n : Nat) : Field := ⟨0xa030 + 4 * n, 26, 16⟩
def THM_ZFn_Z_EVEN (n : Nat) : Field := ⟨0xa030 + 4 * n, 10, 0⟩
def THM_TSn_VALID (n : Nat) : Field := ⟨0xa100 + 4 * n, 31, 31⟩
def THM_TSn_BROKEN (n : Nat) : Field := ⟨0xa100 + 4 * n, 30, 30⟩
def THM_TSn_T (n : Nat) : Field := ⟨0xa100 + 4 * n, 11, 0⟩
def SAF_STATE_WR_LOCKED : Field := ⟨0xb000, 23, 23⟩
def SAF_STATE_LRM_FB : Field := ⟨0xb000, 22, 22⟩
def SAF_STATE_SAFE : Field := ⟨0xb000, 21, 20⟩
def SAF_STATE_SRST_STUCK : Field := ⟨0xb000, 19, 19⟩
def SAF_STATE_SRST_SEEN : Field := ⟨0xb000, 18, 18⟩
def SAF_STATE_BEAM : Field := ⟨0xb000, 17, 16⟩
def SAF_STATE_REQ_FW : Field := ⟨0xb000, 11, 11⟩
def SAF_STATE_REQ_CFG : Field := ⟨0xb000, 10, 10⟩
def SAF_STATE_REQ_FLT : Field := ⟨0xb000, 9, 9⟩
def SAF_STATE_DIM_LATCH : Field := ⟨0xb000, 8, 8⟩
def SAF_STATE_REMOVE_LATCH : Field := ⟨0xb000, 7, 7⟩
def SAF_STATE_DISC_LATCH : Field := ⟨0xb000, 6, 6⟩
def SAF_STATE_RAMP_DONE : Field := ⟨0xb000, 5, 5⟩
def SAF_STATE_DARK_HOLD : Field := ⟨0xb000, 4, 4⟩
def SAF_STATE_RELIGHT_WAIT : Field := ⟨0xb000, 3, 3⟩
def SAF_STATE_STATE : Field := ⟨0xb000, 2, 0⟩
def SAF_SEAL_READ_DONE : Field := ⟨0xb004, 25, 25⟩
def SAF_SEAL_MATCH : Field := ⟨0xb004, 24, 24⟩
def SAF_SEAL_EXPECT : Field := ⟨0xb004, 23, 16⟩
def SAF_SEAL_OPEN : Field := ⟨0xb004, 15, 8⟩
def SAF_SEAL_VALUE : Field := ⟨0xb004, 7, 0⟩
def SAF_CMD_BEAM : Field := ⟨0xb008, 9, 8⟩
def SAF_CMD_OASIS : Field := ⟨0xb008, 4, 4⟩
def SAF_CMD_DARK_SW : Field := ⟨0xb008, 0, 0⟩
def SAF_LOCK_LOCK : Field := ⟨0xb00c, 0, 0⟩
def SAF_DIM_FLOOR : Field := ⟨0xb010, 31, 16⟩
def SAF_DIM_BEAM : Field := ⟨0xb010, 9, 8⟩
def SAF_DIM_TARGET : Field := ⟨0xb010, 0, 0⟩
def SAF_RAMP_TICKS : Field := ⟨0xb014, 19, 0⟩
def SAF_OASIS_BEAM_CFG : Field := ⟨0xb018, 5, 4⟩
def SAF_OASIS_BEAM_FLT : Field := ⟨0xb018, 1, 0⟩
def SAF_MON_MARGIN : Field := ⟨0xb01c, 31, 16⟩
def SAF_MON_IMON_FS : Field := ⟨0xb01c, 15, 0⟩
def SAF_LRM_FB_TIME : Field := ⟨0xb020, 7, 0⟩
def SAF_ENV_CEIL : Field := ⟨0xb024, 31, 16⟩
def SAF_ENV_E : Field := ⟨0xb024, 15, 0⟩
def SAF_IMON_LIMIT : Field := ⟨0xb028, 15, 8⟩
def SAF_IMON_READ : Field := ⟨0xb028, 7, 0⟩
def SAF_OASIS_STATUS_PREF_B : Field := ⟨0xb02c, 11, 8⟩
def SAF_OASIS_STATUS_VALID : Field := ⟨0xb02c, 7, 0⟩
def SAF_DISC_MAX : Field := ⟨0xb030, 31, 16⟩
def SAF_DISC_DISC : Field := ⟨0xb030, 15, 0⟩
def SAF_SRST_RESULT : Field := ⟨0xb034, 21, 20⟩
def SAF_SRST_WIDTH : Field := ⟨0xb034, 19, 0⟩
def SAF_CNT_SRST_WIDTH : Field := ⟨0xb038, 31, 24⟩
def SAF_CNT_SRST_CAUSE : Field := ⟨0xb038, 23, 16⟩
def SAF_CNT_DARK_REQ : Field := ⟨0xb038, 15, 0⟩
def SAF_TICK_TICK : Field := ⟨0xb03c, 31, 0⟩
def FLT_CTRL_PIN_CLASS : Field := ⟨0xc000, 10, 8⟩
def FLT_CTRL_FIRST_CLASS : Field := ⟨0xc000, 2, 0⟩
def FLT_STATUS_PENDING : Field := ⟨0xc004, 31, 24⟩
def FLT_STATUS_MAX_CLASS : Field := ⟨0xc004, 18, 16⟩
def FLT_STATUS_PIN : Field := ⟨0xc004, 8, 8⟩
def FLT_STATUS_ACK_NONE : Field := ⟨0xc004, 1, 1⟩
def FLT_STATUS_INJ_REFUSED : Field := ⟨0xc004, 0, 0⟩
def FLT_T1_TICKS : Field := ⟨0xc008, 19, 0⟩
def FLT_T2_TICKS : Field := ⟨0xc00c, 19, 0⟩
def FLT_ACK_CODE : Field := ⟨0xc010, 7, 0⟩
def FLT_INJECT_DURATION : Field := ⟨0xc014, 15, 8⟩
def FLT_INJECT_CODE : Field := ⟨0xc014, 7, 0⟩
def FLT_FIRST_REL_REL : Field := ⟨0xc018, 0, 0⟩
def FLT_FIRST0_VALID : Field := ⟨0xc020, 31, 31⟩
def FLT_FIRST0_LIVE : Field := ⟨0xc020, 30, 30⟩
def FLT_FIRST0_CLEARED : Field := ⟨0xc020, 29, 29⟩
def FLT_FIRST0_ESCALATED : Field := ⟨0xc020, 28, 28⟩
def FLT_FIRST0_INJ : Field := ⟨0xc020, 27, 27⟩
def FLT_FIRST0_CLASS : Field := ⟨0xc020, 26, 24⟩
def FLT_FIRST0_INIT : Field := ⟨0xc020, 20, 16⟩
def FLT_FIRST0_ACCESS : Field := ⟨0xc020, 10, 8⟩
def FLT_FIRST0_CODE : Field := ⟨0xc020, 7, 0⟩
def FLT_FIRST_ADDR_ADDR : Field := ⟨0xc024, 31, 0⟩
def FLT_FIRST_TSn_WORD (n : Nat) : Field := ⟨0xc028 + 4 * n, 31, 0⟩
def FLT_FIRST_TICK_TICK : Field := ⟨0xc034, 31, 0⟩
def FLT_FIRST_CLR_TSn_WORD (n : Nat) : Field := ⟨0xc038 + 4 * n, 31, 0⟩
def FLT_FIRST_CLR_TICK_TICK : Field := ⟨0xc044, 31, 0⟩
def FLT_PENDn_PEND (n : Nat) : Field := ⟨0xc080 + 4 * n, 31, 0⟩
def FLT_MASKn_MASK (n : Nat) : Field := ⟨0xc0a0 + 4 * n, 31, 0⟩
def FLT_Cnn_COUNT (n : Nat) : Field := ⟨0xc400 + 4 * n, 31, 24⟩
def FLT_Cnn_BASE (n : Nat) : Field := ⟨0xc400 + 4 * n, 10, 8⟩
def FLT_Cnn_EFF (n : Nat) : Field := ⟨0xc400 + 4 * n, 6, 4⟩
def FLT_Cnn_MASKED (n : Nat) : Field := ⟨0xc400 + 4 * n, 3, 3⟩
def FLT_Cnn_LIVE (n : Nat) : Field := ⟨0xc400 + 4 * n, 2, 2⟩
def FLT_Cnn_STATE (n : Nat) : Field := ⟨0xc400 + 4 * n, 1, 0⟩
def LNK_U_CTRL_RETRAIN : Field := ⟨0xd000, 8, 8⟩
def LNK_U_CTRL_L2_EN : Field := ⟨0xd000, 5, 5⟩
def LNK_U_CTRL_L1_EN : Field := ⟨0xd000, 4, 4⟩
def LNK_U_CTRL_EQ_FIXED : Field := ⟨0xd000, 3, 3⟩
def LNK_U_CTRL_RATE : Field := ⟨0xd000, 2, 1⟩
def LNK_U_CTRL_EN : Field := ⟨0xd000, 0, 0⟩
def LNK_U_STATUS_POL : Field := ⟨0xd004, 15, 12⟩
def LNK_U_STATUS_REVERSED : Field := ⟨0xd004, 11, 11⟩
def LNK_U_STATUS_RATE_ACT : Field := ⟨0xd004, 9, 8⟩
def LNK_U_STATUS_LPS : Field := ⟨0xd004, 5, 4⟩
def LNK_U_STATUS_STATE : Field := ⟨0xd004, 3, 0⟩
def LNK_U_SEQ_RX_NEXT : Field := ⟨0xd008, 27, 16⟩
def LNK_U_SEQ_TX_NEXT : Field := ⟨0xd008, 11, 0⟩
def LNK_U_LAST_VALID : Field := ⟨0xd00c, 31, 31⟩
def LNK_U_LAST_SEQ : Field := ⟨0xd00c, 11, 0⟩
def LNK_U_REFUSE_TYPE : Field := ⟨0xd010, 31, 28⟩
def LNK_U_REFUSE_STATUS : Field := ⟨0xd010, 23, 16⟩
def LNK_U_REFUSE_SEQ : Field := ⟨0xd010, 11, 0⟩
def LNK_U_CNT0_CRC : Field := ⟨0xd014, 31, 16⟩
def LNK_U_CNT0_REPLAY : Field := ⟨0xd014, 15, 0⟩
def LNK_U_CNT1_CODE_ERR : Field := ⟨0xd018, 31, 16⟩
def LNK_U_CNT1_REFUSED : Field := ⟨0xd018, 15, 0⟩
def LNK_U_CNT2_RETRAIN : Field := ⟨0xd01c, 31, 24⟩
def LNK_U_CNT2_RET_DROP : Field := ⟨0xd01c, 23, 16⟩
def LNK_U_CNT2_RET_REPLAY : Field := ⟨0xd01c, 15, 0⟩
def LNK_U_FIRn_AT_LIMIT (n : Nat) : Field := ⟨0xd020 + 4 * n, 24, 24⟩
def LNK_U_FIRn_MAIN (n : Nat) : Field := ⟨0xd020 + 4 * n, 21, 16⟩
def LNK_U_FIRn_POST (n : Nat) : Field := ⟨0xd020 + 4 * n, 12, 8⟩
def LNK_U_FIRn_PRE (n : Nat) : Field := ⟨0xd020 + 4 * n, 3, 0⟩
def LNK_U_ERR_RET_TO : Field := ⟨0xd030, 31, 24⟩
def LNK_U_ERR_REPLAY_TO : Field := ⟨0xd030, 23, 16⟩
def LNK_U_ERR_ERR_LIMIT : Field := ⟨0xd030, 15, 0⟩
def LNK_D_CTRL_RETRAIN : Field := ⟨0xd100, 8, 8⟩
def LNK_D_CTRL_L2_EN : Field := ⟨0xd100, 5, 5⟩
def LNK_D_CTRL_L1_EN : Field := ⟨0xd100, 4, 4⟩
def LNK_D_CTRL_EQ_FIXED : Field := ⟨0xd100, 3, 3⟩
def LNK_D_CTRL_RATE : Field := ⟨0xd100, 2, 1⟩
def LNK_D_CTRL_EN : Field := ⟨0xd100, 0, 0⟩
def LNK_D_STATUS_POL : Field := ⟨0xd104, 15, 12⟩
def LNK_D_STATUS_REVERSED : Field := ⟨0xd104, 11, 11⟩
def LNK_D_STATUS_RATE_ACT : Field := ⟨0xd104, 9, 8⟩
def LNK_D_STATUS_LPS : Field := ⟨0xd104, 5, 4⟩
def LNK_D_STATUS_STATE : Field := ⟨0xd104, 3, 0⟩
def LNK_D_SEQ_RX_NEXT : Field := ⟨0xd108, 27, 16⟩
def LNK_D_SEQ_TX_NEXT : Field := ⟨0xd108, 11, 0⟩
def LNK_D_LAST_VALID : Field := ⟨0xd10c, 31, 31⟩
def LNK_D_LAST_SEQ : Field := ⟨0xd10c, 11, 0⟩
def LNK_D_REFUSE_TYPE : Field := ⟨0xd110, 31, 28⟩
def LNK_D_REFUSE_STATUS : Field := ⟨0xd110, 23, 16⟩
def LNK_D_REFUSE_SEQ : Field := ⟨0xd110, 11, 0⟩
def LNK_D_CNT0_CRC : Field := ⟨0xd114, 31, 16⟩
def LNK_D_CNT0_REPLAY : Field := ⟨0xd114, 15, 0⟩
def LNK_D_CNT1_CODE_ERR : Field := ⟨0xd118, 31, 16⟩
def LNK_D_CNT1_REFUSED : Field := ⟨0xd118, 15, 0⟩
def LNK_D_CNT2_RETRAIN : Field := ⟨0xd11c, 31, 24⟩
def LNK_D_CNT2_RET_DROP : Field := ⟨0xd11c, 23, 16⟩
def LNK_D_CNT2_RET_REPLAY : Field := ⟨0xd11c, 15, 0⟩
def LNK_D_FIRn_AT_LIMIT (n : Nat) : Field := ⟨0xd120 + 4 * n, 24, 24⟩
def LNK_D_FIRn_MAIN (n : Nat) : Field := ⟨0xd120 + 4 * n, 21, 16⟩
def LNK_D_FIRn_POST (n : Nat) : Field := ⟨0xd120 + 4 * n, 12, 8⟩
def LNK_D_FIRn_PRE (n : Nat) : Field := ⟨0xd120 + 4 * n, 3, 0⟩
def LNK_D_ERR_RET_TO : Field := ⟨0xd130, 31, 24⟩
def LNK_D_ERR_REPLAY_TO : Field := ⟨0xd130, 23, 16⟩
def LNK_D_ERR_ERR_LIMIT : Field := ⟨0xd130, 15, 0⟩
def LNK_MSG_HOLDOFF : Field := ⟨0xd200, 23, 8⟩
def LNK_MSG_FAULT : Field := ⟨0xd200, 1, 1⟩
def LNK_MSG_IRQ : Field := ⟨0xd200, 0, 0⟩
def LNK_HOST_TO_TIMEOUT : Field := ⟨0xd204, 15, 0⟩
def LNK_INJECT_REFUSED : Field := ⟨0xd208, 31, 31⟩
def LNK_INJECT_PENDING : Field := ⟨0xd208, 30, 30⟩
def LNK_INJECT_LANE : Field := ⟨0xd208, 5, 4⟩
def LNK_INJECT_KIND : Field := ⟨0xd208, 2, 0⟩
def CVN_CTRL_ENUM : Field := ⟨0xe000, 1, 1⟩
def CVN_CTRL_EN : Field := ⟨0xe000, 0, 0⟩
def CVN_CFG_EP_TO : Field := ⟨0xe004, 31, 24⟩
def CVN_CFG_RING : Field := ⟨0xe004, 17, 17⟩
def CVN_CFG_MASTER : Field := ⟨0xe004, 16, 16⟩
def CVN_CFG_HOP_W : Field := ⟨0xe004, 15, 8⟩
def CVN_CFG_BIT : Field := ⟨0xe004, 7, 0⟩
def CVN_STATUS_POS_VALID : Field := ⟨0xe008, 31, 31⟩
def CVN_STATUS_ENUM_BUSY : Field := ⟨0xe008, 30, 30⟩
def CVN_STATUS_RING_OK : Field := ⟨0xe008, 29, 29⟩
def CVN_STATUS_SH_TRUNC : Field := ⟨0xe008, 28, 28⟩
def CVN_STATUS_LATE : Field := ⟨0xe008, 27, 27⟩
def CVN_STATUS_TWO_MASTERS : Field := ⟨0xe008, 26, 26⟩
def CVN_STATUS_POS : Field := ⟨0xe008, 11, 0⟩
def CVN_RING_VALID : Field := ⟨0xe00c, 31, 31⟩
def CVN_RING_NOPOS : Field := ⟨0xe00c, 18, 18⟩
def CVN_RING_ALARM : Field := ⟨0xe00c, 17, 17⟩
def CVN_RING_THR : Field := ⟨0xe00c, 16, 16⟩
def CVN_RING_SLAVES : Field := ⟨0xe00c, 11, 0⟩
def CVN_EPOCH_ENUM_ID : Field := ⟨0xe010, 23, 16⟩
def CVN_EPOCH_EPOCH : Field := ⟨0xe010, 15, 0⟩
def CVN_SH_CFG_LEN : Field := ⟨0xe014, 28, 24⟩
def CVN_SH_CFG_DIM_MAP : Field := ⟨0xe014, 16, 16⟩
def CVN_SH_CFG_CNT : Field := ⟨0xe014, 11, 0⟩
def CVN_SH_ADDR_INC : Field := ⟨0xe018, 31, 31⟩
def CVN_SH_ADDR_INDEX : Field := ⟨0xe018, 13, 0⟩
def CVN_SH_DATA_WORD : Field := ⟨0xe01c, 31, 0⟩
def CVN_RX_SHAREn_BYTES (n : Nat) : Field := ⟨0xe020 + 4 * n, 31, 0⟩
def CVN_CNT_CODE_ERR : Field := ⟨0xe030, 31, 16⟩
def CVN_CNT_RESYNC : Field := ⟨0xe030, 15, 8⟩
def CVN_CNT_SH_CRC : Field := ⟨0xe030, 7, 0⟩
def CVN_TDM_CFG_EN : Field := ⟨0xe040, 31, 31⟩
def CVN_TDM_CFG_INIT_SB : Field := ⟨0xe040, 30, 30⟩
def CVN_TDM_CFG_ABD_CLASS : Field := ⟨0xe040, 18, 16⟩
def CVN_TDM_CFG_PARTNER : Field := ⟨0xe040, 11, 0⟩
def CVN_TDM_STATUS_FAULTED : Field := ⟨0xe044, 9, 9⟩
def CVN_TDM_STATUS_PRESENCE : Field := ⟨0xe044, 8, 8⟩
def CVN_TDM_STATUS_CONFLICT_HELD : Field := ⟨0xe044, 7, 7⟩
def CVN_TDM_STATUS_HOLD : Field := ⟨0xe044, 6, 6⟩
def CVN_TDM_STATUS_TDARK : Field := ⟨0xe044, 5, 5⟩
def CVN_TDM_STATUS_ROLE : Field := ⟨0xe044, 1, 0⟩
def CVN_TDM_CNT_TAKEOVERS : Field := ⟨0xe048, 31, 16⟩
def CVN_TDM_CNT_CONFLICTS : Field := ⟨0xe048, 15, 8⟩
def CVN_TDM_CNT_LOSSES : Field := ⟨0xe048, 7, 0⟩
def CFG_STATUS_LOADED : Field := ⟨0xf000, 31, 31⟩
def CFG_STATUS_SOURCE : Field := ⟨0xf000, 30, 29⟩
def CFG_STATUS_STAGED : Field := ⟨0xf000, 28, 28⟩
def CFG_STATUS_KEYS : Field := ⟨0xf000, 27, 27⟩
def CFG_STATUS_CLEARED : Field := ⟨0xf000, 26, 26⟩
def CFG_STATUS_FROZEN : Field := ⟨0xf000, 25, 25⟩
def CFG_STATUS_TEST : Field := ⟨0xf000, 24, 24⟩
def CFG_STATUS_FREEZE_REF : Field := ⟨0xf000, 23, 23⟩
def CFG_STATUS_GEN : Field := ⟨0xf000, 15, 0⟩
def CFG_BOOT_GEN_B : Field := ⟨0xf004, 31, 16⟩
def CFG_BOOT_GEN_A : Field := ⟨0xf004, 15, 0⟩
def CFG_BOOT_REASON_REASON_B : Field := ⟨0xf008, 12, 8⟩
def CFG_BOOT_REASON_REASON_A : Field := ⟨0xf008, 4, 0⟩
def CFG_IMG_DROP : Field := ⟨0xf010, 8, 8⟩
def CFG_IMG_SRC : Field := ⟨0xf010, 1, 0⟩
def CFG_IMG_ADDR_ADDR : Field := ⟨0xf014, 31, 0⟩
def CFG_IMG_STATUS_GEN : Field := ⟨0xf018, 31, 16⟩
def CFG_IMG_STATUS_REASON : Field := ⟨0xf018, 12, 8⟩
def CFG_IMG_STATUS_RESULT : Field := ⟨0xf018, 1, 0⟩
def CFG_RS_STATUS_REASON : Field := ⟨0xf01c, 12, 8⟩
def CFG_RS_STATUS_PHASE : Field := ⟨0xf01c, 5, 4⟩
def CFG_RS_STATUS_RESULT : Field := ⟨0xf01c, 1, 0⟩
def CFG_LC_TRIES : Field := ⟨0xf020, 17, 16⟩
def CFG_LC_REASON : Field := ⟨0xf020, 12, 8⟩
def CFG_LC_TARGET : Field := ⟨0xf020, 6, 4⟩
def CFG_LC_STATE : Field := ⟨0xf020, 2, 0⟩
def CFG_CHAL0_CHAL : Field := ⟨0xf024, 31, 0⟩
def CFG_CHAL1_CHAL : Field := ⟨0xf028, 31, 0⟩
def CFG_TOKEN0_TOKEN : Field := ⟨0xf02c, 31, 0⟩
def CFG_TOKEN1_TOKEN : Field := ⟨0xf030, 31, 0⟩
def CFG_KEYn_KEY (n : Nat) : Field := ⟨0xf040 + 4 * n, 31, 0⟩
def CFG_KCV_AUTH : Field := ⟨0xf060, 31, 16⟩
def CFG_KCV_ENC : Field := ⟨0xf060, 15, 0⟩
def CFG_FLOOR_FLOOR : Field := ⟨0xf064, 15, 0⟩
def CFG_NVM_SRC_VALUE : Field := ⟨0xf070, 31, 0⟩
def CFG_NVM_DST_VALUE : Field := ⟨0xf074, 31, 0⟩
def CFG_NVM_LEN_VALUE : Field := ⟨0xf078, 21, 0⟩
def CFG_NVM_STATUS_WAIT_TEMP : Field := ⟨0xf07c, 31, 31⟩
def CFG_NVM_STATUS_UNIT : Field := ⟨0xf07c, 30, 30⟩
def CFG_NVM_STATUS_REASON : Field := ⟨0xf07c, 12, 8⟩
def CFG_NVM_STATUS_RESULT : Field := ⟨0xf07c, 1, 0⟩
def CFG_GPIO_FUNC : Field := ⟨0xf080, 7, 0⟩
def PWR_REQ_TARGET : Field := ⟨0x10000, 2, 0⟩
def PWR_STATUS_RESULT : Field := ⟨0x10004, 22, 20⟩
def PWR_STATUS_STEP : Field := ⟨0x10004, 19, 16⟩
def PWR_STATUS_LATCHED : Field := ⟨0x10004, 15, 15⟩
def PWR_STATUS_LATCH_TGT : Field := ⟨0x10004, 14, 12⟩
def PWR_STATUS_REVERSING : Field := ⟨0x10004, 11, 11⟩
def PWR_STATUS_TARGET : Field := ⟨0x10004, 10, 8⟩
def PWR_STATUS_STATE : Field := ⟨0x10004, 2, 0⟩
def PWR_WAKE_SOURCE : Field := ⟨0x10008, 10, 8⟩
def PWR_WAKE_GPIO : Field := ⟨0x10008, 2, 2⟩
def PWR_WAKE_CVN : Field := ⟨0x10008, 1, 1⟩
def PWR_WAKE_LNK : Field := ⟨0x10008, 0, 0⟩
def PWR_DOM_MEM : Field := ⟨0x1000c, 20, 4⟩
def PWR_DOM_PLL : Field := ⟨0x1000c, 3, 3⟩
def PWR_DOM_PIX : Field := ⟨0x1000c, 2, 2⟩
def PWR_DOM_LNK : Field := ⟨0x1000c, 1, 1⟩
def PWR_DOM_CORE : Field := ⟨0x1000c, 0, 0⟩
def PWR_TIMEOUT_START : Field := ⟨0x10010, 31, 16⟩
def PWR_TIMEOUT_STEP : Field := ⟨0x10010, 15, 0⟩
def PWR_CNT_WAKES : Field := ⟨0x10014, 31, 16⟩
def PWR_CNT_REVERSED : Field := ⟨0x10014, 15, 0⟩
def PWR_JOBn_CMD_CMD (n : Nat) : Field := ⟨0x10100 + 16 * n, 10, 8⟩
def PWR_JOBn_CMD_TYPE (n : Nat) : Field := ⟨0x10100 + 16 * n, 3, 0⟩
def PWR_JOBn_STATUS_CMD_IGNORED (n : Nat) : Field := ⟨0x10104 + 16 * n, 16, 16⟩
def PWR_JOBn_STATUS_COMMITTED (n : Nat) : Field := ⟨0x10104 + 16 * n, 15, 15⟩
def PWR_JOBn_STATUS_REASON (n : Nat) : Field := ⟨0x10104 + 16 * n, 11, 8⟩
def PWR_JOBn_STATUS_TYPE (n : Nat) : Field := ⟨0x10104 + 16 * n, 7, 4⟩
def PWR_JOBn_STATUS_STATE (n : Nat) : Field := ⟨0x10104 + 16 * n, 2, 0⟩
def BST_CTRL_ROW_LIMIT : Field := ⟨0x11000, 24, 16⟩
def BST_CTRL_BG_SLOTS : Field := ⟨0x11000, 15, 8⟩
def BST_CTRL_LATCH_EN : Field := ⟨0x11000, 0, 0⟩
def BST_STATUS_POST : Field := ⟨0x11004, 31, 31⟩
def BST_STATUS_LATCH : Field := ⟨0x11004, 30, 30⟩
def BST_STATUS_POST_RESULT : Field := ⟨0x11004, 29, 28⟩
def BST_STATUS_GROUP : Field := ⟨0x11004, 18, 16⟩
def BST_RAM_FAIL_FAIL : Field := ⟨0x11008, 8, 0⟩
def BST_BANK_FAIL_FAIL : Field := ⟨0x1100c, 16, 0⟩
def BST_LATCH_FAIL_PIX : Field := ⟨0x11010, 31, 16⟩
def BST_LATCH_ROW : Field := ⟨0x11010, 8, 0⟩
def BST_BG_ROUNDS : Field := ⟨0x11014, 31, 16⟩
def BST_BG_FAILS : Field := ⟨0x11014, 15, 0⟩
def BST_RUN_MODE : Field := ⟨0x11020, 1, 0⟩
def BST_RUN_STATUS_REASON : Field := ⟨0x11024, 6, 4⟩
def BST_RUN_STATUS_BANK : Field := ⟨0x11024, 3, 0⟩
def CAL_CTRL_TRIES : Field := ⟨0x12000, 19, 16⟩
def CAL_CTRL_DELTA : Field := ⟨0x12000, 15, 8⟩
def CAL_CTRL_AUTO : Field := ⟨0x12000, 0, 0⟩
def CAL_RUN_TRIM_T : Field := ⟨0x12004, 27, 16⟩
def CAL_RUN_TRIM_POINT : Field := ⟨0x12004, 9, 8⟩
def CAL_RUN_STORE : Field := ⟨0x12004, 4, 4⟩
def CAL_RUN_ITEMS : Field := ⟨0x12004, 3, 0⟩
def CAL_STATUS_BUSY : Field := ⟨0x12008, 31, 31⟩
def CAL_STATUS_AUTO_RUN : Field := ⟨0x12008, 30, 30⟩
def CAL_STATUS_TRIM_HAVE : Field := ⟨0x12008, 29, 28⟩
def CAL_STATUS_PENDING : Field := ⟨0x12008, 27, 24⟩
def CAL_STATUS_FAILED : Field := ⟨0x12008, 19, 16⟩
def CAL_STATUS_REASON : Field := ⟨0x12008, 12, 8⟩
def CAL_STATUS_ACCEPTED : Field := ⟨0x12008, 3, 0⟩
def CAL_GEN_GEN : Field := ⟨0x1200c, 31, 16⟩
def CAL_GEN_SOURCE : Field := ⟨0x1200c, 1, 0⟩
def CAL_LINK_LANE3 : Field := ⟨0x12010, 28, 24⟩
def CAL_LINK_LANE2 : Field := ⟨0x12010, 20, 16⟩
def CAL_LINK_LANE1 : Field := ⟨0x12010, 12, 8⟩
def CAL_LINK_LANE0 : Field := ⟨0x12010, 4, 0⟩
def CAL_LINK_D_RUN : Field := ⟨0x12014, 12, 8⟩
def CAL_LINK_D_TAP : Field := ⟨0x12014, 4, 0⟩
def CAL_ISNS0_OFFSETS : Field := ⟨0x12018, 31, 0⟩
def CAL_ISNS1_OFFSETS : Field := ⟨0x1201c, 31, 0⟩
def CAL_TEMP_LINK_T : Field := ⟨0x12020, 27, 16⟩
def CAL_TEMP_PC_T : Field := ⟨0x12020, 11, 0⟩
def CAL_CNT_MIRAGE_FAIL : Field := ⟨0x12024, 31, 16⟩
def CAL_CNT_ACCEPTS : Field := ⟨0x12024, 15, 0⟩
def REC_CTRL_CP_PERIOD : Field := ⟨0x13000, 31, 16⟩
def REC_CTRL_CP_TO : Field := ⟨0x13000, 15, 8⟩
def REC_CTRL_EVT_CP : Field := ⟨0x13000, 1, 1⟩
def REC_STATUS_LOADED : Field := ⟨0x13004, 31, 31⟩
def REC_STATUS_PCC_SAVED : Field := ⟨0x13004, 30, 30⟩
def REC_STATUS_CP_RUN : Field := ⟨0x13004, 29, 29⟩
def REC_STATUS_CP_PENDING : Field := ⟨0x13004, 28, 28⟩
def REC_STATUS_BANK : Field := ⟨0x13004, 25, 25⟩
def REC_STATUS_LOG_FILL : Field := ⟨0x13004, 24, 16⟩
def REC_SEQ_SRC : Field := ⟨0x13008, 17, 16⟩
def REC_SEQ_SEQ : Field := ⟨0x13008, 15, 0⟩
def REC_CP_STATUS_REASON : Field := ⟨0x1300c, 11, 8⟩
def REC_CP_STATUS_RESULT : Field := ⟨0x1300c, 1, 0⟩
def REC_OPSEC_VALUE : Field := ⟨0x13010, 31, 0⟩
def REC_LITSEC_VALUE : Field := ⟨0x13014, 31, 0⟩
def REC_PCC_VALUE : Field := ⟨0x13018, 31, 0⟩
def REC_CNT_LOG_LOST : Field := ⟨0x1301c, 31, 16⟩
def REC_CNT_CP_DONE : Field := ⟨0x1301c, 15, 0⟩
def REC_CODE_SEL_CODE : Field := ⟨0x13020, 7, 0⟩
def REC_CODE_CNT_COUNT : Field := ⟨0x13024, 31, 0⟩
def REC_CODE_AUX_SUPP : Field := ⟨0x13028, 31, 16⟩
def REC_CODE_AUX_LIMIT : Field := ⟨0x13028, 7, 0⟩
def CHK_ADDR_ADDR : Field := ⟨0x14000, 31, 0⟩
def CHK_LEN_LEN : Field := ⟨0x14004, 25, 0⟩
def CHK_SEED_SEED : Field := ⟨0x14008, 31, 0⟩
def CHK_RESULT_RESULT : Field := ⟨0x1400c, 31, 0⟩
def CHK_STATUS_REASON : Field := ⟨0x14010, 7, 4⟩
def CHK_STATUS_RESULT : Field := ⟨0x14010, 1, 0⟩
def CHK_PROGRESS_DONE : Field := ⟨0x14014, 25, 0⟩

end Sys2Proof.Machine.F
end

