-- ==== Sys2Proof/Machine/Sparse.lean ====
section
/-!
DEFINITION. Sparse arrays in one canonical form: a list of (key, value) pairs with strictly rising
keys and no entry equal to what an unlisted key reads as.  Both memory windows, the register files
and the per-pixel arrays are kept so.
-/

namespace Sys2Proof.Machine

/-- A sparse array: the entries that differ from the default. -/
abbrev Sparse (α : Type) := List (Nat × α)

/-- What key `k` reads as, where an unlisted key reads `d k`. -/
def sparseGet {α : Type} (d : Nat → α) : Sparse α → Nat → α
  | [], k => d k
  | e :: t, k => if e.1 = k then e.2 else sparseGet d t k

/-- Writing `v` at `k`; writing what an unlisted key reads as removes the entry. -/
def sparseSet {α : Type} [DecidableEq α] (d : Nat → α) : Sparse α → Nat → α → Sparse α
  | [], k, v => if v = d k then [] else [(k, v)]
  | e :: t, k, v =>
    if k < e.1 then (if v = d k then e :: t else (k, v) :: e :: t)
    else if k = e.1 then (if v = d k then t else (k, v) :: t)
    else e :: sparseSet d t k v

/-- Writing consecutive keys from `k` on. -/
def sparseFill {α : Type} [DecidableEq α] (d : Nat → α) (m : Sparse α) (k : Nat) : List α → Sparse α
  | [] => m
  | v :: vs => sparseFill d (sparseSet d m k v) (k + 1) vs

/-- Keys `lo` to `lo + n - 1` return to what an unlisted key reads as. -/
def sparseClear {α : Type} (m : Sparse α) (lo n : Nat) : Sparse α :=
  m.filter fun e => e.1 < lo || lo + n ≤ e.1

/-- The canonical form: keys strictly rising, no entry equal to the default. -/
def SparseWf {α : Type} (d : Nat → α) (m : Sparse α) : Prop :=
  m.Pairwise (fun x y => x.1 < y.1) ∧ ∀ e ∈ m, e.2 ≠ d e.1

/-- The form of `SparseWf` as a Bool, for states written out. -/
def sparseWfB {α : Type} [DecidableEq α] (d : Nat → α) : Sparse α → Bool
  | [] => true
  | [e] => e.2 != d e.1
  | e :: f :: t => e.2 != d e.1 && e.1 < f.1 && sparseWfB d (f :: t)

end Sys2Proof.Machine
end

