-- ==== Sys2Proof/Machine/Aes.lean ====
section
/-!
DEFINITION. AES-128, its CMAC and its counter mode, as the images and tokens use them (R399, R417).  Blocks
and keys are lists of 16 bytes in the order of the standard.
-/

namespace Sys2Proof.Machine

/-- Multiplication by x in the field of AES. -/
def xtime (b : Byte) : Byte := if b.getLsbD 7 then (b <<< 1) ^^^ 0x1B#8 else b <<< 1

/-- The product of two field elements over the low `n` bits of the second. -/
def gfMulBits : Nat → Byte → Byte → Byte
  | 0, _, _ => 0
  | n + 1, a, b => (if b.getLsbD 0 then a else 0) ^^^ gfMulBits n (xtime a) (b >>> 1)

def gfMul (a b : Byte) : Byte := gfMulBits 8 a b

/-- The multiplicative inverse, 0 for 0: the 254th power. -/
def gfInv (a : Byte) : Byte :=
  let a2 := gfMul a a
  let a4 := gfMul a2 a2
  let a8 := gfMul a4 a4
  let a16 := gfMul a8 a8
  let a32 := gfMul a16 a16
  let a64 := gfMul a32 a32
  let a128 := gfMul a64 a64
  gfMul a128 (gfMul a64 (gfMul a32 (gfMul a16 (gfMul a8 (gfMul a4 a2)))))

/-- The S-box: inversion, then the affine map. -/
def subByte (a : Byte) : Byte :=
  let b := gfInv a
  b ^^^ b.rotateLeft 1 ^^^ b.rotateLeft 2 ^^^ b.rotateLeft 3 ^^^ b.rotateLeft 4 ^^^ 0x63#8

def xorBytes (a b : List Byte) : List Byte := List.zipWith (fun x y => x ^^^ y) a b

/-- Byte `i` of the state after the rows are shifted. -/
def shiftIndex (i : Nat) : Nat := (i + 4 * (i % 4)) % 16

def shiftRows (st : List Byte) : List Byte := (List.range 16).map fun i => st.getD (shiftIndex i) 0

/-- The columns mixed, four bytes at a time. -/
def mixColumns : List Byte → List Byte
  | a :: b :: c :: d :: t =>
    (xtime a ^^^ (xtime b ^^^ b) ^^^ c ^^^ d) :: (a ^^^ xtime b ^^^ (xtime c ^^^ c) ^^^ d) ::
    (a ^^^ b ^^^ xtime c ^^^ (xtime d ^^^ d)) :: ((xtime a ^^^ a) ^^^ b ^^^ c ^^^ xtime d) :: mixColumns t
  | _ => []

/-- The next round key. -/
def nextKey (rcon : Byte) (k : List Byte) : List Byte :=
  let t := [subByte (k.getD 13 0) ^^^ rcon, subByte (k.getD 14 0), subByte (k.getD 15 0), subByte (k.getD 12 0)]
  let w0 := xorBytes (k.take 4) t
  let w1 := xorBytes ((k.drop 4).take 4) w0
  let w2 := xorBytes ((k.drop 8).take 4) w1
  let w3 := xorBytes ((k.drop 12).take 4) w2
  w0 ++ w1 ++ w2 ++ w3

/-- The rounds that remain; the last one mixes no columns. -/
def aesRounds : Nat → Byte → List Byte → List Byte → List Byte
  | 0, _, _, st => st
  | n + 1, rcon, key, st =>
    let key' := nextKey rcon key
    let t := shiftRows (st.map subByte)
    aesRounds n (xtime rcon) key' (xorBytes (if n = 0 then t else mixColumns t) key')

/-- AES-128 of one block. -/
def aes128 (key block : List Byte) : List Byte := aesRounds 10 0x01#8 key (xorBytes block key)

/-- A list of bytes, most significant first, shifted left by one bit. -/
def shiftLeft1 : List Byte → List Byte
  | [] => []
  | [a] => [a <<< 1]
  | a :: b :: t => ((a <<< 1) ^^^ (if b.getLsbD 7 then 1#8 else 0#8)) :: shiftLeft1 (b :: t)

/-- A subkey of CMAC is doubled. -/
def cmacDouble (l : List Byte) : List Byte :=
  let s := shiftLeft1 l
  if (l.headD 0).getLsbD 7 then s.take 15 ++ [s.getD 15 0 ^^^ 0x87#8] else s

/-- The running CMAC value over `n` whole blocks that are not the last. -/
def cmacRun (key : List Byte) : Nat → List Byte → List Byte → List Byte
  | 0, x, _ => x
  | n + 1, x, m => cmacRun key n (aes128 key (xorBytes x (m.take 16))) (m.drop 16)

/-- The AES-128 CMAC of a message. -/
def cmac (key m : List Byte) : List Byte :=
  let k1 := cmacDouble (aes128 key (List.replicate 16 0))
  let n := (m.length + 15) / 16 - 1
  let last := m.drop (16 * n)
  let block :=
    if last.length = 16 then xorBytes last k1
    else xorBytes (last ++ [0x80#8] ++ List.replicate (15 - last.length) 0) (cmacDouble k1)
  aes128 key (xorBytes (cmacRun key n (List.replicate 16 0) m) block)

/-- Counter mode: `n` blocks from number `j` on, the counter block being the nonce and `j`, least significant
byte first (R399). -/
def ctrRun (key nonce : List Byte) : Nat → Nat → List Byte → List Byte
  | 0, _, _ => []
  | n + 1, j, m => xorBytes (m.take 16) (aes128 key (nonce ++ natBytes 8 j)) ++ ctrRun key nonce n (j + 1) (m.drop 16)

end Sys2Proof.Machine
end

