-- ==== Sys2Proof/Machine/Image.lean ====
section
/-!
DEFINITION. Rhafin images: layout, and the checks of R399 in their order (spec/16_config_lifecycle.md).
-/

namespace Sys2Proof.Machine

/-- Word `i` of a list of bytes, least significant byte first (R397). -/
def imgWord (b : List Byte) (i : Nat) : Word := BitVec.ofNat 32 (leNat ((b.drop (4 * i)).take 4))

/-- Bits of word `i`. -/
def imgBits (b : List Byte) (i hi lo : Nat) : Nat := bitsOf (imgWord b i).toNat hi lo

/-- LEN and GEN of a header (R397). -/
def imgLen (b : List Byte) : Nat := (imgWord b 2).toNat
def imgGen (b : List Byte) : Nat := imgBits b 1 15 0

/-! The codes of the REASON fields (R424). -/
namespace Reason
def header : Nat := 1
def auth : Nat := 2
def gen : Nat := 3
def section_ : Nat := 4
def content : Nat := 5
def timeout : Nat := 6
def staged : Nat := 7
def terminal : Nat := 8
def notReady : Nat := 9
def range : Nat := 10
def source : Nat := 11
def notStaged : Nat := 12
def rail : Nat := 13
def locked : Nat := 14
def straps : Nat := 15
def noOasis : Nat := 16
def inUse : Nat := 17
def align : Nat := 18
def busy : Nat := 19
end Reason

/-- MAGIC: the bytes "RHAF" in address order (R397). -/
def imgMagic : Word := 0x46414852#32

/-- A section of an image: its TYPE and its payload words (R397). -/
structure Section where
  type : Nat
  words : List Word
  deriving DecidableEq, Repr

/-- Payload words of a section type; none for a type that does not exist, 0 for REGISTERS, whose length
varies (R398). -/
def sectionWords (t : Nat) : Option Nat :=
  [none, some 12, some 4, some 9, some 1, some 299, some 5, some 64, some 3, some 1, some 5, some 1, some 0].getD t none

/-- The length of a section is the one its TYPE has. -/
def sectionLenOk (t n : Nat) : Bool :=
  match sectionWords t with
  | none => false
  | some 0 => n % 2 == 0 && decide (2 ≤ n) && decide (n ≤ 1024)
  | some k => n == k

/-- The sections of an image, and the words that follow them; none if one is wrong (R399, check 4). -/
def readSections : Nat → List Nat → List Word → Option (List Section × List Word)
  | 0, _, ws => some ([], ws)
  | _ + 1, _, [] => none
  | n + 1, seen, h :: ws =>
    let t := bitsOf h.toNat 31 24
    let bytes := bitsOf h.toNat 23 0
    let k := bytes / 4
    if bytes % 4 = 0 && sectionLenOk t k && !seen.contains t && decide (k ≤ ws.length) then
      match readSections n (t :: seen) (ws.drop k) with
      | some (l, rest) => some ({ type := t, words := ws.take k } :: l, rest)
      | none => none
    else none

/-- An image whose sections have been read: its header bytes and its sections. -/
structure Image where
  hdr : List Byte
  sects : List Section
  deriving DecidableEq, Repr

def Image.gen (m : Image) : Nat := imgGen m.hdr
def Image.seal (m : Image) : Nat := imgBits m.hdr 3 31 24
def Image.raiseFloor (m : Image) : Bool := bitOf (imgWord m.hdr 3).toNat 2
def Image.lockSaf (m : Image) : Bool := bitOf (imgWord m.hdr 3).toNat 1

/-- The payload of a section, if the image has it. -/
def Image.sect (m : Image) (t : Nat) : Option (List Word) :=
  (m.sects.find? fun s => s.type == t).map fun s => s.words

/-- A payload word of a section; `d` where the section is absent. -/
def Image.word (m : Image) (t i : Nat) (d : Word) : Word :=
  match m.sect t with
  | some ws => ws.getD i 0
  | none => d

/-- Pairs of address and value of the REGISTERS section. -/
def pairsOf : List Word → List (Nat × Word)
  | a :: v :: t => (a.toNat, v) :: pairsOf t
  | _ => []

/-- The windows whose registers an image may write: RAS, CMP, SCL, MSK, LUM, ARY, HLT (R398). -/
def imgWindow (w : Nat) : Bool := w == 1 || (3 ≤ w && w ≤ 8)

/-- An address and value that a REGISTERS section may hold (R399). -/
def imgRegOk (p : Nat × Word) : Bool :=
  p.1 % 4 == 0 && imgWindow (p.1 / 0x1000) && (accessMask .rw p.1 ||| accessMask .rws p.1) != 0 &&
  !(p.1 == A.ARY_CTRL && bitOf p.2.toNat F.ARY_CTRL_SRC_EN.lo)

/-- Bits of a word as a number. -/
def wBits (w : Word) (hi lo : Nat) : Nat := bitsOf w.toNat hi lo

/-- The GPIO section: no rejected code, fan PWM with fan tach, frame sync out at most once (R398, R399). -/
def gpioOk (w : Word) : Bool :=
  let g0 := wBits w 1 0
  let g1 := wBits w 3 2
  let g2 := wBits w 5 4
  let g3 := wBits w 7 6
  let syncs := b2n (g0 == 2) + b2n (g1 == 2) + b2n (g2 == 1) + b2n (g3 == 2)
  g0 != 3 && g1 != 3 && decide (g2 < 2) && g3 != 3 && (g0 == 1) == (g1 == 1) && decide (syncs ≤ 1)

/-- The content of a section passes check 5 (R399). -/
def sectionOk (s : Section) : Bool :=
  match s.type with
  | 1 => s.words.zipIdx.all fun p => let t := wBits p.1 1 0; t != 3 && !(t == 1 && decide (4 ≤ p.2))
  | 2 => decide ((s.words.map fun w => wBits w 7 0).sum ≤ 192)
  | 4 => decide (wBits (s.words.headD 0) 5 0 ≤ 32)
  | 5 => wBits (s.words.headD 0) 2 0 != 7
  | 7 => s.words.all fun w => (leBytes w).all fun b => decide (b.toNat ≤ 4)
  | 8 => let b := wBits (s.words.headD 0) 7 0; b % 8 == 0 && decide (16 ≤ b) && decide (b ≤ 160)
  | 9 => gpioOk (s.words.headD 0)
  | 12 => (pairsOf s.words).all imgRegOk
  | _ => true

/-- Words of a list of bytes, all of them. -/
def bytesWords (b : List Byte) : List Word := (List.range (b.length / 4)).map fun i => imgWord b i

/-- An image after the checks of R399: the image, or the REASON of its rejection.  The CMAC is
checked under `kAuth`; `kEnc` decrypts. -/
def imgCheck (kAuth kEnc : List Byte) (floor : Nat) (b : List Byte) : Except Nat Image :=
  let len := imgLen b
  let hdr := b.take 32
  if imgWord b 0 != imgMagic || imgBits b 1 31 16 != 1 || len % 16 != 0 || decide (len < 48) || decide (262144 < len) ||
      imgBits b 3 17 16 == 3 || decide (16 < (imgWord b 6).toNat % 256) then .error Reason.header
  else if decide (b.length < len) || cmac kAuth (b.take (len - 16)) != (b.drop (len - 16)).take 16 then .error Reason.auth
  else if imgGen b < floor then .error Reason.gen
  else
    let enc := (b.drop 32).take (len - 48)
    let body := if bitOf (imgWord b 3).toNat 0 then ctrRun kEnc ((b.drop 16).take 8) (enc.length / 16) 0 enc else enc
    match readSections ((imgWord b 6).toNat % 256) [] (bytesWords body) with
    | none => .error Reason.section_
    | some (ss, pad) =>
      if !(pad.all fun w => w == 0) then .error Reason.section_
      else if !(ss.all sectionOk) then .error Reason.content
      else .ok { hdr := hdr, sects := ss }

end Sys2Proof.Machine
end

