-- ==== Sys2Proof/Machine/State.lean ====
section
/-!
DEFINITION. The state of the LK2048 as plain data.  Every architectural register stands in one of two
sparse register files, the active values and the shadow values of the RWS fields (R14); what the
spec gives the module beside its registers stands in one structure per block.  A field's default
is its value in `State.reset`.
-/

namespace Sys2Proof.Machine

/-- Why a step stops with a fault.  No command of this model does: a fault of the module is state
(R310).  Safe: the type stands for the host's interface only. -/
inductive Fault where
  /-- Raised by nothing in this model; safe. -/
  | unreachable
  deriving DecidableEq, Repr

/-- Why a step refuses a command. -/
inductive Refusal where
  /-- The command has no meaning yet: the dispatcher rejects it by its mnemonic.  Safe. -/
  | notModelled (mnemonic : String)
  deriving DecidableEq, Repr

/-- The answer of the last access made through the register port: what the initiator sees (R485). -/
structure PortAnswer where
  /-- The word read; 0 for a write. -/
  value  : Word := 0
  /-- The status code of R347. -/
  result : Nat := 0
  deriving DecidableEq, Repr

/-- The state of a latched code (R310). -/
inductive LatchState where
  | none | pending | acked
  deriving DecidableEq, Repr

/-- Initiator, access type and address that a source gives with a fault (R318, R319). -/
structure FaultInfo where
  init : Nat := 31
  access : Nat := 0
  addr : Nat := 0
  deriving DecidableEq, Repr

/-- What FLT and the source hold for one fault code (R304-R322). -/
structure FaultRec where
  /-- NONE, PENDING or ACKED (R310). -/
  st : LatchState := .none
  /-- Base and effective class (R304, R310). -/
  base : Nat := 0
  eff : Nat := 0
  /-- Rises of the live signal, saturating at 255 (R327). -/
  count : Nat := 0
  /-- The live signal (R306). -/
  live : Bool := false
  /-- Occurrences the source has driven onto the pair and FLT has not yet sampled, oldest first. -/
  pulses : List FaultInfo := []
  /-- The source holds the pair at the fault pattern while its condition stands. -/
  level : Option FaultInfo := Option.none
  /-- An injection drives the pair (R322). -/
  inj : Option FaultInfo := Option.none
  /-- The pair reads invalid, which acts as live (R307). -/
  invalid : Bool := false
  /-- Tick boundaries left of the timer that runs (R312). -/
  timer : Option Nat := Option.none
  /-- Latched unmasked (R320, R321). -/
  unmasked : Bool := false
  /-- ADDR that the latch gave (R466). -/
  addr : Nat := 0
  deriving DecidableEq, Repr

/-- The fault collector beside its registers (spec/13_faults.md). -/
structure Flt where
  /-- Records of the codes, listed where they differ from `FaultRec` at the default class. -/
  recs : List (Nat × FaultRec) := []
  /-- The injection that runs: its code and the tick boundaries left (R322). -/
  inject : Option (Nat × Nat) := none
  /-- Ticks counted towards the next proof (R308). -/
  proofTicks : Nat := 0
  /-- Consecutive ticks of a wrong FAULT_P or FAULT_N readback (R321). -/
  pinRun : Nat := 0
  /-- Base-class entries that failed parity and are to be reloaded, each with its class (R325). -/
  tableBad : List (Nat × Nat) := []
  deriving DecidableEq, Repr

/-- A RETIME accepted by RAS: the values checked at acceptance (R58, R59, R61). -/
structure Retime where
  nSlots : Nat
  vb     : Nat
  k      : Nat
  mode   : Nat
  src    : Nat
  /-- A start of a stopped raster (R62). -/
  start  : Bool
  /-- Issued by THM (R265). -/
  byThm  : Bool
  deriving DecidableEq, Repr

/-- The raster generator beside its registers (spec/02_raster_time.md). -/
structure Ras where
  /-- Frame number f (R17). -/
  frame : Word := 0
  /-- Line l (R16). -/
  line : Nat := 0
  /-- Slot s (R16): the first slot that is not over. -/
  slot : Nat := 0
  /-- Cycle c of the slot (R16). -/
  cyc : Nat := 0
  /-- The work of the last slot of the line is done; the position stays at the last cycle of the line (R16). -/
  lineEnd : Bool := false
  /-- The first cycle of line 0 of the current frame has been served (LINE_START). -/
  lineServed : Bool := false
  /-- The commit instant of the current frame has been served. -/
  blankServed : Bool := false
  /-- PWM counter c (R48). -/
  pwmC : Nat := 0
  /-- PWM accumulator a (R48). -/
  pwmA : Nat := 0
  /-- The raster has started since the last reset event of RAS (R62). -/
  everStarted : Bool := false
  /-- The raster counts positions (R62, R63). -/
  running : Bool := false
  /-- The current frame is a lead-in frame (R513). -/
  leadIn : Bool := false
  /-- The accepted RETIME that has not taken effect. -/
  pend : Option Retime := none
  /-- First cadence event of the follow window: its line, and the blanking V that counts for it (R53). -/
  winEv : Option (Nat × Nat) := none
  /-- A follow window is open (R53, R61). -/
  window : Bool := false
  /-- Consecutive follow windows without a cadence event (R54). -/
  missRun : Nat := 0
  /-- The run of empty windows has been reported, and a report that FOLLOW_TIMEOUT has still to make (R54). -/
  missReported : Bool := false
  missDue : Bool := false
  /-- Consecutive windows inside and outside the deadband (R54). -/
  inRun : Nat := 0
  outRun : Nat := 0
  /-- The frame sync pulse stands: from line 0 up to line WIDTH (R65). -/
  fsync : Bool := false
  deriving DecidableEq, Repr

/-- State of a tile (R72). -/
inductive TileState where
  | empty | sealed | unsealed | bad
  deriving DecidableEq, Repr

/-- A directory entry (R71). -/
structure DirEntry where
  st  : TileState := .empty
  crc : Word := 0
  deriving DecidableEq, Repr

/-- A seal in progress (R75). -/
structure SealJob where
  tile : Nat
  self : Bool
  crc  : Word
  /-- INIT of the write that asked for it (R318). -/
  by_  : Nat := 0
  deriving DecidableEq, Repr

/-- A memory scan in progress (R87-R89): what it copied at START and how far it is. -/
structure ScanJob where
  addr : Nat
  len  : Nat
  seed : Word
  /-- Bytes processed, and the running value of R88. -/
  pos  : Nat
  run  : Word
  deriving DecidableEq, Repr

/-- Layer memory controller and scan engine beside their registers (spec/03_layer_memory.md). -/
structure Lmc where
  /-- Tile directory, listed where an entry is not EMPTY with CRC 0 (R71). -/
  dir : List (Nat × DirEntry) := []
  sealing : Option SealJob := none
  /-- Physical banks retired (R83-R85). -/
  retired : BitVec 17 := 0
  /-- Logical bank from which the rotation looks for the next bank (R85). -/
  nextBank : Nat := 0
  /-- The nomad domain has been switched on for a rotation and is not ready yet (R85). -/
  nomadWait : Bool := false
  /-- A BIST_RUN job in mode ROTATE and the logical banks it has still to rotate (R453). -/
  rotate : Option (List Nat) := none
  /-- March SS operations left of the background test (R450). -/
  bgOps : Nat := 0
  /-- The line has had its slice of the background test (R450). -/
  sliced : Bool := false
  /-- The running MEM_SCAN (R87). -/
  scan : Option ScanJob := none
  /-- Directory entries that a bit error has hit and that have not been read since: tile, and whether two bits are
  wrong (R71). -/
  dirHit : List (Nat × Bool) := []
  deriving DecidableEq, Repr

/-- A tile that the fetch engine has still to read for a band of a layer (R77, R109). -/
structure FetchTile where
  layer : Nat
  band  : Nat
  tile  : Nat
  deriving DecidableEq, Repr

/-- A tile of a band as the fetch left it: its bytes if it passed, none if the layer underruns over it
(R77-R79). -/
structure TileBuf where
  layer : Nat
  band  : Nat
  tile  : Nat
  bytes : Option (List Byte)
  deriving DecidableEq, Repr

/-- Compositor, scalers and commit beside their registers (spec/04_layers_blending.md,
spec/05_scalers_commit.md). -/
structure Cmp where
  /-- Transfer-table entries, key 512 × layer + 256 × bank + index, listed where they differ from the
  sRGB table of R104. -/
  tt : List (Nat × BitVec 16) := []
  /-- Entries whose parity fails (R106). -/
  ttBad : List Nat := []
  /-- Scaler coefficients, key ((scaler × 2 + bank) × 2 + direction) × 512 + phase × 8 + tap, listed where
  they differ from the reset tables of R134. -/
  coef : List (Nat × BitVec 12) := []
  /-- Coefficients whose parity fails (R134). -/
  coefBad : List Nat := []
  /-- Tiles still to be fetched, in order (R109). -/
  todo : List FetchTile := []
  /-- Tiles fetched for the bands in use. -/
  bufs : List TileBuf := []
  /-- Layers of which a tile was read in the current line, after the composition deadline of that tile's band (R111). -/
  late : List Nat := []
  /-- Bands of the frame under composition whose fetch has started (R109). -/
  bands : Nat := 0
  /-- The frame under composition (R109). -/
  forFrame : Option Word := none
  /-- Next row to be composed of the frame under composition; 512 = none (R109). -/
  nextRow : Nat := 512
  /-- Value most recently delivered by each layer in the frame (R110). -/
  last : List (Nat × (Nat × Nat)) := []
  /-- Composed rows that LUM has not processed. -/
  rows : List (Nat × List Nat) := []
  /-- Consecutive skipped rows (R113). -/
  skipRun : Nat := 0
  /-- Stalls of 512 skipped rows that OUT_STALL has still to report (R113). -/
  stallDue : Nat := 0
  /-- Layers disabled by DROP until a commit takes them (R127). -/
  dropped : BitVec 12 := 0
  /-- Ready mask and origin of the armed commit (R119, R512). -/
  armRdy : BitVec 12 := 0
  armInfo : FaultInfo := {}
  /-- Consecutive instants without a taken commit, and whether the run has been reported (R124). -/
  staleRun : Nat := 0
  staleReported : Bool := false
  /-- A report that COMMIT_STALE has still to make. -/
  staleDue : Bool := false
  deriving DecidableEq, Repr

/-- A writer of the non-volatile memory: the type of the job it serves, 0 for a floor write, and the
64-byte units it has still to write: address, bytes (R410).  An NVM_WRITE makes its units as it goes, a floor write its unit
when it starts, with the floor that it writes. -/
structure NvmTask where
  owner : Nat
  units : List (Nat × List Byte)
  floor : Nat := 0
  deriving DecidableEq, Repr

/-- The non-volatile writer: its writers in the order in which they started, and the unit that is being
written (R410). -/
structure Nvmw where
  tasks : List NvmTask := []
  unit : Option (Nat × List Byte) := none
  deriving DecidableEq, Repr

/-- An object of a mask list (R143), coordinates as received. -/
structure MaskObj where
  x0 : Int
  x1 : Int
  y0 : Int
  y1 : Int
  el : Nat
  er : Nat
  et : Nat
  eb : Nat
  prio : Nat
  level : Nat
  deriving DecidableEq, Repr

/-- A row of 2,048 values. -/
abbrev Row := List Nat

/-- The mask engine beside its registers (spec/06_object_masks.md). -/
structure Msk where
  /-- The newest list while it waits for its pass: objects and generation (R145). -/
  waiting : Option (List MaskObj × Nat) := none
  /-- The timeout has been reached while it waited: its pass does not end the timeout (R158). -/
  stale : Bool := false
  /-- A list has been accepted since the last epoch; consecutive epochs without one (R158). -/
  gotList : Bool := false
  epochs : Nat := 0
  /-- The timeout has been reached in this run of epochs, and its pass is wanted (R158). -/
  toDone : Bool := false
  toReq : Bool := false
  /-- The timeout has been reached at the epoch of this very cycle: its pass is a reason from the next epoch on (R150). -/
  toNew : Bool := false
  /-- A full pass, or the pass of a commit, is wanted (R150, R159, R160). -/
  full : Bool := false
  /-- The list in use: its objects; its generation if it was received; whether it is the fallback object. -/
  useObjs : List MaskObj := []
  useGen : Option Nat := none
  useFb : Bool := false
  /-- The running pass: the next group of four rows (R151). -/
  pass : Option Nat := none
  /-- Slots of the lines that have ended since the line of the pass's epoch began (R157). -/
  sinceEpoch : Nat := 0
  /-- The epoch of the current line has been served (R149). -/
  epochServed : Bool := false
  /-- LATCHED and TARGET by row (R151). -/
  latched : List (Nat × Row) := []
  target : List (Nat × Row) := []
  /-- The darkening and the brightening set, in rising order (R151). -/
  dark : List Nat := []
  bright : List Nat := []
  /-- The latest pass is still to be measured, and the slots up to its last darkening write (R157). -/
  measuring : Bool := false
  lastDark : Nat := 0
  /-- The latest pass still owes MASK_APPLIED: the generation of its list if received (R162). -/
  applyDue : Option (Option Nat) := none
  /-- Next row of the scrub (R161). -/
  scrubRow : Nat := 0
  deriving DecidableEq, Repr

/-- A row that LUM has processed and that waits for its value write (R165). -/
structure LumRow where
  y : Nat
  /-- The drive words (R175). -/
  words : Row
  /-- Its demand and crest (R176, R180). -/
  demand : Nat
  crest : Nat
  deriving DecidableEq, Repr

/-- The luminance pipeline beside its registers (spec/07_luminance_pipeline.md). -/
structure Lum where
  /-- Working copy of the gain map by row (R169). -/
  gain : List (Nat × Row) := []
  /-- Next row of a running reload (R169). -/
  reload : Option Nat := none
  /-- Rows processed and not written (R165). -/
  ready : List LumRow := []
  /-- Q_y of every row, and their sum (R176). -/
  demand : List (Nat × Nat) := []
  q : Nat := 0
  /-- C_y of every row that has been written (R180). -/
  crest : List (Nat × Option Nat) := []
  /-- A higher LF that waits for slot 3 of the line (R177). -/
  raise : Option Nat := none
  /-- LF_min, Q_peak and Q_peak_eff of the frame (R178, R179). -/
  lfMin : Nat := 65535
  qPeak : Nat := 0
  qPeakEff : Nat := 0
  /-- The boost credit B (R179): full at reset. -/
  credit : Nat := 147456000000
  /-- Neighbour fill has stopped until the end of the frame (R172). -/
  fillStop : Bool := false
  deriving DecidableEq, Repr

/-- The pixel array and its drive beside their registers (spec/08_array_drive.md). -/
structure Ary where
  /-- Storage and display latches by row (R184). -/
  storage : List (Nat × Row) := []
  display : List (Nat × Row) := []
  /-- Written and active mask level by row (R154). -/
  maskW : List (Nat × Row) := []
  maskA : List (Nat × Row) := []
  /-- The value write of the current line's row has been made and its display load not (R190). -/
  loadDue : Bool := false
  /-- Row groups that have crossed a boundary since the dark nets were released (R204). -/
  conduct : BitVec 64 := 0
  /-- The dark nets as last seen at the pixel tier. -/
  netsSeen : Bool := true
  /-- Pre-charge taps by column, and the columns whose tap fails parity (R192). -/
  taps : List (Nat × Nat) := []
  tapBad : List Nat := []
  /-- How the copy of position and PWM count in each array engine stands to the raster generator (R194). -/
  west : EngineCopy := {}
  east : EngineCopy := {}
  /-- Consecutive I_REF measurements outside and inside the window; the measurement of this line is
  made (R197). -/
  isetOut : Nat := 0
  isetIn : Nat := 0
  isetServed : Bool := false
  isetDue : Bool := false
  /-- Consecutive failing checks of I_ref (R200). -/
  refRun : Nat := 0
  deriving DecidableEq, Repr

/-- An entry of the defect log (R216). -/
structure DefectEntry where
  x : Nat
  y : Nat
  cause : Nat
  frame : Word
  deriving DecidableEq, Repr

/-- Health engine beside its registers (spec/09_pixel_health.md). -/
structure Hlt where
  /-- Running CRC-32 of the OUT tap, of the RB tap and of the written side per region (R223). -/
  outAcc : List (Nat × Word) := []
  rbAcc : List (Nat × Word) := []
  wrAcc : List (Nat × Word) := []
  /-- Rows read back in the frame (R224). -/
  rbRows : List Nat := []
  /-- Frames in a row in which a region failed its OUT and its RB comparison, and the reports that
  SIGNATURE_MISS_LIMIT has still to make: region, OUT or RB (R225). -/
  outRuns : List (Nat × Nat) := []
  rbRuns : List (Nat × Nat) := []
  missDue : List (Nat × Bool) := []
  /-- The words last written into every row (R221). -/
  written : List (Nat × Row) := []
  /-- Latest frame in which a row's readback mismatched and the frames in a row, and the rows that RB_PERSIST has still to
  report (R221). -/
  rbRow : List (Nat × (Word × Nat)) := []
  persistDue : List Nat := []
  /-- Latest frame in which a row was discarded and the frames in a row; rows that SENSE_ROW_FAULT has still to
  report (R211). -/
  rowRun : List (Nat × (Word × Nat)) := []
  senseDue : List Nat := []
  /-- The defect map, both copies: pixel y × 2,048 + x to state and cause (R172, R215). -/
  map : List (Nat × (Nat × Nat)) := []
  mapCopy : List (Nat × Nat) := []
  /-- Confirmation counts, key 5 × pixel + cause − 1, LEAK as cause 5 (R212). -/
  confirm : List (Nat × Nat) := []
  /-- The defect log, oldest first (R216). -/
  log : List DefectEntry := []
  /-- FLT_HLT_DEFECT_LIMIT has been raised in this power cycle (R217). -/
  limitReported : Bool := false
  /-- Sensing and readback of the current line are done. -/
  sensed : Bool := false
  readBack : Bool := false
  /-- The mode of the DEFECT_REBUILD that runs (R219). -/
  rebuildMode : Nat := 0
  deriving DecidableEq, Repr
/-- What REC adds up: the base, or an accumulator bank (R463, R468). -/
structure RecBank where
  opSecs : Nat := 0
  litSecs : Nat := 0
  /-- Event and suppressed counts by code. -/
  counts : List (Nat × Nat) := []
  supp : List (Nat × Nat) := []
  /-- Histogram bins, key 16 × histogram + bin (R464). -/
  bins : List (Nat × Nat) := []
  /-- Extremes E0-E4: value and time-stamp (R465). -/
  ext : List (Option (Int × List Word)) := [none, none, none, none, none]
  /-- Log entries of eight words, oldest first (R467), and entries lost. -/
  log : List (List Word) := []
  lost : Nat := 0
  deriving DecidableEq, Repr

/-- The event recorder beside its registers (spec/19_recorder.md). -/
structure Recorder where
  base : RecBank := {}
  /-- Bank X and bank Y (R468); REC_STATUS.BANK names the collecting one. -/
  x : RecBank := {}
  y : RecBank := {}
  /-- Events of each code in the rate window, and whether a suppressed count has risen in it (R466). -/
  window : List (Nat × Nat) := []
  suppWindow : Bool := false
  /-- Rate limits that differ from 16 (R474). -/
  limits : List (Nat × Nat) := []
  /-- Ticks of the operating second and of the lit second; a second is due to be counted (R463). -/
  opTicks : Nat := 0
  litTicks : Nat := 0
  opDue : Bool := false
  litDue : Bool := false
  /-- A lit second has been counted at this operating-second boundary (R464, H2). -/
  litCounted : Bool := false
  /-- A checkpoint is to start (R470); the one that is to start, or that runs, is the boot checkpoint. -/
  cpReq : Bool := false
  cpReqBoot : Bool := false
  cpBoot : Bool := false
  /-- Operating seconds since the swap; the check word is to be written (R468, R469). -/
  cpSecs : Nat := 0
  cpLast : Option (Nat × List Byte) := none
  /-- The power-cycle count of the current cycle, and a cycle that is counted when the base is loaded (R463). -/
  pcc : Nat := 0
  pccNew : Bool := false
  deriving DecidableEq, Repr


/-- The states of a control loop in Q1.31 (R239, R240). -/
structure LoopState where
  i  : Int := 0
  d  : Int := 0
  e1 : Int := 0
  u1 : Int := 0
  /-- Past errors and past outputs of the fallback law, newest first. -/
  es : List Int := [0, 0, 0]
  us : List Int := [0, 0, 0]
  /-- Output that the last evaluation has stored, until its update instant brings it into force (R233). -/
  stored : Option Int := none
  /-- A state word has failed parity and is replaced at the next good evaluation (R246). -/
  bad : Bool := false
  deriving DecidableEq, Repr

/-- What LPE holds for a phase (R231-R234, R252). -/
structure Phase where
  /-- The pulse of this period has not started, the conversion of it is still to come. -/
  pulseDue : Bool := false
  convDue : Bool := false
  /-- Cycle of the line at which the pulse ends. -/
  pulseEnd : Nat := 0
  /-- Cycle of the line at which its current is converted: the pulse centre (R232). -/
  conv : Nat := 0
  /-- Conversion code after the calibration offset, and whether the converter flagged it invalid. -/
  code : Int := 0
  invalid : Bool := false
  /-- Consecutive codes at full scale (R234). -/
  fullRun : Nat := 0
  /-- The comparator has tripped in this period; consecutive periods with a trip (R252). -/
  cbcHit : Bool := false
  cbcRun : Nat := 0
  deriving DecidableEq, Repr

/-- The loop engine beside its registers (spec/10_rail_control.md). -/
structure Lpe where
  /-- Level of PH_EN, and that it goes low at the next inner sample (R249, R251). -/
  phEn : Bool := false
  phOff : Bool := false
  /-- Levels of PWM1-PWM6, bit p for phase p (R231). -/
  pwm : BitVec 6 := 0
  /-- PS_FLT_N, filtered, is high (R234). -/
  psHigh : Bool := true
  phases : List Phase := [{}, {}, {}, {}, {}, {}]
  loops : List LoopState := [{}, {}, {}, {}, {}, {}, {}, {}, {}]
  /-- Coefficients, key (bank × 9 + loop) × 16 + index: mantissa and shift; and those whose parity fails. -/
  coef : List (Nat × (Word × BitVec 6)) := []
  coefBad : List Nat := []
  /-- Sample count n, and the next inner sample of the line (R230). -/
  n : Nat := 0
  k : Nat := 0
  /-- VSNS code of the last inner sample, and whether it was flagged invalid. -/
  vsns : Nat := 0
  vsnsInvalid : Bool := false
  /-- V_SET of R236 without the ramp, V_R, and the set-point at the last outer sample (R236, R237, R249). -/
  vSet : Nat := 0
  vR : Nat := 0
  vSetOut : Nat := 0
  /-- Outer samples since START (R249). -/
  startCount : Nat := 0
  /-- Loops whose conversion is complete and whose evaluation is due, in order (R233). -/
  due : List Nat := []
  /-- Consecutive samples of R234 and R250. -/
  regIn : Nat := 0
  regOut : Nat := 0
  ovpRun : Nat := 0
  uvpRun : Nat := 0
  refRun : Nat := 0
  /-- Reports that the fault rows have still to make: OVP, UVP, ISNS_REF, start timeout; phases at full
  scale and in overcurrent; loops in fallback; the trip of R246. -/
  ovpDue : Bool := false
  uvpDue : Bool := false
  refDue : Bool := false
  startDue : Bool := false
  rangeDue : List Nat := []
  ocDue : List Nat := []
  fbDue : List Nat := []
  tripDue : Bool := false
  /-- The crest has been delivered since the last commit instant; instants without one (R234). -/
  crestNew : Bool := false
  crestMiss : Nat := 0
  /-- The compliance report of this line has been taken (R247). -/
  trimServed : Bool := false
  /-- Fan: the first line of the period, its high cycles, served in this line (R254). -/
  fanLine : Nat := 0
  fanHigh : Nat := 0
  fanServed : Bool := false
  /-- First frame after the raster start; tach run, tach fault to be reported and standing (R254). -/
  fanFirst : Bool := false
  tachRun : Nat := 0
  tachDue : Bool := false
  tachFault : Bool := false
  deriving DecidableEq, Repr
/-- What THM holds for a sensor (R260). -/
structure Sensor where
  /-- Counted conversions, newest first, at most three. -/
  hist : List Int := []
  /-- Last conversion in range. -/
  lastOk : Option Int := none
  /-- Consecutive conversions out of range. -/
  oor : Nat := 0
  deriving DecidableEq, Repr

/-- Temperature sensing beside its registers (spec/11_thermal.md). -/
structure Thm where
  sensors : List Sensor := List.replicate 32 {}
  /-- Counts of the gate whose readings are still to be published, and the line of the raster it
  started in (R259). -/
  gate : Option (List Nat) := none
  gateLine : Option Nat := none
  gateServed : Bool := false
  /-- Ticks for which the tier has been at LEVEL or above; the grace has run out; the throttle cause (R264). -/
  hotTicks : Option Nat := none
  hotLong : Bool := false
  cause : Bool := false
  /-- Ticks at or below the release level; the hold has run out; a release is to be issued (R267). -/
  coolTicks : Option Nat := none
  coolLong : Bool := false
  relDue : Bool := false
  /-- No throttle RETIME until the cause has lapsed or a firmware RETIME has completed (R266). -/
  blocked : Bool := false
  /-- The throttled form of a new base timing is to be issued (R268). -/
  again : Bool := false
  /-- The RETIME that THM has issued: true = throttle, false = release (R265, R267). -/
  issued : Option Bool := none
  /-- The base timing: N_SLOTS, VB, K, mode, source (R265). -/
  base : Option Retime := none
  /-- VB of a slave's raster before its last change; none since its start (R268). -/
  vbBefore : Option Nat := none
  /-- THM_ZONE, THM_THROTTLE, THM_GRACE and THM_SHUTDOWN as used since the last publication (R273). -/
  useZone : Word := 0x02080258
  useThrottle : Word := 0x001C01E0
  useGrace : Word := 0x000000C8
  useShutdown : Word := 0x01B8021C
  /-- A module of the chain requests throttling (R268). -/
  chainReq : Bool := false
  /-- Ticks since a slave's request; its timeout has been reported (R268). -/
  reqTicks : Option Nat := none
  reqReported : Bool := false
  /-- Consecutive publications that qualify for the end of the shutdown (R270). -/
  restartRun : Nat := 0
  deriving DecidableEq, Repr


/-- The safety island beside its registers (spec/12_safety.md, R37, R38). -/
structure Saf where
  /-- Held in reset by VDDH (R274). -/
  held : Bool := false
  /-- The RC detector finds the island oscillator stopped (R37). -/
  oscStopped : Bool := false
  /-- DARK_A and DARK_B levels as last seen; A is active high, B active low (R277).  In OFF both read as active (R494). -/
  darkA : Bool := true
  darkB : Bool := false
  /-- The pad dark request is in force: an active level has been captured and the relight counter has
  not expired since (R278). -/
  padReq : Bool := true
  /-- The relight counter runs with both pads inactive since the last tick sample (R278). -/
  padQuiet : Bool := false
  /-- VDDIO lies within its operating range (R296, R497). -/
  vddioIn : Bool := true
  /-- The net that the proof of INIT has released: 0 = none, 1 = A, 2 = B; it has been so for a tick (R280). -/
  proofNet : Nat := 0
  proofAged : Bool := false
  /-- The far end of dark net A or B differs from its driven level (R202, R280). -/
  netBadA : Bool := false
  netBadB : Bool := false
  /-- The oasis beam that the state shows (R294). -/
  shown : Option Nat := none
  /-- Consecutive high tick samples of SRST_N since the island's reset (R284). -/
  srstHigh : Nat := 0
  /-- Filtered SRST_N, its candidate level and the run of equal samples (R285). -/
  srstLevel : Bool := true
  srstCand : Bool := true
  srstRun : Nat := 0
  /-- The filtered falling and rising edges not yet judged (SRST_FALL, SRST_RISE). -/
  srstFellPending : Bool := false
  srstRosePending : Bool := false
  /-- Ticks of the current filtered low level (R285). -/
  srstLow : Nat := 0
  /-- LRM_A high and LRM_B low are driven (R281, R287). -/
  lrm : Bool := false
  /-- Ticks since LRM last changed, counted up to the end of the FB_TIME window (R292). -/
  lrmTicks : Nat := 0
  /-- LRM_FB has followed the last change of LRM. -/
  lrmFollowed : Bool := false
  /-- LRM_FB candidate level and its run of equal samples (R292). -/
  fbCand : Bool := false
  fbRun : Nat := 0
  /-- Ticks since the relight began (R287). -/
  relightTicks : Nat := 0
  /-- The dim entry has been made, and the settings sampled at it (R288). -/
  dimEntered : Bool := false
  dimCfg : Word := 0
  rampCfg : Word := 0
  monCfg : Word := 0
  /-- The dim entry, and the envelope of a later tick of the ramp, are still to be made. -/
  dimDue : Bool := false
  rampDue : Bool := false
  /-- Ticks n since the entry tick (R289). -/
  rampN : Nat := 0
  /-- Source and beam in force when the dim latch was set (R288). -/
  heldOasis : Bool := false
  heldBeam : Nat := 0
  /-- Consecutive ticks with READ above LIMIT (R290). -/
  envRun : Nat := 0
  /-- Array-current code of the last tick is in SAF_IMON; nets' proof passed (R280, R284). -/
  proofDone : Bool := false
  /-- The oasis boot check is complete (R294). -/
  bootChecked : Bool := false
  /-- A strap read is wanted, and one is running: ticks since its start (R296). -/
  sealWant : Bool := true
  sealTick : Option Nat := none
  sealHi : BitVec 8 := 0
  sealLo : BitVec 8 := 0
  /-- CFG has passed an expected strap value (R298). -/
  strapKnown : Bool := false
  expect : Nat := 0
  /-- Consecutive ticks outside the windows (R37, R274, R299). -/
  supplyRun : Nat := 0
  arrayRun : Nat := 0
  oscRun : Nat := 0
  islandRun : Nat := 0
  outRun : Nat := 0
  /-- The clock-off grant stands (R38), whether it waits for lock, and the ticks it has waited. -/
  grant : Bool := true
  grantWait : Bool := false
  grantTicks : Nat := 0
  /-- Raster-stall watchdog: armed, and ticks since the last line-start pulse (R32). -/
  wdArmed : Bool := false
  wdTicks : Nat := 0
  wdStall : Bool := false
  /-- Copy in use per beam: true for copy B (R294). -/
  useB : BitVec 4 := 0
  deriving DecidableEq, Repr

/-- A position, frame and timing that a slave loads at the master's next frame start (R374, R376). -/
structure EpochLoad where
  frame : Word
  nSlots : Nat
  vb : Nat
  k : Nat
  c : Nat
  a : Nat
  deriving DecidableEq, Repr

/-- The Caravan line beside its registers (spec/15_caravan_tandem.md). -/
structure Cvn where
  /-- EPOCH numbers and ENUM_IDs of the last two frames sent, newest first (R383). -/
  sentEpochs : List Nat := []
  sentEnums : List Nat := []
  /-- The EPOCH header that this master sent last (R369). -/
  sent : Option EpochFrame := none
  /-- Symbols of that frame, shares included (R380). -/
  sentSyms : Nat := 0
  /-- The ENUM frame that was requested has been sent and its return is awaited (R371). -/
  enumOut : Bool := false
  /-- Frames since NOPOS last caused an ENUM frame (R371); marks since the last accepted return (R383). -/
  noposFrames : Nat := 16
  marks : Nat := 0
  /-- Share RAM by word (R380). -/
  share : List (Nat × Word) := []
  /-- Slave: an on-time epoch of the current frame has been met; (f, 510 + VB, 0) has been served (R375,
  R377). -/
  gotEpoch : Bool := false
  missServed : Bool := false
  /-- Consecutive flywheel frames, and whether the loss has been reported (R377). -/
  flyRun : Nat := 0
  lostReported : Bool := false
  /-- Timing that the slave takes from the next frame on: N_SLOTS, VB, K (R374). -/
  nx : Option (Nat × Nat × Nat) := none
  /-- A start or a resynchronisation that waits for the master's next frame start (R374, R376). -/
  load : Option EpochLoad := none
  /-- SH_LEN of the last epoch; a dim value to be written to the shadow of LUM_DIM (R381). -/
  shLen : Nat := 0
  dim : Option Nat := none
  /-- FLT_CVN_CODE has been raised for the EPOCH frame under way (R384). -/
  codeSeen : Bool := false
  deriving DecidableEq, Repr

/-- One Gocel Link port beside its registers (spec/14_gocel_link.md). -/
structure Port where
  /-- Tick boundaries in the present STATE, or since the exit from L1 or L2 began (R334, R341). -/
  ticks : Nat := 0
  /-- Consecutive training sets that meet the exit condition of the state (R334-R337). -/
  run : Nat := 0
  /-- Consecutive sets in which the far end shows the flag that the state waits for. -/
  farRun : Nat := 0
  /-- Flags the port sends in its training sets (R333). -/
  locked : Bool := false
  eqDone : Bool := false
  ready : Bool := false
  /-- Abbreviated training, out of L2 (R342). -/
  short : Bool := false
  /-- The next attempt runs at RATE = 0 (R338). -/
  slow : Bool := false
  /-- Per receive lane, the requests answered; 64 stands for DONE (R336). -/
  eq : List Nat := []
  /-- Per transmitter lane, the result of the last request: 0 = APPLIED; 1 = AT_LIMIT; 2 = FIXED (R333, R336). -/
  results : List Nat := []
  /-- Code errors in the window of R339. -/
  codeErrors : Nat := 0
  /-- Ticks with nothing to send (R341). -/
  idleTicks : Nat := 0
  /-- Low-power state that port D has requested: 0 = none (R341, R342). -/
  ask : Nat := 0
  /-- An exit from L1 is in progress. -/
  exiting : Bool := false
  /-- Sequence number last applied (U) or acknowledged (D) (R340). -/
  lastSeq : Nat := 0
  deriving DecidableEq, Repr

/-- How a packet ended in this module: a non-replay NAK or an ACK, with STATUS and INDEX (R347). -/
structure LocalEnd where
  nak : Bool := false
  status : Nat := 0
  index : Nat := 0
  deriving DecidableEq, Repr

/-- A packet in the receive buffer of port U: one that waits to be processed, or at the head one that waits
to be forwarded, with its local status (R348, R356). -/
structure RxPacket where
  type : Nat
  head : PktHead
  payload : List Word
  /-- Its frame check has failed (R343). -/
  bad : Bool := false
  /-- What reading the directory entry of a TILE_WRITE's tile finds (R71). -/
  dirRead : DirRead := .good
  /-- It has passed the checks of frame and sequence (R348). -/
  taken : Bool := false
  /-- It waits only to be forwarded; its local end, where it is for this module. -/
  done : Option LocalEnd := none
  deriving DecidableEq, Repr

/-- A packet in the replay buffer of port D, or in the return buffer of port U (R352, R353). -/
structure TxPacket where
  type : Nat
  bc : Bool := false
  tg : Bool := false
  /-- Destination, or the module that produced a return packet. -/
  id : Nat
  seq : Nat
  payload : List Word
  /-- It was last sent with its CRC inverted (R361). -/
  crcBad : Bool := false
  deriving DecidableEq, Repr

/-- The last acknowledgement that port U has sent (R346, R347). -/
structure Ack where
  nak : Bool
  replay : Bool
  seq : Nat
  status : Nat
  index : Nat
  free : Nat
  /-- It was sent with its CRC inverted (R361). -/
  crcBad : Bool := false
  deriving DecidableEq, Repr

/-- The Gocel Link beside its registers. -/
structure Lnk where
  u : Port := {}
  d : Port := {}
  /-- Receive buffer of U, in arrival order; its head may wait (R348). -/
  rx : List RxPacket := []
  /-- A replay NAK with the expected sequence has been sent since it became expected (R349). -/
  nakSent : Bool := false
  /-- Consecutive replay NAKs without an accepted packet (R339). -/
  naks : Nat := 0
  /-- Consecutive ARRIVAL failures of one sequence number (R73). -/
  arrivals : Nat := 0
  lastAck : Option Ack := none
  /-- Return buffer of U: return packets not acknowledged, oldest first (R353). -/
  ret : List TxPacket := []
  retTicks : Nat := 0
  retResends : Nat := 0
  /-- Replay buffer of D: forward packets not acknowledged, oldest first (R352). -/
  replay : List TxPacket := []
  repTicks : Nat := 0
  repResends : Nat := 0
  /-- Latest sequence acknowledged to D and the FREE that came with it (R350). -/
  ackA : Nat := 4095
  credit : Nat := 16
  /-- Port D asks its far end to send again in its next header (R353). -/
  askAgain : Bool := false
  /-- Ticks since the last accepted sequenced packet, and whether the stall has been reported (R358). -/
  hostTicks : Nat := 0
  hostReported : Bool := false
  /-- An enabled interrupt event waits for its message; ticks since the last message (R357). -/
  irqEvent : Bool := false
  irqTicks : Nat := 0
  irqSent : Bool := false
  /-- The armed injection: kind and lane (R361). -/
  injKind : Nat := 0
  injLane : Nat := 0
  deriving DecidableEq, Repr
/-- The tandem interlock beside its registers (spec/15_caravan_tandem.md, R388-R391). -/
structure Tdm where
  /-- Consecutive valid edges on TDM_IN (R388). -/
  edges : Nat := 0
  /-- Presence has been seen since the entry to the role. -/
  seen : Bool := false
  lossSince : Bool := false
  /-- Conflicts of this power cycle that count towards CONFLICT_HELD (R389). -/
  conflicts : Nat := 0
  /-- TDM_OUT reads back wrong. -/
  outBad : Bool := false
  deriving DecidableEq, Repr


/-- The states of the test access port controller (R418). -/
inductive Tap where
  | testLogicReset | runTestIdle
  | selectDr | captureDr | shiftDr | exit1Dr | pauseDr | exit2Dr | updateDr
  | selectIr | captureIr | shiftIr | exit1Ir | pauseIr | exit2Ir | updateIr
  deriving DecidableEq, Repr

/-- Configuration, life cycle and test access beside their registers (spec/16_config_lifecycle.md). -/
structure Cfg where
  /-- Life-cycle fuses blown, and the kill fuse (R414, R416). -/
  fuses : Nat := 0
  kill : Bool := false
  /-- The key cells K_AUTH and K_ENC (R401). -/
  keyAuth : List Byte := List.replicate 16 0
  keyEnc : List Byte := List.replicate 16 0
  /-- CFG_KEY words written since reset: index and value (R417). -/
  keyIn : List (Nat × Word) := []
  /-- Step of the boot loader: 0 = not running, 1 = fuses, 2 and 3 = headers of A and B, 4 = body, 5 = apply,
  6 = signal; its ticks (R403). -/
  bootStep : Nat := 0
  bootTicks : Nat := 0
  /-- Headers accepted in step 2. -/
  hdrA : Option (List Byte) := none
  hdrB : Option (List Byte) := none
  /-- Slot whose body is read, 1 = A, 2 = B, and whether it is the second attempt. -/
  slot : Nat := 0
  second : Bool := false
  /-- The image that step 4 of R403 applies. -/
  image : Option Image := none
  /-- The staged image, its source and whether K_AUTH authenticated it (R405, R417). -/
  staged : Option Image := none
  stagedSrc : Nat := 0
  stagedKeyed : Bool := false
  /-- The image in use was authenticated under K_AUTH (R417). -/
  keyed : Bool := false
  /-- What a running IMAGE_LOAD copied at START, and its ticks (R405). -/
  loadSrc : Nat := 0
  loadAddr : Nat := 0
  loadTicks : Nat := 0
  /-- Commit instants since START of a RESTRUCTURE; the swap needs no oasis frame (R407). -/
  rsInstants : Nat := 0
  rsNow : Bool := false
  /-- What a running NVM_WRITE copied at START, and the bytes it has taken on (R411). -/
  nvSrc : Nat := 0
  nvDst : Nat := 0
  nvLen : Nat := 0
  nvPos : Nat := 0
  /-- Target of a running LIFECYCLE, and how often CFG_CHAL1 has been drawn (R417). -/
  lcTarget : Nat := 0
  draws : Nat := 0
  /-- FREEZE is ignored until it has been seen low (R421). -/
  freezeOff : Bool := false
  /-- Filtered level of FREEZE. -/
  freezePad : Bool := false
  /-- JTAG SCAN is active (R427); the last result of REGACC: code and data (R418); the word IDCODE returned. -/
  scanOn : Bool := false
  /-- The controller of the JTAG port, and its instruction register (R418). -/
  tap : Tap := .testLogicReset
  ir : BitVec 4 := 1
  /-- The register in the scan path, the bit that TDO shows first; TRST_N was low in the last tick (R418). -/
  bits : List Bool := []
  trst : Bool := false
  /-- What REGACC has answered last: the code and the word (R418, R419). -/
  jtagCode : Nat := 0
  jtagData : Word := 0
  deriving DecidableEq, Repr

/-- The transition that runs (R428-R431); its step is PWR_STATUS.STEP, its goal PWR_STATUS.TARGET. -/
structure Pwr where
  /-- Level of RESET_N as taken (R426): true = released. -/
  resetN : Bool := false
  /-- VDD at or above its power-on threshold (R426). -/
  vddOk : Bool := true
  /-- State the running transition started from. -/
  fromState : Nat := 0
  /-- Tick boundaries since the step in progress began. -/
  stepTicks : Nat := 0
  /-- DARK_SW before a HOT_STANDBY entry from IDLE wrote 1 to it (R429). -/
  darkSwBefore : Option Bool := none
  /-- The wake has been restarted once (R431). -/
  wakeRetried : Bool := false
  /-- Job slots in which a SUSPEND waits for the suspension point (R438). -/
  suspend : BitVec 4 := 0
  /-- Consecutive ticks of each rail outside its window: VDD, VPIX, VDDA_LNK, VDDIO (R436). -/
  vddRun : Nat := 0
  vpixRun : Nat := 0
  vddaRun : Nat := 0
  vddioRun : Nat := 0
  /-- VPIX has fallen below 0.80 V and not returned (R500). -/
  vpixLost : Bool := false
  /-- Consecutive ticks, at most 2, that have found a lost VPIX in its window (R500). -/
  vpixGood : Nat := 0
  /-- VDDA_LNK is lost (R500). -/
  vddaLost : Bool := false
  /-- VDDIO level mode found at the release of RESET_N: true = 3.3 V (R436, R498). -/
  vddio33 : Bool := true
  deriving DecidableEq, Repr

/-- A PRECHARGE measurement that runs (R454, R456). -/
structure PcMeas where
  /-- A calibration window has begun. -/
  started : Bool := false
  /-- The bit of the successive approximation, and the slots used for its candidate. -/
  bit : Nat := 3
  slots : Nat := 0
  /-- The calibration slot of this line has been used. -/
  used : Bool := false
  /-- Per column: the bits kept so far, and the ones counted for the candidate. -/
  taps : Row := List.replicate 2048 0
  ones : Row := List.replicate 2048 0
  deriving DecidableEq, Repr

/-- A calibration item that runs (R454, R455): 0 LINK, 1 PRECHARGE, 2 ISNS, 3 TRIM. -/
structure CalItem where
  item : Nat
  auto : Bool
  /-- Channels of a LINK item: port U, port D. -/
  u : Bool := false
  d : Bool := false
  /-- The measurement has begun (LINK begins with a window). -/
  started : Bool := false
  /-- Pairs discarded. -/
  pairs : Nat := 0
  /-- PRECHARGE: the first and the second value. -/
  a : Option Row := none
  b : Option Row := none
  deriving DecidableEq, Repr

/-- Accepted values of an item, held as pending by a job (R458). -/
structure CalVal where
  item : Nat
  u : Bool
  d : Bool
  /-- Trim point and its T code. -/
  point : Nat
  t : Int
  vals : List Int
  deriving DecidableEq, Repr

/-- Two-point trim of a sensor (R259). -/
structure TrimVal where
  n1 : Nat := 2560
  t1 : Int := 100
  n2 : Nat := 2048
  t2 : Int := 500
  deriving DecidableEq, Repr

/-- Self-test and calibration beside their registers (spec/18_selftest_calibration.md). -/
structure Cal where
  run : Option CalItem := none
  /-- The precharge measurement in progress. -/
  pc : Option PcMeas := none
  /-- CAL_RUN as the job copied it, the items it has still to measure, and its pending values. -/
  job : Option Word := none
  todo : List Nat := []
  vals : List CalVal := []
  /-- The automatic item ends at the next window boundary for a job (R458). -/
  ending : Bool := false
  /-- Automatic items waiting (R457). -/
  waitU : Bool := false
  waitD : Bool := false
  waitPc : Bool := false
  waitIsns : Bool := false
  /-- The line lies in a calibration window, which takes the last slot of each of its lines (R47, R456). -/
  window : Bool := false
  /-- PIX has powered up and no raster start has passed 8 lines since; the raster has started in that time; the drift of
  R457 stands. -/
  pcArm : Bool := false
  pcStarted : Bool := false
  drift : Bool := false
  /-- Working taps and trim (R454). -/
  taps : List (Nat × Nat) := []
  trim : List TrimVal := List.replicate 32 {}
  deriving DecidableEq, Repr

/-- Self-test beside its registers (R444, R448, R453). -/
structure Bst where
  /-- The POST that runs is a BIST_RUN job, and its cancellation waits for the end of the group. -/
  jobPost : Bool := false
  stopPost : Bool := false
  /-- Banks and rams that have failed in this POST. -/
  failed : Bool := false
  /-- The next row of the latch test; none while no latch test runs. -/
  latchRow : Option Nat := none
  /-- A pixel has failed in this latch test (R449). -/
  latchFailed : Bool := false
  deriving DecidableEq, Repr


/-- The response buffer of the SPI slave (R481). -/
structure SpiResp where
  tag : Byte := 0
  op : Nat := 0
  result : Nat := 0
  index : Nat := 0
  len : Nat := 0
  data : List Byte := []
  deriving DecidableEq, Repr


/-- The SPI slave (R475-R482). -/
structure Spi where
  resp : SpiResp := {}
  /-- RSP_VALID and LOST of the status byte (R480). -/
  valid : Bool := false
  lost : Bool := false
  /-- The result of an accepted frame that RSP_VALID does not show yet (R482). -/
  busy : Option SpiResp := none
  /-- What SPI_SDO has sent in the last frame, from the status byte to the CRC (R480, R481). -/
  sent : List Byte := []
  /-- The last frame has been judged TIMEOUT: SPI_SDO is high-impedance until SPI_CS_N rises (R479). -/
  silent : Bool := false
  deriving DecidableEq, Repr

/-- The whole state of the module. -/
structure State where
  /-- The commands that wait, first in, first out. -/
  pending : List Instr := []
  /-- Registers: active values, listed where they differ from the reset value. -/
  regs : List (Nat × Word) := []
  /-- Shadow values of the RWS fields, listed where they differ from the reset value. -/
  shadow : List (Nat × Word) := []
  /-- What the last access through the register port answered. -/
  port : PortAnswer := {}
  /-- The free-value counter: a field of the model, not of the spec. -/
  freeCount : Nat := 0
  /-- Layer memory, by byte address (R24). -/
  lmem : List Host.Cell := []
  /-- Non-volatile memory, by byte address (R24). -/
  nvm : List Host.Cell := []
  ras : Ras := {}
  lmc : Lmc := {}
  cmp : Cmp := {}
  nvmw : Nvmw := {}
  msk : Msk := {}
  lum : Lum := {}
  ary : Ary := {}
  hlt : Hlt := {}
  lpe : Lpe := {}
  recd : Recorder := {}
  thm : Thm := {}
  lnk : Lnk := {}
  cvn : Cvn := {}
  tdm : Tdm := {}
  cfg : Cfg := {}
  spi : Spi := {}
  saf : Saf := {}
  flt : Flt := {}
  pwr : Pwr := {}
  cal : Cal := {}
  bst : Bst := {}
  deriving DecidableEq, Repr

/-- The machine right after reset: RESET_N low, the module in OFF (R425, R426), every register at its
reset value (R488), the queue empty. -/
def State.reset : State := {}

end Sys2Proof.Machine
end

