-- ==== Sys2Proof/Machine/Ops.lean ====
section
/-!
DEFINITION. The named operations over the registers, the two memory windows, the interrupt bits, the
time-stamp and the power domains.
-/

namespace Sys2Proof.Machine

/-! ### Registers -/

/-- Bits `hi` down to `lo` of a word (R11). -/
def wordGet (w : Word) (hi lo : Nat) : Nat := w.toNat / 2 ^ lo % 2 ^ (hi + 1 - lo)

/-- A word with bits `hi` down to `lo` set to the low bits of `v`. -/
def wordPut (w : Word) (hi lo v : Nat) : Word :=
  (w &&& ~~~ bitMask hi lo) ||| (BitVec.ofNat 32 (v % 2 ^ (hi + 1 - lo) * 2 ^ lo))

/-- The active value of the register at `a`. -/
def State.reg (s : State) (a : Nat) : Word := sparseGet regReset s.regs a

/-- The register at `a` takes the active value `w`. -/
def State.setReg (s : State) (a : Nat) (w : Word) : State :=
  { s with regs := sparseSet regReset s.regs a w }

/-- The shadow value of the register at `a` (R14, RWS). -/
def State.shReg (s : State) (a : Nat) : Word := sparseGet regReset s.shadow a

/-- The register at `a` takes the shadow value `w`. -/
def State.setShReg (s : State) (a : Nat) (w : Word) : State :=
  { s with shadow := sparseSet regReset s.shadow a w }

/-- A field's active value. -/
def State.get (s : State) (f : Field) : Nat := wordGet (s.reg f.addr) f.hi f.lo

/-- A field takes the active value `v`. -/
def State.put (s : State) (f : Field) (v : Nat) : State :=
  s.setReg f.addr (wordPut (s.reg f.addr) f.hi f.lo v)

/-- A one-bit field's active value as a truth value. -/
def State.flag (s : State) (f : Field) : Bool := s.get f != 0

/-- A one-bit field takes a truth value. -/
def State.putB (s : State) (f : Field) (b : Bool) : State := s.put f (b2n b)

/-- A field's shadow value. -/
def State.getSh (s : State) (f : Field) : Nat := wordGet (s.shReg f.addr) f.hi f.lo

/-- A field takes the shadow value `v`. -/
def State.putSh (s : State) (f : Field) (v : Nat) : State :=
  s.setShReg f.addr (wordPut (s.shReg f.addr) f.hi f.lo v)

/-- A field takes the value `v` in the active and in the shadow register: what an image load and a
fallback of the module itself write. -/
def State.putBoth (s : State) (f : Field) (v : Nat) : State := (s.put f v).putSh f v

/-- The largest value a field holds. -/
def Field.top (f : Field) : Nat := 2 ^ (f.hi + 1 - f.lo) - 1

/-- A counter field counts one; it saturates. -/
def State.inc (s : State) (f : Field) : State := s.put f (satInc (s.get f) f.top)

/-- A counter field counts `n`; it saturates. -/
def State.incBy (s : State) (f : Field) (n : Nat) : State := s.put f (min (s.get f + n) f.top)

/-- A field counts one and wraps. -/
def State.wrapInc (s : State) (f : Field) : State := s.put f (s.get f + 1)

/-- A function is applied for every index below `n`, in rising order. -/
def forUpto {α : Type} (n : Nat) (f : Nat → α → α) (a : α) : α :=
  match n with
  | 0 => a
  | k + 1 => f k (forUpto k f a)

/-- Every register of the rows returns to its reset value, active and shadow (R488). -/
def State.resetRegs (s : State) (lo n : Nat) : State :=
  { s with regs := sparseClear s.regs lo n, shadow := sparseClear s.shadow lo n }

/-! ### Free values -/

/-- One value the spec leaves open is taken: the counter that feeds the free values advances. -/
def State.tick (s : State) : State := { s with freeCount := s.freeCount + 1 }

/-! ### Interrupts (R490, R491) -/

/-- Event `n` of R490 occurs: its bit is set in GLB_IRQ_STATUS and in GLB_IRQ_RAW; an event that is enabled, while
LNK_MSG enables the IRQ message, waits for that message (R357). -/
def State.irq (s : State) (n : Nat) : State :=
  let s1 := if bitOf (s.reg A.GLB_IRQ_ENABLE).toNat n && s.flag F.LNK_MSG_IRQ then { s with lnk := { s.lnk with irqEvent := true } } else s
  (s1.setReg A.GLB_IRQ_STATUS (s1.reg A.GLB_IRQ_STATUS ||| BitVec.ofNat 32 (2 ^ n))).setReg
    A.GLB_IRQ_RAW (s1.reg A.GLB_IRQ_RAW ||| BitVec.ofNat 32 (2 ^ n))

namespace Irq
def startOfBlank : Nat := 0
def lineMatch : Nat := 1
def frameDone : Nat := 2
def underrun : Nat := 3
def commitTaken : Nat := 4
def commitRejected : Nat := 5
def maskApplied : Nat := 6
def layerHeld : Nat := 7
def tileCrc : Nat := 8
def signatureMismatch : Nat := 9
def pixelDefect : Nat := 10
def loopEvent : Nat := 11
def thermalThrottle : Nat := 12
def thermalZoneOff : Nat := 13
def safetyState : Nat := 14
def fault : Nat := 15
def linkState : Nat := 16
def caravan : Nat := 17
def tandem : Nat := 18
def jobDone : Nat := 19
def powerState : Nat := 20
def calibration : Nat := 21
def recorder : Nat := 22
def hostTimeout : Nat := 23
end Irq

/-- An interrupt is signalled: (GLB_IRQ_STATUS AND GLB_IRQ_ENABLE) is not 0; IRQ_N is then driven low
(R492). -/
def State.irqActive (s : State) : Bool :=
  (s.reg A.GLB_IRQ_STATUS &&& s.reg A.GLB_IRQ_ENABLE) != 0

/-! ### Power states and domains (R39, R425) -/

namespace Power
def off : Nat := 0
def boot : Nat := 1
def dormant : Nat := 2
def idle : Nat := 3
def lit : Nat := 4
def hotStandby : Nat := 5
def safe : Nat := 6
end Power

/-- The power state (R425). -/
def State.power (s : State) : Nat := s.get F.PWR_STATUS_STATE

/-- CORE is on and clocked: in SAFE only THM of it is (R425). -/
def State.coreOn (s : State) : Bool := s.flag F.PWR_DOM_CORE && s.power != Power.safe

/-- LNK is on. -/
def State.lnkOn (s : State) : Bool := s.flag F.PWR_DOM_LNK

/-- PIX is on and its supply has not failed (R500). -/
def State.pixOn (s : State) : Bool := s.flag F.PWR_DOM_PIX && !s.pwr.vpixLost

/-- Physical bank `p` is on. -/
def State.memOn (s : State) (p : Nat) : Bool := bitOf (s.get F.PWR_DOM_MEM) p

/-- The AON domain is out of reset: every state but OFF (R39, R425). -/
def State.aonOn (s : State) : Bool := s.power != Power.off

/-- IDLE, LIT or HOT_STANDBY. -/
def State.awake (s : State) : Bool :=
  s.power == Power.idle || s.power == Power.lit || s.power == Power.hotStandby

/-- The power-on self-test runs (R444). -/
def State.post (s : State) : Bool := s.flag F.BST_STATUS_POST

/-- The module is frozen (R421). -/
def State.frozen (s : State) : Bool := s.flag F.CFG_STATUS_FROZEN

/-- THM is on and clocked, in SAFE too (R269, R421, R425, R436). -/
def State.thmRuns (s : State) : Bool := s.flag F.PWR_DOM_CORE && s.flag F.PWR_DOM_PLL && !s.frozen

/-- The CORE clocks run: CORE is on, the main PLL is locked and no freeze has stopped them (R421, R436). -/
def State.coreRun (s : State) : Bool := s.coreOn && s.flag F.PWR_DOM_PLL && !s.frozen

/-- The module answers as READY shows it (R493). -/
def State.ready (s : State) : Bool :=
  s.awake && !s.post && !(5 ≤ s.get F.PWR_STATUS_STEP && s.get F.PWR_STATUS_STEP ≤ 9)

/-- A time is up: a timer of `t` ticks, 0 used as 1, that started `n` tick boundaries ago (R57,
R312). -/
def timeUp (n t : Nat) : Bool := decide (max t 1 ≤ n)

/-! ### Memory (R24) -/

/-- First byte address of the layer memory window. -/
def layerBase : Nat := 0x01000000

/-- First byte address past the layer memory window. -/
def layerEnd : Nat := 0x04000000

/-- First byte address of the non-volatile window. -/
def nvmBase : Nat := 0x08000000

/-- First byte address past the non-volatile window. -/
def nvmEnd : Nat := 0x08400000

/-- What a byte of either memory window reads as while nothing is listed for it. -/
def memDefault (_ : Nat) : Byte := 0

/-- A byte of layer memory. -/
def State.lmByte (s : State) (a : Nat) : Byte := sparseGet memDefault s.lmem a

/-- `n` bytes of layer memory. -/
def State.lmBytes (s : State) (a n : Nat) : List Byte := (List.range n).map fun i => s.lmByte (a + i)

/-- Bytes stored in layer memory. -/
def State.lmWrite (s : State) (a : Nat) (bs : List Byte) : State :=
  { s with lmem := sparseFill memDefault s.lmem a bs }

/-- A byte of non-volatile memory. -/
def State.nvByte (s : State) (a : Nat) : Byte := sparseGet memDefault s.nvm a

/-- `n` bytes of non-volatile memory. -/
def State.nvBytes (s : State) (a n : Nat) : List Byte := (List.range n).map fun i => s.nvByte (a + i)

/-- A word of non-volatile memory, least significant byte first (R12). -/
def State.nvWord (s : State) (a : Nat) : Word := BitVec.ofNat 32 (leNat (s.nvBytes a 4))

/-- `n` words of non-volatile memory. -/
def State.nvWords (s : State) (a n : Nat) : List Word := (List.range n).map fun i => s.nvWord (a + 4 * i)

/-- Bytes stored in non-volatile memory. -/
def State.nvWrite (s : State) (a : Nat) (bs : List Byte) : State :=
  { s with nvm := sparseFill memDefault s.nvm a bs }

/-! ### Time-stamps (R18-R20) -/

/-- The three words of a time-stamp (R19). -/
def State.stamp (s : State) : List Word :=
  [s.ras.frame, BitVec.ofNat 32 (s.get F.REC_PCC_VALUE % 2 ^ 24), BitVec.ofNat 32 s.ras.line]

/-- Frame `b` is later than frame `a` (R18). -/
def frameLater (a b : Word) : Bool := let d := (b - a).toNat; 0 < d && d < 2 ^ 31

end Sys2Proof.Machine
end

