-- ==== Sys2Proof/Machine/Flags.lean ====
section
/-!
DEFINITION. The flags that blocks raise: the fault pairs toward FLT, the FLT view of its latches, and
the state of the safety island with the three commands it gives the module (R281-R283, R295, R304-R323).
-/

namespace Sys2Proof.Machine

/-! ### Fault records -/

/-- The record of a code before anything has happened to it: base and effective class are the
default class (R304). -/
def faultDefault (n : Nat) : FaultRec := { base := defaultClass n, eff := defaultClass n }

/-- The record of code `n`. -/
def State.frec (s : State) (n : Nat) : FaultRec := sparseGet faultDefault s.flt.recs n

/-- Code `n` takes the record `r`. -/
def State.setFrec (s : State) (n : Nat) (r : FaultRec) : State :=
  { s with flt := { s.flt with recs := sparseSet faultDefault s.flt.recs n r } }

/-- INIT and ACCESS that R512 and the owning chapter give a code, with the given ADDR. -/
def faultInfo (n addr : Nat) : FaultInfo :=
  match faultRow n with
  | some r => { init := r.init, access := r.access, addr := addr }
  | none => { addr := addr }

/-- A source drives its pair for one occurrence, with the initiator, access and address given: FLT
takes it at the next FAULT_LIVE_RISE of the code.  While the pair stays at the fault pattern, a further
occurrence is no further rise (R306). -/
def State.raiseI (s : State) (n : Nat) (i : FaultInfo) : State :=
  let r := s.frec n
  if r.live && (r.level.isSome || r.inj.isSome || r.invalid) then s
  else s.setFrec n { r with pulses := r.pulses ++ [i] }

/-- A source drives its pair for one occurrence, with the INIT and ACCESS of R512. -/
def State.raise (s : State) (n addr : Nat) : State := s.raiseI n (faultInfo n addr)

/-- A source holds its pair at the fault pattern while its condition stands. -/
def State.assertF (s : State) (n addr : Nat) : State :=
  let r := s.frec n
  match r.level with
  | some _ => s
  | none => s.setFrec n { r with level := some (faultInfo n addr) }

/-- The condition of a source has ended. -/
def State.deassertF (s : State) (n : Nat) : State :=
  let r := s.frec n
  match r.level with
  | some _ => s.setFrec n { r with level := none }
  | none => s

/-- The source of a code is powered, or its domain needs no power of its own (R309); FLT_RAS_STALL comes from the island
(R32). -/
def State.sourceOn (s : State) (n : Nat) : Bool :=
  if n = 1 then !s.saf.held
  else if n < 0x24 then s.coreOn
  else if n < 0x27 then s.aonOn
  else if n < 0x70 then s.coreOn
  else if n < 0x80 then s.flag F.PWR_DOM_CORE
  else if n < 0x90 then !s.saf.held
  else if n < 0xA0 then s.lnkOn
  else if n < 0xB0 then s.aonOn
  else if n < 0xC0 then s.coreOn
  else if n < 0xD0 then s.aonOn
  else if n < 0xF0 then s.coreOn
  else s.aonOn

/-- A record is latched. -/
def FaultRec.latched (r : FaultRec) : Bool := r.st != .none

/-- The C2 reaction stands (R313). -/
def State.c2Stands (s : State) : Bool := s.flt.recs.any fun e => e.2.latched && e.2.eff == 2

/-- Some code of effective class C3 or C4 is PENDING, so it is not acknowledged (R286, R314). -/
def State.unackedHigh (s : State) : Bool :=
  s.flt.recs.any fun e => e.2.st == .pending && 3 ≤ e.2.eff

/-- Codes in PENDING (FLT_STATUS.PENDING). -/
def State.pendingCount (s : State) : Nat := s.flt.recs.countP fun e => e.2.st == .pending

/-- The highest effective class that is PENDING or ACKED unmasked; 7 = none (FLT_STATUS.MAX_CLASS,
R320). -/
def State.maxClass (s : State) : Nat :=
  s.flt.recs.foldl (fun m e =>
    if e.2.latched && e.2.unmasked then (if m = 7 then e.2.eff else max m e.2.eff) else m) 7

/-- FLT_CTRL.PIN_CLASS as used: 5 to 7 as 4. -/
def State.pinClass (s : State) : Nat := min (s.get F.FLT_CTRL_PIN_CLASS) 4

/-- FAULT_P and FAULT_N indicate a fault (R321). -/
def State.pin (s : State) : Bool :=
  s.flt.recs.any fun e => e.2.latched && e.2.unmasked && s.pinClass ≤ e.2.eff

/-- The code's mask bit is in force (R320). -/
def State.masked (s : State) (n : Nat) : Bool :=
  bitOf (s.get (F.FLT_MASKn_MASK (n / 32))) (n % 32) && (s.frec n).base ≤ 1

/-! ### The safety island -/

namespace Isl
def init : Nat := 0
def normal : Nat := 1
def oasis : Nat := 2
def dim : Nat := 3
def dark : Nat := 4
def removed : Nat := 5
end Isl

/-- SAF_STATE.STATE. -/
def State.safState (s : State) : Nat := s.get F.SAF_STATE_STATE

/-- A dark cause of R282 holds: a pad, software or tandem request, DARK_HOLD, or a stopped raster. -/
def State.darkCause (s : State) : Bool :=
  s.saf.padReq || s.flag F.SAF_CMD_DARK_SW || s.flag F.CVN_TDM_STATUS_TDARK ||
  s.flag F.SAF_STATE_DARK_HOLD || !s.ras.running

/-- Some oasis request is present (R295). -/
def State.oasisReq (s : State) : Bool :=
  s.flag F.SAF_STATE_REQ_FLT || s.flag F.SAF_STATE_REQ_CFG || s.flag F.SAF_STATE_REQ_FW

/-- The beam of the requests: FLT first, then CFG, then the firmware's (R295). -/
def State.reqBeam (s : State) : Nat :=
  if s.flag F.SAF_STATE_REQ_FLT then s.get F.SAF_OASIS_BEAM_FLT
  else if s.flag F.SAF_STATE_REQ_CFG then s.get F.SAF_OASIS_BEAM_CFG
  else s.get F.SAF_CMD_BEAM

/-- The state that R282 gives outside INIT. -/
def State.safTarget (s : State) : Nat :=
  if s.flag F.SAF_STATE_REMOVE_LATCH || s.flag F.SAF_STATE_RELIGHT_WAIT then Isl.removed
  else if s.darkCause then Isl.dark
  else if s.flag F.SAF_STATE_DIM_LATCH then Isl.dim
  else if s.oasisReq then Isl.oasis
  else Isl.normal

/-- Safe dim shows its beam (TARGET = 0) by the settings sampled at its entry (R288). -/
def State.dimToDark (s : State) : Bool := wordGet s.saf.dimCfg 0 0 == 1

/-- The source the island asks LUM for: the oasis beam, or the composed rows (R281, R288, R295). -/
def State.wantSource (s : State) : Bool × Nat :=
  if s.safState = Isl.init then (false, 0)
  else if s.flag F.SAF_STATE_DIM_LATCH then
    if s.saf.dimEntered && !s.dimToDark then (true, wordGet s.saf.dimCfg 9 8)
    else (s.saf.heldOasis, s.saf.heldBeam)
  else if s.oasisReq then (true, s.reqBeam)
  else (false, 0)

/-- LRM_A is low and LRM_B high: light removal is asserted (R281, R291). -/
def State.removalOn (s : State) : Bool := !s.saf.lrm

/-- A ramp to dark is complete: its dark nets and source disable are asserted (R289). -/
def State.rampDark (s : State) : Bool :=
  s.flag F.SAF_STATE_DIM_LATCH && s.flag F.SAF_STATE_RAMP_DONE && s.dimToDark

/-- A DARK pad is active; in OFF both read as active (R277, R494). -/
def State.padActive (s : State) : Bool := s.saf.darkA || !s.saf.darkB || !s.aonOn

/-- Something but the state of the island asserts both dark nets (R274, R277, R278): the pads, combinationally, a request
that joins the same drivers, the island's reset, and the RC detector. -/
def State.netsForced (s : State) : Bool :=
  s.saf.held || s.saf.oscStopped || s.padActive || s.saf.padReq || s.flag F.SAF_CMD_DARK_SW ||
  s.flag F.CVN_TDM_STATUS_TDARK

/-- The island drives its dark nets asserted, but for a net that the proof of INIT has released (R277, R281). -/
def State.netsDriven (s : State) : Bool :=
  s.saf.held || s.saf.oscStopped || s.padActive ||
  (let t := s.safState
   t == Isl.init || t == Isl.dark || t == Isl.removed || (t == Isl.dim && s.rampDark))

/-- In INIT the proof has released net `n` alone: 1 = A, 2 = B (R280). -/
def State.netReleased (s : State) (n : Nat) : Bool :=
  s.saf.proofNet == n && s.safState == Isl.init && !s.netsForced

/-- Dark net A and dark net B at the pixel tier: as driven, unless the far end differs (R202, R280). -/
def State.netA (s : State) : Bool := (s.netsDriven && !s.netReleased 1) != s.saf.netBadA
def State.netB (s : State) : Bool := (s.netsDriven && !s.netReleased 2) != s.saf.netBadB

/-- A dark net is asserted at the pixel tier, so that no pixel conducts (R202, R204). -/
def State.darkNets (s : State) : Bool := s.netA || s.netB

/-- The dark nets as they reach the pixel tier: an assertion is counted, and no row group conducts until
its next boundary after the release (R204).  DESIGN CHOICE (log entry 92): DARK_EVENTS counts the edge at which the first of
the two nets becomes asserted; the second net's assertion over the first is none of its own. -/
def State.netsTrack (s : State) : State :=
  if s.darkNets then
    let s1 := if s.ary.netsSeen || !s.coreOn then s else s.inc F.ARY_CNT_DARK_EVENTS
    { s1 with ary := { s1.ary with netsSeen := true, conduct := 0 } }
  else { s with ary := { s.ary with netsSeen := false } }

/-- The standby hold is asserted (R390). -/
def State.standbyHold (s : State) : Bool := s.flag F.CVN_TDM_STATUS_HOLD

/-- The source disable is asserted (R281, R289, R390).  DESIGN CHOICE (log entry 95): once a ramp to dark is complete it is
asserted in every state, in DARK too, whose row of R281 names it released: R289 asserts it at n = T. -/
def State.sourceDisable (s : State) : Bool :=
  s.saf.held || s.saf.oscStopped || s.standbyHold ||
  (let t := s.safState
   t == Isl.init || t == Isl.removed || s.rampDark)

/-- SAFE_A and SAFE_B as driven; none while the island is in reset (R281, R299, R390). -/
def State.safePads (s : State) : Option (Bool × Bool) :=
  if s.saf.held then none
  else if s.standbyHold then some (false, true)
  else
    let t := s.safState
    if t = Isl.init then some (false, false)
    else if t = Isl.normal then some (true, false)
    else if t = Isl.oasis then some (true, true)
    else if t = Isl.dim then some (!s.rampDark, true)
    else some (false, true)

/-- Light removal stops the rail: START and RUN go to OFF, TRIP stays, STOP is set (R251). -/
def State.lpeRemoval (s : State) : State :=
  if !s.coreOn then s
  else
    let s1 := if s.get F.LPE_STATUS_RAIL = 1 ∨ s.get F.LPE_STATUS_RAIL = 2 then
        (s.put F.LPE_STATUS_RAIL 0).put F.LPE_STATUS_IN_REG 0 else s
    { s1.put F.LPE_STATUS_STOP 1 with lpe := { s1.lpe with phEn := false, phOff := false, pwm := 0, regIn := 0, regOut := 0 } }

/-- STOP as LPE comes up: light removal that stands holds the rail off (R251). -/
def State.stopTrack (s : State) : State := s.putB F.LPE_STATUS_STOP s.removalOn

/-- LRM goes to removal or to light; the follow window of R292 restarts at a change. -/
def State.driveLrm (s : State) (on : Bool) : State :=
  if s.saf.lrm = on then s
  else
    let s1 := { s with saf := { s.saf with lrm := on, lrmTicks := 0, lrmFollowed := false } }
    if on then s1.put F.LPE_STATUS_STOP 0 else s1.lpeRemoval

/-- Address of the row table of copy `k` of beam `b` (R293). -/
def oasisTable (b k : Nat) : Nat := 0x08200000 + 0x400 * (2 * b + k)

/-- Address of copy `k` of beam `b` (R293). -/
def oasisCopy (b k : Nat) : Nat := (if k = 0 then 0x08100000 else 0x081C0000) + 0x10000 * b

/-- A row table is valid: its check word matches and its beam number is `b` (R293). -/
def State.oasisTableOk (s : State) (b k : Nat) : Bool :=
  crc32 (s.nvBytes (oasisTable b k) 1020) == s.nvWord (oasisTable b k + 1020) &&
  wordGet (s.nvWord (oasisTable b k + 512)) 1 0 == b

/-- GEN of a row table (R293). -/
def State.oasisGen (s : State) (b k : Nat) : Nat := wordGet (s.nvWord (oasisTable b k + 512)) 31 16

/-- Copy B is newer by the comparison of R18 over 16 bits (R293). -/
def State.oasisNewerB (s : State) (b : Nat) : Bool :=
  let d := (s.oasisGen b 1 + 65536 - s.oasisGen b 0) % 65536
  0 < d && d < 32768

/-- Copy B is preferred: of two valid tables the newer one, copy A on a tie, or the only valid one (R293). -/
def State.oasisPreferB (s : State) (b : Nat) : Bool :=
  s.oasisTableOk b 1 && (!s.oasisTableOk b 0 || s.oasisNewerB b)

/-- Copy `k` of beam `b` counts as valid (SAF_OASIS_STATUS.VALID, R294). -/
def State.copyValid (s : State) (b k : Nat) : Bool := bitOf (s.get F.SAF_OASIS_STATUS_VALID) (2 * b + k)

/-- The copy preferred among the valid ones: none if neither is valid (R293, R294). -/
def State.chooseCopy (s : State) (b : Nat) : Option Bool :=
  let va := s.copyValid b 0 && s.oasisTableOk b 0
  let vb := s.copyValid b 1 && s.oasisTableOk b 1
  if va && vb then some (s.oasisPreferB b)
  else if va then some false
  else if vb then some true
  else none

/-- A copy that does not count as valid any more (R294). -/
def State.copyInvalid (s : State) (b k : Nat) : State :=
  if s.copyValid b k then
    (s.put F.SAF_OASIS_STATUS_VALID (s.get F.SAF_OASIS_STATUS_VALID - 2 ^ (2 * b + k))).raise
      Code.SAF_OASIS_COPY 0
  else s

/-- Bit `b` of a mask takes a value. -/
def maskBit (m b : Nat) (on : Bool) : Nat :=
  if bitOf m b = on then m else if on then m + 2 ^ b else m - 2 ^ b

/-- At the entry to a state that shows beam `b`, its tables are read again: a copy whose table fails is
marked, the preference is shown, and the copy in use is chosen (R293, R294). -/
def State.oasisEntry (s : State) (b : Nat) : State :=
  let s1 := if s.copyValid b 0 && !s.oasisTableOk b 0 then s.copyInvalid b 0 else s
  let s2 := if s1.copyValid b 1 && !s1.oasisTableOk b 1 then s1.copyInvalid b 1 else s1
  let s3 := s2.put F.SAF_OASIS_STATUS_PREF_B (maskBit (s2.get F.SAF_OASIS_STATUS_PREF_B) b (s2.oasisPreferB b))
  match s3.chooseCopy b with
  | none => s3
  | some useB => { s3 with saf := { s3.saf with useB := BitVec.ofNat 4 (maskBit s3.saf.useB.toNat b useB) } }

/-- SAF_STATE.STATE takes `t`; SAFETY_STATE is set at a change (R283). -/
def State.safGoto (s : State) (t : Nat) : State :=
  if s.safState = t then s else (s.put F.SAF_STATE_STATE t).irq Irq.safetyState

/-- The state of the island follows its conditions, outside INIT (R282); BEAM shows the beam asked of
LUM.  An entry that would show a beam reads its tables; with no valid copy the island raises
FLT_SAF_OASIS_NONE and removes light at once (R294, R300). -/
def State.safRefreshRaw (s : State) : State :=
  if s.saf.held || s.safState = Isl.init then s
  else
    let t := s.safTarget
    let w := s.wantSource
    let shows := w.1 && (t == Isl.oasis || t == Isl.dim)
    let entry := shows && (s.safState != t || s.saf.shown != some w.2)
    let s0 := (s.safGoto t).put F.SAF_STATE_BEAM (if w.1 then w.2 else 0)
    let s1 := { s0 with saf := { s0.saf with shown := if shows then some w.2 else none } }
    if entry then
      match s1.chooseCopy w.2 with
      | some _ => s1.oasisEntry w.2
      | none =>
        let s2 := (s1.oasisEntry w.2).raise Code.SAF_OASIS_NONE 0
        ((s2.put F.SAF_STATE_REMOVE_LATCH 1).driveLrm false).safGoto Isl.removed
    else s1

/-- The island's state follows its conditions, and the dark nets with it. -/
def State.safRefresh (s : State) : State := s.safRefreshRaw.netsTrack

/-- The removal latch is set: LRM goes to removal, a relight in progress ends, and the state follows
(R282, R287, R291). -/
def State.setRemoval (s : State) : State :=
  (((s.put F.SAF_STATE_REMOVE_LATCH 1).put F.SAF_STATE_RELIGHT_WAIT 0).driveLrm false).safRefresh

/-- One of the island's own C4 causes: its reaction is applied at once, and the cause is reported to
FLT at the same time (R283). -/
def State.ownC4 (s : State) (n addr : Nat) : State := (s.raise n addr).setRemoval

/-- The dim latch is set by a C3 reaction; the source and beam in force are kept for TARGET = 1
(R282, R288). -/
def State.setDim (s : State) : State :=
  if s.flag F.SAF_STATE_DIM_LATCH then s
  else
    { s.put F.SAF_STATE_DIM_LATCH 1 with
      saf := { s.saf with
        heldOasis := s.flag F.LUM_STATE_SOURCE, heldBeam := s.get F.LUM_STATE_BEAM,
        dimEntered := false, dimDue := false, rampDue := false, rampN := 0 } }.safRefresh

/-- The FLT oasis request follows the C2 reactions that stand (R295, R313). -/
def State.fltRequest (s : State) : State :=
  if s.saf.held then s
  else (s.putB F.SAF_STATE_REQ_FLT s.c2Stands).safRefresh

/-- One of the island's own C4 causes that stands as a condition: the reaction at once, the pair held while
the condition stands (R283, R286). -/
def State.ownC4Level (s : State) (n addr : Nat) : State := (s.assertF n addr).setRemoval

/-- The condition of a code stands at its source. -/
def State.stands (s : State) (n : Nat) : Bool := (s.frec n).level.isSome

/-- A class reaction of R305 is handed to the island. -/
def State.react (s : State) (cls : Nat) : State :=
  if s.saf.held then s
  else
    match cls with
    | 2 => s.fltRequest
    | 3 => s.setDim
    | 4 => s.setRemoval
    | _ => s

end Sys2Proof.Machine
end

