-- ==== Sys2Proof/Machine/Operands.lean ====
section
/-!
DEFINITION. The register port: the decision that every access meets (R485), its record (R487), and
what a write does to a register by the access codes of its fields (R14, R15).
-/

namespace Sys2Proof.Machine

/-- The number of an initiator (R318). -/
def initNo : Initiator → Nat
  | .spi => 0
  | .linkU => 1
  | .jtag => 14

/-- The access type a write of this initiator carries into a fault record: 5 for a packet, 2 for a
register write (R319, R512). -/
def writeKind : Initiator → Nat
  | .linkU => 5
  | _ => 2

/-- The access type of a read by this initiator in a fault record (R319). -/
def readKind : Initiator → Nat
  | .linkU => 5
  | _ => 1

namespace Res
def ok : Nat := 0x00
def crc : Nat := 0x01
def busy : Nat := 0x06
def off : Nat := 0x07
def ro : Nat := 0x08
def locked : Nat := 0x09
def length : Nat := 0x0A
def type : Nat := 0x0B
def range : Nat := 0x0C
def align : Nat := 0x0D
end Res

/-- The register window of an address: its 4 KiB page (R23). -/
def window (a : Nat) : Nat := a / 0x1000

/-- The window belongs to a CORE block (R23). -/
def coreWindow (w : Nat) : Bool :=
  (1 ≤ w && w ≤ 10) || w == 15 || (17 ≤ w && w ≤ 20)

/-- The window of LNK. -/
def lnkWindow (w : Nat) : Bool := w == 13

/-- The block of the address is off (R437): a CORE block with CORE off, every CORE block but THM in
SAFE, LNK with LNK off. -/
def State.blockOff (s : State) (a : Nat) : Bool :=
  let w := window a
  if lnkWindow w then !s.lnkOn
  else if w == 10 then !s.flag F.PWR_DOM_CORE
  else if coreWindow w then !s.coreOn
  else false

/-- The block answers BUSY in BOOT, and LMC, CHK, SCL and MSK during the power-on self-test (R485). -/
def State.blockBusy (s : State) (a : Nat) : Bool :=
  let w := window a
  ((coreWindow w || lnkWindow w) && s.power == Power.boot) ||
  ((w == 2 || w == 20 || w == 4 || w == 5) && s.post)

/-- The decision of R485 on one register word. -/
def State.portDecide (s : State) (a : Nat) (write : Bool) : Nat :=
  if s.blockOff a then Res.off
  else if s.blockBusy a then Res.busy
  else if s.frozen then (if write then Res.ro else Res.ok)
  else if (regRow a).isNone then (if write then Res.ro else Res.ok)
  else if write && !hasWritable a then Res.ro
  else Res.ok

/-- An access enters the record of the latest one that was not OK (R487). -/
def State.accPut (s : State) (i res : Nat) (write : Bool) (a : Nat) : State :=
  ((((s.put F.GLB_ACC_ERR_VALID 1).put F.GLB_ACC_ERR_RESULT res).put F.GLB_ACC_ERR_INIT i).putB
    F.GLB_ACC_ERR_WRITE write).put F.GLB_ACC_ADDR_ADDR a

/-- The record of an access whose RESULT is not OK (R487). -/
def State.accRecord (s : State) (i res : Nat) (write : Bool) (a : Nat) : State :=
  if res = Res.ok then s else s.accPut i res write a

/-- A write discarded because its block or bank is off is counted and reported (R437, R485). -/
def State.offBlock (s : State) (i : Initiator) (a : Nat) : State :=
  (s.inc F.GLB_OFFBLOCK_COUNT_COUNT).raiseI Code.PWR_OFFBLOCK
    { init := initNo i, access := writeKind i, addr := a }

/-- What the initiator sees of its access. -/
def State.answer (s : State) (v : Word) (r : Nat) : State := { s with port := { value := v, result := r } }

/-- A write of one register word through the port: decided by R485, then applied by `k`, or recorded
as refused.  While AON is held in reset no access takes place (R425). -/
def State.portWrite (s : State) (i : Initiator) (a : Nat) (k : State → State) : State :=
  if !s.aonOn then s
  else
    let r := s.portDecide a true
    if r = Res.ok then (k s).answer 0 Res.ok
    else
      let s1 := if r = Res.off then s.offBlock i a else s
      (s1.accRecord (initNo i) r true a).answer 0 r

/-- A read of one register word through the port: `k` gives the value and the side effect; a frozen
module answers the value without side effect (R485). -/
def State.portRead (s : State) (i : Initiator) (a : Nat) (k : State → Word × State) : State :=
  if !s.aonOn then s
  else
    let r := s.portDecide a false
    if r = Res.ok then
      if s.frozen || (regRow a).isNone then s.answer (if (regRow a).isNone then 0 else (k s).1) Res.ok
      else let p := k s; p.2.answer p.1 Res.ok
    else (s.accRecord (initNo i) r false a).answer 0 r

/-- A write by the access codes of the register's fields (R14): RW takes the value at once, RWS loads
the shadow, W1C clears, W1S sets; RO, RC and RC1 bits and reserved bits ignore it, and a WO bit
acts only as its register states. -/
def State.regWrite (s : State) (a : Nat) (v : Word) : State :=
  let rw := accessMask .rw a
  let w1c := accessMask .w1c a
  let w1s := accessMask .w1s a
  let rws := accessMask .rws a
  let old := s.reg a
  let new := (((old &&& ~~~ rw) ||| (v &&& rw)) &&& ~~~ (v &&& w1c)) ||| (v &&& w1s)
  let s1 := s.setReg a new
  if rws = 0 then s1
  else s1.setShReg a ((s1.shReg a &&& ~~~ rws) ||| (v &&& rws))

/-- What a read of the stored register returns: RWS fields their shadow value, WO fields 0, the
others their current value (R14). -/
def State.regView (s : State) (a : Nat) : Word :=
  let rws := accessMask .rws a
  let wo := accessMask .wo a
  ((s.reg a &&& ~~~ rws) ||| (s.shReg a &&& rws)) &&& ~~~ wo

/-- The side effect of a read: RC fields go to 0, RC1 fields to all ones (R14). -/
def State.readClear (s : State) (a : Nat) : State :=
  let rc := accessMask .rc a
  let rc1 := accessMask .rc1 a
  if rc = 0 ∧ rc1 = 0 then s else s.setReg a ((s.reg a &&& ~~~ rc) ||| rc1)

end Sys2Proof.Machine
end

