-- ==== Sys2Proof/Machine/JobOps.lean ====
section
/-!
DEFINITION. The frame of a job slot (R438-R440): what its status register shows, and how a job enters
its end states.
-/

namespace Sys2Proof.Machine

namespace Job
def idle : Nat := 0
def running : Nat := 1
def suspended : Nat := 2
def done : Nat := 3
def cancelled : Nat := 4
def failed : Nat := 5
def memScan : Nat := 1
def nvmWrite : Nat := 2
def bistRun : Nat := 3
def calRun : Nat := 4
def imageLoad : Nat := 5
def restructure : Nat := 6
def defectRebuild : Nat := 7
def lifecycle : Nat := 8
def recCheckpoint : Nat := 9
end Job

/-- State of slot `n`. -/
def State.jobState (s : State) (n : Nat) : Nat := s.get (F.PWR_JOBn_STATUS_STATE n)

/-- Type of the job in slot `n`. -/
def State.jobType (s : State) (n : Nat) : Nat := s.get (F.PWR_JOBn_STATUS_TYPE n)

/-- The slot holds a job that is RUNNING or SUSPENDED. -/
def State.jobActive (s : State) (n : Nat) : Bool :=
  s.jobState n == Job.running || s.jobState n == Job.suspended

/-- The slot in which a job of this type is RUNNING or SUSPENDED. -/
def State.findJob (s : State) (t : Nat) : Option Nat :=
  (List.range 4).find? fun n => s.jobActive n && s.jobType n == t

/-- The slot in which a job of this type is RUNNING. -/
def State.findRunning (s : State) (t : Nat) : Option Nat :=
  (List.range 4).find? fun n => s.jobState n == Job.running && s.jobType n == t

/-- A slot enters DONE, CANCELLED or FAILED: JOB_DONE is set (R438). -/
def State.jobEnd (s : State) (n st : Nat) : State :=
  (s.put (F.PWR_JOBn_STATUS_STATE n) st).irq Irq.jobDone

/-- The job of a slot passes its commit point. -/
def State.jobCommit (s : State) (n : Nat) : State := s.put (F.PWR_JOBn_STATUS_COMMITTED n) 1

/-- The job of a type, if one is active, ends in state `st`. -/
def State.jobEndOf (s : State) (t st : Nat) : State :=
  match s.findJob t with
  | some n => s.jobEnd n st
  | none => s

/-- The job of a type, if one is active, passes its commit point. -/
def State.jobCommitOf (s : State) (t : Nat) : State :=
  match s.findJob t with
  | some n => s.jobCommit n
  | none => s

end Sys2Proof.Machine
end

