-- ==== Sys2Proof/Machine/Position.lean ====
section
/-!
DEFINITION. The raster position, the PWM counter and their advance (R16, R43, R46-R49, R193).
-/

namespace Sys2Proof.Machine

/-- Slots per line of the timing in force (R43). -/
def State.nSlots (s : State) : Nat := s.get F.RAS_ACT_TIMING_N_SLOTS

/-- Blanking lines of the current frame (RAS_STATUS.CUR_VB): fixed at its line 512. -/
def State.curVb (s : State) : Nat := s.get F.RAS_STATUS_CUR_VB

/-- Lines of the current frame as decided so far: VB in force before line 512, CUR_VB after (R53). -/
def State.frameLines (s : State) : Nat :=
  512 + (if s.ras.blankServed then s.curVb else s.get F.RAS_ACT_TIMING_VB)

/-- D_PWM of the timing in force (R48). -/
def State.dPwm (s : State) : Nat := 16 * s.nSlots * s.get F.RAS_ACT_PWM_K

/-- The PWM counter and accumulator after `n` array-clock cycles (R48): each cycle adds 4,096 to the
accumulator, which is taken modulo D_PWM into the counter. -/
def pwmAfter (d n c a : Nat) : Nat × Nat :=
  if d = 0 then (c, a) else ((c + (a + 4096 * n) / d) % 4096, (a + 4096 * n) % d)

/-- The PWM counters of RAS and of both engines run on for `n` array-clock cycles (R48, R193). -/
def State.pwmRun (s : State) (n : Nat) : State :=
  let d := s.dPwm
  let p := pwmAfter d n s.ras.pwmC s.ras.pwmA
  let w := pwmAfter d n s.ary.west.c s.ary.west.a
  let e := pwmAfter d n s.ary.east.c s.ary.east.a
  { s with
    ras := { s.ras with pwmC := p.1, pwmA := p.2 }
    ary := { s.ary with
      west := { s.ary.west with c := w.1, a := w.2 }, east := { s.ary.east with c := e.1, a := e.2 } } }

/-- Array-clock cycles from the first cycle of the line to the current cycle. -/
def State.lineCycle (s : State) : Nat := 16 * s.ras.slot + s.ras.cyc

/-- The position runs on to cycle `t` of the line; a cycle that has passed changes nothing. -/
def State.runTo (s : State) (t : Nat) : State :=
  if t ≤ s.lineCycle then s
  else
    let s1 := s.pwmRun (t - s.lineCycle)
    { s1 with ras := { s1.ras with slot := t / 16, cyc := t % 16 } }

/-- The first cycle of slot `n` of the line is reached, so the slots before it are over; past the last slot, the last
cycle of the line is reached and its last slot is over (R16: s is at most N_SLOTS − 1). -/
def State.toSlot (s : State) (n : Nat) : State :=
  if n < s.nSlots then s.runTo (16 * n)
  else
    let s1 := s.runTo (16 * s.nSlots - 1)
    { s1 with ras := { s1.ras with lineEnd := true } }

/-- Slot `n` of the line is not over. -/
def State.slotOpen (s : State) (n : Nat) : Bool := s.ras.slot ≤ n && n < s.nSlots && !s.ras.lineEnd

/-- The raster runs, CORE is on and the current line has begun; line 512 begins with the commit instant. -/
def State.lineOn (s : State) : Bool :=
  s.coreRun && s.ras.running && s.ras.lineServed && (s.ras.line != 512 || s.ras.blankServed)

/-- The commit instant of the current frame: line 512 has been reached and its instant not been served (R34). -/
def State.blankDue (s : State) : Bool :=
  s.coreRun && s.ras.running && s.ras.lineServed && s.ras.line == 512 && !s.ras.blankServed

/-- RETIME hold lines (R59). -/
def State.holdLines (s : State) : Bool := s.get F.RAS_STATUS_RUN == 3

/-- What an unlisted row of drive words reads as: 2,048 words of 0x8000 (R188). -/
def blackRow (_ : Nat) : Row := List.replicate 2048 0x8000

/-- What an unlisted row of mask levels reads as: 2,048 levels of 7 (R159, R188). -/
def darkRow (_ : Nat) : Row := List.replicate 2048 7

/-- Row group of a row. -/
def rowGroup (y : Nat) : Nat := y / 8

end Sys2Proof.Machine
end

