-- ==== Sys2Proof/Machine/Memory.lean ====
section
/-!
DEFINITION. Layer memory: banks, tile directory, seals, locks, bank rotation and the memory scan engine
(spec/03_layer_memory.md, and R450, R451 of the background test).
-/

namespace Sys2Proof.Machine

/-! ### Tiles, banks and the directory -/

/-- Tiles of the window (R68). -/
def tileCount : Nat := 12288

/-- Tile index of a byte address in the window (R68). -/
def tileOf (a : Nat) : Nat := (a - layerBase) / 4096

/-- First byte address of a tile. -/
def tileAddr (t : Nat) : Nat := layerBase + 4096 * t

/-- Logical bank of a tile (R68). -/
def bankOfTile (t : Nat) : Nat := t / 768

/-- The entry of a tile that has not been written. -/
def dirDefault (_ : Nat) : DirEntry := {}

/-- Directory entry of a tile. -/
def State.dirEntry (s : State) (t : Nat) : DirEntry := sparseGet dirDefault s.lmc.dir t

/-- A directory entry changes. -/
def State.setDir (s : State) (t : Nat) (e : DirEntry) : State :=
  { s with lmc := { s.lmc with dir := sparseSet dirDefault s.lmc.dir t e } }

/-- The register field that holds the physical bank of logical bank `b`. -/
def bankMapField (b : Nat) : Field :=
  match b % 4 with
  | 0 => F.LMC_BANK_MAPn_PHYS0 (b / 4)
  | 1 => F.LMC_BANK_MAPn_PHYS1 (b / 4)
  | 2 => F.LMC_BANK_MAPn_PHYS2 (b / 4)
  | _ => F.LMC_BANK_MAPn_PHYS3 (b / 4)

/-- Physical bank of logical bank `b`; 31 = none (R84). -/
def State.physOf (s : State) (b : Nat) : Nat := s.get (bankMapField b)

/-- Logical bank `b` is on: it has a physical bank whose domain is on. -/
def State.bankOn (s : State) (b : Nat) : Bool := s.physOf b < 17 && s.memOn (s.physOf b)

/-- The bank of a tile is on. -/
def State.tileOn (s : State) (t : Nat) : Bool := s.bankOn (bankOfTile t)

/-- The MEM domains stay off: from step D3 of a DORMANT entry up to step W3 of the wake, and in SAFE (R425, R430,
R431). -/
def State.memHeld (s : State) : Bool :=
  let n := s.get F.PWR_STATUS_STEP
  s.power == Power.safe || (7 ≤ n && n ≤ 9) || (s.power == Power.dormant && n < 12)

/-- The MEM domain of a physical bank goes on or off; none goes on while they are held off. -/
def State.setMem (s : State) (p : Nat) (on : Bool) : State :=
  let m := s.get F.PWR_DOM_MEM
  if on && s.memHeld then s else
  s.put F.PWR_DOM_MEM (if on then (if bitOf m p then m else m + 2 ^ p) else (if bitOf m p then m - 2 ^ p else m))

/-- A seal is refused at once, with its REASON (R75). -/
def State.sealRefused (s : State) (reason : Nat) : State :=
  (s.put F.LMC_SEAL_STATUS_RESULT 3).put F.LMC_SEAL_STATUS_REASON reason

/-- A running seal loses its tile: BUSY clears, nothing is recorded in the directory.  DESIGN CHOICE (log entry 72): it
ends REFUSED with the reason that a new seal of the tile would meet, 2 for a bank off and 3 for the power-on test. -/
def State.sealLost (s : State) (reason : Nat) : State :=
  match s.lmc.sealing with
  | none => s
  | some _ =>
    { (s.put F.LMC_SEAL_STATUS_BUSY 0).sealRefused reason with lmc := { s.lmc with sealing := none } }

/-- A seal of a tile of logical bank `b` runs. -/
def State.sealIn (s : State) (b : Nat) : Bool := s.lmc.sealing.any fun j => bankOfTile j.tile == b

/-- Every tile of logical bank `b` becomes EMPTY, its entry written anew, and its content is lost (R71, R72, R86). -/
def State.bankLost (s : State) (b : Nat) : State :=
  let s1 := if s.sealIn b then s.sealLost 2 else s
  { s1 with
    lmem := sparseClear s1.lmem (tileAddr (768 * b)) (768 * 4096)
    lmc := { s1.lmc with
      dir := sparseClear s1.lmc.dir (768 * b) 768
      dirHit := s1.lmc.dirHit.filter fun e => bankOfTile e.1 != b } }

/-- Every tile becomes EMPTY, its entry written anew; a running seal ends with the given REASON (R444, R430 step D3). -/
def State.tilesEmpty (s : State) (reason : Nat) : State :=
  let s1 := s.sealLost reason
  { s1 with lmem := [], lmc := { s1.lmc with dir := [], dirHit := [] } }

/-- The tiles a range of bytes touches. -/
def tilesOf (a n : Nat) : List Nat :=
  if n = 0 then [] else (List.range (tileOf (a + n - 1) + 1 - tileOf a)).map fun i => tileOf a + i

/-- A tile lies in an enabled lock window (R81). -/
def State.tileLocked (s : State) (t : Nat) : Bool :=
  (List.range 8).any fun i =>
    s.flag (F.LMC_LOCKn_EN i) && s.get (F.LMC_LOCKn_FIRST i) ≤ t &&
      t < s.get (F.LMC_LOCKn_FIRST i) + s.get (F.LMC_LOCKn_COUNT i)

/-- A write that meets a lock is counted and reported with its initiator and address (R81, R319, R512). -/
def State.lockedWrite (s : State) (i : Initiator) (a : Nat) : State :=
  (s.inc F.LMC_CNT1_LOCKED_WRITE).raiseI Code.LMC_LOCKED_WRITE
    { init := initNo i, access := writeKind i, addr := a }

/-! ### Reads of the directory (R71) -/

/-- What a read of the directory entry of a tile finds and does: a single-bit error is corrected and counted, a
double-bit error makes the tile BAD, its CRC being open (R71; log entry 72). -/
def State.dirFound (s : State) (t : Nat) (r : DirRead) (i : FaultInfo) : State :=
  match r with
  | .good => s
  | .corrected => (s.inc F.LMC_CNT1_DIR_CORR).raiseI Code.LMC_DIR_CORR i
  | .double => (s.tick.setDir t { st := .bad, crc := Config.lostCrc s.freeCount }).raiseI Code.LMC_DIR_DED i

/-- What the bit errors that have hit an entry since its last read make of the next read (R71). -/
def State.dirLatent (s : State) (t : Nat) : DirRead :=
  match s.lmc.dirHit.find? fun e => e.1 == t with
  | none => .good
  | some e => if e.2 then .double else .corrected

/-- Any read of the directory entry of a tile: what it finds is corrected, or makes the tile BAD, and the entry is
written back (R71). -/
def State.dirTouch (s : State) (t : Nat) (i : FaultInfo) : State :=
  let s1 := s.dirFound t (s.dirLatent t) i
  { s1 with lmc := { s1.lmc with dirHit := s1.lmc.dirHit.filter fun e => e.1 != t } }

/-- The entries of several tiles are read, in order. -/
def State.dirTouches (s : State) (i : FaultInfo) : List Nat → State
  | [] => s
  | t :: ts => (s.dirTouch t i).dirTouches i ts

/-! ### Seals (R75) -/

/-- The register of the directory selection shows the entry: LMC_DIR_STATE. -/
def State.dirStateView (s : State) : Word :=
  let t := s.get F.LMC_DIR_SEL_TILE
  if tileCount ≤ t then 0
  else
    let n := match (s.dirEntry t).st with
      | .empty => 0
      | .sealed => 1
      | .unsealed => 2
      | .bad => 3
    BitVec.ofNat 32 (n + 16 * b2n (s.tileLocked t))

/-- LMC_DIR_CRC of the selected tile. -/
def State.dirCrcView (s : State) : Word :=
  let t := s.get F.LMC_DIR_SEL_TILE
  if tileCount ≤ t then 0 else (s.dirEntry t).crc

/-- CRC-32 of the stored bytes of a tile. -/
def State.tileCrc (s : State) (t : Nat) : Word := crc32 (s.lmBytes (tileAddr t) 4096)

/-- How the seal of a tile reads the tile's directory entry: with the initiator of the write of LMC_SEAL (R71, R512; log 25). -/
def sealInfo (by_ t : Nat) : FaultInfo := { init := by_, access := 1, addr := tileAddr t }

/-- The write of LMC_SEAL finds a tile of a bank that is on: its entry is read, and an EMPTY tile is refused (R71, R75). -/
def State.sealAccept (s : State) (t : Nat) (self : Bool) (from_ : Nat) : State :=
  let s1 := s.dirTouch t (sealInfo from_ t)
  if (s1.dirEntry t).st = .empty then s1.sealRefused 4
  else
    { (s1.put F.LMC_SEAL_STATUS_BUSY 1).put F.LMC_SEAL_STATUS_OVERRUN 0 with
      lmc := { s1.lmc with sealing := some { tile := t, self := self, crc := s.reg A.LMC_SEAL_CRC, by_ := from_ } } }

/-- The write of LMC_SEAL: discarded while BUSY, refused, or accepted (R75). -/
def State.sealStart (s : State) (v : Word) (from_ : Nat) : State :=
  let t := wordGet v 13 0
  let self := wordGet v 31 31 == 1
  if s.flag F.LMC_SEAL_STATUS_BUSY then s.put F.LMC_SEAL_STATUS_OVERRUN 1
  else if tileCount ≤ t then s.sealRefused 1
  else if !s.tileOn t then s.sealRefused 2
  else if s.post then s.sealRefused 3
  else s.sealAccept t self from_

/-- A write of LMC_SEAL during the power-on test: the register port answers BUSY, and the seal is refused with its REASON
(R75, R83, R447). -/
def State.sealInPost (s : State) (i : Initiator) (a : Nat) (v : Word) : State :=
  if a == A.LMC_SEAL && s.aonOn && s.post && s.portDecide a true == Res.busy then s.sealStart v (initNo i) else s

/-- The directory entry a seal leaves, and its RESULT: 1 = SEALED, 2 = MISMATCH (R75). -/
def sealOutcome (e : DirEntry) (self : Bool) (want got : Word) : DirEntry × Nat :=
  if self || want == got then ({ st := .sealed, crc := got }, 1)
  else
    match e.st with
    | .sealed => ({ e with st := .unsealed }, 2)
    | _ => (e, 2)

/-- The seal `j` ends: BUSY clears with the directory update (R75). -/
def State.sealWrite (s : State) (j : SealJob) : State :=
  let o := sealOutcome (s.dirEntry j.tile) j.self j.crc (s.tileCrc j.tile)
  let s1 := ((s.setDir j.tile o.1).put F.LMC_SEAL_STATUS_BUSY 0).put F.LMC_SEAL_STATUS_RESULT o.2
  let s2 := s1.put F.LMC_SEAL_STATUS_REASON 0
  { s2 with lmc := { s2.lmc with sealing := none } }

/-- The seal in progress reads the entry of its tile and ends (R71, R75). -/
def State.sealEnd (s : State) : State :=
  match s.lmc.sealing with
  | none => s
  | some j => (s.dirTouch j.tile (sealInfo j.by_ j.tile)).sealWrite j

/-- An access to a tile that a seal holds waits and is ordered after the seal (R75, R76). -/
def State.afterSeal (s : State) (ts : List Nat) : State :=
  match s.lmc.sealing with
  | none => s
  | some j => if ts.contains j.tile then s.sealEnd else s

/-- A read of an entry that finds the given error, beside what has hit the entry before. -/
def State.dirReadEffect (s : State) (t : Nat) (r : DirRead) (i : FaultInfo) : State := (s.dirTouch t i).dirFound t r i

/-- Bit errors hit directory entries; a second one of an entry makes it a double error (R71). -/
def State.dirHits (s : State) : List (Nat × Bool) → State
  | [] => s
  | (t, two) :: r =>
    let old := s.lmc.dirHit.any fun e => e.1 == t
    if tileCount ≤ t then s.dirHits r
    else
      State.dirHits { s with lmc := { s.lmc with
        dirHit := (t, two || old) :: s.lmc.dirHit.filter fun e => e.1 != t } } r

/-! ### Writes -/

/-- Every tile a partial write touches becomes UNSEALED; its CRC is left in place (R74).  DESIGN CHOICE (log 90): a BAD
tile too, by R72 and R74, though R79 lets only a TILE_WRITE or a matching seal end BAD. -/
def State.unsealTiles (s : State) : List Nat → State
  | [] => s
  | t :: ts => (s.setDir t { s.dirEntry t with st := .unsealed }).unsealTiles ts

/-- A partial write stores its bytes; it reads the entry of each tile, whose CRC it leaves in place (R71, R74). -/
def State.memStore (s : State) (a : Nat) (bs : List Byte) (i : FaultInfo) : State :=
  let s1 := (s.afterSeal (tilesOf a bs.length)).dirTouches i (tilesOf a bs.length)
  (s1.unsealTiles (tilesOf a bs.length)).lmWrite a bs

/-- An accepted TILE_WRITE stores the tile and seals it with the host's CRC (R73). -/
def State.tileStore (s : State) (t : Nat) (crc : Word) (bs : List Byte) : State :=
  let s1 := s.afterSeal [t]
  (s1.setDir t { st := .sealed, crc := crc }).lmWrite (tileAddr t) bs

/-! ### Bank power and rotation (R83-R86) -/

/-- The nomad bank, if one exists. -/
def State.nomad (s : State) : Option Nat :=
  let p := s.get F.LMC_NOMAD_PHYS
  if p < 17 then some p else none

/-- Rotation is wanted: by a BIST_RUN job in mode ROTATE, or by BG_EN (R85, R453). -/
def State.rotationWanted (s : State) : Bool :=
  match s.lmc.rotate with
  | some bs => !bs.isEmpty && (s.findRunning Job.bistRun).isSome
  | none => s.flag F.LMC_CTRL_BG_EN

/-- The logical bank the rotation takes next: the first that is on, from the next in order, or the
first the job has left. -/
def State.rotationBank (s : State) : Option Nat :=
  match s.lmc.rotate with
  | some bs => bs.find? fun b => s.bankOn b
  | none => ((List.range 16).map fun i => (s.lmc.nextBank + i) % 16).find? fun b => s.bankOn b

/-- MIGRATE of a logical bank begins (R85). -/
def State.migrateStart (s : State) (b : Nat) : State :=
  let s1 := if s.lmc.rotate.isSome then s.put F.BST_RUN_STATUS_BANK b else s
  (s1.put F.LMC_STATUS_BG_PHASE 1).put F.LMC_STATUS_MIGRATE_BANK b

/-- The rotation is put in train: with the nomad domain on, MIGRATE of the next bank begins; with it
off, the domain is switched on and MIGRATE waits until it is ready (R85). -/
def State.rotationGo (s : State) : State :=
  if s.get F.LMC_STATUS_BG_PHASE != 0 || s.post || !s.awake || s.memHeld then s
  else
    match s.nomad with
    | none => s
    | some n =>
      if !s.rotationWanted then s
      else if s.memOn n && !s.lmc.nomadWait then
        match s.rotationBank with
        | some b => s.migrateStart b
        | none => s
      else
        let s1 := s.setMem n true
        { s1 with lmc := { s1.lmc with nomadWait := true } }

/-- With BG_EN = 0, no ROTATE job that runs and no rotation in a step, the nomad domain goes off (R85). -/
def State.nomadRest (s : State) : State :=
  if s.get F.LMC_STATUS_BG_PHASE == 0 && !s.rotationWanted && !s.flag F.LMC_CTRL_BG_EN then
    match s.nomad with
    | some n =>
      let s1 := s.setMem n false
      { s1 with lmc := { s1.lmc with nomadWait := false } }
    | none => s
  else s

/-- March SS operations of one bank (R450). -/
def marchSsOps : Nat := 4325376

/-- The tiles of a logical bank (R68). -/
def bankTiles (b : Nat) : List Nat := (List.range 768).map fun i => 768 * b + i

/-- The copy of a tile reads its entry, and checks a SEALED tile; one that fails becomes BAD and is reported with
initiator 9 (R71, R85). -/
def State.migrateTile (s : State) (t : Nat) : State :=
  let i : FaultInfo := { init := 9, access := 4, addr := tileAddr t }
  let s1 := s.dirTouch t i
  let e := s1.dirEntry t
  if e.st = .sealed ∧ s1.tileCrc t ≠ e.crc then (s1.setDir t { e with st := .bad }).raiseI Code.LMC_TILE_CRC i else s1

/-- The tiles of the bank are checked in order as they are copied (R85).  DESIGN CHOICE (log entry 72): the model makes
the checks of one MIGRATE in the step of its last tile. -/
def State.migrateCheck (s : State) : List Nat → State
  | [] => s
  | t :: ts => (s.migrateTile t).migrateCheck ts

/-- Tiles of the bank under MIGRATE are copied, each after a seal of it in progress (R75, R76, R85). -/
def State.migrateCopy (s : State) (ts : List Nat) : State := (s.afterSeal ts).migrateCheck ts

/-- MIGRATE is abandoned: the bank stays on its physical bank, and the tiles copied so far have been checked.  How many
these are is a free value (R85; log 72). -/
def State.migrateAbandon (s : State) : State :=
  if s.get F.LMC_STATUS_BG_PHASE = 1 then
    let done := (bankTiles (s.get F.LMC_STATUS_MIGRATE_BANK)).take (Config.tilesCopied s.freeCount)
    (((s.tick.migrateCopy done).put F.LMC_STATUS_BG_PHASE 0).put F.LMC_STATUS_MIGRATE_BANK 31).nomadRest
  else s.nomadRest

/-- SWAP: logical bank `b` maps to the nomad bank, its old bank becomes the nomad bank and goes into
TEST (R85). -/
def State.swapBank (s : State) (b n : Nat) : State :=
  let p := s.physOf b
  let s1 := (s.put (bankMapField b) n).put F.LMC_NOMAD_PHYS p
  let s2 := ((s1.put F.LMC_STATUS_BG_PHASE 2).put F.LMC_STATUS_MIGRATE_BANK 31).put
    F.LMC_STATUS_TEST_PHYS p
  { s2 with lmc := { s2.lmc with
      nextBank := (b + 1) % 16, bgOps := marchSsOps,
      rotate := s2.lmc.rotate.map fun bs => bs.filter fun x => x != b } }

/-- No rotation stands and no bank is in TEST, or none is left to rotate to (R85, R92). -/
def State.rotationOff (s : State) : State :=
  let s1 := ((s.put F.LMC_STATUS_BG_PHASE (if s.nomad.isNone then 3 else 0)).put F.LMC_STATUS_TEST_PHYS 31).put
    F.LMC_STATUS_MIGRATE_BANK 31
  { s1 with lmc := { s1.lmc with nomadWait := false } }

/-- A physical bank is retired (R83, R85). -/
def State.retireBank (s : State) (p : Nat) : State :=
  let s1 := s.put F.BST_BANK_FAIL_FAIL
    (let m := s.get F.BST_BANK_FAIL_FAIL
     if bitOf m p then m else m + 2 ^ p)
  { s1 with lmc := { s1.lmc with retired := s1.lmc.retired ||| BitVec.ofNat 17 (2 ^ p) } }.raise
    Code.LMC_BANK_RETIRED 0

/-- A BIST_RUN job in mode ROTATE that has no bank left ends DONE (R453). -/
def State.rotateJobEnd (s : State) : State :=
  match s.lmc.rotate with
  | some [] => { s with lmc := { s.lmc with rotate := none } }.jobEndOf Job.bistRun Job.done
  | _ => s

/-- The switch of a logical bank's power: off empties its tiles and takes it off a ROTATE job's list, on powers its
domain (R86, R453). -/
def State.bankPower (s : State) (b : Nat) (on : Bool) : State :=
  if 17 ≤ s.physOf b then s
  else if on then s.setMem (s.physOf b) true
  else
    let s1 := if s.get F.LMC_STATUS_BG_PHASE = 1 ∧ s.get F.LMC_STATUS_MIGRATE_BANK = b then
        s.migrateAbandon else s
    let s2 := (s1.setMem (s1.physOf b) false).bankLost b
    { s2 with lmc := { s2.lmc with rotate := s2.lmc.rotate.map fun bs => bs.filter fun x => x != b } }

/-- Every logical bank follows its bit of an enable word, in rising order. -/
def State.banksPower (s : State) (en : Nat) : State :=
  forUpto 16 (fun b s => if bitOf en b = s.bankOn b then s else s.bankPower b (bitOf en b)) s

/-- Bits of LMC_BANK_EN that a logical bank without a physical bank holds at 0 (R84). -/
def State.bankEnMask (s : State) : Nat :=
  (List.range 16).foldl (fun m b => if s.physOf b < 17 then m + 2 ^ b else m) 0

/-- A running scan whose range has lost a bank fails (R90). -/
def State.scanBankLost (s : State) : State :=
  match s.lmc.scan with
  | none => s
  | some j =>
    if (tilesOf j.addr j.len).any (fun t => t < tileCount && !s.tileOn t) && j.addr < layerEnd then
      let s1 := (s.put F.CHK_STATUS_RESULT 2).put F.CHK_STATUS_REASON 2
      { s1 with lmc := { s1.lmc with scan := none } }.jobEndOf Job.memScan Job.failed
    else s

/-- The banks of a ROTATE job have changed, or it goes on: with none left and none in a step, it ends (R453). -/
def State.rotateCheck (s : State) : State :=
  if s.get F.LMC_STATUS_BG_PHASE == 0 && s.lmc.rotate.isSome && (s.findRunning Job.bistRun).isSome then s.rotateJobEnd.nomadRest
  else s

/-- The write of LMC_BANK_EN takes effect (R86); a rotation that found no bank on goes on (R85), a ROTATE job with no bank
left ends (R453), and a scan whose range loses its bank fails (R90). -/
def State.bankEnWrite (s : State) (v : Word) : State :=
  let en := (wordGet v 15 0) &&& s.bankEnMask
  ((((s.put F.LMC_BANK_EN_EN en).banksPower en).rotateCheck).rotationGo).scanBankLost

/-! ### The memory scan engine (R87-R90) -/

/-- Bytes of either memory window. -/
def State.anyBytes (s : State) (a n : Nat) : List Byte :=
  if nvmBase ≤ a then s.nvBytes a n else s.lmBytes a n

/-- The range lies wholly within one memory window. -/
def rangeInWindow (a n : Nat) : Bool :=
  (layerBase ≤ a && a + n ≤ layerEnd) || (nvmBase ≤ a && a + n ≤ nvmEnd)

/-- START of a MEM_SCAN: the REASON of a refusal, or 0 (R90).  DESIGN CHOICE (log entry 73): an empty range is held to
the windows too, before R88 completes it at once, and one at the end address of a window counts as inside. -/
def State.scanRefusal (s : State) : Nat :=
  let a := s.get F.CHK_ADDR_ADDR
  let n := s.get F.CHK_LEN_LEN
  if !rangeInWindow a n then 1
  else if a < layerEnd && (tilesOf a n).any (fun t => !s.tileOn t) then 2
  else if s.lmc.scan.isSome then 3
  else if s.post then 4
  else 0

/-- START of a MEM_SCAN: refused with the owner's reason, or the range and seed are copied; a length of
0 completes at once (R87, R88). -/
def State.scanStart (s : State) : State × Bool :=
  let r := s.scanRefusal
  if r ≠ 0 then ((s.put F.CHK_STATUS_RESULT 2).put F.CHK_STATUS_REASON r, false)
  else
    let seed := s.reg A.CHK_SEED
    let s1 := s.put F.CHK_PROGRESS_DONE 0
    ({ s1 with lmc := { s1.lmc with scan := some {
        addr := s.get F.CHK_ADDR_ADDR, len := s.get F.CHK_LEN_LEN, seed := seed, pos := 0,
        run := seed ^^^ 0xFFFFFFFF#32 } } }, true)

/-- The scan reads on to byte `pos` of its range (R89). -/
def State.scanTo (s : State) (j : ScanJob) (pos : Nat) : State :=
  let s1 := s.put F.CHK_PROGRESS_DONE pos
  { s1 with lmc := { s1.lmc with scan := some { j with
      pos := pos, run := crc32Run j.run (s.anyBytes (j.addr + j.pos) (pos - j.pos)) } } }

/-- The scan reads to its end and writes CHK_RESULT: its commit point (R88, R89).  DESIGN CHOICE (log entry 97): what is left
of the range is read here, as the writes made meanwhile have left it. -/
def State.scanEnd (s : State) : State :=
  match s.lmc.scan with
  | none => s
  | some j =>
    let v := crc32Run j.run (s.anyBytes (j.addr + j.pos) (j.len - j.pos)) ^^^ 0xFFFFFFFF#32
    let s1 := (((s.put F.CHK_PROGRESS_DONE j.len).setReg A.CHK_RESULT v).put F.CHK_STATUS_RESULT 1).put
      F.CHK_STATUS_REASON 0
    let s2 := { s1 with lmc := { s1.lmc with scan := none } }
    (s2.jobCommitOf Job.memScan).jobEndOf Job.memScan Job.done

/-! ### The commands -/

/-- SEAL: a write of LMC_SEAL (R75). -/
def execSealTile (i : Initiator) (v : Word) (s : State) : Host.Outcome State Fault Refusal :=
  .next ((s.sealInPost i A.LMC_SEAL v).portWrite i A.LMC_SEAL fun s => s.sealStart v (initNo i))

/-- The seal reads the directory entry of its tile (R71, R512). -/
def State.sealDirRead (s : State) (r : DirRead) : State :=
  match s.lmc.sealing with
  | some j => s.dirReadEffect j.tile r (sealInfo j.by_ j.tile)
  | none => s

/-- SEAL_COMPLETE: the CRC comparison of the seal ends (R71, R75). -/
def execSealComplete (dirRead : DirRead) (s : State) : Host.Outcome State Fault Refusal :=
  .next (if s.coreRun then (s.sealDirRead dirRead).sealEnd else s)

/-- Outside a rotation the nomad bank's MEM domain goes on, and is ready later (R85). -/
def State.nomadOn (s : State) : State :=
  if s.get F.LMC_STATUS_BG_PHASE != 0 || s.post || !s.awake || s.memHeld then s
  else
    match s.nomad with
    | none => s
    | some n =>
      if s.memOn n then s
      else
        let s1 := s.setMem n true
        { s1 with lmc := { s1.lmc with nomadWait := true } }

/-- What a write of LMC_CTRL.BG_EN does: it starts rotation, or abandons MIGRATE (R85).  While a ROTATE job is active,
suspended ones included (log entry 72), background rotation is held (R453), and the write switches the nomad bank's
domain alone. -/
def State.bgEnWrite (s : State) (v : Word) : State :=
  let s1 := s.put F.LMC_CTRL_BG_EN (wordGet v 0 0)
  if s1.lmc.rotate.isSome then (if wordGet v 0 0 = 1 then s1.nomadOn else s1.nomadRest)
  else if wordGet v 0 0 = 1 then s1.rotationGo else s1.migrateAbandon

/-- BG_EN_WRITE: a write of LMC_CTRL (R85). -/
def execBgEnWrite (i : Initiator) (v : Word) (s : State) : Host.Outcome State Fault Refusal :=
  .next (s.portWrite i A.LMC_CTRL fun s => s.bgEnWrite v)

/-- BANK_EN_WRITE: a write of LMC_BANK_EN (R86). -/
def execBankEnWrite (i : Initiator) (v : Word) (s : State) : Host.Outcome State Fault Refusal :=
  .next (s.portWrite i A.LMC_BANK_EN fun s => s.bankEnWrite v)

/-- NOMAD_DOMAIN_READY: the nomad bank's domain is ready, and MIGRATE of the next bank begins (R85). -/
def execNomadDomainReady (s : State) : Host.Outcome State Fault Refusal :=
  .next (if s.coreRun && s.lmc.nomadWait then
    { s with lmc := { s.lmc with nomadWait := false } }.rotationGo else s)

/-- MIGRATE_DONE: after the last tile, in the first idle cycle, hence after a seal of a tile of the bank, the logical
bank switches to the nomad bank and the bank that left service goes into TEST (R75, R85).  A SWAP is a commit point of a BIST_RUN
job in mode ROTATE (R453). -/
def execMigrateDone (s : State) : Host.Outcome State Fault Refusal :=
  .next (if s.coreRun && s.get F.LMC_STATUS_BG_PHASE == 1 then
    match s.nomad with
    | some n =>
      let b := s.get F.LMC_STATUS_MIGRATE_BANK
      let s1 := (s.migrateCopy (bankTiles b)).swapBank b n
      if s1.lmc.rotate.isSome then s1.jobCommitOf Job.bistRun else s1
    | none => s
    else s)

/-- Operations a background test slice makes: min(BG_SLOTS, N_SLOTS − 8) × 16 while the raster runs,
BG_SLOTS × 16 while it is stopped; 0 is used as 1 (R450, R461). -/
def State.sliceOps (s : State) : Nat :=
  let n := max 1 (s.get F.BST_CTRL_BG_SLOTS)
  if s.ras.running then 16 * min n (s.get F.RAS_ACT_TIMING_N_SLOTS - 8) else 16 * n

/-- A slice may start: while the raster runs, in the first cycle of slot 8 of a line that has had none, RETIME hold lines
included; on a stopped raster at any time (R56, R450). -/
def State.sliceDue (s : State) : Bool :=
  !s.ras.running || (s.lineOn && s.slotOpen 8 && !s.lmc.sliced)

/-- BG_TEST_SLICE: a slice of March SS on the bank under TEST, from the first cycle of (f, l, 8) while the raster runs
(R450).  A suspended ROTATE job makes no slice (R453). -/
def execBgTestSlice (s : State) : Host.Outcome State Fault Refusal :=
  .next (if s.coreRun && s.get F.LMC_STATUS_BG_PHASE == 2 && s.sliceDue &&
      (s.lmc.rotate.isNone || (s.findRunning Job.bistRun).isSome) then
    let s1 := if s.ras.running then s.toSlot 8 else s
    { s1 with lmc := { s1.lmc with bgOps := s.lmc.bgOps - s.sliceOps, sliced := s.ras.running } }
  else s)

/-- The test of a bank ends (R85, R451): a pass counts a round and the next rotation may begin; a
failure retires the bank and rotation stops for want of a nomad bank (R84). -/
def State.bankTestEnd (s : State) (pass : Bool) : State :=
  let p := s.get F.LMC_STATUS_TEST_PHYS
  let s1 := s.put F.LMC_STATUS_TEST_PHYS 31
  if pass then
    (((s1.inc F.BST_BG_ROUNDS).put F.LMC_STATUS_BG_PHASE 0).rotateJobEnd).nomadRest.rotationGo
  else
    let s2 := ((s1.inc F.BST_BG_FAILS).retireBank p).put F.LMC_NOMAD_PHYS 31
    let s3 := (s2.put F.LMC_STATUS_BG_PHASE 3).setMem p false
    if s3.lmc.rotate.isSome then
      { s3 with lmc := { s3.lmc with rotate := some [] } }.rotateJobEnd else s3

/-- BANK_TEST_DONE: the background test of the bank has made its last operation (R450, R451). -/
def execBankTestDone (pass : Bool) (s : State) : Host.Outcome State Fault Refusal :=
  .next (if s.coreRun && s.get F.LMC_STATUS_BG_PHASE == 2 && s.lmc.bgOps == 0 then s.bankTestEnd pass else s)

/-- SCAN_COMPLETE: a scan writes CHK_RESULT and ends DONE (R88, R89). -/
def execScanComplete (s : State) : Host.Outcome State Fault Refusal :=
  .next (if s.coreRun && (s.findRunning Job.memScan).isSome then s.scanEnd else s)

end Sys2Proof.Machine
end

