-- ==== Sys2Proof/Machine/Layers.lean ====
section
/-!
DEFINITION. Layers, pixel formats, transfer tables, scalers and blending: the arithmetic of
spec/04_layers_blending.md and of the scalers of spec/05_scalers_commit.md.
-/

namespace Sys2Proof.Machine

/-! ### Layer registers -/

/-- What the registers of a slot say (R117). -/
structure LayerCfg where
  typ : Nat
  symbol : Bool
  en : Bool
  la : Nat
  ttSel : Nat
  additive : Bool
  premul : Bool
  format : Nat
  hT : Nat
  wT : Nat
  base : Nat
  dx : Int
  dy : Int
  w : Nat
  h : Nat
  sx : Nat
  sy : Nat
  ubgA : Nat
  ubgL : Nat
  deriving DecidableEq, Repr

/-- A field of the active set or of the shadow set. -/
def State.getSet (s : State) (sh : Bool) (f : Field) : Nat := if sh then s.getSh f else s.get f

/-- Type of a slot: 0 = ABSENT, 1 = VIDEO, 2 = GRAPHIC (R94). -/
def State.layerType (s : State) (i : Nat) : Nat :=
  bitsOf (s.get F.CMP_LAYER_TYPE_TYPE) (2 * i + 1) (2 * i)

/-- The configuration of slot `i` in the active or the shadow set. -/
def State.layerCfg (s : State) (sh : Bool) (i : Nat) : LayerCfg where
  typ := s.layerType i
  symbol := bitOf (s.get F.CMP_LAYER_CLASS_SYMBOL) i
  en := s.getSet sh (F.CMP_Ln_CTRL_EN i) == 1
  la := s.getSet sh (F.CMP_Ln_CTRL_LA i)
  ttSel := s.getSet sh (F.CMP_Ln_CTRL_TT_SEL i)
  additive := s.getSet sh (F.CMP_Ln_CTRL_OP i) == 1
  premul := s.getSet sh (F.CMP_Ln_CTRL_PREMUL i) == 1
  format := s.getSet sh (F.CMP_Ln_CTRL_FORMAT i)
  hT := s.getSet sh (F.CMP_Ln_SURF_H_T i)
  wT := s.getSet sh (F.CMP_Ln_SURF_W_T i)
  base := s.getSet sh (F.CMP_Ln_SURF_BASE_TILE i)
  dx := toSigned 12 (s.getSet sh (F.CMP_Ln_POS_DX i))
  dy := toSigned 12 (s.getSet sh (F.CMP_Ln_POS_DY i))
  w := s.getSet sh (F.CMP_Ln_SIZE_W i)
  h := s.getSet sh (F.CMP_Ln_SIZE_H i)
  sx := s.getSet sh (F.CMP_Ln_SRC_SX i)
  sy := s.getSet sh (F.CMP_Ln_SRC_SY i)
  ubgA := s.getSet sh (F.CMP_Ln_UBG_A i)
  ubgL := s.getSet sh (F.CMP_Ln_UBG_L i)

/-- A slot is enabled: it exists, EN = 1, and W and H are not 0 (R95, R97). -/
def LayerCfg.enabled (c : LayerCfg) : Bool := c.typ != 0 && c.en && c.w != 0 && c.h != 0

/-- A layer takes part in composition: enabled in the active set and not dropped (R127). -/
def State.layerLive (s : State) (i : Nat) : Bool :=
  (s.layerCfg false i).enabled && !s.cmp.dropped.getLsbD i

/-- Columns of the window that lie in the array: first and one past the last (R98). -/
def LayerCfg.xSpan (c : LayerCfg) : Nat × Nat :=
  ((max 0 c.dx).toNat, (min 2048 (c.dx + c.w)).toNat)

/-- Rows of the window that lie in the array: first and one past the last (R98). -/
def LayerCfg.ySpan (c : LayerCfg) : Nat × Nat :=
  ((max 0 c.dy).toNat, (min 512 (c.dy + c.h)).toNat)

/-- Row `y` holds visible pixels of the window. -/
def LayerCfg.covers (c : LayerCfg) (y : Nat) : Bool :=
  c.ySpan.1 ≤ y && y < c.ySpan.2 && c.xSpan.1 < c.xSpan.2

/-- Bytes per pixel of a format (R101). -/
def bytesPerPixel (fmt : Nat) : Nat := if fmt ≤ 2 then 2 else if fmt ≤ 4 then 3 else 4

/-- Pixels per tile row (R69). -/
def pixelsPerRow (fmt : Nat) : Nat := if fmt ≤ 2 then 128 else if fmt ≤ 4 then 85 else 64

/-! ### Scaler registers -/

/-- What the registers of a scaler say (R141). -/
structure ScalerCfg where
  present : Bool
  en : Bool
  coefSel : Nat
  autoTaps : Bool
  vTaps : Nat
  layer : Nat
  iw : Nat
  ih : Nat
  hStep : Nat
  vStep : Nat
  hInit : Nat
  vInit : Nat
  grant : Nat
  deriving DecidableEq, Repr

/-- The configuration of scaler `n` in the active or the shadow set; a scaler without a grant is left
out (R131, R136). -/
def State.scalerCfg (s : State) (sh : Bool) (n : Nat) : ScalerCfg where
  present := s.get (F.SCL_SCn_GRANT_GRANT n) != 0
  en := s.getSet sh (F.SCL_SCn_CTRL_EN n) == 1
  coefSel := s.getSet sh (F.SCL_SCn_CTRL_COEF_SEL n)
  autoTaps := s.getSet sh (F.SCL_SCn_CTRL_AUTO_TAPS n) == 1
  vTaps := s.getSet sh (F.SCL_SCn_CTRL_V_TAPS n)
  layer := s.getSet sh (F.SCL_SCn_CTRL_LAYER n)
  iw := s.getSet sh (F.SCL_SCn_IN_IW n)
  ih := s.getSet sh (F.SCL_SCn_IN_IH n)
  hStep := s.getSet sh (F.SCL_SCn_HSTEP_STEP n)
  vStep := s.getSet sh (F.SCL_SCn_VSTEP_STEP n)
  hInit := s.getSet sh (F.SCL_SCn_INIT_H_INIT n)
  vInit := s.getSet sh (F.SCL_SCn_INIT_V_INIT n)
  grant := s.get (F.SCL_SCn_GRANT_GRANT n)

/-- A provided scaler is enabled and names the layer. -/
def ScalerCfg.serves (c : ScalerCfg) (i : Nat) : Bool := c.present && c.en && c.layer == i

/-- The scaler that serves layer `i` (R131).  DESIGN CHOICE (log entry 98): where two enabled scalers name it, the
lowest-numbered one. -/
def State.scalerOf (s : State) (sh : Bool) (i : Nat) : Option Nat :=
  if s.layerType i = 1 then (List.range 4).find? fun n => (s.scalerCfg sh n).serves i else none

/-- Granules a scaler needs with T vertical taps for a window of W pixels (R136). -/
def scalerNeed (t vStep w : Nat) : Nat := ((t + (vStep + 65535) / 65536) * 4 * w + 1023) / 1024

/-- The largest T′ of 2 to `t` whose need fits the grant (R137). -/
def fitTaps (vStep w grant : Nat) : Nat → Option Nat
  | 0 => none
  | 1 => none
  | t + 2 => if scalerNeed (t + 2) vStep w ≤ grant then some (t + 2) else fitTaps vStep w grant (t + 1)

/-- Vertical taps a scaler runs with for a window of W pixels; none = LB_SHORT (R136, R137). -/
def ScalerCfg.effTaps (c : ScalerCfg) (w : Nat) : Option Nat :=
  if scalerNeed c.vTaps c.vStep w ≤ c.grant then some c.vTaps
  else if c.autoTaps then fitTaps c.vStep w c.grant (c.vTaps - 1)
  else none

/-! ### Transfer tables (R102-R106) -/

/-- The condition of the rounding in R104: (v − 1/2) / 65,535 does not exceed the sRGB curve at i / 255,
where the curve is ((i / 255 + 0.055) / 1.055) to the power 12/5 above its linear part. -/
def srgbReaches (i v : Nat) : Bool :=
  v == 0 || decide ((2 * v - 1) ^ 5 * 269025 ^ 12 ≤ (1000 * i + 14025) ^ 12 * 131070 ^ 5)

/-- The largest v reached, looked for from bit `n - 1` down. -/
def srgbSearch (i : Nat) : Nat → Nat → Nat
  | 0, acc => acc
  | n + 1, acc => srgbSearch i n (if srgbReaches i (acc + 2 ^ n) then acc + 2 ^ n else acc)

/-- Entry i of a transfer table at reset: round(65,535 × f(i / 255)) with f the sRGB transfer curve
(R104); the curve is linear, i / 255 / 12.92, up to 0.04045. -/
def srgbEntry (i : Nat) : Nat :=
  if i ≤ 10 then (2 * 65535 * 100 * i + 255 * 1292) / (2 * 255 * 1292) else srgbSearch i 16 0

/-- What an unlisted key of the transfer tables reads as. -/
def ttDefault (k : Nat) : BitVec 16 := BitVec.ofNat 16 (srgbEntry (k % 256))

/-- Key of a transfer-table entry. -/
def ttKey (layer bank index : Nat) : Nat := 512 * layer + 256 * bank + index

/-- A transfer-table entry. -/
def State.ttEntry (s : State) (k : Nat) : Nat := (sparseGet ttDefault s.cmp.tt k).toNat

/-- A transfer-table entry is written; its parity is then good. -/
def State.ttWrite (s : State) (k v : Nat) : State :=
  { s with cmp := { s.cmp with
      tt := sparseSet ttDefault s.cmp.tt k (BitVec.ofNat 16 v),
      ttBad := s.cmp.ttBad.filter fun x => x != k } }

/-- A channel of 5 or 6 bits widened to 8 by bit replication (R102). -/
def widen5 (v : Nat) : Nat := v * 8 + v / 4
def widen6 (v : Nat) : Nat := v * 4 + v / 16

/-- The rounded 16-bit product of R107. -/
def mul16 (a b : Nat) : Nat :=
  let t := a * b + 32768
  (t + t / 65536) / 65536

/-- A weight as used: at most 65,536 (R103). -/
def weight (w : Nat) : Nat := min w 65536

/-- What a stored pixel carries before the tables: colour channels of 8 bits, or a luminance (R101). -/
inductive RawPixel where
  | colour (r g b a : Nat)
  | lum (l a : Nat)
  deriving DecidableEq, Repr

/-- The fields of a pixel, read as one little-endian integer (R101, R102). -/
def decodePixel (fmt p : Nat) : RawPixel :=
  match fmt with
  | 0 => .colour (widen5 (bitsOf p 15 11)) (widen6 (bitsOf p 10 5)) (widen5 (bitsOf p 4 0)) 65535
  | 1 => .colour (widen5 (bitsOf p 14 10)) (widen5 (bitsOf p 9 5)) (widen5 (bitsOf p 4 0))
      (if bitOf p 15 then 65535 else 0)
  | 2 => .lum (bitsOf p 15 0) 65535
  | 3 => .colour (bitsOf p 23 16) (bitsOf p 15 8) (bitsOf p 7 0) 65535
  | 4 => .colour (bitsOf p 7 0) (bitsOf p 15 8) (bitsOf p 23 16) 65535
  | 5 => .colour (bitsOf p 23 16) (bitsOf p 15 8) (bitsOf p 7 0) (bitsOf p 31 24 * 257)
  | 6 => .colour (bitsOf p 7 0) (bitsOf p 15 8) (bitsOf p 23 16) (bitsOf p 31 24 * 257)
  | _ => .lum (bitsOf p 15 0) (bitsOf p 31 16)

/-- Conversion of a pixel to (L_s, A); none if a table entry it reads fails parity (R102, R106). -/
def State.convert (s : State) (i : Nat) (c : LayerCfg) (p : Nat) : Option (Nat × Nat) :=
  match decodePixel c.format p with
  | .lum l a => some (l, a)
  | .colour r g b a =>
    let kr := ttKey i c.ttSel r
    let kg := ttKey i c.ttSel g
    let kb := ttKey i c.ttSel b
    if s.cmp.ttBad.contains kr || s.cmp.ttBad.contains kg || s.cmp.ttBad.contains kb then none
    else
      let sum := weight (s.get F.CMP_WR_W) * s.ttEntry kr + weight (s.get F.CMP_WG_W) * s.ttEntry kg +
        weight (s.get F.CMP_WB_W) * s.ttEntry kb + 32768
      some (min 65535 (sum / 65536), a)

/-! ### Pixels of a layer -/

/-- Why a layer pixel is not delivered. -/
inductive PixelFail where
  | tile | tt | coef
  deriving DecidableEq, Repr

/-- A layer pixel: its converted (L_s, A), or why it underruns. -/
abbrev PixelRes := Except PixelFail (Nat × Nat)

/-- The fetched tile of a layer's band. -/
def State.tileBuf (s : State) (i band tile : Nat) : Option (List Byte) :=
  match s.cmp.bufs.find? fun b => b.layer == i && b.band == band && b.tile == tile with
  | some b => b.bytes
  | none => none

/-- Surface pixel (x, y) of a layer, as fetched for a band (R69, R70). -/
def State.surfacePixel (s : State) (i band : Nat) (c : LayerCfg) (x y : Nat) : PixelRes :=
  let n := pixelsPerRow c.format
  match s.tileBuf i band (c.base + (y / 16) * c.wT + x / n) with
  | none => .error .tile
  | some bs =>
    let b := bytesPerPixel c.format
    match s.convert i c (leNat ((bs.drop (y % 16 * 256 + x % n * b)).take b)) with
    | some v => .ok v
    | none => .error .tt

/-- What an unlisted key of the scaler coefficients reads as: the reset tables of R134. -/
def coefDefault (k : Nat) : BitVec 12 :=
  let tap := k % 8
  let phase := k / 8 % 64
  let vertical := k / 512 % 2 == 1
  let first := if vertical then 0 else 3
  if tap = first then BitVec.ofNat 12 (1024 - 16 * phase)
  else if tap = first + 1 then BitVec.ofNat 12 (16 * phase)
  else 0

/-- Key of a scaler coefficient. -/
def coefKey (n bank dir phase tap : Nat) : Nat := ((n * 2 + bank) * 2 + dir) * 512 + phase * 8 + tap

/-- A scaler coefficient, two's complement. -/
def State.coefEntry (s : State) (k : Nat) : Int := (sparseGet coefDefault s.cmp.coef k).toInt

/-- A scaler coefficient is written; its parity is then good. -/
def State.coefWrite (s : State) (k v : Nat) : State :=
  { s with cmp := { s.cmp with
      coef := sparseSet coefDefault s.cmp.coef k (BitVec.ofNat 12 v),
      coefBad := s.cmp.coefBad.filter fun x => x != k } }

/-- The result of a filter sum (R133). -/
def filterOut (sum : Int) : Nat := (clampInt ((sum + 512) / 1024) 0 65535).toNat

/-- A filter over samples and their coefficients, for L and A alike; a sample or coefficient that fails makes the
output fail.  DESIGN CHOICE (log entry 70): the pixels of a scaled layer that lie in a failed tile, or that meet a
failed table entry (R110), are the output pixels any of whose taps reads it; and of several failures of one output pixel
the first in tap order counts, so a coefficient parity behind a failed sample is not reported (R134). -/
def filterTaps : List (PixelRes × Except PixelFail Int) → Except PixelFail (Int × Int)
  | [] => .ok (0, 0)
  | (p, c) :: t => p.bind fun v => c.bind fun k => (filterTaps t).map fun sum => (sum.1 + k * v.1, sum.2 + k * v.2)

/-- A filtered pixel. -/
def filterPixel (l : List (PixelRes × Except PixelFail Int)) : PixelRes :=
  match filterTaps l with
  | .ok r => .ok (filterOut r.1, filterOut r.2)
  | .error e => .error e

/-- A source coordinate replaced by the nearest edge of the source (R132). -/
def edge (i : Int) (n : Nat) : Nat := (clampInt i 0 ((n : Int) - 1)).toNat

/-- A coefficient as the filter reads it; one that fails parity makes the output fail (R134). -/
def State.coefRead (s : State) (k : Nat) : Except PixelFail Int :=
  if s.cmp.coefBad.contains k then .error .coef else .ok (s.coefEntry k)

/-- The horizontal filter at output column x′ for source row `row` (R132, R133). -/
def State.hFilter (s : State) (i band : Nat) (c : LayerCfg) (n : Nat) (sc : ScalerCfg) (xo : Nat) (row : Int) :
    PixelRes :=
  let p := sc.hInit + xo * sc.hStep
  let col := p / 65536
  let phase := p / 1024 % 64
  filterPixel ((List.range 8).map fun (k : Nat) =>
    (s.surfacePixel i band c (c.sx + edge ((col : Int) - 3 + (k : Int)) sc.iw) (c.sy + edge row sc.ih),
     s.coefRead (coefKey n sc.coefSel 0 phase k)))

/-- A sum of coefficients. -/
def sumCoefs : List (Except PixelFail Int) → Except PixelFail Int
  | [] => .ok 0
  | c :: t =>
    match c, sumCoefs t with
    | .ok a, .ok b => .ok (a + b)
    | .error e, _ => .error e
    | _, .error e => .error e

/-- The vertical coefficients as folded onto T′ taps from tap a on (R137): tap, coefficient. -/
def State.vCoefs (s : State) (n : Nat) (sc : ScalerCfg) (t phase : Nat) : List (Nat × Except PixelFail Int) :=
  let a := (sc.vTaps - t) / 2
  let c := fun k => s.coefRead (coefKey n sc.coefSel 1 phase k)
  (List.range t).map fun j =>
    let k := a + j
    let lower := if j = 0 then (List.range a).map c else []
    let upper := if j + 1 = t then (List.range (sc.vTaps - (a + t))).map fun u => c (a + t + u) else []
    (k, sumCoefs (c k :: lower ++ upper))

/-- A pixel of a scaled layer (R132, R133, R137). -/
def State.scaledPixel (s : State) (i band : Nat) (c : LayerCfg) (n : Nat) (sc : ScalerCfg) (xo yo : Nat) :
    PixelRes :=
  let t := (sc.effTaps c.w).getD sc.vTaps
  let q := sc.vInit + yo * sc.vStep
  let row := q / 65536
  let phase := q / 1024 % 64
  let o := (sc.vTaps - 1) / 2
  filterPixel ((s.vCoefs n sc t phase).map fun kc =>
    (s.hFilter i band c n sc xo ((row : Int) - o + kc.1), kc.2))

/-- The pixel a layer delivers at array pixel (x, y) of its window (R99, R131). -/
def State.layerPixel (s : State) (i : Nat) (c : LayerCfg) (x y : Nat) : PixelRes :=
  let xo := ((x : Int) - c.dx).toNat
  let yo := ((y : Int) - c.dy).toNat
  match s.scalerOf false i with
  | some n => s.scaledPixel i (y / 16) c n (s.scalerCfg false n) xo yo
  | none => s.surfacePixel i (y / 16) c (c.sx + xo) (c.sy + yo)

/-! ### The tiles a band touches (R77, R109) -/

/-- Source columns or rows that one output position reads: first and last. -/
def tapSpan (pos taps o size : Nat) : Nat × Nat :=
  (edge ((pos : Int) - o) size, edge ((pos : Int) - o + taps - 1) size)

/-- First and last source column read for the visible pixels of a layer. -/
def State.srcCols (s : State) (i : Nat) (c : LayerCfg) : Nat × Nat :=
  let x0 := (c.xSpan.1 - c.dx).toNat
  let x1 := (c.xSpan.2 - 1 - c.dx).toNat
  match s.scalerOf false i with
  | some n =>
    let sc := s.scalerCfg false n
    (c.sx + (tapSpan ((sc.hInit + x0 * sc.hStep) / 65536) 8 3 sc.iw).1,
     c.sx + (tapSpan ((sc.hInit + x1 * sc.hStep) / 65536) 8 3 sc.iw).2)
  | none => (c.sx + x0, c.sx + x1)

/-- First and last source row read for output rows `y0` to `y1` of a layer: a scaler with reduced taps reads the rows of
the taps that it keeps, T′ from a on (R132, R137). -/
def State.srcRows (s : State) (i : Nat) (c : LayerCfg) (y0 y1 : Nat) : Nat × Nat :=
  let r0 := ((y0 : Int) - c.dy).toNat
  let r1 := ((y1 : Int) - c.dy).toNat
  match s.scalerOf false i with
  | some n =>
    let sc := s.scalerCfg false n
    let t := (sc.effTaps c.w).getD sc.vTaps
    let o := (sc.vTaps - 1) / 2 - (sc.vTaps - t) / 2
    (c.sy + (tapSpan ((sc.vInit + r0 * sc.vStep) / 65536) t o sc.ih).1,
     c.sy + (tapSpan ((sc.vInit + r1 * sc.vStep) / 65536) t o sc.ih).2)
  | none => (c.sy + r0, c.sy + r1)

/-- Tiles of a layer that hold visible pixels of band `b`, in surface order. -/
def State.bandTiles (s : State) (i b : Nat) : List FetchTile :=
  let c := s.layerCfg false i
  if !s.layerLive i then []
  else
    let y0 := max (16 * b) c.ySpan.1
    let y1 := min (16 * b + 16) c.ySpan.2
    if y1 ≤ y0 || c.xSpan.2 ≤ c.xSpan.1 then []
    else
      let n := pixelsPerRow c.format
      let cols := s.srcCols i c
      let rows := s.srcRows i c y0 (y1 - 1)
      (List.range (rows.2 / 16 + 1 - rows.1 / 16)).flatMap fun r =>
        (List.range (cols.2 / n + 1 - cols.1 / n)).map fun k =>
          { layer := i, band := b, tile := c.base + (rows.1 / 16 + r) * c.wT + (cols.1 / n + k) }

/-! ### A row of a layer, and blending -/

/-- What composing one row of one layer gives. -/
structure LayerRow where
  /-- (L_s, A) per visible pixel, left to right. -/
  vals : List (Nat × Nat)
  /-- Value most recently delivered. -/
  last : Option (Nat × Nat)
  lateHit : Bool
  tileHit : Bool
  ttHit : Bool
  coefHit : Bool
  deriving DecidableEq, Repr

/-- The pixels of a layer row from column `x` on, `n` of them, of which the first `limit` are
delivered by the deadline (R110). -/
def State.layerRowFrom (s : State) (i : Nat) (c : LayerCfg) (y x : Nat) (last : Option (Nat × Nat)) :
    Nat → Nat → LayerRow
  | 0, _ => { vals := [], last := last, lateHit := false, tileHit := false, ttHit := false, coefHit := false }
  | n + 1, limit =>
    let under := if c.symbol then (c.ubgL, c.ubgA) else last.getD (c.ubgL, c.ubgA)
    if limit = 0 then
      let r := s.layerRowFrom i c y (x + 1) last n 0
      { r with vals := under :: r.vals, lateHit := true }
    else
      match s.layerPixel i c x y with
      | .ok v =>
        let r := s.layerRowFrom i c y (x + 1) (some v) n (limit - 1)
        { r with vals := v :: r.vals }
      | .error e =>
        let r := s.layerRowFrom i c y (x + 1) last n (limit - 1)
        { r with
          vals := under :: r.vals, tileHit := r.tileHit || e == .tile, ttHit := r.ttHit || e == .tt,
          coefHit := r.coefHit || e == .coef }

/-- One layer over the accumulator (R108). -/
def blend (c : LayerCfg) (acc : Nat) (v : Nat × Nat) : Nat :=
  let alpha := mul16 v.2 c.la
  let src := if c.premul then mul16 v.1 c.la else mul16 v.1 alpha
  if c.additive then min 65535 (acc + src)
  else min 65535 (src + mul16 acc (65535 - alpha))

/-- One layer row over the accumulator row, from column `x0` on. -/
def blendRow (c : LayerCfg) (acc : List Nat) (x0 : Nat) (vals : List (Nat × Nat)) : List Nat :=
  acc.take x0 ++ List.zipWith (blend c) (acc.drop x0) vals ++ acc.drop (x0 + vals.length)

end Sys2Proof.Machine
end

