-- ==== Sys2Proof/Machine/Compositor.lean ====
section
/-!
DEFINITION. Band fetch, row composition, underruns and the data ports of the transfer tables and the
scaler coefficients (spec/04_layers_blending.md, R134; the OUT tap of R223).
-/

namespace Sys2Proof.Machine

/-- The line of the raster as the frame under composition counts it: lines of the blanking count back
from line 0 of the next frame (R28). -/
def State.fetchLine (s : State) : Int :=
  if 512 ≤ s.ras.line then (s.ras.line : Int) - (s.frameLines : Nat) else s.ras.line

/-- Composition is under way for the rows that the current line counts towards: not for the rows of a
lead-in frame (R513), and in the blanking only after the transfer of the commit instant (R121). -/
def State.composes (s : State) : Bool :=
  s.coreRun && s.ras.running && (if s.ras.line < 512 then !s.ras.leadIn else s.ras.blankServed)

/-! ### Fetch (R77-R79, R109) -/

/-- BAND_FETCH_START: in the first cycle of line 16b − 24 the fetch of band b starts for every enabled layer with
visible pixels in it, in slot order (R109).  With band 0 the composition of a new frame begins. -/
def execBandFetchStart (s : State) : Host.Outcome State Fault Refusal :=
  .next (if s.composes && s.lineCycle == 0 && (s.fetchLine + 24) % 16 == 0 && 0 ≤ s.fetchLine + 24 && s.fetchLine + 24 < 512 then
    let b := ((s.fetchLine + 24) / 16).toNat
    if b = 0 then
      if s.cmp.forFrame ≠ some (s.ras.frame + 1) then
        { s with
          cmp := { s.cmp with
            todo := (List.range 12).flatMap fun i => s.bandTiles i 0, bufs := [], bands := 1, nextRow := 0, rows := [],
            last := [], forFrame := some (s.ras.frame + 1) }
          hlt := { s.hlt with outAcc := [] } }
      else s
    else if s.cmp.bands = b then
      { s with cmp := { s.cmp with
          todo := s.cmp.todo ++ (List.range 12).flatMap (fun i => s.bandTiles i b), bands := b + 1 } }
    else s
  else s)

/-- Upsets of stored bytes of a tile: offset, bits that flipped. -/
def State.flipBytes (s : State) (t : Nat) : List (Nat × Byte) → State
  | [] => s
  | (o, m) :: r =>
    (s.lmWrite (tileAddr t + o % 4096) [s.lmByte (tileAddr t + o % 4096) ^^^ m]).flipBytes t r

/-- State of a tile as the fetch meets it: a tile of a bank that is off counts as EMPTY (R86). -/
def State.tileUse (s : State) (t : Nat) : TileState :=
  if t < tileCount && s.tileOn t then (s.dirEntry t).st else .empty

/-- A tile is fetched: read in full and compared with its directory CRC, or not read at all (R77-R79);
none where the layer underruns over it. -/
def State.fetchTile (s : State) (t : Nat) : Option (List Byte) × State :=
  match s.tileUse t with
  | .sealed =>
    if s.tileCrc t = (s.dirEntry t).crc then (some (s.lmBytes (tileAddr t) 4096), s)
    else
      (none, ((((s.setDir t { s.dirEntry t with st := .bad }).inc F.LMC_CNT0_CRC_FAIL).irq
        Irq.tileCrc).raiseI Code.LMC_TILE_CRC { init := 3, access := 3, addr := tileAddr t }))
  | .bad => (none, s.inc F.LMC_CNT2_BAD_USE)
  | _ => (none, (s.inc F.LMC_CNT0_UNSEALED_USE).raise Code.LMC_UNSEALED_USE (tileAddr t))

/-- The band whose row has its composition deadline in the current line (R109): a tile of it that is read now is read
after that deadline. -/
def State.deadlineBand (s : State) : Option Nat :=
  let y := s.fetchLine + 2
  if 0 ≤ y ∧ y < 512 then some (y.toNat / 16) else none

/-- TILE_CRC_CHECK: the next tile of the fetch has been read; upsets of its stored bytes and the
reading of its directory entry come from the memory itself (R71, R77-R79). -/
def execTileCrcCheck (upsets : List (Nat × Byte)) (dirRead : DirRead) (s : State) : Host.Outcome State Fault Refusal :=
  .next (match s.cmp.todo with
    | [] => s
    | j :: rest =>
      if !s.coreRun then s
      else
        let s1 := (s.afterSeal [j.tile]).flipBytes j.tile upsets
        let s2 := s1.dirReadEffect j.tile dirRead { init := 3, access := 3, addr := tileAddr j.tile }
        let r := s2.fetchTile j.tile
        { r.2 with cmp := { r.2.cmp with
            todo := rest,
            late := if s.deadlineBand = some j.band then j.layer :: s.cmp.late else s.cmp.late,
            bufs := r.2.cmp.bufs ++ [{ layer := j.layer, band := j.band, tile := j.tile, bytes := r.1 }] } })

/-! ### The OUT tap (R223) -/

/-- Region `n` exists in the image (R222). -/
def State.regionOn (s : State) (n : Nat) : Bool := n < s.get F.HLT_SIG_CFG_N_REG

/-- The rectangle of a region, from the active set: X0, Y0, X1, Y1 (R222). -/
def State.regionRect (s : State) (n : Nat) : Nat × Nat × Nat × Nat :=
  (s.get (F.HLT_Rn_P0_X0 n), s.get (F.HLT_Rn_P0_Y0 n), s.get (F.HLT_Rn_P1_X1 n), s.get (F.HLT_Rn_P1_Y1 n))

/-- The rectangle is valid (R222). -/
def rectOk (r : Nat × Nat × Nat × Nat) : Bool :=
  r.1 ≤ r.2.2.1 && r.2.1 ≤ r.2.2.2 && r.2.2.1 ≤ 2047 && r.2.2.2 ≤ 511

/-- INVALID of each region's STATUS follows the rectangle of its active set (R222). -/
def State.sigInvalid (s : State) : State :=
  forUpto 32 (fun n s =>
    if s.regionOn n then s.putB (F.HLT_Rn_STATUS_INVALID n) (!rectOk (s.regionRect n)) else s) s

/-- What a tap's running CRC starts from. -/
def accDefault (_ : Nat) : Word := 0xFFFFFFFF#32

/-- Values of a row within a rectangle enter a running CRC, two bytes each, least significant first
(R223). -/
def tapRow (acc : Word) (r : Nat × Nat × Nat × Nat) (row : List Nat) : Word :=
  crc32Run acc (((row.drop r.1).take (r.2.2.1 + 1 - r.1)).flatMap fun v => natBytes 2 v)

/-- A composed row enters the OUT results of the regions it crosses (R223). -/
def State.outTap (s : State) (y : Nat) (row : List Nat) : State :=
  forUpto 32 (fun n s =>
    let r := s.regionRect n
    if s.regionOn n && s.flag (F.HLT_Rn_CTRL_TAP_OUT n) && rectOk r && r.2.1 ≤ y && y ≤ r.2.2.2 then
      { s with hlt := { s.hlt with
          outAcc := sparseSet accDefault s.hlt.outAcc n
            (tapRow (sparseGet accDefault s.hlt.outAcc n) r row) } }
    else s) s

/-! ### Composition (R108-R112) -/

/-- The layer has been released for the band: none of its tiles is still to be fetched (R77). -/
def State.released (s : State) (i b : Nat) : Bool :=
  b < s.cmp.bands && !(s.cmp.todo.any fun j => j.layer == i && j.band == b)

/-- The layers that cover row `y`, in slot order. -/
def State.layersOf (s : State) (y : Nat) : List Nat :=
  (List.range 12).filter fun i => s.layerLive i && (s.layerCfg false i).covers y

/-- The counts and reports of a layer's underruns in one row (R112).  DESIGN CHOICE (log entry 70): a row that meets
several failing table entries of a layer raises FLT_CMP_TT_PARITY once for that layer (R106), and a row that underran
only through a coefficient parity (R134) does not count in TILE_ROWS, which names a tile and a table parity;
FLT_SCL_COEF_PARITY, too, is raised once for the layer row, however many output pixels fail. -/
def State.underrunReport (s : State) (i : Nat) (r : LayerRow) : State :=
  let s1 := if r.lateHit then
      let f := s.get F.CMP_URUN_FLAGS_LAYER
      ((((s.inc (F.CMP_Ln_URUN_LATE_ROWS i)).irq Irq.underrun).put F.CMP_URUN_FLAGS_LAYER
        (if bitOf f i then f else f + 2 ^ i))).raise Code.CMP_LAYER_URUN 0
    else s
  let s2 := if r.tileHit || r.ttHit then s1.inc (F.CMP_Ln_URUN_TILE_ROWS i) else s1
  let s3 := if r.ttHit then s2.raise Code.CMP_TT_PARITY 0 else s2
  if r.coefHit then s3.raise Code.SCL_COEF_PARITY 0 else s3

/-- One layer of a row over the accumulator row; the layer has delivered `limit` of its pixels by the
deadline (R108, R110). -/
def State.composeLayer (s : State) (y i limit : Nat) (acc : List Nat) : List Nat × State :=
  let c := s.layerCfg false i
  let x0 := c.xSpan.1
  let n := c.xSpan.2 - x0
  let last := (s.cmp.last.find? fun e => e.1 == i).map fun e => e.2
  let r := s.layerRowFrom i c y x0 last n limit
  let s1 := s.underrunReport i r
  let keep := s1.cmp.last.filter fun e => e.1 != i
  let s2 := { s1 with cmp := { s1.cmp with
    last := match r.last with
      | some v => keep ++ [(i, v)]
      | none => keep } }
  (blendRow c acc x0 r.vals, s2)

/-- The layers of a row in slot order; each has delivered the number of pixels that `limit` gives it. -/
def State.composeLayers (s : State) (y : Nat) (limit : Nat → Nat) : List Nat → List Nat → List Nat × State
  | [], acc => (acc, s)
  | i :: is, acc =>
    let r := s.composeLayer y i (limit i) acc
    r.2.composeLayers y limit is r.1

/-- Row `y` is composed, enters the OUT tap and is handed to LUM; the tiles of a band are dropped
after its last row (R108, R109, R223). -/
def State.composeRow (s : State) (y : Nat) (limit : Nat → Nat) : State :=
  let r := s.composeLayers y limit (s.layersOf y) (List.replicate 2048 (s.get F.CMP_BG_BG))
  let s1 := r.2.outTap y r.1
  { s1 with cmp := { s1.cmp with
      rows := s1.cmp.rows ++ [(y, r.1)], nextRow := y + 1,
      bufs := if y % 16 = 15 then s1.cmp.bufs.filter fun b => y / 16 < b.band else s1.cmp.bufs } }

/-- Parity upsets of transfer-table entries and coefficients, by key. -/
def State.parityUpsets (s : State) (tt coef : List Nat) : State :=
  { s with cmp := { s.cmp with ttBad := s.cmp.ttBad ++ tt, coefBad := s.cmp.coefBad ++ coef } }

/-- A row can be composed: every layer that covers it has been released (R109). -/
def State.rowReleased (s : State) (y : Nat) : Bool :=
  (s.layersOf y).all fun i => s.released i (y / 16)

/-- The current line lies between the first line in which row `y` may be composed and its composition deadline: not
before line y − 24, and before line y − 2, whose first cycle is the deadline (R28, R109, R111). -/
def State.rowTime (s : State) (y : Nat) : Bool :=
  decide ((y : Int) - 24 ≤ s.fetchLine) && decide (s.fetchLine < (y : Int) - 2)

/-- ROW_COMPOSITION: the next row is blended from its released layers and handed to LUM.  Parity upsets
of the table entries and coefficients read come from the memories themselves (R106, R134). -/
def execRowComposition (ttUpsets coefUpsets : List Nat) (s : State) : Host.Outcome State Fault Refusal :=
  .next (if s.composes && s.cmp.nextRow < 512 && s.cmp.nextRow / 16 < s.cmp.bands && s.rowTime s.cmp.nextRow &&
      s.rowReleased s.cmp.nextRow then
    (s.parityUpsets ttUpsets coefUpsets).composeRow s.cmp.nextRow (fun _ => 2048) else s)

/-- At the composition deadline, row `y` underruns late: each layer has delivered the given number of
its pixels, none if its band had not been released when the deadline came (R110, R111, R113). -/
def State.composeLate (s : State) (y : Nat) (delivered : List Nat) : State :=
  s.composeRow y fun i => if s.released i (y / 16) && !s.cmp.late.contains i then delivered.getD i 0 else 0

/-- A row is skipped (R29, R113). -/
def State.skipRow (s : State) : State :=
  let s1 := (((s.inc F.CMP_OUT_CNT_OUT_URUN).irq Irq.underrun).put F.CMP_URUN_FLAGS_OUT 1).raise Code.CMP_OUT_URUN 0
  if s1.cmp.skipRun + 1 = 512 then
    { s1 with cmp := { s1.cmp with skipRun := 0, stallDue := s1.cmp.stallDue + 1 } }
  else { s1 with cmp := { s1.cmp with skipRun := s1.cmp.skipRun + 1 } }

/-- OUT_STALL: 512 consecutive rows have been skipped (R113). -/
def execOutStall (s : State) : Host.Outcome State Fault Refusal :=
  .next (if s.coreRun && s.cmp.stallDue != 0 then
    { (s.inc F.CMP_OUT_CNT_STALLS).raise Code.CMP_OUT_STALL 0 with
      cmp := { s.cmp with stallDue := s.cmp.stallDue - 1 } } else s)

/-! ### Data ports of the tables (R105, R134) -/

/-- The slot named by CMP_TT_ADDR has tables. -/
def State.ttInRange (s : State) : Bool :=
  s.get F.CMP_TT_ADDR_LAYER < 12 && s.layerType (s.get F.CMP_TT_ADDR_LAYER) != 0

/-- Key of the entry that CMP_TT_ADDR names. -/
def State.ttAddrKey (s : State) : Nat :=
  ttKey (s.get F.CMP_TT_ADDR_LAYER) (s.get F.CMP_TT_ADDR_BANK) (s.get F.CMP_TT_ADDR_INDEX)

/-- INDEX increments after an access if INC = 1 (R105). -/
def State.ttInc (s : State) : State :=
  if s.flag F.CMP_TT_ADDR_INC then s.put F.CMP_TT_ADDR_INDEX ((s.get F.CMP_TT_ADDR_INDEX + 1) % 256) else s

/-- A read of CMP_TT_DATA: its value and its side effect (R105). -/
def State.ttDataRead (s : State) : Word × State :=
  if s.ttInRange then (BitVec.ofNat 32 (s.ttEntry s.ttAddrKey), s.ttInc)
  else (0, (s.put F.CMP_TT_STATUS_RANGE 1).ttInc)

/-- A write of CMP_TT_DATA (R105). -/
def State.ttDataWrite (s : State) (v : Word) : State :=
  if !s.ttInRange then (s.put F.CMP_TT_STATUS_RANGE 1).ttInc
  else if s.get (F.CMP_Ln_CTRL_TT_SEL (s.get F.CMP_TT_ADDR_LAYER)) = s.get F.CMP_TT_ADDR_BANK then
    (s.put F.CMP_TT_STATUS_ACTIVE_WRITE 1).ttInc
  else (s.ttWrite s.ttAddrKey (wordGet v 15 0)).ttInc

/-- CMP_TT_DATA_READ (R105). -/
def execCmpTtDataRead (i : Initiator) (s : State) : Host.Outcome State Fault Refusal :=
  .next (s.portRead i A.CMP_TT_DATA State.ttDataRead)

/-- CMP_TT_DATA_WRITE (R105). -/
def execCmpTtDataWrite (i : Initiator) (v : Word) (s : State) : Host.Outcome State Fault Refusal :=
  .next (s.portWrite i A.CMP_TT_DATA fun s => s.ttDataWrite v)

/-- The scaler named by SCL_COEF_ADDR is provided. -/
def State.coefInRange (s : State) : Bool := (s.scalerCfg false (s.get F.SCL_COEF_ADDR_SCALER)).present

/-- Key of the coefficient that SCL_COEF_ADDR names. -/
def State.coefAddrKey (s : State) : Nat :=
  coefKey (s.get F.SCL_COEF_ADDR_SCALER) (s.get F.SCL_COEF_ADDR_BANK) (s.get F.SCL_COEF_ADDR_DIR)
    (s.get F.SCL_COEF_ADDR_PHASE) (s.get F.SCL_COEF_ADDR_TAP)

/-- TAP, then PHASE, increments after an access if INC = 1, from (63, 7) to (0, 0) (R140). -/
def State.coefInc (s : State) : State :=
  if s.flag F.SCL_COEF_ADDR_INC then
    let n := (s.get F.SCL_COEF_ADDR_PHASE * 8 + s.get F.SCL_COEF_ADDR_TAP + 1) % 512
    (s.put F.SCL_COEF_ADDR_TAP (n % 8)).put F.SCL_COEF_ADDR_PHASE (n / 8)
  else s

/-- A read of SCL_COEF_DATA: its value and its side effect (R134). -/
def State.coefDataRead (s : State) : Word × State :=
  if s.coefInRange then ((sparseGet coefDefault s.cmp.coef s.coefAddrKey).setWidth 32, s.coefInc)
  else (0, (s.put F.SCL_COEF_STATUS_RANGE 1).coefInc)

/-- A write of SCL_COEF_DATA (R134). -/
def State.coefDataWrite (s : State) (v : Word) : State :=
  if !s.coefInRange then (s.put F.SCL_COEF_STATUS_RANGE 1).coefInc
  else if s.get (F.SCL_SCn_CTRL_COEF_SEL (s.get F.SCL_COEF_ADDR_SCALER)) = s.get F.SCL_COEF_ADDR_BANK then
    (s.put F.SCL_COEF_STATUS_ACTIVE_WRITE 1).coefInc
  else (s.coefWrite s.coefAddrKey (wordGet v 11 0)).coefInc

/-- SCL_COEF_DATA_READ (R134). -/
def execSclCoefDataRead (i : Initiator) (s : State) : Host.Outcome State Fault Refusal :=
  .next (s.portRead i A.SCL_COEF_DATA State.coefDataRead)

/-- SCL_COEF_DATA_WRITE (R134). -/
def execSclCoefDataWrite (i : Initiator) (v : Word) (s : State) : Host.Outcome State Fault Refusal :=
  .next (s.portWrite i A.SCL_COEF_DATA fun s => s.coefDataWrite v)

end Sys2Proof.Machine
end

