-- ==== Sys2Proof/Machine/Mask.lean ====
section
/-!
DEFINITION. Object masks: lists, rasterisation, epochs, passes and mask writes
(spec/06_object_masks.md).
-/

namespace Sys2Proof.Machine

/-! ### Lists (R142-R145) -/

/-- An object from its four words (R143). -/
def maskObj (a b c d : Word) : MaskObj where
  x0 := toSigned 16 (wordGet a 15 0)
  x1 := toSigned 16 (wordGet a 31 16)
  y0 := toSigned 16 (wordGet b 15 0)
  y1 := toSigned 16 (wordGet b 31 16)
  el := wordGet c 7 0
  er := wordGet c 15 8
  et := wordGet c 23 16
  eb := wordGet c 31 24
  prio := wordGet d 5 4
  level := wordGet d 2 0

/-- The objects of a list's words after its header; a part of fewer than four words is no object. -/
def maskObjs : List Word → List MaskObj
  | a :: b :: c :: d :: t => maskObj a b c d :: maskObjs t
  | _ => []

/-- The object's core has a left and right, a top and bottom in order (R144). -/
def MaskObj.ordered (o : MaskObj) : Bool := decide (o.x0 ≤ o.x1) && decide (o.y0 ≤ o.y1)

/-- COUNT and GEN of a list's header word (R142). -/
def listCount (w : Word) : Nat := wordGet w 14 8
def listGen (w : Word) : Nat := wordGet w 7 0

/-- The REASON of R144 and the object it names; 0 = accepted. -/
def State.listCheck (s : State) (ws : List Word) : Nat × Nat :=
  if s.post then (1, 0)
  else
    match ws with
    | [] => (2, 0)
    | h :: t =>
      if 64 < listCount h ∨ t.length ≠ 4 * listCount h then (2, 0)
      else
        match (maskObjs t).findIdx? fun o => !o.ordered with
        | some i => (3, i)
        | none =>
          let d := (listGen h + 256 - s.get F.MSK_LIST_STATUS_LAST_GEN) % 256
          if s.flag F.MSK_LIST_STATUS_GEN_VALID && d == 0 then (4, 0)
          else if s.flag F.MSK_LIST_STATUS_GEN_VALID && 128 ≤ d then (5, 0)
          else (0, 0)

/-- A list is rejected: it changes nothing but its result and its count (R144).  DESIGN CHOICE (log entry 76): OBJ, which
the spec gives for GEOMETRY only, is 0 after an acceptance and after any other rejection. -/
def State.listReject (s : State) (reason obj : Nat) (info : FaultInfo) : State :=
  let s1 := ((s.put F.MSK_LIST_STATUS_RESULT 2).put F.MSK_LIST_STATUS_REASON reason).put
    F.MSK_LIST_STATUS_OBJ obj
  let s2 := if reason = 4 then s1.inc F.MSK_CNT2_DUPLICATE else s1.inc F.MSK_CNT0_REJECTED
  if reason = 2 ∨ reason = 3 then s2.raiseI Code.MSK_LIST_REJ info
  else if reason = 5 then s2.raiseI Code.MSK_LIST_STALE info
  else s2

/-- A list is accepted: it becomes the newest list (R145). -/
def State.listAccept (s : State) (h : Word) (t : List Word) : State :=
  let s1 := (((s.put F.MSK_LIST_STATUS_RESULT 1).put F.MSK_LIST_STATUS_REASON 0).put
    F.MSK_LIST_STATUS_OBJ 0).put F.MSK_LIST_STATUS_LAST_GEN (listGen h)
  let s2 := (s1.put F.MSK_LIST_STATUS_GEN_VALID 1).inc F.MSK_CNT0_ACCEPTED
  { s2 with msk := { s2.msk with waiting := some (maskObjs t, listGen h), stale := false, gotList := true } }

/-- A list's words are checked and the list is accepted or rejected (R142-R145). -/
def State.listSubmit (s : State) (ws : List Word) (info : FaultInfo) : State :=
  let r := s.listCheck ws
  if r.1 = 0 then
    match ws with
    | h :: t => s.listAccept h t
    | [] => s
  else s.listReject r.1 r.2 info

/-- The write of MSK_SUBMIT: LEN words of the staging area; a LEN of 0 or above 257 is rejected with
LENGTH (R142, R164). -/
def State.mskSubmit (s : State) (v : Word) (info : FaultInfo) : State :=
  let n := wordGet v 8 0
  s.listSubmit (if 257 < n then [] else (List.range n).map fun i => s.reg (A.MSK_STAGEn i)) info

/-- MSK_SUBMIT (R142). -/
def execMskSubmit (i : Initiator) (v : Word) (s : State) : Host.Outcome State Fault Refusal :=
  .next (s.portWrite i A.MSK_SUBMIT fun s => s.mskSubmit v { init := initNo i, access := writeKind i })

/-! ### Rasterisation (R146-R148) -/

/-- Distance of a coordinate from a core, and the width of the slipface on that side (R146). -/
def slipSide (x lo hi : Int) (wLo wHi : Nat) : Nat × Nat :=
  if x < lo then ((lo - x).toNat, wLo) else if hi < x then ((x - hi).toNat, wHi) else (0, wHi)

/-- Steps by which a slipface of width `e` has lowered the level at distance `d` (R146). -/
def slipStep (level d e : Nat) : Nat := if e < d then 8 else d * (level + 1) / (e + 1)

/-- Level that an object gives the pixel at array coordinates (x, y); none where it does not cover it.
The core is moved by the origin first (R146, R148). -/
def MaskObj.levelAt (o : MaskObj) (ox oy x y : Int) : Option Nat :=
  if !o.ordered then none
  else
    let h := slipSide x (o.x0 - ox) (o.x1 - ox) o.el o.er
    let v := slipSide y (o.y0 - oy) (o.y1 - oy) o.et o.eb
    if o.level = 0 then (if h.1 = 0 ∧ v.1 = 0 then some 0 else none)
    else
      let d := max (slipStep o.level h.1 h.2) (slipStep o.level v.1 v.2)
      if d < o.level then some (o.level - d) else none

/-- The better of two coverings: higher priority, then higher level (R147). -/
def betterCover (a b : Nat × Nat) : Nat × Nat :=
  if a.1 < b.1 ∨ (a.1 = b.1 ∧ a.2 < b.2) then b else a

/-- The mask level of a pixel under a list (R147). -/
def maskLevel (os : List MaskObj) (ox oy x y : Int) : Nat :=
  let best := os.foldl (fun (m : Option (Nat × Nat)) o =>
    match o.levelAt ox oy x y with
    | none => m
    | some l =>
      match m with
      | none => some (o.prio, l)
      | some p => some (betterCover p (o.prio, l))) none
  match best with
  | none => 0
  | some p => p.2

/-- A row of levels of the list in use, under the active origin (R147, R148).  DESIGN CHOICE (log entry 102): a pass that
runs across a commit instant takes its later rows under the origin that the commit brings. -/
def State.maskRow (s : State) (y : Nat) : Row :=
  let ox := toSigned 16 (s.get F.MSK_ORIGIN_OX)
  let oy := toSigned 16 (s.get F.MSK_ORIGIN_OY)
  (List.range 2048).map fun (x : Nat) => maskLevel s.msk.useObjs ox oy (x : Int) (y : Int)

/-! ### Images and sets (R151) -/

/-- A row of LATCHED and of TARGET. -/
def State.latchedRow (s : State) (y : Nat) : Row := sparseGet darkRow s.msk.latched y
def State.targetRow (s : State) (y : Nat) : Row := sparseGet darkRow s.msk.target y

/-- A row of LATCHED or of TARGET changes. -/
def State.setLatched (s : State) (y : Nat) (r : Row) : State :=
  { s with msk := { s.msk with latched := sparseSet darkRow s.msk.latched y r } }
def State.setTarget (s : State) (y : Nat) (r : Row) : State :=
  { s with msk := { s.msk with target := sparseSet darkRow s.msk.target y r } }

/-- A row number enters a rising list. -/
def insertRow (y : Nat) : List Nat → List Nat
  | [] => [y]
  | z :: t => if y < z then y :: z :: t else if y = z then z :: t else z :: insertRow y t

/-- A row number leaves a list. -/
def removeRow (y : Nat) (l : List Nat) : List Nat := l.filter fun z => z != y

/-- The two sets change; MSK_STATUS shows their sizes. -/
def State.setSets (s : State) (dark bright : List Nat) : State :=
  let s1 := (s.put F.MSK_STATUS_DARK_ROWS dark.length).put F.MSK_STATUS_BRIGHT_ROWS bright.length
  { s1 with msk := { s1.msk with dark := dark, bright := bright } }

/-- Some pixel of the first row is higher than in the second. -/
def anyHigher : Row → Row → Bool
  | a :: t, b :: u => b < a || anyHigher t u
  | _, _ => false

/-- A row is classified against LATCHED (R151). -/
def State.classify (s : State) (y : Nat) : State :=
  let t := s.targetRow y
  let l := s.latchedRow y
  let d := removeRow y s.msk.dark
  let b := removeRow y s.msk.bright
  if anyHigher t l then s.setSets (insertRow y d) b
  else if t = l then s.setSets d b else s.setSets d (insertRow y b)

/-- A parity error of a mask image is counted and reported (R160). -/
def State.maskParity (s : State) : State :=
  (s.inc F.MSK_CNT2_PARITY).raise Code.MSK_IMAGE_PARITY 0

/-- LATCHED parity errors found in a row: each is counted, and the row joins the darkening set (R160). -/
def State.latchedParity (s : State) (y : Nat) : List Nat → State
  | [] => s
  | _ :: t =>
    (s.maskParity.setSets (insertRow y s.msk.dark) (removeRow y s.msk.bright)).latchedParity y t

/-! ### Latency and MASK_APPLIED (R157, R162) -/

/-- The latest pass is measured once it has ended and its last darkening write is made: the rows that an earlier pass or a
parity error left in the darkening set are written under it too (R157). -/
def State.maskMeasure (s : State) : State :=
  if s.msk.measuring && s.msk.pass.isNone && s.msk.dark.isEmpty then
    let l := s.msk.lastDark
    let s1 := (s.put F.MSK_LAT_LAST (min l 0xFFFF)).put F.MSK_LAT_MAX_MAX
      (max (s.get F.MSK_LAT_MAX_MAX) (min l 0xFFFF))
    let s2 := if 2 * s.nSlots < l then s1.inc F.MSK_CNT1_LATE else s1
    { s2 with msk := { s2.msk with measuring := false } }
  else s

/-- MASK_APPLIED is set once the pass has ended and both sets are empty (R162). -/
def State.maskApply (s : State) : State :=
  match s.msk.applyDue with
  | none => s
  | some g =>
    if s.msk.pass.isNone && s.msk.dark.isEmpty && s.msk.bright.isEmpty then
      let s1 := match g with
        | some gen => (s.put F.MSK_APPLIED_GEN gen).put F.MSK_APPLIED_VALID 1
        | none => (s.put F.MSK_APPLIED_GEN (s.get F.MSK_LIST_STATUS_LAST_GEN)).put F.MSK_APPLIED_VALID 0
      { s1.irq Irq.maskApplied with msk := { s1.msk with applyDue := none } }
    else s

/-! ### Epochs and passes (R149-R151, R158, R159) -/

/-- The current line holds a mask epoch (R149); a PERIOD above 64 is used as 64. -/
def State.epochLine (s : State) : Bool :=
  let ph := s.get F.MSK_EPOCH_PHASE
  let per := min (s.get F.MSK_EPOCH_PERIOD) 64
  if per = 0 then s.ras.line == ph
  else decide (ph ≤ s.ras.line) && (s.ras.line - ph) % per == 0

/-- The epoch of the current line has been reached or lies ahead, and has not been served. -/
def State.epochOpen (s : State) : Bool :=
  s.lineOn && s.epochLine && !s.msk.epochServed && s.slotOpen 8

/-- This epoch makes the count reach EPOCHS (R158). -/
def State.timeoutNow (s : State) : Bool :=
  let e := s.get F.MSK_TIMEOUT_EPOCHS
  e != 0 && !s.msk.gotList && !s.msk.toDone && decide (e ≤ s.msk.epochs + 1)

/-- The list timeout is reached (R158). -/
def State.listTimeout (s : State) : State :=
  let s1 := ((s.put F.MSK_STATUS_TIMED_OUT 1).irq Irq.hostTimeout).raise Code.MSK_LIST_TIMEOUT 0
  { s1 with msk := { s1.msk with
      toDone := true, stale := s1.msk.waiting.isSome, toNew := s1.msk.toNew || s1.get F.MSK_CTRL_TO_ACTION != 0 } }

/-- LIST_TIMEOUT (R158). -/
def execListTimeout (s : State) : Host.Outcome State Fault Refusal :=
  .next (if s.epochOpen && s.timeoutNow then (s.toSlot 8).listTimeout else s)

/-- The fallback object of MSK_FB0-MSK_FB3 (R158). -/
def State.fallbackObj (s : State) : MaskObj :=
  maskObj (s.reg (A.MSK_FBn 0)) (s.reg (A.MSK_FBn 1)) (s.reg (A.MSK_FBn 2)) (s.reg (A.MSK_FBn 3))

/-- A pass of the timeout is wanted; TO_ACTION = 0 has none (R158). -/
def State.timeoutPass (s : State) : Bool := s.msk.toReq && s.get F.MSK_CTRL_TO_ACTION != 0

/-- The list of the pass of a timeout becomes the list in use (R158). -/
def State.timeoutChoose (s : State) : State :=
  if s.get F.MSK_CTRL_TO_ACTION = 2 then
    { s with msk := { s.msk with useObjs := [s.fallbackObj], useGen := none, useFb := true } }
  else { s with msk := { s.msk with useObjs := [], useGen := none, useFb := false } }

/-- The list that the next pass uses becomes the list in use: the newest list, the timeout's, or the one
in use with the active fallback words (R151, R158).  DEDUCED (log entry 28): a list that waited when the timeout was
reached is not the next accepted one that ends it: the pass of the timeout takes its place, and its own pass leaves
TIMED_OUT set. -/
def State.maskChoose (s : State) : State :=
  match s.msk.waiting with
  | some (objs, gen) =>
    if s.msk.stale && s.timeoutPass then
      { s with msk := { s.msk with waiting := none, stale := false } }.timeoutChoose
    else
      let s1 := if s.msk.stale then s else s.put F.MSK_STATUS_TIMED_OUT 0
      { s1 with msk := { s1.msk with
          waiting := none, stale := false, useObjs := objs, useGen := some gen, useFb := false } }
  | none =>
    if s.timeoutPass then s.timeoutChoose
    else if s.msk.useFb then { s with msk := { s.msk with useObjs := [s.fallbackObj] } }
    else s

/-- MASK_PASS_START: a pass starts (R150, R151). -/
def State.passStart (s : State) : State :=
  let s1 := s.maskChoose
  let s2 := (s1.put F.MSK_LIST_STATUS_ACT_COUNT s1.msk.useObjs.length).put F.MSK_STATUS_PASS 1
  { s2 with msk := { s2.msk with
      toReq := false, full := false, pass := some 0, sinceEpoch := 0, measuring := true,
      lastDark := 0, applyDue := some s2.msk.useGen } }

/-- A reason for a pass is pending that has happened before this cycle (R150). -/
def State.passReason (s : State) : Bool := s.msk.waiting.isSome || s.timeoutPass || s.msk.full

/-- The pass of an epoch: it starts, is skipped while another one runs, or there is no reason for it, a timeout with
TO_ACTION = 0 included, which then has had its turn (R150, R158). -/
def State.epochPass (s : State) : State :=
  if s.holdLines then s
  else if !s.passReason then { s with msk := { s.msk with toReq := false } }
  else if s.msk.pass.isSome then (s.inc F.MSK_CNT1_SKIPPED).raise Code.MSK_EPOCH_SKIP 0
  else s.passStart

/-- What an epoch does: it counts towards the timeout, and starts a pass, is skipped or passes idle; a timeout that this
epoch reaches is a reason for the next one (R149, R150, R158). -/
def State.epoch (s : State) : State :=
  let s1 := if s.timeoutNow then s.listTimeout else s
  let s2 := if s1.msk.gotList then
      { s1 with msk := { s1.msk with gotList := false, epochs := 0, toDone := false, epochServed := true } }
    else { s1 with msk := { s1.msk with epochs := min (s1.msk.epochs + 1) 65536, epochServed := true } }
  let s3 := s2.epochPass
  { s3 with msk := { s3.msk with toReq := s3.msk.toReq || s3.msk.toNew, toNew := false } }

/-- MASK_EPOCH: the first cycle of slot 8 of an epoch line (R149). -/
def execMaskEpoch (s : State) : Host.Outcome State Fault Refusal :=
  .next (if s.epochOpen then (s.toSlot 8).epoch else s)

/-- Slot of the current line in which the next group of the pass is rasterised; none before that
line (R151). -/
def State.groupSlot (s : State) (j : Nat) : Nat := j + 8 - s.msk.sinceEpoch

/-- Four rows of the pass are stored in TARGET and classified; LATCHED parity errors of those rows come
from the image itself (R151, R160). -/
def State.passRows (s : State) (upsets : List (Nat × Nat)) : List Nat → State
  | [] => s
  | y :: ys =>
    let s1 := (s.setTarget y (s.maskRow y)).classify y
    (s1.latchedParity y ((upsets.filter fun u => u.1 == y).map fun u => u.2)).passRows upsets ys

/-- The pass goes on by one group (R151, R157, R162). -/
def State.passGroup (s : State) (j : Nat) (upsets : List (Nat × Nat)) : State :=
  let s1 := s.passRows upsets [4 * j, 4 * j + 1, 4 * j + 2, 4 * j + 3]
  if j + 1 = 128 then
    let s2 := s1.put F.MSK_STATUS_PASS 0
    ({ s2 with msk := { s2.msk with pass := none } }.maskMeasure).maskApply
  else { s1 with msk := { s1.msk with pass := some (j + 1) } }

/-- MASK_PASS_GROUP: the next four rows of the running pass, in its slot (R151). -/
def execMaskPassGroup (latchedUpsets : List (Nat × Nat)) (s : State) : Host.Outcome State Fault Refusal :=
  .next (match s.msk.pass with
    | none => s
    | some j =>
      if s.lineOn && s.groupSlot j < s.nSlots then
        (s.toSlot (s.groupSlot j + 1)).passGroup j latchedUpsets
      else s)

/-- A running pass is abandoned; its reason stays pending (R151). -/
def State.passAbandon (s : State) : State :=
  if s.msk.pass.isSome then
    let s1 := s.put F.MSK_STATUS_PASS 0
    { s1 with msk := { s1.msk with pass := none, full := true, measuring := false, applyDue := none } }
  else s

/-- PIX powers up: LATCHED is 7 everywhere, both sets are emptied and a full pass is wanted (R159). -/
def State.mskPixUp (s : State) : State :=
  let s1 := (s.put F.MSK_STATUS_PASS 0).setSets [] []
  { s1 with msk := { s1.msk with
      latched := [], pass := none, measuring := false, applyDue := none, full := true } }

/-! ### Mask writes (R152-R154, R160, R161) -/

/-- Row `y` of the written or of the active mask levels. -/
def State.maskWRow (s : State) (y : Nat) : Row := sparseGet darkRow s.ary.maskW y
def State.maskARow (s : State) (y : Nat) : Row := sparseGet darkRow s.ary.maskA y

/-- Active levels after a mask word has been written: the higher of the new level and A (R154). -/
def darkenRow : Row → Row → Row
  | w :: t, a :: u => max w a :: darkenRow t u
  | _, _ => []

/-- The mask word of a level on CD3-CD0: the level, and the bit that makes its ones odd (R191). -/
def maskWord (level : Nat) : Nat := if oddOnes 3 level then level % 8 else level % 8 + 8

/-- The level that a pixel takes from a mask word: 7 from one whose parity fails (R154, R191). -/
def maskWordLevel (w : Nat) : Nat := if oddOnes 4 w then w % 8 else 7

/-- The words of a row whose parity bit is wrong in the columns named. -/
def badWords (ws : Row) (cols : List Nat) : Row := cols.foldl (fun r x => r.set x (r.getD x 0 ^^^ 8)) ws

/-- The mask words of a row reach W and A of its pixels (R154, R191). -/
def State.writeMaskRow (s : State) (y : Nat) (ws : Row) : State :=
  let r := ws.map maskWordLevel
  { s with ary := { s.ary with
      maskW := sparseSet darkRow s.ary.maskW y r,
      maskA := sparseSet darkRow s.ary.maskA y (darkenRow r (s.maskARow y)) } }

/-- A row with level 7 in the columns named. -/
def levelSeven (r : Row) (cols : List Nat) : Row := cols.foldl (fun r x => r.set x 7) r

/-- A slot is available to MSK: a spare slot of the line but for a calibration slot, outside RETIME hold
lines, with the engines in agreement and PIX on (R46, R47, R159, R194). -/
def State.maskSlot (s : State) (n : Nat) : Bool :=
  s.lineOn && decide (8 ≤ n) && s.slotOpen n && !s.holdLines && s.pixOn && s.flag F.ARY_STATUS_LOCK_OK &&
    !(n + 1 == s.nSlots && s.cal.window)

/-- A row of a set is written from TARGET and copied to LATCHED; TARGET parity errors send level 7
and ask for a full pass (R152, R160). -/
def State.writeTarget (s : State) (y : Nat) (cols : List Nat) : State :=
  let s1 := cols.foldl (fun s _ => s.maskParity) s
  let r := levelSeven (s1.targetRow y) cols
  let s2 := (s1.writeMaskRow y (r.map maskWord)).setLatched y r
  if cols.isEmpty then s2 else { s2 with msk := { s2.msk with full := true } }

/-- The write of a row of the darkening set in slot `n` (R152, R157). -/
def State.writeDark (s : State) (n y : Nat) (cols : List Nat) : State :=
  let s1 := (s.writeTarget y cols).setSets (removeRow y s.msk.dark) s.msk.bright
  { s1 with msk := { s1.msk with
      lastDark := if s1.msk.measuring then s1.msk.sinceEpoch + n - 7 else s1.msk.lastDark } }

/-- A scrub write: the row of LATCHED is sent again with the parity it has; a word whose parity fails is taken as 7 by the
pixel, and the row joins the darkening set (R154, R160, R161). -/
def State.writeScrub (s : State) (cols : List Nat) : State :=
  let y := s.msk.scrubRow
  let s1 := s.writeMaskRow y (badWords ((s.latchedRow y).map maskWord) cols)
  { s1 with msk := { s1.msk with scrubRow := (y + 1) % 512 } }.latchedParity y cols

/-- What MSK writes in a spare slot (R152, R161, R162). -/
def State.maskWrite (s : State) (n : Nat) (cols : List Nat) : State :=
  match s.msk.dark with
  | y :: _ => ((s.writeDark n y cols).maskMeasure).maskApply
  | [] =>
    match s.msk.bright with
    | y :: _ =>
      ((s.writeTarget y cols).setSets [] (removeRow y s.msk.bright)).maskApply
    | [] => if s.flag F.MSK_CTRL_SCRUB then s.writeScrub cols else s

/-- SPARE_SLOT_MASK_WRITE in slot `slot`: its row is chosen as the sets stand when the slot begins, and
takes effect at the end of the slot.  Parity errors of the image row that is sent come from the image
itself (R152-R154). -/
def execSpareSlotMaskWrite (slot : BitVec 12) (upsets : List Nat) (s : State) : Host.Outcome State Fault Refusal :=
  .next (if s.maskSlot slot.toNat then
    (s.maskWrite slot.toNat upsets).toSlot (slot.toNat + 1) else s)

/-- A line has ended: the slots since the epoch count on (R157).  DESIGN CHOICE (log entry 103): a line that a
resynchronisation cuts short counts as a full one. -/
def State.mskLine (s : State) : State :=
  { s with msk := { s.msk with
      sinceEpoch := min (s.msk.sinceEpoch + s.nSlots) 0xFFFFF, epochServed := false } }

end Sys2Proof.Machine
end

