-- ==== Sys2Proof/Machine/Lum.lean ====
section
/-!
DEFINITION. The luminance pipeline: drive values, gain map, defects and fill, encoding, flux budget,
crest and the oasis source (spec/07_luminance_pipeline.md).
-/

namespace Sys2Proof.Machine

/-! ### Drive value (R167, R168) -/

/-- Thermal zone of a pixel. -/
def zoneOf (x y : Nat) : Nat := 8 * (y / 256) + x / 256

/-- Zone factor Z of zone `z` (R168, R261). -/
def State.zoneFactor (s : State) (z : Nat) : Nat :=
  if z % 2 = 0 then s.get (F.THM_ZFn_Z_EVEN (z / 2)) else s.get (F.THM_ZFn_Z_ODD (z / 2))

/-- A T code of a register word, used as the nearer limit of its range (R273). -/
def tCode (w : Word) (f : Field) (lo hi : Int) : Int := clampInt (toSigned 12 (wordGet w f.hi f.lo)) lo hi

/-- ZOFF as used since the last publication (R263, R273). -/
def State.zOff (s : State) : Int := tCode s.thm.useZone F.THM_ZONE_ZOFF 560 600

/-- Zone temperature T_z as a T code: ZOFF for a zone without a published reading (R261). -/
def State.zoneTemp (s : State) (z : Nat) : Int :=
  if s.flag (F.THM_TSn_VALID z) then toSigned 12 (s.get (F.THM_TSn_T z)) else s.zOff

/-- The row factor G (R167). -/
def State.rowFactor (s : State) (oasis : Bool) : Nat :=
  let b := s.get F.LUM_BUDGET_STATUS_BUDGET
  let e := s.get F.SAF_ENV_E
  if oasis then mul16 b e else mul16 (mul16 (s.get F.LUM_DIM_DIM) b) e

/-- Largest drive value. -/
def dMax : Nat := 262080

/-- D of one pixel (R167). -/
def driveValue (l g z f : Nat) : Nat :=
  let num := l * (128 + g) * z * f * dMax
  let den := 65535 * 256 * 1024 * 65535
  min dMax ((2 * num + den) / (2 * den))

/-! ### Gain map (R169-R171, R409, R412) -/

/-- A row of the working copy. -/
def gainDefault (_ : Nat) : Row := List.replicate 2048 128

/-- A row of the working copy. -/
def State.gainRow (s : State) (y : Nat) : Row := sparseGet gainDefault s.lum.gain y

/-- Addresses of the gain map, its row table and its journal (R409). -/
def gainMapAddr (y : Nat) : Nat := 0x08000000 + 2048 * y
def gainTableAddr (y : Nat) : Nat := 0x08202000 + 4 * y
def gainJournal : Nat := 0x08203000

/-- The journal's check word is valid (R412). -/
def State.journalOk (s : State) : Bool :=
  crc32 (s.nvBytes gainJournal 0x808) == s.nvWord (gainJournal + 0x808)

/-- The journal holds row `y`. -/
def State.journalHas (s : State) (y : Nat) : Bool :=
  s.journalOk && wordGet (s.nvWord (gainJournal + 0x800)) 8 0 == y

/-- The stored gain row that passes its check: from the journal if it holds the row, else from the map
(R170, R412). -/
def State.storedGain (s : State) (y : Nat) : Option Row :=
  let p := if s.journalHas y then (s.nvBytes gainJournal 2048, s.nvWord (gainJournal + 0x804))
    else (s.nvBytes (gainMapAddr y) 2048, s.nvWord (gainTableAddr y))
  if crc32 p.1 = p.2 then some (p.1.map fun b => b.toNat) else none

/-- A row of the working copy is loaded; one that fails its check is loaded as g = 128 and reported
(R170, R413). -/
def State.gainLoad (s : State) (code y : Nat) : State :=
  let o := s.storedGain y
  let s1 := if o.isNone then s.raise code y else s
  { s1 with lum := { s1.lum with gain := sparseSet gainDefault s1.lum.gain y (o.getD (gainDefault y)) } }

/-- What a write of LUM_GAIN_RELOAD does (R169). -/
def State.gainReload (s : State) (v : Word) : State :=
  if wordGet v 0 0 = 0 || s.flag F.LUM_STATE_RELOAD_BUSY then s
  else { s.put F.LUM_STATE_RELOAD_BUSY 1 with lum := { s.lum with reload := some 0 } }

/-- GAIN_RELOAD (R169). -/
def execGainReload (i : Initiator) (v : Word) (s : State) : Host.Outcome State Fault Refusal :=
  .next (s.portWrite i A.LUM_GAIN_RELOAD fun s => s.gainReload v)

/-- GAIN_RELOAD_ROW: row y of the reload, in line (y + 256) mod (512 + VB) (R169, R170). -/
def execGainReloadRow (s : State) : Host.Outcome State Fault Refusal :=
  .next (match s.lum.reload with
    | none => s
    | some y =>
      if s.lineOn && (y + 256) % s.frameLines == s.ras.line then
        let s1 := s.gainLoad Code.LUM_GAIN_ROW y
        if y = 511 then { s1.put F.LUM_STATE_RELOAD_BUSY 0 with lum := { s1.lum with reload := none } }
        else { s1 with lum := { s1.lum with reload := some (y + 1) } }
      else s)

/-! ### Defects and fill (R172, R173) -/

/-- Key of a pixel in the sparse arrays. -/
def pixelKey (x y : Nat) : Nat := 2048 * y + x

/-- What an unlisted pixel of the defect map holds: GOOD, no cause. -/
def mapDefault (_ : Nat) : Nat × Nat := (0, 0)

/-- Map state of a pixel in the two copies (R172). -/
def State.mapState (s : State) (x y : Nat) : Nat := (sparseGet mapDefault s.hlt.map (pixelKey x y)).1
def State.mapState2 (s : State) (x y : Nat) : Nat := sparseGet (fun _ => 0) s.hlt.mapCopy (pixelKey x y)

/-- The state LUM takes from the two copies: the same, or ISOLATED if either says so, else DEAD
(R172). -/
def mergeMap (a b : Nat) : Nat := if a = b then a else if a = 2 ∨ b = 2 then 2 else 1

/-- A copy of the map has changed by itself in row `y`. -/
def State.mapUpset (s : State) (y : Nat) (u : MapUpset) : State :=
  if u.second then
    { s with hlt := { s.hlt with mapCopy := sparseSet (fun _ => 0) s.hlt.mapCopy (pixelKey u.x y) (u.state % 3) } }
  else
    { s with hlt := { s.hlt with
        map := sparseSet mapDefault s.hlt.map (pixelKey u.x y)
          (u.state % 3, (sparseGet mapDefault s.hlt.map (pixelKey u.x y)).2) } }

/-- The states of a row as LUM reads them, listed where not GOOD: column and state. -/
def State.rowDefects (s : State) (y : Nat) : List (Nat × Nat) :=
  let ks := (s.hlt.map.map fun e => e.1) ++ (s.hlt.mapCopy.map fun e => e.1)
  let xs := (ks.filter fun k => k / 2048 == y).map fun k => k % 2048
  (xs.foldl (fun l x => insertRow x l) []).map fun x => (x, mergeMap (s.mapState x y) (s.mapState2 x y))

/-- State of a column in such a list. -/
def defectAt (ds : List (Nat × Nat)) (x : Nat) : Nat :=
  match ds.find? fun d => d.1 == x with
  | some d => d.2
  | none => 0

/-- The neighbours of column `x` that lie in the row and are GOOD (R173). -/
def eligible (ds : List (Nat × Nat)) (x : Nat) : List Nat :=
  (if x = 0 then [] else [x - 1]).filter (fun n => defectAt ds n == 0) ++
  (if x = 2047 then [] else [x + 1]).filter fun n => defectAt ds n == 0

/-- One defect lends its flux to its neighbours (R173). -/
def lend (ds : List (Nat × Nat)) (fill : Nat) (own : Row) (d : Row) (x : Nat) : Row :=
  let ns := eligible ds x
  ns.foldl (fun d n =>
    d.set n (min dMax (d.getD n 0 + (own.getD x 0 * fill + 128 * ns.length) / (256 * ns.length)))) d

/-- Neighbour fill of a row: the defects lend in rising order (R173). -/
def fillRow (ds : List (Nat × Nat)) (fill : Nat) (d : Row) : Row :=
  (ds.filter fun e => e.2 != 0).foldl (fun r e => lend ds fill d r e.1) d

/-- Copies that disagree in a row: fill stops to the end of the frame, and each is counted and reported
(R172). -/
def State.mapCheck (s : State) (y : Nat) : List (Nat × Nat) → State
  | [] => s
  | d :: t =>
    if s.mapState d.1 y = s.mapState2 d.1 y then s.mapCheck y t
    else
      State.mapCheck { (s.inc F.LUM_CNT_MAP_MISMATCH).raise Code.LUM_MAP_MISMATCH 0 with
        lum := { s.lum with fillStop := true } } y t

/-! ### Encoding (R174, R175) -/

/-- The exponent of a drive value. -/
def encodeE (d : Nat) : Nat := if d ≤ 4095 then 0 else if d ≤ 16380 then 1 else if d ≤ 65520 then 2 else 3

/-- The mantissa of a drive value. -/
def encodeM (d : Nat) : Nat :=
  let e := encodeE d
  if e = 0 then d else min 4095 ((d + 4 ^ e / 2) / 4 ^ e)

/-- A word of 15 bits with the parity bit that makes its ones odd (R175). -/
def oddWord (w : Nat) : Nat := if oddOnes 15 w then w else w + 32768

/-- The drive word of a pixel in map state `st` (R172, R175). -/
def driveWord (d st : Nat) : Nat :=
  if st = 0 then oddWord (4096 * encodeE d + encodeM d)
  else oddWord (if st = 2 then 16384 else 0)

/-- Fields of a drive word. -/
def wordM (w : Nat) : Nat := w % 4096
def wordE (w : Nat) : Nat := w / 4096 % 4
def wordIso (w : Nat) : Bool := w / 16384 % 2 == 1

/-- Parity of a drive word is good: an odd number of ones. -/
def wordOk (w : Nat) : Bool := oddOnes 16 w

/-! ### Demand and crest (R176, R180) -/

/-- Row demand. -/
def rowDemand (ws : Row) : Nat := ws.foldl (fun q w => q + wordM w * 4 ^ wordE w) 0

/-- Forward voltage of the model for exponent `e` at T code `t`, in mV, rounded up (R180). -/
def State.modelV (s : State) (e : Nat) (t : Int) : Nat :=
  let tc := toSigned 16 (s.get (F.LUM_VFn_TC e))
  let up := -((-(tc * (t - 100))) / 4000)
  (clampInt ((s.get (F.LUM_VFn_V25 e) : Int) + up) 0 65535).toNat

/-- The forward voltages of a row's eight zones, by exponent: key 4 × (x div 256) + E. -/
def State.rowModel (s : State) (y : Nat) : List Nat :=
  (List.range 32).map fun k => s.modelV (k % 4) (s.zoneTemp (8 * (y / 256) + k / 4))

/-- The largest voltage over the lit pixels from column `x` on; none if no pixel is lit. -/
def crestFrom (model : List Nat) : Nat → Row → Option Nat
  | _, [] => none
  | x, w :: t =>
    let r := crestFrom model (x + 1) t
    if wordM w = 0 then r
    else
      let v := model.getD (4 * (x / 256) + wordE w) 0
      match r with
      | none => some v
      | some m => some (max v m)

/-- Row crest C_y (R180). -/
def State.rowCrest (s : State) (y : Nat) (ws : Row) : Nat :=
  (crestFrom (s.rowModel y) 0 ws).getD (s.get F.LUM_VMIN_VMIN)

/-- The array crest: over the rows processed and not written, and over the others as written; a row that
has not been written since PIX powered up has no lit pixel. -/
def State.arrayCrest (s : State) : Nat :=
  (List.range 512).foldl (fun m y =>
    let c := match s.lum.ready.find? fun r => r.y == y with
      | some r => r.crest
      | none => (sparseGet (fun _ => none) s.lum.crest y).getD (s.get F.LUM_VMIN_VMIN)
    max m c) 0

/-! ### The oasis source (R181, R293) -/

/-- The condition of the rounding: v − 1/2 does not exceed 65,535 × 2^((c − 255) / 16). -/
def oasisReaches (c v : Nat) : Bool :=
  v == 0 || decide ((2 * v - 1) ^ 16 * 2 ^ (255 - c) ≤ 131070 ^ 16)

/-- The largest such v, looked for from bit `n - 1` down. -/
def oasisSearch (c : Nat) : Nat → Nat → Nat
  | 0, acc => acc
  | n + 1, acc => oasisSearch c n (if oasisReaches c (acc + 2 ^ n) then acc + 2 ^ n else acc)

/-- L of an oasis code (R181). -/
def oasisL (c : Nat) : Nat := if c = 0 then 0 else oasisSearch c 16 0

/-- Copy of a beam in use: 0 = A, 1 = B. -/
def State.oasisUse (s : State) (b : Nat) : Nat := b2n (s.saf.useB.getLsbD b)

/-- Address of stored row `v` of a copy (R293). -/
def oasisRowAddr (b k v : Nat) : Nat := oasisCopy b k + 512 * v

/-- Row `y` of the beam, from the copy in use (R181). -/
def State.oasisRow (s : State) (b y : Nat) : Row :=
  (s.nvBytes (oasisRowAddr b (s.oasisUse b) (y / 4)) 512).flatMap fun c => List.replicate 4 (oasisL c.toNat)

/-- Stored row `v` of copy `k` matches its CRC in the row table (R293, R294). -/
def State.oasisRowOk (s : State) (b k v : Nat) : Bool :=
  crc32 (s.nvBytes (oasisRowAddr b k v) 512) == s.nvWord (oasisTable b k + 4 * v)

/-- The copy in use of beam `b`. -/
def State.setUse (s : State) (b k : Nat) : State :=
  let m := BitVec.ofNat 4 (2 ^ b)
  { s with saf := { s.saf with useB := if k = 1 then s.saf.useB ||| m else s.saf.useB &&& ~~~ m } }

/-- Stored row `v` of a beam is read and checked before LUM uses it: a copy that fails is marked and the other
takes its place if it is valid and its row passes; with none left, FLT_SAF_OASIS_NONE (R294).  True: the
copy in use has passed. -/
def State.oasisRowCheck (s : State) (b v : Nat) : State × Bool :=
  let k := s.oasisUse b
  if s.copyValid b k && s.oasisRowOk b k v then (s, true)
  else
    let s1 := s.copyInvalid b k
    if s1.copyValid b (1 - k) && s1.oasisRowOk b (1 - k) v then (s1.setUse b (1 - k), true)
    else ((s1.copyInvalid b (1 - k)).ownC4 Code.SAF_OASIS_NONE 0, false)

/-- SOURCE_SAMPLE: the source and the beam that the island asks for are taken for a frame (R181). -/
def State.sourceSample (s : State) : State :=
  let w := s.wantSource
  (s.putB F.LUM_STATE_SOURCE w.1).put F.LUM_STATE_BEAM (if w.1 then w.2 else 0)

/-! ### A row (R165) -/

/-- Gain bytes whose parity fails as they are read: the pixel uses 128, the row is loaded again, and
each is counted and reported (R171). -/
def State.gainParity (s : State) (y : Nat) : List Nat → State
  | [] => s
  | _ :: t => ((s.inc F.LUM_CNT_GAIN_PARITY).raise Code.LUM_GAIN_PARITY 0).gainParity y t

/-- D of every pixel of a row, before fill. -/
def State.rowD (s : State) (y : Nat) (oasis : Bool) (row g : Row) : Row :=
  let f := s.rowFactor oasis
  let zs := (List.range 8).map fun k => s.zoneFactor (8 * (y / 256) + k)
  (List.range 2048).map fun x => driveValue (row.getD x 0) (g.getD x 128) (zs.getD (x / 256) 0) f

/-- Drive words of a row. -/
def rowWords (ds : List (Nat × Nat)) (d : Row) : Row :=
  (List.range 2048).map fun x => driveWord (d.getD x 0) (defectAt ds x)

/-- LUM_ROW_PROCESS: row `y` of values `row` becomes drive words (R165-R175). -/
def State.lumProcess (s : State) (y : Nat) (row : Row) (gainUpsets : List Nat) (mapUpsets : List MapUpset) : State :=
  let oasis := s.flag F.LUM_STATE_SOURCE
  let gainOn := s.flag F.LUM_CTRL_GAIN_EN
  let g := if gainOn then gainUpsets.foldl (fun g x => g.set x 128) (s.gainRow y) else gainDefault y
  let s1 := if gainOn && !gainUpsets.isEmpty then
      (s.gainParity y gainUpsets).gainLoad Code.LUM_GAIN_ROW y else s
  let s2 := mapUpsets.foldl (fun s u => s.mapUpset y u) s1
  let ds := s2.rowDefects y
  let s3 := s2.mapCheck y ds
  let d := s3.rowD y oasis row g
  let d' := if s3.flag F.LUM_CTRL_FILL_EN && !s3.lum.fillStop then fillRow ds (s3.get F.LUM_CTRL_FILL) d else d
  let ws := rowWords ds d'
  { s3 with lum := { s3.lum with
      ready := (s3.lum.ready.filter fun r => r.y != y) ++
        [{ y := y, words := ws, demand := rowDemand ws, crest := s3.rowCrest y ws }] } }

/-- The row that LUM processes from the first cycle of the current line (R165); none in the active lines
of a lead-in frame (R513). -/
def State.lumRow (s : State) : Option Nat :=
  if s.ras.line < 510 then (if s.ras.leadIn then none else some (s.ras.line + 2))
  else if 512 ≤ s.ras.line ∧ s.frameLines ≤ s.ras.line + 2 then some (s.ras.line + 2 - s.frameLines)
  else none

/-- A composed row leaves the hand-over to LUM. -/
def State.takeRow (s : State) (y : Nat) : Option Row × State :=
  ((s.cmp.rows.find? fun r => r.1 == y).map fun r => r.2,
   { s with cmp := { s.cmp with rows := s.cmp.rows.filter fun r => r.1 != y } })

/-- What LUM does at the start of a line: the source is sampled for row 0, and the row due is processed
from the oasis path, or from the compositor if it has been handed over (R165, R181, R114). -/
def State.lumLine (s : State) (gainUpsets : List Nat) (mapUpsets : List MapUpset) : State :=
  match s.lumRow with
  | none => s
  | some y =>
    let s1 := if y = 0 then s.sourceSample else s
    let p := s1.takeRow y
    if s1.flag F.LUM_STATE_SOURCE then
      let b := s1.get F.LUM_STATE_BEAM
      let c := p.2.oasisRowCheck b (y / 4)
      if c.2 then c.1.lumProcess y (c.1.oasisRow b y) gainUpsets mapUpsets else c.1
    else
      match p.1 with
      | some r => p.2.lumProcess y r gainUpsets mapUpsets
      | none => s1

/-- The row whose composition deadline is the first cycle of the current line, and which the compositor has not handed
over yet (R109). -/
def State.deadlineDue (s : State) : Option Nat :=
  match s.lumRow with
  | none => none
  | some y => if s.composes && s.cmp.nextRow == y && 0 < s.cmp.bands then some y else none

/-- At its deadline row `y` is composed with underrun values for what the layers have not delivered, and LUM processes
it unless it shows the oasis (R109-R114, R165). -/
def State.deadline (s : State) (y : Nat) (delivered gain : List Nat) (map : List MapUpset) : State :=
  let p := (s.composeLate y delivered).takeRow y
  if s.flag F.LUM_STATE_SOURCE then p.2 else p.2.lumProcess y (p.1.getD []) gain map

/-- COMPOSITION_DEADLINE: the row due at LUM has not been handed over; each layer has delivered the given
number of its pixels, and the upsets of the gain row and the defect map are those that its processing meets
(R109-R113, R171, R172). -/
def execCompositionDeadline (d : Delivered) (s : State) : Host.Outcome State Fault Refusal :=
  .next (match s.deadlineDue with
    | some y => if s.lineOn && s.ras.slot == 0 then s.deadline y d.pixels d.gain d.map else s
    | none => s)

/-- The deadline passes whether or not COMPOSITION_DEADLINE says how far the layers had come: a row that is still open
at the end of its line is late, with a free number of delivered pixels (R111; log entry 21). -/
def State.deadlineOver (s : State) : State :=
  match s.deadlineDue with
  | some y => s.tick.deadline y ((List.range 12).map fun i => Config.delivered s.freeCount i % 2049) [] []
  | none => s

/-! ### The limiter and the budget (R177-R179) -/

/-- LIMIT in force (R179). -/
def State.limit (s : State) : Nat :=
  if s.flag F.LUM_STATE_CONT then s.get F.LUM_LIMIT_CONT_LIMIT else s.get F.LUM_LIMIT_PEAK_LIMIT

/-- LF for an array demand (R177). -/
def limitFactor (limit q : Nat) : Nat := if q = 0 then 65535 else min 65535 (65535 * limit * 1024 / q)

/-- LF changes to a lower value: counted, and kept for the frame (R177, R178). -/
def State.limiterLower (s : State) (lf : Nat) : State :=
  let s1 := ((s.put F.LUM_BUDGET_STATUS_LF lf).inc F.LUM_CNT_LIMIT_EVENTS).put F.LUM_LF_MIN_MIN
    (min lf (s.get F.LUM_LF_MIN_MIN))
  { s1 with lum := { s1.lum with lfMin := min lf s1.lum.lfMin } }

/-- Q_new of a row whose processing has ended: the array demand with its new Q_y in place of the old (R177). -/
def State.qNew (s : State) (r : LumRow) : Nat := s.lum.q - sparseGet (fun _ => 0) s.lum.demand r.y + r.demand

/-- Q_peak of the frame takes a Q_new, and Q_peak_eff its product with the LF at that row (R178, R179). -/
def State.peakForm (s : State) (d lf : Nat) : State :=
  if s.lum.qPeak < d then { s with lum := { s.lum with qPeak := d, qPeakEff := d * lf / 65535 } } else s

/-- Q_new and LF_new of a row that is about to be written (R177): a lower LF is applied at once, a higher
one waits for slot 3. -/
def State.limiter (s : State) (r : LumRow) : State :=
  let lf := limitFactor s.limit (s.qNew r)
  let s1 := s.peakForm (s.qNew r) lf
  let old := s.get F.LUM_BUDGET_STATUS_LF
  if lf < old then s1.limiterLower lf
  else if old < lf then { s1 with lum := { s1.lum with raise := some lf } }
  else s1

/-- LIMITER_RAISE at slot 3; LUM_LF_MIN records the lowest LF applied (R177, R183). -/
def State.limiterRaise (s : State) : State :=
  match s.lum.raise with
  | none => s
  | some lf =>
    { (s.put F.LUM_BUDGET_STATUS_LF lf).put F.LUM_LF_MIN_MIN (min lf (s.get F.LUM_LF_MIN_MIN)) with
      lum := { s.lum with raise := none } }

/-- The array demand after a row has been written (R176). -/
def State.demandWrite (s : State) (r : LumRow) : State :=
  let q := s.lum.q - sparseGet (fun _ => 0) s.lum.demand r.y + r.demand
  { s.put F.LUM_DEMAND_Q (q / 1024) with lum := { s.lum with
      q := q, demand := sparseSet (fun _ => 0) s.lum.demand r.y r.demand,
      crest := sparseSet (fun _ => none) s.lum.crest r.y (some r.crest) } }

/-- Capacity of the credit: C × 1,024 (R179). -/
def State.creditCap (s : State) : Nat :=
  (s.get F.LUM_LIMIT_PEAK_LIMIT - s.get F.LUM_LIMIT_CONT_LIMIT) * s.get F.LUM_BOOST_FRAMES * 1024

/-- The credit takes a value; LUM_STATE shows it (R179, R183). -/
def State.setCredit (s : State) (b : Nat) : State :=
  { s.put F.LUM_STATE_CREDIT (if s.creditCap = 0 then 65535 else b * 65535 / s.creditCap) with
    lum := { s.lum with credit := b } }

/-- The credit is full, as at every image load (R179). -/
def State.creditFull (s : State) : State := s.setCredit s.creditCap

/-- BUDGET_HANDOVER (R178). -/
def State.budgetHandover (s : State) : State :=
  let b := s.get F.LUM_BUDGET_STATUS_BUDGET
  if s.lum.lfMin < 65535 then s.put F.LUM_BUDGET_STATUS_BUDGET (mul16 b s.lum.lfMin)
  else if b < 65535 then
    let r := b + s.get F.LUM_BOOST_RELEASE
    let r' := if s.lum.qPeak = 0 then r else min r (b * s.limit * 1024 / s.lum.qPeak)
    s.put F.LUM_BUDGET_STATUS_BUDGET (min 65535 r')
  else s

/-- BOOST_CREDIT_UPDATE (R179). -/
def State.boostUpdate (s : State) : State :=
  let b := min (min s.lum.credit s.creditCap + s.get F.LUM_LIMIT_CONT_LIMIT * 1024 - s.lum.qPeakEff) s.creditCap
  let s1 := s.setCredit b
  let cont := b == 0
  if cont && !s.flag F.LUM_STATE_CONT then (s1.putB F.LUM_STATE_CONT cont).raise Code.LUM_BUDGET_CONT 0
  else s1.putB F.LUM_STATE_CONT cont

/-- What LUM does at the commit instant (R178, R179). -/
def State.lumBlank (s : State) : State :=
  let s1 := s.budgetHandover.boostUpdate
  { s1 with lum := { s1.lum with lfMin := 65535, qPeak := 0, qPeakEff := 0 } }

/-- CREST_DELIVERY (R180): the array crest that includes row y is delivered at line y − 1. -/
def State.crestLine (s : State) : Option Nat :=
  if s.ras.line < 511 then (if s.ras.leadIn then none else some (s.ras.line + 1))
  else if 512 ≤ s.ras.line ∧ s.ras.line + 1 = s.frameLines then some 0
  else none

/-- PIX powers up: every row demand is 0, and no row is lit (R176, R188). -/
def State.lumPixUp (s : State) : State :=
  { s.put F.LUM_DEMAND_Q 0 with lum := { s.lum with q := 0, demand := [], crest := [] } }

end Sys2Proof.Machine
end

