-- ==== Sys2Proof/Machine/Array.lean ====
section
/-!
DEFINITION. The pixel array and its drive: row writes, display loads, the reference current, the dark nets
at the pixel tier, row-group boundaries and pre-charge taps (spec/08_array_drive.md).
-/

namespace Sys2Proof.Machine

/-! ### Latches -/

/-- Rows of the storage and of the display latches (R184). -/
def State.storageRow (s : State) (y : Nat) : Row := sparseGet blackRow s.ary.storage y
def State.displayRow (s : State) (y : Nat) : Row := sparseGet blackRow s.ary.display y

/-- PIX powers up: latches 0x8000, masks 7, taps 8, kept words as the latches (R188, R192, R221, R159,
R176). -/
def State.pixPowerUp (s : State) : State :=
  let s1 := { s with
    ary := { s.ary with
      storage := [], display := [], maskW := [], maskA := [], taps := [], tapBad := [], loadDue := false }
    hlt := { s.hlt with written := [], rbRow := [], persistDue := [] } }
  s1.mskPixUp.lumPixUp

/-- The row that the value-write slots of the current line write; none in a lead-in frame (R513). -/
def State.writeRow (s : State) : Option Nat :=
  if s.ras.line < 512 ∧ !s.ras.leadIn then some s.ras.line else none

/-- ROW_VALUE_WRITE: the two value beats of the current line's row, or the row is skipped (R27, R29, R41,
R166, R190, R194).  LIMITER_LOWER falls in the same cycle; a processed row that is skipped forms its Q_new and changes
neither Q nor LF (R177). -/
def State.rowValueWrite (s : State) : State :=
  match s.writeRow with
  | none => { s with ary := { s.ary with loadDue := false } }
  | some y =>
    let s0 := { s with
      ary := { s.ary with loadDue := false }
      lum := { s.lum with ready := s.lum.ready.filter fun r => r.y != y } }
    match s.lum.ready.find? fun r => r.y == y with
    | none => s0.skipRow
    | some r =>
      if s.pixOn && s.flag F.ARY_STATUS_LOCK_OK && !s.holdLines then
        let s1 := (s0.limiter r).demandWrite r
        { s1 with
          cmp := { s1.cmp with skipRun := 0 }
          ary := { s1.ary with storage := sparseSet blackRow s1.ary.storage y r.words, loadDue := true }
          hlt := { s1.hlt with written := sparseSet blackRow s1.hlt.written y r.words } }
      else (s0.peakForm (s0.qNew r) (s0.get F.LUM_BUDGET_STATUS_LF)).skipRow

/-- What a display latch loads from a storage word: a word whose parity fails loads dark, with ISO set if
either word has it (R187). -/
def displayLoad (stored old : Nat) : Nat :=
  if wordOk stored then stored
  else oddWord (if wordIso stored || wordIso old then 16384 else 0)

/-- A row of display latches loads. -/
def displayLoadRow : Row → Row → Row
  | w :: t, o :: u => displayLoad w o :: displayLoadRow t u
  | _, _ => []

/-- Bits of storage words of a row flip by themselves: column and mask. -/
def flipWords (r : Row) (us : List (Nat × BitVec 16)) : Row :=
  us.foldl (fun r u => r.set u.1 (r.getD u.1 0 ^^^ u.2.toNat)) r

/-- The row written in this line loads its display latches. -/
def State.loadDisplay (s : State) (upsets : List (Nat × BitVec 16)) : State :=
  let y := s.ras.line
  let st := flipWords (s.storageRow y) upsets
  { s with ary := { s.ary with
      storage := sparseSet blackRow s.ary.storage y st,
      display := sparseSet blackRow s.ary.display y (displayLoadRow st (s.displayRow y)),
      loadDue := false } }

/-- DISPLAY_LOAD: at the end of slot 2 the row written in this line loads its display latches (R186,
R187).  Upsets of the storage latches come from the cells themselves. -/
def execDisplayLoad (upsets : List (Nat × BitVec 16)) (s : State) : Host.Outcome State Fault Refusal :=
  .next (if s.lineOn && s.ary.loadDue && s.slotOpen 2 then (s.loadDisplay upsets).toSlot 3 else s)

/-! ### The reference current (R196-R201) -/

/-- DAC_EFF for a DAC value (R198). -/
def dacEff (d : Nat) : Nat := min 983 (max 164 d)

/-- The active DAC value is in force after limiting (R198). -/
def State.dacInForce (s : State) : State :=
  let d := s.get F.ARY_IU_DAC
  (s.put F.ARY_STATUS_DAC_EFF (dacEff d)).putB F.ARY_STATUS_CLAMPED (dacEff d != d)

/-- A taken commit transfers the DAC, as every register of the set; a limited value is reported (R34, R198). -/
def State.dacApply (s : State) : State :=
  let d := s.get F.ARY_IU_DAC
  let s1 := s.dacInForce
  if dacEff d ≠ d then s1.raise Code.ARY_DAC_CLAMP 0 else s1

/-- The factor of I_ref: min(LF, CEIL) with the reference enabled and the source disable inactive, else 0
(R198). -/
def State.irefFactor (s : State) : Nat :=
  if s.flag F.ARY_CTRL_SRC_EN && !s.sourceDisable then
    min (s.get F.LUM_BUDGET_STATUS_LF) (s.get F.SAF_ENV_CEIL) else 0

/-- I_ref as commanded, in steps of 10 nA / (32,768 × 65,535) (R198).  DESIGN CHOICE (log entry 104): I_REF is the last
measured one, and 0 before the first measurement. -/
def State.irefCommand (s : State) : Nat :=
  s.get F.ARY_ISET_IREF * s.get F.ARY_STATUS_DAC_EFF * s.irefFactor

/-- The measurement is outside the accepted window (R197). -/
def isetOutside (limited : Bool) (iref : Nat) : Bool := limited || iref < 9000 || 11000 < iref

/-- ISET_MEASURE: I_REF is measured, in units of 10 nA; `limited` says that the reference circuit's limit
acted (R197).  With the raster running it falls at slot 8 of a line. -/
def execIsetMeasure (iref : BitVec 14) (limited : Bool) (s : State) : Host.Outcome State Fault Refusal :=
  .next (if s.coreRun && (!s.ras.running || (s.lineOn && s.slotOpen 8 && !s.ary.isetServed)) then
    let s1 := if s.ras.running then s.toSlot 8 else s
    let i := min iref.toNat 11000
    let s2 := (s1.put F.ARY_ISET_IREF i).putB F.ARY_ISET_LIMITED limited
    if isetOutside limited i then
      { s2 with ary := { s2.ary with
          isetServed := true, isetOut := min (s2.ary.isetOut + 1) 4, isetIn := 0,
          isetDue := s2.ary.isetDue || (s2.ary.isetOut == 3) } }
    else
      let n := min (s2.ary.isetIn + 1) 4
      let s3 := if n = 4 && s2.flag F.ARY_STATUS_ISET_BAD then
          (s2.put F.ARY_STATUS_ISET_BAD 0).deassertF Code.ARY_ISET else s2
      { s3 with ary := { s3.ary with isetServed := true, isetIn := n, isetOut := 0 } }
  else s)

/-- ISET_FAULT: 4 consecutive measurements lay outside the window (R197). -/
def execIsetFault (s : State) : Host.Outcome State Fault Refusal :=
  .next (if s.coreRun && s.ary.isetDue then
    { (s.put F.ARY_STATUS_ISET_BAD 1).assertF Code.ARY_ISET 0 with ary := { s.ary with isetDue := false } } else s)

/-- A check of I_ref fails: it differs from the command by more than 2 % or 20 nA, whichever is larger; the
reading is in pA (R200). -/
def State.irefWrong (s : State) (pa : Nat) : Bool :=
  let m := pa * 32768 * 65535
  let c := s.irefCommand * 10000
  let d := if m < c then c - m else m - c
  decide (max (c / 50) (20000 * 32768 * 65535) < d)

/-- REF_MONITOR_FAULT: two consecutive checks of I_ref, their readings in pA, differ from its commanded
value; under the standby hold the tandem dark request is asserted (R200, R391). -/
def execRefMonitorFault (first second : Nat) (s : State) : Host.Outcome State Fault Refusal :=
  .next (if s.coreRun && s.irefWrong first && s.irefWrong second then
    let s1 := s.raise Code.ARY_REF_MON 0
    if s.standbyHold then (s1.put F.CVN_TDM_STATUS_TDARK 1).safRefresh else s1
  else s)

/-! ### The two engines (R193, R194) -/

/-- Both engine copies are loaded from RAS (R193, R194). -/
def State.enginesLoad (s : State) : State :=
  let e : EngineCopy := { skew := 0, c := s.ras.pwmC, a := s.ras.pwmA }
  { s with ary := { s.ary with west := e, east := e } }

/-- ENGINE_MISMATCH: the two copies, as given, differ: writes stop from the next cycle, the east copy is
reloaded from the west copy, and the fault is raised (R194). -/
def execEngineMismatch (west east : EngineCopy) (s : State) : Host.Outcome State Fault Refusal :=
  .next (if s.coreRun && s.ras.running && west != east then
    let s1 := ((s.raise Code.ARY_ENGINE_LOCK 0).inc F.ARY_CNT_LOCK_LOSS).put F.ARY_STATUS_LOCK_OK 0
    { s1 with ary := { s1.ary with west := west, east := west } }
  else s)

/-! ### Row groups (R49, R154, R195, R204) -/

/-- Counts up to the boundary of row group `g`: c steps to (4,096 − 64 × g) mod 4,096 (R49). -/
def countsTo (c g : Nat) : Nat :=
  let k := ((4096 - 64 * g % 4096) + 4096 - c % 4096) % 4096
  if k = 0 then 4096 else k

/-- Row group `g` crosses its boundary in the current cycle: the counter stands at its count, and the accumulator shows
that it has stepped in this cycle (R48, R49). -/
def atBoundary (c a g : Nat) : Bool := (c + 64 * g) % 4096 == 0 && a < 4096

/-- Array-clock cycles from the current cycle up to the next boundary of row group `g` (R48, R49). -/
def cyclesTo (d c a g : Nat) : Nat := if atBoundary c a g then 0 else (countsTo c g * d - a + 4095) / 4096

/-- The same on the west engine's counter.  In the first cycle of the frame in which the raster starts no counter has
stepped yet (R48). -/
def State.groupCycles (s : State) (g : Nat) : Nat :=
  let w := s.ary.west
  if s.ras.leadIn && s.ras.line == 0 && s.lineCycle == 0 then (countsTo w.c g * s.dPwm - w.a + 4095) / 4096
  else cyclesTo s.dPwm w.c w.a g

/-- The rows of a group take their written levels as active levels (R154). -/
def State.groupMasks (s : State) (g : Nat) : State :=
  forUpto 8 (fun i s => { s with ary := { s.ary with
    maskA := sparseSet darkRow s.ary.maskA (8 * g + i) (s.maskWRow (8 * g + i)) } }) s

/-- ROW_GROUP_BOUNDARY: the next cycle boundary of row group `g` falls in the current line; lower mask
levels become active, and released pixels conduct again (R49, R154, R204). -/
def execRowGroupBoundary (g : BitVec 6) (s : State) : Host.Outcome State Fault Refusal :=
  .next (let t := s.lineCycle + s.groupCycles g.toNat
    if s.lineOn && t < 16 * s.nSlots then
      let s1 := s.runTo t
      let s2 := if s1.pixOn then s1.groupMasks g.toNat else s1
      if s2.darkNets then s2
      else { s2 with ary := { s2.ary with conduct := s2.ary.conduct ||| BitVec.ofNat 64 (2 ^ g.toNat) } }
    else s)

/-- The count of row group `g` (R195). -/
def State.groupCount (s : State) (g : Nat) : Nat := (s.ary.west.c + 64 * g) % 4096

/-- The gate of a level is high at count `c` (R155). -/
def gateHigh (level c : Nat) : Bool :=
  if level = 0 then true else if 7 ≤ level then false else c % 2 ^ level == 2 ^ level - 1

/-- Row `y` is off its normal drive while it is sensed, in slots 3 and 4 of its line (R46, R208). -/
def State.inSense (s : State) (y : Nat) : Bool :=
  s.lineOn && s.ras.line == y && y < 512 && !s.holdLines && !s.ras.lineEnd && (s.ras.slot == 3 || s.ras.slot == 4)

/-- A pixel conducts (R185, R204, R208). -/
def State.conducts (s : State) (x y : Nat) : Bool :=
  let w := (s.displayRow y).getD x 0x8000
  s.pixOn && !s.inSense y && !s.darkNets && s.ary.conduct.getLsbD (rowGroup y) && !wordIso w &&
    s.groupCount (rowGroup y) < wordM w &&
    gateHigh ((s.maskARow y).getD x 7) (s.groupCount (rowGroup y)) && s.irefCommand != 0

/-- The mirror ratio of a pixel's current source (R184). -/
def mirrorRatio (e : Nat) : Nat := 4 ^ e

/-- The current that a pixel sinks, in the unit of `State.irefCommand`: I_ref × 4^E while it conducts, else 0; a pixel
that does not conduct passes no more than its leakage, which the model leaves out (R184, R185). -/
def State.pixelCurrent (s : State) (x y : Nat) : Nat :=
  if s.conducts x y then s.irefCommand * mirrorRatio (wordE ((s.displayRow y).getD x 0x8000)) else 0

/-! ### Pre-charge taps (R192) -/

/-- Tap of a column. -/
def State.tap (s : State) (x : Nat) : Nat := sparseGet (fun _ => 8) s.ary.taps x

/-- The tap a column uses: 8 while its parity fails (R192). -/
def State.tapUsed (s : State) (x : Nat) : Nat := if s.ary.tapBad.contains x then 8 else s.tap x

/-- A tap is written; its parity is then good. -/
def State.setTap (s : State) (x v : Nat) : State :=
  { s with ary := { s.ary with
      taps := sparseSet (fun _ => 8) s.ary.taps x (v % 16), tapBad := removeRow x s.ary.tapBad } }

/-- COL increments after an access if INC = 1 (R207). -/
def State.colInc (s : State) : State :=
  if s.flag F.ARY_PC_ADDR_INC then s.put F.ARY_PC_ADDR_COL ((s.get F.ARY_PC_ADDR_COL + 1) % 2048) else s

/-- A read of ARY_PC_DATA (R192, R207). -/
def State.pcDataRead (s : State) : Word × State :=
  (if s.pixOn then BitVec.ofNat 32 (s.tap (s.get F.ARY_PC_ADDR_COL)) else 0, s.colInc)

/-- A write of ARY_PC_DATA (R192, R207). -/
def State.pcDataWrite (s : State) (v : Word) : State :=
  (if s.pixOn then s.setTap (s.get F.ARY_PC_ADDR_COL) (wordGet v 3 0) else s).colInc

/-- ARY_PC_DATA_READ (R192). -/
def execAryPcDataRead (i : Initiator) (s : State) : Host.Outcome State Fault Refusal :=
  .next (s.portRead i A.ARY_PC_DATA State.pcDataRead)

/-- ARY_PC_DATA_WRITE (R192). -/
def execAryPcDataWrite (i : Initiator) (v : Word) (s : State) : Host.Outcome State Fault Refusal :=
  .next (s.portWrite i A.ARY_PC_DATA fun s => s.pcDataWrite v)

/-- What ARY_STATUS shows: the dark nets, the source disable and the ceiling as they stand (R207).  DESIGN CHOICE (log entry
105): in INIT SRC_OFF reads 1, since R281 asserts the source disable there, though its reset value is 0. -/
def State.aryStatusView (s : State) : Word :=
  let w := s.reg A.ARY_STATUS
  let w1 := wordPut w 31 16 (s.get F.SAF_ENV_CEIL)
  let w2 := wordPut (wordPut w1 4 4 (b2n s.netB)) 3 3 (b2n s.netA)
  wordPut w2 2 2 (b2n s.sourceDisable)

end Sys2Proof.Machine
end

