-- ==== Sys2Proof/Machine/Commit.lean ====
section
/-!
DEFINITION. The commit: arming, the alive check, the checks at the instant, holds, and the one transfer
of every shadow (spec/05_scalers_commit.md; the cadence event of R53).
-/

namespace Sys2Proof.Machine

/-! ### Cadence (R53) -/

/-- A cadence event of source `src` falls at the present position: the first of the follow window is
kept with the blanking that counts for it, the others are counted (R53). -/
def State.cadence (s : State) (src : Nat) : State :=
  if s.coreRun && s.ras.window && s.get F.RAS_ACT_MODE_MODE == 1 && s.get F.RAS_ACT_MODE_FOLLOW_SRC == src then
    match s.ras.winEv with
    | some _ => s.inc F.RAS_FOLLOW_CNT_EXTRA
    | none =>
      let v := if 512 ≤ s.ras.line then s.get F.RAS_STATUS_CUR_VB else s.get F.RAS_ACT_TIMING_VB
      { s with ras := { s.ras with winEv := some (s.ras.line, v) } }
  else s

/-! ### Arming (R119-R123) -/

/-- The alive check passes (R123). -/
def State.aliveOk (s : State) (alive : Nat) : Bool :=
  let m := s.get F.GLB_COMMIT_CTRL_MAX_DELTA
  if m = 0 || !s.flag F.GLB_COMMIT_CTRL_ALIVE_VALID then true
  else
    let d := (alive + 256 - s.get F.GLB_COMMIT_CTRL_LAST_ALIVE) % 256
    1 ≤ d && d ≤ m

/-- The frame whose commit instant lies next, strictly after the present cycle; while the raster is stopped, F of R62
(R120). -/
def State.commitTarget (s : State) : Word :=
  if s.ras.running then
    if s.ras.blankServed then s.ras.frame + 1 else s.ras.frame
  else if s.ras.everStarted then s.ras.frame + 1 else 0

/-- An armed or held commit targets the next commit instant: a stop, a start or a reset of the raster moves it
(R120). -/
def State.commitRetarget (s : State) : State :=
  if s.get F.GLB_COMMIT_STATUS_STATE = 0 then s else s.setReg A.GLB_COMMIT_TARGET s.commitTarget

/-- A commit request rejected when it is applied (R122).  DESIGN CHOICE (log entry 71): REASON 1 and 2 name no layer, and
GLB_COMMIT_STATUS.LAYER keeps the layer of an earlier rejection (R139). -/
def State.commitRejected (s : State) (reason : Nat) : State :=
  (((s.put F.GLB_COMMIT_STATUS_LAST 2).put F.GLB_COMMIT_STATUS_REASON reason).inc
    F.GLB_COMMIT_CNT_REJECTED).irq Irq.commitRejected

/-- A commit is armed with its ready mask (R119, R120, R122, R123). -/
def State.commitArm (s : State) (v : Word) (info : FaultInfo) : State :=
  let s1 := if s.get F.GLB_COMMIT_STATUS_STATE != 0 then s.inc F.GLB_COMMIT_CNT_REPLACED else s
  let s2 := (((s1.put F.GLB_COMMIT_STATUS_STATE 1).put F.GLB_COMMIT_CTRL_LAST_ALIVE (wordGet v 7 0)).put
    F.GLB_COMMIT_CTRL_ALIVE_VALID 1).setReg A.GLB_COMMIT_TARGET s.commitTarget
  { s2 with cmp := { s2.cmp with armRdy := BitVec.ofNat 12 (wordGet v 27 16), armInfo := info } }

/-- A commit is withdrawn (R119).  DESIGN CHOICE (log entry 99): GLB_COMMIT_TARGET keeps its target, though no commit is
armed then and this one has not been resolved (R139). -/
def State.commitWithdraw (s : State) : State :=
  if s.get F.GLB_COMMIT_STATUS_STATE = 0 then s
  else (s.put F.GLB_COMMIT_STATUS_STATE 0).put F.GLB_COMMIT_STATUS_LAST 3

/-- A commit request with ARM = 1: checked, then armed or rejected (R122). -/
def State.commitArmRequest (s : State) (v : Word) (info : FaultInfo) : State :=
  if s.post then s.commitRejected 2
  else if !s.aliveOk (wordGet v 7 0) then (s.commitRejected 1).raiseI Code.GLB_ALIVE info
  else s.commitArm v info

/-- A commit request, by a write of GLB_COMMIT or a COMMIT packet: a cadence event, then armed or
withdrawn (R53, R119). -/
def State.commitRequest (s : State) (v : Word) (info : FaultInfo) : State :=
  let s1 := s.cadence 0
  if wordGet v 8 8 = 1 then s1.commitArmRequest v info else s1.commitWithdraw

/-! ### The sealed indicators (R80) -/

/-- LMC_LAYER_SEALED of layer `i`: every tile of its shadow surface is SEALED. -/
def State.layerSealed (s : State) (i : Nat) : Bool :=
  let c := s.layerCfg true i
  if c.typ = 0 then false
  else if c.wT = 0 ∨ c.hT = 0 then true
  else if tileCount < c.base + c.wT * c.hT then false
  else (List.range (c.wT * c.hT)).all fun k => (s.dirEntry (c.base + k)).st == .sealed

/-- GLB_COMMIT_CTRL takes a value: a STALE that leaves 0 starts the count of R124 from 0; only a taken commit re-arms
the report. -/
def State.commitCtrlWrite (s : State) (v : Word) : State :=
  let s1 := s.regWrite A.GLB_COMMIT_CTRL v
  if s.get F.GLB_COMMIT_CTRL_STALE = 0 then { s1 with cmp := { s1.cmp with staleRun := 0 } } else s1

/-- The register of the twelve indicators. -/
def State.sealedView (s : State) : Word :=
  BitVec.ofNat 32 ((List.range 12).foldl (fun m i => m + b2n (s.layerSealed i) * 2 ^ i) 0)

/-! ### The checks at the instant (R100, R126, R135-R137) -/

/-- Source size of a layer: its window, or the input of the scaler that serves it (R100). -/
def State.srcSize (s : State) (i : Nat) (c : LayerCfg) : Nat × Nat :=
  match s.scalerOf true i with
  | some n => ((s.scalerCfg true n).iw, (s.scalerCfg true n).ih)
  | none => (c.w, c.h)

/-- The checks of R100 on a layer of the shadow set pass. -/
def State.layerConfigOk (s : State) (i : Nat) : Bool :=
  let c := s.layerCfg true i
  let sz := s.srcSize i c
  decide (c.format < 8) && c.wT != 0 && c.hT != 0 && decide (c.base + c.wT * c.hT ≤ tileCount) &&
    decide (c.sx + sz.1 ≤ c.wT * pixelsPerRow c.format) && decide (c.sy + sz.2 ≤ c.hT * 16)

/-- The enabled scalers that name layer `i` in the shadow set. -/
def State.scalersNaming (s : State) (i : Nat) : List Nat :=
  (List.range 4).filter fun n => (s.scalerCfg true n).serves i

/-- The checks of R135 on a layer of the shadow set pass. -/
def State.scalerConfigOk (s : State) (i : Nat) : Bool :=
  match s.scalersNaming i with
  | [] => true
  | [n] =>
    let sc := s.scalerCfg true n
    s.layerType i == 1 && sc.iw != 0 && sc.ih != 0 && decide (0x1000 ≤ sc.hStep) && decide (sc.hStep ≤ 0x40000) &&
      decide (0x1000 ≤ sc.vStep) && decide (sc.vStep ≤ 0x40000) && decide (2 ≤ sc.vTaps) && decide (sc.vTaps ≤ 8)
  | _ => false

/-- The line-buffer check of R136 and R137 passes. -/
def State.lineBufferOk (s : State) (i : Nat) : Bool :=
  match s.scalersNaming i with
  | [n] => ((s.scalerCfg true n).effTaps (s.layerCfg true i).w).isSome
  | _ => true

/-- The first failing check of a layer: its REASON (R126). -/
def State.layerCheck (s : State) (i : Nat) : Nat :=
  if !(s.layerCfg true i).enabled then 0
  else if !s.layerConfigOk i then 3
  else if !s.scalerConfigOk i then 4
  else if !s.lineBufferOk i then 5
  else 0

/-- The first failing layer and its REASON, from L0 up (R126). -/
def State.configFail (s : State) : Option (Nat × Nat) :=
  ((List.range 12).find? fun i => s.layerCheck i != 0).map fun i => (i, s.layerCheck i)

/-! ### Readiness and holds (R125, R127, R128) -/

/-- A layer's two-bit field of GLB_HOLD_MODE or GLB_SYNC_GROUP. -/
def pairField (v i : Nat) : Nat := bitsOf v (2 * i + 1) (2 * i)

/-- A layer that is fetched, composed and held at a commit: enabled, with a window that is not empty; one with an
empty window is handled as disabled, except that its fields are checked (R97, R98). -/
def LayerCfg.visible (c : LayerCfg) : Bool :=
  c.enabled && c.xSpan.1 < c.xSpan.2 && c.ySpan.1 < c.ySpan.2

/-- A layer is ready on its own: handled as disabled in the shadow set, or named ready and sealed (R98, R125). -/
def State.selfReady (s : State) (i : Nat) : Bool :=
  !(s.layerCfg true i).visible || (s.cmp.armRdy.getLsbD i && s.layerSealed i)

/-- A layer is ready after the sync groups: no enabled member of its group is not ready (R125, R128). -/
def State.layerReady (s : State) (i : Nat) : Bool :=
  let g := pairField (s.get F.GLB_SYNC_GROUP_GROUP) i
  s.selfReady i &&
    (g == 0 || (List.range 12).all fun j =>
      pairField (s.get F.GLB_SYNC_GROUP_GROUP) j != g || s.selfReady j)

/-- A layer of the shadow set that is not handled as disabled, and is not ready (R98, R125).  DESIGN CHOICE (log entry 101):
a member that the shadow set disables counts as ready, and transfers, though another member of its group is not (R128). -/
def State.notReady (s : State) (i : Nat) : Bool := (s.layerCfg true i).visible && !s.layerReady i

/-- HOLD_MODE of a layer. -/
def State.holdMode (s : State) (i : Nat) : Nat := pairField (s.get F.GLB_HOLD_MODE_MODE) i

/-! ### The transfer (R34, R127) -/

/-- The registers that have RWS fields. -/
def rwsAddrs : List Nat :=
  regRows.flatMap fun r =>
    if r.fields.any fun f => f.access == .rws then (List.range r.count).map fun k => r.addr + r.stride * k else []

/-- One register's RWS fields transfer from shadow to active. -/
def State.transferReg (s : State) (a : Nat) : State :=
  let m := accessMask .rws a
  s.setReg a ((s.reg a &&& ~~~ m) ||| (s.shReg a &&& m))

/-- Every RWS register but those held back transfers (R34). -/
def State.transfer (s : State) (held : Nat → Bool) : State :=
  rwsAddrs.foldl (fun s a => if held a then s else s.transferReg a) s

/-- The register belongs to layer slot `i`. -/
def layerAddr (i a : Nat) : Bool := 0x3100 + 32 * i ≤ a && a < 0x3100 + 32 * i + 32

/-- The register belongs to scaler `n`. -/
def scalerAddr (n a : Nat) : Bool := 0x4100 + 64 * n ≤ a && a < 0x4100 + 64 * n + 64

/-- Scaler `n` runs in the active set: it serves a VIDEO layer that takes part in composition; one whose layer has an
empty window is idle, that layer being handled as disabled (R98, R131, R135). -/
def State.scalerRuns (s : State) (n : Nat) : Bool :=
  let c := s.scalerCfg false n
  c.serves c.layer && s.layerType c.layer == 1 && s.layerLive c.layer && (s.layerCfg false c.layer).visible

/-- The scaler serves a layer that is not ready, in the shadow set or, running, in the active set: its fields stay with
the layer's (R127).  A scaler that is idle in the active set serves none there (R131, R135). -/
def State.scalerHeld (s : State) (n : Nat) : Bool :=
  let cs := s.scalerCfg true n
  (s.scalerRuns n && s.notReady (s.scalerCfg false n).layer) || (cs.serves cs.layer && s.notReady cs.layer)

/-- Registers held back at this commit. -/
def State.heldAddr (s : State) (a : Nat) : Bool :=
  ((List.range 12).any fun i => layerAddr i a && s.notReady i) ||
  ((List.range 4).any fun n => scalerAddr n a && s.scalerHeld n)

/-- The field that counts how often layer `i` was kept or dropped. -/
def holdCntField (i : Nat) : Field :=
  if i % 2 = 0 then F.GLB_HOLD_CNTn_EVEN (i / 2) else F.GLB_HOLD_CNTn_ODD (i / 2)

/-- A mask with one bit per layer for which `p` holds. -/
def layerMask (p : Nat → Bool) : Nat := (List.range 12).foldl (fun m i => m + b2n (p i) * 2 ^ i) 0

/-- Vertical taps with which scaler `n` runs (R136, R137). -/
def State.runTaps (s : State) (n : Nat) : Nat :=
  let c := s.scalerCfg false n
  (c.effTaps (s.layerCfg false c.layer).w).getD c.vTaps

/-- Scaler `n` runs with reduced taps (R137). -/
def State.reduced (s : State) (n : Nat) : Bool := s.scalerRuns n && s.runTaps n != (s.scalerCfg false n).vTaps

/-- Each scaler shows its taps in use under the active set, 0 while it is idle: after a transfer, and after an image has
been applied (R141, R398). -/
def State.scalerTaps (s : State) : State :=
  forUpto 4 (fun n s => s.put (F.SCL_SCn_STATUS_EFF_TAPS n) (if s.scalerRuns n then s.runTaps n else 0)) s

/-- After a transfer each provided scaler shows its taps in use; DEGRADED of a scaler that the commit leaves idle stays
as it was, until a commit is taken that runs it at its full V_TAPS (R137, R141). -/
def State.scalerStatus (s : State) : State :=
  forUpto 4 (fun n s =>
    if s.scalerRuns n then s.putB (F.SCL_SCn_STATUS_DEGRADED n) (s.reduced n) else s) s.scalerTaps

/-- NEED of each scaler at full V_TAPS, computed at every commit instant (R141).  DESIGN CHOICE (log entry 71): it is
computed from the shadow set, and a scaler that is idle there shows 0. -/
def State.scalerNeeds (s : State) : State :=
  forUpto 4 (fun n s =>
    let c := s.scalerCfg true n
    if !c.present then s
    else if c.en && (s.layerCfg true c.layer).visible then
      s.put (F.SCL_SCn_STATUS_NEED n) (min 255 (scalerNeed c.vTaps c.vStep (s.layerCfg true c.layer).w))
    else s.put (F.SCL_SCn_STATUS_NEED n) 0) s

/-- DEGRADED of some scaler stands. -/
def State.anyDegraded (s : State) : Bool := (List.range 4).any fun n => s.flag (F.SCL_SCn_STATUS_DEGRADED n)

/-- The registers whose change at a commit asks for a mask pass (R150). -/
def maskTriggers : List Nat :=
  [A.MSK_ORIGIN, A.MSK_EPOCH, A.MSK_TIMEOUT, A.MSK_FBn 0, A.MSK_FBn 1, A.MSK_FBn 2, A.MSK_FBn 3]

/-- A commit that changed an active value of those registers asks for a pass (R150). -/
def State.maskTrigger (s before : State) : State :=
  if maskTriggers.any fun a => s.reg a != before.reg a then { s with msk := { s.msk with full := true } } else s

/-- A commit is taken (R127, R129, R137). -/
def State.commitTake (s : State) : State :=
  let kept := layerMask fun i => s.notReady i && s.holdMode i != 1
  let drop := layerMask fun i => s.notReady i && s.holdMode i == 1
  let dropped' := BitVec.ofNat 12
    (layerMask fun i => s.notReady i && (s.holdMode i == 1 || s.cmp.dropped.getLsbD i))
  let s1 := (s.transfer s.heldAddr).maskTrigger s
  let s2 := forUpto 12 (fun i t => if s.notReady i then t.inc (holdCntField i) else t) s1.sigInvalid
  let s3 := if kept + drop ≠ 0 then s2.irq Irq.layerHeld else s2
  let s4 := { s3 with cmp := { s3.cmp with dropped := dropped', staleRun := 0, staleReported := false } }
  let s5 := ((s4.put F.GLB_COMMIT_LAYERS_KEPT kept).put F.GLB_COMMIT_LAYERS_DROPPED drop).scalerStatus
  let s6 := s5.putB F.GLB_COMMIT_STATUS_DEGRADED s5.anyDegraded
  let s7 := if (List.range 4).any s6.reduced then s6.raise Code.SCL_DEGRADED 0 else s6
  (((s7.put F.GLB_COMMIT_STATUS_STATE 0).put F.GLB_COMMIT_STATUS_LAST 1).inc
    F.GLB_COMMIT_CNT_TAKEN).irq Irq.commitTaken

/-- A commit is rejected at the instant (R129). -/
def State.commitRejectAt (s : State) (layer reason : Nat) : State :=
  ((((((s.put F.GLB_COMMIT_STATUS_STATE 0).put F.GLB_COMMIT_STATUS_LAST 2).put
    F.GLB_COMMIT_STATUS_REASON reason).put F.GLB_COMMIT_STATUS_LAYER layer).inc
    F.GLB_COMMIT_CNT_REJECTED).irq Irq.commitRejected).raiseI Code.GLB_COMMIT_REJ s.cmp.armInfo

/-- A commit is held to the next instant (R127). -/
def State.commitHold (s : State) : State :=
  (((s.put F.GLB_COMMIT_STATUS_STATE 2).inc F.GLB_COMMIT_CNT_HELD).irq Irq.layerHeld).setReg
    A.GLB_COMMIT_TARGET (s.ras.frame + 1)

/-- An instant at which no commit is taken counts towards STALE; the run's one report falls due (R124). -/
def State.staleCount (s : State) : State :=
  let st := s.get F.GLB_COMMIT_CTRL_STALE
  if st = 0 then s
  else
    let n := s.cmp.staleRun + 1
    if st ≤ n ∧ s.cmp.staleReported = false then
      { s with cmp := { s.cmp with staleRun := n, staleDue := true, staleReported := true } }
    else { s with cmp := { s.cmp with staleRun := n } }

/-- COMMIT_RESOLVE: what the commit instant does with an armed commit (R125). -/
def State.commitResolve (s : State) : State :=
  State.scalerNeeds <|
    if s.get F.GLB_COMMIT_STATUS_STATE = 0 then s.staleCount
    else
      match s.configFail with
      | some (layer, reason) => (s.commitRejectAt layer reason).staleCount
      | none =>
        if (List.range 12).any fun i => s.notReady i && s.holdMode i == 2 then s.commitHold.staleCount
        else s.commitTake

/-! ### The commands -/

/-- COMMIT_ARM: a write of GLB_COMMIT with ARM = 1 (R119, R122). -/
def execCommitArm (i : Initiator) (rdy : BitVec 12) (alive : Byte) (s : State) : Host.Outcome State Fault Refusal :=
  .next (s.portWrite i A.GLB_COMMIT fun s =>
    s.commitRequest (BitVec.ofNat 32 (rdy.toNat * 65536 + 256 + alive.toNat)) { init := initNo i, access := writeKind i })

/-- COMMIT_WITHDRAW: a write of GLB_COMMIT with ARM = 0 (R119). -/
def execCommitWithdraw (i : Initiator) (s : State) : Host.Outcome State Fault Refusal :=
  .next (s.portWrite i A.GLB_COMMIT fun s => s.commitRequest 0 { init := initNo i, access := writeKind i })

/-- COMMIT_STALE: the run of instants without a taken commit is reported once (R124). -/
def execCommitStale (s : State) : Host.Outcome State Fault Refusal :=
  .next (if s.aonOn && s.cmp.staleDue then
    { (s.raise Code.GLB_STALE 0).irq Irq.hostTimeout with
      cmp := { s.cmp with staleDue := false } } else s)

end Sys2Proof.Machine
end

