-- ==== Sys2Proof/Machine/Health.lean ====
section
/-!
DEFINITION. Pixel health: sensing, the defect map and its store, readback and region signatures
(spec/09_pixel_health.md).
-/

namespace Sys2Proof.Machine

/-! ### The defect map (R212, R213, R215, R217) -/

namespace Cause
def open_ : Nat := 1
def short : Nat := 2
def stuck : Nat := 3
def isoFail : Nat := 4
def manual : Nat := 5
def leak : Nat := 6
end Cause

/-- ADDR of a pixel in a fault (R319). -/
def pixelAddr (x y : Nat) : Nat := 65536 * y + x

/-- Pixels of the map in a state. -/
def State.mapCount (s : State) (st : Nat) : Nat := s.hlt.map.countP fun e => e.2.1 == st

/-- The defect counts are shown and compared with the limit (R217). -/
def State.defectLimit (s : State) : State :=
  let d := s.mapCount 1
  let i := s.mapCount 2
  let s1 := (s.put F.HLT_DEFECT_CNT_DEAD (min d 0xFFFF)).put F.HLT_DEFECT_CNT_ISOLATED (min i 0xFFFF)
  let l := s.get F.HLT_DEFECT_LIMIT_LIMIT
  if l != 0 && decide (l < d + i) && !s.hlt.limitReported then
    { s1.raise Code.HLT_DEFECT_LIMIT 0 with hlt := { s1.hlt with limitReported := true } }
  else s1

/-- A pixel's map state changes to a higher one, in both copies, with the cause that set it; a copy that holds a higher
state already keeps it, and the first copy its cause (R213). -/
def State.mapRaise (s : State) (x y st cause : Nat) : State :=
  let e := sparseGet mapDefault s.hlt.map (pixelKey x y)
  let c := s.mapState2 x y
  if st ≤ e.1 && st ≤ c then s
  else
    { s with hlt := { s.hlt with
        map := sparseSet mapDefault s.hlt.map (pixelKey x y) (if st ≤ e.1 then e else (st, cause)),
        mapCopy := sparseSet (fun _ => 0) s.hlt.mapCopy (pixelKey x y) (max c st) } }.defectLimit

/-- The log takes an entry, or loses it when full (R216). -/
def State.logPush (s : State) (x y cause : Nat) : State :=
  if 64 ≤ s.hlt.log.length then s.inc F.HLT_CNT_DLOG_OVF
  else { s with hlt := { s.hlt with log := s.hlt.log ++ [{ x := x, y := y, cause := cause, frame := s.ras.frame }] } }

/-- Map state that a confirmed cause sets; 0 = unchanged (R212). -/
def confirmState (cause : Nat) : Nat :=
  if cause = Cause.open_ ∨ cause = Cause.isoFail then 1
  else if cause = Cause.short ∨ cause = Cause.stuck then 2
  else 0

/-- DEFECT_CONFIRM: a finding is confirmed (R212). -/
def State.confirmed (s : State) (x y cause : Nat) : State :=
  let s1 := s.mapRaise x y (confirmState cause) cause
  let s2 := s1.raise (if cause = Cause.leak then Code.HLT_ISO_LEAK else Code.HLT_PIXEL_DEFECT) (pixelAddr x y)
  (s2.irq Irq.pixelDefect).logPush x y cause

/-- Key of a confirmation count; LEAK counts fifth. -/
def confirmKey (x y cause : Nat) : Nat := 5 * pixelKey x y + (min cause 5 - 1)

/-- A pixel's confirmation count of a cause. -/
def State.confirmCount (s : State) (x y cause : Nat) : Nat :=
  sparseGet (fun _ => 0) s.hlt.confirm (confirmKey x y cause)

/-- The count takes a value. -/
def State.setConfirm (s : State) (x y cause n : Nat) : State :=
  { s with hlt := { s.hlt with confirm := sparseSet (fun _ => 0) s.hlt.confirm (confirmKey x y cause) n } }

/-- A result names a cause: its count goes up, and at CONFIRM the finding is confirmed (R212). -/
def State.senseBad (s : State) (x y cause : Nat) : State :=
  let n := s.confirmCount x y cause + 1
  if max (s.get F.HLT_SENSE_CFG_CONFIRM) 1 ≤ n then (s.setConfirm x y cause 0).confirmed x y cause
  else s.setConfirm x y cause n

/-- The results of one test for one cause: the pixels named count up, the other tested pixels of the row
whose count stands return to 0 (R212). -/
def State.senseCause (s : State) (y cause : Nat) (tested : Nat → Bool) (bad : List Nat) : State :=
  let kept := { s with hlt := { s.hlt with confirm := s.hlt.confirm.filter fun e =>
    !(e.1 % 5 == min cause 5 - 1 && e.1 / 5 / 2048 == y && tested (e.1 / 5 % 2048) &&
      !bad.contains (e.1 / 5 % 2048)) } }
  bad.foldl (fun s x => s.senseBad x y cause) kept

/-! ### Sensing (R208-R212) -/

/-- The whole line's results are discarded (R210). -/
def State.senseDiscard (s : State) : Bool :=
  s.darkNets || s.flag F.ARY_STATUS_ISET_BAD || !s.flag F.LPE_STATUS_IN_REG

/-- A row is discarded in this frame (R211). -/
def State.rowDiscard (s : State) (y : Nat) : State :=
  let o := sparseGet (fun _ => (0, 0)) s.hlt.rowRun y
  let n := if o.2 ≠ 0 ∧ o.1 + 1 = s.ras.frame then min (o.2 + 1) 3 else 1
  let s1 := s.inc F.HLT_CNT_ROW_DISCARD
  { s1 with hlt := { s1.hlt with
      rowRun := sparseSet (fun _ => (0, 0)) s1.hlt.rowRun y (s.ras.frame, n),
      senseDue := if 3 ≤ n then s1.hlt.senseDue ++ [y] else s1.hlt.senseDue } }

/-- Columns of the row below 2,048, each once, in rising order. -/
def columnsOf (l : List Nat) : List Nat := (l.filter fun x => x < 2048).foldl (fun l x => insertRow x l) []

/-- The results of probe A or B: columns whose current lies above I_t / 2 (R209). -/
def State.probe (s : State) (y : Nat) (iso : Nat → Bool) (high : List Nat) : State :=
  if s.ras.frame.getLsbD 0 then
    s.senseCause y Cause.isoFail (fun x => !iso x) (high.filter fun x => !iso x)
  else
    (s.senseCause y Cause.stuck (fun x => !iso x) (high.filter fun x => !iso x)).senseCause y Cause.leak iso
      (high.filter iso)

/-- The results of the test pulse: columns whose sink current lies below I_t / 2, and forward voltages
in mV of columns; a column not listed lies above every SHORT_MV (R209, R211). -/
def State.testPulse (s : State) (y : Nat) (iso : Nat → Bool) (low : List Nat) (volts : List (Nat × Nat)) : State :=
  let opens := (columnsOf low).filter fun x => !iso x
  let shorts := (columnsOf ((volts.filter fun v => v.2 < s.get F.HLT_SENSE_CFG_SHORT_MV).map fun v => v.1)).filter
    fun x => !iso x && !opens.contains x
  if s.get F.HLT_SENSE_CFG_ROW_LIMIT < opens.length + shorts.length then
    let named := fun x => opens.contains x || shorts.contains x
    ((s.rowDiscard y).senseCause y Cause.open_ (fun x => !iso x && !named x) []).senseCause y Cause.short
      (fun x => !iso x && !named x) []
  else
    (s.senseCause y Cause.open_ (fun x => !iso x && !shorts.contains x) opens).senseCause y Cause.short
      (fun x => !iso x && !opens.contains x) shorts

/-- The sense results of row `y` at the end of slot 4. -/
def State.senseRow (s : State) (y : Nat) (high low : List Nat) (volts : List (Nat × Nat)) : State :=
  if s.senseDiscard then s.inc F.HLT_CNT_SENSE_DISCARD
  else
    let d := s.displayRow y
    let iso := fun x => wordIso (d.getD x 0)
    (s.probe y iso (columnsOf high)).testPulse y iso low volts

/-- EMITTER_SENSE: slots 3 and 4 of an active line (R208); LIMITER_RAISE falls at slot 3 (R177).  The
comparators' findings come from the emitters: columns above I_t / 2 in the probe, columns below it in the
test pulse, and forward voltages in mV. -/
def execEmitterSense (high low : List Nat) (volts : List (Nat × Nat)) (s : State) : Host.Outcome State Fault Refusal :=
  .next (if s.lineOn && s.ras.line < 512 && s.slotOpen 4 && !s.hlt.sensed then
    let s1 := (s.toSlot 3).limiterRaise
    let s2 := if s1.pixOn && !s1.holdLines then s1.senseRow s1.ras.line high low volts else s1
    { s2 with hlt := { s2.hlt with sensed := true } }.toSlot 5
  else s)

/-- SENSE_ROW_FAULT: a row has been discarded in 3 consecutive frames (R211). -/
def execSenseRowFault (s : State) : Host.Outcome State Fault Refusal :=
  .next (match s.hlt.senseDue with
    | y :: t =>
      if s.coreRun then { s.raise Code.HLT_SENSE_ROW y with hlt := { s.hlt with senseDue := t } } else s
    | [] => s)

/-! ### Commands on the map and the log (R215-R217) -/

/-- What a write of HLT_DEFECT_SET does (R215). -/
def State.defectSet (s : State) (v : Word) : State :=
  let st := wordGet v 31 30
  if st = 1 ∨ st = 2 then s.mapRaise (wordGet v 10 0) (wordGet v 24 16) st Cause.manual else s

/-- HLT_DEFECT_SET (R215). -/
def execHltDefectSet (i : Initiator) (v : Word) (s : State) : Host.Outcome State Fault Refusal :=
  .next (s.portWrite i A.HLT_DEFECT_SET fun s => s.defectSet v)

/-- HLT_DLOG0 of the oldest entry (R216). -/
def State.dlog0View (s : State) : Word :=
  match s.hlt.log with
  | [] => 0
  | e :: _ => BitVec.ofNat 32 (2 ^ 31 + e.cause * 2 ^ 28 + e.y * 65536 + e.x)

/-- HLT_DLOG1 of the oldest entry. -/
def State.dlog1View (s : State) : Word :=
  match s.hlt.log with
  | [] => 0
  | e :: _ => e.frame

/-- The read of HLT_DLOG0 removes the oldest entry (R216). -/
def State.dlog0Read (s : State) : Word × State :=
  (s.dlog0View, { s with hlt := { s.hlt with log := s.hlt.log.drop 1 } })

/-- HLT_DLOG0_READ (R216). -/
def execHltDlog0Read (i : Initiator) (s : State) : Host.Outcome State Fault Refusal :=
  .next (s.portRead i A.HLT_DLOG0 State.dlog0Read)

/-- What a write of HLT_DEFECT_LIMIT does (R217). -/
def State.defectLimitWrite (s : State) (v : Word) : State :=
  (s.put F.HLT_DEFECT_LIMIT_LIMIT (wordGet v 20 0)).defectLimit

/-- DEFECT_LIMIT_WRITE (R217). -/
def execDefectLimitWrite (i : Initiator) (v : Word) (s : State) : Host.Outcome State Fault Refusal :=
  .next (s.portWrite i A.HLT_DEFECT_LIMIT fun s => s.defectLimitWrite v)

/-- HLT_DEFECT_STATE of the selected pixel (R215). -/
def State.defectStateView (s : State) : Word :=
  let x := s.get F.HLT_DEFECT_SEL_X
  let y := s.get F.HLT_DEFECT_SEL_Y
  let e := sparseGet mapDefault s.hlt.map (pixelKey x y)
  BitVec.ofNat 32 (s.confirmCount x y Cause.stuck * 4096 + e.2 * 16 + e.1)

/-! ### The stored map (R218, R219) -/

/-- Address of copy `k` of the stored map (R218). -/
def mapCopyAddr (k : Nat) : Nat := 0x081A0000 + 0x10000 * k

/-- COUNT and GEN of a stored copy. -/
def State.storedCount (s : State) (k : Nat) : Nat := wordGet (s.nvWord (mapCopyAddr k)) 15 0
def State.storedGen (s : State) (k : Nat) : Nat := wordGet (s.nvWord (mapCopyAddr k)) 31 16

/-- A stored copy is valid (R218). -/
def State.storedOk (s : State) (k : Nat) : Bool :=
  s.storedCount k ≤ 16382 &&
    crc32 (s.nvBytes (mapCopyAddr k) 0xFFFC) == s.nvWord (mapCopyAddr k + 0xFFFC)

/-- Of two generations of 16 bits, the second is newer (R18). -/
def genNewer (a b : Nat) : Bool := let d := (b + 65536 - a) % 65536; 0 < d && d < 32768

/-- The copy in force of an A/B partition: the newer valid one, A if the generations are equal. -/
def inForce (okA okB : Bool) (genA genB : Nat) : Option Nat :=
  if okA && okB then some (if genNewer genA genB then 1 else 0)
  else if okA then some 0
  else if okB then some 1
  else none

/-- The winning copy of the stored map (R218). -/
def State.mapWinner (s : State) : Option Nat :=
  inForce (s.storedOk 0) (s.storedOk 1) (s.storedGen 0) (s.storedGen 1)

/-- An entry of a stored map: x, y, state, cause; none if it is skipped (R218). -/
def mapEntry (w : Word) : Option (Nat × Nat × Nat × Nat) :=
  let st := wordGet w 31 30
  let c := wordGet w 29 27
  if st = 1 ∨ st = 2 then
    some (wordGet w 10 0, wordGet w 24 16, st, if c = 0 ∨ 6 ≤ c then Cause.manual else c)
  else none

/-- The entries of a stored copy. -/
def State.mapEntries (s : State) (k : Nat) : List (Nat × Nat × Nat × Nat) :=
  (s.nvWords (mapCopyAddr k + 4) (s.storedCount k)).filterMap mapEntry

/-- The winning copy is merged into the working map (R219, RESTORE). -/
def State.mapMerge (s : State) : State :=
  match s.mapWinner with
  | none => s
  | some k => (s.mapEntries k).foldl (fun s e => s.mapRaise e.1 e.2.1 e.2.2.1 e.2.2.2) s

/-- The working map at boot: the winning copy, every other pixel GOOD (R218). -/
def State.mapBoot (s : State) : State :=
  let s0 := { s with hlt := { s.hlt with map := [], mapCopy := [], confirm := [] } }
  match s.mapWinner with
  | none => (s0.raise Code.HLT_MAP_NVM 0).defectLimit
  | some _ => s0.mapMerge.defectLimit

/-- An entry as STORE writes it (R218). -/
def entryWord (e : Nat × (Nat × Nat)) : Word :=
  BitVec.ofNat 32 (e.2.1 * 2 ^ 30 + e.2.2 * 2 ^ 27 + e.1 / 2048 * 65536 + e.1 % 2048)

/-- The words of a list, in memory order. -/
def wordsBytes (ws : List Word) : List Byte := ws.flatMap leBytes

/-- 64-byte units of consecutive bytes from an aligned address on. -/
def unitsFrom (a : Nat) : Nat → List Byte → List (Nat × List Byte)
  | 0, _ => []
  | n + 1, bs => (a, bs.take 64) :: unitsFrom (a + 64) n (bs.drop 64)

/-- New bytes at the front of a partition that holds `old`, and the units that hold them; then the unit of
the check word, computed over all bytes before it and written last (R410). -/
def partitionUnits (a size : Nat) (old new : List Byte) : List (Nat × List Byte) :=
  let bytes := new ++ (old.drop new.length)
  let body := bytes.take (size - 4)
  let n := (new.length + 63) / 64
  let last := (body.drop (size - 64)) ++ leBytes (crc32 body)
  (unitsFrom a n bytes).filter (fun u => u.1 != a + size - 64) ++ [(a + size - 64, last)]

/-- The units of a STORE (R219). -/
def State.storeUnits (s : State) : List (Nat × List Byte) :=
  let w := s.mapWinner
  let k := match w with
    | some 0 => 1
    | _ => 0
  let gen := match w with
    | some j => (s.storedGen j + 1) % 65536
    | none => 1
  let es := s.hlt.map.filter fun e => e.2.1 == 1 || e.2.1 == 2
  partitionUnits (mapCopyAddr k) 0x10000 (s.nvBytes (mapCopyAddr k) 0x10000)
    (wordsBytes (BitVec.ofNat 32 (gen * 65536 + es.length) :: es.map entryWord))

/-- HLT_REBUILD shows the outcome of a DEFECT_REBUILD (R219). -/
def State.rebuildResult (s : State) (result reason : Nat) : State :=
  (s.put F.HLT_REBUILD_RESULT result).put F.HLT_REBUILD_REASON reason

/-- A DEFECT_REBUILD passes its commit point and ends DONE. -/
def State.rebuildDone (s : State) : State :=
  ((s.rebuildResult 1 0).jobCommitOf Job.defectRebuild).jobEndOf Job.defectRebuild Job.done

/-- START of a DEFECT_REBUILD: false = refused through OWNER (R219). -/
def State.rebuildStart (s : State) : State × Bool :=
  let m := s.get F.HLT_REBUILD_MODE
  let s0 := { s with hlt := { s.hlt with rebuildMode := m } }
  let lc := s.get F.CFG_LC_STATE
  if m = 3 then (s.rebuildResult 2 1, false)
  else if m = 1 then
    if lc = 1 ∨ lc = 3 then
      ({ s0 with hlt := { s0.hlt with map := [], mapCopy := [], confirm := [] } }.defectLimit.rebuildDone, true)
    else (s.rebuildResult 2 3, false)
  else if m = 0 then
    if 16382 < (s.mapCount 1 + s.mapCount 2) then
      ((s0.rebuildResult 2 2).jobEndOf Job.defectRebuild Job.failed, true)
    else
      ({ s0 with nvmw := { s0.nvmw with
          tasks := s0.nvmw.tasks ++ [{ owner := Job.defectRebuild, units := s0.storeUnits }] } }, true)
  else (s0, true)

/-- RESTORE_MERGE_DONE: the last pixel of a RESTORE is merged (R219). -/
def execRestoreMergeDone (s : State) : Host.Outcome State Fault Refusal :=
  .next (if s.coreRun && (s.findRunning Job.defectRebuild).isSome && s.hlt.rebuildMode == 2 then
    s.mapMerge.rebuildDone else s)

/-! ### Readback (R220, R221) -/

/-- The words last written into a row (R221). -/
def State.writtenRow (s : State) (y : Nat) : Row := sparseGet blackRow s.hlt.written y

/-- Bytes of a row of words, two each, least significant first (R223). -/
def rowBytes (r : Row) : List Byte := r.flatMap fun v => natBytes 2 v

/-- The CRC-32 of the words read is that of the words last written (R221). -/
def rowCrcOk (r w : Row) : Bool := r == w || crc32 (rowBytes r) == crc32 (rowBytes w)

/-- Words read with even parity are counted and reported (R221). -/
def State.rbParity (s : State) : Row → State
  | [] => s
  | w :: t => if wordOk w then s.rbParity t
    else ((s.inc F.HLT_RB_CNT_PARITY).raise Code.HLT_RB_PARITY 0).rbParity t

/-- READBACK_COMPARE: a row that differs from its kept CRC (R221). -/
def State.rbMismatch (s : State) (y : Nat) : State :=
  let o := sparseGet (fun _ => (0, 0)) s.hlt.rbRow y
  let n := if o.2 ≠ 0 ∧ o.1 + 1 = s.ras.frame then min (o.2 + 1) 15 else 1
  let s1 := (s.inc F.HLT_RB_CNT_MISMATCH_ROWS).raise Code.HLT_RB_MISMATCH y
  { s1 with hlt := { s1.hlt with
      rbRow := sparseSet (fun _ => (0, 0)) s1.hlt.rbRow y (s.ras.frame, n),
      persistDue := if max (s.get F.HLT_RB_CFG_PERSIST) 1 ≤ n then s1.hlt.persistDue ++ [y]
        else s1.hlt.persistDue } }

/-- The row enters the RB taps of the regions it crosses, with its written side (R223). -/
def State.rbTap (s : State) (y : Nat) (row : Row) : State :=
  forUpto 32 (fun n s =>
    let r := s.regionRect n
    if s.regionOn n && s.flag (F.HLT_Rn_CTRL_TAP_RB n) && rectOk r && r.2.1 ≤ y && y ≤ r.2.2.2 then
      { s with hlt := { s.hlt with
          rbAcc := sparseSet accDefault s.hlt.rbAcc n (tapRow (sparseGet accDefault s.hlt.rbAcc n) r row),
          wrAcc := sparseSet accDefault s.hlt.wrAcc n
            (tapRow (sparseGet accDefault s.hlt.wrAcc n) r (s.writtenRow y)) } }
    else s) s

/-- READBACK: slots 5 to 7 of an active line (R220, R221, R223).  Upsets of the storage latches come from
the cells themselves. -/
def execReadback (upsets : List (Nat × BitVec 16)) (s : State) : Host.Outcome State Fault Refusal :=
  .next (if s.lineOn && s.ras.line < 512 && s.slotOpen 7 && !s.hlt.readBack && s.pixOn &&
      !s.holdLines then
    let y := s.ras.line
    let row := flipWords (s.storageRow y) upsets
    let s1 := { s with ary := { s.ary with storage := sparseSet blackRow s.ary.storage y row } }
    let s2 := s1.rbParity row
    let s3 := if rowCrcOk row (s2.writtenRow y) then s2 else s2.rbMismatch y
    let s4 := s3.rbTap y row
    { s4 with hlt := { s4.hlt with readBack := true, rbRows := insertRow y s4.hlt.rbRows } }.toSlot 8
  else s)

/-- RB_PERSIST: a row has mismatched in PERSIST consecutive frames (R221). -/
def execRbPersist (s : State) : Host.Outcome State Fault Refusal :=
  .next (match s.hlt.persistDue with
    | y :: t =>
      if s.coreRun then { s.raise Code.HLT_RB_PERSIST y with hlt := { s.hlt with persistDue := t } } else s
    | [] => s)

/-! ### Region signatures (R222-R225) -/

/-- The run of consecutive frames in which region `n` failed a comparison ends (R225): it was not made in this frame. -/
def State.sigRun (s : State) (n : Nat) (rb : Bool) : State :=
  { s with hlt :=
      if rb then { s.hlt with rbRuns := sparseSet (fun _ => 0) s.hlt.rbRuns n 0 }
      else { s.hlt with outRuns := sparseSet (fun _ => 0) s.hlt.outRuns n 0 } }

/-- A comparison of a region has failed or passed: flags, interrupt, run (R225). -/
def State.sigVerdict (s : State) (n : Nat) (rb fail : Bool) : State :=
  let s1 := if rb then s.putB (F.HLT_Rn_STATUS_RB_FAIL n) fail else s.putB (F.HLT_Rn_STATUS_OUT_FAIL n) fail
  let old := sparseGet (fun _ => 0) (if rb then s.hlt.rbRuns else s.hlt.outRuns) n
  let k := if fail then min (old + 1) 255 else 0
  let s2 := if rb then { s1 with hlt := { s1.hlt with rbRuns := sparseSet (fun _ => 0) s1.hlt.rbRuns n k } }
    else { s1 with hlt := { s1.hlt with outRuns := sparseSet (fun _ => 0) s1.hlt.outRuns n k } }
  if fail then
    let a := if rb then A.HLT_SIG_RB_FLAGS else A.HLT_SIG_OUT_FLAGS
    let s3 := (s2.setReg a (s2.reg a ||| BitVec.ofNat 32 (2 ^ n))).irq Irq.signatureMismatch
    if max (s.get F.HLT_SIG_CFG_MISS_LIMIT) 1 ≤ k then
      { s3 with hlt := { s3.hlt with missDue := s3.hlt.missDue ++ [(n, rb)] } } else s3
  else s2

/-- A row of the rectangle was not read back in the frame. -/
def State.rbIncomplete (s : State) (r : Nat × Nat × Nat × Nat) : Bool :=
  (List.range (r.2.2.2 + 1 - r.2.1)).any fun i => !s.hlt.rbRows.contains (r.2.1 + i)

/-- The OUT result of region `n` is latched and compared; nothing in a lead-in frame (R224, R513). -/
def State.sigOut (s : State) (n : Nat) : State :=
  if s.flag (F.HLT_Rn_CTRL_TAP_OUT n) && !s.ras.leadIn then
    let v := sparseGet accDefault s.hlt.outAcc n ^^^ 0xFFFFFFFF#32
    let s1 := s.setReg (A.HLT_Rn_OUT n) v
    if s.flag (F.HLT_Rn_CTRL_MODE n) then s1.sigVerdict n false (v != s.reg (A.HLT_Rn_EXP n)) else s1.sigRun n false
  else s.sigRun n false

/-- The RB result of region `n` is latched and compared with its written side (R224). -/
def State.sigRb (s : State) (n : Nat) : State :=
  if s.flag (F.HLT_Rn_CTRL_TAP_RB n) then
    let v := sparseGet accDefault s.hlt.rbAcc n
    let s1 := s.setReg (A.HLT_Rn_RB n) (v ^^^ 0xFFFFFFFF#32)
    if s.rbIncomplete (s.regionRect n) then (s1.put (F.HLT_Rn_STATUS_INCOMPLETE n) 1).sigRun n true
    else (s1.put (F.HLT_Rn_STATUS_INCOMPLETE n) 0).sigVerdict n true (v != sparseGet accDefault s.hlt.wrAcc n)
  else s.sigRun n true

/-- SIGNATURE_LATCH: the results of the frame, before any commit transfer (R224). -/
def State.signatureLatch (s : State) : State :=
  let s1 := forUpto 32 (fun n s =>
    if s.regionOn n && rectOk (s.regionRect n) then (s.sigOut n).sigRb n
    else (s.sigRun n false).sigRun n true) s
  let s2 := if s1.get F.HLT_SIG_CFG_N_REG = 0 then s1 else s1.setReg A.HLT_SIG_FRAME s.ras.frame
  { s2 with hlt := { s2.hlt with rbAcc := [], wrAcc := [], rbRows := [] } }

/-- SIGNATURE_MISS_LIMIT: a region has failed the same comparison MISS_LIMIT times in a row (R225). -/
def execSignatureMissLimit (s : State) : Host.Outcome State Fault Refusal :=
  .next (match s.hlt.missDue with
    | r :: t =>
      if s.coreRun then
        { s.raise (if r.2 then Code.HLT_SIG_RB else Code.HLT_SIG_OUT) r.1 with
          hlt := { s.hlt with missDue := t } } else s
    | [] => s)

end Sys2Proof.Machine
end

