-- ==== Sys2Proof/Machine/Record.lean ====
section
/-!
DEFINITION. The event recorder: its banks, events and rate limits, extremes, histograms and checkpoints
(spec/19_recorder.md).
-/

namespace Sys2Proof.Machine

/-! ### Banks -/

/-- Saturation to `w` bits. -/
def satTo (w n : Nat) : Nat := min n (2 ^ w - 1)

/-- What an unlisted count reads as. -/
def noCount (_ : Nat) : Nat := 0

/-- REC is powered and clocked: CORE is on and not frozen, and the module is not in SAFE. -/
def State.recorderOn (s : State) : Bool := s.coreOn && !s.frozen

/-- The collecting bank (R468). -/
def State.collect (s : State) : RecBank := if s.flag F.REC_STATUS_BANK then s.recd.y else s.recd.x

/-- The other bank: frozen while a checkpoint runs. -/
def State.frozenBank (s : State) : RecBank := if s.flag F.REC_STATUS_BANK then s.recd.x else s.recd.y

/-- The collecting bank changes. -/
def State.setCollect (s : State) (b : RecBank) : State :=
  if s.flag F.REC_STATUS_BANK then { s with recd := { s.recd with y := b } }
  else { s with recd := { s.recd with x := b } }

/-- The other bank changes. -/
def State.setFrozen (s : State) (b : RecBank) : State :=
  if s.flag F.REC_STATUS_BANK then { s with recd := { s.recd with x := b } }
  else { s with recd := { s.recd with y := b } }

/-- Of two extremes the more extreme; on a tie the first, which is the earlier (R465, R468).  E1 is a
lowest value. -/
def betterExt (e : Nat) (a b : Option (Int × List Word)) : Option (Int × List Word) :=
  match a, b with
  | some x, some y => if (if e = 1 then y.1 < x.1 else x.1 < y.1) then some y else some x
  | some x, none => some x
  | none, y => y

/-- Counts added key by key, each saturated to `w` bits. -/
def addCounts (w : Nat) (a b : List (Nat × Nat)) : List (Nat × Nat) :=
  b.foldl (fun m e => sparseSet noCount m e.1 (satTo w (sparseGet noCount m e.1 + e.2))) a

/-- Two banks together: `a` earlier, `b` later; the logs follow one another up to 256 entries, with the
excess counted as lost (R468, R469). -/
def joinBanks (a b : RecBank) : RecBank :=
  { opSecs := satTo 32 (a.opSecs + b.opSecs)
    litSecs := satTo 32 (a.litSecs + b.litSecs)
    counts := addCounts 32 a.counts b.counts
    supp := addCounts 16 a.supp b.supp
    bins := addCounts 32 a.bins b.bins
    ext := (List.range 5).map fun e => betterExt e (a.ext.getD e none) (b.ext.getD e none)
    log := (a.log ++ b.log).take 256
    lost := satTo 32 (a.lost + b.lost + ((a.log ++ b.log).length - 256)) }

/-- Base and both banks together: the live values (R463). -/
def State.recLive (s : State) : RecBank := joinBanks s.recd.base (joinBanks s.frozenBank s.collect)

/-! ### Extremes, events (R465-R467) -/

/-- A value sampled for extreme `e` (R465). -/
def State.recExt (s : State) (e : Nat) (v : Int) : State :=
  if s.recorderOn then
    let b := s.collect
    s.setCollect { b with ext := b.ext.set e (betterExt e (b.ext.getD e none) (some (v, s.stamp))) }
  else s

/-- What an unlisted rate limit reads as. -/
def limitDefault (_ : Nat) : Nat := 16

/-- A log entry (R467). -/
def State.logEntry (s : State) (code cls addr : Nat) (esc : Bool) : List Word :=
  [BitVec.ofNat 32 (code + 256 * cls + 2048 * b2n esc), BitVec.ofNat 32 addr] ++ s.stamp ++
    [s.reg A.SAF_TICK, 0, 0]

/-- A log entry joins the collecting bank, or is lost (R467); a log that fills raises
FLT_REC_LOG_FULL. -/
def State.recLog (s : State) (e : List Word) : State :=
  let b := s.collect
  if 256 ≤ b.log.length then (s.setCollect { b with lost := satTo 32 (b.lost + 1) }).inc F.REC_CNT_LOG_LOST
  else
    let s1 := s.setCollect { b with log := b.log ++ [e] }
    if b.log.length = 255 then s1.raise Code.REC_LOG_FULL 0 else s1

/-- An event of a code: recorded, or counted as suppressed (R466). -/
def State.recEvent (s : State) (code cls addr : Nat) (esc : Bool) : State :=
  if !s.recorderOn then s
  else
    let n := sparseGet noCount s.recd.window code
    let lim := sparseGet limitDefault s.recd.limits code
    let s1 := { s with recd := { s.recd with window := sparseSet noCount s.recd.window code (n + 1) } }
    let b := s1.collect
    if lim = 0 ∨ n < lim then
      (s1.setCollect { b with counts := addCounts 32 b.counts [(code, 1)] }).recLog (s1.logEntry code cls addr esc)
    else
      let s2 := s1.setCollect { b with supp := addCounts 16 b.supp [(code, 1)] }
      if s2.recd.suppWindow then s2
      else { s2 with recd := { s2.recd with suppWindow := true } }.raise Code.REC_SUPPRESS 0

/-- A rate window begins (R466). -/
def State.recWindow (s : State) : State :=
  { s with recd := { s.recd with window := [], suppWindow := false } }

/-! ### Checkpoints (R468-R471) -/

/-- Address of a stored copy (R472). -/
def recCopyAddr (k : Nat) : Nat := if k = 0 then 0x08160000 else 0x08180000

/-- A copy is valid: its check word matches and its two sequence words agree (R470). -/
def State.recCopyOk (s : State) (k : Nat) : Bool :=
  crc32 (s.nvBytes (recCopyAddr k) 0x1FFFC) == s.nvWord (recCopyAddr k + 0x1FFFC) &&
  wordGet (s.nvWord (recCopyAddr k)) 31 16 == wordGet (s.nvWord (recCopyAddr k + 0x1FFF8)) 15 0

/-- SEQ of a copy. -/
def State.recCopySeq (s : State) (k : Nat) : Nat := wordGet (s.nvWord (recCopyAddr k)) 31 16

/-- The copy in force as REC_SEQ.SRC shows it. -/
def State.recSrc (s : State) : Option Nat :=
  match s.get F.REC_SEQ_SRC with
  | 1 => some 0
  | 2 => some 1
  | _ => none

/-- A cause of a checkpoint: it starts one, or is latched one deep while one runs (R470, R471). -/
def State.cpCause (s : State) : State :=
  if s.flag F.REC_STATUS_CP_RUN then s.put F.REC_STATUS_CP_PENDING 1
  else { s with recd := { s.recd with cpReq := true } }

/-- The running checkpoint has ended, the boot checkpoint too if it was that: a latched cause starts the next (R471). -/
def State.cpNext (s : State) : State :=
  let s1 := s.put F.REC_STATUS_CP_RUN 0
  let s2 := { s1 with recd := { s1.recd with cpLast := none, cpBoot := false } }
  if s2.flag F.REC_STATUS_CP_PENDING then
    { s2.put F.REC_STATUS_CP_PENDING 0 with recd := { s2.recd with cpReq := true } } else s2

/-- Log of the copy in force as a list of entries, oldest first (R472). -/
def State.storedLog (s : State) : List (List Word) :=
  match s.recSrc with
  | none => []
  | some k =>
    let a := recCopyAddr k
    let next := wordGet (s.nvWord (a + 0x10)) 10 0
    let n := wordGet (s.nvWord (a + 0x10)) 27 16
    (List.range n).map fun i => s.nvWords (a + 0x1000 + 32 * ((next + 2048 - n + i) % 2048)) 8

/-- The ring of 2,048 entries after further entries have been appended: next index, valid entries, and the
entry of every place (R467, R472). -/
def State.newRing (s : State) : Nat × Nat × List (List Word) :=
  let old := s.storedLog
  let next0 := match s.recSrc with
    | none => 0
    | some k => wordGet (s.nvWord (recCopyAddr k + 0x10)) 10 0
  let add := s.frozenBank.log
  let all := old ++ add
  let n := min all.length 2048
  let kept := all.drop (all.length - n)
  let next := (next0 + add.length) % 2048
  (next, n, (List.range 2048).map fun i => kept.getD ((i + 2048 + n - next) % 2048) (List.replicate 8 0))

/-- `n` words of 0. -/
def zeroWords (n : Nat) : List Word := List.replicate n 0

/-- An extreme as it is stored: value, then the three words of its time-stamp (R472). -/
def extWords (e : Option (Int × List Word)) : List Word :=
  match e with
  | none => zeroWords 4
  | some (v, t) => BitVec.ofInt 32 v :: t

/-- Extremes as stored: temperatures are T codes of 12 bits. -/
def storedExt (i : Nat) (e : Option (Int × List Word)) : List Word :=
  if i < 3 then extWords (e.map fun x => ((ofSigned 12 x.1 : Nat), x.2)) else extWords e

/-- The words of a new copy without its last two (R468, R472). -/
def State.recCopyWords (s : State) (seq : Nat) : List Word :=
  let b := joinBanks s.recd.base s.frozenBank
  let ring := s.newRing
  [BitVec.ofNat 32 (seq * 65536 + 1), BitVec.ofNat 32 s.recd.pcc, BitVec.ofNat 32 b.opSecs,
    BitVec.ofNat 32 b.litSecs, BitVec.ofNat 32 (ring.1 + 65536 * ring.2.1), BitVec.ofNat 32 b.lost, 0, 0] ++
  ((List.range 5).flatMap fun e => storedExt e (b.ext.getD e none)) ++ zeroWords 36 ++
  ((List.range 64).map fun k => BitVec.ofNat 32 (sparseGet noCount b.bins k)) ++ zeroWords 128 ++
  ((List.range 256).flatMap fun n =>
    [BitVec.ofNat 32 (sparseGet noCount b.counts n), BitVec.ofNat 32 (sparseGet noCount b.supp n)]) ++
  zeroWords 256 ++ ring.2.2.flatten ++ zeroWords 15358

/-- The copy that is not in force, and the sequence number it takes (R468, R470). -/
def State.recTarget (s : State) : Nat × Nat :=
  match s.recSrc with
  | none => (0, 1)
  | some k => (1 - k, (s.get F.REC_SEQ_SEQ + 1) % 65536)

/-- The units of a new copy in ascending order; the last one holds the check word (R468). -/
def State.recUnits (s : State) : List (Nat × List Byte) :=
  let t := s.recTarget
  let body := wordsBytes (s.recCopyWords t.2 ++ [BitVec.ofNat 32 t.2])
  unitsFrom (recCopyAddr t.1) 2048 (body ++ leBytes (crc32 body))

/-- The swap in cycle S: the banks change roles, and the units of the new copy wait for the non-volatile
writer (R468). -/
def State.cpSwap (s : State) : State :=
  let s1 := (s.put F.REC_STATUS_BANK (1 - s.get F.REC_STATUS_BANK)).put F.REC_STATUS_CP_RUN 1
  let s2 := { s1 with recd := { s1.recd with
    cpReq := false, cpReqBoot := false, cpBoot := s1.recd.cpReqBoot, cpSecs := 0, cpLast := none } }
  { s2 with nvmw := { s2.nvmw with
      tasks := s2.nvmw.tasks ++ [{ owner := Job.recCheckpoint, units := s2.recUnits }] } }

/-- CHECKPOINT_START: a checkpoint swaps the banks and begins writing, once the base to which it adds is loaded (R468,
R470). -/
def execCheckpointStart (s : State) : Host.Outcome State Fault Refusal :=
  .next (if s.recorderOn && s.recd.cpReq && !s.flag F.REC_STATUS_CP_RUN && s.flag F.REC_STATUS_LOADED then s.cpSwap else s)

/-- The commit: the new copy is in force, the base takes the written values and the frozen bank is cleared
(R468). -/
def State.cpCommit (s : State) : State :=
  let t := s.recTarget
  let s1 := ((s.put F.REC_SEQ_SRC (t.1 + 1)).put F.REC_SEQ_SEQ t.2)
  let s2 := { s1 with recd := { s1.recd with
    base := { joinBanks s1.recd.base s1.frozenBank with log := [] } } }.setFrozen {}
  let s3 := (((s2.put F.REC_CP_STATUS_RESULT 1).put F.REC_CP_STATUS_REASON 0).inc F.REC_CNT_CP_DONE).irq Irq.recorder
  let s4 := if s3.recd.cpBoot then s3.put F.REC_STATUS_PCC_SAVED 1 else s3
  let s5 := (s4.jobCommitOf Job.recCheckpoint).jobEndOf Job.recCheckpoint Job.done
  s5.cpNext

/-- The unit of the check word is written: the checkpoint commits in that cycle (R468). -/
def State.cpUnit (s : State) : State :=
  match s.recd.cpLast with
  | some u =>
    if s.flag F.REC_STATUS_CP_RUN then
      { (s.nvWrite u.1 u.2).put F.CFG_NVM_STATUS_UNIT 0 with nvmw := { s.nvmw with unit := none } }.cpCommit
    else s
  | none => s

/-- CHECKPOINT_COMMIT (R468). -/
def execCheckpointCommit (s : State) : Host.Outcome State Fault Refusal := .next s.cpUnit

/-- A checkpoint ends before its commit: its units are dropped and its frozen bank merges into the collecting
bank (R469), whose log may fill by that (R473); one that has not begun is given up. -/
def State.cpAbort (s : State) (result reason : Nat) : State :=
  if s.flag F.REC_STATUS_CP_RUN then
    let b := joinBanks s.frozenBank s.collect
    let lost := s.frozenBank.log.length + s.collect.log.length - 256
    let s0 := ((s.setCollect b).setFrozen {}).incBy F.REC_CNT_LOG_LOST lost
    let s1 := if s.collect.log.length < 256 ∧ b.log.length = 256 then s0.raise Code.REC_LOG_FULL 0 else s0
    let s2 := { s1 with nvmw := { s1.nvmw with tasks := s1.nvmw.tasks.filter fun t => t.owner != Job.recCheckpoint } }
    let s3 := (s2.put F.REC_CP_STATUS_RESULT result).put F.REC_CP_STATUS_REASON reason
    let s4 := if result = 2 then (s3.raise Code.REC_CP_FAIL reason).irq Irq.recorder else s3
    s4.cpNext
  else { s with recd := { s.recd with cpReq := false, cpReqBoot := false } }

/-- START of a REC_CHECKPOINT: refused as BUSY while a checkpoint runs (R471). -/
def State.checkpointStart (s : State) : State × Bool :=
  if s.flag F.REC_STATUS_CP_RUN then (s.put F.REC_CP_STATUS_REASON 2, false)
  else ({ s.put F.REC_STATUS_CP_PENDING 0 with recd := { s.recd with cpReq := true } }, true)

/-! ### Seconds and histograms (R463, R464) -/

/-- All sensors of a range have a published reading. -/
def State.allValid (s : State) (lo n : Nat) : Bool := (List.range n).all fun i => s.flag (F.THM_TSn_VALID (lo + i))

/-- One more in a bin, given as a number before it is limited to 0-15. -/
def State.recBin (s : State) (h : Nat) (b : Int) : State :=
  let c := s.collect
  s.setCollect { c with bins := addCounts 32 c.bins [(16 * h + (clampInt b 0 15).toNat, 1)] }

/-- The four histograms at an operating-second boundary (R464). -/
def State.histograms (s : State) : State :=
  let s0 := if s.allValid 16 16 then s.recBin 0 ((toSigned 12 (s.get F.THM_HOT_TIER) + 160) / 40) else s
  let s1 := if s0.allValid 0 16 then s0.recBin 1 (toSigned 12 (s0.get F.THM_HOT_ZONE) / 40) else s0
  let s2 := if s1.recd.litCounted then s1.recBin 2 (s1.get F.SAF_IMON_READ / 16 : Nat) else s1
  if s2.get F.LPE_STATUS_RAIL = 2 then s2.recBin 3 (((s2.get F.LPE_MEAS_VSNS_MV : Int) - 2400) / 200) else s2

/-- Live operating seconds. -/
def State.opSecs (s : State) : Nat := s.recLive.opSecs

/-- An accumulator word that has failed parity is reset to 0: the bank, and the word, numbered 0 operating
seconds, 1 lit seconds, 2 entries lost, 0x100 + code its count, 0x200 + code its suppressed count, 0x300 + k bin k,
0x400 + e the value of extreme Ee, 0x410 + 4 × e + i word i of its time-stamp, 0x1000 + 8 × entry + i word i of a log entry (R473). -/
def resetRecWord (b : RecBank) (w : Nat) : RecBank :=
  if w = 0 then { b with opSecs := 0 }
  else if w = 1 then { b with litSecs := 0 }
  else if w = 2 then { b with lost := 0 }
  else if w < 0x100 then b
  else if w < 0x200 then { b with counts := sparseSet noCount b.counts (w - 0x100) 0 }
  else if w < 0x300 then { b with supp := sparseSet noCount b.supp (w - 0x200) 0 }
  else if w < 0x340 then { b with bins := sparseSet noCount b.bins (w - 0x300) 0 }
  else if w < 0x400 then b
  else if w < 0x405 then
    { b with ext := b.ext.set (w - 0x400) ((b.ext.getD (w - 0x400) none).map fun x => (0, x.2)) }
  else if w < 0x410 then b
  else if w < 0x424 then
    let e := (w - 0x410) / 4
    { b with ext := b.ext.set e ((b.ext.getD e none).map fun x => (x.1, x.2.set ((w - 0x410) % 4) 0)) }
  else if w < 0x1000 then b
  else
    let e := (w - 0x1000) / 8
    { b with log := b.log.set e ((b.log.getD e []).set (w % 8) 0) }

/-- A parity error in an accumulator word of bank X or Y (R473). -/
def State.recUpset (s : State) (u : Option (Bool × Nat)) : State :=
  match u with
  | none => s
  | some (y, w) =>
    let s1 := if y then { s with recd := { s.recd with y := resetRecWord s.recd.y w } }
      else { s with recd := { s.recd with x := resetRecWord s.recd.x w } }
    s1.raise Code.REC_PARITY (b2n y)

/-- OPERATING_SECOND: a second is added, the histograms are filled, and a periodic checkpoint may start
(R463, R464, R470).  A parity error of an accumulator word comes from the memory itself. -/
def execOperatingSecond (upset : Option (Bool × Nat)) (s : State) : Host.Outcome State Fault Refusal :=
  .next (if s.recorderOn && s.recd.opDue then
    let s0 := ({ s with recd := { s.recd with opDue := false } }).recUpset upset
    let b := s0.collect
    let s1 := (s0.setCollect { b with opSecs := satTo 32 (b.opSecs + 1) }).histograms
    let s2 := if s1.flag F.REC_STATUS_CP_RUN then { s1 with recd := { s1.recd with cpSecs := s1.recd.cpSecs + 1 } } else s1
    let p := s2.get F.REC_CTRL_CP_PERIOD
    if p != 0 && s2.opSecs % p == 0 then s2.cpCause else s2
  else s)

/-- LIT_SECOND: a lit second is added (R463). -/
def execLitSecond (s : State) : Host.Outcome State Fault Refusal :=
  .next (if s.recorderOn && s.recd.litDue then
    let s0 := { s with recd := { s.recd with litDue := false } }
    let b := s0.collect
    s0.setCollect { b with litSecs := satTo 32 (b.litSecs + 1) }
  else s)

/-- A safety tick in which light is permitted (R463). -/
def State.litTick (s : State) : Bool :=
  (s.safState == Isl.normal || s.safState == Isl.oasis || s.safState == Isl.dim) && !s.standbyHold

/-- What a safety tick does to the recorder's counters: operating ticks count with CORE on, but not before the first BOOT
after its power-up has loaded the base (R463, R466). -/
def State.recTick (s : State) : State :=
  let s0 := if s.get F.SAF_TICK_TICK % 100000 = 0 then s.recWindow else s
  let op := s0.recorderOn && !s0.recd.pccNew
  let lit := s0.recorderOn && s0.litTick
  let o := if op then s0.recd.opTicks + 1 else s0.recd.opTicks
  let l := if lit then s0.recd.litTicks + 1 else s0.recd.litTicks
  { s0 with recd := { s0.recd with
      opTicks := if o = 100000 then 0 else o, opDue := s0.recd.opDue || o == 100000,
      litTicks := if l = 100000 then 0 else l, litDue := s0.recd.litDue || l == 100000,
      litCounted := l == 100000 } }

/-! ### Base (R470) -/

/-- The base that a copy holds (R472). -/
def State.readBase (s : State) (k : Nat) : RecBank :=
  let a := recCopyAddr k
  let w := fun o => (s.nvWord (a + o)).toNat
  { opSecs := w 8, litSecs := w 12, lost := w 0x14
    counts := (List.range 256).foldl (fun m n => sparseSet noCount m n (w (0x400 + 8 * n))) []
    supp := (List.range 256).foldl (fun m n => sparseSet noCount m n (w (0x404 + 8 * n) % 65536)) []
    bins := (List.range 64).foldl (fun m n => sparseSet noCount m n (w (0x100 + 4 * n))) []
    ext := (List.range 5).map fun e =>
      let v := w (0x20 + 16 * e)
      some (if e < 3 then toSigned 12 v else (v : Int), s.nvWords (a + 0x24 + 16 * e) 3) }

/-- Time-stamps that carry power-cycle count 0 take the loaded count (R467). -/
def restamp (pcc : Nat) (e : List Word) : List Word :=
  if (e.getD 3 0).toNat = 0 then e.set 3 (BitVec.ofNat 32 pcc) else e

/-- The same for the log of a bank. -/
def restampBank (pcc : Nat) (b : RecBank) : RecBank := { b with log := b.log.map (restamp pcc) }

/-- The base that the copy in force holds; with none, an empty one. -/
def State.baseOf (s : State) : Option Nat → RecBank
  | some k => s.readBase k
  | none => { ext := List.replicate 5 (some (0, zeroWords 3)) }

/-- The power-cycle count that follows the copy in force (R463). -/
def State.pccOf (s : State) : Option Nat → Nat
  | some k => satTo 24 (wordGet (s.nvWord (recCopyAddr k + 4)) 23 0 + 1)
  | none => 1

/-- The base is taken from the copy in force and shown in REC_SEQ (R470). -/
def State.recAdopt (s : State) (src : Option Nat) : State :=
  let b := s.baseOf src
  let n := if s.recd.pccNew then s.pccOf src else s.recd.pcc
  let s1 := { s with recd := { s.recd with base := b, pcc := n } }
  (s1.put F.REC_SEQ_SRC ((src.map (· + 1)).getD 0)).put F.REC_SEQ_SEQ ((src.map s.recCopySeq).getD 0)

/-- The power-cycle count is known: the events recorded before take it (R463). -/
def State.recRestamp (s : State) : State :=
  let n := s.recd.pcc
  let s1 := { s with recd := { s.recd with
    pccNew := false, x := restampBank n s.recd.x, y := restampBank n s.recd.y } }
  (s1.put F.REC_PCC_VALUE n).put F.REC_STATUS_LOADED 1

/-- The copy in force, if there is one (R470). -/
def State.recSource (s : State) : Option Nat :=
  inForce (s.recCopyOk 0) (s.recCopyOk 1) (s.recCopySeq 0) (s.recCopySeq 1)

/-- REC loads its base: the power-cycle count becomes known (R463, R470). -/
def State.recLoad (s : State) : State :=
  let src := s.recSource
  let s1 := if src.isNone then s.raise Code.REC_NVM 0 else s
  (s1.recAdopt src).recRestamp

/-- The boot checkpoint, a cause as the others are (R470, R471). -/
def State.bootCheckpoint (s : State) : State := ({ s with recd := { s.recd with cpReqBoot := true } }).cpCause

/-- CORE goes off: remainders of seconds are discarded (R463), the banks are lost (R471), and no base is loaded. -/
def State.recOff (s : State) : State :=
  { s.put F.REC_STATUS_LOADED 0 with recd := { pcc := s.recd.pcc, limits := s.recd.limits } }

end Sys2Proof.Machine
end

