-- ==== Sys2Proof/Machine/Rail.lean ====
section
/-!
DEFINITION. The loop engine: sampling, pulses, control laws, coefficient banks, headroom trim, crest, rail
states and the fan (spec/10_rail_control.md).
-/

namespace Sys2Proof.Machine

/-! ### Fixed point (R238) -/

/-- Saturation to Q1.31. -/
def sat31 (x : Int) : Int := clampInt x (-(2 ^ 31)) (2 ^ 31 - 1)

/-- The product of a coefficient and a state, rounded half up into 31 fraction bits (R238). -/
def term (c : Word × BitVec 6) (x : Int) : Int :=
  let sh := (31 - c.2.toInt).toNat
  let p := c.1.toInt * x
  if sh = 0 then p else (p + 2 ^ (sh - 1)) / 2 ^ sh

/-- What an unlisted coefficient reads as. -/
def lpCoefDefault (_ : Nat) : Word × BitVec 6 := (0, 0)

/-- Key of a coefficient. -/
def lpCoefKey (bank loop index : Nat) : Nat := (bank * 9 + loop) * 16 + index

/-- The active bank: 0 = A, 1 = B. -/
def State.actBank (s : State) : Nat := s.get F.LPE_STATUS_ACT_BANK

/-- A coefficient of the active bank. -/
def State.lpCoef (s : State) (loop index : Nat) : Word × BitVec 6 :=
  sparseGet lpCoefDefault s.lpe.coef (lpCoefKey s.actBank loop index)

/-- A coefficient of the active bank fails parity. -/
def State.lpCoefBad (s : State) (loop index : Nat) : Bool :=
  s.lpe.coefBad.contains (lpCoefKey s.actBank loop index)

/-! ### Banks -/

/-- M_SW, K_OUT, FB3 and READY of a bank. -/
def State.bankMsw (s : State) (b : Nat) : Nat := if b = 0 then s.get F.LPE_BANK_A_M_SW else s.get F.LPE_BANK_B_M_SW
def State.bankKout (s : State) (b : Nat) : Nat := if b = 0 then s.get F.LPE_BANK_A_K_OUT else s.get F.LPE_BANK_B_K_OUT
def State.bankFb3 (s : State) (b : Nat) : Nat := if b = 0 then s.get F.LPE_BANK_A_FB3 else s.get F.LPE_BANK_B_FB3
def State.bankReady (s : State) (b : Nat) : Bool := if b = 0 then s.flag F.LPE_BANK_A_READY else s.flag F.LPE_BANK_B_READY

/-- Outer samples fall every K_OUT inner samples (R56). -/
def State.kOut (s : State) : Nat := 4 * 2 ^ s.bankKout s.actBank

/-- A bank qualifies for a line of `n` slots: READY, with an inner rate of 0.8-2.5 MHz (R58 code 6, R62). -/
def State.bankFits (s : State) (b n : Nat) : Bool :=
  s.bankReady b && decide (800000 * n ≤ 25000000 * s.bankMsw b) && decide (25000000 * s.bankMsw b ≤ 2500000 * n)

/-- Phases of the stage. -/
def State.nPh (s : State) : Nat := s.get F.LPE_TOPO_N_PH

/-- The loop exists (R235). -/
def State.loopOn (s : State) (n : Nat) : Bool :=
  if n < 6 then n < s.nPh else if n = 8 then s.flag F.LPE_TOPO_FAN else n < 8

/-! ### Loop states -/

/-- States of a loop. -/
def State.loop (s : State) (n : Nat) : LoopState := s.lpe.loops.getD n {}

/-- A loop's states change. -/
def State.setLoop (s : State) (n : Nat) (l : LoopState) : State :=
  { s with lpe := { s.lpe with loops := s.lpe.loops.set n l } }

/-- What LPE holds for phase `p`. -/
def State.phase (s : State) (p : Nat) : Phase := s.lpe.phases.getD p {}

/-- What LPE holds for a phase changes. -/
def State.setPhase (s : State) (p : Nat) (x : Phase) : State :=
  { s with lpe := { s.lpe with phases := s.lpe.phases.set p x } }

/-- Output of a loop in force. -/
def State.loopOut (s : State) (n : Nat) : Int := toSigned 32 (s.get (F.LPE_LPn_OUT_U n))

/-- Output that a loop stored last: in force, or still to come into force at its update instant (R233). -/
def State.loopLast (s : State) (n : Nat) : Int := (s.loop n).stored.getD (s.loopOut n)

/-- The update instant of a loop: the output that it has stored comes into force (R233). -/
def State.loopForce (s : State) (n : Nat) : State :=
  match (s.loop n).stored with
  | some u => (s.setLoop n { s.loop n with stored := none }).put (F.LPE_LPn_OUT_U n) (ofSigned 32 u)
  | none => s

/-- The limits of a loop's output: its coefficients, within the range that R235 and R239 give it. -/
def State.uLimits (s : State) (n : Nat) : Int × Int :=
  let lo := (s.lpCoef n 12).1.toInt
  let hi := (s.lpCoef n 13).1.toInt
  if n < 6 then (max lo 0, min hi (7 * 2 ^ 28))
  else if n = 7 then (max lo 0, min hi (s.get F.LPE_HEAD_HEAD_NOM * 2 ^ 18 : Nat))
  else (lo, hi)

/-- The limits of a loop's integrator. -/
def State.iLimits (s : State) (n : Nat) : Int × Int := ((s.lpCoef n 14).1.toInt, (s.lpCoef n 15).1.toInt)

/-- The integrator recomputed so that the law continues from u1 (R244, BUMPLESS). -/
def State.bumpless (s : State) (n : Nat) (l : LoopState) : LoopState :=
  let r := s.iLimits n
  { l with i := clampInt (sat31 (l.u1 - term (s.lpCoef n 0) l.e1 - l.d)) r.1 r.2, bad := false }

/-- Live flags of a loop, and their sticky copies (R239). -/
def State.satFlags (s : State) (n : Nat) (hi lo i : Bool) : State :=
  let s1 := ((s.putB (F.LPE_LPn_STATUS_LIVE_SAT_HI n) hi).putB (F.LPE_LPn_STATUS_LIVE_SAT_LO n) lo).putB
    (F.LPE_LPn_STATUS_LIVE_SAT_I n) i
  let s2 := if hi then s1.put (F.LPE_LPn_STATUS_SAT_HI n) 1 else s1
  let s3 := if lo then s2.put (F.LPE_LPn_STATUS_SAT_LO n) 1 else s2
  if i then s3.put (F.LPE_LPn_STATUS_SAT_I n) 1 else s3

/-- The live flags of a loop follow its output, its integrator and their limits; SAT_I is never set under the fallback law
(R239, R240). -/
def State.satTrack (s : State) (n : Nat) : State :=
  let ul := s.uLimits n
  let il := s.iLimits n
  let i := (s.loop n).i
  s.satFlags n (s.loopLast n == ul.2) (s.loopLast n == ul.1)
    (!s.flag (F.LPE_LPn_STATUS_FALLBACK n) && (i == il.1 || i == il.2))

/-- A loop stores its output, which its update instant brings into force, and its states (R233, R239, R240); a good
evaluation ends the run of overruns. -/
def State.storeLoop (s : State) (n : Nat) (l : LoopState) (u : Int) (iSat : Bool) : State :=
  let r := s.uLimits n
  let s1 := s.setLoop n { l with stored := some u }
  (s1.put (F.LPE_LPn_STATUS_RUN n) 0).satFlags n (u == r.2) (u == r.1) iSat

/-- The main law (R239). -/
def State.mainLaw (s : State) (n : Nat) (l : LoopState) (e : Int) : State :=
  let ul := s.uLimits n
  let il := s.iLimits n
  let hold := (decide (ul.2 ≤ l.u1) && decide (0 < e)) || (decide (l.u1 ≤ ul.1) && decide (e < 0))
  let i := if hold then l.i else clampInt (sat31 (l.i + term (s.lpCoef n 1) e)) il.1 il.2
  let d := sat31 (term (s.lpCoef n 3) l.d + term (s.lpCoef n 2) (sat31 (e - l.e1)))
  let u := clampInt (sat31 (term (s.lpCoef n 0) e + i + d)) ul.1 ul.2
  s.storeLoop n { l with i := i, d := d, e1 := e, u1 := u } u (i == il.1 || i == il.2)

/-- Sum of the products of coefficients from `index` on with states. -/
def State.lawSum (s : State) (n index : Nat) : List Int → Int
  | [] => 0
  | x :: t => term (s.lpCoef n index) x + s.lawSum n (index + 1) t

/-- The fallback law: 2p2z or 3p3z (R240). -/
def State.fallbackLaw (s : State) (n : Nat) (l : LoopState) (e : Int) : State :=
  let ul := s.uLimits n
  let m := if bitOf (s.bankFb3 s.actBank) n then 3 else 2
  let u := clampInt (sat31 (s.lawSum n 4 (e :: l.es.take m) + s.lawSum n 8 (l.us.take m))) ul.1 ul.2
  s.storeLoop n { l with e1 := e, u1 := u, es := e :: l.es.take 2, us := u :: l.us.take 2 } u false

/-- The coefficients that an evaluation reads: loop, index.  The phase loops read KFF6 of LP6 too.  DESIGN CHOICE (log
entry 94): U_MIN, U_MAX and, for a phase loop, KFL and KFF6 count as words of the fallback law too (R246). -/
def lawReads (n : Nat) (fallback fb3 : Bool) : List (Nat × Nat) :=
  let idx := if fallback then (if fb3 then [4, 5, 6, 7, 8, 9, 10] else [4, 5, 6, 8, 9]) ++ [12, 13]
    else [0, 1, 2, 3, 12, 13, 14, 15]
  (idx.map fun i => (n, i)) ++ (if n < 6 then [(n, 11), (6, 11)] else [])

/-- LP0-LP6 return to cleared states: integrator, filter, past values and outputs, with the live
flags that follow them (R239, R249, R251).  DESIGN CHOICE (log entry 94): a TRIP clears the states of the loops that run
the stage, LP0-LP6, and leaves LP7 and LP8 as they are. -/
def State.clearLoops (s : State) : State :=
  forUpto 7 (fun n s =>
    if s.loopOn n then ((s.setLoop n {}).put (F.LPE_LPn_OUT_U n) 0).satTrack n else s.setLoop n {}) s

/-! ### Rail states (R249-R251) -/

namespace Rail
def off : Nat := 0
def start : Nat := 1
def run : Nat := 2
def trip : Nat := 3
end Rail

/-- State of the rail. -/
def State.rail (s : State) : Nat := s.get F.LPE_STATUS_RAIL

/-- START or RUN. -/
def State.railLive (s : State) : Bool := s.rail == Rail.start || s.rail == Rail.run

/-- IN_REG clears at once, with its runs (R250). -/
def State.inRegClear (s : State) : State :=
  { s.put F.LPE_STATUS_IN_REG 0 with lpe := { s.lpe with regIn := 0, regOut := 0 } }

/-- PWM and PH_EN go low. -/
def State.stageOff (s : State) : State :=
  { s with lpe := { s.lpe with pwm := 0, phEn := false, phOff := false } }

/-- A TRIP cause: a rail in START or RUN goes to TRIP (R251). -/
def State.tripRail (s : State) : State :=
  if s.railLive then
    (((s.stageOff.clearLoops).put F.LPE_STATUS_RAIL Rail.trip).inRegClear).irq Irq.loopEvent
  else s

/-- The raster stops: the rail goes to OFF (R251). -/
def State.railStop (s : State) : State :=
  if s.railLive then (s.stageOff.put F.LPE_STATUS_RAIL Rail.off).inRegClear else s.stageOff

/-- RAIL_EN written 0: pulses end by themselves, PH_EN goes low at the next inner sample (R251). -/
def State.railDisable (s : State) : State :=
  if s.rail = Rail.off then s
  else
    let s1 := (s.put F.LPE_STATUS_RAIL Rail.off).inRegClear
    { s1 with lpe := { s1.lpe with phOff := s1.lpe.phEn } }

/-! ### Set-point (R236, R248) -/

/-- A limit of LPE_VSET as used: 2,600-5,000 mV (R256). -/
def vsetLimit (v : Nat) : Nat := min 5000 (max 2600 v)

/-- The highest zone temperature; −55 °C before any zone sensor has a reading (R248). -/
def State.hotZone (s : State) : Int :=
  let ts := ((List.range 16).filter fun z => s.flag (F.THM_TSn_VALID z)).map fun z => toSigned 12 (s.get (F.THM_TSn_T z))
  match ts with
  | [] => -220
  | t :: r => r.foldl max t

/-- The crest of the model for the hottest zone (R248). -/
def State.modelCrest (s : State) : Nat :=
  (List.range 4).foldl (fun m e => max m (s.modelV e s.hotZone)) 0

/-- C: the crest last delivered, above VSET_MAX used as VSET_MAX, or the model's (R234, R236, R248). -/
def State.crestUsed (s : State) : Nat :=
  if s.flag F.LPE_STATUS_CREST_FB then s.modelCrest
  else min (s.get F.LUM_CREST_MV) (vsetLimit (s.get F.LPE_VSET_VSET_MAX))

/-- TRIM in mV: 0 with LP7 off or under crest fallback (R236, R248). -/
def State.trimMv (s : State) : Nat :=
  if !s.flag F.LPE_CTRL_LP7_EN || s.flag F.LPE_STATUS_CREST_FB then 0 else (s.loopOut 7).toNat / 2 ^ 18

/-- V_SET (R236), without the ramp of R249.  DESIGN CHOICE (log entry 94): VSET_MAX wins over a VSET_MIN above it. -/
def State.vSetNow (s : State) : Nat :=
  min (vsetLimit (s.get F.LPE_VSET_VSET_MAX))
    (max (vsetLimit (s.get F.LPE_VSET_VSET_MIN)) (s.crestUsed + s.get F.LPE_HEAD_HEAD_NOM - s.trimMv))

/-- The set-point in force: ramped until the rail reaches RUN (R249). -/
def State.setPoint (s : State) : Nat :=
  if s.rail = Rail.start then min s.lpe.vSet s.lpe.vR else s.lpe.vSet

/-- The set-point is formed and shown (R236). -/
def State.formVSet (s : State) : State :=
  let s1 := { s with lpe := { s.lpe with vSet := s.vSetNow } }
  s1.put F.LPE_STATUS_VSET s1.setPoint

/-- A voltage in the scale 1.0 = 6,144 mV, rounded half up. -/
def mvQ31 (mv : Int) : Int := (mv * 2 ^ 31 * 2 + 6144) / (2 * 6144)

/-! ### Evaluation (R233, R237, R245, R246) -/

/-- Reference of a phase loop (R237). -/
def State.phaseRef (s : State) (p : Nat) : Int :=
  let dv := mvQ31 ((s.setPoint : Int) - (s.lpe.vSetOut : Int))
  let q : Nat := if s.flag F.LPE_CTRL_FFL_EN then
    s.get F.LUM_DEMAND_Q * s.get F.LUM_BUDGET_STATUS_LF / 65535 * 8 else 0
  sat31 (s.loopOut 6 + term (s.lpCoef 6 11) dv + term (s.lpCoef p 11) q)

/-- A sensor has a published reading: T_hot exists (R261). -/
def State.hasHot (s : State) : Bool := (List.range 32).any fun i => s.flag (F.THM_TSn_VALID i)

/-- T_hot: the highest published reading of TS0-TS31 (R261). -/
def State.tHot (s : State) : Int :=
  (((List.range 32).filter fun i => s.flag (F.THM_TSn_VALID i)).map fun i => toSigned 12 (s.get (F.THM_TSn_T i))).foldl max (-2048)

/-- Error of a loop but LP7, whose report brings its own (R235). -/
def State.loopError (s : State) (n : Nat) : Int :=
  if n < 6 then sat31 (s.phaseRef n - (s.phase n).code * 2 ^ 20)
  else if n = 6 then sat31 (mvQ31 s.setPoint - (s.lpe.vsns * 2 ^ 19 : Nat))
  else sat31 ((s.tHot - toSigned 16 (s.get F.LPE_FAN_T_TGT)) * 2 ^ 21)

/-- An overrun: the output is held, and the third in a row leads to the fallback law (R245). -/
def State.overrun (s : State) (n : Nat) : State :=
  let s1 := s.inc (F.LPE_LPn_CNT_OVERRUN n)
  let r := s.get (F.LPE_LPn_STATUS_RUN n)
  if r = 2 then
    if s.flag (F.LPE_LPn_STATUS_FALLBACK n) then s1
    else { s1 with lpe := { s1.lpe with fbDue := insertRow n s1.lpe.fbDue } }
  else s1.put (F.LPE_LPn_STATUS_RUN n) (r + 1)

/-- A fallback evaluation met a failed word of its own law: the output is held, and a phase loop's rail
trips at the next outer sample (R246). -/
def State.fallbackParity (s : State) (n : Nat) : State :=
  let s1 := (s.overrun n).raise Code.LPE_PARITY n
  if n < 6 then { s1 with lpe := { s1.lpe with tripDue := true } } else s1

/-- A loop evaluates with the error given, or overruns (R239, R240, R245, R246). -/
def State.evaluate (s : State) (n : Nat) (e : Int) (invalid stateBad : Bool) : State :=
  let fb := s.flag (F.LPE_LPn_STATUS_FALLBACK n)
  let bad := (lawReads n fb (bitOf (s.bankFb3 s.actBank) n)).any fun x => s.lpCoefBad x.1 x.2
  if stateBad then (s.setLoop n { s.loop n with bad := true }).overrun n
  else if invalid then s.overrun n
  else if bad then (if fb then s.fallbackParity n else s.overrun n)
  else
    let l := if (s.loop n).bad then s.bumpless n (s.loop n) else s.loop n
    if fb then s.fallbackLaw n l e else s.mainLaw n l e

/-- Coefficient words of the active bank whose parity fails from now on (R246). -/
def State.coefUpsets (s : State) (n : Nat) (idx : List Nat) : State :=
  { s with lpe := { s.lpe with coefBad := s.lpe.coefBad ++ (idx.filter (fun i => i < 16)).map (lpCoefKey s.actBank n) } }

/-- The conversion that an evaluation reads is flagged invalid (R245). -/
def State.convInvalid (s : State) (n : Nat) : Bool :=
  if n < 6 then (s.phase n).invalid else n == 6 && s.lpe.vsnsInvalid

/-- LOOP_EVALUATION: the loop whose conversion completed first evaluates (R233, R239, R240).  Parity upsets
of its coefficient words and of its states come from the memories themselves.  A phase loop reads the newest output of
LP6. -/
def execLoopEvaluation (upsets : List Nat) (stateUpset : Bool) (s : State) : Host.Outcome State Fault Refusal :=
  .next (match s.lpe.due with
    | [] => s
    | n :: t =>
      if s.coreRun then
        let s0 := ({ s with lpe := { s.lpe with due := t } }).coefUpsets n upsets
        let s1 := if n < 6 then s0.loopForce 6 else s0
        s1.evaluate n (s1.loopError n) (s1.convInvalid n) stateUpset
      else s)

/-- LOOP_FALLBACK: a third consecutive overrun switches the loop to its fallback law (R245). -/
def execLoopFallback (s : State) : Host.Outcome State Fault Refusal :=
  .next (match s.lpe.fbDue with
    | [] => s
    | n :: t =>
      if s.coreRun then
        let u := s.loopLast n
        let s1 := s.setLoop n { s.loop n with es := [0, 0, 0], us := [u, u, u] }
        let s2 := (((s1.put (F.LPE_LPn_STATUS_FALLBACK n) 1).put (F.LPE_LPn_STATUS_RUN n) 0).satTrack n).raise
          Code.LPE_FALLBACK n
        { s2.irq Irq.loopEvent with lpe := { s2.lpe with fbDue := t } }
      else s)

/-- What a write of LPE_LPn_CMD does: with FB_CLEAR = 1 the loop returns to its main law, its integrator
recomputed as under BUMPLESS; a write to an absent loop is discarded (R245, R257). -/
def State.fbClear (s : State) (n : Nat) (v : Word) : State :=
  if wordGet v 0 0 = 1 && s.loopOn n && s.flag (F.LPE_LPn_STATUS_FALLBACK n) then
    (((s.setLoop n (s.bumpless n (s.loop n))).put (F.LPE_LPn_STATUS_FALLBACK n) 0).put (F.LPE_LPn_STATUS_RUN n) 0).satTrack n
  else s

/-- FB_CLEAR: a write of LPE_LPn_CMD (R245). -/
def execFbClear (i : Initiator) (loop : BitVec 4) (v : Word) (s : State) : Host.Outcome State Fault Refusal :=
  .next (s.portWrite i (A.LPE_LPn_CMD loop.toNat) fun s => s.fbClear loop.toNat v)

/-! ### Bank swap (R243, R244) -/

/-- A loop's states are carried over to the bank that has become active (R244). -/
def State.carryLoop (s : State) (n : Nat) : State :=
  let l := s.loop n
  let ul := s.uLimits n
  let il := s.iLimits n
  let want := if s.flag F.LPE_CTRL_SWAP_MODE then sat31 (l.u1 - term (s.lpCoef n 0) l.e1 - l.d) else l.i
  let i := clampInt want il.1 il.2
  let us := l.us.map fun u => clampInt u ul.1 ul.2
  let s1 := s.setLoop n { l with i := i, us := us }
  (if i ≠ want ∨ us ≠ l.us then s1.put (F.LPE_LPn_STATUS_BUMP n) 1 else s1).satTrack n

/-- The banks change places (R243, R244). -/
def State.swapBanks (s : State) : State :=
  let s1 := (s.put F.LPE_STATUS_ACT_BANK (1 - s.actBank)).put F.LPE_STATUS_SWAP_RESULT 1
  (forUpto 9 (fun n s => if s.loopOn n then s.carryLoop n else s) s1).irq Irq.loopEvent

/-- A swap request (R243). -/
def State.swapRequest (s : State) : State :=
  let o := 1 - s.actBank
  if !s.bankReady o || s.bankMsw o != s.bankMsw s.actBank || s.bankKout o != s.bankKout s.actBank ||
      s.ras.pend.isSome || s.get F.LPE_STATUS_SWAP_RESULT == 3 then
    (if s.get F.LPE_STATUS_SWAP_RESULT = 3 then s else s.put F.LPE_STATUS_SWAP_RESULT 2).irq Irq.loopEvent
  else s.put F.LPE_STATUS_SWAP_RESULT 3

/-- A pending swap is made at an outer sample. -/
def State.swapPending (s : State) : State :=
  if s.get F.LPE_STATUS_SWAP_RESULT = 3 then s.swapBanks else s

/-- What a write of LPE_CTRL does: its RW fields, the swap request, and RAIL_EN (R243, R251, R256). -/
def State.lpeCtrlWrite (s : State) (v : Word) : State :=
  let s1 := s.regWrite A.LPE_CTRL v
  let s2 := if wordGet v 8 8 = 1 then s1.swapRequest else s1
  if wordGet v 0 0 = 0 then s2.railDisable else s2

/-- RAIL_EN_WRITE: a write of LPE_CTRL (R251). -/
def execRailEnWrite (i : Initiator) (v : Word) (s : State) : Host.Outcome State Fault Refusal :=
  .next (s.portWrite i A.LPE_CTRL fun s => s.lpeCtrlWrite v)

/-- SWAP: a write of 1 to LPE_CTRL.SWAP, with the other fields as written (R243). -/
def execSwapBanks (i : Initiator) (v : Word) (s : State) : Host.Outcome State Fault Refusal :=
  .next (s.portWrite i A.LPE_CTRL fun s => s.lpeCtrlWrite (v ||| 0x100#32))

/-! ### Inner and outer samples (R230, R249, R250) -/

/-- Slot of inner sample `k` of a line (R56). -/
def sampleSlot (n m k : Nat) : Nat := k * n / m

/-- The next inner sample is an outer one. -/
def State.outerNext (s : State) : Bool := s.lpe.n % s.kOut == 0

/-- The next inner sample of the line has not passed. -/
def State.sampleOpen (s : State) : Bool :=
  let m := s.bankMsw s.actBank
  s.lineOn && decide (s.lpe.k < m) && s.slotOpen (sampleSlot s.nSlots m s.lpe.k)

/-- LOOP_BANK_SWAP: at the outer sample after an accepted request the banks change places (R243, R244). -/
def execLoopBankSwap (s : State) : Host.Outcome State Fault Refusal :=
  .next (if s.sampleOpen && s.outerNext && s.get F.LPE_STATUS_SWAP_RESULT == 3 then
    (s.toSlot (sampleSlot s.nSlots (s.bankMsw s.actBank) s.lpe.k)).swapBanks else s)

/-- A new period: every phase has a pulse ahead; a conversion whose pulse runs past the end of the last period is still
to come, and a phase that did not trip in the last period ends its run (R231, R232, R252). -/
def State.newPeriod (s : State) : State :=
  forUpto 6 (fun p s =>
    let x := s.phase p
    s.setPhase p { x with
      pulseDue := decide (p < s.nPh), cbcRun := if x.cbcHit then x.cbcRun else 0,
      cbcHit := false }) s

/-- A crest that has been delivered ends the fallback at the next inner sample (R248). -/
def State.crestSample (s : State) : State :=
  if s.flag F.LPE_STATUS_CREST_FB then
    if s.lpe.crestNew then (s.put F.LPE_STATUS_CREST_FB 0).deassertF Code.LPE_CREST
    else s.inc F.LPE_CNT_CREST_FB
  else s

/-- VSNS in mV of a code at 1.5 mV per code (R232). -/
def vsnsMv (code : Nat) : Nat := code * 3 / 2

/-- The VSNS reading of an inner sample, and its overvoltage run, which an invalid one breaks (R232, R234). -/
def State.vsnsSample (s : State) (code : Nat) (valid : Bool) : State :=
  if valid then
    let mv := vsnsMv code
    let n := if s.get F.LPE_PROT_OVP_MV < mv then min (s.lpe.ovpRun + 1) 2 else 0
    { s.put F.LPE_MEAS_VSNS_MV mv with lpe := { s.lpe with
        vsns := code, vsnsInvalid := false, ovpRun := n, ovpDue := s.lpe.ovpDue || n == 2 } }
  else { s with lpe := { s.lpe with vsnsInvalid := true, ovpRun := 0 } }

/-- |VSNS − V_SET| ≤ REG_WIN (R250). -/
def State.inWindow (s : State) : Bool :=
  let v := s.get F.LPE_MEAS_VSNS_MV
  let d := if v < s.lpe.vSet then s.lpe.vSet - v else v - s.lpe.vSet
  d ≤ s.get F.LPE_REG_REG_WIN

/-- IN_REG_UPDATE (R250).  DESIGN CHOICE (log entry 107): where VSNS is invalid, the last valid reading is judged. -/
def State.inRegUpdate (s : State) : State :=
  if s.railLive then
    let c := max (s.get F.LPE_REG_REG_CNT) 1
    if s.inWindow then
      let n := min (s.lpe.regIn + 1) 255
      let s1 := if c ≤ n then s.put F.LPE_STATUS_IN_REG 1 else s
      { s1 with lpe := { s1.lpe with regIn := n, regOut := 0 } }
    else
      let n := min (s.lpe.regOut + 1) 255
      let s1 := if c ≤ n then s.put F.LPE_STATUS_IN_REG 0 else s
      { s1 with lpe := { s1.lpe with regOut := n, regIn := 0 } }
  else s

/-- The ISNS_REF reading at 0.5 mV per code, and its run outside 800-1,000 mV (R232, R234). -/
def State.refSample (s : State) (code : Nat) : State :=
  let mv := code / 2
  let n := if code < 1600 ∨ 2000 < code then min (s.lpe.refRun + 1) 4 else 0
  { s.put F.LPE_MEAS_REF_MV mv with lpe := { s.lpe with
      refRun := n, refDue := s.lpe.refDue || n == 4 } }

/-- The undervoltage run of a rail in RUN; suspended under light removal (R234, R251).  DESIGN CHOICE (log entry 107): where
VSNS is invalid, the last valid reading is judged. -/
def State.uvpSample (s : State) : State :=
  if s.rail = Rail.run ∧ ¬ s.flag F.LPE_STATUS_STOP then
    let n := if s.get F.LPE_MEAS_VSNS_MV + s.get F.LPE_PROT_UV_MARGIN < s.lpe.vSet then min (s.lpe.uvpRun + 1) 8 else 0
    { s with lpe := { s.lpe with uvpRun := n, uvpDue := s.lpe.uvpDue || n == 8 } }
  else { s with lpe := { s.lpe with uvpRun := 0 } }

/-- RAIL_STATE_ADVANCE (R249). -/
def State.railAdvance (s : State) : State :=
  if s.rail = Rail.off then
    if s.flag F.LPE_CTRL_RAIL_EN && s.lpe.psHigh && !s.removalOn && s.nPh != 0 then
      let s1 := (s.clearLoops.put F.LPE_STATUS_RAIL Rail.start).inRegClear
      { s1 with lpe := { s1.lpe with
          phEn := true, phOff := false, vR := s1.get F.LPE_MEAS_VSNS_MV, startCount := 0 } }
    else s
  else if s.rail = Rail.start then
    let vR := s.lpe.vR + max (s.get F.LPE_START_RAMP_MV) 1
    let s1 := { s with lpe := { s.lpe with vR := min vR 65535, startCount := s.lpe.startCount + 1 } }
    if s1.lpe.vSet ≤ vR && s1.flag F.LPE_STATUS_IN_REG then s1.put F.LPE_STATUS_RAIL Rail.run
    else
      let limit := s1.get F.LPE_START_START_TO
      if (if limit = 0 then 65536 else limit) ≤ s1.lpe.startCount && !s1.flag F.LPE_STATUS_STOP then
        { s1 with lpe := { s1.lpe with startDue := true } } else s1
  else s

/-- OUTER_SAMPLE: bank swap, rail checks, and LP6's evaluation; an invalid ISNS_REF breaks its run (R56, R234, R237, R249,
R250). -/
def State.outerSample (s : State) (ref : Nat) (refValid : Bool) : State :=
  let s1 := if refValid then s.refSample ref else { s with lpe := { s.lpe with refRun := 0 } }
  let s2 := s1.inRegUpdate.uvpSample.railAdvance
  let s3 := if s2.lpe.tripDue then { s2.tripRail with lpe := { s2.tripRail.lpe with tripDue := false } } else s2
  let s4 := s3.put F.LPE_STATUS_VSET s3.setPoint
  { s4 with lpe := { s4.lpe with vSetOut := s4.setPoint, due := s4.lpe.due ++ [6] } }

/-- PS_FLT_N as filtered, high again: the fault's condition ends (R234). -/
def State.psLevel (s : State) (high : Bool) : State :=
  if high && !s.lpe.psHigh then { s.deassertF Code.LPE_STAGE with lpe := { s.lpe with psHigh := true } } else s

/-- What an inner sample does; the output that LP7 has stored comes into force (R230, R233, R236). -/
def State.innerSample (s : State) (vsns ref : Nat) (vsnsValid refValid psHigh : Bool) : State :=
  let outer := s.outerNext
  let s0 := if outer then s.swapPending else s
  let s1 := if s0.lpe.phOff then s0.stageOff else s0
  let s2 := (((s1.psLevel psHigh).vsnsSample vsns vsnsValid).crestSample.loopForce 7).formVSet
  let s3 := if outer then s2.outerSample ref refValid else s2
  let s3 := if outer && s3.rail == Rail.run then s3.recExt 4 (s3.get F.LPE_MEAS_VSNS_MV) else s3
  { s3.newPeriod with lpe := { s3.newPeriod.lpe with n := s3.lpe.n + 1, k := s3.lpe.k + 1 } }

/-- INNER_SAMPLE: sample k of the line (R56, R230).  The converters' codes come from outside: VSNS at 1.5 mV,
ISNS_REF at 0.5 mV per code (used at an outer sample), each valid or flagged invalid, and the level of
PS_FLT_N. -/
def execInnerSample (vsns ref : BitVec 12) (vsnsValid refValid psHigh : Bool) (s : State) :
    Host.Outcome State Fault Refusal :=
  .next (if s.sampleOpen then
    (s.toSlot (sampleSlot s.nSlots (s.bankMsw s.actBank) s.lpe.k)).innerSample
      vsns.toNat ref.toNat vsnsValid refValid psHigh
  else s)

/-- Working ISNS offset of phase `p` (R454). -/
def State.isnsOff (s : State) (p : Nat) : Int :=
  toSigned 8 (wordGet (s.reg (A.CAL_ISNS0 + 4 * (p / 4))) (8 * (p % 4) + 7) (8 * (p % 4)))

/-! ### Pulses and phase conversions (R231, R232, R252) -/

/-- Cycle of the line at which the current period starts, and its length (R230). -/
def State.period (s : State) : Nat × Nat :=
  let m := s.bankMsw s.actBank
  let a := sampleSlot s.nSlots m (s.lpe.k - 1)
  (16 * a, 16 * (sampleSlot s.nSlots m s.lpe.k - a))

/-- Cycle of the line at which the pulse of phase `p` starts (R231). -/
def State.pulseCycle (s : State) (p : Nat) : Nat := s.period.1 + p * s.period.2 / s.nPh

/-- Length of a pulse in cycles for the duty in force (R231). -/
def State.pulseLength (s : State) (p : Nat) : Nat := ((s.loopOut p).toNat * s.period.2 + 2 ^ 30) / 2 ^ 31

/-- A PWM pad takes a level. -/
def State.setPwm (s : State) (p : Nat) (high : Bool) : State :=
  { s with lpe := { s.lpe with
      pwm := if high then s.lpe.pwm ||| BitVec.ofNat 6 (2 ^ p) else s.lpe.pwm &&& ~~~ BitVec.ofNat 6 (2 ^ p) } }

/-- PHASE_PULSE_START: the output that the phase loop has stored comes into force, and PWM(p + 1) goes high for H cycles
while the rail is in START or RUN; H = 0 gives no pulse (R231, R233).  The phase is converted floor(H / 2) cycles later
(R232). -/
def execPhasePulseStart (p : BitVec 3) (s : State) : Host.Outcome State Fault Refusal :=
  .next (let q := p.toNat
    let x := s.phase q
    if s.lineOn && decide (q < 6) && x.pulseDue then
      let s1 := (s.runTo (s.pulseCycle q)).loopForce q
      let h := s1.pulseLength q
      let c := s1.pulseCycle q
      let s2 := s1.setPhase q { x with pulseDue := false, convDue := true, pulseEnd := c + h, conv := c + h / 2 }
      if h != 0 && s2.railLive && s2.lpe.phEn then s2.setPwm q true else s2
    else s)

/-- PHASE_PULSE_END: PWM(p + 1) goes low after H cycles (R231). -/
def execPhasePulseEnd (p : BitVec 3) (s : State) : Host.Outcome State Fault Refusal :=
  .next (let q := p.toNat
    if s.coreRun && decide (q < 6) && s.lpe.pwm.getLsbD q && decide ((s.phase q).pulseEnd < 16 * s.nSlots) then
      (s.runTo (s.phase q).pulseEnd).setPwm q false
    else s)

/-- ISNS_CONVERSION: the current of phase p at its pulse centre, an instant that has not passed; the evaluation of its
loop is then due (R232, R233).  The code is the converter's, or flagged invalid; a conversion that is not at full scale,
or invalid, breaks the run of those that are (R234). -/
def execIsnsConversion (p : BitVec 3) (code : BitVec 12) (valid : Bool) (s : State) : Host.Outcome State Fault Refusal :=
  .next (let q := p.toNat
    let x := s.phase q
    if s.lineOn && decide (q < 6) && x.convDue && decide (s.lineCycle ≤ x.conv) && decide (x.conv < 16 * s.nSlots) then
      let s := s.runTo x.conv
      let c := code.toInt
      let full := valid && (c == -2048 || c == 2047)
      let r := if full then min (x.fullRun + 1) 2 else 0
      let s1 := s.setPhase q { x with
        convDue := false, invalid := !valid, fullRun := r,
        code := if valid then clampInt (c - s.isnsOff q) (-2048) 2047 else x.code }
      { s1 with lpe := { s1.lpe with
          due := s1.lpe.due ++ [q],
          rangeDue := if r = 2 then insertRow q s1.lpe.rangeDue else s1.lpe.rangeDue } }
    else s)

/-- CBC_TRIP: the comparator of phase p cuts the pulse and is counted (R252). -/
def execCbcTrip (p : BitVec 3) (s : State) : Host.Outcome State Fault Refusal :=
  .next (let q := p.toNat
    let x := s.phase q
    if s.coreRun && decide (q < 6) && s.lpe.pwm.getLsbD q then
      let n := if x.cbcHit then x.cbcRun else min (x.cbcRun + 1) 255
      let s1 := ((s.setPwm q false).inc (F.LPE_LPn_CNT_CBC q)).setPhase q { x with cbcHit := true, cbcRun := n }
      if max (s.get F.LPE_ILIM_CBC_RUN) 1 ≤ n && !x.cbcHit then
        { s1 with lpe := { s1.lpe with ocDue := insertRow q s1.lpe.ocDue } } else s1
    else s)

/-! ### Rail faults (R234, R249, R252) -/

/-- RAIL_START_TIMEOUT (R249). -/
def execRailStartTimeout (s : State) : Host.Outcome State Fault Refusal :=
  .next (if s.coreRun && s.lpe.startDue then
    let s1 := { s with lpe := { s.lpe with startDue := false } }
    if s1.rail = Rail.start then (s1.raise Code.LPE_RAIL_START 0).tripRail else s1
  else s)

/-- VLED_OVP (R234). -/
def execVledOvp (s : State) : Host.Outcome State Fault Refusal :=
  .next (if s.coreRun && s.lpe.ovpDue then
    { s.raise Code.LPE_OVP 0 with lpe := { s.lpe with ovpDue := false } } else s)

/-- VLED_UVP (R234). -/
def execVledUvp (s : State) : Host.Outcome State Fault Refusal :=
  .next (if s.coreRun && s.lpe.uvpDue then
    ({ s with lpe := { s.lpe with uvpDue := false, uvpRun := 0 } }.raise Code.LPE_UVP 0).tripRail else s)

/-- ISNS_RANGE_FAULT (R234). -/
def execIsnsRangeFault (s : State) : Host.Outcome State Fault Refusal :=
  .next (match s.lpe.rangeDue with
    | [] => s
    | p :: t =>
      if s.coreRun then
        ({ s with lpe := { s.lpe with rangeDue := t } }.raise Code.LPE_ISNS_RANGE p).tripRail else s)

/-- ISNS_REF_FAULT (R234). -/
def execIsnsRefFault (s : State) : Host.Outcome State Fault Refusal :=
  .next (if s.coreRun && s.lpe.refDue then
    ({ s with lpe := { s.lpe with refDue := false } }.raise Code.LPE_ISNS_REF 0).tripRail else s)

/-- PS_FLT_N_LOW: a filtered low (R234, R251). -/
def execPsFltNLow (s : State) : Host.Outcome State Fault Refusal :=
  .next (if s.coreRun && s.lpe.psHigh then
    ({ s with lpe := { s.lpe with psHigh := false } }.assertF Code.LPE_STAGE 0).tripRail else s)

/-- PHASE_OC: a phase has tripped in CBC_RUN consecutive periods (R252). -/
def execPhaseOc (s : State) : Host.Outcome State Fault Refusal :=
  .next (match s.lpe.ocDue with
    | [] => s
    | p :: t =>
      if s.coreRun then
        ({ s with lpe := { s.lpe with ocDue := t } }.raise Code.LPE_PHASE_OC p).tripRail else s)

/-! ### Crest and headroom (R247, R248) -/

/-- The crest fallback begins; the crest delivered is not used (R248). -/
def State.crestFail (s : State) : State :=
  let s1 := if s.flag F.LPE_STATUS_CREST_FB then s
    else (s.put F.LPE_STATUS_CREST_FB 1).assertF Code.LPE_CREST 0
  { s1 with lpe := { s1.lpe with crestNew := false, crestMiss := 0 } }

/-- A crest is delivered to LP6 (R180, R234): one below LUM_VMIN.VMIN is not accepted. -/
def State.crestDeliver (s : State) : State :=
  let s1 := s.put F.LUM_CREST_MV s.arrayCrest
  if s.arrayCrest < s.get F.LUM_VMIN_VMIN then s1.crestFail
  else { s1 with lpe := { s1.lpe with crestNew := true } }

/-- At a commit instant the deliveries are counted (R234). -/
def State.crestInstant (s : State) : State :=
  if s.pixOn then
    { s with lpe := { s.lpe with crestMiss := if s.lpe.crestNew then 0 else min (s.lpe.crestMiss + 1) 2, crestNew := false } }
  else s

/-- CREST_FALLBACK: no crest for 2 commit instants, or the one just delivered fails parity, so that it ends no fallback
either (R234, R248). -/
def execCrestFallback (parity : Bool) (s : State) : Host.Outcome State Fault Refusal :=
  .next (if s.coreRun && s.ras.running && (parity || s.lpe.crestMiss == 2) then s.crestFail else s)

/-- OUT lowers TRIM at once by BACK, down to 0, and LP7 continues from there (R247). -/
def State.trimBack (s : State) : State :=
  let u := max 0 (s.loopLast 7 - (s.get F.LPE_HEAD_BACK * 2 ^ 18 : Nat))
  let s1 := s.put (F.LPE_LPn_OUT_U 7) (ofSigned 32 u)
  let l := { s1.loop 7 with stored := none, u1 := u, us := u :: (s1.loop 7).us.drop 1 }
  (s1.setLoop 7 (s1.bumpless 7 l)).satTrack 7

/-- LP7 on a report (R235, R247). -/
def State.headroom (s : State) (hMin : Nat) (out stateUpset : Bool) : State :=
  let s1 := if out then s.trimBack else s
  s1.evaluate 7 (sat31 ((hMin * 10 * 2 ^ 18 : Nat) - (s1.get F.LPE_HEAD_HEAD_TGT * 2 ^ 18 : Nat))) false stateUpset

/-- HEADROOM_TRIM: at (f, l, 8), the compliance report on the line before (R247).  Parity upsets of LP7's coefficient
words and of its states come from the memories themselves (R246). -/
def execHeadroomTrim (r : Compliance) (s : State) : Host.Outcome State Fault Refusal :=
  .next (if s.lineOn && s.slotOpen 8 && !s.lpe.trimServed then
    let s0 := s.toSlot 8
    let s1 := { s0 with lpe := { s0.lpe with trimServed := true } }
    match r with
    | .none => s1
    | .bad upsets => (((s1.coefUpsets 7 upsets).overrun 7).raise Code.LPE_COMPLIANCE 7).irq Irq.loopEvent
    | .report h o upsets stateUpset => (s1.coefUpsets 7 upsets).headroom h.toNat o stateUpset
  else s)

/-! ### Fan (R254) -/

/-- The duty of the fan in Q1.31: U_MAX while a tach fault stands, in the first frame after a start, and
before any reading; else LP8's output in force (R233, R254). -/
def State.fanDuty (s : State) : Nat :=
  (if s.lpe.tachFault || s.lpe.fanFirst || !s.hasHot then (s.uLimits 8).2 else s.loopOut 8).toNat

/-- LP8 once per frame, at (f, 0, 0): a fan period starts, so the output stored before is in force, and the evaluation is
due whose output the next fan period brings into force (R233, R235, R254). -/
def State.fanLoop (s : State) : State :=
  let s1 := s.loopForce 8
  if s1.loopOn 8 && s1.hasHot then { s1 with lpe := { s1.lpe with due := s1.lpe.due ++ [8] } } else s1

/-- The tach edges of a frame that ends, and the duty of its last fan period (R254). -/
def State.tachFrame (s : State) (edges : Nat) : State :=
  if s.loopOn 8 then
    let s1 := s.put F.LPE_TACH_EDGES (min edges 0xFFFF)
    if s1.get F.LPE_TACH_MIN ≤ edges then
      { s1.deassertF Code.LPE_FAN with lpe := { s1.lpe with tachRun := 0, tachDue := false, tachFault := false } }
    else if 2 ^ 29 ≤ s1.fanDuty then
      let n := min (s1.lpe.tachRun + 1) 255
      { s1 with lpe := { s1.lpe with
          tachRun := n,
          tachDue := !s1.lpe.tachFault && decide (max (s1.get F.LPE_TACH_FRAMES) 1 ≤ n) } }
    else { s1 with lpe := { s1.lpe with tachRun := 0 } }
  else s

/-- FAN_PERIOD: every DIV lines a fan period starts; GPIO0 is high for its first cycles (R254), with the output that LP8
has stored, in line 0 before the evaluation of its first cycle (R233). -/
def execFanPeriod (s : State) : Host.Outcome State Fault Refusal :=
  .next (let d := max (s.get F.LPE_FAN_DIV) 1
    if s.lineOn && s.loopOn 8 && s.ras.line % d == 0 && !s.lpe.fanServed then
      let lines := min d (s.frameLines - s.ras.line)
      let s1 := if s.ras.line = 0 then s else s.loopForce 8
      { s1 with lpe := { s1.lpe with
          fanServed := true, fanLine := s.ras.line,
          fanHigh := (s1.fanDuty * (lines * s.nSlots * 16) + 2 ^ 30) / 2 ^ 31 } }
    else s)

/-- TACH_FAULT: FRAMES consecutive frames with too few edges (R254). -/
def execTachFault (s : State) : Host.Outcome State Fault Refusal :=
  .next (if s.coreRun && s.lpe.tachDue then
    { s.assertF Code.LPE_FAN 0 with lpe := { s.lpe with tachDue := false, tachFault := true } } else s)

/-- The level of GPIO0 as the fan's duty: high at all times while the raster is stopped (R254). -/
def State.fanPad (s : State) : Bool :=
  !s.ras.running ||
    decide ((s.ras.line - s.lpe.fanLine) * s.nSlots * 16 + s.lineCycle < s.lpe.fanHigh)

/-! ### Coefficient ports (R242, R256) -/

/-- The loop that LPE_COEF_ADDR names is absent. -/
def State.lpCoefRange (s : State) : Bool :=
  let n := s.get F.LPE_COEF_ADDR_LOOP
  9 ≤ n || !s.loopOn n

/-- Key of the coefficient that LPE_COEF_ADDR names. -/
def State.lpCoefAddr (s : State) : Nat :=
  lpCoefKey (s.get F.LPE_COEF_ADDR_BANK) (s.get F.LPE_COEF_ADDR_LOOP) (s.get F.LPE_COEF_ADDR_INDEX)

/-- INDEX increments after an access if INC = 1. -/
def State.lpCoefInc (s : State) : State :=
  if s.flag F.LPE_COEF_ADDR_INC then s.put F.LPE_COEF_ADDR_INDEX ((s.get F.LPE_COEF_ADDR_INDEX + 1) % 16) else s

/-- A read of LPE_COEF_M: the mantissa, with the shift loaded (R256). -/
def State.lpCoefRead (s : State) : Word × State :=
  if s.lpCoefRange then (0, (s.put F.LPE_COEF_STATUS_RANGE 1).lpCoefInc)
  else
    let c := sparseGet lpCoefDefault s.lpe.coef s.lpCoefAddr
    (c.1, (s.put F.LPE_COEF_S_SHIFT c.2.toNat).lpCoefInc)

/-- A bank loses READY (R242). -/
def State.bankUnready (s : State) (b : Nat) : State :=
  if b = 0 then s.put F.LPE_BANK_A_READY 0 else s.put F.LPE_BANK_B_READY 0

/-- A coefficient is stored; its parity is then good. -/
def State.lpCoefStore (s : State) (k : Nat) (m : Word) (sh : BitVec 6) : State :=
  { s with lpe := { s.lpe with
      coef := sparseSet lpCoefDefault s.lpe.coef k (m, sh), coefBad := s.lpe.coefBad.filter fun x => x != k } }

/-- A write of LPE_COEF_M (R242). -/
def State.lpCoefWrite (s : State) (v : Word) : State :=
  if s.lpCoefRange then (s.put F.LPE_COEF_STATUS_RANGE 1).lpCoefInc
  else if s.get F.LPE_COEF_ADDR_BANK = s.actBank then (s.put F.LPE_COEF_STATUS_ACTIVE_WRITE 1).lpCoefInc
  else if s.ras.pend.isSome then (s.put F.LPE_COEF_STATUS_PENDING 1).lpCoefInc
  else
    ((s.lpCoefStore s.lpCoefAddr v (BitVec.ofNat 6 (s.get F.LPE_COEF_S_SHIFT))).bankUnready
      (s.get F.LPE_COEF_ADDR_BANK)).lpCoefInc

/-- A write of LPE_BANK_A or LPE_BANK_B: discarded for the active bank, and for the inactive one while a
RETIME is pending (R242). -/
def State.bankWrite (s : State) (b : Nat) (v : Word) : State :=
  if b = s.actBank then s.put F.LPE_COEF_STATUS_ACTIVE_WRITE 1
  else if s.ras.pend.isSome then s.put F.LPE_COEF_STATUS_PENDING 1
  else s.regWrite (if b = 0 then A.LPE_BANK_A else A.LPE_BANK_B) v

/-- LPE_COEF_M_WRITE (R242). -/
def execLpeCoefMWrite (i : Initiator) (v : Word) (s : State) : Host.Outcome State Fault Refusal :=
  .next (s.portWrite i A.LPE_COEF_M fun s => s.lpCoefWrite v)

/-- LPE_COEF_M_READ (R242). -/
def execLpeCoefMRead (i : Initiator) (s : State) : Host.Outcome State Fault Refusal :=
  .next (s.portRead i A.LPE_COEF_M State.lpCoefRead)

/-- A line has begun: samples count from 0, and pulse ends and conversions still to come are counted in the new line. -/
def State.lpeLine (s : State) (old : Nat) : State :=
  { s with lpe := { s.lpe with
      k := 0, trimServed := false, fanServed := false,
      phases := s.lpe.phases.map fun x => { x with
        pulseEnd := x.pulseEnd - 16 * old, pulseDue := false
        convDue := x.convDue && decide (16 * old ≤ x.conv), conv := x.conv - 16 * old } } }

/-- The raster starts: the sample count is 0 (R56, R230). -/
def State.lpeStart (s : State) : State :=
  { s with lpe := { s.lpe with
      n := 0, k := 0, trimServed := false, fanServed := false, fanFirst := true, crestMiss := 0,
      phases := s.lpe.phases.map fun x => { x with pulseDue := false, convDue := false } } }

end Sys2Proof.Machine
end

