-- ==== Sys2Proof/Machine/Calib.lean ====
section
/-!
DEFINITION. Calibration: its items, the mirage check, automatic runs, the CAL_RUN job and the stored
record (spec/18_selftest_calibration.md, R454-R459).
-/

namespace Sys2Proof.Machine

namespace CalIt
def link : Nat := 0
def precharge : Nat := 1
def isns : Nat := 2
def trim : Nat := 3
end CalIt

namespace CalReason
def mirage : Nat := 1
def linkDown : Nat := 2
def raster : Nat := 3
def rail : Nat := 4
def lifecycle : Nat := 5
def items : Nat := 6
def trimPoints : Nat := 7
end CalReason

/-- Port U or D is ACTIVE in L0. -/
def State.portU0 (s : State) : Bool := s.get F.LNK_U_STATUS_STATE == 7 && s.get F.LNK_U_STATUS_LPS == 0
def State.portD0 (s : State) : Bool := s.get F.LNK_D_STATUS_STATE == 7 && s.get F.LNK_D_STATUS_LPS == 0

/-- CAL_STATUS.PENDING shows the automatic items that wait. -/
def State.calShow (s : State) : State :=
  s.put F.CAL_STATUS_PENDING
    (b2n (s.cal.waitU || s.cal.waitD) + 2 * b2n s.cal.waitPc + 4 * b2n s.cal.waitIsns)

/-- A bit of an items field is set. -/
def State.setBit (s : State) (f : Field) (i : Nat) : State :=
  if bitOf (s.get f) i then s else s.put f (s.get f + 2 ^ i)

/-! ### Statistics (R454) -/

/-- The longest run of set positions from `p` on, as start and length; of equal runs the first. -/
def longestRun (m : BitVec 32) : Nat → Nat → Nat → Nat × Nat → Nat × Nat
  | 0, _, len, best => if best.2 < len then (32 - len, len) else best
  | n + 1, p, len, best =>
    if m.getLsbD p then longestRun m n (p + 1) (len + 1) best
    else longestRun m n (p + 1) 0 (if best.2 < len then (p - len, len) else best)

/-- Centre of the longest run and its length; with no position left the centre is a free value. -/
def linkValue (m : BitVec 32) (k : Nat) : Nat × Nat :=
  let r := longestRun m 32 0 0 (0, 0)
  if r.2 = 0 then ((Config.linkPhase k).toNat, 0) else ((r.1 + (r.1 + r.2 - 1) + 1) / 2, r.2)

/-- Value of an ISNS channel from the sum of its conversions. -/
def isnsValue (sum : Int) : Int := clampInt ((sum + 512) / 1024) (-128) 127

/-- Value of a TRIM channel from the sum of its counts. -/
def trimValue (sum : Nat) : Int :=
  ((sum / 16 + (if sum % 16 ≠ 0 && Config.trimRoundsUp sum then 1 else 0) : Nat) : Int)

/-- Tolerance of an item (R454). -/
def calTolerance (item : Nat) : Int := if item = 3 then 4 else if item = 2 then 2 else 1

/-- Every channel's two values agree (R455). -/
def calAgree (tol : Int) : List Int → List Int → Bool
  | x :: a, y :: b => decide (-tol ≤ x - y) && decide (x - y ≤ tol) && calAgree tol a b
  | [], [] => true
  | _, _ => false

/-- The accepted value of every channel (R455). -/
def calMean (a b : List Int) : List Int := List.zipWith (fun x y => (x + y + 1) / 2) a b

/-! ### Adoption -/

/-- Working values of U lanes 0-3 and of the D return lane (R454). -/
def State.adoptLink (s : State) (v : CalVal) : State :=
  let s1 := if v.u then
      (((s.put F.CAL_LINK_LANE0 (v.vals.getD 0 0).toNat).put F.CAL_LINK_LANE1 (v.vals.getD 1 0).toNat).put
        F.CAL_LINK_LANE2 (v.vals.getD 2 0).toNat).put F.CAL_LINK_LANE3 (v.vals.getD 3 0).toNat
    else s
  if v.d then s1.put F.CAL_LINK_D_TAP ((v.vals.getD (if v.u then 4 else 0) 0).toNat) else s1

/-- Working ISNS offset of phase `p` is set. -/
def State.setIsns (s : State) (p : Nat) (o : Int) : State :=
  let a := A.CAL_ISNS0 + 4 * (p / 4)
  s.setReg a (wordPut (s.reg a) (8 * (p % 4) + 7) (8 * (p % 4)) (ofSigned 8 o))

/-- Every tap of the array takes its working value (R459). -/
def State.loadTaps (s : State) : State :=
  { s with ary := { s.ary with taps := s.cal.taps, tapBad := [] } }

/-- A sensor's trim takes a measured point. -/
def trimPoint (v : TrimVal) (point n : Nat) (t : Int) : TrimVal :=
  if point = 1 then { v with n1 := n, t1 := t } else { v with n2 := n, t2 := t }

/-- Accepted values become the working values (R454, R458).  DESIGN CHOICE (log 93): TRIM_DEFAULT clears with the first
TRIM point adopted, though the other point is still nominal. -/
def State.adopt (s : State) (v : CalVal) : State :=
  if v.item = CalIt.link then s.adoptLink v
  else if v.item = CalIt.precharge then
    ({ s with cal := { s.cal with
        taps := sparseFill (fun _ => 8) [] 0 (v.vals.map Int.toNat) } }).loadTaps
  else if v.item = CalIt.isns then
    forUpto v.vals.length (fun p s => s.setIsns p (v.vals.getD p 0)) s
  else
    { s.put F.THM_STATUS_TRIM_DEFAULT 0 with cal := { s.cal with
        trim := (List.range 32).map fun i => trimPoint (s.cal.trim.getD i {}) v.point (v.vals.getD i 0).toNat v.t } }

/-! ### The stored record (R459) -/

/-- Address of a stored copy. -/
def calCopyAddr (k : Nat) : Nat := if k = 0 then 0x08140000 else 0x08150000

/-- A copy is valid: its check word matches. -/
def State.calCopyOk (s : State) (k : Nat) : Bool :=
  crc32 (s.nvBytes (calCopyAddr k) 0xFFFC) == s.nvWord (calCopyAddr k + 0xFFFC)

/-- GEN of a copy. -/
def State.calCopyGen (s : State) (k : Nat) : Nat := wordGet (s.nvWord (calCopyAddr k)) 31 16

/-- The copy in force as CAL_GEN.SOURCE shows it. -/
def State.calSrc (s : State) : Option Nat :=
  match s.get F.CAL_GEN_SOURCE with
  | 1 => some 0
  | 2 => some 1
  | _ => none

/-- The values of the copy in force, or the defaults (R459). -/
def State.recordState (s : State) : State :=
  match s.calSrc with
  | none =>
    { ((s.put F.CAL_LINK_LANE0 16).put F.CAL_LINK_LANE1 16 |>.put F.CAL_LINK_LANE2 16 |>.put F.CAL_LINK_LANE3 16
        |>.put F.CAL_LINK_D_TAP 16 |>.put F.CAL_ISNS0_OFFSETS 0 |>.put F.CAL_ISNS1_OFFSETS 0) with
      cal := { s.cal with taps := [], trim := List.replicate 32 {} } }
  | some k =>
    let a := calCopyAddr k
    let w := fun o => s.nvWord (a + o)
    { ((s.put F.CAL_LINK_LANE0 (wordGet (w 0x10) 4 0)).put F.CAL_LINK_LANE1 (wordGet (w 0x10) 12 8)
        |>.put F.CAL_LINK_LANE2 (wordGet (w 0x10) 20 16) |>.put F.CAL_LINK_LANE3 (wordGet (w 0x10) 28 24)
        |>.put F.CAL_LINK_D_TAP (wordGet (w 0x14) 4 0) |>.put F.CAL_ISNS0_OFFSETS (w 0x20).toNat
        |>.put F.CAL_ISNS1_OFFSETS (wordGet (w 0x24) 15 0)) with
      cal := { s.cal with
        taps := sparseFill (fun _ => 8) [] 0 ((List.range 2048).map fun c =>
          (s.nvByte (a + 0x200 + c / 2)).toNat / (if c % 2 = 0 then 1 else 16) % 16)
        trim := (List.range 32).map fun i =>
          { n1 := wordGet (w (0x40 + 8 * i)) 15 0, n2 := wordGet (w (0x40 + 8 * i)) 31 16
            t1 := toSigned 12 (wordGet (w (0x44 + 8 * i)) 11 0)
            t2 := toSigned 12 (wordGet (w (0x44 + 8 * i)) 27 16) } } }

/-- A sensor's trim of the copy in force, with the points that are complete in TRIM_HAVE as they have been measured (R458,
R459). -/
def trimMeasured (have1 have2 : Bool) (stored working : TrimVal) : TrimVal :=
  let v := if have1 then trimPoint stored 1 working.n1 working.t1 else stored
  if have2 then trimPoint v 2 working.n2 working.t2 else v

/-- The values from which a new record starts: those of the copy in force; when the job measures TRIM, with the point that
an earlier job has measured and TRIM_HAVE counts as complete (R458, R459). -/
def State.recordBase (s : State) : State :=
  let r := s.recordState
  if s.cal.vals.any fun v => v.item == CalIt.trim then
    let has := fun i => bitOf (s.get F.CAL_STATUS_TRIM_HAVE) i
    { r with cal := { r.cal with
        trim := List.zipWith (trimMeasured (has 0) (has 1)) r.cal.trim s.cal.trim } }
  else r

/-- The values of a new record: the pending values of a job laid over those it starts from. -/
def State.pendingState (s : State) : State := s.cal.vals.foldl (fun s v => s.adopt v) s.recordBase

/-- Words of the trim table. -/
def trimWords (v : TrimVal) : List Word :=
  [BitVec.ofNat 32 (v.n1 % 65536 + 65536 * v.n2), BitVec.ofNat 32 (ofSigned 12 v.t1 + 65536 * ofSigned 12 v.t2)]

/-- The temperature of an item's acceptance for the new record: of this job's, or carried over with the item (R459). -/
def State.recordTemp (s : State) (item now hi lo : Nat) : Nat :=
  if s.cal.vals.any fun v => v.item == item then now
  else match s.calSrc with
    | none => 0
    | some k => wordGet (s.nvWord (calCopyAddr k + 4)) hi lo

/-- The bytes of a new record up to the end of its last item (R459). -/
def State.calRecord (s : State) (gen present : Nat) : List Byte :=
  let p := s.pendingState
  let linkT := s.recordTemp CalIt.link (s.get F.CAL_TEMP_LINK_T) 27 16
  let pcT := s.recordTemp CalIt.precharge (s.get F.CAL_TEMP_PC_T) 11 0
  let tap := fun c => sparseGet (fun _ => 8) p.cal.taps c
  wordsBytes ([BitVec.ofNat 32 (gen * 65536 + present),
      BitVec.ofNat 32 (linkT * 65536 + pcT), 0, 0,
      p.reg A.CAL_LINK, BitVec.ofNat 32 (p.get F.CAL_LINK_D_TAP), 0, 0,
      p.reg A.CAL_ISNS0, BitVec.ofNat 32 (wordGet (p.reg A.CAL_ISNS1) 15 0)] ++ zeroWords 6 ++
    (p.cal.trim.flatMap trimWords) ++ zeroWords 48) ++
  ((List.range 1024).map fun k => BitVec.ofNat 8 (tap (2 * k) + 16 * tap (2 * k + 1)))

/-- The copy that a job writes, and its GEN (R459). -/
def State.calTarget (s : State) : Nat × Nat :=
  match s.calSrc with
  | none => (0, 1)
  | some k => (1 - k, (s.get F.CAL_GEN_GEN + 1) % 65536)

/-- Items present in the new record: those carried over and those measured. -/
def State.calPresent (s : State) : Nat :=
  let old := match s.calSrc with
    | none => 0
    | some k => wordGet (s.nvWord (calCopyAddr k)) 3 0
  (List.range 4).foldl (fun m i => m + (if bitOf old i || s.cal.vals.any (fun v => v.item == i) then 2 ^ i else 0)) 0

/-- The units of the new record, the check word's last (R410, R459). -/
def State.calUnits (s : State) : List (Nat × List Byte) :=
  let t := s.calTarget
  let a := calCopyAddr t.1
  partitionUnits a 0x10000 (s.nvBytes a 0x10000) (s.calRecord t.2 s.calPresent)

/-! ### Running items (R454-R458) -/

/-- An item begins. -/
def State.calBegin (s : State) (it : CalItem) : State :=
  let s1 := if it.auto then s.put F.CAL_STATUS_AUTO_RUN 1 else s.put F.CAL_STATUS_BUSY 1
  { s1 with cal := { s1.cal with
      run := some { it with started := it.item == CalIt.isns || it.item == CalIt.trim }
      pc := if it.item = CalIt.precharge then some {} else none } }

/-- No item runs any more. -/
def State.calIdle (s : State) : State :=
  let s1 := (s.put F.CAL_STATUS_AUTO_RUN 0).put F.CAL_STATUS_BUSY 0
  { s1 with cal := { s1.cal with run := none, pc := none } }

/-- The job is over: nothing of it is left. -/
def State.calJobOver (s : State) : State :=
  { s with cal := { s.cal with job := none, todo := [], vals := [], ending := false } }

/-- The pending values of the job are adopted, and it ends DONE: its commit point (R458). -/
def State.calCommit (s : State) : State :=
  let s1 := s.cal.vals.foldl (fun s v => s.adopt v) s
  ((s1.calJobOver).jobCommitOf Job.calRun).jobEndOf Job.calRun Job.done

/-- The record has been written: it is in force, and the pending values are adopted (R458, R459). -/
def State.calStored (s : State) : State :=
  let t := s.calTarget
  ((s.put F.CAL_GEN_SOURCE (t.1 + 1)).put F.CAL_GEN_GEN t.2).calCommit

/-- An item ends FAILED with its reason (R455, R457). -/
def State.calFlag (s : State) (item reason : Nat) : State :=
  ((s.calIdle.setBit F.CAL_STATUS_FAILED item).put F.CAL_STATUS_REASON reason).irq Irq.calibration

/-- An item of a job fails: the job ends FAILED and adopts nothing (R458). -/
def State.calJobFail (s : State) (item reason : Nat) : State :=
  ((s.calFlag item reason).calJobOver).jobEndOf Job.calRun Job.failed

/-- An item of a job begins without what it needs: PRECHARGE the raster and PIX, LINK port U in L0 (R454, R456). -/
def State.calNeeds (s : State) (i : Nat) : State :=
  if i = CalIt.precharge ∧ !(s.ras.running && s.pixOn) then s.calJobFail i CalReason.raster
  else if i = CalIt.link ∧ !s.portU0 then s.calJobFail i CalReason.linkDown
  else s

/-- The job goes on with its next item, or has accepted its last one (R458). -/
def State.calNext (s : State) : State :=
  match s.cal.todo with
  | i :: t =>
    (({ s with cal := { s.cal with todo := t } }).calBegin
      { item := i, auto := false, u := i == CalIt.link && s.portU0, d := i == CalIt.link && s.portD0 }).calNeeds i
  | [] =>
    if (s.cal.job.map fun w => wordGet w 4 4) == some 1 then
      { s with nvmw := { s.nvmw with tasks := s.nvmw.tasks ++ [{ owner := Job.calRun, units := s.calUnits }] } }
    else s.calCommit

/-- The automatic item gives way to a job, adopts nothing, and waits to run again after it (R458). -/
def State.calYield (s : State) (it : CalItem) : State :=
  let s1 := s.calIdle
  ({ s1 with cal := { s1.cal with
      ending := false
      waitU := s1.cal.waitU || it.u, waitD := s1.cal.waitD || it.d
      waitPc := s1.cal.waitPc || it.item == CalIt.precharge
      waitIsns := s1.cal.waitIsns || it.item == CalIt.isns } }).calShow.calNext

/-- The running item fails: a job ends FAILED and adopts nothing; an automatic item that was to give way to a job does so
at once (R455, R456, R458). -/
def State.calFail (s : State) (reason : Nat) : State :=
  match s.cal.run with
  | none => s
  | some it =>
    if !it.auto then s.calJobFail it.item reason
    else if s.cal.ending then (s.calFlag it.item reason).calYield it
    else s.calFlag it.item reason

/-- The CAL_RUN job is not suspended, or the item is automatic. -/
def State.calGoes (s : State) (it : CalItem) : Bool := it.auto || (s.findRunning Job.calRun).isSome

/-- The raster or PIX stops: the window ends, a PRECHARGE item fails (R456) unless its job is suspended, which waits (R440),
and with no window to come an automatic item gives way to a job at once (R458). -/
def State.calRasterStop (s : State) : State :=
  let s1 := { s with cal := { s.cal with window := false } }
  match s1.cal.run with
  | none => s1
  | some it =>
    if it.item = CalIt.precharge then (if s1.calGoes it then s1.calFail CalReason.raster else s1)
    else if s1.cal.ending && !s1.ras.running then s1.calYield it
    else s1

/-- RESUME of a CAL_RUN: its PRECHARGE item needs the raster and PIX again (R440, R456).  DEDUCED (log entry 62): it
fails where they are still off, as an item that begins without them. -/
def State.calResume (s : State) : State :=
  if s.cal.run.any fun it => it.item == CalIt.precharge && !it.auto then
    (if s.ras.running && s.pixOn then s else s.calFail CalReason.raster)
  else s

/-- A port has left ACTIVE or L0: a LINK item that measures it fails (R456). -/
def State.calLinkDown (s : State) (u : Bool) : State :=
  if s.cal.run.any fun it => it.item == CalIt.link && (if u then it.u else it.d) then s.calFail CalReason.linkDown else s

/-- Raises of values at the end of their range: channel and item (R455, R460). -/
def State.calLimits (s : State) (item : Nat) (bad : List Nat) : State :=
  bad.foldl (fun s c => s.raise Code.CAL_LIMIT (item + 256 * c)) s

/-- An item is accepted (R455, R457, R458). -/
def State.calAccept (s : State) (it : CalItem) (vals : List Int) (limits : List Nat) (runD : Nat) : State :=
  let tier := s.get F.THM_HOT_TIER
  let s1 := ((s.calIdle.setBit F.CAL_STATUS_ACCEPTED it.item).inc F.CAL_CNT_ACCEPTS).irq Irq.calibration
  let s2 := s1.calLimits it.item limits
  let s3 := if it.item = CalIt.link then
      let s := s2.put F.CAL_TEMP_LINK_T tier
      if it.d then s.put F.CAL_LINK_D_RUN runD else s
    else if it.item = CalIt.precharge then s2.put F.CAL_TEMP_PC_T tier else s2
  let w := s.cal.job.getD 0
  let v : CalVal := { item := it.item, u := it.u, d := it.d, point := wordGet w 9 8, t := toSigned 12 (wordGet w 27 16), vals := vals }
  if it.auto then s3.adopt v
  else
    let s4 := if it.item = CalIt.trim then s3.setBit F.CAL_STATUS_TRIM_HAVE (v.point - 1) else s3
    ({ s4 with cal := { s4.cal with vals := s4.cal.vals ++ [v] } }).calNext

/-- A pair disagrees: the item is measured again, or fails after TRIES pairs (R455). -/
def State.calRetry (s : State) (it : CalItem) : State :=
  if max (s.get F.CAL_CTRL_TRIES) 1 ≤ it.pairs + 1 then
    (((s.raise Code.CAL_MIRAGE it.item).inc F.CAL_CNT_MIRAGE_FAIL)).calFail CalReason.mirage
  else
    { s with cal := { s.cal with
        run := some { it with pairs := it.pairs + 1, a := none, b := none, started := it.item == CalIt.isns || it.item == CalIt.trim }
        pc := if it.item = CalIt.precharge then some {} else none } }

/-- A pair of values is judged by the mirage check (R455). -/
def State.calJudge (s : State) (it : CalItem) (a b : List Int) (limits : List Nat) (runD : Nat) : State :=
  if calAgree (calTolerance it.item) a b then s.calAccept it (calMean a b) limits runD else s.calRetry it

/-- Channels for which a test holds. -/
def channelsWhere {α : Type} (f : α → Bool) (l : List α) : List Nat :=
  (List.range l.length).filter fun i => (l.drop i).head?.any f

/-- A sensor's measured point lies closer than 64 counts to the other point of its working trim (R454). -/
def State.trimTooClose (s : State) (point : Nat) (vals : List Int) : Bool :=
  (List.range 32).any fun i =>
    let v := trimPoint (s.cal.trim.getD i {}) point (vals.getD i 0).toNat 0
    decide (v.n1 < v.n2 + 64) && decide (v.n2 < v.n1 + 64)

/-- The measurements of the running item are complete (R454, R455).  LINK: channels 0 to 3 are the lanes of U, channel 4
is the return lane of D (R460). -/
def State.calMeasured (s : State) (it : CalItem) (p : CalPair) : State :=
  match p with
  | .link a b =>
    let n := (if it.u then 4 else 0) + (if it.d then 1 else 0)
    if it.item = CalIt.link && it.started && a.length == n && b.length == n then
      let va := (List.range n).map fun i => linkValue (a.getD i 0) (s.freeCount + 2 * i)
      let vb := (List.range n).map fun i => linkValue (b.getD i 0) (s.freeCount + 2 * i + 1)
      let s1 := { s with freeCount := s.freeCount + 2 * n }
      s1.calJudge it (va.map fun v => v.1) (vb.map fun v => v.1)
        (((List.range n).filter fun i => decide ((va.getD i (0, 0)).2 < 4) || decide ((vb.getD i (0, 0)).2 < 4)).map
          fun i => if it.u then i else 4)
        ((vb.getLast?.map fun v => v.2).getD 0)
    else s
  | .precharge =>
    match it.a, it.b with
    | some a, some b =>
      let x := a.map Int.ofNat
      let y := b.map Int.ofNat
      s.calJudge it x y (channelsWhere (fun v => v == 0 || v == 15) (calMean x y)) 0
    | _, _ => s
  | .isns a b =>
    if it.item = CalIt.isns && a.length == s.nPh && b.length == s.nPh then
      if s.rail = Rail.off then s.calJudge it (a.map isnsValue) (b.map isnsValue) [] 0 else s.calFail CalReason.rail
    else s
  | .trim a b =>
    if it.item = CalIt.trim && a.length == 32 && b.length == 32 then
      let x := a.map trimValue
      let y := b.map trimValue
      let point := wordGet (s.cal.job.getD 0) 9 8
      if calAgree 4 x y && s.trimTooClose point (calMean x y) then s.calFail CalReason.trimPoints
      else s.calJudge it x y [] 0
    else s

/-- CAL_ITEM_COMPLETE: a measurement pair ends (R455).  An automatic item that is to give way to a job adopts nothing: what
it measures before its window boundary counts for nothing (R458). -/
def execCalItemComplete (p : CalPair) (s : State) : Host.Outcome State Fault Refusal :=
  .next (match s.cal.run with
    | none => s
    | some it => if s.coreRun && s.calGoes it && !s.cal.ending then s.calMeasured it p else s)

/-! ### The calibration slot (R454, R456) -/

/-- The counts of a candidate are complete: its bit is kept or cleared, and the next candidate or the value
follows.  The second measurement starts at the next window, as the first (R456). -/
def State.pcCandidate (s : State) (it : CalItem) (m : PcMeas) : State :=
  let kept := List.zipWith (fun t n => if n ≤ 256 then t + 2 ^ m.bit else t) m.taps m.ones
  if m.bit ≠ 0 then
    { s with cal := { s.cal with
        pc := some { m with bit := m.bit - 1, slots := 0, taps := kept, ones := List.replicate 2048 0 } } }
  else if it.a.isNone then
    { s with cal := { s.cal with run := some { it with a := some kept }, pc := some { used := true } } }
  else
    { s with cal := { s.cal with run := some { it with b := some kept }, pc := none } }

/-- Eight samples per slot for every column: the ones are added. -/
def addOnes (ones : Row) (counts : List Nat) : Row :=
  (List.range ones.length).map fun i => ones.getD i 0 + min (counts.getD i 0) 8

/-- PRE_CHARGE_CALIBRATION_SLOT: slot N_SLOTS - 1 of a line of a window; each column gives the number of
ones among its eight samples.  The slot is over with it, so MSK does not use it (R47, R454, R456). -/
def execPreChargeCalibrationSlot (ones : List Nat) (s : State) : Host.Outcome State Fault Refusal :=
  .next (match s.cal.run, s.cal.pc with
    | some it, some m =>
      if s.lineOn && s.pixOn && m.started && !m.used && s.slotOpen (s.nSlots - 1) && s.calGoes it then
        let s1 := s.toSlot s.nSlots
        let m1 := { m with slots := m.slots + 1, used := true, ones := addOnes m.ones ones }
        if m1.slots = 64 then s1.pcCandidate it m1 else { s1 with cal := { s1.cal with pc := some m1 } }
      else s
    | _, _ => s)

/-- A calibration window begins: measurements that wait for one start, and an automatic item ends for a job
(R456, R458). -/
def State.calWindow (s : State) : State :=
  match s.cal.run with
  | none => s
  | some it =>
    if s.cal.ending then s.calYield it
    else if s.calGoes it then
      { s with cal := { s.cal with
          run := some { it with started := true }
          pc := s.cal.pc.map fun m => { m with started := true } } }
    else s

/-- The first line of 8: it and the 7 lines after it are a calibration window if a PRECHARGE measurement runs (R456). -/
def State.calEighth (s : State) : State :=
  let s1 := s.calWindow
  { s1 with cal := { s1.cal with window := s1.cal.pc.any fun m => m.started } }

/-- A line begins. -/
def State.calLine (s : State) : State :=
  let s0 := { s with cal := { s.cal with pc := s.cal.pc.map fun m => { m with used := false } } }
  let s1 := if s0.ras.line % 8 = 0 then s0.calEighth else s0
  if s1.cal.pcArm && s1.cal.pcStarted && s1.ras.line == 8 then
    { s1 with cal := { s1.cal with
        pcArm := false, pcStarted := false, waitPc := s1.cal.waitPc || s1.flag F.CAL_CTRL_AUTO } }.calShow
  else s1

/-! ### Automatic calibration (R457) -/

/-- An automatic item is triggered for the LINK channels of a port. -/
def State.calTrigger (s : State) (u : Bool) : State :=
  if s.flag F.CAL_CTRL_AUTO then
    { s with cal := { s.cal with waitU := s.cal.waitU || u, waitD := s.cal.waitD || !u } }.calShow
  else s

/-- A difference of two T codes is DELTA or more. -/
def driftAt (delta : Nat) (a b : Nat) : Bool :=
  decide ((delta : Int) ≤ toSigned 12 a - toSigned 12 b) || decide ((delta : Int) ≤ toSigned 12 b - toSigned 12 a)

/-- The automatic item that runs measures this item anew: no trigger is needed for it (R457). -/
def State.calBusyWith (s : State) (f : CalItem → Bool) : Bool :=
  s.cal.run.any fun it => it.auto && f it

/-- The drift trigger at a publication (R457). -/
def State.calDrift (s : State) : State :=
  let d := s.get F.CAL_CTRL_DELTA
  if d = 0 || !s.flag F.CAL_CTRL_AUTO then s
  else
    let t := s.get F.THM_HOT_TIER
    let l := driftAt d t (s.get F.CAL_TEMP_LINK_T)
    let p := driftAt d t (s.get F.CAL_TEMP_PC_T)
    { s with cal := { s.cal with
        waitU := s.cal.waitU || l && s.portU0 && !s.calBusyWith fun it => it.u
        waitD := s.cal.waitD || l && s.portD0 && !s.calBusyWith fun it => it.d
        waitPc := s.cal.waitPc || p && !s.calBusyWith fun it => it.item == CalIt.precharge
        waitIsns := s.cal.waitIsns || (l || p) && !s.cal.drift
        drift := l || p } }.calShow

/-- CAL_AUTO_TRIGGER: an automatic item that waits starts, in the order LINK, PRECHARGE, ISNS, as its
conditions allow, while AUTO = 1 and no job measures (R457, R458). -/
def execCalAutoTrigger (s : State) : Host.Outcome State Fault Refusal :=
  .next (if s.coreRun && s.flag F.CAL_CTRL_AUTO && s.cal.run.isNone && s.cal.job.isNone then
    let u := s.cal.waitU && s.portU0
    let d := s.cal.waitD && s.portD0
    let s0 := (s.put F.CAL_STATUS_ACCEPTED 0).put F.CAL_STATUS_FAILED 0
    if u || d then
      (({ s0 with cal := { s0.cal with waitU := s.cal.waitU && !u, waitD := s.cal.waitD && !d } }).calShow).calBegin
        { item := CalIt.link, auto := true, u := u, d := d }
    else if s.cal.waitPc && s.ras.running && s.pixOn then
      ({ s0 with cal := { s0.cal with waitPc := false } }.calShow).calBegin { item := CalIt.precharge, auto := true }
    else if s.cal.waitIsns && s.rail == Rail.off then
      ({ s0 with cal := { s0.cal with waitIsns := false } }.calShow).calBegin { item := CalIt.isns, auto := true }
    else s
  else s)

/-- START of a CAL_RUN (R458): false = refused through OWNER. -/
def State.calRunStart (s : State) : State × Bool :=
  let w := s.reg A.CAL_RUN
  let has := fun i => bitOf (w.toNat) i
  let lc := s.get F.CFG_LC_STATE
  let pt := wordGet w 9 8
  let ref := fun r => ((s.put F.CAL_STATUS_REASON r), false)
  if wordGet w 3 0 = 0 then ref CalReason.items
  else if has 2 && s.rail != Rail.off then ref CalReason.rail
  else if has 3 && !(lc == 1 || lc == 3) then ref CalReason.lifecycle
  else if has 1 && !s.ras.running then ref CalReason.raster
  else if has 0 && !(s.get F.LNK_U_STATUS_STATE == 7) then ref CalReason.linkDown
  else if has 3 && (pt == 0 || pt == 3) then ref CalReason.trimPoints
  else if wordGet w 4 4 = 1 && has 3 &&
      !(bitOf (s.get F.CAL_STATUS_TRIM_HAVE) 0 || pt == 1) || wordGet w 4 4 = 1 && has 3 &&
      !(bitOf (s.get F.CAL_STATUS_TRIM_HAVE) 1 || pt == 2) then ref CalReason.trimPoints
  else
    let s1 := (s.put F.CAL_STATUS_ACCEPTED 0).put F.CAL_STATUS_FAILED 0
    let s2 := { s1 with cal := { s1.cal with
      job := some w, todo := (List.range 4).filter fun i => has i, vals := [] } }
    match s2.cal.run with
    | some it => if s2.ras.running then ({ s2 with cal := { s2.cal with ending := true } }, true)
        else (s2.calYield it, true)
    | none => (s2.calNext, true)

/-- A CAL_RUN is cancelled or failed by the power controller: nothing is adopted (R438, R458). -/
def State.calCancel (s : State) : State :=
  if s.cal.job.isSome then
    let s0 := match s.cal.run with
      | some it => if it.auto then s else s.calIdle
      | none => s
    ({ s0 with nvmw := { s0.nvmw with tasks := s0.nvmw.tasks.filter fun t => t.owner != Job.calRun } }).calJobOver
  else s

/-- Between calibration windows (R439). -/
def State.calPoint (s : State) : Bool := !(s.cal.pc.any fun m => m.started) || s.ras.line % 8 == 0

/-- The job is suspended: its measurement waits for a window after RESUME, and the window that would begin with this line
does not. -/
def State.calSuspend (s : State) : State :=
  { s with cal := { s.cal with
      window := s.cal.window && s.ras.line % 8 != 0
      pc := s.cal.pc.map fun m => { m with started := false } } }

/-! ### Load at boot (R459) -/

/-- CAL_STATUS and the working values after the record has been read. -/
def State.calLoad (s : State) : State :=
  let src := inForce (s.calCopyOk 0) (s.calCopyOk 1) (s.calCopyGen 0) (s.calCopyGen 1)
  let s1 := match src with
    | some k => ((s.put F.CAL_GEN_SOURCE (k + 1)).put F.CAL_GEN_GEN (s.calCopyGen k))
    | none => ((s.put F.CAL_GEN_SOURCE 0).put F.CAL_GEN_GEN 0).raise Code.CAL_NVM 0
  let present := match src with
    | some k => wordGet (s.nvWord (calCopyAddr k)) 3 0
    | none => 0
  let r := s1.recordState
  let d := (s1.put F.CAL_GEN_SOURCE 0).recordState
  let t := match src with
    | some k => s.nvWord (calCopyAddr k + 4)
    | none => 0
  let pick := fun i (f : State → Nat) => if bitOf present i then f r else f d
  let s2 := s1.setReg A.CAL_LINK (if bitOf present 0 then r.reg A.CAL_LINK else d.reg A.CAL_LINK)
    |>.put F.CAL_LINK_D_TAP (pick 0 fun s => s.get F.CAL_LINK_D_TAP)
    |>.put F.CAL_ISNS0_OFFSETS (pick 2 fun s => s.get F.CAL_ISNS0_OFFSETS)
    |>.put F.CAL_ISNS1_OFFSETS (pick 2 fun s => s.get F.CAL_ISNS1_OFFSETS)
    |>.put F.CAL_TEMP_LINK_T (if bitOf present 0 then wordGet t 27 16 else 0)
    |>.put F.CAL_TEMP_PC_T (if bitOf present 1 then wordGet t 11 0 else 0)
  let s3 := { s2 with cal := { s2.cal with
    taps := if bitOf present 1 then r.cal.taps else []
    trim := if bitOf present 3 then r.cal.trim else List.replicate 32 {} } }
  if bitOf present 3 then s3.put F.THM_STATUS_TRIM_DEFAULT 0
  else (s3.put F.THM_STATUS_TRIM_DEFAULT 1).raise Code.THM_TRIM 0

end Sys2Proof.Machine
end

