-- ==== Sys2Proof/Machine/Retime.lean ====
section
/-!
DEFINITION. Changing the timing, starting and stopping the raster: what RAS does with a RETIME and in
the cycle of a stop (spec/02_raster_time.md, R58-R63, R514).
-/

namespace Sys2Proof.Machine

namespace RasRun
def stopped : Nat := 0
def running : Nat := 1
def pending : Nat := 2
def hold : Nat := 3
end RasRun

namespace RasMode
def free : Nat := 0
def follow : Nat := 1
def slave : Nat := 2
end RasMode

/-- RAS_STATUS.RUN. -/
def State.rasRun (s : State) : Nat := s.get F.RAS_STATUS_RUN

/-- The SEAL3 strap reads master (R51). -/
def State.sealMaster (s : State) : Bool := bitOf (s.get F.SAF_SEAL_VALUE) 3

/-- GPIO3 is the auxiliary input (R52, R398). -/
def State.gpio3Aux (s : State) : Bool := s.get F.CFG_GPIO_FUNC / 64 == 1

/-- The values of RAS_NEXT_TIMING, RAS_NEXT_PWM and RAS_NEXT_MODE. -/
def State.nextTiming (s : State) (start : Bool) : Retime :=
  { nSlots := s.get F.RAS_NEXT_TIMING_N_SLOTS, vb := s.get F.RAS_NEXT_TIMING_VB, k := s.get F.RAS_NEXT_PWM_K
    mode := s.get F.RAS_NEXT_MODE_MODE, src := s.get F.RAS_NEXT_MODE_FOLLOW_SRC, start := start, byThm := false }

/-- The timing in force. -/
def State.actTiming (s : State) : Retime :=
  { nSlots := s.nSlots, vb := s.get F.RAS_ACT_TIMING_VB, k := s.get F.RAS_ACT_PWM_K
    mode := s.get F.RAS_ACT_MODE_MODE, src := s.get F.RAS_ACT_MODE_FOLLOW_SRC, start := false, byThm := false }

/-- The check of R58 on the loop banks: code 6. -/
def State.retimeLoopFails (s : State) (t : Retime) : Bool :=
  if s.ras.running then !s.bankFits (1 - s.actBank) t.nSlots
  else if t.mode = RasMode.slave then false
  else !(s.bankFits s.actBank t.nSlots || s.bankFits (1 - s.actBank) t.nSlots)

/-- Codes 1 to 4 of R58, which look at the values alone: the first that fails; 0 = none. -/
def timingCode (follow : Bool) (nSlots vb k : Nat) : Nat :=
  let sf := nSlots * (512 + vb)
  let nk := nSlots * k
  if vb < 24 ∨ 1023 < vb ∨ (follow = true ∧ (vb < 25 ∨ 1022 < vb)) then 1
  else if nSlots < 96 then 2
  else if sf < 103600 ∨ 837600 < sf then 3
  else if k < 4 ∨ nk < 3125 ∨ 25000 < nk then 4
  else 0

/-- The first check of R58 that fails; 0 = none.  What R62 and code 5 decide whatever the values comes first: on a
stopped raster only the power controller's request is looked at, and while a SLAVE raster runs every request fails with
code 5 (log entry 19). -/
def State.retimeCheck (s : State) (t : Retime) : Nat :=
  let c := timingCode (t.mode == RasMode.follow) t.nSlots t.vb t.k
  if !s.ras.running && !t.start then 7
  else if s.ras.running && s.get F.RAS_ACT_MODE_MODE == RasMode.slave then 5
  else if c ≠ 0 then c
  else if t.mode = 3 || (if s.sealMaster then t.mode == RasMode.slave else t.mode != RasMode.slave) ||
      (t.mode == RasMode.follow && (2 ≤ t.src || (t.src == 1 && !s.gpio3Aux))) then 5
  else if s.retimeLoopFails t then 6
  else if s.post then 7
  else 0

/-- RESULT of a RETIME, with its REASON if it was rejected. -/
def State.retimeReject (s : State) (code : Nat) : State :=
  (s.put F.RAS_RETIME_STATUS_RESULT 3).put F.RAS_RETIME_STATUS_REASON code

/-- FOLLOW_LOCK is cleared, and its runs start again from 0 (R54). -/
def State.followUnlock (s : State) : State :=
  { s.put F.RAS_STATUS_FOLLOW_LOCK 0 with ras := { s.ras with inRun := 0, outRun := 0 } }

/-- First frame under the new timing (R59, R62). -/
def State.retimeFrame (s : State) (t : Retime) : Word :=
  if s.ras.running then s.ras.frame + (if s.ras.blankServed then 2 else 1)
  else if t.mode = RasMode.slave then 0
  else if s.ras.everStarted then s.ras.frame + 1 else 0

/-- A RETIME that passes every check is pending (R59, R62). -/
def State.retimeAccept (s : State) (t : Retime) : State :=
  let s1 := ((s.put F.RAS_RETIME_STATUS_RESULT 1).put F.RAS_RETIME_STATUS_IGNORED 0).put F.RAS_STATUS_RUN RasRun.pending
  let s2 := (s1.setReg A.RAS_RETIME_FRAME (s.retimeFrame t)).followUnlock
  { s2 with ras := { s2.ras with pend := some t } }

/-- RAS meets a RETIME: ignored while one is pending (R61), rejected (R58), or accepted. -/
def State.retime (s : State) (t : Retime) : State :=
  if s.rasRun = RasRun.pending ∨ s.rasRun = RasRun.hold then s.put F.RAS_RETIME_STATUS_IGNORED 1
  else
    let code := s.retimeCheck t
    if code ≠ 0 then s.retimeReject code else s.retimeAccept t

/-- The RETIME would be accepted. -/
def State.retimeOk (s : State) (t : Retime) : Bool :=
  !(s.rasRun == RasRun.pending || s.rasRun == RasRun.hold) && s.retimeCheck t == 0

/-- RETIME: a write of RAS_CTRL (R58). -/
def execRetime (i : Initiator) (v : Word) (s : State) : Host.Outcome State Fault Refusal :=
  .next (s.portWrite i A.RAS_CTRL fun s =>
    if wordGet v 0 0 = 1 then s.retime (s.nextTiming false) else s)

/-- The registers of the timing in force take new values (R59, R67). -/
def State.setTiming (s : State) (t : Retime) : State :=
  (((((s.put F.RAS_ACT_TIMING_VB t.vb).put F.RAS_ACT_TIMING_N_SLOTS t.nSlots).put F.RAS_ACT_PWM_K t.k).put
    F.RAS_ACT_MODE_MODE t.mode).put F.RAS_ACT_MODE_FOLLOW_SRC t.src).put F.RAS_STATUS_P ((512 + t.vb) / t.k)

/-- Composition stops with the raster: nothing is fetched or composed (R62, R513).  DESIGN CHOICE (log entry 70): a stop
of the raster breaks the run of 512 skipped rows of R113. -/
def State.composeStop (s : State) : State :=
  { s with
    cmp := { s.cmp with
      todo := [], bufs := [], bands := 0, forFrame := none, nextRow := 512, last := [], rows := [], late := [], skipRun := 0 }
    lum := { s.lum with ready := [], raise := none }
    ary := { s.ary with loadDue := false } }

/-- A pending RETIME is abandoned by a stop of the raster (R514); THM takes no rejection from it (R268). -/
def State.retimeAbandon (s : State) : State :=
  match s.ras.pend with
  | none => s
  | some _ =>
    let s1 := s.retimeReject 8
    let s2 := if s1.thm.issued.isSome then s1.put F.THM_STATUS_THR_PENDING 0 else s1
    { s2 with ras := { s2.ras with pend := none }, thm := { s2.thm with issued := none } }

/-- The raster stops, or an armed raster is disarmed: a pending RETIME is abandoned, a mask pass too (R151),
the watchdog is disarmed (R428), the rail goes to OFF (R251) and the island to DARK (R282).  DESIGN CHOICE (log entry
69): a frame sync pulse that stands ends with the raster (R65), and RAS_STATUS.CUR_VB and FOLLOW_LOCK keep their last
values (R67 gives 0 for P and the ACT registers only). -/
def State.rasterStop (s : State) : State :=
  if s.rasRun = RasRun.stopped then s
  else
    let was := s.ras.running
    let s1 := s.retimeAbandon
    let s2 := ((((s1.put F.RAS_STATUS_RUN 0).setReg A.RAS_ACT_TIMING 0).setReg A.RAS_ACT_PWM 0).setReg A.RAS_ACT_MODE 0).put
      F.RAS_STATUS_P 0
    let s3 := s2.put F.RAS_STATUS_FLYWHEEL 0
    let s4 := { s3 with
      ras := { s3.ras with
        running := false, leadIn := false, winEv := none, window := false, missRun := 0, missReported := false,
        missDue := false, inRun := 0, outRun := 0, fsync := false }
      cvn := { s3.cvn with load := none, nx := none, gotEpoch := false, missServed := false, flyRun := 0, lostReported := false }
      saf := { s3.saf with wdArmed := false } }
    if was then ((s4.composeStop.passAbandon).railStop.calRasterStop).safRefresh.commitRetarget else s4

end Sys2Proof.Machine
end

