-- ==== Sys2Proof/Machine/Thermal.lean ====
section
/-!
DEFINITION. Temperature sensing, derating, throttling, the shutdown vote and the window for non-volatile
writes (spec/11_thermal.md).
-/

namespace Sys2Proof.Machine

/-! ### Levels as used (R273) -/

/-- From a publication on the registers are used as they then stand (R273). -/
def State.thmUse (s : State) : State :=
  { s with thm := { s.thm with
      useZone := s.reg A.THM_ZONE, useThrottle := s.reg A.THM_THROTTLE, useGrace := s.reg A.THM_GRACE,
      useShutdown := s.reg A.THM_SHUTDOWN } }

/-- The knee, which only a publication uses. -/
def State.knee (s : State) : Int := tCode (s.reg A.THM_DERATE) F.THM_DERATE_KNEE 340 500
def State.zRestart (s : State) : Int := tCode s.thm.useZone F.THM_ZONE_ZRESTART 480 520
def State.thrLevel (s : State) : Int := tCode s.thm.useThrottle F.THM_THROTTLE_LEVEL 400 520
def State.shutLevel (s : State) : Int := tCode s.thm.useShutdown F.THM_SHUTDOWN_SHUT 480 540
def State.restartLevel (s : State) : Int := tCode s.thm.useShutdown F.THM_SHUTDOWN_RESTART 400 440

/-- Throttling is permitted (R264). -/
def State.thrEn (s : State) : Bool := s.thm.useThrottle.getLsbD 31

/-- The release level: min(RELEASE, LEVEL - 8) (R267). -/
def State.relLevel (s : State) : Int := min (toSigned 12 (wordGet s.thm.useThrottle 23 12)) (s.thrLevel - 8)

/-- Grace and hold in ticks. -/
def State.graceTicks (s : State) : Nat := wordGet s.thm.useGrace 7 0 * 1000

/-! ### Conversion (R259, R260) -/

/-- Quotient of integers rounded half up. -/
def roundDiv (n d : Int) : Int := if d < 0 then (2 * (-n) + (-d)) / (2 * (-d)) else (2 * n + d) / (2 * d)

/-- A count as a T code by a sensor's trim (R259). -/
def trimTemp (v : TrimVal) (n : Nat) : Int :=
  if v.n1 = v.n2 then Config.trimReading n
  else v.t1 + roundDiv (((n : Int) - v.n1) * (v.t2 - v.t1)) ((v.n2 : Int) - v.n1)

/-- In range: -55.00 to +175.00 °C (R260). -/
def inTRange (t : Int) : Bool := decide (-220 ≤ t) && decide (t ≤ 700)

/-- The median of three values. -/
def median3 (a b c : Int) : Int := max (min a b) (min (max a b) c)

/-- The conversion of sensor `i` in the gate that is to be published. -/
def State.conversion (s : State) (counts : List Nat) (i : Nat) : Int :=
  trimTemp (s.cal.trim.getD i {}) (counts.getD i 0)

/-- What sensor `i` holds. -/
def State.sensor (s : State) (i : Nat) : Sensor := s.thm.sensors.getD i {}

/-- Sensor `i` is broken. -/
def State.tsBroken (s : State) (i : Nat) : Bool := s.flag (F.THM_TSn_BROKEN i)

/-- Sensor `i` has a published reading, and its reading. -/
def State.tsValid (s : State) (i : Nat) : Bool := s.flag (F.THM_TSn_VALID i)
def State.tsT (s : State) (i : Nat) : Int := toSigned 12 (s.get (F.THM_TSn_T i))

/-- Sensor `i` publishes a reading. -/
def State.publish (s : State) (i : Nat) (t : Int) : State :=
  (s.put (F.THM_TSn_VALID i) 1).put (F.THM_TSn_T i) (ofSigned 12 t)

/-- The reading of a broken sensor (R260). -/
def State.brokenReading (s : State) (i : Nat) : Int := if i < 16 then s.zOff + 4 else s.shutLevel + 4

/-- A sensor becomes broken (R260). -/
def State.breakSensor (s : State) (i : Nat) : State :=
  let s1 := (s.put (F.THM_TSn_BROKEN i) 1).put F.THM_BROKEN_BROKEN (s.get F.THM_BROKEN_BROKEN + 2 ^ i)
  (s1.publish i (s.brokenReading i)).raise Code.THM_SENSOR i

/-- The conversion of sensor `i` is its third in a row out of range. -/
def State.breaksNow (s : State) (counts : List Nat) (i : Nat) : Bool :=
  !s.tsBroken i && !inTRange (s.conversion counts i) && decide (2 ≤ (s.sensor i).oor)

/-- Sensor `i` takes its conversion and publishes (R260). -/
def State.sensorStep (s : State) (counts : List Nat) (i : Nat) : State :=
  if s.tsBroken i then s.publish i (s.brokenReading i)
  else if s.breaksNow counts i then s.breakSensor i
  else
    let x := s.sensor i
    let c := s.conversion counts i
    let use := if inTRange c then some c else x.lastOk
    let hist := match use with
      | some t => (t :: x.hist).take 3
      | none => x.hist
    let x1 : Sensor :=
      { hist := hist, lastOk := if inTRange c then some c else x.lastOk, oor := if inTRange c then 0 else min (x.oor + 1) 3 }
    let s1 := { s with thm := { s.thm with sensors := s.thm.sensors.set i x1 } }
    match use, hist with
    | some _, [a, b, c] => s1.publish i (median3 a b c)
    | _, _ => s1

/-- SENSOR_GATE: a count gate of all sensors starts at slot 8 of every fourth line, or every 65,536 cycles
while the raster is stopped (R259).  The counts are those that the gate then takes. -/
def execSensorGate (counts : List Nat) (s : State) : Host.Outcome State Fault Refusal :=
  .next (if s.thmRuns && s.thm.gate.isNone then
    if s.ras.running then
      if s.lineOn && s.ras.line % 4 == 0 && s.slotOpen 8 && !s.thm.gateServed then
        let s1 := s.toSlot 8
        { s1 with thm := { s1.thm with gate := some counts, gateLine := some s1.ras.line, gateServed := true } }
      else s
    else { s with thm := { s.thm with gate := some counts, gateLine := none } }
  else s)

/-- SENSOR_BROKEN: the first sensor whose conversion is its third in a row out of range becomes broken
(R260). -/
def execSensorBroken (s : State) : Host.Outcome State Fault Refusal :=
  .next (match s.thm.gate with
    | none => s
    | some counts =>
      match (List.range 32).find? fun i => s.breaksNow counts i with
      | some i => if s.thmRuns then s.thmUse.breakSensor i else s
      | none => s)

/-! ### Evaluation at a publication (R261) -/

/-- Published readings of a range of sensors; `broken` includes those of broken sensors. -/
def State.readings (s : State) (lo n : Nat) (broken : Bool) : List Int :=
  ((List.range n).filter fun i => s.tsValid (lo + i) && (broken || !s.tsBroken (lo + i))).map fun i => s.tsT (lo + i)

/-- The highest of a list. -/
def highest : List Int → Option Int
  | [] => none
  | t :: r => some (r.foldl max t)

/-- A value inserted into a list in rising order. -/
def insertInt (x : Int) : List Int → List Int
  | [] => [x]
  | y :: t => if x ≤ y then x :: y :: t else y :: insertInt x t

/-- A list in rising order. -/
def sortInts (l : List Int) : List Int := l.foldr insertInt []

/-- Shutdown votes (R269). -/
def State.votes (s : State) : Nat := (s.readings 16 16 true).countP fun t => decide (s.shutLevel ≤ t)

/-- The zone factor of a reading (R262). -/
def zoneFactorT (t k : Int) : Nat :=
  if t ≤ k then 1024 else if 600 ≤ t then 0 else (1024 * (600 - t) / (600 - k)).toNat

/-- Field of the zone factor of zone `z`. -/
def zfField (z : Nat) : Field := if z % 2 = 0 then F.THM_ZFn_Z_EVEN (z / 2) else F.THM_ZFn_Z_ODD (z / 2)

/-- Zone `z` is off. -/
def State.zoneIsOff (s : State) (z : Nat) : Bool := bitOf (s.get F.THM_STATUS_ZONE_OFF) z

/-- Zone `z` turns off or restarts, and its factor is updated (R262, R263). -/
def State.zoneStep (s : State) (z : Nat) : State :=
  if !s.tsValid z then s.put (zfField z) 0
  else
    let t := s.tsT z
    let m := s.get F.THM_STATUS_ZONE_OFF
    let s1 :=
      if s.zoneIsOff z then
        if t ≤ s.zRestart then (s.put F.THM_STATUS_ZONE_OFF (m - 2 ^ z)).irq Irq.thermalZoneOff else s
      else if s.zOff ≤ t then
        (((s.put F.THM_STATUS_ZONE_OFF (m + 2 ^ z)).irq Irq.thermalZoneOff).inc F.THM_CNT_ZONE_OFFS).raise
          Code.THM_ZONE_OFF z
      else s
    s1.put (zfField z) (if s1.zoneIsOff z then 0 else zoneFactorT t s.knee)

/-- The raster runs as a slave (R268). -/
def State.slaveRaster (s : State) : Bool := s.ras.running && s.get F.RAS_ACT_MODE_MODE == RasMode.slave

/-- A slave that resynchronises holds until the master's next frame start: the blank of its old raster is no commit instant
(R376). -/
def State.resyncHold (s : State) : Bool := s.cvn.load.isSome && s.slaveRaster

/-- A SLAVE module: by its mode in force, or while its raster is stopped by the mode it will start in (DEDUCED, log 36). -/
def State.slaveModule (s : State) : Bool :=
  (if s.ras.running then s.get F.RAS_ACT_MODE_MODE else s.get F.RAS_NEXT_MODE_MODE) == RasMode.slave

/-- THR_REQ stands on a SLAVE module while its cause stands (R268). -/
def State.reqUpdate (s : State) : State :=
  if s.slaveModule && s.thm.cause then
    if s.flag F.THM_STATUS_THR_REQ then s
    else { s.put F.THM_STATUS_THR_REQ 1 with thm := { s.thm with reqTicks := some 0, reqReported := false } }
  else if s.flag F.THM_STATUS_THR_REQ then
    { s.put F.THM_STATUS_THR_REQ 0 with thm := { s.thm with reqTicks := none } }
  else s

/-- The throttle cause follows EN and the grace (R264). -/
def State.causeUpdate (s : State) : State :=
  let c := s.thrEn && s.thm.hotLong
  ({ s with thm := { s.thm with cause := c, blocked := s.thm.blocked && (c || s.thm.chainReq) } }).reqUpdate

/-- The throttle cause at a publication (R264), and the release condition (R267). -/
def State.throttleStep (s : State) : State :=
  match highest (s.readings 16 16 true) with
  | none => s
  | some t =>
    let hot := decide (s.thrLevel ≤ t)
    let cool := decide (t ≤ s.relLevel)
    let g0 := s.graceTicks == 0
    let s1 := { s with thm := { s.thm with
      hotTicks := if hot then some (s.thm.hotTicks.getD 0) else none
      hotLong := hot && (s.thm.hotLong || g0)
      coolTicks := if cool then some (s.thm.coolTicks.getD 0) else none
      coolLong := cool && (s.thm.coolLong || g0)
      relDue := cool && (s.thm.coolLong || g0) || !s.thrEn } }
    s1.causeUpdate

/-- The window for non-volatile writes (R271). -/
def State.nvmWindow (s : State) : State :=
  let l := sortInts (s.readings 16 16 true)
  let ok := l.length == 16 && decide (l.getD 14 0 ≤ 420) && decide (-100 ≤ l.getD 1 0)
  let was := s.flag F.THM_STATUS_NVM_OK
  let s1 := s.putB F.THM_STATUS_NVM_OK ok
  if was && !ok then s1.raise Code.THM_NVM_WINDOW 0 else s1

/-- THM_HOT, and the extremes of the recorder without broken sensors (R273, R465). -/
def State.hotUpdate (s : State) : State :=
  let s1 := match highest (s.readings 16 16 true) with
    | some t => s.put F.THM_HOT_TIER (ofSigned 12 t)
    | none => s
  let s2 := match highest (s1.readings 0 16 true) with
    | some t => s1.put F.THM_HOT_ZONE (ofSigned 12 t)
    | none => s1
  let s3 := match sortInts (s2.readings 16 16 false) with
    | [] => s2
    | t :: r => (s2.recExt 0 (r.foldl max t)).recExt 1 t
  match highest (s3.readings 0 16 false) with
  | some t => s3.recExt 2 t
  | none => s3

/-- The restart count of a shutdown (R270). -/
def State.restartStep (s : State) : State :=
  if s.flag F.THM_STATUS_SHUTDOWN then
    let n := (s.readings 16 16 true).countP fun t => decide (s.restartLevel < t)
    { s with thm := { s.thm with restartRun := if n ≤ 1 then min (s.thm.restartRun + 1) 16 else 0 } }
  else s

/-- Every sensor takes its conversion and publishes (R260). -/
def State.publishSensors (s : State) (counts : List Nat) : State :=
  forUpto 32 (fun i s => s.sensorStep counts i) s

/-- The rules evaluated from the new readings, in the order of R261. -/
def State.thermalRules (s : State) : State :=
  ((forUpto 16 (fun z s => s.zoneStep z) s.restartStep).throttleStep).nvmWindow.calDrift

/-- Two or more votes call for a shutdown (R269). -/
def State.shutdownDue (s : State) : Bool := decide (2 ≤ s.votes)

/-- The readings of a gate are published and the rules evaluated (R260, R261). -/
def State.publishAll (s : State) (counts : List Nat) : State :=
  let s1 := s.thmUse.publishSensors counts
  let s2 := ({ s1 with thm := { s1.thm with gate := none, gateLine := none } }).hotUpdate
  (s2.put F.THM_STATUS_VOTES s2.votes).thermalRules

/-- Throttling is forgotten at a shutdown (R268). -/
def State.throttleClear (s : State) : State :=
  let s1 := (s.put F.THM_STATUS_THROTTLED 0).put F.THM_STATUS_THR_PENDING 0
  { s1 with thm := { s1.thm with issued := none, base := none, again := false } }

/-! ### Throttling (R264-R268) -/

/-- THROTTLE_GRACE_EXPIRY: LEVEL or above for the whole grace makes the throttle cause stand (R264). -/
def execThrottleGraceExpiry (s : State) : Host.Outcome State Fault Refusal :=
  .next (if s.thmRuns && !s.thm.hotLong && (s.thm.hotTicks.any fun n => decide (s.graceTicks ≤ n)) then
    ({ s with thm := { s.thm with hotLong := true } }).causeUpdate else s)

/-- The throttled form of a timing (R265). -/
def throttled (t : Retime) : Retime := { t with vb := 512 + 2 * t.vb, start := false, byThm := true }

/-- The cause, a module's own or one of the chain, calls for a throttle RETIME (R264, R268). -/
def State.wantThrottle (s : State) : Bool :=
  (s.thm.cause || s.thm.chainReq) && !s.thm.blocked &&
  (!s.flag F.THM_STATUS_THROTTLED || s.thm.again)

/-- THM issues a RETIME: true = throttle (R265, R267). -/
def State.thmIssue (s : State) (thr : Bool) (t : Retime) : State :=
  let s1 := s.retime t
  if s.retimeOk t then
    let s2 := s1.put F.THM_STATUS_THR_PENDING 1
    { s2 with thm := { s2.thm with issued := some thr } }
  else s1.inc F.THM_CNT_REJECTS

/-- THROTTLE_RETIME_ISSUE: in the first RUNNING cycle of a FREE or FOLLOW raster (R265, R266). -/
def execThrottleRetimeIssue (s : State) : Host.Outcome State Fault Refusal :=
  .next (if s.coreRun && s.wantThrottle && s.rasRun == RasRun.running && !s.slaveRaster && s.thm.issued.isNone then
    let base := s.actTiming
    let t := throttled base
    let s1 := s.thmIssue true t
    if s.retimeOk t then
      { s1.put F.THM_STATUS_THR_FAIL 0 with thm := { s1.thm with base := some base, again := false } }
    else
      let s2 := ((s1.put F.THM_STATUS_THR_FAIL 1).put F.THM_STATUS_THROTTLED 0).raise Code.THM_THROTTLE_REJ 0
      { s2 with thm := { s2.thm with blocked := true, again := false, base := none } }
  else s)

/-- The release hold has run out (R267). -/
def State.releaseExpired (s : State) : Bool :=
  !s.thm.coolLong && (s.thm.coolTicks.any fun n => decide (s.graceTicks ≤ n))

/-- THROTTLE_RELEASE: a RETIME to the base timing (R267). -/
def execThrottleRelease (s : State) : Host.Outcome State Fault Refusal :=
  .next (match s.thm.base with
    | none => s
    | some b =>
      if s.coreRun && s.flag F.THM_STATUS_THROTTLED && !s.thm.again && s.thm.issued.isNone && !s.slaveRaster &&
          s.rasRun == RasRun.running && (s.thm.relDue || s.releaseExpired) then
        ({ s with thm := { s.thm with coolLong := s.thm.coolLong || s.releaseExpired, relDue := false } }).thmIssue
          false { b with start := false, byThm := true }
      else s)

/-- A RETIME has taken effect: what THM does (R265, R267, R268). -/
def State.thmRetimeDone (s : State) (t : Retime) : State :=
  if t.byThm then
    let s1 := s.put F.THM_STATUS_THR_PENDING 0
    match s.thm.issued with
    | some false =>
      { (s1.put F.THM_STATUS_THROTTLED 0).irq Irq.thermalThrottle with
        thm := { s1.thm with issued := none, base := none, relDue := false } }
    | _ =>
      { ((s1.put F.THM_STATUS_THROTTLED 1).irq Irq.thermalThrottle).raise Code.THM_THROTTLE 0 with
        thm := { s1.thm with issued := none } }
  else
    let s1 := { s with thm := { s.thm with blocked := false } }
    if s1.flag F.THM_STATUS_THROTTLED then
      if s1.thm.cause || s1.thm.chainReq then
        { s1 with thm := { s1.thm with base := some t, again := true } }
      else { s1.put F.THM_STATUS_THROTTLED 0 with thm := { s1.thm with base := none, again := false } }
    else s1

/-- The slave's raster is under a throttled timing, which a stopped one is not: its VB is that of R265 over the VB it had before; with no change since
its start, it is one that R265 can give (DEDUCED, log 36; R268). -/
def State.slaveThrottled (s : State) : Bool :=
  let v := s.get F.RAS_ACT_TIMING_VB
  s.slaveRaster && match s.thm.vbBefore with
    | some b => v == 512 + 2 * b
    | none => decide (560 ≤ v) && v % 2 == 0

/-- A slave's raster takes a new VB. -/
def State.vbNote (s : State) (vb : Nat) : State :=
  let v := s.get F.RAS_ACT_TIMING_VB
  if v = vb then s else { s with thm := { s.thm with vbBefore := some v } }

/-- SLAVE_THROTTLE_TIMEOUT: a request has stood for the grace, and the slave's raster, running or stopped, is not under a
throttled timing; in SAFE too, where THM goes on (R268, R425). -/
def execSlaveThrottleTimeout (s : State) : Host.Outcome State Fault Refusal :=
  .next (if s.thmRuns && s.flag F.THM_STATUS_THR_REQ && !s.thm.reqReported && !s.slaveThrottled &&
      (s.thm.reqTicks.any fun n => decide (s.graceTicks ≤ n)) then
    { s.raise Code.THM_THROTTLE_REJ 0 with thm := { s.thm with reqReported := true } } else s)

/-- What a safety tick does to the counts of THM (R264, R267, R268). -/
def State.thmTick (s : State) : State :=
  { s with thm := { s.thm with
      hotTicks := s.thm.hotTicks.map (· + 1), coolTicks := s.thm.coolTicks.map (· + 1),
      reqTicks := s.thm.reqTicks.map (· + 1) } }

/-- A line begins. -/
def State.thmLine (s : State) : State := { s with thm := { s.thm with gateServed := false } }

/-- The reset events of THM. -/
def State.thmReset (s : State) : State := { s with thm := {} }

/-- CORE powers up with its registers retained: every sensor starts afresh, none has a published reading, and no request
stands (R260, R261, R271, R432).  DESIGN CHOICE (log entry 93): NVM_OK is formed anew with the sensors, so that its 0 after
a wake is no fall that raises FLT_THM_NVM_WINDOW. -/
def State.thmWake (s : State) : State :=
  let s1 := ((s.resetRegs 0xA100 0x80).resetRegs 0xA030 0x20).put F.THM_BROKEN_BROKEN 0
  let s2 := (s1.put F.THM_STATUS_NVM_OK 0).put F.THM_STATUS_THR_REQ 0
  ({ s2 with thm := { base := s2.thm.base } }).thmUse

end Sys2Proof.Machine
end

