-- ==== Sys2Proof/Machine/CorePort.lean ====
section
/-!
DEFINITION. What a read and a write of a register of the CORE blocks do once the register port has let
them through: the data ports, the computed views, the commands, and the slots that the image leaves
out (R14, R95, R131, R222, R257).
-/

namespace Sys2Proof.Machine

/-- The register belongs to a layer slot, scaler, region or loop that the image leaves out: it reads 0
and a write is discarded (R95, R131, R222, R257). -/
def State.absent (s : State) (a : Nat) : Bool :=
  if 0x3100 ≤ a && a < 0x3280 then s.layerType ((a - 0x3100) / 32) == 0
  else if 0x4100 ≤ a && a < 0x4200 then s.get (F.SCL_SCn_GRANT_GRANT ((a - 0x4100) / 64)) == 0
  else if 0x8400 ≤ a && a < 0x8800 then decide (s.get F.HLT_SIG_CFG_N_REG ≤ (a - 0x8400) / 32)
  else if 0x9100 ≤ a && a < 0x9190 then !s.loopOn ((a - 0x9100) / 16)
  else false

/-- The rate limit of the selected code takes a new value (R474). -/
def State.limitWrite (s : State) (v : Word) : State :=
  { s with recd := { s.recd with
      limits := sparseSet limitDefault s.recd.limits (s.get F.REC_CODE_SEL_CODE) (wordGet v 7 0) } }

/-- A write of a CORE register that has been let through. -/
def State.coreWrite (s : State) (i : FaultInfo) (a : Nat) (v : Word) : State :=
  if s.absent a then s
  else if a = A.RAS_CTRL then (if wordGet v 0 0 = 1 then s.retime (s.nextTiming false) else s)
  else if a = A.LMC_CTRL then s.bgEnWrite v
  else if a = A.LMC_BANK_EN then s.bankEnWrite v
  else if a = A.LMC_SEAL then s.sealStart v i.init
  else if a = A.CMP_TT_DATA then s.ttDataWrite v
  else if a = A.SCL_COEF_DATA then s.coefDataWrite v
  else if a = A.MSK_SUBMIT then s.mskSubmit v i
  else if a = A.LUM_GAIN_RELOAD then s.gainReload v
  else if a = A.ARY_PC_DATA then s.pcDataWrite v
  else if a = A.HLT_DEFECT_SET then s.defectSet v
  else if a = A.HLT_DEFECT_LIMIT then s.defectLimitWrite v
  else if a = A.LPE_CTRL then s.lpeCtrlWrite v
  else if a = A.LPE_BANK_A then s.bankWrite 0 v
  else if a = A.LPE_BANK_B then s.bankWrite 1 v
  else if a = A.LPE_COEF_M then s.lpCoefWrite v
  else if 0x9100 ≤ a ∧ a < 0x9190 ∧ a % 16 = 12 then s.fbClear ((a - 0x9100) / 16) v
  else if a = A.REC_CODE_AUX then s.limitWrite v
  else s.regWrite a v

/-- PWM counter c of the west engine, as ARY_COUNT shows it (R207). -/
def State.aryCountView (s : State) : Word := BitVec.ofNat 32 (s.ary.west.c % 4096)

/-- REC_CODE_CNT of the selected code (R474). -/
def State.codeCntView (s : State) : Word :=
  BitVec.ofNat 32 (satTo 32 (sparseGet noCount s.recLive.counts (s.get F.REC_CODE_SEL_CODE)))

/-- REC_CODE_AUX of the selected code: the suppressed count and the rate limit (R474). -/
def State.codeAuxView (s : State) : Word :=
  let c := s.get F.REC_CODE_SEL_CODE
  wordPut (wordPut 0 31 16 (satTo 16 (sparseGet noCount s.recLive.supp c))) 7 0
    (sparseGet limitDefault s.recd.limits c)

/-- The directory entry that LMC_DIR_SEL names is read (R71). -/
def State.dirSelRead (s : State) (i : FaultInfo) : State :=
  if s.get F.LMC_DIR_SEL_TILE < tileCount then s.dirTouch (s.get F.LMC_DIR_SEL_TILE) i else s

/-- A read of a CORE register that has been let through: its value and its side effect. -/
def State.coreRead (s : State) (i : FaultInfo) (a : Nat) : Word × State :=
  if s.absent a then (0, s)
  else if a = A.LMC_DIR_CRC then let t := s.dirSelRead i; (t.dirCrcView, t)
  else if a = A.LMC_DIR_STATE then let t := s.dirSelRead i; (t.dirStateView, t)
  else if a = A.LMC_LAYER_SEALED then (s.sealedView, s)
  else if a = A.CMP_TT_DATA then s.ttDataRead
  else if a = A.SCL_COEF_DATA then s.coefDataRead
  else if a = A.ARY_STATUS then (s.aryStatusView, s)
  else if a = A.ARY_COUNT then (s.aryCountView, s)
  else if a = A.ARY_PC_DATA then s.pcDataRead
  else if a = A.HLT_DEFECT_STATE then (s.defectStateView, s)
  else if a = A.HLT_DLOG0 then s.dlog0Read
  else if a = A.HLT_DLOG1 then (s.dlog1View, s)
  else if a = A.LPE_COEF_M then s.lpCoefRead
  else if a = A.REC_STATUS then
    (wordPut (s.reg a) F.REC_STATUS_LOG_FILL.hi F.REC_STATUS_LOG_FILL.lo s.collect.log.length, s)
  else if a = A.REC_OPSEC then (BitVec.ofNat 32 (satTo 32 s.recLive.opSecs), s)
  else if a = A.REC_LITSEC then (BitVec.ofNat 32 (satTo 32 s.recLive.litSecs), s)
  else if a = A.REC_CODE_CNT then (s.codeCntView, s)
  else if a = A.REC_CODE_AUX then (s.codeAuxView, s)
  else (s.regView a, s.readClear a)

end Sys2Proof.Machine
end

