-- ==== Sys2Proof/Machine/Link.lean ====
section
/-!
DEFINITION. The two Gocel Link ports: training, low-power states, the exits from ACTIVE, the return and
replay buffers, messages and injections (spec/14_gocel_link.md).  `d` = true names port D.
-/

namespace Sys2Proof.Machine

namespace PortSt
def down : Nat := 0
def detect : Nat := 1
def commaLock : Nat := 2
def polarity : Nat := 3
def laneOrder : Nat := 4
def eqTrain : Nat := 5
def deskew : Nat := 6
def active : Nat := 7
end PortSt

/-- The field of port D that stands where the given field stands for U (R363). -/
def portField (d : Bool) (f : Field) : Field := if d then ⟨f.addr + 0x100, f.hi, f.lo⟩ else f

/-- A field of a port, named by its U register. -/
def State.pget (s : State) (d : Bool) (f : Field) : Nat := s.get (portField d f)

/-- A field of a port takes a value. -/
def State.pput (s : State) (d : Bool) (f : Field) (v : Nat) : State := s.put (portField d f) v

/-- A counter of a port counts `n`. -/
def State.pcount (s : State) (d : Bool) (f : Field) (n : Nat) : State := s.incBy (portField d f) n

def State.port? (s : State) (d : Bool) : Port := if d then s.lnk.d else s.lnk.u

def State.setPort (s : State) (d : Bool) (p : Port) : State :=
  if d then { s with lnk := { s.lnk with d := p } } else { s with lnk := { s.lnk with u := p } }

/-- STATE and LPS of a port. -/
def State.pst (s : State) (d : Bool) : Nat := s.pget d F.LNK_U_STATUS_STATE
def State.lps (s : State) (d : Bool) : Nat := s.pget d F.LNK_U_STATUS_LPS

/-- The port is ACTIVE in L0, with its supply there. -/
def State.portUp (s : State) (d : Bool) : Bool :=
  s.lnkOn && s.pst d == PortSt.active && s.lps d == 0

/-- Receive lanes of a port (R334). -/
def rxLanes (d : Bool) : Nat := if d then 1 else 4

/-- A fault of LNK with the port, sequence, status and cause that its ADDR holds (R362). -/
def State.lnkRaise (s : State) (n : Nat) (d : Bool) (seq st cause : Nat) : State :=
  let i := faultInfo n (b2n d * 2 ^ 30 + seq % 4096 * 2 ^ 16 + st % 256 * 2 ^ 8 + cause % 256)
  s.raiseI n { i with init := if d then 2 else 1 }

/-- STATE of a port changes (R334). -/
def State.portGoto (s : State) (d : Bool) (st : Nat) : State :=
  let s1 := if s.pst d = st then s else (s.pput d F.LNK_U_STATUS_STATE st).irq Irq.linkState
  s1.setPort d { s1.port? d with ticks := 0, run := 0, farRun := 0 }

/-- The low-power state of a port changes. -/
def State.setLps (s : State) (d : Bool) (l : Nat) : State :=
  if s.lps d = l then s else (s.pput d F.LNK_U_STATUS_LPS l).irq Irq.linkState

/-- The port goes to DOWN out of any state; what it has trained is lost. -/
def State.portDown (s : State) (d : Bool) : State :=
  let p := s.port? d
  ((s.setPort d { slow := p.slow, lastSeq := p.lastSeq }).setLps d 0).portGoto d PortSt.down

/-! ### Return lane and replay buffer -/

/-- Bytes a packet takes in a buffer: header, payload and CRC. -/
def TxPacket.bytes (p : TxPacket) : Nat := 4 * (p.payload.length + 3)

def bufferBytes (l : List TxPacket) : Nat := l.foldl (fun n p => n + p.bytes) 0

/-- The return buffer has room for a packet of `n` payload words (R353). -/
def State.retFits (s : State) (n : Nat) : Bool := bufferBytes s.lnk.ret + 4 * (n + 3) ≤ 8192

/-- An armed injection of one of the kinds is used up (R361). -/
def State.injTake (s : State) (k : Nat) : State :=
  if s.flag F.LNK_INJECT_PENDING && s.lnk.injKind == k then s.put F.LNK_INJECT_PENDING 0 else s

/-- An injection of kind `k` is armed. -/
def State.injArmed (s : State) (k : Nat) : Bool := s.flag F.LNK_INJECT_PENDING && s.lnk.injKind == k

/-- At an entry to DETECT the rate of the attempt is RATE, or 0 in an attempt that alternates (R338). -/
def State.takeRate (s : State) (d : Bool) : State :=
  s.pput d F.LNK_U_STATUS_RATE_ACT (if (s.port? d).slow then 0 else s.pget d F.LNK_U_CTRL_RATE)

/-- A port with something to send leaves L1, sending READY, or L2, out of which the next rate is taken (R338, R341, R342). -/
def State.wakePort (s : State) (d : Bool) : State :=
  if s.pst d != PortSt.active then s
  else if s.lps d = 1 then
    if (s.port? d).exiting then s
    else s.setPort d { s.port? d with exiting := true, ready := true, ticks := 0, run := 0, ask := 0 }
  else if s.lps d = 2 then
    ((s.takeRate d).setPort d { s.port? d with short := true, ask := 0 }).portGoto d PortSt.detect
  else s.setPort d { s.port? d with ask := 0, idleTicks := 0 }

/-- The CRC of the next packet sent is inverted: an armed injection of kind `k`, used up by the caller (R361). -/
def State.crcHit (s : State) (k : Nat) (l : List TxPacket) : List TxPacket :=
  match l with
  | [] => []
  | p :: t => { p with crcBad := s.injArmed k } :: t.map fun q => { q with crcBad := false }

/-- A return packet enters U's return buffer with the next return sequence number (R353). -/
def State.retPush (s : State) (type id : Nat) (payload : List Word) : State :=
  let q := s.get F.LNK_U_SEQ_TX_NEXT
  let s1 := s.put F.LNK_U_SEQ_TX_NEXT (q + 1)
  let t := if s1.lnk.ret.isEmpty then 0 else s1.lnk.retTicks
  let n := if s1.lnk.ret.isEmpty then 0 else s1.lnk.retResends
  let s2 : State := { s1 with lnk := { s1.lnk with
    ret := s1.lnk.ret ++ [{ type := type, id := id, seq := q, payload := payload, crcBad := s1.injArmed 4 }],
    retTicks := t, retResends := n } }
  (s2.injTake 4).wakePort false

/-- Return packets dropped are counted (R340, R353, R357). -/
def State.retDrop (s : State) (n : Nat) : State := s.pcount false F.LNK_U_CNT2_RET_DROP n

/-- The module's ID: its Caravan position, 0 until it is valid (R354, R355). -/
def State.ownId (s : State) : Nat := if s.flag F.CVN_STATUS_POS_VALID then s.get F.CVN_STATUS_POS else 0

/-- A message goes into the return buffer, or is dropped and counted (R357). -/
def State.message (s : State) (code : Nat) (ws : List Word) : State :=
  if !s.lnkOn then s
  else if s.pst false == PortSt.active && s.retFits (ws.length + 1) then
    s.retPush 8 s.ownId (BitVec.ofNat 32 code :: ws)
  else s.retDrop 1

/-- The FAULT message, when the first-error record fills (R357). -/
def State.faultMessage (s : State) : State :=
  if s.flag F.LNK_MSG_FAULT then s.message 2 [s.reg A.FLT_FIRST0, s.reg A.FLT_FIRST_ADDR] else s

/-! ### Exits from ACTIVE (R339, R340) -/

/-- What the exit of port U discards. -/
def State.clearU (s : State) : State :=
  let s1 := s.retDrop s.lnk.ret.length
  { s1 with lnk := { s1.lnk with
      rx := [], nakSent := false, naks := 0, arrivals := 0, ret := [], retTicks := 0, retResends := 0,
      hostTicks := 0 } }

/-- What the exit of port D discards. -/
def State.clearD (s : State) : State :=
  { s with lnk := { s.lnk with
      replay := [], repTicks := 0, repResends := 0, ackA := 4095, credit := 16, askAgain := false } }

/-- The port leaves ACTIVE for DOWN with a cause of R339, or gives up a training in progress; the attempt after one at
RATE = 0 runs at RATE again (R338). -/
def State.linkExit (s : State) (d : Bool) (cause : Nat) : State :=
  if s.pst d = PortSt.down then s
  else if s.pst d != PortSt.active && !(s.port? d).short then
    (s.setPort d { s.port? d with slow := false }).portDown d
  else
    let s1 := s.pcount d F.LNK_U_CNT2_RETRAIN 1
    let s2 := (s1.pput d F.LNK_U_LAST_VALID 1).pput d F.LNK_U_LAST_SEQ (s1.port? d).lastSeq
    let s3 := (if d then s2.clearD else s2.clearU)
    let s4 := if cause = 0 then s3
      else s3.lnkRaise (if d then Code.LNK_D_DOWN else Code.LNK_U_DOWN) d 0 0 cause
    (s4.portDown d).calLinkDown (!d)

/-- Both ports leave ACTIVE as requested, and LNK goes off (R339, R430). -/
def State.lnkOff (s : State) : State :=
  (((s.linkExit false 0).linkExit true 0).portDown false).portDown true |>.put F.PWR_DOM_LNK 0

/-- An image rate that differs from the rate in use makes the port train again (R338). -/
def State.setRate (s : State) (d : Bool) (r : Nat) : State :=
  let s1 := s.pput d F.LNK_U_CTRL_RATE r
  if s1.pst d != PortSt.down && s1.pget d F.LNK_U_STATUS_RATE_ACT != r then s1.linkExit d 0 else s1

/-! ### Training -/

/-- The taps of a transmitter lane (R336). -/
def State.setTaps (s : State) (d : Bool) (k pre post : Nat) (limit : Bool) : State :=
  (((s.pput d (F.LNK_U_FIRn_PRE k) pre).pput d (F.LNK_U_FIRn_POST k) post).pput d (F.LNK_U_FIRn_MAIN k)
    (48 - pre - post)).pput d (F.LNK_U_FIRn_AT_LIMIT k) (b2n limit)

/-- One tap after a command: its value, and whether the step met the limit. -/
def tapStep (v top cmd : Nat) : Nat × Bool :=
  if cmd = 1 then (if v < top then (v + 1, false) else (v, true))
  else if cmd = 2 then (if 0 < v then (v - 1, false) else (v, true))
  else (v, false)

/-- The result of the last request on transmitter lane `k`, for symbol 8 of its next sets (R333). -/
def State.setResult (s : State) (d : Bool) (k r : Nat) : State :=
  s.setPort d { s.port? d with results := (s.port? d).results.set k r }

/-- A transmitter lane applies a request laid out as a TRAIN lane word, and keeps its result (R336, R346). -/
def State.applyRequest (s : State) (d : Bool) (k : Nat) (w : Nat) : State :=
  if s.pget d F.LNK_U_CTRL_EQ_FIXED = 1 then s.setResult d k 2
  else if bitOf w 4 then (s.setTaps d k 0 4 false).setResult d k 0
  else
    let a := tapStep (s.pget d (F.LNK_U_FIRn_PRE k)) 8 (bitsOf w 1 0)
    let b := tapStep (s.pget d (F.LNK_U_FIRn_POST k)) 16 (bitsOf w 3 2)
    (s.setTaps d k a.1 b.1 (a.2 || b.2)).setResult d k (b2n (a.2 || b.2))

/-- The taps of every transmitter lane of a port return to the preset. -/
def State.presetTaps (s : State) (d : Bool) : State :=
  forUpto (if d then 4 else 1) (fun k s => s.setTaps d k 0 4 false) s

/-- A training begins: the rate of the attempt, the preset taps, no lane known (R334-R338). -/
def State.enterDetect (s : State) (d : Bool) : State :=
  let p := s.port? d
  let s2 := ((s.takeRate d).pput d F.LNK_U_STATUS_POL 0).pput d F.LNK_U_STATUS_REVERSED 0
  ((s2.presetTaps d).setPort d { slow := p.slow, lastSeq := p.lastSeq, eq := List.replicate (rxLanes d) 0, results := List.replicate (if d then 4 else 1) 0 }).portGoto
    d PortSt.detect

/-- LINK_DOWN_EXPIRY (R334, R362): ten ticks in DOWN with EN set lead to DETECT. -/
def execLinkDownExpiry (d : Bool) (s : State) : Host.Outcome State Fault Refusal :=
  .next (if s.lnkOn && !s.pwr.vddaLost && s.pst d == PortSt.down && 10 ≤ (s.port? d).ticks &&
      s.pget d F.LNK_U_CTRL_EN == 1 then s.enterDetect d else s)

/-- Signal on every receive lane: DETECT ends, or a port in L2 begins its exit (R334, R342). -/
def execSignalDetected (d : Bool) (s : State) : Host.Outcome State Fault Refusal :=
  .next (
    if !s.lnkOn || s.pwr.vddaLost then s
    else if s.pst d = PortSt.detect ∧ 10 ≤ (s.port? d).ticks then s.portGoto d PortSt.commaLock
    else if s.pst d = PortSt.active ∧ s.lps d = 2 then s.wakePort d
    else s)

/-- The port becomes ACTIVE; out of a training from DOWN both sequence spaces start at 0 (R340).  What its training sets say
of LANE_ORDER, of EQ_DONE and of the last request stays for the exits from L1 and L2 (R333). -/
def State.enterActive (s : State) (d : Bool) : State :=
  let p := s.port? d
  let s1 := (s.setPort d
    { lastSeq := p.lastSeq, locked := p.locked, eqDone := p.eqDone, results := p.results }).portGoto d PortSt.active
  let s2 := s1.setLps d 0
  if p.short then (if d then s2 else { s2 with lnk := { s2.lnk with hostTicks := 0 } })
  else
    let s3 := (s2.pput d F.LNK_U_SEQ_RX_NEXT 0).pput d F.LNK_U_SEQ_TX_NEXT 0
    (if d then s3.clearD else s3.clearU).calTrigger (!d)

/-- A run of sets: one more, or broken. -/
def runNext (ok : Bool) (n : Nat) : Nat := if ok then n + 1 else 0

/-- POL with the lanes that read D21.5 inverted (R335). -/
def polOf (lanes : List TsLane) : Nat :=
  (lanes.zipIdx).foldl (fun n l => if l.1.inverted then n + 2 ^ l.2 else n) 0

/-- The lane map: identity or full reversal (R335). -/
def laneMap (lanes : List TsLane) : Option Bool :=
  let l := lanes.map fun t => t.lane.toNat
  if l = [0, 1, 2, 3] then some false else if l = [3, 2, 1, 0] then some true else none

/-- Requests answered per lane after a TS1; 64 stands for DONE (R336). -/
def eqAfter (fixed : Bool) (eq : List Nat) (lanes : List TsLane) : List Nat :=
  List.zipWith (fun n (l : TsLane) =>
    if fixed || l.eyeOk then 64 else if l.answered then min (n + 1) 64 else n) eq lanes

/-- A wiring that R335 or R337 does not accept: FLT_LNK_WIRING with the state and the lane, and DOWN.  In the exit from L2
the losses are those of cause 5 (DEDUCED, log 79). -/
def State.wiringFault (s : State) (d : Bool) (lane : Nat) : State :=
  let s1 := s.lnkRaise Code.LNK_WIRING d 0 (s.pst d) lane
  s1.linkExit d 5

/-- The first physical lane whose number fits neither map with those before it (R335, R362; log 79). -/
def badLane (lanes : List TsLane) : Nat :=
  let l := lanes.map fun t => t.lane.toNat
  ((List.range 4).find? fun k => l.take (k + 1) != [0, 1, 2, 3].take (k + 1) &&
    l.take (k + 1) != [3, 2, 1, 0].take (k + 1)).getD 0

/-- In LANE_ORDER the lane map is taken, and LOCKED is awaited from the far end. -/
def State.laneOrder (s : State) (d : Bool) (lanes : List TsLane) : State :=
  match (if d then some false else laneMap lanes) with
  | none => s.wiringFault d (badLane lanes)
  | some rev =>
    let p := s.port? d
    let n := runNext (lanes.all fun l => l.locked) p.farRun
    let s1 := (s.pput d F.LNK_U_STATUS_REVERSED (b2n rev)).setPort d { p with locked := true, farRun := n }
    if 8 ≤ n then s1.portGoto d PortSt.eqTrain else s1

/-- In EQ_TRAIN requests run both ways until both ends are done; symbol 5 stands on logical lane 0 (R333, R336). -/
def State.eqTrain (s : State) (d : Bool) (lanes : List TsLane) : State :=
  let p := s.port? d
  let eq := eqAfter (s.pget d F.LNK_U_CTRL_EQ_FIXED == 1) p.eq lanes
  let n := runNext (lanes.all fun l => l.eqDone) p.farRun
  let own := eq.all fun k => k == 64
  let req := ((if s.pget d F.LNK_U_STATUS_REVERSED = 1 then lanes.getLastD {} else lanes.headD {}).request).toNat
  let s1 := if !d && req != 0 then s.applyRequest false 0 req else s
  let s2 := s1.setPort d { s1.port? d with eq := eq, eqDone := own, farRun := n }
  if own && 8 ≤ n then s2.portGoto d PortSt.deskew else s2

/-- Code errors reach a port: they are counted, and more than ERR_LIMIT of them in one window end
ACTIVE (R329, R339). -/
def State.codeErrors (s : State) (d : Bool) (n : Nat) : State :=
  let s1 := s.pcount d F.LNK_U_CNT1_CODE_ERR n
  if s1.pst d = PortSt.active then
    let t := (s1.port? d).codeErrors + n
    let s2 := s1.setPort d { s1.port? d with codeErrors := t, run := 0, farRun := 0 }
    let lim := s2.pget d F.LNK_U_ERR_ERR_LIMIT
    if lim != 0 && lim < t then s2.linkExit d 1 else s2
  else s1

/-- The injected code error of kind 3 hits logical lane LANE of port U in a training set (R361). -/
def State.injLanes (s : State) (d : Bool) (lanes : List TsLane) : State × List TsLane :=
  if !d && s.injArmed 3 then
    let k := if s.pget false F.LNK_U_STATUS_REVERSED = 1 then 3 - s.lnk.injLane else s.lnk.injLane
    (s.injTake 3, lanes.modify k fun l => { l with codeError := true })
  else (s, lanes)

/-- The code errors of a training set are counted, in ACTIVE against ERR_LIMIT too (R329, R339). -/
def State.setErrors (s : State) (d : Bool) (n : Nat) : State := if n = 0 then s else s.codeErrors d n

/-- The lanes of a training set that show a code error. -/
def laneErrors (lanes : List TsLane) : Nat := lanes.countP fun l => l.codeError

/-- A set of the other type ends the runs of consecutive sets that a training state counts (R334, R335, R337). -/
def State.runsBreak (s : State) (d : Bool) : State := s.setPort d { s.port? d with run := 0, farRun := 0 }

/-- A TS1 as it reads advances the training state, or shows that the far end trains again (R333-R339). -/
def State.ts1Read (s : State) (d : Bool) (lanes : List TsLane) : State :=
  let p := s.port? d
  let ok := laneErrors lanes == 0
  let st := s.pst d
  if st = PortSt.commaLock then
    if p.short && ok && (polOf lanes != s.pget d F.LNK_U_STATUS_POL ||
        (!d && laneMap lanes != some (s.pget d F.LNK_U_STATUS_REVERSED == 1))) then s.linkExit d 5
    else
      let s1 := s.setPort d { p with run := runNext ok p.run }
      if 8 ≤ runNext ok p.run then s1.portGoto d (if p.short then PortSt.deskew else PortSt.polarity) else s1
  else if !ok then s.setPort d { p with run := 0, farRun := 0 }
  else if st = PortSt.polarity then
    let same := polOf lanes == s.pget d F.LNK_U_STATUS_POL
    let n := runNext same p.run
    let s1 := (s.pput d F.LNK_U_STATUS_POL (polOf lanes)).setPort d { p with run := n }
    if 8 ≤ n then s1.portGoto d PortSt.laneOrder else s1
  else if st = PortSt.laneOrder then s.laneOrder d lanes
  else if st = PortSt.eqTrain then s.eqTrain d lanes
  else if st = PortSt.active ∧ s.lps d ≠ 2 then
    if 8 ≤ p.farRun + 1 then s.linkExit d 6 else s.setPort d { p with run := 0, farRun := p.farRun + 1 }
  else if st = PortSt.deskew then s.runsBreak d
  else s

/-- A TS1 arrives: an injection may hit it, and its code errors are counted (R339, R361). -/
def State.ts1 (s : State) (d : Bool) (lanes : List TsLane) : State :=
  let hit := s.injLanes d lanes
  (hit.1.setErrors d (laneErrors hit.2)).ts1Read d hit.2

/-- TS1_RECEIVED (R333-R336): a training set 1 arrives, one symbol of each receive lane. -/
def execTs1Received (d : Bool) (lanes : List TsLane) (s : State) : Host.Outcome State Fault Refusal :=
  .next (if s.lnkOn && lanes.length == rxLanes d then s.ts1 d lanes else s)

/-- A TS2 as it reads advances DESKEW, carries the exit from L1, or breaks a run of TS1 (R334, R337, R341). -/
def State.ts2Read (s : State) (d : Bool) (lanes : List TsLane) (skew : Nat) : State :=
  let p := s.port? d
  let ok := laneErrors lanes == 0
  let far := ok && lanes.all fun l => l.ready
  if s.pst d = PortSt.deskew then
    if 32 < skew then s.wiringFault d 0
    else
      let n := runNext ok p.run
      let m := runNext far p.farRun
      let own := p.ready || 8 ≤ n
      let s1 := s.setPort d { p with run := n, farRun := m, ready := own }
      if own && 8 ≤ m then s1.enterActive d else s1
  else if s.pst d = PortSt.active ∧ s.lps d = 1 then
    let s1 := s.wakePort d
    let n := runNext far (s1.port? d).run
    if 16 ≤ n then
      let s2 := (s1.setPort d { s1.port? d with exiting := false, ready := false, run := 0, ticks := 0, idleTicks := 0 }).setLps d 0
      if d then s2 else { s2 with lnk := { s2.lnk with hostTicks := 0 } }
    else s1.setPort d { s1.port? d with run := n, farRun := 0 }
  else if s.pst d = PortSt.active then s.setPort d { p with farRun := 0 }
  else if PortSt.commaLock ≤ s.pst d then s.runsBreak d
  else s

/-- A TS2 arrives: an injection may hit it, and its code errors are counted (R339, R361). -/
def State.ts2 (s : State) (d : Bool) (lanes : List TsLane) (skew : Nat) : State :=
  let hit := s.injLanes d lanes
  (hit.1.setErrors d (laneErrors hit.2)).ts2Read d hit.2 skew

/-- TS2_RECEIVED (R337, R341): a training set 2 arrives, in DESKEW or in the exit from a low-power state. -/
def execTs2Received (d : Bool) (lanes : List TsLane) (skew : Nat) (s : State) :
    Host.Outcome State Fault Refusal :=
  .next (if s.lnkOn && lanes.length == rxLanes d then s.ts2 d lanes skew else s)

/-! ### What a port sends in its training sets (R333, R336) -/

/-- Symbol 4. -/
def Port.flags (p : Port) : Nat := b2n p.locked + 2 * b2n p.eqDone + 4 * b2n p.ready + 8 * b2n p.short

/-- The request of the module's receiver for one of its lanes, laid out as a TRAIN lane word (R336, R346): DONE after the
lane's last request, else a step of the module's own search. -/
def eqWord (lane n : Nat) : Word :=
  if n = 64 then 0x20#32 else ((Config.eye lane n ++ 0#11 ++ Config.eqRequest lane n : BitVec 32))

/-- The physical lane of logical lane `k` of port U (R335). -/
def State.physLane (s : State) (k : Nat) : Nat := if s.pget false F.LNK_U_STATUS_REVERSED = 1 then 3 - k else k

/-- Requests that a receive lane has had answered; 64 = DONE, which EQ_FIXED = 1 gives every lane at once (R336). -/
def State.eqCount (s : State) (d : Bool) (k : Nat) : Nat :=
  if s.pget d F.LNK_U_CTRL_EQ_FIXED = 1 then 64 else (s.port? d).eq.getD k 0

/-- The payload of the TRAIN packet that port U sends in EQ_TRAIN (R336, R346). -/
def State.trainWords (s : State) : List Word :=
  (List.range 4).map fun k => eqWord k (s.eqCount false (s.physLane k))

/-- Symbols 2 to 8 of the set that a port sends on its transmitter lane `k`; `two` = a TS2 (R333). -/
def State.tsSymbols (s : State) (d two : Bool) (k : Nat) : List Byte :=
  let p := s.port? d
  let req := if d && !two && k == 0 && s.pst true == PortSt.eqTrain then (eqWord 0 (s.eqCount true 0)).toNat % 256 else 0
  [k, s.pget d F.LNK_U_STATUS_RATE_ACT, p.flags, req, s.pget d (F.LNK_U_FIRn_PRE k), s.pget d (F.LNK_U_FIRn_POST k),
    p.results.getD k 0].map (BitVec.ofNat 8)

/-- A training set as a port sends it on its transmitter lane `k`: control marks and symbols (R333). -/
def State.trainingSet (s : State) (d two : Bool) (k : Nat) : List (Bool × Byte) :=
  let fill : Byte := if two then 0x45 else 0x4A
  (true, 0xBC) :: (false, fill) :: ((s.tsSymbols d two k).map fun b => (false, b)) ++ List.replicate 7 (false, fill)

/-- The timeout of a training state, in ticks (R334); none for the others. -/
def trainLimit (st : Nat) : Option Nat :=
  if st = PortSt.commaLock then some 1000
  else if st = PortSt.polarity ∨ st = PortSt.laneOrder ∨ st = PortSt.deskew then some 100
  else if st = PortSt.eqTrain then some 2000
  else none

/-- A training state has run out of time (R338). -/
def State.trainTimeout (s : State) (d : Bool) : State :=
  let st := s.pst d
  let p := s.port? d
  let slow := st == PortSt.commaLock && !p.slow && s.pget d F.LNK_U_CTRL_RATE != 0
  ((s.lnkRaise Code.LNK_TRAIN d 0 st 0).setPort d { p with slow := slow }).portDown d

/-- TRAINING_TIMEOUT (R338): the time of the training state is over. -/
def execTrainingTimeout (d : Bool) (s : State) : Host.Outcome State Fault Refusal :=
  .next (match trainLimit (s.pst d) with
    | some n => if s.lnkOn && !(s.port? d).short && n ≤ (s.port? d).ticks then s.trainTimeout d else s
    | none => s)

/-- A packet on the lanes breaks a run of training sets (R339). -/
def State.notTs (s : State) (d : Bool) : State :=
  s.setPort d { s.port? d with run := 0, farRun := 0 }

/-- A TRAIN packet reaches port D: each forward transmitter lane applies its request, during EQ_TRAIN
only (R336, R345). -/
def execTrainPacket (w0 w1 w2 w3 : Word) (s : State) : Host.Outcome State Fault Refusal :=
  .next (if s.lnkOn && s.pst true == PortSt.eqTrain then
      (((s.applyRequest true 0 w0.toNat).applyRequest true 1 w1.toNat).applyRequest true 2 w2.toNat).applyRequest
        true 3 w3.toNat
    else if s.portUp true then s.notTs true
    else s)

/-! ### Unrequested exits -/

/-- SKP_TIMEOUT (R339): ten ticks without a SKP set in L0 are cause 2. -/
def execSkpTimeout (d : Bool) (s : State) : Host.Outcome State Fault Refusal :=
  .next (if s.portUp d && 10 ≤ (s.port? d).ticks then s.linkExit d 2 else s)

/-- CODE_ERROR_LIMIT (R339): code errors arrive; more than ERR_LIMIT of them in a window are cause 1. -/
def execCodeErrorLimit (d : Bool) (n : BitVec 16) (s : State) : Host.Outcome State Fault Refusal :=
  .next (if s.lnkOn then s.codeErrors d n.toNat else s)

/-- The injected code error of kind 3 acts on port U at a tick boundary, where nothing has arrived before it (R361). -/
def State.injColumn (s : State) : State :=
  if s.injArmed 3 && s.portUp false then (s.injTake 3).codeErrors false 1 else s

/-! ### Low-power states (R341, R342) -/

/-- An EIOS arrives: at U the request of the far end, granted or declined; at D the grant of its own
request. -/
def State.eios (s : State) (d l2 : Bool) : State :=
  if d then
    if (s.port? true).ask = (if l2 then 2 else 1) then
      ((s.setPort true { s.port? true with ask := 0, ticks := 0 }).setLps true (if l2 then 2 else 1)).calLinkDown false
    else s
  else if (s.pget false (if l2 then F.LNK_U_CTRL_L2_EN else F.LNK_U_CTRL_L1_EN) == 1) && s.lnk.rx.isEmpty &&
      s.lnk.ret.isEmpty then
    ((s.setPort false { s.port? false with ticks := 0 }).setLps false (if l2 then 2 else 1)).calLinkDown true
  else s

/-- EIOS_RECEIVED (R341, R342): at U a request for a low-power state, at D the grant of one. -/
def execEiosReceived (d l2 : Bool) (s : State) : Host.Outcome State Fault Refusal :=
  .next (if s.portUp d then s.eios d l2 else s)

/-- Port D asks for L1 (R341). -/
def execL1IdleExpiry (s : State) : Host.Outcome State Fault Refusal :=
  .next (if s.portUp true && s.pget true F.LNK_U_CTRL_L1_EN == 1 && s.lnk.replay.isEmpty &&
      10 ≤ (s.port? true).idleTicks then
      s.setPort true { s.port? true with ask := 1, idleTicks := 0 }
    else s)

/-- An exit from L1 that has not completed within 1 tick, or one from L2 within 120 µs, ends in DOWN
with cause 5 (R341, R342). -/
def execLowPowerExitTimeout (d : Bool) (s : State) : Host.Outcome State Fault Refusal :=
  let p := s.port? d
  .next (if s.lnkOn && ((s.pst d == PortSt.active && s.lps d == 1 && p.exiting && 1 ≤ p.ticks) ||
      (p.short && ((s.pst d == PortSt.detect && 12 ≤ p.ticks) ||
        (match trainLimit (s.pst d) with
         | some n => n ≤ p.ticks
         | none => false)))) then s.linkExit d 5 else s)

/-! ### Requested exits -/

/-- A write of LNK_x_CTRL: EN = 0 or RETRAIN = 1 sends the port to DOWN (R339, R363). -/
def State.lnkCtrlWrite (s : State) (d : Bool) (v : Word) : State :=
  let s1 := s.regWrite (if d then A.LNK_D_CTRL else A.LNK_U_CTRL) v
  if bitOf v.toNat 8 || !bitOf v.toNat 0 then s1.linkExit d 0 else s1

/-- RETRAIN (R339): a write of LNK_x_CTRL; RETRAIN set, or EN clear, takes an ACTIVE port down with cause 0. -/
def execRetrain (i : Initiator) (d : Bool) (v : Word) (s : State) : Host.Outcome State Fault Refusal :=
  .next (s.portWrite i (if d then A.LNK_D_CTRL else A.LNK_U_CTRL) fun s => s.lnkCtrlWrite d v)

/-- Loss of VDDA_LNK: both ports leave ACTIVE (R500), as for an absent far end. -/
def State.vddaLoss (s : State) : State :=
  let s1 := { s with pwr := { s.pwr with vddaLost := true } }
  (s1.linkExit false 2).linkExit true 2

/-- VDDA_LNK_LOSS (R500): both ports leave ACTIVE and neither trains until the supply is back. -/
def execVddaLnkLoss (s : State) : Host.Outcome State Fault Refusal :=
  .next (if s.pwr.vddaLost then s else s.vddaLoss)

/-! ### The host timeout and the return lane -/

/-- HOST_TIMEOUT (R358): the host has sent no accepted packet for the time set; reported once. -/
def execHostTimeout (s : State) : Host.Outcome State Fault Refusal :=
  let t := s.get F.LNK_HOST_TO_TIMEOUT
  .next (if s.portUp false && t != 0 && 100 * t ≤ s.lnk.hostTicks && !s.lnk.hostReported then
      let s1 := { s with lnk := { s.lnk with hostReported := true } }
      (s1.irq Irq.hostTimeout).lnkRaise Code.LNK_HOST_TIMEOUT false 0 0 0
    else s)

/-- Ticks of a timer whose value 0 is used as 1. -/
def State.retTo (s : State) : Nat := max (s.get F.LNK_U_ERR_RET_TO) 1
def State.replayTo (s : State) : Nat := max (s.get F.LNK_D_ERR_REPLAY_TO) 1

/-- The return lane is sent again from the oldest packet; the fourth resend without progress drops the
buffer (R353). -/
def State.retResend (s : State) : State :=
  let s0 := s.pcount false F.LNK_U_CNT2_RET_REPLAY 1
  let s1 := State.injTake { s0 with lnk := { s0.lnk with ret := s0.crcHit 4 s0.lnk.ret } } 4
  let n := s1.lnk.retResends + 1
  if 4 ≤ n then
    let q := (s1.lnk.ret.headD { type := 0, id := 0, seq := 0, payload := [] }).seq
    let s2 := (s1.lnkRaise Code.LNK_RETURN false q 0 0).retDrop s1.lnk.ret.length
    { s2 with lnk := { s2.lnk with ret := [], retTicks := 0, retResends := 0 } }
  else { s1 with lnk := { s1.lnk with retTicks := 0, retResends := n } }

/-- The IRQ message: the enabled events and a time-stamp (R357). -/
def State.irqMessage (s : State) : State :=
  ({ s with lnk := { s.lnk with irqEvent := false, irqTicks := 0, irqSent := true } }).message 1
    ((s.reg A.GLB_IRQ_STATUS &&& s.reg A.GLB_IRQ_ENABLE) :: s.stamp)

/-- The hold-off of HOLDOFF × 64 array-clock cycles can have run out since the last message: a tick holds
4,000 of them (R35). -/
def State.holdOffOver (s : State) : Bool :=
  !s.lnk.irqSent || decide (64 * s.get F.LNK_MSG_HOLDOFF < 4000 * (s.lnk.irqTicks + 1))

/-- LNK_MSG written with IRQ = 0: an event that waits in the hold-off is not told later (R357). -/
def State.msgOff (s : State) : State :=
  if s.flag F.LNK_MSG_IRQ then s else { s with lnk := { s.lnk with irqEvent := false } }

/-- IRQ_MESSAGE (R357): an enabled event is told to the host in a MSG packet, once the hold-off has run out. -/
def execIrqMessage (s : State) : Host.Outcome State Fault Refusal :=
  .next (if s.lnkOn && s.flag F.LNK_MSG_IRQ && s.lnk.irqEvent && s.holdOffOver then s.irqMessage else s)

/-! ### The tick -/

/-- One tick boundary of a port. -/
def State.portTick (s : State) (d : Bool) : State :=
  let p := s.port? d
  s.setPort d { p with
    ticks := p.ticks + 1,
    idleTicks := if s.portUp d && (d && s.lnk.replay.isEmpty) then p.idleTicks + 1 else 0,
    codeErrors := if s.get F.SAF_TICK_TICK % 1000 = 0 then 0 else p.codeErrors }

/-- The counters of LNK at a tick boundary. -/
def State.lnkTick (s : State) : State :=
  if !s.lnkOn then s
  else
    let s1 := ((s.portTick false).portTick true).injColumn
    let l := s1.lnk
    { s1 with lnk := { l with
        retTicks := if s1.portUp false && !l.ret.isEmpty then l.retTicks + 1 else 0,
        repTicks := if s1.portUp true && !l.replay.isEmpty then l.repTicks + 1 else 0,
        hostTicks := if s1.portUp false then l.hostTicks + 1 else 0,
        irqTicks := l.irqTicks + 1 } }

/-! ### Injection (R361) -/

/-- A write of LNK_INJECT: `ok` = the life cycle permits it.  One injection is armed, or the write is
refused. -/
def State.linkInject (s : State) (i : Initiator) (ok : Bool) (v : Word) : State :=
  let k := wordGet v 2 0
  let s0 := if v.getLsbD 31 then s.put F.LNK_INJECT_REFUSED 0 else s
  if k = 0 && !s0.flag F.LNK_INJECT_PENDING then s0
  else if !ok || 6 ≤ k || s0.flag F.LNK_INJECT_PENDING then s0.put F.LNK_INJECT_REFUSED 1
  else
    let s1 := s0.put F.LNK_INJECT_PENDING 1
    ({ s1 with lnk := { s1.lnk with injKind := k, injLane := wordGet v 5 4 } }).raiseI Code.COL_INJECT
      { init := initNo i, access := writeKind i, addr := 0 }

end Sys2Proof.Machine
end

