-- ==== Sys2Proof/Machine/Nvm.lean ====
section
/-!
DEFINITION. The non-volatile memory: its partition, the life-cycle records, the writer, and the NVM_WRITE
job (R400, R409-R413).
-/

namespace Sys2Proof.Machine

/-! ### Life-cycle records (R409) -/

def lcRecordAddr (k : Nat) : Nat := 0x08204000 + 0x100 * k

/-- The CRC-32 of word 0 stands in word 1. -/
def State.lcRecordOk (s : State) (k : Nat) : Bool :=
  crc32 (s.nvBytes (lcRecordAddr k) 4) == s.nvWord (lcRecordAddr k + 4)

def State.lcRecordGen (s : State) (k : Nat) : Nat := wordGet (s.nvWord (lcRecordAddr k)) 31 16

/-- The record in force. -/
def State.lcRecord (s : State) : Option Nat :=
  inForce (s.lcRecordOk 0) (s.lcRecordOk 1) (s.lcRecordGen 0) (s.lcRecordGen 1)

/-- The floor is read; with no valid record it is 0, which is reported (R400, R409). -/
def State.floorRead (s : State) : State :=
  match s.lcRecord with
  | some k => s.put F.CFG_FLOOR_FLOOR (wordGet (s.nvWord (lcRecordAddr k)) 15 0)
  | none => (s.put F.CFG_FLOOR_FLOOR 0).raise Code.CFG_NVM_RECORD 0

/-- The record that a floor write fills, and its GEN. -/
def State.floorTarget (s : State) : Nat × Nat :=
  match s.lcRecord with
  | some k => (1 - k, (s.lcRecordGen k + 1) % 65536)
  | none => (0, 1)

/-- Bytes of a 64-byte unit with `new` at offset `o`, the rest as stored. -/
def State.unitWith (s : State) (unit o : Nat) (new : List Byte) : List Byte :=
  let old := s.nvBytes unit 64
  old.take o ++ new ++ old.drop (o + new.length)

/-- The floor that will stand when every floor write that waits is done (R400, R410). -/
def State.floorComing (s : State) : Nat :=
  match (s.nvmw.tasks.filter fun t => t.owner == 0).getLast? with
  | some t => t.floor
  | none => s.get F.CFG_FLOOR_FLOOR

/-- A floor write joins the writers (R400, R409, R410). -/
def State.floorWrite (s : State) (floor : Nat) : State :=
  { s with nvmw := { s.nvmw with tasks := s.nvmw.tasks ++ [{ owner := 0, units := [], floor := floor }] } }

/-- The unit of a floor write, for the record that is not in force as its turn comes (R409). -/
def State.floorUnit (s : State) (floor : Nat) : Nat × List Byte :=
  let t := s.floorTarget
  let w := leBytes (BitVec.ofNat 32 (t.2 * 65536 + floor))
  let a := lcRecordAddr t.1
  (a, s.unitWith a 0 (w ++ leBytes (crc32 w)))

/-- The writer whose turn it is makes the unit of its floor write. -/
def State.floorNext (s : State) : State :=
  match s.nvmw.tasks with
  | [] => s
  | t :: ts => { s with nvmw := { s.nvmw with tasks := { t with units := [s.floorUnit t.floor] } :: ts } }

/-- The floor write whose turn it is has been written: its floor is in force, and those behind it go on waiting (R400,
R410). -/
def State.floorDone (s : State) : State :=
  match s.nvmw.tasks with
  | [] => s
  | t :: ts => { s.put F.CFG_FLOOR_FLOOR t.floor with nvmw := { s.nvmw with tasks := ts } }

/-! ### NVM_WRITE (R411, R412) -/

/-- The ranges [a, a + n) and [lo, hi) share a byte. -/
def overlaps (a n lo hi : Nat) : Bool := decide (0 < n) && decide (a < hi) && decide (lo < a + n)

/-- First byte address past the gain map. -/
def gainMapEnd : Nat := 0x08100000

/-- DST touches what a job may not write: the recorder, the defect map, the tables, records and reserved space,
the calibration copy in force, an oasis copy in force or its row table (R411). -/
def State.nvInUse (s : State) (a n : Nat) : Bool :=
  overlaps a n 0x08160000 0x081C0000 || overlaps a n 0x08202000 nvmEnd ||
  (match s.calSrc with
   | some k => overlaps a n (calCopyAddr k) (calCopyAddr k + 0x10000)
   | none => false) ||
  (List.range 4).any fun b =>
    match s.chooseCopy b with
    | some k => overlaps a n (oasisCopy b (b2n k)) (oasisCopy b (b2n k) + 0x10000) ||
        overlaps a n (oasisTable b (b2n k)) (oasisTable b (b2n k) + 0x400)
    | none => false

/-- The REASON for which an NVM_WRITE is refused, 0 = none (R411). -/
def State.nvRefusal (s : State) (src dst len : Nat) : Nat :=
  if dst % 64 != 0 || len % 64 != 0 then Reason.align
  else if nvmBase ≤ dst && dst < gainMapEnd && (dst % 2048 != 0 || len % 2048 != 0) then Reason.align
  else if len = 0 then 0
  else if !(layerBase ≤ src && src + len ≤ layerEnd && nvmBase ≤ dst && dst + len ≤ nvmEnd) then Reason.range
  else if s.nvInUse dst len then Reason.inUse
  else 0

/-- A result, and the reason of a failure: REASON is that of the last refusal or failure, so DONE and CANCELLED keep it
(R424). -/
def State.lastResult (s : State) (res why : Field) (result reason : Nat) : State :=
  if result = 2 then (s.put res result).put why reason else s.put res result

/-- RESULT and REASON of CFG_NVM_STATUS. -/
def State.nvResult (s : State) (result reason : Nat) : State :=
  s.lastResult F.CFG_NVM_STATUS_RESULT F.CFG_NVM_STATUS_REASON result reason

/-- The writer forgets the task of a job; a unit that has started goes on (R410). -/
def State.nvDrop (s : State) (owner : Nat) : State :=
  { s with nvmw := { s.nvmw with tasks := s.nvmw.tasks.filter fun t => t.owner != owner } }

/-- NVM_WRITE is done: its commit point is the last unit written. -/
def State.nvDone (s : State) : State :=
  (((s.nvDrop Job.nvmWrite).nvResult 1 0).jobCommitOf Job.nvmWrite).jobEndOf Job.nvmWrite Job.done

/-- START of an NVM_WRITE: false = refused through OWNER (R411). -/
def State.nvStart (s : State) : State × Bool :=
  let src := s.get F.CFG_NVM_SRC_VALUE
  let dst := s.get F.CFG_NVM_DST_VALUE
  let len := s.get F.CFG_NVM_LEN_VALUE
  let r := s.nvRefusal src dst len
  if r != 0 then (s.nvResult 2 r, false)
  else
    let s1 := { s with cfg := { s.cfg with nvSrc := src, nvDst := dst, nvLen := len, nvPos := 0 } }
    if len = 0 then (s1.nvDone, true)
    else ({ s1 with nvmw := { s1.nvmw with tasks := s1.nvmw.tasks ++ [{ owner := Job.nvmWrite, units := [] }] } }, true)

/-- The tiles of a source are read with the check of R77, each after a seal of it in progress (R75, R76); false: one of them is not SEALED or fails. -/
def State.readTiles (s : State) : List Nat → Bool × State
  | [] => (true, s)
  | t :: ts =>
    match ((s.afterSeal [t]).dirTouch t { init := 3, access := 3, addr := tileAddr t }).fetchTile t with
    | (some _, s1) => s1.readTiles ts
    | (none, s1) => (false, s1)

/-- Units of a gain row, through the journal (R412): the row, its number and check words in the journal; the row
in place; its CRC in the row table; the journal check word zeroed. -/
def State.gainUnits (s : State) (y : Nat) (row : List Byte) : List (Nat × List Byte) :=
  let crc := crc32 row
  let tail := leBytes (BitVec.ofNat 32 y) ++ leBytes crc
  let check := leBytes (crc32 (row ++ tail))
  let j := gainJournal + 0x800
  let t := gainTableAddr y
  let tu := t - t % 64
  let last := s.unitWith j 0 (tail ++ check)
  unitsFrom gainJournal 32 row ++ [(j, last)] ++ unitsFrom (gainMapAddr y) 32 row ++
    [(tu, s.unitWith tu (t % 64) (leBytes crc)), (j, last.take 8 ++ [0, 0, 0, 0] ++ last.drop 12)]

/-- The next part of an NVM_WRITE: a row of the gain map, or one unit. -/
def State.nvChunk (s : State) : Nat := if s.cfg.nvDst + s.cfg.nvPos < gainMapEnd then 2048 else 64

/-- An NVM_WRITE forms the units of its next part; a source that fails its check ends the job FAILED with SOURCE
(R411). -/
def State.nvNext (s : State) : State :=
  let n := s.nvChunk
  let src := s.cfg.nvSrc + s.cfg.nvPos
  let dst := s.cfg.nvDst + s.cfg.nvPos
  match s.readTiles (tilesOf src n) with
  | (false, s1) => ((s1.nvDrop Job.nvmWrite).nvResult 2 Reason.source).jobEndOf Job.nvmWrite Job.failed
  | (true, s1) =>
    let bytes := s1.lmBytes src n
    let units := if n = 64 then [(dst, bytes)] else s1.gainUnits ((dst - nvmBase) / 2048) bytes
    { s1 with cfg := { s1.cfg with nvPos := s1.cfg.nvPos + n },
              nvmw := { s1.nvmw with
                tasks := s1.nvmw.tasks.map fun t => if t.owner = Job.nvmWrite then { t with units := units } else t } }

/-! ### The writer (R410) -/

/-- The job that a task serves is suspended. -/
def State.taskHeld (s : State) (t : NvmTask) : Bool :=
  t.owner != 0 && (s.findJob t.owner).any fun n => s.jobState n == Job.suspended

/-- The writer waits for NVM_OK (R411), as CFG_NVM_STATUS.WAIT_TEMP shows it. -/
def State.nvWaits (s : State) : Bool :=
  !s.nvmw.tasks.isEmpty && s.nvmw.unit.isNone && !s.flag F.THM_STATUS_NVM_OK

/-- The first unit of the writer whose turn it is starts. -/
def State.unitBegin (s : State) : State :=
  match s.nvmw.tasks with
  | [] => s
  | t :: _ =>
    match t.units with
    | [] => s
    | u :: _ => { s.put F.CFG_NVM_STATUS_UNIT 1 with nvmw := { s.nvmw with unit := some u } }

/-- NVM_UNIT_START (R410). -/
def execNvmUnitStart (s : State) : Host.Outcome State Fault Refusal :=
  .next (match s.nvmw.tasks with
    | [] => s
    | t :: _ =>
      if s.coreRun && s.nvmw.unit.isNone && s.flag F.THM_STATUS_NVM_OK && !s.taskHeld t && t.owner != Job.lifecycle then
        if t.owner = Job.nvmWrite ∧ t.units = [] then
          let s1 := s.nvNext
          if (s1.findJob Job.nvmWrite).isSome then s1.unitBegin else s1
        else if t.owner = 0 ∧ t.units = [] then s.floorNext.unitBegin
        else s.unitBegin
      else s)

/-- The unit in progress is written, whole (R410). -/
def State.unitWrite (s : State) : State :=
  match s.nvmw.unit with
  | none => s
  | some u => { (s.nvWrite u.1 u.2).put F.CFG_NVM_STATUS_UNIT 0 with nvmw := { s.nvmw with unit := none } }

/-- The last unit of a task has been written. -/
def State.taskDone (s : State) (owner : Nat) : State :=
  if owner = 0 then s.floorDone
  else if owner = Job.nvmWrite then (if s.cfg.nvLen ≤ s.cfg.nvPos then s.nvDone else s)
  else if owner = Job.calRun then (s.nvDrop owner).calStored
  else if owner = Job.defectRebuild then (s.nvDrop owner).rebuildDone
  else s.nvDrop owner

/-- The unit written belongs to the row table, and its row is the last of the job (R412): the commit point. -/
def State.gainCommit (s : State) (owner a : Nat) : State :=
  if owner = Job.nvmWrite && decide (s.cfg.nvLen ≤ s.cfg.nvPos) && decide (0x08202000 ≤ a) && decide (a < 0x08202800)
  then s.jobCommitOf Job.nvmWrite else s

/-- A unit completes (R410).  The unit of a recorder copy's check word is left to the checkpoint's commit (R468). -/
def State.unitDone (s : State) : State :=
  match s.nvmw.unit with
  | none => s
  | some u =>
    match s.nvmw.tasks with
    | [] => s.unitWrite
    | t :: ts =>
      if t.units.head? != some u then s.unitWrite
      else if t.owner = Job.recCheckpoint ∧ t.units.length = 1 then
        { s with recd := { s.recd with cpLast := some u }, nvmw := { s.nvmw with tasks := ts } }
      else
        let s1 := { s with nvmw := { s.nvmw with tasks := { t with units := t.units.drop 1 } :: ts } }.unitWrite
        let s2 := s1.gainCommit t.owner u.1
        if t.units.length = 1 then s2.taskDone t.owner else s2

/-- NVM_UNIT_DONE (R410). -/
def execNvmUnitDone (s : State) : Host.Outcome State Fault Refusal := .next s.unitDone

/-- A write unit of the job of type `t` that has already started completes first, so that a stop of the job finds it past
its commit point if that unit reaches it (R219, R410, R440, R469).  DESIGN CHOICE: at the stop itself, see log 77. -/
def State.unitSettle (s : State) (t : Nat) : State :=
  if t = Job.recCheckpoint && s.recd.cpLast.isSome then s.cpUnit
  else if s.nvmw.unit.isSome && s.nvmw.tasks.head?.any fun k => k.owner == t then
    let s1 := s.unitDone
    if t = Job.recCheckpoint then s1.cpUnit else s1
  else s

/-- The unit in progress is that of a floor write. -/
def State.floorUnder (s : State) : Bool :=
  s.nvmw.unit.isSome && s.nvmw.tasks.head?.any fun t => t.owner == 0 && t.units.head? == s.nvmw.unit

/-- A reset or a loss of CORE finds a unit in progress: it has completed, a floor write with it; the writers that wait are
lost (R410). -/
def State.unitFinish (s : State) : State :=
  let s1 := s.unitWrite
  { if s.floorUnder then s1.floorDone else s1 with nvmw := {} }

/-! ### Boot (R412, R413) -/

/-- A journal with a valid check word is replayed from step 2 (R412). -/
def State.journalReplay (s : State) : State :=
  if s.journalOk then
    let y := wordGet (s.nvWord (gainJournal + 0x800)) 8 0
    let row := s.nvBytes gainJournal 2048
    let crc := s.nvWord (gainJournal + 0x804)
    ((s.nvWrite (gainMapAddr y) row).nvWrite (gainTableAddr y) (leBytes crc)).nvWrite (gainJournal + 0x808) [0, 0, 0, 0]
  else s

/-- The gain map is loaded, each row checked against its row table (R413). -/
def State.gainBoot (s : State) : State := forUpto 512 (fun y s => s.gainLoad Code.CFG_GAIN_ROW y) s

end Sys2Proof.Machine
end

