-- ==== Sys2Proof/Machine/Safety.lean ====
section
/-!
DEFINITION. The safety island: dark requests, discrepancy, the safety reset, relight, safe dim, the
envelope, oasis copies, straps, supplies and clocks (spec/12_safety.md, R32, R37, R38).
-/

namespace Sys2Proof.Machine

/-- The island runs: it is not in reset and its oscillator runs. -/
def State.safOn (s : State) : Bool := !s.saf.held && !s.saf.oscStopped

/-! ### Dark requests (R277-R279) -/

/-- Levels of the DARK pads as they reach the drivers; an active level begins a pad dark request or goes on with it, and
restarts the relight counter (R277, R278). -/
def State.darkPads (s : State) (a b : Bool) : State :=
  let s1 := { s with saf := { s.saf with darkA := a, darkB := b, padQuiet := false } }
  if s1.padActive && !s1.saf.held then
    let s2 := if s1.saf.padReq then s1
      else { s1.inc F.SAF_CNT_DARK_REQ with saf := { s1.saf with padReq := true } }
    s2.safRefresh
  else s1.netsTrack

/-- DARK_PAD_ACTIVE: levels at the pads, of which one or both are active (R277); in OFF both read as active (R494). -/
def execDarkPadActive (a b : Bool) (s : State) : Host.Outcome State Fault Refusal :=
  .next (if a || !b then s.darkPads (a || !s.aonOn) (b && s.aonOn) else s)

/-- The relight counter expires: the pad dark request ends or becomes DARK_HOLD, by SEAL2 (R278). -/
def State.relightExpire (s : State) : State :=
  let s1 := { s with saf := { s.saf with padReq := false, padQuiet := false } }
  (if bitOf (s1.get F.SAF_SEAL_VALUE) 2 then s1 else s1.put F.SAF_STATE_DARK_HOLD 1).safRefresh

/-- The relight counter of 1,000 island cycles runs: a tick has found both pads inactive, and no level has been active
since (R278; DESIGN CHOICE: its cycles within a tick are not counted, log 78). -/
def State.relightRuns (s : State) : Bool := s.saf.padReq && s.saf.padQuiet && !s.padActive

/-- DARK_RELIGHT_EXPIRY: both pads have stayed inactive for 1,000 island cycles (R278). -/
def execDarkRelightExpiry (s : State) : Host.Outcome State Fault Refusal :=
  .next (if s.safOn && s.relightRuns then s.relightExpire else s)

/-- The DARK pads at a tick: a second tick without an active level finds the relight counter expired (R278). -/
def State.darkTick (s : State) (a b : Bool) : State :=
  let s1 := if a != s.saf.darkA || b != s.saf.darkB then s.darkPads a b else s
  if s1.relightRuns then s1.relightExpire
  else { s1 with saf := { s1.saf with padQuiet := s1.saf.padReq && !s1.padActive } }

/-- N of R279, from the straps. -/
def State.discLimit (s : State) : Nat :=
  match s.get F.SAF_SEAL_VALUE % 4 with
  | 0 => 500
  | 1 => 2000
  | 2 => 5000
  | _ => 20000

/-- The disagreement count at a tick (R279). -/
def State.discTick (s : State) (a b : Bool) : State :=
  if a == !b then
    (s.put F.SAF_DISC_DISC 0).deassertF Code.SAF_DARK_DISC
  else
    let n := min (s.get F.SAF_DISC_DISC + 1) s.discLimit
    (s.put F.SAF_DISC_DISC n).put F.SAF_DISC_MAX (max (s.get F.SAF_DISC_MAX) n)

/-- DARK_DISCREPANCY: DISC has reached N (R279). -/
def execDarkDiscrepancy (s : State) : Host.Outcome State Fault Refusal :=
  .next (if s.safOn && s.get F.SAF_DISC_DISC == s.discLimit && !s.flag F.SAF_STATE_DISC_LATCH then
    (s.put F.SAF_STATE_DISC_LATCH 1).ownC4Level Code.SAF_DARK_DISC 0
  else s)

/-! ### SAF_CMD and the lock (R277, R295, R303) -/

/-- SAF_CMD as the island applies it: the software dark request and the firmware oasis request (R276, R277,
R295). -/
def State.safCmd (s : State) (v : Word) : State :=
  if s.saf.held then s
  else ((s.regWrite A.SAF_CMD v).putB F.SAF_STATE_REQ_FW (wordGet v 4 4 == 1)).safRefresh

/-- A write of a SAF configuration register: discarded once LOCK is 1 (R303). -/
def State.safConfig (s : State) (a : Nat) (v : Word) : State :=
  if s.saf.held then s
  else if s.flag F.SAF_LOCK_LOCK then s.put F.SAF_STATE_WR_LOCKED 1
  else (s.regWrite a v).safRefresh

/-- SAF_LOCK: a write of SAF_LOCK (R303). -/
def execSafLock (i : Initiator) (v : Word) (s : State) : Host.Outcome State Fault Refusal :=
  .next (s.portWrite i A.SAF_LOCK fun s => if s.saf.held then s else s.regWrite A.SAF_LOCK v)

/-! ### Dark nets (R280) -/

/-- DARK_NET_MISMATCH: the return of net A, or B, has differed from its driven level in 2 checked cycles, or agrees again
(R202, R280). -/
def execDarkNetMismatch (n : NetReturn) (s : State) : Host.Outcome State Fault Refusal :=
  .next (
    let s1 := ({ s with saf :=
      if n.netB then { s.saf with netBadB := n.bad } else { s.saf with netBadA := n.bad } }).netsTrack
    if !s1.safOn then s1
    else if s1.saf.netBadA || s1.saf.netBadB then s1.ownC4Level Code.SAF_DARKNET 0
    else s1.deassertF Code.SAF_DARKNET)

/-- The proof at a tick: in INIT net A is released, and after each step the net that is released has been so for a tick.
A request that holds the drivers delays it (R277, R280). -/
def State.proofTick (s : State) : State :=
  if s.safState != Isl.init || s.saf.proofDone || s.netsForced then s
  else if s.saf.proofNet = 0 then { s with saf := { s.saf with proofNet := 1, proofAged := false } }.netsTrack
  else { s with saf := { s.saf with proofAged := true } }

/-- A net is released, or with 0 none; both are asserted but for it. -/
def State.proofGo (s : State) (n : Nat) (done : Bool) : State :=
  { s with saf := { s.saf with proofNet := n, proofAged := false, proofDone := done } }.netsTrack

/-- DARK_NET_PROOF: the return of the net that is released has followed, and the net is asserted again, or has not.  Net A
is proved first, then net B; a proof that fails begins again (R280). -/
def execDarkNetProof (pass : Bool) (s : State) : Host.Outcome State Fault Refusal :=
  .next (if s.safOn && s.safState == Isl.init && s.saf.proofAged && !s.netsForced then
    if !pass then (s.proofGo 0 false).ownC4 Code.SAF_DARKNET 0
    else if s.saf.proofNet = 1 then s.proofGo 2 false
    else s.proofGo 0 true
  else s)

/-! ### Relight and INIT (R284, R287) -/

/-- A relight begins: LRM goes to light (R287, step 1). -/
def State.relightStart (s : State) : State :=
  (({ s.put F.SAF_STATE_RELIGHT_WAIT 1 with saf := { s.saf with relightTicks := 0 } }).driveLrm true)

/-- The role takes STANDBY when the island leaves INIT with SEAL4 = 1 (R389). -/
def State.tdmLeaveInit (s : State) : State :=
  if bitOf (s.get F.SAF_SEAL_VALUE) 4 && s.get F.CVN_TDM_STATUS_ROLE == 0 then
    let s1 := ((s.put F.CVN_TDM_STATUS_ROLE 2).put F.CVN_TDM_STATUS_HOLD 1).irq Irq.tandem
    { s1 with tdm := { s1.tdm with lossSince := false, seen := false, edges := 0 } }
  else s

/-- Every condition of R284 holds; the life-cycle state permits light, and no LK0640 entry holds removal (R415, R420). -/
def State.mayLeaveInit (s : State) : Bool :=
  s.flag F.SAF_SEAL_READ_DONE && s.get F.SAF_SEAL_OPEN == 0 && s.saf.proofDone &&
  s.flag F.CFG_STATUS_LOADED && s.flag F.SAF_SEAL_MATCH && s.saf.bootChecked && s.flag F.SAF_STATE_SRST_SEEN &&
  s.get F.CFG_LC_STATE != 4 && !s.flag F.CFG_STATUS_TEST &&
  s.saf.supplyRun == 0 && s.saf.arrayRun == 0 && s.saf.oscRun == 0 && s.saf.islandRun == 0

/-- LEAVE_INIT (R284). -/
def execLeaveInit (s : State) : Host.Outcome State Fault Refusal :=
  .next (if s.safOn && s.safState == Isl.init && s.mayLeaveInit then
    let s1 := s.tdmLeaveInit
    let s2 := if s1.flag F.SAF_STATE_REMOVE_LATCH then s1 else s1.relightStart
    (s2.safGoto Isl.removed).safRefresh
  else s)

/-- RELIGHT_FB_TIMEOUT: LRM_FB has not read closed within FB_TIME ticks (R287, step 2). -/
def execRelightFbTimeout (s : State) : Host.Outcome State Fault Refusal :=
  .next (if s.safOn && s.flag F.SAF_STATE_RELIGHT_WAIT && !s.flag F.SAF_STATE_LRM_FB &&
      timeUp s.saf.relightTicks (s.get F.SAF_LRM_FB_TIME) then s.ownC4 Code.SAF_LRM_FB 0
  else s)

/-- RELIGHT_COMPLETE: LRM_FB reads closed and the rail is in regulation (R287, step 3). -/
def execRelightComplete (s : State) : Host.Outcome State Fault Refusal :=
  .next (if s.safOn && s.flag F.SAF_STATE_RELIGHT_WAIT && s.flag F.SAF_STATE_LRM_FB && s.flag F.LPE_STATUS_IN_REG then
    (s.put F.SAF_STATE_RELIGHT_WAIT 0).safRefresh
  else s)

/-! ### The safety reset (R285, R286) -/

/-- A code has been raised and is not acknowledged, or is on its way to FLT, with class C3 or C4 (R286). -/
def State.highOnTheWay (s : State) : Bool :=
  s.flt.recs.any fun e =>
    3 ≤ e.2.base && (!e.2.pulses.isEmpty || ((e.2.level.isSome || e.2.inj.isSome) && !e.2.live))

/-- The island's own C4 causes that stand as conditions. -/
def ownC4Codes : List Nat :=
  [Code.SAF_DARK_DISC, Code.SAF_SEAL_OPEN, Code.SAF_SEAL_MISMATCH, Code.SAF_ENVELOPE, Code.SAF_LRM_FB,
    Code.SAF_DARKNET, Code.SAF_CLK_ARRAY, Code.SAF_CLK_ISLAND, Code.SAF_SUPPLY]

/-- Some live condition of the island's own C4 causes is present at this tick (R286): supply and clock windows, dark net
returns, LRM_FB agreeing with LRM, the envelope, the straps and their match. -/
def State.ownC4Live (s : State) : Bool :=
  (ownC4Codes.any fun c => s.stands c) || s.saf.supplyRun != 0 || s.saf.arrayRun != 0 || s.saf.islandRun != 0 ||
  s.saf.envRun != 0 || s.saf.netBadA || s.saf.netBadB || s.flag F.SAF_STATE_LRM_FB != s.saf.lrm ||
  s.get F.SAF_SEAL_OPEN != 0 || !s.flag F.SAF_SEAL_MATCH

/-- No cause of R286 remains; the LK0640 entry holds removal until a power-up or a release of RESET_N ends it (R420). -/
def State.srstClear (s : State) : Bool :=
  !s.padActive && !s.saf.padReq && s.get F.SAF_DISC_DISC == 0 && !s.ownC4Live && !s.unackedHigh &&
  !s.highOnTheWay && s.ras.running && !s.flag F.CFG_STATUS_TEST

/-- An accepted edge (R286). -/
def State.srstAccept (s : State) : State :=
  let was := s.flag F.SAF_STATE_REMOVE_LATCH
  let s1 := ((((s.put F.SAF_STATE_REMOVE_LATCH 0).put F.SAF_STATE_DIM_LATCH 0).put F.SAF_STATE_DISC_LATCH 0).put
    F.SAF_STATE_DARK_HOLD 0).put F.SAF_STATE_RAMP_DONE 0
  let s2 := ((s1.put F.SAF_ENV_CEIL 65535).put F.SAF_ENV_E 65535).put F.CVN_TDM_STATUS_CONFLICT_HELD 0
  let s3 := { s2 with
    saf := { s2.saf with dimEntered := false, dimDue := false, rampDue := false, rampN := 0 } }
  let s4 := s3.put F.SAF_SRST_RESULT 1
  if was && s4.safState != Isl.init then s4.relightStart.safRefresh else s4.safRefresh

/-- A filtered rising edge is judged (R285, R286). -/
def State.srstJudge (s : State) : State :=
  let w := s.saf.srstLow
  let s0 := { s with saf := { s.saf with srstRosePending := false } }
  let s1 := ((s0.put F.SAF_SRST_WIDTH (min w 0xFFFFF)).put F.SAF_STATE_SRST_STUCK 0).deassertF Code.SAF_SRST_STUCK
  if w < 5000 ∨ 200000 < w then (s1.put F.SAF_SRST_RESULT 2).inc F.SAF_CNT_SRST_WIDTH
  else if s1.srstClear then s1.srstAccept
  else ((s1.put F.SAF_SRST_RESULT 3).inc F.SAF_CNT_SRST_CAUSE).raise Code.SAF_SRST_REFUSED 0

/-- SRST_FALL: a filtered falling edge starts the measurement of the pulse (R285). -/
def execSrstFall (s : State) : Host.Outcome State Fault Refusal :=
  .next (if s.safOn && s.saf.srstFellPending then
    { s with saf := { s.saf with srstFellPending := false, srstLow := 0 } } else s)

/-- SRST_RISE: a filtered rising edge is accepted or refused (R286). -/
def execSrstRise (s : State) : Host.Outcome State Fault Refusal :=
  .next (if s.safOn && s.saf.srstRosePending then s.srstJudge else s)

/-- SRST_STUCK: tick 500,001 of a low level (R285). -/
def execSrstStuck (s : State) : Host.Outcome State Fault Refusal :=
  .next (if s.safOn && !s.saf.srstLevel && decide (500000 ≤ s.saf.srstLow) && !s.flag F.SAF_STATE_SRST_STUCK then
    (s.put F.SAF_STATE_SRST_STUCK 1).assertF Code.SAF_SRST_STUCK 0
  else s)

/-- An edge of SRST_N that has not been judged is judged by the tick it rose at (R286). -/
def State.srstLate (s : State) : State := if s.saf.srstRosePending then s.srstJudge else s

/-- SRST_N at a tick: the filter, and the width of a low level (R284, R285). -/
def State.srstTick (s : State) (level : Bool) : State :=
  let x := s.saf
  let high := if level then min (x.srstHigh + 1) 3 else 0
  let low := if x.srstFellPending then 0 else x.srstLow
  let lowTick := if x.srstLevel then low else min (low + 1) 0xFFFFF
  let run := if level == x.srstLevel then 0 else if level == x.srstCand then x.srstRun + 1 else 1
  let flips := run == 3
  let s1 := { s with saf := { x with
    srstHigh := high, srstCand := level, srstRun := if flips then 0 else run
    srstLevel := if flips then level else x.srstLevel
    srstFellPending := flips && !level, srstRosePending := flips && level
    srstLow := if flips && !level then 0 else lowTick } }
  if high = 3 then s1.put F.SAF_STATE_SRST_SEEN 1 else s1

/-! ### Safe dim and the envelope (R288-R290) -/

/-- The envelope at `n` ticks after the entry, by SAF_DIM and SAF_RAMP (R289). -/
def envelopeOf (dim ramp : Word) (n : Nat) : Nat :=
  let t := wordGet ramp 19 0
  let f := if wordGet dim 0 0 = 1 then 0 else wordGet dim 31 16
  if n < t then 65535 - (65535 - f) * n / t else f

/-- The envelope at `n` ticks after the entry, by the settings sampled there (R288, R289). -/
def State.envelopeAt (s : State) (n : Nat) : Nat := envelopeOf s.saf.dimCfg s.saf.rampCfg n

/-- The envelope of the present tick is set; at n = T the ramp is done (R289). -/
def State.rampSet (s : State) : State :=
  let e := s.envelopeAt s.saf.rampN
  let s1 := (s.put F.SAF_ENV_CEIL e).put F.SAF_ENV_E e
  let s2 := { s1 with saf := { s1.saf with rampDue := false } }
  if wordGet s.saf.rampCfg 19 0 ≤ s.saf.rampN then (s2.put F.SAF_STATE_RAMP_DONE 1).safRefresh else s2

/-- The dim entry: the settings are sampled and the ramp begins (R288). -/
def State.dimEnter (s : State) : State :=
  ({ s.put F.SAF_STATE_RAMP_DONE 0 with saf := { s.saf with
      dimEntered := true, dimDue := false, rampN := 0
      dimCfg := s.reg A.SAF_DIM, rampCfg := s.reg A.SAF_RAMP, monCfg := s.reg A.SAF_MON } }).rampSet.safRefresh

/-- DIM_ENTRY: the first tick after the dim latch has been set (R288). -/
def execDimEntry (s : State) : Host.Outcome State Fault Refusal :=
  .next (if s.safOn && s.saf.dimDue then s.dimEnter else s)

/-- RAMP_TICK (R289). -/
def execRampTick (s : State) : Host.Outcome State Fault Refusal :=
  .next (if s.safOn && s.saf.rampDue then s.rampSet else s)

/-- The dim ramp at a tick (R288, R289). -/
def State.dimTick (s : State) : State :=
  if !s.flag F.SAF_STATE_DIM_LATCH then s
  else
    let s0 := if s.saf.dimDue then s.dimEnter else s
    if s0.saf.dimEntered then
      { s0 with saf := { s0.saf with rampN := s0.saf.rampN + 1, rampDue := true } }
    else { s0 with saf := { s0.saf with dimDue := true } }

/-- Settings of the envelope monitor: IMON_FS, MARGIN and E; at the entry tick those that the entry samples
(R288, R290). -/
def State.monSettings (s : State) : Nat × Nat × Nat :=
  let dim := s.safState == Isl.dim
  let w := if dim && s.saf.dimEntered then s.saf.monCfg else s.reg A.SAF_MON
  (wordGet w 15 0, wordGet w 31 16,
    if !dim then 65535
    else if s.saf.dimEntered then s.envelopeAt s.saf.rampN
    else envelopeOf (s.reg A.SAF_DIM) (s.reg A.SAF_RAMP) 0)

/-- The array current at a tick, in mA; READ is sampled at every tick (R290, R465). -/
def State.imonTick (s : State) (mA : Nat) : State :=
  if s.safState = Isl.normal ∨ s.safState = Isl.oasis ∨ s.safState = Isl.dim then
    let m := s.monSettings
    let read := min 255 (mA / 40)
    let limit := min 255 ((m.1 * m.2.2 + m.2.1 * 65535) / (65535 * 40))
    let s1 := ((s.put F.SAF_IMON_READ read).put F.SAF_IMON_LIMIT limit).recExt 3 read
    let skip := s.safState == Isl.dim && s.saf.rampN < 2
    let run := if skip then 0 else if limit < read then min (s.saf.envRun + 1) 2 else 0
    let s2 := { s1 with saf := { s1.saf with envRun := run } }
    if run = 0 && !skip then s2.deassertF Code.SAF_ENVELOPE else s2
  else (({ s with saf := { s.saf with envRun := 0 } }).deassertF Code.SAF_ENVELOPE).recExt 3 (s.get F.SAF_IMON_READ)

/-- ENVELOPE_EXCEEDED (R290). -/
def execEnvelopeExceeded (s : State) : Host.Outcome State Fault Refusal :=
  .next (if s.safOn && s.saf.envRun == 2 && !s.stands Code.SAF_ENVELOPE then
    s.ownC4Level Code.SAF_ENVELOPE 0 else s)

/-! ### The rail switch (R292) -/

/-- LRM_FB at a tick: filtered over 3 equal samples (R292). -/
def State.fbTick (s : State) (level : Bool) : State :=
  let x := s.saf
  let now := s.flag F.SAF_STATE_LRM_FB
  let run := if level == now then 0 else if level == x.fbCand then x.fbRun + 1 else 1
  let flips := run == 3
  let s1 := if flips then s.putB F.SAF_STATE_LRM_FB level else s
  let agrees := s1.flag F.SAF_STATE_LRM_FB == x.lrm
  let s2 := { s1 with saf := { x with
    fbCand := level, fbRun := if flips then 0 else run
    lrmTicks := min (x.lrmTicks + 1) 256, lrmFollowed := x.lrmFollowed || agrees
    relightTicks := min (x.relightTicks + 1) 256 } }
  if agrees then s2.deassertF Code.SAF_LRM_FB else s2

/-- LRM_FB_MISMATCH: the filtered LRM_FB has not followed LRM within FB_TIME ticks, or has left it (R57, R292). -/
def execLrmFbMismatch (s : State) : Host.Outcome State Fault Refusal :=
  .next (if s.safOn && s.flag F.SAF_STATE_LRM_FB != s.saf.lrm && !s.stands Code.SAF_LRM_FB &&
      (s.saf.lrmFollowed || timeUp s.saf.lrmTicks (s.get F.SAF_LRM_FB_TIME)) then
    s.ownC4Level Code.SAF_LRM_FB 0
  else s)

/-! ### Oasis copies (R294) -/

/-- Copy `k` of beam `b` is valid: its table, and every row by its CRC. -/
def State.oasisCopyGood (s : State) (b k : Nat) : Bool :=
  s.oasisTableOk b k && (List.range 128).all fun v => s.oasisRowOk b k v

/-- The check of one copy in INIT. -/
def State.oasisBootCopy (s : State) (i : Nat) : State :=
  if s.oasisCopyGood (i / 2) (i % 2) then s.put F.SAF_OASIS_STATUS_VALID (s.get F.SAF_OASIS_STATUS_VALID + 2 ^ i)
  else s.raise Code.SAF_OASIS_COPY 0

/-- Copy B is the one in use for beam `b`: preferred among the copies found valid, or the only one (R293, R294). -/
def State.oasisUseB (s : State) (b : Nat) : Bool := s.chooseCopy b == some true

/-- A bit for each beam. -/
def beamMask (f : Nat → Bool) : Nat := (List.range 4).foldl (fun m b => m + (if f b then 2 ^ b else 0)) 0

/-- OASIS_BOOT_CHECK: every table and row of all eight copies; the preference goes by the tables, the copy in use by what
the check found (R293, R294). -/
def execOasisBootCheck (s : State) : Host.Outcome State Fault Refusal :=
  .next (if s.safOn && s.coreRun && s.safState == Isl.init && !s.saf.bootChecked then
    let s1 := (List.range 8).foldl State.oasisBootCopy (s.put F.SAF_OASIS_STATUS_VALID 0)
    { s1.put F.SAF_OASIS_STATUS_PREF_B (beamMask s1.oasisPreferB) with
      saf := { s1.saf with bootChecked := true, useB := BitVec.ofNat 4 (beamMask s1.oasisUseB) } }
  else s)

/-- OASIS_ROW_CHECK: stored row `v` of the beam that is shown, or that the source sample will take
(R181, R294). -/
def execOasisRowCheck (v : BitVec 7) (s : State) : Host.Outcome State Fault Refusal :=
  .next (let w := s.wantSource
    if s.safOn && s.coreRun && s.ras.running then
      if v = 0 then (if w.1 then (s.oasisRowCheck w.2 0).1 else s)
      else if s.flag F.LUM_STATE_SOURCE then (s.oasisRowCheck (s.get F.LUM_STATE_BEAM) v.toNat).1 else s
    else s)

/-! ### Straps (R296, R298) -/

/-- The image's expected strap value is compared with the straps (R298). -/
def State.strapCompare (s : State) : State :=
  if !s.saf.strapKnown then s
  else
    let ok := s.get F.SAF_SEAL_EXPECT == s.get F.SAF_SEAL_VALUE && s.get F.SAF_SEAL_OPEN == 0
    let s1 := s.putB F.SAF_SEAL_MATCH ok
    if ok then s1.deassertF Code.SAF_SEAL_MISMATCH
    else if s1.stands Code.SAF_SEAL_MISMATCH then s1 else s1.ownC4Level Code.SAF_SEAL_MISMATCH 0

/-- CFG passes the expected strap value of an image (R298).  DESIGN CHOICE (log entry 38): CFG holds the value for an
island that is in reset, which compares it with the straps that it reads after the reset. -/
def State.strapExpect (s : State) (v : Nat) : State :=
  if s.saf.held then { s with saf := { s.saf with strapKnown := true, expect := v } }
  else ({ s.put F.SAF_SEAL_EXPECT v with saf := { s.saf with strapKnown := true, expect := v } }).strapCompare

/-- SEAL_READ_START: a read that is wanted starts, once VDDIO is within its operating range (R296, R497). -/
def execSealReadStart (s : State) : Host.Outcome State Fault Refusal :=
  .next (if s.safOn && s.saf.sealWant && s.saf.vddioIn then
    { s.put F.SAF_SEAL_READ_DONE 0 with saf := { s.saf with sealWant := false, sealTick := some 0 } } else s)

/-- A strap read at a tick: samples at ticks 9 and 19 (R296). -/
def State.sealStep (s : State) (pads : Byte) : State :=
  match s.saf.sealTick with
  | none => s
  | some n =>
    { s with saf := { s.saf with
        sealTick := some (min (n + 1) 21), sealHi := if n = 9 then pads else s.saf.sealHi
        sealLo := if n = 19 then pads else s.saf.sealLo } }

/-- Straps in use with fallbacks applied (R296). -/
def strapValue (hi lo : Byte) : Nat :=
  let opens := hi ^^^ lo
  let v := (hi &&& lo) ||| (opens &&& 0x30#8)
  let v := if opens &&& 0x03#8 ≠ 0 then v &&& 0xFC#8 else v
  v.toNat

/-- The master is position 0 whenever EN = 1 (R372). -/
def State.masterPosition (s : State) : State :=
  if s.flag F.CVN_CFG_MASTER then
    (s.putB F.CVN_STATUS_POS_VALID (s.flag F.CVN_CTRL_EN)).put F.CVN_STATUS_POS 0
  else s

/-- The master owes an ENUM frame (R371). -/
def State.enumAsk (s : State) : State :=
  if s.flag F.CVN_CFG_MASTER && s.flag F.CVN_CTRL_EN then
    { s.put F.CVN_STATUS_ENUM_BUSY 1 with cvn := { s.cvn with enumOut := false } }
  else s

/-- CVN takes its straps (R297).  A module that has just become the master of a loaded image is position 0 and owes
an ENUM frame; one that is a master no longer has no position (R371, R372). -/
def State.cvnStraps (s : State) : State :=
  let v := s.get F.SAF_SEAL_VALUE
  let was := s.flag F.CVN_CFG_MASTER
  let s1 := ((s.putB F.CVN_CFG_MASTER (bitOf v 3)).putB F.CVN_TDM_CFG_EN (bitOf v 4)).putB F.CVN_TDM_CFG_INIT_SB (bitOf v 5)
  let s2 := if was && !bitOf v 3 then s1.put F.CVN_STATUS_POS_VALID 0 else s1.masterPosition
  if !was && bitOf v 3 && s2.flag F.CFG_STATUS_LOADED then s2.enumAsk else s2

/-- SEAL_LATCH: tick 20 (R296). -/
def execSealLatch (s : State) : Host.Outcome State Fault Refusal :=
  .next (if s.safOn && s.saf.sealTick == some 21 then
    let opens := (s.saf.sealHi ^^^ s.saf.sealLo).toNat
    let s1 := ((s.put F.SAF_SEAL_VALUE (strapValue s.saf.sealHi s.saf.sealLo)).put F.SAF_SEAL_OPEN opens).put
      F.SAF_SEAL_READ_DONE 1
    let s1a := ({ s1 with saf := { s1.saf with sealTick := none } }).cvnStraps
    let s2 := if s1a.safState = Isl.init then s1a else s1a.tdmLeaveInit.safRefresh
    let s3 := if opens = 0 then s2.deassertF Code.SAF_SEAL_OPEN
      else if s2.stands Code.SAF_SEAL_OPEN then s2 else s2.ownC4Level Code.SAF_SEAL_OPEN 0
    (if s3.saf.strapKnown then s3.put F.SAF_SEAL_EXPECT s3.saf.expect else s3).strapCompare
  else s)

/-! ### State outputs, supplies, clocks (R274, R299, R37, R38) -/

/-- A value in a window. -/
def withinRange (v lo hi : Nat) : Bool := decide (lo ≤ v) && decide (v ≤ hi)

/-- A run of ticks outside a window, at most 2. -/
def runOf (bad : Bool) (run : Nat) : Nat := if bad then min (run + 1) 2 else 0

/-- SAFE pads at a tick (R299). -/
def State.outTick (s : State) (a b : Bool) : State :=
  let bad := match s.safePads with
    | none => false
    | some p => p != (a, b)
  let s1 := { s.put F.SAF_STATE_SAFE (2 * b2n a + b2n b) with saf := { s.saf with outRun := runOf bad s.saf.outRun } }
  if bad then s1 else s1.deassertF Code.SAF_OUT

/-- SAFE_OUT_FAIL (R299). -/
def execSafeOutFail (s : State) : Host.Outcome State Fault Refusal :=
  .next (if s.safOn && s.saf.outRun == 2 then s.assertF Code.SAF_OUT 0 else s)

/-- Supplies of the island at a tick, in mV (R274). -/
def State.supplyTick (s : State) (vddh vreg : Nat) : State :=
  let bad := !(withinRange vddh 1620 1980 && withinRange vreg 700 800)
  let s1 := { s with saf := { s.saf with supplyRun := runOf bad s.saf.supplyRun } }
  if bad then s1 else s1.deassertF Code.SAF_SUPPLY

/-- ISLAND_SUPPLY_FAULT (R274). -/
def execIslandSupplyFault (s : State) : Host.Outcome State Fault Refusal :=
  .next (if s.safOn && s.saf.supplyRun == 2 && !s.stands Code.SAF_SUPPLY then s.ownC4Level Code.SAF_SUPPLY 0 else s)

/-- The clock-off grant ends: both checks resume from a count of 0 (R38). -/
def State.grantEnd (s : State) : State :=
  { s with saf := { s.saf with grant := false, grantWait := false, grantTicks := 0, arrayRun := 0, islandRun := 0 } }

/-- The grant waits for lock from now on (R38). -/
def State.grantLockWait (s : State) : State :=
  { s with saf := { s.saf with grant := true, grantWait := true, grantTicks := 0 } }

/-- The grant is given without a wait for lock (R38). -/
def State.grantGive (s : State) : State :=
  { s with saf := { s.saf with grant := true, grantWait := false, grantTicks := 0 } }

/-- The grant is over: PLL lock, or 50 ticks of waiting (R38). -/
def State.grantOver (s : State) : Bool :=
  s.saf.grant && s.saf.grantWait && (s.flag F.PWR_DOM_PLL || decide (50 ≤ s.saf.grantTicks))

/-- CLOCK_OFF_GRANT_END (R38). -/
def execClockOffGrantEnd (s : State) : Host.Outcome State Fault Refusal :=
  .next (if s.safOn && s.grantOver then s.grantEnd else s)

/-- Clock counts at a tick (R37, R38). -/
def State.clockTick (s : State) (array osc : Nat) : State :=
  let s0 := if s.grantOver then s.grantEnd else s
  let g := s0.saf.grant
  let badA := !g && !withinRange array 245 255
  let badO := !withinRange osc 245 255
  let badI := !g && ((decide (255 < array) && decide (255 < osc)) || (decide (array < 245) && decide (osc < 245)))
  let s1 := { s0 with saf := { s0.saf with
    grantTicks := if g && s0.saf.grantWait then min (s0.saf.grantTicks + 1) 50 else s0.saf.grantTicks
    arrayRun := runOf badA s0.saf.arrayRun, oscRun := runOf badO s0.saf.oscRun, islandRun := runOf badI s0.saf.islandRun } }
  let s2 := if badA then s1 else s1.deassertF Code.SAF_CLK_ARRAY
  let s3 := if badO then s2 else s2.deassertF Code.SAF_CLK_OSCIN
  if badI then s3 else s3.deassertF Code.SAF_CLK_ISLAND

/-- CLOCK_MONITOR_FAIL: the first monitored clock that has been outside its window at 2 ticks (R37). -/
def execClockMonitorFail (s : State) : Host.Outcome State Fault Refusal :=
  .next (if !s.safOn then s
    else if s.saf.islandRun == 2 && !s.stands Code.SAF_CLK_ISLAND then s.ownC4Level Code.SAF_CLK_ISLAND 0
    else if s.saf.arrayRun == 2 && !s.stands Code.SAF_CLK_ARRAY then s.ownC4Level Code.SAF_CLK_ARRAY 0
    else if s.saf.oscRun == 2 && !s.stands Code.SAF_CLK_OSCIN then s.assertF Code.SAF_CLK_OSCIN 0
    else s)

/-- ISLAND_OSC_STOP: the RC detector finds the island oscillator stopped, or running again (R37). -/
def execIslandOscStop (stopped : Bool) (s : State) : Host.Outcome State Fault Refusal :=
  .next (if s.saf.held then s
    else if stopped then
      (({ s with saf := { s.saf with oscStopped := true } }).ownC4 Code.SAF_CLK_ISLAND 0).netsTrack
    else ({ s with saf := { s.saf with oscStopped := false } }).netsTrack)

/-! ### The raster-stall watchdog (R32) -/

/-- A line-start pulse reaches the island. -/
def State.linePulse (s : State) : State := { s with saf := { s.saf with wdTicks := 0, wdStall := false } }

/-- The watchdog is armed at the first cycle of a start (R62). -/
def State.watchdogArm (s : State) : State :=
  { s with saf := { s.saf with wdArmed := true, wdTicks := 0, wdStall := false } }

/-- RASTER_STALL: no line-start pulse for 20 ticks (R32). -/
def execRasterStall (s : State) : Host.Outcome State Fault Refusal :=
  .next (if s.safOn && s.saf.wdArmed && decide (20 ≤ s.saf.wdTicks) && !s.saf.wdStall then
    ({ s with saf := { s.saf with wdStall := true } }).ownC4 Code.RAS_STALL 0
  else s)

/-! ### The island's reset (R274) -/

/-- No monitor of the island judges a condition while it is in reset: the pairs it drives fall, and each condition that
is found again after the reset is a new cause (R274, R283, R286). -/
def State.islandLevelsEnd (s : State) : State :=
  (forUpto 15 (fun i s => s.deassertF (Code.SAF_DARK_DISC + i)) s).deassertF Code.CVN_TDM_OUT

/-- ISLAND_RESET: VDDH below 1.50 V holds the island in reset: both dark nets asserted, LRM, SAFE and FAULT
high-impedance (R274, R500).  The role of the interlock becomes OFF, a change of role from any other, and a readback of
TDM_OUT that is wrong after it is a new one (R388, R389). -/
def execIslandReset (s : State) : Host.Outcome State Fault Refusal :=
  .next (if s.saf.held then s
    else
      let s1 := s.driveLrm false
      let s2 : State := { s1.islandLevelsEnd with saf := { s1.saf with held := true } }
      let s2a := if s2.get F.CVN_TDM_STATUS_ROLE = 0 then s2 else s2.irq Irq.tandem
      let s3 := (((s2a.put F.CVN_TDM_STATUS_ROLE 0).put F.CVN_TDM_STATUS_HOLD 0).put F.CVN_TDM_STATUS_TDARK 0).put
        F.CVN_TDM_STATUS_PRESENCE 0
      ({ s3 with tdm := { s3.tdm with edges := 0, seen := false, lossSince := false, outBad := false } }).netsTrack)

/-- ISLAND_RESET_END: the island starts in INIT with its registers at their reset values, and the straps are
read again; a return of the dark nets that still differs is a cause at once, and SAF_TICK, 0
again, begins a rate window (R274, R280, R296, R466, R488). -/
def execIslandResetEnd (s : State) : Host.Outcome State Fault Refusal :=
  .next (if !s.saf.held then s
    else
      let s1 := s.resetRegs A.SAF_STATE 0x1000
      let s2 := { s1 with saf := {
        strapKnown := s.saf.strapKnown, expect := s.saf.expect
        darkA := s.saf.darkA, darkB := s.saf.darkB, padReq := s.padActive, useB := 0
        grant := s.saf.grant, grantWait := s.saf.grantWait, grantTicks := s.saf.grantTicks
        wdArmed := s.saf.wdArmed, vddioIn := s.saf.vddioIn, netBadA := s.saf.netBadA, netBadB := s.saf.netBadB } }
      let s3 := if s.safState = Isl.init then s2 else s2.irq Irq.safetyState
      let s4 := ((s3.putB F.SAF_STATE_REQ_FLT s.c2Stands).putB F.SAF_STATE_REQ_CFG (s.flag F.SAF_STATE_REQ_CFG)).netsTrack
      let s5 := if s4.saf.netBadA || s4.saf.netBadB then s4.ownC4Level Code.SAF_DARKNET 0 else s4
      s5.recWindow)

/-- VDDIO in an operating range of R497, in mV. -/
def vddioOperating (mV : Nat) : Bool := withinRange mV 1710 1890 || withinRange mV 3135 3465

/-- What a safety tick does in the island (R57, R275); with VDDIO below 1.40 V both DARK cells present an active level
(R500), and in OFF both pads read as active (R494). -/
def State.safTick (s : State) (t : TickIn) : State :=
  let lost := decide (t.vddio < 1400) || !s.aonOn
  let a := t.darkA || lost
  let b := t.darkB && !lost
  let s0 := s.srstLate.wrapInc F.SAF_TICK_TICK
  let s1 := (({ s0 with saf := { s0.saf with vddioIn := vddioOperating t.vddio } }).darkTick a b).proofTick
  let s2 := ((((s1.sealStep t.seals).discTick a b).fbTick t.lrmFb).clockTick t.arrayCount t.oscCount)
  let s3 := ((s2.supplyTick t.vddh t.vreg).outTick t.safeA t.safeB).dimTick
  let s4 := (s3.imonTick t.current).srstTick t.srst
  if s4.saf.wdArmed then { s4 with saf := { s4.saf with wdTicks := min (s4.saf.wdTicks + 1) 20 } } else s4

end Sys2Proof.Machine
end

