-- ==== Sys2Proof/Machine/Apply.lean ====
section
/-!
DEFINITION. What the sections of a Rhafin image set, at boot and at the swap of a restructure (R398, R403,
R407, R408), and the effects of an image load (R298, R304, R338, R371, R400).
-/

namespace Sys2Proof.Machine

/-- A register image of a section: at boot RWS fields take it in both sets, at a swap in the shadow only
(R403, R407). -/
def State.imgReg (s : State) (boot : Bool) (a : Nat) (v : Word) : State :=
  let rws := accessMask .rws a
  let m := accessMask .rw a ||| (if boot then rws else 0)
  let s1 := s.setReg a ((s.reg a &&& ~~~ m) ||| (v &&& m))
  if rws = 0 then s1 else s1.setShReg a ((s1.shReg a &&& ~~~ rws) ||| (v &&& rws))

/-- Consecutive registers take the words of a section from word `i` on; where the section is absent they take their
reset value (R398). -/
def State.imgRegs (s : State) (boot : Bool) (m : Image) (t i : Nat) : List Nat → State
  | [] => s
  | a :: as => (s.imgReg boot a (m.word t i (regReset a))).imgRegs boot m t (i + 1) as

/-- Every register of a slot, scaler, region or loop returns to its reset value (R408). -/
def State.imgFresh (s : State) (fresh : Bool) (lo n : Nat) : State := if fresh then s.resetRegs lo n else s

/-- Section LAYERS: types, classes and hold modes (R94, R127, R408).  DESIGN CHOICE (log entry 100): the hold mode of an
ABSENT slot follows the class bit of its image word, though the slot has no class. -/
def State.applyLayers (s : State) (boot : Bool) (m : Image) : State :=
  let w := fun i => m.word 1 i 0
  let s1 := forUpto 12 (fun i s =>
    let t := wBits (w i) 1 0
    let changed := t != s.layerType i || b2n (bitOf (w i).toNat 2) != b2n (bitOf (s.get F.CMP_LAYER_CLASS_SYMBOL) i)
    s.imgFresh (t != 0 && changed) (0x3100 + 32 * i) 32) s
  let types := (List.range 12).foldl (fun n i => n + wBits (w i) 1 0 * 4 ^ i) 0
  let symbols := layerMask fun i => wBits (w i) 1 0 != 0 && bitOf (w i).toNat 2
  let modes := (List.range 12).foldl (fun n i => n + b2n (bitOf (w i).toNat 2) * 4 ^ i) 0
  ((s1.put F.CMP_LAYER_TYPE_TYPE types).put F.CMP_LAYER_CLASS_SYMBOL symbols).imgReg boot A.GLB_HOLD_MODE
    (BitVec.ofNat 32 modes)

/-- Section SCALERS: the grants (R131, R136, R408). -/
def State.applyScalers (s : State) (m : Image) : State :=
  forUpto 4 (fun n s =>
    let g := wBits (m.word 2 n 0) 7 0
    (s.imgFresh (g != 0 && g != s.get (F.SCL_SCn_GRANT_GRANT n)) (0x4100 + 64 * n) 64).put
      (F.SCL_SCn_GRANT_GRANT n) g) s

/-- Section MEMORY: the bank enables and locks; at boot the banks follow at the entry to IDLE. -/
def State.applyMemory (s : State) (boot : Bool) (m : Image) : State :=
  let v := m.word 3 0 (regReset A.LMC_BANK_EN)
  let s1 := if boot then s.put F.LMC_BANK_EN_EN (wBits v 15 0) else s.bankEnWrite v
  s1.imgRegs boot m 3 1 ((List.range 8).map A.LMC_LOCKn)

/-- Section SIGNATURES: the regions provided (R222, R408). -/
def State.applySignatures (s : State) (m : Image) : State :=
  let n := wBits (m.word 4 0 0) 5 0
  let old := s.get F.HLT_SIG_CFG_N_REG
  (forUpto 32 (fun r s => s.imgFresh (old ≤ r && r < n) (0x8400 + 32 * r) 32) s).put F.HLT_SIG_CFG_N_REG n

/-- Coefficients of a bank, from the words of section LOOPS (R238, R398). -/
def State.applyCoefs (s : State) (bank : Nat) (ws : List Word) : State :=
  forUpto 144 (fun k s => s.lpCoefStore (bank * 144 + k) (ws.getD (2 + 2 * k) 0)
    ((ws.getD (3 + 2 * k) 0).setWidth 6)) s

/-- Section LOOPS: the phases, a bank and its settings: bank A and active at boot, the inactive bank at a swap (R242,
R408). -/
def State.applyLoops (s : State) (boot : Bool) (m : Image) : State :=
  let s1 := s.put F.LPE_TOPO_N_PH (wBits (m.word 5 0 0) 2 0)
  let bank := if boot then 0 else 1 - s.actBank
  let s2 := match m.sect 5 with
    | none => s1
    | some ws =>
      let a := if bank = 0 then A.LPE_BANK_A else A.LPE_BANK_B
      (s1.applyCoefs bank ws).setReg a (((ws.getD 1 0) &&& accessMask .rw a) ||| 0x80000000#32)
  let s3 := if boot then s2.put F.LPE_STATUS_ACT_BANK 0 else s2
  let s4 := s3.imgRegs boot m 5 290
    [A.LPE_VSET, A.LPE_HEAD, A.LPE_PROT, A.LPE_START, A.LPE_REG, A.LPE_ILIM, A.LPE_FAN, A.LPE_TACH]
  let c := m.word 5 298 (regReset A.LPE_CTRL)
  s4.setReg A.LPE_CTRL ((s4.reg A.LPE_CTRL &&& ~~~ 0x16#32) ||| (c &&& 0x16#32))

/-- Section GPIO (R398). -/
def State.applyGpio (s : State) (m : Image) : State :=
  let w := m.word 9 0 0
  (s.put F.CFG_GPIO_FUNC (wBits w 7 0)).putB F.LPE_TOPO_FAN (wBits w 1 0 == 1)

/-- Loops that become present start with their registers at reset (R408). -/
def State.freshLoops (s before : State) : State :=
  forUpto 9 (fun n s => s.imgFresh (s.loopOn n && !before.loopOn n) (0x9100 + 16 * n) 16) s

/-- The base class of a code becomes the higher of its default class and the class of the image; a code that is
PENDING or ACKED rises with it, a newly reached class reacts at once, and a code that leaves C2 withdraws its oasis
request (R304, R313, R323); a mask bit goes where the
base class does not allow it (R320). -/
def State.applyClass (s : State) (n c : Nat) : State :=
  let r := s.frec n
  let base := max (defaultClass n) c
  let eff := if r.latched then max r.eff base else base
  let s1 := s.setFrec n { r with base := base, eff := eff }
  let s2 := if 2 ≤ base then
      s1.put ⟨F.FLT_MASKn_MASK (n / 32) |>.addr, n % 32, n % 32⟩ 0 else s1
  if r.latched && decide (r.eff < eff) then (s2.react eff).fltRequest else s2

/-- Section FAULTS (R304). -/
def State.applyFaults (s : State) (m : Image) : State :=
  let classes := match m.sect 7 with
    | some ws => ws.flatMap leBytes
    | none => []
  forUpto 256 (fun n s => if codeUsed n then s.applyClass n (classes.getD n 0).toNat else s)
    { s with flt := { s.flt with tableBad := [] } }

/-- Section CARAVAN: MASTER is ignored (R398). -/
def State.applyCaravan (s : State) (m : Image) : State :=
  let c := m.word 8 0 (regReset A.CVN_CFG)
  let s1 := (((s.put F.CVN_CFG_EP_TO (wBits c 31 24)).put F.CVN_CFG_RING (wBits c 17 17)).put F.CVN_CFG_HOP_W
    (wBits c 15 8)).put F.CVN_CFG_BIT (wBits c 7 0)
  (s1.put F.CVN_TDM_CFG_PARTNER (wBits (m.word 8 1 (regReset A.CVN_TDM_CFG)) 11 0)).put F.CVN_SH_CFG_DIM_MAP
    (wBits (m.word 8 2 0) 0 0)

/-- The configuration registers of the island (R303). -/
def safetyRegs : List Nat := [A.SAF_DIM, A.SAF_RAMP, A.SAF_OASIS, A.SAF_MON, A.SAF_LRM]

/-- Section SAFETY: no register changes once SAF_LOCK is set (R303). -/
def State.applySafety (s : State) (boot : Bool) (m : Image) : State :=
  if s.saf.held || s.flag F.SAF_LOCK_LOCK then s else (s.imgRegs boot m 10 0 safetyRegs).safRefresh

/-- Section LINK: the rates (R338). -/
def State.applyLink (s : State) (m : Image) : State :=
  let w := m.word 11 0 0
  (s.setRate false (wBits w 1 0)).setRate true (wBits w 3 2)

/-- Section REGISTERS: written in order through the register port with initiator 13; at boot in shadow and active
(R398). -/
def State.applyWrites (s : State) (boot : Bool) : List (Nat × Word) → State
  | [] => s
  | (a, v) :: t =>
    let s1 := s.coreWrite { init := 13, access := 2, addr := a } a v
    let rws := accessMask .rws a
    let s2 := if boot && rws != 0 && !s.absent a then
        s1.setReg a ((s1.reg a &&& ~~~ rws) ||| (s1.shReg a &&& rws)) else s1
    s2.applyWrites boot t

/-- IMAGE_APPLY: every section but REGISTERS, in one cycle; then REGISTERS (R398, R407); the scalers show their taps in use
(R141).  At boot the DAC value is in
force at once, with no commit that could report it (R198, R403). -/
def State.applySections (s : State) (boot : Bool) (m : Image) : State :=
  let s1 := ((((s.applyLayers boot m).applyScalers m).applyMemory boot m).applySignatures m).applyLoops boot m
  let s2 := (s1.applyGpio m).freshLoops s
  let s3 := s2.imgRegs boot m 6 0 [A.THM_DERATE, A.THM_ZONE, A.THM_THROTTLE, A.THM_GRACE, A.THM_SHUTDOWN]
  let s4 := ((((s3.applyFaults m).applyCaravan m).applySafety boot m).applyLink m)
  let s5 := (s4.applyWrites boot (pairsOf ((m.sect 12).getD []))).sigInvalid
  if boot then s5.scalerTaps.dacInForce else s5.scalerTaps

/-- The effects of an image load: the loaded image is shown, the expected strap value goes to the island, the boost
credit is full, the ENUM frame is requested, and the floor rises in FIELD (R179, R298, R371, R400, R407). -/
def State.imageLoaded (s : State) (m : Image) (src : Nat) : State :=
  let s1 := ((s.put F.CFG_STATUS_LOADED 1).put F.CFG_STATUS_SOURCE src).put F.CFG_STATUS_GEN m.gen
  let s2 := if m.lockSaf && !s1.saf.held then s1.put F.SAF_LOCK_LOCK 1 else s1
  let s3 := ((s2.strapExpect m.seal).creditFull).enumAsk
  if m.raiseFloor && s3.get F.CFG_LC_STATE == 2 && s3.floorComing != m.gen then s3.floorWrite m.gen else s3

end Sys2Proof.Machine
end

