-- ==== Sys2Proof/Machine/Lifecycle.lean ====
section
/-!
DEFINITION. Keys, secrets, the challenge and the life cycle (R401, R414-R417).
-/

namespace Sys2Proof.Machine

namespace Lc
def blank : Nat := 0
def factory : Nat := 1
def field : Nat := 2
def return_ : Nat := 3
def end_ : Nat := 4
end Lc

/-! The codes of CFG_LC.REASON (R424). -/
namespace LcReason
def path : Nat := 1
def keys : Nat := 2
def image : Nat := 3
def cleared : Nat := 4
def token : Nat := 5
def lockout : Nat := 6
end LcReason

/-- The life-cycle state that governs R415. -/
def State.lc (s : State) : Nat := s.get F.CFG_LC_STATE

/-- The keys read as zero in BLANK, and once the kill fuse is blown (R401, R416). -/
def State.keysZero (s : State) : Bool := s.cfg.kill || s.lc == Lc.blank

def zeroKey : List Byte := List.replicate 16 0

/-- K_AUTH and K_ENC as the AES engine reads them (R401). -/
def State.kAuth (s : State) : List Byte := if s.keysZero then zeroKey else s.cfg.keyAuth
def State.kEnc (s : State) : List Byte := if s.keysZero then zeroKey else s.cfg.keyEnc

/-- A key check value: the first 2 bytes of the CMAC of 16 zero bytes (R424). -/
def keyCheck (k : List Byte) : Nat := leNat ((cmac k (List.replicate 16 0)).take 2)

/-- KEYS, CLEARED and the key check values follow the fuses (R416). -/
def State.showKeys (s : State) : State :=
  (((s.putB F.CFG_STATUS_KEYS (!s.cfg.kill && s.lc != Lc.blank && s.lc != Lc.end_)).putB F.CFG_STATUS_CLEARED
    s.cfg.kill).put F.CFG_KCV_AUTH (keyCheck s.kAuth)).put F.CFG_KCV_ENC (keyCheck s.kEnc)

/-- The staged image is discarded (R405). -/
def State.dropStaged (s : State) : State :=
  { s.put F.CFG_STATUS_STAGED 0 with cfg := { s.cfg with staged := none, stagedSrc := 0 } }

/-- The secrets are cleared: the kill fuse is blown, the key cells read zero, the staging RAM is zeroed (R416). -/
def State.clearSecrets (s : State) : State :=
  ({ s with cfg := { s.cfg with kill := true } }).dropStaged.showKeys

/-- CFG_CHAL0 shows the unit's ID; CFG_CHAL1 takes a new random value (R417). -/
def State.newChallenge (s : State) : State :=
  { (s.put F.CFG_CHAL0_CHAL Config.unitId.toNat).put F.CFG_CHAL1_CHAL (Config.challenge s.cfg.draws).toNat with
    cfg := { s.cfg with draws := s.cfg.draws + 1 } }

/-- The reset events of CFG: the registers, with the fuses and a new challenge shown (R414, R417, R488). -/
def State.cfgReset (s : State) : State :=
  let s1 := s.resetRegs 0xF000 0x1000
  let c := s1.cfg
  let kept : Cfg := {
    fuses := c.fuses, kill := c.kill, keyAuth := c.keyAuth, keyEnc := c.keyEnc, draws := c.draws,
    freezeOff := c.freezeOff, freezePad := c.freezePad, scanOn := c.scanOn, tap := c.tap, ir := c.ir, bits := c.bits, trst := c.trst, jtagCode := c.jtagCode, jtagData := c.jtagData }
  (({ s1 with cfg := kept }).put F.CFG_LC_STATE c.fuses).newChallenge

/-! ### CFG_KEY (R415, R417) -/

/-- A write of CFG_KEYn: stored in BLANK, discarded otherwise. -/
def State.keyWrite (s : State) (n : Nat) (v : Word) : State :=
  if s.lc = Lc.blank then
    { s with cfg := { s.cfg with keyIn := (n, v) :: s.cfg.keyIn.filter fun e => e.1 != n } } else s

/-- KEY_WRITE (R415): a key word is stored in BLANK and discarded otherwise. -/
def execKeyWrite (i : Initiator) (n : BitVec 3) (v : Word) (s : State) : Host.Outcome State Fault Refusal :=
  .next (s.portWrite i (A.CFG_KEYn n.toNat) fun s => s.keyWrite n.toNat v)

/-- All eight words have been written since reset. -/
def State.keysIn (s : State) : Bool := (List.range 8).all fun n => s.cfg.keyIn.any fun e => e.1 == n

/-- The bytes of four key words from word `n` on, least significant word first (R424). -/
def State.keyBytes (s : State) (n : Nat) : List Byte :=
  (List.range 4).flatMap fun k =>
    match s.cfg.keyIn.find? fun e => e.1 == n + k with
    | some e => leBytes e.2
    | none => [0, 0, 0, 0]

/-! ### LIFECYCLE (R417) -/

/-- The token that the target takes: 8 bytes of the CMAC under K_AUTH over the challenge and the target. -/
def State.tokenBytes (s : State) (target : Nat) : List Byte :=
  (cmac s.kAuth (leBytes (s.reg A.CFG_CHAL0) ++ leBytes (s.reg A.CFG_CHAL1) ++ leBytes (BitVec.ofNat 32 target) ++
    [0, 0, 0, 0])).take 8

/-- CFG_TOKEN0 and CFG_TOKEN1 hold that token. -/
def State.tokenOk (s : State) (target : Nat) : Bool :=
  s.tokenBytes target == leBytes (s.reg A.CFG_TOKEN0) ++ leBytes (s.reg A.CFG_TOKEN1)

/-- The REASON for which a LIFECYCLE is refused, 0 = none (R417). -/
def State.lcRefusal (s : State) (target : Nat) : Nat :=
  let c := s.lc
  if s.get F.CFG_LC_TRIES = 3 then LcReason.lockout
  else if c = Lc.blank ∧ target = Lc.factory then (if s.keysIn then 0 else LcReason.keys)
  else if c = Lc.factory ∧ target = Lc.field then
    if s.cfg.kill then LcReason.cleared
    else
      let src := s.get F.CFG_STATUS_SOURCE
      if s.flag F.CFG_STATUS_LOADED ∧ (src = 1 ∨ src = 2) ∧ s.cfg.keyed then 0 else LcReason.image
  else if c = Lc.field ∧ (target = Lc.return_ ∨ target = Lc.end_) then
    (if s.tokenOk target then 0 else LcReason.token)
  else if target = Lc.end_ ∧ (c = Lc.blank ∨ c = Lc.factory ∨ c = Lc.return_) then 0
  else LcReason.path

/-- START of a LIFECYCLE: false = refused through OWNER (R417).  A wrong token counts; the challenge is drawn
again at every START. -/
def State.lcStart (s : State) : State × Bool :=
  let target := s.get F.CFG_LC_TARGET
  let r := s.lcRefusal target
  let s1 := s.newChallenge
  if r = 0 then
    ({ s1.put F.CFG_LC_REASON 0 with
        cfg := { s1.cfg with lcTarget := target },
        nvmw := { s1.nvmw with tasks := s1.nvmw.tasks ++ [{ owner := Job.lifecycle, units := [] }] } }, true)
  else
    let s2 := if r = LcReason.token then s1.put F.CFG_LC_TRIES (min (s1.get F.CFG_LC_TRIES + 1) 3) else s1
    (s2.put F.CFG_LC_REASON r, false)

/-- The last fuse is blown: the commit point; the new state governs, and END clears the secrets (R416, R417). -/
def State.lcCommit (s : State) : State :=
  let s1 := (s.put F.CFG_LC_STATE s.cfg.lcTarget).nvDrop Job.lifecycle
  let s2 := if s.cfg.lcTarget = Lc.end_ then s1.clearSecrets.raise Code.CFG_END 0 else s1.showKeys
  (s2.jobCommitOf Job.lifecycle).jobEndOf Job.lifecycle Job.done

/-- The keys are programmed into their cells (R417). -/
def State.keyProgram (s : State) : State :=
  { s with cfg := { s.cfg with keyAuth := s.keyBytes 0, keyEnc := s.keyBytes 4 } }

/-- LIFECYCLE_FUSE_BLOW: with NVM_OK and its turn, the job blows its next fuse; from BLANK to FACTORY the keys are
programmed and verified first (R410, R417). -/
def execLifecycleFuseBlow (verified : Bool) (s : State) : Host.Outcome State Fault Refusal :=
  .next (match s.nvmw.tasks with
    | [] => s
    | t :: _ =>
      if !(t.owner == Job.lifecycle && s.coreRun && s.flag F.THM_STATUS_NVM_OK && s.nvmw.unit.isNone) then s
      else
        let keys := s.lc == Lc.blank && s.cfg.lcTarget == Lc.factory
        let s1 := if keys then s.keyProgram else s
        if keys && !verified then
          ((s1.nvDrop Job.lifecycle).put F.CFG_LC_REASON LcReason.keys).jobEndOf Job.lifecycle Job.failed
        else
          let s2 := { s1 with cfg := { s1.cfg with fuses := max s1.cfg.fuses (min (s1.cfg.fuses + 1) s1.cfg.lcTarget) } }
          if s2.cfg.lcTarget ≤ s2.cfg.fuses then s2.lcCommit else s2)

/-- A running LIFECYCLE ends before its commit point; the fuses it has blown stay blown. -/
def State.lcCancel (s : State) : State := s.nvDrop Job.lifecycle

/-! ### What the state grants (R415) -/

/-- BIST_RUN modes that stop light, and injections and FREEZE with their strap (R415). -/
def State.lcOpen (s : State) : Bool := s.lc == Lc.blank || s.lc == Lc.factory || s.lc == Lc.return_

/-- Fault injection (R322, R361). -/
def State.mayInject (s : State) : Bool := s.lcOpen || (s.lc == Lc.field && bitOf (s.get F.SAF_SEAL_VALUE) 6)

/-- FREEZE (R421). -/
def State.mayFreeze (s : State) : Bool := s.lcOpen || (s.lc == Lc.field && bitOf (s.get F.SAF_SEAL_VALUE) 7)

/-- REGACC: reads, and writes (R415, R418). -/
def State.mayAccess (s : State) (write : Bool) : Bool :=
  s.lcOpen || (s.lc == Lc.field && !write && s.frozen)

end Sys2Proof.Machine
end

