-- ==== Sys2Proof/Machine/Loading.lean ====
section
/-!
DEFINITION. IMAGE_LOAD and RESTRUCTURE: loading and applying an image while the module runs (R405-R408).
-/

namespace Sys2Proof.Machine

/-- While the image in use has GEN 0xFFFF, no other is loaded (R400). -/
def State.genTerminal (s : State) : Bool := s.flag F.CFG_STATUS_LOADED && s.get F.CFG_STATUS_GEN == 0xFFFF

/-! ### IMAGE_LOAD (R405) -/

/-- RESULT and REASON of CFG_IMG_STATUS. -/
def State.imgResult (s : State) (result reason : Nat) : State :=
  s.lastResult F.CFG_IMG_STATUS_RESULT F.CFG_IMG_STATUS_REASON result reason

/-- The image at a layer-memory address leaves the window: its header does, or its LEN does. -/
def State.imgLeaves (s : State) (a : Nat) : Bool :=
  if a < layerBase || layerEnd < a + 4096 then true
  else
    let len := imgLen (s.lmBytes a 32)
    48 ≤ len && len ≤ 262144 && decide (layerEnd < a + len)

/-- The REASON for which an IMAGE_LOAD is refused, 0 = none (R405). -/
def State.loadRefusal (s : State) : Nat :=
  let src := s.get F.CFG_IMG_SRC
  let a := s.get F.CFG_IMG_ADDR_ADDR
  if s.flag F.CFG_STATUS_STAGED then Reason.staged
  else if s.genTerminal then Reason.terminal
  else if s.post then Reason.notReady
  else if (s.findJob Job.restructure).isSome then Reason.busy
  else if src = 0 ∨ a % 4096 ≠ 0 ∨ (src = 3 ∧ s.imgLeaves a) then Reason.range
  else 0

/-- START of an IMAGE_LOAD: false = refused through OWNER (R405). -/
def State.loadStart (s : State) : State × Bool :=
  let r := s.loadRefusal
  if r != 0 then (s.imgResult 2 r, false)
  else
    ({ s with cfg := { s.cfg with
        loadSrc := s.get F.CFG_IMG_SRC, loadAddr := s.get F.CFG_IMG_ADDR_ADDR, loadTicks := 0 } }, true)

/-- An IMAGE_LOAD ends FAILED. -/
def State.loadFail (s : State) (reason : Nat) : State := (s.imgResult 2 reason).jobEndOf Job.imageLoad Job.failed

/-- The image is checked; one that passes is staged, which is the commit point (R399, R405).  In END no image
passes (R415). -/
def State.imgStage (s : State) (bytes : List Byte) : State :=
  if s.lc = Lc.end_ then s.loadFail Reason.auth
  else
    match imgCheck s.kAuth s.kEnc (s.get F.CFG_FLOOR_FLOOR) bytes with
    | .error r => s.loadFail r
    | .ok m =>
      let s1 := { s with cfg := { s.cfg with
        staged := some m, stagedSrc := s.cfg.loadSrc, stagedKeyed := !s.keysZero } }
      (((((s1.put F.CFG_STATUS_STAGED 1).put F.CFG_IMG_STATUS_GEN m.gen).imgResult 1 0).jobCommitOf
        Job.imageLoad).jobEndOf Job.imageLoad Job.done)

/-- The rest of an image in layer memory is read and staged. -/
def State.loadBody (s : State) (a : Nat) : State :=
  let len := imgLen (s.lmBytes a 32)
  if len < 48 || 262144 < len then s.loadFail Reason.header
  else
    let r := s.readTiles (tilesOf (a + 4096) (len - 4096))
    if r.1 then r.2.imgStage (r.2.lmBytes a len) else r.2.loadFail Reason.source

/-- A layer-memory source: read tile by tile with the check of R77, the header's tile first. -/
def State.loadMemory (s : State) : State :=
  let r := s.readTiles (tilesOf s.cfg.loadAddr 4096)
  if r.1 then r.2.loadBody s.cfg.loadAddr else r.2.loadFail Reason.source

/-- IMAGE_STAGED: the image has been read; the bytes of a flash source come from the flash (R402, R405). -/
def execImageStaged (flash : List Byte) (s : State) : Host.Outcome State Fault Refusal :=
  .next (if s.coreRun && (s.findRunning Job.imageLoad).isSome then
    if s.cfg.loadSrc = 3 then s.loadMemory else s.imgStage flash
  else s)

/-- BODY_READ_TIMEOUT: 50,000 ticks (R405). -/
def execBodyReadTimeout (s : State) : Host.Outcome State Fault Refusal :=
  .next (if (s.findRunning Job.imageLoad).isSome && timeUp s.cfg.loadTicks 50000 then s.loadFail Reason.timeout else s)

/-- A write of CFG_IMG: DROP discards a staged image unless a RESTRUCTURE runs (R405). -/
def State.imgWrite (s : State) (v : Word) : State :=
  let s1 := s.regWrite A.CFG_IMG v
  if wordGet v 8 8 = 1 ∧ (s.findJob Job.restructure).isNone then s1.dropStaged else s1

/-- DROP: a write of 1 to CFG_IMG.DROP, with SRC as written (R405). -/
def execDropImage (i : Initiator) (v : Word) (s : State) : Host.Outcome State Fault Refusal :=
  .next (s.portWrite i A.CFG_IMG fun s => s.imgWrite (v ||| 0x100#32))

/-! ### RESTRUCTURE (R406, R407) -/

/-- RESULT and REASON of CFG_RS_STATUS. -/
def State.rsResult (s : State) (result reason : Nat) : State :=
  s.lastResult F.CFG_RS_STATUS_RESULT F.CFG_RS_STATUS_REASON result reason

/-- The SAFETY section differs from the registers in force. -/
def State.safetyDiffers (s : State) (m : Image) : Bool :=
  safetyRegs.zipIdx.any fun p =>
    let mask := accessMask .rw p.1
    ((m.word 10 p.2 (regReset p.1)) &&& mask) != (s.reg p.1 &&& mask)

/-- The REASON for which a RESTRUCTURE is refused, 0 = none (R406). -/
def State.rsRefusal (s : State) : Nat :=
  match s.cfg.staged with
  | none => Reason.notStaged
  | some m =>
    if s.genTerminal then Reason.terminal
    else if s.post then Reason.notReady
    else if (s.findJob Job.imageLoad).isSome then Reason.busy
    else if wBits (m.word 5 0 0) 2 0 != s.nPh && s.rail != Rail.off then Reason.rail
    else if s.flag F.SAF_LOCK_LOCK && s.safetyDiffers m then Reason.locked
    else if m.seal != s.get F.SAF_SEAL_VALUE then Reason.straps
    else 0

/-- The oasis request of CFG (R295, R407). -/
def State.cfgRequest (s : State) (on : Bool) : State :=
  let s1 := s.putB F.SAF_STATE_REQ_CFG on
  if s.saf.held then s1 else s1.safRefresh

/-- START of a RESTRUCTURE: false = refused through OWNER (R406).  With no image loaded or the raster stopped the
swap follows at once, and no request is placed (R407). -/
def State.rsStart (s : State) : State × Bool :=
  let r := s.rsRefusal
  if r != 0 then (s.rsResult 2 r, false)
  else
    let now := !s.flag F.CFG_STATUS_LOADED || !s.ras.running
    let s1 := { s with cfg := { s.cfg with rsInstants := 0, rsNow := now } }
    if now then (s1, true) else ((s1.put F.CFG_RS_STATUS_PHASE 1).cfgRequest true, true)

/-- The swap: the staged structure takes effect in one cycle, and the job is committed (R407). -/
def State.rsSwap (s : State) : State :=
  match s.cfg.staged with
  | none => s
  | some m =>
    let src := s.cfg.stagedSrc
    let keyed := s.cfg.stagedKeyed
    let s1 := ((s.commitWithdraw.applySections false m).dropStaged).imageLoaded m src
    let s2 := { s1 with cfg := { s1.cfg with keyed := keyed, rsNow := false } }
    (s2.put F.CFG_RS_STATUS_PHASE 2).jobCommitOf Job.restructure

/-- The swap is due at this commit instant: the frame had oasis as its source (R407). -/
def State.rsDue (s : State) : Bool :=
  !s.resyncHold && (s.findRunning Job.restructure).isSome && s.get F.CFG_RS_STATUS_PHASE == 1 && s.flag F.LUM_STATE_SOURCE

/-- RESTRUCTURE_SWAP: at a commit instant, before its other actions (DESIGN CHOICE, log entry 106), or at once (R407). -/
def execRestructureSwap (s : State) : Host.Outcome State Fault Refusal :=
  .next (if !s.coreRun then s
    else if s.cfg.rsNow then (if (s.findRunning Job.restructure).isSome then s.rsSwap else s)
    else if s.blankDue && s.rsDue then s.rsSwap
    else s)

/-- The job ends: its request is withdrawn (R407, R408). -/
def State.rsEnd (s : State) (result reason : Nat) : State :=
  let s1 := (s.put F.CFG_RS_STATUS_PHASE 0).rsResult result reason
  ({ s1 with cfg := { s1.cfg with rsNow := false } }).cfgRequest false

/-- A commit instant passes: before the swap it counts against the limit of 8; after it, a commit taken at it ends
the job DONE (R407). -/
def State.rsInstant (s : State) (taken : Bool) : State :=
  if (s.findJob Job.restructure).isNone then s
  else if s.get F.CFG_RS_STATUS_PHASE = 1 then { s with cfg := { s.cfg with rsInstants := s.cfg.rsInstants + 1 } }
  else if s.get F.CFG_RS_STATUS_PHASE = 2 ∧ taken then (s.rsEnd 1 0).jobEndOf Job.restructure Job.done
  else s

/-- RESTRUCTURE_NO_OASIS: 8 commit instants have passed without the swap (R407). -/
def execRestructureNoOasis (s : State) : Host.Outcome State Fault Refusal :=
  .next (if (s.findJob Job.restructure).isSome && s.get F.CFG_RS_STATUS_PHASE == 1 && decide (8 ≤ s.cfg.rsInstants) then
    (s.rsEnd 2 Reason.noOasis).jobEndOf Job.restructure Job.failed
  else s)

/-! ### Ticks -/

/-- The tick counters of CFG: the boot step, and a body read while its job runs (R403, R405). -/
def State.cfgTick (s : State) : State :=
  { s with cfg := { s.cfg with
    bootTicks := if s.cfg.bootStep = 0 then 0 else s.cfg.bootTicks + 1,
    loadTicks := if (s.findRunning Job.imageLoad).isSome then s.cfg.loadTicks + 1 else s.cfg.loadTicks } }

end Sys2Proof.Machine
end

