-- ==== Sys2Proof/Machine/SelfTest.lean ====
section
/-!
DEFINITION. The power-on self-test and the BIST_RUN job (spec/18_selftest_calibration.md, R83, R84,
R444-R453).
-/

namespace Sys2Proof.Machine

/-! ### The power-on self-test (R444, R445) -/

/-- Group `g` of R444 begins. -/
def State.postGroup (s : State) (g : Nat) : State := s.put F.BST_STATUS_GROUP g

/-- The test starts: a MIGRATE is abandoned, every tile loses its content, every physical bank is powered (R85, R444,
R453). -/
def State.postStart (s : State) (job : Bool) : State :=
  let s1 := ((s.migrateAbandon.put F.BST_STATUS_POST 1).put F.LMC_STATUS_POST 1).tilesEmpty 3
  let s2 := forUpto 17 (fun p s => s.setMem p true) s1
  let s3 := ((s2.put F.LMC_STATUS_BG_PHASE 0).put F.LMC_STATUS_TEST_PHYS 31).put F.LMC_STATUS_MIGRATE_BANK 31
  ({ s3 with bst := { s3.bst with jobPost := job, stopPost := false, failed := !job && s3.bst.failed },
             lmc := { s3.lmc with nomadWait := false } }).postGroup 1

/-- The physical banks of a group (R444). -/
def groupBanks (g : Nat) : List Nat :=
  if g = 5 then [16] else [4 * (g - 1), 4 * (g - 1) + 1, 4 * (g - 1) + 2, 4 * (g - 1) + 3]

/-- A bank passes the test: it is no longer retired. -/
def State.bankPasses (s : State) (p : Nat) : State :=
  let m := s.get F.BST_BANK_FAIL_FAIL
  { s.put F.BST_BANK_FAIL_FAIL (if bitOf m p then m - 2 ^ p else m) with
    lmc := { s.lmc with retired := s.lmc.retired &&& ~~~ (BitVec.ofNat 17 (2 ^ p)) } }

/-- The verdicts of a group: a failing bank is retired, any other failing RAM sets its bit and is reported (R83,
R445). -/
def State.groupBankResult (s : State) (banks : BitVec 17) : List Nat → State
  | [] => s
  | p :: t =>
    let s1 := if banks.getLsbD p then
        { s.retireBank p with bst := { s.bst with failed := true } }
      else s.bankPasses p
    s1.groupBankResult banks t

/-- A RAM other than a bank fails its test (R445). -/
def State.ramFails (s : State) (i : Nat) : State :=
  { (s.setBit F.BST_RAM_FAIL_FAIL i).raise Code.BST_POST_RAM i with bst := { s.bst with failed := true } }

/-- Every RAM named fails, in rising order of its bit. -/
def State.ramResults (s : State) (rams lo n : Nat) : State :=
  forUpto n (fun k s => if bitOf rams (lo + k) then s.ramFails (lo + k) else s) s

/-- The bank map of R83 and R84: logical banks in order on the banks that passed, the first one left over is the
nomad bank. -/
def State.mapBanks (s : State) : State :=
  let good := (List.range 17).filter fun p => !s.lmc.retired.getLsbD p
  let s1 := forUpto 16 (fun b s => s.put (bankMapField b) (good.getD b 31)) s
  (s1.put F.LMC_NOMAD_PHYS (good.getD 16 31)).put F.LMC_BANK_EN_EN
    (s.get F.LMC_BANK_EN_EN % 2 ^ (min good.length 16))

/-- A job that stops early: banks not tested keep their mapping; a logical bank on a retired one takes the nomad
bank, or is off (R84, R453). -/
def State.mapPartly (s : State) : State :=
  let s0 := match s.nomad with
    | some n => if s.lmc.retired.getLsbD n then s.put F.LMC_NOMAD_PHYS 31 else s
    | none => s
  let s1 := forUpto 16 (fun b s =>
    if s.physOf b < 17 ∧ s.lmc.retired.getLsbD (s.physOf b) then
      match s.nomad with
      | some n => (s.put (bankMapField b) n).put F.LMC_NOMAD_PHYS 31
      | none => s.put (bankMapField b) 31
    else s) s0
  s1.put F.LMC_BANK_EN_EN ((s1.get F.LMC_BANK_EN_EN) &&& s1.bankEnMask)

/-- The banks are powered as LMC_BANK_EN asks, the others go off (R85, R425). -/
def State.memByEnable (s : State) : State :=
  let en := s.get F.LMC_BANK_EN_EN
  let used := (List.range 16).filterMap fun b => if s.physOf b < 17 ∧ bitOf en b then some (s.physOf b) else none
  (forUpto 17 (fun p s => s.setMem p (used.contains p)) s).rotationGo

/-- The test ends: its result is shown and the layer memory enters service; a scan that has lost a bank fails (R83, R90,
R444, R445, R453). -/
def State.postEnd (s : State) : State :=
  let s1 := ((s.put F.BST_STATUS_POST 0).put F.LMC_STATUS_POST 0).put F.BST_STATUS_GROUP 0
  let s2 := s1.put F.BST_STATUS_POST_RESULT (if s1.bst.failed then 2 else 1)
  let s3 := if s2.bst.stopPost then s2.mapPartly else s2.mapBanks
  let s4 := { (s3.tilesEmpty 3).rotationOff with msk := { s3.msk with latched := [], target := [] } }.memByEnable.scanBankLost
  let job := s4.bst.jobPost && !s4.bst.stopPost
  let s5 := { s4 with bst := { s4.bst with jobPost := false, stopPost := false, failed := false } }
  if job then s5.jobEndOf Job.bistRun Job.done else s5

/-- POST_GROUP_DONE: a group completes with the banks and RAMs that failed in it (R444, R445).  A suspended job
waits between groups (R453). -/
def execPostGroupDone (banks : BitVec 17) (rams : BitVec 4) (s : State) : Host.Outcome State Fault Refusal :=
  .next (if !(s.post && s.coreRun) then s
    else if s.bst.jobPost && !s.bst.stopPost && (s.findRunning Job.bistRun).isNone then s
    else
      let g := s.get F.BST_STATUS_GROUP
      let s1 := s.groupBankResult banks (groupBanks g)
      let s2 := if g = 1 then s1.ramResults rams.toNat 0 4 else s1
      if g = 5 ∨ s2.bst.stopPost then s2.postEnd else s2.postGroup (g + 1))

/-! ### BIST_RUN (R452, R453) -/

/-- The REASON for which a BIST_RUN is refused, 0 = none (R452). -/
def State.bistRefusal (s : State) (mode : Nat) : Nat :=
  if mode = 1 ∧ !s.lcOpen then 1
  else if mode = 1 ∧ s.power ≠ Power.idle then 2
  else if mode = 0 ∧ s.nomad.isNone then 3
  else if 2 ≤ mode then 4
  else if s.post then 5
  else 0

/-- The logical banks that are on, in the order of R85. -/
def State.rotateOrder (s : State) : List Nat :=
  ((List.range 16).map fun i => (s.lmc.nextBank + i) % 16).filter fun b => s.bankOn b

/-- START of a BIST_RUN: false = refused through OWNER (R452, R453). -/
def State.bistStart (s : State) : State × Bool :=
  let mode := s.get F.BST_RUN_MODE
  let r := s.bistRefusal mode
  if r != 0 then (s.put F.BST_RUN_STATUS_REASON r, false)
  else
    let s1 := s.put F.BST_RUN_STATUS_REASON 0
    if mode = 1 then ((s1.postStart true).jobCommitOf Job.bistRun, true)
    else (({ s1 with lmc := { s1.lmc with rotate := some s1.rotateOrder } }).rotateJobEnd.rotationGo, true)

/-- A BIST_RUN ends early: a MIGRATE is abandoned, a TEST finishes, the POST stops at the end of its group
(R453). -/
def State.bistCancel (s : State) : State :=
  if s.bst.jobPost then { s with bst := { s.bst with stopPost := true } }
  else (({ s with lmc := { s.lmc with rotate := none } }).migrateAbandon).rotationGo

end Sys2Proof.Machine
end

