-- ==== Sys2Proof/Machine/Domains.lean ====
section
/-!
DEFINITION. Entering and leaving power states: what each reset event, each domain and each job loses (R39,
R425, R426, R434, R440, R488).
-/

namespace Sys2Proof.Machine

/-! ### Jobs that end early (R438, R440) -/

/-- The work of a job of type `t` is given up before or after its commit point; `cancel` tells a CANCEL from a
failure. -/
def State.jobWorkEnd (s : State) (t : Nat) (cancel : Bool) : State :=
  let r := if cancel then 3 else 2
  if t = Job.memScan then { s with lmc := { s.lmc with scan := none } }
  else if t = Job.nvmWrite then (s.nvDrop t).nvResult r 0
  else if t = Job.bistRun then s.bistCancel
  else if t = Job.calRun then s.calCancel
  else if t = Job.restructure then s.rsEnd r 0
  else if t = Job.defectRebuild then (s.nvDrop t).rebuildResult r 0
  else if t = Job.lifecycle then s.lcCancel
  else if t = Job.recCheckpoint then s.cpAbort r (if cancel then 0 else 3)
  else s

/-- An active job ends CANCELLED or FAILED, once a unit of it that is being written is complete; a job that this unit
ends is DONE. -/
def State.jobStop (s : State) (n : Nat) (cancel : Bool) : State :=
  if s.jobActive n then
    let s0 := s.unitSettle (s.jobType n)
    if s0.jobActive n then
      let s1 := (s0.jobEnd n (if cancel then Job.cancelled else Job.failed)).jobWorkEnd (s.jobType n) cancel
      if cancel then s1 else s1.put (F.PWR_JOBn_STATUS_REASON n) 3
    else s0
  else s

/-- The automatic checkpoint that runs ends as a job does, unless its unit in progress commits it; one that has not swapped
yet is given up.  A cause that it had latched starts the next (R434, R440, R471). -/
def State.cpStop (s : State) (cancel : Bool) : State :=
  let s1 := s.unitSettle Job.recCheckpoint
  if s.flag F.REC_STATUS_CP_RUN && !s1.flag F.REC_STATUS_CP_RUN then s1
  else s1.cpAbort (if cancel then 3 else 2) (if cancel then 0 else 3)

/-- Every active job ends; an automatic checkpoint ends as a job does (R434, R440, R471). -/
def State.jobsStop (s : State) (cancel : Bool) : State :=
  let s1 := if (s.findJob Job.recCheckpoint).isNone then s.cpStop cancel else s
  forUpto 4 (fun n s => s.jobStop n cancel) s1

/-- CHECKPOINT_TIMEOUT: no commit within CP_TO operating seconds (R469). -/
def execCheckpointTimeout (s : State) : Host.Outcome State Fault Refusal :=
  .next (if s.recorderOn && s.flag F.REC_STATUS_CP_RUN && decide (max (s.get F.REC_CTRL_CP_TO) 1 ≤ s.recd.cpSecs) then
    let s1 := s.unitSettle Job.recCheckpoint
    if s1.flag F.REC_STATUS_CP_RUN then (s1.jobEndOf Job.recCheckpoint Job.failed).cpAbort 2 1 else s1
  else s)

/-! ### Power states -/

/-- POWER_STATE is set at every change of STATE (R427); TARGET equals STATE when stable (R442). -/
def State.enterState (s : State) (st : Nat) : State :=
  let s1 := if s.power = st then s else s.irq Irq.powerState
  ((s1.put F.PWR_STATUS_STATE st).put F.PWR_STATUS_TARGET st).put F.PWR_STATUS_STEP 0

/-- RESULT of the last request; POWER_STATE is set at every RESULT (R427). -/
def State.powerResult (s : State) (r : Nat) : State := (s.put F.PWR_STATUS_RESULT r).irq Irq.powerState

/-- PIX goes off under the clamps of R40. -/
def State.pixOff (s : State) : State :=
  let s1 := s.put F.PWR_DOM_PIX 0
  { s1.put F.BST_STATUS_LATCH 0 with bst := { s1.bst with latchRow := none }, pwr := { s1.pwr with vpixLost := false } }

/-- A power-on self-test that loses CORE ends with nothing shown (R430, R444). -/
def State.postDrop (s : State) : State :=
  { ((s.put F.BST_STATUS_POST 0).put F.LMC_STATUS_POST 0).put F.BST_STATUS_GROUP 0 with bst := {} }

/-- Every MEM domain goes off, so that every tile is EMPTY; a MIGRATE is abandoned before, with the checks of the tiles that
it has copied, and a TEST ends with its bank's power and a scan of it fails (R85, R86, R90, R430, R434). -/
def State.memOff (s : State) : State :=
  (((s.migrateAbandon.put F.PWR_DOM_MEM 0).tilesEmpty 2).rotationOff).scanBankLost

/-- DARK_SW as PWR writes it through the bridge (R276, R429). -/
def State.darkSw (s : State) (on : Bool) : State :=
  if s.saf.held then s else (s.putB F.SAF_CMD_DARK_SW on).safRefresh

/-- An entry to HOT_STANDBY from IDLE that is given up: DARK_SW takes the value it held before (R429). -/
def State.darkSwBack (s : State) : State :=
  match s.pwr.darkSwBefore with
  | some b => ({ s with pwr := { s.pwr with darkSwBefore := none } }).darkSw b
  | none => s

/-! ### Resets (R324, R488) -/

/-- What GLB, in AON, holds of the commit: the armed commit and the count of R124 (R39, R119, R124). -/
def Cmp.glbPart (c : Cmp) : Cmp :=
  { armRdy := c.armRdy, armInfo := c.armInfo, staleRun := c.staleRun, staleReported := c.staleReported,
    staleDue := c.staleDue }

/-- The commit as a reset of GLB leaves it. -/
def Cmp.glbReset (c : Cmp) : Cmp :=
  { c with armRdy := 0, armInfo := {}, staleRun := 0, staleReported := false, staleDue := false }

/-- The register windows of the blocks in CORE but THM and CFG. -/
def coreWindows : List Nat := [1, 2, 3, 4, 5, 6, 7, 8, 9, 17, 18, 19, 20]

/-- What REC holds after a reset event: its banks are RAM and stay only through SAFE, with the remainders of seconds, the rate
window and a power cycle that is still to be counted, since CORE stays on (R463, R466, R471). -/
def State.recReset (s : State) (keep : Bool) : State :=
  if keep then
    let r := s.recd
    { s with recd := {
        x := s.collect, pcc := r.pcc, pccNew := r.pccNew, window := r.window, suppWindow := r.suppWindow
        opTicks := r.opTicks, litTicks := r.litTicks, opDue := r.opDue, litDue := r.litDue } }
  else { s with recd := { pcc := s.recd.pcc, pccNew := true } }

/-- The codes whose sources a reset of the CORE blocks returns to idle; THM's keep theirs in the BOOT that ends SAFE (R309,
R488). -/
def coreCode (safeEnd : Bool) (n : Nat) : Bool :=
  n != 1 && decide (n < 0x24) || decide (0x27 ≤ n) && decide (n < (if safeEnd then 0x70 else 0x80)) ||
  decide (0xB0 ≤ n) && decide (n < 0xC0) || decide (0xD0 ≤ n) && decide (n < 0xF0)

/-- No condition of these codes stands at its source any more. -/
def State.levelsOff (s : State) (p : Nat → Bool) : State :=
  (s.flt.recs.map fun e => e.1).foldl (fun s n => if p n then s.deassertF n else s) s

/-- The reset events of the CORE blocks; THM keeps its registers in the BOOT that ends SAFE (R488).  A write unit that has
started completes (R410), an armed commit stays armed and takes the first frame as its target (R62, R120), and the defect
limit is not reported twice in a power cycle (R217, R463); the LK0640 entry outlasts the BOOT that ends SAFE (R420). -/
def State.coreReset (s : State) (safeEnd : Bool) : State :=
  let s0 := s.unitFinish
  let s1 := coreWindows.foldl (fun s w => s.resetRegs (0x1000 * w) 0x1000) (s0.recReset safeEnd)
  let s2 := if safeEnd then s1 else (s1.resetRegs 0xA000 0x1000).thmReset
  let s3 := { s2 with ras := {}, lmc := {}, lmem := [], cmp := s2.cmp.glbPart, msk := {}, lum := {}, ary := {},
                      hlt := { limitReported := safeEnd && s2.hlt.limitReported }, lpe := {}, cal := {}, bst := {} }
  let s4 := if safeEnd then s3.cfgReset.putB F.CFG_STATUS_TEST (s.flag F.CFG_STATUS_TEST) else s3.cfgReset
  (s4.commitRetarget).levelsOff (coreCode safeEnd)

/-- The codes of the safety island, whose sources do not lie in AON. -/
def islandCode (n : Nat) : Bool := decide (0x80 ≤ n) && decide (n < 0x90)

/-- The reset events of FLT; a condition that stands in the island still drives its pair (R324). -/
def State.fltReset (s : State) : State :=
  let kept := (s.flt.recs.filter fun e => islandCode e.1 && e.2.level.isSome).map fun e =>
    (e.1, { faultDefault e.1 with level := e.2.level })
  { s.resetRegs 0xC000 0x1000 with flt := { recs := kept } }

/-- The reset events of LNK (R488). -/
def State.lnkReset (s : State) : State :=
  ({ s.resetRegs 0xD000 0x1000 with lnk := {} }).levelsOff fun n => decide (0x90 ≤ n) && decide (n < 0xA0)

/-- The reset events of the AON blocks: GLB, PWR, CVN and FLT; the slots, the SPI slave and the tandem
interlock with them (R426, R488). -/
def State.aonReset (s : State) : State :=
  let s1 := ((s.resetRegs 0x0000 0x1000).resetRegs 0x10000 0x1000).resetRegs 0xE000 0x1000
  let pads : Pwr := { resetN := s1.pwr.resetN, vddOk := s1.pwr.vddOk, vddio33 := s1.pwr.vddio33 }
  ({ s1 with cvn := {}, tdm := {}, spi := {}, port := {}, pwr := pads, cmp := s1.cmp.glbReset }).fltReset

/-- What the blocks outside SAFE hold in OFF; both DARK pads read as active there (R39, R278, R425, R494). -/
def State.offReset (s : State) : State :=
  let s1 := ((s.rasterStop).unitFinish.coreReset false).aonReset.lnkReset
  let s2 := if s1.saf.held then s1 else (s1.put F.SAF_STATE_REQ_CFG 0).fltRequest
  s2.darkPads true false

/-- BOOT begins: CORE and every bank on, LNK and PIX off, the main PLL locking, the boot loader at its first step
(R403, R425, R426). -/
def State.bootEnter (s : State) : State :=
  let s1 := (((((s.stopTrack.put F.PWR_DOM_CORE 1).put F.PWR_DOM_MEM 0x1FFFF).put F.PWR_DOM_LNK 0).put F.PWR_DOM_PIX 0).put
    F.PWR_DOM_PLL 0).grantLockWait
  ({ s1 with cfg := { s1.cfg with bootStep := 1, bootTicks := 0 } }).enterState Power.boot

/-- IDLE is entered from BOOT: LNK on, the ports in DOWN, the self-test and the boot checkpoint started (R426,
R444, R470). -/
def State.idleFromBoot (s : State) : State :=
  let s1 := ((s.put F.PWR_DOM_LNK 1).put F.PWR_DOM_PLL 1).enterState Power.idle
  (s1.postStart false).bootCheckpoint

/-- SAFE_ENTRY: transitions are abandoned, the raster stops, jobs fail, PIX and the banks go off (R434). -/
def State.safeEnter (s : State) : State :=
  let going := s.get F.PWR_STATUS_STEP != 0
  let s1 := (s.put F.PWR_STATUS_LATCHED 0).put F.PWR_STATUS_LATCH_TGT 0 |>.put F.PWR_STATUS_REVERSING 0
  let s2 := if going then ((s1.inc F.PWR_CNT_REVERSED).powerResult 4).darkSwBack else s1
  let s3 := (s2.jobsStop false).rasterStop
  let s4 := s3.pixOff.memOff
  let s5 := { s4 with nvmw := { s4.nvmw with tasks := [] }, cfg := { s4.cfg with bootStep := 0 },
                      pwr := { s4.pwr with wakeRetried := false } }
  s5.enterState Power.safe

end Sys2Proof.Machine
end

