-- ==== Sys2Proof/Machine/Boot.lean ====
section
/-!
DEFINITION. RESET_N, VDD, the boot loader, and the way into and out of SAFE (R269, R270, R400, R403, R404,
R426, R434, R498).
-/

namespace Sys2Proof.Machine

/-! ### RESET_N and VDD (R38, R426, R498, R500) -/

/-- RESET_N_LOW: RESET_N has been low for 8 cycles of OSC_IN: OFF, with the clock-off grant, which the clamp holds
withdrawn while AON has lost VDD (R38, R426). -/
def execResetNLow (s : State) : Host.Outcome State Fault Refusal :=
  .next (if !s.pwr.resetN then s
    else
      let s1 := { s with pwr := { s.pwr with resetN := false } }
      let s2 := if s1.power = Power.off then s1 else s1.offReset
      if s2.pwr.vddOk then s2.grantGive else s2)

/-- A unit that a loss of VDD interrupts holds all its old bytes or all its new ones (R410). -/
def State.unitLost (s : State) : State :=
  match s.nvmw.unit with
  | none => s
  | some _ =>
    (if Config.unitWritten s.freeCount then s.unitWrite
     else { s with nvmw := { s.nvmw with unit := none } }).tick

/-- VDD_BELOW_THRESHOLD: OFF, with the grant withdrawn (R38, R426, R500). -/
def execVddBelowThreshold (s : State) : Host.Outcome State Fault Refusal :=
  .next (if !s.pwr.vddOk then s
    else
      let s1 := { s with pwr := { s.pwr with vddOk := false } }
      (if s1.power = Power.off then s1 else s1.unitLost.offReset).grantEnd)

/-- A release of RESET_N with VDD in range, or the return of VDD with RESET_N released: every AON register takes its
reset value, the straps are read and BOOT begins (R426, R488).  A FREEZE that is high is ignored until it has been
seen low (R421). -/
def State.release (s : State) (vddio : Nat) : State :=
  let s1 := ((s.coreReset false).aonReset).lnkReset
  let s2 := { s1 with pwr := { s1.pwr with vddio33 := decide (2500 ≤ vddio) },
                      saf := { s1.saf with sealWant := true, vddioIn := vddioOperating vddio },
                      cfg := { s1.cfg with freezeOff := s1.cfg.freezePad } }
  let s3 := if s2.saf.held then s2 else ((s2.put F.SAF_LOCK_LOCK 0).put F.SAF_STATE_REQ_CFG 0).fltRequest
  s3.bootEnter

/-- RESET_N_RELEASE: RESET_N is released, or VDD returns above its threshold; `vddio` is the VDDIO level in mV
(R426, R498). -/
def execResetNRelease (vdd : Bool) (vddio : Nat) (s : State) : Host.Outcome State Fault Refusal :=
  .next (if vdd then
      if s.pwr.vddOk then s
      else
        let s1 := { s with pwr := { s.pwr with vddOk := true } }
        if s1.pwr.resetN then s1.release vddio else s1.grantGive
    else if s.pwr.resetN then s
    else
      let s1 := { s with pwr := { s.pwr with resetN := true } }
      if s1.pwr.vddOk then s1.release vddio else s1)

/-! ### The boot loader (R403, R404) -/

/-- Slot 1 = A or 2 = B fails with a REASON. -/
def State.slotFail (s : State) (slot reason : Nat) : State :=
  (s.put (if slot = 1 then F.CFG_BOOT_REASON_REASON_A else F.CFG_BOOT_REASON_REASON_B) reason).raise
    Code.CFG_SLOT_BAD (slot - 1)

/-- The next step of the boot loader starts. -/
def State.bootGo (s : State) (step : Nat) : State := { s with cfg := { s.cfg with bootStep := step, bootTicks := 0 } }

/-- Neither slot loads: every section stays absent (R404). -/
def State.noImage (s : State) : State := (s.raise Code.CFG_NO_IMAGE 0).bootGo 5

/-- A header passes check 1 of R399. -/
def headerOk (b : List Byte) : Bool :=
  imgWord b 0 == imgMagic && imgBits b 1 31 16 == 1 && imgLen b % 16 == 0 && decide (48 ≤ imgLen b) &&
  decide (imgLen b ≤ 262144) && imgBits b 3 17 16 != 3 && decide ((imgWord b 6).toNat % 256 ≤ 16)

/-- Step 1 ends: fuses and key cells read by vote, the floor read; END reads no slot (R400, R403, R414, R416). -/
def State.bootFuses (s : State) (voteBad : Bool) : State :=
  let s1 := if voteBad then s.raise Code.CFG_FUSE 0 else s
  let s2 := (s1.put F.CFG_LC_STATE s1.cfg.fuses).showKeys.floorRead
  if s2.cfg.fuses = Lc.end_ then s2.bootGo 5 else s2.bootGo 2

/-- The slot whose body is read first: the one with the higher GEN, A when the GENs are equal; none if both headers
failed (R400, R403). -/
def State.firstSlot (s : State) : Option Nat :=
  match s.cfg.hdrA, s.cfg.hdrB with
  | some a, some b => some (if imgGen a < imgGen b then 2 else 1)
  | some _, none => some 1
  | none, some _ => some 2
  | none, none => none

/-- The body of a slot is read next, or no slot is left. -/
def State.bodyGo (s : State) (slot : Option Nat) : State :=
  match slot with
  | some n => ({ s with cfg := { s.cfg with slot := n } }).bootGo 4
  | none => s.noImage

/-- A header has been read, or has failed with a REASON; the header of B comes after that of A. -/
def State.bootHeader (s : State) (b : Except Nat (List Byte)) : State :=
  let isA := s.cfg.bootStep == 2
  let slot := if isA then 1 else 2
  let s1 := match b with
    | .error r => s.slotFail slot r
    | .ok h =>
      if isA then { s.put F.CFG_BOOT_GEN_A (imgGen h) with cfg := { s.cfg with hdrA := some h } }
      else { s.put F.CFG_BOOT_GEN_B (imgGen h) with cfg := { s.cfg with hdrB := some h } }
  if isA then s1.bootGo 3 else s1.bodyGo s1.firstSlot

/-- The header of a slot. -/
def State.slotHeader (s : State) (slot : Nat) : Option (List Byte) := if slot = 1 then s.cfg.hdrA else s.cfg.hdrB

/-- The body of the slot fails: step 3 of R403 is repeated once for the other slot. -/
def State.bodyFail (s : State) (reason : Nat) : State :=
  let s1 := s.slotFail s.cfg.slot reason
  let other := 3 - s.cfg.slot
  if !s.cfg.second && (s.slotHeader other).isSome then
    ({ s1 with cfg := { s1.cfg with second := true } }).bodyGo (some other)
  else s1.noImage

/-- A body has been read and is checked (R399). -/
def State.bootBody (s : State) (bytes : List Byte) : State :=
  let h := (s.slotHeader s.cfg.slot).getD []
  match imgCheck s.kAuth s.kEnc (s.get F.CFG_FLOOR_FLOOR) (h ++ bytes) with
  | .error r => s.bodyFail r
  | .ok m => ({ s with cfg := { s.cfg with image := some m, keyed := !s.keysZero } }).bootGo 5

/-- Step 4 of R403: RAMs tested, sections applied, the gain journal replayed, the gain map, defect map, calibration
and recorder base loaded (R218, R412, R413, R444, R459, R463). -/
def State.bootApply (s : State) (ramFail : BitVec 9) : State :=
  let s1 := s.ramResults ramFail.toNat 4 5
  let s2 := match s1.cfg.image with
    | some m => s1.applySections true m
    | none => s1
  (((s2.journalReplay.gainBoot).mapBoot).calLoad).bootGo 6

/-- Step 5 of R403: the image is signalled, and IDLE is entered; END raises its fault instead (R284, R403, R426). -/
def State.bootSignal (s : State) : State :=
  let s1 := match s.cfg.image with
    | some m => s.imageLoaded m s.cfg.slot
    | none => s
  let s2 := if s1.lc = Lc.end_ then s1.raise Code.CFG_END 0 else s1
  (s2.recLoad.bootGo 0).idleFromBoot

/-- BOOT_STEP_DONE: a step of the boot loader, which runs in CORE, completes and the next one starts (R403, R421). -/
def execBootStepDone (b : BootIn) (s : State) : Host.Outcome State Fault Refusal :=
  .next (if s.power != Power.boot || s.frozen then s
    else
      match s.cfg.bootStep with
      | 1 => s.bootFuses b.voteBad
      | 2 => s.bootHeader (if headerOk b.bytes then .ok (b.bytes.take 32) else .error Reason.header)
      | 3 => s.bootHeader (if headerOk b.bytes then .ok (b.bytes.take 32) else .error Reason.header)
      | 4 => s.bootBody b.bytes
      | 5 => s.bootApply b.ramFail
      | 6 => s.bootSignal
      | _ => s)

/-- Ticks that a boot step may take (R403). -/
def bootLimit (step : Nat) : Option Nat :=
  match step with
  | 1 => some 100
  | 2 => some 1000
  | 3 => some 1000
  | 4 => some 50000
  | 5 => some 50000
  | _ => none

/-- BOOT_STEP_TIMEOUT: a step exceeds its ticks: its slot fails, or no image is applied, which END does not report
(R403).  DESIGN CHOICE (log entry 74): when step 4 times out, the journal, the maps and the sensor trim are loaded as at
any boot without an image (R404). -/
def execBootStepTimeout (s : State) : Host.Outcome State Fault Refusal :=
  .next (match bootLimit s.cfg.bootStep with
    | none => s
    | some t =>
      if s.power != Power.boot || s.frozen || !timeUp s.cfg.bootTicks t then s
      else
        match s.cfg.bootStep with
        | 1 => s.bootFuses true
        | 2 => s.bootHeader (.error Reason.timeout)
        | 3 => s.bootHeader (.error Reason.timeout)
        | 4 => s.bodyFail Reason.timeout
        | _ =>
          let s1 := { s with cfg := { s.cfg with image := none } }
          (if s1.lc = Lc.end_ then s1 else s1.raise Code.CFG_NO_IMAGE 0).bootApply 0)

/-! ### SAFE (R269, R270, R434) -/

/-- SENSOR_PUBLISH: sixteen cycles after the gate the readings are published and the rules evaluated; two or more
votes send the module to SAFE (R259-R271, R434). -/
def execSensorPublish (s : State) : Host.Outcome State Fault Refusal :=
  .next (match s.thm.gate with
    | none => s
    | some counts =>
      if !s.thmRuns then s
      else
        let s0 := if s.lineOn && s.thm.gateLine == some s.ras.line && s.slotOpen 73 then s.toSlot 73 else s
        let s1 := s0.publishAll counts
        if s1.shutdownDue then
          let s2 := ((s1.raise Code.THM_SHUTDOWN 0).put F.THM_STATUS_SHUTDOWN 1).throttleClear
          let s3 := { s2 with thm := { s2.thm with restartRun := 0 } }
          if s3.power = Power.safe then s3 else s3.safeEnter
        else s1)

/-- SHUTDOWN_END: 16 consecutive publications qualify, and the module runs BOOT without the strap read (R270,
R434). -/
def execShutdownEnd (s : State) : Host.Outcome State Fault Refusal :=
  .next (if s.power == Power.safe && s.flag F.THM_STATUS_SHUTDOWN && s.thm.restartRun == 16 then
    let s1 := (s.put F.THM_STATUS_SHUTDOWN 0).irq Irq.powerState
    let s2 := { s1 with thm := { s1.thm with restartRun := 0 } }
    (((s2.lnkOff).coreReset true).lnkReset).bootEnter
  else s)

end Sys2Proof.Machine
end

