-- ==== Sys2Proof/Machine/Faults.lean ====
section
/-!
DEFINITION. Fault collection and reaction (spec/13_faults.md).
-/

namespace Sys2Proof.Machine

/-- What drives the pair of a code to the fault pattern, with the values it gives a record: an occurrence, a
standing condition, an injection, or an invalid pair (R306, R307, R322). -/
def FaultRec.driver (r : FaultRec) (n : Nat) : Option FaultInfo :=
  match r.pulses with
  | i :: _ => some i
  | [] =>
    match r.level with
    | some i => some i
    | none =>
      match r.inj with
      | some i => some i
      | none => if r.invalid then some (faultInfo n 0) else none

/-- The pair stays at the fault pattern. -/
def FaultRec.held (r : FaultRec) : Bool := r.level.isSome || r.inj.isSome || r.invalid

/-- FLT_CTRL.FIRST_CLASS as used: 5 to 7 as 4 (R326). -/
def State.firstClass (s : State) : Nat := min (s.get F.FLT_CTRL_FIRST_CLASS) 4

/-- Three consecutive registers take a time-stamp (R19). -/
def State.putStamp (s : State) (a : Nat) : State :=
  (s.stamp.zipIdx).foldl (fun s p => s.setReg (a + 4 * p.2) p.1) s

/-- Code `m` latches in the cycle in which code `n` of class `cls` does: its pair is at the fault pattern and FLT has not
yet taken it (R306, R316).  True: the record takes it before `n`, by the higher class, then the lower code. -/
def State.latchesBefore (s : State) (m n cls : Nat) : Bool :=
  let r := s.frec m
  m != n && codeUsed m && s.sourceOn m && !r.live && (r.driver m).isSome && !s.masked m && !r.latched &&
  decide (s.firstClass ≤ r.base) && (decide (cls < r.base) || (r.base == cls && decide (m < n)))

/-- FIRST_ERROR_FILL: a qualifying latch fills the record while it is free, and the FAULT message is sent; of several in
one cycle the record takes the one that R316 names (R316, R357). -/
def State.firstFill (s : State) (n cls : Nat) (i : FaultInfo) : State :=
  if s.flag F.FLT_FIRST0_VALID || decide (cls < s.firstClass) || s.flt.recs.any (fun e => s.latchesBefore e.1 n cls) then s
  else
    let inj := s.flt.inject.any fun e => e.1 == n
    let s1 := (((((((s.setReg A.FLT_FIRST0 0).put F.FLT_FIRST0_VALID 1).put F.FLT_FIRST0_LIVE 1).putB F.FLT_FIRST0_INJ
      inj).put F.FLT_FIRST0_CLASS cls).put F.FLT_FIRST0_INIT i.init).put F.FLT_FIRST0_ACCESS i.access).put
      F.FLT_FIRST0_CODE n
    let s2 := (s1.put F.FLT_FIRST_ADDR_ADDR i.addr).putStamp (A.FLT_FIRST_TSn 0)
    let s3 := (s2.put F.FLT_FIRST_TICK_TICK (s2.get F.SAF_TICK_TICK)).put F.FLT_FIRST_CLR_TICK_TICK 0
    ((((s3.setReg (A.FLT_FIRST_CLR_TSn 0) 0).setReg (A.FLT_FIRST_CLR_TSn 1) 0).setReg (A.FLT_FIRST_CLR_TSn 2) 0)).faultMessage

/-- The record is of this code. -/
def State.firstIs (s : State) (n : Nat) : Bool := s.flag F.FLT_FIRST0_VALID && s.get F.FLT_FIRST0_CODE == n

/-- The timer of a class, read now (R312). -/
def State.classTimer (s : State) (cls : Nat) : Option Nat :=
  if cls = 1 then some (max (s.get F.FLT_T1_TICKS) 1)
  else if cls = 2 then some (max (s.get F.FLT_T2_TICKS) 1)
  else none

/-- A code enters PENDING with its class reaction; a latch of class C3 or C4 is a cause of a checkpoint (R305, R310,
R313, R470). -/
def State.latch (s : State) (n : Nat) (i : FaultInfo) : State :=
  let r := s.frec n
  let s1 := s.setFrec n { r with st := .pending, eff := r.base, timer := s.classTimer r.base, unmasked := true, addr := i.addr }
  let s2 := ((s1.irq Irq.fault).firstFill n r.base i).react r.base
  if 3 ≤ r.base ∧ s2.flag F.REC_CTRL_EVT_CP then s2.cpCause else s2

/-- The live signal of a code rises (R306, R310, R316, R320, R466). -/
def State.liveRise (s : State) (n : Nat) (i : FaultInfo) : State :=
  let r := s.frec n
  let s1 := s.setFrec n { r with
    live := true, count := satInc r.count 255, pulses := if r.held then [] else r.pulses.drop 1 }
  let s2 := s1.recEvent n (if r.latched then r.eff else r.base) i.addr false
  let s3 := if s2.firstIs n then s2.put F.FLT_FIRST0_LIVE 1 else s2
  if s.masked n || r.latched then s3
  else if r.base = 0 then (s3.irq Irq.fault).firstFill n 0 i
  else s3.latch n i

/-- FAULT_LIVE_RISE: FLT samples the fault pattern on the pair of a code (R306, R309, R310). -/
def execFaultLiveRise (code : Byte) (s : State) : Host.Outcome State Fault Refusal :=
  let n := code.toNat
  let r := s.frec n
  .next (if !(codeUsed n && s.aonOn && s.sourceOn n) || r.live then s
    else
      match r.driver n with
      | some i => s.liveRise n i
      | none => s)

/-- A code returns to NONE (R310). -/
def State.unlatch (s : State) (n : Nat) : State :=
  let r := s.frec n
  (s.setFrec n { r with st := .none, eff := r.base, timer := none, unmasked := false, addr := 0 }).fltRequest

/-- The first fall of the live signal after the latch (R317). -/
def State.firstFall (s : State) (n : Nat) : State :=
  if !s.firstIs n then s
  else
    let s1 := s.put F.FLT_FIRST0_LIVE 0
    if s1.flag F.FLT_FIRST0_CLEARED then s1
    else ((s1.put F.FLT_FIRST0_CLEARED 1).putStamp (A.FLT_FIRST_CLR_TSn 0)).put F.FLT_FIRST_CLR_TICK_TICK
      (s1.get F.SAF_TICK_TICK)

/-- FAULT_LIVE_FALL: the pair of a code is idle again, or the clamp of its domain holds it idle (R309, R310, R317). -/
def execFaultLiveFall (code : Byte) (s : State) : Host.Outcome State Fault Refusal :=
  let n := code.toNat
  let r := s.frec n
  .next (if !(r.live && s.aonOn) || (r.held && s.sourceOn n) then s
    else
      let s1 := (s.setFrec n { r with live := false }).firstFall n
      if r.st == .acked then s1.unlatch n else s1)

/-- FAULT_PAIR_INVALID: a pair has read invalid in 2 consecutive cycles, which acts as the fault it carries, or reads
valid again (R307, R309). -/
def execFaultPairInvalid (code : Byte) (bad : Bool) (s : State) : Host.Outcome State Fault Refusal :=
  let n := code.toNat
  let r := s.frec n
  .next (if !(codeUsed n && s.aonOn) then s
    else if bad then
      if r.invalid || !s.sourceOn n then s else (s.setFrec n { r with invalid := true }).raise Code.COL_PAIR n
    else if r.invalid then s.setFrec n { r with invalid := false } else s)

/-- Pairs whose proof pattern did not arrive are reported, each with its code.  A source whose fault is live when the strobe
reaches it keeps driving the pattern, and its proof passes (R308). -/
def State.proofFails (s : State) : List Byte → State
  | [] => s
  | c :: t =>
    let n := c.toNat
    let r := s.frec n
    (if codeUsed n && s.sourceOn n && !r.live && (r.driver n).isNone then s.raise Code.COL_PROOF n
     else s).proofFails t

/-- FAULT_PAIR_PROOF: once every 1,000 ticks every pair is proved (R308).  The response itself is not latched, and a fault
that rises in the window lasts 2 cycles or more: FAULT_LIVE_RISE takes it there as at any other time, so that neither masks
the other. -/
def execFaultPairProof (failed : List Byte) (s : State) : Host.Outcome State Fault Refusal :=
  .next (if s.aonOn && decide (1000 ≤ s.flt.proofTicks) then
    ({ s with flt := { s.flt with proofTicks := 0 } }).proofFails failed
  else s)

/-- A code escalates to a class, with its reaction; the event goes to REC (R310, R313, R317, R466). -/
def State.escalate (s : State) (n cls : Nat) : State :=
  let r := s.frec n
  let s1 := s.setFrec n { r with eff := cls, timer := s.classTimer cls }
  let s2 := if s1.firstIs n then s1.put F.FLT_FIRST0_ESCALATED 1 else s1
  let s3 := s2.recEvent n cls r.addr true
  (s3.react cls).fltRequest

/-- The timer of a class has ended for a PENDING code (R311, R312). -/
def FaultRec.expired (r : FaultRec) (cls : Nat) : Bool := r.st == .pending && r.eff == cls && r.timer == some 0

/-- T1_EXPIRY (R310). -/
def execT1Expiry (code : Byte) (s : State) : Host.Outcome State Fault Refusal :=
  .next (if s.aonOn && (s.frec code.toNat).expired 1 then s.escalate code.toNat 2 else s)

/-- T2_EXPIRY (R310). -/
def execT2Expiry (code : Byte) (s : State) : Host.Outcome State Fault Refusal :=
  .next (if s.aonOn && (s.frec code.toNat).expired 2 then s.escalate code.toNat 3 else s)

/-- An acknowledgement of a code (R310, R314). -/
def State.ack (s : State) (n : Nat) : State :=
  let r := s.frec n
  if r.st != .pending then s.put F.FLT_STATUS_ACK_NONE 1
  else if r.live then s.setFrec n { r with st := .acked, timer := none }
  else s.unlatch n

/-- FLT_ACK: a write of FLT_ACK (R314). -/
def execFltAck (i : Initiator) (v : Word) (s : State) : Host.Outcome State Fault Refusal :=
  .next (s.portWrite i A.FLT_ACK fun s => s.ack (wordGet v 7 0))

/-- A write of FLT_INJECT (R322). -/
def State.inject (s : State) (i : Initiator) (v : Word) : State :=
  let n := wordGet v 7 0
  if !s.mayInject || !codeUsed n || !s.sourceOn n || s.flt.inject.isSome then s.put F.FLT_STATUS_INJ_REFUSED 1
  else
    let s1 := s.setFrec n { s.frec n with inj := some (faultInfo n 0) }
    ({ s1 with flt := { s1.flt with inject := some (n, max (wordGet v 15 8) 1) } }).raiseI Code.COL_INJECT
      { init := initNo i, access := writeKind i, addr := 0 }

/-- FLT_INJECT (R322). -/
def execFltInject (i : Initiator) (v : Word) (s : State) : Host.Outcome State Fault Refusal :=
  .next (s.portWrite i A.FLT_INJECT fun s => s.inject i v)

/-- INJECTION_END: its DURATION is over (R322). -/
def execInjectionEnd (s : State) : Host.Outcome State Fault Refusal :=
  .next (match s.flt.inject with
    | some (n, 0) =>
      let s1 := s.setFrec n { s.frec n with inj := none }
      { s1 with flt := { s1.flt with inject := none } }
    | _ => s)

/-- A write of FLT_FIRST_REL (R316). -/
def State.firstRel (s : State) (v : Word) : State := if wordGet v 0 0 = 1 then s.put F.FLT_FIRST0_VALID 0 else s

/-- FLT_FIRST_REL (R316). -/
def execFltFirstRel (i : Initiator) (v : Word) (s : State) : Host.Outcome State Fault Refusal :=
  .next (s.portWrite i A.FLT_FIRST_REL fun s => s.firstRel v)

/-- FAULT_PIN_FAIL: FAULT_P or FAULT_N has read back wrong at 2 consecutive ticks (R321). -/
def execFaultPinFail (s : State) : Host.Outcome State Fault Refusal :=
  .next (if s.aonOn && s.flt.pinRun == 2 then
    ({ s with flt := { s.flt with pinRun := 3 } }).raise Code.COL_PIN 0 else s)

/-! ### The base-class table (R325) -/

/-- A base-class entry fails parity: FLT_COL_TABLE is raised, and the default is used until the entry is loaded again
(R325). -/
def State.classHit (s : State) (n : Nat) : State :=
  if !codeUsed n || s.flt.tableBad.any (fun e => e.1 == n) then s
  else
    let r := s.frec n
    let s1 := s.setFrec n { r with base := defaultClass n, eff := if r.latched then r.eff else defaultClass n }
    ({ s1 with flt := { s1.flt with tableBad := s1.flt.tableBad ++ [(n, r.base)] } }).raise Code.COL_TABLE 0

/-- The entries that failed are loaded again from the defaults and the image (R304, R325).  DESIGN CHOICE: at the tick
after, log 68. -/
def State.classReload (s : State) : State :=
  s.flt.tableBad.foldl (fun s e => s.applyClass e.1 e.2) { s with flt := { s.flt with tableBad := [] } }

/-! ### Ticks -/

/-- The base-class table, timers, injection, proof and pads at a tick boundary (R308, R312, R321, R322, R325). -/
def State.fltTick (s : State) (t : TickIn) : State :=
  if !s.aonOn then s
  else
    let indicated := s.pin || s.saf.held
    let bad := t.faultP == indicated || t.faultN != indicated
    let s1 := (t.classHits.map fun c => c.toNat).foldl State.classHit s.classReload
    { s1 with flt := { s1.flt with
      recs := s1.flt.recs.map fun e => (e.1, { e.2 with timer := e.2.timer.map fun n => n - 1 })
      inject := s1.flt.inject.map fun e => (e.1, e.2 - 1)
      proofTicks := min (s.flt.proofTicks + 1) 1000
      pinRun := if bad then (if s.flt.pinRun < 2 then s.flt.pinRun + 1 else s.flt.pinRun) else 0 } }

/-! ### Registers (R326, R327) -/

/-- Bits of a mask register that can be set: used codes of base class C0 or C1 (R320). -/
def State.maskable (s : State) (k : Nat) : Nat :=
  (List.range 32).foldl (fun m j =>
    if codeUsed (32 * k + j) && decide ((s.frec (32 * k + j)).base ≤ 1) then m + 2 ^ j else m) 0

/-- A write of an FLT register. -/
def State.fltWrite (s : State) (i : Initiator) (a : Nat) (v : Word) : State :=
  if a = A.FLT_ACK then s.ack (wordGet v 7 0)
  else if a = A.FLT_INJECT then s.inject i v
  else if a = A.FLT_FIRST_REL then s.firstRel v
  else if 0xC0A0 ≤ a ∧ a < 0xC0C0 then s.setReg a (v &&& BitVec.ofNat 32 (s.maskable ((a - 0xC0A0) / 4)))
  else s.regWrite a v

/-- STATE as FLT_Cnn shows it (R327). -/
def latchNo : LatchState → Nat
  | .none => 0
  | .pending => 1
  | .acked => 2

/-- FLT_Cnn of a code (R327). -/
def State.codeView (s : State) (n : Nat) : Word :=
  if !codeUsed n then 0
  else
    let r := s.frec n
    let f := wordPut (wordPut (wordPut 0 31 24 r.count) 10 8 r.base) 6 4 r.eff
    wordPut (wordPut (wordPut f 3 3 (b2n (s.masked n))) 2 2 (b2n r.live)) 1 0 (latchNo r.st)

/-- FLT_PENDk (R326). -/
def State.pendView (s : State) (k : Nat) : Word :=
  BitVec.ofNat 32 ((List.range 32).foldl (fun m j =>
    if (s.frec (32 * k + j)).st == .pending then m + 2 ^ j else m) 0)

/-- FLT_STATUS (R326). -/
def State.fltStatus (s : State) : Word :=
  wordPut (wordPut (wordPut (s.reg A.FLT_STATUS) 31 24 s.pendingCount) 18 16 s.maxClass) 8 8 (b2n s.pin)

/-- A read of an FLT register. -/
def State.fltRead (s : State) (a : Nat) : Word :=
  if a = A.FLT_STATUS then s.fltStatus
  else if 0xC080 ≤ a ∧ a < 0xC0A0 then s.pendView ((a - 0xC080) / 4)
  else if 0xC400 ≤ a ∧ a < 0xC800 then s.codeView ((a - 0xC400) / 4)
  else s.regView a

end Sys2Proof.Machine
end

