-- ==== Sys2Proof/Machine/Power.lean ====
section
/-!
DEFINITION. Requests, transitions, DORMANT and its wake, supplies, and freeze (R40, R188, R421, R427-R436,
R448, R449, R500).
-/

namespace Sys2Proof.Machine

/-! The steps of a transition, as PWR_STATUS.STEP shows them (R441). -/
namespace PwStep
def l1 : Nat := 1
def l2 : Nat := 2
def s1 : Nat := 3
def s2 : Nat := 4
def d1 : Nat := 5
def d2 : Nat := 6
def d3 : Nat := 7
def d4 : Nat := 8
def d5 : Nat := 9
def w1 : Nat := 10
def w2 : Nat := 11
def w3 : Nat := 12
def w4 : Nat := 13
end PwStep

/-! The values of PWR_STATUS.RESULT (R442). -/
namespace PwRes
def done : Nat := 1
def refused : Nat := 2
def reversed : Nat := 3
def abandoned : Nat := 4
def failed : Nat := 5
end PwRes

def State.step? (s : State) : Nat := s.get F.PWR_STATUS_STEP
def State.target (s : State) : Nat := s.get F.PWR_STATUS_TARGET

/-- A step of a transition begins. -/
def State.stepGo (s : State) (n : Nat) : State :=
  { s.put F.PWR_STATUS_STEP n with pwr := { s.pwr with stepTicks := 0 } }

/-- A transition to `t` begins at step `n`. -/
def State.transition (s : State) (t n : Nat) : State :=
  let s1 := (s.put F.PWR_STATUS_TARGET t).stepGo n
  { s1 with pwr := { s1.pwr with fromState := s.power } }

/-- A request is latched, one deep (R433). -/
def State.requestLatch (s : State) (t : Nat) : State :=
  (s.put F.PWR_STATUS_LATCHED 1).put F.PWR_STATUS_LATCH_TGT t

/-! ### The first steps -/

/-- PIX powers up: every latch takes the content of R188, MSK acts by R159 and the precharge calibration is armed
(R176, R457). -/
def State.pixUp (s : State) : State :=
  let s1 := (s.put F.PWR_DOM_PIX 1).pixPowerUp
  { s1 with cal := { s1.cal with pcArm := true, pcStarted := false }, pwr := { s1.pwr with vpixLost := false } }

/-- L1 (R428, R429): for HOT_STANDBY, DARK_SW is set first. -/
def State.litBegin (s : State) (t : Nat) : State :=
  let s1 := if t = Power.hotStandby then
      ({ s with pwr := { s.pwr with darkSwBefore := some (s.flag F.SAF_CMD_DARK_SW) } }).darkSw true
    else s
  (s1.transition t PwStep.l1).pixUp

/-- S1 (R428): the raster is to stop at the end of the frame. -/
def State.stopBegin (s : State) (t : Nat) : State :=
  s.transition t PwStep.s1

/-- D1 (R430, R440): every job is cancelled. -/
def State.d1Begin (s : State) : State := (s.stepGo PwStep.d1).jobsStop true

/-- W1 (R431): the source of the wake is recorded. -/
def State.wakeBegin (s : State) (source : Nat) : State :=
  let s1 := ((s.put F.PWR_WAKE_SOURCE source).inc F.PWR_CNT_WAKES).transition Power.idle PwStep.w1
  { s1 with pwr := { s1.pwr with wakeRetried := false } }

/-- A change between LIT and HOT_STANDBY: PWR writes DARK_SW, and the state changes as the island applies the write
(R429).  DESIGN CHOICE (log entry 75): an island in reset applies no write, and the request then has no effect. -/
def State.standbySwitch (s : State) (t : Nat) : State :=
  if s.saf.held then s else
  ((s.darkSw (t == Power.hotStandby)).enterState t).powerResult PwRes.done

/-- A permitted request with no transition in progress (R427-R431).  A request for LIT or HOT_STANDBY in DORMANT wakes
the module, and is latched for IDLE. -/
def State.requestStart (s : State) (t : Nat) : State :=
  let p := s.power
  if t = p then s.powerResult PwRes.done
  else if p = Power.dormant then
    let s1 := s.wakeBegin 1
    if t = Power.idle then s1 else s1.requestLatch t
  else if p = Power.idle then
    if t = Power.dormant then (s.transition t PwStep.d1).d1Begin else s.litBegin t
  else if t = Power.lit ∨ t = Power.hotStandby then s.standbySwitch t
  else s.stopBegin t

/-- The latched request starts when the transition has ended (R433). -/
def State.latchedStart (s : State) : State :=
  if s.flag F.PWR_STATUS_LATCHED then
    let t := s.get F.PWR_STATUS_LATCH_TGT
    ((s.put F.PWR_STATUS_LATCHED 0).put F.PWR_STATUS_LATCH_TGT 0).requestStart t
  else s

/-- A transition ends in state `st` with a RESULT. -/
def State.transitionEnd (s : State) (st result : Nat) : State :=
  let s1 := if result = PwRes.reversed ∨ result = PwRes.abandoned then s.inc F.PWR_CNT_REVERSED else s
  let s2 := ((s1.put F.PWR_STATUS_REVERSING 0).enterState st).powerResult result
  ({ s2 with pwr := { s2.pwr with darkSwBefore := none } }).latchedStart

/-- A transition to LIT or HOT_STANDBY is undone: PIX off, IDLE; DARK_SW as before (R428, R429). -/
def State.litUndo (s : State) (result : Nat) : State :=
  ((s.rasterStop.pixOff).darkSwBack).transitionEnd Power.idle result

/-- LNK goes on; the ports train from DOWN (R430, R431). -/
def State.lnkUp (s : State) : State := s.put F.PWR_DOM_LNK 1

/-- The gain map and the defect map are loaded again; confirmation counts start from 0 (R169, R218, R432). -/
def State.mapsReload (s : State) : State :=
  (forUpto 512 (fun y s => s.gainLoad Code.LUM_GAIN_ROW y) s).mapBoot

/-- A DORMANT entry is undone after step `n`: LNK on, banks on with EMPTY tiles, the maps reloaded; IDLE (R430). -/
def State.dormantUndo (s : State) (n result : Nat) : State :=
  let s1 := if PwStep.d2 ≤ n then s.lnkUp else s
  let s2 := if PwStep.d3 ≤ n then s1.mapsReload else s1
  let s3 := s2.transitionEnd Power.idle result
  if PwStep.d3 ≤ n then s3.memByEnable.rotationGo else s3

/-- CORE powers up with its registers retained (R251, R260, R431). -/
def State.coreUp (s : State) : State := s.stopTrack.thmWake.put F.PWR_DOM_CORE 1

/-! ### Requests (R427, R433) -/

/-- A request that R427 refuses. -/
def State.requestRefused (s : State) (t : Nat) : Bool :=
  !(2 ≤ t && t ≤ 5) || s.power == Power.off || s.power == Power.boot || s.power == Power.safe ||
  (t == Power.dormant && (s.cfg.scanOn || s.flag F.CFG_STATUS_TEST))

/-- The abort point of the step in progress is still to come (R428, R430). -/
def State.abortAhead (s : State) : Bool :=
  let n := s.step?
  n == PwStep.l1 || n == PwStep.l2 || n == PwStep.s1 ||
  (s.target == Power.dormant && (n == PwStep.s2 || n == PwStep.d1 || n == PwStep.d2 || n == PwStep.d3))

/-- A reverse: at once in L2 and before the stop in S1, else at the next abort point (R428, R433). -/
def State.reverse (s : State) : State :=
  let n := s.step?
  if n = PwStep.l2 then s.litUndo PwRes.reversed
  else if n = PwStep.s1 then s.transitionEnd s.pwr.fromState PwRes.reversed
  else s.put F.PWR_STATUS_REVERSING 1

/-- A DORMANT entry is to be undone at its next abort point and to end in IDLE; before the raster has stopped, it goes on to
IDLE as a stop does (R433; DEDUCED, log entry 59). -/
def State.entryUndo (s : State) : State :=
  if s.step? = PwStep.s1 then (s.put F.PWR_STATUS_TARGET Power.idle).put F.PWR_STATUS_REVERSING 1 else s.reverse

/-- A request other than DORMANT during DORMANT entry: before the raster has stopped, the state it started from is kept if
that is requested; else the entry is undone, and a request for LIT or HOT_STANDBY is latched, or with one latched already
whatever is requested (R433). -/
def State.dormantReverse (s : State) (t : Nat) : State :=
  if !s.abortAhead then s.requestLatch t
  else if s.step? = PwStep.s1 ∧ t = s.pwr.fromState then s.reverse
  else if t = Power.idle ∧ s.flag F.PWR_STATUS_LATCHED = false then s.entryUndo
  else s.entryUndo.requestLatch t

/-- A request that meets a transition in progress: one that is latched is replaced by the next (R433). -/
def State.requestDuring (s : State) (t : Nat) : State :=
  let latched := s.flag F.PWR_STATUS_LATCHED
  if s.target = Power.dormant ∧ t ≠ Power.dormant then s.dormantReverse t
  else if t = s.target ∧ latched = false then s
  else if t = s.pwr.fromState ∧ s.abortAhead then (if latched then s.requestLatch t else s).reverse
  else s.requestLatch t

/-- A wake event during DORMANT entry undoes it; with no abort point left, IDLE is latched unless a request is (R433). -/
def State.wakeReverse (s : State) : State :=
  if s.abortAhead then s.entryUndo else if s.flag F.PWR_STATUS_LATCHED then s else s.requestLatch Power.idle

/-- A write of PWR_REQ (R427). -/
def State.powerRequest (s : State) (t : Nat) : State :=
  if s.requestRefused t then s.powerResult PwRes.refused
  else if s.step? = 0 then s.requestStart t
  else s.requestDuring t

/-- A write of SAF_CMD by firmware: in HOT_STANDBY a DARK_SW of 0 acts as a request for LIT too (R276, R429). -/
def State.safCommand (s : State) (v : Word) : State :=
  let s1 := s.safCmd v
  if !s.saf.held && s.power == Power.hotStandby && wordGet v 0 0 == 0 then s1.powerRequest Power.lit else s1

/-- DARK_SW: a write of SAF_CMD (R277). -/
def execDarkSw (i : Initiator) (v : Word) (s : State) : Host.Outcome State Fault Refusal :=
  .next (s.portWrite i A.SAF_CMD fun s => s.safCommand v)

/-- FIRMWARE_OASIS_REQUEST: a write of SAF_CMD (R295). -/
def execFirmwareOasisRequest (i : Initiator) (v : Word) (s : State) : Host.Outcome State Fault Refusal :=
  .next (s.portWrite i A.SAF_CMD fun s => s.safCommand v)

/-- PWR_REQ (R427). -/
def execPwrReq (i : Initiator) (v : Word) (s : State) : Host.Outcome State Fault Refusal :=
  .next (s.portWrite i A.PWR_REQ fun s => s.powerRequest (wordGet v 2 0))

/-! ### IDLE to LIT (R428, R448, R449) -/

/-- LIT or HOT_STANDBY is entered: the raster is no longer stopped. -/
def State.litEnter (s : State) : State := s.transitionEnd s.target PwRes.done

/-- L2: PWR issues the starting RETIME.  A master is then LIT; a slave waits for its start by an epoch; a rejection
ends the transition in IDLE with FAILED (R62, R428). -/
def State.l2Begin (s : State) : State :=
  let t := s.nextTiming true
  let s1 := (s.stepGo PwStep.l2).retime t
  if s1.rasRun = RasRun.stopped then s1.litUndo PwRes.failed
  else if t.mode = RasMode.slave then s1
  else s1.litEnter

/-- L1 ends: the taps are loaded into the pixel tier, and L2 begins or the reverse is made. -/
def State.l1End (s : State) : State :=
  if s.flag F.PWR_STATUS_REVERSING then s.litUndo PwRes.reversed else s.loadTaps.l2Begin

/-- PIX_READY: PIX is ready in L1, once the power-on self-test has ended; the latch test runs first (R428, R447,
R448). -/
def execPixReady (s : State) : Host.Outcome State Fault Refusal :=
  .next (if !(s.step? == PwStep.l1) || s.bst.latchRow.isSome || s.post || !s.coreRun || !s.pixOn then s
    else if s.flag F.BST_CTRL_LATCH_EN && !s.flag F.PWR_STATUS_REVERSING then
      { s.put F.BST_STATUS_LATCH 1 with bst := { s.bst with latchRow := some 0, latchFailed := false } }
    else s.l1End)

/-- A pixel fails the latch test: ISOLATED with cause MANUAL, counted, the first one reported (R449). -/
def State.latchFails (s : State) (y : Nat) : List Nat → State
  | [] => s
  | x :: t =>
    let s1 := ((s.mapRaise x y 2 Cause.manual).inc F.BST_LATCH_FAIL_PIX).put F.BST_LATCH_ROW y
    let s2 := if s1.bst.latchFailed then s1
      else ({ s1 with bst := { s1.bst with latchFailed := true } }).raise Code.BST_LATCH (pixelAddr x y)
    s2.latchFails y t

/-- LATCH_TEST_ROW: a row is tested; `failed` are the columns that read back wrong.  After the last row every row holds
the content of R188 again; a reverse ends the test after the row (R448, R449). -/
def execLatchTestRow (failed : List Nat) (s : State) : Host.Outcome State Fault Refusal :=
  .next (match s.bst.latchRow with
    | none => s
    | some y =>
      if !s.coreRun then s
      else
        let cols := columnsOf failed
        let s1 := s.latchFails y cols
        let s2 := if s1.get F.BST_CTRL_ROW_LIMIT < cols.length then s1.raise Code.BST_LATCH_ROW y else s1
        if y + 1 < 512 ∧ !s2.flag F.PWR_STATUS_REVERSING then
          { s2 with bst := { s2.bst with latchRow := some (y + 1) } }
        else ({ s2.put F.BST_STATUS_LATCH 0 with bst := { s2.bst with latchRow := none } }).l1End)

/-- SLAVE_START_TIMEOUT: no epoch has started the slave raster within START ticks (R428). -/
def execSlaveStartTimeout (s : State) : Host.Outcome State Fault Refusal :=
  .next (if s.step? == PwStep.l2 && timeUp s.pwr.stepTicks (s.get F.PWR_TIMEOUT_START) then
    (s.raise Code.PWR_STEP_TIMEOUT PwStep.l2).litUndo PwRes.abandoned
  else s)

/-! ### LIT to IDLE, DORMANT entry (R428, R430) -/

/-- The last cycle of the current frame. -/
def State.frameEnd (s : State) : Bool := s.lineOn && s.ras.line + 1 == s.frameLines

/-- RASTER_STOP: S1 ends in the last cycle of line 511 + VB, and S2 begins (R251, R282, R428, R514). -/
def execRasterStop (s : State) : Host.Outcome State Fault Refusal :=
  .next (if s.step? == PwStep.s1 && s.frameEnd then
    (((s.runTo (16 * s.nSlots - 1)).rasterStop).stepGo PwStep.s2).pixOff
  else s)

/-- The content of LNK is lost but for the registers that are held through DORMANT (R432, R488). -/
def State.lnkLose (s : State) : State :=
  [A.LNK_U_CTRL, A.LNK_D_CTRL, A.LNK_MSG, A.LNK_HOST_TO].foldl (fun t a => t.setReg a (s.reg a)) s.lnkReset

/-- The content of CORE that retention does not keep is lost; what GLB holds of the commit lies in AON, and a layer that
DROP has disabled stays disabled (R119, R127, R432).  A write unit that has started completes (R410), and a gain reload
that ran is over (R169), as is an automatic calibration item (R462).  Of LNK, LNK_x_CTRL, LNK_MSG and LNK_HOST_TO are held
(R488). -/
def State.retain (s : State) : State :=
  let s0 := (s.dropStaged.recOff).unitFinish.calIdle
  let s1 := (s0.put F.LUM_STATE_RELOAD_BUSY 0).lnkLose
  let s2 := { s1 with
    lmem := [], lmc := { retired := s1.lmc.retired, nextBank := s1.lmc.nextBank }
    cmp := { s1.cmp.glbPart with
      tt := s1.cmp.tt, ttBad := s1.cmp.ttBad, coef := s1.cmp.coef, coefBad := s1.cmp.coefBad, dropped := s1.cmp.dropped }
    msk := {}
    lum := { credit := s1.lum.credit }
    ary := {}
    hlt := { limitReported := s1.hlt.limitReported }
    lpe := { coef := s1.lpe.coef, coefBad := s1.lpe.coefBad }
    thm := { base := s1.thm.base }
    cal := { taps := s1.cal.taps, trim := s1.cal.trim }
    bst := {} }
  s2.calShow

/-- D4 and D5: CORE off, then the main PLL (R38, R430).  A job started after D1 is cancelled as CORE goes off. -/
def State.d4Begin (s : State) : State :=
  ((((s.stepGo PwStep.d4).jobsStop true).postDrop.memOff).retain).put F.PWR_DOM_CORE 0

def State.d5Begin (s : State) : State := ((s.stepGo PwStep.d5).put F.PWR_DOM_PLL 0).grantGive

/-- A step of the DORMANT entry ends: the reverse is made at its abort point, or the next step begins (R430).  DESIGN CHOICE
(log entry 91): what D3 loses of MSK is the list in use, one that waits and the timeout run beside the images, though the
entry is then undone; DARK_ROWS and BRIGHT_ROWS keep their counts (R159, R164). -/
def State.dStepEnd (s : State) (n : Nat) : State :=
  if s.flag F.PWR_STATUS_REVERSING ∧ n ≤ PwStep.d3 then s.dormantUndo n PwRes.reversed
  else if n = PwStep.d1 then (s.stepGo PwStep.d2).lnkOff
  else if n = PwStep.d2 then
    let s1 := (s.stepGo PwStep.d3).memOff
    { s1 with lum := { s1.lum with gain := [] }, hlt := { s1.hlt with map := [], mapCopy := [], confirm := [] },
              msk := {} }
  else if n = PwStep.d3 then s.d4Begin
  else if n = PwStep.d4 then s.d5Begin
  else s.transitionEnd Power.dormant PwRes.done

/-- A step in progress has its condition to end: in D1, no job runs, one started in D1 included, and no write unit (R410,
R430, R440). -/
def State.stepReady (s : State) (n : Nat) : Bool :=
  n != PwStep.d1 ||
    (s.nvmw.unit.isNone && !s.post && !s.flag F.REC_STATUS_CP_RUN && !(List.range 4).any s.jobActive)

/-- TRANSITION_STEP_DONE: S2 or one of D1 to D5 completes (R428, R430). -/
def execTransitionStepDone (s : State) : Host.Outcome State Fault Refusal :=
  .next (let n := s.step?
    if n < PwStep.s2 || PwStep.d5 < n || !s.stepReady n then s
    else if n = PwStep.s2 then
      if s.target = Power.dormant then s.d1Begin
      else s.transitionEnd Power.idle (if s.flag F.PWR_STATUS_REVERSING then PwRes.reversed else PwRes.done)
    else s.dStepEnd n)

/-- The transition is abandoned at the last abort point before step `n`; what the step has switched off is on again, as
IDLE has it (R425, R428, R430). -/
def State.stepAbandon (s : State) (n : Nat) : State :=
  let s1 := s.raise Code.PWR_STEP_TIMEOUT n
  if n ≤ PwStep.l2 then s1.litUndo PwRes.abandoned
  else if n ≤ PwStep.d1 then s1.transitionEnd Power.idle PwRes.abandoned
  else if n ≤ PwStep.d3 then s1.dormantUndo n PwRes.abandoned
  else
    let s2 := s1.coreUp.recLoad.dormantUndo PwStep.d3 PwRes.abandoned
    if n = PwStep.d5 then s2.grantLockWait else s2

/-- TRANSITION_STEP_TIMEOUT: a step has not ended within STEP ticks (R428, R430). -/
def execTransitionStepTimeout (s : State) : Host.Outcome State Fault Refusal :=
  .next (let n := s.step?
    let timed := n == PwStep.l1 || (PwStep.s2 ≤ n && n ≤ PwStep.d5)
    if timed && timeUp s.pwr.stepTicks (s.get F.PWR_TIMEOUT_STEP) then s.stepAbandon n else s)

/-! ### Waking (R431, R432) -/

/-- A wake source other than PWR_REQ is enabled: 2 = LNK, 3 = CVN, 4 = GPIO (R431). -/
def State.wakeOn (s : State) (source : Nat) : Bool :=
  (source == 2 && s.flag F.PWR_WAKE_LNK) || (source == 3 && s.flag F.PWR_WAKE_CVN) ||
  (source == 4 && s.flag F.PWR_WAKE_GPIO && s.gpio3Aux)

/-- In DORMANT a wake source starts the wake; during DORMANT entry it reverses the entry (R431, R433). -/
def State.wakeEvent (s : State) (source : Nat) : State :=
  if !s.wakeOn source then s
  else if s.power = Power.dormant ∧ s.step? = 0 then s.wakeBegin source
  else if s.step? != 0 && s.target == Power.dormant then s.wakeReverse
  else s

/-- WAKE_EVENT (R431, R433). -/
def execWakeEvent (source : BitVec 3) (s : State) : Host.Outcome State Fault Refusal :=
  .next (s.wakeEvent source.toNat)

/-- A wake step begins: the main PLL in W2, the banks and the maps in W3, CORE in W4 (R38, R431). -/
def State.wakeGo (s : State) (n : Nat) : State :=
  let s1 := s.stepGo n
  if n = PwStep.w2 then s1.grantLockWait
  else if n = PwStep.w3 then (s1.put F.PWR_DOM_PLL 1).memByEnable
  else if n = PwStep.w4 then s1.mapsReload.coreUp
  else s1

/-- A wake step fails: the wake restarts from W1 once, with CORE off again and what REC has gathered in W4 lost, then BOOT runs
(R431, R463, R471). -/
def State.wakeFail (s : State) (n : Nat) : State :=
  let s1 := s.raise Code.PWR_WAKE n
  if s1.pwr.wakeRetried then
    let s2 := ((s1.put F.PWR_STATUS_LATCHED 0).coreReset false).lnkReset
    ({ s2 with saf := { s2.saf with sealWant := true }, pwr := { s2.pwr with wakeRetried := false } }).bootEnter
  else
    let s2 := (((s1.recOff.put F.PWR_DOM_CORE 0).put F.PWR_DOM_PLL 0).memOff).grantGive
    ({ s2 with pwr := { s2.pwr with wakeRetried := true } }).stepGo PwStep.w1

/-- WAKE_STEP_READY: the ready signal of a wake step; in W4, whether the retention check passed (R431, R432). -/
def execWakeStepReady (retentionOk : Bool) (s : State) : Host.Outcome State Fault Refusal :=
  .next (let n := s.step?
    if n < PwStep.w1 || PwStep.w4 < n then s
    else if n < PwStep.w4 then s.wakeGo (n + 1)
    else if retentionOk then ((s.recLoad.lnkUp).transitionEnd Power.idle PwRes.done).rotationGo
    else s.wakeFail n)

/-- Ticks that a wake step may take (R431). -/
def wakeLimit (n : Nat) : Nat :=
  if n = PwStep.w1 then 20 else if n = PwStep.w2 then 50 else if n = PwStep.w3 then 400 else 10

/-- WAKE_STEP_TIMEOUT (R431). -/
def execWakeStepTimeout (s : State) : Host.Outcome State Fault Refusal :=
  .next (let n := s.step?
    if PwStep.w1 ≤ n && n ≤ PwStep.w4 && timeUp s.pwr.stepTicks (wakeLimit n) then s.wakeFail n else s)

/-! ### Supplies and the main PLL (R436, R500) -/

/-- A rail has been outside its window at 2 consecutive ticks; the report is made once per excursion. -/
def railRun (on bad : Bool) (run : Nat) : Nat := if on && bad then (if run < 2 then run + 1 else run) else 0

/-- The rails at a tick, in mV (R436).  A lost VDDA_LNK is back at the first tick that finds it in its window
(R500 says the loss, not its end: DESIGN CHOICE, log entry 12). -/
def State.railTick (s : State) (t : TickIn) : State :=
  let nom := if s.pwr.vddio33 then 3300 else 1800
  let ioBad := decide (t.vddio * 100 < nom * 94) || decide (nom * 106 < t.vddio * 100)
  { s with pwr := { s.pwr with
    vddRun := railRun s.aonOn (!withinRange t.vdd 700 800) s.pwr.vddRun
    vpixRun := railRun (s.flag F.PWR_DOM_PIX || s.pwr.vpixLost) (!withinRange t.vpix 1030 1170) s.pwr.vpixRun
    vpixGood := if s.pwr.vpixLost then runOf (withinRange t.vpix 1030 1170) s.pwr.vpixGood else 0
    vddaRun := railRun s.lnkOn (!withinRange t.vdda 850 950) s.pwr.vddaRun
    vddaLost := s.pwr.vddaLost && !withinRange t.vdda 850 950
    vddioRun := railRun s.aonOn ioBad s.pwr.vddioRun } }

/-- One rail's report. -/
def State.railReport (s : State) (run code : Nat) : State := if run = 2 then s.raise code 0 else s

/-- RAIL_WINDOW_FAULT (R436). -/
def execRailWindowFault (s : State) : Host.Outcome State Fault Refusal :=
  .next (if !s.aonOn then s
    else
      let p := s.pwr
      let s1 := (((s.railReport p.vddRun Code.PWR_VDD).railReport p.vpixRun Code.PWR_VPIX).railReport p.vddaRun
        Code.PWR_VDDA_LNK).railReport p.vddioRun Code.PWR_VDDIO
      let told := fun (n : Nat) => if n = 2 then 3 else n
      { s1 with pwr := { s1.pwr with
        vddRun := told p.vddRun, vpixRun := told p.vpixRun, vddaRun := told p.vddaRun, vddioRun := told p.vddioRun } })

/-- The main PLL should be on: in every state with it on, up to step D5 of a DORMANT entry, and from step W2 of a wake
(R425, R430, R431). -/
def State.pllWanted (s : State) : Bool :=
  s.aonOn && (if s.power = Power.dormant then decide (PwStep.w2 ≤ s.step?) else s.step? != PwStep.d5)

/-- PLL_LOCK_LOSS (R436). -/
def execPllLockLoss (s : State) : Host.Outcome State Fault Refusal :=
  .next (if s.pllWanted && s.flag F.PWR_DOM_PLL then (s.put F.PWR_DOM_PLL 0).raise Code.PWR_PLL 0 else s)

/-- PLL_RELOCK: the main PLL locks (R38, R436). -/
def execPllRelock (s : State) : Host.Outcome State Fault Refusal :=
  .next (if s.pllWanted && !s.flag F.PWR_DOM_PLL then s.put F.PWR_DOM_PLL 1 else s)

/-- VPIX_LOSS: below 0.80 V, PIX counts as off and its latches are lost; a latch test that runs ends, so that no pixel is
judged without its supply, and L1 waits for PIX again; a PRECHARGE item fails (R41, R448, R456, R500). -/
def execVpixLoss (s : State) : Host.Outcome State Fault Refusal :=
  .next (if s.flag F.PWR_DOM_PIX then
    { s.put F.PWR_DOM_PIX 0 with
      pwr := { s.pwr with vpixLost := true, vpixGood := 0 }
      ary := { s.ary with storage := [], display := [], maskW := [], maskA := [], loadDue := false }
      bst := { s.bst with latchRow := none } }.put F.BST_STATUS_LATCH 0 |>.calRasterStop
  else s)

/-- VPIX_RESTORED: within its window for 2 ticks, PIX counts as powered up (R159, R188, R221, R500). -/
def execVpixRestored (s : State) : Host.Outcome State Fault Refusal :=
  .next (if s.pwr.vpixLost && s.pwr.vpixGood == 2 then s.pixUp.loadTaps else s)

/-! ### Freeze (R421) -/

/-- FREEZE_REQUEST (R421, R422): FREEZE has been high for 8 cycles, or has been seen low.  An accepted request stops the raster and
the clocks of CORE and MEM; a refused one is reported, and FREEZE is then ignored until it has been seen low. -/
def execFreezeRequest (high : Bool) (s : State) : Host.Outcome State Fault Refusal :=
  .next (let s1 := { s with cfg := { s.cfg with freezePad := high } }
    if !high then { s1 with cfg := { s1.cfg with freezeOff := false } }
    else if s1.cfg.freezeOff || s1.frozen || !s1.coreOn then s1
    else if s1.mayFreeze then
      let s2 := s1.rasterStop
      ({ s2 with lpe := { s2.lpe with pwm := 0 } }).put F.CFG_STATUS_FROZEN 1
    else
      ({ s1.put F.CFG_STATUS_FREEZE_REF 1 with cfg := { s1.cfg with freezeOff := true } }).raise Code.CFG_FREEZE_REF 0)

/-- The step timer at a tick (R428, R431). -/
def State.pwrTick (s : State) (t : TickIn) : State :=
  let s1 := s.railTick t
  { s1 with pwr := { s1.pwr with stepTicks := if s1.step? = 0 then 0 else s1.pwr.stepTicks + 1 } }

end Sys2Proof.Machine
end

