-- ==== Sys2Proof/Machine/Jobs.lean ====
section
/-!
DEFINITION. The job slots and their commands (R438, R439).
-/

namespace Sys2Proof.Machine

namespace JobReason
def type : Nat := 1
def busy : Nat := 2
def power : Nat := 3
def owner : Nat := 4
end JobReason

/-- A SUSPEND waits in slot `n` for the suspension point of its job, or does so no longer. -/
def State.setSuspend (s : State) (n : Nat) (on : Bool) : State :=
  let m := s.pwr.suspend
  let b := BitVec.ofNat 4 (2 ^ n)
  { s with pwr := { s.pwr with suspend := if on then m ||| b else m &&& ~~~ b } }

/-- The command in slot `n` was ignored. -/
def State.cmdIgnored (s : State) (n : Nat) : State := s.put (F.PWR_JOBn_STATUS_CMD_IGNORED n) 1

/-- The refusal of a START that does not come from the owning block, 0 = none (R439). -/
def State.startRefusal (s : State) (n t : Nat) : Nat :=
  if t = 0 ∨ 10 ≤ t then JobReason.type
  else if (List.range 4).any fun m => m != n && s.jobActive m && s.jobType m == t then JobReason.busy
  else if !s.awake then JobReason.power
  else 0

/-- A MEM_SCAN of length 0 completes at once (R88). -/
def State.scanBegin (s : State) : State × Bool :=
  let r := s.scanStart
  if r.2 && s.get F.CHK_LEN_LEN == 0 then (r.1.scanEnd, true) else r

/-- The owning block starts a job of its type, or refuses: false. -/
def State.ownerStart (s : State) (t : Nat) : State × Bool :=
  if t = Job.memScan then s.scanBegin
  else if t = Job.nvmWrite then s.nvStart
  else if t = Job.bistRun then s.bistStart
  else if t = Job.calRun then s.calRunStart
  else if t = Job.imageLoad then s.loadStart
  else if t = Job.restructure then s.rsStart
  else if t = Job.defectRebuild then s.rebuildStart
  else if t = Job.lifecycle then s.lcStart
  else s.checkpointStart

/-- A START enters FAILED with a reason (R439). -/
def State.startFail (s : State) (n reason : Nat) : State :=
  (s.put (F.PWR_JOBn_STATUS_REASON n) reason).jobEnd n Job.failed

/-- What a START that is refused without its owner still does: a MEM_SCAN shows its REASON in CHK_STATUS while another
one runs (R90), and a LIFECYCLE draws a challenge at every START (R417). DESIGN CHOICE (log entry 92): a DEFECT_REBUILD
that is refused for BUSY or POWER leaves HLT_REBUILD as it was (R219). -/
def State.startNotice (s : State) (t : Nat) : State :=
  if t = Job.memScan ∧ s.lmc.scan.isSome then (s.put F.CHK_STATUS_RESULT 2).put F.CHK_STATUS_REASON s.scanRefusal
  else if t = Job.lifecycle then s.newChallenge
  else s

/-- START of type `t` in a slot that holds no active job (R438, R439). -/
def State.jobStart (s : State) (n t : Nat) : State :=
  let s1 := (((s.setSuspend n false).put (F.PWR_JOBn_STATUS_TYPE n) t).put (F.PWR_JOBn_STATUS_COMMITTED n) 0).put
    (F.PWR_JOBn_STATUS_REASON n) 0
  let r := s.startRefusal n t
  if r != 0 then (s1.startNotice t).startFail n r
  else
    let r2 := (s1.put (F.PWR_JOBn_STATUS_STATE n) Job.running).ownerStart t
    if r2.2 then r2.1 else r2.1.startFail n JobReason.owner

/-- What a type's suspension points are for the job in slot `n`: none = it has none (R439); a SUSPEND after the swap
of a RESTRUCTURE has no effect (R408). -/
def State.hasSuspension (s : State) (t : Nat) : Bool :=
  if t = Job.defectRebuild then s.hlt.rebuildMode == 0 else t != Job.lifecycle && t != Job.recCheckpoint

/-- SUSPEND of a running job. -/
def State.jobSuspend (s : State) (n : Nat) : State :=
  let t := s.jobType n
  if !s.hasSuspension t then s.cmdIgnored n
  else if t = Job.restructure ∧ s.get F.CFG_RS_STATUS_PHASE = 2 then s
  else s.setSuspend n true

/-- RESUME of a suspended job: it goes on from where it stood. -/
def State.jobResume (s : State) (n : Nat) : State :=
  let s1 := s.put (F.PWR_JOBn_STATUS_STATE n) Job.running
  if s.jobType n = Job.bistRun then s1.rotateCheck.rotationGo
  else if s.jobType n = Job.calRun then s1.calResume else s1

/-- A job command of a slot (R438). -/
def State.jobCommand (s : State) (n cmd t : Nat) : State :=
  if cmd = 0 ∨ 5 ≤ cmd then s
  else if cmd = 1 then (if s.jobActive n then s.cmdIgnored n else s.jobStart n t)
  else if !s.jobActive n then s.cmdIgnored n
  else if cmd = 2 then (if s.jobState n = Job.running then s.jobSuspend n else s)
  else if cmd = 3 then (if s.jobState n = Job.suspended then s.jobResume n else s)
  else (s.setSuspend n false).jobStop n true

/-- A write of PWR_JOBn_CMD (R443). -/
def State.jobCmdWrite (s : State) (n : Nat) (v : Word) : State := s.jobCommand n (wordGet v 10 8) (wordGet v 3 0)

/-- A write of a command and a type to the command register of slot `n`. -/
def State.jobPort (s : State) (i : Initiator) (n : BitVec 2) (cmd t : Nat) : State :=
  s.portWrite i (A.PWR_JOBn_CMD n.toNat) fun s => s.jobCommand n.toNat cmd t

/-- START (R438): a job of the type named. -/
def execStartJob (i : Initiator) (n : BitVec 2) (t : BitVec 4) (s : State) : Host.Outcome State Fault Refusal :=
  .next (s.jobPort i n 1 t.toNat)

/-- MEM_SCAN (R87). -/
def execMemScan (i : Initiator) (n : BitVec 2) (s : State) : Host.Outcome State Fault Refusal :=
  .next (s.jobPort i n 1 Job.memScan)

/-- NVM_WRITE (R411). -/
def execNvmWrite (i : Initiator) (n : BitVec 2) (s : State) : Host.Outcome State Fault Refusal :=
  .next (s.jobPort i n 1 Job.nvmWrite)

/-- BIST_RUN (R453). -/
def execBistRun (i : Initiator) (n : BitVec 2) (s : State) : Host.Outcome State Fault Refusal :=
  .next (s.jobPort i n 1 Job.bistRun)

/-- CAL_RUN (R458). -/
def execCalRun (i : Initiator) (n : BitVec 2) (s : State) : Host.Outcome State Fault Refusal :=
  .next (s.jobPort i n 1 Job.calRun)

/-- IMAGE_LOAD (R405). -/
def execImageLoad (i : Initiator) (n : BitVec 2) (s : State) : Host.Outcome State Fault Refusal :=
  .next (s.jobPort i n 1 Job.imageLoad)

/-- RESTRUCTURE (R406). -/
def execRestructure (i : Initiator) (n : BitVec 2) (s : State) : Host.Outcome State Fault Refusal :=
  .next (s.jobPort i n 1 Job.restructure)

/-- DEFECT_REBUILD (R219). -/
def execDefectRebuild (i : Initiator) (n : BitVec 2) (s : State) : Host.Outcome State Fault Refusal :=
  .next (s.jobPort i n 1 Job.defectRebuild)

/-- LIFECYCLE (R417). -/
def execLifecycle (i : Initiator) (n : BitVec 2) (s : State) : Host.Outcome State Fault Refusal :=
  .next (s.jobPort i n 1 Job.lifecycle)

/-- REC_CHECKPOINT (R471). -/
def execRecCheckpoint (i : Initiator) (n : BitVec 2) (s : State) : Host.Outcome State Fault Refusal :=
  .next (s.jobPort i n 1 Job.recCheckpoint)

/-- SUSPEND (R438): the command of this name is written to slot `n`. -/
def execSuspendJob (i : Initiator) (n : BitVec 2) (s : State) : Host.Outcome State Fault Refusal :=
  .next (s.jobPort i n 2 0)

/-- RESUME (R438): the command of this name is written to slot `n`. -/
def execResumeJob (i : Initiator) (n : BitVec 2) (s : State) : Host.Outcome State Fault Refusal :=
  .next (s.jobPort i n 3 0)

/-- CANCEL (R438): the command of this name is written to slot `n`. -/
def execCancelJob (i : Initiator) (n : BitVec 2) (s : State) : Host.Outcome State Fault Refusal :=
  .next (s.jobPort i n 4 0)

/-- The writer has no unit of the job under way. -/
def State.betweenUnits (s : State) (t : Nat) : Bool :=
  s.nvmw.unit.isNone || !(s.nvmw.tasks.head?.any fun k => k.owner == t)

/-- A scan stands at a tile boundary `pos` bytes into its range. -/
def ScanJob.boundary (j : ScanJob) (pos : Nat) : Bool :=
  decide (j.pos ≤ pos) && decide (pos ≤ j.len) && (pos == 0 || (j.addr + pos) % 4096 == 0)

/-- The job of type `t` stands at a suspension point (R439). -/
def State.atSuspension (s : State) (t pos : Nat) : Bool :=
  if t = Job.memScan then s.lmc.scan.any fun j => j.boundary pos
  else if t = Job.nvmWrite then s.betweenUnits t
  else if t = Job.bistRun then s.bst.jobPost || s.get F.LMC_STATUS_BG_PHASE != 1
  else if t = Job.calRun then s.calPoint && s.betweenUnits t
  else if t = Job.imageLoad then true
  else if t = Job.restructure then s.get F.CFG_RS_STATUS_PHASE != 2
  else if t = Job.defectRebuild then s.hlt.rebuildMode == 0 && s.betweenUnits t
  else false

/-- The position of a job as it is suspended. -/
def State.suspendWork (s : State) (t pos : Nat) : State :=
  if t = Job.memScan then
    match s.lmc.scan with
    | some j => s.scanTo j pos
    | none => s
  else if t = Job.calRun then s.calSuspend
  else if t = Job.bistRun ∧ !s.bst.jobPost then s.nomadRest
  else s

/-- JOB_SUSPENDED: the job of slot `n` reaches a suspension point, a scan after `pos` bytes (R89, R438). -/
def execJobSuspended (n : BitVec 2) (pos : Nat) (s : State) : Host.Outcome State Fault Refusal :=
  .next (let k := n.toNat
    if s.pwr.suspend.getLsbD k && s.jobState k == Job.running && s.atSuspension (s.jobType k) pos then
      ((s.setSuspend k false).put (F.PWR_JOBn_STATUS_STATE k) Job.suspended).suspendWork (s.jobType k) pos
    else s)

end Sys2Proof.Machine
end

