-- ==== Sys2Proof/Machine/Caravan.lean ====
section
/-!
DEFINITION. The Caravan line: what the master sends, positions, shares and ring returns (R365-R373,
R379-R383, R396).
-/

namespace Sys2Proof.Machine

/-- CVN runs on the array clock in AON, which a freeze leaves running: AON out of reset and the main PLL locked (R39, R366,
R421). -/
def State.cvnOn (s : State) : Bool := s.aonOn && s.flag F.PWR_DOM_PLL

/-- The Caravan line is enabled at a slave, or at the master. -/
def State.cvnSlave (s : State) : Bool := s.cvnOn && s.flag F.CVN_CTRL_EN && !s.flag F.CVN_CFG_MASTER
def State.cvnMaster (s : State) : Bool := s.cvnOn && s.flag F.CVN_CTRL_EN && s.flag F.CVN_CFG_MASTER

/-- CVN_CFG.BIT in cycles. -/
def State.bitCycles (s : State) : Nat := s.get F.CVN_CFG_BIT

/-- A header is 168 symbols long; the epoch cycle is the 16th cycle after it (R374). -/
def State.headerCycles (s : State) : Nat := 168 * s.bitCycles + 16

/-! ### The master's frames (R369, R371, R380) -/

/-- CVN_SH_CFG.LEN as used: 17-31 as 16 (R396). -/
def State.shareLen (s : State) : Nat := min (s.get F.CVN_SH_CFG_LEN) 16

/-- Symbols of an EPOCH frame with `n` shares of `len` bytes. -/
def epochSyms (n len : Nat) : Nat := 174 + 8 * n * (len + 1)

/-- Shares sent: the largest number that fits into a frame (R380). -/
def State.shareCount (s : State) : Nat :=
  let len := s.shareLen
  if len = 0 ∨ s.bitCycles = 0 then 0
  else
    let room := 16 * (s.nSlots * (512 + s.get F.RAS_ACT_TIMING_VB)) / s.bitCycles
    min (s.get F.CVN_SH_CFG_CNT) ((room - 190) / (8 * (len + 1)))

/-- The timing that the EPOCH frame announces from the next frame on (R369). -/
def State.nextAnnounced (s : State) : Nat × Nat × Nat :=
  match s.ras.pend with
  | some t => if s.holdLines then (t.nSlots, t.vb, t.k) else (s.nSlots, s.get F.RAS_ACT_TIMING_VB, s.get F.RAS_ACT_PWM_K)
  | none => (s.nSlots, s.get F.RAS_ACT_TIMING_VB, s.get F.RAS_ACT_PWM_K)

/-- The EPOCH header of the present frame (R369). -/
def State.epochHeader (s : State) : EpochFrame :=
  let nx := s.nextAnnounced
  { epoch := (s.get F.CVN_EPOCH_EPOCH + 1) % 65536, frame := s.ras.frame, curVb := s.curVb
    nSlots := s.nSlots, vb := s.get F.RAS_ACT_TIMING_VB, k := s.get F.RAS_ACT_PWM_K
    nxNSlots := nx.1, nxVb := nx.2.1, nxK := nx.2.2
    c := s.ras.pwmC, a := s.ras.pwmA, shLen := s.shareLen }

/-- A mark leaves with a ring to return over: one more without an accepted return (R383). -/
def State.ringMark (s : State) : State :=
  if s.flag F.CVN_CFG_RING then { s with cvn := { s.cvn with marks := s.cvn.marks + 1 } } else s

/-- The EPOCH frame of the frame is sent at the commit instant (R369, R380). -/
def State.epochSend (s : State) : State :=
  if s.cvnMaster then
    let h := s.epochHeader
    let n := s.shareCount
    let s1 := (s.put F.CVN_EPOCH_EPOCH h.epoch).putB F.CVN_STATUS_SH_TRUNC (h.shLen != 0 && n < s.get F.CVN_SH_CFG_CNT)
    { s1 with cvn := { s1.cvn with
        sent := some h, sentSyms := epochSyms n h.shLen, sentEpochs := (h.epoch :: s.cvn.sentEpochs).take 2
        noposFrames := min (s.cvn.noposFrames + 1) 16 } }.ringMark
  else s

/-- At the first cycle of line 0 the line is idle: the EPOCH frame of the ended frame and 16 bit periods of low fit
before it (R371). -/
def State.lineIdle (s : State) : Bool :=
  match s.cvn.sent with
  | none => true
  | some h => s.ras.leadIn || decide ((s.cvn.sentSyms + 16) * s.bitCycles ≤ 16 * h.nSlots * h.curVb)

/-- ENUM_FRAME_SEND: the master sends the ENUM frame that is owed: with the raster stopped once the line is idle, else
at the first cycle of a frame that finds it idle (R370, R371). -/
def execEnumFrameSend (s : State) : Host.Outcome State Fault Refusal :=
  .next (if s.cvnMaster && s.flag F.CVN_STATUS_ENUM_BUSY && !s.cvn.enumOut &&
      (!s.ras.running || (s.lineOn && s.ras.line == 0 && s.lineCycle == 0 && s.lineIdle)) then
    let id := (s.get F.CVN_EPOCH_ENUM_ID + 1) % 256
    let ring := s.flag F.CVN_CFG_RING
    let s1 := (s.put F.CVN_EPOCH_ENUM_ID id).putB F.CVN_STATUS_ENUM_BUSY ring
    { s1 with cvn := { s1.cvn with enumOut := ring, sentEnums := (id :: s.cvn.sentEnums).take 2 } }
  else s)

/-- A write of CVN_CTRL: EN, and an ENUM request, which a slave ignores (R371, R396). -/
def State.cvnCtrlWrite (s : State) (v : Word) : State :=
  let s1 := (s.regWrite A.CVN_CTRL v).masterPosition
  if wordGet v 1 1 = 1 then s1.enumAsk else s1

/-- ENUM: a write of 1 to CVN_CTRL.ENUM, with EN as written (R371). -/
def execEnumRequest (i : Initiator) (en : Bool) (s : State) : Host.Outcome State Fault Refusal :=
  .next (s.portWrite i A.CVN_CTRL fun s => s.cvnCtrlWrite (BitVec.ofNat 32 (2 + b2n en)))

/-! ### Positions (R372) -/

/-- Code errors of a received frame are counted, and reported once per frame; a header that fails is one more
(R366, R368, R384). -/
def State.cvnCode (s : State) (n addr : Nat) : State :=
  if n = 0 then s else (s.incBy F.CVN_CNT_CODE_ERR n).raise Code.CVN_CODE addr

/-- `n` code errors of an EPOCH frame after its epoch cycle are counted: a frame with one is applied no further, and reported
once (R366, R384). -/
def State.cvnLater (s : State) (n : Nat) : State :=
  if n = 0 then s
  else
    let s1 := s.incBy F.CVN_CNT_CODE_ERR n
    let s2 := if s.cvn.codeSeen then s1 else s1.raise Code.CVN_CODE (s.get F.CVN_EPOCH_EPOCH)
    { s2 with cvn := { s2.cvn with codeSeen := true, shLen := 0 } }

/-- Code errors of an EPOCH frame that no share of this module follows, and frames discarded whole for too short a low before
them, as a tick counts them (R366; DESIGN CHOICE, log entry 96). -/
def State.cvnTick (s : State) (t : TickIn) : State :=
  if s.cvnSlave || s.cvnMaster then (s.cvnLater t.cvnErrors).incBy F.CVN_CNT_CODE_ERR t.cvnDiscards else s

/-- The position of a slave. -/
def State.takePosition (s : State) (p : Nat) : State :=
  let same := s.flag F.CVN_STATUS_POS_VALID && s.get F.CVN_STATUS_POS == p
  let s1 := (s.put F.CVN_STATUS_POS p).put F.CVN_STATUS_POS_VALID 1
  if same then s1 else s1.irq Irq.caravan

/-- ENUM_FRAME_RECEIVED: an ENUM frame has ended at a slave: its ENUM_ID, whether the header passes, its code errors,
the fills before this module's token, and whether that token was met as a 1.  A frame with a code error after the token is
not applied (R372, R384; DEDUCED, log entry 50). -/
def execEnumFrameReceived (id : Byte) (good : Bool) (codeErrors fills : Nat) (token : Bool) (s : State) :
    Host.Outcome State Fault Refusal :=
  .next (if s.cvnSlave then
    let s1 := s.cvnCode (codeErrors + b2n (!good)) (s.get F.CVN_EPOCH_EPOCH)
    if !good then s1
    else
      let s2 := s1.put F.CVN_EPOCH_ENUM_ID id.toNat
      if token && fills < 4095 then (if codeErrors = 0 then s2.takePosition (1 + fills) else s1)
      else (s2.put F.CVN_STATUS_POS_VALID 0).raise Code.CVN_ENUM id.toNat
  else s)

/-! ### Shares (R381) -/

/-- Word of a share's bytes with the bytes past its end as they were. -/
def shareWord (old : Word) (bytes : List Byte) : Word :=
  BitVec.ofNat 32 (leNat (bytes ++ (leBytes old).drop bytes.length))

/-- The bytes of a good share are written to CVN_RX_SHARE0-3. -/
def State.shareWrite (s : State) (bytes : List Byte) : State :=
  forUpto 4 (fun j s => s.setReg (A.CVN_RX_SHAREn j) (shareWord (s.reg (A.CVN_RX_SHAREn j)) ((bytes.drop (4 * j)).take 4))) s

/-- SHARE_RECEIVED: the share of this module has been classified (R381); after a code error in the frame it is not taken
(R384). -/
def execShareReceived (bytes : List Byte) (read : ShareRead) (s : State) : Host.Outcome State Fault Refusal :=
  .next (if s.cvnSlave && s.cvn.shLen != 0 && bytes.length == s.cvn.shLen then
    let s0 := { s with cvn := { s.cvn with shLen := 0 } }
    if read.codeErrors ≠ 0 then s0.cvnLater read.codeErrors
    else if !read.crcOk then s0.inc F.CVN_CNT_SH_CRC
    else if !(s.flag F.CVN_STATUS_POS_VALID && s.ras.running) then s0
    else
      let s1 := (s0.shareWrite bytes).irq Irq.caravan
      if s.flag F.CVN_SH_CFG_DIM_MAP && decide (2 ≤ bytes.length) then
        { s1 with cvn := { s1.cvn with dim := some (leNat (bytes.take 2)) } } else s1
  else s)

/-- SHARE_DIM_WRITE: 16 cycles after the share, the shadow of LUM_DIM.DIM is written (R381). -/
def execShareDimWrite (s : State) : Host.Outcome State Fault Refusal :=
  .next (match s.cvn.dim with
    | none => s
    | some d =>
      let s1 := { s with cvn := { s.cvn with dim := none } }
      if s.coreRun then s1.putSh F.LUM_DIM_DIM d else s1)

/-! ### The ring (R383) -/

/-- A status pair as read: 1 then 0 = set, 0 then 1 = clear, else invalid. -/
def pairValue (p : BitVec 2) : Option Bool := if p = 2#2 then some true else if p = 1#2 then some false else none

/-- A pair of an accepted return. -/
def State.ringPair (s : State) (f : Field) (p : BitVec 2) : State :=
  match pairValue p with
  | some b => s.putB f b
  | none => s.raise Code.CVN_RING 0

/-- The throttle request of the chain is a cause of the master's own (R268). -/
def State.chainThrottle (s : State) (thr : Bool) : State :=
  { s with thm := { s.thm with chainReq := thr, blocked := s.thm.blocked && (thr || s.thm.cause) } }

/-- NOPOS is answered by an ENUM frame, at most once in any 16 frames (R371). -/
def State.noposAnswer (s : State) : State :=
  if 16 ≤ s.cvn.noposFrames then ({ s with cvn := { s.cvn with noposFrames := 0 } }).enumAsk else s

/-- The status pairs of an accepted EPOCH return (R382, R383). -/
def State.ringPairs (s : State) (r : RingFrame) : State :=
  let alarm := s.flag F.CVN_RING_ALARM
  let s1 := ((s.ringPair F.CVN_RING_THR r.thr).ringPair F.CVN_RING_ALARM r.alarm).ringPair F.CVN_RING_NOPOS r.nopos
  let s2 := match pairValue r.thr with
    | some b => s1.chainThrottle b
    | none => s1
  let s3 := if !alarm && s2.flag F.CVN_RING_ALARM then s2.raise Code.CVN_CHAIN_ALARM 0 else s2
  if r.nopos = 2#2 then s3.noposAnswer else s3

/-- The token section of an accepted ENUM return: its fills are the slaves (R372). -/
def State.ringEnum (s : State) (r : RingFrame) : State :=
  let s1 := if s.cvn.enumOut then { s.put F.CVN_STATUS_ENUM_BUSY 0 with cvn := { s.cvn with enumOut := false } } else s
  let s2 := s1.put F.CVN_RING_SLAVES (min r.fills 4095)
  if r.tokenBad then s2.raise Code.CVN_ENUM r.num else s2

/-- MASTER_FRAME_RECEIVED (R383). -/
def execMasterFrameReceived (r : RingFrame) (s : State) : Host.Outcome State Fault Refusal :=
  .next (if s.cvnMaster then
    let s1 := s.cvnCode (r.codeErrors + b2n (!r.good)) (s.get F.CVN_EPOCH_EPOCH)
    let mine := if r.enum then s.cvn.sentEnums.contains r.num else s.cvn.sentEpochs.contains r.num
    if !r.good then s1
    else if s.flag F.CVN_CFG_RING && mine then
      let s2 := (s1.put F.CVN_STATUS_RING_OK 1).put F.CVN_RING_VALID 1
      let s3 := { s2 with cvn := { s2.cvn with marks := 0 } }
      if r.enum then s3.ringEnum r else s3.ringPairs r
    else (s1.put F.CVN_STATUS_TWO_MASTERS 1).raise Code.CVN_TWO_MASTERS 0
  else s)

/-- RING_RETURN_TIMEOUT: no accepted return within 2 frames of a mark (R383). -/
def execRingReturnTimeout (s : State) : Host.Outcome State Fault Refusal :=
  .next (if s.cvnMaster && s.flag F.CVN_CFG_RING && decide (3 ≤ s.cvn.marks) then
    let s1 := (s.put F.CVN_STATUS_RING_OK 0).raise Code.CVN_RING 0
    { s1 with cvn := { s1.cvn with marks := 2 } }
  else s)

/-! ### The share RAM (R380, R396) -/

/-- INDEX increments after an access if INC = 1. -/
def State.shareInc (s : State) : State :=
  if s.flag F.CVN_SH_ADDR_INC then s.put F.CVN_SH_ADDR_INDEX ((s.get F.CVN_SH_ADDR_INDEX + 1) % 16384) else s

/-- What an unwritten word of the share RAM holds. -/
def shareDefault (_ : Nat) : Word := 0

/-- A read of CVN_SH_DATA: 0 in a slave. -/
def State.shDataRead (s : State) : Word × State :=
  (if s.flag F.CVN_CFG_MASTER then sparseGet shareDefault s.cvn.share (s.get F.CVN_SH_ADDR_INDEX) else 0, s.shareInc)

/-- A write of CVN_SH_DATA: discarded in a slave. -/
def State.shDataWrite (s : State) (v : Word) : State :=
  (if s.flag F.CVN_CFG_MASTER then
    { s with cvn := { s.cvn with share := sparseSet shareDefault s.cvn.share (s.get F.CVN_SH_ADDR_INDEX) v } }
   else s).shareInc

/-- CVN_SH_DATA_ACCESS (R396): a read, or a write of a word. -/
def execCvnShDataAccess (i : Initiator) (write : Option Word) (s : State) : Host.Outcome State Fault Refusal :=
  .next (match write with
    | some v => s.portWrite i A.CVN_SH_DATA fun s => s.shDataWrite v
    | none => s.portRead i A.CVN_SH_DATA State.shDataRead)

/-- CVN_RING reads 0 in a slave. -/
def State.ringView (s : State) : Word := if s.flag F.CVN_CFG_MASTER then s.reg A.CVN_RING else 0

end Sys2Proof.Machine
end

