-- ==== Sys2Proof/Machine/Raster.lean ====
section
/-!
DEFINITION. The raster's own events: its start, the start of every line, the commit instant, the end of a
frame, and the following of the host's cadence (R32, R48, R52-R65, R513).
-/

namespace Sys2Proof.Machine

/-! ### The end and the start of a line -/

/-- A line that begins has had none of what happens once in a line, nor has any band its deadline behind it in it (R56,
R450). -/
def State.lineFresh (s : State) : State :=
  { s with
    lmc := { s.lmc with sliced := false }
    cmp := { s.cmp with late := [] }
    ary := { s.ary with isetServed := false }
    hlt := { s.hlt with sensed := false, readBack := false } }

/-- The line runs to its end: what its slots still owed is done, and the counters of the next line start afresh. -/
def State.lineOver (s : State) : State :=
  let s0 := s.deadlineOver
  let s1 := if s0.ary.loadDue then s0.loadDisplay [] else s0
  let s2 := (s1.limiterRaise.runTo (16 * s.nSlots)).mskLine.lpeLine s.nSlots
  { s2 with ras := { s2.ras with slot := 0, cyc := 0, lineEnd := false } }.lineFresh

/-- Columns whose pre-charge tap fails parity use tap 8 until it is rewritten (R192). -/
def State.tapUpsets (s : State) (cols : List Nat) : State :=
  { s with ary := { s.ary with tapBad := cols.foldl (fun l x => insertRow x l) s.ary.tapBad } }

/-- LINE_MATCH (R64). -/
def State.lineMatch (s : State) : State :=
  if s.get F.RAS_LINE_MATCH_LINE = s.ras.line then s.irq Irq.lineMatch else s

/-- The frame sync pulse begins with line 0 and ends with line WIDTH (R65). -/
def State.fsyncLine (s : State) : State :=
  let w := s.get F.RAS_FSYNC_WIDTH
  if s.ras.line = 0 then { s with ras := { s.ras with fsync := w != 0 } }
  else if s.ras.line = w then { s with ras := { s.ras with fsync := false } }
  else s

/-- The actions of the first cycle of a line: the line-start pulse, the value write of its row, the crest up to the row
after it, the row whose processing begins, the calibration window (R32, R42, R56, R165, R180). -/
def State.lineBegin (s : State) (u : LineUpsets) : State :=
  let s0 := { s with ras := { s.ras with lineServed := true } }.tapUpsets u.taps
  let s1 := s0.linePulse.rowValueWrite
  let s2 := (if s1.crestLine.isSome then s1.crestDeliver else s1).lumLine u.gain u.map
  (s2.lineMatch.fsyncLine.thmLine).calLine

/-- LINE_START: line 0 of a frame that has begun, or the line after the present one (R32). -/
def execLineStart (upsets : LineUpsets) (s : State) : Host.Outcome State Fault Refusal :=
  .next (if s.coreRun && s.ras.running && !s.ras.lineServed then s.lineBegin upsets
    else if s.lineOn && decide (s.ras.line + 1 < s.frameLines) then
      let s1 := s.lineOver
      ({ s1 with ras := { s1.ras with line := s.ras.line + 1 } }).lineBegin upsets
    else s)

/-! ### FOLLOW (R52-R54) -/

/-- FOLLOW_TIMEOUT.TIMEOUT as used: 0 means 256. -/
def State.followTimeout (s : State) : Nat :=
  if s.get F.RAS_FOLLOW_TIMEOUT = 0 then 256 else s.get F.RAS_FOLLOW_TIMEOUT

/-- The error of a cadence event at line `l` of a frame of 512 + `v` lines (R53). -/
def cadenceError (target l v : Nat) : Int :=
  let t := 512 + v
  let d := (l + t - min target (511 + v)) % t
  if t ≤ 2 * d then (d : Int) - (t : Int) else (d : Int)

/-- Code of d in RAS_FOLLOW_ERR.TRIM. -/
def trimCode (d : Int) : Nat := if d = 1 then 1 else if d = -1 then 3 else 0

/-- A follow window without a cadence event (R53, R54). -/
def State.windowMissed (s : State) : State :=
  let n := s.ras.missRun + 1
  let s1 := s.inc F.RAS_FOLLOW_CNT_MISSED
  { s1 with ras := { s1.ras with
      missRun := min n 65536, inRun := 0, outRun := 0
      missDue := s1.ras.missDue || (decide (s.followTimeout ≤ n) && !s1.ras.missReported)
      missReported := s1.ras.missReported || decide (s.followTimeout ≤ n) } }

/-- A follow window with a cadence event: E, the runs of 8 and FOLLOW_LOCK (R53, R54). -/
def State.windowHit (s : State) (e : Int) : State :=
  let inside := decide (e.natAbs ≤ s.get F.RAS_FOLLOW_DB)
  let nIn := if inside then min (s.ras.inRun + 1) 8 else 0
  let nOut := if inside then 0 else min (s.ras.outRun + 1) 8
  let s1 := s.put F.RAS_FOLLOW_ERR_E (ofSigned 12 e)
  let s2 := if nIn = 8 then s1.put F.RAS_STATUS_FOLLOW_LOCK 1
    else if nOut = 8 then s1.put F.RAS_STATUS_FOLLOW_LOCK 0 else s1
  { s2 with ras := { s2.ras with inRun := nIn, outRun := nOut, missRun := 0, missReported := false, missDue := false } }

/-- FOLLOW_DECISION: the window that ends is judged, and the blanking of the frame is VB + d (R53).  A RETIME hold that
begins in this cycle makes d = 0 and opens no new window; the window that ends is measured and counted as any (R61).
DESIGN CHOICE (log entry 19): a frame before the first follow window has d = 0. -/
def State.followDecision (s : State) (hold : Bool) : State :=
  let vb := s.get F.RAS_ACT_TIMING_VB
  let follow := s.get F.RAS_ACT_MODE_MODE == RasMode.follow
  let s0 := { s with ras := { s.ras with window := follow && !hold, winEv := none } }
  if !follow then s0.put F.RAS_STATUS_CUR_VB vb
  else if !s.ras.window then (s0.put F.RAS_FOLLOW_ERR_TRIM 0).put F.RAS_STATUS_CUR_VB vb
  else
    match s.ras.winEv with
    | none => (s0.windowMissed.put F.RAS_FOLLOW_ERR_TRIM 0).put F.RAS_STATUS_CUR_VB vb
    | some (l, v) =>
      let e := cadenceError (s.get F.RAS_FOLLOW_LINE) l v
      let db : Int := s.get F.RAS_FOLLOW_DB
      let d : Int := if hold then 0 else if db < e then 1 else if e < -db then -1 else 0
      ((s0.windowHit e).put F.RAS_FOLLOW_ERR_TRIM (trimCode d)).put F.RAS_STATUS_CUR_VB ((vb : Int) + d).toNat

/-- FOLLOW_TIMEOUT: TIMEOUT windows without a cadence event, reported once per run (R54). -/
def execFollowTimeout (s : State) : Host.Outcome State Fault Refusal :=
  .next (if s.coreRun && s.ras.missDue then
    let s1 := ((s.put F.RAS_STATUS_FOLLOW_LOCK 0).irq Irq.hostTimeout).raise Code.RAS_FOLLOW_LOST 0
    { s1 with ras := { s1.ras with missDue := false } }
  else s)

/-- GPIO3_RISING_EDGE: a cadence event, or a wake event in DORMANT (R52, R431). -/
def execGpio3RisingEdge (s : State) : Host.Outcome State Fault Refusal :=
  .next (if !s.gpio3Aux then s else (s.cadence 1).wakeEvent 4)

/-! ### The commit instant (R34, R64) -/

/-- A commit has been taken between two states of one instant. -/
def State.takenSince (s before : State) : Bool :=
  before.get F.GLB_COMMIT_STATUS_STATE != 0 && s.get F.GLB_COMMIT_STATUS_STATE == 0 &&
    s.get F.GLB_COMMIT_STATUS_LAST == 1

/-- Signatures, the commit, and what a taken commit applies (R125, R198, R224, R407); a slave that resynchronises resolves
nothing before its new raster's first instant (R376). -/
def State.commitInstant (s : State) : State :=
  let s1 := s.signatureLatch
  if s.resyncHold then s1 else
  let s2 := s1.commitResolve
  let taken := s2.takenSince s1
  let s3 := if taken then s2.dacApply else s2
  s3.rsInstant taken

/-- A RETIME that is due at this instant (R59). -/
def State.holdDue (s : State) : Bool :=
  s.ras.pend.isSome && s.reg A.RAS_RETIME_FRAME == s.ras.frame + 1

/-- The commit instant (R34, R53, R59, R64, R178, R369, R377).  DESIGN CHOICE (log entry 106): the swap of a RESTRUCTURE comes
before the signature latch, which R224 orders before a commit transfer only. -/
def State.startOfBlank (s : State) : State :=
  let s1 := if s.rsDue then s.rsSwap else s
  let s2 := s1.commitInstant.lumBlank.crestInstant
  let hold := s2.holdDue
  let s3 := s2.followDecision hold
  let s4 := if hold then s3.put F.RAS_STATUS_RUN RasRun.hold else s3
  let s5 := { s4 with
    ras := { s4.ras with blankServed := true }
    cvn := { s4.cvn with gotEpoch := false, missServed := false } }
  s5.epochSend.irq Irq.startOfBlank

/-- START_OF_BLANK (R64). -/
def execStartOfBlank (s : State) : Host.Outcome State Fault Refusal :=
  .next (if s.blankDue then s.startOfBlank else s)

/-! ### The start of a frame -/

/-- The PWM accumulator under a new D_PWM (R60). -/
def State.pwmClamp (s : State) : State :=
  if s.dPwm ≤ s.ras.pwmA then { s with ras := { s.ras with pwmA := s.dPwm - 1 } } else s

/-- A new timing takes effect (R59, R60). -/
def State.newTiming (s : State) (t : Retime) : State := (s.setTiming t).pwmClamp

/-- The loop bank of a slave whose timing changes: the inactive bank if it qualifies, else the active bank by its
rate, else the rail is switched off (R378). -/
def State.slaveBank (s : State) (n : Nat) : State :=
  let m := s.bankMsw s.actBank
  if s.bankFits (1 - s.actBank) n then s.swapBanks
  else if 800000 * n ≤ 25000000 * m ∧ 25000000 * m ≤ 2500000 * n then s
  else ((s.put F.LPE_CTRL_RAIL_EN 0).railDisable).raise Code.CVN_SLAVE_BANK 0

/-- A RETIME that has been held takes effect (R59, R61).  DESIGN CHOICE (log entry 69): the run of empty follow windows
of R54, and whether it has been reported, go on across a RETIME, one through FREE included. -/
def State.retimeTake (s : State) (t : Retime) : State :=
  let s1 := ((s.newTiming t).swapBanks.put F.RAS_RETIME_STATUS_RESULT 2).put F.RAS_STATUS_RUN RasRun.running
  ({ s1 with ras := { s1.ras with pend := none, window := false, winEv := none } }).thmRetimeDone t

/-- The timing that a slave took from an epoch takes effect (R374). -/
def State.slaveTake (s : State) (n : Nat × Nat × Nat) : State :=
  let t := { s.actTiming with nSlots := n.1, vb := n.2.1, k := n.2.2 }
  let s1 := (s.vbNote n.2.1).newTiming t
  let s2 := if n.1 = s.nSlots then s1 else s1.slaveBank n.1
  ({ s2 with cvn := { s2.cvn with nx := none } }).put F.RAS_STATUS_RUN RasRun.running

/-- The actions of the first cycle of a frame in ARY, LUM and LPE; LF_min and Q_peak begin with it, also where it begins
early (R172, R178, R194, R254, R376). -/
def State.frameBegin (s : State) : State :=
  let s1 := { s with lum := { s.lum with fillStop := false, lfMin := 65535, qPeak := 0, qPeakEff := 0 } }
  (s1.enginesLoad.put F.ARY_STATUS_LOCK_OK 1).fanLoop

/-- The timing that a frame boundary brings into force. -/
def State.frameTiming (s : State) : State :=
  match s.ras.pend, s.cvn.nx with
  | some t, _ => if s.holdLines then s.retimeTake t else s
  | none, some n => s.slaveTake n
  | none, none => s

/-- The frame ends and the next begins, with the tach edges counted in it (R64). -/
def State.frameDone (s : State) (edges : Nat) : State :=
  let s1 := s.lineOver.tachFrame edges
  let s2 := { s1 with ras := { s1.ras with
    frame := s1.ras.frame + 1, line := 0, lineServed := false, blankServed := false, leadIn := false } }
  let s3 := s2.frameTiming
  let s4 := ({ s3 with lpe := { s3.lpe with fanFirst := false } }).frameBegin
  s4.irq Irq.frameDone

/-- FRAME_DONE: unless PWR stops the raster in the last cycle (R64, R428). -/
def execFrameDone (tachEdges : Nat) (s : State) : Host.Outcome State Fault Refusal :=
  .next (if s.frameEnd && decide (512 ≤ s.ras.line) && s.step? != PwStep.s1 then s.frameDone tachEdges else s)

/-! ### The start of the raster (R62, R513) -/

/-- The position, counters and flags of the first cycle of frame `f`: its line 0 has had none of what happens once in a line
(R513). -/
def State.framePosition (s : State) (f : Word) (c a : Nat) (lead : Bool) : State :=
  { s.lineFresh with
    ras := { s.ras with
      frame := f, line := 0, slot := 0, cyc := 0, lineEnd := false, lineServed := false, blankServed := false
      pwmC := c, pwmA := a, everStarted := true, running := true, leadIn := lead, window := false, winEv := none }
    msk := { s.msk with epochServed := false } }

/-- The loop bank at a start (R62); a slave with none switches its rail off (R378). -/
def State.startBank (s : State) (slave : Bool) (n : Nat) : State :=
  if s.bankFits s.actBank n then s
  else if s.bankFits (1 - s.actBank) n then s.swapBanks
  else if slave then ((s.put F.LPE_CTRL_RAIL_EN 0).railDisable).raise Code.CVN_SLAVE_BANK 0
  else s

/-- The raster starts with timing `t` at frame `f`. -/
def State.rasterBegin (s : State) (t : Retime) (f : Word) (c a : Nat) : State :=
  let slave := t.mode == RasMode.slave
  let s1 := ((s.framePosition f c a true).newTiming t).startBank slave t.nSlots
  let s2 := (s1.put F.RAS_RETIME_STATUS_RESULT 2).put F.RAS_STATUS_RUN RasRun.running
  let s3 := { s2 with ras := { s2.ras with pend := none }, thm := { s2.thm with vbBefore := none }, cvn := { s2.cvn with load := none, nx := none },
                      cal := { s2.cal with pcStarted := s2.cal.pcArm } }
  let s4 := ((s3.watchdogArm.lpeStart.frameBegin).sourceSample).thmRetimeDone t
  let s5 := s4.safRefresh.commitRetarget
  if s5.step? = PwStep.l2 then s5.litEnter else s5

/-- RASTER_START: the 64th cycle after an accepted start, or at a slave the master's frame start that the first epoch
gave (R62, R374). -/
def execRasterStart (s : State) : Host.Outcome State Fault Refusal :=
  .next (if !s.coreRun || s.ras.running then s
    else
      match s.ras.pend with
      | none => s
      | some t =>
        if t.mode = RasMode.slave then
          match s.cvn.load with
          | none => s
          | some l => s.rasterBegin { t with nSlots := l.nSlots, vb := l.vb, k := l.k } l.frame l.c l.a
        else s.rasterBegin t (s.reg A.RAS_RETIME_FRAME) 0 0)

end Sys2Proof.Machine
end

