-- ==== Sys2Proof/Machine/Chain.lean ====
section
/-!
DEFINITION. The slave's raster under the master's epochs (R373-R378) and the tandem interlock (R387-R391).
-/

namespace Sys2Proof.Machine

/-! ### Epochs (R368, R373-R376) -/

/-- The checks of R368 on an EPOCH header whose CRC passes: codes 1 to 4 of R58 on its N_SLOTS, VB and K, and SH_LEN; the
timing that it announces (NX) is not judged. -/
def epochValid (h : EpochFrame) : Bool :=
  timingCode false h.nSlots h.vb h.k == 0 && decide (h.shLen ≤ 16)

/-- Cycles by which this module's marks come after the master's (R373). -/
def State.hopDelay (s : State) : Nat := s.get F.CVN_STATUS_POS * (3 * s.bitCycles / 2 + s.get F.CVN_CFG_HOP_W)

/-- The master at its first frame start more than `r` cycles after the frame start `l`, each frame under the timing of `l`
(R373). -/
def startAfter : Nat → EpochLoad → Nat → EpochLoad
  | 0, l, _ => l
  | n + 1, l, r =>
    let len := 16 * l.nSlots * (512 + l.vb)
    let p := pwmAfter (16 * l.nSlots * l.k) len l.c l.a
    let next : EpochLoad := { l with frame := l.frame + 1, c := p.1, a := p.2 }
    if r < len then next else startAfter n next (r - len)

/-- Frame, counter and accumulator of the master `e` cycles after (f, 512, 0, 0), at its next frame start: under
CUR_VB up to f + 1, under NX from there (R373, R374).  The largest delay of a chain is shorter than eight frames. -/
def nextStart (h : EpochFrame) (e : Nat) : EpochLoad :=
  let nd := 16 * h.nxNSlots * h.nxK
  let blank := 16 * h.nSlots * h.curVb
  let p := pwmAfter (16 * h.nSlots * h.k) blank h.c h.a
  let first : EpochLoad := {
    frame := h.frame + 1, nSlots := h.nxNSlots, vb := h.nxVb, k := h.nxK
    c := p.1, a := if nd ≤ p.2 then nd - 1 else p.2 }
  if e < blank then first else startAfter 8 first (e - blank)

/-- The epoch cycle on the master's clock, in cycles since (f, 512, 0, 0). -/
def State.epochElapsed (s : State) : Nat := s.hopDelay + s.headerCycles

/-- The slave's own position in cycles since its (f, 512, 0, 0), with frames after f of the timing in force; far away before
frame f. -/
def State.ownElapsed (s : State) (f : Word) : Int :=
  let n : Int := 16 * s.nSlots
  let fromBlank : Int := ((s.ras.line : Int) - 512) * n + s.lineCycle
  if s.ras.frame = f then fromBlank
  else if frameLater f s.ras.frame then
    fromBlank + (512 + s.curVb : Nat) * n +
      (((s.ras.frame - f).toNat - 1) * (512 + s.get F.RAS_ACT_TIMING_VB) : Nat) * n
  else -(2 ^ 40)

/-- The own position with the frames after f counted from where the master's frame f + 1 begins. -/
def State.ownAligned (s : State) (h : EpochFrame) (e : Int) : Int :=
  let own : Int := 16 * s.nSlots * s.curVb
  let n : Int := 16 * h.nSlots * h.curVb
  if frameLater h.frame s.ras.frame ∧ own ≤ e then e - own + n else e

/-- The slave's raster agrees with the epoch: its position at the mark within 2 cycles, and N_SLOTS, VB and K (R374). -/
def State.epochAgrees (s : State) (h : EpochFrame) : Bool :=
  let own := s.ownAligned h (s.ownElapsed h.frame - s.headerCycles)
  let d := own - s.hopDelay
  decide (-2 ≤ d) && decide (d ≤ 2) && h.nSlots == s.nSlots && h.vb == s.get F.RAS_ACT_TIMING_VB &&
    h.k == s.get F.RAS_ACT_PWM_K

/-- The epoch is on time (R375). -/
def State.epochOnTime (s : State) (h : EpochFrame) : Bool :=
  decide (s.ownElapsed h.frame ≤ ((s.get F.RAS_ACT_TIMING_VB : Int) - 2) * (16 * s.nSlots : Nat))

/-- The epoch announces no change (R375). -/
def State.epochSame (s : State) (h : EpochFrame) : Bool :=
  h.curVb == h.vb && h.nxNSlots == s.nSlots && h.nxVb == s.get F.RAS_ACT_TIMING_VB && h.nxK == s.get F.RAS_ACT_PWM_K

/-- The slave resynchronises: it holds until the master's next frame start (R376).  A late epoch is no on-time one for its
frame, so it ends no run of frames without one (R377). -/
def State.resync (s : State) (h : EpochFrame) (late : Bool) : State :=
  let s1 := ((((s.put F.RAS_STATUS_RUN RasRun.hold).put F.RAS_STATUS_FLYWHEEL 0).inc F.CVN_CNT_RESYNC).raise
    Code.CVN_RESYNC h.epoch).irq Irq.caravan
  let s2 := { s1 with cvn := { s1.cvn with load := some (nextStart h s.epochElapsed), nx := none } }
  if late then s2
  else { s2 with cvn := { s2.cvn with gotEpoch := true, flyRun := 0, lostReported := false } }

/-- An on-time epoch that agrees: CUR_VB for frame f and the NX timing from f + 1 on; a change is met in hold lines
(R59, R374). -/
def State.epochTake (s : State) (h : EpochFrame) : State :=
  let s1 := (s.put F.RAS_STATUS_FLYWHEEL 0).put F.RAS_STATUS_CUR_VB h.curVb
  let change := h.nxNSlots != s.nSlots || h.nxVb != s.get F.RAS_ACT_TIMING_VB || h.nxK != s.get F.RAS_ACT_PWM_K
  let s2 := if change then s1.put F.RAS_STATUS_RUN RasRun.hold else s1
  { s2 with cvn := { s2.cvn with
      nx := if change then some (h.nxNSlots, h.nxVb, h.nxK) else none, gotEpoch := true, flyRun := 0, lostReported := false } }

/-- A running slave meets a valid epoch (R374-R376). -/
def State.epochRunning (s : State) (h : EpochFrame) : State :=
  let late := !s.epochOnTime h
  let s1 := s.putB F.CVN_STATUS_LATE late
  let agrees := s.epochAgrees h
  if late then
    if agrees && s.epochSame h then s1 else (s1.raise Code.CVN_EPOCH_LATE h.epoch).resync h true
  else if agrees then s1.epochTake h
  else s1.resync h false

/-- A slave that is armed starts at the master's next frame start (R62, R374). -/
def State.epochArm (s : State) (h : EpochFrame) : State :=
  let l := nextStart h s.epochElapsed
  { s.setReg A.RAS_RETIME_FRAME l.frame with cvn := { s.cvn with load := some l } }

/-- The slave is armed: a starting RETIME is pending and its position is valid. -/
def State.slaveArmed (s : State) : Bool :=
  !s.ras.running && (s.ras.pend.any fun t => t.mode == RasMode.slave) && s.flag F.CVN_STATUS_POS_VALID

/-- EPOCH_FRAME_RECEIVED: the epoch cycle of a frame at a slave, which falls `cyc` cycles into its own line; whether the
header's CRC passes, and the code errors of the frame up to that cycle: a frame with one is not applied (R368, R374,
R384). -/
def execEpochFrameReceived (h : EpochFrame) (crcOk : Bool) (codeErrors cyc : Nat) (s : State) :
    Host.Outcome State Fault Refusal :=
  .next (if s.cvnSlave then
    let good := crcOk && epochValid h
    let bad := codeErrors + b2n (!good)
    let s0 := { s with cvn := { s.cvn with codeSeen := bad != 0 } }
    let s1 := s0.cvnCode bad h.epoch
    if bad != 0 then { s1 with cvn := { s1.cvn with shLen := 0 } }
    else
      let s2 := { s1.put F.CVN_EPOCH_EPOCH h.epoch with cvn := { s1.cvn with shLen := h.shLen } }
      if s2.slaveArmed then s2.epochArm h
      else if s2.lineOn && s2.slaveRaster && s2.flag F.CVN_STATUS_POS_VALID then
        (s2.runTo (min cyc (16 * s2.nSlots - 1))).epochRunning h
      else s2
  else s)

/-- EPOCH_MISSING: (f, 510 + VB, 0) is reached without an on-time valid epoch for frame f: the frame ends with VB
(R377). -/
def execEpochMissing (s : State) : Host.Outcome State Fault Refusal :=
  .next (if s.lineOn && s.slaveRaster && s.ras.line == 510 + s.get F.RAS_ACT_TIMING_VB && s.ras.blankServed &&
      !s.cvn.gotEpoch && !s.cvn.missServed then
    let s1 := (s.put F.RAS_STATUS_FLYWHEEL 1).put F.RAS_STATUS_CUR_VB (s.get F.RAS_ACT_TIMING_VB)
    { s1 with cvn := { s1.cvn with missServed := true, flyRun := min (s1.cvn.flyRun + 1) 256 } }
  else s)

/-- EPOCH_LOST: EP_TO consecutive flywheel frames (R377). -/
def execEpochLost (s : State) : Host.Outcome State Fault Refusal :=
  .next (let n := s.get F.CVN_CFG_EP_TO
    if s.coreRun && s.slaveRaster && n != 0 && decide (n ≤ s.cvn.flyRun) && !s.cvn.lostReported then
      let s1 := s.raise Code.CVN_EPOCH_LOST 0
      { s1 with cvn := { s1.cvn with lostReported := true } }
    else s)

/-- The slave's raster takes the position, the frame number, the timing and the counters of the master (R376). -/
def State.resyncLoad (s : State) (l : EpochLoad) : State :=
  let old := s.actTiming
  let t := { old with nSlots := l.nSlots, vb := l.vb, k := l.k }
  let s1 := (((s.lineOver.composeStop.framePosition l.frame l.c l.a false).vbNote l.vb).newTiming t).commitRetarget
  let s2 := if l.nSlots = old.nSlots ∧ l.vb = old.vb ∧ l.k = old.k then s1 else s1.slaveBank l.nSlots
  let s3 := { s2 with cvn := { s2.cvn with load := none, nx := none, gotEpoch := false, missServed := false } }
  (s3.put F.RAS_STATUS_RUN RasRun.running).frameBegin

/-- SLAVE_RESYNC_LOAD: the master's next frame start (R376). -/
def execSlaveResyncLoad (s : State) : Host.Outcome State Fault Refusal :=
  .next (match s.cvn.load with
    | some l => if s.coreRun && s.slaveRaster then s.resyncLoad l else s
    | none => s)

/-! ### The tandem interlock (R387-R391) -/

namespace Role
def off : Nat := 0
def active : Nat := 1
def standby : Nat := 2
def claim : Nat := 3
end Role

/-- CVN_TDM_STATUS.ROLE. -/
def State.role (s : State) : Nat := s.get F.CVN_TDM_STATUS_ROLE

/-- CVN_TDM_CFG.ABD_CLASS as used: 0 and 1 as 2, 5 to 7 as 4 (R396). -/
def State.abdClass (s : State) : Nat := min 4 (max 2 (s.get F.CVN_TDM_CFG_ABD_CLASS))

/-- The module is FAULTED (R389). -/
def State.faulted (s : State) : Bool :=
  s.safState == Isl.init || s.safState == Isl.dim || s.safState == Isl.removed || !s.ras.running ||
  !s.flag F.LPE_STATUS_IN_REG || (s.flt.recs.any fun e => e.2.latched && decide (s.abdClass ≤ e.2.eff)) ||
  s.tdm.outBad || s.flag F.CVN_TDM_STATUS_CONFLICT_HELD

/-- CVN_TDM_STATUS with FAULTED as it stands. -/
def State.tdmView (s : State) : Word :=
  wordPut (s.reg A.CVN_TDM_STATUS) F.CVN_TDM_STATUS_FAULTED.hi F.CVN_TDM_STATUS_FAULTED.lo (b2n s.faulted)

/-- The interlock runs: the island's clock runs, and CVN is out of reset. -/
def State.tdmOn (s : State) : Bool := s.safOn && s.aonOn

/-- The role changes; the standby hold is asserted in STANDBY and CLAIM (R389, R390). -/
def State.setRole (s : State) (r : Nat) : State :=
  (((s.put F.CVN_TDM_STATUS_ROLE r).putB F.CVN_TDM_STATUS_HOLD (r == Role.standby || r == Role.claim)).irq
    Irq.tandem).safRefresh

/-- STANDBY is entered: presence counts from here (R389). -/
def State.standbyEnter (s : State) : State :=
  ({ s with tdm := { s.tdm with seen := false, lossSince := false } }).setRole Role.standby

/-- A conflict: counted and reported, presence is counted again, and the third of the power cycle is held (R389). -/
def State.conflict (s : State) : State :=
  let n := s.tdm.conflicts + 1
  let s1 := (s.inc F.CVN_TDM_CNT_CONFLICTS).raise Code.CVN_TDM_CONFLICT 0
  let s2 := if n = 3 then s1.put F.CVN_TDM_STATUS_CONFLICT_HELD 1 else s1
  { s2.put F.CVN_TDM_STATUS_PRESENCE 0 with tdm := { s2.tdm with conflicts := n, edges := 0 } }.standbyEnter

/-- Presence is reached (R388, R389, R391). -/
def State.presence (s : State) : State :=
  let s1 := { s.put F.CVN_TDM_STATUS_PRESENCE 1 with tdm := { s.tdm with seen := true, lossSince := false } }
  if s.role = Role.claim then s1.conflict
  else if s.role = Role.active then (s1.put F.CVN_TDM_STATUS_TDARK 1).conflict
  else s1

/-- TDM_EDGE: an edge on TDM_IN, `gap` island cycles after the previous one.  A heartbeat that goes on across the entry to
a role is presence there too (R388, R389). -/
def execTdmEdge (gap : Nat) (s : State) : Host.Outcome State Fault Refusal :=
  .next (if s.tdmOn then
    let valid := decide (40 ≤ gap) && decide (gap ≤ 60)
    let n := if valid then min (s.tdm.edges + 1) 3 else 0
    let s1 := { s with tdm := { s.tdm with edges := n } }
    if n = 3 && (!s.flag F.CVN_TDM_STATUS_PRESENCE || !s.tdm.seen) then s1.presence else s1
  else s)

/-- CLAIM is entered from STANDBY (R389). -/
def State.claimEnter (s : State) : State := s.setRole Role.claim

/-- TDM_LOSS: 160 island cycles without a valid edge after presence; or, after a loss met while FAULTED, the fault
has gone (R388, R389). -/
def execTdmLoss (s : State) : Host.Outcome State Fault Refusal :=
  .next (if !s.tdmOn then s
    else if s.flag F.CVN_TDM_STATUS_PRESENCE then
      let s1 := (s.put F.CVN_TDM_STATUS_PRESENCE 0).inc F.CVN_TDM_CNT_LOSSES
      let s2 := { s1 with tdm := { s1.tdm with edges := 0 } }
      if s.role != Role.standby then s2
      else if s.faulted then
        let s3 := s2.raise Code.CVN_TDM_NO_TAKEOVER 0
        { s3 with tdm := { s3.tdm with lossSince := true } }
      else s2.claimEnter
    else if s.role == Role.standby && s.tdm.lossSince && !s.faulted then s.claimEnter
    else s)

/-- STANDBY_WAIT_EXPIRY: no presence since the entry to STANDBY for 160 or 10,000 island cycles, by SEAL5 (R389). -/
def execStandbyWaitExpiry (s : State) : Host.Outcome State Fault Refusal :=
  .next (if s.tdmOn && s.role == Role.standby && !s.tdm.seen && !s.faulted then s.claimEnter else s)

/-- CLAIM_TO_ACTIVE: 200 island cycles in CLAIM (R389). -/
def execClaimToActive (s : State) : Host.Outcome State Fault Refusal :=
  .next (if s.tdmOn && s.role == Role.claim then
    ((s.inc F.CVN_TDM_CNT_TAKEOVERS).raise Code.CVN_TDM_TAKEOVER 0).setRole Role.active else s)

/-- ABDICATION: an ACTIVE module that is FAULTED (R389). -/
def execAbdication (s : State) : Host.Outcome State Fault Refusal :=
  .next (if s.tdmOn && s.role == Role.active && s.faulted then s.standbyEnter else s)

/-- TDM_OUT_MISMATCH: the readback of TDM_OUT has been wrong for 10 cycles, or is right again (R388). -/
def execTdmOutMismatch (bad : Bool) (s : State) : Host.Outcome State Fault Refusal :=
  .next (if !s.tdmOn || bad == s.tdm.outBad then s
    else
      let s1 := if bad then s.assertF Code.CVN_TDM_OUT 0 else s.deassertF Code.CVN_TDM_OUT
      { s1 with tdm := { s1.tdm with outBad := bad } })

/-- TANDEM_DARK_END: under the hold, I_ref has been found at 0 for 1,000 island cycles (R391). -/
def execTandemDarkEnd (s : State) : Host.Outcome State Fault Refusal :=
  .next (if s.tdmOn && s.flag F.CVN_TDM_STATUS_TDARK && s.standbyHold then
    (s.put F.CVN_TDM_STATUS_TDARK 0).safRefresh else s)

end Sys2Proof.Machine
end

