-- ==== Sys2Proof/Machine/HostIf.lean ====
section
/-!
DEFINITION. What a read and a write of any register do once the port has let them through, single words of
the address space, the SPI slave, the JTAG port and the interrupt registers (R24-R26, R415-R420, R475-R493).
-/

namespace Sys2Proof.Machine

/-! ### Registers -/

/-- A write of a GLB register. -/
def State.glbWrite (s : State) (i : FaultInfo) (a : Nat) (v : Word) : State :=
  if a = A.GLB_COMMIT then s.commitRequest v i
  else if a = A.GLB_COMMIT_CTRL then s.commitCtrlWrite v
  else s.regWrite a v

/-- GLB_STATE as its sources stand (R489). -/
def State.glbStateView (s : State) : Word :=
  let w1 := wordPut (wordPut 0 31 20 s.ownId) 18 16 s.safState
  let w2 := wordPut (wordPut w1 13 12 s.role) 8 8 (b2n (s.flag F.CVN_CFG_MASTER))
  wordPut (wordPut w2 6 4 (s.get F.CFG_LC_STATE)) 2 0 s.power

/-- GLB_POS (R63, R489). -/
def State.glbPosView (s : State) : Word := wordPut (wordPut 0 26 16 s.ras.line) 11 0 s.ras.slot

/-- A read of a GLB register. -/
def State.glbRead (s : State) (a : Nat) : Word × State :=
  if a = A.GLB_STATE then (s.glbStateView, s)
  else if a = A.GLB_POS then (s.glbPosView, s)
  else if a = A.GLB_FRAME then (s.ras.frame, s)
  else (s.regView a, s.readClear a)

/-- A write of a SAF register reaches the island through the bridge (R23, R276, R303). -/
def State.safWrite (s : State) (a : Nat) (v : Word) : State :=
  if a = A.SAF_CMD then s.safCommand v
  else if safetyRegs.contains a then s.safConfig a v
  else if s.saf.held then s
  else s.regWrite a v

/-- A write of an LNK register. -/
def State.lnkWrite (s : State) (i : Initiator) (a : Nat) (v : Word) : State :=
  if a = A.LNK_U_CTRL then s.lnkCtrlWrite false v
  else if a = A.LNK_D_CTRL then s.lnkCtrlWrite true v
  else if a = A.LNK_INJECT then s.linkInject i s.mayInject v
  else if a = A.LNK_MSG then (s.regWrite a v).msgOff
  else s.regWrite a v

/-- A write of a CVN register. -/
def State.cvnWrite (s : State) (a : Nat) (v : Word) : State :=
  if a = A.CVN_CTRL then s.cvnCtrlWrite v
  else if a = A.CVN_SH_DATA then s.shDataWrite v
  else s.regWrite a v

/-- A read of a CVN register. -/
def State.cvnRead (s : State) (a : Nat) : Word × State :=
  if a = A.CVN_SH_DATA then s.shDataRead
  else if a = A.CVN_RING then (s.ringView, s)
  else if a = A.CVN_TDM_STATUS then (s.tdmView, s)
  else (s.regView a, s.readClear a)

/-- A write of a CFG register: a token is kept as written, to be compared at START (R417). -/
def State.cfgWrite (s : State) (a : Nat) (v : Word) : State :=
  if a = A.CFG_IMG then s.imgWrite v
  else if A.CFG_KEYn 0 ≤ a ∧ a ≤ A.CFG_KEYn 7 then s.keyWrite ((a - A.CFG_KEYn 0) / 4) v
  else if a = A.CFG_TOKEN0 ∨ a = A.CFG_TOKEN1 then s.setReg a v
  else s.regWrite a v

/-- A read of a CFG register. -/
def State.cfgRead (s : State) (a : Nat) : Word × State :=
  if a = A.CFG_NVM_STATUS then
    (wordPut (s.reg a) F.CFG_NVM_STATUS_WAIT_TEMP.hi F.CFG_NVM_STATUS_WAIT_TEMP.lo (b2n s.nvWaits), s)
  else (s.regView a, s.readClear a)

/-- A write of a PWR register. -/
def State.pwrWrite (s : State) (a : Nat) (v : Word) : State :=
  if a = A.PWR_REQ then s.powerRequest (wordGet v 2 0)
  else if A.PWR_JOBn_CMD 0 ≤ a ∧ a ≤ A.PWR_JOBn_CMD 3 ∧ a % 16 = 0 then s.jobCmdWrite ((a - A.PWR_JOBn_CMD 0) / 16) v
  else s.regWrite a v

/-- A register write that has been let through. -/
def State.hostWrite (s : State) (i : Initiator) (a : Nat) (v : Word) : State :=
  let info : FaultInfo := { init := initNo i, access := writeKind i, addr := 0 }
  match window a with
  | 0 => s.glbWrite info a v
  | 11 => s.safWrite a v
  | 12 => s.fltWrite i a v
  | 13 => s.lnkWrite i a v
  | 14 => s.cvnWrite a v
  | 15 => s.cfgWrite a v
  | 16 => s.pwrWrite a v
  | _ => s.coreWrite info a v

/-- A register read that has been let through: its value and its side effect. -/
def State.hostRead (s : State) (i : Initiator) (a : Nat) : Word × State :=
  match window a with
  | 0 => s.glbRead a
  | 11 => (s.regView a, s.readClear a)
  | 12 => (s.fltRead a, s.readClear a)
  | 13 => (s.regView a, s.readClear a)
  | 14 => s.cvnRead a
  | 15 => s.cfgRead a
  | 16 => (s.regView a, s.readClear a)
  | _ => s.coreRead { init := initNo i, access := readKind i, addr := a } a

/-! ### Single words of the address space (R24, R485) -/

/-- First byte address past the register region. -/
def regEnd : Nat := 0x15000

/-- The region of R484 that holds an address: 0 registers, 1 layer memory, 2 non-volatile, 3 none. -/
def regionOf (a : Nat) : Nat :=
  if a < regEnd then 0
  else if layerBase ≤ a && a < layerEnd then 1
  else if nvmBase ≤ a && a < nvmEnd then 2
  else 3

/-- The decision of R485 on a byte of layer memory. -/
def State.layerGate (s : State) (a : Nat) (write : Bool) : Nat :=
  if !s.tileOn (tileOf a) then Res.off
  else if s.power == Power.boot || s.post then Res.busy
  else if s.frozen && write then Res.ro
  else Res.ok

/-- A read of layer memory waits for a seal of its tiles; a frozen read has no side effect (R75, R485). -/
def State.readAfterSeal (s : State) (ts : List Nat) : State := if s.frozen then s else s.afterSeal ts

/-- A word of layer memory is read. -/
def State.layerRead (s : State) (i : Initiator) (a : Nat) : State :=
  let s1 := s.readAfterSeal [tileOf a]
  let r := s1.layerGate a false
  if r = Res.ok then s1.answer (BitVec.ofNat 32 (leNat (s1.lmBytes a 4))) r
  else (s1.accRecord (initNo i) r false a).answer 0 r

/-- A word of layer memory is written (R74, R81, R86). -/
def State.layerWrite (s : State) (i : Initiator) (a : Nat) (v : Word) : State :=
  let r := s.layerGate a true
  if r = Res.ok then
    if s.tileLocked (tileOf a) then ((s.lockedWrite i a).accRecord (initNo i) Res.locked true a).answer 0 Res.locked
    else (s.memStore a (leBytes v) { init := initNo i, access := writeKind i, addr := a }).answer 0 Res.ok
  else
    let s1 := if r = Res.off then s.offBlock i a else s
    (s1.accRecord (initNo i) r true a).answer 0 r

/-- A word at any address is read: JTAG does not reach layer memory (R24, R419). -/
def State.wordRead (s : State) (i : Initiator) (a : Nat) : State :=
  if a % 4 ≠ 0 then (s.accRecord (initNo i) Res.align false a).answer 0 Res.align
  else if a < regEnd then s.portRead i a (fun s => s.hostRead i a)
  else if regionOf a = 1 ∧ i ≠ .jtag then s.layerRead i a
  else if regionOf a = 2 then s.answer (s.nvWord a) Res.ok
  else (s.accRecord (initNo i) Res.range false a).answer 0 Res.range

/-- A word at any address is written: the non-volatile window is read only (R25). -/
def State.wordWrite (s : State) (i : Initiator) (a : Nat) (v : Word) : State :=
  if a % 4 ≠ 0 then (s.accRecord (initNo i) Res.align true a).answer 0 Res.align
  else if a < regEnd then (s.sealInPost i a v).portWrite i a (fun s => s.hostWrite i a v)
  else if regionOf a = 1 ∧ i ≠ .jtag then s.layerWrite i a v
  else if regionOf a = 2 then (s.accRecord (initNo i) Res.ro true a).answer 0 Res.ro
  else (s.accRecord (initNo i) Res.range true a).answer 0 Res.range

/-- What a sequence of accesses has answered: the first RESULT that is not OK, its index, the words read, newest
first. -/
structure RunAnswer where
  result : Nat := 0
  index : Nat := 0
  words : List Word := []

/-- The answer of one more access joins those before it. -/
def RunAnswer.join (r : RunAnswer) (n : Nat) (p : PortAnswer) : RunAnswer :=
  let w := p.value :: r.words
  if r.result = 0 ∧ p.result ≠ 0 then { result := p.result, index := n, words := w } else { r with words := w }

/-- Words at the addresses are read one after the other (R485, R486). -/
def State.readRun (s : State) (i : Initiator) : Nat → List Nat → RunAnswer → RunAnswer × State
  | _, [], r => (r, s)
  | n, a :: t, r => let s1 := s.wordRead i a; s1.readRun i (n + 1) t (r.join n s1.port)

/-- Words are written one after the other: the first RESULT that is not OK, and its index. -/
def State.writeRun (s : State) (i : Initiator) : Nat → List (Nat × Word) → RunAnswer → RunAnswer × State
  | _, [], r => (r, s)
  | n, p :: t, r => let s1 := s.wordWrite i p.1 p.2; s1.writeRun i (n + 1) t (r.join n s1.port)

/-! ### Register commands -/

/-- REGISTER_WRITE (R14, R485). -/
def execRegisterWrite (i : Initiator) (a : BitVec 17) (v : Word) (s : State) : Host.Outcome State Fault Refusal :=
  .next (if a.toNat % 4 = 0 ∧ a.toNat < regEnd then s.wordWrite i a.toNat v else s)

/-- READ_CLEAR_REGISTER: a read of a register through the port (R14). -/
def execReadClearRegister (i : Initiator) (a : BitVec 17) (s : State) : Host.Outcome State Fault Refusal :=
  .next (if a.toNat % 4 = 0 ∧ a.toNat < regEnd then s.wordRead i a.toNat else s)

/-- IRQ_STATUS_CLEAR (R491). -/
def execIrqStatusClear (i : Initiator) (v : Word) (s : State) : Host.Outcome State Fault Refusal :=
  .next (s.portWrite i A.GLB_IRQ_STATUS fun s => s.regWrite A.GLB_IRQ_STATUS v)

/-- IRQ_RAW_READ (R491). -/
def execIrqRawRead (i : Initiator) (s : State) : Host.Outcome State Fault Refusal :=
  .next (s.portRead i A.GLB_IRQ_RAW fun s => (s.regView A.GLB_IRQ_RAW, s.readClear A.GLB_IRQ_RAW))

/-! ### The SPI slave (R475-R485) -/

/-- The status byte at the falling edge of SPI_CS_N (R480). -/
def State.spiByte (s : State) : Byte :=
  BitVec.ofNat 8 (b2n s.irqActive * 128 + b2n s.pin * 64 + b2n s.ready * 32 + b2n s.spi.valid * 16 +
    b2n s.spi.lost * 8 + s.power)

/-- What SPI_SDO sends in a frame that begins now: the status byte, the response buffer, and the CRC over both (R481). -/
def State.spiOut (s : State) : List Byte :=
  let r := s.spi.resp
  let body := s.spiByte ::
    (if s.spi.valid then
      [r.tag, BitVec.ofNat 8 (16 * r.op), BitVec.ofNat 8 r.result, BitVec.ofNat 8 r.index,
        BitVec.ofNat 8 (r.len / 256), BitVec.ofNat 8 r.len] ++ r.data
     else [0, 0, 0, 0, 0, 0])
  body ++ [crc8 body]

/-- A frame begins: what it sends is the status and the response buffer as they stand, whatever the frame then does (R480,
R481). -/
def State.spiBegin (s : State) : State := { s with spi := { s.spi with sent := s.spiOut, silent := false } }

/-- Byte `n` of the last frame on SPI_SDO: 0x00 after the CRC byte (R481). -/
def State.spiSent (s : State) (n : Nat) : Byte := s.spi.sent.getD n 0

/-- A frame that is not accepted (R479). -/
def State.spiLost (s : State) (f : Field) : State :=
  let s1 := s.inc f
  { s1 with spi := { s1.spi with lost := true } }

/-- An accepted frame with LEN ≠ 0 has its result; RSP_VALID does not show it yet (R482). -/
def State.spiDone (s : State) (tag : Byte) (op len : Nat) (r : RunAnswer) (data : List Byte) : State :=
  { s with spi := { s.spi with
      busy := some { tag := tag, op := op, result := r.result, index := r.index, len := len, data := data } } }

/-- A frame refused as a whole (R484, R487). -/
def State.spiRefuse (s : State) (tag : Byte) (op len : Nat) (res : Nat) (write : Bool) (a : Nat) : State :=
  (s.accRecord 0 res write a).spiDone tag op len { result := res } []

/-- A frame whose CRC matches: status-only, OVERRUN, or accepted and carried out by `k` (R478, R479). -/
def State.spiFrame (s : State) (len : Nat) (k : State → State) : State :=
  if !s.aonOn then s
  else
    let s1 := s.spiBegin
    if len = 0 then { s1 with spi := { s1.spi with lost := false } }
    else if s1.spi.busy.isSome then s1.spiLost F.GLB_SPI_CNT_OVERRUN
    else k { s1 with spi := { s1.spi with lost := false, valid := false } }

/-- The first check of R484 that fails: 0 = none.  `span` bytes lie in the range. -/
def frameCheck (op len top a span : Nat) : Nat :=
  let write := op == 2 || op == 4 || op == 6
  let last := a + span - 1
  if top < len then Res.length
  else if op ≤ 4 && a % 4 != 0 then Res.align
  else if write && a < nvmEnd && nvmBase ≤ last then Res.ro
  else if regionOf a = 3 || regionOf a != regionOf last || (op == 6 && regionOf a != 1) || (op == 5 && regionOf a == 0) then
    Res.range
  else 0

/-- A frame of RD, WR, RD_FIX or WR_FIX touches a locked tile: the whole write is discarded (R81). -/
def State.runLocked (s : State) (ws : List (Nat × Word)) : Bool :=
  ws.any fun p => regionOf p.1 == 1 && s.layerGate p.1 true == Res.ok && s.tileLocked (tileOf p.1)

/-- The addresses of a frame of words. -/
def frameAddrs (fix : Bool) (a n : Nat) : List Nat := (List.range n).map fun k => if fix then a else a + 4 * k

/-- A frame that reads words. -/
def State.spiReadWords (s : State) (fix : Bool) (tag : Byte) (len a : Nat) : State :=
  let op := if fix then 3 else 1
  s.spiFrame len fun s =>
    let c := frameCheck op len 64 a (if fix then 4 else 4 * len)
    if c ≠ 0 then s.spiRefuse tag op len c false a
    else
      let r := s.readRun .spi 0 (frameAddrs fix a len) {}
      r.2.spiDone tag op len r.1 (r.1.words.reverse.flatMap beBytes)

/-- A frame that writes words; one that carries fewer words than LEN asks for is SHORT (R479). -/
def State.spiWriteWords (s : State) (fix : Bool) (tag : Byte) (len a : Nat) (data : List Word) : State :=
  let op := if fix then 4 else 2
  if s.aonOn && len ≤ 64 && data.length < len then s.spiBegin.spiLost F.GLB_SPI_CNT_SHORT
  else
    s.spiFrame len fun s =>
      let c := frameCheck op len 64 a (if fix then 4 else 4 * len)
      if c ≠ 0 then s.spiRefuse tag op len c true a
      else
        let ws := (frameAddrs fix a len).zip data
        if s.runLocked ws then (s.lockedWrite .spi a).spiRefuse tag op len Res.locked true a
        else
          let r := s.writeRun .spi 0 ws {}
          r.2.spiDone tag op len r.1 []

/-- RD (R477). -/
def execSpiRd (tag : Byte) (len : BitVec 16) (a : Word) (s : State) : Host.Outcome State Fault Refusal :=
  .next (s.spiReadWords false tag len.toNat a.toNat)

/-- RD_FIX (R477). -/
def execSpiRdFix (tag : Byte) (len : BitVec 16) (a : Word) (s : State) : Host.Outcome State Fault Refusal :=
  .next (s.spiReadWords true tag len.toNat a.toNat)

/-- WR (R477). -/
def execSpiWr (tag : Byte) (len : BitVec 16) (a : Word) (data : List Word) (s : State) : Host.Outcome State Fault Refusal :=
  .next (s.spiWriteWords false tag len.toNat a.toNat data)

/-- WR_FIX (R477). -/
def execSpiWrFix (tag : Byte) (len : BitVec 16) (a : Word) (data : List Word) (s : State) : Host.Outcome State Fault Refusal :=
  .next (s.spiWriteWords true tag len.toNat a.toNat data)

/-- A byte of a memory window is read; a refused one reads 0 (R485). -/
def State.byteRead (s : State) (a : Nat) : Byte × Nat :=
  if regionOf a = 2 then (s.nvByte a, Res.ok)
  else
    let r := s.layerGate a false
    (if r = Res.ok then s.lmByte a else 0, r)

/-- MEM_RD: each byte is decided on its own; the record holds the last one refused (R485, R487). -/
def execSpiMemRd (tag : Byte) (len : BitVec 16) (a : Word) (s : State) : Host.Outcome State Fault Refusal :=
  .next (s.spiFrame len.toNat fun s =>
    let n := len.toNat
    let c := frameCheck 5 n 256 a.toNat n
    if c ≠ 0 then s.spiRefuse tag 5 n c false a.toNat
    else
      let s1 := s.readAfterSeal (tilesOf a.toNat n)
      let bs := (List.range n).map fun k => s1.byteRead (a.toNat + k)
      let bad := (List.range n).filter fun k => (s1.byteRead (a.toNat + k)).2 != Res.ok
      let res := fun k => (s1.byteRead (a.toNat + k)).2
      let s2 := match bad.getLast? with
        | some k => s1.accRecord 0 (res k) false (a.toNat + k)
        | none => s1
      let r : RunAnswer := match bad.head? with
        | some k => { result := res k, index := k }
        | none => {}
      s2.spiDone tag 5 n r (bs.map fun b => b.1))

/-- MEM_WR: decided as a whole (R485). -/
def State.memWrGate (s : State) (a n : Nat) : Nat × Nat :=
  match (List.range n).find? fun k => !s.tileOn (tileOf (a + k)) with
  | some k => (Res.off, k)
  | none =>
    if s.power == Power.boot || s.post then (Res.busy, 0)
    else if s.frozen then (Res.ro, 0)
    else if (tilesOf a n).any s.tileLocked then (Res.locked, 0)
    else (Res.ok, 0)

/-- A decided write of bytes: discarded and reported, or stored (R74, R81, R86). -/
def State.memWrApply (s : State) (i : Initiator) (a : Nat) (bs : List Byte) (res : Nat) : State :=
  if res = Res.ok then s.memStore a bs { init := initNo i, access := writeKind i, addr := a }
  else if res = Res.off then s.offBlock i a
  else if res = Res.locked then s.lockedWrite i a
  else s

/-- MEM_WR (R477, R485). -/
def execSpiMemWr (tag : Byte) (len : BitVec 16) (a : Word) (data : List Byte) (s : State) : Host.Outcome State Fault Refusal :=
  .next (let n := len.toNat
    if s.aonOn && n ≤ 256 && data.length < n then s.spiBegin.spiLost F.GLB_SPI_CNT_SHORT
    else s.spiFrame n fun s =>
      let c := frameCheck 6 n 256 a.toNat n
      if c ≠ 0 then s.spiRefuse tag 6 n c true a.toNat
      else
        let g := s.memWrGate a.toNat n
        let s1 := s.memWrApply .spi a.toNat (data.take n) g.1
        (s1.accRecord 0 g.1 true a.toNat).spiDone tag 6 n { result := g.1, index := g.2 } [])

/-- STATUS: a status-only frame; with LEN ≠ 0 it is refused with LENGTH (R477, R478). -/
def execSpiStatus (tag : Byte) (len : BitVec 16) (a : Word) (s : State) : Host.Outcome State Fault Refusal :=
  .next (s.spiFrame len.toNat fun s => s.spiRefuse tag 0 len.toNat Res.length false a.toNat)

/-- SPI_OP_NOT_USED (R478, R484). -/
def execSpiOpNotUsed (op : BitVec 4) (tag : Byte) (len : BitVec 16) (a : Word) (s : State) : Host.Outcome State Fault Refusal :=
  .next (if op.toNat < 7 then s
    else s.spiFrame len.toNat fun s => s.spiRefuse tag op.toNat len.toNat Res.type false a.toNat)

/-- SPI_FRAME_REJECTED: a frame too short, or whose CRC does not match (R479).  OVERRUN is judged with the frame's
own command. -/
def execSpiFrameRejected (crc : Bool) (s : State) : Host.Outcome State Fault Refusal :=
  .next (if s.aonOn then s.spiBegin.spiLost (if crc then F.GLB_SPI_CNT_CRC else F.GLB_SPI_CNT_SHORT) else s)

/-- SPI_TIMEOUT: SPI_SDO goes high-impedance and stays so until SPI_CS_N rises (R479). -/
def execSpiTimeout (s : State) : Host.Outcome State Fault Refusal :=
  .next (if s.aonOn then
      let s1 := s.spiBegin.spiLost F.GLB_SPI_CNT_TIMEOUT
      { s1 with spi := { s1.spi with silent := true } }
    else s)

/-- SPI_RESPONSE_READY (R482). -/
def execSpiResponseReady (s : State) : Host.Outcome State Fault Refusal :=
  .next (match s.spi.busy with
    | some r => { s with spi := { s.spi with resp := r, valid := true, busy := none } }
    | none => s)

/-! ### JTAG (R415, R418-R420) -/

/-- The controller's next state at a TCK edge with TMS at a level: the usual 16-state controller (R418; its arcs are
PRESUMED, log entry 57). -/
def Tap.next (t : Tap) (tms : Bool) : Tap :=
  match t, tms with
  | .testLogicReset, m => if m then .testLogicReset else .runTestIdle
  | .runTestIdle, m => if m then .selectDr else .runTestIdle
  | .selectDr, m => if m then .selectIr else .captureDr
  | .captureDr, m => if m then .exit1Dr else .shiftDr
  | .shiftDr, m => if m then .exit1Dr else .shiftDr
  | .exit1Dr, m => if m then .updateDr else .pauseDr
  | .pauseDr, m => if m then .exit2Dr else .pauseDr
  | .exit2Dr, m => if m then .updateDr else .shiftDr
  | .updateDr, m => if m then .selectDr else .runTestIdle
  | .selectIr, m => if m then .testLogicReset else .captureIr
  | .captureIr, m => if m then .exit1Ir else .shiftIr
  | .shiftIr, m => if m then .exit1Ir else .shiftIr
  | .exit1Ir, m => if m then .updateIr else .pauseIr
  | .pauseIr, m => if m then .exit2Ir else .pauseIr
  | .exit2Ir, m => if m then .updateIr else .shiftIr
  | .updateIr, m => if m then .selectDr else .runTestIdle

namespace Ir
def idcode : BitVec 4 := 1
def regacc : BitVec 4 := 2
def lk0640 : BitVec 4 := 8
def scan : BitVec 4 := 9
end Ir

/-- What Capture-DR takes under the present instruction: the length of the data register and its value; BYPASS is one
bit, which captures 0 (R418; PRESUMED, log entry 57).  None for the chains of SCAN. -/
def State.tapCapture (s : State) : Option (Nat × Nat) :=
  if s.cfg.ir = Ir.idcode then some (32, (s.regView A.GLB_ID).toNat)
  else if s.cfg.ir = Ir.regacc then some (66, s.cfg.jtagCode * 2 ^ 64 + s.cfg.jtagData.toNat)
  else if s.cfg.ir = Ir.scan ∧ s.cfg.scanOn then none
  else some (1, 0)

/-- An instruction is loaded and its data register scanned; the controller rests in Run-Test/Idle.  The chains of SCAN are
connected under SCAN only. -/
def State.irLoad (s : State) (ir : BitVec 4) : State :=
  { s with cfg := { s.cfg with tap := .runTestIdle, ir := ir, scanOn := false } }

/-- A command of the port: its instruction is loaded and the rest follows; while TRST_N is low nothing does (R418). -/
def State.jtagDo (s : State) (ir : BitVec 4) (k : State → State) : State := if s.cfg.trst then s else k (s.irLoad ir)

/-- Test-Logic-Reset, where IDCODE is the instruction (R418; PRESUMED, log entry 57). -/
def State.tapReset (s : State) : State :=
  { s with cfg := { s.cfg with tap := .testLogicReset, ir := Ir.idcode, scanOn := false } }

/-- The result of REGACC as Capture-DR returns it (R418). -/
def State.jtagResult (s : State) : State :=
  let code := if s.port.result = Res.ok then 0 else 2
  { s with cfg := { s.cfg with jtagCode := code, jtagData := s.port.value } }

/-- REGACC is refused by the life-cycle state, and recorded (R415, R418, R419, R487; the RESULT of the record is a free
value). -/
def State.jtagRefuse (s : State) (write : Bool) (a : Nat) : State :=
  let s1 := s.accPut 14 Config.refusedResult.toNat write a
  { s1 with cfg := { s1.cfg with jtagCode := 1, jtagData := 0 } }

/-- REGACC reads a word (R415, R418, R419). -/
def State.regaccGet (s : State) (a : Nat) : State :=
  if !s.aonOn then s
  else if s.mayAccess false then (s.wordRead .jtag a).jtagResult else s.jtagRefuse false a

/-- REGACC writes a word (R415, R418, R419). -/
def State.regaccPut (s : State) (a : Nat) (v : Word) : State :=
  if !s.aonOn then s
  else if s.mayAccess true then (s.wordWrite .jtag a v).jtagResult else s.jtagRefuse true a

/-- SCAN connects the chains: granted in BLANK, and in FACTORY and RETURN once the secrets are cleared (R415, R416). -/
def State.scanGrant (s : State) : State :=
  if !s.coreOn then s
  else if s.lc = Lc.blank then { s with cfg := { s.cfg with scanOn := true } }
  else if s.lc = Lc.factory ∨ s.lc = Lc.return_ then
    let s1 := s.clearSecrets
    { s1 with cfg := { s1.cfg with scanOn := true } }
  else s

/-- The LK0640 test entry, in its order (R415, R420). -/
def State.testEntry (s : State) : State :=
  if s.coreOn && (s.lc == Lc.factory || s.lc == Lc.return_) then
    (((s.raise Code.CFG_TEST_ENTRY 0).rasterStop).clearSecrets).put F.CFG_STATUS_TEST 1
  else s

/-- IDCODE (R418). -/
def execIdcode (s : State) : Host.Outcome State Fault Refusal := .next (s.jtagDo Ir.idcode fun s => s)

/-- REGACC_READ (R418, R419). -/
def execRegaccRead (a : Word) (s : State) : Host.Outcome State Fault Refusal :=
  .next (s.jtagDo Ir.regacc fun s => s.regaccGet a.toNat)

/-- REGACC_WRITE (R418, R419). -/
def execRegaccWrite (a v : Word) (s : State) : Host.Outcome State Fault Refusal :=
  .next (s.jtagDo Ir.regacc fun s => s.regaccPut a.toNat v)

/-- SCAN (R415, R416, R418). -/
def execScanEntry (s : State) : Host.Outcome State Fault Refusal := .next (s.jtagDo Ir.scan State.scanGrant)

/-- LK0640_ENTRY (R415, R420). -/
def execLk0640Entry (s : State) : Host.Outcome State Fault Refusal := .next (s.jtagDo Ir.lk0640 State.testEntry)

/-! ### The pads of the JTAG port (R418) -/

/-- `n` bits of a number, the first to be shifted out first. -/
def bitsFirst (n w : Nat) : List Bool := (List.range n).map (bitOf w)

/-- The number that bits give, the least significant first. -/
def bitsValue (l : List Bool) : Nat := l.foldr (fun b n => b2n b + 2 * n) 0

/-- The register in the scan path moves on by a bit towards TDO; what lies in the chains of SCAN no rule gives. -/
def shiftBits (l : List Bool) (tdi : Bool) : List Bool := if l.isEmpty then l else l.drop 1 ++ [tdi]

/-- Update-IR: an instruction takes effect (R418). -/
def State.irUpdate (s : State) (ir : BitVec 4) : State :=
  let s1 := { s with cfg := { s.cfg with ir := ir, scanOn := false } }
  if ir = Ir.scan then s1.scanGrant else if ir = Ir.lk0640 then s1.testEntry else s1

/-- Update-DR: REGACC applies its OP, 1 = read and 2 = write; 0 and 3 do nothing (R418). -/
def State.drUpdate (s : State) (w : Nat) : State :=
  if s.cfg.ir = Ir.regacc then
    let op := bitsOf w 65 64
    let a := bitsOf w 63 32
    if op = 1 then s.regaccGet a else if op = 2 then s.regaccPut a (BitVec.ofNat 32 w) else s
  else s

/-- One rising edge of TCK with TMS and TDI: the controller does what its state gives, and moves on (R418; what Capture-IR
takes is PRESUMED, log entry 57). -/
def State.tapEdge (s : State) (tms tdi : Bool) : State :=
  let bits := match s.cfg.tap with
    | .captureIr => bitsFirst 4 1
    | .captureDr => (s.tapCapture.map fun r => bitsFirst r.1 r.2).getD []
    | .shiftIr | .shiftDr => shiftBits s.cfg.bits tdi
    | _ => s.cfg.bits
  let t := s.cfg.tap.next tms
  let s1 := { s with cfg := { s.cfg with tap := t, bits := bits } }
  match t with
  | .updateIr => s1.irUpdate (BitVec.ofNat 4 (bitsValue bits))
  | .updateDr => s1.drUpdate (bitsValue bits)
  | .testLogicReset => s1.tapReset
  | _ => s1

/-- The JTAG pads in a tick: TRST_N low holds the controller in reset, else each edge of TCK is taken (R418). -/
def State.tapTick (s : State) (trst : Bool) (tck : List (Bool × Bool)) : State :=
  let s1 := { s with cfg := { s.cfg with trst := trst } }
  if trst then s1.tapReset else tck.foldl (fun s e => s.tapEdge e.1 e.2) s1

end Sys2Proof.Machine
end

