-- ==== Sys2Proof/Machine/Packets.lean ====
section
/-!
DEFINITION. The packets of the Gocel Link: port U's receive buffer, the checks and the effect of each forward
packet, acknowledgements, forwarding through port D and the return lane (R343-R361, R486).
-/

namespace Sys2Proof.Machine

namespace PktType
def idle : Nat := 0
def tileWrite : Nat := 1
def memWrite : Nat := 2
def regWrite : Nat := 3
def regRead : Nat := 4
def readResp : Nat := 5
def commit : Nat := 6
def objectList : Nat := 7
def msg : Nat := 8
def ack : Nat := 9
def train : Nat := 10
end PktType

namespace Nak
def crc : Nat := 0x01
def gap : Nat := 0x02
def arrival : Nat := 0x03
def post : Nat := 0x04
def full : Nat := 0x05
def noRoute : Nat := 0x0E
def bcast : Nat := 0x0F
end Nak

/-- Next sequence number. -/
def seqNext (n : Nat) : Nat := (n + 1) % 4096

/-- Sequence number before `n`. -/
def seqPrev (n : Nat) : Nat := (n + 4095) % 4096

/-- `(a − b) mod 4,096` (R349). -/
def seqDiff (a b : Nat) : Nat := (a % 4096 + 4096 - b % 4096) % 4096

/-- An acknowledgement of `a` covers sequence number `b` (R350). -/
def seqCovers (a b : Nat) : Bool := seqDiff a b < 2048

/-- E: the next sequence number that port U expects. -/
def State.rxNext (s : State) : Nat := s.get F.LNK_U_SEQ_RX_NEXT

/-! ### Frames (R343, R344) -/

/-- The two header words of a packet (R344). -/
def headWords (type : Nat) (h : PktHead) (len : Nat) : List Word :=
  [((BitVec.ofNat 4 type ++ BitVec.ofBool h.bc ++ BitVec.ofBool h.tg ++ 0#2 ++ h.dest ++ h.seq : BitVec 32)),
   ((h.rack ++ BitVec.ofBool h.rnak ++ BitVec.ofBool h.rv ++ 0#7 ++ BitVec.ofNat 11 len : BitVec 32))]

/-- TYPE, LEN and the other header fields that two header words hold (R344). -/
def headType (ws : List Word) : Nat := wordGet (ws.getD 0 0) 31 28
def headLen (ws : List Word) : Nat := wordGet (ws.getD 1 0) 10 0

def headOf (ws : List Word) : PktHead :=
  let a := ws.getD 0 0
  let b := ws.getD 1 0
  { bc := a.getLsbD 27, tg := a.getLsbD 26, dest := a.extractLsb' 12 12, seq := a.extractLsb' 0 12,
    rack := b.extractLsb' 20 12, rnak := b.getLsbD 19, rv := b.getLsbD 18 }

/-- The payload between the header words and the CRC word. -/
def framePayload (ws : List Word) : List Word := (ws.drop 2).dropLast

/-- The CRC word over the header and payload words (R9, R343). -/
def frameCrc (ws : List Word) : Word := crc32 (ws.flatMap leBytes)

/-- The words of a packet between SOP and EOP; `inv` = the CRC is sent inverted (R343, R361). -/
def frameWords (type : Nat) (h : PktHead) (payload : List Word) (inv : Bool) : List Word :=
  let ws := headWords type h payload.length ++ payload
  ws ++ [if inv then ~~~ frameCrc ws else frameCrc ws]

/-- The frame check on what has arrived between SOP and EOP (R343, R352). -/
def frameGood (f : RxFrame) : Bool :=
  f.eop && !f.upset && decide (f.words.length ≤ 1029) && f.words.length == headLen f.words + 3 &&
  f.words.getLast? == some (frameCrc f.words.dropLast)

/-- An ACK or NAK of the module `id` as port U sends it (R344, R346). -/
def Ack.frame (a : Ack) (id : Nat) : List Word :=
  frameWords PktType.ack { dest := BitVec.ofNat 12 id, seq := BitVec.ofNat 12 a.seq }
    [((BitVec.ofBool a.nak ++ BitVec.ofBool a.replay ++ 0#6 ++ BitVec.ofNat 8 a.status ++ BitVec.ofNat 8 a.index ++ 0#3 ++
      BitVec.ofNat 5 a.free : BitVec 32))] a.crcBad

/-- A READ_RESP or MSG as port U sends it: RACK, RNAK and RV are 0 on the return lane (R344). -/
def TxPacket.retFrame (p : TxPacket) : List Word :=
  frameWords p.type { dest := BitVec.ofNat 12 p.id, seq := BitVec.ofNat 12 p.seq } p.payload p.crcBad

/-- The header that port D sends with a packet: RACK names the last return packet received in order, RNAK asks for those
after it; RV = 1 from the entry to ACTIVE on, with RACK = 4,095 before the first (R344, R353; DESIGN CHOICE, log 80). -/
def State.dHead (s : State) (p : TxPacket) : PktHead :=
  { bc := p.bc, tg := p.tg, dest := BitVec.ofNat 12 p.id, seq := BitVec.ofNat 12 p.seq,
    rack := BitVec.ofNat 12 (seqPrev (s.get F.LNK_D_SEQ_RX_NEXT)), rnak := s.lnk.askAgain, rv := true }

/-- A forward packet as port D sends it (R343, R344, R361). -/
def State.fwdFrame (s : State) (p : TxPacket) : List Word := frameWords p.type (s.dHead p) p.payload p.crcBad

/-! ### Acknowledgements of port U (R347-R350) -/

/-- INDEX as its 8 bits hold it (R346). -/
def ackIndex (idx : Nat) : Nat := if idx < 256 then idx else (Config.ackIndex idx).toNat

/-- An ACK or a NAK goes out on the return lane; an armed injection of kind 2 takes the next ACK, one of kind 4 inverts its
CRC (R361). -/
def State.ackSend (s : State) (nak replay : Bool) (seq st idx : Nat) : State :=
  if !nak && s.injArmed 2 then s.injTake 2
  else
    State.injTake { s with lnk := { s.lnk with lastAck := some {
        nak := nak, replay := replay, seq := seq, status := st, index := ackIndex idx, free := 16 - s.lnk.rx.length,
        crcBad := s.injArmed 4 } } } 4

/-- A replay NAK with the expected sequence number; the sixteenth with no packet accepted between them ends
ACTIVE (R339, R349). -/
def State.replayNak (s : State) (st : Nat) : State :=
  let s1 := (s.pcount false F.LNK_U_CNT0_REPLAY 1).ackSend true true s.rxNext st 0
  let s2 : State := { s1 with lnk := { s1.lnk with nakSent := true, naks := s1.lnk.naks + 1 } }
  if 16 ≤ s2.lnk.naks then s2.linkExit false 4 else s2

/-- The packet's sequence number is used up. -/
def State.seqConsume (s : State) : State :=
  let s1 := s.put F.LNK_U_SEQ_RX_NEXT (seqNext s.rxNext)
  { s1 with lnk := { s1.lnk with nakSent := false, arrivals := 0 } }

/-- A non-replay NAK of these codes raises FLT_LNK_REFUSED (R362). -/
def refusalReported (st : Nat) : Bool :=
  st == Res.type || st == Res.length || st == Res.range || st == Res.align || st == Nak.noRoute || st == Nak.bcast

/-- The last packet refused with a non-replay NAK (R363). -/
def State.refuseRecord (s : State) (d : Bool) (type st seq : Nat) : State :=
  ((s.pput d F.LNK_U_REFUSE_TYPE type).pput d F.LNK_U_REFUSE_STATUS st).pput d F.LNK_U_REFUSE_SEQ seq

/-- A packet's processing ends: its sequence number is consumed and the ACK or the non-replay NAK sent.  Where
the packet itself took the port out of ACTIVE, nothing is left to end (R340). -/
def State.packetOver (s : State) (p : RxPacket) (e : LocalEnd) : State :=
  if !s.portUp false then s
  else
    let s1 := s.seqConsume
    let seq := p.head.seq.toNat
    if e.nak then
      let s2 := (s1.pcount false F.LNK_U_CNT1_REFUSED 1).refuseRecord false p.type e.status seq
      let s3 := if refusalReported e.status then s2.lnkRaise Code.LNK_REFUSED false seq e.status 0 else s2
      s3.ackSend true false seq e.status e.index
    else s1.ackSend false false seq e.status e.index

/-- The number of the last packet applied is kept for LNK_U_LAST (R340). -/
def State.seqApplied (s : State) (p : RxPacket) : State :=
  s.setPort false { s.port? false with lastSeq := p.head.seq.toNat }

/-! ### The checks on a packet's words (R345, R346, R348) -/

/-- N of a MEM_WRITE. -/
def memCount (ws : List Word) : Nat := wordGet (ws.getD 1 0) 12 0

/-- n of a REG_READ. -/
def readCount (ws : List Word) : Nat := wordGet (ws.getD 1 0) 6 0

/-- LEN is accepted for the type. -/
def lenAccepted (type : Nat) (ws : List Word) : Bool :=
  let n := ws.length
  match type with
  | 1 => n == 1026
  | 2 => decide (3 ≤ n) && decide (n ≤ 1026) && decide (1 ≤ memCount ws) && decide (memCount ws ≤ 4096) &&
      n == 2 + (memCount ws + 3) / 4
  | 3 => decide (2 ≤ n) && decide (n ≤ 65)
  | 4 => n == 2 && decide (1 ≤ readCount ws) && decide (readCount ws ≤ 64)
  | 6 => n == 1
  | 7 => decide (1 ≤ n) && decide (n ≤ 257)
  | _ => false

/-- The type is a forward type. -/
def forwardType (type : Nat) : Bool := (1 ≤ type && type ≤ 4) || type == 6 || type == 7

/-- Check 3: TYPE or LENGTH; 0 = passed. -/
def typeCheck (p : RxPacket) : Nat :=
  if !forwardType p.type then Res.type else if !lenAccepted p.type p.payload then Res.length else 0

/-- First address that a packet names. -/
def pktAddr (ws : List Word) : Nat := (ws.headD 0).toNat

/-- Tile index of a TILE_WRITE. -/
def pktTile (ws : List Word) : Nat := wordGet (ws.headD 0) 13 0

/-- Check 5: RANGE, ALIGN or RO; 0 = passed. -/
def addrCheck (p : RxPacket) : Nat :=
  let a := pktAddr p.payload
  match p.type with
  | 1 => if tileCount ≤ pktTile p.payload then Res.range else 0
  | 2 =>
    let e := a + memCount p.payload
    if layerBase ≤ a ∧ e ≤ layerEnd then 0 else if a < nvmEnd ∧ nvmBase < e then Res.ro else Res.range
  | 3 =>
    if a % 4 ≠ 0 then Res.align else if regEnd < a + 4 * (p.payload.length - 1) then Res.range else 0
  | 4 =>
    if a % 4 ≠ 0 then Res.align
    else if regionOf a ≠ 3 ∧ regionOf a = regionOf (a + 4 * readCount p.payload - 1) then 0
    else Res.range
  | _ => 0

/-! ### Routing (R354, R355) -/

/-- The tandem partner's position: PARTNER, or the own position XOR 1 (R387). -/
def State.partner (s : State) : Nat :=
  if s.get F.CVN_TDM_CFG_PARTNER = 0xFFF then s.ownId ^^^ 1 else s.get F.CVN_TDM_CFG_PARTNER

/-- Where a packet goes. -/
inductive Route where
  /-- Refused with NOROUTE or BCAST. -/
  | refused (status : Nat)
  /-- Applied in this module, forwarded on D. -/
  | goes (own fwd : Bool)
  deriving DecidableEq, Repr

/-- Port D is ACTIVE. -/
def State.dActive (s : State) : Bool := s.lnkOn && s.pst true == PortSt.active

/-- Check 4: NOROUTE or BCAST, or the route (R354, R355). -/
def State.route (s : State) (p : RxPacket) : Route :=
  let h := p.head
  let dest := h.dest.toNat
  if p.type = PktType.regRead ∧ (h.bc ∨ h.tg) then .refused Nak.bcast
  else if h.bc then .goes true s.dActive
  else if !s.flag F.CVN_STATUS_POS_VALID then (if dest = 0 then .goes true false else .refused Nak.noRoute)
  else if h.tg then .goes (dest == s.ownId || dest == s.partner) s.dActive
  else if dest = s.ownId then .goes true false
  else if s.dActive then .goes false true
  else .refused Nak.noRoute

/-! ### The effect of each packet in this module -/

/-- How a packet's processing in this module goes. -/
inductive LocalGo where
  /-- It waits at the head of the buffer. -/
  | waits
  /-- A replay NAK of this status. -/
  | replay (status : Nat)
  | over (e : LocalEnd)
  deriving DecidableEq, Repr

/-- A discarded access is recorded, and the packet refused with a non-replay NAK (R347, R487). -/
def State.pktDiscard (s : State) (a st idx : Nat) : State × LocalGo :=
  (s.accRecord 1 st true a, .over { nak := true, status := st, index := idx })

/-- Where a packet's access lies: its tile, or the first address that it names; a COMMIT, an object list and a message name
none. -/
def pktWhere (p : RxPacket) : Nat :=
  if p.type = 1 then tileAddr (pktTile p.payload) else if p.type = 6 ∨ p.type = 7 then 0 else pktAddr p.payload

/-- A packet refused as a whole by check 3, 4 or 5 is recorded with its address (R348, R487). -/
def State.pktRefused (s : State) (p : RxPacket) (st : Nat) : State :=
  s.accRecord 1 st (p.type != PktType.regRead) (pktWhere p)

/-- A memory write that waits for the end of the power-on test is refused with POST, and recorded (R83, R347, R487). -/
def State.pktPostNak (s : State) (a : Nat) : State × LocalGo :=
  (s.accRecord 1 Nak.post true a, .replay Nak.post)

/-- The tile's CRC differs from the host's: the fifth failure in a row of one sequence number, with no arrival between
them whose CRC agreed, is not sent again (R73, R347); each is recorded (R487). -/
def State.arrivalFail (s : State) (t : Nat) : State × LocalGo :=
  let s0 := s.accRecord 1 Nak.arrival true (tileAddr t)
  let s1 := (s0.inc F.LMC_CNT2_ARRIVAL_FAIL).raiseI Code.LMC_ARRIVAL_CRC { init := 1, access := 5, addr := tileAddr t }
  let n := s1.lnk.arrivals + 1
  ({ s1 with lnk := { s1.lnk with arrivals := n } },
    if 5 ≤ n then .over { nak := true, status := Nak.arrival } else .replay Nak.arrival)

/-- Memory writes wait for the end of the power-on test (R83). -/
def State.pktPost (s : State) : Bool := s.post || s.power == Power.boot

/-- TILE_WRITE: ARRIVAL, POST, OFF, LOCKED, or the tile is stored and sealed (R73, R81, R83, R86, R348). -/
def State.tilePacket (s : State) (p : RxPacket) : State × LocalGo :=
  let t := pktTile p.payload
  let crc := p.payload.getD 1 0
  let bs := (p.payload.drop 2).flatMap leBytes
  if crc32 bs ≠ crc then s.arrivalFail t
  else if s.pktPost then ({ s with lnk := { s.lnk with arrivals := 0 } }).pktPostNak (tileAddr t)
  else if !s.tileOn t then (s.offBlock .linkU (tileAddr t)).pktDiscard (tileAddr t) Res.off 0
  else if s.frozen then s.pktDiscard (tileAddr t) Res.ro 0
  else if s.tileLocked t then (s.lockedWrite .linkU (tileAddr t)).pktDiscard (tileAddr t) Res.locked 0
  else
    let s1 := (s.afterSeal [t]).dirReadEffect t p.dirRead { init := 1, access := 5, addr := tileAddr t }
    ((s1.seqApplied p).tileStore t crc bs, .over {})

/-- MEM_WRITE: POST, OFF, LOCKED, or the bytes are stored (R74, R81, R83, R86, R348, R485, R486). -/
def State.memPacket (s : State) (p : RxPacket) : State × LocalGo :=
  let a := pktAddr p.payload
  let n := memCount p.payload
  let bs := ((p.payload.drop 2).flatMap leBytes).take n
  if s.pktPost then s.pktPostNak a
  else
    let g := s.memWrGate a n
    if g.1 = Res.ok then ((s.seqApplied p).memWrApply .linkU a bs Res.ok, .over {})
    else (s.memWrApply .linkU a bs g.1).pktDiscard a g.1 g.2

/-- REG_WRITE: the registers are written one after the other; the first RESULT that is not OK is the ACK's
(R348, R486). -/
def State.regPacket (s : State) (p : RxPacket) : State × LocalGo :=
  let vs := p.payload.drop 1
  let r := (s.seqApplied p).writeRun .linkU 0 ((frameAddrs false (pktAddr p.payload) vs.length).zip vs) {}
  (r.2, .over { status := r.1.result, index := r.1.index })

/-- REG_READ: once its READ_RESP fits in the return buffer, the words are read (R346, R353, R486). -/
def State.readPacket (s : State) (p : RxPacket) : State × LocalGo :=
  let n := readCount p.payload
  if !s.retFits (n + 1) then (s, .waits)
  else
    let r := (s.seqApplied p).readRun .linkU 0 (frameAddrs false (pktAddr p.payload) n) {}
    let w := BitVec.ofNat 32 (wordGet (p.payload.getD 1 0) 31 16 * 65536 + r.1.index * 256 + r.1.result)
    (r.2.retPush PktType.readResp r.2.ownId (w :: r.1.words.reverse), .over {})

/-- COMMIT: as a write of GLB_COMMIT (R119, R346). -/
def State.commitPacket (s : State) (p : RxPacket) : State × LocalGo :=
  let s1 := (s.seqApplied p).wordWrite .linkU A.GLB_COMMIT (p.payload.headD 0)
  (s1, .over { status := s1.port.result })

/-- OBJECT_LIST: delivered to MSK, which checks it; MSK is met as by a write of MSK_SUBMIT (R142, R485). -/
def State.listPacket (s : State) (p : RxPacket) : State × LocalGo :=
  let s0 := s.seqApplied p
  let info : FaultInfo := { init := 1, access := 5 }
  if s0.post && !s0.blockOff A.MSK_SUBMIT && !s0.frozen then (s0.listSubmit p.payload info, .over {})
  else
    let s1 := s0.portWrite .linkU A.MSK_SUBMIT fun s => s.listSubmit p.payload info
    (s1, .over { status := s1.port.result })

/-- The effect of an accepted packet in this module. -/
def State.packetLocal (s : State) (p : RxPacket) : State × LocalGo :=
  match p.type with
  | 1 => s.tilePacket p
  | 2 => s.memPacket p
  | 3 => s.regPacket p
  | 4 => s.readPacket p
  | 6 => s.commitPacket p
  | 7 => s.listPacket p
  | _ => (s, .over {})

/-! ### The head of the receive buffer (R348, R349) -/

/-- A packet that fails its frame check (R343, R349). -/
def State.frameFail (s : State) : State :=
  ((s.pcount false F.LNK_U_CNT0_CRC 1).lnkRaise Code.LNK_CRC false s.rxNext Nak.crc 0).replayNak Nak.crc

/-- A packet whose sequence number is ahead: one replay NAK for each expected number (R349). -/
def State.seqGap (s : State) : State := if s.lnk.nakSent then s else s.replayNak Nak.gap

/-- A packet is accepted: the host's stall ends and the replay NAKs count anew (R339, R358). -/
def State.seqAccept (s : State) : State :=
  { s with lnk := { s.lnk with hostTicks := 0, hostReported := false, naks := 0 } }

/-- A packet that is refused as a whole, or that this module has dealt with: where it also goes on, it waits
for port D with its local end. -/
def State.packetEnd (s : State) (p : RxPacket) (fwd : Bool) (e : LocalEnd) : State × Option RxPacket :=
  if fwd && s.portUp false then (s, some { p with taken := true, done := some e }) else (s.packetOver p e, none)

/-- Checks 3 to 6 on an accepted packet, and its effect in this module (R348). -/
def State.packetApply (s : State) (p : RxPacket) : State × Option RxPacket :=
  let c := typeCheck p
  if c ≠ 0 then (s.pktRefused p c).packetEnd p false { nak := true, status := c }
  else
    match s.route p with
    | .refused st => (s.pktRefused p st).packetEnd p false { nak := true, status := st }
    | .goes own fwd =>
      if !own then s.packetEnd p fwd {}
      else if addrCheck p ≠ 0 then (s.pktRefused p (addrCheck p)).packetEnd p fwd { nak := true, status := addrCheck p }
      else
        let r := s.packetLocal p
        match r.2 with
        | .waits => (r.1, some { p with taken := true })
        | .replay st => (r.1.replayNak st, none)
        | .over e => r.1.packetEnd p fwd e

/-- The packet taken from the head of the buffer is processed; what it answers stays at the head. -/
def State.packetHead (s : State) (p : RxPacket) : State × Option RxPacket :=
  if p.done.isSome then (s, some p)
  else if p.taken then s.packetApply p
  else if p.bad || s.injArmed 1 then ((s.injTake 1).frameFail, none)
  else
    let d := seqDiff p.head.seq.toNat s.rxNext
    if d = 0 then s.seqAccept.packetApply p
    else if d < 2048 then (s.seqGap, none)
    else (s.ackSend false false (seqPrev s.rxNext) 0 0, none)

/-- The head `p` of the buffer is taken and processed, before the packets `t`; false: it stays there. -/
def State.rxStep (s : State) (p : RxPacket) (t : List RxPacket) : State × Bool :=
  let r := State.packetHead { s with lnk := { s.lnk with rx := t } } p
  match r.2 with
  | some q => ({ r.1 with lnk := { r.1.lnk with rx := q :: r.1.lnk.rx } }, false)
  | none => (r.1, true)

/-- Packets are processed one after the other until the buffer is empty or its head waits. -/
def State.rxDrain : Nat → State → State
  | 0, s => s
  | n + 1, s =>
    match s.lnk.rx with
    | [] => s
    | p :: t =>
      let r := s.rxStep p t
      if !s.portUp false then s else if r.2 then rxDrain n r.1 else r.1

/-- The receive buffer holds 16 packets. -/
def State.rxRun (s : State) : State := s.rxDrain 17

/-! ### The return lane (R353) -/

/-- RACK acknowledges return packets; RNAK asks for those that follow it. -/
def State.returnAck (s : State) (h : PktHead) : State :=
  if !h.rv then s
  else
    let left := s.lnk.ret.filter fun p => !seqCovers h.rack.toNat p.seq
    let s1 : State := if left.length < s.lnk.ret.length then
        { s with lnk := { s.lnk with ret := left, retTicks := 0, retResends := 0 } }
      else s
    if h.rnak && !left.isEmpty then
      let s2 := s1.pcount false F.LNK_U_CNT2_RET_REPLAY 1
      State.injTake { s2 with lnk := { s2.lnk with ret := s2.crcHit 4 s2.lnk.ret, retTicks := 0 } } 4
    else s1

/-! ### Arrival on port U -/

/-- A packet arrives with no free slot: a replay NAK with FULL (R347). -/
def State.rxFull (s : State) : State := s.replayNak Nak.full

/-- A forward packet arrives on port U: its RACK is taken, and it joins the receive buffer.  No packet has more
than 1,026 payload words (R343). -/
def State.packetIn (s : State) (p : RxPacket) : State :=
  let long : Bool := 1026 < p.payload.length
  let bad := p.bad || long || (s.lnk.rx.isEmpty && s.injArmed 1)
  let s0 := s.notTs false
  let s1 := if bad then s0 else s0.returnAck p.head
  if 16 ≤ s1.lnk.rx.length then s1.rxFull.rxRun
  else State.rxRun { s1 with lnk := { s1.lnk with rx := s1.lnk.rx ++ [{ p with bad := p.bad || long }] } }

/-- A forward packet arrives on port U; an armed code error of kind 3 falls into it, and it fails (R329, R361). -/
def State.packetArrive (s : State) (p : RxPacket) : State :=
  if !s.portUp false then s
  else if s.injArmed 3 then
    let s1 := s.injColumn
    if s1.portUp false then s1.packetIn { p with bad := true } else s1
  else s.packetIn p

/-- TILE_WRITE (R73, R345). -/
def execTileWrite (h : PktHead) (payload : List Word) (dirRead : DirRead) (s : State) :
    Host.Outcome State Fault Refusal :=
  .next (s.packetArrive { type := PktType.tileWrite, head := h, payload := payload, dirRead := dirRead })

/-- MEM_WRITE (R74, R345). -/
def execMemWrite (h : PktHead) (payload : List Word) (s : State) : Host.Outcome State Fault Refusal :=
  .next (s.packetArrive { type := PktType.memWrite, head := h, payload := payload })

/-- REG_WRITE (R345, R348). -/
def execRegWrite (h : PktHead) (payload : List Word) (s : State) : Host.Outcome State Fault Refusal :=
  .next (s.packetArrive { type := PktType.regWrite, head := h, payload := payload })

/-- REG_READ (R345, R348). -/
def execRegRead (h : PktHead) (payload : List Word) (s : State) : Host.Outcome State Fault Refusal :=
  .next (s.packetArrive { type := PktType.regRead, head := h, payload := payload })

/-- COMMIT (R119, R345). -/
def execCommitPacket (h : PktHead) (payload : List Word) (s : State) : Host.Outcome State Fault Refusal :=
  .next (s.packetArrive { type := PktType.commit, head := h, payload := payload })

/-- OBJECT_LIST (R142, R345). -/
def execObjectList (h : PktHead) (payload : List Word) (s : State) : Host.Outcome State Fault Refusal :=
  .next (s.packetArrive { type := PktType.objectList, head := h, payload := payload })

/-- PACKET_TYPE_NOT_USED: 0xB to 0xF, or a return type on the forward lanes (R345, R347). -/
def execPacketTypeNotUsed (type : BitVec 4) (h : PktHead) (payload : List Word) (s : State) :
    Host.Outcome State Fault Refusal :=
  .next (if type.toNat = 0 ∨ forwardType type.toNat then s
    else s.packetArrive { type := type.toNat, head := h, payload := payload })

/-- An IDLE that fails its frame check is only counted (R345). -/
def State.idleFail (s : State) : State := (s.notTs false).pcount false F.LNK_U_CNT0_CRC 1

/-- An IDLE into which an injected code error has fallen, where the port is still up. -/
def State.idleFailUp (s : State) : State := if s.portUp false then s.idleFail else s

/-- PACKET_FRAME_FAIL: the words between SOP and EOP fail the frame check; an IDLE, by the TYPE received, is only counted
(R343, R345, R349), and an armed code error of kind 3 falls into it as into any (R361).  Words that pass it are no event
of this row. -/
def execPacketFrameFail (f : RxFrame) (s : State) : Host.Outcome State Fault Refusal :=
  .next (if !s.portUp false || frameGood f then s
    else if f.words ≠ [] ∧ headType f.words = PktType.idle then s.injColumn.idleFailUp
    else s.packetArrive { type := 0, head := {}, payload := [], bad := true })

/-- RECEIVE_BUFFER_FULL (R347); with an armed code error of kind 3 the packet also fails, so that its RACK is not taken
(R361). -/
def execReceiveBufferFull (h : PktHead) (s : State) : Host.Outcome State Fault Refusal :=
  .next (if s.portUp false && 16 ≤ s.lnk.rx.length then
      if s.injArmed 3 then
        let s1 := s.injColumn
        if s1.portUp false then (s1.notTs false).rxFull.rxRun else s1
      else ((s.notTs false).returnAck h).rxFull.rxRun
    else s)

/-- IDLE on a port: it carries RACK on the forward lanes; one with a payload is discarded and counted, and one into which an
injected code error falls fails (R345, R353, R361). -/
def execIdlePacket (d : Bool) (h : PktHead) (payload : List Word) (s : State) :
    Host.Outcome State Fault Refusal :=
  .next (if !s.portUp d then s
    else if !d && s.injArmed 3 then s.injColumn.idleFailUp
    else if !payload.isEmpty then (s.notTs d).pcount d F.LNK_U_CNT1_REFUSED 1
    else if d then s.notTs d
    else ((s.notTs d).returnAck h).rxRun)

/-- RETURN_RESEND_TIMEOUT: RACK has not advanced for RET_TO ticks (R353). -/
def execReturnResendTimeout (s : State) : Host.Outcome State Fault Refusal :=
  .next (if s.portUp false && !s.lnk.ret.isEmpty && s.retTo ≤ s.lnk.retTicks then s.retResend.rxRun else s)

/-! ### Forwarding through port D (R352, R356) -/

/-- Port D has credit for its next packet (R350). -/
def State.dCredit (s : State) : Bool :=
  let d := seqDiff (s.get F.LNK_D_SEQ_TX_NEXT) s.lnk.ackA
  1 ≤ d && d ≤ s.lnk.credit

/-- The 64 KiB replay buffer has room for a packet of `n` payload words. -/
def State.replayFits (s : State) (n : Nat) : Bool := bufferBytes s.lnk.replay + 4 * (n + 3) ≤ 65536

/-- A packet enters D's replay buffer and is sent with D's next sequence number. -/
def State.replayPush (s : State) (p : RxPacket) : State :=
  let q := s.get F.LNK_D_SEQ_TX_NEXT
  let s1 := (s.put F.LNK_D_SEQ_TX_NEXT (seqNext q)).injTake 5
  let pkt : TxPacket := {
    type := p.type, bc := p.head.bc, tg := p.head.tg, id := p.head.dest.toNat, seq := q, payload := p.payload,
    crcBad := s.injArmed 5 }
  let t := if s1.lnk.replay.isEmpty then 0 else s1.lnk.repTicks
  let n := if s1.lnk.replay.isEmpty then 0 else s1.lnk.repResends
  State.wakePort { s1 with lnk := { s1.lnk with
    replay := s1.lnk.replay ++ [pkt], repTicks := t, repResends := n, askAgain := false } } true

/-- A packet that has to go on and finds port D no longer ACTIVE: NOROUTE, or its local end where it is a
broadcast or a tandem packet (R354). -/
def noForwardEnd (p : RxPacket) (e : LocalEnd) : LocalEnd :=
  if p.head.bc ∨ p.head.tg then e else { nak := true, status := Nak.noRoute }

/-- A packet that this module would only have forwarded is then refused, and recorded (R487). -/
def State.noForward (s : State) (p : RxPacket) : State :=
  if p.head.bc ∨ p.head.tg then s else s.pktRefused p Nak.noRoute

/-- The head of U's receive buffer goes on through port D, when that is possible. -/
def State.forwardHead (s : State) (p : RxPacket) (e : LocalEnd) (t : List RxPacket) : State :=
  let s1 : State := { s with lnk := { s.lnk with rx := t } }
  if !s.dActive then ((s1.noForward p).packetOver p (noForwardEnd p e)).rxRun
  else if s.lps true ≠ 0 then s.wakePort true
  else if s.dCredit && s.replayFits p.payload.length then
    (((if e.nak then s1 else s1.seqApplied p).replayPush p).packetOver p e).rxRun
  else s

/-- PACKET_FORWARD (R356). -/
def execPacketForward (s : State) : Host.Outcome State Fault Refusal :=
  .next (if !s.portUp false then s
    else
      match s.lnk.rx with
      | [] => s
      | p :: t =>
        match p.done with
        | some e => s.forwardHead p e t
        | none => s)

/-- Port D sends its replay buffer again from the oldest packet; `upset` = a word of the buffer fails parity
(R352). -/
def State.replayResend (s : State) (upset : Bool) : State :=
  let s0 := s.pcount true F.LNK_U_CNT0_REPLAY s.lnk.replay.length
  let s1 := State.injTake { s0 with lnk := { s0.lnk with replay := s0.crcHit 5 s0.lnk.replay } } 5
  let q := match s1.lnk.replay with
    | p :: _ => p.seq
    | [] => 0
  let n := s1.lnk.repResends + 1
  if upset then (s1.lnkRaise Code.LNK_BUF_PARITY true q 0 7).linkExit true 7
  else if 4 ≤ n then s1.linkExit true 3
  else State.wakePort { s1 with lnk := { s1.lnk with repResends := n, repTicks := 0 } } true

/-- D_REPLAY_TIMEOUT (R352). -/
def execDReplayTimeout (upset : Bool) (s : State) : Host.Outcome State Fault Refusal :=
  .next (if s.portUp true && !s.lnk.replay.isEmpty && s.replayTo ≤ s.lnk.repTicks then s.replayResend upset else s)

/-- The acknowledged packets leave D's replay buffer; the latest acknowledgement gives the credit (R350). -/
def State.replayAck (s : State) (a free : Nat) : State :=
  let l := s.lnk
  let left := l.replay.filter fun p => !seqCovers a p.seq
  let last := (l.replay.filter fun p => seqCovers a p.seq).getLast?
  let s1 : State := if seqCovers a l.ackA then { s with lnk := { l with ackA := a % 4096, credit := free } } else s
  match last with
  | none => s1
  | some p =>
    let s2 : State := { s1 with lnk := { s1.lnk with replay := left, repTicks := 0, repResends := 0 } }
    s2.setPort true { s2.port? true with lastSeq := p.seq }

/-- ACK_NAK: an acknowledgement that port D receives (R346, R350, R352). -/
def execAckNak (seq : BitVec 12) (nak replay : Bool) (status : Byte) (free : BitVec 5) (upset : Bool) (s : State) :
    Host.Outcome State Fault Refusal :=
  .next (if !s.portUp true then s
    else
      let s := s.notTs true
      let q := seq.toNat
      let again := nak && replay
      let s0 := if nak && !replay then
          match s.lnk.replay.find? fun p => p.seq == q with
          | some p => s.refuseRecord true p.type status.toNat q
          | none => s
        else s
      let s1 := s0.replayAck (if again then seqPrev q else q) free.toNat
      if again && !s1.lnk.replay.isEmpty then s1.replayResend upset else s1)

/-- A READ_RESP or MSG from downstream: in order and with room, it enters U's return buffer and is
acknowledged; ahead, port D asks for what is missing (R353, R356). -/
def State.returnReceive (s : State) (type id seq : Nat) (payload : List Word) : State :=
  let d := seqDiff seq (s.get F.LNK_D_SEQ_RX_NEXT)
  if d = 0 then
    if s.pst false == PortSt.active && s.retFits payload.length then
      let s1 := (s.put F.LNK_D_SEQ_RX_NEXT (seqNext seq)).retPush type id payload
      { s1 with lnk := { s1.lnk with askAgain := false } }
    else s
  else if d < 2048 then { s with lnk := { s.lnk with askAgain := true } }
  else s

/-- LEN is accepted for a return type (R345). -/
def returnLen (type n : Nat) : Bool :=
  if type = PktType.readResp then decide (2 ≤ n) && decide (n ≤ 65) else type == PktType.msg && (n == 3 || n == 5)

/-- A return packet that fails its frame check: counted, and asked for again (R345, R353). -/
def State.returnFail (s : State) : State :=
  let s1 := s.pcount true F.LNK_U_CNT0_CRC 1
  { s1 with lnk := { s1.lnk with askAgain := true } }

/-- The words of a packet that has passed its frame check on D's return lane: a READ_RESP or MSG is taken; one of a type or
a LEN that R345 does not accept there is discarded and counted (log 80). -/
def State.returnWords (s : State) (ws : List Word) : State :=
  let t := headType ws
  let h := headOf ws
  if returnLen t (headLen ws) then s.returnReceive t h.dest.toNat h.seq.toNat (framePayload ws)
  else if t = PktType.idle ∨ t = PktType.ack ∨ t = PktType.train then s
  else s.pcount true F.LNK_U_CNT0_CRC 1

/-- RETURN_PACKET_RECEIVED: a packet on D's return lane, by its two header words and the words after them up to its EOP; one that fails its frame check, or that has a
type of the forward lanes, is discarded and counted (R343, R345, R356). -/
def execReturnPacketReceived (w0 w1 : Word) (rest : List Word) (eop upset : Bool) (s : State) :
    Host.Outcome State Fault Refusal :=
  .next (if !s.portUp true then s
    else if frameGood { words := w0 :: w1 :: rest, eop := eop, upset := upset } then
      (s.notTs true).returnWords (w0 :: w1 :: rest)
    else (s.notTs true).returnFail)

/-- LNK_INJECT: a write of the injection register (R361). -/
def execLnkInject (i : Initiator) (v : Word) (s : State) : Host.Outcome State Fault Refusal :=
  .next (s.portWrite i A.LNK_INJECT fun s => s.linkInject i s.mayInject v)

end Sys2Proof.Machine
end

