-- ==== Sys2Proof/Machine/Ticks.lean ====
section
/-!
DEFINITION. The safety tick: what one tick boundary of 10 µs does to the island and to every block that counts
its ticks (R57, R275).
-/

namespace Sys2Proof.Machine

/-- SAFETY_TICK: with the island out of reset and its oscillator running, the island samples its pads and supplies
and advances the tick, and each block counts it; the TAP takes its pads (R37, R57, R71, R275, R290, R299, R321, R366, R418, R436, R463). -/
def execSafetyTick (t : TickIn) (s : State) : Host.Outcome State Fault Refusal :=
  .next (if s.safOn then
    let s1 := if s.coreOn then s.dirHits t.dirHits else s
    let s2 := (((((((s1.safTick t).fltTick t).recTick).thmTick).lnkTick).pwrTick t).cfgTick).cvnTick t
    s2.tapTick t.trst t.tck
  else s)

end Sys2Proof.Machine
end

