-- ==== Sys2Proof/Machine/Dispatch.lean ====
section
/-!
DEFINITION. The dispatcher: one arm per command, each a direct call of its meaning.
-/

namespace Sys2Proof.Machine

def exec (i : Instr) (s : State) : Host.Outcome State Fault Refusal :=
  match i with
  | .retime who v => Sys2Proof.Machine.execRetime who v s
  | .rasterStart => Sys2Proof.Machine.execRasterStart s
  | .startOfBlank => Sys2Proof.Machine.execStartOfBlank s
  | .frameDone tachEdges => Sys2Proof.Machine.execFrameDone tachEdges s
  | .lineStart upsets => Sys2Proof.Machine.execLineStart upsets s
  | .displayLoad upsets => Sys2Proof.Machine.execDisplayLoad upsets s
  | .emitterSense high low volts => Sys2Proof.Machine.execEmitterSense high low volts s
  | .readback upsets => Sys2Proof.Machine.execReadback upsets s
  | .spareSlotMaskWrite slot upsets => Sys2Proof.Machine.execSpareSlotMaskWrite slot upsets s
  | .maskEpoch => Sys2Proof.Machine.execMaskEpoch s
  | .maskPassGroup latchedUpsets => Sys2Proof.Machine.execMaskPassGroup latchedUpsets s
  | .rowGroupBoundary g => Sys2Proof.Machine.execRowGroupBoundary g s
  | .isetMeasure iref limited => Sys2Proof.Machine.execIsetMeasure iref limited s
  | .isetFault => Sys2Proof.Machine.execIsetFault s
  | .headroomTrim r => Sys2Proof.Machine.execHeadroomTrim r s
  | .bandFetchStart => Sys2Proof.Machine.execBandFetchStart s
  | .tileCrcCheck upsets dirRead => Sys2Proof.Machine.execTileCrcCheck upsets dirRead s
  | .rowComposition ttUpsets coefUpsets => Sys2Proof.Machine.execRowComposition ttUpsets coefUpsets s
  | .compositionDeadline delivered => Sys2Proof.Machine.execCompositionDeadline delivered s
  | .outStall => Sys2Proof.Machine.execOutStall s
  | .gainReloadRow => Sys2Proof.Machine.execGainReloadRow s
  | .innerSample vsns ref vsnsValid refValid psHigh => Sys2Proof.Machine.execInnerSample vsns ref vsnsValid refValid psHigh s
  | .phasePulseStart p => Sys2Proof.Machine.execPhasePulseStart p s
  | .phasePulseEnd p => Sys2Proof.Machine.execPhasePulseEnd p s
  | .isnsConversion p code valid => Sys2Proof.Machine.execIsnsConversion p code valid s
  | .loopEvaluation upsets stateUpset => Sys2Proof.Machine.execLoopEvaluation upsets stateUpset s
  | .loopFallback => Sys2Proof.Machine.execLoopFallback s
  | .railStartTimeout => Sys2Proof.Machine.execRailStartTimeout s
  | .vledOvp => Sys2Proof.Machine.execVledOvp s
  | .vledUvp => Sys2Proof.Machine.execVledUvp s
  | .isnsRangeFault => Sys2Proof.Machine.execIsnsRangeFault s
  | .isnsRefFault => Sys2Proof.Machine.execIsnsRefFault s
  | .psFltNLow => Sys2Proof.Machine.execPsFltNLow s
  | .cbcTrip p => Sys2Proof.Machine.execCbcTrip p s
  | .phaseOc => Sys2Proof.Machine.execPhaseOc s
  | .crestFallback parity => Sys2Proof.Machine.execCrestFallback parity s
  | .fanPeriod => Sys2Proof.Machine.execFanPeriod s
  | .tachFault => Sys2Proof.Machine.execTachFault s
  | .railEnWrite who v => Sys2Proof.Machine.execRailEnWrite who v s
  | .swapBanks who v => Sys2Proof.Machine.execSwapBanks who v s
  | .loopBankSwap => Sys2Proof.Machine.execLoopBankSwap s
  | .fbClear who loop v => Sys2Proof.Machine.execFbClear who loop v s
  | .lpeCoefMWrite who v => Sys2Proof.Machine.execLpeCoefMWrite who v s
  | .lpeCoefMRead who => Sys2Proof.Machine.execLpeCoefMRead who s
  | .sensorGate counts => Sys2Proof.Machine.execSensorGate counts s
  | .sensorPublish => Sys2Proof.Machine.execSensorPublish s
  | .sensorBroken => Sys2Proof.Machine.execSensorBroken s
  | .shutdownEnd => Sys2Proof.Machine.execShutdownEnd s
  | .throttleGraceExpiry => Sys2Proof.Machine.execThrottleGraceExpiry s
  | .throttleRetimeIssue => Sys2Proof.Machine.execThrottleRetimeIssue s
  | .throttleRelease => Sys2Proof.Machine.execThrottleRelease s
  | .slaveThrottleTimeout => Sys2Proof.Machine.execSlaveThrottleTimeout s
  | .safetyTick t => Sys2Proof.Machine.execSafetyTick t s
  | .darkPadActive a b => Sys2Proof.Machine.execDarkPadActive a b s
  | .darkRelightExpiry => Sys2Proof.Machine.execDarkRelightExpiry s
  | .darkDiscrepancy => Sys2Proof.Machine.execDarkDiscrepancy s
  | .darkSw who v => Sys2Proof.Machine.execDarkSw who v s
  | .firmwareOasisRequest who v => Sys2Proof.Machine.execFirmwareOasisRequest who v s
  | .safLock who v => Sys2Proof.Machine.execSafLock who v s
  | .darkNetMismatch net => Sys2Proof.Machine.execDarkNetMismatch net s
  | .darkNetProof pass => Sys2Proof.Machine.execDarkNetProof pass s
  | .leaveInit => Sys2Proof.Machine.execLeaveInit s
  | .srstFall => Sys2Proof.Machine.execSrstFall s
  | .srstRise => Sys2Proof.Machine.execSrstRise s
  | .srstStuck => Sys2Proof.Machine.execSrstStuck s
  | .relightFbTimeout => Sys2Proof.Machine.execRelightFbTimeout s
  | .relightComplete => Sys2Proof.Machine.execRelightComplete s
  | .dimEntry => Sys2Proof.Machine.execDimEntry s
  | .rampTick => Sys2Proof.Machine.execRampTick s
  | .envelopeExceeded => Sys2Proof.Machine.execEnvelopeExceeded s
  | .lrmFbMismatch => Sys2Proof.Machine.execLrmFbMismatch s
  | .oasisBootCheck => Sys2Proof.Machine.execOasisBootCheck s
  | .oasisRowCheck v => Sys2Proof.Machine.execOasisRowCheck v s
  | .sealReadStart => Sys2Proof.Machine.execSealReadStart s
  | .sealLatch => Sys2Proof.Machine.execSealLatch s
  | .safeOutFail => Sys2Proof.Machine.execSafeOutFail s
  | .islandSupplyFault => Sys2Proof.Machine.execIslandSupplyFault s
  | .islandReset => Sys2Proof.Machine.execIslandReset s
  | .islandResetEnd => Sys2Proof.Machine.execIslandResetEnd s
  | .clockMonitorFail => Sys2Proof.Machine.execClockMonitorFail s
  | .islandOscStop stopped => Sys2Proof.Machine.execIslandOscStop stopped s
  | .clockOffGrantEnd => Sys2Proof.Machine.execClockOffGrantEnd s
  | .rasterStall => Sys2Proof.Machine.execRasterStall s
  | .engineMismatch west east => Sys2Proof.Machine.execEngineMismatch west east s
  | .refMonitorFault first second => Sys2Proof.Machine.execRefMonitorFault first second s
  | .faultLiveRise code => Sys2Proof.Machine.execFaultLiveRise code s
  | .faultLiveFall code => Sys2Proof.Machine.execFaultLiveFall code s
  | .faultPairInvalid code bad => Sys2Proof.Machine.execFaultPairInvalid code bad s
  | .faultPairProof failed => Sys2Proof.Machine.execFaultPairProof failed s
  | .t1Expiry code => Sys2Proof.Machine.execT1Expiry code s
  | .t2Expiry code => Sys2Proof.Machine.execT2Expiry code s
  | .fltAck who v => Sys2Proof.Machine.execFltAck who v s
  | .fltInject who v => Sys2Proof.Machine.execFltInject who v s
  | .injectionEnd => Sys2Proof.Machine.execInjectionEnd s
  | .fltFirstRel who v => Sys2Proof.Machine.execFltFirstRel who v s
  | .faultPinFail => Sys2Proof.Machine.execFaultPinFail s
  | .linkDownExpiry d => Sys2Proof.Machine.execLinkDownExpiry d s
  | .signalDetected d => Sys2Proof.Machine.execSignalDetected d s
  | .ts1Received d lanes => Sys2Proof.Machine.execTs1Received d lanes s
  | .ts2Received d lanes skew => Sys2Proof.Machine.execTs2Received d lanes skew s
  | .trainingTimeout d => Sys2Proof.Machine.execTrainingTimeout d s
  | .trainPacket w0 w1 w2 w3 => Sys2Proof.Machine.execTrainPacket w0 w1 w2 w3 s
  | .skpTimeout d => Sys2Proof.Machine.execSkpTimeout d s
  | .codeErrorLimit d n => Sys2Proof.Machine.execCodeErrorLimit d n s
  | .eiosReceived d l2 => Sys2Proof.Machine.execEiosReceived d l2 s
  | .l1IdleExpiry => Sys2Proof.Machine.execL1IdleExpiry s
  | .lowPowerExitTimeout d => Sys2Proof.Machine.execLowPowerExitTimeout d s
  | .retrain who d v => Sys2Proof.Machine.execRetrain who d v s
  | .packetFrameFail f => Sys2Proof.Machine.execPacketFrameFail f s
  | .receiveBufferFull h => Sys2Proof.Machine.execReceiveBufferFull h s
  | .idlePacket d h payload => Sys2Proof.Machine.execIdlePacket d h payload s
  | .tileWrite h payload dirRead => Sys2Proof.Machine.execTileWrite h payload dirRead s
  | .memWrite h payload => Sys2Proof.Machine.execMemWrite h payload s
  | .regWrite h payload => Sys2Proof.Machine.execRegWrite h payload s
  | .regRead h payload => Sys2Proof.Machine.execRegRead h payload s
  | .commitPacket h payload => Sys2Proof.Machine.execCommitPacket h payload s
  | .objectList h payload => Sys2Proof.Machine.execObjectList h payload s
  | .packetForward => Sys2Proof.Machine.execPacketForward s
  | .ackNak seq nak replay status free upset => Sys2Proof.Machine.execAckNak seq nak replay status free upset s
  | .returnPacketReceived w0 w1 rest eop upset => Sys2Proof.Machine.execReturnPacketReceived w0 w1 rest eop upset s
  | .dReplayTimeout upset => Sys2Proof.Machine.execDReplayTimeout upset s
  | .returnResendTimeout => Sys2Proof.Machine.execReturnResendTimeout s
  | .hostTimeout => Sys2Proof.Machine.execHostTimeout s
  | .irqMessage => Sys2Proof.Machine.execIrqMessage s
  | .lnkInject who v => Sys2Proof.Machine.execLnkInject who v s
  | .epochFrameReceived h crcOk codeErrors cyc => Sys2Proof.Machine.execEpochFrameReceived h crcOk codeErrors cyc s
  | .epochMissing => Sys2Proof.Machine.execEpochMissing s
  | .epochLost => Sys2Proof.Machine.execEpochLost s
  | .slaveResyncLoad => Sys2Proof.Machine.execSlaveResyncLoad s
  | .enumRequest who en => Sys2Proof.Machine.execEnumRequest who en s
  | .enumFrameSend => Sys2Proof.Machine.execEnumFrameSend s
  | .enumFrameReceived id good codeErrors fills token => Sys2Proof.Machine.execEnumFrameReceived id good codeErrors fills token s
  | .shareReceived bytes read => Sys2Proof.Machine.execShareReceived bytes read s
  | .shareDimWrite => Sys2Proof.Machine.execShareDimWrite s
  | .masterFrameReceived r => Sys2Proof.Machine.execMasterFrameReceived r s
  | .ringReturnTimeout => Sys2Proof.Machine.execRingReturnTimeout s
  | .tdmEdge gap => Sys2Proof.Machine.execTdmEdge gap s
  | .tdmLoss => Sys2Proof.Machine.execTdmLoss s
  | .standbyWaitExpiry => Sys2Proof.Machine.execStandbyWaitExpiry s
  | .claimToActive => Sys2Proof.Machine.execClaimToActive s
  | .abdication => Sys2Proof.Machine.execAbdication s
  | .tdmOutMismatch bad => Sys2Proof.Machine.execTdmOutMismatch bad s
  | .tandemDarkEnd => Sys2Proof.Machine.execTandemDarkEnd s
  | .resetNLow => Sys2Proof.Machine.execResetNLow s
  | .resetNRelease vdd vddio => Sys2Proof.Machine.execResetNRelease vdd vddio s
  | .bootStepDone b => Sys2Proof.Machine.execBootStepDone b s
  | .bootStepTimeout => Sys2Proof.Machine.execBootStepTimeout s
  | .pwrReq who v => Sys2Proof.Machine.execPwrReq who v s
  | .pixReady => Sys2Proof.Machine.execPixReady s
  | .rasterStop => Sys2Proof.Machine.execRasterStop s
  | .transitionStepDone => Sys2Proof.Machine.execTransitionStepDone s
  | .transitionStepTimeout => Sys2Proof.Machine.execTransitionStepTimeout s
  | .slaveStartTimeout => Sys2Proof.Machine.execSlaveStartTimeout s
  | .wakeEvent source => Sys2Proof.Machine.execWakeEvent source s
  | .wakeStepReady retentionOk => Sys2Proof.Machine.execWakeStepReady retentionOk s
  | .wakeStepTimeout => Sys2Proof.Machine.execWakeStepTimeout s
  | .railWindowFault => Sys2Proof.Machine.execRailWindowFault s
  | .pllLockLoss => Sys2Proof.Machine.execPllLockLoss s
  | .pllRelock => Sys2Proof.Machine.execPllRelock s
  | .vpixLoss => Sys2Proof.Machine.execVpixLoss s
  | .vpixRestored => Sys2Proof.Machine.execVpixRestored s
  | .freezeRequest high => Sys2Proof.Machine.execFreezeRequest high s
  | .gpio3RisingEdge => Sys2Proof.Machine.execGpio3RisingEdge s
  | .startJob who n t => Sys2Proof.Machine.execStartJob who n t s
  | .memScan who n => Sys2Proof.Machine.execMemScan who n s
  | .nvmWrite who n => Sys2Proof.Machine.execNvmWrite who n s
  | .bistRun who n => Sys2Proof.Machine.execBistRun who n s
  | .calRun who n => Sys2Proof.Machine.execCalRun who n s
  | .imageLoad who n => Sys2Proof.Machine.execImageLoad who n s
  | .restructure who n => Sys2Proof.Machine.execRestructure who n s
  | .defectRebuild who n => Sys2Proof.Machine.execDefectRebuild who n s
  | .lifecycle who n => Sys2Proof.Machine.execLifecycle who n s
  | .recCheckpoint who n => Sys2Proof.Machine.execRecCheckpoint who n s
  | .suspendJob who n => Sys2Proof.Machine.execSuspendJob who n s
  | .jobSuspended n pos => Sys2Proof.Machine.execJobSuspended n pos s
  | .resumeJob who n => Sys2Proof.Machine.execResumeJob who n s
  | .cancelJob who n => Sys2Proof.Machine.execCancelJob who n s
  | .scanComplete => Sys2Proof.Machine.execScanComplete s
  | .nvmUnitStart => Sys2Proof.Machine.execNvmUnitStart s
  | .nvmUnitDone => Sys2Proof.Machine.execNvmUnitDone s
  | .imageStaged flash => Sys2Proof.Machine.execImageStaged flash s
  | .restructureSwap => Sys2Proof.Machine.execRestructureSwap s
  | .restructureNoOasis => Sys2Proof.Machine.execRestructureNoOasis s
  | .lifecycleFuseBlow verified => Sys2Proof.Machine.execLifecycleFuseBlow verified s
  | .dropImage who v => Sys2Proof.Machine.execDropImage who v s
  | .keyWrite who n v => Sys2Proof.Machine.execKeyWrite who n v s
  | .lk0640Entry => Sys2Proof.Machine.execLk0640Entry s
  | .scanEntry => Sys2Proof.Machine.execScanEntry s
  | .idcode => Sys2Proof.Machine.execIdcode s
  | .regaccRead a => Sys2Proof.Machine.execRegaccRead a s
  | .regaccWrite a v => Sys2Proof.Machine.execRegaccWrite a v s
  | .postGroupDone banks rams => Sys2Proof.Machine.execPostGroupDone banks rams s
  | .latchTestRow failed => Sys2Proof.Machine.execLatchTestRow failed s
  | .bgTestSlice => Sys2Proof.Machine.execBgTestSlice s
  | .bankTestDone pass => Sys2Proof.Machine.execBankTestDone pass s
  | .migrateDone => Sys2Proof.Machine.execMigrateDone s
  | .bgEnWrite who v => Sys2Proof.Machine.execBgEnWrite who v s
  | .bankEnWrite who v => Sys2Proof.Machine.execBankEnWrite who v s
  | .sealTile who v => Sys2Proof.Machine.execSealTile who v s
  | .sealComplete dirRead => Sys2Proof.Machine.execSealComplete dirRead s
  | .cmpTtDataRead who => Sys2Proof.Machine.execCmpTtDataRead who s
  | .cmpTtDataWrite who v => Sys2Proof.Machine.execCmpTtDataWrite who v s
  | .sclCoefDataRead who => Sys2Proof.Machine.execSclCoefDataRead who s
  | .sclCoefDataWrite who v => Sys2Proof.Machine.execSclCoefDataWrite who v s
  | .aryPcDataRead who => Sys2Proof.Machine.execAryPcDataRead who s
  | .aryPcDataWrite who v => Sys2Proof.Machine.execAryPcDataWrite who v s
  | .cvnShDataAccess who write => Sys2Proof.Machine.execCvnShDataAccess who write s
  | .hltDefectSet who v => Sys2Proof.Machine.execHltDefectSet who v s
  | .hltDlog0Read who => Sys2Proof.Machine.execHltDlog0Read who s
  | .defectLimitWrite who v => Sys2Proof.Machine.execDefectLimitWrite who v s
  | .senseRowFault => Sys2Proof.Machine.execSenseRowFault s
  | .rbPersist => Sys2Proof.Machine.execRbPersist s
  | .signatureMissLimit => Sys2Proof.Machine.execSignatureMissLimit s
  | .mskSubmit who v => Sys2Proof.Machine.execMskSubmit who v s
  | .listTimeout => Sys2Proof.Machine.execListTimeout s
  | .gainReload who v => Sys2Proof.Machine.execGainReload who v s
  | .commitArm who rdy alive => Sys2Proof.Machine.execCommitArm who rdy alive s
  | .commitWithdraw who => Sys2Proof.Machine.execCommitWithdraw who s
  | .commitStale => Sys2Proof.Machine.execCommitStale s
  | .followTimeout => Sys2Proof.Machine.execFollowTimeout s
  | .operatingSecond upset => Sys2Proof.Machine.execOperatingSecond upset s
  | .litSecond => Sys2Proof.Machine.execLitSecond s
  | .checkpointStart => Sys2Proof.Machine.execCheckpointStart s
  | .checkpointCommit => Sys2Proof.Machine.execCheckpointCommit s
  | .checkpointTimeout => Sys2Proof.Machine.execCheckpointTimeout s
  | .calAutoTrigger => Sys2Proof.Machine.execCalAutoTrigger s
  | .calItemComplete p => Sys2Proof.Machine.execCalItemComplete p s
  | .spiStatus tag len a => Sys2Proof.Machine.execSpiStatus tag len a s
  | .spiRd tag len a => Sys2Proof.Machine.execSpiRd tag len a s
  | .spiWr tag len a data => Sys2Proof.Machine.execSpiWr tag len a data s
  | .spiRdFix tag len a => Sys2Proof.Machine.execSpiRdFix tag len a s
  | .spiWrFix tag len a data => Sys2Proof.Machine.execSpiWrFix tag len a data s
  | .spiMemRd tag len a => Sys2Proof.Machine.execSpiMemRd tag len a s
  | .spiMemWr tag len a data => Sys2Proof.Machine.execSpiMemWr tag len a data s
  | .spiFrameRejected crc => Sys2Proof.Machine.execSpiFrameRejected crc s
  | .spiTimeout => Sys2Proof.Machine.execSpiTimeout s
  | .spiResponseReady => Sys2Proof.Machine.execSpiResponseReady s
  | .irqStatusClear who v => Sys2Proof.Machine.execIrqStatusClear who v s
  | .irqRawRead who => Sys2Proof.Machine.execIrqRawRead who s
  | .readClearRegister who a => Sys2Proof.Machine.execReadClearRegister who a s
  | .registerWrite who a v => Sys2Proof.Machine.execRegisterWrite who a v s
  | .vddBelowThreshold => Sys2Proof.Machine.execVddBelowThreshold s
  | .vddaLnkLoss => Sys2Proof.Machine.execVddaLnkLoss s
  | .nomadDomainReady => Sys2Proof.Machine.execNomadDomainReady s
  | .restoreMergeDone => Sys2Proof.Machine.execRestoreMergeDone s
  | .bodyReadTimeout => Sys2Proof.Machine.execBodyReadTimeout s
  | .preChargeCalibrationSlot ones => Sys2Proof.Machine.execPreChargeCalibrationSlot ones s
  | .packetTypeNotUsed type h payload => Sys2Proof.Machine.execPacketTypeNotUsed type h payload s
  | .spiOpNotUsed op tag len a => Sys2Proof.Machine.execSpiOpNotUsed op tag len a s

end Sys2Proof.Machine
end

