-- ==== Sys2Proof/Safety.lean ====
section
/-!
DEFINITION. What the claims about this block speak of: the canonical form of its stored words and bytes, a command that
completes, and what two states have in common.
-/

namespace Sys2Proof.Machine

/-- Stored words and bytes in their canonical form: keys strictly rising, and nothing listed that reads as an unlisted
key does. -/
def WfData (regs shadow : List (Nat × Word)) (lmem nvm : List Host.Cell) : Prop :=
  SparseWf regReset regs ∧ SparseWf regReset shadow ∧ SparseWf memDefault lmem ∧ SparseWf memDefault nvm

/-- The registers, active and shadow, and both memory windows are in canonical form. -/
def State.Wf (s : State) : Prop := WfData s.regs s.shadow s.lmem s.nvm

/-- A memory is in canonical form. -/
def Memory.wf (m : List Host.Cell) : Bool := sparseWfB memDefault m

/-- The command completes: `exec` answers a next state, of which `P` holds. -/
def Completes (c : Instr) (s : State) (P : State → Prop) : Prop := ∃ t, exec c s = .next t ∧ P t

end Sys2Proof.Machine
end

