-- ==== Sys2Proof/Claims.lean ====
section
/-!
DEFINITION. What the claims say of two states and of an access through the register port.
-/

namespace Sys2Proof.Machine

/-- `t` is `s` but for active registers, and of these only those at the addresses `as` may differ. -/
def OnlyRegs (as : List Nat) (s t : State) : Prop :=
  { t with regs := s.regs } = s ∧ ∀ a, a ∉ as → t.reg a = s.reg a

/-- Every register outside the addresses `as` reads in `t` as in `s`, active and shadow. -/
def RegsBut (as : List Nat) (s t : State) : Prop := ∀ a, a ∉ as → t.reg a = s.reg a ∧ t.shReg a = s.shReg a

/-- Every byte of both memory windows reads in `t` as in `s`. -/
def SameMemory (s t : State) : Prop := (∀ a, t.lmByte a = s.lmByte a) ∧ ∀ a, t.nvByte a = s.nvByte a

/-- A write at `a` passes the register port: AON is out of reset and the decision of R485 is OK. -/
def State.writable (s : State) (a : Nat) : Prop := s.aonOn = true ∧ s.portDecide a true = Res.ok

/-- A read at `a` passes the register port of a module that is not frozen, and a register stands at `a`. -/
def State.readable (s : State) (a : Nat) : Prop :=
  s.aonOn = true ∧ s.portDecide a false = Res.ok ∧ s.frozen = false ∧ (regRow a).isSome = true

/-- The answer that the initiator of an accepted write gets. -/
def State.accepted (s : State) : State := s.answer 0 Res.ok

/-- An SPI frame has begun: what it sends is fixed (R480, R481), and LOST and RSP_VALID are as given. -/
def State.spiFrameBegun (s : State) (lost valid : Bool) : State :=
  { s with spi := { s.spi with sent := s.spiOut, silent := false, lost := lost, valid := valid } }

/-- The content of the SPI response buffer (R481). -/
def spiAnswer (tag : Byte) (op result index len : Nat) (data : List Byte) : SpiResp :=
  { tag := tag, op := op, result := result, index := index, len := len, data := data }

/-- The answer of an accepted SPI frame waits for the response buffer (R482). -/
def State.spiWaiting (s : State) (tag : Byte) (op result index len : Nat) (data : List Byte) : State :=
  { s with spi := { s.spi with busy := some (spiAnswer tag op result index len data) } }

/-- The result that REGACC holds for Capture-DR: its code and the data read (R418). -/
def State.regaccShows (s : State) (code : Nat) (data : Word) : State :=
  { s with cfg := { s.cfg with jtagCode := code, jtagData := data } }

/-- A dark net asserted by the island is asserted at the pixel tier by at least one of the two: the far ends of both nets
follow, or one does and the proof of INIT has released none (R202, R280). -/
def State.netsReach (s : State) : Bool :=
  (!s.saf.netBadA && !s.saf.netBadB) || ((!s.saf.netBadA || !s.saf.netBadB) && s.saf.proofNet == 0)

/-- Registers whose write has a rule of its own, beside the key words, the job commands, the loop commands, the fault masks
and the island's registers. -/
def ownWriteRule : List Nat :=
  [A.GLB_COMMIT, A.GLB_COMMIT_CTRL, A.RAS_CTRL, A.LMC_CTRL, A.LMC_BANK_EN, A.LMC_SEAL, A.CMP_TT_DATA, A.SCL_COEF_DATA, A.MSK_SUBMIT,
    A.LUM_GAIN_RELOAD, A.ARY_PC_DATA, A.HLT_DEFECT_SET, A.HLT_DEFECT_LIMIT, A.LPE_CTRL, A.LPE_BANK_A, A.LPE_BANK_B,
    A.LPE_COEF_M, A.REC_CODE_AUX, A.FLT_ACK, A.FLT_INJECT, A.FLT_FIRST_REL, A.LNK_U_CTRL, A.LNK_D_CTRL, A.LNK_MSG, A.LNK_INJECT,
    A.CVN_CTRL, A.CVN_SH_DATA, A.CFG_IMG, A.CFG_TOKEN0, A.CFG_TOKEN1, A.PWR_REQ]

/-- The access codes alone say what a write at `a` does. -/
def plainWrite (a : Nat) : Bool :=
  !ownWriteRule.contains a && a / 0x1000 != 11 &&
  !(List.range 8).any (fun n => a == A.CFG_KEYn n) && !(List.range 4).any (fun n => a == A.PWR_JOBn_CMD n) &&
  !(List.range 9).any (fun n => a == A.LPE_LPn_CMD n) && !(List.range 8).any (fun n => a == A.FLT_MASKn n)

/-- Registers whose read shows what other state holds, or has a rule of its own. -/
def ownReadRule : List Nat :=
  [A.GLB_STATE, A.GLB_POS, A.GLB_FRAME, A.FLT_STATUS, A.CVN_SH_DATA, A.CVN_RING, A.CVN_TDM_STATUS, A.CFG_NVM_STATUS,
    A.LMC_DIR_CRC, A.LMC_DIR_STATE, A.LMC_LAYER_SEALED, A.CMP_TT_DATA, A.SCL_COEF_DATA, A.ARY_STATUS, A.ARY_COUNT,
    A.ARY_PC_DATA, A.HLT_DEFECT_STATE, A.HLT_DLOG0, A.HLT_DLOG1, A.LPE_COEF_M, A.REC_STATUS, A.REC_OPSEC, A.REC_LITSEC,
    A.REC_CODE_CNT, A.REC_CODE_AUX]

/-- The access codes alone say what a read at `a` returns and does. -/
def plainRead (a : Nat) : Bool :=
  !ownReadRule.contains a && !(0xC080 ≤ a && a < 0xC0A0) && !(0xC400 ≤ a && a < 0xC800)

end Sys2Proof.Machine
end

