-- ==== Sys2Proof/Machine/Pads.lean ====
section
/-!
DEFINITION. The output pads whose level follows from the state: what the module drives on them, and what the clamps of
a domain that is off hold there (R40, R65, R254, R299, R321, R332, R388, R435, R492-R494).
-/

namespace Sys2Proof.Machine

/-- What an output pad shows. -/
inductive PadLevel where
  | low
  | high
  | highZ
  /-- Left to the pull-up of the board (R492). -/
  | released
  /-- The block that owns the pad drives it, or it carries its own traffic. -/
  | driven
  /-- A clock, or the heartbeat of R388. -/
  | beat
  deriving DecidableEq, Repr

/-- A pad that is driven to a level. -/
def padBit (b : Bool) : PadLevel := if b then .high else .low

/-- REFOUT_P/N: 100 MHz while the main PLL is locked and VDDA_LNK is there, else differential low (R332, R435, R500). -/
def State.refOutPad (s : State) : PadLevel := if s.flag F.PWR_DOM_PLL && !s.pwr.vddaLost then .beat else .low

/-- The frame sync output: the pulse of R65 while WIDTH is not 0; low with CORE off (R435) and, while the raster is stopped,
low from the cycle it stops (DESIGN CHOICE, log 69). -/
def State.fsyncPad (s : State) : Bool := s.coreOn && s.ras.fsync && s.get F.RAS_FSYNC_WIDTH != 0

/-- The function code that the image gives a GPIO (R398). -/
def State.gpioFunc (s : State) (n : Nat) : Nat := bitsOf (s.get F.CFG_GPIO_FUNC) (2 * n + 1) (2 * n)

/-- The code of frame sync out on a GPIO (R398). -/
def gpioSync (n : Nat) : Nat := if n = 2 then 1 else 2

/-- GPIO0 to GPIO3: fan output, frame sync out, or an input.  With CORE off the clamps hold the fan output at 100 % duty and
frame sync low; which of the two a pad carries is what the image in force has given it (R40, R65, R254, R398, R435). -/
def State.gpioPad (s : State) (n : Nat) : PadLevel :=
  let f := s.gpioFunc n
  if f = gpioSync n then padBit s.fsyncPad
  else if n = 0 ∧ f = 1 then padBit (!s.coreOn || s.fanPad)
  else .highZ

/-- TDM_OUT carries the heartbeat: 1 MHz, 50 island cycles high and 50 low, in ACTIVE and CLAIM (R388). -/
def State.tdmBeat (s : State) : Bool := !s.saf.held && (s.role == Role.active || s.role == Role.claim)

/-- TDM_OUT (R388). -/
def State.tdmOutPad (s : State) : PadLevel := if s.tdmBeat then .beat else .low

/-- The driven level of TDM_OUT in the `n`-th island cycle of the heartbeat (R388). -/
def State.tdmOutLevel (s : State) (n : Nat) : Bool := s.tdmBeat && decide (n % 100 < 50)

/-- CVN_OUT carries symbols while EN = 1 and the main PLL is locked; it is low otherwise, and between frames (R367, R435). -/
def State.cvnOutPad (s : State) : PadLevel := if s.cvnOn && s.flag F.CVN_CTRL_EN then .driven else .low

/-- The transmitters of a port: electrical idle in DOWN, in L1 and L2, with LNK off and without VDDA_LNK (R334, R341, R342,
R435, R500). -/
def State.linkOutPad (s : State) (d : Bool) : PadLevel :=
  if s.lnkOn && !s.pwr.vddaLost && s.pst d != PortSt.down && (s.pst d != PortSt.active || s.lps d == 0 || (s.port? d).exiting)
  then .driven else .highZ

/-- QSPI_CS_N, QSPI_CLK and QSPI_IO: with CORE off the clamps hold high, low and high impedance (R435). -/
def State.qspiPads (s : State) : PadLevel × PadLevel × PadLevel :=
  if s.coreOn then (.driven, .driven, .driven) else (.high, .low, .highZ)

/-- IRQ_N: low while an enabled event stands (R492). -/
def State.irqPad (s : State) : PadLevel := if s.aonOn && s.irqActive then .low else .released

/-- READY (R493). -/
def State.readyPad (s : State) : PadLevel := padBit (s.aonOn && s.ready)

/-- FAULT_P and FAULT_N: a fault too in OFF; high impedance while the island is in reset (R321, R494). -/
def State.faultPads (s : State) : PadLevel × PadLevel :=
  let f := s.pin || !s.aonOn
  if s.saf.held then (.highZ, .highZ) else (padBit (!f), padBit f)

/-- LRM_A and LRM_B: low and high at removal, high and low at light; high impedance while the island is in reset (R291). -/
def State.lrmPads (s : State) : PadLevel × PadLevel :=
  if s.saf.held then (.highZ, .highZ) else (padBit s.saf.lrm, padBit (!s.saf.lrm))

/-- SAFE_A and SAFE_B; high impedance while the island is in reset (R299). -/
def State.safePadLevels (s : State) : PadLevel × PadLevel :=
  match s.safePads with
  | none => (.highZ, .highZ)
  | some p => (padBit p.1, padBit p.2)

/-- PWM1 to PWM6: with CORE off the clamps hold them low (R40, R231). -/
def State.pwmPad (s : State) (p : Nat) : PadLevel := padBit (s.coreOn && s.lpe.pwm.getLsbD p)

/-- SPI_SDO in bit `n` of a frame, the most significant bit of a byte first: high impedance while SPI_CS_N is high, while AON is
held in reset, and after a TIMEOUT whatever SPI_SCK then does (R475, R479, R494). -/
def State.spiSdoPad (s : State) (csHigh : Bool) (n : Nat) : PadLevel :=
  if csHigh || !s.aonOn || s.spi.silent then .highZ else padBit ((s.spiSent (n / 8)).getMsbD (n % 8))

/-- TDO: driven in the two shift states only (R418, R494; PRESUMED, log entry 57). -/
def State.tdoPad (s : State) : PadLevel :=
  if s.aonOn && !s.cfg.trst && (s.cfg.tap == .shiftDr || s.cfg.tap == .shiftIr) then
    (match s.cfg.bits with
    | b :: _ => padBit b
    | [] => .driven)
  else .highZ

/-- ISET: the reference current is drawn with AON out of reset (R196, R494). -/
def State.isetPad (s : State) : PadLevel := if s.aonOn then .driven else .highZ

/-- PH_EN: with CORE off the clamp holds it low (R40, R249). -/
def State.phEnPad (s : State) : PadLevel := padBit (s.coreOn && s.lpe.phEn)

end Sys2Proof.Machine
end

