-- ==== Sys2Proof/Certificates/Slice0/Obligations.lean ====
section
/-!
DEFINITION. The statements for the provers.  `Completes c s P` says that the command `c` has its effect at `s`: `exec`
answers a next state of which `P` holds.  The rows that a clause speaks of are named by their constructors.
-/

open Sys2Proof Sys2Proof.Machine

/-- A step carries out exactly the command at the front of the queue. Rests on 95_what_each_step_holds.md, R26. -/
def Obligations.StepRunsFrontCommand : Prop :=
  (∀ (c : Instr) (q : List Instr) (s : State), step (s.withPending (c :: q)) = exec c (s.withPending q)) ∧
  ∀ s : State, s.pending = [] → step s = .next s

/-- Every step answers a next state and takes exactly one command off the queue.  Rests on R21, R26,
95_what_each_step_holds.md. -/
def Obligations.EveryStepTakesOneCommand : Prop :=
  ∀ s : State, s.Wf → ∃ t, step s = .next t ∧ t.pending = s.pending.tail

/-- Every step keeps the registers and both memory windows in canonical form. Rests on R14, R24, R485, R21. -/
def Obligations.StepKeepsCanonicalForm : Prop :=
  ∀ s t : State, s.Wf → step s = .next t → t.Wf

/-- The state after reset is in canonical form, in OFF, with both memory windows empty. Rests on R488, R39, R425. -/
def Obligations.ResetIsCanonicalAndOff : Prop :=
  State.reset.Wf ∧ State.reset.power = 0 ∧ State.reset.pending = [] ∧
  (∀ a, State.reset.reg a = regReset a ∧ State.reset.shReg a = regReset a) ∧
  ∀ a, State.reset.lmByte a = 0 ∧ State.reset.nvByte a = 0

/-- A field that is written reads back its value, and no other bit of any register changes. Rests on R11, R14. -/
def Obligations.FieldWriteReadsBack : Prop :=
  ∀ (s : State) (f : Field) (v : Nat), s.Wf → f.hi < 32 → f.lo ≤ f.hi →
    (s.put f v).get f = v % 2 ^ (f.hi + 1 - f.lo) ∧
    (∀ i, ¬ (f.lo ≤ i ∧ i ≤ f.hi) → ((s.put f v).reg f.addr).getLsbD i = (s.reg f.addr).getLsbD i) ∧
    OnlyRegs [f.addr] s (s.put f v) ∧
    (s.inc f).get f = min (s.get f + 1) (2 ^ (f.hi + 1 - f.lo) - 1)

/-- An event sets its bit in both interrupt registers; W1C clears it in the one, the raw read in the other.  Rests on
R490, R491, R357, R14. -/
def Obligations.EventBitsStandUntilCleared : Prop :=
  (∀ (s : State) (n : Nat), s.Wf → n < 24 →
    (∀ i, i < 32 → ((s.irq n).reg A.GLB_IRQ_STATUS).getLsbD i = (decide (i = n) || (s.reg A.GLB_IRQ_STATUS).getLsbD i) ∧
      ((s.irq n).reg A.GLB_IRQ_RAW).getLsbD i = (decide (i = n) || (s.reg A.GLB_IRQ_RAW).getLsbD i)) ∧
    RegsBut [A.GLB_IRQ_STATUS, A.GLB_IRQ_RAW] s (s.irq n) ∧
    { s.irq n with regs := s.regs, lnk := s.lnk } = s ∧
    (s.irq n).lnk = { s.lnk with irqEvent := s.lnk.irqEvent || ((s.reg A.GLB_IRQ_ENABLE).getLsbD n && s.get F.LNK_MSG_IRQ != 0) }) ∧
  (∀ (who : Initiator) (v : Word) (s : State), s.Wf → s.writable A.GLB_IRQ_STATUS →
    Completes (.irqStatusClear who v) s fun t =>
      (∀ i, i < 24 → (t.reg A.GLB_IRQ_STATUS).getLsbD i = ((s.reg A.GLB_IRQ_STATUS).getLsbD i && !v.getLsbD i)) ∧
      OnlyRegs [A.GLB_IRQ_STATUS] s { t with port := s.port } ∧ t.port = { value := 0, result := 0 }) ∧
  (∀ (who : Initiator) (s : State), s.Wf → s.readable A.GLB_IRQ_RAW →
    Completes (.irqRawRead who) s fun t =>
      t.port = { value := s.reg A.GLB_IRQ_RAW, result := 0 } ∧
      (∀ i, i < 24 → (t.reg A.GLB_IRQ_RAW).getLsbD i = false) ∧
      OnlyRegs [A.GLB_IRQ_RAW] s { t with port := s.port })

/-- A register access that the port refuses is recorded and reported, and changes nothing else.  Rests on R23, R425,
R437, R421, R447, R485, R487. -/
def Obligations.PortRefusesAndRecords : Prop :=
  (∀ (who : Initiator) (a : BitVec 17) (v : Word) (s : State), a.toNat % 4 = 0 → a.toNat < 0x15000 →
    (s.aonOn = false → exec (.registerWrite who a v) s = .next s ∧ exec (.readClearRegister who a) s = .next s) ∧
    (s.aonOn = true → s.portDecide a.toNat true = 0x07 →
      exec (.registerWrite who a v) s = .next
        (((((s.inc F.GLB_OFFBLOCK_COUNT_COUNT).raiseI 0xC0
          { init := initNo who, access := writeKind who, addr := a.toNat }).accRecord (initNo who) 0x07 true a.toNat)).answer
          0 0x07)) ∧
    (∀ r, s.aonOn = true → s.portDecide a.toNat true = r → r = 0x06 ∨ r = 0x08 → a.toNat ≠ A.LMC_SEAL ∨ s.post = false →
      exec (.registerWrite who a v) s = .next ((s.accRecord (initNo who) r true a.toNat).answer 0 r)) ∧
    (∀ r, s.aonOn = true → s.portDecide a.toNat false = r → r = 0x06 ∨ r = 0x07 →
      exec (.readClearRegister who a) s = .next ((s.accRecord (initNo who) r false a.toNat).answer 0 r)) ∧
    (s.aonOn = true → s.portDecide a.toNat false = 0 → regRow a.toNat = none →
      exec (.readClearRegister who a) s = .next (s.answer 0 0))) ∧
  (∀ (s : State) (n r : Nat) (write : Bool) (a : Nat), s.Wf → n < 16 → r < 256 → r ≠ 0 → a < 2 ^ 32 →
    (s.accRecord n r write a).get F.GLB_ACC_ERR_VALID = 1 ∧ (s.accRecord n r write a).get F.GLB_ACC_ERR_RESULT = r ∧
    (s.accRecord n r write a).get F.GLB_ACC_ERR_INIT = n ∧ (s.accRecord n r write a).get F.GLB_ACC_ERR_WRITE = b2n write ∧
    (s.accRecord n r write a).get F.GLB_ACC_ADDR_ADDR = a ∧
    OnlyRegs [A.GLB_ACC_ERR, A.GLB_ACC_ADDR] s (s.accRecord n r write a)) ∧
  (∀ (s : State) (a : Nat) (write : Bool), a < 0x15000 →
    (a / 0x1000 = 10 → s.get F.PWR_DOM_CORE = 0 → s.portDecide a write = 0x07) ∧
    (a / 0x1000 = 13 → s.get F.PWR_DOM_LNK = 0 → s.portDecide a write = 0x07) ∧
    (a / 0x1000 ∈ [1, 2, 3, 4, 5, 6, 7, 8, 9, 15, 17, 18, 19, 20] →
      s.get F.PWR_DOM_CORE = 0 ∨ s.power = 6 → s.portDecide a write = 0x07)) ∧
  ∀ (s : State) (a : Nat) (write : Bool), a < 0x15000 →
    (a / 0x1000 ∈ [0, 11, 12, 14, 16] ∨ (s.get F.PWR_DOM_CORE ≠ 0 ∧ s.get F.PWR_DOM_LNK ≠ 0 ∧ s.power ∈ [3, 4, 5])) →
    s.get F.BST_STATUS_POST = 0 → s.get F.CFG_STATUS_FROZEN = 0 →
    s.portDecide a write =
      if write ∧ ((regRow a).isNone ∨ hasWritable a = false) then 0x08 else 0

/-- A register without a rule of its own takes a write bit by bit by its access codes, and a read clears its RC fields.
Rests on R14, R15, R67, R485. -/
def Obligations.PlainRegistersFollowAccessCodes : Prop :=
  (∀ (who : Initiator) (a : BitVec 17) (v : Word) (s : State), s.Wf → a.toNat % 4 = 0 → a.toNat < 0x15000 →
    s.writable a.toNat → plainWrite a.toNat = true → s.absent a.toNat = false →
    Completes (.registerWrite who a v) s fun t =>
      (∀ i, i < 32 → (t.reg a.toNat).getLsbD i =
        if (accessMask .w1s a.toNat).getLsbD i ∧ v.getLsbD i then true
        else if (accessMask .w1c a.toNat).getLsbD i ∧ v.getLsbD i then false
        else if (accessMask .rw a.toNat).getLsbD i then v.getLsbD i
        else (s.reg a.toNat).getLsbD i) ∧
      (∀ i, i < 32 → (t.shReg a.toNat).getLsbD i =
        if (accessMask .rws a.toNat).getLsbD i then v.getLsbD i else (s.shReg a.toNat).getLsbD i) ∧
      RegsBut [a.toNat] s t ∧ { t with regs := s.regs, shadow := s.shadow } = s.accepted) ∧
  ∀ (who : Initiator) (a : BitVec 17) (s : State), s.Wf → a.toNat % 4 = 0 → a.toNat < 0x15000 →
    s.readable a.toNat → plainRead a.toNat = true → s.absent a.toNat = false →
    Completes (.readClearRegister who a) s fun t =>
      (∀ i, i < 32 → t.port.value.getLsbD i =
        if (accessMask .wo a.toNat).getLsbD i then false
        else if (accessMask .rws a.toNat).getLsbD i then (s.shReg a.toNat).getLsbD i
        else (s.reg a.toNat).getLsbD i) ∧ t.port.result = 0 ∧
      (∀ i, i < 32 → (t.reg a.toNat).getLsbD i =
        if (accessMask .rc1 a.toNat).getLsbD i then true
        else if (accessMask .rc a.toNat).getLsbD i then false else (s.reg a.toNat).getLsbD i) ∧
      OnlyRegs [a.toNat] s { t with port := s.port }

/-- SPI frames that make no access: status-only, rejected, timed out, refused as a whole, and the filling of the
response buffer.  Rests on R478, R479, R480, R481, R482, R484, R487. -/
def Obligations.SpiFramesWithoutAccess : Prop :=
  (∀ (tag : Byte) (a : Word) (op : BitVec 4) (s : State), s.aonOn = true →
    exec (.spiStatus tag 0 a) s = .next (s.spiFrameBegun false s.spi.valid) ∧
    (7 ≤ op.toNat → exec (.spiOpNotUsed op tag 0 a) s = .next (s.spiFrameBegun false s.spi.valid))) ∧
  (∀ s : State, s.aonOn = true →
    exec (.spiFrameRejected true) s = .next ((s.spiFrameBegun true s.spi.valid).inc F.GLB_SPI_CNT_CRC) ∧
    exec (.spiFrameRejected false) s = .next ((s.spiFrameBegun true s.spi.valid).inc F.GLB_SPI_CNT_SHORT) ∧
    Completes .spiTimeout s fun t =>
      { t with spi := { t.spi with silent := false } } = (s.spiFrameBegun true s.spi.valid).inc F.GLB_SPI_CNT_TIMEOUT ∧
      ∀ n, t.spiSdoPad false n = .highZ) ∧
  (∀ (tag : Byte) (len : BitVec 16) (a : Word) (op : BitVec 4) (s : State), s.aonOn = true → len ≠ 0 → 7 ≤ op.toNat →
    (s.spi.busy ≠ none →
      exec (.spiStatus tag len a) s = .next ((s.spiFrameBegun true s.spi.valid).inc F.GLB_SPI_CNT_OVERRUN) ∧
      exec (.spiOpNotUsed op tag len a) s = .next ((s.spiFrameBegun true s.spi.valid).inc F.GLB_SPI_CNT_OVERRUN)) ∧
    (s.spi.busy = none →
      exec (.spiStatus tag len a) s = .next
        (((s.spiFrameBegun false false).accRecord 0 0x0A false a.toNat).spiWaiting tag 0 0x0A 0 len.toNat []) ∧
      exec (.spiOpNotUsed op tag len a) s = .next
        (((s.spiFrameBegun false false).accRecord 0 0x0B false a.toNat).spiWaiting tag op.toNat 0x0B 0 len.toNat []))) ∧
  ∀ (r : SpiResp) (s : State), s.spi.busy = some r →
    exec .spiResponseReady s = .next { s with spi := { s.spi with resp := r, valid := true, busy := none } }

/-- SPI RD, WR, RD_FIX and WR_FIX make their word accesses in order and hold the answer.  Rests on R475, R477, R482,
R484, R485, R81. -/
def Obligations.SpiWordFramesAccessInOrder : Prop :=
  (∀ (tag : Byte) (len : BitVec 16) (a : Word) (data : List Word) (s : State),
    s.aonOn = true → s.spi.busy = none → 1 ≤ len.toNat → len.toNat ≤ 64 → a.toNat % 4 = 0 → data.length = len.toNat →
    let s0 := s.spiFrameBegun false false
    let run := (List.range len.toNat).map fun k => a.toNat + 4 * k
    let fix := List.replicate len.toNat a.toNat
    (a.toNat + 4 * len.toNat ≤ 0x15000 →
      (let r := s0.readRun .spi 0 run {}
       exec (.spiRd tag len a) s = .next
         (r.2.spiWaiting tag 1 r.1.result r.1.index len.toNat (r.1.words.reverse.flatMap beBytes))) ∧
      (let r := s0.writeRun .spi 0 (run.zip data) {}
       exec (.spiWr tag len a data) s = .next (r.2.spiWaiting tag 2 r.1.result r.1.index len.toNat []))) ∧
    (a.toNat < 0x15000 →
      (let r := s0.readRun .spi 0 fix {}
       exec (.spiRdFix tag len a) s = .next
         (r.2.spiWaiting tag 3 r.1.result r.1.index len.toNat (r.1.words.reverse.flatMap beBytes))) ∧
      (let r := s0.writeRun .spi 0 (fix.zip data) {}
       exec (.spiWrFix tag len a data) s = .next (r.2.spiWaiting tag 4 r.1.result r.1.index len.toNat [])))) ∧
  ∀ (tag : Byte) (len : BitVec 16) (a : Word) (data : List Word) (res : Nat) (s : State),
    s.aonOn = true → s.spi.busy = none → data.length = len.toNat →
    (64 < len.toNat ∧ res = 0x0A) ∨ (1 ≤ len.toNat ∧ len.toNat ≤ 64 ∧ a.toNat % 4 ≠ 0 ∧ res = 0x0D) →
    let refused := fun (op : Nat) (write : Bool) =>
      ((s.spiFrameBegun false false).accRecord 0 res write a.toNat).spiWaiting tag op res 0 len.toNat []
    exec (.spiRd tag len a) s = .next (refused 1 false) ∧
    exec (.spiWr tag len a data) s = .next (refused 2 true) ∧
    exec (.spiRdFix tag len a) s = .next (refused 3 false) ∧
    exec (.spiWrFix tag len a data) s = .next (refused 4 true)

/-- SPI MEM_WR stores exactly its bytes when every bank is on and no lock is met; MEM_RD returns the bytes; a frame that
is discarded stores nothing.  Rests on R74, R86, R81, R485, R484, R437. -/
def Obligations.SpiMemoryFrames : Prop :=
  ∀ (tag : Byte) (len : BitVec 16) (a : Word) (data : List Byte) (s : State),
    s.Wf → s.aonOn = true → s.spi.busy = none → s.power ≠ 1 → s.post = false → s.frozen = false →
    1 ≤ len.toNat → len.toNat ≤ 256 → 0x01000000 ≤ a.toNat → a.toNat + len.toNat ≤ 0x04000000 → data.length = len.toNat →
    ((∀ k, k < len.toNat → s.tileOn (tileOf (a.toNat + k)) = true) →
      (Completes (.spiMemRd tag len a) s fun t =>
        t.spi.busy = some (spiAnswer tag 5 0 0 len.toNat
          ((List.range len.toNat).map fun k => s.lmByte (a.toNat + k))) ∧ SameMemory s t ∧
        RegsBut [A.LMC_SEAL_STATUS, A.LMC_CNT1] s t) ∧
      ((∀ k, k < len.toNat → s.tileLocked (tileOf (a.toNat + k)) = false) →
        Completes (.spiMemWr tag len a data) s fun t =>
          t.spi.busy = some (spiAnswer tag 6 0 0 len.toNat []) ∧
          (∀ k b, data[k]? = some b → t.lmByte (a.toNat + k) = b) ∧
          (∀ j, j < a.toNat ∨ a.toNat + len.toNat ≤ j → t.lmByte j = s.lmByte j) ∧
          (∀ j, t.nvByte j = s.nvByte j) ∧ RegsBut [A.LMC_SEAL_STATUS, A.LMC_CNT1] s t) ∧
      (∀ k, k < len.toNat → s.tileLocked (tileOf (a.toNat + k)) = true →
        Completes (.spiMemWr tag len a data) s fun t =>
          t.spi.busy = some (spiAnswer tag 6 9 0 len.toNat []) ∧
          t.lmem = s.lmem ∧ t.nvm = s.nvm ∧ t.lmc = s.lmc ∧
          t.flt = (s.raiseI Code.LMC_LOCKED_WRITE { init := 0, access := 2, addr := a.toNat }).flt ∧
          t.get F.LMC_CNT1_LOCKED_WRITE = min (s.get F.LMC_CNT1_LOCKED_WRITE + 1) 65535)) ∧
    ∀ k, k < len.toNat → s.tileOn (tileOf (a.toNat + k)) = false →
      (∀ j, j < k → s.tileOn (tileOf (a.toNat + j)) = true) →
      Completes (.spiMemWr tag len a data) s fun t =>
        t.spi.busy = some (spiAnswer tag 6 7 k len.toNat []) ∧
        t.lmem = s.lmem ∧ t.nvm = s.nvm ∧ t.lmc = s.lmc ∧
        t.flt = (s.raiseI Code.PWR_OFFBLOCK { init := 0, access := 2, addr := a.toNat }).flt ∧
        t.get F.GLB_OFFBLOCK_COUNT_COUNT = min (s.get F.GLB_OFFBLOCK_COUNT_COUNT + 1) (2 ^ 32 - 1)

/-- What each JTAG instruction does in each life-cycle state. Rests on R415, R416, R418, R419, R420, R487. -/
def Obligations.JtagFollowsLifeCycle : Prop :=
  (∀ (a v : Word) (s : State), s.cfg.trst = true →
    exec .idcode s = .next s ∧ exec (.regaccRead a) s = .next s ∧ exec (.regaccWrite a v) s = .next s ∧
    exec .scanEntry s = .next s ∧ exec .lk0640Entry s = .next s) ∧
  (∀ s : State, s.cfg.trst = false → regReset A.GLB_ID = 0x4C4B2048#32 ∧
    Completes .idcode s fun t =>
      t = { s with cfg := { s.cfg with tap := .runTestIdle, ir := 1, scanOn := false } } ∧
      t.tapCapture = some (32, (s.regView A.GLB_ID).toNat)) ∧
  (∀ (a v : Word) (s : State), s.aonOn = true → s.cfg.trst = false →
    let s0 := s.irLoad 2
    (s.lc = 4 ∨ (s.lc = 2 ∧ s.frozen = false) → exec (.regaccRead a) s = .next
      ((s0.accPut 14 Config.refusedResult.toNat false a.toNat).regaccShows 1 0)) ∧
    (s.lc = 4 ∨ s.lc = 2 → exec (.regaccWrite a v) s = .next
      ((s0.accPut 14 Config.refusedResult.toNat true a.toNat).regaccShows 1 0)) ∧
    (s.lc ∈ [0, 1, 3] ∨ (s.lc = 2 ∧ s.frozen = true) →
      let t := s0.wordRead .jtag a.toNat
      exec (.regaccRead a) s = .next (t.regaccShows (if t.port.result = 0 then 0 else 2) t.port.value)) ∧
    (s.lc ∈ [0, 1, 3] →
      let t := s0.wordWrite .jtag a.toNat v
      exec (.regaccWrite a v) s = .next (t.regaccShows (if t.port.result = 0 then 0 else 2) t.port.value))) ∧
  (∀ (a v : Word) (s : State), s.Wf → a.toNat % 4 = 0 → a.toNat < 0x15000 → s.lc ∈ [0, 1, 3] →
    s.absent a.toNat = false → s.cfg.trst = false →
    (s.readable a.toNat → plainRead a.toNat = true → Completes (.regaccRead a) s fun t =>
      t.cfg.jtagCode = 0 ∧ t.cfg.jtagData = s.regView a.toNat ∧ RegsBut [a.toNat] s t ∧ SameMemory s t) ∧
    (s.writable a.toNat → plainWrite a.toNat = true → Completes (.regaccWrite a v) s fun t =>
      t.cfg.jtagCode = 0 ∧ t.cfg.jtagData = 0 ∧ RegsBut [a.toNat] s t ∧ SameMemory s t ∧
      ∀ i, i < 32 → (accessMask .rw a.toNat).getLsbD i = true → (accessMask .w1s a.toNat).getLsbD i = false →
        (accessMask .w1c a.toNat).getLsbD i = false → (t.reg a.toNat).getLsbD i = v.getLsbD i)) ∧
  ∀ s : State, s.coreOn = true → s.cfg.trst = false →
    (s.lc = 0 → (Completes .scanEntry s fun t => t = { s.irLoad 9 with cfg := { (s.irLoad 9).cfg with scanOn := true } } ∧
        t.cfg.scanOn = true) ∧
      exec .lk0640Entry s = .next (s.irLoad 8)) ∧
    (s.lc = 2 ∨ s.lc = 4 → exec .scanEntry s = .next (s.irLoad 9) ∧ exec .lk0640Entry s = .next (s.irLoad 8)) ∧
    (s.lc = 1 ∨ s.lc = 3 → s.Wf →
      (Completes .scanEntry s fun t =>
        t.cfg.scanOn = true ∧ t.cfg.kill = true ∧ t.cfg.staged = none ∧ t.get F.CFG_STATUS_STAGED = 0 ∧
        t.get F.CFG_STATUS_CLEARED = 1 ∧ t.get F.CFG_STATUS_KEYS = 0 ∧ SameMemory s t) ∧
      Completes .lk0640Entry s fun t =>
        t.get F.CFG_STATUS_TEST = 1 ∧ t.get F.RAS_STATUS_RUN = 0 ∧ t.cfg.kill = true ∧ t.cfg.staged = none ∧
        t.frec Code.CFG_TEST_ENTRY = (s.raise Code.CFG_TEST_ENTRY 0).frec Code.CFG_TEST_ENTRY ∧ SameMemory s t)

/-- A seal is discarded, refused or accepted, and the directory changes only when it completes. Rests on R75, R76, R71. -/
def Obligations.SealsFollowTheirTable : Prop :=
  (∀ (who : Initiator) (v : Word) (s : State), s.Wf → s.aonOn = true →
    let t0 := v.toNat % 2 ^ 14
    (s.writable A.LMC_SEAL → s.get F.LMC_SEAL_STATUS_BUSY = 1 →
      exec (.sealTile who v) s = .next (s.put F.LMC_SEAL_STATUS_OVERRUN 1).accepted) ∧
    (s.writable A.LMC_SEAL → s.get F.LMC_SEAL_STATUS_BUSY = 0 → 12288 ≤ t0 →
      exec (.sealTile who v) s = .next (s.sealRefused 1).accepted) ∧
    (s.writable A.LMC_SEAL → s.get F.LMC_SEAL_STATUS_BUSY = 0 → t0 < 12288 → s.tileOn t0 = false →
      exec (.sealTile who v) s = .next (s.sealRefused 2).accepted) ∧
    (s.writable A.LMC_SEAL → s.get F.LMC_SEAL_STATUS_BUSY = 0 → t0 < 12288 → s.tileOn t0 = true →
      (s.dirEntry t0).st = .empty → s.dirLatent t0 = .good →
      exec (.sealTile who v) s = .next (s.sealRefused 4).accepted) ∧
    (s.writable A.LMC_SEAL → s.get F.LMC_SEAL_STATUS_BUSY = 0 → t0 < 12288 → s.tileOn t0 = true →
      (s.dirEntry t0).st ≠ .empty → s.dirLatent t0 = .good →
      Completes (.sealTile who v) s fun t =>
        t.get F.LMC_SEAL_STATUS_BUSY = 1 ∧ t.get F.LMC_SEAL_STATUS_OVERRUN = 0 ∧
        t.lmc.sealing = some { tile := t0, self := v.getLsbD 31, crc := s.reg A.LMC_SEAL_CRC, by_ := initNo who } ∧
        OnlyRegs [A.LMC_SEAL_STATUS] s { t with port := s.port, lmc := { t.lmc with sealing := s.lmc.sealing } }) ∧
    (s.get F.LMC_SEAL_STATUS_BUSY = 0 → t0 < 12288 → s.tileOn t0 = true → s.post = true →
      s.portDecide A.LMC_SEAL true = 6 → exec (.sealTile who v) s = .next
        (((s.sealRefused 3).accRecord (initNo who) 6 true A.LMC_SEAL).answer 0 6))) ∧
  (∀ (reason : Nat) (s : State), s.Wf → reason < 8 →
    (s.sealRefused reason).get F.LMC_SEAL_STATUS_RESULT = 3 ∧ (s.sealRefused reason).get F.LMC_SEAL_STATUS_REASON = reason ∧
    OnlyRegs [A.LMC_SEAL_STATUS] s (s.sealRefused reason)) ∧
  (∀ (j : SealJob) (s : State), s.Wf → s.coreRun = true → s.lmc.sealing = some j → s.dirLatent j.tile = .good →
    let crc := crc32 (s.lmBytes (0x01000000 + 4096 * j.tile) 4096)
    Completes (.sealComplete .good) s fun t =>
      t.get F.LMC_SEAL_STATUS_BUSY = 0 ∧ t.get F.LMC_SEAL_STATUS_REASON = 0 ∧ t.lmc.sealing = none ∧
      (j.self = true ∨ j.crc = crc →
        t.get F.LMC_SEAL_STATUS_RESULT = 1 ∧ t.lmc = { s.lmc with
          sealing := none, dir := sparseSet dirDefault s.lmc.dir j.tile { st := .sealed, crc := crc } }) ∧
      (j.self = false → j.crc ≠ crc →
        t.get F.LMC_SEAL_STATUS_RESULT = 2 ∧ t.lmc = { s.lmc with
          sealing := none
          dir := sparseSet dirDefault s.lmc.dir j.tile { s.dirEntry j.tile with
            st := if (s.dirEntry j.tile).st = .sealed then .unsealed else (s.dirEntry j.tile).st } }) ∧
      OnlyRegs [A.LMC_SEAL_STATUS] s { t with lmc := s.lmc }) ∧
  (∀ (j : SealJob) (s : State), s.coreRun = true → s.lmc.sealing = some j → s.dirLatent j.tile = .good →
    exec (.sealComplete .corrected) s = exec (.sealComplete .good) ((s.inc F.LMC_CNT1_DIR_CORR).raiseI Code.LMC_DIR_CORR
      { init := j.by_, access := 1, addr := 0x01000000 + 4096 * j.tile }) ∧
    exec (.sealComplete .double) s = exec (.sealComplete .good)
      ((s.tick.setDir j.tile { st := .bad, crc := Config.lostCrc s.freeCount }).raiseI Code.LMC_DIR_DED
        { init := j.by_, access := 1, addr := 0x01000000 + 4096 * j.tile })) ∧
  ∀ (j : SealJob) (s : State) (two : Bool), s.coreRun = true → s.lmc.sealing = some j → s.lmc.dirHit = [(j.tile, two)] →
    exec (.sealComplete .good) s = exec (.sealComplete (if two then .double else .corrected))
      { s with lmc := { s.lmc with dirHit := [] } }

/-- Bank rotation and bank power: MIGRATE, SWAP without a change of content, and tiles lost when a bank goes off.  Rests
on R85, R86, R84, R68, R453. -/
def Obligations.BanksRotateAndGoOff : Prop :=
  (∀ (who : Initiator) (v : Word) (s : State) (n : Nat), s.Wf → s.writable A.LMC_CTRL → s.lmc.rotate = none →
    (v.getLsbD 0 = true → s.get F.LMC_STATUS_BG_PHASE = 0 → s.post = false → s.awake = true → s.memHeld = false →
      s.get F.LMC_NOMAD_PHYS = n → n < 17 → s.memOn n = false →
      Completes (.bgEnWrite who v) s fun t =>
        t.get F.LMC_CTRL_BG_EN = 1 ∧ t.memOn n = true ∧ t.lmc = { s.lmc with nomadWait := true } ∧
        RegsBut [A.LMC_CTRL, A.PWR_DOM] s t ∧ SameMemory s t) ∧
    (∀ c, v.getLsbD 0 = false → s.get F.LMC_STATUS_BG_PHASE = 1 → s.get F.LMC_STATUS_MIGRATE_BANK = c → c < 16 →
      s.lmc.sealing = none → s.lmc.dirHit = [] →
      (∀ i, 768 * c ≤ i → i < 768 * c + 768 → (s.dirEntry i).st = .sealed →
        crc32 (s.lmBytes (0x01000000 + 4096 * i) 4096) = (s.dirEntry i).crc) →
      Completes (.bgEnWrite who v) s fun t =>
        t.get F.LMC_CTRL_BG_EN = 0 ∧ t.get F.LMC_STATUS_BG_PHASE = 0 ∧ t.get F.LMC_STATUS_MIGRATE_BANK = 31 ∧
        (∀ b, b < 16 → t.physOf b = s.physOf b) ∧ t.lmc.dir = s.lmc.dir ∧ t.flt = s.flt ∧ RegsBut [A.LMC_CTRL, A.LMC_STATUS, A.PWR_DOM] s t ∧ SameMemory s t)) ∧
  (∀ (s : State) (n b : Nat), s.Wf → s.coreRun = true → s.lmc.nomadWait = true → s.lmc.rotate = none →
    s.get F.LMC_STATUS_BG_PHASE = 0 → s.post = false → s.awake = true → s.memHeld = false →
    s.get F.LMC_CTRL_BG_EN = 1 →
    s.get F.LMC_NOMAD_PHYS = n → n < 17 → s.memOn n = true → b < 16 → s.bankOn b = true →
    (∀ i, i < 16 → (s.lmc.nextBank + i) % 16 = b → ∀ j, j < i → s.bankOn ((s.lmc.nextBank + j) % 16) = false) →
    Completes .nomadDomainReady s fun t =>
      t.get F.LMC_STATUS_BG_PHASE = 1 ∧ t.get F.LMC_STATUS_MIGRATE_BANK = b ∧
      OnlyRegs [A.LMC_STATUS] s { t with lmc := { t.lmc with nomadWait := true } }) ∧
  (∀ (s : State) (n b : Nat), s.Wf → s.coreRun = true → s.get F.LMC_STATUS_BG_PHASE = 1 → s.lmc.rotate = none →
    s.get F.LMC_NOMAD_PHYS = n → n < 17 → s.get F.LMC_STATUS_MIGRATE_BANK = b → b < 16 →
    Completes .migrateDone s fun t =>
      t.physOf b = n ∧ t.get F.LMC_NOMAD_PHYS = s.physOf b ∧ t.get F.LMC_STATUS_TEST_PHYS = s.physOf b ∧
      (∀ c, c < 16 → c ≠ b → t.physOf c = s.physOf c) ∧ t.get F.LMC_STATUS_BG_PHASE = 2 ∧
      t.lmc.bgOps = 4325376 ∧ t.lmc.nextBank = (b + 1) % 16 ∧ t.lmem = s.lmem ∧ t.nvm = s.nvm) ∧
  ∀ (who : Initiator) (v : Word) (s : State) (b : Nat), s.Wf → s.writable A.LMC_BANK_EN → s.lmc.scan = none → b < 16 →
    s.bankOn b = true → s.get F.LMC_STATUS_BG_PHASE = 0 → s.get F.LMC_CTRL_BG_EN = 0 → s.lmc.rotate = none →
    (∀ c, c < 16 → c ≠ b → v.getLsbD c = s.bankOn c) → v.getLsbD b = false →
    (∀ c, c < 16 → c ≠ b → s.physOf c ≠ s.physOf b) →
    Completes (.bankEnWrite who v) s fun t =>
      t.bankOn b = false ∧ (∀ c, c < 16 → c ≠ b → t.bankOn c = s.bankOn c) ∧
      (∀ i, 768 * b ≤ i ∧ i < 768 * b + 768 → t.dirEntry i = {}) ∧
      (∀ i, ¬ (768 * b ≤ i ∧ i < 768 * b + 768) → t.dirEntry i = s.dirEntry i) ∧
      (∀ a, 0x01000000 + 0x300000 * b ≤ a ∧ a < 0x01000000 + 0x300000 * (b + 1) → t.lmByte a = 0) ∧
      (∀ a, ¬ (0x01000000 + 0x300000 * b ≤ a ∧ a < 0x01000000 + 0x300000 * (b + 1)) → t.lmByte a = s.lmByte a) ∧
      t.nvm = s.nvm ∧ RegsBut [A.LMC_BANK_EN, A.PWR_DOM, A.LMC_SEAL_STATUS] s t

/-- The background test of a bank counts a round, or counts a failure and retires the bank. Rests on R451. -/
def Obligations.BankTestCountsOrRetires : Prop :=
  ∀ (s : State) (p : Nat), s.Wf → s.coreRun = true → s.get F.LMC_STATUS_BG_PHASE = 2 → s.lmc.bgOps = 0 →
    s.lmc.rotate = none → s.get F.LMC_STATUS_TEST_PHYS = p → p < 17 →
    (Completes (.bankTestDone true) s fun t =>
      t.get F.BST_BG_ROUNDS = min (s.get F.BST_BG_ROUNDS + 1) 65535 ∧ t.get F.BST_BG_FAILS = s.get F.BST_BG_FAILS ∧
      t.reg A.BST_BANK_FAIL = s.reg A.BST_BANK_FAIL ∧ t.get F.LMC_STATUS_TEST_PHYS = 31 ∧ t.flt = s.flt ∧ SameMemory s t) ∧
    Completes (.bankTestDone false) s fun t =>
      t.get F.BST_BG_FAILS = min (s.get F.BST_BG_FAILS + 1) 65535 ∧ t.get F.BST_BG_ROUNDS = s.get F.BST_BG_ROUNDS ∧
      (∀ i, i < 17 → bitOf (t.get F.BST_BANK_FAIL_FAIL) i = (decide (i = p) || bitOf (s.get F.BST_BANK_FAIL_FAIL) i)) ∧
      t.lmc.retired.getLsbD p = true ∧ t.memOn p = false ∧ t.get F.LMC_NOMAD_PHYS = 31 ∧
      t.get F.LMC_STATUS_TEST_PHYS = 31 ∧ t.get F.LMC_STATUS_BG_PHASE = 3 ∧
      t.flt = (s.raise Code.LMC_BANK_RETIRED 0).flt ∧ SameMemory s t

/-- A memory scan ends with the chained CRC-32 of its range; a background slice makes its share of operations.  Rests on
R88, R89, R438, R450, R461. -/
def Obligations.ScansAndSlices : Prop :=
  (∀ (s : State) (k : Nat) (j : ScanJob), s.Wf → s.coreRun = true → s.findRunning Job.memScan = some k →
    s.findJob Job.memScan = some k → s.lmc.scan = some j → j.pos = 0 → j.run = j.seed ^^^ 0xFFFFFFFF#32 → j.len < 2 ^ 26 →
    Completes .scanComplete s fun t =>
      t.reg A.CHK_RESULT = crc32Run (j.seed ^^^ 0xFFFFFFFF#32) (s.anyBytes j.addr j.len) ^^^ 0xFFFFFFFF#32 ∧
      t.get F.CHK_PROGRESS_DONE = j.len ∧ t.get F.CHK_STATUS_RESULT = 1 ∧ t.get F.CHK_STATUS_REASON = 0 ∧
      t.lmc = { s.lmc with scan := none } ∧ t.jobState k = 3 ∧ t.get (F.PWR_JOBn_STATUS_COMMITTED k) = 1 ∧
      (t.reg A.GLB_IRQ_STATUS).getLsbD 19 = true ∧ SameMemory s t) ∧
  (let result := fun (seed : Word) (bs : List Byte) => crc32Run (seed ^^^ 0xFFFFFFFF#32) bs ^^^ 0xFFFFFFFF#32
   (∀ bs, result 0 bs = crc32 bs) ∧ (∀ seed, result seed [] = seed) ∧
    ∀ (seed : Word) (xs ys : List Byte), result (result seed xs) ys = result seed (xs ++ ys)) ∧
  ∀ s : State, s.coreRun = true → s.get F.LMC_STATUS_BG_PHASE = 2 → s.lmc.rotate = none →
    (s.ras.running = true → s.lineOn = true → s.slotOpen 8 = true → s.lmc.sliced = false →
      Completes .bgTestSlice s fun t =>
        t = { s.toSlot 8 with lmc := { s.lmc with
          sliced := true
          bgOps := s.lmc.bgOps - 16 * min (max 1 (s.get F.BST_CTRL_BG_SLOTS)) (s.get F.RAS_ACT_TIMING_N_SLOTS - 8) } } ∧
        t.ras.slot = 8 ∧ t.ras.line = s.ras.line) ∧
    (s.ras.running = true → s.lineOn = false ∨ s.slotOpen 8 = false ∨ s.lmc.sliced = true →
      exec .bgTestSlice s = .next s) ∧
    (s.ras.running = false → exec .bgTestSlice s = .next { s with lmc := { s.lmc with
      sliced := false, bgOps := s.lmc.bgOps - 16 * max 1 (s.get F.BST_CTRL_BG_SLOTS) } })

/-- The fetch of a band asks for the tiles of the enabled layers, and a tile is used only if it is sealed and its CRC
agrees.  Rests on R77, R78, R79, R86, R109, R71. -/
def Obligations.FetchUsesOnlySealedTiles : Prop :=
  (∀ (s : State) (b : Nat), s.composes = true → s.lineCycle = 0 → 1 ≤ b → b < 32 →
      s.fetchLine = 16 * (b : Int) - 24 → s.cmp.bands = b →
    exec .bandFetchStart s = .next { s with cmp := { s.cmp with
      bands := b + 1, todo := s.cmp.todo ++ (List.range 12).flatMap fun i => s.bandTiles i b } }) ∧
  (∀ s : State, s.composes = true → s.lineCycle = 0 → s.fetchLine = -24 → s.cmp.forFrame ≠ some (s.ras.frame + 1) →
    Completes .bandFetchStart s fun t =>
      t.cmp.todo = ((List.range 12).flatMap fun i => s.bandTiles i 0) ∧ t.cmp.bands = 1 ∧ t.cmp.nextRow = 0 ∧
      t.cmp.rows = [] ∧ t.cmp.bufs = [] ∧ t.cmp.forFrame = some (s.ras.frame + 1) ∧
      { t with cmp := s.cmp, hlt := s.hlt } = s ∧ t.hlt = { s.hlt with outAcc := [] }) ∧
  ∀ (s : State) (j : FetchTile) (rest : List FetchTile), s.coreRun = true → s.cmp.todo = j :: rest →
    s.lmc.sealing = none → s.dirLatent j.tile = .good →
    let buf := fun bytes => { s.cmp with
      late := if s.deadlineBand = some j.band then j.layer :: s.cmp.late else s.cmp.late
      todo := rest, bufs := s.cmp.bufs ++ [{ layer := j.layer, band := j.band, tile := j.tile, bytes := bytes }] }
    (j.tile < 12288 → s.tileOn j.tile = true → (s.dirEntry j.tile).st = .sealed →
      (crc32 (s.lmBytes (0x01000000 + 4096 * j.tile) 4096) = (s.dirEntry j.tile).crc →
        exec (.tileCrcCheck [] .good) s = .next
          { s with cmp := buf (some (s.lmBytes (0x01000000 + 4096 * j.tile) 4096)) }) ∧
      (crc32 (s.lmBytes (0x01000000 + 4096 * j.tile) 4096) ≠ (s.dirEntry j.tile).crc →
        exec (.tileCrcCheck [] .good) s = .next
          { (((s.setDir j.tile { s.dirEntry j.tile with st := .bad }).inc F.LMC_CNT0_CRC_FAIL).irq 8).raiseI
              Code.LMC_TILE_CRC { init := 3, access := 3, addr := 0x01000000 + 4096 * j.tile } with
            cmp := buf none })) ∧
    (j.tile < 12288 → s.tileOn j.tile = true → (s.dirEntry j.tile).st = .bad →
      exec (.tileCrcCheck [] .good) s = .next { s.inc F.LMC_CNT2_BAD_USE with cmp := buf none }) ∧
    (12288 ≤ j.tile ∨ s.tileOn j.tile = false ∨ (s.dirEntry j.tile).st = .empty ∨ (s.dirEntry j.tile).st = .unsealed →
      exec (.tileCrcCheck [] .good) s = .next
        { (s.inc F.LMC_CNT0_UNSEALED_USE).raise Code.LMC_UNSEALED_USE (0x01000000 + 4096 * j.tile) with cmp := buf none })

/-- A row is composed when its layers are released and handed to LUM; a stall is counted and reported.  Rests on R103,
R108, R109, R113. -/
def Obligations.RowsAreComposedInOrder : Prop :=
  (∀ s : State, s.composes = true → s.cmp.nextRow < 512 → s.cmp.nextRow / 16 < s.cmp.bands →
    (s.cmp.nextRow : Int) - 24 ≤ s.fetchLine → s.fetchLine < (s.cmp.nextRow : Int) - 2 →
    s.rowReleased s.cmp.nextRow = true →
    (Completes (.rowComposition [] []) s fun t =>
      (∃ row : List Nat, t.cmp.rows = s.cmp.rows ++ [(s.cmp.nextRow, row)]) ∧ t.cmp.nextRow = s.cmp.nextRow + 1 ∧
      t.cmp.bufs = (if s.cmp.nextRow % 16 = 15 then s.cmp.bufs.filter fun b => s.cmp.nextRow / 16 < b.band else s.cmp.bufs) ∧
      t.cmp.todo = s.cmp.todo ∧ t.cmp.bands = s.cmp.bands ∧ t.ras = s.ras ∧ t.lmc = s.lmc ∧ SameMemory s t) ∧
    (s.layersOf s.cmp.nextRow = [] → s.get F.HLT_SIG_CFG_N_REG = 0 →
      exec (.rowComposition [] []) s = .next { s with cmp := { s.cmp with
        rows := s.cmp.rows ++ [(s.cmp.nextRow, List.replicate 2048 (s.get F.CMP_BG_BG))], nextRow := s.cmp.nextRow + 1
        bufs := if s.cmp.nextRow % 16 = 15 then s.cmp.bufs.filter fun b => s.cmp.nextRow / 16 < b.band
          else s.cmp.bufs } })) ∧
  ∀ s : State, s.coreRun = true → s.cmp.stallDue ≠ 0 →
    exec .outStall s = .next { (s.inc F.CMP_OUT_CNT_STALLS).raise Code.CMP_OUT_STALL 0 with
      cmp := { s.cmp with stallDue := s.cmp.stallDue - 1 } }

/-- The data ports of the transfer tables and the scaler coefficients reach one entry, protect the active bank and
advance their index.  Rests on R105, R134, R140, R114. -/
def Obligations.TableDataPorts : Prop :=
  (∀ (who : Initiator) (v : Word) (s : State), s.Wf →
    let next := fun t : State => t.get F.CMP_TT_ADDR_INDEX =
      if s.get F.CMP_TT_ADDR_INC = 1 then (s.get F.CMP_TT_ADDR_INDEX + 1) % 256 else s.get F.CMP_TT_ADDR_INDEX
    (s.readable A.CMP_TT_DATA → Completes (.cmpTtDataRead who) s fun t =>
      t.port = { value := if s.ttInRange then BitVec.ofNat 32 (s.ttEntry s.ttAddrKey) else 0, result := 0 } ∧ next t ∧
      t.cmp = s.cmp ∧ (s.ttInRange = false → t.get F.CMP_TT_STATUS_RANGE = 1) ∧
      RegsBut [A.CMP_TT_ADDR, A.CMP_TT_STATUS] s t ∧ SameMemory s t) ∧
    (s.writable A.CMP_TT_DATA → Completes (.cmpTtDataWrite who v) s fun t =>
      next t ∧ RegsBut [A.CMP_TT_ADDR, A.CMP_TT_STATUS] s t ∧ SameMemory s t ∧
      (s.ttInRange = false → t.get F.CMP_TT_STATUS_RANGE = 1 ∧ t.cmp = s.cmp) ∧
      (s.ttInRange = true →
        (s.get (F.CMP_Ln_CTRL_TT_SEL (s.get F.CMP_TT_ADDR_LAYER)) = s.get F.CMP_TT_ADDR_BANK →
          t.get F.CMP_TT_STATUS_ACTIVE_WRITE = 1 ∧ t.cmp = s.cmp) ∧
        (s.get (F.CMP_Ln_CTRL_TT_SEL (s.get F.CMP_TT_ADDR_LAYER)) ≠ s.get F.CMP_TT_ADDR_BANK →
          t.reg A.CMP_TT_STATUS = s.reg A.CMP_TT_STATUS ∧ t.cmp = (s.ttWrite s.ttAddrKey (v.toNat % 65536)).cmp)))) ∧
  ∀ (who : Initiator) (v : Word) (s : State), s.Wf →
    let at_ := s.get F.SCL_COEF_ADDR_PHASE * 8 + s.get F.SCL_COEF_ADDR_TAP
    let next := fun t : State => t.get F.SCL_COEF_ADDR_PHASE * 8 + t.get F.SCL_COEF_ADDR_TAP =
      if s.get F.SCL_COEF_ADDR_INC = 1 then (at_ + 1) % 512 else at_
    (s.readable A.SCL_COEF_DATA → Completes (.sclCoefDataRead who) s fun t =>
      t.port = { value := if s.coefInRange then (sparseGet coefDefault s.cmp.coef s.coefAddrKey).setWidth 32 else 0,
                 result := 0 } ∧ next t ∧
      t.cmp = s.cmp ∧ (s.coefInRange = false → t.get F.SCL_COEF_STATUS_RANGE = 1) ∧
      RegsBut [A.SCL_COEF_ADDR, A.SCL_COEF_STATUS] s t ∧ SameMemory s t) ∧
    (s.writable A.SCL_COEF_DATA → Completes (.sclCoefDataWrite who v) s fun t =>
      next t ∧ RegsBut [A.SCL_COEF_ADDR, A.SCL_COEF_STATUS] s t ∧ SameMemory s t ∧
      (s.coefInRange = false → t.get F.SCL_COEF_STATUS_RANGE = 1 ∧ t.cmp = s.cmp) ∧
      (s.coefInRange = true →
        (s.get (F.SCL_SCn_CTRL_COEF_SEL (s.get F.SCL_COEF_ADDR_SCALER)) = s.get F.SCL_COEF_ADDR_BANK →
          t.get F.SCL_COEF_STATUS_ACTIVE_WRITE = 1 ∧ t.cmp = s.cmp) ∧
        (s.get (F.SCL_SCn_CTRL_COEF_SEL (s.get F.SCL_COEF_ADDR_SCALER)) ≠ s.get F.SCL_COEF_ADDR_BANK →
          t.reg A.SCL_COEF_STATUS = s.reg A.SCL_COEF_STATUS ∧
          t.cmp = (s.coefWrite s.coefAddrKey (v.toNat % 4096)).cmp)))

/-- A commit request arms, replaces, withdraws or is rejected; a stale run is reported once.  Rests on R122, R119, R120,
R123, R124, R52. -/
def Obligations.CommitRequests : Prop :=
  let rejected := fun s t : State => t.get F.GLB_COMMIT_STATUS_LAST = 2 ∧ (t.reg A.GLB_IRQ_STATUS).getLsbD 5 = true ∧
    t.get F.GLB_COMMIT_CNT_REJECTED = min (s.get F.GLB_COMMIT_CNT_REJECTED + 1) (F.GLB_COMMIT_CNT_REJECTED).top ∧
    t.get F.GLB_COMMIT_STATUS_STATE = s.get F.GLB_COMMIT_STATUS_STATE ∧ t.cmp = s.cmp ∧
    t.reg A.GLB_COMMIT_TARGET = s.reg A.GLB_COMMIT_TARGET ∧ t.reg A.GLB_COMMIT_CTRL = s.reg A.GLB_COMMIT_CTRL
  (∀ (who : Initiator) (rdy : BitVec 12) (alive : Byte) (s : State), s.Wf → s.writable A.GLB_COMMIT →
    let delta := (alive.toNat + 256 - s.get F.GLB_COMMIT_CTRL_LAST_ALIVE) % 256
    let passes := s.get F.GLB_COMMIT_CTRL_MAX_DELTA = 0 ∨ s.get F.GLB_COMMIT_CTRL_ALIVE_VALID = 0 ∨
      (1 ≤ delta ∧ delta ≤ s.get F.GLB_COMMIT_CTRL_MAX_DELTA)
    (s.post = false → passes → Completes (.commitArm who rdy alive) s fun t =>
      t.get F.GLB_COMMIT_STATUS_STATE = 1 ∧ t.get F.GLB_COMMIT_CTRL_LAST_ALIVE = alive.toNat ∧
      t.get F.GLB_COMMIT_CTRL_ALIVE_VALID = 1 ∧ t.cmp.armRdy = rdy ∧
      t.reg A.GLB_COMMIT_TARGET = (if s.ras.running = true ∧ s.ras.blankServed = false then s.ras.frame
        else if s.ras.running = false ∧ s.ras.everStarted = false then 0 else s.ras.frame + 1) ∧
      t.get F.GLB_COMMIT_CNT_REPLACED = (if s.get F.GLB_COMMIT_STATUS_STATE = 0 then s.get F.GLB_COMMIT_CNT_REPLACED
        else min (s.get F.GLB_COMMIT_CNT_REPLACED + 1) (F.GLB_COMMIT_CNT_REPLACED).top) ∧
      t.ras = (s.cadence 0).ras ∧ t.shadow = s.shadow ∧ SameMemory s t ∧ t.flt = s.flt) ∧
    (s.post = false → ¬ passes → Completes (.commitArm who rdy alive) s fun t =>
      rejected s t ∧ t.get F.GLB_COMMIT_STATUS_REASON = 1 ∧
      t.flt = (s.raiseI Code.GLB_ALIVE { init := initNo who, access := writeKind who, addr := 0 }).flt ∧
      t.shadow = s.shadow ∧ SameMemory s t) ∧
    (s.post = true → Completes (.commitArm who rdy alive) s fun t =>
      rejected s t ∧ t.get F.GLB_COMMIT_STATUS_REASON = 2 ∧ t.flt = s.flt ∧ SameMemory s t)) ∧
  (∀ (who : Initiator) (s : State), s.Wf → s.writable A.GLB_COMMIT →
    Completes (.commitWithdraw who) s fun t =>
      t.get F.GLB_COMMIT_STATUS_STATE = 0 ∧ t.cmp = s.cmp ∧ t.shadow = s.shadow ∧ t.flt = s.flt ∧ SameMemory s t ∧
      t.get F.GLB_COMMIT_STATUS_LAST =
        (if s.get F.GLB_COMMIT_STATUS_STATE = 0 then s.get F.GLB_COMMIT_STATUS_LAST else 3) ∧
      RegsBut [A.GLB_COMMIT_STATUS, A.RAS_FOLLOW_CNT] s t) ∧
  ∀ s : State, s.aonOn = true → s.cmp.staleDue = true →
    exec .commitStale s = .next { (s.raise Code.GLB_STALE 0).irq 23 with
      cmp := { s.cmp with staleDue := false } }

/-- A RETIME is ignored, rejected with the first failing check, or pending, and the timing in force stays.  Rests on
R58, R59, R61, R43, R44, R51. -/
def Obligations.RetimeIsCheckedThenPending : Prop :=
  ∀ (who : Initiator) (v : Word) (s : State), s.Wf → s.writable A.RAS_CTRL →
    let n := s.get F.RAS_NEXT_TIMING_N_SLOTS
    let vb := s.get F.RAS_NEXT_TIMING_VB
    let k := s.get F.RAS_NEXT_PWM_K
    let follow := s.get F.RAS_NEXT_MODE_MODE = 1
    let free := s.get F.RAS_STATUS_RUN ≠ 2 ∧ s.get F.RAS_STATUS_RUN ≠ 3
    let vbBad := vb < 24 ∨ 1023 < vb ∨ (follow ∧ (vb < 25 ∨ 1022 < vb))
    let sizeBad := n * (512 + vb) < 103600 ∨ 837600 < n * (512 + vb)
    let kBad := k < 4 ∨ n * k < 3125 ∨ 25000 < n * k
    (v.getLsbD 0 = false → exec (.retime who v) s = .next s.accepted) ∧
    (v.getLsbD 0 = true →
      (¬ free → exec (.retime who v) s = .next (s.put F.RAS_RETIME_STATUS_IGNORED 1).accepted) ∧
      (∀ r, free → (r = 7 ∧ s.ras.running = false ∨ r = 5 ∧ s.ras.running = true ∧ s.get F.RAS_ACT_MODE_MODE = 2 ∨
          s.ras.running = true ∧ s.get F.RAS_ACT_MODE_MODE ≠ 2 ∧
          (r = 1 ∧ vbBad ∨ r = 2 ∧ ¬ vbBad ∧ n < 96 ∨ r = 3 ∧ ¬ vbBad ∧ 96 ≤ n ∧ sizeBad ∨
            r = 4 ∧ ¬ vbBad ∧ 96 ≤ n ∧ ¬ sizeBad ∧ kBad)) →
        Completes (.retime who v) s fun t =>
          t.get F.RAS_RETIME_STATUS_RESULT = 3 ∧ t.get F.RAS_RETIME_STATUS_REASON = r ∧
          OnlyRegs [A.RAS_RETIME_STATUS] s { t with port := s.port }) ∧
      (free → s.retimeCheck (s.nextTiming false) = 0 →
        Completes (.retime who v) s fun t =>
          t.get F.RAS_RETIME_STATUS_RESULT = 1 ∧ t.get F.RAS_RETIME_STATUS_IGNORED = 0 ∧ t.get F.RAS_STATUS_RUN = 2 ∧
          t.get F.RAS_STATUS_FOLLOW_LOCK = 0 ∧
          t.reg A.RAS_RETIME_FRAME = s.ras.frame + (if s.ras.blankServed then 2 else 1) ∧
          t.ras = { s.ras with pend := some (s.nextTiming false), inRun := 0, outRun := 0 } ∧
          OnlyRegs [A.RAS_RETIME_STATUS, A.RAS_RETIME_FRAME, A.RAS_STATUS] s { t with port := s.port, ras := s.ras }))

/-- The raster starts with a lead-in frame, counts its lines, each line writes its row or skips it, and the last line
ends the frame.  Rests on R16, R17, R27, R29, R32, R59, R62, R63, R64, R166, R190, R513. -/
def Obligations.RasterStartsAndCounts : Prop :=
  (∀ (s : State) (r : Retime), s.Wf → s.coreRun = true → s.ras.running = false → s.ras.pend = some r → r.mode < 2 →
    r.nSlots < 4096 → r.vb < 1024 → r.k < 512 → 0 < r.nSlots * r.k →
    Completes .rasterStart s fun t =>
      t.ras.running = true ∧ t.ras.frame = s.reg A.RAS_RETIME_FRAME ∧ t.ras.line = 0 ∧ t.ras.slot = 0 ∧ t.ras.cyc = 0 ∧
      t.ras.pwmC = 0 ∧ t.ras.pwmA = 0 ∧ t.ras.leadIn = true ∧ t.ras.pend = none ∧ t.get F.RAS_ACT_TIMING_N_SLOTS = r.nSlots ∧
      t.get F.RAS_ACT_TIMING_VB = r.vb ∧ t.get F.RAS_ACT_PWM_K = r.k ∧ t.get F.RAS_ACT_MODE_MODE = r.mode ∧
      t.get F.RAS_STATUS_RUN = 1 ∧ t.get F.RAS_RETIME_STATUS_RESULT = 2 ∧ t.saf.wdArmed = true ∧ t.saf.wdTicks = 0 ∧
      t.lmc.dir = s.lmc.dir ∧ SameMemory s t) ∧
  (∀ s : State, s.Wf → s.coreRun = true → s.ras.running = true →
    let new := if s.ras.lineServed then s.ras.line + 1 else s.ras.line
    (s.ras.lineServed = false ∨ (s.lineOn = true ∧ s.ras.line + 1 < s.frameLines)) →
    Completes (.lineStart {}) s fun t =>
      t.ras.line = new ∧ t.ras.frame = s.ras.frame ∧ t.ras.lineServed = true ∧
      (s.ras.lineServed = true → t.ras.slot = 0 ∧ t.ras.cyc = 0) ∧ t.saf.wdTicks = 0 ∧
      (s.get F.RAS_LINE_MATCH_LINE = new → (t.reg A.GLB_IRQ_STATUS).getLsbD 1 = true) ∧
      { t.lmc with sliced := s.lmc.sliced } = s.lmc ∧ SameMemory s t) ∧
  (∀ s : State, s.Wf → s.coreRun = true → s.ras.running = true → SparseWf blackRow s.ary.storage →
    SparseWf blackRow s.hlt.written → SparseWf (fun _ => 0) s.lum.demand → SparseWf (fun _ => none) s.lum.crest →
    let new := if s.ras.lineServed then s.ras.line + 1 else s.ras.line
    (s.ras.lineServed = false ∨ (s.lineOn = true ∧ s.ras.line + 1 < s.frameLines)) → new < 512 → s.ras.leadIn = false →
    let writes := s.pixOn = true ∧ s.get F.ARY_STATUS_LOCK_OK = 1 ∧ s.holdLines = false
    Completes (.lineStart {}) s fun t =>
      (∀ z, z ≠ new → t.storageRow z = s.storageRow z ∧ t.writtenRow z = s.writtenRow z) ∧
      (∀ r : LumRow, s.lum.ready.find? (fun r => r.y == new) = some r → writes →
        t.storageRow new = r.words ∧ t.writtenRow new = r.words ∧ t.ary.loadDue = true ∧ sparseGet (fun _ => 0) t.lum.demand new = r.demand) ∧
      (s.lum.ready.find? (fun r => r.y == new) = none ∨ ¬ writes →
        t.storageRow new = s.storageRow new ∧ t.writtenRow new = s.writtenRow new ∧ t.ary.loadDue = false ∧
        t.lum.demand = s.lum.demand ∧ t.lum.crest = s.lum.crest ∧ (t.reg A.GLB_IRQ_STATUS).getLsbD 3 = true ∧
        t.get F.CMP_OUT_CNT_OUT_URUN = (s.inc F.CMP_OUT_CNT_OUT_URUN).get F.CMP_OUT_CNT_OUT_URUN)) ∧
  ∀ (s : State) (edges : Nat), s.Wf → s.frameEnd = true → 512 ≤ s.ras.line → s.get F.PWR_STATUS_STEP ≠ 3 →
    Completes (.frameDone edges) s fun t =>
      t.ras.frame = s.ras.frame + 1 ∧ t.ras.line = 0 ∧ t.ras.slot = 0 ∧ t.ras.cyc = 0 ∧ t.ras.lineServed = false ∧
      t.ras.blankServed = false ∧ t.ras.leadIn = false ∧ (t.reg A.GLB_IRQ_STATUS).getLsbD 2 = true ∧ { t.lmc with sliced := s.lmc.sliced } = s.lmc ∧
      SameMemory s t ∧
      ∀ r : Retime, s.ras.pend = some r → s.get F.RAS_STATUS_RUN = 3 → r.nSlots < 4096 → r.vb < 1024 →
        t.get F.RAS_ACT_TIMING_N_SLOTS = r.nSlots ∧ t.get F.RAS_ACT_TIMING_VB = r.vb ∧ t.get F.RAS_STATUS_RUN = 1 ∧
        t.get F.RAS_RETIME_STATUS_RESULT = 2 ∧ t.ras.pend = none

/-- At the commit instant every shadow transfers at once for an armed commit, and the blanking of the frame is fixed.
NEED is computed from the shadow set: the model's choice, log entry 71. Rests on R34, R64, R125, R127, R53, R141. -/
def Obligations.CommitInstantTransfersShadows : Prop :=
  (∀ s : State, s.Wf → s.blankDue = true → s.rsDue = false →
    Completes .startOfBlank s fun t =>
      t.ras.blankServed = true ∧ t.ras.frame = s.ras.frame ∧ t.ras.line = 512 ∧
      (t.reg A.GLB_IRQ_STATUS).getLsbD 0 = true ∧ SameMemory s t ∧
      (s.get F.RAS_ACT_MODE_MODE = 0 → t.get F.RAS_STATUS_CUR_VB = s.get F.RAS_ACT_TIMING_VB)) ∧
  (∀ s : State, s.Wf → s.blankDue = true → s.rsDue = false → s.resyncHold = false →
    s.get F.GLB_COMMIT_STATUS_STATE ≠ 0 → s.configFail = none →
    (∀ i, i < 12 → ¬ (s.notReady i = true ∧ s.holdMode i = 2)) →
    Completes .startOfBlank s fun t =>
      (∀ a, a ∈ rwsAddrs → s.heldAddr a = false → t.reg a &&& accessMask .rws a = s.shReg a &&& accessMask .rws a) ∧
      t.get F.GLB_COMMIT_STATUS_STATE = 0 ∧ t.get F.GLB_COMMIT_STATUS_LAST = 1 ∧
      (t.reg A.GLB_IRQ_STATUS).getLsbD 4 = true ∧ t.shadow = s.shadow) ∧
  (∀ s : State, s.Wf → s.get F.GLB_COMMIT_STATUS_STATE ≠ 0 → s.configFail = none →
    (∀ i, i < 12 → ¬ (s.notReady i = true ∧ s.holdMode i = 2)) →
    let t := s.commitResolve
    (∀ a, a ∈ rwsAddrs → s.heldAddr a = false → t.reg a &&& accessMask .rws a = s.shReg a &&& accessMask .rws a) ∧
    t.get F.GLB_COMMIT_STATUS_STATE = 0 ∧ t.get F.GLB_COMMIT_STATUS_LAST = 1 ∧
    (t.reg A.GLB_IRQ_STATUS).getLsbD 4 = true ∧ t.shadow = s.shadow ∧ SameMemory s t) ∧
  (∀ s : State, s.Wf → s.get F.GLB_COMMIT_STATUS_STATE = 0 →
    let t := s.commitResolve
    RegsBut ((List.range 4).map A.SCL_SCn_STATUS) s t ∧ t.shadow = s.shadow ∧
    ∀ n, n < 4 → t.get (F.SCL_SCn_STATUS_EFF_TAPS n) = s.get (F.SCL_SCn_STATUS_EFF_TAPS n) ∧
      t.get (F.SCL_SCn_STATUS_DEGRADED n) = s.get (F.SCL_SCn_STATUS_DEGRADED n) ∧
      ((s.scalerCfg true n).present = true → (s.scalerCfg true n).en = true →
        (s.layerCfg true (s.scalerCfg true n).layer).visible = true → t.get (F.SCL_SCn_STATUS_NEED n) =
          min 255 (scalerNeed (s.scalerCfg true n).vTaps (s.scalerCfg true n).vStep
            (s.layerCfg true (s.scalerCfg true n).layer).w))) ∧
  (∀ (s : State) (layer reason : Nat), s.Wf → s.get F.GLB_COMMIT_STATUS_STATE ≠ 0 → s.configFail = some (layer, reason) →
    let t := s.commitResolve
    (∀ a, a ∈ rwsAddrs → t.reg a &&& accessMask .rws a = s.reg a &&& accessMask .rws a) ∧
    t.get F.GLB_COMMIT_STATUS_STATE = 0 ∧ t.get F.GLB_COMMIT_STATUS_LAST = 2 ∧ t.get F.GLB_COMMIT_STATUS_LAYER = layer ∧
    t.get F.GLB_COMMIT_STATUS_REASON = reason ∧ t.shadow = s.shadow) ∧
  ∀ (s : State) (hold : Bool), s.Wf → 1 ≤ s.get F.RAS_ACT_TIMING_VB → s.get F.RAS_ACT_TIMING_VB < 1023 →
    let t := s.followDecision hold
    s.get F.RAS_ACT_TIMING_VB ≤ t.get F.RAS_STATUS_CUR_VB + 1 ∧ t.get F.RAS_STATUS_CUR_VB ≤ s.get F.RAS_ACT_TIMING_VB + 1

/-- Cadence events, the loss of the cadence, and the stop of the raster at the end of a frame.  Rests on R52, R53, R54,
R428, R514. -/
def Obligations.CadenceAndStop : Prop :=
  (∀ s : State, s.gpio3Aux = false → exec .gpio3RisingEdge s = .next s) ∧
  (∀ s : State, s.gpio3Aux = true → s.wakeOn 4 = false → s.coreRun = true → s.ras.window = true →
    s.get F.RAS_ACT_MODE_MODE = 1 → s.get F.RAS_ACT_MODE_FOLLOW_SRC = 1 →
    (s.ras.winEv = none → Completes .gpio3RisingEdge s fun t =>
      { t with ras := s.ras } = s ∧ { t.ras with winEv := none } = s.ras ∧ t.ras.winEv =
        some (s.ras.line, if 512 ≤ s.ras.line then s.get F.RAS_STATUS_CUR_VB else s.get F.RAS_ACT_TIMING_VB)) ∧
    (s.ras.winEv ≠ none → Completes .gpio3RisingEdge s fun t => t = s.inc F.RAS_FOLLOW_CNT_EXTRA)) ∧
  (∀ s : State, s.coreRun = true → s.ras.missDue = true →
    exec .followTimeout s = .next { ((s.put F.RAS_STATUS_FOLLOW_LOCK 0).irq 23).raise Code.RAS_FOLLOW_LOST 0 with
      ras := { s.ras with missDue := false } }) ∧
  ∀ s : State, s.Wf → s.get F.PWR_STATUS_STEP = 3 → s.frameEnd = true → s.get F.RAS_STATUS_RUN ≠ 0 →
    Completes .rasterStop s fun t =>
      t.ras.running = false ∧ t.ras.pend = none ∧ t.get F.RAS_STATUS_RUN = 0 ∧ t.reg A.RAS_ACT_TIMING = 0 ∧
      t.saf.wdArmed = false ∧ t.get F.PWR_STATUS_STEP = 4 ∧ t.ras.frame = s.ras.frame ∧ t.ras.line = s.ras.line ∧
      SameMemory s t

/-- A submitted mask list is accepted as the newest list, or rejected with the first failing check, and the lists in use
stay.  Rests on R142, R143, R144, R145. -/
def Obligations.MaskListsAreChecked : Prop :=
  ∀ (who : Initiator) (v : Word) (s : State), s.Wf → s.writable A.MSK_SUBMIT → s.post = false →
    let n := v.toNat % 512
    let h := s.reg (A.MSK_STAGEn 0)
    let body := (List.range (n - 1)).map fun i => s.reg (A.MSK_STAGEn (i + 1))
    let info : FaultInfo := { init := initNo who, access := writeKind who, addr := 0 }
    let delta := (h.toNat % 256 + 256 - s.get F.MSK_LIST_STATUS_LAST_GEN) % 256
    let sized := 1 ≤ n ∧ n ≤ 257 ∧ h.toNat / 256 % 128 ≤ 64 ∧ n - 1 = 4 * (h.toNat / 256 % 128)
    let kept := fun t : State => SameMemory s t ∧ t.lmc = s.lmc ∧ t.ras = s.ras ∧ t.msk.useObjs = s.msk.useObjs ∧
      t.msk.latched = s.msk.latched ∧ t.msk.target = s.msk.target ∧ t.msk.dark = s.msk.dark ∧ t.msk.bright = s.msk.bright ∧
      t.msk.pass = s.msk.pass
    let rejected := fun (reason obj : Nat) (t : State) => t.get F.MSK_LIST_STATUS_RESULT = 2 ∧
      t.get F.MSK_LIST_STATUS_REASON = reason ∧ t.get F.MSK_LIST_STATUS_OBJ = obj ∧ t.msk = s.msk ∧ kept t
    let counted := fun (f : Field) (t : State) => t.get f = min (s.get f + 1) 65535 ∧
      ∀ g, g ∈ [F.MSK_CNT0_ACCEPTED, F.MSK_CNT0_REJECTED, F.MSK_CNT2_DUPLICATE] → g ≠ f → t.get g = s.get g
    (¬ sized → Completes (.mskSubmit who v) s fun t => rejected 2 0 t ∧ counted F.MSK_CNT0_REJECTED t ∧ t.flt = (s.raiseI Code.MSK_LIST_REJ info).flt) ∧
    (sized →
      (∀ i, (maskObjs body).findIdx? (fun o => decide (o.x1 < o.x0) || decide (o.y1 < o.y0)) = some i →
        Completes (.mskSubmit who v) s fun t => rejected 3 i t ∧ counted F.MSK_CNT0_REJECTED t ∧
          t.flt = (s.raiseI Code.MSK_LIST_REJ info).flt) ∧
      ((∀ o ∈ maskObjs body, o.x0 ≤ o.x1 ∧ o.y0 ≤ o.y1) →
        (s.get F.MSK_LIST_STATUS_GEN_VALID = 1 → delta = 0 →
          Completes (.mskSubmit who v) s fun t => rejected 4 0 t ∧ counted F.MSK_CNT2_DUPLICATE t ∧ t.flt = s.flt) ∧
        (s.get F.MSK_LIST_STATUS_GEN_VALID = 1 → 128 ≤ delta →
          Completes (.mskSubmit who v) s fun t => rejected 5 0 t ∧ counted F.MSK_CNT0_REJECTED t ∧
            t.flt = (s.raiseI Code.MSK_LIST_STALE info).flt) ∧
        (s.get F.MSK_LIST_STATUS_GEN_VALID = 0 ∨ (1 ≤ delta ∧ delta < 128) →
          Completes (.mskSubmit who v) s fun t =>
            t.get F.MSK_LIST_STATUS_RESULT = 1 ∧ t.get F.MSK_LIST_STATUS_LAST_GEN = h.toNat % 256 ∧
            t.get F.MSK_LIST_STATUS_GEN_VALID = 1 ∧ counted F.MSK_CNT0_ACCEPTED t ∧ t.msk.waiting = some (maskObjs body, h.toNat % 256) ∧
            t.flt = s.flt ∧ kept t)))

/-- Mask epochs start, skip or idle; a pass rasterises four rows a group; a list timeout is flagged. The model's
reading, log entry 28 (DEDUCED): the pass that a list timeout asks for is a reason from the next epoch on, and takes
the place of a list that waited when the timeout was reached. Rests on R149, R150, R151, R158, R162. -/
def Obligations.MaskPassesRun : Prop :=
  (∀ s : State, s.Wf → s.epochOpen = true → s.timeoutNow = false → s.holdLines = false → s.msk.gotList = false →
    let idle := { s.msk with epochs := min (s.msk.epochs + 1) 65536, epochServed := true, toNew := false }
    (s.passReason = false → Completes .maskEpoch s fun t =>
      t.msk = { idle with toReq := s.msk.toNew } ∧ t.regs = s.regs ∧ t.flt = s.flt) ∧
    (s.passReason = true → s.msk.pass ≠ none → Completes .maskEpoch s fun t =>
      t.msk = { idle with toReq := s.msk.toReq || s.msk.toNew } ∧
      t.flt = (s.raise Code.MSK_EPOCH_SKIP 0).flt ∧ t.regs = (s.inc F.MSK_CNT1_SKIPPED).regs)) ∧
  (∀ (s : State) (objs : List MaskObj) (gen : Nat), s.Wf → s.epochOpen = true → s.timeoutNow = false →
    s.holdLines = false → s.msk.pass = none → s.msk.waiting = some (objs, gen) → objs.length ≤ 64 →
    Completes .maskEpoch s fun t =>
      t.msk.pass = some 0 ∧ t.msk.waiting = none ∧ t.get F.MSK_STATUS_PASS = 1 ∧
      (s.msk.stale = false ∨ s.timeoutPass = false →
        t.msk.useObjs = objs ∧ t.msk.useGen = some gen ∧ t.get F.MSK_LIST_STATUS_ACT_COUNT = objs.length ∧
        t.get F.MSK_STATUS_TIMED_OUT = if s.msk.stale then s.get F.MSK_STATUS_TIMED_OUT else 0) ∧
      (s.msk.stale = true → s.timeoutPass = true →
        t.msk.useObjs = (if s.get F.MSK_CTRL_TO_ACTION = 2 then [s.fallbackObj] else []) ∧ t.msk.useGen = none ∧
        t.get F.MSK_STATUS_TIMED_OUT = s.get F.MSK_STATUS_TIMED_OUT) ∧
      t.msk.target = s.msk.target ∧ t.msk.latched = s.msk.latched ∧ t.ary.maskW = s.ary.maskW ∧ t.ary.maskA = s.ary.maskA ∧
      SameMemory s t) ∧
  (∀ (s : State) (j : Nat), s.Wf → s.msk.pass = some j → j < 127 → s.lineOn = true → s.groupSlot j < s.nSlots →
    SparseWf darkRow s.msk.target →
    Completes (.maskPassGroup []) s fun t =>
      t.msk.pass = some (j + 1) ∧ t.msk.latched = s.msk.latched ∧
      (∀ y, 4 * j ≤ y ∧ y < 4 * j + 4 → t.targetRow y = s.maskRow y) ∧
      (∀ y, ¬ (4 * j ≤ y ∧ y < 4 * j + 4) → t.targetRow y = s.targetRow y) ∧
      t.ary.maskW = s.ary.maskW ∧ t.ary.maskA = s.ary.maskA ∧ SameMemory s t) ∧
  ∀ s : State, s.Wf → s.epochOpen = true → s.timeoutNow = true →
    Completes .listTimeout s fun t =>
      t.get F.MSK_STATUS_TIMED_OUT = 1 ∧ (t.reg A.GLB_IRQ_STATUS).getLsbD 23 = true ∧
      t.flt = (s.raise Code.MSK_LIST_TIMEOUT 0).flt ∧ t.msk.toDone = true ∧ t.msk.stale = s.msk.waiting.isSome ∧ t.msk.useObjs = s.msk.useObjs ∧
      t.msk.toReq = s.msk.toReq ∧ t.msk.toNew = (s.msk.toNew || s.get F.MSK_CTRL_TO_ACTION != 0)

/-- A mask write darkens at once and never brightens before the group boundary, and comes only from TARGET or LATCHED.
Rests on R152, R153, R154, R42, R161. -/
def Obligations.MaskWritesOnlyDarken : Prop :=
  ∀ (s : State) (slot : BitVec 12), s.maskSlot slot.toNat = true → SparseWf darkRow s.ary.maskW →
    SparseWf darkRow s.ary.maskA → SparseWf darkRow s.msk.latched →
    let sent := fun (y : Nat) (r : Row) (t : State) =>
      t.maskWRow y = r ∧ t.maskARow y = darkenRow r (s.maskARow y) ∧
      (∀ x a b : Nat, (s.maskARow y)[x]? = some a → (t.maskARow y)[x]? = some b → a ≤ b) ∧
      ∀ z, z ≠ y → t.maskWRow z = s.maskWRow z ∧ t.maskARow z = s.maskARow z
    (∀ y d, s.msk.dark = y :: d → Completes (.spareSlotMaskWrite slot []) s fun t =>
      sent y ((s.targetRow y).map (· % 8)) t ∧ t.latchedRow y = s.targetRow y ∧ t.msk.dark = removeRow y s.msk.dark ∧
      t.msk.bright = s.msk.bright) ∧
    (∀ y d, s.msk.dark = [] → s.msk.bright = y :: d → Completes (.spareSlotMaskWrite slot []) s fun t =>
      sent y ((s.targetRow y).map (· % 8)) t ∧ t.latchedRow y = s.targetRow y ∧ t.msk.dark = [] ∧
      t.msk.bright = removeRow y s.msk.bright) ∧
    (s.msk.dark = [] → s.msk.bright = [] →
      (s.get F.MSK_CTRL_SCRUB = 1 → Completes (.spareSlotMaskWrite slot []) s fun t =>
        sent s.msk.scrubRow ((s.latchedRow s.msk.scrubRow).map (· % 8)) t ∧ t.msk.latched = s.msk.latched ∧
        t.msk.scrubRow = (s.msk.scrubRow + 1) % 512) ∧
      (s.get F.MSK_CTRL_SCRUB = 0 → Completes (.spareSlotMaskWrite slot []) s fun t =>
        t.ary.maskW = s.ary.maskW ∧ t.ary.maskA = s.ary.maskA ∧ t.msk = s.msk))

/-- A composed row becomes drive words at its line start; the gain map is reloaded row by row; a late row is composed
with what is there.  Rests on R110, R113, R165, R167, R169, R170, R172, R173, R174, R175, R176, R413. -/
def Obligations.GainReloadsAndLateRows : Prop :=
  (∀ (who : Initiator) (v : Word) (s : State), s.writable A.LUM_GAIN_RELOAD →
    (v.getLsbD 0 = true → s.get F.LUM_STATE_RELOAD_BUSY = 0 → exec (.gainReload who v) s = .next
      { s.put F.LUM_STATE_RELOAD_BUSY 1 with lum := { s.lum with reload := some 0 } }.accepted) ∧
    (v.getLsbD 0 = false ∨ s.get F.LUM_STATE_RELOAD_BUSY = 1 → exec (.gainReload who v) s = .next s.accepted)) ∧
  (∀ (s : State) (y : Nat), s.Wf → s.lum.reload = some y → y < 512 → s.lineOn = true →
    s.ras.line = (y + 256) % s.frameLines → SparseWf gainDefault s.lum.gain →
    Completes .gainReloadRow s fun t =>
      t.gainRow y = (s.storedGain y).getD (gainDefault y) ∧ (∀ z, z ≠ y → t.gainRow z = s.gainRow z) ∧
      t.flt = (if (s.storedGain y).isNone then (s.raise Code.LUM_GAIN_ROW y).flt else s.flt) ∧
      (y < 511 → t.lum.reload = some (y + 1) ∧ t.regs = s.regs) ∧
      (y = 511 → t.lum.reload = none ∧ t.get F.LUM_STATE_RELOAD_BUSY = 0 ∧ RegsBut [A.LUM_STATE] s t)) ∧
  (∀ (s : State) (y : Nat) (row : Row), s.Wf → s.coreRun = true → s.ras.running = true →
    (s.ras.lineServed = false ∨ (s.lineOn = true ∧ s.ras.line + 1 < s.frameLines)) →
    { s with ras := { s.ras with line := if s.ras.lineServed then s.ras.line + 1 else s.ras.line } }.lumRow = some y →
    (y ≠ 0 → s.get F.LUM_STATE_SOURCE = 0) → (y = 0 → s.wantSource.1 = false) →
    s.cmp.rows.find? (fun p => p.1 == y) = some (y, row) →
    Completes (.lineStart {}) s fun t =>
      let g := mul16 (mul16 (s.get F.LUM_DIM_DIM) (s.get F.LUM_BUDGET_STATUS_BUDGET)) (s.get F.SAF_ENV_E)
      let gains := if s.get F.LUM_CTRL_GAIN_EN = 1 then s.gainRow y else gainDefault y
      let own := (List.range 2048).map fun x =>
        driveValue (row.getD x 0) (gains.getD x 128) (s.zoneFactor (zoneOf x y)) g
      let shown := if s.get F.LUM_CTRL_FILL_EN = 1 ∧ t.lum.fillStop = false then
        fillRow (s.rowDefects y) (s.get F.LUM_CTRL_FILL) own else own
      t.get F.LUM_STATE_SOURCE = 0 ∧
      (∃ r ∈ t.lum.ready, r.y = y ∧ r.words.length = 2048 ∧ r.demand = rowDemand r.words ∧
        ∀ x, x < 2048 → r.words[x]? = some (driveWord (shown.getD x 0) (mergeMap (s.mapState x y) (s.mapState2 x y)))) ∧
      (∀ p ∈ t.cmp.rows, p.1 ≠ y) ∧ t.gainRow y = s.gainRow y ∧ t.hlt.map = s.hlt.map ∧ t.hlt.mapCopy = s.hlt.mapCopy ∧
      ((∀ x, x < 2048 → s.mapState x y = s.mapState2 x y) → s.deadlineDue = none → t.lum.fillStop = s.lum.fillStop)) ∧
  ∀ (s : State) (y : Nat) (delivered gain : List Nat) (map : List MapUpset), s.lumRow = some y → s.lineOn = true → s.composes = true →
    s.ras.slot = 0 → s.cmp.nextRow = y → 0 < s.cmp.bands → s.get F.LUM_STATE_SOURCE = 0 →
    Completes (.compositionDeadline ⟨delivered, gain, map⟩) s fun t =>
      t.cmp.nextRow = y + 1 ∧ (∃ r ∈ t.lum.ready, r.y = y) ∧ (∀ p ∈ t.cmp.rows, p.1 ≠ y) ∧ t.ras = s.ras ∧
      SameMemory s t

/-- Display latches load the row just written, mask levels fall only at the group boundary, and readback compares with
the words kept.  Rests on R49, R154, R186, R187, R204, R220, R221. -/
def Obligations.RowsLoadAndReadBack : Prop :=
  (∀ s : State, s.lineOn = true → s.ary.loadDue = true → s.slotOpen 2 = true → SparseWf blackRow s.ary.storage →
    SparseWf blackRow s.ary.display →
    Completes (.displayLoad []) s fun t =>
      (∀ (x w o : Nat), (s.storageRow s.ras.line)[x]? = some w → (s.displayRow s.ras.line)[x]? = some o → wordOk w = true →
        (t.displayRow s.ras.line)[x]? = some w) ∧
      (∀ y, y ≠ s.ras.line → t.displayRow y = s.displayRow y) ∧ (∀ y, t.storageRow y = s.storageRow y) ∧
      t.ary.loadDue = false ∧ t.ary.maskA = s.ary.maskA ∧ t.ary.maskW = s.ary.maskW ∧ t.regs = s.regs ∧ SameMemory s t) ∧
  (∀ (s : State) (g : BitVec 6), s.lineOn = true → s.pixOn = true → s.darkNets = false → SparseWf darkRow s.ary.maskA →
    s.lineCycle + s.groupCycles g.toNat < 16 * s.nSlots →
    Completes (.rowGroupBoundary g) s fun t =>
      (∀ y, rowGroup y = g.toNat → t.maskARow y = s.maskWRow y) ∧
      (∀ y, rowGroup y ≠ g.toNat → t.maskARow y = s.maskARow y) ∧ t.ary.maskW = s.ary.maskW ∧
      t.ary.conduct.getLsbD g.toNat = true ∧ t.ary.display = s.ary.display ∧ t.regs = s.regs) ∧
  (∀ s : State, s.lineOn = true → s.ras.line < 512 → s.slotOpen 7 = true → s.hlt.readBack = false → s.pixOn = true →
    s.holdLines = false → (∀ w ∈ s.storageRow s.ras.line, wordOk w = true) →
    (s.storageRow s.ras.line = s.writtenRow s.ras.line → Completes (.readback []) s fun t =>
      t.regs = s.regs ∧ t.flt = s.flt ∧ t.hlt.rbRow = s.hlt.rbRow ∧ t.hlt.persistDue = s.hlt.persistDue ∧
      s.ras.line ∈ t.hlt.rbRows ∧ t.hlt.readBack = true ∧ SameMemory s t) ∧
    (rowCrcOk (s.storageRow s.ras.line) (s.writtenRow s.ras.line) = false → Completes (.readback []) s fun t =>
      t.regs = (s.inc F.HLT_RB_CNT_MISMATCH_ROWS).regs ∧ t.flt = (s.raise Code.HLT_RB_MISMATCH s.ras.line).flt ∧
      s.ras.line ∈ t.hlt.rbRows ∧ t.hlt.readBack = true ∧ SameMemory s t)) ∧
  ∀ (s : State) (y : Nat) (due : List Nat), s.hlt.persistDue = y :: due → s.coreRun = true →
    exec .rbPersist s = .next { s.raise Code.HLT_RB_PERSIST y with hlt := { s.hlt with persistDue := due } }

/-- A finding is confirmed after CONFIRM results in a row; a pixel's map state then rises, and a discarded line changes
nothing.  Rests on R208, R210, R212, R213, R216. -/
def Obligations.FindingsAreConfirmed : Prop :=
  (∀ (s : State) (high low : List Nat) (volts : List (Nat × Nat)), s.lineOn = true → s.ras.line < 512 →
    s.slotOpen 4 = true → s.hlt.sensed = false → s.lum.raise = none → s.pixOn = true → s.holdLines = false →
    s.senseDiscard = true → Completes (.emitterSense high low volts) s fun t =>
      t.hlt = { s.hlt with sensed := true } ∧ t.regs = (s.inc F.HLT_CNT_SENSE_DISCARD).regs ∧ t.flt = s.flt ∧
      SameMemory s t) ∧
  (∀ (s : State) (x : Nat), s.lineOn = true → s.ras.line < 512 → s.slotOpen 4 = true → s.hlt.sensed = false →
    s.lum.raise = none → s.pixOn = true → s.holdLines = false → s.senseDiscard = false → x < 2048 →
    wordIso ((s.displayRow s.ras.line).getD x 0) = false → 1 ≤ s.get F.HLT_SENSE_CFG_ROW_LIMIT →
    s.get F.HLT_DEFECT_LIMIT_LIMIT = 0 → SparseWf (fun _ => 0) s.hlt.confirm → SparseWf mapDefault s.hlt.map →
    SparseWf (fun _ => 0) s.hlt.mapCopy → s.Wf →
    let y := s.ras.line
    let n := s.confirmCount x y Cause.open_ + 1
    let entry : DefectEntry := { x := x, y := y, cause := Cause.open_, frame := s.ras.frame }
    (n < max (s.get F.HLT_SENSE_CFG_CONFIRM) 1 → Completes (.emitterSense [] [x] []) s fun t =>
      t.confirmCount x y Cause.open_ = n ∧ t.hlt.map = s.hlt.map ∧ t.hlt.mapCopy = s.hlt.mapCopy ∧
      t.hlt.log = s.hlt.log ∧ t.flt = s.flt ∧ t.regs = s.regs) ∧
    (max (s.get F.HLT_SENSE_CFG_CONFIRM) 1 ≤ n → Completes (.emitterSense [] [x] []) s fun t =>
      t.confirmCount x y Cause.open_ = 0 ∧ (s.mapState x y = 0 → t.mapState x y = 1 ∧ t.mapState2 x y = 1) ∧
      (∀ a b, s.mapState a b ≤ t.mapState a b) ∧ (t.reg A.GLB_IRQ_STATUS).getLsbD 10 = true ∧
      t.flt = (s.raise Code.HLT_PIXEL_DEFECT (pixelAddr x y)).flt ∧
      (s.hlt.log.length < 64 → t.hlt.log = s.hlt.log ++ [entry]) ∧
      (64 ≤ s.hlt.log.length → t.hlt.log = s.hlt.log ∧ t.get F.HLT_CNT_DLOG_OVF = (s.inc F.HLT_CNT_DLOG_OVF).get F.HLT_CNT_DLOG_OVF))) ∧
  ∀ (s : State) (y : Nat) (due : List Nat), s.hlt.senseDue = y :: due → s.coreRun = true →
    exec .senseRowFault s = .next { s.raise Code.HLT_SENSE_ROW y with hlt := { s.hlt with senseDue := due } }

/-- Map states only rise by command and by RESTORE; the log is read oldest first; the limit is checked at its write.
Rests on R213, R215, R216, R217, R219, R225. -/
def Obligations.MapStatesOnlyRise : Prop :=
  (∀ (who : Initiator) (v : Word) (s : State), s.Wf → s.writable A.HLT_DEFECT_SET → SparseWf mapDefault s.hlt.map →
    SparseWf (fun _ => 0) s.hlt.mapCopy →
    let st := v.toNat / 2 ^ 30
    let x := v.toNat % 2048
    let y := v.toNat / 65536 % 512
    (st = 1 ∨ st = 2 → s.mapState x y < st → s.get F.HLT_DEFECT_LIMIT_LIMIT = 0 →
      Completes (.hltDefectSet who v) s fun t =>
        t.mapState x y = st ∧ t.mapState2 x y = st ∧ (sparseGet mapDefault t.hlt.map (pixelKey x y)).2 = Cause.manual ∧
        (∀ k, k ≠ pixelKey x y → sparseGet mapDefault t.hlt.map k = sparseGet mapDefault s.hlt.map k) ∧
        t.get F.HLT_DEFECT_CNT_DEAD = min (t.mapCount 1) 65535 ∧
        t.get F.HLT_DEFECT_CNT_ISOLATED = min (t.mapCount 2) 65535 ∧
        t.hlt.confirm = s.hlt.confirm ∧ t.hlt.log = s.hlt.log ∧ t.flt = s.flt ∧ RegsBut [A.HLT_DEFECT_CNT] s t) ∧
    (st = 0 ∨ st = 3 ∨ st ≤ s.mapState x y → exec (.hltDefectSet who v) s = .next s.accepted)) ∧
  (∀ (who : Initiator) (v : Word) (s : State), s.Wf → s.writable A.HLT_DEFECT_LIMIT →
    let limit := v.toNat % 2 ^ 21
    Completes (.defectLimitWrite who v) s fun t =>
      t.get F.HLT_DEFECT_LIMIT_LIMIT = limit ∧ t.hlt.map = s.hlt.map ∧
      (limit ≠ 0 ∧ limit < s.mapCount 1 + s.mapCount 2 ∧ s.hlt.limitReported = false →
        t.flt = (s.raise Code.HLT_DEFECT_LIMIT 0).flt ∧ t.hlt.limitReported = true) ∧
      (limit = 0 ∨ s.mapCount 1 + s.mapCount 2 ≤ limit ∨ s.hlt.limitReported = true → t.flt = s.flt ∧ t.hlt = s.hlt)) ∧
  (∀ (who : Initiator) (s : State), s.readable A.HLT_DLOG0 →
    (s.hlt.log = [] → exec (.hltDlog0Read who) s = .next (s.answer 0 Res.ok)) ∧
    ∀ (e : DefectEntry) (l : List DefectEntry), s.hlt.log = e :: l → exec (.hltDlog0Read who) s = .next
      ({ s with hlt := { s.hlt with log := l } }.answer
        (BitVec.ofNat 32 (2 ^ 31 + e.cause * 2 ^ 28 + e.y * 2 ^ 16 + e.x)) Res.ok)) ∧
  (∀ (s : State) (n : Nat), s.Wf → s.coreRun = true → s.findJob Job.defectRebuild = some n →
    s.jobState n = Job.running → s.hlt.rebuildMode = 2 → SparseWf mapDefault s.hlt.map →
    Completes .restoreMergeDone s fun t =>
      (∀ x y, s.mapState x y ≤ t.mapState x y) ∧
      (∀ k, s.mapWinner = some k → ∀ e ∈ s.mapEntries k, e.2.2.1 ≤ t.mapState e.1 e.2.1) ∧
      (s.mapWinner = none → t.hlt = s.hlt) ∧
      t.get F.HLT_REBUILD_RESULT = 1 ∧ t.jobState n = Job.done ∧ t.get (F.PWR_JOBn_STATUS_COMMITTED n) = 1 ∧
      (t.reg A.GLB_IRQ_STATUS).getLsbD 19 = true ∧ SameMemory s t) ∧
  ∀ (s : State) (n : Nat) (rb : Bool) (due : List (Nat × Bool)), s.hlt.missDue = (n, rb) :: due → s.coreRun = true →
    exec .signatureMissLimit s = .next { s.raise (if rb then Code.HLT_SIG_RB else Code.HLT_SIG_OUT) n with hlt := { s.hlt with missDue := due } }

/-- The reference current is judged over four measurements, engine copies that differ stop the writes, and taps are read
and written.  Rests on R192, R194, R197, R200, R391. -/
def Obligations.DriveReferencesAndTaps : Prop :=
  (∀ (s : State) (iref : BitVec 14) (limited : Bool), s.Wf → s.coreRun = true →
    s.ras.running = false ∨ (s.lineOn = true ∧ s.slotOpen 8 = true ∧ s.ary.isetServed = false) →
    let shown := min iref.toNat 11000
    let outside := limited = true ∨ shown < 9000 ∨ 11000 < shown
    Completes (.isetMeasure iref limited) s fun t =>
      t.get F.ARY_ISET_IREF = shown ∧ t.get F.ARY_ISET_LIMITED = b2n limited ∧ t.ary.isetServed = true ∧
      (outside → t.ary.isetOut = min (s.ary.isetOut + 1) 4 ∧ t.ary.isetIn = 0 ∧ t.flt = s.flt ∧
        (s.ary.isetOut = 3 → t.ary.isetDue = true) ∧ t.get F.ARY_STATUS_ISET_BAD = s.get F.ARY_STATUS_ISET_BAD) ∧
      (¬ outside → t.ary.isetIn = min (s.ary.isetIn + 1) 4 ∧ t.ary.isetOut = 0 ∧ t.ary.isetDue = s.ary.isetDue ∧
        (3 ≤ s.ary.isetIn ∧ s.get F.ARY_STATUS_ISET_BAD = 1 →
          t.get F.ARY_STATUS_ISET_BAD = 0 ∧ t.flt = (s.deassertF Code.ARY_ISET).flt) ∧
        (s.ary.isetIn < 3 ∨ s.get F.ARY_STATUS_ISET_BAD = 0 →
          t.get F.ARY_STATUS_ISET_BAD = s.get F.ARY_STATUS_ISET_BAD ∧ t.flt = s.flt))) ∧
  (∀ s : State, s.Wf → s.coreRun = true → s.ary.isetDue = true →
    Completes .isetFault s fun t =>
      t.get F.ARY_STATUS_ISET_BAD = 1 ∧ t.flt = (s.assertF Code.ARY_ISET 0).flt ∧ t.ary.isetDue = false ∧
      RegsBut [A.ARY_STATUS] s t) ∧
  (∀ (s : State) (a b : Nat), s.coreRun = true → s.irefWrong a = true → s.irefWrong b = true →
    (s.standbyHold = false → exec (.refMonitorFault a b) s = .next (s.raise Code.ARY_REF_MON 0)) ∧
    (s.Wf → s.standbyHold = true → Completes (.refMonitorFault a b) s fun t =>
      t.get F.CVN_TDM_STATUS_TDARK = 1 ∧ t.darkCause = true)) ∧
  (∀ (s : State) (west east : EngineCopy), s.Wf → s.coreRun = true → s.ras.running = true → west ≠ east →
    Completes (.engineMismatch west east) s fun t =>
      t.get F.ARY_STATUS_LOCK_OK = 0 ∧ t.get F.ARY_CNT_LOCK_LOSS = min (s.get F.ARY_CNT_LOCK_LOSS + 1) (F.ARY_CNT_LOCK_LOSS).top ∧
      t.flt = (s.raise Code.ARY_ENGINE_LOCK 0).flt ∧ t.ary.west = west ∧ t.ary.east = west ∧
      RegsBut [A.ARY_STATUS, A.ARY_CNT] s t) ∧
  ∀ (who : Initiator) (s : State), s.Wf →
    let col := s.get F.ARY_PC_ADDR_COL
    let stepped := fun t : State =>
      t.get F.ARY_PC_ADDR_COL = (if s.get F.ARY_PC_ADDR_INC = 1 then (col + 1) % 2048 else col) ∧
      RegsBut [A.ARY_PC_ADDR] s t
    (s.readable A.ARY_PC_DATA → Completes (.aryPcDataRead who) s fun t =>
      t.port = { value := if s.pixOn then BitVec.ofNat 32 (s.tap col) else 0, result := Res.ok } ∧ stepped t ∧ t.ary = s.ary) ∧
    ∀ v : Word, s.writable A.ARY_PC_DATA → SparseWf (fun _ => 8) s.ary.taps →
      (s.pixOn = true → Completes (.aryPcDataWrite who v) s fun t =>
        t.tap col = v.toNat % 16 ∧ t.tapUsed col = v.toNat % 16 ∧ (∀ x, x ≠ col → t.tap x = s.tap x) ∧ stepped t) ∧
      (s.pixOn = false → Completes (.aryPcDataWrite who v) s fun t => t.ary = s.ary ∧ stepped t)

/-- A checkpoint swaps the banks, commits the stored copy with its last unit, or merges its bank back; seconds add to
the collecting bank.  Rests on R463, R468, R469, R470, R471. -/
def Obligations.RecorderBanksAndCheckpoints : Prop :=
  (∀ s : State, s.Wf → s.recorderOn = true → s.recd.cpReq = true → s.get F.REC_STATUS_CP_RUN = 0 →
    s.get F.REC_STATUS_LOADED = 1 →
    let k := if s.get F.REC_SEQ_SRC = 1 then 1 else 0
    Completes .checkpointStart s fun t =>
      t.get F.REC_STATUS_BANK = 1 - s.get F.REC_STATUS_BANK ∧ t.get F.REC_STATUS_CP_RUN = 1 ∧ t.recd.cpReq = false ∧
      t.recd.x = s.recd.x ∧ t.recd.y = s.recd.y ∧ t.frozenBank = s.collect ∧ t.recd.base = s.recd.base ∧
      (∃ units : List (Nat × List Byte), t.nvmw.tasks = s.nvmw.tasks ++ [{ owner := Job.recCheckpoint, units := units }] ∧
        units.map (fun u => u.1) = (List.range 2048).map fun i => recCopyAddr k + 64 * i) ∧
      SameMemory s t) ∧
  (∀ (s : State) (u : Nat × List Byte), s.Wf → s.recd.cpLast = some u → s.get F.REC_STATUS_CP_RUN = 1 →
    let src := s.get F.REC_SEQ_SRC
    Completes .checkpointCommit s fun t =>
      t.get F.REC_SEQ_SRC = (if src = 1 then 2 else 1) ∧
      t.get F.REC_SEQ_SEQ = (if src = 1 ∨ src = 2 then (s.get F.REC_SEQ_SEQ + 1) % 65536 else 1) ∧
      t.recd.base = { joinBanks s.recd.base s.frozenBank with log := [] } ∧ t.frozenBank = {} ∧ t.collect = s.collect ∧
      t.get F.REC_CP_STATUS_RESULT = 1 ∧ (t.reg A.GLB_IRQ_STATUS).getLsbD 22 = true ∧ t.get F.REC_STATUS_CP_RUN = 0 ∧
      t.get F.REC_STATUS_CP_PENDING = 0 ∧ (s.get F.REC_STATUS_CP_PENDING = 1 → t.recd.cpReq = true) ∧
      (∀ n, s.findJob Job.recCheckpoint = some n → t.jobState n = Job.done ∧ t.get (F.PWR_JOBn_STATUS_COMMITTED n) = 1) ∧
      (∀ k b, u.2[k]? = some b → t.nvByte (u.1 + k) = b) ∧
      (∀ a, a < u.1 ∨ u.1 + u.2.length ≤ a → t.nvByte a = s.nvByte a) ∧ ∀ a, t.lmByte a = s.lmByte a) ∧
  (∀ s : State, s.Wf → s.recorderOn = true → s.get F.REC_STATUS_CP_RUN = 1 →
    max (s.get F.REC_CTRL_CP_TO) 1 ≤ s.recd.cpSecs →
    let full := s.collect.log.length < 256 ∧ 256 ≤ s.frozenBank.log.length + s.collect.log.length
    let failed := fun t : State =>
      t.collect = joinBanks s.frozenBank s.collect ∧ t.frozenBank = {} ∧ t.recd.base = s.recd.base ∧
      t.reg A.REC_SEQ = s.reg A.REC_SEQ ∧ t.get F.REC_CP_STATUS_RESULT = 2 ∧ t.get F.REC_CP_STATUS_REASON = 1 ∧
      t.flt = ((if full then s.raise Code.REC_LOG_FULL 0 else s).raise Code.REC_CP_FAIL 1).flt ∧
      t.get F.REC_STATUS_CP_RUN = 0 ∧ (∀ k ∈ t.nvmw.tasks, k.owner ≠ Job.recCheckpoint) ∧ ∀ a, t.lmByte a = s.lmByte a
    (∀ u, s.recd.cpLast = some u → exec .checkpointTimeout s = exec .checkpointCommit s) ∧
    (s.recd.cpLast = none → s.nvmw.unit = none ∨ (∀ k, s.nvmw.tasks.head? = some k → k.owner ≠ Job.recCheckpoint) →
      Completes .checkpointTimeout s fun t => failed t ∧ ∀ a, t.nvByte a = s.nvByte a) ∧
    ∀ (u v : Nat × List Byte) (rest : List (Nat × List Byte)) (k : NvmTask) (ks : List NvmTask), s.recd.cpLast = none →
      s.nvmw.unit = some u → s.nvmw.tasks = k :: ks → k.owner = Job.recCheckpoint → k.units = u :: v :: rest →
      Completes .checkpointTimeout s fun t => failed t ∧ (∀ i b, u.2[i]? = some b → t.nvByte (u.1 + i) = b) ∧
        ∀ a, a < u.1 ∨ u.1 + u.2.length ≤ a → t.nvByte a = s.nvByte a) ∧
  (∀ s : State, s.Wf → s.recorderOn = true → s.recd.opDue = true → s.get F.REC_STATUS_CP_RUN = 0 →
    Completes (.operatingSecond none) s fun t =>
      t.collect.opSecs = min (s.collect.opSecs + 1) (2 ^ 32 - 1) ∧ t.collect.litSecs = s.collect.litSecs ∧
      t.collect.counts = s.collect.counts ∧ t.collect.log = s.collect.log ∧ t.frozenBank = s.frozenBank ∧
      t.recd.base = s.recd.base ∧ t.recd.opDue = false ∧ t.flt = s.flt ∧ t.regs = s.regs ∧ SameMemory s t ∧
      t.recd.cpReq = (s.recd.cpReq || (s.get F.REC_CTRL_CP_PERIOD != 0 && t.opSecs % s.get F.REC_CTRL_CP_PERIOD == 0))) ∧
  ∀ s : State, s.recorderOn = true → s.recd.litDue = true → s.get F.REC_STATUS_BANK = 0 →
    exec .litSecond s = .next { s with recd := { s.recd with litDue := false,
                                                             x := { s.recd.x with litSecs := min (s.recd.x.litSecs + 1) (2 ^ 32 - 1) } } }

/-- A publication shows medians of three, derates and switches zones, opens the write window, and two votes send the
module to SAFE.  Rests on R259, R260, R261, R262, R263, R269, R270, R271, R434. -/
def Obligations.TemperaturesArePublished : Prop :=
  (∀ (s : State) (counts : List Nat), s.get F.PWR_DOM_CORE = 1 → s.get F.PWR_DOM_PLL = 1 → s.frozen = false →
    s.thm.gate = none → s.ras.running = false →
    exec (.sensorGate counts) s = .next { s with thm := { s.thm with gate := some counts, gateLine := none } }) ∧
  (∀ (s : State) (counts : List Nat), s.Wf → s.get F.PWR_DOM_CORE = 1 → s.get F.PWR_DOM_PLL = 1 → s.frozen = false →
    s.thm.gate = some counts →
    Completes .sensorPublish s fun t =>
      t.thm.gate = none ∧ t.get F.THM_STATUS_VOTES = t.votes ∧
      (∀ (i : Nat) (a b : Int) (older : List Int), i < 32 → s.tsBroken i = false → (s.sensor i).hist = a :: b :: older →
        inTRange a = true → inTRange b = true → inTRange (s.conversion counts i) = true →
        t.tsValid i = true ∧ t.tsBroken i = false ∧ t.tsT i = median3 (s.conversion counts i) a b) ∧
      (∀ z, z < 16 → t.tsValid z = true →
        (s.thmUse.zOff ≤ t.tsT z → t.zoneIsOff z = true ∧ t.get (zfField z) = 0) ∧
        (t.tsT z ≤ s.thmUse.zRestart → t.zoneIsOff z = false ∧ t.get (zfField z) = zoneFactorT (t.tsT z) s.knee)) ∧
      (t.get F.THM_STATUS_NVM_OK = 1 ↔ (∀ i, i < 16 → t.tsValid (16 + i) = true) ∧
        (List.range 16).countP (fun i => decide (420 < t.tsT (16 + i))) ≤ 1 ∧
        (List.range 16).countP (fun i => decide (t.tsT (16 + i) < -100)) ≤ 1) ∧
      (2 ≤ t.votes → t.power = Power.safe ∧ t.get F.THM_STATUS_SHUTDOWN = 1 ∧ t.get F.THM_STATUS_THROTTLED = 0 ∧
        (s.power ≠ Power.safe → t.get F.PWR_DOM_PIX = 0 ∧ t.get F.PWR_DOM_MEM = 0)) ∧
      (t.votes < 2 → t.power = s.power ∧
        t.get F.THM_STATUS_SHUTDOWN = s.get F.THM_STATUS_SHUTDOWN ∧ SameMemory s t)) ∧
  (∀ (s : State) (counts : List Nat) (i : Nat), s.Wf → s.get F.PWR_DOM_CORE = 1 → s.get F.PWR_DOM_PLL = 1 →
    s.frozen = false → s.thm.gate = some counts → i < 32 → s.breaksNow counts i = true → (∀ j, j < i → s.breaksNow counts j = false) →
    Completes .sensorBroken s fun t =>
      t.tsBroken i = true ∧ t.tsValid i = true ∧ t.tsT i = (if i < 16 then s.thmUse.zOff + 4 else s.thmUse.shutLevel + 4) ∧
      t.flt = (s.raise Code.THM_SENSOR i).flt ∧ t.thm = s.thmUse.thm ∧ RegsBut [A.THM_TSn i, A.THM_BROKEN] s t) ∧
  ∀ s : State, s.Wf → s.power = Power.safe → s.get F.THM_STATUS_SHUTDOWN = 1 → s.thm.restartRun = 16 →
    s.nvmw.unit = none →
    Completes .shutdownEnd s fun t =>
      t.power = Power.boot ∧ t.get F.THM_STATUS_SHUTDOWN = 0 ∧ (t.reg A.GLB_IRQ_STATUS).getLsbD 20 = true ∧
      t.cfg.bootStep = 1 ∧ t.get F.PWR_DOM_CORE = 1 ∧ t.get F.PWR_DOM_MEM = 0x1FFFF ∧ t.get F.PWR_DOM_LNK = 0 ∧
      t.thm.sensors = s.thm.sensors ∧ t.nvm = s.nvm

/-- Throttling stretches the blanking of the timing in force, a rejection is reported once, and the release asks for the
base timing. That SLAVE_THROTTLE_TIMEOUT counts a stopped raster as one under no throttled timing is the model's
reading, log entry 86 (DEDUCED). Rests on R264, R265, R266, R267, R268, R273. -/
def Obligations.ThrottlingFollowsItsRules : Prop :=
  (∀ (s : State) (n : Nat), s.get F.PWR_DOM_CORE = 1 → s.get F.PWR_DOM_PLL = 1 → s.frozen = false → s.thm.hotLong = false →
    s.thm.hotTicks = some n → s.graceTicks ≤ n → s.slaveModule = false → s.get F.THM_STATUS_THR_REQ = 0 →
    Completes .throttleGraceExpiry s fun t =>
      t.thm.hotLong = true ∧ t.thm.cause = s.thrEn ∧ t.regs = s.regs ∧ t.flt = s.flt ∧
      SameMemory s t) ∧
  (∀ s : State, s.Wf → s.coreRun = true → s.thm.cause = true → s.thm.blocked = false →
    s.get F.THM_STATUS_THROTTLED = 0 → s.get F.RAS_STATUS_RUN = 1 → s.slaveRaster = false → s.thm.issued = none →
    let slow : Retime := { s.actTiming with vb := 512 + 2 * s.get F.RAS_ACT_TIMING_VB, byThm := true }
    (s.retimeCheck slow = 0 → Completes .throttleRetimeIssue s fun t =>
      t.ras.pend = some slow ∧ t.get F.RAS_STATUS_RUN = 2 ∧ t.get F.RAS_RETIME_STATUS_RESULT = 1 ∧
      t.get F.THM_STATUS_THR_PENDING = 1 ∧ t.get F.THM_STATUS_THR_FAIL = 0 ∧ t.thm.issued = some true ∧
      t.thm.base = some s.actTiming ∧ t.get F.RAS_ACT_TIMING_VB = s.get F.RAS_ACT_TIMING_VB ∧ t.flt = s.flt ∧ SameMemory s t) ∧
    (s.retimeCheck slow ≠ 0 → Completes .throttleRetimeIssue s fun t =>
      t.ras = s.ras ∧ t.get F.RAS_RETIME_STATUS_RESULT = 3 ∧ t.get F.RAS_RETIME_STATUS_REASON = s.retimeCheck slow ∧
      t.get F.THM_STATUS_THR_FAIL = 1 ∧ t.thm.blocked = true ∧ t.wantThrottle = false ∧
      t.get F.THM_CNT_REJECTS = min (s.get F.THM_CNT_REJECTS + 1) (F.THM_CNT_REJECTS).top ∧
      t.flt = (s.raise Code.THM_THROTTLE_REJ 0).flt ∧ SameMemory s t)) ∧
  (∀ (s : State) (b : Retime), s.Wf → s.coreRun = true → s.thm.base = some b → s.get F.THM_STATUS_THROTTLED = 1 →
    s.thm.again = false → s.thm.issued = none → s.slaveRaster = false →
    s.get F.RAS_STATUS_RUN = 1 → s.thm.relDue = true →
    let t0 : Retime := { b with start := false, byThm := true }
    (s.retimeCheck t0 = 0 → Completes .throttleRelease s fun t =>
      t.ras.pend = some t0 ∧ t.get F.THM_STATUS_THR_PENDING = 1 ∧ t.thm.issued = some false ∧ t.thm.relDue = false ∧
      t.get F.RAS_STATUS_RUN = 2 ∧ t.flt = s.flt ∧ SameMemory s t) ∧
    (s.retimeCheck t0 ≠ 0 → Completes .throttleRelease s fun t =>
      t.ras = s.ras ∧ t.thm.relDue = false ∧ t.get F.THM_STATUS_THROTTLED = 1 ∧ t.thm.issued = none ∧
      t.get F.THM_CNT_REJECTS = min (s.get F.THM_CNT_REJECTS + 1) (F.THM_CNT_REJECTS).top)) ∧
  ∀ (s : State) (n : Nat), s.get F.PWR_DOM_CORE = 1 → s.get F.PWR_DOM_PLL = 1 → s.frozen = false →
    s.get F.THM_STATUS_THR_REQ = 1 → s.thm.reqReported = false → s.slaveThrottled = false → s.thm.reqTicks = some n → s.graceTicks ≤ n →
    exec .slaveThrottleTimeout s = .next { s.raise Code.THM_THROTTLE_REJ 0 with thm := { s.thm with reqReported := true } }

/-- Automatic items start in their order; two values that agree are adopted as their mean, two that do not are measured
again or fail.  Rests on R454, R455, R456, R457, R458. -/
def Obligations.CalibrationIsMirageChecked : Prop :=
  (∀ s : State, s.Wf → s.coreRun = true → s.get F.CAL_CTRL_AUTO = 1 → s.cal.run = none → s.cal.job = none →
    let link := (s.cal.waitU && s.portU0) || (s.cal.waitD && s.portD0)
    let pre := s.cal.waitPc && s.ras.running && s.pixOn
    let isns := s.cal.waitIsns && s.rail == Rail.off
    let runs := fun (it : CalItem) (t : State) => t.cal.run = some it ∧ t.get F.CAL_STATUS_AUTO_RUN = 1 ∧
      t.get F.CAL_STATUS_ACCEPTED = 0 ∧ t.get F.CAL_STATUS_FAILED = 0 ∧ t.flt = s.flt ∧ SameMemory s t
    (link = true → Completes .calAutoTrigger s
      (runs { item := 0, auto := true, u := s.cal.waitU && s.portU0, d := s.cal.waitD && s.portD0 })) ∧
    (link = false → pre = true → Completes .calAutoTrigger s fun t =>
      runs { item := 1, auto := true } t ∧ t.cal.waitPc = false ∧ t.cal.pc = some {}) ∧
    (link = false → pre = false → isns = true → Completes .calAutoTrigger s fun t =>
      runs { item := 2, auto := true, started := true } t ∧ t.cal.waitIsns = false) ∧
    (link = false → pre = false → isns = false → exec .calAutoTrigger s = .next s)) ∧
  (∀ (s : State) (it : CalItem) (a b : List Int), s.Wf → s.coreRun = true → s.cal.run = some it → it.item = 2 →
    it.auto = true → s.cal.ending = false → s.rail = Rail.off → s.nPh ≤ 6 → a.length = s.nPh → b.length = s.nPh →
    let x := a.map isnsValue
    let y := b.map isnsValue
    let agree := ∀ (p : Nat) (u v : Int), x[p]? = some u → y[p]? = some v → u - v ≤ 2 ∧ v - u ≤ 2
    (agree → Completes (.calItemComplete (.isns a b)) s fun t =>
      t.cal.run = none ∧ (t.reg A.GLB_IRQ_STATUS).getLsbD 21 = true ∧
      t.get F.CAL_CNT_ACCEPTS = min (s.get F.CAL_CNT_ACCEPTS + 1) (F.CAL_CNT_ACCEPTS).top ∧ t.flt = s.flt ∧
      (∀ (p : Nat) (u v : Int), x[p]? = some u → y[p]? = some v →
        toSigned 8 (wordGet (t.reg (A.CAL_ISNS0 + 4 * (p / 4))) (8 * (p % 4) + 7) (8 * (p % 4))) = (u + v + 1) / 2) ∧
      t.cal.taps = s.cal.taps ∧ t.cal.trim = s.cal.trim ∧ t.nvmw = s.nvmw ∧ SameMemory s t) ∧
    (¬ agree → it.pairs + 1 < max (s.get F.CAL_CTRL_TRIES) 1 → Completes (.calItemComplete (.isns a b)) s fun t =>
      t.cal.run = some { it with pairs := it.pairs + 1, a := none, b := none, started := true } ∧ t.regs = s.regs ∧
      t.flt = s.flt) ∧
    (¬ agree → max (s.get F.CAL_CTRL_TRIES) 1 ≤ it.pairs + 1 → Completes (.calItemComplete (.isns a b)) s fun t =>
      t.cal.run = none ∧ t.get F.CAL_STATUS_REASON = 1 ∧ (t.reg A.GLB_IRQ_STATUS).getLsbD 21 = true ∧
      t.flt = (s.raise Code.CAL_MIRAGE 2).flt ∧ t.reg A.CAL_ISNS0 = s.reg A.CAL_ISNS0 ∧
      t.reg A.CAL_ISNS1 = s.reg A.CAL_ISNS1)) ∧
  ∀ (s : State) (it : CalItem) (m : PcMeas) (ones : List Nat), s.cal.run = some it → s.cal.pc = some m → it.auto = true →
    s.lineOn = true → s.pixOn = true → m.started = true → m.used = false → s.slotOpen (s.nSlots - 1) = true →
    m.ones.length = 2048 → m.taps.length = 2048 →
    (m.slots + 1 < 64 → Completes (.preChargeCalibrationSlot ones) s fun t =>
      t.cal = { s.cal with pc := some { m with slots := m.slots + 1, used := true, ones := addOnes m.ones ones } } ∧
      t.regs = s.regs ∧ t.ary.taps = s.ary.taps) ∧
    (m.slots + 1 = 64 → m.bit ≠ 0 → Completes (.preChargeCalibrationSlot ones) s fun t =>
      ∃ n : PcMeas, t.cal = { s.cal with pc := some n } ∧ n.bit = m.bit - 1 ∧ n.slots = 0 ∧
        ∀ (c v o : Nat), m.taps[c]? = some v → (addOnes m.ones ones)[c]? = some o →
          n.taps[c]? = some (if o ≤ 256 then v + 2 ^ m.bit else v)) ∧
    (m.slots + 1 = 64 → m.bit = 0 → it.a = none → Completes (.preChargeCalibrationSlot ones) s fun t =>
      ∃ kept : Row, t.cal.run = some { it with a := some kept } ∧ t.cal.pc = some { used := true } ∧
        kept.length = 2048)

/-- A loop's output follows the PID law within its limits; overruns hold it, the third leads to the fallback law;
coefficients have a guarded port.  Rests on R235, R239, R242, R245, R246, R247, R256. -/
def Obligations.LoopsFollowTheirLaws : Prop :=
  (∀ (s : State) (n : Nat) (due : List Nat), s.Wf → s.coreRun = true → s.lpe.due = n :: due → n < 9 → n ≠ 7 →
    s.lpe.loops.length = 9 → s.lpe.coefBad = [] → s.get (F.LPE_LPn_STATUS_FALLBACK n) = 0 → (s.loop n).bad = false →
    let l := s.loop n
    let e := (if n < 6 then s.loopForce 6 else s).loopError n
    let lo := (s.uLimits n).1
    let hi := (s.uLimits n).2
    let held := (hi ≤ l.u1 ∧ 0 < e) ∨ (l.u1 ≤ lo ∧ e < 0)
    let i := if held then l.i else clampInt (sat31 (l.i + term (s.lpCoef n 1) e)) (s.iLimits n).1 (s.iLimits n).2
    let d := sat31 (term (s.lpCoef n 3) l.d + term (s.lpCoef n 2) (sat31 (e - l.e1)))
    let u := clampInt (sat31 (term (s.lpCoef n 0) e + i + d)) lo hi
    (n = 6 ∧ s.lpe.vsnsInvalid = false ∨ n < 6 ∧ (s.phase n).invalid = false ∨ n = 8 →
      Completes (.loopEvaluation [] false) s fun t =>
        t.loopOut n = s.loopOut n ∧ (t.loop n).stored = some u ∧ (t.loop n).i = i ∧ (t.loop n).d = d ∧ (t.loop n).u1 = u ∧ (t.loop n).e1 = e ∧ t.lpe.due = due ∧
        t.get (F.LPE_LPn_STATUS_RUN n) = 0 ∧ t.get (F.LPE_LPn_STATUS_LIVE_SAT_HI n) = b2n (u == hi) ∧
        (∀ v, n < 6 → (s.loop 6).stored = some v → t.get (F.LPE_LPn_OUT_U 6) = ofSigned 32 v ∧ (t.loop 6).stored = none) ∧
        RegsBut [A.LPE_LPn_OUT 6, A.LPE_LPn_STATUS n] s t ∧ t.flt = s.flt) ∧
    (n = 6 ∧ s.lpe.vsnsInvalid = true ∨ n < 6 ∧ (s.phase n).invalid = true → s.get (F.LPE_LPn_STATUS_RUN n) < 3 →
      Completes (.loopEvaluation [] false) s fun t =>
        t.loopOut n = s.loopOut n ∧ t.loop n = l ∧ t.lpe.due = due ∧
        t.get (F.LPE_LPn_CNT_OVERRUN n) = min (s.get (F.LPE_LPn_CNT_OVERRUN n) + 1) 65535 ∧
        t.get (F.LPE_LPn_STATUS_RUN n) = min (s.get (F.LPE_LPn_STATUS_RUN n) + 1) 2 ∧
        (s.get (F.LPE_LPn_STATUS_RUN n) = 2 → n ∈ t.lpe.fbDue) ∧
        RegsBut [A.LPE_LPn_OUT 6, A.LPE_LPn_CNT n, A.LPE_LPn_STATUS n] s t)) ∧
  (∀ (s : State) (n : Nat) (due : List Nat), s.Wf → s.coreRun = true → s.lpe.fbDue = n :: due → n < 9 →
    s.lpe.loops.length = 9 →
    Completes .loopFallback s fun t =>
      t.get (F.LPE_LPn_STATUS_FALLBACK n) = 1 ∧ t.get (F.LPE_LPn_STATUS_RUN n) = 0 ∧ t.loopOut n = s.loopOut n ∧
      (t.loop n).es = [0, 0, 0] ∧ (t.loop n).us = [s.loopLast n, s.loopLast n, s.loopLast n] ∧ t.lpe.fbDue = due ∧
      (t.reg A.GLB_IRQ_STATUS).getLsbD 11 = true ∧ t.flt = (s.raise Code.LPE_FALLBACK n).flt) ∧
  (∀ (who : Initiator) (k : BitVec 4) (v : Word) (s : State), s.Wf → s.writable (A.LPE_LPn_CMD k.toNat) → k.toNat < 9 →
    (v.getLsbD 0 = true ∧ s.loopOn k.toNat = true ∧ s.get (F.LPE_LPn_STATUS_FALLBACK k.toNat) = 1 →
      Completes (.fbClear who k v) s fun t =>
        t.get (F.LPE_LPn_STATUS_FALLBACK k.toNat) = 0 ∧ t.get (F.LPE_LPn_STATUS_RUN k.toNat) = 0 ∧
        t.loopOut k.toNat = s.loopOut k.toNat ∧ RegsBut [A.LPE_LPn_STATUS k.toNat] s t) ∧
    (v.getLsbD 0 = false ∨ s.loopOn k.toNat = false ∨ s.get (F.LPE_LPn_STATUS_FALLBACK k.toNat) = 0 →
      exec (.fbClear who k v) s = .next s.accepted)) ∧
  (∀ s : State, s.Wf → s.lineOn = true → s.slotOpen 8 = true → s.lpe.trimServed = false →
    (Completes (.headroomTrim .none) s fun t => t.regs = s.regs ∧ t.flt = s.flt ∧ t.lpe.trimServed = true ∧
      t.lpe.loops = s.lpe.loops) ∧
    (Completes (.headroomTrim (.bad [])) s fun t => t.loopOut 7 = s.loopOut 7 ∧ t.flt = (s.raise Code.LPE_COMPLIANCE 7).flt ∧
      t.get (F.LPE_LPn_CNT_OVERRUN 7) = min (s.get (F.LPE_LPn_CNT_OVERRUN 7) + 1) 65535 ∧
      (t.reg A.GLB_IRQ_STATUS).getLsbD 11 = true) ∧
    ∀ (h : BitVec 7) (out : Bool), s.lpe.coefBad = [] → s.lpe.loops.length = 9 → (s.uLimits 7).1 ≤ (s.uLimits 7).2 →
      Completes (.headroomTrim (.report h out [] false)) s fun t =>
        (∃ u, (t.loop 7).stored = some u ∧ 0 ≤ u ∧ u ≤ s.get F.LPE_HEAD_HEAD_NOM * 2 ^ 18) ∧
        t.get (F.LPE_LPn_OUT_U 7) = (if out then ofSigned 32 (max 0 (s.loopLast 7 - s.get F.LPE_HEAD_BACK * 2 ^ 18))
          else s.get (F.LPE_LPn_OUT_U 7)) ∧ t.get (F.LPE_LPn_STATUS_RUN 7) = 0 ∧
        t.flt = s.flt ∧ RegsBut [A.LPE_LPn_OUT 7, A.LPE_LPn_STATUS 7] s t) ∧
  ∀ (who : Initiator) (s : State), s.Wf →
    let bank := s.get F.LPE_COEF_ADDR_BANK
    let next := fun t : State => t.get F.LPE_COEF_ADDR_INDEX =
      if s.get F.LPE_COEF_ADDR_INC = 1 then (s.get F.LPE_COEF_ADDR_INDEX + 1) % 16 else s.get F.LPE_COEF_ADDR_INDEX
    (s.readable A.LPE_COEF_M →
      (s.lpCoefRange = true → Completes (.lpeCoefMRead who) s fun t =>
        t.port = { value := 0, result := 0 } ∧ t.get F.LPE_COEF_STATUS_RANGE = 1 ∧ next t ∧ t.lpe = s.lpe) ∧
      (s.lpCoefRange = false → Completes (.lpeCoefMRead who) s fun t =>
        t.port = { value := (sparseGet lpCoefDefault s.lpe.coef s.lpCoefAddr).1, result := 0 } ∧
        t.get F.LPE_COEF_S_SHIFT = (sparseGet lpCoefDefault s.lpe.coef s.lpCoefAddr).2.toNat ∧ next t ∧ t.lpe = s.lpe)) ∧
    ∀ v : Word, s.writable A.LPE_COEF_M → SparseWf lpCoefDefault s.lpe.coef →
      (s.lpCoefRange = true → Completes (.lpeCoefMWrite who v) s fun t =>
        t.get F.LPE_COEF_STATUS_RANGE = 1 ∧ next t ∧ t.lpe = s.lpe) ∧
      (s.lpCoefRange = false → bank = s.actBank → Completes (.lpeCoefMWrite who v) s fun t =>
        t.get F.LPE_COEF_STATUS_ACTIVE_WRITE = 1 ∧ next t ∧ t.lpe = s.lpe) ∧
      (s.lpCoefRange = false → bank ≠ s.actBank → s.ras.pend ≠ none → Completes (.lpeCoefMWrite who v) s fun t =>
        t.get F.LPE_COEF_STATUS_PENDING = 1 ∧ next t ∧ t.lpe = s.lpe) ∧
      (s.lpCoefRange = false → bank ≠ s.actBank → s.ras.pend = none → Completes (.lpeCoefMWrite who v) s fun t =>
        sparseGet lpCoefDefault t.lpe.coef s.lpCoefAddr = (v, BitVec.ofNat 6 (s.get F.LPE_COEF_S_SHIFT)) ∧
        (∀ k, k ≠ s.lpCoefAddr → sparseGet lpCoefDefault t.lpe.coef k = sparseGet lpCoefDefault s.lpe.coef k) ∧
        s.lpCoefAddr ∉ t.lpe.coefBad ∧ t.bankReady bank = false ∧ t.bankReady s.actBank = s.bankReady s.actBank ∧ next t ∧
        RegsBut [A.LPE_COEF_ADDR, A.LPE_BANK_A, A.LPE_BANK_B] s t)

/-- Samples, pulses and conversions follow the period; the set-point stays between 2,600 and 5,000 mV; banks swap with
every output held.  Rests on R230, R231, R232, R233, R236, R243, R244, R249, R251, R252. -/
def Obligations.SamplesPulsesAndBanks : Prop :=
  (∀ (s : State) (vsns ref : BitVec 12) (vsnsOk refOk : Bool), s.Wf → s.sampleOpen = true →
    s.get F.LPE_STATUS_SWAP_RESULT ≠ 3 → s.lpe.tripDue = false → s.lpe.psHigh = true →
    Completes (.innerSample vsns ref vsnsOk refOk true) s fun t =>
      t.lpe.n = s.lpe.n + 1 ∧ t.lpe.k = s.lpe.k + 1 ∧
      t.get F.LPE_MEAS_VSNS_MV = (if vsnsOk then vsns.toNat * 3 / 2 else s.get F.LPE_MEAS_VSNS_MV) ∧
      (s.outerNext = false → t.lpe.due = s.lpe.due ∧ t.rail = s.rail ∧
        (s.rail ≠ 1 → 2600 ≤ t.get F.LPE_STATUS_VSET ∧ t.get F.LPE_STATUS_VSET ≤ 5000)) ∧
      (s.outerNext = true → t.lpe.due = s.lpe.due ++ [6]) ∧
      (s.outerNext = true → s.rail = 0 → s.get F.LPE_CTRL_RAIL_EN = 1 → s.removalOn = false → s.nPh ≠ 0 →
        t.rail = 1 ∧ t.lpe.phEn = true ∧ ∀ n, n < 7 → s.loopOn n = true → t.loopOut n = 0)) ∧
  (∀ (s : State) (p : BitVec 3), s.Wf → s.lineOn = true → p.toNat < 6 → s.lpe.phases.length = 6 →
    (s.phase p.toNat).pulseDue = true →
    Completes (.phasePulseStart p) s fun t =>
      (t.phase p.toNat).pulseDue = false ∧ (t.phase p.toNat).convDue = true ∧
      (∀ q, q ≠ p.toNat → t.phase q = s.phase q ∧ t.lpe.pwm.getLsbD q = s.lpe.pwm.getLsbD q) ∧
      (let h := (s.loopForce p.toNat).pulseLength p.toNat
       (t.phase p.toNat).pulseEnd = s.pulseCycle p.toNat + h ∧ (t.phase p.toNat).conv = s.pulseCycle p.toNat + h / 2 ∧
       (h ≠ 0 → s.railLive = true → s.lpe.phEn = true → t.lpe.pwm.getLsbD p.toNat = true)) ∧
      (∀ v, s.lpe.loops.length = 9 → (s.loop p.toNat).stored = some v →
        t.get (F.LPE_LPn_OUT_U p.toNat) = ofSigned 32 v ∧ (t.loop p.toNat).stored = none) ∧
      (s.railLive = false ∨ s.lpe.phEn = false → t.lpe.pwm = s.lpe.pwm) ∧ RegsBut [A.LPE_LPn_OUT p.toNat] s t) ∧
  (∀ (s : State) (p : BitVec 3), s.coreRun = true → p.toNat < 6 → s.lpe.pwm.getLsbD p.toNat = true →
    ((s.phase p.toNat).pulseEnd < 16 * s.nSlots → Completes (.phasePulseEnd p) s fun t =>
      t.lpe.pwm.getLsbD p.toNat = false ∧ (∀ q, q ≠ p.toNat → t.lpe.pwm.getLsbD q = s.lpe.pwm.getLsbD q) ∧
      t.regs = s.regs ∧ t.lpe.loops = s.lpe.loops) ∧
    (s.Wf → s.lpe.phases.length = 6 → Completes (.cbcTrip p) s fun t =>
      t.lpe.pwm.getLsbD p.toNat = false ∧ (t.phase p.toNat).cbcHit = true ∧
      t.get (F.LPE_LPn_CNT_CBC p.toNat) = min (s.get (F.LPE_LPn_CNT_CBC p.toNat) + 1) 65535 ∧
      ((s.phase p.toNat).cbcHit = false → max (s.get F.LPE_ILIM_CBC_RUN) 1 ≤ (s.phase p.toNat).cbcRun + 1 →
        (s.phase p.toNat).cbcRun < 255 → p.toNat ∈ t.lpe.ocDue) ∧ RegsBut [A.LPE_LPn_CNT p.toNat] s t)) ∧
  (∀ (s : State) (p : BitVec 3) (code : BitVec 12) (valid : Bool), s.lineOn = true → p.toNat < 6 → s.lpe.phases.length = 6 →
    (s.phase p.toNat).convDue = true → (s.phase p.toNat).conv < 16 * s.nSlots →
    ((s.phase p.toNat).conv < s.lineCycle → exec (.isnsConversion p code valid) s = .next s) ∧
    (s.lineCycle ≤ (s.phase p.toNat).conv → Completes (.isnsConversion p code valid) s fun t =>
      t.lpe.due = s.lpe.due ++ [p.toNat] ∧ (t.phase p.toNat).convDue = false ∧ (t.phase p.toNat).invalid = !valid ∧
      (t.phase p.toNat).code = (if valid then max (-2048) (min 2047 (code.toInt - s.isnsOff p.toNat)) else (s.phase p.toNat).code) ∧
      (valid = true → code.toInt = 2047 ∨ code.toInt = -2048 → 1 ≤ (s.phase p.toNat).fullRun → p.toNat ∈ t.lpe.rangeDue) ∧
      t.lineCycle = (s.phase p.toNat).conv ∧ t.regs = s.regs ∧ t.flt = s.flt)) ∧
  (∀ s : State, s.Wf → s.sampleOpen = true → s.outerNext = true → s.get F.LPE_STATUS_SWAP_RESULT = 3 →
    Completes .loopBankSwap s fun t =>
      t.actBank = 1 - s.actBank ∧ t.get F.LPE_STATUS_SWAP_RESULT = 1 ∧ (∀ n, n < 9 → t.loopOut n = s.loopOut n) ∧
      (t.reg A.GLB_IRQ_STATUS).getLsbD 11 = true ∧ t.lpe.coef = s.lpe.coef ∧ t.flt = s.flt ∧ SameMemory s t) ∧
  ∀ (who : Initiator) (v : Word) (s : State), s.Wf → s.writable A.LPE_CTRL →
    let other := 1 - s.actBank
    let fits := s.bankReady other = true ∧ s.bankMsw other = s.bankMsw s.actBank ∧ s.bankKout other = s.bankKout s.actBank ∧
      s.ras.pend = none ∧ s.get F.LPE_STATUS_SWAP_RESULT ≠ 3
    let fields := fun t : State => t.get F.LPE_CTRL_RAIL_EN = b2n (v.getLsbD 0) ∧ t.get F.LPE_CTRL_LP7_EN = b2n (v.getLsbD 1) ∧
      t.get F.LPE_CTRL_FFL_EN = b2n (v.getLsbD 2) ∧ t.get F.LPE_CTRL_SWAP_MODE = b2n (v.getLsbD 4)
    (v.getLsbD 0 = true → (fits → Completes (.swapBanks who v) s fun t =>
        t.get F.LPE_STATUS_SWAP_RESULT = 3 ∧ t.actBank = s.actBank ∧ t.rail = s.rail ∧ fields t ∧ t.lpe = s.lpe) ∧
      (¬ fits → s.get F.LPE_STATUS_SWAP_RESULT ≠ 3 → Completes (.swapBanks who v) s fun t =>
        t.get F.LPE_STATUS_SWAP_RESULT = 2 ∧ t.actBank = s.actBank ∧ t.rail = s.rail ∧ fields t ∧ t.lpe = s.lpe ∧
        (t.reg A.GLB_IRQ_STATUS).getLsbD 11 = true)) ∧
    (v.getLsbD 8 = false →
      (v.getLsbD 0 = false → s.rail ≠ 0 → Completes (.railEnWrite who v) s fun t =>
        t.rail = 0 ∧ t.get F.LPE_STATUS_IN_REG = 0 ∧ t.lpe.phOff = s.lpe.phEn ∧ t.lpe.phEn = s.lpe.phEn ∧
        t.lpe.pwm = s.lpe.pwm ∧ fields t ∧ RegsBut [A.LPE_CTRL, A.LPE_STATUS] s t) ∧
      (v.getLsbD 0 = true ∨ s.rail = 0 → Completes (.railEnWrite who v) s fun t =>
        t.rail = s.rail ∧ t.lpe = s.lpe ∧ fields t ∧ RegsBut [A.LPE_CTRL] s t))

/-- A rail fault is raised once and trips a live rail at once: pads low, loops cleared, LOOP_EVENT set; the fan keeps
its own rules. That FAN_PERIOD in line 0 waits for the evaluation of that line instead of taking the stored output
of LP8 is the model's reading of R233, log entry 85 (DEDUCED). Rests on R233, R234, R248, R249, R251, R252, R254. -/
def Obligations.RailFaultsTripTheRail : Prop :=
  (∀ (s : State) (c : Instr) (code addr : Nat), s.Wf → s.coreRun = true →
    (c = .railStartTimeout ∧ s.lpe.startDue = true ∧ s.rail = 1 ∧ code = Code.LPE_RAIL_START ∧ addr = 0 ∨
      c = .vledUvp ∧ s.lpe.uvpDue = true ∧ code = Code.LPE_UVP ∧ addr = 0 ∨
      c = .isnsRefFault ∧ s.lpe.refDue = true ∧ code = Code.LPE_ISNS_REF ∧ addr = 0 ∨
      c = .isnsRangeFault ∧ s.lpe.rangeDue.head? = some addr ∧ code = Code.LPE_ISNS_RANGE ∨
      c = .phaseOc ∧ s.lpe.ocDue.head? = some addr ∧ code = Code.LPE_PHASE_OC ∨
      c = .psFltNLow ∧ s.lpe.psHigh = true ∧ code = Code.LPE_STAGE ∧ addr = 0) →
    Completes c s fun t =>
      t.flt = (if c = .psFltNLow then s.assertF code addr else s.raise code addr).flt ∧
      (s.railLive = true → t.rail = 3 ∧ t.lpe.pwm = 0 ∧ t.lpe.phEn = false ∧ t.get F.LPE_STATUS_IN_REG = 0 ∧
        (∀ n, n < 7 → s.loopOn n = true → t.loopOut n = 0) ∧ (t.reg A.GLB_IRQ_STATUS).getLsbD 11 = true) ∧
      (s.railLive = false → t.regs = s.regs ∧ t.lpe.pwm = s.lpe.pwm) ∧ t.shadow = s.shadow ∧ SameMemory s t) ∧
  (∀ s : State, s.coreRun = true → s.lpe.ovpDue = true →
    exec .vledOvp s = .next { s.raise Code.LPE_OVP 0 with lpe := { s.lpe with ovpDue := false } }) ∧
  (∀ (s : State) (parity : Bool), s.Wf → s.coreRun = true → s.ras.running = true → parity = true ∨ s.lpe.crestMiss = 2 →
    s.get F.LPE_STATUS_CREST_FB = 0 →
    Completes (.crestFallback parity) s fun t =>
      t.get F.LPE_STATUS_CREST_FB = 1 ∧ t.flt = (s.assertF Code.LPE_CREST 0).flt ∧ t.lpe.crestMiss = 0 ∧
      t.crestUsed = s.modelCrest ∧ t.trimMv = 0 ∧ RegsBut [A.LPE_STATUS] s t) ∧
  (∀ s : State, s.lineOn = true → s.get F.LPE_TOPO_FAN = 1 → s.ras.line % max (s.get F.LPE_FAN_DIV) 1 = 0 →
    s.lpe.fanServed = false →
    let s1 := if s.ras.line = 0 then s else s.loopForce 8
    let cycles := min (max (s.get F.LPE_FAN_DIV) 1) (s.frameLines - s.ras.line) * s.nSlots * 16
    Completes .fanPeriod s fun t =>
      t.lpe = { s1.lpe with fanServed := true, fanLine := s.ras.line, fanHigh := (s1.fanDuty * cycles + 2 ^ 30) / 2 ^ 31 } ∧
      t.regs = s1.regs ∧ t.flt = s.flt) ∧
  ∀ s : State, s.coreRun = true → s.lpe.tachDue = true →
    Completes .tachFault s fun t => t.flt = (s.assertF Code.LPE_FAN 0).flt ∧ t.lpe.tachFault = true ∧
      t.lpe.tachDue = false ∧ t.fanDuty = (s.uLimits 8).2.toNat ∧ t.regs = s.regs

/-- Each of the island's own C4 causes removes light in the same step, whatever the state, and reports its code.  Rests
on R32, R37, R274, R279, R280, R283, R287, R290, R291, R292, R299. -/
def Obligations.OwnCausesRemoveLight : Prop :=
  (∀ (s : State) (c : Instr) (code : Nat) (level : Bool), s.Wf → s.saf.held = false →
    (s.safOn = true ∧
      (c = .darkDiscrepancy ∧ s.get F.SAF_DISC_DISC = s.discLimit ∧ s.get F.SAF_STATE_DISC_LATCH = 0 ∧ code = Code.SAF_DARK_DISC ∧ level = true ∨
        (c = .darkNetMismatch ⟨false, true⟩ ∨ c = .darkNetMismatch ⟨true, true⟩) ∧ code = Code.SAF_DARKNET ∧ level = true ∨
        c = .darkNetProof false ∧ s.safState = 0 ∧ s.saf.proofAged = true ∧ s.netsForced = false ∧ code = Code.SAF_DARKNET ∧ level = false ∨
        c = .relightFbTimeout ∧ s.get F.SAF_STATE_RELIGHT_WAIT = 1 ∧ s.get F.SAF_STATE_LRM_FB = 0 ∧
          timeUp s.saf.relightTicks (s.get F.SAF_LRM_FB_TIME) = true ∧ code = Code.SAF_LRM_FB ∧ level = false ∨
        c = .envelopeExceeded ∧ s.saf.envRun = 2 ∧ s.stands Code.SAF_ENVELOPE = false ∧ code = Code.SAF_ENVELOPE ∧ level = true ∨
        c = .lrmFbMismatch ∧ (s.get F.SAF_STATE_LRM_FB = 1 ↔ s.saf.lrm = false) ∧ s.stands Code.SAF_LRM_FB = false ∧
          (s.saf.lrmFollowed = true ∨ timeUp s.saf.lrmTicks (s.get F.SAF_LRM_FB_TIME) = true) ∧ code = Code.SAF_LRM_FB ∧ level = true ∨
        c = .islandSupplyFault ∧ s.saf.supplyRun = 2 ∧ s.stands Code.SAF_SUPPLY = false ∧ code = Code.SAF_SUPPLY ∧ level = true ∨
        c = .clockMonitorFail ∧ s.saf.islandRun = 2 ∧ s.stands Code.SAF_CLK_ISLAND = false ∧ code = Code.SAF_CLK_ISLAND ∧ level = true ∨
        c = .clockMonitorFail ∧ s.saf.islandRun ≠ 2 ∧ s.saf.arrayRun = 2 ∧ s.stands Code.SAF_CLK_ARRAY = false ∧
          code = Code.SAF_CLK_ARRAY ∧ level = true ∨
        c = .rasterStall ∧ s.saf.wdArmed = true ∧ 20 ≤ s.saf.wdTicks ∧ s.saf.wdStall = false ∧ code = Code.RAS_STALL ∧ level = false) ∨
      c = .islandOscStop true ∧ code = Code.SAF_CLK_ISLAND ∧ level = false) →
    Completes c s fun t =>
      t.flt = (if level then s.assertF code 0 else s.raise code 0).flt ∧
      t.get F.SAF_STATE_REMOVE_LATCH = 1 ∧ t.get F.SAF_STATE_RELIGHT_WAIT = 0 ∧ t.saf.lrm = false ∧
      (t.netsReach = true → t.darkNets = true ∧ t.ary.conduct = 0) ∧ t.safState = (if s.safState = 0 then 0 else 5) ∧
      (c = .darkDiscrepancy → t.get F.SAF_STATE_DISC_LATCH = 1) ∧
      (s.saf.lrm = true → s.coreOn = true → t.lpe.pwm = 0 ∧ t.lpe.phEn = false ∧ t.get F.LPE_STATUS_STOP = 1 ∧
        (s.rail = 1 ∨ s.rail = 2 → t.rail = 0)) ∧ SameMemory s t) ∧
  ∀ s : State, s.safOn = true →
    (∀ b : Bool, (if b then s.saf.netBadA else s.saf.netBadB) = false →
      Completes (.darkNetMismatch ⟨b, false⟩) s fun t =>
        t.saf.netBadA = false ∧ t.saf.netBadB = false ∧ t.flt = (s.deassertF Code.SAF_DARKNET).flt ∧
        t.safState = s.safState ∧ t.saf.lrm = s.saf.lrm ∧ SameMemory s t) ∧
    (s.safState = 0 → s.saf.proofAged = true → s.netsForced = false →
      Completes (.darkNetProof true) s fun t =>
        t.saf.proofAged = false ∧ t.flt = s.flt ∧ t.safState = 0 ∧
        (s.saf.proofNet = 1 → t.saf.proofDone = false ∧ t.netReleased 2 = true ∧ t.netReleased 1 = false) ∧
        (s.saf.proofNet ≠ 1 → t.saf.proofDone = true ∧ t.netReleased 1 = false ∧ t.netReleased 2 = false) ∧ SameMemory s t) ∧
    (s.saf.outRun = 2 → exec .safeOutFail s = .next (s.assertF Code.SAF_OUT 0)) ∧
    (s.saf.islandRun ≠ 2 → s.saf.arrayRun ≠ 2 → s.saf.oscRun = 2 → s.stands Code.SAF_CLK_OSCIN = false →
      exec .clockMonitorFail s = .next (s.assertF Code.SAF_CLK_OSCIN 0))

/-- The island's state is the first of REMOVED, DARK, DIM, OASIS, NORMAL whose condition holds; dark requests act at
once and LOCK only ever closes.  Rests on R276, R277, R278, R281, R282, R283, R294, R295, R303, R429, R494. -/
def Obligations.IslandStateAndDarkRequests : Prop :=
  (∀ s : State, s.Wf → s.saf.held = false → s.safState ≠ 0 →
    let t := s.safRefresh
    let out := s.get F.SAF_STATE_REMOVE_LATCH = 1 ∨ s.get F.SAF_STATE_RELIGHT_WAIT = 1
    let dim := s.get F.SAF_STATE_DIM_LATCH = 1
    let w := s.wantSource
    let lost := fun target : Nat =>
      w.1 = true ∧ (s.safState ≠ target ∨ s.saf.shown ≠ some w.2) ∧ s.chooseCopy w.2 = none
    let showsOrLost := fun target : Nat =>
      (lost target → t.safState = 5 ∧ t.get F.SAF_STATE_REMOVE_LATCH = 1 ∧ t.saf.lrm = false) ∧
      (¬ lost target → t.safState = target ∧ t.get F.SAF_STATE_REMOVE_LATCH = 0 ∧ t.saf.lrm = s.saf.lrm ∧
        t.saf.shown = if w.1 then some w.2 else none)
    (out → t.safState = 5) ∧ (¬ out → s.darkCause = true → t.safState = 4) ∧
    (¬ out → s.darkCause = false → dim → showsOrLost 3) ∧
    (¬ out → s.darkCause = false → ¬ dim → s.oasisReq = true → showsOrLost 2) ∧
    (¬ out → s.darkCause = false → ¬ dim → s.oasisReq = false → t.safState = 1) ∧
    (t.safState ≠ s.safState → (t.reg A.GLB_IRQ_STATUS).getLsbD 14 = true) ∧
    (t.safState = 4 ∨ t.safState = 5 → t.netsReach = true → t.darkNets = true ∧ t.ary.conduct = 0)) ∧
  (∀ (s : State) (a b : Bool), s.Wf → a = true ∨ b = false →
    Completes (.darkPadActive a b) s fun t =>
      t.saf.darkA = (a || !s.aonOn) ∧ t.saf.darkB = (b && s.aonOn) ∧ (t.netsReach = true → t.darkNets = true ∧ t.ary.conduct = 0) ∧
      (s.saf.held = false → t.saf.padReq = true ∧
        t.get F.SAF_CNT_DARK_REQ = (if s.saf.padReq then s.get F.SAF_CNT_DARK_REQ
          else min (s.get F.SAF_CNT_DARK_REQ + 1) (F.SAF_CNT_DARK_REQ).top) ∧
        (s.safState ≠ 0 → t.safState =
          if s.get F.SAF_STATE_REMOVE_LATCH = 1 ∨ s.get F.SAF_STATE_RELIGHT_WAIT = 1 then 5 else 4)) ∧ SameMemory s t) ∧
  (∀ s : State, s.safOn = true → s.relightRuns = false → exec .darkRelightExpiry s = .next s) ∧
  (∀ s : State, s.Wf → s.safOn = true → s.relightRuns = true →
    Completes .darkRelightExpiry s fun t =>
      t.saf.padReq = false ∧ t.saf.darkA = false ∧ t.saf.darkB = true ∧
      t.get F.SAF_STATE_DARK_HOLD = (if s.get F.SAF_SEAL_VALUE / 4 % 2 = 1 then s.get F.SAF_STATE_DARK_HOLD else 1) ∧
      (s.get F.SAF_SEAL_VALUE / 4 % 2 = 0 → s.safState ≠ 0 → s.get F.SAF_STATE_REMOVE_LATCH = 0 →
        s.get F.SAF_STATE_RELIGHT_WAIT = 0 → t.safState = 4) ∧ SameMemory s t) ∧
  (∀ (who : Initiator) (v : Word) (s : State) (c : Instr), s.Wf → s.writable A.SAF_CMD →
    c = .darkSw who v ∨ c = .firmwareOasisRequest who v →
    (s.saf.held = true → exec c s = .next s.accepted) ∧
    (s.saf.held = false → s.power = 5 → v.getLsbD 0 = false →
      exec c s = .next ((s.safCmd v).powerRequest 4).accepted) ∧
    (s.saf.held = false → s.power ≠ 5 ∨ v.getLsbD 0 = true ∨ s.get F.PWR_STATUS_STEP = 0 → Completes c s fun t =>
      t.get F.SAF_CMD_DARK_SW = b2n (v.getLsbD 0) ∧ t.get F.SAF_STATE_REQ_FW = b2n (v.getLsbD 4) ∧
      t.get F.SAF_CMD_BEAM = v.toNat / 2 ^ 8 % 4 ∧
      (v.getLsbD 0 = true → s.safState ≠ 0 → s.get F.SAF_STATE_REMOVE_LATCH = 0 → s.get F.SAF_STATE_RELIGHT_WAIT = 0 →
        t.safState = 4) ∧
      (s.power ≠ 5 → t.power = s.power) ∧
      (s.power = 5 → v.getLsbD 0 = false → t.power = 4 ∧ t.get F.PWR_STATUS_RESULT = 1) ∧ SameMemory s t)) ∧
  ∀ (who : Initiator) (v : Word) (s : State), s.Wf → s.saf.held = false →
    (s.writable A.SAF_LOCK → Completes (.safLock who v) s fun t =>
      t.get F.SAF_LOCK_LOCK = (if v.getLsbD 0 then 1 else s.get F.SAF_LOCK_LOCK) ∧ RegsBut [A.SAF_LOCK] s t) ∧
    ∀ a : BitVec 17, a.toNat ∈ [A.SAF_DIM, A.SAF_RAMP, A.SAF_OASIS, A.SAF_MON, A.SAF_LRM] → s.writable a.toNat →
      s.get F.SAF_LOCK_LOCK = 1 → exec (.registerWrite who a v) s = .next (s.put F.SAF_STATE_WR_LOCKED 1).accepted

/-- A relight, and an accepted SRST_N edge of the right width, bring light back; the dim ramp follows its line.  Rests
on R284, R285, R286, R287, R288, R289, R389. -/
def Obligations.ResetRelightAndRamp : Prop :=
  (∀ s : State, s.Wf → s.safOn = true → s.safState = 0 → s.mayLeaveInit = true →
    Completes .leaveInit s fun t =>
      t.safState = 5 ∧ (t.netsReach = true → t.darkNets = true) ∧ (t.reg A.GLB_IRQ_STATUS).getLsbD 14 = true ∧
      (s.get F.SAF_STATE_REMOVE_LATCH = 0 → t.get F.SAF_STATE_RELIGHT_WAIT = 1 ∧ t.saf.lrm = true ∧ t.saf.relightTicks = 0) ∧
      (s.get F.SAF_STATE_REMOVE_LATCH = 1 → t.get F.SAF_STATE_REMOVE_LATCH = 1 ∧ t.saf.lrm = s.saf.lrm) ∧
      (s.get F.SAF_SEAL_VALUE / 16 % 2 = 1 → s.get F.CVN_TDM_STATUS_ROLE = 0 → t.get F.CVN_TDM_STATUS_ROLE = 2 ∧
        t.get F.CVN_TDM_STATUS_HOLD = 1)) ∧
  (∀ s : State, s.Wf → s.safOn = true → s.get F.SAF_STATE_RELIGHT_WAIT = 1 → s.get F.SAF_STATE_LRM_FB = 1 →
    s.get F.LPE_STATUS_IN_REG = 1 →
    Completes .relightComplete s fun t =>
      t.get F.SAF_STATE_RELIGHT_WAIT = 0 ∧
      (s.safState ≠ 0 → s.get F.SAF_STATE_REMOVE_LATCH = 0 → s.darkCause = false → s.get F.SAF_STATE_DIM_LATCH = 0 →
        s.oasisReq = false → t.safState = 1 ∧ t.flt = s.flt ∧
          (s.saf.netBadA = false → s.saf.netBadB = false → t.darkNets = s.padActive)) ∧ SameMemory s t) ∧
  (∀ s : State, s.Wf → s.safOn = true → s.saf.srstRosePending = true →
    let w := s.saf.srstLow
    let latches := fun t : State => [F.SAF_STATE_REMOVE_LATCH, F.SAF_STATE_DIM_LATCH, F.SAF_STATE_DISC_LATCH,
      F.SAF_STATE_DARK_HOLD].map t.get
    (w < 5000 ∨ 200000 < w → Completes .srstRise s fun t =>
      t.get F.SAF_SRST_RESULT = 2 ∧ latches t = latches s ∧ t.safState = s.safState ∧
      t.get F.SAF_CNT_SRST_WIDTH = min (s.get F.SAF_CNT_SRST_WIDTH + 1) (F.SAF_CNT_SRST_WIDTH).top) ∧
    (5000 ≤ w → w ≤ 200000 → (s.deassertF Code.SAF_SRST_STUCK).srstClear = false → Completes .srstRise s fun t =>
      t.get F.SAF_SRST_RESULT = 3 ∧ t.get F.SAF_SRST_WIDTH = w ∧ latches t = latches s ∧ t.safState = s.safState ∧
      t.get F.SAF_CNT_SRST_CAUSE = min (s.get F.SAF_CNT_SRST_CAUSE + 1) (F.SAF_CNT_SRST_CAUSE).top ∧
      t.flt = ((s.deassertF Code.SAF_SRST_STUCK).raise Code.SAF_SRST_REFUSED 0).flt) ∧
    (5000 ≤ w → w ≤ 200000 → (s.deassertF Code.SAF_SRST_STUCK).srstClear = true → s.oasisReq = false →
      Completes .srstRise s fun t =>
        t.get F.SAF_SRST_RESULT = 1 ∧ latches t = [0, 0, 0, 0] ∧ t.get F.SAF_ENV_CEIL = 65535 ∧ t.get F.SAF_ENV_E = 65535 ∧
        (s.get F.SAF_STATE_REMOVE_LATCH = 1 → s.safState ≠ 0 → t.get F.SAF_STATE_RELIGHT_WAIT = 1 ∧ t.saf.lrm = true ∧
          t.safState = 5 ∧ (t.netsReach = true → t.darkNets = true)) ∧ t.saf.srstRosePending = false)) ∧
  (∀ s : State, s.safOn = true → s.saf.srstFellPending = true →
    exec .srstFall s = .next { s with saf := { s.saf with srstFellPending := false, srstLow := 0 } }) ∧
  (∀ s : State, s.Wf → s.safOn = true → s.saf.srstLevel = false → 500000 ≤ s.saf.srstLow →
    s.get F.SAF_STATE_SRST_STUCK = 0 →
    Completes .srstStuck s fun t => t.get F.SAF_STATE_SRST_STUCK = 1 ∧ t.flt = (s.assertF Code.SAF_SRST_STUCK 0).flt ∧
      t.safState = s.safState ∧ RegsBut [A.SAF_STATE] s t) ∧
  (∀ s : State, s.Wf → s.safOn = true → s.saf.dimDue = true → s.reg A.SAF_RAMP &&& 0xFFFFF ≠ 0 →
    Completes .dimEntry s fun t =>
      t.saf.dimEntered = true ∧ t.saf.dimDue = false ∧ t.saf.rampN = 0 ∧ t.saf.dimCfg = s.reg A.SAF_DIM ∧
      t.saf.rampCfg = s.reg A.SAF_RAMP ∧ t.saf.monCfg = s.reg A.SAF_MON ∧ t.get F.SAF_ENV_CEIL = 65535 ∧
      t.get F.SAF_ENV_E = 65535 ∧ t.get F.SAF_STATE_RAMP_DONE = 0) ∧
  ∀ s : State, s.Wf → s.safOn = true → s.saf.rampDue = true →
    let n := s.saf.rampN
    let top := s.saf.rampCfg.toNat % 2 ^ 20
    let floor := if s.saf.dimCfg.getLsbD 0 then 0 else s.saf.dimCfg.toNat / 65536
    let e := if n < top then 65535 - (65535 - floor) * n / top else floor
    Completes .rampTick s fun t =>
      t.get F.SAF_ENV_CEIL = e ∧ t.get F.SAF_ENV_E = e ∧ t.saf.rampDue = false ∧
      (top ≤ n → t.get F.SAF_STATE_RAMP_DONE = 1) ∧
      (n < top → t.get F.SAF_STATE_RAMP_DONE = s.get F.SAF_STATE_RAMP_DONE ∧ t.safState = s.safState)

/-- Straps are latched from two samples, oasis copies are checked and replaced, and the island's reset holds everything
dark.  Rests on R38, R57, R274, R279, R293, R294, R296, R299, R389, R418, R488, R500. -/
def Obligations.StrapsCopiesAndTicks : Prop :=
  (∀ s : State, s.saf.vddioIn = false → exec .sealReadStart s = .next s) ∧
  (∀ s : State, s.Wf → s.safOn = true → s.saf.sealWant = true → s.saf.vddioIn = true →
    Completes .sealReadStart s fun t =>
      t.get F.SAF_SEAL_READ_DONE = 0 ∧ t.saf.sealWant = false ∧ t.saf.sealTick = some 0 ∧ RegsBut [A.SAF_SEAL] s t) ∧
  (∀ s : State, s.Wf → s.safOn = true → s.saf.sealTick = some 21 → s.safState = 0 →
    Completes .sealLatch s fun t =>
      t.get F.SAF_SEAL_READ_DONE = 1 ∧ t.saf.sealTick = none ∧ t.safState = 0 ∧
      t.get F.SAF_SEAL_OPEN = (s.saf.sealHi ^^^ s.saf.sealLo).toNat ∧
      (s.saf.sealHi = s.saf.sealLo → t.get F.SAF_SEAL_VALUE = s.saf.sealHi.toNat) ∧
      ((s.saf.sealHi ^^^ s.saf.sealLo) &&& 3 ≠ 0 → t.get F.SAF_SEAL_VALUE % 4 = 0)) ∧
  (∀ s : State, s.Wf → s.safOn = true → s.coreRun = true → s.safState = 0 → s.saf.bootChecked = false →
    Completes .oasisBootCheck s fun t =>
      t.saf.bootChecked = true ∧ (∀ b k, b < 4 → k < 2 → t.copyValid b k = s.oasisCopyGood b k) ∧ t.safState = 0 ∧
      RegsBut [A.SAF_OASIS_STATUS] s t ∧ SameMemory s t) ∧
  (∀ (s : State) (v : BitVec 7), s.Wf → s.safOn = true → s.coreRun = true → s.ras.running = true → v ≠ 0 →
    s.get F.LUM_STATE_SOURCE = 1 →
    let b := s.get F.LUM_STATE_BEAM
    let k := s.oasisUse b
    (s.copyValid b k = true → s.oasisRowOk b k v.toNat = true → exec (.oasisRowCheck v) s = .next s) ∧
    (s.copyValid b k = true → s.oasisRowOk b k v.toNat = false → s.copyValid b (1 - k) = true →
      s.oasisRowOk b (1 - k) v.toNat = true → Completes (.oasisRowCheck v) s fun t =>
        t.oasisUse b = 1 - k ∧ t.copyValid b k = false ∧ t.copyValid b (1 - k) = true ∧
        t.flt = (s.raise Code.SAF_OASIS_COPY 0).flt ∧ t.safState = s.safState ∧ RegsBut [A.SAF_OASIS_STATUS] s t)) ∧
  (∀ s : State, s.Wf → s.saf.held = false →
    Completes .islandReset s fun t =>
      t.saf.held = true ∧ (t.netsReach = true → t.darkNets = true ∧ t.ary.conduct = 0) ∧ t.sourceDisable = true ∧
      t.saf.lrm = false ∧ t.safePads = none ∧ t.get F.CVN_TDM_STATUS_ROLE = 0 ∧
      (s.get F.CVN_TDM_STATUS_ROLE ≠ 0 → (t.reg A.GLB_IRQ_STATUS).getLsbD 18 = true) ∧ t.tdm.outBad = false ∧
      (SparseWf faultDefault s.flt.recs → ∀ n, 0x80 ≤ n → n ≤ 0x8E → (t.frec n).level = none) ∧ SameMemory s t) ∧
  (∀ s : State, s.Wf → s.saf.held = true →
    Completes .islandResetEnd s fun t =>
      (s.saf.netBadA = true ∨ s.saf.netBadB = true → t.get F.SAF_STATE_REMOVE_LATCH = 1) ∧
      t.saf.held = false ∧ t.safState = 0 ∧ t.saf.sealWant = true ∧ (t.netsReach = true → t.darkNets = true) ∧ t.saf.lrm = false ∧
      t.get F.SAF_STATE_REQ_FLT = b2n s.c2Stands ∧ t.get F.SAF_STATE_REQ_CFG = s.get F.SAF_STATE_REQ_CFG ∧
      (∀ a, 0xB000 ≤ a → a < 0xC000 → a ≠ A.SAF_STATE → t.reg a = regReset a) ∧ SameMemory s t) ∧
  (∀ s : State, s.safOn = true → s.grantOver = true →
    Completes .clockOffGrantEnd s fun t => t.saf.grant = false ∧ t.saf.arrayRun = 0 ∧ t.saf.islandRun = 0 ∧
      { t with saf := s.saf } = s) ∧
  ∀ (s : State) (i : TickIn), (s.safOn = false → exec (.safetyTick i) s = .next s) ∧
    (s.Wf → s.safOn = true → Completes (.safetyTick i) s fun t =>
      (i.trst = true → t.cfg.trst = true ∧ t.cfg.tap = .testLogicReset ∧ t.cfg.ir = 1 ∧ t.cfg.scanOn = false) ∧
      (i.trst = false → i.tck = List.replicate 5 (true, false) → t.cfg.tap = .testLogicReset) ∧
      (i.trst = true ∨ i.tck = [] →
        t.get F.SAF_TICK_TICK = (s.get F.SAF_TICK_TICK + 1) % 2 ^ 32 ∧
        t.get F.SAF_DISC_DISC = (if i.vddio < 1400 ∨ s.aonOn = false ∨ i.darkA = !i.darkB then 0
          else min (s.get F.SAF_DISC_DISC + 1) s.discLimit)))

/-- A code latches with its class reaction, escalates when its timer ends, and leaves by acknowledgement with the live
signal low.  Rests on R305, R306, R310, R312, R313, R314, R316, R320. -/
def Obligations.FaultsLatchAndEscalate : Prop :=
  let same := fun (r q : FaultRec) => q.st = r.st ∧ q.base = r.base ∧ q.eff = r.eff ∧ q.timer = r.timer ∧ q.unmasked = r.unmasked
  (∀ (code : Byte) (i : FaultInfo) (s : State), s.Wf → SparseWf faultDefault s.flt.recs → codeUsed code.toNat = true →
    s.aonOn = true → s.sourceOn code.toNat = true → (s.frec code.toNat).live = false → s.saf.held = false →
    (s.frec code.toNat).driver code.toNat = some i →
    let n := code.toNat
    let b := (s.frec n).base
    let counted := fun t : State => (t.frec n).live = true ∧ (t.frec n).count = min ((s.frec n).count + 1) 255
    (s.masked n = true → Completes (.faultLiveRise code) s fun t =>
      counted t ∧ same (s.frec n) (t.frec n) ∧ t.reg A.GLB_IRQ_STATUS = s.reg A.GLB_IRQ_STATUS ∧
      t.reg A.SAF_STATE = s.reg A.SAF_STATE) ∧
    (s.masked n = false → (s.frec n).st = .none → 1 ≤ b → b ≤ 4 → Completes (.faultLiveRise code) s fun t =>
      counted t ∧ (t.frec n).st = .pending ∧ (t.frec n).eff = b ∧ (t.frec n).base = b ∧ (t.frec n).unmasked = true ∧
      (t.frec n).addr = i.addr ∧
      (t.frec n).timer = (if b = 1 then some (max (s.get F.FLT_T1_TICKS) 1)
        else if b = 2 then some (max (s.get F.FLT_T2_TICKS) 1) else none) ∧
      (t.reg A.GLB_IRQ_STATUS).getLsbD 15 = true ∧ (b = 2 → t.get F.SAF_STATE_REQ_FLT = 1) ∧
      (b = 3 → t.get F.SAF_STATE_DIM_LATCH = 1) ∧ (b = 4 → t.get F.SAF_STATE_REMOVE_LATCH = 1 ∧ t.saf.lrm = false) ∧
      (s.flt.recs.any (fun e => s.latchesBefore e.1 n b) = true → t.reg A.FLT_FIRST0 = s.reg A.FLT_FIRST0) ∧
      (s.flt.recs.any (fun e => s.latchesBefore e.1 n b) = false →
        s.get F.FLT_FIRST0_VALID = 0 → min (s.get F.FLT_CTRL_FIRST_CLASS) 4 ≤ b → i.init < 32 → i.access < 8 → i.addr < 2 ^ 32 →
        t.get F.FLT_FIRST0_VALID = 1 ∧ t.get F.FLT_FIRST0_CODE = n ∧ t.get F.FLT_FIRST0_CLASS = b ∧
        t.get F.FLT_FIRST0_INIT = i.init ∧ t.get F.FLT_FIRST0_ACCESS = i.access ∧ t.get F.FLT_FIRST_ADDR_ADDR = i.addr) ∧
      (s.get F.FLT_FIRST0_VALID = 1 → t.get F.FLT_FIRST0_VALID = 1 ∧ t.get F.FLT_FIRST0_CODE = s.get F.FLT_FIRST0_CODE ∧
        t.reg A.FLT_FIRST_ADDR = s.reg A.FLT_FIRST_ADDR))) ∧
  (∀ (code : Byte) (s : State), s.Wf → SparseWf faultDefault s.flt.recs → s.aonOn = true → (s.frec code.toNat).live = true →
    (s.frec code.toNat).held = false ∨ s.sourceOn code.toNat = false →
    ((s.frec code.toNat).st = .acked → Completes (.faultLiveFall code) s fun t =>
      (t.frec code.toNat).live = false ∧ (t.frec code.toNat).st = .none ∧
      (t.frec code.toNat).eff = (s.frec code.toNat).base ∧ (t.frec code.toNat).unmasked = false) ∧
    ((s.frec code.toNat).st ≠ .acked → Completes (.faultLiveFall code) s fun t =>
      (t.frec code.toNat).live = false ∧ same (s.frec code.toNat) (t.frec code.toNat) ∧ t.saf = s.saf)) ∧
  (∀ (code : Byte) (s : State), s.Wf → SparseWf faultDefault s.flt.recs → s.aonOn = true → s.saf.held = false →
    ((s.frec code.toNat).expired 1 = true → Completes (.t1Expiry code) s fun t =>
      (t.frec code.toNat).st = .pending ∧ (t.frec code.toNat).eff = 2 ∧ t.get F.SAF_STATE_REQ_FLT = 1 ∧
      (t.frec code.toNat).timer = some (max (s.get F.FLT_T2_TICKS) 1)) ∧
    ((s.frec code.toNat).expired 2 = true → Completes (.t2Expiry code) s fun t =>
      (t.frec code.toNat).st = .pending ∧ (t.frec code.toNat).eff = 3 ∧ t.get F.SAF_STATE_DIM_LATCH = 1 ∧
      (t.frec code.toNat).timer = none)) ∧
  ∀ (who : Initiator) (v : Word) (s : State), s.Wf → SparseWf faultDefault s.flt.recs → s.writable A.FLT_ACK →
    let n := v.toNat % 256
    let r := s.frec n
    (r.st ≠ .pending → exec (.fltAck who v) s = .next (s.put F.FLT_STATUS_ACK_NONE 1).accepted) ∧
    (r.st = .pending → r.live = true → Completes (.fltAck who v) s fun t =>
      t.frec n = { r with st := .acked, timer := none } ∧ (∀ k, k ≠ n → t.frec k = s.frec k) ∧ t.saf = s.saf ∧ t.regs = s.regs) ∧
    (r.st = .pending → r.live = false → s.saf.held = false → Completes (.fltAck who v) s fun t =>
      (t.frec n).st = .none ∧ (t.frec n).eff = r.base ∧ (t.frec n).timer = none ∧
      (t.c2Stands = false → t.get F.SAF_STATE_REQ_FLT = 0) ∧
      t.get F.SAF_STATE_DIM_LATCH = s.get F.SAF_STATE_DIM_LATCH)

/-- An occurrence waits for its sample, invalid pairs act as faults, injections have their conditions, and only C0 and
C1 codes can be masked. The first clause is the mechanism of log entry 11 (DEDUCED), the model's reading of R306.
Rests on R306, R307, R308, R316, R320, R321, R322. -/
def Obligations.FaultPairsInjectionsMasks : Prop :=
  (∀ (s : State) (n : Nat) (i : FaultInfo), SparseWf faultDefault s.flt.recs →
    let r := s.frec n
    let stays := r.live = true ∧ (r.level.isSome = true ∨ r.inj.isSome = true ∨ r.invalid = true)
    (stays → s.raiseI n i = s) ∧
    (¬ stays → (s.raiseI n i).frec n = { r with pulses := r.pulses ++ [i] } ∧ (∀ k, k ≠ n → (s.raiseI n i).frec k = s.frec k) ∧
      { s.raiseI n i with flt := s.flt } = s)) ∧
  (∀ (code : Byte) (s : State), codeUsed code.toNat = true → s.aonOn = true → SparseWf faultDefault s.flt.recs →
    ((s.frec code.toNat).invalid = false → s.sourceOn code.toNat = true → code.toNat ≠ Code.COL_PAIR →
      Completes (.faultPairInvalid code true) s fun t =>
        (t.frec code.toNat) = { s.frec code.toNat with invalid := true } ∧
        t.frec Code.COL_PAIR = (s.raise Code.COL_PAIR code.toNat).frec Code.COL_PAIR ∧ t.regs = s.regs) ∧
    ((s.frec code.toNat).invalid = true → Completes (.faultPairInvalid code false) s fun t =>
      t.frec code.toNat = { s.frec code.toNat with invalid := false } ∧ (∀ k, k ≠ code.toNat → t.frec k = s.frec k) ∧
      t.regs = s.regs)) ∧
  (∀ (code : Byte) (s : State), s.aonOn = true → 1000 ≤ s.flt.proofTicks →
    exec (.faultPairProof []) s = .next { s with flt := { s.flt with proofTicks := 0 } } ∧
    ((s.frec code.toNat).live = true → exec (.faultPairProof [code]) s = .next { s with flt := { s.flt with proofTicks := 0 } }) ∧
    (codeUsed code.toNat = true → s.sourceOn code.toNat = true → (s.frec code.toNat).live = false →
      (s.frec code.toNat).driver code.toNat = none → exec (.faultPairProof [code]) s = .next
      ({ s with flt := { s.flt with proofTicks := 0 } }.raise Code.COL_PROOF code.toNat))) ∧
  (∀ (who : Initiator) (v : Word) (s : State), s.writable A.FLT_INJECT → SparseWf faultDefault s.flt.recs →
    let n := v.toNat % 256
    let allowed := s.mayInject = true ∧ codeUsed n = true ∧ s.sourceOn n = true ∧ s.flt.inject = none
    (¬ allowed → exec (.fltInject who v) s = .next (s.put F.FLT_STATUS_INJ_REFUSED 1).accepted) ∧
    (allowed → n ≠ Code.COL_INJECT → Completes (.fltInject who v) s fun t =>
      t.flt.inject = some (n, max (v.toNat / 256 % 256) 1) ∧ (t.frec n).inj.isSome = true ∧
      { t.frec n with inj := none } = { s.frec n with inj := none } ∧ t.regs = s.regs ∧
      ((s.frec Code.COL_INJECT).live = false → (t.frec Code.COL_INJECT).pulses = (s.frec Code.COL_INJECT).pulses ++
        [{ init := initNo who, access := writeKind who, addr := 0 }]))) ∧
  (∀ (s : State) (n : Nat), s.flt.inject = some (n, 0) → SparseWf faultDefault s.flt.recs →
    Completes .injectionEnd s fun t => t.flt.inject = none ∧ t.frec n = { s.frec n with inj := none } ∧
      (∀ k, k ≠ n → t.frec k = s.frec k) ∧ { t with flt := s.flt } = s) ∧
  (∀ (who : Initiator) (v : Word) (s : State), s.Wf → s.writable A.FLT_FIRST_REL →
    (v.getLsbD 0 = true → Completes (.fltFirstRel who v) s fun t => t.get F.FLT_FIRST0_VALID = 0 ∧ RegsBut [A.FLT_FIRST0] s t ∧
      t.flt = s.flt) ∧
    (v.getLsbD 0 = false → exec (.fltFirstRel who v) s = .next s.accepted)) ∧
  (∀ s : State, s.aonOn = true → s.flt.pinRun = 2 →
    exec .faultPinFail s = .next ({ s with flt := { s.flt with pinRun := 3 } }.raise Code.COL_PIN 0)) ∧
  ∀ (who : Initiator) (k : Nat) (v : Word) (s : State), s.Wf → k < 8 → s.writable (A.FLT_MASKn k) →
    Completes (.registerWrite who (BitVec.ofNat 17 (A.FLT_MASKn k)) v) s fun t =>
      (∀ j, j < 32 → (t.reg (A.FLT_MASKn k)).getLsbD j =
        (v.getLsbD j && codeUsed (32 * k + j) && decide ((s.frec (32 * k + j)).base ≤ 1))) ∧ t.flt = s.flt ∧
      RegsBut [A.FLT_MASKn k] s t

/-- A power request is refused, starts its first step, is undone, discarded or latched; PIX_READY, the latch test and
the start of a slave finish L1 and L2.  Rests on R427, R428, R429, R431, R433, R442, R448, R449. -/
def Obligations.RequestsStartLatchOrReverse : Prop :=
  let told := fun (t : State) (r : Nat) => t.get F.PWR_STATUS_RESULT = r ∧ (t.reg A.GLB_IRQ_STATUS).getLsbD 20 = true
  (∀ (who : Initiator) (v : Word) (s : State), s.Wf → s.writable A.PWR_REQ →
    let g := v.toNat % 8
    let p := s.get F.PWR_STATUS_STATE
    let go := s.get F.PWR_STATUS_STEP
    let barred := g < 2 ∨ 5 < g ∨ p = 0 ∨ p = 1 ∨ p = 6 ∨ (g = 2 ∧ (s.cfg.scanOn = true ∨ s.get F.CFG_STATUS_TEST = 1))
    (barred → Completes (.pwrReq who v) s fun t =>
      told t 2 ∧ RegsBut [A.PWR_STATUS, A.GLB_IRQ_STATUS, A.GLB_IRQ_RAW] s t ∧ t.get F.PWR_STATUS_LATCHED = s.get F.PWR_STATUS_LATCHED ∧
      t.get F.PWR_STATUS_STEP = go ∧ t.get F.PWR_STATUS_STATE = p) ∧
    (¬ barred → go = 0 →
      (g = p → Completes (.pwrReq who v) s fun t =>
        told t 1 ∧ t.get F.PWR_STATUS_STATE = p ∧ t.get F.PWR_STATUS_STEP = 0 ∧
        RegsBut [A.PWR_STATUS, A.GLB_IRQ_STATUS, A.GLB_IRQ_RAW] s t) ∧
      (p = 3 → 4 ≤ g → Completes (.pwrReq who v) s fun t =>
        t.get F.PWR_STATUS_STATE = 3 ∧ t.get F.PWR_STATUS_TARGET = g ∧ t.get F.PWR_STATUS_STEP = 1 ∧ t.get F.PWR_DOM_PIX = 1 ∧
        t.ary.storage = [] ∧ t.ary.display = [] ∧ t.cal.pcArm = true ∧
        (g = 5 → s.saf.held = false → t.get F.SAF_CMD_DARK_SW = 1)) ∧
      (p = 3 → g = 2 → Completes (.pwrReq who v) s fun t =>
        t.get F.PWR_STATUS_TARGET = 2 ∧ t.get F.PWR_STATUS_STEP = 5 ∧
        (s.nvmw.unit = none → s.recd.cpLast = none → ∀ n, n < 4 → s.jobActive n = true → t.jobState n = 4)) ∧
      (g ≠ p → 4 ≤ p → 4 ≤ g → s.saf.held = true → exec (.pwrReq who v) s = .next s.accepted) ∧
      (g ≠ p → 4 ≤ p → 4 ≤ g → s.saf.held = false → Completes (.pwrReq who v) s fun t =>
        told t 1 ∧ t.get F.PWR_STATUS_STATE = g ∧ t.get F.PWR_STATUS_TARGET = g ∧ t.get F.PWR_STATUS_STEP = 0 ∧
        t.get F.SAF_CMD_DARK_SW = if g = 5 then 1 else 0) ∧
      (4 ≤ p → g ≤ 3 → Completes (.pwrReq who v) s fun t =>
        t.get F.PWR_STATUS_STATE = p ∧ t.get F.PWR_STATUS_TARGET = g ∧ t.get F.PWR_STATUS_STEP = 3 ∧
        t.pwr.fromState = p ∧ t.saf = s.saf ∧ t.ras = s.ras ∧ RegsBut [A.PWR_STATUS] s t) ∧
      (p = 2 → 3 ≤ g → Completes (.pwrReq who v) s fun t =>
        t.get F.PWR_STATUS_TARGET = 3 ∧ t.get F.PWR_STATUS_STEP = 10 ∧ t.get F.PWR_WAKE_SOURCE = 1 ∧
        t.get F.PWR_CNT_WAKES = min (s.get F.PWR_CNT_WAKES + 1) 65535 ∧
        (g = 3 → t.get F.PWR_STATUS_LATCHED = s.get F.PWR_STATUS_LATCHED) ∧
        (g ≠ 3 → t.get F.PWR_STATUS_LATCHED = 1 ∧ t.get F.PWR_STATUS_LATCH_TGT = g))) ∧
    (¬ barred → go ≠ 0 →
      (g = s.target → s.get F.PWR_STATUS_LATCHED = 0 → exec (.pwrReq who v) s = .next s.accepted) ∧
      (g = s.target → s.get F.PWR_STATUS_LATCHED = 1 → g ≠ s.pwr.fromState → Completes (.pwrReq who v) s fun t =>
        t.get F.PWR_STATUS_LATCHED = 1 ∧ t.get F.PWR_STATUS_LATCH_TGT = g ∧ t.get F.PWR_STATUS_STEP = go ∧
        t.get F.PWR_STATUS_REVERSING = s.get F.PWR_STATUS_REVERSING ∧ RegsBut [A.PWR_STATUS] s t) ∧
      (g = 3 → s.target = 2 → go = 3 → s.pwr.fromState ≠ 3 → s.get F.PWR_STATUS_LATCHED = 0 →
        Completes (.pwrReq who v) s fun t => t.get F.PWR_STATUS_TARGET = 3 ∧ t.get F.PWR_STATUS_REVERSING = 1 ∧
          t.get F.PWR_STATUS_STEP = 3 ∧ t.get F.PWR_STATUS_LATCHED = 0 ∧ RegsBut [A.PWR_STATUS] s t) ∧
      (g ≠ s.target → (g ≠ s.pwr.fromState ∧ s.target ≠ 2) ∨ 8 ≤ go → Completes (.pwrReq who v) s fun t =>
        t.get F.PWR_STATUS_LATCHED = 1 ∧ t.get F.PWR_STATUS_LATCH_TGT = g ∧ t.get F.PWR_STATUS_STEP = go ∧
        t.get F.PWR_STATUS_REVERSING = s.get F.PWR_STATUS_REVERSING ∧ RegsBut [A.PWR_STATUS] s t) ∧
      (g ≠ s.target → g = s.pwr.fromState → go = 1 → s.target ≠ 2 → Completes (.pwrReq who v) s fun t =>
        t.get F.PWR_STATUS_REVERSING = 1 ∧ t.get F.PWR_STATUS_STEP = 1 ∧ RegsBut [A.PWR_STATUS] s t) ∧
      (g ≠ s.target → g = s.pwr.fromState → go = 3 → s.get F.PWR_STATUS_LATCHED = 0 → Completes (.pwrReq who v) s fun t =>
        told t 3 ∧ t.get F.PWR_STATUS_STATE = g ∧ t.get F.PWR_STATUS_STEP = 0 ∧
        t.get F.PWR_CNT_REVERSED = min (s.get F.PWR_CNT_REVERSED + 1) 65535 ∧ t.ras = s.ras ∧ t.saf = s.saf))) ∧
  (∀ s : State, s.Wf → s.coreRun = true → s.post = false → s.pixOn = true → s.get F.PWR_STATUS_STEP = 1 → s.bst.latchRow = none →
    let rev := s.get F.PWR_STATUS_REVERSING = 1
    (s.get F.BST_CTRL_LATCH_EN = 1 → ¬ rev → Completes .pixReady s fun t =>
      t.get F.BST_STATUS_LATCH = 1 ∧ t.bst.latchRow = some 0 ∧ t.get F.PWR_STATUS_STEP = 1 ∧ RegsBut [A.BST_STATUS] s t) ∧
    (rev → s.get F.PWR_STATUS_LATCHED = 0 → Completes .pixReady s fun t =>
      told t 3 ∧ t.get F.PWR_STATUS_STATE = 3 ∧ t.get F.PWR_STATUS_STEP = 0 ∧ t.get F.PWR_DOM_PIX = 0 ∧
      t.get F.PWR_STATUS_REVERSING = 0 ∧ t.get F.PWR_CNT_REVERSED = min (s.get F.PWR_CNT_REVERSED + 1) 65535 ∧
      ∀ b, s.pwr.darkSwBefore = some b → s.saf.held = false → t.get F.SAF_CMD_DARK_SW = if b then 1 else 0) ∧
    (s.get F.BST_CTRL_LATCH_EN = 0 → ¬ rev → s.rasRun = 0 →
      (s.retimeCheck (s.nextTiming true) = 0 → s.get F.RAS_NEXT_MODE_MODE ≠ 2 → s.get F.PWR_STATUS_LATCHED = 0 →
        Completes .pixReady s fun t => told t 1 ∧ t.get F.PWR_STATUS_STATE = s.target ∧ t.get F.PWR_STATUS_STEP = 0 ∧
          t.get F.RAS_RETIME_STATUS_RESULT = 1 ∧ t.rasRun = 2 ∧ t.ras.pend = some (s.nextTiming true) ∧
          t.ary.taps = s.cal.taps ∧ t.get F.PWR_DOM_PIX = s.get F.PWR_DOM_PIX) ∧
      (s.retimeCheck (s.nextTiming true) ≠ 0 → s.get F.PWR_STATUS_LATCHED = 0 →
        Completes .pixReady s fun t => told t 5 ∧ t.get F.PWR_STATUS_STATE = 3 ∧ t.get F.PWR_DOM_PIX = 0 ∧
          t.get F.RAS_RETIME_STATUS_RESULT = 3 ∧ t.rasRun = 0))) ∧
  (∀ (y x : Nat) (s : State), s.Wf → SparseWf mapDefault s.hlt.map → s.coreRun = true → s.bst.latchRow = some y → y < 511 →
    s.get F.PWR_STATUS_REVERSING = 0 →
    exec (.latchTestRow []) s = .next { s with bst := { s.bst with latchRow := some (y + 1) } } ∧
    (x < 2048 → s.mapState x y < 2 → Completes (.latchTestRow [x]) s fun t =>
      t.bst.latchRow = some (y + 1) ∧ t.mapState x y = 2 ∧ t.get F.BST_LATCH_ROW = y ∧
      t.get F.BST_LATCH_FAIL_PIX = min (s.get F.BST_LATCH_FAIL_PIX + 1) F.BST_LATCH_FAIL_PIX.top ∧
      ∀ a b, a < 2048 → (a, b) ≠ (x, y) → t.mapState a b = s.mapState a b)) ∧
  ∀ s : State, s.Wf → s.get F.PWR_STATUS_STEP = 2 → timeUp s.pwr.stepTicks (s.get F.PWR_TIMEOUT_START) = true →
    s.get F.PWR_STATUS_LATCHED = 0 → Completes .slaveStartTimeout s fun t =>
      told t 4 ∧ t.get F.PWR_STATUS_STATE = 3 ∧ t.get F.PWR_STATUS_STEP = 0 ∧ t.get F.PWR_DOM_PIX = 0 ∧ t.rasRun = 0 ∧
      t.ras.pend = (if s.rasRun = 0 then s.ras.pend else none)

/-- DORMANT entry goes D1 to D5, is undone at its abort points, and a wake goes W1 to W4 with one restart.  Rests on
R428, R430, R431, R432, R433, R436, R441. -/
def Obligations.DormantEntryAndWake : Prop :=
  let ended := fun (s t : State) (st r : Nat) => t.get F.PWR_STATUS_RESULT = r ∧ t.get F.PWR_STATUS_STATE = st ∧
    t.get F.PWR_STATUS_TARGET = st ∧ t.get F.PWR_STATUS_STEP = 0 ∧ (t.reg A.GLB_IRQ_STATUS).getLsbD 20 = true ∧
    t.get F.PWR_CNT_REVERSED = (if r = 3 ∨ r = 4 then min (s.get F.PWR_CNT_REVERSED + 1) 65535 else s.get F.PWR_CNT_REVERSED)
  (∀ s : State, s.Wf → s.get F.PWR_STATUS_LATCHED = 0 → s.aonOn = true → s.stepReady s.step? = true →
    let go := s.get F.PWR_STATUS_STEP
    let fwd := s.get F.PWR_STATUS_REVERSING = 0
    let next := fun (t : State) (n : Nat) => t.get F.PWR_STATUS_STEP = n ∧ t.pwr.stepTicks = 0 ∧
      t.get F.PWR_STATUS_TARGET = s.get F.PWR_STATUS_TARGET ∧ t.get F.PWR_STATUS_STATE = s.get F.PWR_STATUS_STATE
    (go = 4 → s.target ≠ 2 → Completes .transitionStepDone s fun t => ended s t 3 (if fwd then 1 else 3)) ∧
    (go = 4 → s.target = 2 → Completes .transitionStepDone s fun t =>
      next t 5 ∧ (s.nvmw.unit = none → s.recd.cpLast = none → ∀ n, n < 4 → s.jobActive n = true → t.jobState n = 4)) ∧
    (go = 5 → fwd → Completes .transitionStepDone s fun t => next t 6 ∧ t.get F.PWR_DOM_LNK = 0) ∧
    (go = 5 → ¬ fwd → Completes .transitionStepDone s fun t => ended s t 3 3 ∧ t.get F.PWR_STATUS_REVERSING = 0) ∧
    (go = 6 → fwd → s.lmc.scan = none → Completes .transitionStepDone s fun t =>
      next t 7 ∧ t.get F.PWR_DOM_MEM = 0 ∧ t.lmem = [] ∧ t.lmc.dir = [] ∧ t.lum.gain = [] ∧ t.hlt.map = [] ∧
      (s.get F.LMC_STATUS_BG_PHASE ≠ 1 → RegsBut [A.PWR_STATUS, A.PWR_DOM, A.LMC_STATUS, A.LMC_SEAL_STATUS] s t)) ∧
    (go = 7 → fwd → (∀ n, n < 4 → s.jobActive n = false) → Completes .transitionStepDone s fun t =>
      next t 8 ∧ t.get F.PWR_DOM_CORE = 0 ∧ t.lmem = [] ∧ t.hlt.map = [] ∧ t.lum.credit = s.lum.credit ∧
      t.lpe.coef = s.lpe.coef ∧ t.cmp.tt = s.cmp.tt ∧ t.cmp.coef = s.cmp.coef ∧ t.cal.taps = s.cal.taps ∧
      ∀ a, 0x1000 ≤ a → a < 0xA000 → a / 4096 ≠ 8 → a ∉ [A.LMC_STATUS, A.LMC_SEAL_STATUS, A.LUM_STATE] → t.reg a = s.reg a ∧ t.shReg a = s.shReg a) ∧
    (go = 7 → fwd → Completes .transitionStepDone s fun t => ∀ a, 0xD000 ≤ a → a < 0xE000 → t.reg a =
      if a ∈ [A.LNK_U_CTRL, A.LNK_D_CTRL, A.LNK_MSG, A.LNK_HOST_TO] then s.reg a else regReset a) ∧
    (go = 8 → Completes .transitionStepDone s fun t => next t 9 ∧ t.get F.PWR_DOM_PLL = 0 ∧ t.saf.grant = true) ∧
    (go = 9 → Completes .transitionStepDone s fun t => ended s t 2 1)) ∧
  (∀ s : State, s.Wf → SparseWf faultDefault s.flt.recs → s.get F.PWR_STATUS_LATCHED = 0 → s.aonOn = true →
    timeUp s.pwr.stepTicks (s.get F.PWR_TIMEOUT_STEP) = true →
    let go := s.get F.PWR_STATUS_STEP
    let told := fun t : State => t.frec Code.PWR_STEP_TIMEOUT = (s.raise Code.PWR_STEP_TIMEOUT go).frec Code.PWR_STEP_TIMEOUT
    (go = 1 → Completes .transitionStepTimeout s fun t => told t ∧ ended s t 3 4 ∧ t.get F.PWR_DOM_PIX = 0) ∧
    (go = 4 ∨ go = 5 → Completes .transitionStepTimeout s fun t =>
      told t ∧ ended s t 3 4 ∧ t.lmem = s.lmem ∧ t.hlt = s.hlt) ∧
    (go = 6 → Completes .transitionStepTimeout s fun t => told t ∧ ended s t 3 4 ∧ t.get F.PWR_DOM_LNK = 1 ∧ t.hlt = s.hlt) ∧
    (go = 7 → Completes .transitionStepTimeout s fun t => told t ∧ ended s t 3 4 ∧ t.get F.PWR_DOM_LNK = 1 ∧ t.lmc.dir = s.lmc.dir) ∧
    (go = 8 ∨ go = 9 → Completes .transitionStepTimeout s fun t =>
      told t ∧ ended s t 3 4 ∧ t.get F.PWR_DOM_LNK = 1 ∧ t.get F.PWR_DOM_CORE = 1 ∧ t.lmem = s.lmem ∧ t.lmc.dir = s.lmc.dir)) ∧
  (∀ (src : BitVec 3) (s : State), s.Wf →
    (s.wakeOn src.toNat = false → exec (.wakeEvent src) s = .next s) ∧
    (s.wakeOn src.toNat = true → s.power = 2 → s.step? = 0 → Completes (.wakeEvent src) s fun t =>
      t.get F.PWR_STATUS_STEP = 10 ∧ t.get F.PWR_STATUS_TARGET = 3 ∧ t.get F.PWR_STATUS_STATE = 2 ∧
      t.get F.PWR_WAKE_SOURCE = src.toNat ∧ t.get F.PWR_CNT_WAKES = min (s.get F.PWR_CNT_WAKES + 1) 65535 ∧
      t.pwr.wakeRetried = false ∧ RegsBut [A.PWR_STATUS, A.PWR_WAKE, A.PWR_CNT] s t)) ∧
  (∀ (ok : Bool) (s : State), s.Wf → s.get F.PWR_STATUS_LATCHED = 0 →
    let go := s.get F.PWR_STATUS_STEP
    (go = 10 → Completes (.wakeStepReady ok) s fun t => t.get F.PWR_STATUS_STEP = 11 ∧ t.saf.grantWait = true ∧ t.pwr.stepTicks = 0) ∧
    (go = 11 → Completes (.wakeStepReady ok) s fun t => t.get F.PWR_STATUS_STEP = 12 ∧ t.get F.PWR_DOM_PLL = 1) ∧
    (go = 12 → Completes (.wakeStepReady ok) s fun t => t.get F.PWR_STATUS_STEP = 13 ∧ t.get F.PWR_DOM_CORE = 1 ∧ t.hlt.confirm = []) ∧
    (go = 13 → ok = true → Completes (.wakeStepReady ok) s fun t => ended s t 3 1 ∧ t.get F.PWR_DOM_LNK = 1)) ∧
  ∀ s : State, s.Wf → SparseWf faultDefault s.flt.recs → 10 ≤ s.step? → s.step? ≤ 13 →
    let limit := if s.step? = 10 then 20 else if s.step? = 11 then 50 else if s.step? = 12 then 400 else 10
    let failed := fun t : State =>
      t.frec Code.PWR_WAKE = (s.raise Code.PWR_WAKE s.step?).frec Code.PWR_WAKE ∧
      (s.pwr.wakeRetried = false → t.get F.PWR_STATUS_STEP = 10 ∧
        t.pwr.wakeRetried = true ∧ t.get F.PWR_DOM_CORE = 0 ∧ t.get F.PWR_DOM_PLL = 0 ∧ t.get F.PWR_DOM_MEM = 0) ∧
      (s.pwr.wakeRetried = true → t.power = 1 ∧ t.cfg.bootStep = 1 ∧
        t.get F.PWR_STATUS_STEP = 0 ∧ t.get F.PWR_STATUS_LATCHED = 0 ∧ t.saf.sealWant = true)
    (timeUp s.pwr.stepTicks limit = true → Completes .wakeStepTimeout s failed) ∧
    (s.step? = 13 → Completes (.wakeStepReady false) s failed)

/-- RESET_N or VDD low is OFF, a release with VDD in range is BOOT with AON at its reset values, and BOOT goes its six
steps into IDLE.  Rests on R38, R39, R400, R403, R404, R426, R444, R488, R498, R500. -/
def Obligations.ResetAndBoot : Prop :=
  (∀ s : State, s.Wf → s.power ≠ 0 → s.saf.held = false →
    let off := fun t : State => t.get F.PWR_STATUS_STATE = 0 ∧ t.get F.PWR_STATUS_STEP = 0 ∧ t.lmem = [] ∧ t.ras = {} ∧ t.msk = {} ∧
      t.lnk = {} ∧ t.spi = {} ∧ t.port = {} ∧ t.cvn = {} ∧
      (∀ a, a ∉ [A.GLB_IRQ_STATUS, A.GLB_IRQ_RAW] → a < 0x1000 ∨ 0xD000 ≤ a ∧ a < 0xF000 → t.reg a = regReset a) ∧
      (t.reg A.GLB_IRQ_STATUS = 0 ∨ t.reg A.GLB_IRQ_STATUS = 0x4000) ∧
      (t.nvm = s.nvm ∨ s.nvmw.unit.isSome = true)
    (s.pwr.resetN = true → Completes .resetNLow s fun t => off t ∧ t.pwr.resetN = false ∧
      (s.pwr.vddOk = true → t.saf.grant = true ∧ t.saf.grantWait = false) ∧ (s.pwr.vddOk = false → t.saf.grant = s.saf.grant)) ∧
    (s.pwr.vddOk = true → Completes .vddBelowThreshold s fun t => off t ∧ t.pwr.vddOk = false ∧ t.saf.grant = false)) ∧
  (∀ (vddio : Nat) (s : State), s.Wf →
    let boot := fun t : State => t.get F.PWR_STATUS_STATE = 1 ∧ t.cfg.bootStep = 1 ∧ t.cfg.bootTicks = 0 ∧ t.get F.PWR_DOM_CORE = 1 ∧
      t.get F.PWR_DOM_MEM = 0x1FFFF ∧ t.get F.PWR_DOM_LNK = 0 ∧ t.get F.PWR_DOM_PIX = 0 ∧ t.get F.PWR_DOM_PLL = 0 ∧
      t.saf.sealWant = true ∧ t.saf.grantWait = true ∧ (t.pwr.vddio33 = true ↔ 2500 ≤ vddio) ∧ t.pwr.resetN = true ∧ t.pwr.vddOk = true ∧
      (s.nvmw.unit = none → t.nvm = s.nvm) ∧ t.reg A.GLB_IRQ_ENABLE = regReset A.GLB_IRQ_ENABLE
    (s.pwr.resetN = false → s.pwr.vddOk = true → Completes (.resetNRelease false vddio) s boot) ∧
    (s.pwr.resetN = true → s.pwr.vddOk = false → Completes (.resetNRelease true vddio) s boot) ∧
    (s.pwr.resetN = false → s.pwr.vddOk = false →
      exec (.resetNRelease false vddio) s = .next { s with pwr := { s.pwr with resetN := true } })) ∧
  (∀ (b : BootIn) (s : State), s.Wf → SparseWf faultDefault s.flt.recs → s.power = 1 → s.frozen = false →
    (s.cfg.bootStep = 1 → Completes (.bootStepDone b) s fun t =>
      t.get F.CFG_LC_STATE = s.cfg.fuses % 8 ∧ t.cfg.bootTicks = 0 ∧ t.cfg.bootStep = (if s.cfg.fuses = 4 then 5 else 2) ∧
      (b.voteBad = true → t.frec Code.CFG_FUSE = (s.raise Code.CFG_FUSE 0).frec Code.CFG_FUSE)) ∧
    (s.cfg.bootStep = 2 → headerOk b.bytes = true → Completes (.bootStepDone b) s fun t =>
      t.get F.CFG_BOOT_GEN_A = imgGen (b.bytes.take 32) ∧ t.cfg.hdrA = some (b.bytes.take 32) ∧ t.cfg.bootStep = 3 ∧
      RegsBut [A.CFG_BOOT] s t) ∧
    (s.cfg.bootStep = 2 → headerOk b.bytes = false → Completes (.bootStepDone b) s fun t =>
      t.get F.CFG_BOOT_REASON_REASON_A = 1 ∧ t.frec Code.CFG_SLOT_BAD = (s.raise Code.CFG_SLOT_BAD 0).frec Code.CFG_SLOT_BAD ∧
      t.cfg.hdrA = s.cfg.hdrA ∧ t.cfg.bootStep = 3 ∧ RegsBut [A.CFG_BOOT_REASON] s t) ∧
    (s.cfg.bootStep = 3 → headerOk b.bytes = true → Completes (.bootStepDone b) s fun t =>
      t.get F.CFG_BOOT_GEN_B = imgGen (b.bytes.take 32) ∧ t.cfg.bootStep = 4 ∧
      (∀ a, s.cfg.hdrA = some a → t.cfg.slot = if imgGen a < imgGen (b.bytes.take 32) then 2 else 1) ∧
      (s.cfg.hdrA = none → t.cfg.slot = 2)) ∧
    (s.cfg.bootStep = 3 → headerOk b.bytes = false → s.cfg.hdrA = none → s.cfg.hdrB = none → Completes (.bootStepDone b) s fun t =>
      t.frec Code.CFG_SLOT_BAD = (s.raise Code.CFG_SLOT_BAD 1).frec Code.CFG_SLOT_BAD ∧
      t.frec Code.CFG_NO_IMAGE = (s.raise Code.CFG_NO_IMAGE 0).frec Code.CFG_NO_IMAGE ∧ t.cfg.bootStep = 5) ∧
    (s.cfg.bootStep = 6 → Completes (.bootStepDone b) s fun t =>
      t.get F.PWR_STATUS_STATE = 3 ∧ t.get F.PWR_DOM_LNK = 1 ∧ t.get F.PWR_DOM_PLL = 1 ∧ t.post = true ∧
      t.get F.BST_STATUS_GROUP = 1 ∧ t.cfg.bootStep = 0 ∧ (t.reg A.GLB_IRQ_STATUS).getLsbD 20 = true ∧
      (s.cfg.image.isNone = true → t.get F.CFG_STATUS_LOADED = s.get F.CFG_STATUS_LOADED) ∧
      ∀ m, s.cfg.image = some m → t.get F.CFG_STATUS_LOADED = 1)) ∧
  ∀ s : State, s.Wf → SparseWf faultDefault s.flt.recs → s.power = 1 → s.frozen = false → timeUp s.cfg.bootTicks 1000 = true →
    s.cfg.bootStep = 2 →
    Completes .bootStepTimeout s fun t => t.get F.CFG_BOOT_REASON_REASON_A = 6 ∧
      t.frec Code.CFG_SLOT_BAD = (s.raise Code.CFG_SLOT_BAD 0).frec Code.CFG_SLOT_BAD ∧ t.cfg.bootStep = 3 ∧ t.cfg.bootTicks = 0

/-- A rail outside its window at two ticks raises its fault once, lock comes and goes, VPIX takes the latches with it,
and a freeze needs its life cycle.  Rests on R38, R188, R339, R421, R436, R441, R500. -/
def Obligations.SuppliesAndFreeze : Prop :=
  (∀ s : State, s.aonOn = true →
    let p := s.pwr
    (p.vddRun = 2 → p.vpixRun ≠ 2 → p.vddaRun ≠ 2 → p.vddioRun ≠ 2 → exec .railWindowFault s = .next
      { s.raise Code.PWR_VDD 0 with pwr := { p with vddRun := 3 } }) ∧
    (p.vddRun ≠ 2 → p.vpixRun = 2 → p.vddaRun ≠ 2 → p.vddioRun ≠ 2 → exec .railWindowFault s = .next
      { s.raise Code.PWR_VPIX 0 with pwr := { p with vpixRun := 3 } }) ∧
    (p.vddRun ≠ 2 → p.vpixRun ≠ 2 → p.vddaRun = 2 → p.vddioRun ≠ 2 → exec .railWindowFault s = .next
      { s.raise Code.PWR_VDDA_LNK 0 with pwr := { p with vddaRun := 3 } }) ∧
    (p.vddRun ≠ 2 → p.vpixRun ≠ 2 → p.vddaRun ≠ 2 → p.vddioRun = 2 → exec .railWindowFault s = .next
      { s.raise Code.PWR_VDDIO 0 with pwr := { p with vddioRun := 3 } })) ∧
  (∀ s : State, s.Wf → s.pllWanted = true →
    (s.get F.PWR_DOM_PLL = 1 → Completes .pllLockLoss s fun t => t.get F.PWR_DOM_PLL = 0 ∧ RegsBut [A.PWR_DOM] s t ∧
      t.flt = (s.raise Code.PWR_PLL 0).flt ∧ t.ras = s.ras ∧ t.ary = s.ary) ∧
    (s.get F.PWR_DOM_PLL = 0 → Completes .pllRelock s fun t => t.get F.PWR_DOM_PLL = 1 ∧ RegsBut [A.PWR_DOM] s t ∧ t.flt = s.flt ∧
      t.ras = s.ras)) ∧
  (∀ s : State, s.Wf →
    (s.get F.PWR_DOM_PIX = 1 → Completes .vpixLoss s fun t => t.get F.PWR_DOM_PIX = 0 ∧ t.pixOn = false ∧ t.pwr.vpixLost = true ∧
      t.ary.storage = [] ∧ t.ary.display = [] ∧ t.ary.maskW = [] ∧ t.ary.maskA = [] ∧ t.bst.latchRow = none ∧
      t.get F.BST_STATUS_LATCH = 0 ∧ (s.cal.run = none → RegsBut [A.PWR_DOM, A.BST_STATUS] s t)) ∧
    (s.pwr.vpixLost = false ∨ s.pwr.vpixGood ≠ 2 → exec .vpixRestored s = .next s) ∧
    (s.pwr.vpixLost = true → s.pwr.vpixGood = 2 → Completes .vpixRestored s fun t => t.get F.PWR_DOM_PIX = 1 ∧ t.pixOn = true ∧
      t.ary.storage = [] ∧ t.ary.display = [] ∧ t.ary.taps = s.cal.taps ∧ t.ary.tapBad = [])) ∧
  (∀ s : State, s.Wf → s.pwr.vddaLost = false → s.get F.LNK_U_STATUS_STATE = 7 → s.get F.LNK_D_STATUS_STATE = 7 →
    Completes .vddaLnkLoss s fun t => t.get F.LNK_U_STATUS_STATE = 0 ∧ t.get F.LNK_D_STATUS_STATE = 0 ∧ t.pwr.vddaLost = true) ∧
  ∀ s : State, s.Wf →
    (Completes (.freezeRequest false) s fun t =>
      t = { s with cfg := { s.cfg with freezePad := false, freezeOff := false } }) ∧
    (s.coreOn = true → s.frozen = false → s.cfg.freezeOff = false →
      (s.mayFreeze = true → Completes (.freezeRequest true) s fun t =>
        t.frozen = true ∧ t.rasRun = 0 ∧ t.ras.running = (s.ras.running && decide (s.rasRun = 0)) ∧ t.cfg.freezePad = true) ∧
      (s.mayFreeze = false → Completes (.freezeRequest true) s fun t =>
        t.frozen = false ∧ t.get F.CFG_STATUS_FREEZE_REF = 1 ∧ t.cfg.freezeOff = true ∧ t.flt = (s.raise Code.CFG_FREEZE_REF 0).flt ∧
        t.ras = s.ras ∧ RegsBut [A.CFG_STATUS] s t))

/-- A job command does what the table of R438 gives for the state of its slot, and each type of job starts with its
owner's work. The model's readings: a refused LIFECYCLE draws its challenge too, log entry 56 (DEDUCED); RESUME of a
CAL_RUN whose PRECHARGE item has no raster or PIX fails it, log entry 62 (DEDUCED). Rests on R87, R88, R405, R406,
R407, R411, R417, R438, R439, R443, R452, R458. -/
def Obligations.JobCommandsFollowTheTable : Prop :=
  ∀ (who : Initiator) (n : BitVec 2) (s : State), s.Wf → s.writable (A.PWR_JOBn_CMD n.toNat) →
    let k := n.toNat
    let ignored := (s.put (F.PWR_JOBn_STATUS_CMD_IGNORED k) 1).accepted
    let named := [(Instr.memScan who n, 1), (Instr.nvmWrite who n, 2), (Instr.bistRun who n, 3), (Instr.calRun who n, 4),
      (Instr.imageLoad who n, 5), (Instr.restructure who n, 6), (Instr.defectRebuild who n, 7), (Instr.lifecycle who n, 8),
      (Instr.recCheckpoint who n, 9)]
    let starts := fun (c : Instr) (t : Nat) => c = Instr.startJob who n (BitVec.ofNat 4 t) ∧ t < 16 ∨ (c, t) ∈ named
    let free := ∀ j, j < 4 → s.jobActive j = false
    let failed := fun (t : State) (ty r : Nat) => t.jobState k = 5 ∧ t.jobType k = ty ∧ t.get (F.PWR_JOBn_STATUS_REASON k) = r ∧
      t.get (F.PWR_JOBn_STATUS_COMMITTED k) = 0 ∧ (t.reg A.GLB_IRQ_STATUS).getLsbD 19 = true
    let runs := fun (t : State) (ty : Nat) => t.jobState k = 1 ∧ t.jobType k = ty ∧ t.get (F.PWR_JOBn_STATUS_REASON k) = 0
    (∀ (c : Instr) (ty : Nat), starts c ty →
      (s.jobActive k = true → exec c s = .next ignored) ∧
      (s.jobActive k = false →
        (ty = 0 ∨ 10 ≤ ty → Completes c s fun t => failed t ty 1) ∧
        (1 ≤ ty → ty ≤ 9 → (∃ j, j < 4 ∧ j ≠ k ∧ s.jobActive j = true ∧ s.jobType j = ty) → Completes c s fun t => failed t ty 2) ∧
        (1 ≤ ty → ty ≤ 9 → free → s.awake = false → Completes c s fun t =>
          failed t ty 3 ∧ (ty = 8 → t.reg A.CFG_CHAL1 = Config.challenge s.cfg.draws) ∧
          (ty ≠ 8 → s.lmc.scan = none → RegsBut [A.PWR_JOBn_STATUS k, A.GLB_IRQ_STATUS, A.GLB_IRQ_RAW] s t))) ∧
      (free → s.awake = true →
        (ty = 1 → s.scanRefusal = 0 → s.get F.CHK_LEN_LEN ≠ 0 → Completes c s fun t => runs t 1 ∧
          t.get F.CHK_PROGRESS_DONE = 0 ∧ t.lmc.scan = some { addr := s.get F.CHK_ADDR_ADDR, len := s.get F.CHK_LEN_LEN,
                                                              seed := s.reg A.CHK_SEED, pos := 0, run := ~~~ s.reg A.CHK_SEED }) ∧
        (ty = 1 → s.scanRefusal ≠ 0 → Completes c s fun t => failed t 1 4 ∧ t.get F.CHK_STATUS_REASON = s.scanRefusal ∧
          t.get F.CHK_STATUS_RESULT = 2) ∧
        (ty = 2 → s.nvRefusal (s.get F.CFG_NVM_SRC_VALUE) (s.get F.CFG_NVM_DST_VALUE) (s.get F.CFG_NVM_LEN_VALUE) = 0 →
          s.get F.CFG_NVM_LEN_VALUE ≠ 0 → Completes c s fun t => runs t 2 ∧
            t.nvmw.tasks = s.nvmw.tasks ++ [{ owner := 2, units := [] }] ∧ t.cfg.nvPos = 0 ∧
            t.cfg.nvSrc = s.get F.CFG_NVM_SRC_VALUE ∧ t.cfg.nvDst = s.get F.CFG_NVM_DST_VALUE ∧
            t.cfg.nvLen = s.get F.CFG_NVM_LEN_VALUE) ∧
        (ty = 3 → s.get F.BST_RUN_MODE = 1 → s.lcOpen = true → s.power = 3 → s.post = false → Completes c s fun t => runs t 3 ∧
          t.post = true ∧ t.get (F.PWR_JOBn_STATUS_COMMITTED k) = 1 ∧ t.bst.jobPost = true ∧ t.get F.BST_STATUS_GROUP = 1 ∧ t.lmem = []) ∧
        (ty = 3 → s.get F.BST_RUN_MODE = 1 → s.lcOpen = false → Completes c s fun t => failed t 3 4 ∧
          t.get F.BST_RUN_STATUS_REASON = 1) ∧
        (ty = 4 → (s.reg A.CAL_RUN).toNat % 16 = 1 → s.portU0 = true → s.cal.run = none → Completes c s fun t =>
          runs t 4 ∧ t.cal.job = some (s.reg A.CAL_RUN) ∧ t.cal.todo = [] ∧ t.get F.CAL_STATUS_BUSY = 1 ∧
          t.get F.CAL_STATUS_ACCEPTED = 0 ∧ t.get F.CAL_STATUS_FAILED = 0 ∧ (t.cal.run.map fun i => i.item) = some 0) ∧
        (ty = 5 → s.loadRefusal = 0 → Completes c s fun t => runs t 5 ∧ t.cfg.loadSrc = s.get F.CFG_IMG_SRC ∧
          t.cfg.loadAddr = s.get F.CFG_IMG_ADDR_ADDR ∧ t.cfg.loadTicks = 0) ∧
        (ty = 5 → s.loadRefusal ≠ 0 → s.loadRefusal < 32 → Completes c s fun t => failed t 5 4 ∧
          t.get F.CFG_IMG_STATUS_RESULT = 2 ∧ t.get F.CFG_IMG_STATUS_REASON = s.loadRefusal) ∧
        (ty = 6 → s.rsRefusal = 0 → s.get F.CFG_STATUS_LOADED = 1 → s.ras.running = true → s.saf.held = false → Completes c s fun t =>
          runs t 6 ∧ t.get F.CFG_RS_STATUS_PHASE = 1 ∧ t.get F.SAF_STATE_REQ_CFG = 1 ∧ t.cfg.rsInstants = 0 ∧ t.cfg.rsNow = false) ∧
        (ty = 6 → s.rsRefusal = 0 → s.ras.running = false → Completes c s fun t => runs t 6 ∧ t.cfg.rsNow = true ∧
          t.get F.SAF_STATE_REQ_CFG = s.get F.SAF_STATE_REQ_CFG) ∧
        (ty = 7 → s.get F.HLT_REBUILD_MODE = 2 → Completes c s fun t => runs t 7 ∧ t.hlt.rebuildMode = 2 ∧ t.hlt.map = s.hlt.map) ∧
        (ty = 8 → s.lcRefusal (s.get F.CFG_LC_TARGET) = 0 → Completes c s fun t => runs t 8 ∧ t.get F.CFG_LC_REASON = 0 ∧
          t.cfg.lcTarget = s.get F.CFG_LC_TARGET ∧ t.nvmw.tasks = s.nvmw.tasks ++ [{ owner := 8, units := [] }] ∧
          t.reg A.CFG_CHAL1 = Config.challenge s.cfg.draws ∧ t.cfg.fuses = s.cfg.fuses) ∧
        (ty = 8 → s.lcRefusal (s.get F.CFG_LC_TARGET) = 5 → Completes c s fun t => failed t 8 4 ∧ t.get F.CFG_LC_REASON = 5 ∧
          t.get F.CFG_LC_TRIES = min (s.get F.CFG_LC_TRIES + 1) 3 ∧ t.cfg.fuses = s.cfg.fuses) ∧
        (ty = 9 → s.get F.REC_STATUS_CP_RUN = 0 → Completes c s fun t => runs t 9 ∧ t.recd.cpReq = true ∧
          t.get F.REC_STATUS_CP_PENDING = 0))) ∧
    (∀ c, c ∈ [Instr.suspendJob who n, Instr.resumeJob who n, Instr.cancelJob who n] → s.jobActive k = false → exec c s = .next ignored) ∧
    (s.jobState k = 1 →
      (s.jobType k ∈ [1, 2, 3, 4, 5] → Completes (.suspendJob who n) s fun t =>
        t.pwr.suspend.getLsbD k = true ∧ t.jobState k = 1 ∧ t.regs = s.regs) ∧
      (s.jobType k = 8 ∨ s.jobType k = 9 → exec (.suspendJob who n) s = .next ignored) ∧
      exec (.resumeJob who n) s = .next s.accepted) ∧
    (s.jobState k = 2 →
      exec (.suspendJob who n) s = .next s.accepted ∧
      (let dark := s.jobType k = 4 ∧ (∃ it, s.cal.run = some it ∧ it.item = 1 ∧ it.auto = false) ∧
         (s.ras.running = false ∨ s.pixOn = false)
       (s.jobType k ≠ 3 → ¬ dark → Completes (.resumeJob who n) s fun t =>
         t.jobState k = 1 ∧ RegsBut [A.PWR_JOBn_STATUS k] s t) ∧
       (dark → s.findJob 4 = some k → Completes (.resumeJob who n) s fun t =>
         t.jobState k = 5 ∧ t.get F.CAL_STATUS_REASON = 3 ∧ (t.reg A.GLB_IRQ_STATUS).getLsbD 19 = true))) ∧
    (s.jobActive k = true → Completes (.cancelJob who n) s fun t =>
      t.jobActive k = false ∧ t.jobType k = s.jobType k ∧ t.pwr.suspend.getLsbD k = false ∧
      (s.nvmw.unit = none → s.recd.cpLast = none → t.jobState k = 4 ∧ (t.reg A.GLB_IRQ_STATUS).getLsbD 19 = true ∧
        ∀ j, j < 4 → j ≠ k → t.jobState j = s.jobState j))

/-- A job is suspended at its point, the writer writes whole units in turn, an image is staged or rejected, and a
restructure swaps or gives up.  Rests on R89, R295, R399, R400, R402, R405, R407, R408, R410, R411, R438, R439. -/
def Obligations.JobWorkAndImages : Prop :=
  (∀ (n : BitVec 2) (pos : Nat) (s : State), s.Wf → s.pwr.suspend.getLsbD n.toNat = true → s.jobState n.toNat = 1 →
    let k := n.toNat
    (s.jobType k = 1 → ∀ j : ScanJob, s.lmc.scan = some j → j.pos ≤ pos → pos ≤ j.len → pos < 2 ^ 26 → (pos = 0 ∨ (j.addr + pos) % 4096 = 0) →
      Completes (.jobSuspended n pos) s fun t => t.jobState k = 2 ∧ t.pwr.suspend.getLsbD k = false ∧
        t.get F.CHK_PROGRESS_DONE = pos ∧ t.lmc.scan.map (fun j => j.pos) = some pos) ∧
    (s.jobType k = 5 → Completes (.jobSuspended n pos) s fun t => t.jobState k = 2 ∧ t.pwr.suspend.getLsbD k = false ∧
      RegsBut [A.PWR_JOBn_STATUS k] s t ∧ t.cfg = s.cfg)) ∧
  (∀ (s : State) (w : NvmTask) (ws : List NvmTask) (u : Nat × List Byte) (us : List (Nat × List Byte)), s.Wf →
    s.nvmw.tasks = w :: ws → w.units = u :: us → s.nvmw.unit = none → s.coreRun = true → s.get F.THM_STATUS_NVM_OK = 1 →
    s.taskHeld w = false → w.owner ≠ 8 → Completes .nvmUnitStart s fun t =>
      t.nvmw.unit = some u ∧ t.nvmw.tasks = s.nvmw.tasks ∧ t.get F.CFG_NVM_STATUS_UNIT = 1 ∧ t.nvm = s.nvm ∧ t.lmem = s.lmem ∧
      RegsBut [A.CFG_NVM_STATUS] s t) ∧
  (∀ (s : State) (w : NvmTask) (ws : List NvmTask), s.Wf → s.nvmw.tasks = w :: ws → w.owner = 0 → w.units = [] →
    s.nvmw.unit = none → s.coreRun = true → s.get F.THM_STATUS_NVM_OK = 1 → Completes .nvmUnitStart s fun t =>
      ∃ bytes, t.nvmw.unit = some (lcRecordAddr s.floorTarget.1, bytes) ∧
        t.nvmw.tasks = { w with units := [(lcRecordAddr s.floorTarget.1, bytes)] } :: ws ∧ bytes.length = 64 ∧
        t.get F.CFG_FLOOR_FLOOR = s.get F.CFG_FLOOR_FLOOR ∧ SameMemory s t) ∧
  (∀ (s : State) (w : NvmTask) (ws : List NvmTask) (u : Nat × List Byte) (us : List (Nat × List Byte)), s.Wf →
    s.nvmw.tasks = w :: ws → w.units = u :: us → s.nvmw.unit = some u →
    let stored := fun t : State => (∀ i, i < u.2.length → t.nvByte (u.1 + i) = u.2.getD i 0) ∧
      (∀ a, a < u.1 ∨ u.1 + u.2.length ≤ a → t.nvByte a = s.nvByte a) ∧ t.nvmw.unit = none ∧ t.get F.CFG_NVM_STATUS_UNIT = 0
    (us ≠ [] → w.owner ≠ 2 → Completes .nvmUnitDone s fun t => stored t ∧ t.nvmw.tasks = { w with units := us } :: ws ∧
      RegsBut [A.CFG_NVM_STATUS] s t) ∧
    (us = [] → w.owner = 0 → Completes .nvmUnitDone s fun t => stored t ∧ t.nvmw.tasks = ws ∧
      t.get F.CFG_FLOOR_FLOOR = w.floor % 65536 ∧ RegsBut [A.CFG_NVM_STATUS, A.CFG_FLOOR] s t) ∧
    (us = [] → w.owner = 2 → s.cfg.nvLen ≤ s.cfg.nvPos → ∀ k, s.findJob 2 = some k → Completes .nvmUnitDone s fun t =>
      stored t ∧ t.jobState k = 3 ∧ t.get (F.PWR_JOBn_STATUS_COMMITTED k) = 1 ∧ t.get F.CFG_NVM_STATUS_RESULT = 1 ∧
      (t.reg A.GLB_IRQ_STATUS).getLsbD 19 = true)) ∧
  (∀ (bytes : List Byte) (s : State) (k : Nat), s.Wf → s.coreRun = true → s.findJob 5 = some k → s.findRunning 5 = some k →
    s.cfg.loadSrc ≠ 3 → s.lc ≠ 4 →
    (∀ r, r < 32 → imgCheck s.kAuth s.kEnc (s.get F.CFG_FLOOR_FLOOR) bytes = .error r → Completes (.imageStaged bytes) s fun t =>
      t.jobState k = 5 ∧ t.get F.CFG_IMG_STATUS_RESULT = 2 ∧ t.get F.CFG_IMG_STATUS_REASON = r ∧ t.cfg = s.cfg ∧
      t.get F.CFG_STATUS_STAGED = s.get F.CFG_STATUS_STAGED) ∧
    (∀ m : Image, imgCheck s.kAuth s.kEnc (s.get F.CFG_FLOOR_FLOOR) bytes = .ok m → Completes (.imageStaged bytes) s fun t =>
      t.jobState k = 3 ∧ t.get (F.PWR_JOBn_STATUS_COMMITTED k) = 1 ∧ t.get F.CFG_STATUS_STAGED = 1 ∧ t.cfg.staged = some m ∧
      t.get F.CFG_IMG_STATUS_GEN = m.gen % 65536 ∧ t.get F.CFG_IMG_STATUS_RESULT = 1 ∧
      t.get F.CFG_STATUS_GEN = s.get F.CFG_STATUS_GEN)) ∧
  (∀ (s : State) (k : Nat), s.Wf → s.findRunning 5 = some k → s.findJob 5 = some k → 50000 ≤ s.cfg.loadTicks →
    Completes .bodyReadTimeout s fun t => t.jobState k = 5 ∧ t.get F.CFG_IMG_STATUS_RESULT = 2 ∧ t.get F.CFG_IMG_STATUS_REASON = 6 ∧
      t.cfg = s.cfg) ∧
  (∀ (who : Initiator) (v : Word) (s : State), s.Wf → s.writable A.CFG_IMG → s.findJob 6 = none → Completes (.dropImage who v) s fun t =>
    t.get F.CFG_STATUS_STAGED = 0 ∧ t.cfg.staged = none ∧ t.get F.CFG_IMG_SRC = v.toNat % 4 ∧ RegsBut [A.CFG_STATUS, A.CFG_IMG] s t) ∧
  (∀ (s : State) (k : Nat) (m : Image), s.Wf → s.coreRun = true → s.findRunning 6 = some k → s.findJob 6 = some k →
    s.cfg.staged = some m → s.cfg.rsNow = true ∨ (s.blankDue = true ∧ s.rsDue = true) → Completes .restructureSwap s fun t =>
      t.get F.CFG_RS_STATUS_PHASE = 2 ∧ t.get (F.PWR_JOBn_STATUS_COMMITTED k) = 1 ∧ t.jobState k = 1 ∧ t.cfg.rsNow = false ∧
      t.get F.CFG_STATUS_LOADED = 1 ∧ t.get F.CFG_STATUS_GEN = m.gen % 65536 ∧ t.get F.CFG_STATUS_SOURCE = s.cfg.stagedSrc % 4 ∧
      t.get F.CFG_STATUS_STAGED = 0 ∧ t.cfg.staged = none ∧ t.get F.LPE_TOPO_N_PH = (m.word 5 0 0).toNat % 8 ∧
      t.get F.GLB_COMMIT_STATUS_STATE = 0) ∧
  ∀ (s : State) (k : Nat), s.Wf → s.findJob 6 = some k → s.get F.CFG_RS_STATUS_PHASE = 1 → 8 ≤ s.cfg.rsInstants → s.saf.held = false →
    Completes .restructureNoOasis s fun t => t.jobState k = 5 ∧ t.get F.CFG_RS_STATUS_PHASE = 0 ∧ t.get F.CFG_RS_STATUS_RESULT = 2 ∧
      t.get F.CFG_RS_STATUS_REASON = 16 ∧ t.get F.SAF_STATE_REQ_CFG = 0 ∧ t.cfg.staged = s.cfg.staged ∧
      t.get F.LPE_TOPO_N_PH = s.get F.LPE_TOPO_N_PH ∧ (t.reg A.GLB_IRQ_STATUS).getLsbD 19 = true

/-- Keys can be written in BLANK only, a life cycle moves fuse by fuse, END clears the secrets, and the self-test
retires what fails.  Rests on R83, R401, R415, R416, R417, R444, R445, R453. -/
def Obligations.KeysLifeCycleSelfTest : Prop :=
  (∀ (who : Initiator) (n : BitVec 3) (v : Word) (s : State), s.writable (A.CFG_KEYn n.toNat) →
    (s.lc = 0 → Completes (.keyWrite who n v) s fun t => t.cfg.keyIn.find? (fun e => e.1 == n.toNat) = some (n.toNat, v) ∧
      (∀ k, k ≠ n.toNat → t.cfg.keyIn.find? (fun e => e.1 == k) = s.cfg.keyIn.find? (fun e => e.1 == k)) ∧ t.regs = s.regs ∧
      t.cfg.keyAuth = s.cfg.keyAuth) ∧
    (s.lc ≠ 0 → exec (.keyWrite who n v) s = .next s.accepted)) ∧
  (∀ (b : Bool) (s : State) (w : NvmTask) (ws : List NvmTask) (k : Nat), s.Wf → SparseWf faultDefault s.flt.recs →
    s.nvmw.tasks = w :: ws → w.owner = 8 →
    s.coreRun = true → s.get F.THM_STATUS_NVM_OK = 1 → s.nvmw.unit = none → s.findJob 8 = some k →
    let keys := s.lc = 0 ∧ s.cfg.lcTarget = 1
    let told := fun t : State => t.jobState k = 3 ∧ t.get (F.PWR_JOBn_STATUS_COMMITTED k) = 1 ∧ t.get F.CFG_LC_STATE = s.cfg.lcTarget ∧
      (∀ x ∈ t.nvmw.tasks, x.owner ≠ 8) ∧ (t.reg A.GLB_IRQ_STATUS).getLsbD 19 = true
    (¬ keys → s.cfg.fuses + 1 < s.cfg.lcTarget → exec (.lifecycleFuseBlow b) s = .next
      { s with cfg := { s.cfg with fuses := s.cfg.fuses + 1 } }) ∧
    (¬ keys → s.cfg.fuses + 1 = s.cfg.lcTarget → s.cfg.lcTarget < 4 → Completes (.lifecycleFuseBlow b) s fun t =>
      told t ∧ t.cfg.fuses = s.cfg.lcTarget ∧ t.cfg.keyAuth = s.cfg.keyAuth ∧ t.cfg.kill = s.cfg.kill) ∧
    (s.cfg.fuses = 3 → s.cfg.lcTarget = 4 → Completes (.lifecycleFuseBlow b) s fun t =>
      told t ∧ t.cfg.fuses = 4 ∧ t.cfg.kill = true ∧ t.kAuth = zeroKey ∧ t.kEnc = zeroKey ∧ t.cfg.staged = none ∧
      t.get F.CFG_STATUS_KEYS = 0 ∧ t.get F.CFG_STATUS_CLEARED = 1 ∧ t.frec Code.CFG_END = (s.raise Code.CFG_END 0).frec Code.CFG_END) ∧
    (keys → s.cfg.fuses = 0 → Completes (.lifecycleFuseBlow true) s fun t =>
      told t ∧ t.cfg.fuses = 1 ∧ t.cfg.keyAuth = s.keyBytes 0 ∧ t.cfg.keyEnc = s.keyBytes 4) ∧
    (keys → Completes (.lifecycleFuseBlow false) s fun t =>
      t.jobState k = 5 ∧ t.get F.CFG_LC_REASON = 2 ∧ t.cfg.fuses = s.cfg.fuses ∧ t.get F.CFG_LC_STATE = 0)) ∧
  ∀ (banks : BitVec 17) (rams : BitVec 4) (s : State), s.Wf → SparseWf faultDefault s.flt.recs → s.post = true → s.coreRun = true →
    s.bst.jobPost = false → s.bst.stopPost = false →
    let g := s.get F.BST_STATUS_GROUP
    let group := if g = 5 then [16] else [4 * (g - 1), 4 * (g - 1) + 1, 4 * (g - 1) + 2, 4 * (g - 1) + 3]
    (1 ≤ g → g ≤ 4 → rams = 0 → Completes (.postGroupDone banks rams) s fun t =>
      t.post = true ∧ t.get F.BST_STATUS_GROUP = g + 1 ∧
      (∀ p, p ∈ group → t.lmc.retired.getLsbD p = banks.getLsbD p ∧ (t.reg A.BST_BANK_FAIL).getLsbD p = banks.getLsbD p) ∧
      (∀ p, p < 17 → p ∉ group → t.lmc.retired.getLsbD p = s.lmc.retired.getLsbD p) ∧
      (t.bst.failed = true ↔ s.bst.failed = true ∨ ∃ p ∈ group, banks.getLsbD p = true)) ∧
    (g = 5 → Completes (.postGroupDone banks rams) s fun t =>
      t.post = false ∧ t.get F.BST_STATUS_GROUP = 0 ∧ t.get F.LMC_STATUS_POST = 0 ∧ t.lmem = [] ∧ t.lmc.dir = [] ∧
      t.lmc.retired.getLsbD 16 = banks.getLsbD 16 ∧
      t.get F.BST_STATUS_POST_RESULT = (if s.bst.failed = true ∨ banks.getLsbD 16 = true then 2 else 1))

/-- A port trains DOWN, DETECT, COMMA_LOCK, POLARITY, LANE_ORDER, EQ_TRAIN, DESKEW, ACTIVE, each step on its own
condition.  Rests on R333, R334, R335, R336, R337, R338, R340, R341, R345, R362. -/
def Obligations.PortsTrain : Prop :=
  let good := fun (ls : List TsLane) => ls.all (fun l => !l.codeError) = true
  let moved := fun (t : State) (d : Bool) (st : Nat) => t.pst d = st ∧ (t.reg A.GLB_IRQ_STATUS).getLsbD 16 = true ∧
    (t.port? d).ticks = 0 ∧ (t.port? d).run = 0
  let addr := fun (d : Bool) (x : Nat) => b2n d * 2 ^ 30 + x
  (∀ (d : Bool) (s : State), s.Wf → s.lnkOn = true → s.pwr.vddaLost = false →
    let p := s.port? d
    (s.pst d = 0 → 10 ≤ p.ticks →
      (s.pget d F.LNK_U_CTRL_EN = 1 → Completes (.linkDownExpiry d) s fun t => moved t d 1 ∧ t.pget d F.LNK_U_STATUS_POL = 0 ∧
        t.pget d F.LNK_U_STATUS_REVERSED = 0 ∧
        t.pget d F.LNK_U_STATUS_RATE_ACT = (if p.slow then 0 else s.pget d F.LNK_U_CTRL_RATE) ∧
        (∀ k, k < (if d then 4 else 1) → t.pget d (F.LNK_U_FIRn_PRE k) = 0 ∧ t.pget d (F.LNK_U_FIRn_POST k) = 4 ∧
          t.pget d (F.LNK_U_FIRn_MAIN k) = 44) ∧ t.port? (!d) = s.port? (!d)) ∧
      (s.pget d F.LNK_U_CTRL_EN = 0 → exec (.linkDownExpiry d) s = .next s)) ∧
    (s.pst d = 1 → 10 ≤ p.ticks → Completes (.signalDetected d) s fun t => moved t d 2 ∧ t.port? (!d) = s.port? (!d))) ∧
  (∀ (d : Bool) (ls : List TsLane) (s : State), s.Wf → SparseWf faultDefault s.flt.recs → s.lnkOn = true →
    ls.length = (if d then 1 else 4) → d = true ∨ s.injArmed 3 = false →
    let p := s.port? d
    let keeps := fun (t : State) => t.pst d = s.pst d ∧ t.port? (!d) = s.port? (!d)
    (good ls → s.pst d = 2 → p.short = false →
      (p.run < 7 → exec (.ts1Received d ls) s = .next (s.setPort d { p with run := p.run + 1 })) ∧
      (7 ≤ p.run → Completes (.ts1Received d ls) s fun t => moved t d 3)) ∧
    (good ls → s.pst d = 3 →
      (polOf ls = s.pget d F.LNK_U_STATUS_POL → 7 ≤ p.run → Completes (.ts1Received d ls) s fun t =>
        moved t d 4 ∧ t.pget d F.LNK_U_STATUS_POL = polOf ls) ∧
      (polOf ls ≠ s.pget d F.LNK_U_STATUS_POL → polOf ls < 16 → Completes (.ts1Received d ls) s fun t =>
        keeps t ∧ t.pget d F.LNK_U_STATUS_POL = polOf ls ∧ (t.port? d).run = 0)) ∧
    (good ls → s.pst d = 4 →
      (∀ rev : Bool, (if d then some false else laneMap ls) = some rev → (∀ l ∈ ls, l.locked = true) →
        (p.farRun < 7 → Completes (.ts1Received d ls) s fun t => keeps t ∧ (t.port? d).locked = true ∧ (t.port? d).farRun = p.farRun + 1 ∧
          t.pget d F.LNK_U_STATUS_REVERSED = b2n rev) ∧
        (7 ≤ p.farRun → Completes (.ts1Received d ls) s fun t => moved t d 5 ∧ (t.port? d).locked = true ∧
          t.pget d F.LNK_U_STATUS_REVERSED = b2n rev)) ∧
      (d = false → laneMap ls = none → Completes (.ts1Received d ls) s fun t => t.pst d = 0 ∧
        t.frec Code.LNK_WIRING = (s.lnkRaise Code.LNK_WIRING d 0 4 (badLane ls)).frec Code.LNK_WIRING)) ∧
    (good ls → s.pst d = 5 → (s.pget d F.LNK_U_CTRL_EQ_FIXED = 1 ∨ ∀ l ∈ ls, l.eyeOk = true) → p.eq.length = ls.length →
      (∀ l ∈ ls, l.eqDone = true) →
      (7 ≤ p.farRun → Completes (.ts1Received d ls) s fun t => moved t d 6 ∧ (t.port? d).eqDone = true) ∧
      (p.farRun < 7 → Completes (.ts1Received d ls) s fun t => keeps t ∧ (t.port? d).farRun = p.farRun + 1 ∧ (t.port? d).eqDone = true)) ∧
    (good ls → s.pst d = 7 → s.lps d ≠ 2 →
      (7 ≤ p.farRun → Completes (.ts1Received d ls) s fun t => moved t d 0 ∧
        t.frec (if d then Code.LNK_D_DOWN else Code.LNK_U_DOWN) =
          (s.raiseI (if d then Code.LNK_D_DOWN else Code.LNK_U_DOWN)
            { faultInfo (if d then Code.LNK_D_DOWN else Code.LNK_U_DOWN) (addr d 6) with init := if d then 2 else 1 }).frec
            (if d then Code.LNK_D_DOWN else Code.LNK_U_DOWN)) ∧
      (p.farRun < 7 → Completes (.ts1Received d ls) s fun t => keeps t ∧ (t.port? d).farRun = p.farRun + 1)) ∧
    (s.pst d ∈ [2, 3, 4, 5] → p.short = false → (ls.countP fun l => l.codeError) ≠ 0 → Completes (.ts1Received d ls) s fun t =>
      keeps t ∧ (t.port? d).run = 0 ∧ t.pget d F.LNK_U_CNT1_CODE_ERR =
        min (s.pget d F.LNK_U_CNT1_CODE_ERR + ls.countP fun l => l.codeError) 65535) ∧
    (good ls → s.pst d = 6 → Completes (.ts1Received d ls) s fun t => keeps t ∧ (t.port? d).run = 0 ∧ (t.port? d).farRun = 0) ∧
    (∀ skew : Nat, good ls → s.pst d ∈ [2, 3, 4, 5] → Completes (.ts2Received d ls skew) s fun t =>
      keeps t ∧ (t.port? d).run = 0 ∧ (t.port? d).farRun = 0) ∧
    (∀ skew : Nat, good ls → (∀ l ∈ ls, l.ready = true) →
      (s.pst d = 6 → p.short = false →
        (skew ≤ 32 → 7 ≤ p.run → p.farRun < 7 → Completes (.ts2Received d ls skew) s fun t => keeps t ∧ (t.port? d).ready = true ∧
          (t.port? d).farRun = p.farRun + 1) ∧
        (skew ≤ 32 → 7 ≤ p.run ∨ p.ready = true → 7 ≤ p.farRun → Completes (.ts2Received d ls skew) s fun t =>
          t.pst d = 7 ∧ t.lps d = 0 ∧ t.pget d F.LNK_U_SEQ_RX_NEXT = 0 ∧ t.pget d F.LNK_U_SEQ_TX_NEXT = 0 ∧ (t.port? d).slow = false ∧
          (t.reg A.GLB_IRQ_STATUS).getLsbD 16 = true ∧ (if d then t.lnk.replay = [] else t.lnk.rx = [] ∧ t.lnk.ret = [])) ∧
        (32 < skew → Completes (.ts2Received d ls skew) s fun t => t.pst d = 0 ∧
          t.frec Code.LNK_WIRING = (s.lnkRaise Code.LNK_WIRING d 0 6 0).frec Code.LNK_WIRING)) ∧
      (s.pst d = 7 → s.lps d = 1 → p.exiting = true →
        (15 ≤ p.run → Completes (.ts2Received d ls skew) s fun t => t.pst d = 7 ∧ t.lps d = 0 ∧ (t.port? d).exiting = false) ∧
        (p.run < 15 → Completes (.ts2Received d ls skew) s fun t => t.pst d = 7 ∧ t.lps d = 1 ∧ (t.port? d).run = p.run + 1)))) ∧
  (∀ (d : Bool) (s : State) (n : Nat), s.Wf → SparseWf faultDefault s.flt.recs → s.lnkOn = true → (s.port? d).short = false →
    (s.pst d = 2 ∧ n = 1000) ∨ (s.pst d = 5 ∧ n = 2000) ∨ (s.pst d ∈ [3, 4, 6] ∧ n = 100) →
    (n ≤ (s.port? d).ticks → Completes (.trainingTimeout d) s fun t =>
      moved t d 0 ∧ t.frec Code.LNK_TRAIN = (s.lnkRaise Code.LNK_TRAIN d 0 (s.pst d) 0).frec Code.LNK_TRAIN ∧
      ((t.port? d).slow = true ↔ s.pst d = 2 ∧ (s.port? d).slow = false ∧ s.pget d F.LNK_U_CTRL_RATE ≠ 0)) ∧
    ((s.port? d).ticks < n → exec (.trainingTimeout d) s = .next s)) ∧
  ∀ (w0 w1 w2 w3 : Word) (s : State), s.Wf → s.lnkOn = true → s.pst true = 5 → s.get F.LNK_D_CTRL_EQ_FIXED = 0 →
    Completes (.trainPacket w0 w1 w2 w3) s fun t => RegsBut [A.LNK_D_FIRn 0, A.LNK_D_FIRn 1, A.LNK_D_FIRn 2, A.LNK_D_FIRn 3] s t ∧
      ∀ (k : Nat) (w : Word), [w0, w1, w2, w3][k]? = some w →
        s.get (F.LNK_D_FIRn_PRE k) ≤ 8 → s.get (F.LNK_D_FIRn_POST k) ≤ 16 →
        t.get (F.LNK_D_FIRn_MAIN k) + t.get (F.LNK_D_FIRn_PRE k) + t.get (F.LNK_D_FIRn_POST k) = 48 ∧
        (w.getLsbD 4 = true → t.get (F.LNK_D_FIRn_PRE k) = 0 ∧ t.get (F.LNK_D_FIRn_POST k) = 4) ∧
        (w.getLsbD 4 = false →
          (w.toNat % 4 = 1 → t.get (F.LNK_D_FIRn_PRE k) = min (s.get (F.LNK_D_FIRn_PRE k) + 1) 8) ∧
          (w.toNat % 4 = 2 → t.get (F.LNK_D_FIRn_PRE k) = s.get (F.LNK_D_FIRn_PRE k) - 1) ∧
          (w.toNat / 4 % 4 = 1 → t.get (F.LNK_D_FIRn_POST k) = min (s.get (F.LNK_D_FIRn_POST k) + 1) 16) ∧
          (w.toNat / 4 % 4 = 2 → t.get (F.LNK_D_FIRn_POST k) = s.get (F.LNK_D_FIRn_POST k) - 1) ∧
          (w.toNat % 4 = 0 → w.toNat / 4 % 4 = 0 → t.get (F.LNK_D_FIRn_PRE k) = s.get (F.LNK_D_FIRn_PRE k) ∧
            t.get (F.LNK_D_FIRn_POST k) = s.get (F.LNK_D_FIRn_POST k)))

/-- A port leaves ACTIVE with its cause and losses, enters and misses low power, retrains by command, and an injection
is armed once.  Rests on R329, R339, R340, R341, R342, R358, R361, R362, R363. -/
def Obligations.PortsLeaveActive : Prop :=
  let down := fun (s t : State) (d : Bool) (cause : Nat) =>
    let code := if d then Code.LNK_D_DOWN else Code.LNK_U_DOWN
    t.pst d = 0 ∧ t.lps d = 0 ∧ t.pget d F.LNK_U_CNT2_RETRAIN = min (s.pget d F.LNK_U_CNT2_RETRAIN + 1) 255 ∧
    t.pget d F.LNK_U_LAST_VALID = 1 ∧ t.pget d F.LNK_U_LAST_SEQ = (s.port? d).lastSeq % 4096 ∧
    (t.reg A.GLB_IRQ_STATUS).getLsbD 16 = true ∧
    (if d then t.lnk.replay = [] ∧ t.lnk.credit = 16 ∧ t.lnk.rx = s.lnk.rx ∧ t.lnk.ret = s.lnk.ret
      else t.lnk.rx = [] ∧ t.lnk.ret = [] ∧ t.lnk.replay = s.lnk.replay ∧
        t.get F.LNK_U_CNT2_RET_DROP = min (s.get F.LNK_U_CNT2_RET_DROP + s.lnk.ret.length) 255) ∧
    (cause = 0 → t.frec code = s.frec code) ∧
    (cause ≠ 0 → t.frec code = (s.lnkRaise code d 0 0 cause).frec code) ∧ t.pst (!d) = s.pst (!d)
  (∀ (d : Bool) (s : State), s.Wf → SparseWf faultDefault s.flt.recs → s.lnkOn = true → s.pst d = 7 →
    (s.lps d = 0 → 10 ≤ (s.port? d).ticks → Completes (.skpTimeout d) s fun t => down s t d 2) ∧
    (s.lps d = 0 → (s.port? d).ticks < 10 → exec (.skpTimeout d) s = .next s) ∧
    (s.lps d = 1 → (s.port? d).exiting = true → 1 ≤ (s.port? d).ticks → Completes (.lowPowerExitTimeout d) s fun t => down s t d 5) ∧
    (∀ n : BitVec 16,
      let lim := s.pget d F.LNK_U_ERR_ERR_LIMIT
      let all := (s.port? d).codeErrors + n.toNat
      (lim ≠ 0 → lim < all → Completes (.codeErrorLimit d n) s fun t => down s t d 1) ∧
      (lim = 0 ∨ all ≤ lim → Completes (.codeErrorLimit d n) s fun t => t.pst d = 7 ∧ t.lps d = s.lps d ∧
        t.port? d = { s.port? d with codeErrors := all, run := 0, farRun := 0 } ∧ t.flt = s.flt ∧
        t.pget d F.LNK_U_CNT1_CODE_ERR = min (s.pget d F.LNK_U_CNT1_CODE_ERR + n.toNat) 65535))) ∧
  (∀ (l2 : Bool) (s : State), s.Wf →
    let form := if l2 then 2 else 1
    (s.portUp false = true →
      let granted := s.get (if l2 then F.LNK_U_CTRL_L2_EN else F.LNK_U_CTRL_L1_EN) = 1 ∧ s.lnk.rx = [] ∧ s.lnk.ret = []
      (granted → Completes (.eiosReceived false l2) s fun t => t.pst false = 7 ∧ t.lps false = form ∧
        (t.reg A.GLB_IRQ_STATUS).getLsbD 16 = true ∧ t.get F.LNK_U_SEQ_RX_NEXT = s.get F.LNK_U_SEQ_RX_NEXT) ∧
      (¬ granted → exec (.eiosReceived false l2) s = .next s)) ∧
    (s.portUp true = true →
      (s.lnk.d.ask = form → Completes (.eiosReceived true l2) s fun t => t.pst true = 7 ∧ t.lps true = form ∧ t.lnk.d.ask = 0 ∧
        t.lnk.u = s.lnk.u) ∧
      (s.lnk.d.ask ≠ form → exec (.eiosReceived true l2) s = .next s))) ∧
  (∀ s : State, s.portUp true = true → s.get F.LNK_D_CTRL_L1_EN = 1 → s.lnk.replay = [] → 10 ≤ s.lnk.d.idleTicks →
    exec .l1IdleExpiry s = .next { s with lnk := { s.lnk with d := { s.lnk.d with ask := 1, idleTicks := 0 } } }) ∧
  (∀ (who : Initiator) (d : Bool) (v : Word) (s : State), s.Wf → SparseWf faultDefault s.flt.recs →
    s.writable (if d then A.LNK_D_CTRL else A.LNK_U_CTRL) →
    let a := if d then A.LNK_D_CTRL else A.LNK_U_CTRL
    (v.getLsbD 8 = true ∨ v.getLsbD 0 = false → s.pst d = 7 → Completes (.retrain who d v) s fun t => down s t d 0 ∧
      t.pget d F.LNK_U_CTRL_EN = v.toNat % 2) ∧
    (v.getLsbD 8 = false → v.getLsbD 0 = true → Completes (.retrain who d v) s fun t => RegsBut [a] s t ∧ t.lnk = s.lnk ∧
      t.pget d F.LNK_U_CTRL_EN = 1 ∧ t.pget d F.LNK_U_CTRL_RATE = v.toNat / 2 % 4 ∧
      t.pget d F.LNK_U_CTRL_L1_EN = v.toNat / 16 % 2 ∧ t.pget d F.LNK_U_CTRL_L2_EN = v.toNat / 32 % 2)) ∧
  (∀ s : State, s.Wf → SparseWf faultDefault s.flt.recs → s.portUp false = true → s.get F.LNK_HOST_TO_TIMEOUT ≠ 0 →
    (100 * s.get F.LNK_HOST_TO_TIMEOUT ≤ s.lnk.hostTicks → s.lnk.hostReported = false → Completes .hostTimeout s fun t =>
      (t.reg A.GLB_IRQ_STATUS).getLsbD 23 = true ∧ t.lnk.hostReported = true ∧ t.pst false = 7 ∧
      t.frec Code.LNK_HOST_TIMEOUT = (s.lnkRaise Code.LNK_HOST_TIMEOUT false 0 0 0).frec Code.LNK_HOST_TIMEOUT) ∧
    (s.lnk.hostTicks < 100 * s.get F.LNK_HOST_TO_TIMEOUT ∨ s.lnk.hostReported = true → exec .hostTimeout s = .next s)) ∧
  ∀ (who : Initiator) (v : Word) (s : State), s.Wf → s.writable A.LNK_INJECT → SparseWf faultDefault s.flt.recs → v.getLsbD 31 = false →
    let kind := v.toNat % 8
    (kind = 0 → s.get F.LNK_INJECT_PENDING = 0 → exec (.lnkInject who v) s = .next s.accepted) ∧
    (1 ≤ kind → kind ≤ 5 → s.mayInject = true → s.get F.LNK_INJECT_PENDING = 0 → Completes (.lnkInject who v) s fun t =>
      t.get F.LNK_INJECT_PENDING = 1 ∧ t.lnk.injKind = kind ∧ t.lnk.injLane = v.toNat / 16 % 4 ∧ RegsBut [A.LNK_INJECT] s t ∧
      t.flt = (s.raiseI Code.COL_INJECT { init := initNo who, access := writeKind who, addr := 0 }).flt) ∧
    (s.get F.LNK_INJECT_PENDING = 1 ∨ 6 ≤ kind ∨ (1 ≤ kind ∧ s.mayInject = false) → Completes (.lnkInject who v) s fun t =>
      t.get F.LNK_INJECT_REFUSED = 1 ∧ t.lnk = s.lnk ∧ t.flt = s.flt ∧ t.get F.LNK_INJECT_PENDING = s.get F.LNK_INJECT_PENDING ∧
      RegsBut [A.LNK_INJECT] s t)

/-- A forward packet is answered by its frame, its sequence number, its type and LEN, and one for this module has its
effect and its ACK.  Rests on R73, R74, R119, R142, R343, R344, R345, R346, R347, R348, R349, R350. -/
def Obligations.ForwardPackets : Prop :=
  let expected := fun s : State => s.get F.LNK_U_SEQ_RX_NEXT
  let moved := fun (s t : State) => expected t = (expected s + 1) % 4096 ∧ t.lnk.rx = [] ∧ t.portUp false = true
  let acked := fun (s t : State) (st idx : Nat) => moved s t ∧
    t.lnk.lastAck = some { nak := false, replay := false, seq := expected s, status := st, index := idx, free := 16 }
  let outside := fun (s t : State) => (∀ b, b / 4096 ≠ 13 → t.reg b = s.reg b ∧ t.shReg b = s.shReg b) ∧ SameMemory s t
  let refused := fun (s t : State) (r : Nat) => (∀ b, b / 4096 ≠ 13 → b ∉ [A.GLB_ACC_ERR, A.GLB_ACC_ADDR] →
    t.reg b = s.reg b ∧ t.shReg b = s.shReg b) ∧ SameMemory s t ∧
    t.get F.GLB_ACC_ERR_VALID = 1 ∧ t.get F.GLB_ACC_ERR_RESULT = r ∧ t.get F.GLB_ACC_ERR_INIT = 1
  let calm := fun s : State => { s.lnk with u := { s.lnk.u with run := 0, farRun := 0 } }
  (∀ (ty : BitVec 4) (h : PktHead) (pl : List Word), pl.length ≤ 1026 →
    let ws := frameWords ty.toNat h pl false
    frameGood { words := ws } = true ∧ headType ws = ty.toNat ∧ headOf ws = h ∧ headLen ws = pl.length ∧ framePayload ws = pl ∧
    frameGood { words := frameWords ty.toNat h pl true } = false) ∧
  ∀ s : State, s.Wf → SparseWf faultDefault s.flt.recs → s.portUp false = true → s.get F.LNK_INJECT_PENDING = 0 → s.lnk.naks < 15 →
    (∀ f : RxFrame, frameGood f = false → f.words = [] ∨ headType f.words ≠ 0 → s.lnk.rx = [] →
      Completes (.packetFrameFail f) s fun t =>
      expected t = expected s ∧ t.lnk.rx = [] ∧ t.lnk.naks = s.lnk.naks + 1 ∧
      t.get F.LNK_U_CNT0_CRC = min (s.get F.LNK_U_CNT0_CRC + 1) 65535 ∧
      t.get F.LNK_U_CNT0_REPLAY = min (s.get F.LNK_U_CNT0_REPLAY + 1) 65535 ∧
      t.lnk.lastAck = some { nak := true, replay := true, seq := expected s, status := 1, index := 0, free := 16 } ∧
      t.flt = (s.lnkRaise Code.LNK_CRC false (expected s) 1 0).flt ∧ outside s t) ∧
    (∀ f : RxFrame,
      (frameGood f = true → exec (.packetFrameFail f) s = .next s) ∧
      (frameGood f = false → f.words ≠ [] → headType f.words = 0 → Completes (.packetFrameFail f) s fun t =>
        t.get F.LNK_U_CNT0_CRC = min (s.get F.LNK_U_CNT0_CRC + 1) 65535 ∧ RegsBut [A.LNK_U_CNT0] s t ∧ t.lnk = calm s ∧
        t.flt = s.flt)) ∧
    (∀ (h : PktHead) (q : RxPacket) (l : List RxPacket), s.lnk.rx = q :: l → l.length = 15 → q.done.isSome = true → h.rv = false →
      Completes (.receiveBufferFull h) s fun t => t.lnk.rx = s.lnk.rx ∧ expected t = expected s ∧
        t.get F.LNK_U_CNT0_REPLAY = min (s.get F.LNK_U_CNT0_REPLAY + 1) 65535 ∧
        t.lnk.lastAck = some { nak := true, replay := true, seq := expected s, status := 5, index := 0, free := 0 }) ∧
    (∀ (h : PktHead) (w : Word) (ws : List Word), Completes (.idlePacket false h (w :: ws)) s fun t =>
      t.get F.LNK_U_CNT1_REFUSED = min (s.get F.LNK_U_CNT1_REFUSED + 1) 65535 ∧ RegsBut [A.LNK_U_CNT1] s t ∧ t.lnk = calm s) ∧
    ∀ (h : PktHead) (pl : List Word), s.lnk.rx = [] → h.rv = false → pl.length ≤ 1026 →
      let ahead := (h.seq.toNat + 4096 - expected s) % 4096
      let own := h.bc = false ∧ h.tg = false ∧ h.dest = 0 ∧ s.get F.CVN_STATUS_POS_VALID = 0 ∧ ahead = 0
      let packets := [(Instr.tileWrite h pl .good, 1), (Instr.memWrite h pl, 2), (Instr.regWrite h pl, 3), (Instr.regRead h pl, 4),
        (Instr.commitPacket h pl, 6), (Instr.objectList h pl, 7)]
      (∀ (c : Instr) (ty : Nat), (c, ty) ∈ packets →
        (2048 ≤ ahead → Completes c s fun t => expected t = expected s ∧ t.regs = s.regs ∧ t.shadow = s.shadow ∧ SameMemory s t ∧ t.lnk.rx = [] ∧
          t.lnk.lastAck = some { nak := false, replay := false, seq := (expected s + 4095) % 4096, status := 0, index := 0, free := 16 }) ∧
        (1 ≤ ahead → ahead < 2048 →
          (s.lnk.nakSent = false → Completes c s fun t => expected t = expected s ∧ outside s t ∧ t.lnk.nakSent = true ∧
            t.get F.LNK_U_CNT0_REPLAY = min (s.get F.LNK_U_CNT0_REPLAY + 1) 65535 ∧
            t.lnk.lastAck = some { nak := true, replay := true, seq := expected s, status := 2, index := 0, free := 16 }) ∧
          (s.lnk.nakSent = true → Completes c s fun t => t.regs = s.regs ∧ t.lnk.lastAck = s.lnk.lastAck ∧ t.lnk.rx = [] ∧ SameMemory s t)) ∧
        (ahead = 0 → lenAccepted ty pl = false → Completes c s fun t => moved s t ∧ refused s t 10 ∧
          t.get F.LNK_U_CNT1_REFUSED = min (s.get F.LNK_U_CNT1_REFUSED + 1) 65535 ∧ t.get F.LNK_U_REFUSE_TYPE = ty ∧
          t.get F.LNK_U_REFUSE_STATUS = 10 ∧ t.get F.LNK_U_REFUSE_SEQ = expected s ∧
          t.flt = (s.lnkRaise Code.LNK_REFUSED false (expected s) 10 0).flt ∧
          t.lnk.lastAck = some { nak := true, replay := false, seq := expected s, status := 10, index := 0, free := 16 })) ∧
      (∀ ty : BitVec 4, ty.toNat = 5 ∨ 8 ≤ ty.toNat → ahead = 0 → Completes (.packetTypeNotUsed ty h pl) s fun t => moved s t ∧ refused s t 11 ∧
        t.get F.LNK_U_REFUSE_TYPE = ty.toNat ∧ t.get F.LNK_U_REFUSE_STATUS = 11 ∧
        t.lnk.lastAck = some { nak := true, replay := false, seq := expected s, status := 11, index := 0, free := 16 }) ∧
      (own →
        (∀ (k : Nat) (crc : Word) (ws : List Word), pl = BitVec.ofNat 32 k :: crc :: ws → ws.length = 1024 → k < 12288 →
          crc32 (ws.flatMap leBytes) = crc → s.post = false → s.power ≠ 1 → s.tileOn k = true → s.frozen = false →
          s.tileLocked k = false → s.lmc.sealing = none → Completes (.tileWrite h pl .good) s fun t => acked s t 0 0 ∧
            (∀ i, i < 4096 → t.lmByte (0x01000000 + 4096 * k + i) = (ws.flatMap leBytes).getD i 0) ∧
            (∀ a, a < 0x01000000 + 4096 * k ∨ 0x01000000 + 4096 * k + 4096 ≤ a → t.lmByte a = s.lmByte a) ∧
            (SparseWf dirDefault s.lmc.dir → t.dirEntry k = { st := .sealed, crc := crc } ∧ ∀ j, j ≠ k → t.dirEntry j = s.dirEntry j) ∧
            (s.dirLatent k = .good → t.flt = s.flt)) ∧
        (∀ (a n : Nat) (w1 : Word) (ws : List Word), pl = BitVec.ofNat 32 a :: w1 :: ws → a < 2 ^ 32 → w1.toNat % 8192 = n →
          lenAccepted 2 pl = true → 0x01000000 ≤ a → a + n ≤ 0x04000000 → s.post = false → s.power ≠ 1 →
          s.memWrGate a n = (0, 0) → s.lmc.sealing = none → Completes (.memWrite h pl) s fun t => acked s t 0 0 ∧
            (∀ i, i < n → t.lmByte (a + i) = (ws.flatMap leBytes).getD i 0) ∧
            (∀ b, b < a ∨ a + n ≤ b → t.lmByte b = s.lmByte b) ∧ (∀ b, t.nvByte b = s.nvByte b) ∧ (s.lmc.dirHit = [] → t.flt = s.flt)) ∧
        (∀ (a : Nat) (vs : List Word), pl = BitVec.ofNat 32 a :: vs → vs ≠ [] → vs.length ≤ 64 → a % 4 = 0 → a + 4 * vs.length ≤ 0x15000 →
          ((∀ k, k < vs.length → s.writable (a + 4 * k) ∧ plainWrite (a + 4 * k) = true ∧ (a + 4 * k) / 4096 ≠ 13) →
            Completes (.regWrite h pl) s fun t => acked s t 0 0 ∧ SameMemory s t ∧
              (∀ k, k < vs.length → t.reg (a + 4 * k) = (s.regWrite (a + 4 * k) (vs.getD k 0)).reg (a + 4 * k) ∧
                t.shReg (a + 4 * k) = (s.regWrite (a + 4 * k) (vs.getD k 0)).shReg (a + 4 * k)) ∧
              (∀ b, b / 4096 ≠ 13 → (∀ k, k < vs.length → b ≠ a + 4 * k) → t.reg b = s.reg b ∧ t.shReg b = s.shReg b)) ∧
          (vs.length = 1 → s.aonOn = true → s.portDecide a true ≠ 0 → Completes (.regWrite h pl) s fun t =>
            acked s t (s.portDecide a true) 0 ∧ (a / 4096 ≠ 0 → a / 4096 ≠ 13 → t.reg a = s.reg a))) ∧
        (∀ (a n : Nat) (tag : Nat), pl = [BitVec.ofNat 32 a, BitVec.ofNat 32 (tag * 65536 + n)] → tag < 65536 → 1 ≤ n → n ≤ 64 → a % 4 = 0 →
          s.retFits (n + 1) = true →
          let response := fun (t : State) (ws : List Word) => t.lnk.ret = s.lnk.ret ++
            [{ type := 5, id := 0, seq := s.get F.LNK_U_SEQ_TX_NEXT, payload := BitVec.ofNat 32 (tag * 65536) :: ws }] ∧
            t.get F.LNK_U_SEQ_TX_NEXT = (s.get F.LNK_U_SEQ_TX_NEXT + 1) % 4096
          (a + 4 * n ≤ 0x15000 → (∀ k, k < n → s.readable (a + 4 * k) ∧ plainRead (a + 4 * k) = true) →
            Completes (.regRead h pl) s fun t => acked s t 0 0 ∧
              response t ((List.range n).map fun k => s.regView (a + 4 * k))) ∧
          (0x08000000 ≤ a → a + 4 * n ≤ 0x08400000 → Completes (.regRead h pl) s fun t => acked s t 0 0 ∧
              response t ((List.range n).map fun k => s.nvWord (a + 4 * k)) ∧ outside s t)) ∧
        (∀ v : Word, pl = [v] → s.writable A.GLB_COMMIT →
          (v.getLsbD 8 = false → s.get F.GLB_COMMIT_STATUS_STATE = 1 → Completes (.commitPacket h pl) s fun t => acked s t 0 0 ∧
            t.get F.GLB_COMMIT_STATUS_STATE = 0 ∧ t.get F.GLB_COMMIT_STATUS_LAST = 3) ∧
          (v.getLsbD 8 = true → s.post = false → s.get F.GLB_COMMIT_CTRL_MAX_DELTA = 0 → Completes (.commitPacket h pl) s fun t =>
            acked s t 0 0 ∧ t.get F.GLB_COMMIT_STATUS_STATE = 1 ∧ t.get F.GLB_COMMIT_CTRL_LAST_ALIVE = v.toNat % 256 ∧
            t.cmp.armRdy = BitVec.ofNat 12 (v.toNat / 65536))) ∧
        (pl ≠ [] → pl.length ≤ 257 → s.writable A.MSK_SUBMIT → s.post = false → Completes (.objectList h pl) s fun t => acked s t 0 0 ∧
          t.msk = (s.listSubmit pl { init := 1, access := 5 }).msk))

/-- Packets go on through D under credit and stay until acknowledged, the return lane is kept until RACK, and resends
have their limits.  Rests on R339, R345, R350, R352, R353, R354, R356, R357, R362, R487. -/
def Obligations.ForwardingAndReturns : Prop :=
  let sent := fun (l k : List TxPacket) => l = k.map fun p => { p with crcBad := false }
  let covers := fun (a b : Nat) => (a % 4096 + 4096 - b % 4096) % 4096 < 2048
  (∀ (p : RxPacket) (e : LocalEnd) (s : State), s.Wf → SparseWf faultDefault s.flt.recs → s.portUp false = true → s.lnk.rx = [p] → p.done = some e →
    s.get F.LNK_INJECT_PENDING = 0 →
    let q := s.get F.LNK_D_SEQ_TX_NEXT
    let E := s.get F.LNK_U_SEQ_RX_NEXT
    (s.dActive = true → s.lps true = 0 → s.dCredit = true → s.replayFits p.payload.length = true → Completes .packetForward s fun t =>
      t.lnk.replay = s.lnk.replay ++ [{ type := p.type, bc := p.head.bc, tg := p.head.tg, id := p.head.dest.toNat, seq := q, payload := p.payload }] ∧
      t.get F.LNK_D_SEQ_TX_NEXT = (q + 1) % 4096 ∧ t.lnk.rx = [] ∧ t.get F.LNK_U_SEQ_RX_NEXT = (E + 1) % 4096 ∧
      t.lnk.lastAck = some { nak := e.nak, replay := false, seq := p.head.seq.toNat, status := e.status, index := e.index, free := 16 }) ∧
    (s.dActive = true → s.lps true = 0 → s.dCredit = false ∨ s.replayFits p.payload.length = false → exec .packetForward s = .next s) ∧
    (s.dActive = false → p.head.bc = false → p.head.tg = false → Completes .packetForward s fun t =>
      t.lnk.replay = s.lnk.replay ∧ t.lnk.rx = [] ∧ t.get F.LNK_U_SEQ_RX_NEXT = (E + 1) % 4096 ∧
      t.lnk.lastAck = some { nak := true, replay := false, seq := p.head.seq.toNat, status := 14, index := 0, free := 16 } ∧
      t.get F.GLB_ACC_ERR_VALID = 1 ∧ t.get F.GLB_ACC_ERR_RESULT = 14 ∧ t.get F.GLB_ACC_ERR_INIT = 1 ∧
      t.flt = (s.lnkRaise Code.LNK_REFUSED false p.head.seq.toNat 14 0).flt)) ∧
  (∀ (seq : BitVec 12) (st : Byte) (free : BitVec 5) (s : State), s.Wf → s.portUp true = true → s.get F.LNK_INJECT_PENDING = 0 →
    (Completes (.ackNak seq false false st free false) s fun t =>
      t.lnk.replay = s.lnk.replay.filter (fun p => !decide (covers seq.toNat p.seq)) ∧
      (covers seq.toNat s.lnk.ackA → t.lnk.ackA = seq.toNat ∧ t.lnk.credit = free.toNat) ∧
      (¬ covers seq.toNat s.lnk.ackA → t.lnk.ackA = s.lnk.ackA ∧ t.lnk.credit = s.lnk.credit) ∧ t.regs = s.regs ∧ t.lnk.u = s.lnk.u) ∧
    (s.lnk.replay ≠ [] → (∀ p ∈ s.lnk.replay, ¬ covers ((seq.toNat + 4095) % 4096) p.seq) → s.lnk.repResends < 3 →
      Completes (.ackNak seq true true st free false) s fun t => sent t.lnk.replay s.lnk.replay ∧ t.lnk.repResends = s.lnk.repResends + 1 ∧
        t.lnk.repTicks = 0 ∧ t.pst true = 7 ∧
        t.get F.LNK_D_CNT0_REPLAY = min (s.get F.LNK_D_CNT0_REPLAY + s.lnk.replay.length) 65535)) ∧
  (∀ s : State, s.Wf → SparseWf faultDefault s.flt.recs → s.portUp true = true → s.lnk.replay ≠ [] →
    max (s.get F.LNK_D_ERR_REPLAY_TO) 1 ≤ s.lnk.repTicks → s.get F.LNK_INJECT_PENDING = 0 →
    (s.lnk.repResends < 3 → Completes (.dReplayTimeout false) s fun t => sent t.lnk.replay s.lnk.replay ∧ t.lnk.repTicks = 0 ∧
      t.lnk.repResends = s.lnk.repResends + 1 ∧ t.pst true = 7) ∧
    (s.lnk.repResends = 3 → Completes (.dReplayTimeout false) s fun t => t.lnk.replay = [] ∧ t.pst true = 0 ∧
      t.frec Code.LNK_D_DOWN = (s.lnkRaise Code.LNK_D_DOWN true 0 0 3).frec Code.LNK_D_DOWN) ∧
    (∀ p l, s.lnk.replay = p :: l → Completes (.dReplayTimeout true) s fun t => t.lnk.replay = [] ∧ t.pst true = 0 ∧
      t.frec Code.LNK_D_DOWN = (s.lnkRaise Code.LNK_D_DOWN true 0 0 7).frec Code.LNK_D_DOWN ∧
      t.frec Code.LNK_BUF_PARITY = (s.lnkRaise Code.LNK_BUF_PARITY true p.seq 0 7).frec Code.LNK_BUF_PARITY)) ∧
  (∀ (ty : BitVec 4) (h : PktHead) (pl : List Word) (a b w0 w1 : Word) (xs ws : List Word) (eop upset : Bool) (s : State), s.Wf → s.portUp true = true →
    s.get F.LNK_INJECT_PENDING = 0 →
    let E := s.get F.LNK_D_SEQ_RX_NEXT
    let d := (h.seq.toNat + 4096 - E) % 4096
    let q := s.get F.LNK_U_SEQ_TX_NEXT
    (frameGood { words := a :: b :: xs, eop := eop, upset := upset } = false →
      Completes (.returnPacketReceived a b xs eop upset) s fun t =>
      t.lnk.askAgain = true ∧ t.lnk.ret = s.lnk.ret ∧
      t.get F.LNK_D_CNT0_CRC = min (s.get F.LNK_D_CNT0_CRC + 1) 65535 ∧ RegsBut [A.LNK_D_CNT0] s t) ∧
    (frameWords ty.toNat h pl false = w0 :: w1 :: ws →
      (ty = 5 ∧ 2 ≤ pl.length ∧ pl.length ≤ 65) ∨ (ty = 8 ∧ (pl.length = 3 ∨ pl.length = 5)) →
      (d = 0 → s.pst false = 7 → s.retFits pl.length = true → Completes (.returnPacketReceived w0 w1 ws true false) s fun t =>
        t.lnk.ret = s.lnk.ret ++ [{ type := ty.toNat, id := h.dest.toNat, seq := q, payload := pl }] ∧ t.lnk.askAgain = false ∧
        t.get F.LNK_U_SEQ_TX_NEXT = (q + 1) % 4096 ∧ t.get F.LNK_D_SEQ_RX_NEXT = (E + 1) % 4096) ∧
      (1 ≤ d → d < 2048 → Completes (.returnPacketReceived w0 w1 ws true false) s fun t =>
        t.lnk.askAgain = true ∧ t.lnk.ret = s.lnk.ret ∧ t.regs = s.regs ∧ t.flt = s.flt) ∧
      (2048 ≤ d → Completes (.returnPacketReceived w0 w1 ws true false) s fun t =>
        t.lnk.askAgain = s.lnk.askAgain ∧ t.lnk.ret = s.lnk.ret ∧ t.regs = s.regs ∧ t.flt = s.flt))) ∧
  (∀ s : State, s.Wf → SparseWf faultDefault s.flt.recs → s.portUp false = true → s.lnk.ret ≠ [] → s.lnk.rx = [] → s.get F.LNK_INJECT_PENDING = 0 →
    (max (s.get F.LNK_U_ERR_RET_TO) 1 ≤ s.lnk.retTicks →
      (s.lnk.retResends < 3 → Completes .returnResendTimeout s fun t => sent t.lnk.ret s.lnk.ret ∧ t.lnk.retTicks = 0 ∧
        t.lnk.retResends = s.lnk.retResends + 1 ∧ t.get F.LNK_U_CNT2_RET_REPLAY = min (s.get F.LNK_U_CNT2_RET_REPLAY + 1) 65535) ∧
      (s.lnk.retResends = 3 → Completes .returnResendTimeout s fun t => t.lnk.ret = [] ∧ t.pst false = 7 ∧
        t.get F.LNK_U_CNT2_RET_DROP = min (s.get F.LNK_U_CNT2_RET_DROP + s.lnk.ret.length) 255 ∧
        (∀ p l, s.lnk.ret = p :: l → t.flt = (s.lnkRaise Code.LNK_RETURN false p.seq 0 0).flt))) ∧
    (∀ h : PktHead, s.injArmed 3 = false → h.rv = true → h.rnak = false → Completes (.idlePacket false h []) s fun t =>
      t.lnk.ret = s.lnk.ret.filter (fun p => !decide (covers h.rack.toNat p.seq)) ∧ t.regs = s.regs)) ∧
  (∀ (h : PktHead) (s : State), s.portUp true = true → Completes (.idlePacket true h []) s fun t =>
    t.regs = s.regs ∧ t.flt = s.flt ∧ t.lnk.replay = s.lnk.replay ∧ t.lnk.u = s.lnk.u) ∧
  ∀ s : State, s.Wf → s.lnkOn = true → s.get F.LNK_MSG_IRQ = 1 → s.lnk.irqEvent = true → s.lnk.irqSent = false → s.get F.LNK_INJECT_PENDING = 0 →
    (s.pst false = 7 → s.retFits 5 = true → s.get F.CVN_STATUS_POS_VALID = 0 → Completes .irqMessage s fun t =>
      t.lnk.irqEvent = false ∧ t.lnk.irqSent = true ∧ t.lnk.ret = s.lnk.ret ++
        [{ type := 8, id := 0, seq := s.get F.LNK_U_SEQ_TX_NEXT,
           payload := 1 :: (s.reg A.GLB_IRQ_STATUS &&& s.reg A.GLB_IRQ_ENABLE) :: s.stamp }]) ∧
    (s.pst false ≠ 7 → Completes .irqMessage s fun t => t.lnk.ret = s.lnk.ret ∧ t.lnk.irqEvent = false ∧
      t.get F.LNK_U_CNT2_RET_DROP = min (s.get F.LNK_U_CNT2_RET_DROP + 1) 255)

/-- A slave takes an epoch that agrees, starts armed at the master's next frame, and resynchronises where it disagrees.
Rests on R366, R368, R373, R374, R375, R376, R377, R384, R395. -/
def Obligations.EpochsDriveTheSlave : Prop :=
  (∀ (h : EpochFrame) (crcOk : Bool) (n cyc : Nat) (s : State), s.Wf → SparseWf faultDefault s.flt.recs → s.cvnSlave = true →
    let counted := s.cvnCode n h.epoch
    let seen := { counted.put F.CVN_EPOCH_EPOCH h.epoch with cvn := { s.cvn with shLen := h.shLen, codeSeen := false } }
    let u := seen.runTo (min cyc (16 * s.nSlots - 1))
    let start := nextStart h (s.get F.CVN_STATUS_POS * (3 * s.get F.CVN_CFG_BIT / 2 + s.get F.CVN_CFG_HOP_W) + 168 * s.get F.CVN_CFG_BIT + 16)
    let good := crcOk = true ∧ epochValid h = true
    let shown := fun t : State => t.get F.CVN_EPOCH_EPOCH = h.epoch % 65536 ∧ t.cvn.shLen = h.shLen
    let resynced := fun t : State => t.get F.RAS_STATUS_RUN = 3 ∧ t.get F.CVN_CNT_RESYNC = min (s.get F.CVN_CNT_RESYNC + 1) 255 ∧
      t.frec Code.CVN_RESYNC = (s.raise Code.CVN_RESYNC h.epoch).frec Code.CVN_RESYNC ∧ t.cvn.load = some start ∧
      (t.reg A.GLB_IRQ_STATUS).getLsbD 17 = true ∧ t.get F.RAS_STATUS_FLYWHEEL = 0 ∧ t.ras.frame = s.ras.frame ∧ t.ras.line = s.ras.line
    (¬ good → Completes (.epochFrameReceived h crcOk n cyc) s fun t =>
      t.get F.CVN_CNT_CODE_ERR = min (s.get F.CVN_CNT_CODE_ERR + (n + 1)) 65535 ∧ RegsBut [A.CVN_CNT] s t ∧ t.ras = s.ras ∧
      t.frec Code.CVN_CODE = (s.raise Code.CVN_CODE h.epoch).frec Code.CVN_CODE ∧ t.cvn = { s.cvn with shLen := 0, codeSeen := true }) ∧
    (good → n ≠ 0 → Completes (.epochFrameReceived h crcOk n cyc) s fun t =>
      t.get F.CVN_CNT_CODE_ERR = min (s.get F.CVN_CNT_CODE_ERR + n) 65535 ∧ RegsBut [A.CVN_CNT] s t ∧ t.ras = s.ras ∧
      t.frec Code.CVN_CODE = (s.raise Code.CVN_CODE h.epoch).frec Code.CVN_CODE ∧ t.cvn = { s.cvn with shLen := 0, codeSeen := true }) ∧
    (good → n = 0 →
      (s.slaveArmed = true → Completes (.epochFrameReceived h crcOk n cyc) s fun t => shown t ∧ t.cvn.load = some start ∧
        t.reg A.RAS_RETIME_FRAME = start.frame ∧ t.ras = s.ras) ∧
      (s.slaveArmed = false → s.lineOn = false ∨ s.slaveRaster = false ∨ s.get F.CVN_STATUS_POS_VALID = 0 →
        exec (.epochFrameReceived h crcOk n cyc) s = .next seen) ∧
      (s.slaveArmed = false → s.lineOn = true → s.slaveRaster = true → s.get F.CVN_STATUS_POS_VALID = 1 →
        (u.epochAgrees h = true → u.epochOnTime h = true → Completes (.epochFrameReceived h crcOk n cyc) s fun t => shown t ∧
          t.get F.CVN_STATUS_LATE = 0 ∧ t.get F.RAS_STATUS_FLYWHEEL = 0 ∧ t.curVb = h.curVb % 1024 ∧ t.cvn.gotEpoch = true ∧ t.cvn.flyRun = 0 ∧
          t.ras = u.ras ∧ ((h.nxNSlots, h.nxVb, h.nxK) = (s.nSlots, s.get F.RAS_ACT_TIMING_VB, s.get F.RAS_ACT_PWM_K) →
            t.cvn.nx = none ∧ t.rasRun = s.rasRun) ∧
          ((h.nxNSlots, h.nxVb, h.nxK) ≠ (s.nSlots, s.get F.RAS_ACT_TIMING_VB, s.get F.RAS_ACT_PWM_K) →
            t.cvn.nx = some (h.nxNSlots, h.nxVb, h.nxK) ∧ t.rasRun = 3)) ∧
        (u.epochAgrees h = true → u.epochOnTime h = false → u.epochSame h = true → Completes (.epochFrameReceived h crcOk n cyc) s fun t =>
          shown t ∧ t.get F.CVN_STATUS_LATE = 1 ∧ t.ras = u.ras ∧ t.rasRun = s.rasRun ∧ t.curVb = s.curVb ∧ t.cvn.load = s.cvn.load) ∧
        (u.epochAgrees h = false ∨ (u.epochOnTime h = false ∧ u.epochSame h = false) →
          Completes (.epochFrameReceived h crcOk n cyc) s fun t => shown t ∧ resynced t ∧
          (u.epochOnTime h = true → t.cvn.flyRun = 0 ∧ t.cvn.gotEpoch = true) ∧
          (u.epochOnTime h = false → t.get F.CVN_STATUS_LATE = 1 ∧ t.cvn.flyRun = s.cvn.flyRun ∧ t.cvn.gotEpoch = s.cvn.gotEpoch ∧
            t.frec Code.CVN_EPOCH_LATE = (s.raise Code.CVN_EPOCH_LATE h.epoch).frec Code.CVN_EPOCH_LATE))))) ∧
  ∀ (s : State) (l : EpochLoad), s.Wf → s.coreRun = true → s.slaveRaster = true → s.cvn.load = some l → Completes .slaveResyncLoad s fun t =>
    t.ras.frame = l.frame ∧ t.ras.line = 0 ∧ t.ras.slot = 0 ∧ t.ras.running = true ∧ t.ras.pwmC = l.c ∧ t.nSlots = l.nSlots % 4096 ∧
    t.get F.RAS_ACT_TIMING_VB = l.vb % 1024 ∧ t.get F.RAS_ACT_PWM_K = l.k % 512 ∧ t.rasRun = 1 ∧ t.cvn.load = none ∧
    t.get F.RAS_ACT_MODE_MODE = 2

/-- A slave frame without an on-time epoch runs on as a flywheel frame, and EP_TO of them in a row raise the loss once.
Rests on R377. -/
def Obligations.MissingEpochsFlyAndAreReported : Prop :=
  (∀ s : State, s.Wf → s.lineOn = true → s.slaveRaster = true → s.ras.blankServed = true →
    s.ras.line = 510 + s.get F.RAS_ACT_TIMING_VB →
    (s.cvn.gotEpoch = false → s.cvn.missServed = false → Completes .epochMissing s fun t =>
      t.get F.RAS_STATUS_FLYWHEEL = 1 ∧ t.curVb = s.get F.RAS_ACT_TIMING_VB ∧ t.frameLines = 512 + s.get F.RAS_ACT_TIMING_VB ∧
      t.reg A.RAS_ACT_TIMING = s.reg A.RAS_ACT_TIMING ∧ t.reg A.RAS_ACT_PWM = s.reg A.RAS_ACT_PWM ∧
      t.reg A.RAS_ACT_MODE = s.reg A.RAS_ACT_MODE ∧ t.cvn.flyRun = min (s.cvn.flyRun + 1) 256 ∧ t.cvn.missServed = true ∧
      t.ras = s.ras ∧ t.flt = s.flt ∧ RegsBut [A.RAS_STATUS] s t) ∧
    (s.cvn.gotEpoch = true ∨ s.cvn.missServed = true → exec .epochMissing s = .next s)) ∧
  (∀ (h : EpochFrame) (s : State), (s.epochTake h).cvn.flyRun = 0 ∧ (s.epochTake h).cvn.gotEpoch = true) ∧
  ∀ s : State, s.Wf → SparseWf faultDefault s.flt.recs → s.coreRun = true → s.slaveRaster = true →
    let n := s.get F.CVN_CFG_EP_TO
    (n ≠ 0 → n ≤ s.cvn.flyRun → s.cvn.lostReported = false → Completes .epochLost s fun t =>
      t = { s.raise Code.CVN_EPOCH_LOST 0 with cvn := { s.cvn with lostReported := true } }) ∧
    (n = 0 ∨ s.cvn.flyRun < n ∨ s.cvn.lostReported = true → exec .epochLost s = .next s)

/-- ENUM frames give positions, shares reach their registers, the share RAM is the master's, and the ring shows what
returns.  Rests on R366, R371, R372, R380, R381, R383, R384, R395, R396. -/
def Obligations.PositionsSharesAndRing : Prop :=
  (∀ (who : Initiator) (en : Bool) (s : State), s.Wf → s.writable A.CVN_CTRL →
    (s.get F.CVN_CFG_MASTER = 1 → en = true → Completes (.enumRequest who en) s fun t => t.get F.CVN_CTRL_EN = 1 ∧
      t.get F.CVN_STATUS_ENUM_BUSY = 1 ∧ t.get F.CVN_STATUS_POS = 0 ∧ t.get F.CVN_STATUS_POS_VALID = 1 ∧ t.cvn.enumOut = false ∧
      RegsBut [A.CVN_CTRL, A.CVN_STATUS] s t) ∧
    (s.get F.CVN_CFG_MASTER = 0 → Completes (.enumRequest who en) s fun t => t.get F.CVN_CTRL_EN = b2n en ∧
      RegsBut [A.CVN_CTRL] s t ∧ t.cvn = s.cvn)) ∧
  (∀ s : State, s.Wf → s.cvnMaster = true → s.get F.CVN_STATUS_ENUM_BUSY = 1 → s.cvn.enumOut = false → s.ras.running = false →
    Completes .enumFrameSend s fun t => t.get F.CVN_EPOCH_ENUM_ID = (s.get F.CVN_EPOCH_ENUM_ID + 1) % 256 ∧
      t.get F.CVN_STATUS_ENUM_BUSY = s.get F.CVN_CFG_RING ∧ t.cvn.enumOut = s.flag F.CVN_CFG_RING ∧
      t.cvn.sentEnums.head? = some ((s.get F.CVN_EPOCH_ENUM_ID + 1) % 256) ∧ RegsBut [A.CVN_EPOCH, A.CVN_STATUS] s t) ∧
  (∀ (id : Byte) (n fills : Nat) (token : Bool) (s : State), s.Wf → SparseWf faultDefault s.flt.recs → s.cvnSlave = true →
    (token = true → fills < 4095 → n ≠ 0 → Completes (.enumFrameReceived id true n fills token) s fun t => RegsBut [A.CVN_CNT] s t ∧
      t.cvn = s.cvn ∧ t.get F.CVN_CNT_CODE_ERR = min (s.get F.CVN_CNT_CODE_ERR + n) 65535) ∧
    (token = true → fills < 4095 → n = 0 → Completes (.enumFrameReceived id true n fills token) s fun t =>
      t.get F.CVN_EPOCH_ENUM_ID = id.toNat ∧ t.get F.CVN_STATUS_POS = 1 + fills ∧ t.get F.CVN_STATUS_POS_VALID = 1 ∧
      (s.get F.CVN_STATUS_POS_VALID = 0 ∨ s.get F.CVN_STATUS_POS ≠ 1 + fills → (t.reg A.GLB_IRQ_STATUS).getLsbD 17 = true) ∧
      (s.get F.CVN_STATUS_POS_VALID = 1 → s.get F.CVN_STATUS_POS = 1 + fills → t.reg A.GLB_IRQ_STATUS = s.reg A.GLB_IRQ_STATUS)) ∧
    (token = false ∨ 4095 ≤ fills → Completes (.enumFrameReceived id true n fills token) s fun t => t.get F.CVN_EPOCH_ENUM_ID = id.toNat ∧
      t.get F.CVN_STATUS_POS_VALID = 0 ∧ t.frec Code.CVN_ENUM = (s.raise Code.CVN_ENUM id.toNat).frec Code.CVN_ENUM) ∧
    (Completes (.enumFrameReceived id false n fills token) s fun t => RegsBut [A.CVN_CNT] s t ∧ t.cvn = s.cvn ∧
      t.get F.CVN_CNT_CODE_ERR = min (s.get F.CVN_CNT_CODE_ERR + (n + 1)) 65535)) ∧
  (∀ (bytes : List Byte) (s : State), s.Wf → s.cvnSlave = true → s.cvn.shLen = bytes.length → 1 ≤ bytes.length → bytes.length ≤ 16 →
    (s.get F.CVN_STATUS_POS_VALID = 0 ∨ s.ras.running = false →
      exec (.shareReceived bytes { crcOk := true }) s = .next { s with cvn := { s.cvn with shLen := 0 } }) ∧
    (s.get F.CVN_STATUS_POS_VALID = 1 → s.ras.running = true → Completes (.shareReceived bytes { crcOk := true }) s fun t => t.cvn.shLen = 0 ∧ (t.reg A.GLB_IRQ_STATUS).getLsbD 17 = true ∧
      (∀ i, i < bytes.length → (t.reg (A.CVN_RX_SHAREn (i / 4))).toNat / 256 ^ (i % 4) % 256 = (bytes.getD i 0).toNat) ∧
      t.cvn.dim = (if s.get F.CVN_SH_CFG_DIM_MAP = 1 ∧ 2 ≤ bytes.length then
        some ((bytes.getD 0 0).toNat + 256 * (bytes.getD 1 0).toNat) else s.cvn.dim)) ∧
    (Completes (.shareReceived bytes { crcOk := false }) s fun t => t.get F.CVN_CNT_SH_CRC = min (s.get F.CVN_CNT_SH_CRC + 1) 255 ∧
      RegsBut [A.CVN_CNT] s t ∧ t.cvn = { s.cvn with shLen := 0 }) ∧
    (∀ (ok : Bool) (n : Nat), n ≠ 0 → Completes (.shareReceived bytes { crcOk := ok, codeErrors := n }) s fun t =>
      t.get F.CVN_CNT_CODE_ERR = min (s.get F.CVN_CNT_CODE_ERR + n) 65535 ∧ RegsBut [A.CVN_CNT] s t ∧
      t.cvn = { s.cvn with shLen := 0, codeSeen := true } ∧ t.flt =
        (if s.cvn.codeSeen then s else s.raise Code.CVN_CODE (s.get F.CVN_EPOCH_EPOCH)).flt)) ∧
  (∀ (s : State) (d : Nat), s.Wf → s.coreRun = true → s.cvn.dim = some d → Completes .shareDimWrite s fun t =>
    t.cvn.dim = none ∧ t.regs = s.regs ∧ (t.shReg A.LUM_DIM).toNat % 65536 = d % 65536 ∧ ∀ a, a ≠ A.LUM_DIM → t.shReg a = s.shReg a) ∧
  (∀ (who : Initiator) (v : Word) (s : State), s.Wf → SparseWf shareDefault s.cvn.share →
    let i := s.get F.CVN_SH_ADDR_INDEX
    let next := fun t : State => t.get F.CVN_SH_ADDR_INDEX = (if s.get F.CVN_SH_ADDR_INC = 1 then (i + 1) % 16384 else i) ∧
      RegsBut [A.CVN_SH_ADDR] s t
    (s.writable A.CVN_SH_DATA → Completes (.cvnShDataAccess who (some v)) s fun t => next t ∧
      ∀ k, sparseGet shareDefault t.cvn.share k =
        if k = i ∧ s.get F.CVN_CFG_MASTER = 1 then v else sparseGet shareDefault s.cvn.share k) ∧
    (s.readable A.CVN_SH_DATA → Completes (.cvnShDataAccess who none) s fun t => next t ∧ t.cvn = s.cvn ∧
      t.port = { value := if s.get F.CVN_CFG_MASTER = 1 then sparseGet shareDefault s.cvn.share i else 0, result := 0 })) ∧
  (∀ (r : RingFrame) (s : State), s.Wf → SparseWf faultDefault s.flt.recs → s.cvnMaster = true → r.good = true →
    let mine := s.get F.CVN_CFG_RING = 1 ∧ (if r.enum then s.cvn.sentEnums.contains r.num else s.cvn.sentEpochs.contains r.num) = true
    (¬ mine → Completes (.masterFrameReceived r) s fun t => t.get F.CVN_STATUS_TWO_MASTERS = 1 ∧ t.cvn = s.cvn ∧ t.thm = s.thm ∧
      t.frec Code.CVN_TWO_MASTERS = (s.raise Code.CVN_TWO_MASTERS 0).frec Code.CVN_TWO_MASTERS ∧ t.reg A.CVN_RING = s.reg A.CVN_RING) ∧
    (mine → r.enum = true → Completes (.masterFrameReceived r) s fun t => t.get F.CVN_STATUS_RING_OK = 1 ∧ t.get F.CVN_RING_VALID = 1 ∧
      t.get F.CVN_RING_SLAVES = min r.fills 4095 ∧ t.cvn.marks = 0 ∧ t.cvn.enumOut = false ∧
      (s.cvn.enumOut = true → t.get F.CVN_STATUS_ENUM_BUSY = 0)) ∧
    (mine → r.enum = false → Completes (.masterFrameReceived r) s fun t => t.get F.CVN_STATUS_RING_OK = 1 ∧ t.get F.CVN_RING_VALID = 1 ∧
      t.cvn.marks = 0 ∧ (r.thr = 2#2 → t.get F.CVN_RING_THR = 1 ∧ t.thm.chainReq = true) ∧
      (r.thr = 1#2 → t.get F.CVN_RING_THR = 0 ∧ t.thm.chainReq = false) ∧ (r.alarm = 2#2 → t.get F.CVN_RING_ALARM = 1) ∧
      (r.alarm = 1#2 → t.get F.CVN_RING_ALARM = 0) ∧ (r.nopos = 2#2 → t.get F.CVN_RING_NOPOS = 1) ∧
      (r.thr = 0#2 ∨ r.thr = 3#2 → t.get F.CVN_RING_THR = s.get F.CVN_RING_THR))) ∧
  ∀ s : State, s.Wf → SparseWf faultDefault s.flt.recs → s.cvnMaster = true → s.get F.CVN_CFG_RING = 1 → 3 ≤ s.cvn.marks →
    Completes .ringReturnTimeout s fun t => t.get F.CVN_STATUS_RING_OK = 0 ∧ RegsBut [A.CVN_STATUS] s t ∧
      t.frec Code.CVN_RING = (s.raise Code.CVN_RING 0).frec Code.CVN_RING ∧ t.cvn = { s.cvn with marks := 2 }

/-- The tandem role moves as the table of R389 says, and the standby hold stands in STANDBY and CLAIM.  Rests on R277,
R388, R389, R390, R391, R395. -/
def Obligations.TandemRolesFollowTheTable : Prop :=
  let entered := fun (t : State) (r : Nat) => t.role = r ∧ t.get F.CVN_TDM_STATUS_HOLD = (if r = 2 ∨ r = 3 then 1 else 0) ∧
    (t.reg A.GLB_IRQ_STATUS).getLsbD 18 = true
  let conflict := fun (s t : State) => entered t 2 ∧ t.get F.CVN_TDM_CNT_CONFLICTS = min (s.get F.CVN_TDM_CNT_CONFLICTS + 1) 255 ∧
    t.frec Code.CVN_TDM_CONFLICT = (s.raise Code.CVN_TDM_CONFLICT 0).frec Code.CVN_TDM_CONFLICT ∧ t.tdm.conflicts = s.tdm.conflicts + 1 ∧
    t.get F.CVN_TDM_STATUS_PRESENCE = 0 ∧ t.tdm.seen = false ∧ t.get F.CVN_TDM_STATUS_CONFLICT_HELD =
      (if s.tdm.conflicts = 2 then 1 else s.get F.CVN_TDM_STATUS_CONFLICT_HELD)
  ∀ s : State, s.Wf → SparseWf faultDefault s.flt.recs → s.tdmOn = true →
    (∀ gap : Nat,
      (gap < 40 ∨ 60 < gap → exec (.tdmEdge gap) s = .next { s with tdm := { s.tdm with edges := 0 } }) ∧
      (40 ≤ gap → gap ≤ 60 →
        (s.tdm.edges < 2 → exec (.tdmEdge gap) s = .next { s with tdm := { s.tdm with edges := s.tdm.edges + 1 } }) ∧
        (2 ≤ s.tdm.edges → s.get F.CVN_TDM_STATUS_PRESENCE = 0 ∨ s.tdm.seen = false →
          (s.role = 2 ∨ s.role = 0 → Completes (.tdmEdge gap) s fun t => t.get F.CVN_TDM_STATUS_PRESENCE = 1 ∧ t.tdm.seen = true ∧
            t.tdm.edges = 3 ∧ t.role = s.role ∧ RegsBut [A.CVN_TDM_STATUS] s t) ∧
          (s.role = 3 → Completes (.tdmEdge gap) s fun t => conflict s t ∧ t.get F.CVN_TDM_STATUS_TDARK = s.get F.CVN_TDM_STATUS_TDARK) ∧
          (s.role = 1 → Completes (.tdmEdge gap) s fun t => conflict s t ∧ t.get F.CVN_TDM_STATUS_TDARK = 1)))) ∧
    (s.get F.CVN_TDM_STATUS_PRESENCE = 1 →
      let lost := fun t : State => t.get F.CVN_TDM_STATUS_PRESENCE = 0 ∧
        t.get F.CVN_TDM_CNT_LOSSES = min (s.get F.CVN_TDM_CNT_LOSSES + 1) 255 ∧ t.tdm.edges = 0
      (s.role ≠ 2 → Completes .tdmLoss s fun t => lost t ∧ t.role = s.role ∧ t.saf = s.saf) ∧
      (s.role = 2 → s.faulted = true → Completes .tdmLoss s fun t => lost t ∧ t.role = 2 ∧ t.tdm.lossSince = true ∧ t.saf = s.saf ∧
        t.frec Code.CVN_TDM_NO_TAKEOVER = (s.raise Code.CVN_TDM_NO_TAKEOVER 0).frec Code.CVN_TDM_NO_TAKEOVER) ∧
      (s.role = 2 → s.faulted = false → Completes .tdmLoss s fun t => lost t ∧ entered t 3)) ∧
    (s.role = 2 → s.tdm.seen = false →
      (s.faulted = false → Completes .standbyWaitExpiry s fun t => entered t 3) ∧
      (s.faulted = true → exec .standbyWaitExpiry s = .next s)) ∧
    (s.role = 3 → Completes .claimToActive s fun t => entered t 1 ∧
      t.get F.CVN_TDM_CNT_TAKEOVERS = min (s.get F.CVN_TDM_CNT_TAKEOVERS + 1) 65535 ∧
      t.frec Code.CVN_TDM_TAKEOVER = (s.raise Code.CVN_TDM_TAKEOVER 0).frec Code.CVN_TDM_TAKEOVER) ∧
    (s.role = 1 →
      (s.faulted = true → Completes .abdication s fun t => entered t 2 ∧ t.tdm.seen = false ∧ t.sourceDisable = true) ∧
      (s.faulted = false → exec .abdication s = .next s)) ∧
    (s.tdm.outBad = false → Completes (.tdmOutMismatch true) s fun t => t.tdm.outBad = true ∧ t.regs = s.regs ∧ t.faulted = true ∧
      (t.frec Code.CVN_TDM_OUT).level.isSome = true) ∧
    (s.tdm.outBad = true → Completes (.tdmOutMismatch false) s fun t => t.tdm.outBad = false ∧ t.regs = s.regs ∧
      (t.frec Code.CVN_TDM_OUT).level = none) ∧
    (s.get F.CVN_TDM_STATUS_TDARK = 1 →
      (s.get F.CVN_TDM_STATUS_HOLD = 1 → Completes .tandemDarkEnd s fun t => t.get F.CVN_TDM_STATUS_TDARK = 0 ∧ t.role = s.role) ∧
      (s.get F.CVN_TDM_STATUS_HOLD = 0 → exec .tandemDarkEnd s = .next s))
end

