-- ==== Sys2Proof/Laws/Image.lean ====
section
/-!
SUPPORT. The blocks of AES keep their length, and an image without sections passes the checks of R399 when its last
sixteen bytes are the CMAC of the rest.
-/

namespace Sys2Proof.Machine


theorem xorBytes_length {a b : List Byte} {n : Nat} (ha : a.length = n) (hb : b.length = n) : (xorBytes a b).length = n := by
  simp [xorBytes, ha, hb]

theorem mixed_length (l : List Byte) (n : Nat) (h : l.length = 4 * n) : (mixColumns l).length = 4 * n := by
  induction n generalizing l with
  | zero => match l, h with | [], _ => rfl
  | succ n ih =>
    match l, h with
    | a :: b :: c :: d :: t, h =>
      simp only [List.length_cons] at h
      simp only [mixColumns, List.length_cons, ih t (by omega)]
      omega

theorem nextKey_length (r : Byte) (k : List Byte) (h : k.length = 16) : (nextKey r k).length = 16 := by
  simp [nextKey, xorBytes, h]

theorem aesRounds_length (n : Nat) (r : Byte) (k st : List Byte) (hk : k.length = 16) (hs : st.length = 16) :
    (aesRounds n r k st).length = 16 := by
  induction n generalizing r k st with
  | zero => exact hs
  | succ n ih =>
    refine ih _ _ _ (nextKey_length _ _ hk) (xorBytes_length ?_ (nextKey_length _ _ hk))
    have hr : ∀ l : List Byte, (shiftRows l).length = 16 := fun l => by simp [shiftRows]
    split
    · exact hr _
    · exact mixed_length _ 4 (hr _)

theorem aes128_length {k b : List Byte} (hk : k.length = 16) (hb : b.length = 16) : (aes128 k b).length = 16 :=
  aesRounds_length _ _ _ _ hk (xorBytes_length hb hk)

theorem cmacDouble_length {l : List Byte} (h : l.length = 16) : (cmacDouble l).length = 16 := by
  have hs : ∀ l : List Byte, (shiftLeft1 l).length = l.length := by
    intro l
    induction l with
    | nil => rfl
    | cons a t ih => cases t with
      | nil => rfl
      | cons b t => simp only [shiftLeft1, List.length_cons] at ih ⊢; omega
  unfold cmacDouble
  split
  · simp [hs, h]
  · rw [hs, h]

theorem cmacRun_length {k : List Byte} (hk : k.length = 16) (n : Nat) (x m : List Byte) (hx : x.length = 16)
    (hm : 16 * n ≤ m.length) : (cmacRun k n x m).length = 16 := by
  induction n generalizing x m with
  | zero => exact hx
  | succ n ih =>
    refine ih _ _ (aes128_length hk (xorBytes_length hx ?_)) ?_
    · rw [List.length_take]; omega
    · rw [List.length_drop]; omega

theorem cmac_length (k m : List Byte) (hk : k.length = 16) : (cmac k m).length = 16 := by
  have h1 := cmacDouble_length (aes128_length hk (List.length_replicate (n := 16) (a := (0 : Byte))))
  refine aes128_length hk (xorBytes_length (cmacRun_length hk _ _ _ List.length_replicate (by omega)) ?_)
  split
  · exact xorBytes_length ‹_› h1
  · refine xorBytes_length ?_ (cmacDouble_length h1)
    rename_i h
    simp only [List.length_drop] at h
    simp only [List.length_append, List.length_cons, List.length_nil, List.length_replicate, List.length_drop]
    omega

/-- A header of 32 bytes and its CMAC are an image without sections, if the header says so. -/
theorem imgCheck_bare (ka ke hd : List Byte) (fl : Nat) (hl : hd.length = 32)
    (hc : (imgWord hd 0 != imgMagic || imgBits hd 1 31 16 != 1 || decide (imgBits hd 3 17 16 = 3)) = false)
    (hlen : imgLen hd = 48) (hn : (imgWord hd 6).toNat % 256 = 0) (hg : ¬ imgGen hd < fl)
    (ht : (cmac ka hd).length = 16) :
    imgCheck ka ke fl (hd ++ cmac ka hd) = .ok { hdr := hd, sects := [] } := by
  generalize hT : cmac ka hd = T at ht ⊢
  have w : ∀ i, i < 8 → imgWord (hd ++ T) i = imgWord hd i := by
    intro i hi
    have : ((hd ++ T).drop (4 * i)).take 4 = (hd.drop (4 * i)).take 4 := by
      rw [List.drop_append_of_le_length (by omega), List.take_append_of_le_length (by rw [List.length_drop]; omega)]
    simp only [imgWord, this]
  have tk : (hd ++ T).take 32 = hd := List.take_left' hl
  have dr : (hd ++ T).drop 32 = T := List.drop_left' hl
  have tt : T.take 16 = T := List.take_of_length_le (by omega)
  have h16 : imgLen (hd ++ T) = 48 := by rw [imgLen, w 2 (by decide)]; exact hlen
  simp only [Bool.or_eq_false_iff, decide_eq_false_iff_not] at hc
  have hc3 : (imgBits hd 3 17 16 == 3) = false := by simpa using hc.2
  simp only [imgCheck, h16, imgBits, w 0 (by decide), w 1 (by decide), w 3 (by decide), w 6 (by decide), imgGen, hn]
  simp only [imgBits, imgGen] at hc hc3 hg
  simp [hc.1.1, hc.1.2, hc3, tk, dr, tt, hT, hl, ht, hg, readSections, bytesWords, ctrRun]

end Sys2Proof.Machine
end

