-- ==== Sys2Proof/Laws/Sparse.lean ====
section
/-!
SUPPORT. What sparse arrays do: a write is read back, other keys are left alone, and the canonical form is kept.
-/

namespace Sys2Proof.Machine

variable {α : Type} {d : Nat → α}

@[simp] theorem sparseGet_nil (k : Nat) : sparseGet d [] k = d k := rfl

@[simp] theorem sparseWf_nil : SparseWf d [] := ⟨List.Pairwise.nil, by simp⟩

theorem SparseWf.tail {e : Nat × α} {m : Sparse α} (h : SparseWf d (e :: m)) : SparseWf d m :=
  ⟨(List.pairwise_cons.mp h.1).2, fun x hx => h.2 x (List.mem_cons_of_mem _ hx)⟩

/-- A key below every listed key reads the default. -/
theorem sparseGet_below {m : Sparse α} {k : Nat} (h : ∀ e ∈ m, k < e.1) : sparseGet d m k = d k := by
  induction m with
  | nil => rfl
  | cons e m ih =>
    have h1 := h e (List.mem_cons_self ..)
    have h2 : e.1 ≠ k := by omega
    simp only [sparseGet, h2, if_false]
    exact ih fun x hx => h x (List.mem_cons_of_mem _ hx)

/-- Clearing keys keeps the canonical form. -/
theorem sparseWf_clear {m : Sparse α} (lo n : Nat) (h : SparseWf d m) : SparseWf d (sparseClear m lo n) :=
  ⟨h.1.filter _, fun e he => h.2 e (List.mem_filter.mp he).1⟩

variable [DecidableEq α]

/-- A write leaves every other key alone. -/
theorem sparseGet_set_ne {m : Sparse α} {k j : Nat} {v : α} (h : j ≠ k) :
    sparseGet d (sparseSet d m k v) j = sparseGet d m j := by
  induction m with
  | nil =>
    simp only [sparseSet]
    split <;> simp [sparseGet, Ne.symm h]
  | cons e m ih =>
    simp only [sparseSet]
    split
    · split <;> simp [sparseGet, Ne.symm h]
    · split
      · rename_i h1 h2
        have h3 : e.1 ≠ j := by omega
        split <;> simp [sparseGet, Ne.symm h, h3]
      · simp only [sparseGet, ih]

/-- A write is read back. -/
theorem sparseGet_set_same {m : Sparse α} {k : Nat} {v : α} (h : SparseWf d m) :
    sparseGet d (sparseSet d m k v) k = v := by
  induction m with
  | nil =>
    simp only [sparseSet]
    split <;> simp_all [sparseGet]
  | cons e m ih =>
    have hp := (List.pairwise_cons.mp h.1).1
    simp only [sparseSet]
    split
    · rename_i h1
      split
      · rename_i h2
        rw [h2]
        exact sparseGet_below fun x hx => by
          rcases List.mem_cons.mp hx with rfl | hx
          · exact h1
          · exact Nat.lt_trans h1 (hp x hx)
      · simp [sparseGet]
    · split
      · rename_i h1 h2
        split
        · rename_i h3
          rw [h3]
          exact sparseGet_below fun x hx => by rw [h2]; exact hp x hx
        · simp [sparseGet]
      · rename_i h1 h2
        simp only [sparseGet, Ne.symm h2, if_false]
        exact ih h.tail

/-- Every key of a written array is the written key or one that was listed. -/
theorem mem_sparseSet {m : Sparse α} {k : Nat} {v : α} {e : Nat × α} (h : e ∈ sparseSet d m k v) :
    (e = (k, v) ∧ v ≠ d k) ∨ e ∈ m := by
  induction m with
  | nil => grind [sparseSet]
  | cons f m ih => grind [sparseSet]

/-- A write keeps the canonical form. -/
theorem sparseWf_set {m : Sparse α} (k : Nat) (v : α) (h : SparseWf d m) : SparseWf d (sparseSet d m k v) := by
  refine ⟨?_, fun e he => (mem_sparseSet he).elim (fun x => by rw [x.1]; exact x.2) (h.2 e)⟩
  induction m with
  | nil =>
    simp only [sparseSet]
    split <;> simp
  | cons e m ih =>
    have hp := (List.pairwise_cons.mp h.1).1
    simp only [sparseSet]
    split
    · rename_i h1
      split
      · exact h.1
      · refine List.pairwise_cons.mpr ⟨fun x hx => ?_, h.1⟩
        rcases List.mem_cons.mp hx with rfl | hx
        · exact h1
        · exact Nat.lt_trans h1 (hp x hx)
    · split
      · rename_i h1 h2
        split
        · exact h.tail.1
        · exact List.pairwise_cons.mpr ⟨fun x hx => by rw [h2]; exact hp x hx, h.tail.1⟩
      · rename_i h1 h2
        refine List.pairwise_cons.mpr ⟨fun x hx => ?_, ih h.tail⟩
        rcases mem_sparseSet hx with ⟨rfl, _⟩ | hx
        · simp only; omega
        · exact hp x hx

/-- Writing a run of keys keeps the canonical form. -/
theorem sparseWf_fill {m : Sparse α} (k : Nat) (vs : List α) (h : SparseWf d m) :
    SparseWf d (sparseFill d m k vs) := by
  induction vs generalizing m k with
  | nil => exact h
  | cons v vs ih => exact ih (k + 1) (sparseWf_set k v h)

/-- A run of writes leaves the keys outside it alone. -/
theorem sparseGet_fill_out {m : Sparse α} {k j : Nat} {vs : List α} (h : j < k ∨ k + vs.length ≤ j) :
    sparseGet d (sparseFill d m k vs) j = sparseGet d m j := by
  induction vs generalizing m k with
  | nil => rfl
  | cons v vs ih =>
    simp only [List.length_cons] at h
    simp only [sparseFill]
    rw [ih (by omega), sparseGet_set_ne (by omega)]

/-- Inside a run of writes each key reads its value. -/
theorem sparseGet_fill_in {m : Sparse α} {k i : Nat} {vs : List α} (h : SparseWf d m) (hi : i < vs.length) :
    sparseGet d (sparseFill d m k vs) (k + i) = vs[i] := by
  induction vs generalizing m k i with
  | nil => simp at hi
  | cons v vs ih =>
    simp only [sparseFill]
    cases i with
    | zero => rw [sparseGet_fill_out (by omega)]; simpa using sparseGet_set_same h
    | succ i =>
      have := ih (m := sparseSet d m k v) (k := k + 1) (i := i) (sparseWf_set k v h) (by simpa using hi)
      simpa [Nat.add_assoc, Nat.add_comm 1 i] using this

end Sys2Proof.Machine
end

