-- ==== Sys2Proof/Laws/Kept.lean ====
section
/-!
SUPPORT. `Kept q s`: the queue of `s` is `q` and its stored words and bytes are in canonical form.  Each operation of the
block keeps it; the lemmas of the files beside this one say so, one for each operation.
-/

namespace Sys2Proof.Machine

/-- `Kept` over the fields it speaks of. -/
def KeptData (q p : List Instr) (r sh : List (Nat × Word)) (lm nv : List Host.Cell) : Prop := p = q ∧ WfData r sh lm nv

/-- The queue is `q`, and the stored words and bytes are in canonical form. -/
def Kept (q : List Instr) (s : State) : Prop := KeptData q s.pending s.regs s.shadow s.lmem s.nvm

@[simp] theorem kept_fold {q : List Instr} {s : State} :
    KeptData q s.pending s.regs s.shadow s.lmem s.nvm ↔ Kept q s := Iff.rfl

theorem Kept.of_fields {q : List Instr} {s t : State} (h : Kept q s) (hp : t.pending = s.pending) (hr : t.regs = s.regs)
    (hs : t.shadow = s.shadow) (hl : t.lmem = s.lmem) (hn : t.nvm = s.nvm) : Kept q t := by
  unfold Kept
  rw [hp, hr, hs, hl, hn]
  exact h

@[simp] theorem kept_mk {q p : List Instr} {r sh : List (Nat × Word)} {port : PortAnswer} {fc : Nat} {lm nv : List Host.Cell}
    {a1 a2 a3 a4 a5 a6 a7 a8 a9 a10 a11 a12 a13 a14 a15 a16 a17 a18 a19 a20 a21} :
    Kept q (State.mk p r sh port fc lm nv a1 a2 a3 a4 a5 a6 a7 a8 a9 a10 a11 a12 a13 a14 a15 a16 a17 a18 a19 a20 a21) ↔
      KeptData q p r sh lm nv := Iff.rfl

theorem kept_update {q : List Instr} {s : State} {port : PortAnswer} {fc : Nat}
    {a1 a2 a3 a4 a5 a6 a7 a8 a9 a10 a11 a12 a13 a14 a15 a16 a17 a18 a19 a20 a21} (h : Kept q s) :
    Kept q (State.mk s.pending s.regs s.shadow port fc s.lmem s.nvm a1 a2 a3 a4 a5 a6 a7 a8 a9 a10 a11 a12 a13 a14 a15 a16
      a17 a18 a19 a20 a21) := h

theorem kept_lift {q : List Instr} {A : State} {P : State → Prop} (hA : Kept q A) (hB : ∀ x, Kept q x → P x) :
    let x := A; P x := hB A hA

theorem kept_lift_fst {α : Type} {q : List Instr} {A : State × α} {P : State × α → Prop} (hA : Kept q A.1)
    (hB : ∀ x, Kept q x.1 → P x) : let x := A; P x := hB A hA

theorem kept_lift_snd {α : Type} {q : List Instr} {A : α × State} {P : α × State → Prop} (hA : Kept q A.2)
    (hB : ∀ x, Kept q x.2 → P x) : let x := A; P x := hB A hA

theorem kept_ite {q : List Instr} {c : Prop} [Decidable c] {a b : State} (ha : Kept q a) (hb : Kept q b) :
    Kept q (if c then a else b) := by split <;> assumption

theorem kept_ite_fst {α : Type} {q : List Instr} {c : Prop} [Decidable c] {a b : State × α} (ha : Kept q a.1)
    (hb : Kept q b.1) : Kept q (if c then a else b).1 := by split <;> assumption

theorem kept_ite_snd {α : Type} {q : List Instr} {c : Prop} [Decidable c] {a b : α × State} (ha : Kept q a.2)
    (hb : Kept q b.2) : Kept q (if c then a else b).2 := by split <;> assumption

theorem kept_noLmem {q : List Instr} {s : State} (h : Kept q s) :
    KeptData q s.pending s.regs s.shadow [] s.nvm := ⟨h.1, h.2.1, h.2.2.1, sparseWf_nil, h.2.2.2.2⟩

/-- A function applied for every index keeps what each application keeps. -/
theorem forUpto_keeps {α : Type} {P : α → Prop} {act : Nat → α → α} (each : ∀ k x, P x → P (act k x)) :
    ∀ (count : Nat) {x : α}, P x → P (forUpto count act x)
  | 0, _, start => start
  | count + 1, _, start => each count _ (forUpto_keeps each count start)

/-- The state that is folded over a list of things to do keeps what each of them keeps. -/
theorem kept_foldl {β : Type} {q : List Instr} {act : State → β → State}
    (each : ∀ s x, Kept q s → Kept q (act s x)) : ∀ (todo : List β) {s : State}, Kept q s → Kept q (todo.foldl act s)
  | [], _, k => k
  | x :: rest, s, k => kept_foldl each rest (each s x k)

theorem State.setReg_kept {q : List Instr} {s : State} (a : Nat) (w : Word) (h : Kept q s) : Kept q (s.setReg a w) :=
  ⟨h.1, sparseWf_set _ _ h.2.1, h.2.2⟩

theorem State.setShReg_kept {q : List Instr} {s : State} (a : Nat) (w : Word) (h : Kept q s) :
    Kept q (s.setShReg a w) :=
  ⟨h.1, h.2.1, sparseWf_set _ _ h.2.2.1, h.2.2.2⟩

theorem State.resetRegs_kept {q : List Instr} {s : State} (lo n : Nat) (h : Kept q s) : Kept q (s.resetRegs lo n) :=
  ⟨h.1, sparseWf_clear _ _ h.2.1, sparseWf_clear _ _ h.2.2.1, h.2.2.2⟩

theorem State.lmWrite_kept {q : List Instr} {s : State} (a : Nat) (bs : List Byte) (h : Kept q s) :
    Kept q (s.lmWrite a bs) :=
  ⟨h.1, h.2.1, h.2.2.1, sparseWf_fill _ _ h.2.2.2.1, h.2.2.2.2⟩

theorem State.nvWrite_kept {q : List Instr} {s : State} (a : Nat) (bs : List Byte) (h : Kept q s) :
    Kept q (s.nvWrite a bs) :=
  ⟨h.1, h.2.1, h.2.2.1, h.2.2.2.1, sparseWf_fill _ _ h.2.2.2.2⟩

end Sys2Proof.Machine
end

