-- ==== Sys2Proof/Laws/KeptOps.lean ====
section
/-!
SUPPORT. The operations of Machine/Ops.lean keep the queue and the canonical form.
-/

set_option linter.unusedSimpArgs false
set_option linter.unusedTactic false
set_option linter.unreachableTactic false

namespace Sys2Proof.Machine

theorem State.put_kept {q : List Instr} {s : State} (f : Field) (v : Nat) (kq : Kept q s) :
    Kept q (State.put s f v) := by
  unfold State.put
  repeat' (
    first
      | (with_reducible assumption) | (with_reducible apply State.setReg_kept) | (with_reducible intro _)
      | split | dsimp only)

theorem State.putB_kept {q : List Instr} {s : State} (f : Field) (b : Bool) (kq : Kept q s) :
    Kept q (State.putB s f b) := by
  unfold State.putB
  repeat' (
    first
      | (with_reducible assumption) | (with_reducible apply State.put_kept) | (with_reducible intro _) | split
      | dsimp only)

theorem State.putSh_kept {q : List Instr} {s : State} (f : Field) (v : Nat) (kq : Kept q s) :
    Kept q (State.putSh s f v) := by
  unfold State.putSh
  repeat' (
    first
      | (with_reducible assumption) | (with_reducible apply State.setShReg_kept) | (with_reducible intro _)
      | split | dsimp only)

theorem State.putBoth_kept {q : List Instr} {s : State} (f : Field) (v : Nat) (kq : Kept q s) :
    Kept q (State.putBoth s f v) := by
  unfold State.putBoth
  repeat' (
    first
      | (with_reducible assumption) | (with_reducible apply State.put_kept)
      | (with_reducible apply State.putSh_kept) | (with_reducible intro _) | split | dsimp only)

theorem State.inc_kept {q : List Instr} {s : State} (f : Field) (kq : Kept q s) :
    Kept q (State.inc s f) := by
  unfold State.inc
  repeat' (
    first
      | (with_reducible assumption) | (with_reducible apply State.put_kept) | (with_reducible intro _) | split
      | dsimp only)

theorem State.incBy_kept {q : List Instr} {s : State} (f : Field) (n : Nat) (kq : Kept q s) :
    Kept q (State.incBy s f n) := by
  unfold State.incBy
  repeat' (
    first
      | (with_reducible assumption) | (with_reducible apply State.put_kept) | (with_reducible intro _) | split
      | dsimp only)

theorem State.wrapInc_kept {q : List Instr} {s : State} (f : Field) (kq : Kept q s) :
    Kept q (State.wrapInc s f) := by
  unfold State.wrapInc
  repeat' (
    first
      | (with_reducible assumption) | (with_reducible apply State.put_kept) | (with_reducible intro _) | split
      | dsimp only)

theorem State.tick_kept {q : List Instr} {s : State} (kq : Kept q s) :
    Kept q (State.tick s) := kq

theorem State.irq_kept {q : List Instr} {s : State} (n : Nat) (kq : Kept q s) :
    Kept q (State.irq s n) := by
  unfold State.irq
  repeat' (
    first
      | (with_reducible assumption) | lift_lets
      | (intro x; have y : State := x; clear y; revert x; with_reducible apply kept_lift)
      | (intro x; have y : State := x.1; clear y; revert x; with_reducible apply kept_lift_fst)
      | (intro x; have y : State := x.2; clear y; revert x; with_reducible apply kept_lift_snd)
      | (intro x; clear_value x) | (with_reducible apply State.setReg_kept) | simp only [kept_mk, kept_fold]
      | (with_reducible intro _) | (with_reducible apply kept_ite) | split | dsimp only)

end Sys2Proof.Machine
end

