-- ==== Sys2Proof/Laws/KeptFlags.lean ====
section
/-!
SUPPORT. The operations of Machine/Flags.lean keep the queue and the canonical form.
-/

set_option linter.unusedSimpArgs false
set_option linter.unusedTactic false
set_option linter.unreachableTactic false

namespace Sys2Proof.Machine

theorem State.setFrec_kept {q : List Instr} {s : State} (n : Nat) (r : FaultRec) (kq : Kept q s) :
    Kept q (State.setFrec s n r) := by
  unfold State.setFrec
  repeat' (
    first
      | (with_reducible assumption) | lift_lets
      | (intro x; have y : State := x; clear y; revert x; with_reducible apply kept_lift)
      | (intro x; have y : State := x.1; clear y; revert x; with_reducible apply kept_lift_fst)
      | (intro x; have y : State := x.2; clear y; revert x; with_reducible apply kept_lift_snd)
      | (intro x; clear_value x) | simp only [kept_mk, kept_fold] | (with_reducible intro _) | split
      | dsimp only)

theorem State.raiseI_kept {q : List Instr} {s : State} (n : Nat) (i : FaultInfo) (kq : Kept q s) :
    Kept q (State.raiseI s n i) := by
  unfold State.raiseI
  repeat' (
    first
      | (with_reducible assumption) | lift_lets
      | (intro x; have y : State := x; clear y; revert x; with_reducible apply kept_lift)
      | (intro x; have y : State := x.1; clear y; revert x; with_reducible apply kept_lift_fst)
      | (intro x; have y : State := x.2; clear y; revert x; with_reducible apply kept_lift_snd)
      | (intro x; clear_value x) | (with_reducible apply State.setFrec_kept) | simp only [kept_mk, kept_fold]
      | (with_reducible intro _) | (with_reducible apply kept_ite) | split | dsimp only)

theorem State.raise_kept {q : List Instr} {s : State} (n addr : Nat) (kq : Kept q s) :
    Kept q (State.raise s n addr) := by
  unfold State.raise
  repeat' (
    first
      | (with_reducible assumption) | (with_reducible apply State.raiseI_kept) | (with_reducible intro _)
      | split | dsimp only)

theorem State.assertF_kept {q : List Instr} {s : State} (n addr : Nat) (kq : Kept q s) :
    Kept q (State.assertF s n addr) := by
  unfold State.assertF
  repeat' (
    first
      | (with_reducible assumption) | lift_lets
      | (intro x; have y : State := x; clear y; revert x; with_reducible apply kept_lift)
      | (intro x; have y : State := x.1; clear y; revert x; with_reducible apply kept_lift_fst)
      | (intro x; have y : State := x.2; clear y; revert x; with_reducible apply kept_lift_snd)
      | (intro x; clear_value x) | (with_reducible apply State.setFrec_kept) | simp only [kept_mk, kept_fold]
      | (with_reducible intro _) | split | dsimp only)

theorem State.deassertF_kept {q : List Instr} {s : State} (n : Nat) (kq : Kept q s) :
    Kept q (State.deassertF s n) := by
  unfold State.deassertF
  repeat' (
    first
      | (with_reducible assumption) | lift_lets
      | (intro x; have y : State := x; clear y; revert x; with_reducible apply kept_lift)
      | (intro x; have y : State := x.1; clear y; revert x; with_reducible apply kept_lift_fst)
      | (intro x; have y : State := x.2; clear y; revert x; with_reducible apply kept_lift_snd)
      | (intro x; clear_value x) | (with_reducible apply State.setFrec_kept) | simp only [kept_mk, kept_fold]
      | (with_reducible intro _) | split | dsimp only)

theorem State.netsTrack_kept {q : List Instr} {s : State} (kq : Kept q s) :
    Kept q (State.netsTrack s) := by
  unfold State.netsTrack
  repeat' (
    first
      | (with_reducible assumption) | lift_lets
      | (intro x; have y : State := x; clear y; revert x; with_reducible apply kept_lift)
      | (intro x; have y : State := x.1; clear y; revert x; with_reducible apply kept_lift_fst)
      | (intro x; have y : State := x.2; clear y; revert x; with_reducible apply kept_lift_snd)
      | (intro x; clear_value x) | (with_reducible apply State.inc_kept) | simp only [kept_mk, kept_fold]
      | (with_reducible intro _) | (with_reducible apply kept_ite) | split | dsimp only)

theorem State.lpeRemoval_kept {q : List Instr} {s : State} (kq : Kept q s) :
    Kept q (State.lpeRemoval s) := by
  unfold State.lpeRemoval
  repeat' (
    first
      | (with_reducible assumption) | lift_lets
      | (intro x; have y : State := x; clear y; revert x; with_reducible apply kept_lift)
      | (intro x; have y : State := x.1; clear y; revert x; with_reducible apply kept_lift_fst)
      | (intro x; have y : State := x.2; clear y; revert x; with_reducible apply kept_lift_snd)
      | (intro x; clear_value x) | (with_reducible apply State.put_kept) | simp only [kept_mk, kept_fold]
      | (with_reducible intro _) | (with_reducible apply kept_ite) | split | dsimp only)

theorem State.stopTrack_kept {q : List Instr} {s : State} (kq : Kept q s) :
    Kept q (State.stopTrack s) := by
  unfold State.stopTrack
  repeat' (
    first
      | (with_reducible assumption) | (with_reducible apply State.putB_kept) | (with_reducible intro _) | split
      | dsimp only)

theorem State.driveLrm_kept {q : List Instr} {s : State} (on : Bool) (kq : Kept q s) :
    Kept q (State.driveLrm s on) := by
  unfold State.driveLrm
  repeat' (
    first
      | (with_reducible assumption) | lift_lets
      | (intro x; have y : State := x; clear y; revert x; with_reducible apply kept_lift)
      | (intro x; have y : State := x.1; clear y; revert x; with_reducible apply kept_lift_fst)
      | (intro x; have y : State := x.2; clear y; revert x; with_reducible apply kept_lift_snd)
      | (intro x; clear_value x) | (with_reducible apply State.lpeRemoval_kept)
      | (with_reducible apply State.put_kept) | simp only [kept_mk, kept_fold] | (with_reducible intro _)
      | (with_reducible apply kept_ite) | split | dsimp only)

theorem State.copyInvalid_kept {q : List Instr} {s : State} (b k : Nat) (kq : Kept q s) :
    Kept q (State.copyInvalid s b k) := by
  unfold State.copyInvalid
  repeat' (
    first
      | (with_reducible assumption) | (with_reducible apply State.put_kept)
      | (with_reducible apply State.raise_kept) | (with_reducible intro _) | (with_reducible apply kept_ite)
      | split | dsimp only)

theorem State.oasisEntry_kept {q : List Instr} {s : State} (b : Nat) (kq : Kept q s) :
    Kept q (State.oasisEntry s b) := by
  unfold State.oasisEntry
  repeat' (
    first
      | (with_reducible assumption) | lift_lets
      | (intro x; have y : State := x; clear y; revert x; with_reducible apply kept_lift)
      | (intro x; have y : State := x.1; clear y; revert x; with_reducible apply kept_lift_fst)
      | (intro x; have y : State := x.2; clear y; revert x; with_reducible apply kept_lift_snd)
      | (intro x; clear_value x) | (with_reducible apply State.copyInvalid_kept)
      | (with_reducible apply State.put_kept) | simp only [kept_mk, kept_fold] | (with_reducible intro _)
      | (with_reducible apply kept_ite) | split | dsimp only)

theorem State.safGoto_kept {q : List Instr} {s : State} (t : Nat) (kq : Kept q s) :
    Kept q (State.safGoto s t) := by
  unfold State.safGoto
  repeat' (
    first
      | (with_reducible assumption) | (with_reducible apply State.irq_kept)
      | (with_reducible apply State.put_kept) | (with_reducible intro _) | (with_reducible apply kept_ite)
      | split | dsimp only)

theorem State.safRefreshRaw_kept {q : List Instr} {s : State} (kq : Kept q s) :
    Kept q (State.safRefreshRaw s) := by
  unfold State.safRefreshRaw
  repeat' (
    first
      | (with_reducible assumption) | lift_lets
      | (intro x; have y : State := x; clear y; revert x; with_reducible apply kept_lift)
      | (intro x; have y : State := x.1; clear y; revert x; with_reducible apply kept_lift_fst)
      | (intro x; have y : State := x.2; clear y; revert x; with_reducible apply kept_lift_snd)
      | (intro x; clear_value x) | (with_reducible apply State.driveLrm_kept)
      | (with_reducible apply State.oasisEntry_kept) | (with_reducible apply State.put_kept)
      | (with_reducible apply State.raise_kept) | (with_reducible apply State.safGoto_kept)
      | simp only [kept_mk, kept_fold] | (with_reducible intro _) | (with_reducible apply kept_ite) | split
      | dsimp only)

theorem State.safRefresh_kept {q : List Instr} {s : State} (kq : Kept q s) :
    Kept q (State.safRefresh s) := by
  unfold State.safRefresh
  repeat' (
    first
      | (with_reducible assumption) | (with_reducible apply State.netsTrack_kept)
      | (with_reducible apply State.safRefreshRaw_kept) | (with_reducible intro _) | split | dsimp only)

theorem State.setRemoval_kept {q : List Instr} {s : State} (kq : Kept q s) :
    Kept q (State.setRemoval s) := by
  unfold State.setRemoval
  repeat' (
    first
      | (with_reducible assumption) | (with_reducible apply State.driveLrm_kept)
      | (with_reducible apply State.put_kept) | (with_reducible apply State.safRefresh_kept)
      | (with_reducible intro _) | split | dsimp only)

theorem State.ownC4_kept {q : List Instr} {s : State} (n addr : Nat) (kq : Kept q s) :
    Kept q (State.ownC4 s n addr) := by
  unfold State.ownC4
  repeat' (
    first
      | (with_reducible assumption) | (with_reducible apply State.raise_kept)
      | (with_reducible apply State.setRemoval_kept) | (with_reducible intro _) | split | dsimp only)

theorem State.setDim_kept {q : List Instr} {s : State} (kq : Kept q s) :
    Kept q (State.setDim s) := by
  unfold State.setDim
  repeat' (
    first
      | (with_reducible assumption) | lift_lets
      | (intro x; have y : State := x; clear y; revert x; with_reducible apply kept_lift)
      | (intro x; have y : State := x.1; clear y; revert x; with_reducible apply kept_lift_fst)
      | (intro x; have y : State := x.2; clear y; revert x; with_reducible apply kept_lift_snd)
      | (intro x; clear_value x) | (with_reducible apply State.put_kept)
      | (with_reducible apply State.safRefresh_kept) | simp only [kept_mk, kept_fold] | (with_reducible intro _)
      | (with_reducible apply kept_ite) | split | dsimp only)

theorem State.fltRequest_kept {q : List Instr} {s : State} (kq : Kept q s) :
    Kept q (State.fltRequest s) := by
  unfold State.fltRequest
  repeat' (
    first
      | (with_reducible assumption) | (with_reducible apply State.putB_kept)
      | (with_reducible apply State.safRefresh_kept) | (with_reducible intro _) | (with_reducible apply kept_ite)
      | split | dsimp only)

theorem State.ownC4Level_kept {q : List Instr} {s : State} (n addr : Nat) (kq : Kept q s) :
    Kept q (State.ownC4Level s n addr) := by
  unfold State.ownC4Level
  repeat' (
    first
      | (with_reducible assumption) | (with_reducible apply State.assertF_kept)
      | (with_reducible apply State.setRemoval_kept) | (with_reducible intro _) | split | dsimp only)

theorem State.react_kept {q : List Instr} {s : State} (cls : Nat) (kq : Kept q s) :
    Kept q (State.react s cls) := by
  unfold State.react
  repeat' (
    first
      | (with_reducible assumption) | lift_lets
      | (intro x; have y : State := x; clear y; revert x; with_reducible apply kept_lift)
      | (intro x; have y : State := x.1; clear y; revert x; with_reducible apply kept_lift_fst)
      | (intro x; have y : State := x.2; clear y; revert x; with_reducible apply kept_lift_snd)
      | (intro x; clear_value x) | (with_reducible apply State.fltRequest_kept)
      | (with_reducible apply State.setDim_kept) | (with_reducible apply State.setRemoval_kept)
      | simp only [kept_mk, kept_fold] | (with_reducible intro _) | (with_reducible apply kept_ite) | split
      | dsimp only)

end Sys2Proof.Machine
end

