-- ==== Sys2Proof/Laws/KeptOperands.lean ====
section
/-!
SUPPORT. The operations of Machine/Operands.lean keep the queue and the canonical form.
-/

set_option linter.unusedSimpArgs false
set_option linter.unusedTactic false
set_option linter.unreachableTactic false

namespace Sys2Proof.Machine

theorem State.accPut_kept {q : List Instr} {s : State} (i res : Nat) (write : Bool) (a : Nat) (kq : Kept q s) :
    Kept q (State.accPut s i res write a) := by
  unfold State.accPut
  repeat' (
    first
      | (with_reducible assumption) | (with_reducible apply State.put_kept)
      | (with_reducible apply State.putB_kept) | (with_reducible intro _) | split | dsimp only)

theorem State.accRecord_kept {q : List Instr} {s : State} (i res : Nat) (write : Bool) (a : Nat) (kq : Kept q s) :
    Kept q (State.accRecord s i res write a) := by
  unfold State.accRecord
  repeat' (
    first
      | (with_reducible assumption) | (with_reducible apply State.accPut_kept) | (with_reducible intro _)
      | (with_reducible apply kept_ite) | split | dsimp only)

theorem State.offBlock_kept {q : List Instr} {s : State} (i : Initiator) (a : Nat) (kq : Kept q s) :
    Kept q (State.offBlock s i a) := by
  unfold State.offBlock
  repeat' (
    first
      | (with_reducible assumption) | (with_reducible apply State.inc_kept)
      | (with_reducible apply State.raiseI_kept) | (with_reducible intro _) | split | dsimp only)

theorem State.answer_kept {q : List Instr} {s : State} (v : Word) (r : Nat) (kq : Kept q s) :
    Kept q (State.answer s v r) := by
  unfold State.answer
  repeat' (
    first
      | (with_reducible assumption) | lift_lets
      | (intro x; have y : State := x; clear y; revert x; with_reducible apply kept_lift)
      | (intro x; have y : State := x.1; clear y; revert x; with_reducible apply kept_lift_fst)
      | (intro x; have y : State := x.2; clear y; revert x; with_reducible apply kept_lift_snd)
      | (intro x; clear_value x) | simp only [kept_mk, kept_fold] | (with_reducible intro _) | split
      | dsimp only)

theorem State.portWrite_kept {q : List Instr} {s : State} {i : Initiator} {a : Nat} {k : State → State} (h : Kept q s)
    (hk : ∀ s, Kept q s → Kept q (k s)) : Kept q (s.portWrite i a k) := by
  have h1 := hk s h
  have h2 := State.offBlock_kept i a h
  unfold State.portWrite
  split
  · exact h
  · dsimp only
    split
    · exact State.answer_kept _ _ h1
    · refine State.answer_kept _ _ (State.accRecord_kept _ _ _ _ ?_)
      split <;> assumption

theorem State.portRead_kept {q : List Instr} {s : State} {i : Initiator} {a : Nat} {k : State → Word × State} (h : Kept q s)
    (hk : ∀ s, Kept q s → Kept q (k s).2) : Kept q (s.portRead i a k) := by
  have h1 := hk s h
  unfold State.portRead
  split
  · exact h
  · dsimp only
    split
    · split
      · exact State.answer_kept _ _ h
      · exact State.answer_kept _ _ h1
    · exact State.answer_kept _ _ (State.accRecord_kept _ _ _ _ h)

theorem State.regWrite_kept {q : List Instr} {s : State} (a : Nat) (v : Word) (kq : Kept q s) :
    Kept q (State.regWrite s a v) := by
  unfold State.regWrite
  repeat' (
    first
      | (with_reducible assumption) | lift_lets
      | (intro x; have y : State := x; clear y; revert x; with_reducible apply kept_lift)
      | (intro x; have y : State := x.1; clear y; revert x; with_reducible apply kept_lift_fst)
      | (intro x; have y : State := x.2; clear y; revert x; with_reducible apply kept_lift_snd)
      | (intro x; clear_value x) | (with_reducible apply State.setReg_kept)
      | (with_reducible apply State.setShReg_kept) | (with_reducible intro _) | (with_reducible apply kept_ite)
      | split | dsimp only)

theorem State.readClear_kept {q : List Instr} {s : State} (a : Nat) (kq : Kept q s) :
    Kept q (State.readClear s a) := by
  unfold State.readClear
  repeat' (
    first
      | (with_reducible assumption) | lift_lets
      | (intro x; have y : State := x; clear y; revert x; with_reducible apply kept_lift)
      | (intro x; have y : State := x.1; clear y; revert x; with_reducible apply kept_lift_fst)
      | (intro x; have y : State := x.2; clear y; revert x; with_reducible apply kept_lift_snd)
      | (intro x; clear_value x) | (with_reducible apply State.setReg_kept) | (with_reducible intro _)
      | (with_reducible apply kept_ite) | split | dsimp only)

end Sys2Proof.Machine
end

