-- ==== Sys2Proof/Laws/KeptPosition.lean ====
section
/-!
SUPPORT. The operations of Machine/Position.lean keep the queue and the canonical form.
-/

set_option linter.unusedSimpArgs false
set_option linter.unusedTactic false
set_option linter.unreachableTactic false

namespace Sys2Proof.Machine

theorem State.pwmRun_kept {q : List Instr} {s : State} (n : Nat) (kq : Kept q s) :
    Kept q (State.pwmRun s n) := by
  unfold State.pwmRun
  repeat' (
    first
      | (with_reducible assumption) | lift_lets
      | (intro x; have y : State := x; clear y; revert x; with_reducible apply kept_lift)
      | (intro x; have y : State := x.1; clear y; revert x; with_reducible apply kept_lift_fst)
      | (intro x; have y : State := x.2; clear y; revert x; with_reducible apply kept_lift_snd)
      | (intro x; clear_value x) | simp only [kept_mk, kept_fold] | (with_reducible intro _) | split
      | dsimp only)

theorem State.runTo_kept {q : List Instr} {s : State} (t : Nat) (kq : Kept q s) :
    Kept q (State.runTo s t) := by
  unfold State.runTo
  repeat' (
    first
      | (with_reducible assumption) | lift_lets
      | (intro x; have y : State := x; clear y; revert x; with_reducible apply kept_lift)
      | (intro x; have y : State := x.1; clear y; revert x; with_reducible apply kept_lift_fst)
      | (intro x; have y : State := x.2; clear y; revert x; with_reducible apply kept_lift_snd)
      | (intro x; clear_value x) | (with_reducible apply State.pwmRun_kept) | simp only [kept_mk, kept_fold]
      | (with_reducible intro _) | (with_reducible apply kept_ite) | split | dsimp only)

theorem State.toSlot_kept {q : List Instr} {s : State} (n : Nat) (kq : Kept q s) :
    Kept q (State.toSlot s n) := by
  unfold State.toSlot
  repeat' (
    first
      | (with_reducible assumption) | lift_lets
      | (intro x; have y : State := x; clear y; revert x; with_reducible apply kept_lift)
      | (intro x; have y : State := x.1; clear y; revert x; with_reducible apply kept_lift_fst)
      | (intro x; have y : State := x.2; clear y; revert x; with_reducible apply kept_lift_snd)
      | (intro x; clear_value x) | (with_reducible apply State.runTo_kept) | simp only [kept_mk, kept_fold]
      | (with_reducible intro _) | (with_reducible apply kept_ite) | split | dsimp only)

end Sys2Proof.Machine
end

