-- ==== Sys2Proof/Laws/KeptMask.lean ====
section
/-!
SUPPORT. The operations of Machine/Mask.lean keep the queue and the canonical form.
-/

set_option linter.unusedSimpArgs false
set_option linter.unusedTactic false
set_option linter.unreachableTactic false

namespace Sys2Proof.Machine

theorem State.listReject_kept {q : List Instr} {s : State} (reason obj : Nat) (info : FaultInfo) (kq : Kept q s) :
    Kept q (State.listReject s reason obj info) := by
  unfold State.listReject
  repeat' (
    first
      | (with_reducible assumption) | lift_lets
      | (intro x; have y : State := x; clear y; revert x; with_reducible apply kept_lift)
      | (intro x; have y : State := x.1; clear y; revert x; with_reducible apply kept_lift_fst)
      | (intro x; have y : State := x.2; clear y; revert x; with_reducible apply kept_lift_snd)
      | (intro x; clear_value x) | (with_reducible apply State.inc_kept) | (with_reducible apply State.put_kept)
      | (with_reducible apply State.raiseI_kept) | (with_reducible intro _) | (with_reducible apply kept_ite)
      | split | dsimp only)

theorem State.listAccept_kept {q : List Instr} {s : State} (h : Word) (t : List Word) (kq : Kept q s) :
    Kept q (State.listAccept s h t) := by
  unfold State.listAccept
  repeat' (
    first
      | (with_reducible assumption) | lift_lets
      | (intro x; have y : State := x; clear y; revert x; with_reducible apply kept_lift)
      | (intro x; have y : State := x.1; clear y; revert x; with_reducible apply kept_lift_fst)
      | (intro x; have y : State := x.2; clear y; revert x; with_reducible apply kept_lift_snd)
      | (intro x; clear_value x) | (with_reducible apply State.inc_kept) | (with_reducible apply State.put_kept)
      | simp only [kept_mk, kept_fold] | (with_reducible intro _) | split | dsimp only)

theorem State.listSubmit_kept {q : List Instr} {s : State} (ws : List Word) (info : FaultInfo) (kq : Kept q s) :
    Kept q (State.listSubmit s ws info) := by
  unfold State.listSubmit
  repeat' (
    first
      | (with_reducible assumption) | lift_lets
      | (intro x; have y : State := x; clear y; revert x; with_reducible apply kept_lift)
      | (intro x; have y : State := x.1; clear y; revert x; with_reducible apply kept_lift_fst)
      | (intro x; have y : State := x.2; clear y; revert x; with_reducible apply kept_lift_snd)
      | (intro x; clear_value x) | (with_reducible apply State.listAccept_kept)
      | (with_reducible apply State.listReject_kept) | simp only [kept_mk, kept_fold] | (with_reducible intro _)
      | (with_reducible apply kept_ite) | split | dsimp only)

theorem State.mskSubmit_kept {q : List Instr} {s : State} (v : Word) (info : FaultInfo) (kq : Kept q s) :
    Kept q (State.mskSubmit s v info) := by
  unfold State.mskSubmit
  repeat' (
    first
      | (with_reducible assumption) | lift_lets
      | (intro x; have y : State := x; clear y; revert x; with_reducible apply kept_lift)
      | (intro x; have y : State := x.1; clear y; revert x; with_reducible apply kept_lift_fst)
      | (intro x; have y : State := x.2; clear y; revert x; with_reducible apply kept_lift_snd)
      | (intro x; clear_value x) | (with_reducible apply State.listSubmit_kept) | (with_reducible intro _)
      | (with_reducible apply kept_ite) | split | dsimp only)

theorem execMskSubmit_kept {q : List Instr} (i : Initiator) (v : Word) {s : State} {z : State} (kq : Kept q s)
    (hx : execMskSubmit i v s = .next z) : Kept q z := by
  obtain rfl := Host.Outcome.next.inj hx
  repeat' (
    first
      | (with_reducible assumption) | (with_reducible apply State.mskSubmit_kept)
      | (with_reducible apply State.portWrite_kept) | (with_reducible intro _) | split | dsimp only)

theorem State.setLatched_kept {q : List Instr} {s : State} (y : Nat) (r : Row) (kq : Kept q s) :
    Kept q (State.setLatched s y r) := by
  unfold State.setLatched
  repeat' (
    first
      | (with_reducible assumption) | lift_lets
      | (intro x; have y : State := x; clear y; revert x; with_reducible apply kept_lift)
      | (intro x; have y : State := x.1; clear y; revert x; with_reducible apply kept_lift_fst)
      | (intro x; have y : State := x.2; clear y; revert x; with_reducible apply kept_lift_snd)
      | (intro x; clear_value x) | simp only [kept_mk, kept_fold] | (with_reducible intro _) | split
      | dsimp only)

theorem State.setTarget_kept {q : List Instr} {s : State} (y : Nat) (r : Row) (kq : Kept q s) :
    Kept q (State.setTarget s y r) := by
  unfold State.setTarget
  repeat' (
    first
      | (with_reducible assumption) | lift_lets
      | (intro x; have y : State := x; clear y; revert x; with_reducible apply kept_lift)
      | (intro x; have y : State := x.1; clear y; revert x; with_reducible apply kept_lift_fst)
      | (intro x; have y : State := x.2; clear y; revert x; with_reducible apply kept_lift_snd)
      | (intro x; clear_value x) | simp only [kept_mk, kept_fold] | (with_reducible intro _) | split
      | dsimp only)

theorem State.setSets_kept {q : List Instr} {s : State} (dark bright : List Nat) (kq : Kept q s) :
    Kept q (State.setSets s dark bright) := by
  unfold State.setSets
  repeat' (
    first
      | (with_reducible assumption) | lift_lets
      | (intro x; have y : State := x; clear y; revert x; with_reducible apply kept_lift)
      | (intro x; have y : State := x.1; clear y; revert x; with_reducible apply kept_lift_fst)
      | (intro x; have y : State := x.2; clear y; revert x; with_reducible apply kept_lift_snd)
      | (intro x; clear_value x) | (with_reducible apply State.put_kept) | simp only [kept_mk, kept_fold]
      | (with_reducible intro _) | split | dsimp only)

theorem State.classify_kept {q : List Instr} {s : State} (y : Nat) (kq : Kept q s) :
    Kept q (State.classify s y) := by
  unfold State.classify
  repeat' (
    first
      | (with_reducible assumption) | lift_lets
      | (intro x; have y : State := x; clear y; revert x; with_reducible apply kept_lift)
      | (intro x; have y : State := x.1; clear y; revert x; with_reducible apply kept_lift_fst)
      | (intro x; have y : State := x.2; clear y; revert x; with_reducible apply kept_lift_snd)
      | (intro x; clear_value x) | (with_reducible apply State.setSets_kept) | (with_reducible intro _)
      | (with_reducible apply kept_ite) | split | dsimp only)

theorem State.maskParity_kept {q : List Instr} {s : State} (kq : Kept q s) :
    Kept q (State.maskParity s) := by
  unfold State.maskParity
  repeat' (
    first
      | (with_reducible assumption) | (with_reducible apply State.inc_kept)
      | (with_reducible apply State.raise_kept) | (with_reducible intro _) | split | dsimp only)

theorem State.latchedParity_kept {q : List Instr} {s : State} (y : Nat) (x0 : List Nat) (kq : Kept q s) :
    Kept q (State.latchedParity s y x0) := by
  induction x0 generalizing s y with
  | nil => exact kq
  | cons a t ih =>
    unfold State.latchedParity
    repeat' (
      first
        | (with_reducible assumption) | (with_reducible apply ih) | (with_reducible apply State.maskParity_kept)
        | (with_reducible apply State.setSets_kept) | (with_reducible intro _) | split | dsimp only)

theorem State.maskMeasure_kept {q : List Instr} {s : State} (kq : Kept q s) :
    Kept q (State.maskMeasure s) := by
  unfold State.maskMeasure
  repeat' (
    first
      | (with_reducible assumption) | lift_lets
      | (intro x; have y : State := x; clear y; revert x; with_reducible apply kept_lift)
      | (intro x; have y : State := x.1; clear y; revert x; with_reducible apply kept_lift_fst)
      | (intro x; have y : State := x.2; clear y; revert x; with_reducible apply kept_lift_snd)
      | (intro x; clear_value x) | (with_reducible apply State.inc_kept) | (with_reducible apply State.put_kept)
      | simp only [kept_mk, kept_fold] | (with_reducible intro _) | (with_reducible apply kept_ite) | split
      | dsimp only)

theorem State.maskApply_kept {q : List Instr} {s : State} (kq : Kept q s) :
    Kept q (State.maskApply s) := by
  unfold State.maskApply
  repeat' (
    first
      | (with_reducible assumption) | lift_lets
      | (intro x; have y : State := x; clear y; revert x; with_reducible apply kept_lift)
      | (intro x; have y : State := x.1; clear y; revert x; with_reducible apply kept_lift_fst)
      | (intro x; have y : State := x.2; clear y; revert x; with_reducible apply kept_lift_snd)
      | (intro x; clear_value x) | (with_reducible apply State.irq_kept) | (with_reducible apply State.put_kept)
      | simp only [kept_mk, kept_fold] | (with_reducible intro _) | (with_reducible apply kept_ite) | split
      | dsimp only)

theorem State.listTimeout_kept {q : List Instr} {s : State} (kq : Kept q s) :
    Kept q (State.listTimeout s) := by
  unfold State.listTimeout
  repeat' (
    first
      | (with_reducible assumption) | lift_lets
      | (intro x; have y : State := x; clear y; revert x; with_reducible apply kept_lift)
      | (intro x; have y : State := x.1; clear y; revert x; with_reducible apply kept_lift_fst)
      | (intro x; have y : State := x.2; clear y; revert x; with_reducible apply kept_lift_snd)
      | (intro x; clear_value x) | (with_reducible apply State.irq_kept) | (with_reducible apply State.put_kept)
      | (with_reducible apply State.raise_kept) | simp only [kept_mk, kept_fold] | (with_reducible intro _)
      | split | dsimp only)

theorem execListTimeout_kept {q : List Instr} {s : State} {z : State} (kq : Kept q s)
    (hx : execListTimeout s = .next z) : Kept q z := by
  obtain rfl := Host.Outcome.next.inj hx
  repeat' (
    first
      | (with_reducible assumption) | (with_reducible apply State.listTimeout_kept)
      | (with_reducible apply State.toSlot_kept) | (with_reducible intro _) | (with_reducible apply kept_ite)
      | split | dsimp only)

theorem State.timeoutChoose_kept {q : List Instr} {s : State} (kq : Kept q s) :
    Kept q (State.timeoutChoose s) := by
  unfold State.timeoutChoose
  repeat' (
    first
      | (with_reducible assumption) | lift_lets
      | (intro x; have y : State := x; clear y; revert x; with_reducible apply kept_lift)
      | (intro x; have y : State := x.1; clear y; revert x; with_reducible apply kept_lift_fst)
      | (intro x; have y : State := x.2; clear y; revert x; with_reducible apply kept_lift_snd)
      | (intro x; clear_value x) | simp only [kept_mk, kept_fold] | (with_reducible intro _)
      | (with_reducible apply kept_ite) | split | dsimp only)

theorem State.maskChoose_kept {q : List Instr} {s : State} (kq : Kept q s) :
    Kept q (State.maskChoose s) := by
  unfold State.maskChoose
  repeat' (
    first
      | (with_reducible assumption) | lift_lets
      | (intro x; have y : State := x; clear y; revert x; with_reducible apply kept_lift)
      | (intro x; have y : State := x.1; clear y; revert x; with_reducible apply kept_lift_fst)
      | (intro x; have y : State := x.2; clear y; revert x; with_reducible apply kept_lift_snd)
      | (intro x; clear_value x) | (with_reducible apply State.put_kept)
      | (with_reducible apply State.timeoutChoose_kept) | simp only [kept_mk, kept_fold]
      | (with_reducible intro _) | (with_reducible apply kept_ite) | split | dsimp only)

theorem State.passStart_kept {q : List Instr} {s : State} (kq : Kept q s) :
    Kept q (State.passStart s) := by
  unfold State.passStart
  repeat' (
    first
      | (with_reducible assumption) | lift_lets
      | (intro x; have y : State := x; clear y; revert x; with_reducible apply kept_lift)
      | (intro x; have y : State := x.1; clear y; revert x; with_reducible apply kept_lift_fst)
      | (intro x; have y : State := x.2; clear y; revert x; with_reducible apply kept_lift_snd)
      | (intro x; clear_value x) | (with_reducible apply State.maskChoose_kept)
      | (with_reducible apply State.put_kept) | simp only [kept_mk, kept_fold] | (with_reducible intro _)
      | split | dsimp only)

theorem State.epochPass_kept {q : List Instr} {s : State} (kq : Kept q s) :
    Kept q (State.epochPass s) := by
  unfold State.epochPass
  repeat' (
    first
      | (with_reducible assumption) | lift_lets
      | (intro x; have y : State := x; clear y; revert x; with_reducible apply kept_lift)
      | (intro x; have y : State := x.1; clear y; revert x; with_reducible apply kept_lift_fst)
      | (intro x; have y : State := x.2; clear y; revert x; with_reducible apply kept_lift_snd)
      | (intro x; clear_value x) | (with_reducible apply State.inc_kept)
      | (with_reducible apply State.passStart_kept) | (with_reducible apply State.raise_kept)
      | simp only [kept_mk, kept_fold] | (with_reducible intro _) | (with_reducible apply kept_ite) | split
      | dsimp only)

theorem State.epoch_kept {q : List Instr} {s : State} (kq : Kept q s) :
    Kept q (State.epoch s) := by
  unfold State.epoch
  repeat' (
    first
      | (with_reducible assumption) | lift_lets
      | (intro x; have y : State := x; clear y; revert x; with_reducible apply kept_lift)
      | (intro x; have y : State := x.1; clear y; revert x; with_reducible apply kept_lift_fst)
      | (intro x; have y : State := x.2; clear y; revert x; with_reducible apply kept_lift_snd)
      | (intro x; clear_value x) | (with_reducible apply State.epochPass_kept)
      | (with_reducible apply State.listTimeout_kept) | simp only [kept_mk, kept_fold] | (with_reducible intro _)
      | (with_reducible apply kept_ite) | split | dsimp only)

theorem execMaskEpoch_kept {q : List Instr} {s : State} {z : State} (kq : Kept q s)
    (hx : execMaskEpoch s = .next z) : Kept q z := by
  obtain rfl := Host.Outcome.next.inj hx
  repeat' (
    first
      | (with_reducible assumption) | (with_reducible apply State.epoch_kept)
      | (with_reducible apply State.toSlot_kept) | (with_reducible intro _) | (with_reducible apply kept_ite)
      | split | dsimp only)

theorem State.passRows_kept {q : List Instr} {s : State} (upsets : List (Nat × Nat)) (x0 : List Nat) (kq : Kept q s) :
    Kept q (State.passRows s upsets x0) := by
  induction x0 generalizing s upsets with
  | nil => exact kq
  | cons a t ih =>
    unfold State.passRows
    repeat' (
      first
        | (with_reducible assumption) | (with_reducible apply ih) | lift_lets
        | (intro x; have y : State := x; clear y; revert x; with_reducible apply kept_lift)
        | (intro x; have y : State := x.1; clear y; revert x; with_reducible apply kept_lift_fst)
        | (intro x; have y : State := x.2; clear y; revert x; with_reducible apply kept_lift_snd)
        | (intro x; clear_value x) | (with_reducible apply State.classify_kept)
        | (with_reducible apply State.latchedParity_kept) | (with_reducible apply State.setTarget_kept)
        | (with_reducible intro _) | split | dsimp only)

theorem State.passGroup_kept {q : List Instr} {s : State} (j : Nat) (upsets : List (Nat × Nat)) (kq : Kept q s) :
    Kept q (State.passGroup s j upsets) := by
  unfold State.passGroup
  repeat' (
    first
      | (with_reducible assumption) | lift_lets
      | (intro x; have y : State := x; clear y; revert x; with_reducible apply kept_lift)
      | (intro x; have y : State := x.1; clear y; revert x; with_reducible apply kept_lift_fst)
      | (intro x; have y : State := x.2; clear y; revert x; with_reducible apply kept_lift_snd)
      | (intro x; clear_value x) | (with_reducible apply State.maskApply_kept)
      | (with_reducible apply State.maskMeasure_kept) | (with_reducible apply State.passRows_kept)
      | (with_reducible apply State.put_kept) | simp only [kept_mk, kept_fold] | (with_reducible intro _)
      | (with_reducible apply kept_ite) | split | dsimp only)

theorem execMaskPassGroup_kept {q : List Instr} (latchedUpsets : List (Nat × Nat)) {s : State} {z : State} (kq : Kept q s)
    (hx : execMaskPassGroup latchedUpsets s = .next z) : Kept q z := by
  obtain rfl := Host.Outcome.next.inj hx
  repeat' (
    first
      | (with_reducible assumption) | lift_lets
      | (intro x; have y : State := x; clear y; revert x; with_reducible apply kept_lift)
      | (intro x; have y : State := x.1; clear y; revert x; with_reducible apply kept_lift_fst)
      | (intro x; have y : State := x.2; clear y; revert x; with_reducible apply kept_lift_snd)
      | (intro x; clear_value x) | (with_reducible apply State.passGroup_kept)
      | (with_reducible apply State.toSlot_kept) | simp only [kept_mk, kept_fold] | (with_reducible intro _)
      | (with_reducible apply kept_ite) | split | dsimp only)

theorem State.passAbandon_kept {q : List Instr} {s : State} (kq : Kept q s) :
    Kept q (State.passAbandon s) := by
  unfold State.passAbandon
  repeat' (
    first
      | (with_reducible assumption) | lift_lets
      | (intro x; have y : State := x; clear y; revert x; with_reducible apply kept_lift)
      | (intro x; have y : State := x.1; clear y; revert x; with_reducible apply kept_lift_fst)
      | (intro x; have y : State := x.2; clear y; revert x; with_reducible apply kept_lift_snd)
      | (intro x; clear_value x) | (with_reducible apply State.put_kept) | simp only [kept_mk, kept_fold]
      | (with_reducible intro _) | (with_reducible apply kept_ite) | split | dsimp only)

theorem State.mskPixUp_kept {q : List Instr} {s : State} (kq : Kept q s) :
    Kept q (State.mskPixUp s) := by
  unfold State.mskPixUp
  repeat' (
    first
      | (with_reducible assumption) | lift_lets
      | (intro x; have y : State := x; clear y; revert x; with_reducible apply kept_lift)
      | (intro x; have y : State := x.1; clear y; revert x; with_reducible apply kept_lift_fst)
      | (intro x; have y : State := x.2; clear y; revert x; with_reducible apply kept_lift_snd)
      | (intro x; clear_value x) | (with_reducible apply State.put_kept)
      | (with_reducible apply State.setSets_kept) | simp only [kept_mk, kept_fold] | (with_reducible intro _)
      | split | dsimp only)

theorem State.writeMaskRow_kept {q : List Instr} {s : State} (y : Nat) (ws : Row) (kq : Kept q s) :
    Kept q (State.writeMaskRow s y ws) := by
  unfold State.writeMaskRow
  repeat' (
    first
      | (with_reducible assumption) | lift_lets
      | (intro x; have y : State := x; clear y; revert x; with_reducible apply kept_lift)
      | (intro x; have y : State := x.1; clear y; revert x; with_reducible apply kept_lift_fst)
      | (intro x; have y : State := x.2; clear y; revert x; with_reducible apply kept_lift_snd)
      | (intro x; clear_value x) | simp only [kept_mk, kept_fold] | (with_reducible intro _) | split
      | dsimp only)

theorem State.writeTarget_kept {q : List Instr} {s : State} (y : Nat) (cols : List Nat) (kq : Kept q s) :
    Kept q (State.writeTarget s y cols) := by
  unfold State.writeTarget
  repeat' (
    first
      | (with_reducible assumption) | lift_lets
      | (intro x; have y : State := x; clear y; revert x; with_reducible apply kept_lift)
      | (intro x; have y : State := x.1; clear y; revert x; with_reducible apply kept_lift_fst)
      | (intro x; have y : State := x.2; clear y; revert x; with_reducible apply kept_lift_snd)
      | (intro x; clear_value x) | (with_reducible apply State.maskParity_kept)
      | (with_reducible apply State.setLatched_kept) | (with_reducible apply State.writeMaskRow_kept)
      | (with_reducible apply kept_foldl) | simp only [kept_mk, kept_fold] | (with_reducible intro _)
      | (with_reducible apply kept_ite) | split | dsimp only)

theorem State.writeDark_kept {q : List Instr} {s : State} (n y : Nat) (cols : List Nat) (kq : Kept q s) :
    Kept q (State.writeDark s n y cols) := by
  unfold State.writeDark
  repeat' (
    first
      | (with_reducible assumption) | lift_lets
      | (intro x; have y : State := x; clear y; revert x; with_reducible apply kept_lift)
      | (intro x; have y : State := x.1; clear y; revert x; with_reducible apply kept_lift_fst)
      | (intro x; have y : State := x.2; clear y; revert x; with_reducible apply kept_lift_snd)
      | (intro x; clear_value x) | (with_reducible apply State.setSets_kept)
      | (with_reducible apply State.writeTarget_kept) | simp only [kept_mk, kept_fold] | (with_reducible intro _)
      | (with_reducible apply kept_ite) | split | dsimp only)

theorem State.writeScrub_kept {q : List Instr} {s : State} (cols : List Nat) (kq : Kept q s) :
    Kept q (State.writeScrub s cols) := by
  unfold State.writeScrub
  repeat' (
    first
      | (with_reducible assumption) | lift_lets
      | (intro x; have y : State := x; clear y; revert x; with_reducible apply kept_lift)
      | (intro x; have y : State := x.1; clear y; revert x; with_reducible apply kept_lift_fst)
      | (intro x; have y : State := x.2; clear y; revert x; with_reducible apply kept_lift_snd)
      | (intro x; clear_value x) | (with_reducible apply State.latchedParity_kept)
      | (with_reducible apply State.writeMaskRow_kept) | simp only [kept_mk, kept_fold] | (with_reducible intro _)
      | split | dsimp only)

theorem State.maskWrite_kept {q : List Instr} {s : State} (n : Nat) (cols : List Nat) (kq : Kept q s) :
    Kept q (State.maskWrite s n cols) := by
  unfold State.maskWrite
  repeat' (
    first
      | (with_reducible assumption) | lift_lets
      | (intro x; have y : State := x; clear y; revert x; with_reducible apply kept_lift)
      | (intro x; have y : State := x.1; clear y; revert x; with_reducible apply kept_lift_fst)
      | (intro x; have y : State := x.2; clear y; revert x; with_reducible apply kept_lift_snd)
      | (intro x; clear_value x) | (with_reducible apply State.maskApply_kept)
      | (with_reducible apply State.maskMeasure_kept) | (with_reducible apply State.setSets_kept)
      | (with_reducible apply State.writeDark_kept) | (with_reducible apply State.writeScrub_kept)
      | (with_reducible apply State.writeTarget_kept) | simp only [kept_mk, kept_fold] | (with_reducible intro _)
      | (with_reducible apply kept_ite) | split | dsimp only)

theorem execSpareSlotMaskWrite_kept {q : List Instr} (slot : BitVec 12) (upsets : List Nat) {s : State} {z : State} (kq : Kept q s)
    (hx : execSpareSlotMaskWrite slot upsets s = .next z) : Kept q z := by
  obtain rfl := Host.Outcome.next.inj hx
  repeat' (
    first
      | (with_reducible assumption) | (with_reducible apply State.maskWrite_kept)
      | (with_reducible apply State.toSlot_kept) | (with_reducible intro _) | (with_reducible apply kept_ite)
      | split | dsimp only)

theorem State.mskLine_kept {q : List Instr} {s : State} (kq : Kept q s) :
    Kept q (State.mskLine s) := by
  unfold State.mskLine
  repeat' (
    first
      | (with_reducible assumption) | lift_lets
      | (intro x; have y : State := x; clear y; revert x; with_reducible apply kept_lift)
      | (intro x; have y : State := x.1; clear y; revert x; with_reducible apply kept_lift_fst)
      | (intro x; have y : State := x.2; clear y; revert x; with_reducible apply kept_lift_snd)
      | (intro x; clear_value x) | simp only [kept_mk, kept_fold] | (with_reducible intro _) | split
      | dsimp only)

end Sys2Proof.Machine
end

