-- ==== Sys2Proof/Laws/KeptJobOps.lean ====
section
/-!
SUPPORT. The operations of Machine/JobOps.lean keep the queue and the canonical form.
-/

set_option linter.unusedSimpArgs false
set_option linter.unusedTactic false
set_option linter.unreachableTactic false

namespace Sys2Proof.Machine

theorem State.jobEnd_kept {q : List Instr} {s : State} (n st : Nat) (kq : Kept q s) :
    Kept q (State.jobEnd s n st) := by
  unfold State.jobEnd
  repeat' (
    first
      | (with_reducible assumption) | (with_reducible apply State.irq_kept)
      | (with_reducible apply State.put_kept) | (with_reducible intro _) | split | dsimp only)

theorem State.jobCommit_kept {q : List Instr} {s : State} (n : Nat) (kq : Kept q s) :
    Kept q (State.jobCommit s n) := by
  unfold State.jobCommit
  repeat' (
    first
      | (with_reducible assumption) | (with_reducible apply State.put_kept) | (with_reducible intro _) | split
      | dsimp only)

theorem State.jobEndOf_kept {q : List Instr} {s : State} (t st : Nat) (kq : Kept q s) :
    Kept q (State.jobEndOf s t st) := by
  unfold State.jobEndOf
  repeat' (
    first
      | (with_reducible assumption) | lift_lets
      | (intro x; have y : State := x; clear y; revert x; with_reducible apply kept_lift)
      | (intro x; have y : State := x.1; clear y; revert x; with_reducible apply kept_lift_fst)
      | (intro x; have y : State := x.2; clear y; revert x; with_reducible apply kept_lift_snd)
      | (intro x; clear_value x) | (with_reducible apply State.jobEnd_kept) | simp only [kept_mk, kept_fold]
      | (with_reducible intro _) | split | dsimp only)

theorem State.jobCommitOf_kept {q : List Instr} {s : State} (t : Nat) (kq : Kept q s) :
    Kept q (State.jobCommitOf s t) := by
  unfold State.jobCommitOf
  repeat' (
    first
      | (with_reducible assumption) | lift_lets
      | (intro x; have y : State := x; clear y; revert x; with_reducible apply kept_lift)
      | (intro x; have y : State := x.1; clear y; revert x; with_reducible apply kept_lift_fst)
      | (intro x; have y : State := x.2; clear y; revert x; with_reducible apply kept_lift_snd)
      | (intro x; clear_value x) | (with_reducible apply State.jobCommit_kept) | simp only [kept_mk, kept_fold]
      | (with_reducible intro _) | split | dsimp only)

end Sys2Proof.Machine
end

