-- ==== Sys2Proof/Laws/KeptMemory.lean ====
section
/-!
SUPPORT. The operations of Machine/Memory.lean keep the queue and the canonical form.
-/

set_option linter.unusedSimpArgs false
set_option linter.unusedTactic false
set_option linter.unreachableTactic false

namespace Sys2Proof.Machine

theorem State.setDir_kept {q : List Instr} {s : State} (t : Nat) (e : DirEntry) (kq : Kept q s) :
    Kept q (State.setDir s t e) := by
  unfold State.setDir
  repeat' (
    first
      | (with_reducible assumption) | lift_lets
      | (intro x; have y : State := x; clear y; revert x; with_reducible apply kept_lift)
      | (intro x; have y : State := x.1; clear y; revert x; with_reducible apply kept_lift_fst)
      | (intro x; have y : State := x.2; clear y; revert x; with_reducible apply kept_lift_snd)
      | (intro x; clear_value x) | simp only [kept_mk, kept_fold] | (with_reducible intro _) | split
      | dsimp only)

theorem State.setMem_kept {q : List Instr} {s : State} (p : Nat) (on : Bool) (kq : Kept q s) :
    Kept q (State.setMem s p on) := by
  unfold State.setMem
  repeat' (
    first
      | (with_reducible assumption) | lift_lets
      | (intro x; have y : State := x; clear y; revert x; with_reducible apply kept_lift)
      | (intro x; have y : State := x.1; clear y; revert x; with_reducible apply kept_lift_fst)
      | (intro x; have y : State := x.2; clear y; revert x; with_reducible apply kept_lift_snd)
      | (intro x; clear_value x) | (with_reducible apply State.put_kept) | (with_reducible intro _)
      | (with_reducible apply kept_ite) | split | dsimp only)

theorem State.sealRefused_kept {q : List Instr} {s : State} (reason : Nat) (kq : Kept q s) :
    Kept q (State.sealRefused s reason) := by
  unfold State.sealRefused
  repeat' (
    first
      | (with_reducible assumption) | (with_reducible apply State.put_kept) | (with_reducible intro _) | split
      | dsimp only)

theorem State.sealLost_kept {q : List Instr} {s : State} (reason : Nat) (kq : Kept q s) :
    Kept q (State.sealLost s reason) := by
  unfold State.sealLost
  repeat' (
    first
      | (with_reducible assumption) | lift_lets
      | (intro x; have y : State := x; clear y; revert x; with_reducible apply kept_lift)
      | (intro x; have y : State := x.1; clear y; revert x; with_reducible apply kept_lift_fst)
      | (intro x; have y : State := x.2; clear y; revert x; with_reducible apply kept_lift_snd)
      | (intro x; clear_value x) | (with_reducible apply State.put_kept)
      | (with_reducible apply State.sealRefused_kept) | simp only [kept_mk, kept_fold] | (with_reducible intro _)
      | split | dsimp only)

theorem State.bankLost_kept {q : List Instr} {s : State} (b : Nat) (kq : Kept q s) :
    Kept q (State.bankLost s b) := by
  unfold State.bankLost
  have h : Kept q (if s.sealIn b then s.sealLost 2 else s) := by
    split
    · exact State.sealLost_kept _ kq
    · exact kq
  exact ⟨h.1, h.2.1, h.2.2.1, sparseWf_clear _ _ h.2.2.2.1, h.2.2.2.2⟩

theorem State.tilesEmpty_kept {q : List Instr} {s : State} (reason : Nat) (kq : Kept q s) :
    Kept q (State.tilesEmpty s reason) := by
  unfold State.tilesEmpty
  have h := State.sealLost_kept reason kq
  exact ⟨h.1, h.2.1, h.2.2.1, sparseWf_nil, h.2.2.2.2⟩

theorem State.lockedWrite_kept {q : List Instr} {s : State} (i : Initiator) (a : Nat) (kq : Kept q s) :
    Kept q (State.lockedWrite s i a) := by
  unfold State.lockedWrite
  repeat' (
    first
      | (with_reducible assumption) | (with_reducible apply State.inc_kept)
      | (with_reducible apply State.raiseI_kept) | (with_reducible intro _) | split | dsimp only)

theorem State.dirFound_kept {q : List Instr} {s : State} (t : Nat) (r : DirRead) (i : FaultInfo) (kq : Kept q s) :
    Kept q (State.dirFound s t r i) := by
  unfold State.dirFound
  repeat' (
    first
      | (with_reducible assumption) | lift_lets
      | (intro x; have y : State := x; clear y; revert x; with_reducible apply kept_lift)
      | (intro x; have y : State := x.1; clear y; revert x; with_reducible apply kept_lift_fst)
      | (intro x; have y : State := x.2; clear y; revert x; with_reducible apply kept_lift_snd)
      | (intro x; clear_value x) | (with_reducible apply State.inc_kept)
      | (with_reducible apply State.raiseI_kept) | (with_reducible apply State.setDir_kept)
      | (with_reducible apply State.tick_kept) | simp only [kept_mk, kept_fold] | (with_reducible intro _)
      | split | dsimp only)

theorem State.dirTouch_kept {q : List Instr} {s : State} (t : Nat) (i : FaultInfo) (kq : Kept q s) :
    Kept q (State.dirTouch s t i) := by
  unfold State.dirTouch
  repeat' (
    first
      | (with_reducible assumption) | lift_lets
      | (intro x; have y : State := x; clear y; revert x; with_reducible apply kept_lift)
      | (intro x; have y : State := x.1; clear y; revert x; with_reducible apply kept_lift_fst)
      | (intro x; have y : State := x.2; clear y; revert x; with_reducible apply kept_lift_snd)
      | (intro x; clear_value x) | (with_reducible apply State.dirFound_kept) | simp only [kept_mk, kept_fold]
      | (with_reducible intro _) | split | dsimp only)

theorem State.dirTouches_kept {q : List Instr} {s : State} (i : FaultInfo) (x0 : List Nat) (kq : Kept q s) :
    Kept q (State.dirTouches s i x0) := by
  induction x0 generalizing s i with
  | nil => exact kq
  | cons a t ih =>
    unfold State.dirTouches
    repeat' (
      first
        | (with_reducible assumption) | (with_reducible apply ih) | (with_reducible apply State.dirTouch_kept) | (with_reducible intro _)
        | split | dsimp only)

theorem State.sealAccept_kept {q : List Instr} {s : State} (t : Nat) (self : Bool) (from_ : Nat) (kq : Kept q s) :
    Kept q (State.sealAccept s t self from_) := by
  unfold State.sealAccept
  repeat' (
    first
      | (with_reducible assumption) | lift_lets
      | (intro x; have y : State := x; clear y; revert x; with_reducible apply kept_lift)
      | (intro x; have y : State := x.1; clear y; revert x; with_reducible apply kept_lift_fst)
      | (intro x; have y : State := x.2; clear y; revert x; with_reducible apply kept_lift_snd)
      | (intro x; clear_value x) | (with_reducible apply State.dirTouch_kept)
      | (with_reducible apply State.put_kept) | (with_reducible apply State.sealRefused_kept)
      | simp only [kept_mk, kept_fold] | (with_reducible intro _) | (with_reducible apply kept_ite) | split
      | dsimp only)

theorem State.sealStart_kept {q : List Instr} {s : State} (v : Word) (from_ : Nat) (kq : Kept q s) :
    Kept q (State.sealStart s v from_) := by
  unfold State.sealStart
  repeat' (
    first
      | (with_reducible assumption) | lift_lets
      | (intro x; have y : State := x; clear y; revert x; with_reducible apply kept_lift)
      | (intro x; have y : State := x.1; clear y; revert x; with_reducible apply kept_lift_fst)
      | (intro x; have y : State := x.2; clear y; revert x; with_reducible apply kept_lift_snd)
      | (intro x; clear_value x) | (with_reducible apply State.put_kept)
      | (with_reducible apply State.sealAccept_kept) | (with_reducible apply State.sealRefused_kept)
      | (with_reducible intro _) | (with_reducible apply kept_ite) | split | dsimp only)

theorem State.sealInPost_kept {q : List Instr} {s : State} (i : Initiator) (a : Nat) (v : Word) (kq : Kept q s) :
    Kept q (State.sealInPost s i a v) := by
  unfold State.sealInPost
  repeat' (
    first
      | (with_reducible assumption) | (with_reducible apply State.sealStart_kept) | (with_reducible intro _)
      | (with_reducible apply kept_ite) | split | dsimp only)

theorem State.sealWrite_kept {q : List Instr} {s : State} (j : SealJob) (kq : Kept q s) :
    Kept q (State.sealWrite s j) := by
  unfold State.sealWrite
  repeat' (
    first
      | (with_reducible assumption) | lift_lets
      | (intro x; have y : State := x; clear y; revert x; with_reducible apply kept_lift)
      | (intro x; have y : State := x.1; clear y; revert x; with_reducible apply kept_lift_fst)
      | (intro x; have y : State := x.2; clear y; revert x; with_reducible apply kept_lift_snd)
      | (intro x; clear_value x) | (with_reducible apply State.put_kept)
      | (with_reducible apply State.setDir_kept) | simp only [kept_mk, kept_fold] | (with_reducible intro _)
      | split | dsimp only)

theorem State.sealEnd_kept {q : List Instr} {s : State} (kq : Kept q s) :
    Kept q (State.sealEnd s) := by
  unfold State.sealEnd
  repeat' (
    first
      | (with_reducible assumption) | lift_lets
      | (intro x; have y : State := x; clear y; revert x; with_reducible apply kept_lift)
      | (intro x; have y : State := x.1; clear y; revert x; with_reducible apply kept_lift_fst)
      | (intro x; have y : State := x.2; clear y; revert x; with_reducible apply kept_lift_snd)
      | (intro x; clear_value x) | (with_reducible apply State.dirTouch_kept)
      | (with_reducible apply State.sealWrite_kept) | simp only [kept_mk, kept_fold] | (with_reducible intro _)
      | split | dsimp only)

theorem State.afterSeal_kept {q : List Instr} {s : State} (ts : List Nat) (kq : Kept q s) :
    Kept q (State.afterSeal s ts) := by
  unfold State.afterSeal
  repeat' (
    first
      | (with_reducible assumption) | lift_lets
      | (intro x; have y : State := x; clear y; revert x; with_reducible apply kept_lift)
      | (intro x; have y : State := x.1; clear y; revert x; with_reducible apply kept_lift_fst)
      | (intro x; have y : State := x.2; clear y; revert x; with_reducible apply kept_lift_snd)
      | (intro x; clear_value x) | (with_reducible apply State.sealEnd_kept) | simp only [kept_mk, kept_fold]
      | (with_reducible intro _) | (with_reducible apply kept_ite) | split | dsimp only)

theorem State.dirReadEffect_kept {q : List Instr} {s : State} (t : Nat) (r : DirRead) (i : FaultInfo) (kq : Kept q s) :
    Kept q (State.dirReadEffect s t r i) := by
  unfold State.dirReadEffect
  repeat' (
    first
      | (with_reducible assumption) | (with_reducible apply State.dirFound_kept)
      | (with_reducible apply State.dirTouch_kept) | (with_reducible intro _) | split | dsimp only)

theorem State.dirHits_kept {q : List Instr} {s : State} (x0 : List (Nat × Bool)) (kq : Kept q s) :
    Kept q (State.dirHits s x0) := by
  induction x0 generalizing s with
  | nil => exact kq
  | cons a t ih =>
    unfold State.dirHits
    repeat' (
      first
        | (with_reducible assumption) | (with_reducible apply ih) | lift_lets
        | (intro x; have y : State := x; clear y; revert x; with_reducible apply kept_lift)
        | (intro x; have y : State := x.1; clear y; revert x; with_reducible apply kept_lift_fst)
        | (intro x; have y : State := x.2; clear y; revert x; with_reducible apply kept_lift_snd)
        | (intro x; clear_value x) | simp only [kept_mk, kept_fold] | (with_reducible intro _)
        | (with_reducible apply kept_ite) | split | dsimp only)

theorem State.unsealTiles_kept {q : List Instr} {s : State} (x0 : List Nat) (kq : Kept q s) :
    Kept q (State.unsealTiles s x0) := by
  induction x0 generalizing s with
  | nil => exact kq
  | cons a t ih =>
    unfold State.unsealTiles
    repeat' (
      first
        | (with_reducible assumption) | (with_reducible apply ih) | lift_lets
        | (intro x; have y : State := x; clear y; revert x; with_reducible apply kept_lift)
        | (intro x; have y : State := x.1; clear y; revert x; with_reducible apply kept_lift_fst)
        | (intro x; have y : State := x.2; clear y; revert x; with_reducible apply kept_lift_snd)
        | (intro x; clear_value x) | (with_reducible apply State.setDir_kept) | simp only [kept_mk, kept_fold]
        | (with_reducible intro _) | split | dsimp only)

theorem State.memStore_kept {q : List Instr} {s : State} (a : Nat) (bs : List Byte) (i : FaultInfo) (kq : Kept q s) :
    Kept q (State.memStore s a bs i) := by
  unfold State.memStore
  repeat' (
    first
      | (with_reducible assumption) | lift_lets
      | (intro x; have y : State := x; clear y; revert x; with_reducible apply kept_lift)
      | (intro x; have y : State := x.1; clear y; revert x; with_reducible apply kept_lift_fst)
      | (intro x; have y : State := x.2; clear y; revert x; with_reducible apply kept_lift_snd)
      | (intro x; clear_value x) | (with_reducible apply State.afterSeal_kept)
      | (with_reducible apply State.dirTouches_kept) | (with_reducible apply State.lmWrite_kept)
      | (with_reducible apply State.unsealTiles_kept) | (with_reducible intro _) | split | dsimp only)

theorem State.tileStore_kept {q : List Instr} {s : State} (t : Nat) (crc : Word) (bs : List Byte) (kq : Kept q s) :
    Kept q (State.tileStore s t crc bs) := by
  unfold State.tileStore
  repeat' (
    first
      | (with_reducible assumption) | lift_lets
      | (intro x; have y : State := x; clear y; revert x; with_reducible apply kept_lift)
      | (intro x; have y : State := x.1; clear y; revert x; with_reducible apply kept_lift_fst)
      | (intro x; have y : State := x.2; clear y; revert x; with_reducible apply kept_lift_snd)
      | (intro x; clear_value x) | (with_reducible apply State.afterSeal_kept)
      | (with_reducible apply State.lmWrite_kept) | (with_reducible apply State.setDir_kept)
      | (with_reducible intro _) | split | dsimp only)

theorem State.migrateStart_kept {q : List Instr} {s : State} (b : Nat) (kq : Kept q s) :
    Kept q (State.migrateStart s b) := by
  unfold State.migrateStart
  repeat' (
    first
      | (with_reducible assumption) | lift_lets
      | (intro x; have y : State := x; clear y; revert x; with_reducible apply kept_lift)
      | (intro x; have y : State := x.1; clear y; revert x; with_reducible apply kept_lift_fst)
      | (intro x; have y : State := x.2; clear y; revert x; with_reducible apply kept_lift_snd)
      | (intro x; clear_value x) | (with_reducible apply State.put_kept) | (with_reducible intro _)
      | (with_reducible apply kept_ite) | split | dsimp only)

theorem State.rotationGo_kept {q : List Instr} {s : State} (kq : Kept q s) :
    Kept q (State.rotationGo s) := by
  unfold State.rotationGo
  repeat' (
    first
      | (with_reducible assumption) | lift_lets
      | (intro x; have y : State := x; clear y; revert x; with_reducible apply kept_lift)
      | (intro x; have y : State := x.1; clear y; revert x; with_reducible apply kept_lift_fst)
      | (intro x; have y : State := x.2; clear y; revert x; with_reducible apply kept_lift_snd)
      | (intro x; clear_value x) | (with_reducible apply State.migrateStart_kept)
      | (with_reducible apply State.setMem_kept) | simp only [kept_mk, kept_fold] | (with_reducible intro _)
      | (with_reducible apply kept_ite) | split | dsimp only)

theorem State.nomadRest_kept {q : List Instr} {s : State} (kq : Kept q s) :
    Kept q (State.nomadRest s) := by
  unfold State.nomadRest
  repeat' (
    first
      | (with_reducible assumption) | lift_lets
      | (intro x; have y : State := x; clear y; revert x; with_reducible apply kept_lift)
      | (intro x; have y : State := x.1; clear y; revert x; with_reducible apply kept_lift_fst)
      | (intro x; have y : State := x.2; clear y; revert x; with_reducible apply kept_lift_snd)
      | (intro x; clear_value x) | (with_reducible apply State.setMem_kept) | simp only [kept_mk, kept_fold]
      | (with_reducible intro _) | (with_reducible apply kept_ite) | split | dsimp only)

theorem State.migrateTile_kept {q : List Instr} {s : State} (t : Nat) (kq : Kept q s) :
    Kept q (State.migrateTile s t) := by
  unfold State.migrateTile
  repeat' (
    first
      | (with_reducible assumption) | lift_lets
      | (intro x; have y : State := x; clear y; revert x; with_reducible apply kept_lift)
      | (intro x; have y : State := x.1; clear y; revert x; with_reducible apply kept_lift_fst)
      | (intro x; have y : State := x.2; clear y; revert x; with_reducible apply kept_lift_snd)
      | (intro x; clear_value x) | (with_reducible apply State.dirTouch_kept)
      | (with_reducible apply State.raiseI_kept) | (with_reducible apply State.setDir_kept)
      | simp only [kept_mk, kept_fold] | (with_reducible intro _) | (with_reducible apply kept_ite) | split
      | dsimp only)

theorem State.migrateCheck_kept {q : List Instr} {s : State} (x0 : List Nat) (kq : Kept q s) :
    Kept q (State.migrateCheck s x0) := by
  induction x0 generalizing s with
  | nil => exact kq
  | cons a t ih =>
    unfold State.migrateCheck
    repeat' (
      first
        | (with_reducible assumption) | (with_reducible apply ih) | (with_reducible apply State.migrateTile_kept) | (with_reducible intro _)
        | split | dsimp only)

theorem State.migrateCopy_kept {q : List Instr} {s : State} (ts : List Nat) (kq : Kept q s) :
    Kept q (State.migrateCopy s ts) := by
  unfold State.migrateCopy
  repeat' (
    first
      | (with_reducible assumption) | (with_reducible apply State.afterSeal_kept)
      | (with_reducible apply State.migrateCheck_kept) | (with_reducible intro _) | split | dsimp only)

theorem State.migrateAbandon_kept {q : List Instr} {s : State} (kq : Kept q s) :
    Kept q (State.migrateAbandon s) := by
  unfold State.migrateAbandon
  repeat' (
    first
      | (with_reducible assumption) | lift_lets
      | (intro x; have y : State := x; clear y; revert x; with_reducible apply kept_lift)
      | (intro x; have y : State := x.1; clear y; revert x; with_reducible apply kept_lift_fst)
      | (intro x; have y : State := x.2; clear y; revert x; with_reducible apply kept_lift_snd)
      | (intro x; clear_value x) | (with_reducible apply State.migrateCopy_kept)
      | (with_reducible apply State.nomadRest_kept) | (with_reducible apply State.put_kept)
      | (with_reducible apply State.tick_kept) | (with_reducible intro _) | (with_reducible apply kept_ite)
      | split | dsimp only)

theorem State.swapBank_kept {q : List Instr} {s : State} (b n : Nat) (kq : Kept q s) :
    Kept q (State.swapBank s b n) := by
  unfold State.swapBank
  repeat' (
    first
      | (with_reducible assumption) | lift_lets
      | (intro x; have y : State := x; clear y; revert x; with_reducible apply kept_lift)
      | (intro x; have y : State := x.1; clear y; revert x; with_reducible apply kept_lift_fst)
      | (intro x; have y : State := x.2; clear y; revert x; with_reducible apply kept_lift_snd)
      | (intro x; clear_value x) | (with_reducible apply State.put_kept) | simp only [kept_mk, kept_fold]
      | (with_reducible intro _) | split | dsimp only)

theorem State.rotationOff_kept {q : List Instr} {s : State} (kq : Kept q s) :
    Kept q (State.rotationOff s) := by
  unfold State.rotationOff
  repeat' (
    first
      | (with_reducible assumption) | lift_lets
      | (intro x; have y : State := x; clear y; revert x; with_reducible apply kept_lift)
      | (intro x; have y : State := x.1; clear y; revert x; with_reducible apply kept_lift_fst)
      | (intro x; have y : State := x.2; clear y; revert x; with_reducible apply kept_lift_snd)
      | (intro x; clear_value x) | (with_reducible apply State.put_kept) | simp only [kept_mk, kept_fold]
      | (with_reducible intro _) | (with_reducible apply kept_ite) | split | dsimp only)

theorem State.retireBank_kept {q : List Instr} {s : State} (p : Nat) (kq : Kept q s) :
    Kept q (State.retireBank s p) := by
  unfold State.retireBank
  repeat' (
    first
      | (with_reducible assumption) | lift_lets
      | (intro x; have y : State := x; clear y; revert x; with_reducible apply kept_lift)
      | (intro x; have y : State := x.1; clear y; revert x; with_reducible apply kept_lift_fst)
      | (intro x; have y : State := x.2; clear y; revert x; with_reducible apply kept_lift_snd)
      | (intro x; clear_value x) | (with_reducible apply State.put_kept) | (with_reducible apply State.raise_kept)
      | simp only [kept_mk, kept_fold] | (with_reducible intro _) | (with_reducible apply kept_ite) | split
      | dsimp only)

theorem State.rotateJobEnd_kept {q : List Instr} {s : State} (kq : Kept q s) :
    Kept q (State.rotateJobEnd s) := by
  unfold State.rotateJobEnd
  repeat' (
    first
      | (with_reducible assumption) | lift_lets
      | (intro x; have y : State := x; clear y; revert x; with_reducible apply kept_lift)
      | (intro x; have y : State := x.1; clear y; revert x; with_reducible apply kept_lift_fst)
      | (intro x; have y : State := x.2; clear y; revert x; with_reducible apply kept_lift_snd)
      | (intro x; clear_value x) | (with_reducible apply State.jobEndOf_kept) | simp only [kept_mk, kept_fold]
      | (with_reducible intro _) | split | dsimp only)

theorem State.bankPower_kept {q : List Instr} {s : State} (b : Nat) (on : Bool) (kq : Kept q s) :
    Kept q (State.bankPower s b on) := by
  unfold State.bankPower
  repeat' (
    first
      | (with_reducible assumption) | lift_lets
      | (intro x; have y : State := x; clear y; revert x; with_reducible apply kept_lift)
      | (intro x; have y : State := x.1; clear y; revert x; with_reducible apply kept_lift_fst)
      | (intro x; have y : State := x.2; clear y; revert x; with_reducible apply kept_lift_snd)
      | (intro x; clear_value x) | (with_reducible apply State.bankLost_kept)
      | (with_reducible apply State.migrateAbandon_kept) | (with_reducible apply State.setMem_kept)
      | simp only [kept_mk, kept_fold] | (with_reducible intro _) | (with_reducible apply kept_ite) | split
      | dsimp only)

theorem State.banksPower_kept {q : List Instr} {s : State} (en : Nat) (kq : Kept q s) :
    Kept q (State.banksPower s en) := by
  unfold State.banksPower
  repeat' (
    first
      | (with_reducible assumption) | (with_reducible apply State.bankPower_kept)
      | (with_reducible apply forUpto_keeps (P := Kept q)) | (with_reducible intro _)
      | (with_reducible apply kept_ite) | split | dsimp only)

theorem State.scanBankLost_kept {q : List Instr} {s : State} (kq : Kept q s) :
    Kept q (State.scanBankLost s) := by
  unfold State.scanBankLost
  repeat' (
    first
      | (with_reducible assumption) | lift_lets
      | (intro x; have y : State := x; clear y; revert x; with_reducible apply kept_lift)
      | (intro x; have y : State := x.1; clear y; revert x; with_reducible apply kept_lift_fst)
      | (intro x; have y : State := x.2; clear y; revert x; with_reducible apply kept_lift_snd)
      | (intro x; clear_value x) | (with_reducible apply State.jobEndOf_kept)
      | (with_reducible apply State.put_kept) | simp only [kept_mk, kept_fold] | (with_reducible intro _)
      | (with_reducible apply kept_ite) | split | dsimp only)

theorem State.rotateCheck_kept {q : List Instr} {s : State} (kq : Kept q s) :
    Kept q (State.rotateCheck s) := by
  unfold State.rotateCheck
  repeat' (
    first
      | (with_reducible assumption) | (with_reducible apply State.nomadRest_kept)
      | (with_reducible apply State.rotateJobEnd_kept) | (with_reducible intro _)
      | (with_reducible apply kept_ite) | split | dsimp only)

theorem State.bankEnWrite_kept {q : List Instr} {s : State} (v : Word) (kq : Kept q s) :
    Kept q (State.bankEnWrite s v) := by
  unfold State.bankEnWrite
  repeat' (
    first
      | (with_reducible assumption) | lift_lets
      | (intro x; have y : State := x; clear y; revert x; with_reducible apply kept_lift)
      | (intro x; have y : State := x.1; clear y; revert x; with_reducible apply kept_lift_fst)
      | (intro x; have y : State := x.2; clear y; revert x; with_reducible apply kept_lift_snd)
      | (intro x; clear_value x) | (with_reducible apply State.banksPower_kept)
      | (with_reducible apply State.put_kept) | (with_reducible apply State.rotateCheck_kept)
      | (with_reducible apply State.rotationGo_kept) | (with_reducible apply State.scanBankLost_kept)
      | (with_reducible intro _) | split | dsimp only)

theorem State.scanStart_kept {q : List Instr} {s : State} (kq : Kept q s) :
    Kept q (State.scanStart s).1 := by
  unfold State.scanStart
  repeat' (
    first
      | (with_reducible assumption) | (with_reducible apply State.put_kept) | simp only [kept_mk, kept_fold]
      | (with_reducible intro _) | (with_reducible apply kept_ite) | (with_reducible apply kept_ite_fst)
      | (with_reducible apply kept_ite_snd) | split | dsimp only)

theorem State.scanTo_kept {q : List Instr} {s : State} (j : ScanJob) (pos : Nat) (kq : Kept q s) :
    Kept q (State.scanTo s j pos) := by
  unfold State.scanTo
  repeat' (
    first
      | (with_reducible assumption) | lift_lets
      | (intro x; have y : State := x; clear y; revert x; with_reducible apply kept_lift)
      | (intro x; have y : State := x.1; clear y; revert x; with_reducible apply kept_lift_fst)
      | (intro x; have y : State := x.2; clear y; revert x; with_reducible apply kept_lift_snd)
      | (intro x; clear_value x) | (with_reducible apply State.put_kept) | simp only [kept_mk, kept_fold]
      | (with_reducible intro _) | split | dsimp only)

theorem State.scanEnd_kept {q : List Instr} {s : State} (kq : Kept q s) :
    Kept q (State.scanEnd s) := by
  unfold State.scanEnd
  repeat' (
    first
      | (with_reducible assumption) | lift_lets
      | (intro x; have y : State := x; clear y; revert x; with_reducible apply kept_lift)
      | (intro x; have y : State := x.1; clear y; revert x; with_reducible apply kept_lift_fst)
      | (intro x; have y : State := x.2; clear y; revert x; with_reducible apply kept_lift_snd)
      | (intro x; clear_value x) | (with_reducible apply State.jobCommitOf_kept)
      | (with_reducible apply State.jobEndOf_kept) | (with_reducible apply State.put_kept)
      | (with_reducible apply State.setReg_kept) | simp only [kept_mk, kept_fold] | (with_reducible intro _)
      | split | dsimp only)

theorem execSealTile_kept {q : List Instr} (i : Initiator) (v : Word) {s : State} {z : State} (kq : Kept q s)
    (hx : execSealTile i v s = .next z) : Kept q z := by
  obtain rfl := Host.Outcome.next.inj hx
  repeat' (
    first
      | (with_reducible assumption) | (with_reducible apply State.portWrite_kept)
      | (with_reducible apply State.sealInPost_kept) | (with_reducible apply State.sealStart_kept)
      | (with_reducible intro _) | split | dsimp only)

theorem State.sealDirRead_kept {q : List Instr} {s : State} (r : DirRead) (kq : Kept q s) :
    Kept q (State.sealDirRead s r) := by
  unfold State.sealDirRead
  repeat' (
    first
      | (with_reducible assumption) | lift_lets
      | (intro x; have y : State := x; clear y; revert x; with_reducible apply kept_lift)
      | (intro x; have y : State := x.1; clear y; revert x; with_reducible apply kept_lift_fst)
      | (intro x; have y : State := x.2; clear y; revert x; with_reducible apply kept_lift_snd)
      | (intro x; clear_value x) | (with_reducible apply State.dirReadEffect_kept)
      | simp only [kept_mk, kept_fold] | (with_reducible intro _) | split | dsimp only)

theorem execSealComplete_kept {q : List Instr} (dirRead : DirRead) {s : State} {z : State} (kq : Kept q s)
    (hx : execSealComplete dirRead s = .next z) : Kept q z := by
  obtain rfl := Host.Outcome.next.inj hx
  repeat' (
    first
      | (with_reducible assumption) | (with_reducible apply State.sealDirRead_kept)
      | (with_reducible apply State.sealEnd_kept) | (with_reducible intro _) | (with_reducible apply kept_ite)
      | split | dsimp only)

theorem State.nomadOn_kept {q : List Instr} {s : State} (kq : Kept q s) :
    Kept q (State.nomadOn s) := by
  unfold State.nomadOn
  repeat' (
    first
      | (with_reducible assumption) | lift_lets
      | (intro x; have y : State := x; clear y; revert x; with_reducible apply kept_lift)
      | (intro x; have y : State := x.1; clear y; revert x; with_reducible apply kept_lift_fst)
      | (intro x; have y : State := x.2; clear y; revert x; with_reducible apply kept_lift_snd)
      | (intro x; clear_value x) | (with_reducible apply State.setMem_kept) | simp only [kept_mk, kept_fold]
      | (with_reducible intro _) | (with_reducible apply kept_ite) | split | dsimp only)

theorem State.bgEnWrite_kept {q : List Instr} {s : State} (v : Word) (kq : Kept q s) :
    Kept q (State.bgEnWrite s v) := by
  unfold State.bgEnWrite
  repeat' (
    first
      | (with_reducible assumption) | lift_lets
      | (intro x; have y : State := x; clear y; revert x; with_reducible apply kept_lift)
      | (intro x; have y : State := x.1; clear y; revert x; with_reducible apply kept_lift_fst)
      | (intro x; have y : State := x.2; clear y; revert x; with_reducible apply kept_lift_snd)
      | (intro x; clear_value x) | (with_reducible apply State.migrateAbandon_kept)
      | (with_reducible apply State.nomadOn_kept) | (with_reducible apply State.nomadRest_kept)
      | (with_reducible apply State.put_kept) | (with_reducible apply State.rotationGo_kept)
      | (with_reducible intro _) | (with_reducible apply kept_ite) | split | dsimp only)

theorem execBgEnWrite_kept {q : List Instr} (i : Initiator) (v : Word) {s : State} {z : State} (kq : Kept q s)
    (hx : execBgEnWrite i v s = .next z) : Kept q z := by
  obtain rfl := Host.Outcome.next.inj hx
  repeat' (
    first
      | (with_reducible assumption) | (with_reducible apply State.bgEnWrite_kept)
      | (with_reducible apply State.portWrite_kept) | (with_reducible intro _) | split | dsimp only)

theorem execBankEnWrite_kept {q : List Instr} (i : Initiator) (v : Word) {s : State} {z : State} (kq : Kept q s)
    (hx : execBankEnWrite i v s = .next z) : Kept q z := by
  obtain rfl := Host.Outcome.next.inj hx
  repeat' (
    first
      | (with_reducible assumption) | (with_reducible apply State.bankEnWrite_kept)
      | (with_reducible apply State.portWrite_kept) | (with_reducible intro _) | split | dsimp only)

theorem execNomadDomainReady_kept {q : List Instr} {s : State} {z : State} (kq : Kept q s)
    (hx : execNomadDomainReady s = .next z) : Kept q z := by
  obtain rfl := Host.Outcome.next.inj hx
  repeat' (
    first
      | (with_reducible assumption) | lift_lets
      | (intro x; have y : State := x; clear y; revert x; with_reducible apply kept_lift)
      | (intro x; have y : State := x.1; clear y; revert x; with_reducible apply kept_lift_fst)
      | (intro x; have y : State := x.2; clear y; revert x; with_reducible apply kept_lift_snd)
      | (intro x; clear_value x) | (with_reducible apply State.rotationGo_kept) | simp only [kept_mk, kept_fold]
      | (with_reducible intro _) | (with_reducible apply kept_ite) | split | dsimp only)

theorem execMigrateDone_kept {q : List Instr} {s : State} {z : State} (kq : Kept q s)
    (hx : execMigrateDone s = .next z) : Kept q z := by
  obtain rfl := Host.Outcome.next.inj hx
  repeat' (
    first
      | (with_reducible assumption) | lift_lets
      | (intro x; have y : State := x; clear y; revert x; with_reducible apply kept_lift)
      | (intro x; have y : State := x.1; clear y; revert x; with_reducible apply kept_lift_fst)
      | (intro x; have y : State := x.2; clear y; revert x; with_reducible apply kept_lift_snd)
      | (intro x; clear_value x) | (with_reducible apply State.jobCommitOf_kept)
      | (with_reducible apply State.migrateCopy_kept) | (with_reducible apply State.swapBank_kept)
      | simp only [kept_mk, kept_fold] | (with_reducible intro _) | (with_reducible apply kept_ite) | split
      | dsimp only)

theorem execBgTestSlice_kept {q : List Instr} {s : State} {z : State} (kq : Kept q s)
    (hx : execBgTestSlice s = .next z) : Kept q z := by
  obtain rfl := Host.Outcome.next.inj hx
  repeat' (
    first
      | (with_reducible assumption) | lift_lets
      | (intro x; have y : State := x; clear y; revert x; with_reducible apply kept_lift)
      | (intro x; have y : State := x.1; clear y; revert x; with_reducible apply kept_lift_fst)
      | (intro x; have y : State := x.2; clear y; revert x; with_reducible apply kept_lift_snd)
      | (intro x; clear_value x) | (with_reducible apply State.toSlot_kept) | simp only [kept_mk, kept_fold]
      | (with_reducible intro _) | (with_reducible apply kept_ite) | split | dsimp only)

theorem State.bankTestEnd_kept {q : List Instr} {s : State} (pass : Bool) (kq : Kept q s) :
    Kept q (State.bankTestEnd s pass) := by
  unfold State.bankTestEnd
  repeat' (
    first
      | (with_reducible assumption) | lift_lets
      | (intro x; have y : State := x; clear y; revert x; with_reducible apply kept_lift)
      | (intro x; have y : State := x.1; clear y; revert x; with_reducible apply kept_lift_fst)
      | (intro x; have y : State := x.2; clear y; revert x; with_reducible apply kept_lift_snd)
      | (intro x; clear_value x) | (with_reducible apply State.inc_kept)
      | (with_reducible apply State.nomadRest_kept) | (with_reducible apply State.put_kept)
      | (with_reducible apply State.retireBank_kept) | (with_reducible apply State.rotateJobEnd_kept)
      | (with_reducible apply State.rotationGo_kept) | (with_reducible apply State.setMem_kept)
      | simp only [kept_mk, kept_fold] | (with_reducible intro _) | (with_reducible apply kept_ite) | split
      | dsimp only)

theorem execBankTestDone_kept {q : List Instr} (pass : Bool) {s : State} {z : State} (kq : Kept q s)
    (hx : execBankTestDone pass s = .next z) : Kept q z := by
  obtain rfl := Host.Outcome.next.inj hx
  repeat' (
    first
      | (with_reducible assumption) | (with_reducible apply State.bankTestEnd_kept) | (with_reducible intro _)
      | (with_reducible apply kept_ite) | split | dsimp only)

theorem execScanComplete_kept {q : List Instr} {s : State} {z : State} (kq : Kept q s)
    (hx : execScanComplete s = .next z) : Kept q z := by
  obtain rfl := Host.Outcome.next.inj hx
  repeat' (
    first
      | (with_reducible assumption) | (with_reducible apply State.scanEnd_kept) | (with_reducible intro _)
      | (with_reducible apply kept_ite) | split | dsimp only)

end Sys2Proof.Machine
end

