-- ==== Sys2Proof/Laws/KeptLayers.lean ====
section
/-!
SUPPORT. The operations of Machine/Layers.lean keep the queue and the canonical form.
-/

set_option linter.unusedSimpArgs false
set_option linter.unusedTactic false
set_option linter.unreachableTactic false

namespace Sys2Proof.Machine

theorem State.ttWrite_kept {q : List Instr} {s : State} (k v : Nat) (kq : Kept q s) :
    Kept q (State.ttWrite s k v) := by
  unfold State.ttWrite
  repeat' (
    first
      | (with_reducible assumption) | lift_lets
      | (intro x; have y : State := x; clear y; revert x; with_reducible apply kept_lift)
      | (intro x; have y : State := x.1; clear y; revert x; with_reducible apply kept_lift_fst)
      | (intro x; have y : State := x.2; clear y; revert x; with_reducible apply kept_lift_snd)
      | (intro x; clear_value x) | simp only [kept_mk, kept_fold] | (with_reducible intro _) | split
      | dsimp only)

theorem State.coefWrite_kept {q : List Instr} {s : State} (k v : Nat) (kq : Kept q s) :
    Kept q (State.coefWrite s k v) := by
  unfold State.coefWrite
  repeat' (
    first
      | (with_reducible assumption) | lift_lets
      | (intro x; have y : State := x; clear y; revert x; with_reducible apply kept_lift)
      | (intro x; have y : State := x.1; clear y; revert x; with_reducible apply kept_lift_fst)
      | (intro x; have y : State := x.2; clear y; revert x; with_reducible apply kept_lift_snd)
      | (intro x; clear_value x) | simp only [kept_mk, kept_fold] | (with_reducible intro _) | split
      | dsimp only)

end Sys2Proof.Machine
end

