-- ==== Sys2Proof/Laws/KeptCompositor.lean ====
section
/-!
SUPPORT. The operations of Machine/Compositor.lean keep the queue and the canonical form.
-/

set_option linter.unusedSimpArgs false
set_option linter.unusedTactic false
set_option linter.unreachableTactic false

namespace Sys2Proof.Machine

theorem execBandFetchStart_kept {q : List Instr} {s : State} {z : State} (kq : Kept q s)
    (hx : execBandFetchStart s = .next z) : Kept q z := by
  obtain rfl := Host.Outcome.next.inj hx
  repeat' (
    first
      | (with_reducible assumption) | lift_lets
      | (intro x; have y : State := x; clear y; revert x; with_reducible apply kept_lift)
      | (intro x; have y : State := x.1; clear y; revert x; with_reducible apply kept_lift_fst)
      | (intro x; have y : State := x.2; clear y; revert x; with_reducible apply kept_lift_snd)
      | (intro x; clear_value x) | simp only [kept_mk, kept_fold] | (with_reducible intro _)
      | (with_reducible apply kept_ite) | split | dsimp only)

theorem State.flipBytes_kept {q : List Instr} {s : State} (t : Nat) (x0 : List (Nat × Byte)) (kq : Kept q s) :
    Kept q (State.flipBytes s t x0) := by
  induction x0 generalizing s t with
  | nil => exact kq
  | cons a t ih =>
    unfold State.flipBytes
    repeat' (
      first
        | (with_reducible assumption) | (with_reducible apply ih) | (with_reducible apply State.lmWrite_kept) | (with_reducible intro _)
        | split | dsimp only)

theorem State.fetchTile_kept {q : List Instr} {s : State} (t : Nat) (kq : Kept q s) :
    Kept q (State.fetchTile s t).2 := by
  unfold State.fetchTile
  repeat' (
    first
      | (with_reducible assumption) | lift_lets
      | (intro x; have y : State := x; clear y; revert x; with_reducible apply kept_lift)
      | (intro x; have y : State := x.1; clear y; revert x; with_reducible apply kept_lift_fst)
      | (intro x; have y : State := x.2; clear y; revert x; with_reducible apply kept_lift_snd)
      | (intro x; clear_value x) | (with_reducible apply State.inc_kept) | (with_reducible apply State.irq_kept)
      | (with_reducible apply State.raise_kept) | (with_reducible apply State.raiseI_kept)
      | (with_reducible apply State.setDir_kept) | simp only [kept_mk, kept_fold] | (with_reducible intro _)
      | (with_reducible apply kept_ite) | (with_reducible apply kept_ite_fst)
      | (with_reducible apply kept_ite_snd) | split | dsimp only)

theorem execTileCrcCheck_kept {q : List Instr} (upsets : List (Nat × Byte)) (dirRead : DirRead) {s : State} {z : State} (kq : Kept q s)
    (hx : execTileCrcCheck upsets dirRead s = .next z) : Kept q z := by
  obtain rfl := Host.Outcome.next.inj hx
  repeat' (
    first
      | (with_reducible assumption) | (with_reducible apply State.afterSeal_kept)
      | (with_reducible apply State.dirReadEffect_kept) | (with_reducible apply State.fetchTile_kept)
      | (with_reducible apply State.flipBytes_kept) | simp only [kept_mk, kept_fold] | (with_reducible intro _)
      | (with_reducible apply kept_ite) | (with_reducible apply kept_ite_fst)
      | (with_reducible apply kept_ite_snd) | split | dsimp only)

theorem State.sigInvalid_kept {q : List Instr} {s : State} (kq : Kept q s) :
    Kept q (State.sigInvalid s) := by
  unfold State.sigInvalid
  repeat' (
    first
      | (with_reducible assumption) | (with_reducible apply State.putB_kept)
      | (with_reducible apply forUpto_keeps (P := Kept q)) | (with_reducible intro _)
      | (with_reducible apply kept_ite) | split | dsimp only)

theorem State.outTap_kept {q : List Instr} {s : State} (y : Nat) (row : List Nat) (kq : Kept q s) :
    Kept q (State.outTap s y row) := by
  unfold State.outTap
  repeat' (
    first
      | (with_reducible assumption) | lift_lets
      | (intro x; have y : State := x; clear y; revert x; with_reducible apply kept_lift)
      | (intro x; have y : State := x.1; clear y; revert x; with_reducible apply kept_lift_fst)
      | (intro x; have y : State := x.2; clear y; revert x; with_reducible apply kept_lift_snd)
      | (intro x; clear_value x) | (with_reducible apply forUpto_keeps (P := Kept q))
      | simp only [kept_mk, kept_fold] | (with_reducible intro _) | (with_reducible apply kept_ite) | split
      | dsimp only)

theorem State.underrunReport_kept {q : List Instr} {s : State} (i : Nat) (r : LayerRow) (kq : Kept q s) :
    Kept q (State.underrunReport s i r) := by
  unfold State.underrunReport
  repeat' (
    first
      | (with_reducible assumption) | lift_lets
      | (intro x; have y : State := x; clear y; revert x; with_reducible apply kept_lift)
      | (intro x; have y : State := x.1; clear y; revert x; with_reducible apply kept_lift_fst)
      | (intro x; have y : State := x.2; clear y; revert x; with_reducible apply kept_lift_snd)
      | (intro x; clear_value x) | (with_reducible apply State.inc_kept) | (with_reducible apply State.irq_kept)
      | (with_reducible apply State.put_kept) | (with_reducible apply State.raise_kept) | (with_reducible intro _)
      | (with_reducible apply kept_ite) | split | dsimp only)

theorem State.composeLayer_kept {q : List Instr} {s : State} (y i limit : Nat) (acc : List Nat) (kq : Kept q s) :
    Kept q (State.composeLayer s y i limit acc).2 := by
  unfold State.composeLayer
  repeat' (
    first
      | (with_reducible assumption) | (with_reducible apply State.underrunReport_kept)
      | simp only [kept_mk, kept_fold] | (with_reducible intro _) | split | dsimp only)

theorem State.composeLayers_kept {q : List Instr} {s : State} (y : Nat) (limit : Nat → Nat) (is : List Nat) (acc : List Nat)
    (kq : Kept q s) : Kept q (s.composeLayers y limit is acc).2 := by
  induction is generalizing s acc with
  | nil => exact kq
  | cons i is ih => exact ih _ (State.composeLayer_kept y i (limit i) acc kq)

theorem State.composeRow_kept {q : List Instr} {s : State} (y : Nat) (limit : Nat → Nat) (kq : Kept q s) :
    Kept q (State.composeRow s y limit) := by
  unfold State.composeRow
  repeat' (
    first
      | (with_reducible assumption) | (with_reducible apply State.composeLayers_kept)
      | (with_reducible apply State.outTap_kept) | simp only [kept_mk, kept_fold] | (with_reducible intro _)
      | (with_reducible apply kept_ite) | split | dsimp only)

theorem State.parityUpsets_kept {q : List Instr} {s : State} (tt coef : List Nat) (kq : Kept q s) :
    Kept q (State.parityUpsets s tt coef) := by
  unfold State.parityUpsets
  repeat' (
    first
      | (with_reducible assumption) | lift_lets
      | (intro x; have y : State := x; clear y; revert x; with_reducible apply kept_lift)
      | (intro x; have y : State := x.1; clear y; revert x; with_reducible apply kept_lift_fst)
      | (intro x; have y : State := x.2; clear y; revert x; with_reducible apply kept_lift_snd)
      | (intro x; clear_value x) | simp only [kept_mk, kept_fold] | (with_reducible intro _) | split
      | dsimp only)

theorem execRowComposition_kept {q : List Instr} (ttUpsets coefUpsets : List Nat) {s : State} {z : State} (kq : Kept q s)
    (hx : execRowComposition ttUpsets coefUpsets s = .next z) : Kept q z := by
  obtain rfl := Host.Outcome.next.inj hx
  repeat' (
    first
      | (with_reducible assumption) | (with_reducible apply State.composeRow_kept)
      | (with_reducible apply State.parityUpsets_kept) | (with_reducible intro _)
      | (with_reducible apply kept_ite) | split | dsimp only)

theorem State.composeLate_kept {q : List Instr} {s : State} (y : Nat) (delivered : List Nat) (kq : Kept q s) :
    Kept q (State.composeLate s y delivered) := by
  unfold State.composeLate
  repeat' (
    first
      | (with_reducible assumption) | (with_reducible apply State.composeRow_kept) | (with_reducible intro _)
      | (with_reducible apply kept_ite) | split | dsimp only)

theorem State.skipRow_kept {q : List Instr} {s : State} (kq : Kept q s) :
    Kept q (State.skipRow s) := by
  unfold State.skipRow
  repeat' (
    first
      | (with_reducible assumption) | lift_lets
      | (intro x; have y : State := x; clear y; revert x; with_reducible apply kept_lift)
      | (intro x; have y : State := x.1; clear y; revert x; with_reducible apply kept_lift_fst)
      | (intro x; have y : State := x.2; clear y; revert x; with_reducible apply kept_lift_snd)
      | (intro x; clear_value x) | (with_reducible apply State.inc_kept) | (with_reducible apply State.irq_kept)
      | (with_reducible apply State.put_kept) | (with_reducible apply State.raise_kept)
      | simp only [kept_mk, kept_fold] | (with_reducible intro _) | (with_reducible apply kept_ite) | split
      | dsimp only)

theorem execOutStall_kept {q : List Instr} {s : State} {z : State} (kq : Kept q s)
    (hx : execOutStall s = .next z) : Kept q z := by
  obtain rfl := Host.Outcome.next.inj hx
  repeat' (
    first
      | (with_reducible assumption) | lift_lets
      | (intro x; have y : State := x; clear y; revert x; with_reducible apply kept_lift)
      | (intro x; have y : State := x.1; clear y; revert x; with_reducible apply kept_lift_fst)
      | (intro x; have y : State := x.2; clear y; revert x; with_reducible apply kept_lift_snd)
      | (intro x; clear_value x) | (with_reducible apply State.inc_kept) | (with_reducible apply State.raise_kept)
      | simp only [kept_mk, kept_fold] | (with_reducible intro _) | (with_reducible apply kept_ite) | split
      | dsimp only)

theorem State.ttInc_kept {q : List Instr} {s : State} (kq : Kept q s) :
    Kept q (State.ttInc s) := by
  unfold State.ttInc
  repeat' (
    first
      | (with_reducible assumption) | (with_reducible apply State.put_kept) | (with_reducible intro _)
      | (with_reducible apply kept_ite) | split | dsimp only)

theorem State.ttDataRead_kept {q : List Instr} {s : State} (kq : Kept q s) :
    Kept q (State.ttDataRead s).2 := by
  unfold State.ttDataRead
  repeat' (
    first
      | (with_reducible assumption) | (with_reducible apply State.put_kept)
      | (with_reducible apply State.ttInc_kept) | (with_reducible intro _) | (with_reducible apply kept_ite)
      | (with_reducible apply kept_ite_fst) | (with_reducible apply kept_ite_snd) | split | dsimp only)

theorem State.ttDataWrite_kept {q : List Instr} {s : State} (v : Word) (kq : Kept q s) :
    Kept q (State.ttDataWrite s v) := by
  unfold State.ttDataWrite
  repeat' (
    first
      | (with_reducible assumption) | (with_reducible apply State.put_kept)
      | (with_reducible apply State.ttInc_kept) | (with_reducible apply State.ttWrite_kept)
      | (with_reducible intro _) | (with_reducible apply kept_ite) | split | dsimp only)

theorem execCmpTtDataRead_kept {q : List Instr} (i : Initiator) {s : State} {z : State} (kq : Kept q s)
    (hx : execCmpTtDataRead i s = .next z) : Kept q z := by
  obtain rfl := Host.Outcome.next.inj hx
  repeat' (
    first
      | (with_reducible assumption) | (with_reducible apply State.portRead_kept)
      | (with_reducible apply State.ttDataRead_kept) | (with_reducible intro _) | split | dsimp only)

theorem execCmpTtDataWrite_kept {q : List Instr} (i : Initiator) (v : Word) {s : State} {z : State} (kq : Kept q s)
    (hx : execCmpTtDataWrite i v s = .next z) : Kept q z := by
  obtain rfl := Host.Outcome.next.inj hx
  repeat' (
    first
      | (with_reducible assumption) | (with_reducible apply State.portWrite_kept)
      | (with_reducible apply State.ttDataWrite_kept) | (with_reducible intro _) | split | dsimp only)

theorem State.coefInc_kept {q : List Instr} {s : State} (kq : Kept q s) :
    Kept q (State.coefInc s) := by
  unfold State.coefInc
  repeat' (
    first
      | (with_reducible assumption) | lift_lets
      | (intro x; have y : State := x; clear y; revert x; with_reducible apply kept_lift)
      | (intro x; have y : State := x.1; clear y; revert x; with_reducible apply kept_lift_fst)
      | (intro x; have y : State := x.2; clear y; revert x; with_reducible apply kept_lift_snd)
      | (intro x; clear_value x) | (with_reducible apply State.put_kept) | (with_reducible intro _)
      | (with_reducible apply kept_ite) | split | dsimp only)

theorem State.coefDataRead_kept {q : List Instr} {s : State} (kq : Kept q s) :
    Kept q (State.coefDataRead s).2 := by
  unfold State.coefDataRead
  repeat' (
    first
      | (with_reducible assumption) | (with_reducible apply State.coefInc_kept)
      | (with_reducible apply State.put_kept) | (with_reducible intro _) | (with_reducible apply kept_ite)
      | (with_reducible apply kept_ite_fst) | (with_reducible apply kept_ite_snd) | split | dsimp only)

theorem State.coefDataWrite_kept {q : List Instr} {s : State} (v : Word) (kq : Kept q s) :
    Kept q (State.coefDataWrite s v) := by
  unfold State.coefDataWrite
  repeat' (
    first
      | (with_reducible assumption) | (with_reducible apply State.coefInc_kept)
      | (with_reducible apply State.coefWrite_kept) | (with_reducible apply State.put_kept)
      | (with_reducible intro _) | (with_reducible apply kept_ite) | split | dsimp only)

theorem execSclCoefDataRead_kept {q : List Instr} (i : Initiator) {s : State} {z : State} (kq : Kept q s)
    (hx : execSclCoefDataRead i s = .next z) : Kept q z := by
  obtain rfl := Host.Outcome.next.inj hx
  repeat' (
    first
      | (with_reducible assumption) | (with_reducible apply State.coefDataRead_kept)
      | (with_reducible apply State.portRead_kept) | (with_reducible intro _) | split | dsimp only)

theorem execSclCoefDataWrite_kept {q : List Instr} (i : Initiator) (v : Word) {s : State} {z : State} (kq : Kept q s)
    (hx : execSclCoefDataWrite i v s = .next z) : Kept q z := by
  obtain rfl := Host.Outcome.next.inj hx
  repeat' (
    first
      | (with_reducible assumption) | (with_reducible apply State.coefDataWrite_kept)
      | (with_reducible apply State.portWrite_kept) | (with_reducible intro _) | split | dsimp only)

end Sys2Proof.Machine
end

