-- ==== Sys2Proof/Laws/KeptLum.lean ====
section
/-!
SUPPORT. The operations of Machine/Lum.lean keep the queue and the canonical form.
-/

set_option linter.unusedSimpArgs false
set_option linter.unusedTactic false
set_option linter.unreachableTactic false

namespace Sys2Proof.Machine

theorem State.gainLoad_kept {q : List Instr} {s : State} (code y : Nat) (kq : Kept q s) :
    Kept q (State.gainLoad s code y) := by
  unfold State.gainLoad
  repeat' (
    first
      | (with_reducible assumption) | lift_lets
      | (intro x; have y : State := x; clear y; revert x; with_reducible apply kept_lift)
      | (intro x; have y : State := x.1; clear y; revert x; with_reducible apply kept_lift_fst)
      | (intro x; have y : State := x.2; clear y; revert x; with_reducible apply kept_lift_snd)
      | (intro x; clear_value x) | (with_reducible apply State.raise_kept) | simp only [kept_mk, kept_fold]
      | (with_reducible intro _) | (with_reducible apply kept_ite) | split | dsimp only)

theorem State.gainReload_kept {q : List Instr} {s : State} (v : Word) (kq : Kept q s) :
    Kept q (State.gainReload s v) := by
  unfold State.gainReload
  repeat' (
    first
      | (with_reducible assumption) | lift_lets
      | (intro x; have y : State := x; clear y; revert x; with_reducible apply kept_lift)
      | (intro x; have y : State := x.1; clear y; revert x; with_reducible apply kept_lift_fst)
      | (intro x; have y : State := x.2; clear y; revert x; with_reducible apply kept_lift_snd)
      | (intro x; clear_value x) | (with_reducible apply State.put_kept) | simp only [kept_mk, kept_fold]
      | (with_reducible intro _) | (with_reducible apply kept_ite) | split | dsimp only)

theorem execGainReload_kept {q : List Instr} (i : Initiator) (v : Word) {s : State} {z : State} (kq : Kept q s)
    (hx : execGainReload i v s = .next z) : Kept q z := by
  obtain rfl := Host.Outcome.next.inj hx
  repeat' (
    first
      | (with_reducible assumption) | (with_reducible apply State.gainReload_kept)
      | (with_reducible apply State.portWrite_kept) | (with_reducible intro _) | split | dsimp only)

theorem execGainReloadRow_kept {q : List Instr} {s : State} {z : State} (kq : Kept q s)
    (hx : execGainReloadRow s = .next z) : Kept q z := by
  obtain rfl := Host.Outcome.next.inj hx
  repeat' (
    first
      | (with_reducible assumption) | lift_lets
      | (intro x; have y : State := x; clear y; revert x; with_reducible apply kept_lift)
      | (intro x; have y : State := x.1; clear y; revert x; with_reducible apply kept_lift_fst)
      | (intro x; have y : State := x.2; clear y; revert x; with_reducible apply kept_lift_snd)
      | (intro x; clear_value x) | (with_reducible apply State.gainLoad_kept)
      | (with_reducible apply State.put_kept) | simp only [kept_mk, kept_fold] | (with_reducible intro _)
      | (with_reducible apply kept_ite) | split | dsimp only)

theorem State.mapUpset_kept {q : List Instr} {s : State} (y : Nat) (u : MapUpset) (kq : Kept q s) :
    Kept q (State.mapUpset s y u) := by
  unfold State.mapUpset
  repeat' (
    first
      | (with_reducible assumption) | lift_lets
      | (intro x; have y : State := x; clear y; revert x; with_reducible apply kept_lift)
      | (intro x; have y : State := x.1; clear y; revert x; with_reducible apply kept_lift_fst)
      | (intro x; have y : State := x.2; clear y; revert x; with_reducible apply kept_lift_snd)
      | (intro x; clear_value x) | simp only [kept_mk, kept_fold] | (with_reducible intro _)
      | (with_reducible apply kept_ite) | split | dsimp only)

theorem State.mapCheck_kept {q : List Instr} {s : State} (y : Nat) (x0 : List (Nat × Nat)) (kq : Kept q s) :
    Kept q (State.mapCheck s y x0) := by
  induction x0 generalizing s y with
  | nil => exact kq
  | cons a t ih =>
    unfold State.mapCheck
    repeat' (
      first
        | (with_reducible assumption) | (with_reducible apply ih) | lift_lets
        | (intro x; have y : State := x; clear y; revert x; with_reducible apply kept_lift)
        | (intro x; have y : State := x.1; clear y; revert x; with_reducible apply kept_lift_fst)
        | (intro x; have y : State := x.2; clear y; revert x; with_reducible apply kept_lift_snd)
        | (intro x; clear_value x) | (with_reducible apply State.inc_kept) | (with_reducible apply State.raise_kept)
        | simp only [kept_mk, kept_fold] | (with_reducible intro _) | (with_reducible apply kept_ite) | split
        | dsimp only)

theorem State.setUse_kept {q : List Instr} {s : State} (b k : Nat) (kq : Kept q s) :
    Kept q (State.setUse s b k) := by
  unfold State.setUse
  repeat' (
    first
      | (with_reducible assumption) | lift_lets
      | (intro x; have y : State := x; clear y; revert x; with_reducible apply kept_lift)
      | (intro x; have y : State := x.1; clear y; revert x; with_reducible apply kept_lift_fst)
      | (intro x; have y : State := x.2; clear y; revert x; with_reducible apply kept_lift_snd)
      | (intro x; clear_value x) | simp only [kept_mk, kept_fold] | (with_reducible intro _)
      | (with_reducible apply kept_ite) | split | dsimp only)

theorem State.oasisRowCheck_kept {q : List Instr} {s : State} (b v : Nat) (kq : Kept q s) :
    Kept q (State.oasisRowCheck s b v).1 := by
  unfold State.oasisRowCheck
  repeat' (
    first
      | (with_reducible assumption) | lift_lets
      | (intro x; have y : State := x; clear y; revert x; with_reducible apply kept_lift)
      | (intro x; have y : State := x.1; clear y; revert x; with_reducible apply kept_lift_fst)
      | (intro x; have y : State := x.2; clear y; revert x; with_reducible apply kept_lift_snd)
      | (intro x; clear_value x) | (with_reducible apply State.copyInvalid_kept)
      | (with_reducible apply State.ownC4_kept) | (with_reducible apply State.setUse_kept)
      | (with_reducible intro _) | (with_reducible apply kept_ite) | (with_reducible apply kept_ite_fst)
      | (with_reducible apply kept_ite_snd) | split | dsimp only)

theorem State.sourceSample_kept {q : List Instr} {s : State} (kq : Kept q s) :
    Kept q (State.sourceSample s) := by
  unfold State.sourceSample
  repeat' (
    first
      | (with_reducible assumption) | lift_lets
      | (intro x; have y : State := x; clear y; revert x; with_reducible apply kept_lift)
      | (intro x; have y : State := x.1; clear y; revert x; with_reducible apply kept_lift_fst)
      | (intro x; have y : State := x.2; clear y; revert x; with_reducible apply kept_lift_snd)
      | (intro x; clear_value x) | (with_reducible apply State.put_kept) | (with_reducible apply State.putB_kept)
      | (with_reducible intro _) | (with_reducible apply kept_ite) | split | dsimp only)

theorem State.gainParity_kept {q : List Instr} {s : State} (y : Nat) (x0 : List Nat) (kq : Kept q s) :
    Kept q (State.gainParity s y x0) := by
  induction x0 generalizing s y with
  | nil => exact kq
  | cons a t ih =>
    unfold State.gainParity
    repeat' (
      first
        | (with_reducible assumption) | (with_reducible apply ih) | (with_reducible apply State.inc_kept)
        | (with_reducible apply State.raise_kept) | (with_reducible intro _) | split | dsimp only)

theorem State.lumProcess_kept {q : List Instr} {s : State} (y : Nat) (row : Row) (gainUpsets : List Nat) (mapUpsets : List MapUpset) (kq : Kept q s) :
    Kept q (State.lumProcess s y row gainUpsets mapUpsets) := by
  unfold State.lumProcess
  repeat' (
    first
      | (with_reducible assumption) | lift_lets
      | (intro x; have y : State := x; clear y; revert x; with_reducible apply kept_lift)
      | (intro x; have y : State := x.1; clear y; revert x; with_reducible apply kept_lift_fst)
      | (intro x; have y : State := x.2; clear y; revert x; with_reducible apply kept_lift_snd)
      | (intro x; clear_value x) | (with_reducible apply State.gainLoad_kept)
      | (with_reducible apply State.gainParity_kept) | (with_reducible apply State.mapCheck_kept)
      | (with_reducible apply State.mapUpset_kept) | (with_reducible apply kept_foldl)
      | simp only [kept_mk, kept_fold] | (with_reducible intro _) | (with_reducible apply kept_ite) | split
      | dsimp only)

theorem State.takeRow_kept {q : List Instr} {s : State} (y : Nat) (kq : Kept q s) :
    Kept q (State.takeRow s y).2 := by
  unfold State.takeRow
  repeat' (
    first
      | (with_reducible assumption) | lift_lets
      | (intro x; have y : State := x; clear y; revert x; with_reducible apply kept_lift)
      | (intro x; have y : State := x.1; clear y; revert x; with_reducible apply kept_lift_fst)
      | (intro x; have y : State := x.2; clear y; revert x; with_reducible apply kept_lift_snd)
      | (intro x; clear_value x) | simp only [kept_mk, kept_fold] | (with_reducible intro _) | split
      | dsimp only)

theorem State.lumLine_kept {q : List Instr} {s : State} (gainUpsets : List Nat) (mapUpsets : List MapUpset) (kq : Kept q s) :
    Kept q (State.lumLine s gainUpsets mapUpsets) := by
  unfold State.lumLine
  repeat' (
    first
      | (with_reducible assumption) | lift_lets
      | (intro x; have y : State := x; clear y; revert x; with_reducible apply kept_lift)
      | (intro x; have y : State := x.1; clear y; revert x; with_reducible apply kept_lift_fst)
      | (intro x; have y : State := x.2; clear y; revert x; with_reducible apply kept_lift_snd)
      | (intro x; clear_value x) | (with_reducible apply State.lumProcess_kept)
      | (with_reducible apply State.oasisRowCheck_kept) | (with_reducible apply State.sourceSample_kept)
      | (with_reducible apply State.takeRow_kept) | simp only [kept_mk, kept_fold] | (with_reducible intro _)
      | (with_reducible apply kept_ite) | split | dsimp only)

theorem State.deadline_kept {q : List Instr} {s : State} (y : Nat) (delivered gain : List Nat) (map : List MapUpset) (kq : Kept q s) :
    Kept q (State.deadline s y delivered gain map) := by
  unfold State.deadline
  repeat' (
    first
      | (with_reducible assumption) | (with_reducible apply State.composeLate_kept)
      | (with_reducible apply State.lumProcess_kept) | (with_reducible apply State.takeRow_kept)
      | (with_reducible intro _) | (with_reducible apply kept_ite) | split | dsimp only)

theorem execCompositionDeadline_kept {q : List Instr} (d : Delivered) {s : State} {z : State} (kq : Kept q s)
    (hx : execCompositionDeadline d s = .next z) : Kept q z := by
  obtain rfl := Host.Outcome.next.inj hx
  repeat' (
    first
      | (with_reducible assumption) | lift_lets
      | (intro x; have y : State := x; clear y; revert x; with_reducible apply kept_lift)
      | (intro x; have y : State := x.1; clear y; revert x; with_reducible apply kept_lift_fst)
      | (intro x; have y : State := x.2; clear y; revert x; with_reducible apply kept_lift_snd)
      | (intro x; clear_value x) | (with_reducible apply State.deadline_kept) | simp only [kept_mk, kept_fold]
      | (with_reducible intro _) | (with_reducible apply kept_ite) | split | dsimp only)

theorem State.deadlineOver_kept {q : List Instr} {s : State} (kq : Kept q s) :
    Kept q (State.deadlineOver s) := by
  unfold State.deadlineOver
  repeat' (
    first
      | (with_reducible assumption) | lift_lets
      | (intro x; have y : State := x; clear y; revert x; with_reducible apply kept_lift)
      | (intro x; have y : State := x.1; clear y; revert x; with_reducible apply kept_lift_fst)
      | (intro x; have y : State := x.2; clear y; revert x; with_reducible apply kept_lift_snd)
      | (intro x; clear_value x) | (with_reducible apply State.deadline_kept)
      | (with_reducible apply State.tick_kept) | simp only [kept_mk, kept_fold] | (with_reducible intro _)
      | split | dsimp only)

theorem State.limiterLower_kept {q : List Instr} {s : State} (lf : Nat) (kq : Kept q s) :
    Kept q (State.limiterLower s lf) := by
  unfold State.limiterLower
  repeat' (
    first
      | (with_reducible assumption) | lift_lets
      | (intro x; have y : State := x; clear y; revert x; with_reducible apply kept_lift)
      | (intro x; have y : State := x.1; clear y; revert x; with_reducible apply kept_lift_fst)
      | (intro x; have y : State := x.2; clear y; revert x; with_reducible apply kept_lift_snd)
      | (intro x; clear_value x) | (with_reducible apply State.inc_kept) | (with_reducible apply State.put_kept)
      | simp only [kept_mk, kept_fold] | (with_reducible intro _) | split | dsimp only)

theorem State.peakForm_kept {q : List Instr} {s : State} (d lf : Nat) (kq : Kept q s) :
    Kept q (State.peakForm s d lf) := by
  unfold State.peakForm
  repeat' (
    first
      | (with_reducible assumption) | simp only [kept_mk, kept_fold] | (with_reducible intro _)
      | (with_reducible apply kept_ite) | split | dsimp only)

theorem State.limiter_kept {q : List Instr} {s : State} (r : LumRow) (kq : Kept q s) :
    Kept q (State.limiter s r) := by
  unfold State.limiter
  repeat' (
    first
      | (with_reducible assumption) | (with_reducible apply State.limiterLower_kept)
      | (with_reducible apply State.peakForm_kept) | (with_reducible apply State.raise_kept)
      | simp only [kept_mk, kept_fold] | (with_reducible intro _) | (with_reducible apply kept_ite) | split
      | dsimp only)

theorem State.limiterRaise_kept {q : List Instr} {s : State} (kq : Kept q s) :
    Kept q (State.limiterRaise s) := by
  unfold State.limiterRaise
  repeat' (
    first
      | (with_reducible assumption) | lift_lets
      | (intro x; have y : State := x; clear y; revert x; with_reducible apply kept_lift)
      | (intro x; have y : State := x.1; clear y; revert x; with_reducible apply kept_lift_fst)
      | (intro x; have y : State := x.2; clear y; revert x; with_reducible apply kept_lift_snd)
      | (intro x; clear_value x) | (with_reducible apply State.put_kept) | (with_reducible apply State.raise_kept)
      | simp only [kept_mk, kept_fold] | (with_reducible intro _) | split | dsimp only)

theorem State.demandWrite_kept {q : List Instr} {s : State} (r : LumRow) (kq : Kept q s) :
    Kept q (State.demandWrite s r) := by
  unfold State.demandWrite
  repeat' (
    first
      | (with_reducible assumption) | lift_lets
      | (intro x; have y : State := x; clear y; revert x; with_reducible apply kept_lift)
      | (intro x; have y : State := x.1; clear y; revert x; with_reducible apply kept_lift_fst)
      | (intro x; have y : State := x.2; clear y; revert x; with_reducible apply kept_lift_snd)
      | (intro x; clear_value x) | (with_reducible apply State.put_kept) | simp only [kept_mk, kept_fold]
      | (with_reducible intro _) | split | dsimp only)

theorem State.setCredit_kept {q : List Instr} {s : State} (b : Nat) (kq : Kept q s) :
    Kept q (State.setCredit s b) := by
  unfold State.setCredit
  repeat' (
    first
      | (with_reducible assumption) | lift_lets
      | (intro x; have y : State := x; clear y; revert x; with_reducible apply kept_lift)
      | (intro x; have y : State := x.1; clear y; revert x; with_reducible apply kept_lift_fst)
      | (intro x; have y : State := x.2; clear y; revert x; with_reducible apply kept_lift_snd)
      | (intro x; clear_value x) | (with_reducible apply State.put_kept) | simp only [kept_mk, kept_fold]
      | (with_reducible intro _) | (with_reducible apply kept_ite) | split | dsimp only)

theorem State.creditFull_kept {q : List Instr} {s : State} (kq : Kept q s) :
    Kept q (State.creditFull s) := by
  unfold State.creditFull
  repeat' (
    first
      | (with_reducible assumption) | (with_reducible apply State.setCredit_kept) | (with_reducible intro _)
      | split | dsimp only)

theorem State.budgetHandover_kept {q : List Instr} {s : State} (kq : Kept q s) :
    Kept q (State.budgetHandover s) := by
  unfold State.budgetHandover
  repeat' (
    first
      | (with_reducible assumption) | lift_lets
      | (intro x; have y : State := x; clear y; revert x; with_reducible apply kept_lift)
      | (intro x; have y : State := x.1; clear y; revert x; with_reducible apply kept_lift_fst)
      | (intro x; have y : State := x.2; clear y; revert x; with_reducible apply kept_lift_snd)
      | (intro x; clear_value x) | (with_reducible apply State.put_kept) | (with_reducible intro _)
      | (with_reducible apply kept_ite) | split | dsimp only)

theorem State.boostUpdate_kept {q : List Instr} {s : State} (kq : Kept q s) :
    Kept q (State.boostUpdate s) := by
  unfold State.boostUpdate
  repeat' (
    first
      | (with_reducible assumption) | lift_lets
      | (intro x; have y : State := x; clear y; revert x; with_reducible apply kept_lift)
      | (intro x; have y : State := x.1; clear y; revert x; with_reducible apply kept_lift_fst)
      | (intro x; have y : State := x.2; clear y; revert x; with_reducible apply kept_lift_snd)
      | (intro x; clear_value x) | (with_reducible apply State.putB_kept)
      | (with_reducible apply State.raise_kept) | (with_reducible apply State.setCredit_kept)
      | (with_reducible intro _) | (with_reducible apply kept_ite) | split | dsimp only)

theorem State.lumBlank_kept {q : List Instr} {s : State} (kq : Kept q s) :
    Kept q (State.lumBlank s) := by
  unfold State.lumBlank
  repeat' (
    first
      | (with_reducible assumption) | lift_lets
      | (intro x; have y : State := x; clear y; revert x; with_reducible apply kept_lift)
      | (intro x; have y : State := x.1; clear y; revert x; with_reducible apply kept_lift_fst)
      | (intro x; have y : State := x.2; clear y; revert x; with_reducible apply kept_lift_snd)
      | (intro x; clear_value x) | (with_reducible apply State.boostUpdate_kept)
      | (with_reducible apply State.budgetHandover_kept) | simp only [kept_mk, kept_fold]
      | (with_reducible intro _) | split | dsimp only)

theorem State.lumPixUp_kept {q : List Instr} {s : State} (kq : Kept q s) :
    Kept q (State.lumPixUp s) := by
  unfold State.lumPixUp
  repeat' (
    first
      | (with_reducible assumption) | lift_lets
      | (intro x; have y : State := x; clear y; revert x; with_reducible apply kept_lift)
      | (intro x; have y : State := x.1; clear y; revert x; with_reducible apply kept_lift_fst)
      | (intro x; have y : State := x.2; clear y; revert x; with_reducible apply kept_lift_snd)
      | (intro x; clear_value x) | (with_reducible apply State.put_kept) | simp only [kept_mk, kept_fold]
      | (with_reducible intro _) | split | dsimp only)

end Sys2Proof.Machine
end

