-- ==== Sys2Proof/Laws/KeptArray.lean ====
section
/-!
SUPPORT. The operations of Machine/Array.lean keep the queue and the canonical form.
-/

set_option linter.unusedSimpArgs false
set_option linter.unusedTactic false
set_option linter.unreachableTactic false

namespace Sys2Proof.Machine

theorem State.pixPowerUp_kept {q : List Instr} {s : State} (kq : Kept q s) :
    Kept q (State.pixPowerUp s) := by
  unfold State.pixPowerUp
  repeat' (
    first
      | (with_reducible assumption) | lift_lets
      | (intro x; have y : State := x; clear y; revert x; with_reducible apply kept_lift)
      | (intro x; have y : State := x.1; clear y; revert x; with_reducible apply kept_lift_fst)
      | (intro x; have y : State := x.2; clear y; revert x; with_reducible apply kept_lift_snd)
      | (intro x; clear_value x) | (with_reducible apply State.lumPixUp_kept)
      | (with_reducible apply State.mskPixUp_kept) | simp only [kept_mk, kept_fold] | (with_reducible intro _)
      | split | dsimp only)

theorem State.rowValueWrite_kept {q : List Instr} {s : State} (kq : Kept q s) :
    Kept q (State.rowValueWrite s) := by
  unfold State.rowValueWrite
  repeat' (
    first
      | (with_reducible assumption) | lift_lets
      | (intro x; have y : State := x; clear y; revert x; with_reducible apply kept_lift)
      | (intro x; have y : State := x.1; clear y; revert x; with_reducible apply kept_lift_fst)
      | (intro x; have y : State := x.2; clear y; revert x; with_reducible apply kept_lift_snd)
      | (intro x; clear_value x) | (with_reducible apply State.demandWrite_kept)
      | (with_reducible apply State.limiter_kept) | (with_reducible apply State.peakForm_kept)
      | (with_reducible apply State.skipRow_kept) | simp only [kept_mk, kept_fold] | (with_reducible intro _)
      | (with_reducible apply kept_ite) | split | dsimp only)

theorem State.loadDisplay_kept {q : List Instr} {s : State} (upsets : List (Nat × BitVec 16)) (kq : Kept q s) :
    Kept q (State.loadDisplay s upsets) := by
  unfold State.loadDisplay
  repeat' (
    first
      | (with_reducible assumption) | lift_lets
      | (intro x; have y : State := x; clear y; revert x; with_reducible apply kept_lift)
      | (intro x; have y : State := x.1; clear y; revert x; with_reducible apply kept_lift_fst)
      | (intro x; have y : State := x.2; clear y; revert x; with_reducible apply kept_lift_snd)
      | (intro x; clear_value x) | simp only [kept_mk, kept_fold] | (with_reducible intro _) | split
      | dsimp only)

theorem execDisplayLoad_kept {q : List Instr} (upsets : List (Nat × BitVec 16)) {s : State} {z : State} (kq : Kept q s)
    (hx : execDisplayLoad upsets s = .next z) : Kept q z := by
  obtain rfl := Host.Outcome.next.inj hx
  repeat' (
    first
      | (with_reducible assumption) | (with_reducible apply State.loadDisplay_kept)
      | (with_reducible apply State.toSlot_kept) | (with_reducible intro _) | (with_reducible apply kept_ite)
      | split | dsimp only)

theorem State.dacInForce_kept {q : List Instr} {s : State} (kq : Kept q s) :
    Kept q (State.dacInForce s) := by
  unfold State.dacInForce
  repeat' (
    first
      | (with_reducible assumption) | lift_lets
      | (intro x; have y : State := x; clear y; revert x; with_reducible apply kept_lift)
      | (intro x; have y : State := x.1; clear y; revert x; with_reducible apply kept_lift_fst)
      | (intro x; have y : State := x.2; clear y; revert x; with_reducible apply kept_lift_snd)
      | (intro x; clear_value x) | (with_reducible apply State.put_kept) | (with_reducible apply State.putB_kept)
      | (with_reducible intro _) | split | dsimp only)

theorem State.dacApply_kept {q : List Instr} {s : State} (kq : Kept q s) :
    Kept q (State.dacApply s) := by
  unfold State.dacApply
  repeat' (
    first
      | (with_reducible assumption) | lift_lets
      | (intro x; have y : State := x; clear y; revert x; with_reducible apply kept_lift)
      | (intro x; have y : State := x.1; clear y; revert x; with_reducible apply kept_lift_fst)
      | (intro x; have y : State := x.2; clear y; revert x; with_reducible apply kept_lift_snd)
      | (intro x; clear_value x) | (with_reducible apply State.dacInForce_kept)
      | (with_reducible apply State.raise_kept) | (with_reducible intro _) | (with_reducible apply kept_ite)
      | split | dsimp only)

theorem execIsetMeasure_kept {q : List Instr} (iref : BitVec 14) (limited : Bool) {s : State} {z : State} (kq : Kept q s)
    (hx : execIsetMeasure iref limited s = .next z) : Kept q z := by
  obtain rfl := Host.Outcome.next.inj hx
  repeat' (
    first
      | (with_reducible assumption) | lift_lets
      | (intro x; have y : State := x; clear y; revert x; with_reducible apply kept_lift)
      | (intro x; have y : State := x.1; clear y; revert x; with_reducible apply kept_lift_fst)
      | (intro x; have y : State := x.2; clear y; revert x; with_reducible apply kept_lift_snd)
      | (intro x; clear_value x) | (with_reducible apply State.deassertF_kept)
      | (with_reducible apply State.put_kept) | (with_reducible apply State.putB_kept)
      | (with_reducible apply State.toSlot_kept) | simp only [kept_mk, kept_fold] | (with_reducible intro _)
      | (with_reducible apply kept_ite) | split | dsimp only)

theorem execIsetFault_kept {q : List Instr} {s : State} {z : State} (kq : Kept q s)
    (hx : execIsetFault s = .next z) : Kept q z := by
  obtain rfl := Host.Outcome.next.inj hx
  repeat' (
    first
      | (with_reducible assumption) | lift_lets
      | (intro x; have y : State := x; clear y; revert x; with_reducible apply kept_lift)
      | (intro x; have y : State := x.1; clear y; revert x; with_reducible apply kept_lift_fst)
      | (intro x; have y : State := x.2; clear y; revert x; with_reducible apply kept_lift_snd)
      | (intro x; clear_value x) | (with_reducible apply State.assertF_kept)
      | (with_reducible apply State.put_kept) | simp only [kept_mk, kept_fold] | (with_reducible intro _)
      | (with_reducible apply kept_ite) | split | dsimp only)

theorem execRefMonitorFault_kept {q : List Instr} (first second : Nat) {s : State} {z : State} (kq : Kept q s)
    (hx : execRefMonitorFault first second s = .next z) : Kept q z := by
  obtain rfl := Host.Outcome.next.inj hx
  repeat' (
    first
      | (with_reducible assumption) | lift_lets
      | (intro x; have y : State := x; clear y; revert x; with_reducible apply kept_lift)
      | (intro x; have y : State := x.1; clear y; revert x; with_reducible apply kept_lift_fst)
      | (intro x; have y : State := x.2; clear y; revert x; with_reducible apply kept_lift_snd)
      | (intro x; clear_value x) | (with_reducible apply State.put_kept) | (with_reducible apply State.raise_kept)
      | (with_reducible apply State.safRefresh_kept) | (with_reducible intro _) | (with_reducible apply kept_ite)
      | split | dsimp only)

theorem State.enginesLoad_kept {q : List Instr} {s : State} (kq : Kept q s) :
    Kept q (State.enginesLoad s) := by
  unfold State.enginesLoad
  repeat' (
    first
      | (with_reducible assumption) | lift_lets
      | (intro x; have y : State := x; clear y; revert x; with_reducible apply kept_lift)
      | (intro x; have y : State := x.1; clear y; revert x; with_reducible apply kept_lift_fst)
      | (intro x; have y : State := x.2; clear y; revert x; with_reducible apply kept_lift_snd)
      | (intro x; clear_value x) | simp only [kept_mk, kept_fold] | (with_reducible intro _) | split
      | dsimp only)

theorem execEngineMismatch_kept {q : List Instr} (west east : EngineCopy) {s : State} {z : State} (kq : Kept q s)
    (hx : execEngineMismatch west east s = .next z) : Kept q z := by
  obtain rfl := Host.Outcome.next.inj hx
  repeat' (
    first
      | (with_reducible assumption) | lift_lets
      | (intro x; have y : State := x; clear y; revert x; with_reducible apply kept_lift)
      | (intro x; have y : State := x.1; clear y; revert x; with_reducible apply kept_lift_fst)
      | (intro x; have y : State := x.2; clear y; revert x; with_reducible apply kept_lift_snd)
      | (intro x; clear_value x) | (with_reducible apply State.inc_kept) | (with_reducible apply State.put_kept)
      | (with_reducible apply State.raise_kept) | simp only [kept_mk, kept_fold] | (with_reducible intro _)
      | (with_reducible apply kept_ite) | split | dsimp only)

theorem State.groupMasks_kept {q : List Instr} {s : State} (g : Nat) (kq : Kept q s) :
    Kept q (State.groupMasks s g) := by
  unfold State.groupMasks
  repeat' (
    first
      | (with_reducible assumption) | lift_lets
      | (intro x; have y : State := x; clear y; revert x; with_reducible apply kept_lift)
      | (intro x; have y : State := x.1; clear y; revert x; with_reducible apply kept_lift_fst)
      | (intro x; have y : State := x.2; clear y; revert x; with_reducible apply kept_lift_snd)
      | (intro x; clear_value x) | (with_reducible apply forUpto_keeps (P := Kept q))
      | simp only [kept_mk, kept_fold] | (with_reducible intro _) | split | dsimp only)

theorem execRowGroupBoundary_kept {q : List Instr} (g : BitVec 6) {s : State} {z : State} (kq : Kept q s)
    (hx : execRowGroupBoundary g s = .next z) : Kept q z := by
  obtain rfl := Host.Outcome.next.inj hx
  repeat' (
    first
      | (with_reducible assumption) | lift_lets
      | (intro x; have y : State := x; clear y; revert x; with_reducible apply kept_lift)
      | (intro x; have y : State := x.1; clear y; revert x; with_reducible apply kept_lift_fst)
      | (intro x; have y : State := x.2; clear y; revert x; with_reducible apply kept_lift_snd)
      | (intro x; clear_value x) | (with_reducible apply State.groupMasks_kept)
      | (with_reducible apply State.runTo_kept) | simp only [kept_mk, kept_fold] | (with_reducible intro _)
      | (with_reducible apply kept_ite) | split | dsimp only)

theorem State.setTap_kept {q : List Instr} {s : State} (x v : Nat) (kq : Kept q s) :
    Kept q (State.setTap s x v) := by
  unfold State.setTap
  repeat' (
    first
      | (with_reducible assumption) | lift_lets
      | (intro x; have y : State := x; clear y; revert x; with_reducible apply kept_lift)
      | (intro x; have y : State := x.1; clear y; revert x; with_reducible apply kept_lift_fst)
      | (intro x; have y : State := x.2; clear y; revert x; with_reducible apply kept_lift_snd)
      | (intro x; clear_value x) | simp only [kept_mk, kept_fold] | (with_reducible intro _) | split
      | dsimp only)

theorem State.colInc_kept {q : List Instr} {s : State} (kq : Kept q s) :
    Kept q (State.colInc s) := by
  unfold State.colInc
  repeat' (
    first
      | (with_reducible assumption) | (with_reducible apply State.put_kept) | (with_reducible intro _)
      | (with_reducible apply kept_ite) | split | dsimp only)

theorem State.pcDataRead_kept {q : List Instr} {s : State} (kq : Kept q s) :
    Kept q (State.pcDataRead s).2 := by
  unfold State.pcDataRead
  repeat' (
    first
      | (with_reducible assumption) | (with_reducible apply State.colInc_kept) | (with_reducible intro _)
      | (with_reducible apply kept_ite) | (with_reducible apply kept_ite_fst)
      | (with_reducible apply kept_ite_snd) | split | dsimp only)

theorem State.pcDataWrite_kept {q : List Instr} {s : State} (v : Word) (kq : Kept q s) :
    Kept q (State.pcDataWrite s v) := by
  unfold State.pcDataWrite
  repeat' (
    first
      | (with_reducible assumption) | (with_reducible apply State.colInc_kept)
      | (with_reducible apply State.setTap_kept) | (with_reducible intro _) | (with_reducible apply kept_ite)
      | split | dsimp only)

theorem execAryPcDataRead_kept {q : List Instr} (i : Initiator) {s : State} {z : State} (kq : Kept q s)
    (hx : execAryPcDataRead i s = .next z) : Kept q z := by
  obtain rfl := Host.Outcome.next.inj hx
  repeat' (
    first
      | (with_reducible assumption) | (with_reducible apply State.pcDataRead_kept)
      | (with_reducible apply State.portRead_kept) | (with_reducible intro _) | split | dsimp only)

theorem execAryPcDataWrite_kept {q : List Instr} (i : Initiator) (v : Word) {s : State} {z : State} (kq : Kept q s)
    (hx : execAryPcDataWrite i v s = .next z) : Kept q z := by
  obtain rfl := Host.Outcome.next.inj hx
  repeat' (
    first
      | (with_reducible assumption) | (with_reducible apply State.pcDataWrite_kept)
      | (with_reducible apply State.portWrite_kept) | (with_reducible intro _) | split | dsimp only)

end Sys2Proof.Machine
end

