-- ==== Sys2Proof/Laws/KeptCommit.lean ====
section
/-!
SUPPORT. The operations of Machine/Commit.lean keep the queue and the canonical form.
-/

set_option linter.unusedSimpArgs false
set_option linter.unusedTactic false
set_option linter.unreachableTactic false

namespace Sys2Proof.Machine

theorem State.cadence_kept {q : List Instr} {s : State} (src : Nat) (kq : Kept q s) :
    Kept q (State.cadence s src) := by
  unfold State.cadence
  repeat' (
    first
      | (with_reducible assumption) | lift_lets
      | (intro x; have y : State := x; clear y; revert x; with_reducible apply kept_lift)
      | (intro x; have y : State := x.1; clear y; revert x; with_reducible apply kept_lift_fst)
      | (intro x; have y : State := x.2; clear y; revert x; with_reducible apply kept_lift_snd)
      | (intro x; clear_value x) | (with_reducible apply State.inc_kept) | simp only [kept_mk, kept_fold]
      | (with_reducible intro _) | (with_reducible apply kept_ite) | split | dsimp only)

theorem State.commitRetarget_kept {q : List Instr} {s : State} (kq : Kept q s) :
    Kept q (State.commitRetarget s) := by
  unfold State.commitRetarget
  repeat' (
    first
      | (with_reducible assumption) | (with_reducible apply State.setReg_kept) | (with_reducible intro _)
      | (with_reducible apply kept_ite) | split | dsimp only)

theorem State.commitRejected_kept {q : List Instr} {s : State} (reason : Nat) (kq : Kept q s) :
    Kept q (State.commitRejected s reason) := by
  unfold State.commitRejected
  repeat' (
    first
      | (with_reducible assumption) | (with_reducible apply State.inc_kept)
      | (with_reducible apply State.irq_kept) | (with_reducible apply State.put_kept) | (with_reducible intro _)
      | split | dsimp only)

theorem State.commitArm_kept {q : List Instr} {s : State} (v : Word) (info : FaultInfo) (kq : Kept q s) :
    Kept q (State.commitArm s v info) := by
  unfold State.commitArm
  repeat' (
    first
      | (with_reducible assumption) | lift_lets
      | (intro x; have y : State := x; clear y; revert x; with_reducible apply kept_lift)
      | (intro x; have y : State := x.1; clear y; revert x; with_reducible apply kept_lift_fst)
      | (intro x; have y : State := x.2; clear y; revert x; with_reducible apply kept_lift_snd)
      | (intro x; clear_value x) | (with_reducible apply State.inc_kept) | (with_reducible apply State.put_kept)
      | (with_reducible apply State.setReg_kept) | simp only [kept_mk, kept_fold] | (with_reducible intro _)
      | (with_reducible apply kept_ite) | split | dsimp only)

theorem State.commitWithdraw_kept {q : List Instr} {s : State} (kq : Kept q s) :
    Kept q (State.commitWithdraw s) := by
  unfold State.commitWithdraw
  repeat' (
    first
      | (with_reducible assumption) | (with_reducible apply State.put_kept) | (with_reducible intro _)
      | (with_reducible apply kept_ite) | split | dsimp only)

theorem State.commitArmRequest_kept {q : List Instr} {s : State} (v : Word) (info : FaultInfo) (kq : Kept q s) :
    Kept q (State.commitArmRequest s v info) := by
  unfold State.commitArmRequest
  repeat' (
    first
      | (with_reducible assumption) | (with_reducible apply State.commitArm_kept)
      | (with_reducible apply State.commitRejected_kept) | (with_reducible apply State.raiseI_kept)
      | (with_reducible intro _) | (with_reducible apply kept_ite) | split | dsimp only)

theorem State.commitRequest_kept {q : List Instr} {s : State} (v : Word) (info : FaultInfo) (kq : Kept q s) :
    Kept q (State.commitRequest s v info) := by
  unfold State.commitRequest
  repeat' (
    first
      | (with_reducible assumption) | lift_lets
      | (intro x; have y : State := x; clear y; revert x; with_reducible apply kept_lift)
      | (intro x; have y : State := x.1; clear y; revert x; with_reducible apply kept_lift_fst)
      | (intro x; have y : State := x.2; clear y; revert x; with_reducible apply kept_lift_snd)
      | (intro x; clear_value x) | (with_reducible apply State.cadence_kept)
      | (with_reducible apply State.commitArmRequest_kept) | (with_reducible apply State.commitWithdraw_kept)
      | (with_reducible intro _) | (with_reducible apply kept_ite) | split | dsimp only)

theorem State.commitCtrlWrite_kept {q : List Instr} {s : State} (v : Word) (kq : Kept q s) :
    Kept q (State.commitCtrlWrite s v) := by
  unfold State.commitCtrlWrite
  repeat' (
    first
      | (with_reducible assumption) | lift_lets
      | (intro x; have y : State := x; clear y; revert x; with_reducible apply kept_lift)
      | (intro x; have y : State := x.1; clear y; revert x; with_reducible apply kept_lift_fst)
      | (intro x; have y : State := x.2; clear y; revert x; with_reducible apply kept_lift_snd)
      | (intro x; clear_value x) | (with_reducible apply State.regWrite_kept) | simp only [kept_mk, kept_fold]
      | (with_reducible intro _) | (with_reducible apply kept_ite) | split | dsimp only)

theorem State.transferReg_kept {q : List Instr} {s : State} (a : Nat) (kq : Kept q s) :
    Kept q (State.transferReg s a) := by
  unfold State.transferReg
  repeat' (
    first
      | (with_reducible assumption) | lift_lets
      | (intro x; have y : State := x; clear y; revert x; with_reducible apply kept_lift)
      | (intro x; have y : State := x.1; clear y; revert x; with_reducible apply kept_lift_fst)
      | (intro x; have y : State := x.2; clear y; revert x; with_reducible apply kept_lift_snd)
      | (intro x; clear_value x) | (with_reducible apply State.setReg_kept) | (with_reducible intro _) | split
      | dsimp only)

theorem State.transfer_kept {q : List Instr} {s : State} (held : Nat → Bool) (kq : Kept q s) :
    Kept q (State.transfer s held) := by
  unfold State.transfer
  repeat' (
    first
      | (with_reducible assumption) | (with_reducible apply State.transferReg_kept)
      | (with_reducible apply kept_foldl) | (with_reducible intro _) | (with_reducible apply kept_ite) | split
      | dsimp only)

theorem State.scalerTaps_kept {q : List Instr} {s : State} (kq : Kept q s) :
    Kept q (State.scalerTaps s) := by
  unfold State.scalerTaps
  repeat' (
    first
      | (with_reducible assumption) | (with_reducible apply State.put_kept)
      | (with_reducible apply forUpto_keeps (P := Kept q)) | (with_reducible intro _)
      | (with_reducible apply kept_ite) | split | dsimp only)

theorem State.scalerStatus_kept {q : List Instr} {s : State} (kq : Kept q s) :
    Kept q (State.scalerStatus s) := by
  unfold State.scalerStatus
  repeat' (
    first
      | (with_reducible assumption) | (with_reducible apply State.putB_kept)
      | (with_reducible apply State.scalerTaps_kept) | (with_reducible apply forUpto_keeps (P := Kept q))
      | (with_reducible intro _) | (with_reducible apply kept_ite) | split | dsimp only)

theorem State.scalerNeeds_kept {q : List Instr} {s : State} (kq : Kept q s) :
    Kept q (State.scalerNeeds s) := by
  unfold State.scalerNeeds
  repeat' (
    first
      | (with_reducible assumption) | lift_lets
      | (intro x; have y : State := x; clear y; revert x; with_reducible apply kept_lift)
      | (intro x; have y : State := x.1; clear y; revert x; with_reducible apply kept_lift_fst)
      | (intro x; have y : State := x.2; clear y; revert x; with_reducible apply kept_lift_snd)
      | (intro x; clear_value x) | (with_reducible apply State.put_kept)
      | (with_reducible apply forUpto_keeps (P := Kept q)) | (with_reducible intro _)
      | (with_reducible apply kept_ite) | split | dsimp only)

theorem State.maskTrigger_kept {q : List Instr} {s before : State} (kq : Kept q s) :
    Kept q (State.maskTrigger s before) := by
  unfold State.maskTrigger
  repeat' (
    first
      | (with_reducible assumption) | lift_lets
      | (intro x; have y : State := x; clear y; revert x; with_reducible apply kept_lift)
      | (intro x; have y : State := x.1; clear y; revert x; with_reducible apply kept_lift_fst)
      | (intro x; have y : State := x.2; clear y; revert x; with_reducible apply kept_lift_snd)
      | (intro x; clear_value x) | simp only [kept_mk, kept_fold] | (with_reducible intro _)
      | (with_reducible apply kept_ite) | split | dsimp only)

theorem State.commitTake_kept {q : List Instr} {s : State} (kq : Kept q s) :
    Kept q (State.commitTake s) := by
  unfold State.commitTake
  repeat' (
    first
      | (with_reducible assumption) | lift_lets
      | (intro x; have y : State := x; clear y; revert x; with_reducible apply kept_lift)
      | (intro x; have y : State := x.1; clear y; revert x; with_reducible apply kept_lift_fst)
      | (intro x; have y : State := x.2; clear y; revert x; with_reducible apply kept_lift_snd)
      | (intro x; clear_value x) | (with_reducible apply State.inc_kept) | (with_reducible apply State.irq_kept)
      | (with_reducible apply State.maskTrigger_kept) | (with_reducible apply State.put_kept)
      | (with_reducible apply State.putB_kept) | (with_reducible apply State.raise_kept)
      | (with_reducible apply State.scalerStatus_kept) | (with_reducible apply State.sigInvalid_kept)
      | (with_reducible apply State.transfer_kept) | (with_reducible apply forUpto_keeps (P := Kept q))
      | simp only [kept_mk, kept_fold] | (with_reducible intro _) | (with_reducible apply kept_ite) | split
      | dsimp only)

theorem State.commitRejectAt_kept {q : List Instr} {s : State} (layer reason : Nat) (kq : Kept q s) :
    Kept q (State.commitRejectAt s layer reason) := by
  unfold State.commitRejectAt
  repeat' (
    first
      | (with_reducible assumption) | (with_reducible apply State.commitRejected_kept)
      | (with_reducible apply State.inc_kept) | (with_reducible apply State.irq_kept)
      | (with_reducible apply State.put_kept) | (with_reducible apply State.raiseI_kept)
      | (with_reducible intro _) | split | dsimp only)

theorem State.commitHold_kept {q : List Instr} {s : State} (kq : Kept q s) :
    Kept q (State.commitHold s) := by
  unfold State.commitHold
  repeat' (
    first
      | (with_reducible assumption) | (with_reducible apply State.inc_kept)
      | (with_reducible apply State.irq_kept) | (with_reducible apply State.put_kept)
      | (with_reducible apply State.setReg_kept) | (with_reducible intro _) | split | dsimp only)

theorem State.staleCount_kept {q : List Instr} {s : State} (kq : Kept q s) :
    Kept q (State.staleCount s) := by
  unfold State.staleCount
  repeat' (
    first
      | (with_reducible assumption) | lift_lets
      | (intro x; have y : State := x; clear y; revert x; with_reducible apply kept_lift)
      | (intro x; have y : State := x.1; clear y; revert x; with_reducible apply kept_lift_fst)
      | (intro x; have y : State := x.2; clear y; revert x; with_reducible apply kept_lift_snd)
      | (intro x; clear_value x) | simp only [kept_mk, kept_fold] | (with_reducible intro _)
      | (with_reducible apply kept_ite) | split | dsimp only)

theorem State.commitResolve_kept {q : List Instr} {s : State} (kq : Kept q s) :
    Kept q (State.commitResolve s) := by
  unfold State.commitResolve
  repeat' (
    first
      | (with_reducible assumption) | lift_lets
      | (intro x; have y : State := x; clear y; revert x; with_reducible apply kept_lift)
      | (intro x; have y : State := x.1; clear y; revert x; with_reducible apply kept_lift_fst)
      | (intro x; have y : State := x.2; clear y; revert x; with_reducible apply kept_lift_snd)
      | (intro x; clear_value x) | (with_reducible apply State.commitHold_kept)
      | (with_reducible apply State.commitRejectAt_kept) | (with_reducible apply State.commitTake_kept)
      | (with_reducible apply State.scalerNeeds_kept) | (with_reducible apply State.staleCount_kept)
      | simp only [kept_mk, kept_fold] | (with_reducible intro _) | (with_reducible apply kept_ite) | split
      | dsimp only)

theorem execCommitArm_kept {q : List Instr} (i : Initiator) (rdy : BitVec 12) (alive : Byte) {s : State} {z : State} (kq : Kept q s)
    (hx : execCommitArm i rdy alive s = .next z) : Kept q z := by
  obtain rfl := Host.Outcome.next.inj hx
  repeat' (
    first
      | (with_reducible assumption) | (with_reducible apply State.commitRequest_kept)
      | (with_reducible apply State.portWrite_kept) | (with_reducible intro _) | split | dsimp only)

theorem execCommitWithdraw_kept {q : List Instr} (i : Initiator) {s : State} {z : State} (kq : Kept q s)
    (hx : execCommitWithdraw i s = .next z) : Kept q z := by
  obtain rfl := Host.Outcome.next.inj hx
  repeat' (
    first
      | (with_reducible assumption) | (with_reducible apply State.commitRequest_kept)
      | (with_reducible apply State.portWrite_kept) | (with_reducible intro _) | split | dsimp only)

theorem execCommitStale_kept {q : List Instr} {s : State} {z : State} (kq : Kept q s)
    (hx : execCommitStale s = .next z) : Kept q z := by
  obtain rfl := Host.Outcome.next.inj hx
  repeat' (
    first
      | (with_reducible assumption) | lift_lets
      | (intro x; have y : State := x; clear y; revert x; with_reducible apply kept_lift)
      | (intro x; have y : State := x.1; clear y; revert x; with_reducible apply kept_lift_fst)
      | (intro x; have y : State := x.2; clear y; revert x; with_reducible apply kept_lift_snd)
      | (intro x; clear_value x) | (with_reducible apply State.irq_kept) | (with_reducible apply State.raise_kept)
      | simp only [kept_mk, kept_fold] | (with_reducible intro _) | (with_reducible apply kept_ite) | split
      | dsimp only)

end Sys2Proof.Machine
end

