-- ==== Sys2Proof/Laws/KeptHealth.lean ====
section
/-!
SUPPORT. The operations of Machine/Health.lean keep the queue and the canonical form.
-/

set_option linter.unusedSimpArgs false
set_option linter.unusedTactic false
set_option linter.unreachableTactic false

namespace Sys2Proof.Machine

theorem State.defectLimit_kept {q : List Instr} {s : State} (kq : Kept q s) :
    Kept q (State.defectLimit s) := by
  unfold State.defectLimit
  repeat' (
    first
      | (with_reducible assumption) | lift_lets
      | (intro x; have y : State := x; clear y; revert x; with_reducible apply kept_lift)
      | (intro x; have y : State := x.1; clear y; revert x; with_reducible apply kept_lift_fst)
      | (intro x; have y : State := x.2; clear y; revert x; with_reducible apply kept_lift_snd)
      | (intro x; clear_value x) | (with_reducible apply State.put_kept) | (with_reducible apply State.raise_kept)
      | simp only [kept_mk, kept_fold] | (with_reducible intro _) | (with_reducible apply kept_ite) | split
      | dsimp only)

theorem State.mapRaise_kept {q : List Instr} {s : State} (x y st cause : Nat) (kq : Kept q s) :
    Kept q (State.mapRaise s x y st cause) := by
  unfold State.mapRaise
  repeat' (
    first
      | (with_reducible assumption) | lift_lets
      | (intro x; have y : State := x; clear y; revert x; with_reducible apply kept_lift)
      | (intro x; have y : State := x.1; clear y; revert x; with_reducible apply kept_lift_fst)
      | (intro x; have y : State := x.2; clear y; revert x; with_reducible apply kept_lift_snd)
      | (intro x; clear_value x) | (with_reducible apply State.defectLimit_kept)
      | simp only [kept_mk, kept_fold] | (with_reducible intro _) | (with_reducible apply kept_ite) | split
      | dsimp only)

theorem State.logPush_kept {q : List Instr} {s : State} (x y cause : Nat) (kq : Kept q s) :
    Kept q (State.logPush s x y cause) := by
  unfold State.logPush
  repeat' (
    first
      | (with_reducible assumption) | lift_lets
      | (intro x; have y : State := x; clear y; revert x; with_reducible apply kept_lift)
      | (intro x; have y : State := x.1; clear y; revert x; with_reducible apply kept_lift_fst)
      | (intro x; have y : State := x.2; clear y; revert x; with_reducible apply kept_lift_snd)
      | (intro x; clear_value x) | (with_reducible apply State.inc_kept) | simp only [kept_mk, kept_fold]
      | (with_reducible intro _) | (with_reducible apply kept_ite) | split | dsimp only)

theorem State.confirmed_kept {q : List Instr} {s : State} (x y cause : Nat) (kq : Kept q s) :
    Kept q (State.confirmed s x y cause) := by
  unfold State.confirmed
  repeat' (
    first
      | (with_reducible assumption) | lift_lets
      | (intro x; have y : State := x; clear y; revert x; with_reducible apply kept_lift)
      | (intro x; have y : State := x.1; clear y; revert x; with_reducible apply kept_lift_fst)
      | (intro x; have y : State := x.2; clear y; revert x; with_reducible apply kept_lift_snd)
      | (intro x; clear_value x) | (with_reducible apply State.irq_kept)
      | (with_reducible apply State.logPush_kept) | (with_reducible apply State.mapRaise_kept)
      | (with_reducible apply State.raise_kept) | (with_reducible intro _) | (with_reducible apply kept_ite)
      | split | dsimp only)

theorem State.setConfirm_kept {q : List Instr} {s : State} (x y cause n : Nat) (kq : Kept q s) :
    Kept q (State.setConfirm s x y cause n) := by
  unfold State.setConfirm
  repeat' (
    first
      | (with_reducible assumption) | lift_lets
      | (intro x; have y : State := x; clear y; revert x; with_reducible apply kept_lift)
      | (intro x; have y : State := x.1; clear y; revert x; with_reducible apply kept_lift_fst)
      | (intro x; have y : State := x.2; clear y; revert x; with_reducible apply kept_lift_snd)
      | (intro x; clear_value x) | simp only [kept_mk, kept_fold] | (with_reducible intro _) | split
      | dsimp only)

theorem State.senseBad_kept {q : List Instr} {s : State} (x y cause : Nat) (kq : Kept q s) :
    Kept q (State.senseBad s x y cause) := by
  unfold State.senseBad
  repeat' (
    first
      | (with_reducible assumption) | lift_lets
      | (intro x; have y : State := x; clear y; revert x; with_reducible apply kept_lift)
      | (intro x; have y : State := x.1; clear y; revert x; with_reducible apply kept_lift_fst)
      | (intro x; have y : State := x.2; clear y; revert x; with_reducible apply kept_lift_snd)
      | (intro x; clear_value x) | (with_reducible apply State.confirmed_kept)
      | (with_reducible apply State.setConfirm_kept) | (with_reducible intro _) | (with_reducible apply kept_ite)
      | split | dsimp only)

theorem State.senseCause_kept {q : List Instr} {s : State} (y cause : Nat) (tested : Nat → Bool) (bad : List Nat) (kq : Kept q s) :
    Kept q (State.senseCause s y cause tested bad) := by
  unfold State.senseCause
  repeat' (
    first
      | (with_reducible assumption) | lift_lets
      | (intro x; have y : State := x; clear y; revert x; with_reducible apply kept_lift)
      | (intro x; have y : State := x.1; clear y; revert x; with_reducible apply kept_lift_fst)
      | (intro x; have y : State := x.2; clear y; revert x; with_reducible apply kept_lift_snd)
      | (intro x; clear_value x) | (with_reducible apply State.senseBad_kept) | (with_reducible apply kept_foldl)
      | simp only [kept_mk, kept_fold] | (with_reducible intro _) | split | dsimp only)

theorem State.rowDiscard_kept {q : List Instr} {s : State} (y : Nat) (kq : Kept q s) :
    Kept q (State.rowDiscard s y) := by
  unfold State.rowDiscard
  repeat' (
    first
      | (with_reducible assumption) | lift_lets
      | (intro x; have y : State := x; clear y; revert x; with_reducible apply kept_lift)
      | (intro x; have y : State := x.1; clear y; revert x; with_reducible apply kept_lift_fst)
      | (intro x; have y : State := x.2; clear y; revert x; with_reducible apply kept_lift_snd)
      | (intro x; clear_value x) | (with_reducible apply State.inc_kept) | simp only [kept_mk, kept_fold]
      | (with_reducible intro _) | (with_reducible apply kept_ite) | split | dsimp only)

theorem State.probe_kept {q : List Instr} {s : State} (y : Nat) (iso : Nat → Bool) (high : List Nat) (kq : Kept q s) :
    Kept q (State.probe s y iso high) := by
  unfold State.probe
  repeat' (
    first
      | (with_reducible assumption) | (with_reducible apply State.senseCause_kept) | (with_reducible intro _)
      | (with_reducible apply kept_ite) | split | dsimp only)

theorem State.testPulse_kept {q : List Instr} {s : State} (y : Nat) (iso : Nat → Bool) (low : List Nat) (volts : List (Nat × Nat)) (kq : Kept q s) :
    Kept q (State.testPulse s y iso low volts) := by
  unfold State.testPulse
  repeat' (
    first
      | (with_reducible assumption) | lift_lets
      | (intro x; have y : State := x; clear y; revert x; with_reducible apply kept_lift)
      | (intro x; have y : State := x.1; clear y; revert x; with_reducible apply kept_lift_fst)
      | (intro x; have y : State := x.2; clear y; revert x; with_reducible apply kept_lift_snd)
      | (intro x; clear_value x) | (with_reducible apply State.rowDiscard_kept)
      | (with_reducible apply State.senseCause_kept) | (with_reducible intro _) | (with_reducible apply kept_ite)
      | split | dsimp only)

theorem State.senseRow_kept {q : List Instr} {s : State} (y : Nat) (high low : List Nat) (volts : List (Nat × Nat)) (kq : Kept q s) :
    Kept q (State.senseRow s y high low volts) := by
  unfold State.senseRow
  repeat' (
    first
      | (with_reducible assumption) | lift_lets
      | (intro x; have y : State := x; clear y; revert x; with_reducible apply kept_lift)
      | (intro x; have y : State := x.1; clear y; revert x; with_reducible apply kept_lift_fst)
      | (intro x; have y : State := x.2; clear y; revert x; with_reducible apply kept_lift_snd)
      | (intro x; clear_value x) | (with_reducible apply State.inc_kept) | (with_reducible apply State.probe_kept)
      | (with_reducible apply State.testPulse_kept) | (with_reducible intro _) | (with_reducible apply kept_ite)
      | split | dsimp only)

theorem execEmitterSense_kept {q : List Instr} (high low : List Nat) (volts : List (Nat × Nat)) {s : State} {z : State} (kq : Kept q s)
    (hx : execEmitterSense high low volts s = .next z) : Kept q z := by
  obtain rfl := Host.Outcome.next.inj hx
  repeat' (
    first
      | (with_reducible assumption) | lift_lets
      | (intro x; have y : State := x; clear y; revert x; with_reducible apply kept_lift)
      | (intro x; have y : State := x.1; clear y; revert x; with_reducible apply kept_lift_fst)
      | (intro x; have y : State := x.2; clear y; revert x; with_reducible apply kept_lift_snd)
      | (intro x; clear_value x) | (with_reducible apply State.limiterRaise_kept)
      | (with_reducible apply State.senseRow_kept) | (with_reducible apply State.toSlot_kept)
      | simp only [kept_mk, kept_fold] | (with_reducible intro _) | (with_reducible apply kept_ite) | split
      | dsimp only)

theorem execSenseRowFault_kept {q : List Instr} {s : State} {z : State} (kq : Kept q s)
    (hx : execSenseRowFault s = .next z) : Kept q z := by
  obtain rfl := Host.Outcome.next.inj hx
  repeat' (
    first
      | (with_reducible assumption) | lift_lets
      | (intro x; have y : State := x; clear y; revert x; with_reducible apply kept_lift)
      | (intro x; have y : State := x.1; clear y; revert x; with_reducible apply kept_lift_fst)
      | (intro x; have y : State := x.2; clear y; revert x; with_reducible apply kept_lift_snd)
      | (intro x; clear_value x) | (with_reducible apply State.raise_kept) | simp only [kept_mk, kept_fold]
      | (with_reducible intro _) | (with_reducible apply kept_ite) | split | dsimp only)

theorem State.defectSet_kept {q : List Instr} {s : State} (v : Word) (kq : Kept q s) :
    Kept q (State.defectSet s v) := by
  unfold State.defectSet
  repeat' (
    first
      | (with_reducible assumption) | lift_lets
      | (intro x; have y : State := x; clear y; revert x; with_reducible apply kept_lift)
      | (intro x; have y : State := x.1; clear y; revert x; with_reducible apply kept_lift_fst)
      | (intro x; have y : State := x.2; clear y; revert x; with_reducible apply kept_lift_snd)
      | (intro x; clear_value x) | (with_reducible apply State.mapRaise_kept) | (with_reducible intro _)
      | (with_reducible apply kept_ite) | split | dsimp only)

theorem execHltDefectSet_kept {q : List Instr} (i : Initiator) (v : Word) {s : State} {z : State} (kq : Kept q s)
    (hx : execHltDefectSet i v s = .next z) : Kept q z := by
  obtain rfl := Host.Outcome.next.inj hx
  repeat' (
    first
      | (with_reducible assumption) | (with_reducible apply State.defectSet_kept)
      | (with_reducible apply State.portWrite_kept) | (with_reducible intro _) | split | dsimp only)

theorem State.dlog0Read_kept {q : List Instr} {s : State} (kq : Kept q s) :
    Kept q (State.dlog0Read s).2 := by
  unfold State.dlog0Read
  repeat' (
    first
      | (with_reducible assumption) | lift_lets
      | (intro x; have y : State := x; clear y; revert x; with_reducible apply kept_lift)
      | (intro x; have y : State := x.1; clear y; revert x; with_reducible apply kept_lift_fst)
      | (intro x; have y : State := x.2; clear y; revert x; with_reducible apply kept_lift_snd)
      | (intro x; clear_value x) | simp only [kept_mk, kept_fold] | (with_reducible intro _) | split
      | dsimp only)

theorem execHltDlog0Read_kept {q : List Instr} (i : Initiator) {s : State} {z : State} (kq : Kept q s)
    (hx : execHltDlog0Read i s = .next z) : Kept q z := by
  obtain rfl := Host.Outcome.next.inj hx
  repeat' (
    first
      | (with_reducible assumption) | (with_reducible apply State.dlog0Read_kept)
      | (with_reducible apply State.portRead_kept) | (with_reducible intro _) | split | dsimp only)

theorem State.defectLimitWrite_kept {q : List Instr} {s : State} (v : Word) (kq : Kept q s) :
    Kept q (State.defectLimitWrite s v) := by
  unfold State.defectLimitWrite
  repeat' (
    first
      | (with_reducible assumption) | (with_reducible apply State.defectLimit_kept)
      | (with_reducible apply State.put_kept) | (with_reducible intro _) | split | dsimp only)

theorem execDefectLimitWrite_kept {q : List Instr} (i : Initiator) (v : Word) {s : State} {z : State} (kq : Kept q s)
    (hx : execDefectLimitWrite i v s = .next z) : Kept q z := by
  obtain rfl := Host.Outcome.next.inj hx
  repeat' (
    first
      | (with_reducible assumption) | (with_reducible apply State.defectLimitWrite_kept)
      | (with_reducible apply State.portWrite_kept) | (with_reducible intro _) | split | dsimp only)

theorem State.mapMerge_kept {q : List Instr} {s : State} (kq : Kept q s) :
    Kept q (State.mapMerge s) := by
  unfold State.mapMerge
  repeat' (
    first
      | (with_reducible assumption) | lift_lets
      | (intro x; have y : State := x; clear y; revert x; with_reducible apply kept_lift)
      | (intro x; have y : State := x.1; clear y; revert x; with_reducible apply kept_lift_fst)
      | (intro x; have y : State := x.2; clear y; revert x; with_reducible apply kept_lift_snd)
      | (intro x; clear_value x) | (with_reducible apply State.mapRaise_kept) | (with_reducible apply kept_foldl)
      | simp only [kept_mk, kept_fold] | (with_reducible intro _) | split | dsimp only)

theorem State.mapBoot_kept {q : List Instr} {s : State} (kq : Kept q s) :
    Kept q (State.mapBoot s) := by
  unfold State.mapBoot
  repeat' (
    first
      | (with_reducible assumption) | lift_lets
      | (intro x; have y : State := x; clear y; revert x; with_reducible apply kept_lift)
      | (intro x; have y : State := x.1; clear y; revert x; with_reducible apply kept_lift_fst)
      | (intro x; have y : State := x.2; clear y; revert x; with_reducible apply kept_lift_snd)
      | (intro x; clear_value x) | (with_reducible apply State.defectLimit_kept)
      | (with_reducible apply State.mapMerge_kept) | (with_reducible apply State.raise_kept)
      | simp only [kept_mk, kept_fold] | (with_reducible intro _) | split | dsimp only)

theorem State.rebuildResult_kept {q : List Instr} {s : State} (result reason : Nat) (kq : Kept q s) :
    Kept q (State.rebuildResult s result reason) := by
  unfold State.rebuildResult
  repeat' (
    first
      | (with_reducible assumption) | (with_reducible apply State.put_kept) | (with_reducible intro _) | split
      | dsimp only)

theorem State.rebuildDone_kept {q : List Instr} {s : State} (kq : Kept q s) :
    Kept q (State.rebuildDone s) := by
  unfold State.rebuildDone
  repeat' (
    first
      | (with_reducible assumption) | (with_reducible apply State.jobCommitOf_kept)
      | (with_reducible apply State.jobEndOf_kept) | (with_reducible apply State.rebuildResult_kept)
      | (with_reducible intro _) | split | dsimp only)

theorem State.rebuildStart_kept {q : List Instr} {s : State} (kq : Kept q s) :
    Kept q (State.rebuildStart s).1 := by
  unfold State.rebuildStart
  repeat' (
    first
      | (with_reducible assumption) | lift_lets
      | (intro x; have y : State := x; clear y; revert x; with_reducible apply kept_lift)
      | (intro x; have y : State := x.1; clear y; revert x; with_reducible apply kept_lift_fst)
      | (intro x; have y : State := x.2; clear y; revert x; with_reducible apply kept_lift_snd)
      | (intro x; clear_value x) | (with_reducible apply State.defectLimit_kept)
      | (with_reducible apply State.jobEndOf_kept) | (with_reducible apply State.rebuildDone_kept)
      | (with_reducible apply State.rebuildResult_kept) | simp only [kept_mk, kept_fold]
      | (with_reducible intro _) | (with_reducible apply kept_ite) | (with_reducible apply kept_ite_fst)
      | (with_reducible apply kept_ite_snd) | split | dsimp only)

theorem execRestoreMergeDone_kept {q : List Instr} {s : State} {z : State} (kq : Kept q s)
    (hx : execRestoreMergeDone s = .next z) : Kept q z := by
  obtain rfl := Host.Outcome.next.inj hx
  repeat' (
    first
      | (with_reducible assumption) | (with_reducible apply State.mapMerge_kept)
      | (with_reducible apply State.rebuildDone_kept) | (with_reducible intro _) | (with_reducible apply kept_ite)
      | (with_reducible apply kept_ite_fst) | (with_reducible apply kept_ite_snd) | split | dsimp only)

theorem State.rbParity_kept {q : List Instr} {s : State} (x0 : Row) (kq : Kept q s) :
    Kept q (State.rbParity s x0) := by
  induction x0 generalizing s with
  | nil => exact kq
  | cons a t ih =>
    unfold State.rbParity
    repeat' (
      first
        | (with_reducible assumption) | (with_reducible apply ih) | (with_reducible apply State.inc_kept)
        | (with_reducible apply State.raise_kept) | (with_reducible intro _) | (with_reducible apply kept_ite)
        | split | dsimp only)

theorem State.rbMismatch_kept {q : List Instr} {s : State} (y : Nat) (kq : Kept q s) :
    Kept q (State.rbMismatch s y) := by
  unfold State.rbMismatch
  repeat' (
    first
      | (with_reducible assumption) | lift_lets
      | (intro x; have y : State := x; clear y; revert x; with_reducible apply kept_lift)
      | (intro x; have y : State := x.1; clear y; revert x; with_reducible apply kept_lift_fst)
      | (intro x; have y : State := x.2; clear y; revert x; with_reducible apply kept_lift_snd)
      | (intro x; clear_value x) | (with_reducible apply State.inc_kept) | (with_reducible apply State.raise_kept)
      | simp only [kept_mk, kept_fold] | (with_reducible intro _) | (with_reducible apply kept_ite) | split
      | dsimp only)

theorem State.rbTap_kept {q : List Instr} {s : State} (y : Nat) (row : Row) (kq : Kept q s) :
    Kept q (State.rbTap s y row) := by
  unfold State.rbTap
  repeat' (
    first
      | (with_reducible assumption) | lift_lets
      | (intro x; have y : State := x; clear y; revert x; with_reducible apply kept_lift)
      | (intro x; have y : State := x.1; clear y; revert x; with_reducible apply kept_lift_fst)
      | (intro x; have y : State := x.2; clear y; revert x; with_reducible apply kept_lift_snd)
      | (intro x; clear_value x) | (with_reducible apply forUpto_keeps (P := Kept q))
      | simp only [kept_mk, kept_fold] | (with_reducible intro _) | (with_reducible apply kept_ite) | split
      | dsimp only)

theorem execReadback_kept {q : List Instr} (upsets : List (Nat × BitVec 16)) {s : State} {z : State} (kq : Kept q s)
    (hx : execReadback upsets s = .next z) : Kept q z := by
  obtain rfl := Host.Outcome.next.inj hx
  repeat' (
    first
      | (with_reducible assumption) | lift_lets
      | (intro x; have y : State := x; clear y; revert x; with_reducible apply kept_lift)
      | (intro x; have y : State := x.1; clear y; revert x; with_reducible apply kept_lift_fst)
      | (intro x; have y : State := x.2; clear y; revert x; with_reducible apply kept_lift_snd)
      | (intro x; clear_value x) | (with_reducible apply State.rbMismatch_kept)
      | (with_reducible apply State.rbParity_kept) | (with_reducible apply State.rbTap_kept)
      | (with_reducible apply State.toSlot_kept) | simp only [kept_mk, kept_fold] | (with_reducible intro _)
      | (with_reducible apply kept_ite) | split | dsimp only)

theorem execRbPersist_kept {q : List Instr} {s : State} {z : State} (kq : Kept q s)
    (hx : execRbPersist s = .next z) : Kept q z := by
  obtain rfl := Host.Outcome.next.inj hx
  repeat' (
    first
      | (with_reducible assumption) | lift_lets
      | (intro x; have y : State := x; clear y; revert x; with_reducible apply kept_lift)
      | (intro x; have y : State := x.1; clear y; revert x; with_reducible apply kept_lift_fst)
      | (intro x; have y : State := x.2; clear y; revert x; with_reducible apply kept_lift_snd)
      | (intro x; clear_value x) | (with_reducible apply State.raise_kept) | simp only [kept_mk, kept_fold]
      | (with_reducible intro _) | (with_reducible apply kept_ite) | split | dsimp only)

theorem State.sigRun_kept {q : List Instr} {s : State} (n : Nat) (rb : Bool) (kq : Kept q s) :
    Kept q (State.sigRun s n rb) := by
  unfold State.sigRun
  repeat' (
    first
      | (with_reducible assumption) | lift_lets
      | (intro x; have y : State := x; clear y; revert x; with_reducible apply kept_lift)
      | (intro x; have y : State := x.1; clear y; revert x; with_reducible apply kept_lift_fst)
      | (intro x; have y : State := x.2; clear y; revert x; with_reducible apply kept_lift_snd)
      | (intro x; clear_value x) | simp only [kept_mk, kept_fold] | (with_reducible intro _)
      | (with_reducible apply kept_ite) | split | dsimp only)

theorem State.sigVerdict_kept {q : List Instr} {s : State} (n : Nat) (rb fail : Bool) (kq : Kept q s) :
    Kept q (State.sigVerdict s n rb fail) := by
  unfold State.sigVerdict
  repeat' (
    first
      | (with_reducible assumption) | lift_lets
      | (intro x; have y : State := x; clear y; revert x; with_reducible apply kept_lift)
      | (intro x; have y : State := x.1; clear y; revert x; with_reducible apply kept_lift_fst)
      | (intro x; have y : State := x.2; clear y; revert x; with_reducible apply kept_lift_snd)
      | (intro x; clear_value x) | (with_reducible apply State.irq_kept) | (with_reducible apply State.putB_kept)
      | (with_reducible apply State.setReg_kept) | simp only [kept_mk, kept_fold] | (with_reducible intro _)
      | (with_reducible apply kept_ite) | split | dsimp only)

theorem State.sigOut_kept {q : List Instr} {s : State} (n : Nat) (kq : Kept q s) :
    Kept q (State.sigOut s n) := by
  unfold State.sigOut
  repeat' (
    first
      | (with_reducible assumption) | lift_lets
      | (intro x; have y : State := x; clear y; revert x; with_reducible apply kept_lift)
      | (intro x; have y : State := x.1; clear y; revert x; with_reducible apply kept_lift_fst)
      | (intro x; have y : State := x.2; clear y; revert x; with_reducible apply kept_lift_snd)
      | (intro x; clear_value x) | (with_reducible apply State.setReg_kept)
      | (with_reducible apply State.sigRun_kept) | (with_reducible apply State.sigVerdict_kept)
      | (with_reducible intro _) | (with_reducible apply kept_ite) | split | dsimp only)

theorem State.sigRb_kept {q : List Instr} {s : State} (n : Nat) (kq : Kept q s) :
    Kept q (State.sigRb s n) := by
  unfold State.sigRb
  repeat' (
    first
      | (with_reducible assumption) | lift_lets
      | (intro x; have y : State := x; clear y; revert x; with_reducible apply kept_lift)
      | (intro x; have y : State := x.1; clear y; revert x; with_reducible apply kept_lift_fst)
      | (intro x; have y : State := x.2; clear y; revert x; with_reducible apply kept_lift_snd)
      | (intro x; clear_value x) | (with_reducible apply State.put_kept)
      | (with_reducible apply State.setReg_kept) | (with_reducible apply State.sigRun_kept)
      | (with_reducible apply State.sigVerdict_kept) | (with_reducible intro _) | (with_reducible apply kept_ite)
      | split | dsimp only)

theorem State.signatureLatch_kept {q : List Instr} {s : State} (kq : Kept q s) :
    Kept q (State.signatureLatch s) := by
  unfold State.signatureLatch
  repeat' (
    first
      | (with_reducible assumption) | lift_lets
      | (intro x; have y : State := x; clear y; revert x; with_reducible apply kept_lift)
      | (intro x; have y : State := x.1; clear y; revert x; with_reducible apply kept_lift_fst)
      | (intro x; have y : State := x.2; clear y; revert x; with_reducible apply kept_lift_snd)
      | (intro x; clear_value x) | (with_reducible apply State.setReg_kept)
      | (with_reducible apply State.sigOut_kept) | (with_reducible apply State.sigRb_kept)
      | (with_reducible apply State.sigRun_kept) | (with_reducible apply forUpto_keeps (P := Kept q))
      | simp only [kept_mk, kept_fold] | (with_reducible intro _) | (with_reducible apply kept_ite) | split
      | dsimp only)

theorem execSignatureMissLimit_kept {q : List Instr} {s : State} {z : State} (kq : Kept q s)
    (hx : execSignatureMissLimit s = .next z) : Kept q z := by
  obtain rfl := Host.Outcome.next.inj hx
  repeat' (
    first
      | (with_reducible assumption) | lift_lets
      | (intro x; have y : State := x; clear y; revert x; with_reducible apply kept_lift)
      | (intro x; have y : State := x.1; clear y; revert x; with_reducible apply kept_lift_fst)
      | (intro x; have y : State := x.2; clear y; revert x; with_reducible apply kept_lift_snd)
      | (intro x; clear_value x) | (with_reducible apply State.raise_kept) | simp only [kept_mk, kept_fold]
      | (with_reducible intro _) | (with_reducible apply kept_ite) | split | dsimp only)

end Sys2Proof.Machine
end

