-- ==== Sys2Proof/Laws/KeptRail.lean ====
section
/-!
SUPPORT. The operations of Machine/Rail.lean keep the queue and the canonical form.
-/

set_option linter.unusedSimpArgs false
set_option linter.unusedTactic false
set_option linter.unreachableTactic false

namespace Sys2Proof.Machine

theorem State.setLoop_kept {q : List Instr} {s : State} (n : Nat) (l : LoopState) (kq : Kept q s) :
    Kept q (State.setLoop s n l) := by
  unfold State.setLoop
  repeat' (
    first
      | (with_reducible assumption) | lift_lets
      | (intro x; have y : State := x; clear y; revert x; with_reducible apply kept_lift)
      | (intro x; have y : State := x.1; clear y; revert x; with_reducible apply kept_lift_fst)
      | (intro x; have y : State := x.2; clear y; revert x; with_reducible apply kept_lift_snd)
      | (intro x; clear_value x) | simp only [kept_mk, kept_fold] | (with_reducible intro _) | split
      | dsimp only)

theorem State.setPhase_kept {q : List Instr} {s : State} (p : Nat) (x : Phase) (kq : Kept q s) :
    Kept q (State.setPhase s p x) := by
  unfold State.setPhase
  repeat' (
    first
      | (with_reducible assumption) | lift_lets
      | (intro x; have y : State := x; clear y; revert x; with_reducible apply kept_lift)
      | (intro x; have y : State := x.1; clear y; revert x; with_reducible apply kept_lift_fst)
      | (intro x; have y : State := x.2; clear y; revert x; with_reducible apply kept_lift_snd)
      | (intro x; clear_value x) | simp only [kept_mk, kept_fold] | (with_reducible intro _) | split
      | dsimp only)

theorem State.loopForce_kept {q : List Instr} {s : State} (n : Nat) (kq : Kept q s) :
    Kept q (State.loopForce s n) := by
  unfold State.loopForce
  repeat' (
    first
      | (with_reducible assumption) | lift_lets
      | (intro x; have y : State := x; clear y; revert x; with_reducible apply kept_lift)
      | (intro x; have y : State := x.1; clear y; revert x; with_reducible apply kept_lift_fst)
      | (intro x; have y : State := x.2; clear y; revert x; with_reducible apply kept_lift_snd)
      | (intro x; clear_value x) | (with_reducible apply State.put_kept)
      | (with_reducible apply State.setLoop_kept) | simp only [kept_mk, kept_fold] | (with_reducible intro _)
      | split | dsimp only)

theorem State.satFlags_kept {q : List Instr} {s : State} (n : Nat) (hi lo i : Bool) (kq : Kept q s) :
    Kept q (State.satFlags s n hi lo i) := by
  unfold State.satFlags
  repeat' (
    first
      | (with_reducible assumption) | lift_lets
      | (intro x; have y : State := x; clear y; revert x; with_reducible apply kept_lift)
      | (intro x; have y : State := x.1; clear y; revert x; with_reducible apply kept_lift_fst)
      | (intro x; have y : State := x.2; clear y; revert x; with_reducible apply kept_lift_snd)
      | (intro x; clear_value x) | (with_reducible apply State.put_kept) | (with_reducible apply State.putB_kept)
      | (with_reducible intro _) | (with_reducible apply kept_ite) | split | dsimp only)

theorem State.satTrack_kept {q : List Instr} {s : State} (n : Nat) (kq : Kept q s) :
    Kept q (State.satTrack s n) := by
  unfold State.satTrack
  repeat' (
    first
      | (with_reducible assumption) | lift_lets
      | (intro x; have y : State := x; clear y; revert x; with_reducible apply kept_lift)
      | (intro x; have y : State := x.1; clear y; revert x; with_reducible apply kept_lift_fst)
      | (intro x; have y : State := x.2; clear y; revert x; with_reducible apply kept_lift_snd)
      | (intro x; clear_value x) | (with_reducible apply State.satFlags_kept) | (with_reducible intro _) | split
      | dsimp only)

theorem State.storeLoop_kept {q : List Instr} {s : State} (n : Nat) (l : LoopState) (u : Int) (iSat : Bool) (kq : Kept q s) :
    Kept q (State.storeLoop s n l u iSat) := by
  unfold State.storeLoop
  repeat' (
    first
      | (with_reducible assumption) | lift_lets
      | (intro x; have y : State := x; clear y; revert x; with_reducible apply kept_lift)
      | (intro x; have y : State := x.1; clear y; revert x; with_reducible apply kept_lift_fst)
      | (intro x; have y : State := x.2; clear y; revert x; with_reducible apply kept_lift_snd)
      | (intro x; clear_value x) | (with_reducible apply State.put_kept)
      | (with_reducible apply State.satFlags_kept) | (with_reducible apply State.setLoop_kept)
      | simp only [kept_mk, kept_fold] | (with_reducible intro _) | split | dsimp only)

theorem State.mainLaw_kept {q : List Instr} {s : State} (n : Nat) (l : LoopState) (e : Int) (kq : Kept q s) :
    Kept q (State.mainLaw s n l e) := by
  unfold State.mainLaw
  repeat' (
    first
      | (with_reducible assumption) | lift_lets
      | (intro x; have y : State := x; clear y; revert x; with_reducible apply kept_lift)
      | (intro x; have y : State := x.1; clear y; revert x; with_reducible apply kept_lift_fst)
      | (intro x; have y : State := x.2; clear y; revert x; with_reducible apply kept_lift_snd)
      | (intro x; clear_value x) | (with_reducible apply State.storeLoop_kept) | simp only [kept_mk, kept_fold]
      | (with_reducible intro _) | (with_reducible apply kept_ite) | split | dsimp only)

theorem State.fallbackLaw_kept {q : List Instr} {s : State} (n : Nat) (l : LoopState) (e : Int) (kq : Kept q s) :
    Kept q (State.fallbackLaw s n l e) := by
  unfold State.fallbackLaw
  repeat' (
    first
      | (with_reducible assumption) | lift_lets
      | (intro x; have y : State := x; clear y; revert x; with_reducible apply kept_lift)
      | (intro x; have y : State := x.1; clear y; revert x; with_reducible apply kept_lift_fst)
      | (intro x; have y : State := x.2; clear y; revert x; with_reducible apply kept_lift_snd)
      | (intro x; clear_value x) | (with_reducible apply State.storeLoop_kept) | simp only [kept_mk, kept_fold]
      | (with_reducible intro _) | (with_reducible apply kept_ite) | split | dsimp only)

theorem State.clearLoops_kept {q : List Instr} {s : State} (kq : Kept q s) :
    Kept q (State.clearLoops s) := by
  unfold State.clearLoops
  repeat' (
    first
      | (with_reducible assumption) | (with_reducible apply State.put_kept)
      | (with_reducible apply State.satTrack_kept) | (with_reducible apply State.setLoop_kept)
      | (with_reducible apply forUpto_keeps (P := Kept q)) | (with_reducible intro _)
      | (with_reducible apply kept_ite) | split | dsimp only)

theorem State.inRegClear_kept {q : List Instr} {s : State} (kq : Kept q s) :
    Kept q (State.inRegClear s) := by
  unfold State.inRegClear
  repeat' (
    first
      | (with_reducible assumption) | lift_lets
      | (intro x; have y : State := x; clear y; revert x; with_reducible apply kept_lift)
      | (intro x; have y : State := x.1; clear y; revert x; with_reducible apply kept_lift_fst)
      | (intro x; have y : State := x.2; clear y; revert x; with_reducible apply kept_lift_snd)
      | (intro x; clear_value x) | (with_reducible apply State.put_kept) | simp only [kept_mk, kept_fold]
      | (with_reducible intro _) | split | dsimp only)

theorem State.stageOff_kept {q : List Instr} {s : State} (kq : Kept q s) :
    Kept q (State.stageOff s) := by
  unfold State.stageOff
  repeat' (
    first
      | (with_reducible assumption) | lift_lets
      | (intro x; have y : State := x; clear y; revert x; with_reducible apply kept_lift)
      | (intro x; have y : State := x.1; clear y; revert x; with_reducible apply kept_lift_fst)
      | (intro x; have y : State := x.2; clear y; revert x; with_reducible apply kept_lift_snd)
      | (intro x; clear_value x) | simp only [kept_mk, kept_fold] | (with_reducible intro _) | split
      | dsimp only)

theorem State.tripRail_kept {q : List Instr} {s : State} (kq : Kept q s) :
    Kept q (State.tripRail s) := by
  unfold State.tripRail
  repeat' (
    first
      | (with_reducible assumption) | (with_reducible apply State.clearLoops_kept)
      | (with_reducible apply State.inRegClear_kept) | (with_reducible apply State.irq_kept)
      | (with_reducible apply State.put_kept) | (with_reducible apply State.stageOff_kept)
      | (with_reducible intro _) | (with_reducible apply kept_ite) | split | dsimp only)

theorem State.railStop_kept {q : List Instr} {s : State} (kq : Kept q s) :
    Kept q (State.railStop s) := by
  unfold State.railStop
  repeat' (
    first
      | (with_reducible assumption) | (with_reducible apply State.inRegClear_kept)
      | (with_reducible apply State.put_kept) | (with_reducible apply State.stageOff_kept)
      | (with_reducible intro _) | (with_reducible apply kept_ite) | split | dsimp only)

theorem State.railDisable_kept {q : List Instr} {s : State} (kq : Kept q s) :
    Kept q (State.railDisable s) := by
  unfold State.railDisable
  repeat' (
    first
      | (with_reducible assumption) | lift_lets
      | (intro x; have y : State := x; clear y; revert x; with_reducible apply kept_lift)
      | (intro x; have y : State := x.1; clear y; revert x; with_reducible apply kept_lift_fst)
      | (intro x; have y : State := x.2; clear y; revert x; with_reducible apply kept_lift_snd)
      | (intro x; clear_value x) | (with_reducible apply State.inRegClear_kept)
      | (with_reducible apply State.put_kept) | simp only [kept_mk, kept_fold] | (with_reducible intro _)
      | (with_reducible apply kept_ite) | split | dsimp only)

theorem State.formVSet_kept {q : List Instr} {s : State} (kq : Kept q s) :
    Kept q (State.formVSet s) := by
  unfold State.formVSet
  repeat' (
    first
      | (with_reducible assumption) | lift_lets
      | (intro x; have y : State := x; clear y; revert x; with_reducible apply kept_lift)
      | (intro x; have y : State := x.1; clear y; revert x; with_reducible apply kept_lift_fst)
      | (intro x; have y : State := x.2; clear y; revert x; with_reducible apply kept_lift_snd)
      | (intro x; clear_value x) | (with_reducible apply State.put_kept) | simp only [kept_mk, kept_fold]
      | (with_reducible intro _) | split | dsimp only)

theorem State.overrun_kept {q : List Instr} {s : State} (n : Nat) (kq : Kept q s) :
    Kept q (State.overrun s n) := by
  unfold State.overrun
  repeat' (
    first
      | (with_reducible assumption) | lift_lets
      | (intro x; have y : State := x; clear y; revert x; with_reducible apply kept_lift)
      | (intro x; have y : State := x.1; clear y; revert x; with_reducible apply kept_lift_fst)
      | (intro x; have y : State := x.2; clear y; revert x; with_reducible apply kept_lift_snd)
      | (intro x; clear_value x) | (with_reducible apply State.inc_kept) | (with_reducible apply State.put_kept)
      | simp only [kept_mk, kept_fold] | (with_reducible intro _) | (with_reducible apply kept_ite) | split
      | dsimp only)

theorem State.fallbackParity_kept {q : List Instr} {s : State} (n : Nat) (kq : Kept q s) :
    Kept q (State.fallbackParity s n) := by
  unfold State.fallbackParity
  repeat' (
    first
      | (with_reducible assumption) | lift_lets
      | (intro x; have y : State := x; clear y; revert x; with_reducible apply kept_lift)
      | (intro x; have y : State := x.1; clear y; revert x; with_reducible apply kept_lift_fst)
      | (intro x; have y : State := x.2; clear y; revert x; with_reducible apply kept_lift_snd)
      | (intro x; clear_value x) | (with_reducible apply State.overrun_kept)
      | (with_reducible apply State.raise_kept) | simp only [kept_mk, kept_fold] | (with_reducible intro _)
      | (with_reducible apply kept_ite) | split | dsimp only)

theorem State.evaluate_kept {q : List Instr} {s : State} (n : Nat) (e : Int) (invalid stateBad : Bool) (kq : Kept q s) :
    Kept q (State.evaluate s n e invalid stateBad) := by
  unfold State.evaluate
  repeat' (
    first
      | (with_reducible assumption) | lift_lets
      | (intro x; have y : State := x; clear y; revert x; with_reducible apply kept_lift)
      | (intro x; have y : State := x.1; clear y; revert x; with_reducible apply kept_lift_fst)
      | (intro x; have y : State := x.2; clear y; revert x; with_reducible apply kept_lift_snd)
      | (intro x; clear_value x) | (with_reducible apply State.fallbackLaw_kept)
      | (with_reducible apply State.fallbackParity_kept) | (with_reducible apply State.mainLaw_kept)
      | (with_reducible apply State.overrun_kept) | (with_reducible apply State.setLoop_kept)
      | simp only [kept_mk, kept_fold] | (with_reducible intro _) | (with_reducible apply kept_ite) | split
      | dsimp only)

theorem State.coefUpsets_kept {q : List Instr} {s : State} (n : Nat) (idx : List Nat) (kq : Kept q s) :
    Kept q (State.coefUpsets s n idx) := by
  unfold State.coefUpsets
  repeat' (
    first
      | (with_reducible assumption) | lift_lets
      | (intro x; have y : State := x; clear y; revert x; with_reducible apply kept_lift)
      | (intro x; have y : State := x.1; clear y; revert x; with_reducible apply kept_lift_fst)
      | (intro x; have y : State := x.2; clear y; revert x; with_reducible apply kept_lift_snd)
      | (intro x; clear_value x) | simp only [kept_mk, kept_fold] | (with_reducible intro _) | split
      | dsimp only)

theorem execLoopEvaluation_kept {q : List Instr} (upsets : List Nat) (stateUpset : Bool) {s : State} {z : State} (kq : Kept q s)
    (hx : execLoopEvaluation upsets stateUpset s = .next z) : Kept q z := by
  obtain rfl := Host.Outcome.next.inj hx
  repeat' (
    first
      | (with_reducible assumption) | lift_lets
      | (intro x; have y : State := x; clear y; revert x; with_reducible apply kept_lift)
      | (intro x; have y : State := x.1; clear y; revert x; with_reducible apply kept_lift_fst)
      | (intro x; have y : State := x.2; clear y; revert x; with_reducible apply kept_lift_snd)
      | (intro x; clear_value x) | (with_reducible apply State.coefUpsets_kept)
      | (with_reducible apply State.evaluate_kept) | (with_reducible apply State.loopForce_kept)
      | simp only [kept_mk, kept_fold] | (with_reducible intro _) | (with_reducible apply kept_ite) | split
      | dsimp only)

theorem execLoopFallback_kept {q : List Instr} {s : State} {z : State} (kq : Kept q s)
    (hx : execLoopFallback s = .next z) : Kept q z := by
  obtain rfl := Host.Outcome.next.inj hx
  repeat' (
    first
      | (with_reducible assumption) | lift_lets
      | (intro x; have y : State := x; clear y; revert x; with_reducible apply kept_lift)
      | (intro x; have y : State := x.1; clear y; revert x; with_reducible apply kept_lift_fst)
      | (intro x; have y : State := x.2; clear y; revert x; with_reducible apply kept_lift_snd)
      | (intro x; clear_value x) | (with_reducible apply State.irq_kept) | (with_reducible apply State.put_kept)
      | (with_reducible apply State.raise_kept) | (with_reducible apply State.satTrack_kept)
      | (with_reducible apply State.setLoop_kept) | simp only [kept_mk, kept_fold] | (with_reducible intro _)
      | (with_reducible apply kept_ite) | split | dsimp only)

theorem State.fbClear_kept {q : List Instr} {s : State} (n : Nat) (v : Word) (kq : Kept q s) :
    Kept q (State.fbClear s n v) := by
  unfold State.fbClear
  repeat' (
    first
      | (with_reducible assumption) | (with_reducible apply State.put_kept)
      | (with_reducible apply State.satTrack_kept) | (with_reducible apply State.setLoop_kept)
      | (with_reducible intro _) | (with_reducible apply kept_ite) | split | dsimp only)

theorem execFbClear_kept {q : List Instr} (i : Initiator) (loop : BitVec 4) (v : Word) {s : State} {z : State} (kq : Kept q s)
    (hx : execFbClear i loop v s = .next z) : Kept q z := by
  obtain rfl := Host.Outcome.next.inj hx
  repeat' (
    first
      | (with_reducible assumption) | (with_reducible apply State.fbClear_kept)
      | (with_reducible apply State.portWrite_kept) | (with_reducible intro _) | split | dsimp only)

theorem State.carryLoop_kept {q : List Instr} {s : State} (n : Nat) (kq : Kept q s) :
    Kept q (State.carryLoop s n) := by
  unfold State.carryLoop
  repeat' (
    first
      | (with_reducible assumption) | lift_lets
      | (intro x; have y : State := x; clear y; revert x; with_reducible apply kept_lift)
      | (intro x; have y : State := x.1; clear y; revert x; with_reducible apply kept_lift_fst)
      | (intro x; have y : State := x.2; clear y; revert x; with_reducible apply kept_lift_snd)
      | (intro x; clear_value x) | (with_reducible apply State.put_kept)
      | (with_reducible apply State.satTrack_kept) | (with_reducible apply State.setLoop_kept)
      | simp only [kept_mk, kept_fold] | (with_reducible intro _) | (with_reducible apply kept_ite) | split
      | dsimp only)

theorem State.swapBanks_kept {q : List Instr} {s : State} (kq : Kept q s) :
    Kept q (State.swapBanks s) := by
  unfold State.swapBanks
  repeat' (
    first
      | (with_reducible assumption) | lift_lets
      | (intro x; have y : State := x; clear y; revert x; with_reducible apply kept_lift)
      | (intro x; have y : State := x.1; clear y; revert x; with_reducible apply kept_lift_fst)
      | (intro x; have y : State := x.2; clear y; revert x; with_reducible apply kept_lift_snd)
      | (intro x; clear_value x) | (with_reducible apply State.carryLoop_kept)
      | (with_reducible apply State.irq_kept) | (with_reducible apply State.put_kept)
      | (with_reducible apply forUpto_keeps (P := Kept q)) | (with_reducible intro _)
      | (with_reducible apply kept_ite) | split | dsimp only)

theorem State.swapRequest_kept {q : List Instr} {s : State} (kq : Kept q s) :
    Kept q (State.swapRequest s) := by
  unfold State.swapRequest
  repeat' (
    first
      | (with_reducible assumption) | lift_lets
      | (intro x; have y : State := x; clear y; revert x; with_reducible apply kept_lift)
      | (intro x; have y : State := x.1; clear y; revert x; with_reducible apply kept_lift_fst)
      | (intro x; have y : State := x.2; clear y; revert x; with_reducible apply kept_lift_snd)
      | (intro x; clear_value x) | (with_reducible apply State.irq_kept) | (with_reducible apply State.put_kept)
      | (with_reducible intro _) | (with_reducible apply kept_ite) | split | dsimp only)

theorem State.swapPending_kept {q : List Instr} {s : State} (kq : Kept q s) :
    Kept q (State.swapPending s) := by
  unfold State.swapPending
  repeat' (
    first
      | (with_reducible assumption) | (with_reducible apply State.swapBanks_kept) | (with_reducible intro _)
      | (with_reducible apply kept_ite) | split | dsimp only)

theorem State.lpeCtrlWrite_kept {q : List Instr} {s : State} (v : Word) (kq : Kept q s) :
    Kept q (State.lpeCtrlWrite s v) := by
  unfold State.lpeCtrlWrite
  repeat' (
    first
      | (with_reducible assumption) | lift_lets
      | (intro x; have y : State := x; clear y; revert x; with_reducible apply kept_lift)
      | (intro x; have y : State := x.1; clear y; revert x; with_reducible apply kept_lift_fst)
      | (intro x; have y : State := x.2; clear y; revert x; with_reducible apply kept_lift_snd)
      | (intro x; clear_value x) | (with_reducible apply State.railDisable_kept)
      | (with_reducible apply State.regWrite_kept) | (with_reducible apply State.swapRequest_kept)
      | (with_reducible intro _) | (with_reducible apply kept_ite) | split | dsimp only)

theorem execRailEnWrite_kept {q : List Instr} (i : Initiator) (v : Word) {s : State} {z : State} (kq : Kept q s)
    (hx : execRailEnWrite i v s = .next z) : Kept q z := by
  obtain rfl := Host.Outcome.next.inj hx
  repeat' (
    first
      | (with_reducible assumption) | (with_reducible apply State.lpeCtrlWrite_kept)
      | (with_reducible apply State.portWrite_kept) | (with_reducible intro _) | split | dsimp only)

theorem execSwapBanks_kept {q : List Instr} (i : Initiator) (v : Word) {s : State} {z : State} (kq : Kept q s)
    (hx : execSwapBanks i v s = .next z) : Kept q z := by
  obtain rfl := Host.Outcome.next.inj hx
  repeat' (
    first
      | (with_reducible assumption) | (with_reducible apply State.lpeCtrlWrite_kept)
      | (with_reducible apply State.portWrite_kept) | (with_reducible intro _) | split | dsimp only)

theorem execLoopBankSwap_kept {q : List Instr} {s : State} {z : State} (kq : Kept q s)
    (hx : execLoopBankSwap s = .next z) : Kept q z := by
  obtain rfl := Host.Outcome.next.inj hx
  repeat' (
    first
      | (with_reducible assumption) | (with_reducible apply State.swapBanks_kept)
      | (with_reducible apply State.toSlot_kept) | (with_reducible intro _) | (with_reducible apply kept_ite)
      | split | dsimp only)

theorem State.newPeriod_kept {q : List Instr} {s : State} (kq : Kept q s) :
    Kept q (State.newPeriod s) := by
  unfold State.newPeriod
  repeat' (
    first
      | (with_reducible assumption) | lift_lets
      | (intro x; have y : State := x; clear y; revert x; with_reducible apply kept_lift)
      | (intro x; have y : State := x.1; clear y; revert x; with_reducible apply kept_lift_fst)
      | (intro x; have y : State := x.2; clear y; revert x; with_reducible apply kept_lift_snd)
      | (intro x; clear_value x) | (with_reducible apply State.setPhase_kept)
      | (with_reducible apply forUpto_keeps (P := Kept q)) | simp only [kept_mk, kept_fold]
      | (with_reducible intro _) | (with_reducible apply kept_ite) | split | dsimp only)

theorem State.crestSample_kept {q : List Instr} {s : State} (kq : Kept q s) :
    Kept q (State.crestSample s) := by
  unfold State.crestSample
  repeat' (
    first
      | (with_reducible assumption) | (with_reducible apply State.deassertF_kept)
      | (with_reducible apply State.inc_kept) | (with_reducible apply State.put_kept) | (with_reducible intro _)
      | (with_reducible apply kept_ite) | split | dsimp only)

theorem State.vsnsSample_kept {q : List Instr} {s : State} (code : Nat) (valid : Bool) (kq : Kept q s) :
    Kept q (State.vsnsSample s code valid) := by
  unfold State.vsnsSample
  repeat' (
    first
      | (with_reducible assumption) | lift_lets
      | (intro x; have y : State := x; clear y; revert x; with_reducible apply kept_lift)
      | (intro x; have y : State := x.1; clear y; revert x; with_reducible apply kept_lift_fst)
      | (intro x; have y : State := x.2; clear y; revert x; with_reducible apply kept_lift_snd)
      | (intro x; clear_value x) | (with_reducible apply State.put_kept) | simp only [kept_mk, kept_fold]
      | (with_reducible intro _) | (with_reducible apply kept_ite) | split | dsimp only)

theorem State.inRegUpdate_kept {q : List Instr} {s : State} (kq : Kept q s) :
    Kept q (State.inRegUpdate s) := by
  unfold State.inRegUpdate
  repeat' (
    first
      | (with_reducible assumption) | lift_lets
      | (intro x; have y : State := x; clear y; revert x; with_reducible apply kept_lift)
      | (intro x; have y : State := x.1; clear y; revert x; with_reducible apply kept_lift_fst)
      | (intro x; have y : State := x.2; clear y; revert x; with_reducible apply kept_lift_snd)
      | (intro x; clear_value x) | (with_reducible apply State.put_kept) | simp only [kept_mk, kept_fold]
      | (with_reducible intro _) | (with_reducible apply kept_ite) | split | dsimp only)

theorem State.refSample_kept {q : List Instr} {s : State} (code : Nat) (kq : Kept q s) :
    Kept q (State.refSample s code) := by
  unfold State.refSample
  repeat' (
    first
      | (with_reducible assumption) | lift_lets
      | (intro x; have y : State := x; clear y; revert x; with_reducible apply kept_lift)
      | (intro x; have y : State := x.1; clear y; revert x; with_reducible apply kept_lift_fst)
      | (intro x; have y : State := x.2; clear y; revert x; with_reducible apply kept_lift_snd)
      | (intro x; clear_value x) | (with_reducible apply State.put_kept) | simp only [kept_mk, kept_fold]
      | (with_reducible intro _) | (with_reducible apply kept_ite) | split | dsimp only)

theorem State.uvpSample_kept {q : List Instr} {s : State} (kq : Kept q s) :
    Kept q (State.uvpSample s) := by
  unfold State.uvpSample
  repeat' (
    first
      | (with_reducible assumption) | lift_lets
      | (intro x; have y : State := x; clear y; revert x; with_reducible apply kept_lift)
      | (intro x; have y : State := x.1; clear y; revert x; with_reducible apply kept_lift_fst)
      | (intro x; have y : State := x.2; clear y; revert x; with_reducible apply kept_lift_snd)
      | (intro x; clear_value x) | simp only [kept_mk, kept_fold] | (with_reducible intro _)
      | (with_reducible apply kept_ite) | split | dsimp only)

theorem State.railAdvance_kept {q : List Instr} {s : State} (kq : Kept q s) :
    Kept q (State.railAdvance s) := by
  unfold State.railAdvance
  repeat' (
    first
      | (with_reducible assumption) | lift_lets
      | (intro x; have y : State := x; clear y; revert x; with_reducible apply kept_lift)
      | (intro x; have y : State := x.1; clear y; revert x; with_reducible apply kept_lift_fst)
      | (intro x; have y : State := x.2; clear y; revert x; with_reducible apply kept_lift_snd)
      | (intro x; clear_value x) | (with_reducible apply State.clearLoops_kept)
      | (with_reducible apply State.inRegClear_kept) | (with_reducible apply State.put_kept)
      | simp only [kept_mk, kept_fold] | (with_reducible intro _) | (with_reducible apply kept_ite) | split
      | dsimp only)

theorem State.outerSample_kept {q : List Instr} {s : State} (ref : Nat) (refValid : Bool) (kq : Kept q s) :
    Kept q (State.outerSample s ref refValid) := by
  unfold State.outerSample
  repeat' (
    first
      | (with_reducible assumption) | lift_lets
      | (intro x; have y : State := x; clear y; revert x; with_reducible apply kept_lift)
      | (intro x; have y : State := x.1; clear y; revert x; with_reducible apply kept_lift_fst)
      | (intro x; have y : State := x.2; clear y; revert x; with_reducible apply kept_lift_snd)
      | (intro x; clear_value x) | (with_reducible apply State.inRegUpdate_kept)
      | (with_reducible apply State.put_kept) | (with_reducible apply State.railAdvance_kept)
      | (with_reducible apply State.refSample_kept) | (with_reducible apply State.tripRail_kept)
      | (with_reducible apply State.uvpSample_kept) | simp only [kept_mk, kept_fold] | (with_reducible intro _)
      | (with_reducible apply kept_ite) | split | dsimp only)

theorem State.psLevel_kept {q : List Instr} {s : State} (high : Bool) (kq : Kept q s) :
    Kept q (State.psLevel s high) := by
  unfold State.psLevel
  repeat' (
    first
      | (with_reducible assumption) | lift_lets
      | (intro x; have y : State := x; clear y; revert x; with_reducible apply kept_lift)
      | (intro x; have y : State := x.1; clear y; revert x; with_reducible apply kept_lift_fst)
      | (intro x; have y : State := x.2; clear y; revert x; with_reducible apply kept_lift_snd)
      | (intro x; clear_value x) | (with_reducible apply State.deassertF_kept) | simp only [kept_mk, kept_fold]
      | (with_reducible intro _) | (with_reducible apply kept_ite) | split | dsimp only)

theorem State.innerSample_kept {q : List Instr} {s : State} (vsns ref : Nat) (vsnsValid refValid psHigh : Bool) (kq : Kept q s) :
    Kept q (State.innerSample s vsns ref vsnsValid refValid psHigh) := by
  unfold State.innerSample
  repeat' (
    first
      | (with_reducible assumption) | lift_lets
      | (intro x; have y : State := x; clear y; revert x; with_reducible apply kept_lift)
      | (intro x; have y : State := x.1; clear y; revert x; with_reducible apply kept_lift_fst)
      | (intro x; have y : State := x.2; clear y; revert x; with_reducible apply kept_lift_snd)
      | (intro x; clear_value x) | (with_reducible apply State.crestSample_kept)
      | (with_reducible apply State.formVSet_kept) | (with_reducible apply State.loopForce_kept)
      | (with_reducible apply State.newPeriod_kept) | (with_reducible apply State.outerSample_kept)
      | (with_reducible apply State.psLevel_kept) | (with_reducible apply State.recExt_kept)
      | (with_reducible apply State.stageOff_kept) | (with_reducible apply State.swapPending_kept)
      | (with_reducible apply State.vsnsSample_kept) | simp only [kept_mk, kept_fold] | (with_reducible intro _)
      | (with_reducible apply kept_ite) | split | dsimp only)

theorem execInnerSample_kept {q : List Instr} (vsns ref : BitVec 12) (vsnsValid refValid psHigh : Bool) {s : State} {z : State} (kq : Kept q s)
    (hx : execInnerSample vsns ref vsnsValid refValid psHigh s = .next z) : Kept q z := by
  obtain rfl := Host.Outcome.next.inj hx
  repeat' (
    first
      | (with_reducible assumption) | (with_reducible apply State.innerSample_kept)
      | (with_reducible apply State.toSlot_kept) | (with_reducible intro _) | (with_reducible apply kept_ite)
      | split | dsimp only)

theorem State.setPwm_kept {q : List Instr} {s : State} (p : Nat) (high : Bool) (kq : Kept q s) :
    Kept q (State.setPwm s p high) := by
  unfold State.setPwm
  repeat' (
    first
      | (with_reducible assumption) | lift_lets
      | (intro x; have y : State := x; clear y; revert x; with_reducible apply kept_lift)
      | (intro x; have y : State := x.1; clear y; revert x; with_reducible apply kept_lift_fst)
      | (intro x; have y : State := x.2; clear y; revert x; with_reducible apply kept_lift_snd)
      | (intro x; clear_value x) | simp only [kept_mk, kept_fold] | (with_reducible intro _)
      | (with_reducible apply kept_ite) | split | dsimp only)

theorem execPhasePulseStart_kept {q : List Instr} (p : BitVec 3) {s : State} {z : State} (kq : Kept q s)
    (hx : execPhasePulseStart p s = .next z) : Kept q z := by
  obtain rfl := Host.Outcome.next.inj hx
  repeat' (
    first
      | (with_reducible assumption) | lift_lets
      | (intro x; have y : State := x; clear y; revert x; with_reducible apply kept_lift)
      | (intro x; have y : State := x.1; clear y; revert x; with_reducible apply kept_lift_fst)
      | (intro x; have y : State := x.2; clear y; revert x; with_reducible apply kept_lift_snd)
      | (intro x; clear_value x) | (with_reducible apply State.loopForce_kept)
      | (with_reducible apply State.runTo_kept) | (with_reducible apply State.setPhase_kept)
      | (with_reducible apply State.setPwm_kept) | simp only [kept_mk, kept_fold] | (with_reducible intro _)
      | (with_reducible apply kept_ite) | split | dsimp only)

theorem execPhasePulseEnd_kept {q : List Instr} (p : BitVec 3) {s : State} {z : State} (kq : Kept q s)
    (hx : execPhasePulseEnd p s = .next z) : Kept q z := by
  obtain rfl := Host.Outcome.next.inj hx
  repeat' (
    first
      | (with_reducible assumption) | lift_lets
      | (intro x; have y : State := x; clear y; revert x; with_reducible apply kept_lift)
      | (intro x; have y : State := x.1; clear y; revert x; with_reducible apply kept_lift_fst)
      | (intro x; have y : State := x.2; clear y; revert x; with_reducible apply kept_lift_snd)
      | (intro x; clear_value x) | (with_reducible apply State.runTo_kept)
      | (with_reducible apply State.setPwm_kept) | (with_reducible intro _) | (with_reducible apply kept_ite)
      | split | dsimp only)

theorem execIsnsConversion_kept {q : List Instr} (p : BitVec 3) (code : BitVec 12) (valid : Bool) {s : State} {z : State} (kq : Kept q s)
    (hx : execIsnsConversion p code valid s = .next z) : Kept q z := by
  obtain rfl := Host.Outcome.next.inj hx
  repeat' (
    first
      | (with_reducible assumption) | lift_lets
      | (intro x; have y : State := x; clear y; revert x; with_reducible apply kept_lift)
      | (intro x; have y : State := x.1; clear y; revert x; with_reducible apply kept_lift_fst)
      | (intro x; have y : State := x.2; clear y; revert x; with_reducible apply kept_lift_snd)
      | (intro x; clear_value x) | (with_reducible apply State.runTo_kept)
      | (with_reducible apply State.setPhase_kept) | simp only [kept_mk, kept_fold] | (with_reducible intro _)
      | (with_reducible apply kept_ite) | split | dsimp only)

theorem execCbcTrip_kept {q : List Instr} (p : BitVec 3) {s : State} {z : State} (kq : Kept q s)
    (hx : execCbcTrip p s = .next z) : Kept q z := by
  obtain rfl := Host.Outcome.next.inj hx
  repeat' (
    first
      | (with_reducible assumption) | lift_lets
      | (intro x; have y : State := x; clear y; revert x; with_reducible apply kept_lift)
      | (intro x; have y : State := x.1; clear y; revert x; with_reducible apply kept_lift_fst)
      | (intro x; have y : State := x.2; clear y; revert x; with_reducible apply kept_lift_snd)
      | (intro x; clear_value x) | (with_reducible apply State.inc_kept)
      | (with_reducible apply State.setPhase_kept) | (with_reducible apply State.setPwm_kept)
      | simp only [kept_mk, kept_fold] | (with_reducible intro _) | (with_reducible apply kept_ite) | split
      | dsimp only)

theorem execRailStartTimeout_kept {q : List Instr} {s : State} {z : State} (kq : Kept q s)
    (hx : execRailStartTimeout s = .next z) : Kept q z := by
  obtain rfl := Host.Outcome.next.inj hx
  repeat' (
    first
      | (with_reducible assumption) | lift_lets
      | (intro x; have y : State := x; clear y; revert x; with_reducible apply kept_lift)
      | (intro x; have y : State := x.1; clear y; revert x; with_reducible apply kept_lift_fst)
      | (intro x; have y : State := x.2; clear y; revert x; with_reducible apply kept_lift_snd)
      | (intro x; clear_value x) | (with_reducible apply State.raise_kept)
      | (with_reducible apply State.tripRail_kept) | simp only [kept_mk, kept_fold] | (with_reducible intro _)
      | (with_reducible apply kept_ite) | split | dsimp only)

theorem execVledOvp_kept {q : List Instr} {s : State} {z : State} (kq : Kept q s)
    (hx : execVledOvp s = .next z) : Kept q z := by
  obtain rfl := Host.Outcome.next.inj hx
  repeat' (
    first
      | (with_reducible assumption) | lift_lets
      | (intro x; have y : State := x; clear y; revert x; with_reducible apply kept_lift)
      | (intro x; have y : State := x.1; clear y; revert x; with_reducible apply kept_lift_fst)
      | (intro x; have y : State := x.2; clear y; revert x; with_reducible apply kept_lift_snd)
      | (intro x; clear_value x) | (with_reducible apply State.raise_kept) | simp only [kept_mk, kept_fold]
      | (with_reducible intro _) | (with_reducible apply kept_ite) | split | dsimp only)

theorem execVledUvp_kept {q : List Instr} {s : State} {z : State} (kq : Kept q s)
    (hx : execVledUvp s = .next z) : Kept q z := by
  obtain rfl := Host.Outcome.next.inj hx
  repeat' (
    first
      | (with_reducible assumption) | lift_lets
      | (intro x; have y : State := x; clear y; revert x; with_reducible apply kept_lift)
      | (intro x; have y : State := x.1; clear y; revert x; with_reducible apply kept_lift_fst)
      | (intro x; have y : State := x.2; clear y; revert x; with_reducible apply kept_lift_snd)
      | (intro x; clear_value x) | (with_reducible apply State.raise_kept)
      | (with_reducible apply State.tripRail_kept) | simp only [kept_mk, kept_fold] | (with_reducible intro _)
      | (with_reducible apply kept_ite) | split | dsimp only)

theorem execIsnsRangeFault_kept {q : List Instr} {s : State} {z : State} (kq : Kept q s)
    (hx : execIsnsRangeFault s = .next z) : Kept q z := by
  obtain rfl := Host.Outcome.next.inj hx
  repeat' (
    first
      | (with_reducible assumption) | lift_lets
      | (intro x; have y : State := x; clear y; revert x; with_reducible apply kept_lift)
      | (intro x; have y : State := x.1; clear y; revert x; with_reducible apply kept_lift_fst)
      | (intro x; have y : State := x.2; clear y; revert x; with_reducible apply kept_lift_snd)
      | (intro x; clear_value x) | (with_reducible apply State.raise_kept)
      | (with_reducible apply State.tripRail_kept) | simp only [kept_mk, kept_fold] | (with_reducible intro _)
      | (with_reducible apply kept_ite) | split | dsimp only)

theorem execIsnsRefFault_kept {q : List Instr} {s : State} {z : State} (kq : Kept q s)
    (hx : execIsnsRefFault s = .next z) : Kept q z := by
  obtain rfl := Host.Outcome.next.inj hx
  repeat' (
    first
      | (with_reducible assumption) | lift_lets
      | (intro x; have y : State := x; clear y; revert x; with_reducible apply kept_lift)
      | (intro x; have y : State := x.1; clear y; revert x; with_reducible apply kept_lift_fst)
      | (intro x; have y : State := x.2; clear y; revert x; with_reducible apply kept_lift_snd)
      | (intro x; clear_value x) | (with_reducible apply State.raise_kept)
      | (with_reducible apply State.tripRail_kept) | simp only [kept_mk, kept_fold] | (with_reducible intro _)
      | (with_reducible apply kept_ite) | split | dsimp only)

theorem execPsFltNLow_kept {q : List Instr} {s : State} {z : State} (kq : Kept q s)
    (hx : execPsFltNLow s = .next z) : Kept q z := by
  obtain rfl := Host.Outcome.next.inj hx
  repeat' (
    first
      | (with_reducible assumption) | lift_lets
      | (intro x; have y : State := x; clear y; revert x; with_reducible apply kept_lift)
      | (intro x; have y : State := x.1; clear y; revert x; with_reducible apply kept_lift_fst)
      | (intro x; have y : State := x.2; clear y; revert x; with_reducible apply kept_lift_snd)
      | (intro x; clear_value x) | (with_reducible apply State.assertF_kept)
      | (with_reducible apply State.tripRail_kept) | simp only [kept_mk, kept_fold] | (with_reducible intro _)
      | (with_reducible apply kept_ite) | split | dsimp only)

theorem execPhaseOc_kept {q : List Instr} {s : State} {z : State} (kq : Kept q s)
    (hx : execPhaseOc s = .next z) : Kept q z := by
  obtain rfl := Host.Outcome.next.inj hx
  repeat' (
    first
      | (with_reducible assumption) | lift_lets
      | (intro x; have y : State := x; clear y; revert x; with_reducible apply kept_lift)
      | (intro x; have y : State := x.1; clear y; revert x; with_reducible apply kept_lift_fst)
      | (intro x; have y : State := x.2; clear y; revert x; with_reducible apply kept_lift_snd)
      | (intro x; clear_value x) | (with_reducible apply State.raise_kept)
      | (with_reducible apply State.tripRail_kept) | simp only [kept_mk, kept_fold] | (with_reducible intro _)
      | (with_reducible apply kept_ite) | split | dsimp only)

theorem State.crestFail_kept {q : List Instr} {s : State} (kq : Kept q s) :
    Kept q (State.crestFail s) := by
  unfold State.crestFail
  repeat' (
    first
      | (with_reducible assumption) | lift_lets
      | (intro x; have y : State := x; clear y; revert x; with_reducible apply kept_lift)
      | (intro x; have y : State := x.1; clear y; revert x; with_reducible apply kept_lift_fst)
      | (intro x; have y : State := x.2; clear y; revert x; with_reducible apply kept_lift_snd)
      | (intro x; clear_value x) | (with_reducible apply State.assertF_kept)
      | (with_reducible apply State.put_kept) | simp only [kept_mk, kept_fold] | (with_reducible intro _)
      | (with_reducible apply kept_ite) | split | dsimp only)

theorem State.crestDeliver_kept {q : List Instr} {s : State} (kq : Kept q s) :
    Kept q (State.crestDeliver s) := by
  unfold State.crestDeliver
  repeat' (
    first
      | (with_reducible assumption) | lift_lets
      | (intro x; have y : State := x; clear y; revert x; with_reducible apply kept_lift)
      | (intro x; have y : State := x.1; clear y; revert x; with_reducible apply kept_lift_fst)
      | (intro x; have y : State := x.2; clear y; revert x; with_reducible apply kept_lift_snd)
      | (intro x; clear_value x) | (with_reducible apply State.crestFail_kept)
      | (with_reducible apply State.put_kept) | simp only [kept_mk, kept_fold] | (with_reducible intro _)
      | (with_reducible apply kept_ite) | split | dsimp only)

theorem State.crestInstant_kept {q : List Instr} {s : State} (kq : Kept q s) :
    Kept q (State.crestInstant s) := by
  unfold State.crestInstant
  repeat' (
    first
      | (with_reducible assumption) | lift_lets
      | (intro x; have y : State := x; clear y; revert x; with_reducible apply kept_lift)
      | (intro x; have y : State := x.1; clear y; revert x; with_reducible apply kept_lift_fst)
      | (intro x; have y : State := x.2; clear y; revert x; with_reducible apply kept_lift_snd)
      | (intro x; clear_value x) | simp only [kept_mk, kept_fold] | (with_reducible intro _)
      | (with_reducible apply kept_ite) | split | dsimp only)

theorem execCrestFallback_kept {q : List Instr} (parity : Bool) {s : State} {z : State} (kq : Kept q s)
    (hx : execCrestFallback parity s = .next z) : Kept q z := by
  obtain rfl := Host.Outcome.next.inj hx
  repeat' (
    first
      | (with_reducible assumption) | (with_reducible apply State.crestFail_kept) | (with_reducible intro _)
      | (with_reducible apply kept_ite) | split | dsimp only)

theorem State.trimBack_kept {q : List Instr} {s : State} (kq : Kept q s) :
    Kept q (State.trimBack s) := by
  unfold State.trimBack
  repeat' (
    first
      | (with_reducible assumption) | lift_lets
      | (intro x; have y : State := x; clear y; revert x; with_reducible apply kept_lift)
      | (intro x; have y : State := x.1; clear y; revert x; with_reducible apply kept_lift_fst)
      | (intro x; have y : State := x.2; clear y; revert x; with_reducible apply kept_lift_snd)
      | (intro x; clear_value x) | (with_reducible apply State.put_kept)
      | (with_reducible apply State.satTrack_kept) | (with_reducible apply State.setLoop_kept)
      | simp only [kept_mk, kept_fold] | (with_reducible intro _) | split | dsimp only)

theorem State.headroom_kept {q : List Instr} {s : State} (hMin : Nat) (out stateUpset : Bool) (kq : Kept q s) :
    Kept q (State.headroom s hMin out stateUpset) := by
  unfold State.headroom
  repeat' (
    first
      | (with_reducible assumption) | lift_lets
      | (intro x; have y : State := x; clear y; revert x; with_reducible apply kept_lift)
      | (intro x; have y : State := x.1; clear y; revert x; with_reducible apply kept_lift_fst)
      | (intro x; have y : State := x.2; clear y; revert x; with_reducible apply kept_lift_snd)
      | (intro x; clear_value x) | (with_reducible apply State.evaluate_kept)
      | (with_reducible apply State.trimBack_kept) | (with_reducible intro _) | (with_reducible apply kept_ite)
      | split | dsimp only)

theorem execHeadroomTrim_kept {q : List Instr} (r : Compliance) {s : State} {z : State} (kq : Kept q s)
    (hx : execHeadroomTrim r s = .next z) : Kept q z := by
  obtain rfl := Host.Outcome.next.inj hx
  repeat' (
    first
      | (with_reducible assumption) | lift_lets
      | (intro x; have y : State := x; clear y; revert x; with_reducible apply kept_lift)
      | (intro x; have y : State := x.1; clear y; revert x; with_reducible apply kept_lift_fst)
      | (intro x; have y : State := x.2; clear y; revert x; with_reducible apply kept_lift_snd)
      | (intro x; clear_value x) | (with_reducible apply State.coefUpsets_kept)
      | (with_reducible apply State.headroom_kept) | (with_reducible apply State.irq_kept)
      | (with_reducible apply State.overrun_kept) | (with_reducible apply State.raise_kept)
      | (with_reducible apply State.toSlot_kept) | simp only [kept_mk, kept_fold] | (with_reducible intro _)
      | (with_reducible apply kept_ite) | split | dsimp only)

theorem State.fanLoop_kept {q : List Instr} {s : State} (kq : Kept q s) :
    Kept q (State.fanLoop s) := by
  unfold State.fanLoop
  repeat' (
    first
      | (with_reducible assumption) | lift_lets
      | (intro x; have y : State := x; clear y; revert x; with_reducible apply kept_lift)
      | (intro x; have y : State := x.1; clear y; revert x; with_reducible apply kept_lift_fst)
      | (intro x; have y : State := x.2; clear y; revert x; with_reducible apply kept_lift_snd)
      | (intro x; clear_value x) | (with_reducible apply State.loopForce_kept) | simp only [kept_mk, kept_fold]
      | (with_reducible intro _) | (with_reducible apply kept_ite) | split | dsimp only)

theorem State.tachFrame_kept {q : List Instr} {s : State} (edges : Nat) (kq : Kept q s) :
    Kept q (State.tachFrame s edges) := by
  unfold State.tachFrame
  repeat' (
    first
      | (with_reducible assumption) | lift_lets
      | (intro x; have y : State := x; clear y; revert x; with_reducible apply kept_lift)
      | (intro x; have y : State := x.1; clear y; revert x; with_reducible apply kept_lift_fst)
      | (intro x; have y : State := x.2; clear y; revert x; with_reducible apply kept_lift_snd)
      | (intro x; clear_value x) | (with_reducible apply State.deassertF_kept)
      | (with_reducible apply State.put_kept) | simp only [kept_mk, kept_fold] | (with_reducible intro _)
      | (with_reducible apply kept_ite) | split | dsimp only)

theorem execFanPeriod_kept {q : List Instr} {s : State} {z : State} (kq : Kept q s)
    (hx : execFanPeriod s = .next z) : Kept q z := by
  obtain rfl := Host.Outcome.next.inj hx
  repeat' (
    first
      | (with_reducible assumption) | lift_lets
      | (intro x; have y : State := x; clear y; revert x; with_reducible apply kept_lift)
      | (intro x; have y : State := x.1; clear y; revert x; with_reducible apply kept_lift_fst)
      | (intro x; have y : State := x.2; clear y; revert x; with_reducible apply kept_lift_snd)
      | (intro x; clear_value x) | (with_reducible apply State.loopForce_kept) | simp only [kept_mk, kept_fold]
      | (with_reducible intro _) | (with_reducible apply kept_ite) | split | dsimp only)

theorem execTachFault_kept {q : List Instr} {s : State} {z : State} (kq : Kept q s)
    (hx : execTachFault s = .next z) : Kept q z := by
  obtain rfl := Host.Outcome.next.inj hx
  repeat' (
    first
      | (with_reducible assumption) | lift_lets
      | (intro x; have y : State := x; clear y; revert x; with_reducible apply kept_lift)
      | (intro x; have y : State := x.1; clear y; revert x; with_reducible apply kept_lift_fst)
      | (intro x; have y : State := x.2; clear y; revert x; with_reducible apply kept_lift_snd)
      | (intro x; clear_value x) | (with_reducible apply State.assertF_kept) | simp only [kept_mk, kept_fold]
      | (with_reducible intro _) | (with_reducible apply kept_ite) | split | dsimp only)

theorem State.lpCoefInc_kept {q : List Instr} {s : State} (kq : Kept q s) :
    Kept q (State.lpCoefInc s) := by
  unfold State.lpCoefInc
  repeat' (
    first
      | (with_reducible assumption) | (with_reducible apply State.put_kept) | (with_reducible intro _)
      | (with_reducible apply kept_ite) | split | dsimp only)

theorem State.lpCoefRead_kept {q : List Instr} {s : State} (kq : Kept q s) :
    Kept q (State.lpCoefRead s).2 := by
  unfold State.lpCoefRead
  repeat' (
    first
      | (with_reducible assumption) | lift_lets
      | (intro x; have y : State := x; clear y; revert x; with_reducible apply kept_lift)
      | (intro x; have y : State := x.1; clear y; revert x; with_reducible apply kept_lift_fst)
      | (intro x; have y : State := x.2; clear y; revert x; with_reducible apply kept_lift_snd)
      | (intro x; clear_value x) | (with_reducible apply State.lpCoefInc_kept)
      | (with_reducible apply State.put_kept) | (with_reducible intro _) | (with_reducible apply kept_ite)
      | (with_reducible apply kept_ite_fst) | (with_reducible apply kept_ite_snd) | split | dsimp only)

theorem State.bankUnready_kept {q : List Instr} {s : State} (b : Nat) (kq : Kept q s) :
    Kept q (State.bankUnready s b) := by
  unfold State.bankUnready
  repeat' (
    first
      | (with_reducible assumption) | (with_reducible apply State.put_kept) | (with_reducible intro _)
      | (with_reducible apply kept_ite) | split | dsimp only)

theorem State.lpCoefStore_kept {q : List Instr} {s : State} (k : Nat) (m : Word) (sh : BitVec 6) (kq : Kept q s) :
    Kept q (State.lpCoefStore s k m sh) := by
  unfold State.lpCoefStore
  repeat' (
    first
      | (with_reducible assumption) | lift_lets
      | (intro x; have y : State := x; clear y; revert x; with_reducible apply kept_lift)
      | (intro x; have y : State := x.1; clear y; revert x; with_reducible apply kept_lift_fst)
      | (intro x; have y : State := x.2; clear y; revert x; with_reducible apply kept_lift_snd)
      | (intro x; clear_value x) | simp only [kept_mk, kept_fold] | (with_reducible intro _) | split
      | dsimp only)

theorem State.lpCoefWrite_kept {q : List Instr} {s : State} (v : Word) (kq : Kept q s) :
    Kept q (State.lpCoefWrite s v) := by
  unfold State.lpCoefWrite
  repeat' (
    first
      | (with_reducible assumption) | (with_reducible apply State.bankUnready_kept)
      | (with_reducible apply State.lpCoefInc_kept) | (with_reducible apply State.lpCoefStore_kept)
      | (with_reducible apply State.put_kept) | (with_reducible intro _) | (with_reducible apply kept_ite)
      | split | dsimp only)

theorem State.bankWrite_kept {q : List Instr} {s : State} (b : Nat) (v : Word) (kq : Kept q s) :
    Kept q (State.bankWrite s b v) := by
  unfold State.bankWrite
  repeat' (
    first
      | (with_reducible assumption) | (with_reducible apply State.put_kept)
      | (with_reducible apply State.regWrite_kept) | (with_reducible intro _) | (with_reducible apply kept_ite)
      | split | dsimp only)

theorem execLpeCoefMWrite_kept {q : List Instr} (i : Initiator) (v : Word) {s : State} {z : State} (kq : Kept q s)
    (hx : execLpeCoefMWrite i v s = .next z) : Kept q z := by
  obtain rfl := Host.Outcome.next.inj hx
  repeat' (
    first
      | (with_reducible assumption) | (with_reducible apply State.lpCoefWrite_kept)
      | (with_reducible apply State.portWrite_kept) | (with_reducible intro _) | split | dsimp only)

theorem execLpeCoefMRead_kept {q : List Instr} (i : Initiator) {s : State} {z : State} (kq : Kept q s)
    (hx : execLpeCoefMRead i s = .next z) : Kept q z := by
  obtain rfl := Host.Outcome.next.inj hx
  repeat' (
    first
      | (with_reducible assumption) | (with_reducible apply State.lpCoefRead_kept)
      | (with_reducible apply State.portRead_kept) | (with_reducible intro _) | split | dsimp only)

theorem State.lpeLine_kept {q : List Instr} {s : State} (old : Nat) (kq : Kept q s) :
    Kept q (State.lpeLine s old) := by
  unfold State.lpeLine
  repeat' (
    first
      | (with_reducible assumption) | lift_lets
      | (intro x; have y : State := x; clear y; revert x; with_reducible apply kept_lift)
      | (intro x; have y : State := x.1; clear y; revert x; with_reducible apply kept_lift_fst)
      | (intro x; have y : State := x.2; clear y; revert x; with_reducible apply kept_lift_snd)
      | (intro x; clear_value x) | simp only [kept_mk, kept_fold] | (with_reducible intro _) | split
      | dsimp only)

theorem State.lpeStart_kept {q : List Instr} {s : State} (kq : Kept q s) :
    Kept q (State.lpeStart s) := by
  unfold State.lpeStart
  repeat' (
    first
      | (with_reducible assumption) | lift_lets
      | (intro x; have y : State := x; clear y; revert x; with_reducible apply kept_lift)
      | (intro x; have y : State := x.1; clear y; revert x; with_reducible apply kept_lift_fst)
      | (intro x; have y : State := x.2; clear y; revert x; with_reducible apply kept_lift_snd)
      | (intro x; clear_value x) | simp only [kept_mk, kept_fold] | (with_reducible intro _) | split
      | dsimp only)

end Sys2Proof.Machine
end

