-- ==== Sys2Proof/Laws/KeptCalib.lean ====
section
/-!
SUPPORT. The operations of Machine/Calib.lean keep the queue and the canonical form.
-/

set_option linter.unusedSimpArgs false
set_option linter.unusedTactic false
set_option linter.unreachableTactic false

namespace Sys2Proof.Machine

theorem State.calShow_kept {q : List Instr} {s : State} (kq : Kept q s) :
    Kept q (State.calShow s) := by
  unfold State.calShow
  repeat' (
    first
      | (with_reducible assumption) | (with_reducible apply State.put_kept) | (with_reducible intro _) | split
      | dsimp only)

theorem State.setBit_kept {q : List Instr} {s : State} (f : Field) (i : Nat) (kq : Kept q s) :
    Kept q (State.setBit s f i) := by
  unfold State.setBit
  repeat' (
    first
      | (with_reducible assumption) | (with_reducible apply State.put_kept) | (with_reducible intro _)
      | (with_reducible apply kept_ite) | split | dsimp only)

theorem State.adoptLink_kept {q : List Instr} {s : State} (v : CalVal) (kq : Kept q s) :
    Kept q (State.adoptLink s v) := by
  unfold State.adoptLink
  repeat' (
    first
      | (with_reducible assumption) | lift_lets
      | (intro x; have y : State := x; clear y; revert x; with_reducible apply kept_lift)
      | (intro x; have y : State := x.1; clear y; revert x; with_reducible apply kept_lift_fst)
      | (intro x; have y : State := x.2; clear y; revert x; with_reducible apply kept_lift_snd)
      | (intro x; clear_value x) | (with_reducible apply State.put_kept) | (with_reducible intro _)
      | (with_reducible apply kept_ite) | split | dsimp only)

theorem State.setIsns_kept {q : List Instr} {s : State} (p : Nat) (o : Int) (kq : Kept q s) :
    Kept q (State.setIsns s p o) := by
  unfold State.setIsns
  repeat' (
    first
      | (with_reducible assumption) | lift_lets
      | (intro x; have y : State := x; clear y; revert x; with_reducible apply kept_lift)
      | (intro x; have y : State := x.1; clear y; revert x; with_reducible apply kept_lift_fst)
      | (intro x; have y : State := x.2; clear y; revert x; with_reducible apply kept_lift_snd)
      | (intro x; clear_value x) | (with_reducible apply State.setReg_kept) | (with_reducible intro _) | split
      | dsimp only)

theorem State.loadTaps_kept {q : List Instr} {s : State} (kq : Kept q s) :
    Kept q (State.loadTaps s) := by
  unfold State.loadTaps
  repeat' (
    first
      | (with_reducible assumption) | lift_lets
      | (intro x; have y : State := x; clear y; revert x; with_reducible apply kept_lift)
      | (intro x; have y : State := x.1; clear y; revert x; with_reducible apply kept_lift_fst)
      | (intro x; have y : State := x.2; clear y; revert x; with_reducible apply kept_lift_snd)
      | (intro x; clear_value x) | simp only [kept_mk, kept_fold] | (with_reducible intro _) | split
      | dsimp only)

theorem State.adopt_kept {q : List Instr} {s : State} (v : CalVal) (kq : Kept q s) :
    Kept q (State.adopt s v) := by
  unfold State.adopt
  repeat' (
    first
      | (with_reducible assumption) | lift_lets
      | (intro x; have y : State := x; clear y; revert x; with_reducible apply kept_lift)
      | (intro x; have y : State := x.1; clear y; revert x; with_reducible apply kept_lift_fst)
      | (intro x; have y : State := x.2; clear y; revert x; with_reducible apply kept_lift_snd)
      | (intro x; clear_value x) | (with_reducible apply State.adoptLink_kept)
      | (with_reducible apply State.loadTaps_kept) | (with_reducible apply State.put_kept)
      | (with_reducible apply State.setIsns_kept) | (with_reducible apply forUpto_keeps (P := Kept q))
      | simp only [kept_mk, kept_fold] | (with_reducible intro _) | (with_reducible apply kept_ite) | split
      | dsimp only)

theorem State.recordState_kept {q : List Instr} {s : State} (kq : Kept q s) :
    Kept q (State.recordState s) := by
  unfold State.recordState
  repeat' (
    first
      | (with_reducible assumption) | lift_lets
      | (intro x; have y : State := x; clear y; revert x; with_reducible apply kept_lift)
      | (intro x; have y : State := x.1; clear y; revert x; with_reducible apply kept_lift_fst)
      | (intro x; have y : State := x.2; clear y; revert x; with_reducible apply kept_lift_snd)
      | (intro x; clear_value x) | (with_reducible apply State.put_kept) | simp only [kept_mk, kept_fold]
      | (with_reducible intro _) | (with_reducible apply kept_ite) | split | dsimp only)

theorem State.recordBase_kept {q : List Instr} {s : State} (kq : Kept q s) :
    Kept q (State.recordBase s) := by
  unfold State.recordBase
  repeat' (
    first
      | (with_reducible assumption) | lift_lets
      | (intro x; have y : State := x; clear y; revert x; with_reducible apply kept_lift)
      | (intro x; have y : State := x.1; clear y; revert x; with_reducible apply kept_lift_fst)
      | (intro x; have y : State := x.2; clear y; revert x; with_reducible apply kept_lift_snd)
      | (intro x; clear_value x) | (with_reducible apply State.recordState_kept)
      | simp only [kept_mk, kept_fold] | (with_reducible intro _) | (with_reducible apply kept_ite) | split
      | dsimp only)

theorem State.pendingState_kept {q : List Instr} {s : State} (kq : Kept q s) :
    Kept q (State.pendingState s) := by
  unfold State.pendingState
  repeat' (
    first
      | (with_reducible assumption) | (with_reducible apply State.adopt_kept)
      | (with_reducible apply State.recordBase_kept) | (with_reducible apply kept_foldl)
      | (with_reducible intro _) | split | dsimp only)

theorem State.calBegin_kept {q : List Instr} {s : State} (it : CalItem) (kq : Kept q s) :
    Kept q (State.calBegin s it) := by
  unfold State.calBegin
  repeat' (
    first
      | (with_reducible assumption) | lift_lets
      | (intro x; have y : State := x; clear y; revert x; with_reducible apply kept_lift)
      | (intro x; have y : State := x.1; clear y; revert x; with_reducible apply kept_lift_fst)
      | (intro x; have y : State := x.2; clear y; revert x; with_reducible apply kept_lift_snd)
      | (intro x; clear_value x) | (with_reducible apply State.put_kept) | simp only [kept_mk, kept_fold]
      | (with_reducible intro _) | (with_reducible apply kept_ite) | split | dsimp only)

theorem State.calIdle_kept {q : List Instr} {s : State} (kq : Kept q s) :
    Kept q (State.calIdle s) := by
  unfold State.calIdle
  repeat' (
    first
      | (with_reducible assumption) | lift_lets
      | (intro x; have y : State := x; clear y; revert x; with_reducible apply kept_lift)
      | (intro x; have y : State := x.1; clear y; revert x; with_reducible apply kept_lift_fst)
      | (intro x; have y : State := x.2; clear y; revert x; with_reducible apply kept_lift_snd)
      | (intro x; clear_value x) | (with_reducible apply State.put_kept) | simp only [kept_mk, kept_fold]
      | (with_reducible intro _) | split | dsimp only)

theorem State.calJobOver_kept {q : List Instr} {s : State} (kq : Kept q s) :
    Kept q (State.calJobOver s) := by
  unfold State.calJobOver
  repeat' (
    first
      | (with_reducible assumption) | lift_lets
      | (intro x; have y : State := x; clear y; revert x; with_reducible apply kept_lift)
      | (intro x; have y : State := x.1; clear y; revert x; with_reducible apply kept_lift_fst)
      | (intro x; have y : State := x.2; clear y; revert x; with_reducible apply kept_lift_snd)
      | (intro x; clear_value x) | simp only [kept_mk, kept_fold] | (with_reducible intro _) | split
      | dsimp only)

theorem State.calCommit_kept {q : List Instr} {s : State} (kq : Kept q s) :
    Kept q (State.calCommit s) := by
  unfold State.calCommit
  repeat' (
    first
      | (with_reducible assumption) | lift_lets
      | (intro x; have y : State := x; clear y; revert x; with_reducible apply kept_lift)
      | (intro x; have y : State := x.1; clear y; revert x; with_reducible apply kept_lift_fst)
      | (intro x; have y : State := x.2; clear y; revert x; with_reducible apply kept_lift_snd)
      | (intro x; clear_value x) | (with_reducible apply State.adopt_kept)
      | (with_reducible apply State.calJobOver_kept) | (with_reducible apply State.jobCommitOf_kept)
      | (with_reducible apply State.jobEndOf_kept) | (with_reducible apply kept_foldl) | (with_reducible intro _)
      | split | dsimp only)

theorem State.calStored_kept {q : List Instr} {s : State} (kq : Kept q s) :
    Kept q (State.calStored s) := by
  unfold State.calStored
  repeat' (
    first
      | (with_reducible assumption) | lift_lets
      | (intro x; have y : State := x; clear y; revert x; with_reducible apply kept_lift)
      | (intro x; have y : State := x.1; clear y; revert x; with_reducible apply kept_lift_fst)
      | (intro x; have y : State := x.2; clear y; revert x; with_reducible apply kept_lift_snd)
      | (intro x; clear_value x) | (with_reducible apply State.calCommit_kept)
      | (with_reducible apply State.put_kept) | (with_reducible intro _) | split | dsimp only)

theorem State.calFlag_kept {q : List Instr} {s : State} (item reason : Nat) (kq : Kept q s) :
    Kept q (State.calFlag s item reason) := by
  unfold State.calFlag
  repeat' (
    first
      | (with_reducible assumption) | (with_reducible apply State.calIdle_kept)
      | (with_reducible apply State.irq_kept) | (with_reducible apply State.put_kept)
      | (with_reducible apply State.setBit_kept) | (with_reducible intro _) | split | dsimp only)

theorem State.calJobFail_kept {q : List Instr} {s : State} (item reason : Nat) (kq : Kept q s) :
    Kept q (State.calJobFail s item reason) := by
  unfold State.calJobFail
  repeat' (
    first
      | (with_reducible assumption) | (with_reducible apply State.calFlag_kept)
      | (with_reducible apply State.calJobOver_kept) | (with_reducible apply State.jobEndOf_kept)
      | (with_reducible intro _) | split | dsimp only)

theorem State.calNeeds_kept {q : List Instr} {s : State} (i : Nat) (kq : Kept q s) :
    Kept q (State.calNeeds s i) := by
  unfold State.calNeeds
  repeat' (
    first
      | (with_reducible assumption) | (with_reducible apply State.calJobFail_kept) | (with_reducible intro _)
      | (with_reducible apply kept_ite) | split | dsimp only)

theorem State.calNext_kept {q : List Instr} {s : State} (kq : Kept q s) :
    Kept q (State.calNext s) := by
  unfold State.calNext
  repeat' (
    first
      | (with_reducible assumption) | lift_lets
      | (intro x; have y : State := x; clear y; revert x; with_reducible apply kept_lift)
      | (intro x; have y : State := x.1; clear y; revert x; with_reducible apply kept_lift_fst)
      | (intro x; have y : State := x.2; clear y; revert x; with_reducible apply kept_lift_snd)
      | (intro x; clear_value x) | (with_reducible apply State.calBegin_kept)
      | (with_reducible apply State.calCommit_kept) | (with_reducible apply State.calNeeds_kept)
      | simp only [kept_mk, kept_fold] | (with_reducible intro _) | (with_reducible apply kept_ite) | split
      | dsimp only)

theorem State.calYield_kept {q : List Instr} {s : State} (it : CalItem) (kq : Kept q s) :
    Kept q (State.calYield s it) := by
  unfold State.calYield
  repeat' (
    first
      | (with_reducible assumption) | lift_lets
      | (intro x; have y : State := x; clear y; revert x; with_reducible apply kept_lift)
      | (intro x; have y : State := x.1; clear y; revert x; with_reducible apply kept_lift_fst)
      | (intro x; have y : State := x.2; clear y; revert x; with_reducible apply kept_lift_snd)
      | (intro x; clear_value x) | (with_reducible apply State.calIdle_kept)
      | (with_reducible apply State.calNext_kept) | (with_reducible apply State.calShow_kept)
      | simp only [kept_mk, kept_fold] | (with_reducible intro _) | split | dsimp only)

theorem State.calFail_kept {q : List Instr} {s : State} (reason : Nat) (kq : Kept q s) :
    Kept q (State.calFail s reason) := by
  unfold State.calFail
  repeat' (
    first
      | (with_reducible assumption) | lift_lets
      | (intro x; have y : State := x; clear y; revert x; with_reducible apply kept_lift)
      | (intro x; have y : State := x.1; clear y; revert x; with_reducible apply kept_lift_fst)
      | (intro x; have y : State := x.2; clear y; revert x; with_reducible apply kept_lift_snd)
      | (intro x; clear_value x) | (with_reducible apply State.calFlag_kept)
      | (with_reducible apply State.calJobFail_kept) | (with_reducible apply State.calYield_kept)
      | simp only [kept_mk, kept_fold] | (with_reducible intro _) | (with_reducible apply kept_ite) | split
      | dsimp only)

theorem State.calRasterStop_kept {q : List Instr} {s : State} (kq : Kept q s) :
    Kept q (State.calRasterStop s) := by
  unfold State.calRasterStop
  repeat' (
    first
      | (with_reducible assumption) | lift_lets
      | (intro x; have y : State := x; clear y; revert x; with_reducible apply kept_lift)
      | (intro x; have y : State := x.1; clear y; revert x; with_reducible apply kept_lift_fst)
      | (intro x; have y : State := x.2; clear y; revert x; with_reducible apply kept_lift_snd)
      | (intro x; clear_value x) | (with_reducible apply State.calFail_kept)
      | (with_reducible apply State.calYield_kept) | simp only [kept_mk, kept_fold] | (with_reducible intro _)
      | (with_reducible apply kept_ite) | split | dsimp only)

theorem State.calResume_kept {q : List Instr} {s : State} (kq : Kept q s) :
    Kept q (State.calResume s) := by
  unfold State.calResume
  repeat' (
    first
      | (with_reducible assumption) | (with_reducible apply State.calFail_kept) | (with_reducible intro _)
      | (with_reducible apply kept_ite) | split | dsimp only)

theorem State.calLinkDown_kept {q : List Instr} {s : State} (u : Bool) (kq : Kept q s) :
    Kept q (State.calLinkDown s u) := by
  unfold State.calLinkDown
  repeat' (
    first
      | (with_reducible assumption) | (with_reducible apply State.calFail_kept) | (with_reducible intro _)
      | (with_reducible apply kept_ite) | split | dsimp only)

theorem State.calLimits_kept {q : List Instr} {s : State} (item : Nat) (bad : List Nat) (kq : Kept q s) :
    Kept q (State.calLimits s item bad) := by
  unfold State.calLimits
  repeat' (
    first
      | (with_reducible assumption) | (with_reducible apply State.raise_kept) | (with_reducible apply kept_foldl)
      | (with_reducible intro _) | split | dsimp only)

theorem State.calAccept_kept {q : List Instr} {s : State} (it : CalItem) (vals : List Int) (limits : List Nat) (runD : Nat) (kq : Kept q s) :
    Kept q (State.calAccept s it vals limits runD) := by
  unfold State.calAccept
  repeat' (
    first
      | (with_reducible assumption) | lift_lets
      | (intro x; have y : State := x; clear y; revert x; with_reducible apply kept_lift)
      | (intro x; have y : State := x.1; clear y; revert x; with_reducible apply kept_lift_fst)
      | (intro x; have y : State := x.2; clear y; revert x; with_reducible apply kept_lift_snd)
      | (intro x; clear_value x) | (with_reducible apply State.adopt_kept)
      | (with_reducible apply State.calIdle_kept) | (with_reducible apply State.calLimits_kept)
      | (with_reducible apply State.calNext_kept) | (with_reducible apply State.inc_kept)
      | (with_reducible apply State.irq_kept) | (with_reducible apply State.put_kept)
      | (with_reducible apply State.setBit_kept) | simp only [kept_mk, kept_fold] | (with_reducible intro _)
      | (with_reducible apply kept_ite) | split | dsimp only)

theorem State.calRetry_kept {q : List Instr} {s : State} (it : CalItem) (kq : Kept q s) :
    Kept q (State.calRetry s it) := by
  unfold State.calRetry
  repeat' (
    first
      | (with_reducible assumption) | lift_lets
      | (intro x; have y : State := x; clear y; revert x; with_reducible apply kept_lift)
      | (intro x; have y : State := x.1; clear y; revert x; with_reducible apply kept_lift_fst)
      | (intro x; have y : State := x.2; clear y; revert x; with_reducible apply kept_lift_snd)
      | (intro x; clear_value x) | (with_reducible apply State.calFail_kept)
      | (with_reducible apply State.inc_kept) | (with_reducible apply State.raise_kept)
      | simp only [kept_mk, kept_fold] | (with_reducible intro _) | (with_reducible apply kept_ite) | split
      | dsimp only)

theorem State.calJudge_kept {q : List Instr} {s : State} (it : CalItem) (a b : List Int) (limits : List Nat) (runD : Nat) (kq : Kept q s) :
    Kept q (State.calJudge s it a b limits runD) := by
  unfold State.calJudge
  repeat' (
    first
      | (with_reducible assumption) | (with_reducible apply State.calAccept_kept)
      | (with_reducible apply State.calRetry_kept) | (with_reducible intro _) | (with_reducible apply kept_ite)
      | split | dsimp only)

theorem State.calMeasured_kept {q : List Instr} {s : State} (it : CalItem) (p : CalPair) (kq : Kept q s) :
    Kept q (State.calMeasured s it p) := by
  unfold State.calMeasured
  repeat' (
    first
      | (with_reducible assumption) | lift_lets
      | (intro x; have y : State := x; clear y; revert x; with_reducible apply kept_lift)
      | (intro x; have y : State := x.1; clear y; revert x; with_reducible apply kept_lift_fst)
      | (intro x; have y : State := x.2; clear y; revert x; with_reducible apply kept_lift_snd)
      | (intro x; clear_value x) | (with_reducible apply State.calFail_kept)
      | (with_reducible apply State.calJudge_kept) | simp only [kept_mk, kept_fold] | (with_reducible intro _)
      | (with_reducible apply kept_ite) | split | dsimp only)

theorem execCalItemComplete_kept {q : List Instr} (p : CalPair) {s : State} {z : State} (kq : Kept q s)
    (hx : execCalItemComplete p s = .next z) : Kept q z := by
  obtain rfl := Host.Outcome.next.inj hx
  repeat' (
    first
      | (with_reducible assumption) | lift_lets
      | (intro x; have y : State := x; clear y; revert x; with_reducible apply kept_lift)
      | (intro x; have y : State := x.1; clear y; revert x; with_reducible apply kept_lift_fst)
      | (intro x; have y : State := x.2; clear y; revert x; with_reducible apply kept_lift_snd)
      | (intro x; clear_value x) | (with_reducible apply State.calMeasured_kept)
      | simp only [kept_mk, kept_fold] | (with_reducible intro _) | (with_reducible apply kept_ite) | split
      | dsimp only)

theorem State.pcCandidate_kept {q : List Instr} {s : State} (it : CalItem) (m : PcMeas) (kq : Kept q s) :
    Kept q (State.pcCandidate s it m) := by
  unfold State.pcCandidate
  repeat' (
    first
      | (with_reducible assumption) | lift_lets
      | (intro x; have y : State := x; clear y; revert x; with_reducible apply kept_lift)
      | (intro x; have y : State := x.1; clear y; revert x; with_reducible apply kept_lift_fst)
      | (intro x; have y : State := x.2; clear y; revert x; with_reducible apply kept_lift_snd)
      | (intro x; clear_value x) | simp only [kept_mk, kept_fold] | (with_reducible intro _)
      | (with_reducible apply kept_ite) | split | dsimp only)

theorem execPreChargeCalibrationSlot_kept {q : List Instr} (ones : List Nat) {s : State} {z : State} (kq : Kept q s)
    (hx : execPreChargeCalibrationSlot ones s = .next z) : Kept q z := by
  obtain rfl := Host.Outcome.next.inj hx
  repeat' (
    first
      | (with_reducible assumption) | lift_lets
      | (intro x; have y : State := x; clear y; revert x; with_reducible apply kept_lift)
      | (intro x; have y : State := x.1; clear y; revert x; with_reducible apply kept_lift_fst)
      | (intro x; have y : State := x.2; clear y; revert x; with_reducible apply kept_lift_snd)
      | (intro x; clear_value x) | (with_reducible apply State.pcCandidate_kept)
      | (with_reducible apply State.toSlot_kept) | simp only [kept_mk, kept_fold] | (with_reducible intro _)
      | (with_reducible apply kept_ite) | split | dsimp only)

theorem State.calWindow_kept {q : List Instr} {s : State} (kq : Kept q s) :
    Kept q (State.calWindow s) := by
  unfold State.calWindow
  repeat' (
    first
      | (with_reducible assumption) | lift_lets
      | (intro x; have y : State := x; clear y; revert x; with_reducible apply kept_lift)
      | (intro x; have y : State := x.1; clear y; revert x; with_reducible apply kept_lift_fst)
      | (intro x; have y : State := x.2; clear y; revert x; with_reducible apply kept_lift_snd)
      | (intro x; clear_value x) | (with_reducible apply State.calYield_kept) | simp only [kept_mk, kept_fold]
      | (with_reducible intro _) | (with_reducible apply kept_ite) | split | dsimp only)

theorem State.calEighth_kept {q : List Instr} {s : State} (kq : Kept q s) :
    Kept q (State.calEighth s) := by
  unfold State.calEighth
  repeat' (
    first
      | (with_reducible assumption) | lift_lets
      | (intro x; have y : State := x; clear y; revert x; with_reducible apply kept_lift)
      | (intro x; have y : State := x.1; clear y; revert x; with_reducible apply kept_lift_fst)
      | (intro x; have y : State := x.2; clear y; revert x; with_reducible apply kept_lift_snd)
      | (intro x; clear_value x) | (with_reducible apply State.calWindow_kept) | simp only [kept_mk, kept_fold]
      | (with_reducible intro _) | split | dsimp only)

theorem State.calLine_kept {q : List Instr} {s : State} (kq : Kept q s) :
    Kept q (State.calLine s) := by
  unfold State.calLine
  repeat' (
    first
      | (with_reducible assumption) | lift_lets
      | (intro x; have y : State := x; clear y; revert x; with_reducible apply kept_lift)
      | (intro x; have y : State := x.1; clear y; revert x; with_reducible apply kept_lift_fst)
      | (intro x; have y : State := x.2; clear y; revert x; with_reducible apply kept_lift_snd)
      | (intro x; clear_value x) | (with_reducible apply State.calEighth_kept)
      | (with_reducible apply State.calShow_kept) | simp only [kept_mk, kept_fold] | (with_reducible intro _)
      | (with_reducible apply kept_ite) | split | dsimp only)

theorem State.calTrigger_kept {q : List Instr} {s : State} (u : Bool) (kq : Kept q s) :
    Kept q (State.calTrigger s u) := by
  unfold State.calTrigger
  repeat' (
    first
      | (with_reducible assumption) | lift_lets
      | (intro x; have y : State := x; clear y; revert x; with_reducible apply kept_lift)
      | (intro x; have y : State := x.1; clear y; revert x; with_reducible apply kept_lift_fst)
      | (intro x; have y : State := x.2; clear y; revert x; with_reducible apply kept_lift_snd)
      | (intro x; clear_value x) | (with_reducible apply State.calShow_kept) | simp only [kept_mk, kept_fold]
      | (with_reducible intro _) | (with_reducible apply kept_ite) | split | dsimp only)

theorem State.calDrift_kept {q : List Instr} {s : State} (kq : Kept q s) :
    Kept q (State.calDrift s) := by
  unfold State.calDrift
  repeat' (
    first
      | (with_reducible assumption) | lift_lets
      | (intro x; have y : State := x; clear y; revert x; with_reducible apply kept_lift)
      | (intro x; have y : State := x.1; clear y; revert x; with_reducible apply kept_lift_fst)
      | (intro x; have y : State := x.2; clear y; revert x; with_reducible apply kept_lift_snd)
      | (intro x; clear_value x) | (with_reducible apply State.calShow_kept) | simp only [kept_mk, kept_fold]
      | (with_reducible intro _) | (with_reducible apply kept_ite) | split | dsimp only)

theorem execCalAutoTrigger_kept {q : List Instr} {s : State} {z : State} (kq : Kept q s)
    (hx : execCalAutoTrigger s = .next z) : Kept q z := by
  obtain rfl := Host.Outcome.next.inj hx
  repeat' (
    first
      | (with_reducible assumption) | lift_lets
      | (intro x; have y : State := x; clear y; revert x; with_reducible apply kept_lift)
      | (intro x; have y : State := x.1; clear y; revert x; with_reducible apply kept_lift_fst)
      | (intro x; have y : State := x.2; clear y; revert x; with_reducible apply kept_lift_snd)
      | (intro x; clear_value x) | (with_reducible apply State.calBegin_kept)
      | (with_reducible apply State.calShow_kept) | (with_reducible apply State.put_kept)
      | simp only [kept_mk, kept_fold] | (with_reducible intro _) | (with_reducible apply kept_ite) | split
      | dsimp only)

theorem State.calRunStart_kept {q : List Instr} {s : State} (kq : Kept q s) :
    Kept q (State.calRunStart s).1 := by
  unfold State.calRunStart
  repeat' (
    first
      | (with_reducible assumption) | (with_reducible apply State.calNext_kept)
      | (with_reducible apply State.calYield_kept) | (with_reducible apply State.put_kept)
      | simp only [kept_mk, kept_fold] | (with_reducible intro _) | (with_reducible apply kept_ite)
      | (with_reducible apply kept_ite_fst) | (with_reducible apply kept_ite_snd) | split | dsimp only)

theorem State.calCancel_kept {q : List Instr} {s : State} (kq : Kept q s) :
    Kept q (State.calCancel s) := by
  unfold State.calCancel
  repeat' (
    first
      | (with_reducible assumption) | lift_lets
      | (intro x; have y : State := x; clear y; revert x; with_reducible apply kept_lift)
      | (intro x; have y : State := x.1; clear y; revert x; with_reducible apply kept_lift_fst)
      | (intro x; have y : State := x.2; clear y; revert x; with_reducible apply kept_lift_snd)
      | (intro x; clear_value x) | (with_reducible apply State.calIdle_kept)
      | (with_reducible apply State.calJobOver_kept) | simp only [kept_mk, kept_fold] | (with_reducible intro _)
      | (with_reducible apply kept_ite) | split | dsimp only)

theorem State.calSuspend_kept {q : List Instr} {s : State} (kq : Kept q s) :
    Kept q (State.calSuspend s) := by
  unfold State.calSuspend
  repeat' (
    first
      | (with_reducible assumption) | lift_lets
      | (intro x; have y : State := x; clear y; revert x; with_reducible apply kept_lift)
      | (intro x; have y : State := x.1; clear y; revert x; with_reducible apply kept_lift_fst)
      | (intro x; have y : State := x.2; clear y; revert x; with_reducible apply kept_lift_snd)
      | (intro x; clear_value x) | simp only [kept_mk, kept_fold] | (with_reducible intro _) | split
      | dsimp only)

theorem State.calLoad_kept {q : List Instr} {s : State} (kq : Kept q s) :
    Kept q (State.calLoad s) := by
  unfold State.calLoad
  repeat' (
    first
      | (with_reducible assumption) | lift_lets
      | (intro x; have y : State := x; clear y; revert x; with_reducible apply kept_lift)
      | (intro x; have y : State := x.1; clear y; revert x; with_reducible apply kept_lift_fst)
      | (intro x; have y : State := x.2; clear y; revert x; with_reducible apply kept_lift_snd)
      | (intro x; clear_value x) | (with_reducible apply State.put_kept) | (with_reducible apply State.raise_kept)
      | (with_reducible apply State.recordState_kept) | (with_reducible apply State.setReg_kept)
      | simp only [kept_mk, kept_fold] | (with_reducible intro _) | (with_reducible apply kept_ite) | split
      | dsimp only)

end Sys2Proof.Machine
end

