-- ==== Sys2Proof/Laws/KeptRetime.lean ====
section
/-!
SUPPORT. The operations of Machine/Retime.lean keep the queue and the canonical form.
-/

set_option linter.unusedSimpArgs false
set_option linter.unusedTactic false
set_option linter.unreachableTactic false

namespace Sys2Proof.Machine

theorem State.retimeReject_kept {q : List Instr} {s : State} (code : Nat) (kq : Kept q s) :
    Kept q (State.retimeReject s code) := by
  unfold State.retimeReject
  repeat' (
    first
      | (with_reducible assumption) | (with_reducible apply State.put_kept) | (with_reducible intro _) | split
      | dsimp only)

theorem State.followUnlock_kept {q : List Instr} {s : State} (kq : Kept q s) :
    Kept q (State.followUnlock s) := by
  unfold State.followUnlock
  repeat' (
    first
      | (with_reducible assumption) | lift_lets
      | (intro x; have y : State := x; clear y; revert x; with_reducible apply kept_lift)
      | (intro x; have y : State := x.1; clear y; revert x; with_reducible apply kept_lift_fst)
      | (intro x; have y : State := x.2; clear y; revert x; with_reducible apply kept_lift_snd)
      | (intro x; clear_value x) | (with_reducible apply State.put_kept) | simp only [kept_mk, kept_fold]
      | (with_reducible intro _) | split | dsimp only)

theorem State.retimeAccept_kept {q : List Instr} {s : State} (t : Retime) (kq : Kept q s) :
    Kept q (State.retimeAccept s t) := by
  unfold State.retimeAccept
  repeat' (
    first
      | (with_reducible assumption) | lift_lets
      | (intro x; have y : State := x; clear y; revert x; with_reducible apply kept_lift)
      | (intro x; have y : State := x.1; clear y; revert x; with_reducible apply kept_lift_fst)
      | (intro x; have y : State := x.2; clear y; revert x; with_reducible apply kept_lift_snd)
      | (intro x; clear_value x) | (with_reducible apply State.followUnlock_kept)
      | (with_reducible apply State.put_kept) | (with_reducible apply State.setReg_kept)
      | simp only [kept_mk, kept_fold] | (with_reducible intro _) | split | dsimp only)

theorem State.retime_kept {q : List Instr} {s : State} (t : Retime) (kq : Kept q s) :
    Kept q (State.retime s t) := by
  unfold State.retime
  repeat' (
    first
      | (with_reducible assumption) | lift_lets
      | (intro x; have y : State := x; clear y; revert x; with_reducible apply kept_lift)
      | (intro x; have y : State := x.1; clear y; revert x; with_reducible apply kept_lift_fst)
      | (intro x; have y : State := x.2; clear y; revert x; with_reducible apply kept_lift_snd)
      | (intro x; clear_value x) | (with_reducible apply State.put_kept)
      | (with_reducible apply State.retimeAccept_kept) | (with_reducible apply State.retimeReject_kept)
      | (with_reducible intro _) | (with_reducible apply kept_ite) | split | dsimp only)

theorem execRetime_kept {q : List Instr} (i : Initiator) (v : Word) {s : State} {z : State} (kq : Kept q s)
    (hx : execRetime i v s = .next z) : Kept q z := by
  obtain rfl := Host.Outcome.next.inj hx
  repeat' (
    first
      | (with_reducible assumption) | (with_reducible apply State.portWrite_kept)
      | (with_reducible apply State.retime_kept) | (with_reducible intro _) | (with_reducible apply kept_ite)
      | split | dsimp only)

theorem State.setTiming_kept {q : List Instr} {s : State} (t : Retime) (kq : Kept q s) :
    Kept q (State.setTiming s t) := by
  unfold State.setTiming
  repeat' (
    first
      | (with_reducible assumption) | (with_reducible apply State.put_kept) | (with_reducible intro _) | split
      | dsimp only)

theorem State.composeStop_kept {q : List Instr} {s : State} (kq : Kept q s) :
    Kept q (State.composeStop s) := by
  unfold State.composeStop
  repeat' (
    first
      | (with_reducible assumption) | lift_lets
      | (intro x; have y : State := x; clear y; revert x; with_reducible apply kept_lift)
      | (intro x; have y : State := x.1; clear y; revert x; with_reducible apply kept_lift_fst)
      | (intro x; have y : State := x.2; clear y; revert x; with_reducible apply kept_lift_snd)
      | (intro x; clear_value x) | (with_reducible apply State.raise_kept) | simp only [kept_mk, kept_fold]
      | (with_reducible intro _) | split | dsimp only)

theorem State.retimeAbandon_kept {q : List Instr} {s : State} (kq : Kept q s) :
    Kept q (State.retimeAbandon s) := by
  unfold State.retimeAbandon
  repeat' (
    first
      | (with_reducible assumption) | lift_lets
      | (intro x; have y : State := x; clear y; revert x; with_reducible apply kept_lift)
      | (intro x; have y : State := x.1; clear y; revert x; with_reducible apply kept_lift_fst)
      | (intro x; have y : State := x.2; clear y; revert x; with_reducible apply kept_lift_snd)
      | (intro x; clear_value x) | (with_reducible apply State.put_kept)
      | (with_reducible apply State.retimeReject_kept) | simp only [kept_mk, kept_fold] | (with_reducible intro _)
      | (with_reducible apply kept_ite) | split | dsimp only)

theorem State.rasterStop_kept {q : List Instr} {s : State} (kq : Kept q s) :
    Kept q (State.rasterStop s) := by
  unfold State.rasterStop
  repeat' (
    first
      | (with_reducible assumption) | lift_lets
      | (intro x; have y : State := x; clear y; revert x; with_reducible apply kept_lift)
      | (intro x; have y : State := x.1; clear y; revert x; with_reducible apply kept_lift_fst)
      | (intro x; have y : State := x.2; clear y; revert x; with_reducible apply kept_lift_snd)
      | (intro x; clear_value x) | (with_reducible apply State.calRasterStop_kept)
      | (with_reducible apply State.commitRetarget_kept) | (with_reducible apply State.composeStop_kept)
      | (with_reducible apply State.passAbandon_kept) | (with_reducible apply State.put_kept)
      | (with_reducible apply State.railStop_kept) | (with_reducible apply State.retimeAbandon_kept)
      | (with_reducible apply State.safRefresh_kept) | (with_reducible apply State.setReg_kept)
      | simp only [kept_mk, kept_fold] | (with_reducible intro _) | (with_reducible apply kept_ite) | split
      | dsimp only)

end Sys2Proof.Machine
end

