-- ==== Sys2Proof/Laws/KeptThermal.lean ====
section
/-!
SUPPORT. The operations of Machine/Thermal.lean keep the queue and the canonical form.
-/

set_option linter.unusedSimpArgs false
set_option linter.unusedTactic false
set_option linter.unreachableTactic false

namespace Sys2Proof.Machine

theorem State.thmUse_kept {q : List Instr} {s : State} (kq : Kept q s) :
    Kept q (State.thmUse s) := by
  unfold State.thmUse
  repeat' (
    first
      | (with_reducible assumption) | lift_lets
      | (intro x; have y : State := x; clear y; revert x; with_reducible apply kept_lift)
      | (intro x; have y : State := x.1; clear y; revert x; with_reducible apply kept_lift_fst)
      | (intro x; have y : State := x.2; clear y; revert x; with_reducible apply kept_lift_snd)
      | (intro x; clear_value x) | simp only [kept_mk, kept_fold] | (with_reducible intro _) | split
      | dsimp only)

theorem State.publish_kept {q : List Instr} {s : State} (i : Nat) (t : Int) (kq : Kept q s) :
    Kept q (State.publish s i t) := by
  unfold State.publish
  repeat' (
    first
      | (with_reducible assumption) | (with_reducible apply State.put_kept) | (with_reducible intro _) | split
      | dsimp only)

theorem State.breakSensor_kept {q : List Instr} {s : State} (i : Nat) (kq : Kept q s) :
    Kept q (State.breakSensor s i) := by
  unfold State.breakSensor
  repeat' (
    first
      | (with_reducible assumption) | lift_lets
      | (intro x; have y : State := x; clear y; revert x; with_reducible apply kept_lift)
      | (intro x; have y : State := x.1; clear y; revert x; with_reducible apply kept_lift_fst)
      | (intro x; have y : State := x.2; clear y; revert x; with_reducible apply kept_lift_snd)
      | (intro x; clear_value x) | (with_reducible apply State.publish_kept)
      | (with_reducible apply State.put_kept) | (with_reducible apply State.raise_kept) | (with_reducible intro _)
      | split | dsimp only)

theorem State.sensorStep_kept {q : List Instr} {s : State} (counts : List Nat) (i : Nat) (kq : Kept q s) :
    Kept q (State.sensorStep s counts i) := by
  unfold State.sensorStep
  repeat' (
    first
      | (with_reducible assumption) | lift_lets
      | (intro x; have y : State := x; clear y; revert x; with_reducible apply kept_lift)
      | (intro x; have y : State := x.1; clear y; revert x; with_reducible apply kept_lift_fst)
      | (intro x; have y : State := x.2; clear y; revert x; with_reducible apply kept_lift_snd)
      | (intro x; clear_value x) | (with_reducible apply State.breakSensor_kept)
      | (with_reducible apply State.publish_kept) | simp only [kept_mk, kept_fold] | (with_reducible intro _)
      | (with_reducible apply kept_ite) | split | dsimp only)

theorem execSensorGate_kept {q : List Instr} (counts : List Nat) {s : State} {z : State} (kq : Kept q s)
    (hx : execSensorGate counts s = .next z) : Kept q z := by
  obtain rfl := Host.Outcome.next.inj hx
  repeat' (
    first
      | (with_reducible assumption) | lift_lets
      | (intro x; have y : State := x; clear y; revert x; with_reducible apply kept_lift)
      | (intro x; have y : State := x.1; clear y; revert x; with_reducible apply kept_lift_fst)
      | (intro x; have y : State := x.2; clear y; revert x; with_reducible apply kept_lift_snd)
      | (intro x; clear_value x) | (with_reducible apply State.toSlot_kept) | simp only [kept_mk, kept_fold]
      | (with_reducible intro _) | (with_reducible apply kept_ite) | split | dsimp only)

theorem execSensorBroken_kept {q : List Instr} {s : State} {z : State} (kq : Kept q s)
    (hx : execSensorBroken s = .next z) : Kept q z := by
  obtain rfl := Host.Outcome.next.inj hx
  repeat' (
    first
      | (with_reducible assumption) | lift_lets
      | (intro x; have y : State := x; clear y; revert x; with_reducible apply kept_lift)
      | (intro x; have y : State := x.1; clear y; revert x; with_reducible apply kept_lift_fst)
      | (intro x; have y : State := x.2; clear y; revert x; with_reducible apply kept_lift_snd)
      | (intro x; clear_value x) | (with_reducible apply State.breakSensor_kept)
      | (with_reducible apply State.thmUse_kept) | simp only [kept_mk, kept_fold] | (with_reducible intro _)
      | (with_reducible apply kept_ite) | split | dsimp only)

theorem State.zoneStep_kept {q : List Instr} {s : State} (z : Nat) (kq : Kept q s) :
    Kept q (State.zoneStep s z) := by
  unfold State.zoneStep
  repeat' (
    first
      | (with_reducible assumption) | lift_lets
      | (intro x; have y : State := x; clear y; revert x; with_reducible apply kept_lift)
      | (intro x; have y : State := x.1; clear y; revert x; with_reducible apply kept_lift_fst)
      | (intro x; have y : State := x.2; clear y; revert x; with_reducible apply kept_lift_snd)
      | (intro x; clear_value x) | (with_reducible apply State.inc_kept) | (with_reducible apply State.irq_kept)
      | (with_reducible apply State.put_kept) | (with_reducible apply State.raise_kept) | (with_reducible intro _)
      | (with_reducible apply kept_ite) | split | dsimp only)

theorem State.reqUpdate_kept {q : List Instr} {s : State} (kq : Kept q s) :
    Kept q (State.reqUpdate s) := by
  unfold State.reqUpdate
  repeat' (
    first
      | (with_reducible assumption) | lift_lets
      | (intro x; have y : State := x; clear y; revert x; with_reducible apply kept_lift)
      | (intro x; have y : State := x.1; clear y; revert x; with_reducible apply kept_lift_fst)
      | (intro x; have y : State := x.2; clear y; revert x; with_reducible apply kept_lift_snd)
      | (intro x; clear_value x) | (with_reducible apply State.put_kept) | simp only [kept_mk, kept_fold]
      | (with_reducible intro _) | (with_reducible apply kept_ite) | split | dsimp only)

theorem State.causeUpdate_kept {q : List Instr} {s : State} (kq : Kept q s) :
    Kept q (State.causeUpdate s) := by
  unfold State.causeUpdate
  repeat' (
    first
      | (with_reducible assumption) | lift_lets
      | (intro x; have y : State := x; clear y; revert x; with_reducible apply kept_lift)
      | (intro x; have y : State := x.1; clear y; revert x; with_reducible apply kept_lift_fst)
      | (intro x; have y : State := x.2; clear y; revert x; with_reducible apply kept_lift_snd)
      | (intro x; clear_value x) | (with_reducible apply State.reqUpdate_kept) | simp only [kept_mk, kept_fold]
      | (with_reducible intro _) | split | dsimp only)

theorem State.throttleStep_kept {q : List Instr} {s : State} (kq : Kept q s) :
    Kept q (State.throttleStep s) := by
  unfold State.throttleStep
  repeat' (
    first
      | (with_reducible assumption) | lift_lets
      | (intro x; have y : State := x; clear y; revert x; with_reducible apply kept_lift)
      | (intro x; have y : State := x.1; clear y; revert x; with_reducible apply kept_lift_fst)
      | (intro x; have y : State := x.2; clear y; revert x; with_reducible apply kept_lift_snd)
      | (intro x; clear_value x) | (with_reducible apply State.causeUpdate_kept)
      | simp only [kept_mk, kept_fold] | (with_reducible intro _) | (with_reducible apply kept_ite) | split
      | dsimp only)

theorem State.nvmWindow_kept {q : List Instr} {s : State} (kq : Kept q s) :
    Kept q (State.nvmWindow s) := by
  unfold State.nvmWindow
  repeat' (
    first
      | (with_reducible assumption) | lift_lets
      | (intro x; have y : State := x; clear y; revert x; with_reducible apply kept_lift)
      | (intro x; have y : State := x.1; clear y; revert x; with_reducible apply kept_lift_fst)
      | (intro x; have y : State := x.2; clear y; revert x; with_reducible apply kept_lift_snd)
      | (intro x; clear_value x) | (with_reducible apply State.putB_kept)
      | (with_reducible apply State.raise_kept) | (with_reducible intro _) | (with_reducible apply kept_ite)
      | split | dsimp only)

theorem State.hotUpdate_kept {q : List Instr} {s : State} (kq : Kept q s) :
    Kept q (State.hotUpdate s) := by
  unfold State.hotUpdate
  repeat' (
    first
      | (with_reducible assumption) | lift_lets
      | (intro x; have y : State := x; clear y; revert x; with_reducible apply kept_lift)
      | (intro x; have y : State := x.1; clear y; revert x; with_reducible apply kept_lift_fst)
      | (intro x; have y : State := x.2; clear y; revert x; with_reducible apply kept_lift_snd)
      | (intro x; clear_value x) | (with_reducible apply State.put_kept)
      | (with_reducible apply State.recExt_kept) | (with_reducible apply kept_foldl)
      | simp only [kept_mk, kept_fold] | (with_reducible intro _) | split | dsimp only)

theorem State.restartStep_kept {q : List Instr} {s : State} (kq : Kept q s) :
    Kept q (State.restartStep s) := by
  unfold State.restartStep
  repeat' (
    first
      | (with_reducible assumption) | lift_lets
      | (intro x; have y : State := x; clear y; revert x; with_reducible apply kept_lift)
      | (intro x; have y : State := x.1; clear y; revert x; with_reducible apply kept_lift_fst)
      | (intro x; have y : State := x.2; clear y; revert x; with_reducible apply kept_lift_snd)
      | (intro x; clear_value x) | simp only [kept_mk, kept_fold] | (with_reducible intro _)
      | (with_reducible apply kept_ite) | split | dsimp only)

theorem State.publishSensors_kept {q : List Instr} {s : State} (counts : List Nat) (kq : Kept q s) :
    Kept q (State.publishSensors s counts) := by
  unfold State.publishSensors
  repeat' (
    first
      | (with_reducible assumption) | (with_reducible apply State.sensorStep_kept)
      | (with_reducible apply forUpto_keeps (P := Kept q)) | (with_reducible intro _) | split | dsimp only)

theorem State.thermalRules_kept {q : List Instr} {s : State} (kq : Kept q s) :
    Kept q (State.thermalRules s) := by
  unfold State.thermalRules
  repeat' (
    first
      | (with_reducible assumption) | (with_reducible apply State.calDrift_kept)
      | (with_reducible apply State.nvmWindow_kept) | (with_reducible apply State.restartStep_kept)
      | (with_reducible apply State.throttleStep_kept) | (with_reducible apply State.zoneStep_kept)
      | (with_reducible apply forUpto_keeps (P := Kept q)) | (with_reducible intro _) | split | dsimp only)

theorem State.publishAll_kept {q : List Instr} {s : State} (counts : List Nat) (kq : Kept q s) :
    Kept q (State.publishAll s counts) := by
  unfold State.publishAll
  repeat' (
    first
      | (with_reducible assumption) | lift_lets
      | (intro x; have y : State := x; clear y; revert x; with_reducible apply kept_lift)
      | (intro x; have y : State := x.1; clear y; revert x; with_reducible apply kept_lift_fst)
      | (intro x; have y : State := x.2; clear y; revert x; with_reducible apply kept_lift_snd)
      | (intro x; clear_value x) | (with_reducible apply State.hotUpdate_kept)
      | (with_reducible apply State.publishSensors_kept) | (with_reducible apply State.put_kept)
      | (with_reducible apply State.thermalRules_kept) | (with_reducible apply State.thmUse_kept)
      | simp only [kept_mk, kept_fold] | (with_reducible intro _) | split | dsimp only)

theorem State.throttleClear_kept {q : List Instr} {s : State} (kq : Kept q s) :
    Kept q (State.throttleClear s) := by
  unfold State.throttleClear
  repeat' (
    first
      | (with_reducible assumption) | lift_lets
      | (intro x; have y : State := x; clear y; revert x; with_reducible apply kept_lift)
      | (intro x; have y : State := x.1; clear y; revert x; with_reducible apply kept_lift_fst)
      | (intro x; have y : State := x.2; clear y; revert x; with_reducible apply kept_lift_snd)
      | (intro x; clear_value x) | (with_reducible apply State.put_kept) | simp only [kept_mk, kept_fold]
      | (with_reducible intro _) | split | dsimp only)

theorem execThrottleGraceExpiry_kept {q : List Instr} {s : State} {z : State} (kq : Kept q s)
    (hx : execThrottleGraceExpiry s = .next z) : Kept q z := by
  obtain rfl := Host.Outcome.next.inj hx
  repeat' (
    first
      | (with_reducible assumption) | lift_lets
      | (intro x; have y : State := x; clear y; revert x; with_reducible apply kept_lift)
      | (intro x; have y : State := x.1; clear y; revert x; with_reducible apply kept_lift_fst)
      | (intro x; have y : State := x.2; clear y; revert x; with_reducible apply kept_lift_snd)
      | (intro x; clear_value x) | (with_reducible apply State.causeUpdate_kept)
      | simp only [kept_mk, kept_fold] | (with_reducible intro _) | (with_reducible apply kept_ite) | split
      | dsimp only)

theorem State.thmIssue_kept {q : List Instr} {s : State} (thr : Bool) (t : Retime) (kq : Kept q s) :
    Kept q (State.thmIssue s thr t) := by
  unfold State.thmIssue
  repeat' (
    first
      | (with_reducible assumption) | lift_lets
      | (intro x; have y : State := x; clear y; revert x; with_reducible apply kept_lift)
      | (intro x; have y : State := x.1; clear y; revert x; with_reducible apply kept_lift_fst)
      | (intro x; have y : State := x.2; clear y; revert x; with_reducible apply kept_lift_snd)
      | (intro x; clear_value x) | (with_reducible apply State.inc_kept) | (with_reducible apply State.put_kept)
      | (with_reducible apply State.retime_kept) | simp only [kept_mk, kept_fold] | (with_reducible intro _)
      | (with_reducible apply kept_ite) | split | dsimp only)

theorem execThrottleRetimeIssue_kept {q : List Instr} {s : State} {z : State} (kq : Kept q s)
    (hx : execThrottleRetimeIssue s = .next z) : Kept q z := by
  obtain rfl := Host.Outcome.next.inj hx
  repeat' (
    first
      | (with_reducible assumption) | lift_lets
      | (intro x; have y : State := x; clear y; revert x; with_reducible apply kept_lift)
      | (intro x; have y : State := x.1; clear y; revert x; with_reducible apply kept_lift_fst)
      | (intro x; have y : State := x.2; clear y; revert x; with_reducible apply kept_lift_snd)
      | (intro x; clear_value x) | (with_reducible apply State.put_kept) | (with_reducible apply State.raise_kept)
      | (with_reducible apply State.thmIssue_kept) | simp only [kept_mk, kept_fold] | (with_reducible intro _)
      | (with_reducible apply kept_ite) | split | dsimp only)

theorem execThrottleRelease_kept {q : List Instr} {s : State} {z : State} (kq : Kept q s)
    (hx : execThrottleRelease s = .next z) : Kept q z := by
  obtain rfl := Host.Outcome.next.inj hx
  repeat' (
    first
      | (with_reducible assumption) | lift_lets
      | (intro x; have y : State := x; clear y; revert x; with_reducible apply kept_lift)
      | (intro x; have y : State := x.1; clear y; revert x; with_reducible apply kept_lift_fst)
      | (intro x; have y : State := x.2; clear y; revert x; with_reducible apply kept_lift_snd)
      | (intro x; clear_value x) | (with_reducible apply State.thmIssue_kept) | simp only [kept_mk, kept_fold]
      | (with_reducible intro _) | (with_reducible apply kept_ite) | split | dsimp only)

theorem State.thmRetimeDone_kept {q : List Instr} {s : State} (t : Retime) (kq : Kept q s) :
    Kept q (State.thmRetimeDone s t) := by
  unfold State.thmRetimeDone
  repeat' (
    first
      | (with_reducible assumption) | lift_lets
      | (intro x; have y : State := x; clear y; revert x; with_reducible apply kept_lift)
      | (intro x; have y : State := x.1; clear y; revert x; with_reducible apply kept_lift_fst)
      | (intro x; have y : State := x.2; clear y; revert x; with_reducible apply kept_lift_snd)
      | (intro x; clear_value x) | (with_reducible apply State.irq_kept) | (with_reducible apply State.put_kept)
      | (with_reducible apply State.raise_kept) | simp only [kept_mk, kept_fold] | (with_reducible intro _)
      | (with_reducible apply kept_ite) | split | dsimp only)

theorem State.vbNote_kept {q : List Instr} {s : State} (vb : Nat) (kq : Kept q s) :
    Kept q (State.vbNote s vb) := by
  unfold State.vbNote
  repeat' (
    first
      | (with_reducible assumption) | lift_lets
      | (intro x; have y : State := x; clear y; revert x; with_reducible apply kept_lift)
      | (intro x; have y : State := x.1; clear y; revert x; with_reducible apply kept_lift_fst)
      | (intro x; have y : State := x.2; clear y; revert x; with_reducible apply kept_lift_snd)
      | (intro x; clear_value x) | simp only [kept_mk, kept_fold] | (with_reducible intro _)
      | (with_reducible apply kept_ite) | split | dsimp only)

theorem execSlaveThrottleTimeout_kept {q : List Instr} {s : State} {z : State} (kq : Kept q s)
    (hx : execSlaveThrottleTimeout s = .next z) : Kept q z := by
  obtain rfl := Host.Outcome.next.inj hx
  repeat' (
    first
      | (with_reducible assumption) | lift_lets
      | (intro x; have y : State := x; clear y; revert x; with_reducible apply kept_lift)
      | (intro x; have y : State := x.1; clear y; revert x; with_reducible apply kept_lift_fst)
      | (intro x; have y : State := x.2; clear y; revert x; with_reducible apply kept_lift_snd)
      | (intro x; clear_value x) | (with_reducible apply State.raise_kept) | simp only [kept_mk, kept_fold]
      | (with_reducible intro _) | (with_reducible apply kept_ite) | split | dsimp only)

theorem State.thmTick_kept {q : List Instr} {s : State} (kq : Kept q s) :
    Kept q (State.thmTick s) := by
  unfold State.thmTick
  repeat' (
    first
      | (with_reducible assumption) | lift_lets
      | (intro x; have y : State := x; clear y; revert x; with_reducible apply kept_lift)
      | (intro x; have y : State := x.1; clear y; revert x; with_reducible apply kept_lift_fst)
      | (intro x; have y : State := x.2; clear y; revert x; with_reducible apply kept_lift_snd)
      | (intro x; clear_value x) | simp only [kept_mk, kept_fold] | (with_reducible intro _) | split
      | dsimp only)

theorem State.thmLine_kept {q : List Instr} {s : State} (kq : Kept q s) :
    Kept q (State.thmLine s) := by
  unfold State.thmLine
  repeat' (
    first
      | (with_reducible assumption) | lift_lets
      | (intro x; have y : State := x; clear y; revert x; with_reducible apply kept_lift)
      | (intro x; have y : State := x.1; clear y; revert x; with_reducible apply kept_lift_fst)
      | (intro x; have y : State := x.2; clear y; revert x; with_reducible apply kept_lift_snd)
      | (intro x; clear_value x) | simp only [kept_mk, kept_fold] | (with_reducible intro _) | split
      | dsimp only)

theorem State.thmReset_kept {q : List Instr} {s : State} (kq : Kept q s) :
    Kept q (State.thmReset s) := by
  unfold State.thmReset
  repeat' (
    first
      | (with_reducible assumption) | lift_lets
      | (intro x; have y : State := x; clear y; revert x; with_reducible apply kept_lift)
      | (intro x; have y : State := x.1; clear y; revert x; with_reducible apply kept_lift_fst)
      | (intro x; have y : State := x.2; clear y; revert x; with_reducible apply kept_lift_snd)
      | (intro x; clear_value x) | simp only [kept_mk, kept_fold] | (with_reducible intro _) | split
      | dsimp only)

theorem State.thmWake_kept {q : List Instr} {s : State} (kq : Kept q s) :
    Kept q (State.thmWake s) := by
  unfold State.thmWake
  repeat' (
    first
      | (with_reducible assumption) | lift_lets
      | (intro x; have y : State := x; clear y; revert x; with_reducible apply kept_lift)
      | (intro x; have y : State := x.1; clear y; revert x; with_reducible apply kept_lift_fst)
      | (intro x; have y : State := x.2; clear y; revert x; with_reducible apply kept_lift_snd)
      | (intro x; clear_value x) | (with_reducible apply State.put_kept)
      | (with_reducible apply State.resetRegs_kept) | (with_reducible apply State.thmUse_kept)
      | simp only [kept_mk, kept_fold] | (with_reducible intro _) | split | dsimp only)

end Sys2Proof.Machine
end

