-- ==== Sys2Proof/Laws/KeptCorePort.lean ====
section
/-!
SUPPORT. The operations of Machine/CorePort.lean keep the queue and the canonical form.
-/

set_option linter.unusedSimpArgs false
set_option linter.unusedTactic false
set_option linter.unreachableTactic false

namespace Sys2Proof.Machine

theorem State.limitWrite_kept {q : List Instr} {s : State} (v : Word) (kq : Kept q s) :
    Kept q (State.limitWrite s v) := by
  unfold State.limitWrite
  repeat' (
    first
      | (with_reducible assumption) | lift_lets
      | (intro x; have y : State := x; clear y; revert x; with_reducible apply kept_lift)
      | (intro x; have y : State := x.1; clear y; revert x; with_reducible apply kept_lift_fst)
      | (intro x; have y : State := x.2; clear y; revert x; with_reducible apply kept_lift_snd)
      | (intro x; clear_value x) | simp only [kept_mk, kept_fold] | (with_reducible intro _) | split
      | dsimp only)

theorem State.coreWrite_kept {q : List Instr} {s : State} (i : FaultInfo) (a : Nat) (v : Word) (kq : Kept q s) :
    Kept q (State.coreWrite s i a v) := by
  unfold State.coreWrite
  repeat' (
    first
      | (with_reducible assumption) | (with_reducible apply State.bankEnWrite_kept)
      | (with_reducible apply State.bankWrite_kept) | (with_reducible apply State.bgEnWrite_kept)
      | (with_reducible apply State.coefDataWrite_kept) | (with_reducible apply State.defectLimitWrite_kept)
      | (with_reducible apply State.defectSet_kept) | (with_reducible apply State.fbClear_kept)
      | (with_reducible apply State.gainReload_kept) | (with_reducible apply State.limitWrite_kept)
      | (with_reducible apply State.lpCoefWrite_kept) | (with_reducible apply State.lpeCtrlWrite_kept)
      | (with_reducible apply State.mskSubmit_kept) | (with_reducible apply State.pcDataWrite_kept)
      | (with_reducible apply State.regWrite_kept) | (with_reducible apply State.retime_kept)
      | (with_reducible apply State.sealStart_kept) | (with_reducible apply State.ttDataWrite_kept)
      | (with_reducible intro _) | (with_reducible apply kept_ite) | split | dsimp only)

theorem State.dirSelRead_kept {q : List Instr} {s : State} (i : FaultInfo) (kq : Kept q s) :
    Kept q (State.dirSelRead s i) := by
  unfold State.dirSelRead
  repeat' (
    first
      | (with_reducible assumption) | (with_reducible apply State.dirTouch_kept) | (with_reducible intro _)
      | (with_reducible apply kept_ite) | split | dsimp only)

theorem State.coreRead_kept {q : List Instr} {s : State} (i : FaultInfo) (a : Nat) (kq : Kept q s) :
    Kept q (State.coreRead s i a).2 := by
  unfold State.coreRead
  repeat' (
    first
      | (with_reducible assumption) | lift_lets
      | (intro x; have y : State := x; clear y; revert x; with_reducible apply kept_lift)
      | (intro x; have y : State := x.1; clear y; revert x; with_reducible apply kept_lift_fst)
      | (intro x; have y : State := x.2; clear y; revert x; with_reducible apply kept_lift_snd)
      | (intro x; clear_value x) | (with_reducible apply State.coefDataRead_kept)
      | (with_reducible apply State.dirSelRead_kept) | (with_reducible apply State.dlog0Read_kept)
      | (with_reducible apply State.lpCoefRead_kept) | (with_reducible apply State.pcDataRead_kept)
      | (with_reducible apply State.readClear_kept) | (with_reducible apply State.ttDataRead_kept)
      | (with_reducible intro _) | (with_reducible apply kept_ite) | (with_reducible apply kept_ite_fst)
      | (with_reducible apply kept_ite_snd) | split | dsimp only)

end Sys2Proof.Machine
end

