-- ==== Sys2Proof/Laws/KeptLink.lean ====
section
/-!
SUPPORT. The operations of Machine/Link.lean keep the queue and the canonical form.
-/

set_option linter.unusedSimpArgs false
set_option linter.unusedTactic false
set_option linter.unreachableTactic false

namespace Sys2Proof.Machine

theorem State.pput_kept {q : List Instr} {s : State} (d : Bool) (f : Field) (v : Nat) (kq : Kept q s) :
    Kept q (State.pput s d f v) := by
  unfold State.pput
  repeat' (
    first
      | (with_reducible assumption) | (with_reducible apply State.put_kept) | (with_reducible intro _) | split
      | dsimp only)

theorem State.pcount_kept {q : List Instr} {s : State} (d : Bool) (f : Field) (n : Nat) (kq : Kept q s) :
    Kept q (State.pcount s d f n) := by
  unfold State.pcount
  repeat' (
    first
      | (with_reducible assumption) | (with_reducible apply State.incBy_kept) | (with_reducible intro _) | split
      | dsimp only)

theorem State.setPort_kept {q : List Instr} {s : State} (d : Bool) (p : Port) (kq : Kept q s) :
    Kept q (State.setPort s d p) := by
  unfold State.setPort
  repeat' (
    first
      | (with_reducible assumption) | lift_lets
      | (intro x; have y : State := x; clear y; revert x; with_reducible apply kept_lift)
      | (intro x; have y : State := x.1; clear y; revert x; with_reducible apply kept_lift_fst)
      | (intro x; have y : State := x.2; clear y; revert x; with_reducible apply kept_lift_snd)
      | (intro x; clear_value x) | simp only [kept_mk, kept_fold] | (with_reducible intro _)
      | (with_reducible apply kept_ite) | split | dsimp only)

theorem State.lnkRaise_kept {q : List Instr} {s : State} (n : Nat) (d : Bool) (seq st cause : Nat) (kq : Kept q s) :
    Kept q (State.lnkRaise s n d seq st cause) := by
  unfold State.lnkRaise
  repeat' (
    first
      | (with_reducible assumption) | lift_lets
      | (intro x; have y : State := x; clear y; revert x; with_reducible apply kept_lift)
      | (intro x; have y : State := x.1; clear y; revert x; with_reducible apply kept_lift_fst)
      | (intro x; have y : State := x.2; clear y; revert x; with_reducible apply kept_lift_snd)
      | (intro x; clear_value x) | (with_reducible apply State.raiseI_kept) | simp only [kept_mk, kept_fold]
      | (with_reducible intro _) | (with_reducible apply kept_ite) | split | dsimp only)

theorem State.portGoto_kept {q : List Instr} {s : State} (d : Bool) (st : Nat) (kq : Kept q s) :
    Kept q (State.portGoto s d st) := by
  unfold State.portGoto
  repeat' (
    first
      | (with_reducible assumption) | lift_lets
      | (intro x; have y : State := x; clear y; revert x; with_reducible apply kept_lift)
      | (intro x; have y : State := x.1; clear y; revert x; with_reducible apply kept_lift_fst)
      | (intro x; have y : State := x.2; clear y; revert x; with_reducible apply kept_lift_snd)
      | (intro x; clear_value x) | (with_reducible apply State.irq_kept) | (with_reducible apply State.pput_kept)
      | (with_reducible apply State.setPort_kept) | simp only [kept_mk, kept_fold] | (with_reducible intro _)
      | (with_reducible apply kept_ite) | split | dsimp only)

theorem State.setLps_kept {q : List Instr} {s : State} (d : Bool) (l : Nat) (kq : Kept q s) :
    Kept q (State.setLps s d l) := by
  unfold State.setLps
  repeat' (
    first
      | (with_reducible assumption) | (with_reducible apply State.irq_kept)
      | (with_reducible apply State.pput_kept) | (with_reducible intro _) | (with_reducible apply kept_ite)
      | split | dsimp only)

theorem State.portDown_kept {q : List Instr} {s : State} (d : Bool) (kq : Kept q s) :
    Kept q (State.portDown s d) := by
  unfold State.portDown
  repeat' (
    first
      | (with_reducible assumption) | lift_lets
      | (intro x; have y : State := x; clear y; revert x; with_reducible apply kept_lift)
      | (intro x; have y : State := x.1; clear y; revert x; with_reducible apply kept_lift_fst)
      | (intro x; have y : State := x.2; clear y; revert x; with_reducible apply kept_lift_snd)
      | (intro x; clear_value x) | (with_reducible apply State.portGoto_kept)
      | (with_reducible apply State.setLps_kept) | (with_reducible apply State.setPort_kept)
      | (with_reducible intro _) | split | dsimp only)

theorem State.injTake_kept {q : List Instr} {s : State} (k : Nat) (kq : Kept q s) :
    Kept q (State.injTake s k) := by
  unfold State.injTake
  repeat' (
    first
      | (with_reducible assumption) | (with_reducible apply State.put_kept) | (with_reducible intro _)
      | (with_reducible apply kept_ite) | split | dsimp only)

theorem State.takeRate_kept {q : List Instr} {s : State} (d : Bool) (kq : Kept q s) :
    Kept q (State.takeRate s d) := by
  unfold State.takeRate
  repeat' (
    first
      | (with_reducible assumption) | (with_reducible apply State.pput_kept) | (with_reducible intro _)
      | (with_reducible apply kept_ite) | split | dsimp only)

theorem State.wakePort_kept {q : List Instr} {s : State} (d : Bool) (kq : Kept q s) :
    Kept q (State.wakePort s d) := by
  unfold State.wakePort
  repeat' (
    first
      | (with_reducible assumption) | lift_lets
      | (intro x; have y : State := x; clear y; revert x; with_reducible apply kept_lift)
      | (intro x; have y : State := x.1; clear y; revert x; with_reducible apply kept_lift_fst)
      | (intro x; have y : State := x.2; clear y; revert x; with_reducible apply kept_lift_snd)
      | (intro x; clear_value x) | (with_reducible apply State.portGoto_kept)
      | (with_reducible apply State.setPort_kept) | (with_reducible apply State.takeRate_kept)
      | simp only [kept_mk, kept_fold] | (with_reducible intro _) | (with_reducible apply kept_ite) | split
      | dsimp only)

theorem State.retPush_kept {q : List Instr} {s : State} (type id : Nat) (payload : List Word) (kq : Kept q s) :
    Kept q (State.retPush s type id payload) := by
  unfold State.retPush
  repeat' (
    first
      | (with_reducible assumption) | lift_lets
      | (intro x; have y : State := x; clear y; revert x; with_reducible apply kept_lift)
      | (intro x; have y : State := x.1; clear y; revert x; with_reducible apply kept_lift_fst)
      | (intro x; have y : State := x.2; clear y; revert x; with_reducible apply kept_lift_snd)
      | (intro x; clear_value x) | (with_reducible apply State.injTake_kept)
      | (with_reducible apply State.put_kept) | (with_reducible apply State.wakePort_kept)
      | simp only [kept_mk, kept_fold] | (with_reducible intro _) | (with_reducible apply kept_ite) | split
      | dsimp only)

theorem State.retDrop_kept {q : List Instr} {s : State} (n : Nat) (kq : Kept q s) :
    Kept q (State.retDrop s n) := by
  unfold State.retDrop
  repeat' (
    first
      | (with_reducible assumption) | (with_reducible apply State.pcount_kept) | (with_reducible intro _)
      | split | dsimp only)

theorem State.message_kept {q : List Instr} {s : State} (code : Nat) (ws : List Word) (kq : Kept q s) :
    Kept q (State.message s code ws) := by
  unfold State.message
  repeat' (
    first
      | (with_reducible assumption) | (with_reducible apply State.retDrop_kept)
      | (with_reducible apply State.retPush_kept) | (with_reducible intro _) | (with_reducible apply kept_ite)
      | split | dsimp only)

theorem State.faultMessage_kept {q : List Instr} {s : State} (kq : Kept q s) :
    Kept q (State.faultMessage s) := by
  unfold State.faultMessage
  repeat' (
    first
      | (with_reducible assumption) | (with_reducible apply State.message_kept) | (with_reducible intro _)
      | (with_reducible apply kept_ite) | split | dsimp only)

theorem State.clearU_kept {q : List Instr} {s : State} (kq : Kept q s) :
    Kept q (State.clearU s) := by
  unfold State.clearU
  repeat' (
    first
      | (with_reducible assumption) | lift_lets
      | (intro x; have y : State := x; clear y; revert x; with_reducible apply kept_lift)
      | (intro x; have y : State := x.1; clear y; revert x; with_reducible apply kept_lift_fst)
      | (intro x; have y : State := x.2; clear y; revert x; with_reducible apply kept_lift_snd)
      | (intro x; clear_value x) | (with_reducible apply State.retDrop_kept) | simp only [kept_mk, kept_fold]
      | (with_reducible intro _) | split | dsimp only)

theorem State.clearD_kept {q : List Instr} {s : State} (kq : Kept q s) :
    Kept q (State.clearD s) := by
  unfold State.clearD
  repeat' (
    first
      | (with_reducible assumption) | lift_lets
      | (intro x; have y : State := x; clear y; revert x; with_reducible apply kept_lift)
      | (intro x; have y : State := x.1; clear y; revert x; with_reducible apply kept_lift_fst)
      | (intro x; have y : State := x.2; clear y; revert x; with_reducible apply kept_lift_snd)
      | (intro x; clear_value x) | simp only [kept_mk, kept_fold] | (with_reducible intro _) | split
      | dsimp only)

theorem State.linkExit_kept {q : List Instr} {s : State} (d : Bool) (cause : Nat) (kq : Kept q s) :
    Kept q (State.linkExit s d cause) := by
  unfold State.linkExit
  repeat' (
    first
      | (with_reducible assumption) | lift_lets
      | (intro x; have y : State := x; clear y; revert x; with_reducible apply kept_lift)
      | (intro x; have y : State := x.1; clear y; revert x; with_reducible apply kept_lift_fst)
      | (intro x; have y : State := x.2; clear y; revert x; with_reducible apply kept_lift_snd)
      | (intro x; clear_value x) | (with_reducible apply State.calLinkDown_kept)
      | (with_reducible apply State.clearD_kept) | (with_reducible apply State.clearU_kept)
      | (with_reducible apply State.lnkRaise_kept) | (with_reducible apply State.pcount_kept)
      | (with_reducible apply State.portDown_kept) | (with_reducible apply State.pput_kept)
      | (with_reducible apply State.setPort_kept) | simp only [kept_mk, kept_fold] | (with_reducible intro _)
      | (with_reducible apply kept_ite) | split | dsimp only)

theorem State.lnkOff_kept {q : List Instr} {s : State} (kq : Kept q s) :
    Kept q (State.lnkOff s) := by
  unfold State.lnkOff
  repeat' (
    first
      | (with_reducible assumption) | (with_reducible apply State.linkExit_kept)
      | (with_reducible apply State.portDown_kept) | (with_reducible apply State.put_kept)
      | (with_reducible intro _) | split | dsimp only)

theorem State.setRate_kept {q : List Instr} {s : State} (d : Bool) (r : Nat) (kq : Kept q s) :
    Kept q (State.setRate s d r) := by
  unfold State.setRate
  repeat' (
    first
      | (with_reducible assumption) | lift_lets
      | (intro x; have y : State := x; clear y; revert x; with_reducible apply kept_lift)
      | (intro x; have y : State := x.1; clear y; revert x; with_reducible apply kept_lift_fst)
      | (intro x; have y : State := x.2; clear y; revert x; with_reducible apply kept_lift_snd)
      | (intro x; clear_value x) | (with_reducible apply State.linkExit_kept)
      | (with_reducible apply State.pput_kept) | (with_reducible intro _) | (with_reducible apply kept_ite)
      | split | dsimp only)

theorem State.setTaps_kept {q : List Instr} {s : State} (d : Bool) (k pre post : Nat) (limit : Bool) (kq : Kept q s) :
    Kept q (State.setTaps s d k pre post limit) := by
  unfold State.setTaps
  repeat' (
    first
      | (with_reducible assumption) | (with_reducible apply State.pput_kept) | (with_reducible intro _) | split
      | dsimp only)

theorem State.setResult_kept {q : List Instr} {s : State} (d : Bool) (k r : Nat) (kq : Kept q s) :
    Kept q (State.setResult s d k r) := by
  unfold State.setResult
  repeat' (
    first
      | (with_reducible assumption) | lift_lets
      | (intro x; have y : State := x; clear y; revert x; with_reducible apply kept_lift)
      | (intro x; have y : State := x.1; clear y; revert x; with_reducible apply kept_lift_fst)
      | (intro x; have y : State := x.2; clear y; revert x; with_reducible apply kept_lift_snd)
      | (intro x; clear_value x) | (with_reducible apply State.setPort_kept) | simp only [kept_mk, kept_fold]
      | (with_reducible intro _) | split | dsimp only)

theorem State.applyRequest_kept {q : List Instr} {s : State} (d : Bool) (k : Nat) (w : Nat) (kq : Kept q s) :
    Kept q (State.applyRequest s d k w) := by
  unfold State.applyRequest
  repeat' (
    first
      | (with_reducible assumption) | lift_lets
      | (intro x; have y : State := x; clear y; revert x; with_reducible apply kept_lift)
      | (intro x; have y : State := x.1; clear y; revert x; with_reducible apply kept_lift_fst)
      | (intro x; have y : State := x.2; clear y; revert x; with_reducible apply kept_lift_snd)
      | (intro x; clear_value x) | (with_reducible apply State.setResult_kept)
      | (with_reducible apply State.setTaps_kept) | (with_reducible intro _) | (with_reducible apply kept_ite)
      | split | dsimp only)

theorem State.presetTaps_kept {q : List Instr} {s : State} (d : Bool) (kq : Kept q s) :
    Kept q (State.presetTaps s d) := by
  unfold State.presetTaps
  repeat' (
    first
      | (with_reducible assumption) | (with_reducible apply State.setTaps_kept)
      | (with_reducible apply forUpto_keeps (P := Kept q)) | (with_reducible intro _)
      | (with_reducible apply kept_ite) | split | dsimp only)

theorem State.enterDetect_kept {q : List Instr} {s : State} (d : Bool) (kq : Kept q s) :
    Kept q (State.enterDetect s d) := by
  unfold State.enterDetect
  repeat' (
    first
      | (with_reducible assumption) | lift_lets
      | (intro x; have y : State := x; clear y; revert x; with_reducible apply kept_lift)
      | (intro x; have y : State := x.1; clear y; revert x; with_reducible apply kept_lift_fst)
      | (intro x; have y : State := x.2; clear y; revert x; with_reducible apply kept_lift_snd)
      | (intro x; clear_value x) | (with_reducible apply State.portGoto_kept)
      | (with_reducible apply State.pput_kept) | (with_reducible apply State.presetTaps_kept)
      | (with_reducible apply State.setPort_kept) | (with_reducible apply State.takeRate_kept)
      | (with_reducible intro _) | (with_reducible apply kept_ite) | split | dsimp only)

theorem execLinkDownExpiry_kept {q : List Instr} (d : Bool) {s : State} {z : State} (kq : Kept q s)
    (hx : execLinkDownExpiry d s = .next z) : Kept q z := by
  obtain rfl := Host.Outcome.next.inj hx
  repeat' (
    first
      | (with_reducible assumption) | (with_reducible apply State.enterDetect_kept) | (with_reducible intro _)
      | (with_reducible apply kept_ite) | split | dsimp only)

theorem execSignalDetected_kept {q : List Instr} (d : Bool) {s : State} {z : State} (kq : Kept q s)
    (hx : execSignalDetected d s = .next z) : Kept q z := by
  obtain rfl := Host.Outcome.next.inj hx
  repeat' (
    first
      | (with_reducible assumption) | (with_reducible apply State.portGoto_kept)
      | (with_reducible apply State.wakePort_kept) | (with_reducible intro _) | (with_reducible apply kept_ite)
      | split | dsimp only)

theorem State.enterActive_kept {q : List Instr} {s : State} (d : Bool) (kq : Kept q s) :
    Kept q (State.enterActive s d) := by
  unfold State.enterActive
  repeat' (
    first
      | (with_reducible assumption) | lift_lets
      | (intro x; have y : State := x; clear y; revert x; with_reducible apply kept_lift)
      | (intro x; have y : State := x.1; clear y; revert x; with_reducible apply kept_lift_fst)
      | (intro x; have y : State := x.2; clear y; revert x; with_reducible apply kept_lift_snd)
      | (intro x; clear_value x) | (with_reducible apply State.calTrigger_kept)
      | (with_reducible apply State.clearD_kept) | (with_reducible apply State.clearU_kept)
      | (with_reducible apply State.portGoto_kept) | (with_reducible apply State.pput_kept)
      | (with_reducible apply State.setLps_kept) | (with_reducible apply State.setPort_kept)
      | simp only [kept_mk, kept_fold] | (with_reducible intro _) | (with_reducible apply kept_ite) | split
      | dsimp only)

theorem State.wiringFault_kept {q : List Instr} {s : State} (d : Bool) (lane : Nat) (kq : Kept q s) :
    Kept q (State.wiringFault s d lane) := by
  unfold State.wiringFault
  repeat' (
    first
      | (with_reducible assumption) | lift_lets
      | (intro x; have y : State := x; clear y; revert x; with_reducible apply kept_lift)
      | (intro x; have y : State := x.1; clear y; revert x; with_reducible apply kept_lift_fst)
      | (intro x; have y : State := x.2; clear y; revert x; with_reducible apply kept_lift_snd)
      | (intro x; clear_value x) | (with_reducible apply State.linkExit_kept)
      | (with_reducible apply State.lnkRaise_kept) | (with_reducible intro _) | split | dsimp only)

theorem State.laneOrder_kept {q : List Instr} {s : State} (d : Bool) (lanes : List TsLane) (kq : Kept q s) :
    Kept q (State.laneOrder s d lanes) := by
  unfold State.laneOrder
  repeat' (
    first
      | (with_reducible assumption) | lift_lets
      | (intro x; have y : State := x; clear y; revert x; with_reducible apply kept_lift)
      | (intro x; have y : State := x.1; clear y; revert x; with_reducible apply kept_lift_fst)
      | (intro x; have y : State := x.2; clear y; revert x; with_reducible apply kept_lift_snd)
      | (intro x; clear_value x) | (with_reducible apply State.portGoto_kept)
      | (with_reducible apply State.pput_kept) | (with_reducible apply State.setPort_kept)
      | (with_reducible apply State.wiringFault_kept) | simp only [kept_mk, kept_fold] | (with_reducible intro _)
      | (with_reducible apply kept_ite) | split | dsimp only)

theorem State.eqTrain_kept {q : List Instr} {s : State} (d : Bool) (lanes : List TsLane) (kq : Kept q s) :
    Kept q (State.eqTrain s d lanes) := by
  unfold State.eqTrain
  repeat' (
    first
      | (with_reducible assumption) | lift_lets
      | (intro x; have y : State := x; clear y; revert x; with_reducible apply kept_lift)
      | (intro x; have y : State := x.1; clear y; revert x; with_reducible apply kept_lift_fst)
      | (intro x; have y : State := x.2; clear y; revert x; with_reducible apply kept_lift_snd)
      | (intro x; clear_value x) | (with_reducible apply State.applyRequest_kept)
      | (with_reducible apply State.portGoto_kept) | (with_reducible apply State.setPort_kept)
      | simp only [kept_mk, kept_fold] | (with_reducible intro _) | (with_reducible apply kept_ite) | split
      | dsimp only)

theorem State.codeErrors_kept {q : List Instr} {s : State} (d : Bool) (n : Nat) (kq : Kept q s) :
    Kept q (State.codeErrors s d n) := by
  unfold State.codeErrors
  repeat' (
    first
      | (with_reducible assumption) | lift_lets
      | (intro x; have y : State := x; clear y; revert x; with_reducible apply kept_lift)
      | (intro x; have y : State := x.1; clear y; revert x; with_reducible apply kept_lift_fst)
      | (intro x; have y : State := x.2; clear y; revert x; with_reducible apply kept_lift_snd)
      | (intro x; clear_value x) | (with_reducible apply State.linkExit_kept)
      | (with_reducible apply State.pcount_kept) | (with_reducible apply State.setPort_kept)
      | simp only [kept_mk, kept_fold] | (with_reducible intro _) | (with_reducible apply kept_ite) | split
      | dsimp only)

theorem State.injLanes_kept {q : List Instr} {s : State} (d : Bool) (lanes : List TsLane) (kq : Kept q s) :
    Kept q (State.injLanes s d lanes).1 := by
  unfold State.injLanes
  repeat' (
    first
      | (with_reducible assumption) | lift_lets
      | (intro x; have y : State := x; clear y; revert x; with_reducible apply kept_lift)
      | (intro x; have y : State := x.1; clear y; revert x; with_reducible apply kept_lift_fst)
      | (intro x; have y : State := x.2; clear y; revert x; with_reducible apply kept_lift_snd)
      | (intro x; clear_value x) | (with_reducible apply State.injTake_kept) | simp only [kept_mk, kept_fold]
      | (with_reducible intro _) | (with_reducible apply kept_ite) | (with_reducible apply kept_ite_fst)
      | (with_reducible apply kept_ite_snd) | split | dsimp only)

theorem State.setErrors_kept {q : List Instr} {s : State} (d : Bool) (n : Nat) (kq : Kept q s) :
    Kept q (State.setErrors s d n) := by
  unfold State.setErrors
  repeat' (
    first
      | (with_reducible assumption) | (with_reducible apply State.codeErrors_kept) | (with_reducible intro _)
      | (with_reducible apply kept_ite) | split | dsimp only)

theorem State.runsBreak_kept {q : List Instr} {s : State} (d : Bool) (kq : Kept q s) :
    Kept q (State.runsBreak s d) := by
  unfold State.runsBreak
  repeat' (
    first
      | (with_reducible assumption) | lift_lets
      | (intro x; have y : State := x; clear y; revert x; with_reducible apply kept_lift)
      | (intro x; have y : State := x.1; clear y; revert x; with_reducible apply kept_lift_fst)
      | (intro x; have y : State := x.2; clear y; revert x; with_reducible apply kept_lift_snd)
      | (intro x; clear_value x) | (with_reducible apply State.setPort_kept) | simp only [kept_mk, kept_fold]
      | (with_reducible intro _) | split | dsimp only)

theorem State.ts1Read_kept {q : List Instr} {s : State} (d : Bool) (lanes : List TsLane) (kq : Kept q s) :
    Kept q (State.ts1Read s d lanes) := by
  unfold State.ts1Read
  repeat' (
    first
      | (with_reducible assumption) | lift_lets
      | (intro x; have y : State := x; clear y; revert x; with_reducible apply kept_lift)
      | (intro x; have y : State := x.1; clear y; revert x; with_reducible apply kept_lift_fst)
      | (intro x; have y : State := x.2; clear y; revert x; with_reducible apply kept_lift_snd)
      | (intro x; clear_value x) | (with_reducible apply State.eqTrain_kept)
      | (with_reducible apply State.laneOrder_kept) | (with_reducible apply State.linkExit_kept)
      | (with_reducible apply State.portGoto_kept) | (with_reducible apply State.pput_kept)
      | (with_reducible apply State.runsBreak_kept) | (with_reducible apply State.setPort_kept)
      | simp only [kept_mk, kept_fold] | (with_reducible intro _) | (with_reducible apply kept_ite) | split
      | dsimp only)

theorem State.ts1_kept {q : List Instr} {s : State} (d : Bool) (lanes : List TsLane) (kq : Kept q s) :
    Kept q (State.ts1 s d lanes) := by
  unfold State.ts1
  repeat' (
    first
      | (with_reducible assumption) | (with_reducible apply State.injLanes_kept)
      | (with_reducible apply State.setErrors_kept) | (with_reducible apply State.ts1Read_kept)
      | (with_reducible intro _) | split | dsimp only)

theorem execTs1Received_kept {q : List Instr} (d : Bool) (lanes : List TsLane) {s : State} {z : State} (kq : Kept q s)
    (hx : execTs1Received d lanes s = .next z) : Kept q z := by
  obtain rfl := Host.Outcome.next.inj hx
  repeat' (
    first
      | (with_reducible assumption) | (with_reducible apply State.ts1_kept) | (with_reducible intro _)
      | (with_reducible apply kept_ite) | split | dsimp only)

theorem State.ts2Read_kept {q : List Instr} {s : State} (d : Bool) (lanes : List TsLane) (skew : Nat) (kq : Kept q s) :
    Kept q (State.ts2Read s d lanes skew) := by
  unfold State.ts2Read
  repeat' (
    first
      | (with_reducible assumption) | lift_lets
      | (intro x; have y : State := x; clear y; revert x; with_reducible apply kept_lift)
      | (intro x; have y : State := x.1; clear y; revert x; with_reducible apply kept_lift_fst)
      | (intro x; have y : State := x.2; clear y; revert x; with_reducible apply kept_lift_snd)
      | (intro x; clear_value x) | (with_reducible apply State.enterActive_kept)
      | (with_reducible apply State.runsBreak_kept) | (with_reducible apply State.setLps_kept)
      | (with_reducible apply State.setPort_kept) | (with_reducible apply State.wakePort_kept)
      | (with_reducible apply State.wiringFault_kept) | simp only [kept_mk, kept_fold] | (with_reducible intro _)
      | (with_reducible apply kept_ite) | split | dsimp only)

theorem State.ts2_kept {q : List Instr} {s : State} (d : Bool) (lanes : List TsLane) (skew : Nat) (kq : Kept q s) :
    Kept q (State.ts2 s d lanes skew) := by
  unfold State.ts2
  repeat' (
    first
      | (with_reducible assumption) | (with_reducible apply State.injLanes_kept)
      | (with_reducible apply State.setErrors_kept) | (with_reducible apply State.ts2Read_kept)
      | (with_reducible intro _) | split | dsimp only)

theorem execTs2Received_kept {q : List Instr} (d : Bool) (lanes : List TsLane) (skew : Nat) {s : State} {z : State} (kq : Kept q s)
    (hx : execTs2Received d lanes skew s = .next z) : Kept q z := by
  obtain rfl := Host.Outcome.next.inj hx
  repeat' (
    first
      | (with_reducible assumption) | (with_reducible apply State.ts2_kept) | (with_reducible intro _)
      | (with_reducible apply kept_ite) | split | dsimp only)

theorem State.trainTimeout_kept {q : List Instr} {s : State} (d : Bool) (kq : Kept q s) :
    Kept q (State.trainTimeout s d) := by
  unfold State.trainTimeout
  repeat' (
    first
      | (with_reducible assumption) | lift_lets
      | (intro x; have y : State := x; clear y; revert x; with_reducible apply kept_lift)
      | (intro x; have y : State := x.1; clear y; revert x; with_reducible apply kept_lift_fst)
      | (intro x; have y : State := x.2; clear y; revert x; with_reducible apply kept_lift_snd)
      | (intro x; clear_value x) | (with_reducible apply State.lnkRaise_kept)
      | (with_reducible apply State.portDown_kept) | (with_reducible apply State.setPort_kept)
      | simp only [kept_mk, kept_fold] | (with_reducible intro _) | split | dsimp only)

theorem execTrainingTimeout_kept {q : List Instr} (d : Bool) {s : State} {z : State} (kq : Kept q s)
    (hx : execTrainingTimeout d s = .next z) : Kept q z := by
  obtain rfl := Host.Outcome.next.inj hx
  repeat' (
    first
      | (with_reducible assumption) | lift_lets
      | (intro x; have y : State := x; clear y; revert x; with_reducible apply kept_lift)
      | (intro x; have y : State := x.1; clear y; revert x; with_reducible apply kept_lift_fst)
      | (intro x; have y : State := x.2; clear y; revert x; with_reducible apply kept_lift_snd)
      | (intro x; clear_value x) | (with_reducible apply State.trainTimeout_kept)
      | simp only [kept_mk, kept_fold] | (with_reducible intro _) | (with_reducible apply kept_ite) | split
      | dsimp only)

theorem State.notTs_kept {q : List Instr} {s : State} (d : Bool) (kq : Kept q s) :
    Kept q (State.notTs s d) := by
  unfold State.notTs
  repeat' (
    first
      | (with_reducible assumption) | lift_lets
      | (intro x; have y : State := x; clear y; revert x; with_reducible apply kept_lift)
      | (intro x; have y : State := x.1; clear y; revert x; with_reducible apply kept_lift_fst)
      | (intro x; have y : State := x.2; clear y; revert x; with_reducible apply kept_lift_snd)
      | (intro x; clear_value x) | (with_reducible apply State.setPort_kept) | simp only [kept_mk, kept_fold]
      | (with_reducible intro _) | split | dsimp only)

theorem execTrainPacket_kept {q : List Instr} (w0 w1 w2 w3 : Word) {s : State} {z : State} (kq : Kept q s)
    (hx : execTrainPacket w0 w1 w2 w3 s = .next z) : Kept q z := by
  obtain rfl := Host.Outcome.next.inj hx
  repeat' (
    first
      | (with_reducible assumption) | (with_reducible apply State.applyRequest_kept)
      | (with_reducible apply State.eqTrain_kept) | (with_reducible apply State.notTs_kept)
      | (with_reducible intro _) | (with_reducible apply kept_ite) | split | dsimp only)

theorem execSkpTimeout_kept {q : List Instr} (d : Bool) {s : State} {z : State} (kq : Kept q s)
    (hx : execSkpTimeout d s = .next z) : Kept q z := by
  obtain rfl := Host.Outcome.next.inj hx
  repeat' (
    first
      | (with_reducible assumption) | (with_reducible apply State.linkExit_kept) | (with_reducible intro _)
      | (with_reducible apply kept_ite) | split | dsimp only)

theorem execCodeErrorLimit_kept {q : List Instr} (d : Bool) (n : BitVec 16) {s : State} {z : State} (kq : Kept q s)
    (hx : execCodeErrorLimit d n s = .next z) : Kept q z := by
  obtain rfl := Host.Outcome.next.inj hx
  repeat' (
    first
      | (with_reducible assumption) | (with_reducible apply State.codeErrors_kept) | (with_reducible intro _)
      | (with_reducible apply kept_ite) | split | dsimp only)

theorem State.injColumn_kept {q : List Instr} {s : State} (kq : Kept q s) :
    Kept q (State.injColumn s) := by
  unfold State.injColumn
  repeat' (
    first
      | (with_reducible assumption) | (with_reducible apply State.codeErrors_kept)
      | (with_reducible apply State.injTake_kept) | (with_reducible intro _) | (with_reducible apply kept_ite)
      | split | dsimp only)

theorem State.eios_kept {q : List Instr} {s : State} (d l2 : Bool) (kq : Kept q s) :
    Kept q (State.eios s d l2) := by
  unfold State.eios
  repeat' (
    first
      | (with_reducible assumption) | lift_lets
      | (intro x; have y : State := x; clear y; revert x; with_reducible apply kept_lift)
      | (intro x; have y : State := x.1; clear y; revert x; with_reducible apply kept_lift_fst)
      | (intro x; have y : State := x.2; clear y; revert x; with_reducible apply kept_lift_snd)
      | (intro x; clear_value x) | (with_reducible apply State.calLinkDown_kept)
      | (with_reducible apply State.setLps_kept) | (with_reducible apply State.setPort_kept)
      | simp only [kept_mk, kept_fold] | (with_reducible intro _) | (with_reducible apply kept_ite) | split
      | dsimp only)

theorem execEiosReceived_kept {q : List Instr} (d l2 : Bool) {s : State} {z : State} (kq : Kept q s)
    (hx : execEiosReceived d l2 s = .next z) : Kept q z := by
  obtain rfl := Host.Outcome.next.inj hx
  repeat' (
    first
      | (with_reducible assumption) | (with_reducible apply State.eios_kept) | (with_reducible intro _)
      | (with_reducible apply kept_ite) | split | dsimp only)

theorem execL1IdleExpiry_kept {q : List Instr} {s : State} {z : State} (kq : Kept q s)
    (hx : execL1IdleExpiry s = .next z) : Kept q z := by
  obtain rfl := Host.Outcome.next.inj hx
  repeat' (
    first
      | (with_reducible assumption) | lift_lets
      | (intro x; have y : State := x; clear y; revert x; with_reducible apply kept_lift)
      | (intro x; have y : State := x.1; clear y; revert x; with_reducible apply kept_lift_fst)
      | (intro x; have y : State := x.2; clear y; revert x; with_reducible apply kept_lift_snd)
      | (intro x; clear_value x) | (with_reducible apply State.setPort_kept) | simp only [kept_mk, kept_fold]
      | (with_reducible intro _) | (with_reducible apply kept_ite) | split | dsimp only)

theorem execLowPowerExitTimeout_kept {q : List Instr} (d : Bool) {s : State} {z : State} (kq : Kept q s)
    (hx : execLowPowerExitTimeout d s = .next z) : Kept q z := by
  obtain rfl := Host.Outcome.next.inj hx
  repeat' (
    first
      | (with_reducible assumption) | lift_lets
      | (intro x; have y : State := x; clear y; revert x; with_reducible apply kept_lift)
      | (intro x; have y : State := x.1; clear y; revert x; with_reducible apply kept_lift_fst)
      | (intro x; have y : State := x.2; clear y; revert x; with_reducible apply kept_lift_snd)
      | (intro x; clear_value x) | (with_reducible apply State.linkExit_kept) | simp only [kept_mk, kept_fold]
      | (with_reducible intro _) | (with_reducible apply kept_ite) | split | dsimp only)

theorem State.lnkCtrlWrite_kept {q : List Instr} {s : State} (d : Bool) (v : Word) (kq : Kept q s) :
    Kept q (State.lnkCtrlWrite s d v) := by
  unfold State.lnkCtrlWrite
  repeat' (
    first
      | (with_reducible assumption) | lift_lets
      | (intro x; have y : State := x; clear y; revert x; with_reducible apply kept_lift)
      | (intro x; have y : State := x.1; clear y; revert x; with_reducible apply kept_lift_fst)
      | (intro x; have y : State := x.2; clear y; revert x; with_reducible apply kept_lift_snd)
      | (intro x; clear_value x) | (with_reducible apply State.linkExit_kept)
      | (with_reducible apply State.regWrite_kept) | (with_reducible intro _) | (with_reducible apply kept_ite)
      | split | dsimp only)

theorem execRetrain_kept {q : List Instr} (i : Initiator) (d : Bool) (v : Word) {s : State} {z : State} (kq : Kept q s)
    (hx : execRetrain i d v s = .next z) : Kept q z := by
  obtain rfl := Host.Outcome.next.inj hx
  repeat' (
    first
      | (with_reducible assumption) | (with_reducible apply State.lnkCtrlWrite_kept)
      | (with_reducible apply State.portWrite_kept) | (with_reducible intro _) | (with_reducible apply kept_ite)
      | split | dsimp only)

theorem State.vddaLoss_kept {q : List Instr} {s : State} (kq : Kept q s) :
    Kept q (State.vddaLoss s) := by
  unfold State.vddaLoss
  repeat' (
    first
      | (with_reducible assumption) | lift_lets
      | (intro x; have y : State := x; clear y; revert x; with_reducible apply kept_lift)
      | (intro x; have y : State := x.1; clear y; revert x; with_reducible apply kept_lift_fst)
      | (intro x; have y : State := x.2; clear y; revert x; with_reducible apply kept_lift_snd)
      | (intro x; clear_value x) | (with_reducible apply State.linkExit_kept) | simp only [kept_mk, kept_fold]
      | (with_reducible intro _) | split | dsimp only)

theorem execVddaLnkLoss_kept {q : List Instr} {s : State} {z : State} (kq : Kept q s)
    (hx : execVddaLnkLoss s = .next z) : Kept q z := by
  obtain rfl := Host.Outcome.next.inj hx
  repeat' (
    first
      | (with_reducible assumption) | (with_reducible apply State.vddaLoss_kept) | (with_reducible intro _)
      | (with_reducible apply kept_ite) | split | dsimp only)

theorem execHostTimeout_kept {q : List Instr} {s : State} {z : State} (kq : Kept q s)
    (hx : execHostTimeout s = .next z) : Kept q z := by
  obtain rfl := Host.Outcome.next.inj hx
  repeat' (
    first
      | (with_reducible assumption) | lift_lets
      | (intro x; have y : State := x; clear y; revert x; with_reducible apply kept_lift)
      | (intro x; have y : State := x.1; clear y; revert x; with_reducible apply kept_lift_fst)
      | (intro x; have y : State := x.2; clear y; revert x; with_reducible apply kept_lift_snd)
      | (intro x; clear_value x) | (with_reducible apply State.irq_kept)
      | (with_reducible apply State.lnkRaise_kept) | simp only [kept_mk, kept_fold] | (with_reducible intro _)
      | (with_reducible apply kept_ite) | split | dsimp only)

theorem State.retResend_kept {q : List Instr} {s : State} (kq : Kept q s) :
    Kept q (State.retResend s) := by
  unfold State.retResend
  repeat' (
    first
      | (with_reducible assumption) | lift_lets
      | (intro x; have y : State := x; clear y; revert x; with_reducible apply kept_lift)
      | (intro x; have y : State := x.1; clear y; revert x; with_reducible apply kept_lift_fst)
      | (intro x; have y : State := x.2; clear y; revert x; with_reducible apply kept_lift_snd)
      | (intro x; clear_value x) | (with_reducible apply State.injTake_kept)
      | (with_reducible apply State.lnkRaise_kept) | (with_reducible apply State.pcount_kept)
      | (with_reducible apply State.retDrop_kept) | simp only [kept_mk, kept_fold] | (with_reducible intro _)
      | (with_reducible apply kept_ite) | split | dsimp only)

theorem State.irqMessage_kept {q : List Instr} {s : State} (kq : Kept q s) :
    Kept q (State.irqMessage s) := by
  unfold State.irqMessage
  repeat' (
    first
      | (with_reducible assumption) | lift_lets
      | (intro x; have y : State := x; clear y; revert x; with_reducible apply kept_lift)
      | (intro x; have y : State := x.1; clear y; revert x; with_reducible apply kept_lift_fst)
      | (intro x; have y : State := x.2; clear y; revert x; with_reducible apply kept_lift_snd)
      | (intro x; clear_value x) | (with_reducible apply State.message_kept) | simp only [kept_mk, kept_fold]
      | (with_reducible intro _) | split | dsimp only)

theorem State.msgOff_kept {q : List Instr} {s : State} (kq : Kept q s) :
    Kept q (State.msgOff s) := by
  unfold State.msgOff
  repeat' (
    first
      | (with_reducible assumption) | lift_lets
      | (intro x; have y : State := x; clear y; revert x; with_reducible apply kept_lift)
      | (intro x; have y : State := x.1; clear y; revert x; with_reducible apply kept_lift_fst)
      | (intro x; have y : State := x.2; clear y; revert x; with_reducible apply kept_lift_snd)
      | (intro x; clear_value x) | simp only [kept_mk, kept_fold] | (with_reducible intro _)
      | (with_reducible apply kept_ite) | split | dsimp only)

theorem execIrqMessage_kept {q : List Instr} {s : State} {z : State} (kq : Kept q s)
    (hx : execIrqMessage s = .next z) : Kept q z := by
  obtain rfl := Host.Outcome.next.inj hx
  repeat' (
    first
      | (with_reducible assumption) | (with_reducible apply State.irqMessage_kept) | (with_reducible intro _)
      | (with_reducible apply kept_ite) | split | dsimp only)

theorem State.portTick_kept {q : List Instr} {s : State} (d : Bool) (kq : Kept q s) :
    Kept q (State.portTick s d) := by
  unfold State.portTick
  repeat' (
    first
      | (with_reducible assumption) | lift_lets
      | (intro x; have y : State := x; clear y; revert x; with_reducible apply kept_lift)
      | (intro x; have y : State := x.1; clear y; revert x; with_reducible apply kept_lift_fst)
      | (intro x; have y : State := x.2; clear y; revert x; with_reducible apply kept_lift_snd)
      | (intro x; clear_value x) | (with_reducible apply State.codeErrors_kept)
      | (with_reducible apply State.setPort_kept) | simp only [kept_mk, kept_fold] | (with_reducible intro _)
      | (with_reducible apply kept_ite) | split | dsimp only)

theorem State.lnkTick_kept {q : List Instr} {s : State} (kq : Kept q s) :
    Kept q (State.lnkTick s) := by
  unfold State.lnkTick
  repeat' (
    first
      | (with_reducible assumption) | lift_lets
      | (intro x; have y : State := x; clear y; revert x; with_reducible apply kept_lift)
      | (intro x; have y : State := x.1; clear y; revert x; with_reducible apply kept_lift_fst)
      | (intro x; have y : State := x.2; clear y; revert x; with_reducible apply kept_lift_snd)
      | (intro x; clear_value x) | (with_reducible apply State.injColumn_kept)
      | (with_reducible apply State.portTick_kept) | simp only [kept_mk, kept_fold] | (with_reducible intro _)
      | (with_reducible apply kept_ite) | split | dsimp only)

theorem State.linkInject_kept {q : List Instr} {s : State} (i : Initiator) (ok : Bool) (v : Word) (kq : Kept q s) :
    Kept q (State.linkInject s i ok v) := by
  unfold State.linkInject
  repeat' (
    first
      | (with_reducible assumption) | lift_lets
      | (intro x; have y : State := x; clear y; revert x; with_reducible apply kept_lift)
      | (intro x; have y : State := x.1; clear y; revert x; with_reducible apply kept_lift_fst)
      | (intro x; have y : State := x.2; clear y; revert x; with_reducible apply kept_lift_snd)
      | (intro x; clear_value x) | (with_reducible apply State.put_kept)
      | (with_reducible apply State.raiseI_kept) | simp only [kept_mk, kept_fold] | (with_reducible intro _)
      | (with_reducible apply kept_ite) | split | dsimp only)

end Sys2Proof.Machine
end

