-- ==== Sys2Proof/Laws/KeptSafety.lean ====
section
/-!
SUPPORT. The operations of Machine/Safety.lean keep the queue and the canonical form.
-/

set_option linter.unusedSimpArgs false
set_option linter.unusedTactic false
set_option linter.unreachableTactic false

namespace Sys2Proof.Machine

theorem State.darkPads_kept {q : List Instr} {s : State} (a b : Bool) (kq : Kept q s) :
    Kept q (State.darkPads s a b) := by
  unfold State.darkPads
  repeat' (
    first
      | (with_reducible assumption) | lift_lets
      | (intro x; have y : State := x; clear y; revert x; with_reducible apply kept_lift)
      | (intro x; have y : State := x.1; clear y; revert x; with_reducible apply kept_lift_fst)
      | (intro x; have y : State := x.2; clear y; revert x; with_reducible apply kept_lift_snd)
      | (intro x; clear_value x) | (with_reducible apply State.inc_kept)
      | (with_reducible apply State.netsTrack_kept) | (with_reducible apply State.safRefresh_kept)
      | simp only [kept_mk, kept_fold] | (with_reducible intro _) | (with_reducible apply kept_ite) | split
      | dsimp only)

theorem execDarkPadActive_kept {q : List Instr} (a b : Bool) {s : State} {z : State} (kq : Kept q s)
    (hx : execDarkPadActive a b s = .next z) : Kept q z := by
  obtain rfl := Host.Outcome.next.inj hx
  repeat' (
    first
      | (with_reducible assumption) | (with_reducible apply State.darkPads_kept) | (with_reducible intro _)
      | (with_reducible apply kept_ite) | split | dsimp only)

theorem State.relightExpire_kept {q : List Instr} {s : State} (kq : Kept q s) :
    Kept q (State.relightExpire s) := by
  unfold State.relightExpire
  repeat' (
    first
      | (with_reducible assumption) | lift_lets
      | (intro x; have y : State := x; clear y; revert x; with_reducible apply kept_lift)
      | (intro x; have y : State := x.1; clear y; revert x; with_reducible apply kept_lift_fst)
      | (intro x; have y : State := x.2; clear y; revert x; with_reducible apply kept_lift_snd)
      | (intro x; clear_value x) | (with_reducible apply State.put_kept)
      | (with_reducible apply State.safRefresh_kept) | simp only [kept_mk, kept_fold] | (with_reducible intro _)
      | (with_reducible apply kept_ite) | split | dsimp only)

theorem execDarkRelightExpiry_kept {q : List Instr} {s : State} {z : State} (kq : Kept q s)
    (hx : execDarkRelightExpiry s = .next z) : Kept q z := by
  obtain rfl := Host.Outcome.next.inj hx
  repeat' (
    first
      | (with_reducible assumption) | (with_reducible apply State.relightExpire_kept) | (with_reducible intro _)
      | (with_reducible apply kept_ite) | split | dsimp only)

theorem State.darkTick_kept {q : List Instr} {s : State} (a b : Bool) (kq : Kept q s) :
    Kept q (State.darkTick s a b) := by
  unfold State.darkTick
  repeat' (
    first
      | (with_reducible assumption) | lift_lets
      | (intro x; have y : State := x; clear y; revert x; with_reducible apply kept_lift)
      | (intro x; have y : State := x.1; clear y; revert x; with_reducible apply kept_lift_fst)
      | (intro x; have y : State := x.2; clear y; revert x; with_reducible apply kept_lift_snd)
      | (intro x; clear_value x) | (with_reducible apply State.darkPads_kept)
      | (with_reducible apply State.relightExpire_kept) | simp only [kept_mk, kept_fold]
      | (with_reducible intro _) | (with_reducible apply kept_ite) | split | dsimp only)

theorem State.discTick_kept {q : List Instr} {s : State} (a b : Bool) (kq : Kept q s) :
    Kept q (State.discTick s a b) := by
  unfold State.discTick
  repeat' (
    first
      | (with_reducible assumption) | lift_lets
      | (intro x; have y : State := x; clear y; revert x; with_reducible apply kept_lift)
      | (intro x; have y : State := x.1; clear y; revert x; with_reducible apply kept_lift_fst)
      | (intro x; have y : State := x.2; clear y; revert x; with_reducible apply kept_lift_snd)
      | (intro x; clear_value x) | (with_reducible apply State.deassertF_kept)
      | (with_reducible apply State.put_kept) | (with_reducible intro _) | (with_reducible apply kept_ite)
      | split | dsimp only)

theorem execDarkDiscrepancy_kept {q : List Instr} {s : State} {z : State} (kq : Kept q s)
    (hx : execDarkDiscrepancy s = .next z) : Kept q z := by
  obtain rfl := Host.Outcome.next.inj hx
  repeat' (
    first
      | (with_reducible assumption) | (with_reducible apply State.ownC4Level_kept)
      | (with_reducible apply State.put_kept) | (with_reducible intro _) | (with_reducible apply kept_ite)
      | split | dsimp only)

theorem State.safCmd_kept {q : List Instr} {s : State} (v : Word) (kq : Kept q s) :
    Kept q (State.safCmd s v) := by
  unfold State.safCmd
  repeat' (
    first
      | (with_reducible assumption) | (with_reducible apply State.putB_kept)
      | (with_reducible apply State.regWrite_kept) | (with_reducible apply State.safRefresh_kept)
      | (with_reducible intro _) | (with_reducible apply kept_ite) | split | dsimp only)

theorem State.safConfig_kept {q : List Instr} {s : State} (a : Nat) (v : Word) (kq : Kept q s) :
    Kept q (State.safConfig s a v) := by
  unfold State.safConfig
  repeat' (
    first
      | (with_reducible assumption) | (with_reducible apply State.put_kept)
      | (with_reducible apply State.regWrite_kept) | (with_reducible apply State.safRefresh_kept)
      | (with_reducible intro _) | (with_reducible apply kept_ite) | split | dsimp only)

theorem execSafLock_kept {q : List Instr} (i : Initiator) (v : Word) {s : State} {z : State} (kq : Kept q s)
    (hx : execSafLock i v s = .next z) : Kept q z := by
  obtain rfl := Host.Outcome.next.inj hx
  repeat' (
    first
      | (with_reducible assumption) | (with_reducible apply State.portWrite_kept)
      | (with_reducible apply State.regWrite_kept) | (with_reducible intro _) | (with_reducible apply kept_ite)
      | split | dsimp only)

theorem execDarkNetMismatch_kept {q : List Instr} (n : NetReturn) {s : State} {z : State} (kq : Kept q s)
    (hx : execDarkNetMismatch n s = .next z) : Kept q z := by
  obtain rfl := Host.Outcome.next.inj hx
  repeat' (
    first
      | (with_reducible assumption) | lift_lets
      | (intro x; have y : State := x; clear y; revert x; with_reducible apply kept_lift)
      | (intro x; have y : State := x.1; clear y; revert x; with_reducible apply kept_lift_fst)
      | (intro x; have y : State := x.2; clear y; revert x; with_reducible apply kept_lift_snd)
      | (intro x; clear_value x) | (with_reducible apply State.deassertF_kept)
      | (with_reducible apply State.netsTrack_kept) | (with_reducible apply State.ownC4Level_kept)
      | simp only [kept_mk, kept_fold] | (with_reducible intro _) | (with_reducible apply kept_ite) | split
      | dsimp only)

theorem State.proofTick_kept {q : List Instr} {s : State} (kq : Kept q s) :
    Kept q (State.proofTick s) := by
  unfold State.proofTick
  repeat' (
    first
      | (with_reducible assumption) | lift_lets
      | (intro x; have y : State := x; clear y; revert x; with_reducible apply kept_lift)
      | (intro x; have y : State := x.1; clear y; revert x; with_reducible apply kept_lift_fst)
      | (intro x; have y : State := x.2; clear y; revert x; with_reducible apply kept_lift_snd)
      | (intro x; clear_value x) | (with_reducible apply State.netsTrack_kept) | simp only [kept_mk, kept_fold]
      | (with_reducible intro _) | (with_reducible apply kept_ite) | split | dsimp only)

theorem State.proofGo_kept {q : List Instr} {s : State} (n : Nat) (done : Bool) (kq : Kept q s) :
    Kept q (State.proofGo s n done) := by
  unfold State.proofGo
  repeat' (
    first
      | (with_reducible assumption) | lift_lets
      | (intro x; have y : State := x; clear y; revert x; with_reducible apply kept_lift)
      | (intro x; have y : State := x.1; clear y; revert x; with_reducible apply kept_lift_fst)
      | (intro x; have y : State := x.2; clear y; revert x; with_reducible apply kept_lift_snd)
      | (intro x; clear_value x) | (with_reducible apply State.netsTrack_kept) | simp only [kept_mk, kept_fold]
      | (with_reducible intro _) | split | dsimp only)

theorem execDarkNetProof_kept {q : List Instr} (pass : Bool) {s : State} {z : State} (kq : Kept q s)
    (hx : execDarkNetProof pass s = .next z) : Kept q z := by
  obtain rfl := Host.Outcome.next.inj hx
  repeat' (
    first
      | (with_reducible assumption) | (with_reducible apply State.ownC4_kept)
      | (with_reducible apply State.proofGo_kept) | (with_reducible intro _) | (with_reducible apply kept_ite)
      | split | dsimp only)

theorem State.relightStart_kept {q : List Instr} {s : State} (kq : Kept q s) :
    Kept q (State.relightStart s) := by
  unfold State.relightStart
  repeat' (
    first
      | (with_reducible assumption) | lift_lets
      | (intro x; have y : State := x; clear y; revert x; with_reducible apply kept_lift)
      | (intro x; have y : State := x.1; clear y; revert x; with_reducible apply kept_lift_fst)
      | (intro x; have y : State := x.2; clear y; revert x; with_reducible apply kept_lift_snd)
      | (intro x; clear_value x) | (with_reducible apply State.driveLrm_kept)
      | (with_reducible apply State.put_kept) | simp only [kept_mk, kept_fold] | (with_reducible intro _)
      | split | dsimp only)

theorem State.tdmLeaveInit_kept {q : List Instr} {s : State} (kq : Kept q s) :
    Kept q (State.tdmLeaveInit s) := by
  unfold State.tdmLeaveInit
  repeat' (
    first
      | (with_reducible assumption) | lift_lets
      | (intro x; have y : State := x; clear y; revert x; with_reducible apply kept_lift)
      | (intro x; have y : State := x.1; clear y; revert x; with_reducible apply kept_lift_fst)
      | (intro x; have y : State := x.2; clear y; revert x; with_reducible apply kept_lift_snd)
      | (intro x; clear_value x) | (with_reducible apply State.irq_kept) | (with_reducible apply State.put_kept)
      | simp only [kept_mk, kept_fold] | (with_reducible intro _) | (with_reducible apply kept_ite) | split
      | dsimp only)

theorem execLeaveInit_kept {q : List Instr} {s : State} {z : State} (kq : Kept q s)
    (hx : execLeaveInit s = .next z) : Kept q z := by
  obtain rfl := Host.Outcome.next.inj hx
  repeat' (
    first
      | (with_reducible assumption) | lift_lets
      | (intro x; have y : State := x; clear y; revert x; with_reducible apply kept_lift)
      | (intro x; have y : State := x.1; clear y; revert x; with_reducible apply kept_lift_fst)
      | (intro x; have y : State := x.2; clear y; revert x; with_reducible apply kept_lift_snd)
      | (intro x; clear_value x) | (with_reducible apply State.relightStart_kept)
      | (with_reducible apply State.safGoto_kept) | (with_reducible apply State.safRefresh_kept)
      | (with_reducible apply State.tdmLeaveInit_kept) | (with_reducible intro _)
      | (with_reducible apply kept_ite) | split | dsimp only)

theorem execRelightFbTimeout_kept {q : List Instr} {s : State} {z : State} (kq : Kept q s)
    (hx : execRelightFbTimeout s = .next z) : Kept q z := by
  obtain rfl := Host.Outcome.next.inj hx
  repeat' (
    first
      | (with_reducible assumption) | (with_reducible apply State.ownC4_kept) | (with_reducible intro _)
      | (with_reducible apply kept_ite) | split | dsimp only)

theorem execRelightComplete_kept {q : List Instr} {s : State} {z : State} (kq : Kept q s)
    (hx : execRelightComplete s = .next z) : Kept q z := by
  obtain rfl := Host.Outcome.next.inj hx
  repeat' (
    first
      | (with_reducible assumption) | (with_reducible apply State.put_kept)
      | (with_reducible apply State.safRefresh_kept) | (with_reducible intro _) | (with_reducible apply kept_ite)
      | split | dsimp only)

theorem State.srstAccept_kept {q : List Instr} {s : State} (kq : Kept q s) :
    Kept q (State.srstAccept s) := by
  unfold State.srstAccept
  repeat' (
    first
      | (with_reducible assumption) | lift_lets
      | (intro x; have y : State := x; clear y; revert x; with_reducible apply kept_lift)
      | (intro x; have y : State := x.1; clear y; revert x; with_reducible apply kept_lift_fst)
      | (intro x; have y : State := x.2; clear y; revert x; with_reducible apply kept_lift_snd)
      | (intro x; clear_value x) | (with_reducible apply State.put_kept)
      | (with_reducible apply State.relightStart_kept) | (with_reducible apply State.safRefresh_kept)
      | simp only [kept_mk, kept_fold] | (with_reducible intro _) | (with_reducible apply kept_ite) | split
      | dsimp only)

theorem State.srstJudge_kept {q : List Instr} {s : State} (kq : Kept q s) :
    Kept q (State.srstJudge s) := by
  unfold State.srstJudge
  repeat' (
    first
      | (with_reducible assumption) | lift_lets
      | (intro x; have y : State := x; clear y; revert x; with_reducible apply kept_lift)
      | (intro x; have y : State := x.1; clear y; revert x; with_reducible apply kept_lift_fst)
      | (intro x; have y : State := x.2; clear y; revert x; with_reducible apply kept_lift_snd)
      | (intro x; clear_value x) | (with_reducible apply State.deassertF_kept)
      | (with_reducible apply State.inc_kept) | (with_reducible apply State.put_kept)
      | (with_reducible apply State.raise_kept) | (with_reducible apply State.srstAccept_kept)
      | simp only [kept_mk, kept_fold] | (with_reducible intro _) | (with_reducible apply kept_ite) | split
      | dsimp only)

theorem execSrstFall_kept {q : List Instr} {s : State} {z : State} (kq : Kept q s)
    (hx : execSrstFall s = .next z) : Kept q z := by
  obtain rfl := Host.Outcome.next.inj hx
  repeat' (
    first
      | (with_reducible assumption) | lift_lets
      | (intro x; have y : State := x; clear y; revert x; with_reducible apply kept_lift)
      | (intro x; have y : State := x.1; clear y; revert x; with_reducible apply kept_lift_fst)
      | (intro x; have y : State := x.2; clear y; revert x; with_reducible apply kept_lift_snd)
      | (intro x; clear_value x) | simp only [kept_mk, kept_fold] | (with_reducible intro _)
      | (with_reducible apply kept_ite) | split | dsimp only)

theorem execSrstRise_kept {q : List Instr} {s : State} {z : State} (kq : Kept q s)
    (hx : execSrstRise s = .next z) : Kept q z := by
  obtain rfl := Host.Outcome.next.inj hx
  repeat' (
    first
      | (with_reducible assumption) | (with_reducible apply State.srstJudge_kept) | (with_reducible intro _)
      | (with_reducible apply kept_ite) | split | dsimp only)

theorem execSrstStuck_kept {q : List Instr} {s : State} {z : State} (kq : Kept q s)
    (hx : execSrstStuck s = .next z) : Kept q z := by
  obtain rfl := Host.Outcome.next.inj hx
  repeat' (
    first
      | (with_reducible assumption) | (with_reducible apply State.assertF_kept)
      | (with_reducible apply State.put_kept) | (with_reducible intro _) | (with_reducible apply kept_ite)
      | split | dsimp only)

theorem State.srstLate_kept {q : List Instr} {s : State} (kq : Kept q s) :
    Kept q (State.srstLate s) := by
  unfold State.srstLate
  repeat' (
    first
      | (with_reducible assumption) | (with_reducible apply State.srstJudge_kept) | (with_reducible intro _)
      | (with_reducible apply kept_ite) | split | dsimp only)

theorem State.srstTick_kept {q : List Instr} {s : State} (level : Bool) (kq : Kept q s) :
    Kept q (State.srstTick s level) := by
  unfold State.srstTick
  repeat' (
    first
      | (with_reducible assumption) | lift_lets
      | (intro x; have y : State := x; clear y; revert x; with_reducible apply kept_lift)
      | (intro x; have y : State := x.1; clear y; revert x; with_reducible apply kept_lift_fst)
      | (intro x; have y : State := x.2; clear y; revert x; with_reducible apply kept_lift_snd)
      | (intro x; clear_value x) | (with_reducible apply State.put_kept) | simp only [kept_mk, kept_fold]
      | (with_reducible intro _) | (with_reducible apply kept_ite) | split | dsimp only)

theorem State.rampSet_kept {q : List Instr} {s : State} (kq : Kept q s) :
    Kept q (State.rampSet s) := by
  unfold State.rampSet
  repeat' (
    first
      | (with_reducible assumption) | lift_lets
      | (intro x; have y : State := x; clear y; revert x; with_reducible apply kept_lift)
      | (intro x; have y : State := x.1; clear y; revert x; with_reducible apply kept_lift_fst)
      | (intro x; have y : State := x.2; clear y; revert x; with_reducible apply kept_lift_snd)
      | (intro x; clear_value x) | (with_reducible apply State.put_kept)
      | (with_reducible apply State.safRefresh_kept) | simp only [kept_mk, kept_fold] | (with_reducible intro _)
      | (with_reducible apply kept_ite) | split | dsimp only)

theorem State.dimEnter_kept {q : List Instr} {s : State} (kq : Kept q s) :
    Kept q (State.dimEnter s) := by
  unfold State.dimEnter
  repeat' (
    first
      | (with_reducible assumption) | lift_lets
      | (intro x; have y : State := x; clear y; revert x; with_reducible apply kept_lift)
      | (intro x; have y : State := x.1; clear y; revert x; with_reducible apply kept_lift_fst)
      | (intro x; have y : State := x.2; clear y; revert x; with_reducible apply kept_lift_snd)
      | (intro x; clear_value x) | (with_reducible apply State.put_kept)
      | (with_reducible apply State.rampSet_kept) | (with_reducible apply State.safRefresh_kept)
      | simp only [kept_mk, kept_fold] | (with_reducible intro _) | split | dsimp only)

theorem execDimEntry_kept {q : List Instr} {s : State} {z : State} (kq : Kept q s)
    (hx : execDimEntry s = .next z) : Kept q z := by
  obtain rfl := Host.Outcome.next.inj hx
  repeat' (
    first
      | (with_reducible assumption) | (with_reducible apply State.dimEnter_kept) | (with_reducible intro _)
      | (with_reducible apply kept_ite) | split | dsimp only)

theorem execRampTick_kept {q : List Instr} {s : State} {z : State} (kq : Kept q s)
    (hx : execRampTick s = .next z) : Kept q z := by
  obtain rfl := Host.Outcome.next.inj hx
  repeat' (
    first
      | (with_reducible assumption) | (with_reducible apply State.rampSet_kept) | (with_reducible intro _)
      | (with_reducible apply kept_ite) | split | dsimp only)

theorem State.dimTick_kept {q : List Instr} {s : State} (kq : Kept q s) :
    Kept q (State.dimTick s) := by
  unfold State.dimTick
  repeat' (
    first
      | (with_reducible assumption) | lift_lets
      | (intro x; have y : State := x; clear y; revert x; with_reducible apply kept_lift)
      | (intro x; have y : State := x.1; clear y; revert x; with_reducible apply kept_lift_fst)
      | (intro x; have y : State := x.2; clear y; revert x; with_reducible apply kept_lift_snd)
      | (intro x; clear_value x) | (with_reducible apply State.dimEnter_kept) | simp only [kept_mk, kept_fold]
      | (with_reducible intro _) | (with_reducible apply kept_ite) | split | dsimp only)

theorem State.imonTick_kept {q : List Instr} {s : State} (mA : Nat) (kq : Kept q s) :
    Kept q (State.imonTick s mA) := by
  unfold State.imonTick
  repeat' (
    first
      | (with_reducible assumption) | lift_lets
      | (intro x; have y : State := x; clear y; revert x; with_reducible apply kept_lift)
      | (intro x; have y : State := x.1; clear y; revert x; with_reducible apply kept_lift_fst)
      | (intro x; have y : State := x.2; clear y; revert x; with_reducible apply kept_lift_snd)
      | (intro x; clear_value x) | (with_reducible apply State.deassertF_kept)
      | (with_reducible apply State.put_kept) | (with_reducible apply State.recExt_kept)
      | simp only [kept_mk, kept_fold] | (with_reducible intro _) | (with_reducible apply kept_ite) | split
      | dsimp only)

theorem execEnvelopeExceeded_kept {q : List Instr} {s : State} {z : State} (kq : Kept q s)
    (hx : execEnvelopeExceeded s = .next z) : Kept q z := by
  obtain rfl := Host.Outcome.next.inj hx
  repeat' (
    first
      | (with_reducible assumption) | (with_reducible apply State.ownC4Level_kept) | (with_reducible intro _)
      | (with_reducible apply kept_ite) | split | dsimp only)

theorem State.fbTick_kept {q : List Instr} {s : State} (level : Bool) (kq : Kept q s) :
    Kept q (State.fbTick s level) := by
  unfold State.fbTick
  repeat' (
    first
      | (with_reducible assumption) | lift_lets
      | (intro x; have y : State := x; clear y; revert x; with_reducible apply kept_lift)
      | (intro x; have y : State := x.1; clear y; revert x; with_reducible apply kept_lift_fst)
      | (intro x; have y : State := x.2; clear y; revert x; with_reducible apply kept_lift_snd)
      | (intro x; clear_value x) | (with_reducible apply State.deassertF_kept)
      | (with_reducible apply State.putB_kept) | simp only [kept_mk, kept_fold] | (with_reducible intro _)
      | (with_reducible apply kept_ite) | split | dsimp only)

theorem execLrmFbMismatch_kept {q : List Instr} {s : State} {z : State} (kq : Kept q s)
    (hx : execLrmFbMismatch s = .next z) : Kept q z := by
  obtain rfl := Host.Outcome.next.inj hx
  repeat' (
    first
      | (with_reducible assumption) | (with_reducible apply State.ownC4Level_kept) | (with_reducible intro _)
      | (with_reducible apply kept_ite) | split | dsimp only)

theorem State.oasisBootCopy_kept {q : List Instr} {s : State} (i : Nat) (kq : Kept q s) :
    Kept q (State.oasisBootCopy s i) := by
  unfold State.oasisBootCopy
  repeat' (
    first
      | (with_reducible assumption) | (with_reducible apply State.put_kept)
      | (with_reducible apply State.raise_kept) | (with_reducible intro _) | (with_reducible apply kept_ite)
      | split | dsimp only)

theorem execOasisBootCheck_kept {q : List Instr} {s : State} {z : State} (kq : Kept q s)
    (hx : execOasisBootCheck s = .next z) : Kept q z := by
  obtain rfl := Host.Outcome.next.inj hx
  repeat' (
    first
      | (with_reducible assumption) | lift_lets
      | (intro x; have y : State := x; clear y; revert x; with_reducible apply kept_lift)
      | (intro x; have y : State := x.1; clear y; revert x; with_reducible apply kept_lift_fst)
      | (intro x; have y : State := x.2; clear y; revert x; with_reducible apply kept_lift_snd)
      | (intro x; clear_value x) | (with_reducible apply State.oasisBootCopy_kept)
      | (with_reducible apply State.put_kept) | (with_reducible apply kept_foldl)
      | simp only [kept_mk, kept_fold] | (with_reducible intro _) | (with_reducible apply kept_ite) | split
      | dsimp only)

theorem execOasisRowCheck_kept {q : List Instr} (v : BitVec 7) {s : State} {z : State} (kq : Kept q s)
    (hx : execOasisRowCheck v s = .next z) : Kept q z := by
  obtain rfl := Host.Outcome.next.inj hx
  repeat' (
    first
      | (with_reducible assumption) | lift_lets
      | (intro x; have y : State := x; clear y; revert x; with_reducible apply kept_lift)
      | (intro x; have y : State := x.1; clear y; revert x; with_reducible apply kept_lift_fst)
      | (intro x; have y : State := x.2; clear y; revert x; with_reducible apply kept_lift_snd)
      | (intro x; clear_value x) | (with_reducible apply State.oasisRowCheck_kept) | (with_reducible intro _)
      | (with_reducible apply kept_ite) | split | dsimp only)

theorem State.strapCompare_kept {q : List Instr} {s : State} (kq : Kept q s) :
    Kept q (State.strapCompare s) := by
  unfold State.strapCompare
  repeat' (
    first
      | (with_reducible assumption) | lift_lets
      | (intro x; have y : State := x; clear y; revert x; with_reducible apply kept_lift)
      | (intro x; have y : State := x.1; clear y; revert x; with_reducible apply kept_lift_fst)
      | (intro x; have y : State := x.2; clear y; revert x; with_reducible apply kept_lift_snd)
      | (intro x; clear_value x) | (with_reducible apply State.deassertF_kept)
      | (with_reducible apply State.ownC4Level_kept) | (with_reducible apply State.putB_kept)
      | (with_reducible intro _) | (with_reducible apply kept_ite) | split | dsimp only)

theorem State.strapExpect_kept {q : List Instr} {s : State} (v : Nat) (kq : Kept q s) :
    Kept q (State.strapExpect s v) := by
  unfold State.strapExpect
  repeat' (
    first
      | (with_reducible assumption) | lift_lets
      | (intro x; have y : State := x; clear y; revert x; with_reducible apply kept_lift)
      | (intro x; have y : State := x.1; clear y; revert x; with_reducible apply kept_lift_fst)
      | (intro x; have y : State := x.2; clear y; revert x; with_reducible apply kept_lift_snd)
      | (intro x; clear_value x) | (with_reducible apply State.put_kept)
      | (with_reducible apply State.strapCompare_kept) | simp only [kept_mk, kept_fold] | (with_reducible intro _)
      | (with_reducible apply kept_ite) | split | dsimp only)

theorem execSealReadStart_kept {q : List Instr} {s : State} {z : State} (kq : Kept q s)
    (hx : execSealReadStart s = .next z) : Kept q z := by
  obtain rfl := Host.Outcome.next.inj hx
  repeat' (
    first
      | (with_reducible assumption) | lift_lets
      | (intro x; have y : State := x; clear y; revert x; with_reducible apply kept_lift)
      | (intro x; have y : State := x.1; clear y; revert x; with_reducible apply kept_lift_fst)
      | (intro x; have y : State := x.2; clear y; revert x; with_reducible apply kept_lift_snd)
      | (intro x; clear_value x) | (with_reducible apply State.put_kept) | simp only [kept_mk, kept_fold]
      | (with_reducible intro _) | (with_reducible apply kept_ite) | split | dsimp only)

theorem State.sealStep_kept {q : List Instr} {s : State} (pads : Byte) (kq : Kept q s) :
    Kept q (State.sealStep s pads) := by
  unfold State.sealStep
  repeat' (
    first
      | (with_reducible assumption) | lift_lets
      | (intro x; have y : State := x; clear y; revert x; with_reducible apply kept_lift)
      | (intro x; have y : State := x.1; clear y; revert x; with_reducible apply kept_lift_fst)
      | (intro x; have y : State := x.2; clear y; revert x; with_reducible apply kept_lift_snd)
      | (intro x; clear_value x) | simp only [kept_mk, kept_fold] | (with_reducible intro _)
      | (with_reducible apply kept_ite) | split | dsimp only)

theorem State.masterPosition_kept {q : List Instr} {s : State} (kq : Kept q s) :
    Kept q (State.masterPosition s) := by
  unfold State.masterPosition
  repeat' (
    first
      | (with_reducible assumption) | (with_reducible apply State.put_kept)
      | (with_reducible apply State.putB_kept) | (with_reducible intro _) | (with_reducible apply kept_ite)
      | split | dsimp only)

theorem State.enumAsk_kept {q : List Instr} {s : State} (kq : Kept q s) :
    Kept q (State.enumAsk s) := by
  unfold State.enumAsk
  repeat' (
    first
      | (with_reducible assumption) | lift_lets
      | (intro x; have y : State := x; clear y; revert x; with_reducible apply kept_lift)
      | (intro x; have y : State := x.1; clear y; revert x; with_reducible apply kept_lift_fst)
      | (intro x; have y : State := x.2; clear y; revert x; with_reducible apply kept_lift_snd)
      | (intro x; clear_value x) | (with_reducible apply State.put_kept) | simp only [kept_mk, kept_fold]
      | (with_reducible intro _) | (with_reducible apply kept_ite) | split | dsimp only)

theorem State.cvnStraps_kept {q : List Instr} {s : State} (kq : Kept q s) :
    Kept q (State.cvnStraps s) := by
  unfold State.cvnStraps
  repeat' (
    first
      | (with_reducible assumption) | lift_lets
      | (intro x; have y : State := x; clear y; revert x; with_reducible apply kept_lift)
      | (intro x; have y : State := x.1; clear y; revert x; with_reducible apply kept_lift_fst)
      | (intro x; have y : State := x.2; clear y; revert x; with_reducible apply kept_lift_snd)
      | (intro x; clear_value x) | (with_reducible apply State.enumAsk_kept)
      | (with_reducible apply State.masterPosition_kept) | (with_reducible apply State.put_kept)
      | (with_reducible apply State.putB_kept) | (with_reducible intro _) | (with_reducible apply kept_ite)
      | split | dsimp only)

theorem execSealLatch_kept {q : List Instr} {s : State} {z : State} (kq : Kept q s)
    (hx : execSealLatch s = .next z) : Kept q z := by
  obtain rfl := Host.Outcome.next.inj hx
  repeat' (
    first
      | (with_reducible assumption) | lift_lets
      | (intro x; have y : State := x; clear y; revert x; with_reducible apply kept_lift)
      | (intro x; have y : State := x.1; clear y; revert x; with_reducible apply kept_lift_fst)
      | (intro x; have y : State := x.2; clear y; revert x; with_reducible apply kept_lift_snd)
      | (intro x; clear_value x) | (with_reducible apply State.cvnStraps_kept)
      | (with_reducible apply State.deassertF_kept) | (with_reducible apply State.ownC4Level_kept)
      | (with_reducible apply State.put_kept) | (with_reducible apply State.safRefresh_kept)
      | (with_reducible apply State.strapCompare_kept) | (with_reducible apply State.tdmLeaveInit_kept)
      | simp only [kept_mk, kept_fold] | (with_reducible intro _) | (with_reducible apply kept_ite) | split
      | dsimp only)

theorem State.outTick_kept {q : List Instr} {s : State} (a b : Bool) (kq : Kept q s) :
    Kept q (State.outTick s a b) := by
  unfold State.outTick
  repeat' (
    first
      | (with_reducible assumption) | lift_lets
      | (intro x; have y : State := x; clear y; revert x; with_reducible apply kept_lift)
      | (intro x; have y : State := x.1; clear y; revert x; with_reducible apply kept_lift_fst)
      | (intro x; have y : State := x.2; clear y; revert x; with_reducible apply kept_lift_snd)
      | (intro x; clear_value x) | (with_reducible apply State.deassertF_kept)
      | (with_reducible apply State.put_kept) | simp only [kept_mk, kept_fold] | (with_reducible intro _)
      | (with_reducible apply kept_ite) | split | dsimp only)

theorem execSafeOutFail_kept {q : List Instr} {s : State} {z : State} (kq : Kept q s)
    (hx : execSafeOutFail s = .next z) : Kept q z := by
  obtain rfl := Host.Outcome.next.inj hx
  repeat' (
    first
      | (with_reducible assumption) | (with_reducible apply State.assertF_kept) | (with_reducible intro _)
      | (with_reducible apply kept_ite) | split | dsimp only)

theorem State.supplyTick_kept {q : List Instr} {s : State} (vddh vreg : Nat) (kq : Kept q s) :
    Kept q (State.supplyTick s vddh vreg) := by
  unfold State.supplyTick
  repeat' (
    first
      | (with_reducible assumption) | lift_lets
      | (intro x; have y : State := x; clear y; revert x; with_reducible apply kept_lift)
      | (intro x; have y : State := x.1; clear y; revert x; with_reducible apply kept_lift_fst)
      | (intro x; have y : State := x.2; clear y; revert x; with_reducible apply kept_lift_snd)
      | (intro x; clear_value x) | (with_reducible apply State.deassertF_kept) | simp only [kept_mk, kept_fold]
      | (with_reducible intro _) | (with_reducible apply kept_ite) | split | dsimp only)

theorem execIslandSupplyFault_kept {q : List Instr} {s : State} {z : State} (kq : Kept q s)
    (hx : execIslandSupplyFault s = .next z) : Kept q z := by
  obtain rfl := Host.Outcome.next.inj hx
  repeat' (
    first
      | (with_reducible assumption) | (with_reducible apply State.ownC4Level_kept) | (with_reducible intro _)
      | (with_reducible apply kept_ite) | split | dsimp only)

theorem State.grantEnd_kept {q : List Instr} {s : State} (kq : Kept q s) :
    Kept q (State.grantEnd s) := by
  unfold State.grantEnd
  repeat' (
    first
      | (with_reducible assumption) | lift_lets
      | (intro x; have y : State := x; clear y; revert x; with_reducible apply kept_lift)
      | (intro x; have y : State := x.1; clear y; revert x; with_reducible apply kept_lift_fst)
      | (intro x; have y : State := x.2; clear y; revert x; with_reducible apply kept_lift_snd)
      | (intro x; clear_value x) | simp only [kept_mk, kept_fold] | (with_reducible intro _) | split
      | dsimp only)

theorem State.grantLockWait_kept {q : List Instr} {s : State} (kq : Kept q s) :
    Kept q (State.grantLockWait s) := by
  unfold State.grantLockWait
  repeat' (
    first
      | (with_reducible assumption) | lift_lets
      | (intro x; have y : State := x; clear y; revert x; with_reducible apply kept_lift)
      | (intro x; have y : State := x.1; clear y; revert x; with_reducible apply kept_lift_fst)
      | (intro x; have y : State := x.2; clear y; revert x; with_reducible apply kept_lift_snd)
      | (intro x; clear_value x) | simp only [kept_mk, kept_fold] | (with_reducible intro _) | split
      | dsimp only)

theorem State.grantGive_kept {q : List Instr} {s : State} (kq : Kept q s) :
    Kept q (State.grantGive s) := by
  unfold State.grantGive
  repeat' (
    first
      | (with_reducible assumption) | lift_lets
      | (intro x; have y : State := x; clear y; revert x; with_reducible apply kept_lift)
      | (intro x; have y : State := x.1; clear y; revert x; with_reducible apply kept_lift_fst)
      | (intro x; have y : State := x.2; clear y; revert x; with_reducible apply kept_lift_snd)
      | (intro x; clear_value x) | simp only [kept_mk, kept_fold] | (with_reducible intro _) | split
      | dsimp only)

theorem execClockOffGrantEnd_kept {q : List Instr} {s : State} {z : State} (kq : Kept q s)
    (hx : execClockOffGrantEnd s = .next z) : Kept q z := by
  obtain rfl := Host.Outcome.next.inj hx
  repeat' (
    first
      | (with_reducible assumption) | (with_reducible apply State.grantEnd_kept) | (with_reducible intro _)
      | (with_reducible apply kept_ite) | split | dsimp only)

theorem State.clockTick_kept {q : List Instr} {s : State} (array osc : Nat) (kq : Kept q s) :
    Kept q (State.clockTick s array osc) := by
  unfold State.clockTick
  repeat' (
    first
      | (with_reducible assumption) | lift_lets
      | (intro x; have y : State := x; clear y; revert x; with_reducible apply kept_lift)
      | (intro x; have y : State := x.1; clear y; revert x; with_reducible apply kept_lift_fst)
      | (intro x; have y : State := x.2; clear y; revert x; with_reducible apply kept_lift_snd)
      | (intro x; clear_value x) | (with_reducible apply State.deassertF_kept)
      | (with_reducible apply State.grantEnd_kept) | simp only [kept_mk, kept_fold] | (with_reducible intro _)
      | (with_reducible apply kept_ite) | split | dsimp only)

theorem execClockMonitorFail_kept {q : List Instr} {s : State} {z : State} (kq : Kept q s)
    (hx : execClockMonitorFail s = .next z) : Kept q z := by
  obtain rfl := Host.Outcome.next.inj hx
  repeat' (
    first
      | (with_reducible assumption) | (with_reducible apply State.assertF_kept)
      | (with_reducible apply State.ownC4Level_kept) | (with_reducible intro _) | (with_reducible apply kept_ite)
      | split | dsimp only)

theorem execIslandOscStop_kept {q : List Instr} (stopped : Bool) {s : State} {z : State} (kq : Kept q s)
    (hx : execIslandOscStop stopped s = .next z) : Kept q z := by
  obtain rfl := Host.Outcome.next.inj hx
  repeat' (
    first
      | (with_reducible assumption) | lift_lets
      | (intro x; have y : State := x; clear y; revert x; with_reducible apply kept_lift)
      | (intro x; have y : State := x.1; clear y; revert x; with_reducible apply kept_lift_fst)
      | (intro x; have y : State := x.2; clear y; revert x; with_reducible apply kept_lift_snd)
      | (intro x; clear_value x) | (with_reducible apply State.netsTrack_kept)
      | (with_reducible apply State.ownC4_kept) | simp only [kept_mk, kept_fold] | (with_reducible intro _)
      | (with_reducible apply kept_ite) | split | dsimp only)

theorem State.linePulse_kept {q : List Instr} {s : State} (kq : Kept q s) :
    Kept q (State.linePulse s) := by
  unfold State.linePulse
  repeat' (
    first
      | (with_reducible assumption) | lift_lets
      | (intro x; have y : State := x; clear y; revert x; with_reducible apply kept_lift)
      | (intro x; have y : State := x.1; clear y; revert x; with_reducible apply kept_lift_fst)
      | (intro x; have y : State := x.2; clear y; revert x; with_reducible apply kept_lift_snd)
      | (intro x; clear_value x) | simp only [kept_mk, kept_fold] | (with_reducible intro _) | split
      | dsimp only)

theorem State.watchdogArm_kept {q : List Instr} {s : State} (kq : Kept q s) :
    Kept q (State.watchdogArm s) := by
  unfold State.watchdogArm
  repeat' (
    first
      | (with_reducible assumption) | lift_lets
      | (intro x; have y : State := x; clear y; revert x; with_reducible apply kept_lift)
      | (intro x; have y : State := x.1; clear y; revert x; with_reducible apply kept_lift_fst)
      | (intro x; have y : State := x.2; clear y; revert x; with_reducible apply kept_lift_snd)
      | (intro x; clear_value x) | simp only [kept_mk, kept_fold] | (with_reducible intro _) | split
      | dsimp only)

theorem execRasterStall_kept {q : List Instr} {s : State} {z : State} (kq : Kept q s)
    (hx : execRasterStall s = .next z) : Kept q z := by
  obtain rfl := Host.Outcome.next.inj hx
  repeat' (
    first
      | (with_reducible assumption) | lift_lets
      | (intro x; have y : State := x; clear y; revert x; with_reducible apply kept_lift)
      | (intro x; have y : State := x.1; clear y; revert x; with_reducible apply kept_lift_fst)
      | (intro x; have y : State := x.2; clear y; revert x; with_reducible apply kept_lift_snd)
      | (intro x; clear_value x) | (with_reducible apply State.ownC4_kept) | simp only [kept_mk, kept_fold]
      | (with_reducible intro _) | (with_reducible apply kept_ite) | split | dsimp only)

theorem State.islandLevelsEnd_kept {q : List Instr} {s : State} (kq : Kept q s) :
    Kept q (State.islandLevelsEnd s) := by
  unfold State.islandLevelsEnd
  repeat' (
    first
      | (with_reducible assumption) | (with_reducible apply State.deassertF_kept)
      | (with_reducible apply forUpto_keeps (P := Kept q)) | (with_reducible intro _) | split | dsimp only)

theorem execIslandReset_kept {q : List Instr} {s : State} {z : State} (kq : Kept q s)
    (hx : execIslandReset s = .next z) : Kept q z := by
  obtain rfl := Host.Outcome.next.inj hx
  repeat' (
    first
      | (with_reducible assumption) | lift_lets
      | (intro x; have y : State := x; clear y; revert x; with_reducible apply kept_lift)
      | (intro x; have y : State := x.1; clear y; revert x; with_reducible apply kept_lift_fst)
      | (intro x; have y : State := x.2; clear y; revert x; with_reducible apply kept_lift_snd)
      | (intro x; clear_value x) | (with_reducible apply State.driveLrm_kept)
      | (with_reducible apply State.irq_kept) | (with_reducible apply State.islandLevelsEnd_kept)
      | (with_reducible apply State.netsTrack_kept) | (with_reducible apply State.put_kept)
      | simp only [kept_mk, kept_fold] | (with_reducible intro _) | (with_reducible apply kept_ite) | split
      | dsimp only)

theorem execIslandResetEnd_kept {q : List Instr} {s : State} {z : State} (kq : Kept q s)
    (hx : execIslandResetEnd s = .next z) : Kept q z := by
  obtain rfl := Host.Outcome.next.inj hx
  repeat' (
    first
      | (with_reducible assumption) | lift_lets
      | (intro x; have y : State := x; clear y; revert x; with_reducible apply kept_lift)
      | (intro x; have y : State := x.1; clear y; revert x; with_reducible apply kept_lift_fst)
      | (intro x; have y : State := x.2; clear y; revert x; with_reducible apply kept_lift_snd)
      | (intro x; clear_value x) | (with_reducible apply State.irq_kept)
      | (with_reducible apply State.netsTrack_kept) | (with_reducible apply State.ownC4Level_kept)
      | (with_reducible apply State.putB_kept) | (with_reducible apply State.recWindow_kept)
      | (with_reducible apply State.resetRegs_kept) | simp only [kept_mk, kept_fold] | (with_reducible intro _)
      | (with_reducible apply kept_ite) | split | dsimp only)

theorem State.safTick_kept {q : List Instr} {s : State} (t : TickIn) (kq : Kept q s) :
    Kept q (State.safTick s t) := by
  unfold State.safTick
  repeat' (
    first
      | (with_reducible assumption) | lift_lets
      | (intro x; have y : State := x; clear y; revert x; with_reducible apply kept_lift)
      | (intro x; have y : State := x.1; clear y; revert x; with_reducible apply kept_lift_fst)
      | (intro x; have y : State := x.2; clear y; revert x; with_reducible apply kept_lift_snd)
      | (intro x; clear_value x) | (with_reducible apply State.clockTick_kept)
      | (with_reducible apply State.darkTick_kept) | (with_reducible apply State.dimTick_kept)
      | (with_reducible apply State.discTick_kept) | (with_reducible apply State.fbTick_kept)
      | (with_reducible apply State.imonTick_kept) | (with_reducible apply State.outTick_kept)
      | (with_reducible apply State.proofTick_kept) | (with_reducible apply State.sealStep_kept)
      | (with_reducible apply State.srstLate_kept) | (with_reducible apply State.srstTick_kept)
      | (with_reducible apply State.supplyTick_kept) | (with_reducible apply State.wrapInc_kept)
      | simp only [kept_mk, kept_fold] | (with_reducible intro _) | (with_reducible apply kept_ite) | split
      | dsimp only)

end Sys2Proof.Machine
end

