-- ==== Sys2Proof/Laws/KeptNvm.lean ====
section
/-!
SUPPORT. The operations of Machine/Nvm.lean keep the queue and the canonical form.
-/

set_option linter.unusedSimpArgs false
set_option linter.unusedTactic false
set_option linter.unreachableTactic false

namespace Sys2Proof.Machine

theorem State.floorRead_kept {q : List Instr} {s : State} (kq : Kept q s) :
    Kept q (State.floorRead s) := by
  unfold State.floorRead
  repeat' (
    first
      | (with_reducible assumption) | lift_lets
      | (intro x; have y : State := x; clear y; revert x; with_reducible apply kept_lift)
      | (intro x; have y : State := x.1; clear y; revert x; with_reducible apply kept_lift_fst)
      | (intro x; have y : State := x.2; clear y; revert x; with_reducible apply kept_lift_snd)
      | (intro x; clear_value x) | (with_reducible apply State.put_kept) | (with_reducible apply State.raise_kept)
      | simp only [kept_mk, kept_fold] | (with_reducible intro _) | split | dsimp only)

theorem State.floorWrite_kept {q : List Instr} {s : State} (floor : Nat) (kq : Kept q s) :
    Kept q (State.floorWrite s floor) := by
  unfold State.floorWrite
  repeat' (
    first
      | (with_reducible assumption) | lift_lets
      | (intro x; have y : State := x; clear y; revert x; with_reducible apply kept_lift)
      | (intro x; have y : State := x.1; clear y; revert x; with_reducible apply kept_lift_fst)
      | (intro x; have y : State := x.2; clear y; revert x; with_reducible apply kept_lift_snd)
      | (intro x; clear_value x) | simp only [kept_mk, kept_fold] | (with_reducible intro _) | split
      | dsimp only)

theorem State.floorNext_kept {q : List Instr} {s : State} (kq : Kept q s) :
    Kept q (State.floorNext s) := by
  unfold State.floorNext
  repeat' (
    first
      | (with_reducible assumption) | lift_lets
      | (intro x; have y : State := x; clear y; revert x; with_reducible apply kept_lift)
      | (intro x; have y : State := x.1; clear y; revert x; with_reducible apply kept_lift_fst)
      | (intro x; have y : State := x.2; clear y; revert x; with_reducible apply kept_lift_snd)
      | (intro x; clear_value x) | simp only [kept_mk, kept_fold] | (with_reducible intro _) | split
      | dsimp only)

theorem State.floorDone_kept {q : List Instr} {s : State} (kq : Kept q s) :
    Kept q (State.floorDone s) := by
  unfold State.floorDone
  repeat' (
    first
      | (with_reducible assumption) | lift_lets
      | (intro x; have y : State := x; clear y; revert x; with_reducible apply kept_lift)
      | (intro x; have y : State := x.1; clear y; revert x; with_reducible apply kept_lift_fst)
      | (intro x; have y : State := x.2; clear y; revert x; with_reducible apply kept_lift_snd)
      | (intro x; clear_value x) | (with_reducible apply State.put_kept) | simp only [kept_mk, kept_fold]
      | (with_reducible intro _) | split | dsimp only)

theorem State.lastResult_kept {q : List Instr} {s : State} (res why : Field) (result reason : Nat) (kq : Kept q s) :
    Kept q (State.lastResult s res why result reason) := by
  unfold State.lastResult
  repeat' (
    first
      | (with_reducible assumption) | (with_reducible apply State.put_kept) | (with_reducible intro _)
      | (with_reducible apply kept_ite) | split | dsimp only)

theorem State.nvResult_kept {q : List Instr} {s : State} (result reason : Nat) (kq : Kept q s) :
    Kept q (State.nvResult s result reason) := by
  unfold State.nvResult
  repeat' (
    first
      | (with_reducible assumption) | (with_reducible apply State.lastResult_kept) | (with_reducible intro _)
      | split | dsimp only)

theorem State.nvDrop_kept {q : List Instr} {s : State} (owner : Nat) (kq : Kept q s) :
    Kept q (State.nvDrop s owner) := by
  unfold State.nvDrop
  repeat' (
    first
      | (with_reducible assumption) | lift_lets
      | (intro x; have y : State := x; clear y; revert x; with_reducible apply kept_lift)
      | (intro x; have y : State := x.1; clear y; revert x; with_reducible apply kept_lift_fst)
      | (intro x; have y : State := x.2; clear y; revert x; with_reducible apply kept_lift_snd)
      | (intro x; clear_value x) | simp only [kept_mk, kept_fold] | (with_reducible intro _) | split
      | dsimp only)

theorem State.nvDone_kept {q : List Instr} {s : State} (kq : Kept q s) :
    Kept q (State.nvDone s) := by
  unfold State.nvDone
  repeat' (
    first
      | (with_reducible assumption) | (with_reducible apply State.jobCommitOf_kept)
      | (with_reducible apply State.jobEndOf_kept) | (with_reducible apply State.nvDrop_kept)
      | (with_reducible apply State.nvResult_kept) | (with_reducible intro _) | split | dsimp only)

theorem State.nvStart_kept {q : List Instr} {s : State} (kq : Kept q s) :
    Kept q (State.nvStart s).1 := by
  unfold State.nvStart
  repeat' (
    first
      | (with_reducible assumption) | lift_lets
      | (intro x; have y : State := x; clear y; revert x; with_reducible apply kept_lift)
      | (intro x; have y : State := x.1; clear y; revert x; with_reducible apply kept_lift_fst)
      | (intro x; have y : State := x.2; clear y; revert x; with_reducible apply kept_lift_snd)
      | (intro x; clear_value x) | (with_reducible apply State.nvDone_kept)
      | (with_reducible apply State.nvResult_kept) | simp only [kept_mk, kept_fold] | (with_reducible intro _)
      | (with_reducible apply kept_ite) | (with_reducible apply kept_ite_fst)
      | (with_reducible apply kept_ite_snd) | split | dsimp only)

theorem State.readTiles_kept {q : List Instr} {s : State} (x0 : List Nat) (kq : Kept q s) :
    Kept q (State.readTiles s x0).2 := by
  induction x0 generalizing s with
  | nil => exact kq
  | cons a t ih =>
    have h := State.fetchTile_kept a (State.dirTouch_kept a { init := 3, access := 3, addr := tileAddr a }
      (State.afterSeal_kept [a] kq))
    unfold State.readTiles
    generalize ((s.afterSeal [a]).dirTouch a { init := 3, access := 3, addr := tileAddr a }).fetchTile a = r at h
    obtain ⟨o, s1⟩ := r
    cases o with
    | none => exact h
    | some b => exact ih h

theorem State.nvNext_kept {q : List Instr} {s : State} (kq : Kept q s) :
    Kept q (State.nvNext s) := by
  unfold State.nvNext
  extract_lets n src dst
  have h := State.readTiles_kept (tilesOf src n) kq
  generalize s.readTiles (tilesOf src n) = r at h
  obtain ⟨b, s1⟩ := r
  cases b with
  | false => exact State.jobEndOf_kept _ _ (State.nvResult_kept _ _ (State.nvDrop_kept _ h))
  | true => exact kept_update h

theorem State.unitBegin_kept {q : List Instr} {s : State} (kq : Kept q s) :
    Kept q (State.unitBegin s) := by
  unfold State.unitBegin
  repeat' (
    first
      | (with_reducible assumption) | lift_lets
      | (intro x; have y : State := x; clear y; revert x; with_reducible apply kept_lift)
      | (intro x; have y : State := x.1; clear y; revert x; with_reducible apply kept_lift_fst)
      | (intro x; have y : State := x.2; clear y; revert x; with_reducible apply kept_lift_snd)
      | (intro x; clear_value x) | (with_reducible apply State.put_kept) | simp only [kept_mk, kept_fold]
      | (with_reducible intro _) | split | dsimp only)

theorem execNvmUnitStart_kept {q : List Instr} {s : State} {z : State} (kq : Kept q s)
    (hx : execNvmUnitStart s = .next z) : Kept q z := by
  obtain rfl := Host.Outcome.next.inj hx
  repeat' (
    first
      | (with_reducible assumption) | lift_lets
      | (intro x; have y : State := x; clear y; revert x; with_reducible apply kept_lift)
      | (intro x; have y : State := x.1; clear y; revert x; with_reducible apply kept_lift_fst)
      | (intro x; have y : State := x.2; clear y; revert x; with_reducible apply kept_lift_snd)
      | (intro x; clear_value x) | (with_reducible apply State.floorNext_kept)
      | (with_reducible apply State.nvNext_kept) | (with_reducible apply State.unitBegin_kept)
      | simp only [kept_mk, kept_fold] | (with_reducible intro _) | (with_reducible apply kept_ite) | split
      | dsimp only)

theorem State.unitWrite_kept {q : List Instr} {s : State} (kq : Kept q s) :
    Kept q (State.unitWrite s) := by
  unfold State.unitWrite
  repeat' (
    first
      | (with_reducible assumption) | lift_lets
      | (intro x; have y : State := x; clear y; revert x; with_reducible apply kept_lift)
      | (intro x; have y : State := x.1; clear y; revert x; with_reducible apply kept_lift_fst)
      | (intro x; have y : State := x.2; clear y; revert x; with_reducible apply kept_lift_snd)
      | (intro x; clear_value x) | (with_reducible apply State.nvWrite_kept)
      | (with_reducible apply State.put_kept) | simp only [kept_mk, kept_fold] | (with_reducible intro _)
      | split | dsimp only)

theorem State.taskDone_kept {q : List Instr} {s : State} (owner : Nat) (kq : Kept q s) :
    Kept q (State.taskDone s owner) := by
  unfold State.taskDone
  repeat' (
    first
      | (with_reducible assumption) | (with_reducible apply State.calStored_kept)
      | (with_reducible apply State.floorDone_kept) | (with_reducible apply State.nvDone_kept)
      | (with_reducible apply State.nvDrop_kept) | (with_reducible apply State.rebuildDone_kept)
      | (with_reducible intro _) | (with_reducible apply kept_ite) | split | dsimp only)

theorem State.gainCommit_kept {q : List Instr} {s : State} (owner a : Nat) (kq : Kept q s) :
    Kept q (State.gainCommit s owner a) := by
  unfold State.gainCommit
  repeat' (
    first
      | (with_reducible assumption) | (with_reducible apply State.jobCommitOf_kept) | (with_reducible intro _)
      | (with_reducible apply kept_ite) | split | dsimp only)

theorem State.unitDone_kept {q : List Instr} {s : State} (kq : Kept q s) :
    Kept q (State.unitDone s) := by
  unfold State.unitDone
  repeat' (
    first
      | (with_reducible assumption) | lift_lets
      | (intro x; have y : State := x; clear y; revert x; with_reducible apply kept_lift)
      | (intro x; have y : State := x.1; clear y; revert x; with_reducible apply kept_lift_fst)
      | (intro x; have y : State := x.2; clear y; revert x; with_reducible apply kept_lift_snd)
      | (intro x; clear_value x) | (with_reducible apply State.gainCommit_kept)
      | (with_reducible apply State.taskDone_kept) | (with_reducible apply State.unitWrite_kept)
      | simp only [kept_mk, kept_fold] | (with_reducible intro _) | (with_reducible apply kept_ite) | split
      | dsimp only)

theorem execNvmUnitDone_kept {q : List Instr} {s : State} {z : State} (kq : Kept q s)
    (hx : execNvmUnitDone s = .next z) : Kept q z := by
  obtain rfl := Host.Outcome.next.inj hx
  repeat' (
    first
      | (with_reducible assumption) | (with_reducible apply State.unitDone_kept) | (with_reducible intro _)
      | split | dsimp only)

theorem State.unitSettle_kept {q : List Instr} {s : State} (t : Nat) (kq : Kept q s) :
    Kept q (State.unitSettle s t) := by
  unfold State.unitSettle
  repeat' (
    first
      | (with_reducible assumption) | lift_lets
      | (intro x; have y : State := x; clear y; revert x; with_reducible apply kept_lift)
      | (intro x; have y : State := x.1; clear y; revert x; with_reducible apply kept_lift_fst)
      | (intro x; have y : State := x.2; clear y; revert x; with_reducible apply kept_lift_snd)
      | (intro x; clear_value x) | (with_reducible apply State.cpUnit_kept)
      | (with_reducible apply State.unitDone_kept) | (with_reducible intro _) | (with_reducible apply kept_ite)
      | split | dsimp only)

theorem State.unitFinish_kept {q : List Instr} {s : State} (kq : Kept q s) :
    Kept q (State.unitFinish s) := by
  unfold State.unitFinish
  repeat' (
    first
      | (with_reducible assumption) | lift_lets
      | (intro x; have y : State := x; clear y; revert x; with_reducible apply kept_lift)
      | (intro x; have y : State := x.1; clear y; revert x; with_reducible apply kept_lift_fst)
      | (intro x; have y : State := x.2; clear y; revert x; with_reducible apply kept_lift_snd)
      | (intro x; clear_value x) | (with_reducible apply State.floorDone_kept)
      | (with_reducible apply State.unitWrite_kept) | simp only [kept_mk, kept_fold] | (with_reducible intro _)
      | (with_reducible apply kept_ite) | split | dsimp only)

theorem State.journalReplay_kept {q : List Instr} {s : State} (kq : Kept q s) :
    Kept q (State.journalReplay s) := by
  unfold State.journalReplay
  repeat' (
    first
      | (with_reducible assumption) | lift_lets
      | (intro x; have y : State := x; clear y; revert x; with_reducible apply kept_lift)
      | (intro x; have y : State := x.1; clear y; revert x; with_reducible apply kept_lift_fst)
      | (intro x; have y : State := x.2; clear y; revert x; with_reducible apply kept_lift_snd)
      | (intro x; clear_value x) | (with_reducible apply State.nvWrite_kept) | (with_reducible intro _)
      | (with_reducible apply kept_ite) | split | dsimp only)

theorem State.gainBoot_kept {q : List Instr} {s : State} (kq : Kept q s) :
    Kept q (State.gainBoot s) := by
  unfold State.gainBoot
  repeat' (
    first
      | (with_reducible assumption) | (with_reducible apply State.gainLoad_kept)
      | (with_reducible apply forUpto_keeps (P := Kept q)) | (with_reducible intro _) | split | dsimp only)

end Sys2Proof.Machine
end

