-- ==== Sys2Proof/Laws/KeptApply.lean ====
section
/-!
SUPPORT. The operations of Machine/Apply.lean keep the queue and the canonical form.
-/

set_option linter.unusedSimpArgs false
set_option linter.unusedTactic false
set_option linter.unreachableTactic false

namespace Sys2Proof.Machine

theorem State.imgReg_kept {q : List Instr} {s : State} (boot : Bool) (a : Nat) (v : Word) (kq : Kept q s) :
    Kept q (State.imgReg s boot a v) := by
  unfold State.imgReg
  repeat' (
    first
      | (with_reducible assumption) | lift_lets
      | (intro x; have y : State := x; clear y; revert x; with_reducible apply kept_lift)
      | (intro x; have y : State := x.1; clear y; revert x; with_reducible apply kept_lift_fst)
      | (intro x; have y : State := x.2; clear y; revert x; with_reducible apply kept_lift_snd)
      | (intro x; clear_value x) | (with_reducible apply State.setReg_kept)
      | (with_reducible apply State.setShReg_kept) | (with_reducible intro _) | (with_reducible apply kept_ite)
      | split | dsimp only)

theorem State.imgRegs_kept {q : List Instr} {s : State} (boot : Bool) (m : Image) (t i : Nat) (x0 : List Nat) (kq : Kept q s) :
    Kept q (State.imgRegs s boot m t i x0) := by
  induction x0 generalizing s boot m t i with
  | nil => exact kq
  | cons a t ih =>
    unfold State.imgRegs
    repeat' (
      first
        | (with_reducible assumption) | (with_reducible apply ih) | (with_reducible apply State.imgReg_kept) | (with_reducible intro _)
        | split | dsimp only)

theorem State.imgFresh_kept {q : List Instr} {s : State} (fresh : Bool) (lo n : Nat) (kq : Kept q s) :
    Kept q (State.imgFresh s fresh lo n) := by
  unfold State.imgFresh
  repeat' (
    first
      | (with_reducible assumption) | (with_reducible apply State.resetRegs_kept) | (with_reducible intro _)
      | (with_reducible apply kept_ite) | split | dsimp only)

theorem State.applyLayers_kept {q : List Instr} {s : State} (boot : Bool) (m : Image) (kq : Kept q s) :
    Kept q (State.applyLayers s boot m) := by
  unfold State.applyLayers
  repeat' (
    first
      | (with_reducible assumption) | lift_lets
      | (intro x; have y : State := x; clear y; revert x; with_reducible apply kept_lift)
      | (intro x; have y : State := x.1; clear y; revert x; with_reducible apply kept_lift_fst)
      | (intro x; have y : State := x.2; clear y; revert x; with_reducible apply kept_lift_snd)
      | (intro x; clear_value x) | (with_reducible apply State.imgFresh_kept)
      | (with_reducible apply State.imgReg_kept) | (with_reducible apply State.put_kept)
      | (with_reducible apply kept_foldl) | (with_reducible apply forUpto_keeps (P := Kept q))
      | (with_reducible intro _) | split | dsimp only)

theorem State.applyScalers_kept {q : List Instr} {s : State} (m : Image) (kq : Kept q s) :
    Kept q (State.applyScalers s m) := by
  unfold State.applyScalers
  repeat' (
    first
      | (with_reducible assumption) | lift_lets
      | (intro x; have y : State := x; clear y; revert x; with_reducible apply kept_lift)
      | (intro x; have y : State := x.1; clear y; revert x; with_reducible apply kept_lift_fst)
      | (intro x; have y : State := x.2; clear y; revert x; with_reducible apply kept_lift_snd)
      | (intro x; clear_value x) | (with_reducible apply State.imgFresh_kept)
      | (with_reducible apply State.put_kept) | (with_reducible apply forUpto_keeps (P := Kept q))
      | (with_reducible intro _) | split | dsimp only)

theorem State.applyMemory_kept {q : List Instr} {s : State} (boot : Bool) (m : Image) (kq : Kept q s) :
    Kept q (State.applyMemory s boot m) := by
  unfold State.applyMemory
  repeat' (
    first
      | (with_reducible assumption) | lift_lets
      | (intro x; have y : State := x; clear y; revert x; with_reducible apply kept_lift)
      | (intro x; have y : State := x.1; clear y; revert x; with_reducible apply kept_lift_fst)
      | (intro x; have y : State := x.2; clear y; revert x; with_reducible apply kept_lift_snd)
      | (intro x; clear_value x) | (with_reducible apply State.bankEnWrite_kept)
      | (with_reducible apply State.imgRegs_kept) | (with_reducible apply State.put_kept)
      | (with_reducible intro _) | (with_reducible apply kept_ite) | split | dsimp only)

theorem State.applySignatures_kept {q : List Instr} {s : State} (m : Image) (kq : Kept q s) :
    Kept q (State.applySignatures s m) := by
  unfold State.applySignatures
  repeat' (
    first
      | (with_reducible assumption) | lift_lets
      | (intro x; have y : State := x; clear y; revert x; with_reducible apply kept_lift)
      | (intro x; have y : State := x.1; clear y; revert x; with_reducible apply kept_lift_fst)
      | (intro x; have y : State := x.2; clear y; revert x; with_reducible apply kept_lift_snd)
      | (intro x; clear_value x) | (with_reducible apply State.imgFresh_kept)
      | (with_reducible apply State.put_kept) | (with_reducible apply forUpto_keeps (P := Kept q))
      | (with_reducible intro _) | split | dsimp only)

theorem State.applyCoefs_kept {q : List Instr} {s : State} (bank : Nat) (ws : List Word) (kq : Kept q s) :
    Kept q (State.applyCoefs s bank ws) := by
  unfold State.applyCoefs
  repeat' (
    first
      | (with_reducible assumption) | (with_reducible apply State.lpCoefStore_kept)
      | (with_reducible apply forUpto_keeps (P := Kept q)) | (with_reducible intro _) | split | dsimp only)

theorem State.applyLoops_kept {q : List Instr} {s : State} (boot : Bool) (m : Image) (kq : Kept q s) :
    Kept q (State.applyLoops s boot m) := by
  unfold State.applyLoops
  repeat' (
    first
      | (with_reducible assumption) | lift_lets
      | (intro x; have y : State := x; clear y; revert x; with_reducible apply kept_lift)
      | (intro x; have y : State := x.1; clear y; revert x; with_reducible apply kept_lift_fst)
      | (intro x; have y : State := x.2; clear y; revert x; with_reducible apply kept_lift_snd)
      | (intro x; clear_value x) | (with_reducible apply State.applyCoefs_kept)
      | (with_reducible apply State.imgRegs_kept) | (with_reducible apply State.put_kept)
      | (with_reducible apply State.setReg_kept) | simp only [kept_mk, kept_fold] | (with_reducible intro _)
      | (with_reducible apply kept_ite) | split | dsimp only)

theorem State.applyGpio_kept {q : List Instr} {s : State} (m : Image) (kq : Kept q s) :
    Kept q (State.applyGpio s m) := by
  unfold State.applyGpio
  repeat' (
    first
      | (with_reducible assumption) | lift_lets
      | (intro x; have y : State := x; clear y; revert x; with_reducible apply kept_lift)
      | (intro x; have y : State := x.1; clear y; revert x; with_reducible apply kept_lift_fst)
      | (intro x; have y : State := x.2; clear y; revert x; with_reducible apply kept_lift_snd)
      | (intro x; clear_value x) | (with_reducible apply State.put_kept) | (with_reducible apply State.putB_kept)
      | (with_reducible intro _) | split | dsimp only)

theorem State.freshLoops_kept {q : List Instr} {s before : State} (kq : Kept q s) :
    Kept q (State.freshLoops s before) := by
  unfold State.freshLoops
  repeat' (
    first
      | (with_reducible assumption) | (with_reducible apply State.imgFresh_kept)
      | (with_reducible apply forUpto_keeps (P := Kept q)) | (with_reducible intro _) | split | dsimp only)

theorem State.applyClass_kept {q : List Instr} {s : State} (n c : Nat) (kq : Kept q s) :
    Kept q (State.applyClass s n c) := by
  unfold State.applyClass
  repeat' (
    first
      | (with_reducible assumption) | lift_lets
      | (intro x; have y : State := x; clear y; revert x; with_reducible apply kept_lift)
      | (intro x; have y : State := x.1; clear y; revert x; with_reducible apply kept_lift_fst)
      | (intro x; have y : State := x.2; clear y; revert x; with_reducible apply kept_lift_snd)
      | (intro x; clear_value x) | (with_reducible apply State.fltRequest_kept)
      | (with_reducible apply State.put_kept) | (with_reducible apply State.react_kept)
      | (with_reducible apply State.setFrec_kept) | simp only [kept_mk, kept_fold] | (with_reducible intro _)
      | (with_reducible apply kept_ite) | split | dsimp only)

theorem State.applyFaults_kept {q : List Instr} {s : State} (m : Image) (kq : Kept q s) :
    Kept q (State.applyFaults s m) := by
  unfold State.applyFaults
  repeat' (
    first
      | (with_reducible assumption) | lift_lets
      | (intro x; have y : State := x; clear y; revert x; with_reducible apply kept_lift)
      | (intro x; have y : State := x.1; clear y; revert x; with_reducible apply kept_lift_fst)
      | (intro x; have y : State := x.2; clear y; revert x; with_reducible apply kept_lift_snd)
      | (intro x; clear_value x) | (with_reducible apply State.applyClass_kept)
      | (with_reducible apply forUpto_keeps (P := Kept q)) | simp only [kept_mk, kept_fold]
      | (with_reducible intro _) | (with_reducible apply kept_ite) | split | dsimp only)

theorem State.applyCaravan_kept {q : List Instr} {s : State} (m : Image) (kq : Kept q s) :
    Kept q (State.applyCaravan s m) := by
  unfold State.applyCaravan
  repeat' (
    first
      | (with_reducible assumption) | lift_lets
      | (intro x; have y : State := x; clear y; revert x; with_reducible apply kept_lift)
      | (intro x; have y : State := x.1; clear y; revert x; with_reducible apply kept_lift_fst)
      | (intro x; have y : State := x.2; clear y; revert x; with_reducible apply kept_lift_snd)
      | (intro x; clear_value x) | (with_reducible apply State.put_kept) | (with_reducible intro _) | split
      | dsimp only)

theorem State.applySafety_kept {q : List Instr} {s : State} (boot : Bool) (m : Image) (kq : Kept q s) :
    Kept q (State.applySafety s boot m) := by
  unfold State.applySafety
  repeat' (
    first
      | (with_reducible assumption) | (with_reducible apply State.imgRegs_kept)
      | (with_reducible apply State.safRefresh_kept) | (with_reducible intro _) | (with_reducible apply kept_ite)
      | split | dsimp only)

theorem State.applyLink_kept {q : List Instr} {s : State} (m : Image) (kq : Kept q s) :
    Kept q (State.applyLink s m) := by
  unfold State.applyLink
  repeat' (
    first
      | (with_reducible assumption) | lift_lets
      | (intro x; have y : State := x; clear y; revert x; with_reducible apply kept_lift)
      | (intro x; have y : State := x.1; clear y; revert x; with_reducible apply kept_lift_fst)
      | (intro x; have y : State := x.2; clear y; revert x; with_reducible apply kept_lift_snd)
      | (intro x; clear_value x) | (with_reducible apply State.setRate_kept) | (with_reducible intro _) | split
      | dsimp only)

theorem State.applyWrites_kept {q : List Instr} {s : State} (boot : Bool) (x0 : List (Nat × Word)) (kq : Kept q s) :
    Kept q (State.applyWrites s boot x0) := by
  induction x0 generalizing s boot with
  | nil => exact kq
  | cons a t ih =>
    unfold State.applyWrites
    repeat' (
      first
        | (with_reducible assumption) | (with_reducible apply ih) | lift_lets
        | (intro x; have y : State := x; clear y; revert x; with_reducible apply kept_lift)
        | (intro x; have y : State := x.1; clear y; revert x; with_reducible apply kept_lift_fst)
        | (intro x; have y : State := x.2; clear y; revert x; with_reducible apply kept_lift_snd)
        | (intro x; clear_value x) | (with_reducible apply State.coreWrite_kept)
        | (with_reducible apply State.setReg_kept) | (with_reducible intro _) | (with_reducible apply kept_ite)
        | split | dsimp only)

theorem State.applySections_kept {q : List Instr} {s : State} (boot : Bool) (m : Image) (kq : Kept q s) :
    Kept q (State.applySections s boot m) := by
  unfold State.applySections
  repeat' (
    first
      | (with_reducible assumption) | lift_lets
      | (intro x; have y : State := x; clear y; revert x; with_reducible apply kept_lift)
      | (intro x; have y : State := x.1; clear y; revert x; with_reducible apply kept_lift_fst)
      | (intro x; have y : State := x.2; clear y; revert x; with_reducible apply kept_lift_snd)
      | (intro x; clear_value x) | (with_reducible apply State.applyCaravan_kept)
      | (with_reducible apply State.applyFaults_kept) | (with_reducible apply State.applyGpio_kept)
      | (with_reducible apply State.applyLayers_kept) | (with_reducible apply State.applyLink_kept)
      | (with_reducible apply State.applyLoops_kept) | (with_reducible apply State.applyMemory_kept)
      | (with_reducible apply State.applySafety_kept) | (with_reducible apply State.applyScalers_kept)
      | (with_reducible apply State.applySignatures_kept) | (with_reducible apply State.applyWrites_kept)
      | (with_reducible apply State.dacInForce_kept) | (with_reducible apply State.freshLoops_kept)
      | (with_reducible apply State.imgRegs_kept) | (with_reducible apply State.scalerTaps_kept)
      | (with_reducible apply State.sigInvalid_kept) | (with_reducible intro _) | (with_reducible apply kept_ite)
      | split | dsimp only)

theorem State.imageLoaded_kept {q : List Instr} {s : State} (m : Image) (src : Nat) (kq : Kept q s) :
    Kept q (State.imageLoaded s m src) := by
  unfold State.imageLoaded
  repeat' (
    first
      | (with_reducible assumption) | lift_lets
      | (intro x; have y : State := x; clear y; revert x; with_reducible apply kept_lift)
      | (intro x; have y : State := x.1; clear y; revert x; with_reducible apply kept_lift_fst)
      | (intro x; have y : State := x.2; clear y; revert x; with_reducible apply kept_lift_snd)
      | (intro x; clear_value x) | (with_reducible apply State.creditFull_kept)
      | (with_reducible apply State.enumAsk_kept) | (with_reducible apply State.floorWrite_kept)
      | (with_reducible apply State.put_kept) | (with_reducible apply State.strapExpect_kept)
      | (with_reducible intro _) | (with_reducible apply kept_ite) | split | dsimp only)

end Sys2Proof.Machine
end

