-- ==== Sys2Proof/Laws/KeptLifecycle.lean ====
section
/-!
SUPPORT. The operations of Machine/Lifecycle.lean keep the queue and the canonical form.
-/

set_option linter.unusedSimpArgs false
set_option linter.unusedTactic false
set_option linter.unreachableTactic false

namespace Sys2Proof.Machine

theorem State.showKeys_kept {q : List Instr} {s : State} (kq : Kept q s) :
    Kept q (State.showKeys s) := by
  unfold State.showKeys
  repeat' (
    first
      | (with_reducible assumption) | (with_reducible apply State.put_kept)
      | (with_reducible apply State.putB_kept) | (with_reducible intro _) | split | dsimp only)

theorem State.dropStaged_kept {q : List Instr} {s : State} (kq : Kept q s) :
    Kept q (State.dropStaged s) := by
  unfold State.dropStaged
  repeat' (
    first
      | (with_reducible assumption) | lift_lets
      | (intro x; have y : State := x; clear y; revert x; with_reducible apply kept_lift)
      | (intro x; have y : State := x.1; clear y; revert x; with_reducible apply kept_lift_fst)
      | (intro x; have y : State := x.2; clear y; revert x; with_reducible apply kept_lift_snd)
      | (intro x; clear_value x) | (with_reducible apply State.put_kept) | simp only [kept_mk, kept_fold]
      | (with_reducible intro _) | split | dsimp only)

theorem State.clearSecrets_kept {q : List Instr} {s : State} (kq : Kept q s) :
    Kept q (State.clearSecrets s) := by
  unfold State.clearSecrets
  repeat' (
    first
      | (with_reducible assumption) | lift_lets
      | (intro x; have y : State := x; clear y; revert x; with_reducible apply kept_lift)
      | (intro x; have y : State := x.1; clear y; revert x; with_reducible apply kept_lift_fst)
      | (intro x; have y : State := x.2; clear y; revert x; with_reducible apply kept_lift_snd)
      | (intro x; clear_value x) | (with_reducible apply State.dropStaged_kept)
      | (with_reducible apply State.showKeys_kept) | simp only [kept_mk, kept_fold] | (with_reducible intro _)
      | split | dsimp only)

theorem State.newChallenge_kept {q : List Instr} {s : State} (kq : Kept q s) :
    Kept q (State.newChallenge s) := by
  unfold State.newChallenge
  repeat' (
    first
      | (with_reducible assumption) | lift_lets
      | (intro x; have y : State := x; clear y; revert x; with_reducible apply kept_lift)
      | (intro x; have y : State := x.1; clear y; revert x; with_reducible apply kept_lift_fst)
      | (intro x; have y : State := x.2; clear y; revert x; with_reducible apply kept_lift_snd)
      | (intro x; clear_value x) | (with_reducible apply State.put_kept) | simp only [kept_mk, kept_fold]
      | (with_reducible intro _) | split | dsimp only)

theorem State.cfgReset_kept {q : List Instr} {s : State} (kq : Kept q s) :
    Kept q (State.cfgReset s) := by
  unfold State.cfgReset
  repeat' (
    first
      | (with_reducible assumption) | lift_lets
      | (intro x; have y : State := x; clear y; revert x; with_reducible apply kept_lift)
      | (intro x; have y : State := x.1; clear y; revert x; with_reducible apply kept_lift_fst)
      | (intro x; have y : State := x.2; clear y; revert x; with_reducible apply kept_lift_snd)
      | (intro x; clear_value x) | (with_reducible apply State.newChallenge_kept)
      | (with_reducible apply State.put_kept) | (with_reducible apply State.resetRegs_kept)
      | simp only [kept_mk, kept_fold] | (with_reducible intro _) | split | dsimp only)

theorem State.keyWrite_kept {q : List Instr} {s : State} (n : Nat) (v : Word) (kq : Kept q s) :
    Kept q (State.keyWrite s n v) := by
  unfold State.keyWrite
  repeat' (
    first
      | (with_reducible assumption) | lift_lets
      | (intro x; have y : State := x; clear y; revert x; with_reducible apply kept_lift)
      | (intro x; have y : State := x.1; clear y; revert x; with_reducible apply kept_lift_fst)
      | (intro x; have y : State := x.2; clear y; revert x; with_reducible apply kept_lift_snd)
      | (intro x; clear_value x) | simp only [kept_mk, kept_fold] | (with_reducible intro _)
      | (with_reducible apply kept_ite) | split | dsimp only)

theorem execKeyWrite_kept {q : List Instr} (i : Initiator) (n : BitVec 3) (v : Word) {s : State} {z : State} (kq : Kept q s)
    (hx : execKeyWrite i n v s = .next z) : Kept q z := by
  obtain rfl := Host.Outcome.next.inj hx
  repeat' (
    first
      | (with_reducible assumption) | (with_reducible apply State.keyWrite_kept)
      | (with_reducible apply State.portWrite_kept) | (with_reducible intro _) | split | dsimp only)

theorem State.lcStart_kept {q : List Instr} {s : State} (kq : Kept q s) :
    Kept q (State.lcStart s).1 := by
  unfold State.lcStart
  repeat' (
    first
      | (with_reducible assumption) | lift_lets
      | (intro x; have y : State := x; clear y; revert x; with_reducible apply kept_lift)
      | (intro x; have y : State := x.1; clear y; revert x; with_reducible apply kept_lift_fst)
      | (intro x; have y : State := x.2; clear y; revert x; with_reducible apply kept_lift_snd)
      | (intro x; clear_value x) | (with_reducible apply State.newChallenge_kept)
      | (with_reducible apply State.put_kept) | simp only [kept_mk, kept_fold] | (with_reducible intro _)
      | (with_reducible apply kept_ite) | (with_reducible apply kept_ite_fst)
      | (with_reducible apply kept_ite_snd) | split | dsimp only)

theorem State.lcCommit_kept {q : List Instr} {s : State} (kq : Kept q s) :
    Kept q (State.lcCommit s) := by
  unfold State.lcCommit
  repeat' (
    first
      | (with_reducible assumption) | lift_lets
      | (intro x; have y : State := x; clear y; revert x; with_reducible apply kept_lift)
      | (intro x; have y : State := x.1; clear y; revert x; with_reducible apply kept_lift_fst)
      | (intro x; have y : State := x.2; clear y; revert x; with_reducible apply kept_lift_snd)
      | (intro x; clear_value x) | (with_reducible apply State.clearSecrets_kept)
      | (with_reducible apply State.jobCommitOf_kept) | (with_reducible apply State.jobEndOf_kept)
      | (with_reducible apply State.nvDrop_kept) | (with_reducible apply State.put_kept)
      | (with_reducible apply State.raise_kept) | (with_reducible apply State.showKeys_kept)
      | (with_reducible intro _) | (with_reducible apply kept_ite) | split | dsimp only)

theorem State.keyProgram_kept {q : List Instr} {s : State} (kq : Kept q s) :
    Kept q (State.keyProgram s) := by
  unfold State.keyProgram
  repeat' (
    first
      | (with_reducible assumption) | lift_lets
      | (intro x; have y : State := x; clear y; revert x; with_reducible apply kept_lift)
      | (intro x; have y : State := x.1; clear y; revert x; with_reducible apply kept_lift_fst)
      | (intro x; have y : State := x.2; clear y; revert x; with_reducible apply kept_lift_snd)
      | (intro x; clear_value x) | simp only [kept_mk, kept_fold] | (with_reducible intro _) | split
      | dsimp only)

theorem execLifecycleFuseBlow_kept {q : List Instr} (verified : Bool) {s : State} {z : State} (kq : Kept q s)
    (hx : execLifecycleFuseBlow verified s = .next z) : Kept q z := by
  obtain rfl := Host.Outcome.next.inj hx
  repeat' (
    first
      | (with_reducible assumption) | lift_lets
      | (intro x; have y : State := x; clear y; revert x; with_reducible apply kept_lift)
      | (intro x; have y : State := x.1; clear y; revert x; with_reducible apply kept_lift_fst)
      | (intro x; have y : State := x.2; clear y; revert x; with_reducible apply kept_lift_snd)
      | (intro x; clear_value x) | (with_reducible apply State.jobEndOf_kept)
      | (with_reducible apply State.keyProgram_kept) | (with_reducible apply State.lcCommit_kept)
      | (with_reducible apply State.nvDrop_kept) | (with_reducible apply State.put_kept)
      | simp only [kept_mk, kept_fold] | (with_reducible intro _) | (with_reducible apply kept_ite) | split
      | dsimp only)

theorem State.lcCancel_kept {q : List Instr} {s : State} (kq : Kept q s) :
    Kept q (State.lcCancel s) := by
  unfold State.lcCancel
  repeat' (
    first
      | (with_reducible assumption) | (with_reducible apply State.nvDrop_kept) | (with_reducible intro _)
      | split | dsimp only)

end Sys2Proof.Machine
end

