-- ==== Sys2Proof/Laws/KeptSelfTest.lean ====
section
/-!
SUPPORT. The operations of Machine/SelfTest.lean keep the queue and the canonical form.
-/

set_option linter.unusedSimpArgs false
set_option linter.unusedTactic false
set_option linter.unreachableTactic false

namespace Sys2Proof.Machine

theorem State.postGroup_kept {q : List Instr} {s : State} (g : Nat) (kq : Kept q s) :
    Kept q (State.postGroup s g) := by
  unfold State.postGroup
  repeat' (
    first
      | (with_reducible assumption) | (with_reducible apply State.put_kept) | (with_reducible intro _) | split
      | dsimp only)

theorem State.postStart_kept {q : List Instr} {s : State} (job : Bool) (kq : Kept q s) :
    Kept q (State.postStart s job) := by
  unfold State.postStart
  repeat' (
    first
      | (with_reducible assumption) | lift_lets
      | (intro x; have y : State := x; clear y; revert x; with_reducible apply kept_lift)
      | (intro x; have y : State := x.1; clear y; revert x; with_reducible apply kept_lift_fst)
      | (intro x; have y : State := x.2; clear y; revert x; with_reducible apply kept_lift_snd)
      | (intro x; clear_value x) | (with_reducible apply State.migrateAbandon_kept)
      | (with_reducible apply State.postGroup_kept) | (with_reducible apply State.put_kept)
      | (with_reducible apply State.setMem_kept) | (with_reducible apply State.tilesEmpty_kept)
      | (with_reducible apply forUpto_keeps (P := Kept q)) | simp only [kept_mk, kept_fold]
      | (with_reducible intro _) | split | dsimp only)

theorem State.bankPasses_kept {q : List Instr} {s : State} (p : Nat) (kq : Kept q s) :
    Kept q (State.bankPasses s p) := by
  unfold State.bankPasses
  repeat' (
    first
      | (with_reducible assumption) | lift_lets
      | (intro x; have y : State := x; clear y; revert x; with_reducible apply kept_lift)
      | (intro x; have y : State := x.1; clear y; revert x; with_reducible apply kept_lift_fst)
      | (intro x; have y : State := x.2; clear y; revert x; with_reducible apply kept_lift_snd)
      | (intro x; clear_value x) | (with_reducible apply State.put_kept) | simp only [kept_mk, kept_fold]
      | (with_reducible intro _) | (with_reducible apply kept_ite) | split | dsimp only)

theorem State.groupBankResult_kept {q : List Instr} {s : State} (banks : BitVec 17) (x0 : List Nat) (kq : Kept q s) :
    Kept q (State.groupBankResult s banks x0) := by
  induction x0 generalizing s banks with
  | nil => exact kq
  | cons a t ih =>
    unfold State.groupBankResult
    repeat' (
      first
        | (with_reducible assumption) | (with_reducible apply ih) | lift_lets
        | (intro x; have y : State := x; clear y; revert x; with_reducible apply kept_lift)
        | (intro x; have y : State := x.1; clear y; revert x; with_reducible apply kept_lift_fst)
        | (intro x; have y : State := x.2; clear y; revert x; with_reducible apply kept_lift_snd)
        | (intro x; clear_value x) | (with_reducible apply State.bankPasses_kept)
        | (with_reducible apply State.retireBank_kept) | simp only [kept_mk, kept_fold] | (with_reducible intro _)
        | (with_reducible apply kept_ite) | split | dsimp only)

theorem State.ramFails_kept {q : List Instr} {s : State} (i : Nat) (kq : Kept q s) :
    Kept q (State.ramFails s i) := by
  unfold State.ramFails
  repeat' (
    first
      | (with_reducible assumption) | lift_lets
      | (intro x; have y : State := x; clear y; revert x; with_reducible apply kept_lift)
      | (intro x; have y : State := x.1; clear y; revert x; with_reducible apply kept_lift_fst)
      | (intro x; have y : State := x.2; clear y; revert x; with_reducible apply kept_lift_snd)
      | (intro x; clear_value x) | (with_reducible apply State.raise_kept)
      | (with_reducible apply State.setBit_kept) | simp only [kept_mk, kept_fold] | (with_reducible intro _)
      | split | dsimp only)

theorem State.ramResults_kept {q : List Instr} {s : State} (rams lo n : Nat) (kq : Kept q s) :
    Kept q (State.ramResults s rams lo n) := by
  unfold State.ramResults
  repeat' (
    first
      | (with_reducible assumption) | (with_reducible apply State.ramFails_kept)
      | (with_reducible apply forUpto_keeps (P := Kept q)) | (with_reducible intro _)
      | (with_reducible apply kept_ite) | split | dsimp only)

theorem State.mapBanks_kept {q : List Instr} {s : State} (kq : Kept q s) :
    Kept q (State.mapBanks s) := by
  unfold State.mapBanks
  repeat' (
    first
      | (with_reducible assumption) | lift_lets
      | (intro x; have y : State := x; clear y; revert x; with_reducible apply kept_lift)
      | (intro x; have y : State := x.1; clear y; revert x; with_reducible apply kept_lift_fst)
      | (intro x; have y : State := x.2; clear y; revert x; with_reducible apply kept_lift_snd)
      | (intro x; clear_value x) | (with_reducible apply State.put_kept)
      | (with_reducible apply forUpto_keeps (P := Kept q)) | (with_reducible intro _) | split | dsimp only)

theorem State.mapPartly_kept {q : List Instr} {s : State} (kq : Kept q s) :
    Kept q (State.mapPartly s) := by
  unfold State.mapPartly
  repeat' (
    first
      | (with_reducible assumption) | lift_lets
      | (intro x; have y : State := x; clear y; revert x; with_reducible apply kept_lift)
      | (intro x; have y : State := x.1; clear y; revert x; with_reducible apply kept_lift_fst)
      | (intro x; have y : State := x.2; clear y; revert x; with_reducible apply kept_lift_snd)
      | (intro x; clear_value x) | (with_reducible apply State.put_kept)
      | (with_reducible apply forUpto_keeps (P := Kept q)) | simp only [kept_mk, kept_fold]
      | (with_reducible intro _) | (with_reducible apply kept_ite) | split | dsimp only)

theorem State.memByEnable_kept {q : List Instr} {s : State} (kq : Kept q s) :
    Kept q (State.memByEnable s) := by
  unfold State.memByEnable
  repeat' (
    first
      | (with_reducible assumption) | lift_lets
      | (intro x; have y : State := x; clear y; revert x; with_reducible apply kept_lift)
      | (intro x; have y : State := x.1; clear y; revert x; with_reducible apply kept_lift_fst)
      | (intro x; have y : State := x.2; clear y; revert x; with_reducible apply kept_lift_snd)
      | (intro x; clear_value x) | (with_reducible apply State.rotationGo_kept)
      | (with_reducible apply State.setMem_kept) | (with_reducible apply forUpto_keeps (P := Kept q))
      | (with_reducible intro _) | (with_reducible apply kept_ite) | split | dsimp only)

theorem State.postEnd_kept {q : List Instr} {s : State} (kq : Kept q s) :
    Kept q (State.postEnd s) := by
  unfold State.postEnd
  repeat' (
    first
      | (with_reducible assumption) | lift_lets
      | (intro x; have y : State := x; clear y; revert x; with_reducible apply kept_lift)
      | (intro x; have y : State := x.1; clear y; revert x; with_reducible apply kept_lift_fst)
      | (intro x; have y : State := x.2; clear y; revert x; with_reducible apply kept_lift_snd)
      | (intro x; clear_value x) | (with_reducible apply State.jobEndOf_kept)
      | (with_reducible apply State.mapBanks_kept) | (with_reducible apply State.mapPartly_kept)
      | (with_reducible apply State.memByEnable_kept) | (with_reducible apply State.put_kept)
      | (with_reducible apply State.rotationOff_kept) | (with_reducible apply State.scanBankLost_kept)
      | (with_reducible apply State.tilesEmpty_kept) | simp only [kept_mk, kept_fold] | (with_reducible intro _)
      | (with_reducible apply kept_ite) | split | dsimp only)

theorem execPostGroupDone_kept {q : List Instr} (banks : BitVec 17) (rams : BitVec 4) {s : State} {z : State} (kq : Kept q s)
    (hx : execPostGroupDone banks rams s = .next z) : Kept q z := by
  obtain rfl := Host.Outcome.next.inj hx
  repeat' (
    first
      | (with_reducible assumption) | lift_lets
      | (intro x; have y : State := x; clear y; revert x; with_reducible apply kept_lift)
      | (intro x; have y : State := x.1; clear y; revert x; with_reducible apply kept_lift_fst)
      | (intro x; have y : State := x.2; clear y; revert x; with_reducible apply kept_lift_snd)
      | (intro x; clear_value x) | (with_reducible apply State.groupBankResult_kept)
      | (with_reducible apply State.postEnd_kept) | (with_reducible apply State.postGroup_kept)
      | (with_reducible apply State.ramResults_kept) | (with_reducible intro _) | (with_reducible apply kept_ite)
      | split | dsimp only)

theorem State.bistStart_kept {q : List Instr} {s : State} (kq : Kept q s) :
    Kept q (State.bistStart s).1 := by
  unfold State.bistStart
  repeat' (
    first
      | (with_reducible assumption) | lift_lets
      | (intro x; have y : State := x; clear y; revert x; with_reducible apply kept_lift)
      | (intro x; have y : State := x.1; clear y; revert x; with_reducible apply kept_lift_fst)
      | (intro x; have y : State := x.2; clear y; revert x; with_reducible apply kept_lift_snd)
      | (intro x; clear_value x) | (with_reducible apply State.jobCommitOf_kept)
      | (with_reducible apply State.postStart_kept) | (with_reducible apply State.put_kept)
      | (with_reducible apply State.rotateJobEnd_kept) | (with_reducible apply State.rotationGo_kept)
      | simp only [kept_mk, kept_fold] | (with_reducible intro _) | (with_reducible apply kept_ite)
      | (with_reducible apply kept_ite_fst) | (with_reducible apply kept_ite_snd) | split | dsimp only)

theorem State.bistCancel_kept {q : List Instr} {s : State} (kq : Kept q s) :
    Kept q (State.bistCancel s) := by
  unfold State.bistCancel
  repeat' (
    first
      | (with_reducible assumption) | lift_lets
      | (intro x; have y : State := x; clear y; revert x; with_reducible apply kept_lift)
      | (intro x; have y : State := x.1; clear y; revert x; with_reducible apply kept_lift_fst)
      | (intro x; have y : State := x.2; clear y; revert x; with_reducible apply kept_lift_snd)
      | (intro x; clear_value x) | (with_reducible apply State.migrateAbandon_kept)
      | (with_reducible apply State.rotationGo_kept) | simp only [kept_mk, kept_fold] | (with_reducible intro _)
      | (with_reducible apply kept_ite) | split | dsimp only)

end Sys2Proof.Machine
end

