-- ==== Sys2Proof/Laws/KeptLoading.lean ====
section
/-!
SUPPORT. The operations of Machine/Loading.lean keep the queue and the canonical form.
-/

set_option linter.unusedSimpArgs false
set_option linter.unusedTactic false
set_option linter.unreachableTactic false

namespace Sys2Proof.Machine

theorem State.imgResult_kept {q : List Instr} {s : State} (result reason : Nat) (kq : Kept q s) :
    Kept q (State.imgResult s result reason) := by
  unfold State.imgResult
  repeat' (
    first
      | (with_reducible assumption) | (with_reducible apply State.lastResult_kept) | (with_reducible intro _)
      | split | dsimp only)

theorem State.loadStart_kept {q : List Instr} {s : State} (kq : Kept q s) :
    Kept q (State.loadStart s).1 := by
  unfold State.loadStart
  repeat' (
    first
      | (with_reducible assumption) | lift_lets
      | (intro x; have y : State := x; clear y; revert x; with_reducible apply kept_lift)
      | (intro x; have y : State := x.1; clear y; revert x; with_reducible apply kept_lift_fst)
      | (intro x; have y : State := x.2; clear y; revert x; with_reducible apply kept_lift_snd)
      | (intro x; clear_value x) | (with_reducible apply State.imgResult_kept) | simp only [kept_mk, kept_fold]
      | (with_reducible intro _) | (with_reducible apply kept_ite) | (with_reducible apply kept_ite_fst)
      | (with_reducible apply kept_ite_snd) | split | dsimp only)

theorem State.loadFail_kept {q : List Instr} {s : State} (reason : Nat) (kq : Kept q s) :
    Kept q (State.loadFail s reason) := by
  unfold State.loadFail
  repeat' (
    first
      | (with_reducible assumption) | (with_reducible apply State.imgResult_kept)
      | (with_reducible apply State.jobEndOf_kept) | (with_reducible intro _) | split | dsimp only)

theorem State.imgStage_kept {q : List Instr} {s : State} (bytes : List Byte) (kq : Kept q s) :
    Kept q (State.imgStage s bytes) := by
  unfold State.imgStage
  repeat' (
    first
      | (with_reducible assumption) | lift_lets
      | (intro x; have y : State := x; clear y; revert x; with_reducible apply kept_lift)
      | (intro x; have y : State := x.1; clear y; revert x; with_reducible apply kept_lift_fst)
      | (intro x; have y : State := x.2; clear y; revert x; with_reducible apply kept_lift_snd)
      | (intro x; clear_value x) | (with_reducible apply State.imgResult_kept)
      | (with_reducible apply State.jobCommitOf_kept) | (with_reducible apply State.jobEndOf_kept)
      | (with_reducible apply State.loadFail_kept) | (with_reducible apply State.put_kept)
      | simp only [kept_mk, kept_fold] | (with_reducible intro _) | (with_reducible apply kept_ite) | split
      | dsimp only)

theorem State.loadBody_kept {q : List Instr} {s : State} (a : Nat) (kq : Kept q s) :
    Kept q (State.loadBody s a) := by
  unfold State.loadBody
  repeat' (
    first
      | (with_reducible assumption) | (with_reducible apply State.imgStage_kept)
      | (with_reducible apply State.loadFail_kept) | (with_reducible apply State.readTiles_kept)
      | (with_reducible intro _) | (with_reducible apply kept_ite) | split | dsimp only)

theorem State.loadMemory_kept {q : List Instr} {s : State} (kq : Kept q s) :
    Kept q (State.loadMemory s) := by
  unfold State.loadMemory
  repeat' (
    first
      | (with_reducible assumption) | (with_reducible apply State.loadBody_kept)
      | (with_reducible apply State.loadFail_kept) | (with_reducible apply State.readTiles_kept)
      | (with_reducible intro _) | (with_reducible apply kept_ite) | split | dsimp only)

theorem execImageStaged_kept {q : List Instr} (flash : List Byte) {s : State} {z : State} (kq : Kept q s)
    (hx : execImageStaged flash s = .next z) : Kept q z := by
  obtain rfl := Host.Outcome.next.inj hx
  repeat' (
    first
      | (with_reducible assumption) | (with_reducible apply State.imgStage_kept)
      | (with_reducible apply State.loadMemory_kept) | (with_reducible intro _) | (with_reducible apply kept_ite)
      | split | dsimp only)

theorem execBodyReadTimeout_kept {q : List Instr} {s : State} {z : State} (kq : Kept q s)
    (hx : execBodyReadTimeout s = .next z) : Kept q z := by
  obtain rfl := Host.Outcome.next.inj hx
  repeat' (
    first
      | (with_reducible assumption) | (with_reducible apply State.loadFail_kept) | (with_reducible intro _)
      | (with_reducible apply kept_ite) | split | dsimp only)

theorem State.imgWrite_kept {q : List Instr} {s : State} (v : Word) (kq : Kept q s) :
    Kept q (State.imgWrite s v) := by
  unfold State.imgWrite
  repeat' (
    first
      | (with_reducible assumption) | lift_lets
      | (intro x; have y : State := x; clear y; revert x; with_reducible apply kept_lift)
      | (intro x; have y : State := x.1; clear y; revert x; with_reducible apply kept_lift_fst)
      | (intro x; have y : State := x.2; clear y; revert x; with_reducible apply kept_lift_snd)
      | (intro x; clear_value x) | (with_reducible apply State.dropStaged_kept)
      | (with_reducible apply State.regWrite_kept) | (with_reducible intro _) | (with_reducible apply kept_ite)
      | split | dsimp only)

theorem execDropImage_kept {q : List Instr} (i : Initiator) (v : Word) {s : State} {z : State} (kq : Kept q s)
    (hx : execDropImage i v s = .next z) : Kept q z := by
  obtain rfl := Host.Outcome.next.inj hx
  repeat' (
    first
      | (with_reducible assumption) | (with_reducible apply State.imgWrite_kept)
      | (with_reducible apply State.portWrite_kept) | (with_reducible intro _) | split | dsimp only)

theorem State.rsResult_kept {q : List Instr} {s : State} (result reason : Nat) (kq : Kept q s) :
    Kept q (State.rsResult s result reason) := by
  unfold State.rsResult
  repeat' (
    first
      | (with_reducible assumption) | (with_reducible apply State.lastResult_kept) | (with_reducible intro _)
      | split | dsimp only)

theorem State.cfgRequest_kept {q : List Instr} {s : State} (on : Bool) (kq : Kept q s) :
    Kept q (State.cfgRequest s on) := by
  unfold State.cfgRequest
  repeat' (
    first
      | (with_reducible assumption) | lift_lets
      | (intro x; have y : State := x; clear y; revert x; with_reducible apply kept_lift)
      | (intro x; have y : State := x.1; clear y; revert x; with_reducible apply kept_lift_fst)
      | (intro x; have y : State := x.2; clear y; revert x; with_reducible apply kept_lift_snd)
      | (intro x; clear_value x) | (with_reducible apply State.putB_kept)
      | (with_reducible apply State.safRefresh_kept) | (with_reducible intro _) | (with_reducible apply kept_ite)
      | split | dsimp only)

theorem State.rsStart_kept {q : List Instr} {s : State} (kq : Kept q s) :
    Kept q (State.rsStart s).1 := by
  unfold State.rsStart
  repeat' (
    first
      | (with_reducible assumption) | lift_lets
      | (intro x; have y : State := x; clear y; revert x; with_reducible apply kept_lift)
      | (intro x; have y : State := x.1; clear y; revert x; with_reducible apply kept_lift_fst)
      | (intro x; have y : State := x.2; clear y; revert x; with_reducible apply kept_lift_snd)
      | (intro x; clear_value x) | (with_reducible apply State.cfgRequest_kept)
      | (with_reducible apply State.put_kept) | (with_reducible apply State.rsResult_kept)
      | simp only [kept_mk, kept_fold] | (with_reducible intro _) | (with_reducible apply kept_ite)
      | (with_reducible apply kept_ite_fst) | (with_reducible apply kept_ite_snd) | split | dsimp only)

theorem State.rsSwap_kept {q : List Instr} {s : State} (kq : Kept q s) :
    Kept q (State.rsSwap s) := by
  unfold State.rsSwap
  repeat' (
    first
      | (with_reducible assumption) | lift_lets
      | (intro x; have y : State := x; clear y; revert x; with_reducible apply kept_lift)
      | (intro x; have y : State := x.1; clear y; revert x; with_reducible apply kept_lift_fst)
      | (intro x; have y : State := x.2; clear y; revert x; with_reducible apply kept_lift_snd)
      | (intro x; clear_value x) | (with_reducible apply State.applySections_kept)
      | (with_reducible apply State.commitWithdraw_kept) | (with_reducible apply State.dropStaged_kept)
      | (with_reducible apply State.imageLoaded_kept) | (with_reducible apply State.jobCommitOf_kept)
      | (with_reducible apply State.put_kept) | simp only [kept_mk, kept_fold] | (with_reducible intro _)
      | split | dsimp only)

theorem execRestructureSwap_kept {q : List Instr} {s : State} {z : State} (kq : Kept q s)
    (hx : execRestructureSwap s = .next z) : Kept q z := by
  obtain rfl := Host.Outcome.next.inj hx
  repeat' (
    first
      | (with_reducible assumption) | (with_reducible apply State.rsSwap_kept) | (with_reducible intro _)
      | (with_reducible apply kept_ite) | split | dsimp only)

theorem State.rsEnd_kept {q : List Instr} {s : State} (result reason : Nat) (kq : Kept q s) :
    Kept q (State.rsEnd s result reason) := by
  unfold State.rsEnd
  repeat' (
    first
      | (with_reducible assumption) | lift_lets
      | (intro x; have y : State := x; clear y; revert x; with_reducible apply kept_lift)
      | (intro x; have y : State := x.1; clear y; revert x; with_reducible apply kept_lift_fst)
      | (intro x; have y : State := x.2; clear y; revert x; with_reducible apply kept_lift_snd)
      | (intro x; clear_value x) | (with_reducible apply State.cfgRequest_kept)
      | (with_reducible apply State.put_kept) | (with_reducible apply State.rsResult_kept)
      | simp only [kept_mk, kept_fold] | (with_reducible intro _) | split | dsimp only)

theorem State.rsInstant_kept {q : List Instr} {s : State} (taken : Bool) (kq : Kept q s) :
    Kept q (State.rsInstant s taken) := by
  unfold State.rsInstant
  repeat' (
    first
      | (with_reducible assumption) | lift_lets
      | (intro x; have y : State := x; clear y; revert x; with_reducible apply kept_lift)
      | (intro x; have y : State := x.1; clear y; revert x; with_reducible apply kept_lift_fst)
      | (intro x; have y : State := x.2; clear y; revert x; with_reducible apply kept_lift_snd)
      | (intro x; clear_value x) | (with_reducible apply State.jobEndOf_kept)
      | (with_reducible apply State.rsEnd_kept) | simp only [kept_mk, kept_fold] | (with_reducible intro _)
      | (with_reducible apply kept_ite) | split | dsimp only)

theorem execRestructureNoOasis_kept {q : List Instr} {s : State} {z : State} (kq : Kept q s)
    (hx : execRestructureNoOasis s = .next z) : Kept q z := by
  obtain rfl := Host.Outcome.next.inj hx
  repeat' (
    first
      | (with_reducible assumption) | (with_reducible apply State.jobEndOf_kept)
      | (with_reducible apply State.rsEnd_kept) | (with_reducible intro _) | (with_reducible apply kept_ite)
      | split | dsimp only)

theorem State.cfgTick_kept {q : List Instr} {s : State} (kq : Kept q s) :
    Kept q (State.cfgTick s) := by
  unfold State.cfgTick
  repeat' (
    first
      | (with_reducible assumption) | lift_lets
      | (intro x; have y : State := x; clear y; revert x; with_reducible apply kept_lift)
      | (intro x; have y : State := x.1; clear y; revert x; with_reducible apply kept_lift_fst)
      | (intro x; have y : State := x.2; clear y; revert x; with_reducible apply kept_lift_snd)
      | (intro x; clear_value x) | simp only [kept_mk, kept_fold] | (with_reducible intro _)
      | (with_reducible apply kept_ite) | split | dsimp only)

end Sys2Proof.Machine
end

