-- ==== Sys2Proof/Laws/KeptDomains.lean ====
section
/-!
SUPPORT. The operations of Machine/Domains.lean keep the queue and the canonical form.
-/

set_option linter.unusedSimpArgs false
set_option linter.unusedTactic false
set_option linter.unreachableTactic false

namespace Sys2Proof.Machine

theorem State.jobWorkEnd_kept {q : List Instr} {s : State} (t : Nat) (cancel : Bool) (kq : Kept q s) :
    Kept q (State.jobWorkEnd s t cancel) := by
  unfold State.jobWorkEnd
  repeat' (
    first
      | (with_reducible assumption) | lift_lets
      | (intro x; have y : State := x; clear y; revert x; with_reducible apply kept_lift)
      | (intro x; have y : State := x.1; clear y; revert x; with_reducible apply kept_lift_fst)
      | (intro x; have y : State := x.2; clear y; revert x; with_reducible apply kept_lift_snd)
      | (intro x; clear_value x) | (with_reducible apply State.bistCancel_kept)
      | (with_reducible apply State.calCancel_kept) | (with_reducible apply State.cpAbort_kept)
      | (with_reducible apply State.lcCancel_kept) | (with_reducible apply State.nvDrop_kept)
      | (with_reducible apply State.nvResult_kept) | (with_reducible apply State.rebuildResult_kept)
      | (with_reducible apply State.rsEnd_kept) | simp only [kept_mk, kept_fold] | (with_reducible intro _)
      | (with_reducible apply kept_ite) | split | dsimp only)

theorem State.jobStop_kept {q : List Instr} {s : State} (n : Nat) (cancel : Bool) (kq : Kept q s) :
    Kept q (State.jobStop s n cancel) := by
  unfold State.jobStop
  repeat' (
    first
      | (with_reducible assumption) | lift_lets
      | (intro x; have y : State := x; clear y; revert x; with_reducible apply kept_lift)
      | (intro x; have y : State := x.1; clear y; revert x; with_reducible apply kept_lift_fst)
      | (intro x; have y : State := x.2; clear y; revert x; with_reducible apply kept_lift_snd)
      | (intro x; clear_value x) | (with_reducible apply State.jobEnd_kept)
      | (with_reducible apply State.jobWorkEnd_kept) | (with_reducible apply State.put_kept)
      | (with_reducible apply State.unitSettle_kept) | (with_reducible intro _) | (with_reducible apply kept_ite)
      | split | dsimp only)

theorem State.cpStop_kept {q : List Instr} {s : State} (cancel : Bool) (kq : Kept q s) :
    Kept q (State.cpStop s cancel) := by
  unfold State.cpStop
  repeat' (
    first
      | (with_reducible assumption) | lift_lets
      | (intro x; have y : State := x; clear y; revert x; with_reducible apply kept_lift)
      | (intro x; have y : State := x.1; clear y; revert x; with_reducible apply kept_lift_fst)
      | (intro x; have y : State := x.2; clear y; revert x; with_reducible apply kept_lift_snd)
      | (intro x; clear_value x) | (with_reducible apply State.cpAbort_kept)
      | (with_reducible apply State.unitSettle_kept) | (with_reducible intro _) | (with_reducible apply kept_ite)
      | split | dsimp only)

theorem State.jobsStop_kept {q : List Instr} {s : State} (cancel : Bool) (kq : Kept q s) :
    Kept q (State.jobsStop s cancel) := by
  unfold State.jobsStop
  repeat' (
    first
      | (with_reducible assumption) | lift_lets
      | (intro x; have y : State := x; clear y; revert x; with_reducible apply kept_lift)
      | (intro x; have y : State := x.1; clear y; revert x; with_reducible apply kept_lift_fst)
      | (intro x; have y : State := x.2; clear y; revert x; with_reducible apply kept_lift_snd)
      | (intro x; clear_value x) | (with_reducible apply State.cpStop_kept)
      | (with_reducible apply State.jobStop_kept) | (with_reducible apply forUpto_keeps (P := Kept q))
      | (with_reducible intro _) | (with_reducible apply kept_ite) | split | dsimp only)

theorem execCheckpointTimeout_kept {q : List Instr} {s : State} {z : State} (kq : Kept q s)
    (hx : execCheckpointTimeout s = .next z) : Kept q z := by
  obtain rfl := Host.Outcome.next.inj hx
  repeat' (
    first
      | (with_reducible assumption) | lift_lets
      | (intro x; have y : State := x; clear y; revert x; with_reducible apply kept_lift)
      | (intro x; have y : State := x.1; clear y; revert x; with_reducible apply kept_lift_fst)
      | (intro x; have y : State := x.2; clear y; revert x; with_reducible apply kept_lift_snd)
      | (intro x; clear_value x) | (with_reducible apply State.cpAbort_kept)
      | (with_reducible apply State.jobEndOf_kept) | (with_reducible apply State.unitSettle_kept)
      | (with_reducible intro _) | (with_reducible apply kept_ite) | split | dsimp only)

theorem State.enterState_kept {q : List Instr} {s : State} (st : Nat) (kq : Kept q s) :
    Kept q (State.enterState s st) := by
  unfold State.enterState
  repeat' (
    first
      | (with_reducible assumption) | lift_lets
      | (intro x; have y : State := x; clear y; revert x; with_reducible apply kept_lift)
      | (intro x; have y : State := x.1; clear y; revert x; with_reducible apply kept_lift_fst)
      | (intro x; have y : State := x.2; clear y; revert x; with_reducible apply kept_lift_snd)
      | (intro x; clear_value x) | (with_reducible apply State.irq_kept) | (with_reducible apply State.put_kept)
      | (with_reducible intro _) | (with_reducible apply kept_ite) | split | dsimp only)

theorem State.powerResult_kept {q : List Instr} {s : State} (r : Nat) (kq : Kept q s) :
    Kept q (State.powerResult s r) := by
  unfold State.powerResult
  repeat' (
    first
      | (with_reducible assumption) | (with_reducible apply State.irq_kept)
      | (with_reducible apply State.put_kept) | (with_reducible intro _) | split | dsimp only)

theorem State.pixOff_kept {q : List Instr} {s : State} (kq : Kept q s) :
    Kept q (State.pixOff s) := by
  unfold State.pixOff
  repeat' (
    first
      | (with_reducible assumption) | lift_lets
      | (intro x; have y : State := x; clear y; revert x; with_reducible apply kept_lift)
      | (intro x; have y : State := x.1; clear y; revert x; with_reducible apply kept_lift_fst)
      | (intro x; have y : State := x.2; clear y; revert x; with_reducible apply kept_lift_snd)
      | (intro x; clear_value x) | (with_reducible apply State.put_kept) | simp only [kept_mk, kept_fold]
      | (with_reducible intro _) | split | dsimp only)

theorem State.postDrop_kept {q : List Instr} {s : State} (kq : Kept q s) :
    Kept q (State.postDrop s) := by
  unfold State.postDrop
  repeat' (
    first
      | (with_reducible assumption) | lift_lets
      | (intro x; have y : State := x; clear y; revert x; with_reducible apply kept_lift)
      | (intro x; have y : State := x.1; clear y; revert x; with_reducible apply kept_lift_fst)
      | (intro x; have y : State := x.2; clear y; revert x; with_reducible apply kept_lift_snd)
      | (intro x; clear_value x) | (with_reducible apply State.put_kept) | simp only [kept_mk, kept_fold]
      | (with_reducible intro _) | split | dsimp only)

theorem State.memOff_kept {q : List Instr} {s : State} (kq : Kept q s) :
    Kept q (State.memOff s) := by
  unfold State.memOff
  repeat' (
    first
      | (with_reducible assumption) | (with_reducible apply State.migrateAbandon_kept)
      | (with_reducible apply State.put_kept) | (with_reducible apply State.rotationOff_kept)
      | (with_reducible apply State.scanBankLost_kept) | (with_reducible apply State.tilesEmpty_kept)
      | (with_reducible intro _) | split | dsimp only)

theorem State.darkSw_kept {q : List Instr} {s : State} (on : Bool) (kq : Kept q s) :
    Kept q (State.darkSw s on) := by
  unfold State.darkSw
  repeat' (
    first
      | (with_reducible assumption) | (with_reducible apply State.putB_kept)
      | (with_reducible apply State.safRefresh_kept) | (with_reducible intro _) | (with_reducible apply kept_ite)
      | split | dsimp only)

theorem State.darkSwBack_kept {q : List Instr} {s : State} (kq : Kept q s) :
    Kept q (State.darkSwBack s) := by
  unfold State.darkSwBack
  repeat' (
    first
      | (with_reducible assumption) | lift_lets
      | (intro x; have y : State := x; clear y; revert x; with_reducible apply kept_lift)
      | (intro x; have y : State := x.1; clear y; revert x; with_reducible apply kept_lift_fst)
      | (intro x; have y : State := x.2; clear y; revert x; with_reducible apply kept_lift_snd)
      | (intro x; clear_value x) | (with_reducible apply State.darkSw_kept) | simp only [kept_mk, kept_fold]
      | (with_reducible intro _) | split | dsimp only)

theorem State.recReset_kept {q : List Instr} {s : State} (keep : Bool) (kq : Kept q s) :
    Kept q (State.recReset s keep) := by
  unfold State.recReset
  repeat' (
    first
      | (with_reducible assumption) | lift_lets
      | (intro x; have y : State := x; clear y; revert x; with_reducible apply kept_lift)
      | (intro x; have y : State := x.1; clear y; revert x; with_reducible apply kept_lift_fst)
      | (intro x; have y : State := x.2; clear y; revert x; with_reducible apply kept_lift_snd)
      | (intro x; clear_value x) | simp only [kept_mk, kept_fold] | (with_reducible intro _)
      | (with_reducible apply kept_ite) | split | dsimp only)

theorem State.levelsOff_kept {q : List Instr} {s : State} (p : Nat → Bool) (kq : Kept q s) :
    Kept q (State.levelsOff s p) := by
  unfold State.levelsOff
  repeat' (
    first
      | (with_reducible assumption) | (with_reducible apply State.deassertF_kept)
      | (with_reducible apply kept_foldl) | (with_reducible intro _) | (with_reducible apply kept_ite) | split
      | dsimp only)

theorem State.coreReset_kept {q : List Instr} {s : State} (safeEnd : Bool) (kq : Kept q s) :
    Kept q (State.coreReset s safeEnd) := by
  unfold State.coreReset
  repeat' (
    first
      | (with_reducible assumption) | lift_lets
      | (intro x; have y : State := x; clear y; revert x; with_reducible apply kept_lift)
      | (intro x; have y : State := x.1; clear y; revert x; with_reducible apply kept_lift_fst)
      | (intro x; have y : State := x.2; clear y; revert x; with_reducible apply kept_lift_snd)
      | (intro x; clear_value x) | (with_reducible apply State.cfgReset_kept)
      | (with_reducible apply State.commitRetarget_kept) | (with_reducible apply State.levelsOff_kept)
      | (with_reducible apply State.putB_kept) | (with_reducible apply State.recReset_kept)
      | (with_reducible apply State.resetRegs_kept) | (with_reducible apply State.thmReset_kept)
      | (with_reducible apply State.unitFinish_kept) | (with_reducible apply kept_foldl)
      | simp only [kept_mk, kept_fold] | (with_reducible apply kept_noLmem) | (with_reducible intro _)
      | (with_reducible apply kept_ite) | split | dsimp only)

theorem State.fltReset_kept {q : List Instr} {s : State} (kq : Kept q s) :
    Kept q (State.fltReset s) := by
  unfold State.fltReset
  repeat' (
    first
      | (with_reducible assumption) | lift_lets
      | (intro x; have y : State := x; clear y; revert x; with_reducible apply kept_lift)
      | (intro x; have y : State := x.1; clear y; revert x; with_reducible apply kept_lift_fst)
      | (intro x; have y : State := x.2; clear y; revert x; with_reducible apply kept_lift_snd)
      | (intro x; clear_value x) | (with_reducible apply State.resetRegs_kept) | simp only [kept_mk, kept_fold]
      | (with_reducible intro _) | split | dsimp only)

theorem State.lnkReset_kept {q : List Instr} {s : State} (kq : Kept q s) :
    Kept q (State.lnkReset s) := by
  unfold State.lnkReset
  repeat' (
    first
      | (with_reducible assumption) | lift_lets
      | (intro x; have y : State := x; clear y; revert x; with_reducible apply kept_lift)
      | (intro x; have y : State := x.1; clear y; revert x; with_reducible apply kept_lift_fst)
      | (intro x; have y : State := x.2; clear y; revert x; with_reducible apply kept_lift_snd)
      | (intro x; clear_value x) | (with_reducible apply State.levelsOff_kept)
      | (with_reducible apply State.resetRegs_kept) | simp only [kept_mk, kept_fold] | (with_reducible intro _)
      | split | dsimp only)

theorem State.aonReset_kept {q : List Instr} {s : State} (kq : Kept q s) :
    Kept q (State.aonReset s) := by
  unfold State.aonReset
  repeat' (
    first
      | (with_reducible assumption) | lift_lets
      | (intro x; have y : State := x; clear y; revert x; with_reducible apply kept_lift)
      | (intro x; have y : State := x.1; clear y; revert x; with_reducible apply kept_lift_fst)
      | (intro x; have y : State := x.2; clear y; revert x; with_reducible apply kept_lift_snd)
      | (intro x; clear_value x) | (with_reducible apply State.fltReset_kept)
      | (with_reducible apply State.resetRegs_kept) | simp only [kept_mk, kept_fold] | (with_reducible intro _)
      | split | dsimp only)

theorem State.offReset_kept {q : List Instr} {s : State} (kq : Kept q s) :
    Kept q (State.offReset s) := by
  unfold State.offReset
  repeat' (
    first
      | (with_reducible assumption) | lift_lets
      | (intro x; have y : State := x; clear y; revert x; with_reducible apply kept_lift)
      | (intro x; have y : State := x.1; clear y; revert x; with_reducible apply kept_lift_fst)
      | (intro x; have y : State := x.2; clear y; revert x; with_reducible apply kept_lift_snd)
      | (intro x; clear_value x) | (with_reducible apply State.aonReset_kept)
      | (with_reducible apply State.coreReset_kept) | (with_reducible apply State.darkPads_kept)
      | (with_reducible apply State.fltRequest_kept) | (with_reducible apply State.lnkReset_kept)
      | (with_reducible apply State.put_kept) | (with_reducible apply State.rasterStop_kept)
      | (with_reducible apply State.unitFinish_kept) | (with_reducible intro _) | (with_reducible apply kept_ite)
      | split | dsimp only)

theorem State.bootEnter_kept {q : List Instr} {s : State} (kq : Kept q s) :
    Kept q (State.bootEnter s) := by
  unfold State.bootEnter
  repeat' (
    first
      | (with_reducible assumption) | lift_lets
      | (intro x; have y : State := x; clear y; revert x; with_reducible apply kept_lift)
      | (intro x; have y : State := x.1; clear y; revert x; with_reducible apply kept_lift_fst)
      | (intro x; have y : State := x.2; clear y; revert x; with_reducible apply kept_lift_snd)
      | (intro x; clear_value x) | (with_reducible apply State.enterState_kept)
      | (with_reducible apply State.grantLockWait_kept) | (with_reducible apply State.put_kept)
      | (with_reducible apply State.stopTrack_kept) | simp only [kept_mk, kept_fold] | (with_reducible intro _)
      | split | dsimp only)

theorem State.idleFromBoot_kept {q : List Instr} {s : State} (kq : Kept q s) :
    Kept q (State.idleFromBoot s) := by
  unfold State.idleFromBoot
  repeat' (
    first
      | (with_reducible assumption) | lift_lets
      | (intro x; have y : State := x; clear y; revert x; with_reducible apply kept_lift)
      | (intro x; have y : State := x.1; clear y; revert x; with_reducible apply kept_lift_fst)
      | (intro x; have y : State := x.2; clear y; revert x; with_reducible apply kept_lift_snd)
      | (intro x; clear_value x) | (with_reducible apply State.bootCheckpoint_kept)
      | (with_reducible apply State.enterState_kept) | (with_reducible apply State.postStart_kept)
      | (with_reducible apply State.put_kept) | (with_reducible intro _) | split | dsimp only)

theorem State.safeEnter_kept {q : List Instr} {s : State} (kq : Kept q s) :
    Kept q (State.safeEnter s) := by
  unfold State.safeEnter
  repeat' (
    first
      | (with_reducible assumption) | lift_lets
      | (intro x; have y : State := x; clear y; revert x; with_reducible apply kept_lift)
      | (intro x; have y : State := x.1; clear y; revert x; with_reducible apply kept_lift_fst)
      | (intro x; have y : State := x.2; clear y; revert x; with_reducible apply kept_lift_snd)
      | (intro x; clear_value x) | (with_reducible apply State.darkSwBack_kept)
      | (with_reducible apply State.enterState_kept) | (with_reducible apply State.inc_kept)
      | (with_reducible apply State.jobsStop_kept) | (with_reducible apply State.memOff_kept)
      | (with_reducible apply State.pixOff_kept) | (with_reducible apply State.powerResult_kept)
      | (with_reducible apply State.put_kept) | (with_reducible apply State.rasterStop_kept)
      | simp only [kept_mk, kept_fold] | (with_reducible intro _) | (with_reducible apply kept_ite) | split
      | dsimp only)

end Sys2Proof.Machine
end

