-- ==== Sys2Proof/Laws/KeptBoot.lean ====
section
/-!
SUPPORT. The operations of Machine/Boot.lean keep the queue and the canonical form.
-/

set_option linter.unusedSimpArgs false
set_option linter.unusedTactic false
set_option linter.unreachableTactic false

namespace Sys2Proof.Machine

theorem execResetNLow_kept {q : List Instr} {s : State} {z : State} (kq : Kept q s)
    (hx : execResetNLow s = .next z) : Kept q z := by
  obtain rfl := Host.Outcome.next.inj hx
  repeat' (
    first
      | (with_reducible assumption) | lift_lets
      | (intro x; have y : State := x; clear y; revert x; with_reducible apply kept_lift)
      | (intro x; have y : State := x.1; clear y; revert x; with_reducible apply kept_lift_fst)
      | (intro x; have y : State := x.2; clear y; revert x; with_reducible apply kept_lift_snd)
      | (intro x; clear_value x) | (with_reducible apply State.grantGive_kept)
      | (with_reducible apply State.offReset_kept) | simp only [kept_mk, kept_fold] | (with_reducible intro _)
      | (with_reducible apply kept_ite) | split | dsimp only)

theorem State.unitLost_kept {q : List Instr} {s : State} (kq : Kept q s) :
    Kept q (State.unitLost s) := by
  unfold State.unitLost
  repeat' (
    first
      | (with_reducible assumption) | lift_lets
      | (intro x; have y : State := x; clear y; revert x; with_reducible apply kept_lift)
      | (intro x; have y : State := x.1; clear y; revert x; with_reducible apply kept_lift_fst)
      | (intro x; have y : State := x.2; clear y; revert x; with_reducible apply kept_lift_snd)
      | (intro x; clear_value x) | (with_reducible apply State.tick_kept)
      | (with_reducible apply State.unitWrite_kept) | simp only [kept_mk, kept_fold] | (with_reducible intro _)
      | (with_reducible apply kept_ite) | split | dsimp only)

theorem execVddBelowThreshold_kept {q : List Instr} {s : State} {z : State} (kq : Kept q s)
    (hx : execVddBelowThreshold s = .next z) : Kept q z := by
  obtain rfl := Host.Outcome.next.inj hx
  repeat' (
    first
      | (with_reducible assumption) | lift_lets
      | (intro x; have y : State := x; clear y; revert x; with_reducible apply kept_lift)
      | (intro x; have y : State := x.1; clear y; revert x; with_reducible apply kept_lift_fst)
      | (intro x; have y : State := x.2; clear y; revert x; with_reducible apply kept_lift_snd)
      | (intro x; clear_value x) | (with_reducible apply State.grantEnd_kept)
      | (with_reducible apply State.offReset_kept) | (with_reducible apply State.unitLost_kept)
      | simp only [kept_mk, kept_fold] | (with_reducible intro _) | (with_reducible apply kept_ite) | split
      | dsimp only)

theorem State.release_kept {q : List Instr} {s : State} (vddio : Nat) (kq : Kept q s) :
    Kept q (State.release s vddio) := by
  unfold State.release
  repeat' (
    first
      | (with_reducible assumption) | lift_lets
      | (intro x; have y : State := x; clear y; revert x; with_reducible apply kept_lift)
      | (intro x; have y : State := x.1; clear y; revert x; with_reducible apply kept_lift_fst)
      | (intro x; have y : State := x.2; clear y; revert x; with_reducible apply kept_lift_snd)
      | (intro x; clear_value x) | (with_reducible apply State.aonReset_kept)
      | (with_reducible apply State.bootEnter_kept) | (with_reducible apply State.coreReset_kept)
      | (with_reducible apply State.fltRequest_kept) | (with_reducible apply State.lnkReset_kept)
      | (with_reducible apply State.put_kept) | simp only [kept_mk, kept_fold] | (with_reducible intro _)
      | (with_reducible apply kept_ite) | split | dsimp only)

theorem execResetNRelease_kept {q : List Instr} (vdd : Bool) (vddio : Nat) {s : State} {z : State} (kq : Kept q s)
    (hx : execResetNRelease vdd vddio s = .next z) : Kept q z := by
  obtain rfl := Host.Outcome.next.inj hx
  repeat' (
    first
      | (with_reducible assumption) | lift_lets
      | (intro x; have y : State := x; clear y; revert x; with_reducible apply kept_lift)
      | (intro x; have y : State := x.1; clear y; revert x; with_reducible apply kept_lift_fst)
      | (intro x; have y : State := x.2; clear y; revert x; with_reducible apply kept_lift_snd)
      | (intro x; clear_value x) | (with_reducible apply State.grantGive_kept)
      | (with_reducible apply State.release_kept) | simp only [kept_mk, kept_fold] | (with_reducible intro _)
      | (with_reducible apply kept_ite) | split | dsimp only)

theorem State.slotFail_kept {q : List Instr} {s : State} (slot reason : Nat) (kq : Kept q s) :
    Kept q (State.slotFail s slot reason) := by
  unfold State.slotFail
  repeat' (
    first
      | (with_reducible assumption) | (with_reducible apply State.put_kept)
      | (with_reducible apply State.raise_kept) | (with_reducible intro _) | (with_reducible apply kept_ite)
      | split | dsimp only)

theorem State.bootGo_kept {q : List Instr} {s : State} (step : Nat) (kq : Kept q s) :
    Kept q (State.bootGo s step) := by
  unfold State.bootGo
  repeat' (
    first
      | (with_reducible assumption) | lift_lets
      | (intro x; have y : State := x; clear y; revert x; with_reducible apply kept_lift)
      | (intro x; have y : State := x.1; clear y; revert x; with_reducible apply kept_lift_fst)
      | (intro x; have y : State := x.2; clear y; revert x; with_reducible apply kept_lift_snd)
      | (intro x; clear_value x) | simp only [kept_mk, kept_fold] | (with_reducible intro _) | split
      | dsimp only)

theorem State.noImage_kept {q : List Instr} {s : State} (kq : Kept q s) :
    Kept q (State.noImage s) := by
  unfold State.noImage
  repeat' (
    first
      | (with_reducible assumption) | (with_reducible apply State.bootGo_kept)
      | (with_reducible apply State.raise_kept) | (with_reducible intro _) | split | dsimp only)

theorem State.bootFuses_kept {q : List Instr} {s : State} (voteBad : Bool) (kq : Kept q s) :
    Kept q (State.bootFuses s voteBad) := by
  unfold State.bootFuses
  repeat' (
    first
      | (with_reducible assumption) | lift_lets
      | (intro x; have y : State := x; clear y; revert x; with_reducible apply kept_lift)
      | (intro x; have y : State := x.1; clear y; revert x; with_reducible apply kept_lift_fst)
      | (intro x; have y : State := x.2; clear y; revert x; with_reducible apply kept_lift_snd)
      | (intro x; clear_value x) | (with_reducible apply State.bootGo_kept)
      | (with_reducible apply State.floorRead_kept) | (with_reducible apply State.put_kept)
      | (with_reducible apply State.raise_kept) | (with_reducible apply State.showKeys_kept)
      | (with_reducible intro _) | (with_reducible apply kept_ite) | split | dsimp only)

theorem State.bodyGo_kept {q : List Instr} {s : State} (slot : Option Nat) (kq : Kept q s) :
    Kept q (State.bodyGo s slot) := by
  unfold State.bodyGo
  repeat' (
    first
      | (with_reducible assumption) | lift_lets
      | (intro x; have y : State := x; clear y; revert x; with_reducible apply kept_lift)
      | (intro x; have y : State := x.1; clear y; revert x; with_reducible apply kept_lift_fst)
      | (intro x; have y : State := x.2; clear y; revert x; with_reducible apply kept_lift_snd)
      | (intro x; clear_value x) | (with_reducible apply State.bootGo_kept)
      | (with_reducible apply State.noImage_kept) | simp only [kept_mk, kept_fold] | (with_reducible intro _)
      | split | dsimp only)

theorem State.bootHeader_kept {q : List Instr} {s : State} (b : Except Nat (List Byte)) (kq : Kept q s) :
    Kept q (State.bootHeader s b) := by
  unfold State.bootHeader
  repeat' (
    first
      | (with_reducible assumption) | lift_lets
      | (intro x; have y : State := x; clear y; revert x; with_reducible apply kept_lift)
      | (intro x; have y : State := x.1; clear y; revert x; with_reducible apply kept_lift_fst)
      | (intro x; have y : State := x.2; clear y; revert x; with_reducible apply kept_lift_snd)
      | (intro x; clear_value x) | (with_reducible apply State.bodyGo_kept)
      | (with_reducible apply State.bootGo_kept) | (with_reducible apply State.put_kept)
      | (with_reducible apply State.slotFail_kept) | simp only [kept_mk, kept_fold] | (with_reducible intro _)
      | (with_reducible apply kept_ite) | split | dsimp only)

theorem State.bodyFail_kept {q : List Instr} {s : State} (reason : Nat) (kq : Kept q s) :
    Kept q (State.bodyFail s reason) := by
  unfold State.bodyFail
  repeat' (
    first
      | (with_reducible assumption) | lift_lets
      | (intro x; have y : State := x; clear y; revert x; with_reducible apply kept_lift)
      | (intro x; have y : State := x.1; clear y; revert x; with_reducible apply kept_lift_fst)
      | (intro x; have y : State := x.2; clear y; revert x; with_reducible apply kept_lift_snd)
      | (intro x; clear_value x) | (with_reducible apply State.bodyGo_kept)
      | (with_reducible apply State.noImage_kept) | (with_reducible apply State.slotFail_kept)
      | simp only [kept_mk, kept_fold] | (with_reducible intro _) | (with_reducible apply kept_ite) | split
      | dsimp only)

theorem State.bootBody_kept {q : List Instr} {s : State} (bytes : List Byte) (kq : Kept q s) :
    Kept q (State.bootBody s bytes) := by
  unfold State.bootBody
  repeat' (
    first
      | (with_reducible assumption) | lift_lets
      | (intro x; have y : State := x; clear y; revert x; with_reducible apply kept_lift)
      | (intro x; have y : State := x.1; clear y; revert x; with_reducible apply kept_lift_fst)
      | (intro x; have y : State := x.2; clear y; revert x; with_reducible apply kept_lift_snd)
      | (intro x; clear_value x) | (with_reducible apply State.bodyFail_kept)
      | (with_reducible apply State.bootGo_kept) | simp only [kept_mk, kept_fold] | (with_reducible intro _)
      | split | dsimp only)

theorem State.bootApply_kept {q : List Instr} {s : State} (ramFail : BitVec 9) (kq : Kept q s) :
    Kept q (State.bootApply s ramFail) := by
  unfold State.bootApply
  repeat' (
    first
      | (with_reducible assumption) | lift_lets
      | (intro x; have y : State := x; clear y; revert x; with_reducible apply kept_lift)
      | (intro x; have y : State := x.1; clear y; revert x; with_reducible apply kept_lift_fst)
      | (intro x; have y : State := x.2; clear y; revert x; with_reducible apply kept_lift_snd)
      | (intro x; clear_value x) | (with_reducible apply State.applySections_kept)
      | (with_reducible apply State.bootGo_kept) | (with_reducible apply State.calLoad_kept)
      | (with_reducible apply State.gainBoot_kept) | (with_reducible apply State.journalReplay_kept)
      | (with_reducible apply State.mapBoot_kept) | (with_reducible apply State.ramResults_kept)
      | simp only [kept_mk, kept_fold] | (with_reducible intro _) | split | dsimp only)

theorem State.bootSignal_kept {q : List Instr} {s : State} (kq : Kept q s) :
    Kept q (State.bootSignal s) := by
  unfold State.bootSignal
  repeat' (
    first
      | (with_reducible assumption) | lift_lets
      | (intro x; have y : State := x; clear y; revert x; with_reducible apply kept_lift)
      | (intro x; have y : State := x.1; clear y; revert x; with_reducible apply kept_lift_fst)
      | (intro x; have y : State := x.2; clear y; revert x; with_reducible apply kept_lift_snd)
      | (intro x; clear_value x) | (with_reducible apply State.bootGo_kept)
      | (with_reducible apply State.idleFromBoot_kept) | (with_reducible apply State.imageLoaded_kept)
      | (with_reducible apply State.raise_kept) | (with_reducible apply State.recLoad_kept)
      | simp only [kept_mk, kept_fold] | (with_reducible intro _) | (with_reducible apply kept_ite) | split
      | dsimp only)

theorem execBootStepDone_kept {q : List Instr} (b : BootIn) {s : State} {z : State} (kq : Kept q s)
    (hx : execBootStepDone b s = .next z) : Kept q z := by
  obtain rfl := Host.Outcome.next.inj hx
  repeat' (
    first
      | (with_reducible assumption) | lift_lets
      | (intro x; have y : State := x; clear y; revert x; with_reducible apply kept_lift)
      | (intro x; have y : State := x.1; clear y; revert x; with_reducible apply kept_lift_fst)
      | (intro x; have y : State := x.2; clear y; revert x; with_reducible apply kept_lift_snd)
      | (intro x; clear_value x) | (with_reducible apply State.bootApply_kept)
      | (with_reducible apply State.bootBody_kept) | (with_reducible apply State.bootFuses_kept)
      | (with_reducible apply State.bootHeader_kept) | (with_reducible apply State.bootSignal_kept)
      | simp only [kept_mk, kept_fold] | (with_reducible intro _) | (with_reducible apply kept_ite) | split
      | dsimp only)

theorem execBootStepTimeout_kept {q : List Instr} {s : State} {z : State} (kq : Kept q s)
    (hx : execBootStepTimeout s = .next z) : Kept q z := by
  obtain rfl := Host.Outcome.next.inj hx
  repeat' (
    first
      | (with_reducible assumption) | lift_lets
      | (intro x; have y : State := x; clear y; revert x; with_reducible apply kept_lift)
      | (intro x; have y : State := x.1; clear y; revert x; with_reducible apply kept_lift_fst)
      | (intro x; have y : State := x.2; clear y; revert x; with_reducible apply kept_lift_snd)
      | (intro x; clear_value x) | (with_reducible apply State.bodyFail_kept)
      | (with_reducible apply State.bootApply_kept) | (with_reducible apply State.bootFuses_kept)
      | (with_reducible apply State.bootHeader_kept) | (with_reducible apply State.raise_kept)
      | simp only [kept_mk, kept_fold] | (with_reducible intro _) | (with_reducible apply kept_ite) | split
      | dsimp only)

theorem execSensorPublish_kept {q : List Instr} {s : State} {z : State} (kq : Kept q s)
    (hx : execSensorPublish s = .next z) : Kept q z := by
  obtain rfl := Host.Outcome.next.inj hx
  repeat' (
    first
      | (with_reducible assumption) | lift_lets
      | (intro x; have y : State := x; clear y; revert x; with_reducible apply kept_lift)
      | (intro x; have y : State := x.1; clear y; revert x; with_reducible apply kept_lift_fst)
      | (intro x; have y : State := x.2; clear y; revert x; with_reducible apply kept_lift_snd)
      | (intro x; clear_value x) | (with_reducible apply State.publishAll_kept)
      | (with_reducible apply State.put_kept) | (with_reducible apply State.raise_kept)
      | (with_reducible apply State.safeEnter_kept) | (with_reducible apply State.throttleClear_kept)
      | (with_reducible apply State.toSlot_kept) | simp only [kept_mk, kept_fold] | (with_reducible intro _)
      | (with_reducible apply kept_ite) | split | dsimp only)

theorem execShutdownEnd_kept {q : List Instr} {s : State} {z : State} (kq : Kept q s)
    (hx : execShutdownEnd s = .next z) : Kept q z := by
  obtain rfl := Host.Outcome.next.inj hx
  repeat' (
    first
      | (with_reducible assumption) | lift_lets
      | (intro x; have y : State := x; clear y; revert x; with_reducible apply kept_lift)
      | (intro x; have y : State := x.1; clear y; revert x; with_reducible apply kept_lift_fst)
      | (intro x; have y : State := x.2; clear y; revert x; with_reducible apply kept_lift_snd)
      | (intro x; clear_value x) | (with_reducible apply State.bootEnter_kept)
      | (with_reducible apply State.coreReset_kept) | (with_reducible apply State.irq_kept)
      | (with_reducible apply State.lnkOff_kept) | (with_reducible apply State.lnkReset_kept)
      | (with_reducible apply State.put_kept) | simp only [kept_mk, kept_fold] | (with_reducible intro _)
      | (with_reducible apply kept_ite) | split | dsimp only)

end Sys2Proof.Machine
end

