-- ==== Sys2Proof/Laws/KeptFaults.lean ====
section
/-!
SUPPORT. The operations of Machine/Faults.lean keep the queue and the canonical form.
-/

set_option linter.unusedSimpArgs false
set_option linter.unusedTactic false
set_option linter.unreachableTactic false

namespace Sys2Proof.Machine

theorem State.putStamp_kept {q : List Instr} {s : State} (a : Nat) (kq : Kept q s) :
    Kept q (State.putStamp s a) := by
  unfold State.putStamp
  repeat' (
    first
      | (with_reducible assumption) | (with_reducible apply State.setReg_kept) | (with_reducible apply kept_foldl)
      | (with_reducible intro _) | split | dsimp only)

theorem State.firstFill_kept {q : List Instr} {s : State} (n cls : Nat) (i : FaultInfo) (kq : Kept q s) :
    Kept q (State.firstFill s n cls i) := by
  unfold State.firstFill
  repeat' (
    first
      | (with_reducible assumption) | lift_lets
      | (intro x; have y : State := x; clear y; revert x; with_reducible apply kept_lift)
      | (intro x; have y : State := x.1; clear y; revert x; with_reducible apply kept_lift_fst)
      | (intro x; have y : State := x.2; clear y; revert x; with_reducible apply kept_lift_snd)
      | (intro x; clear_value x) | (with_reducible apply State.faultMessage_kept)
      | (with_reducible apply State.put_kept) | (with_reducible apply State.putB_kept)
      | (with_reducible apply State.putStamp_kept) | (with_reducible apply State.setReg_kept)
      | (with_reducible intro _) | (with_reducible apply kept_ite) | split | dsimp only)

theorem State.latch_kept {q : List Instr} {s : State} (n : Nat) (i : FaultInfo) (kq : Kept q s) :
    Kept q (State.latch s n i) := by
  unfold State.latch
  repeat' (
    first
      | (with_reducible assumption) | lift_lets
      | (intro x; have y : State := x; clear y; revert x; with_reducible apply kept_lift)
      | (intro x; have y : State := x.1; clear y; revert x; with_reducible apply kept_lift_fst)
      | (intro x; have y : State := x.2; clear y; revert x; with_reducible apply kept_lift_snd)
      | (intro x; clear_value x) | (with_reducible apply State.cpCause_kept)
      | (with_reducible apply State.firstFill_kept) | (with_reducible apply State.irq_kept)
      | (with_reducible apply State.react_kept) | (with_reducible apply State.setFrec_kept)
      | simp only [kept_mk, kept_fold] | (with_reducible intro _) | (with_reducible apply kept_ite) | split
      | dsimp only)

theorem State.liveRise_kept {q : List Instr} {s : State} (n : Nat) (i : FaultInfo) (kq : Kept q s) :
    Kept q (State.liveRise s n i) := by
  unfold State.liveRise
  repeat' (
    first
      | (with_reducible assumption) | lift_lets
      | (intro x; have y : State := x; clear y; revert x; with_reducible apply kept_lift)
      | (intro x; have y : State := x.1; clear y; revert x; with_reducible apply kept_lift_fst)
      | (intro x; have y : State := x.2; clear y; revert x; with_reducible apply kept_lift_snd)
      | (intro x; clear_value x) | (with_reducible apply State.firstFill_kept)
      | (with_reducible apply State.irq_kept) | (with_reducible apply State.latch_kept)
      | (with_reducible apply State.put_kept) | (with_reducible apply State.recEvent_kept)
      | (with_reducible apply State.setFrec_kept) | simp only [kept_mk, kept_fold] | (with_reducible intro _)
      | (with_reducible apply kept_ite) | split | dsimp only)

theorem execFaultLiveRise_kept {q : List Instr} (code : Byte) {s : State} {z : State} (kq : Kept q s)
    (hx : execFaultLiveRise code s = .next z) : Kept q z := by
  obtain rfl := Host.Outcome.next.inj hx
  repeat' (
    first
      | (with_reducible assumption) | lift_lets
      | (intro x; have y : State := x; clear y; revert x; with_reducible apply kept_lift)
      | (intro x; have y : State := x.1; clear y; revert x; with_reducible apply kept_lift_fst)
      | (intro x; have y : State := x.2; clear y; revert x; with_reducible apply kept_lift_snd)
      | (intro x; clear_value x) | (with_reducible apply State.liveRise_kept) | simp only [kept_mk, kept_fold]
      | (with_reducible intro _) | (with_reducible apply kept_ite) | split | dsimp only)

theorem State.unlatch_kept {q : List Instr} {s : State} (n : Nat) (kq : Kept q s) :
    Kept q (State.unlatch s n) := by
  unfold State.unlatch
  repeat' (
    first
      | (with_reducible assumption) | lift_lets
      | (intro x; have y : State := x; clear y; revert x; with_reducible apply kept_lift)
      | (intro x; have y : State := x.1; clear y; revert x; with_reducible apply kept_lift_fst)
      | (intro x; have y : State := x.2; clear y; revert x; with_reducible apply kept_lift_snd)
      | (intro x; clear_value x) | (with_reducible apply State.fltRequest_kept)
      | (with_reducible apply State.setFrec_kept) | simp only [kept_mk, kept_fold] | (with_reducible intro _)
      | split | dsimp only)

theorem State.firstFall_kept {q : List Instr} {s : State} (n : Nat) (kq : Kept q s) :
    Kept q (State.firstFall s n) := by
  unfold State.firstFall
  repeat' (
    first
      | (with_reducible assumption) | lift_lets
      | (intro x; have y : State := x; clear y; revert x; with_reducible apply kept_lift)
      | (intro x; have y : State := x.1; clear y; revert x; with_reducible apply kept_lift_fst)
      | (intro x; have y : State := x.2; clear y; revert x; with_reducible apply kept_lift_snd)
      | (intro x; clear_value x) | (with_reducible apply State.put_kept)
      | (with_reducible apply State.putStamp_kept) | (with_reducible intro _) | (with_reducible apply kept_ite)
      | split | dsimp only)

theorem execFaultLiveFall_kept {q : List Instr} (code : Byte) {s : State} {z : State} (kq : Kept q s)
    (hx : execFaultLiveFall code s = .next z) : Kept q z := by
  obtain rfl := Host.Outcome.next.inj hx
  repeat' (
    first
      | (with_reducible assumption) | lift_lets
      | (intro x; have y : State := x; clear y; revert x; with_reducible apply kept_lift)
      | (intro x; have y : State := x.1; clear y; revert x; with_reducible apply kept_lift_fst)
      | (intro x; have y : State := x.2; clear y; revert x; with_reducible apply kept_lift_snd)
      | (intro x; clear_value x) | (with_reducible apply State.firstFall_kept)
      | (with_reducible apply State.setFrec_kept) | (with_reducible apply State.unlatch_kept)
      | simp only [kept_mk, kept_fold] | (with_reducible intro _) | (with_reducible apply kept_ite) | split
      | dsimp only)

theorem execFaultPairInvalid_kept {q : List Instr} (code : Byte) (bad : Bool) {s : State} {z : State} (kq : Kept q s)
    (hx : execFaultPairInvalid code bad s = .next z) : Kept q z := by
  obtain rfl := Host.Outcome.next.inj hx
  repeat' (
    first
      | (with_reducible assumption) | lift_lets
      | (intro x; have y : State := x; clear y; revert x; with_reducible apply kept_lift)
      | (intro x; have y : State := x.1; clear y; revert x; with_reducible apply kept_lift_fst)
      | (intro x; have y : State := x.2; clear y; revert x; with_reducible apply kept_lift_snd)
      | (intro x; clear_value x) | (with_reducible apply State.raise_kept)
      | (with_reducible apply State.setFrec_kept) | simp only [kept_mk, kept_fold] | (with_reducible intro _)
      | (with_reducible apply kept_ite) | split | dsimp only)

theorem State.proofFails_kept {q : List Instr} {s : State} (x0 : List Byte) (kq : Kept q s) :
    Kept q (State.proofFails s x0) := by
  induction x0 generalizing s with
  | nil => exact kq
  | cons a t ih =>
    unfold State.proofFails
    repeat' (
      first
        | (with_reducible assumption) | (with_reducible apply ih) | lift_lets
        | (intro x; have y : State := x; clear y; revert x; with_reducible apply kept_lift)
        | (intro x; have y : State := x.1; clear y; revert x; with_reducible apply kept_lift_fst)
        | (intro x; have y : State := x.2; clear y; revert x; with_reducible apply kept_lift_snd)
        | (intro x; clear_value x) | (with_reducible apply State.raise_kept) | (with_reducible intro _)
        | (with_reducible apply kept_ite) | split | dsimp only)

theorem execFaultPairProof_kept {q : List Instr} (failed : List Byte) {s : State} {z : State} (kq : Kept q s)
    (hx : execFaultPairProof failed s = .next z) : Kept q z := by
  obtain rfl := Host.Outcome.next.inj hx
  repeat' (
    first
      | (with_reducible assumption) | lift_lets
      | (intro x; have y : State := x; clear y; revert x; with_reducible apply kept_lift)
      | (intro x; have y : State := x.1; clear y; revert x; with_reducible apply kept_lift_fst)
      | (intro x; have y : State := x.2; clear y; revert x; with_reducible apply kept_lift_snd)
      | (intro x; clear_value x) | (with_reducible apply State.proofFails_kept) | simp only [kept_mk, kept_fold]
      | (with_reducible intro _) | (with_reducible apply kept_ite) | split | dsimp only)

theorem State.escalate_kept {q : List Instr} {s : State} (n cls : Nat) (kq : Kept q s) :
    Kept q (State.escalate s n cls) := by
  unfold State.escalate
  repeat' (
    first
      | (with_reducible assumption) | lift_lets
      | (intro x; have y : State := x; clear y; revert x; with_reducible apply kept_lift)
      | (intro x; have y : State := x.1; clear y; revert x; with_reducible apply kept_lift_fst)
      | (intro x; have y : State := x.2; clear y; revert x; with_reducible apply kept_lift_snd)
      | (intro x; clear_value x) | (with_reducible apply State.fltRequest_kept)
      | (with_reducible apply State.put_kept) | (with_reducible apply State.react_kept)
      | (with_reducible apply State.recEvent_kept) | (with_reducible apply State.setFrec_kept)
      | simp only [kept_mk, kept_fold] | (with_reducible intro _) | (with_reducible apply kept_ite) | split
      | dsimp only)

theorem execT1Expiry_kept {q : List Instr} (code : Byte) {s : State} {z : State} (kq : Kept q s)
    (hx : execT1Expiry code s = .next z) : Kept q z := by
  obtain rfl := Host.Outcome.next.inj hx
  repeat' (
    first
      | (with_reducible assumption) | (with_reducible apply State.escalate_kept) | (with_reducible intro _)
      | (with_reducible apply kept_ite) | split | dsimp only)

theorem execT2Expiry_kept {q : List Instr} (code : Byte) {s : State} {z : State} (kq : Kept q s)
    (hx : execT2Expiry code s = .next z) : Kept q z := by
  obtain rfl := Host.Outcome.next.inj hx
  repeat' (
    first
      | (with_reducible assumption) | (with_reducible apply State.escalate_kept) | (with_reducible intro _)
      | (with_reducible apply kept_ite) | split | dsimp only)

theorem State.ack_kept {q : List Instr} {s : State} (n : Nat) (kq : Kept q s) :
    Kept q (State.ack s n) := by
  unfold State.ack
  repeat' (
    first
      | (with_reducible assumption) | lift_lets
      | (intro x; have y : State := x; clear y; revert x; with_reducible apply kept_lift)
      | (intro x; have y : State := x.1; clear y; revert x; with_reducible apply kept_lift_fst)
      | (intro x; have y : State := x.2; clear y; revert x; with_reducible apply kept_lift_snd)
      | (intro x; clear_value x) | (with_reducible apply State.put_kept)
      | (with_reducible apply State.setFrec_kept) | (with_reducible apply State.unlatch_kept)
      | simp only [kept_mk, kept_fold] | (with_reducible intro _) | (with_reducible apply kept_ite) | split
      | dsimp only)

theorem execFltAck_kept {q : List Instr} (i : Initiator) (v : Word) {s : State} {z : State} (kq : Kept q s)
    (hx : execFltAck i v s = .next z) : Kept q z := by
  obtain rfl := Host.Outcome.next.inj hx
  repeat' (
    first
      | (with_reducible assumption) | (with_reducible apply State.ack_kept)
      | (with_reducible apply State.portWrite_kept) | (with_reducible intro _) | split | dsimp only)

theorem State.inject_kept {q : List Instr} {s : State} (i : Initiator) (v : Word) (kq : Kept q s) :
    Kept q (State.inject s i v) := by
  unfold State.inject
  repeat' (
    first
      | (with_reducible assumption) | lift_lets
      | (intro x; have y : State := x; clear y; revert x; with_reducible apply kept_lift)
      | (intro x; have y : State := x.1; clear y; revert x; with_reducible apply kept_lift_fst)
      | (intro x; have y : State := x.2; clear y; revert x; with_reducible apply kept_lift_snd)
      | (intro x; clear_value x) | (with_reducible apply State.put_kept)
      | (with_reducible apply State.raiseI_kept) | (with_reducible apply State.setFrec_kept)
      | simp only [kept_mk, kept_fold] | (with_reducible intro _) | (with_reducible apply kept_ite) | split
      | dsimp only)

theorem execFltInject_kept {q : List Instr} (i : Initiator) (v : Word) {s : State} {z : State} (kq : Kept q s)
    (hx : execFltInject i v s = .next z) : Kept q z := by
  obtain rfl := Host.Outcome.next.inj hx
  repeat' (
    first
      | (with_reducible assumption) | (with_reducible apply State.inject_kept)
      | (with_reducible apply State.portWrite_kept) | (with_reducible intro _) | split | dsimp only)

theorem execInjectionEnd_kept {q : List Instr} {s : State} {z : State} (kq : Kept q s)
    (hx : execInjectionEnd s = .next z) : Kept q z := by
  obtain rfl := Host.Outcome.next.inj hx
  repeat' (
    first
      | (with_reducible assumption) | lift_lets
      | (intro x; have y : State := x; clear y; revert x; with_reducible apply kept_lift)
      | (intro x; have y : State := x.1; clear y; revert x; with_reducible apply kept_lift_fst)
      | (intro x; have y : State := x.2; clear y; revert x; with_reducible apply kept_lift_snd)
      | (intro x; clear_value x) | (with_reducible apply State.inject_kept)
      | (with_reducible apply State.setFrec_kept) | simp only [kept_mk, kept_fold] | (with_reducible intro _)
      | split | dsimp only)

theorem State.firstRel_kept {q : List Instr} {s : State} (v : Word) (kq : Kept q s) :
    Kept q (State.firstRel s v) := by
  unfold State.firstRel
  repeat' (
    first
      | (with_reducible assumption) | (with_reducible apply State.put_kept) | (with_reducible intro _)
      | (with_reducible apply kept_ite) | split | dsimp only)

theorem execFltFirstRel_kept {q : List Instr} (i : Initiator) (v : Word) {s : State} {z : State} (kq : Kept q s)
    (hx : execFltFirstRel i v s = .next z) : Kept q z := by
  obtain rfl := Host.Outcome.next.inj hx
  repeat' (
    first
      | (with_reducible assumption) | (with_reducible apply State.firstRel_kept)
      | (with_reducible apply State.portWrite_kept) | (with_reducible intro _) | split | dsimp only)

theorem execFaultPinFail_kept {q : List Instr} {s : State} {z : State} (kq : Kept q s)
    (hx : execFaultPinFail s = .next z) : Kept q z := by
  obtain rfl := Host.Outcome.next.inj hx
  repeat' (
    first
      | (with_reducible assumption) | lift_lets
      | (intro x; have y : State := x; clear y; revert x; with_reducible apply kept_lift)
      | (intro x; have y : State := x.1; clear y; revert x; with_reducible apply kept_lift_fst)
      | (intro x; have y : State := x.2; clear y; revert x; with_reducible apply kept_lift_snd)
      | (intro x; clear_value x) | (with_reducible apply State.raise_kept) | simp only [kept_mk, kept_fold]
      | (with_reducible intro _) | (with_reducible apply kept_ite) | split | dsimp only)

theorem State.classHit_kept {q : List Instr} {s : State} (n : Nat) (kq : Kept q s) :
    Kept q (State.classHit s n) := by
  unfold State.classHit
  repeat' (
    first
      | (with_reducible assumption) | lift_lets
      | (intro x; have y : State := x; clear y; revert x; with_reducible apply kept_lift)
      | (intro x; have y : State := x.1; clear y; revert x; with_reducible apply kept_lift_fst)
      | (intro x; have y : State := x.2; clear y; revert x; with_reducible apply kept_lift_snd)
      | (intro x; clear_value x) | (with_reducible apply State.raise_kept)
      | (with_reducible apply State.setFrec_kept) | simp only [kept_mk, kept_fold] | (with_reducible intro _)
      | (with_reducible apply kept_ite) | split | dsimp only)

theorem State.classReload_kept {q : List Instr} {s : State} (kq : Kept q s) :
    Kept q (State.classReload s) := by
  unfold State.classReload
  repeat' (
    first
      | (with_reducible assumption) | lift_lets
      | (intro x; have y : State := x; clear y; revert x; with_reducible apply kept_lift)
      | (intro x; have y : State := x.1; clear y; revert x; with_reducible apply kept_lift_fst)
      | (intro x; have y : State := x.2; clear y; revert x; with_reducible apply kept_lift_snd)
      | (intro x; clear_value x) | (with_reducible apply State.applyClass_kept)
      | (with_reducible apply kept_foldl) | simp only [kept_mk, kept_fold] | (with_reducible intro _) | split
      | dsimp only)

theorem State.fltTick_kept {q : List Instr} {s : State} (t : TickIn) (kq : Kept q s) :
    Kept q (State.fltTick s t) := by
  unfold State.fltTick
  repeat' (
    first
      | (with_reducible assumption) | lift_lets
      | (intro x; have y : State := x; clear y; revert x; with_reducible apply kept_lift)
      | (intro x; have y : State := x.1; clear y; revert x; with_reducible apply kept_lift_fst)
      | (intro x; have y : State := x.2; clear y; revert x; with_reducible apply kept_lift_snd)
      | (intro x; clear_value x) | (with_reducible apply State.classHit_kept)
      | (with_reducible apply State.classReload_kept) | (with_reducible apply State.inject_kept)
      | (with_reducible apply kept_foldl) | simp only [kept_mk, kept_fold] | (with_reducible intro _)
      | (with_reducible apply kept_ite) | split | dsimp only)

theorem State.fltWrite_kept {q : List Instr} {s : State} (i : Initiator) (a : Nat) (v : Word) (kq : Kept q s) :
    Kept q (State.fltWrite s i a v) := by
  unfold State.fltWrite
  repeat' (
    first
      | (with_reducible assumption) | (with_reducible apply State.ack_kept)
      | (with_reducible apply State.firstRel_kept) | (with_reducible apply State.inject_kept)
      | (with_reducible apply State.regWrite_kept) | (with_reducible apply State.setReg_kept)
      | (with_reducible intro _) | (with_reducible apply kept_ite) | split | dsimp only)

end Sys2Proof.Machine
end

