-- ==== Sys2Proof/Laws/KeptPower.lean ====
section
/-!
SUPPORT. The operations of Machine/Power.lean keep the queue and the canonical form.
-/

set_option linter.unusedSimpArgs false
set_option linter.unusedTactic false
set_option linter.unreachableTactic false

namespace Sys2Proof.Machine

theorem State.stepGo_kept {q : List Instr} {s : State} (n : Nat) (kq : Kept q s) :
    Kept q (State.stepGo s n) := by
  unfold State.stepGo
  repeat' (
    first
      | (with_reducible assumption) | lift_lets
      | (intro x; have y : State := x; clear y; revert x; with_reducible apply kept_lift)
      | (intro x; have y : State := x.1; clear y; revert x; with_reducible apply kept_lift_fst)
      | (intro x; have y : State := x.2; clear y; revert x; with_reducible apply kept_lift_snd)
      | (intro x; clear_value x) | (with_reducible apply State.put_kept) | simp only [kept_mk, kept_fold]
      | (with_reducible intro _) | split | dsimp only)

theorem State.transition_kept {q : List Instr} {s : State} (t n : Nat) (kq : Kept q s) :
    Kept q (State.transition s t n) := by
  unfold State.transition
  repeat' (
    first
      | (with_reducible assumption) | lift_lets
      | (intro x; have y : State := x; clear y; revert x; with_reducible apply kept_lift)
      | (intro x; have y : State := x.1; clear y; revert x; with_reducible apply kept_lift_fst)
      | (intro x; have y : State := x.2; clear y; revert x; with_reducible apply kept_lift_snd)
      | (intro x; clear_value x) | (with_reducible apply State.put_kept)
      | (with_reducible apply State.stepGo_kept) | simp only [kept_mk, kept_fold] | (with_reducible intro _)
      | split | dsimp only)

theorem State.requestLatch_kept {q : List Instr} {s : State} (t : Nat) (kq : Kept q s) :
    Kept q (State.requestLatch s t) := by
  unfold State.requestLatch
  repeat' (
    first
      | (with_reducible assumption) | (with_reducible apply State.put_kept) | (with_reducible intro _) | split
      | dsimp only)

theorem State.pixUp_kept {q : List Instr} {s : State} (kq : Kept q s) :
    Kept q (State.pixUp s) := by
  unfold State.pixUp
  repeat' (
    first
      | (with_reducible assumption) | lift_lets
      | (intro x; have y : State := x; clear y; revert x; with_reducible apply kept_lift)
      | (intro x; have y : State := x.1; clear y; revert x; with_reducible apply kept_lift_fst)
      | (intro x; have y : State := x.2; clear y; revert x; with_reducible apply kept_lift_snd)
      | (intro x; clear_value x) | (with_reducible apply State.pixPowerUp_kept)
      | (with_reducible apply State.put_kept) | simp only [kept_mk, kept_fold] | (with_reducible intro _)
      | split | dsimp only)

theorem State.litBegin_kept {q : List Instr} {s : State} (t : Nat) (kq : Kept q s) :
    Kept q (State.litBegin s t) := by
  unfold State.litBegin
  repeat' (
    first
      | (with_reducible assumption) | lift_lets
      | (intro x; have y : State := x; clear y; revert x; with_reducible apply kept_lift)
      | (intro x; have y : State := x.1; clear y; revert x; with_reducible apply kept_lift_fst)
      | (intro x; have y : State := x.2; clear y; revert x; with_reducible apply kept_lift_snd)
      | (intro x; clear_value x) | (with_reducible apply State.darkSw_kept)
      | (with_reducible apply State.pixUp_kept) | (with_reducible apply State.transition_kept)
      | simp only [kept_mk, kept_fold] | (with_reducible intro _) | (with_reducible apply kept_ite) | split
      | dsimp only)

theorem State.stopBegin_kept {q : List Instr} {s : State} (t : Nat) (kq : Kept q s) :
    Kept q (State.stopBegin s t) := by
  unfold State.stopBegin
  repeat' (
    first
      | (with_reducible assumption) | (with_reducible apply State.transition_kept) | (with_reducible intro _)
      | split | dsimp only)

theorem State.d1Begin_kept {q : List Instr} {s : State} (kq : Kept q s) :
    Kept q (State.d1Begin s) := by
  unfold State.d1Begin
  repeat' (
    first
      | (with_reducible assumption) | (with_reducible apply State.jobsStop_kept)
      | (with_reducible apply State.stepGo_kept) | (with_reducible intro _) | split | dsimp only)

theorem State.wakeBegin_kept {q : List Instr} {s : State} (source : Nat) (kq : Kept q s) :
    Kept q (State.wakeBegin s source) := by
  unfold State.wakeBegin
  repeat' (
    first
      | (with_reducible assumption) | lift_lets
      | (intro x; have y : State := x; clear y; revert x; with_reducible apply kept_lift)
      | (intro x; have y : State := x.1; clear y; revert x; with_reducible apply kept_lift_fst)
      | (intro x; have y : State := x.2; clear y; revert x; with_reducible apply kept_lift_snd)
      | (intro x; clear_value x) | (with_reducible apply State.inc_kept) | (with_reducible apply State.put_kept)
      | (with_reducible apply State.transition_kept) | simp only [kept_mk, kept_fold] | (with_reducible intro _)
      | split | dsimp only)

theorem State.standbySwitch_kept {q : List Instr} {s : State} (t : Nat) (kq : Kept q s) :
    Kept q (State.standbySwitch s t) := by
  unfold State.standbySwitch
  repeat' (
    first
      | (with_reducible assumption) | (with_reducible apply State.darkSw_kept)
      | (with_reducible apply State.enterState_kept) | (with_reducible apply State.powerResult_kept)
      | (with_reducible intro _) | (with_reducible apply kept_ite) | split | dsimp only)

theorem State.requestStart_kept {q : List Instr} {s : State} (t : Nat) (kq : Kept q s) :
    Kept q (State.requestStart s t) := by
  unfold State.requestStart
  repeat' (
    first
      | (with_reducible assumption) | lift_lets
      | (intro x; have y : State := x; clear y; revert x; with_reducible apply kept_lift)
      | (intro x; have y : State := x.1; clear y; revert x; with_reducible apply kept_lift_fst)
      | (intro x; have y : State := x.2; clear y; revert x; with_reducible apply kept_lift_snd)
      | (intro x; clear_value x) | (with_reducible apply State.d1Begin_kept)
      | (with_reducible apply State.litBegin_kept) | (with_reducible apply State.powerResult_kept)
      | (with_reducible apply State.requestLatch_kept) | (with_reducible apply State.standbySwitch_kept)
      | (with_reducible apply State.stopBegin_kept) | (with_reducible apply State.transition_kept)
      | (with_reducible apply State.wakeBegin_kept) | (with_reducible intro _) | (with_reducible apply kept_ite)
      | split | dsimp only)

theorem State.latchedStart_kept {q : List Instr} {s : State} (kq : Kept q s) :
    Kept q (State.latchedStart s) := by
  unfold State.latchedStart
  repeat' (
    first
      | (with_reducible assumption) | lift_lets
      | (intro x; have y : State := x; clear y; revert x; with_reducible apply kept_lift)
      | (intro x; have y : State := x.1; clear y; revert x; with_reducible apply kept_lift_fst)
      | (intro x; have y : State := x.2; clear y; revert x; with_reducible apply kept_lift_snd)
      | (intro x; clear_value x) | (with_reducible apply State.put_kept)
      | (with_reducible apply State.requestStart_kept) | (with_reducible intro _)
      | (with_reducible apply kept_ite) | split | dsimp only)

theorem State.transitionEnd_kept {q : List Instr} {s : State} (st result : Nat) (kq : Kept q s) :
    Kept q (State.transitionEnd s st result) := by
  unfold State.transitionEnd
  repeat' (
    first
      | (with_reducible assumption) | lift_lets
      | (intro x; have y : State := x; clear y; revert x; with_reducible apply kept_lift)
      | (intro x; have y : State := x.1; clear y; revert x; with_reducible apply kept_lift_fst)
      | (intro x; have y : State := x.2; clear y; revert x; with_reducible apply kept_lift_snd)
      | (intro x; clear_value x) | (with_reducible apply State.enterState_kept)
      | (with_reducible apply State.inc_kept) | (with_reducible apply State.latchedStart_kept)
      | (with_reducible apply State.powerResult_kept) | (with_reducible apply State.put_kept)
      | simp only [kept_mk, kept_fold] | (with_reducible intro _) | (with_reducible apply kept_ite) | split
      | dsimp only)

theorem State.litUndo_kept {q : List Instr} {s : State} (result : Nat) (kq : Kept q s) :
    Kept q (State.litUndo s result) := by
  unfold State.litUndo
  repeat' (
    first
      | (with_reducible assumption) | (with_reducible apply State.darkSwBack_kept)
      | (with_reducible apply State.pixOff_kept) | (with_reducible apply State.rasterStop_kept)
      | (with_reducible apply State.transitionEnd_kept) | (with_reducible intro _) | split | dsimp only)

theorem State.lnkUp_kept {q : List Instr} {s : State} (kq : Kept q s) :
    Kept q (State.lnkUp s) := by
  unfold State.lnkUp
  repeat' (
    first
      | (with_reducible assumption) | (with_reducible apply State.put_kept) | (with_reducible intro _) | split
      | dsimp only)

theorem State.mapsReload_kept {q : List Instr} {s : State} (kq : Kept q s) :
    Kept q (State.mapsReload s) := by
  unfold State.mapsReload
  repeat' (
    first
      | (with_reducible assumption) | (with_reducible apply State.gainLoad_kept)
      | (with_reducible apply State.mapBoot_kept) | (with_reducible apply forUpto_keeps (P := Kept q))
      | (with_reducible intro _) | split | dsimp only)

theorem State.dormantUndo_kept {q : List Instr} {s : State} (n result : Nat) (kq : Kept q s) :
    Kept q (State.dormantUndo s n result) := by
  unfold State.dormantUndo
  repeat' (
    first
      | (with_reducible assumption) | lift_lets
      | (intro x; have y : State := x; clear y; revert x; with_reducible apply kept_lift)
      | (intro x; have y : State := x.1; clear y; revert x; with_reducible apply kept_lift_fst)
      | (intro x; have y : State := x.2; clear y; revert x; with_reducible apply kept_lift_snd)
      | (intro x; clear_value x) | (with_reducible apply State.lnkUp_kept)
      | (with_reducible apply State.mapsReload_kept) | (with_reducible apply State.memByEnable_kept)
      | (with_reducible apply State.rotationGo_kept) | (with_reducible apply State.transitionEnd_kept)
      | (with_reducible intro _) | (with_reducible apply kept_ite) | split | dsimp only)

theorem State.coreUp_kept {q : List Instr} {s : State} (kq : Kept q s) :
    Kept q (State.coreUp s) := by
  unfold State.coreUp
  repeat' (
    first
      | (with_reducible assumption) | (with_reducible apply State.put_kept)
      | (with_reducible apply State.stopTrack_kept) | (with_reducible apply State.thmWake_kept)
      | (with_reducible intro _) | split | dsimp only)

theorem State.reverse_kept {q : List Instr} {s : State} (kq : Kept q s) :
    Kept q (State.reverse s) := by
  unfold State.reverse
  repeat' (
    first
      | (with_reducible assumption) | lift_lets
      | (intro x; have y : State := x; clear y; revert x; with_reducible apply kept_lift)
      | (intro x; have y : State := x.1; clear y; revert x; with_reducible apply kept_lift_fst)
      | (intro x; have y : State := x.2; clear y; revert x; with_reducible apply kept_lift_snd)
      | (intro x; clear_value x) | (with_reducible apply State.litUndo_kept)
      | (with_reducible apply State.put_kept) | (with_reducible apply State.transitionEnd_kept)
      | (with_reducible intro _) | (with_reducible apply kept_ite) | split | dsimp only)

theorem State.entryUndo_kept {q : List Instr} {s : State} (kq : Kept q s) :
    Kept q (State.entryUndo s) := by
  unfold State.entryUndo
  repeat' (
    first
      | (with_reducible assumption) | (with_reducible apply State.put_kept)
      | (with_reducible apply State.reverse_kept) | (with_reducible intro _) | (with_reducible apply kept_ite)
      | split | dsimp only)

theorem State.dormantReverse_kept {q : List Instr} {s : State} (t : Nat) (kq : Kept q s) :
    Kept q (State.dormantReverse s t) := by
  unfold State.dormantReverse
  repeat' (
    first
      | (with_reducible assumption) | (with_reducible apply State.entryUndo_kept)
      | (with_reducible apply State.requestLatch_kept) | (with_reducible apply State.reverse_kept)
      | (with_reducible intro _) | (with_reducible apply kept_ite) | split | dsimp only)

theorem State.requestDuring_kept {q : List Instr} {s : State} (t : Nat) (kq : Kept q s) :
    Kept q (State.requestDuring s t) := by
  unfold State.requestDuring
  repeat' (
    first
      | (with_reducible assumption) | lift_lets
      | (intro x; have y : State := x; clear y; revert x; with_reducible apply kept_lift)
      | (intro x; have y : State := x.1; clear y; revert x; with_reducible apply kept_lift_fst)
      | (intro x; have y : State := x.2; clear y; revert x; with_reducible apply kept_lift_snd)
      | (intro x; clear_value x) | (with_reducible apply State.dormantReverse_kept)
      | (with_reducible apply State.requestLatch_kept) | (with_reducible apply State.reverse_kept)
      | (with_reducible intro _) | (with_reducible apply kept_ite) | split | dsimp only)

theorem State.wakeReverse_kept {q : List Instr} {s : State} (kq : Kept q s) :
    Kept q (State.wakeReverse s) := by
  unfold State.wakeReverse
  repeat' (
    first
      | (with_reducible assumption) | (with_reducible apply State.entryUndo_kept)
      | (with_reducible apply State.requestLatch_kept) | (with_reducible intro _)
      | (with_reducible apply kept_ite) | split | dsimp only)

theorem State.powerRequest_kept {q : List Instr} {s : State} (t : Nat) (kq : Kept q s) :
    Kept q (State.powerRequest s t) := by
  unfold State.powerRequest
  repeat' (
    first
      | (with_reducible assumption) | (with_reducible apply State.powerResult_kept)
      | (with_reducible apply State.requestDuring_kept) | (with_reducible apply State.requestStart_kept)
      | (with_reducible intro _) | (with_reducible apply kept_ite) | split | dsimp only)

theorem State.safCommand_kept {q : List Instr} {s : State} (v : Word) (kq : Kept q s) :
    Kept q (State.safCommand s v) := by
  unfold State.safCommand
  repeat' (
    first
      | (with_reducible assumption) | lift_lets
      | (intro x; have y : State := x; clear y; revert x; with_reducible apply kept_lift)
      | (intro x; have y : State := x.1; clear y; revert x; with_reducible apply kept_lift_fst)
      | (intro x; have y : State := x.2; clear y; revert x; with_reducible apply kept_lift_snd)
      | (intro x; clear_value x) | (with_reducible apply State.powerRequest_kept)
      | (with_reducible apply State.safCmd_kept) | (with_reducible intro _) | (with_reducible apply kept_ite)
      | split | dsimp only)

theorem execDarkSw_kept {q : List Instr} (i : Initiator) (v : Word) {s : State} {z : State} (kq : Kept q s)
    (hx : execDarkSw i v s = .next z) : Kept q z := by
  obtain rfl := Host.Outcome.next.inj hx
  repeat' (
    first
      | (with_reducible assumption) | (with_reducible apply State.portWrite_kept)
      | (with_reducible apply State.safCommand_kept) | (with_reducible intro _) | split | dsimp only)

theorem execFirmwareOasisRequest_kept {q : List Instr} (i : Initiator) (v : Word) {s : State} {z : State} (kq : Kept q s)
    (hx : execFirmwareOasisRequest i v s = .next z) : Kept q z := by
  obtain rfl := Host.Outcome.next.inj hx
  repeat' (
    first
      | (with_reducible assumption) | (with_reducible apply State.portWrite_kept)
      | (with_reducible apply State.safCommand_kept) | (with_reducible intro _) | split | dsimp only)

theorem execPwrReq_kept {q : List Instr} (i : Initiator) (v : Word) {s : State} {z : State} (kq : Kept q s)
    (hx : execPwrReq i v s = .next z) : Kept q z := by
  obtain rfl := Host.Outcome.next.inj hx
  repeat' (
    first
      | (with_reducible assumption) | (with_reducible apply State.portWrite_kept)
      | (with_reducible apply State.powerRequest_kept) | (with_reducible intro _) | split | dsimp only)

theorem State.litEnter_kept {q : List Instr} {s : State} (kq : Kept q s) :
    Kept q (State.litEnter s) := by
  unfold State.litEnter
  repeat' (
    first
      | (with_reducible assumption) | (with_reducible apply State.transitionEnd_kept) | (with_reducible intro _)
      | split | dsimp only)

theorem State.l2Begin_kept {q : List Instr} {s : State} (kq : Kept q s) :
    Kept q (State.l2Begin s) := by
  unfold State.l2Begin
  repeat' (
    first
      | (with_reducible assumption) | lift_lets
      | (intro x; have y : State := x; clear y; revert x; with_reducible apply kept_lift)
      | (intro x; have y : State := x.1; clear y; revert x; with_reducible apply kept_lift_fst)
      | (intro x; have y : State := x.2; clear y; revert x; with_reducible apply kept_lift_snd)
      | (intro x; clear_value x) | (with_reducible apply State.litEnter_kept)
      | (with_reducible apply State.litUndo_kept) | (with_reducible apply State.retime_kept)
      | (with_reducible apply State.stepGo_kept) | (with_reducible intro _) | (with_reducible apply kept_ite)
      | split | dsimp only)

theorem State.l1End_kept {q : List Instr} {s : State} (kq : Kept q s) :
    Kept q (State.l1End s) := by
  unfold State.l1End
  repeat' (
    first
      | (with_reducible assumption) | (with_reducible apply State.l2Begin_kept)
      | (with_reducible apply State.litUndo_kept) | (with_reducible apply State.loadTaps_kept)
      | (with_reducible intro _) | (with_reducible apply kept_ite) | split | dsimp only)

theorem execPixReady_kept {q : List Instr} {s : State} {z : State} (kq : Kept q s)
    (hx : execPixReady s = .next z) : Kept q z := by
  obtain rfl := Host.Outcome.next.inj hx
  repeat' (
    first
      | (with_reducible assumption) | lift_lets
      | (intro x; have y : State := x; clear y; revert x; with_reducible apply kept_lift)
      | (intro x; have y : State := x.1; clear y; revert x; with_reducible apply kept_lift_fst)
      | (intro x; have y : State := x.2; clear y; revert x; with_reducible apply kept_lift_snd)
      | (intro x; clear_value x) | (with_reducible apply State.l1End_kept) | (with_reducible apply State.put_kept)
      | simp only [kept_mk, kept_fold] | (with_reducible intro _) | (with_reducible apply kept_ite) | split
      | dsimp only)

theorem State.latchFails_kept {q : List Instr} {s : State} (y : Nat) (x0 : List Nat) (kq : Kept q s) :
    Kept q (State.latchFails s y x0) := by
  induction x0 generalizing s y with
  | nil => exact kq
  | cons a t ih =>
    unfold State.latchFails
    repeat' (
      first
        | (with_reducible assumption) | (with_reducible apply ih) | lift_lets
        | (intro x; have y : State := x; clear y; revert x; with_reducible apply kept_lift)
        | (intro x; have y : State := x.1; clear y; revert x; with_reducible apply kept_lift_fst)
        | (intro x; have y : State := x.2; clear y; revert x; with_reducible apply kept_lift_snd)
        | (intro x; clear_value x) | (with_reducible apply State.inc_kept)
        | (with_reducible apply State.mapRaise_kept) | (with_reducible apply State.put_kept)
        | (with_reducible apply State.raise_kept) | simp only [kept_mk, kept_fold] | (with_reducible intro _)
        | (with_reducible apply kept_ite) | split | dsimp only)

theorem execLatchTestRow_kept {q : List Instr} (failed : List Nat) {s : State} {z : State} (kq : Kept q s)
    (hx : execLatchTestRow failed s = .next z) : Kept q z := by
  obtain rfl := Host.Outcome.next.inj hx
  repeat' (
    first
      | (with_reducible assumption) | lift_lets
      | (intro x; have y : State := x; clear y; revert x; with_reducible apply kept_lift)
      | (intro x; have y : State := x.1; clear y; revert x; with_reducible apply kept_lift_fst)
      | (intro x; have y : State := x.2; clear y; revert x; with_reducible apply kept_lift_snd)
      | (intro x; clear_value x) | (with_reducible apply State.l1End_kept)
      | (with_reducible apply State.latchFails_kept) | (with_reducible apply State.put_kept)
      | (with_reducible apply State.raise_kept) | simp only [kept_mk, kept_fold] | (with_reducible intro _)
      | (with_reducible apply kept_ite) | split | dsimp only)

theorem execSlaveStartTimeout_kept {q : List Instr} {s : State} {z : State} (kq : Kept q s)
    (hx : execSlaveStartTimeout s = .next z) : Kept q z := by
  obtain rfl := Host.Outcome.next.inj hx
  repeat' (
    first
      | (with_reducible assumption) | (with_reducible apply State.litUndo_kept)
      | (with_reducible apply State.raise_kept) | (with_reducible intro _) | (with_reducible apply kept_ite)
      | split | dsimp only)

theorem execRasterStop_kept {q : List Instr} {s : State} {z : State} (kq : Kept q s)
    (hx : execRasterStop s = .next z) : Kept q z := by
  obtain rfl := Host.Outcome.next.inj hx
  repeat' (
    first
      | (with_reducible assumption) | (with_reducible apply State.pixOff_kept)
      | (with_reducible apply State.rasterStop_kept) | (with_reducible apply State.runTo_kept)
      | (with_reducible apply State.stepGo_kept) | (with_reducible intro _) | (with_reducible apply kept_ite)
      | split | dsimp only)

theorem State.lnkLose_kept {q : List Instr} {s : State} (kq : Kept q s) :
    Kept q (State.lnkLose s) := by
  unfold State.lnkLose
  repeat' (
    first
      | (with_reducible assumption) | (with_reducible apply State.lnkReset_kept)
      | (with_reducible apply State.setReg_kept) | (with_reducible apply kept_foldl) | (with_reducible intro _)
      | split | dsimp only)

theorem State.retain_kept {q : List Instr} {s : State} (kq : Kept q s) :
    Kept q (State.retain s) := by
  unfold State.retain
  repeat' (
    first
      | (with_reducible assumption) | lift_lets
      | (intro x; have y : State := x; clear y; revert x; with_reducible apply kept_lift)
      | (intro x; have y : State := x.1; clear y; revert x; with_reducible apply kept_lift_fst)
      | (intro x; have y : State := x.2; clear y; revert x; with_reducible apply kept_lift_snd)
      | (intro x; clear_value x) | (with_reducible apply State.calIdle_kept)
      | (with_reducible apply State.calShow_kept) | (with_reducible apply State.dropStaged_kept)
      | (with_reducible apply State.lnkLose_kept) | (with_reducible apply State.put_kept)
      | (with_reducible apply State.recOff_kept) | (with_reducible apply State.unitFinish_kept)
      | simp only [kept_mk, kept_fold] | (with_reducible apply kept_noLmem) | (with_reducible intro _) | split
      | dsimp only)

theorem State.d4Begin_kept {q : List Instr} {s : State} (kq : Kept q s) :
    Kept q (State.d4Begin s) := by
  unfold State.d4Begin
  repeat' (
    first
      | (with_reducible assumption) | (with_reducible apply State.jobsStop_kept)
      | (with_reducible apply State.memOff_kept) | (with_reducible apply State.postDrop_kept)
      | (with_reducible apply State.put_kept) | (with_reducible apply State.retain_kept)
      | (with_reducible apply State.stepGo_kept) | (with_reducible intro _) | split | dsimp only)

theorem State.d5Begin_kept {q : List Instr} {s : State} (kq : Kept q s) :
    Kept q (State.d5Begin s) := by
  unfold State.d5Begin
  repeat' (
    first
      | (with_reducible assumption) | (with_reducible apply State.grantGive_kept)
      | (with_reducible apply State.put_kept) | (with_reducible apply State.stepGo_kept)
      | (with_reducible intro _) | split | dsimp only)

theorem State.dStepEnd_kept {q : List Instr} {s : State} (n : Nat) (kq : Kept q s) :
    Kept q (State.dStepEnd s n) := by
  unfold State.dStepEnd
  repeat' (
    first
      | (with_reducible assumption) | lift_lets
      | (intro x; have y : State := x; clear y; revert x; with_reducible apply kept_lift)
      | (intro x; have y : State := x.1; clear y; revert x; with_reducible apply kept_lift_fst)
      | (intro x; have y : State := x.2; clear y; revert x; with_reducible apply kept_lift_snd)
      | (intro x; clear_value x) | (with_reducible apply State.d4Begin_kept)
      | (with_reducible apply State.d5Begin_kept) | (with_reducible apply State.dormantUndo_kept)
      | (with_reducible apply State.lnkOff_kept) | (with_reducible apply State.memOff_kept)
      | (with_reducible apply State.stepGo_kept) | (with_reducible apply State.transitionEnd_kept)
      | simp only [kept_mk, kept_fold] | (with_reducible intro _) | (with_reducible apply kept_ite) | split
      | dsimp only)

theorem execTransitionStepDone_kept {q : List Instr} {s : State} {z : State} (kq : Kept q s)
    (hx : execTransitionStepDone s = .next z) : Kept q z := by
  obtain rfl := Host.Outcome.next.inj hx
  repeat' (
    first
      | (with_reducible assumption) | lift_lets
      | (intro x; have y : State := x; clear y; revert x; with_reducible apply kept_lift)
      | (intro x; have y : State := x.1; clear y; revert x; with_reducible apply kept_lift_fst)
      | (intro x; have y : State := x.2; clear y; revert x; with_reducible apply kept_lift_snd)
      | (intro x; clear_value x) | (with_reducible apply State.d1Begin_kept)
      | (with_reducible apply State.dStepEnd_kept) | (with_reducible apply State.transitionEnd_kept)
      | (with_reducible intro _) | (with_reducible apply kept_ite) | split | dsimp only)

theorem State.stepAbandon_kept {q : List Instr} {s : State} (n : Nat) (kq : Kept q s) :
    Kept q (State.stepAbandon s n) := by
  unfold State.stepAbandon
  repeat' (
    first
      | (with_reducible assumption) | lift_lets
      | (intro x; have y : State := x; clear y; revert x; with_reducible apply kept_lift)
      | (intro x; have y : State := x.1; clear y; revert x; with_reducible apply kept_lift_fst)
      | (intro x; have y : State := x.2; clear y; revert x; with_reducible apply kept_lift_snd)
      | (intro x; clear_value x) | (with_reducible apply State.coreUp_kept)
      | (with_reducible apply State.dormantUndo_kept) | (with_reducible apply State.grantLockWait_kept)
      | (with_reducible apply State.litUndo_kept) | (with_reducible apply State.raise_kept)
      | (with_reducible apply State.recLoad_kept) | (with_reducible apply State.transitionEnd_kept)
      | (with_reducible intro _) | (with_reducible apply kept_ite) | split | dsimp only)

theorem execTransitionStepTimeout_kept {q : List Instr} {s : State} {z : State} (kq : Kept q s)
    (hx : execTransitionStepTimeout s = .next z) : Kept q z := by
  obtain rfl := Host.Outcome.next.inj hx
  repeat' (
    first
      | (with_reducible assumption) | lift_lets
      | (intro x; have y : State := x; clear y; revert x; with_reducible apply kept_lift)
      | (intro x; have y : State := x.1; clear y; revert x; with_reducible apply kept_lift_fst)
      | (intro x; have y : State := x.2; clear y; revert x; with_reducible apply kept_lift_snd)
      | (intro x; clear_value x) | (with_reducible apply State.stepAbandon_kept) | (with_reducible intro _)
      | (with_reducible apply kept_ite) | split | dsimp only)

theorem State.wakeEvent_kept {q : List Instr} {s : State} (source : Nat) (kq : Kept q s) :
    Kept q (State.wakeEvent s source) := by
  unfold State.wakeEvent
  repeat' (
    first
      | (with_reducible assumption) | (with_reducible apply State.wakeBegin_kept)
      | (with_reducible apply State.wakeReverse_kept) | (with_reducible intro _) | (with_reducible apply kept_ite)
      | split | dsimp only)

theorem execWakeEvent_kept {q : List Instr} (source : BitVec 3) {s : State} {z : State} (kq : Kept q s)
    (hx : execWakeEvent source s = .next z) : Kept q z := by
  obtain rfl := Host.Outcome.next.inj hx
  repeat' (
    first
      | (with_reducible assumption) | (with_reducible apply State.wakeEvent_kept) | (with_reducible intro _)
      | split | dsimp only)

theorem State.wakeGo_kept {q : List Instr} {s : State} (n : Nat) (kq : Kept q s) :
    Kept q (State.wakeGo s n) := by
  unfold State.wakeGo
  repeat' (
    first
      | (with_reducible assumption) | lift_lets
      | (intro x; have y : State := x; clear y; revert x; with_reducible apply kept_lift)
      | (intro x; have y : State := x.1; clear y; revert x; with_reducible apply kept_lift_fst)
      | (intro x; have y : State := x.2; clear y; revert x; with_reducible apply kept_lift_snd)
      | (intro x; clear_value x) | (with_reducible apply State.coreUp_kept)
      | (with_reducible apply State.grantLockWait_kept) | (with_reducible apply State.mapsReload_kept)
      | (with_reducible apply State.memByEnable_kept) | (with_reducible apply State.put_kept)
      | (with_reducible apply State.stepGo_kept) | (with_reducible intro _) | (with_reducible apply kept_ite)
      | split | dsimp only)

theorem State.wakeFail_kept {q : List Instr} {s : State} (n : Nat) (kq : Kept q s) :
    Kept q (State.wakeFail s n) := by
  unfold State.wakeFail
  repeat' (
    first
      | (with_reducible assumption) | lift_lets
      | (intro x; have y : State := x; clear y; revert x; with_reducible apply kept_lift)
      | (intro x; have y : State := x.1; clear y; revert x; with_reducible apply kept_lift_fst)
      | (intro x; have y : State := x.2; clear y; revert x; with_reducible apply kept_lift_snd)
      | (intro x; clear_value x) | (with_reducible apply State.bootEnter_kept)
      | (with_reducible apply State.coreReset_kept) | (with_reducible apply State.grantGive_kept)
      | (with_reducible apply State.lnkReset_kept) | (with_reducible apply State.memOff_kept)
      | (with_reducible apply State.put_kept) | (with_reducible apply State.raise_kept)
      | (with_reducible apply State.recOff_kept) | (with_reducible apply State.stepGo_kept)
      | simp only [kept_mk, kept_fold] | (with_reducible intro _) | (with_reducible apply kept_ite) | split
      | dsimp only)

theorem execWakeStepReady_kept {q : List Instr} (retentionOk : Bool) {s : State} {z : State} (kq : Kept q s)
    (hx : execWakeStepReady retentionOk s = .next z) : Kept q z := by
  obtain rfl := Host.Outcome.next.inj hx
  repeat' (
    first
      | (with_reducible assumption) | lift_lets
      | (intro x; have y : State := x; clear y; revert x; with_reducible apply kept_lift)
      | (intro x; have y : State := x.1; clear y; revert x; with_reducible apply kept_lift_fst)
      | (intro x; have y : State := x.2; clear y; revert x; with_reducible apply kept_lift_snd)
      | (intro x; clear_value x) | (with_reducible apply State.lnkUp_kept)
      | (with_reducible apply State.recLoad_kept) | (with_reducible apply State.rotationGo_kept)
      | (with_reducible apply State.transitionEnd_kept) | (with_reducible apply State.wakeFail_kept)
      | (with_reducible apply State.wakeGo_kept) | (with_reducible intro _) | (with_reducible apply kept_ite)
      | split | dsimp only)

theorem execWakeStepTimeout_kept {q : List Instr} {s : State} {z : State} (kq : Kept q s)
    (hx : execWakeStepTimeout s = .next z) : Kept q z := by
  obtain rfl := Host.Outcome.next.inj hx
  repeat' (
    first
      | (with_reducible assumption) | lift_lets
      | (intro x; have y : State := x; clear y; revert x; with_reducible apply kept_lift)
      | (intro x; have y : State := x.1; clear y; revert x; with_reducible apply kept_lift_fst)
      | (intro x; have y : State := x.2; clear y; revert x; with_reducible apply kept_lift_snd)
      | (intro x; clear_value x) | (with_reducible apply State.wakeFail_kept) | (with_reducible intro _)
      | (with_reducible apply kept_ite) | split | dsimp only)

theorem State.railTick_kept {q : List Instr} {s : State} (t : TickIn) (kq : Kept q s) :
    Kept q (State.railTick s t) := by
  unfold State.railTick
  repeat' (
    first
      | (with_reducible assumption) | lift_lets
      | (intro x; have y : State := x; clear y; revert x; with_reducible apply kept_lift)
      | (intro x; have y : State := x.1; clear y; revert x; with_reducible apply kept_lift_fst)
      | (intro x; have y : State := x.2; clear y; revert x; with_reducible apply kept_lift_snd)
      | (intro x; clear_value x) | simp only [kept_mk, kept_fold] | (with_reducible intro _)
      | (with_reducible apply kept_ite) | split | dsimp only)

theorem State.railReport_kept {q : List Instr} {s : State} (run code : Nat) (kq : Kept q s) :
    Kept q (State.railReport s run code) := by
  unfold State.railReport
  repeat' (
    first
      | (with_reducible assumption) | (with_reducible apply State.raise_kept) | (with_reducible intro _)
      | (with_reducible apply kept_ite) | split | dsimp only)

theorem execRailWindowFault_kept {q : List Instr} {s : State} {z : State} (kq : Kept q s)
    (hx : execRailWindowFault s = .next z) : Kept q z := by
  obtain rfl := Host.Outcome.next.inj hx
  repeat' (
    first
      | (with_reducible assumption) | lift_lets
      | (intro x; have y : State := x; clear y; revert x; with_reducible apply kept_lift)
      | (intro x; have y : State := x.1; clear y; revert x; with_reducible apply kept_lift_fst)
      | (intro x; have y : State := x.2; clear y; revert x; with_reducible apply kept_lift_snd)
      | (intro x; clear_value x) | (with_reducible apply State.railReport_kept) | simp only [kept_mk, kept_fold]
      | (with_reducible intro _) | (with_reducible apply kept_ite) | split | dsimp only)

theorem execPllLockLoss_kept {q : List Instr} {s : State} {z : State} (kq : Kept q s)
    (hx : execPllLockLoss s = .next z) : Kept q z := by
  obtain rfl := Host.Outcome.next.inj hx
  repeat' (
    first
      | (with_reducible assumption) | (with_reducible apply State.put_kept)
      | (with_reducible apply State.raise_kept) | (with_reducible intro _) | (with_reducible apply kept_ite)
      | split | dsimp only)

theorem execPllRelock_kept {q : List Instr} {s : State} {z : State} (kq : Kept q s)
    (hx : execPllRelock s = .next z) : Kept q z := by
  obtain rfl := Host.Outcome.next.inj hx
  repeat' (
    first
      | (with_reducible assumption) | (with_reducible apply State.put_kept) | (with_reducible intro _)
      | (with_reducible apply kept_ite) | split | dsimp only)

theorem execVpixLoss_kept {q : List Instr} {s : State} {z : State} (kq : Kept q s)
    (hx : execVpixLoss s = .next z) : Kept q z := by
  obtain rfl := Host.Outcome.next.inj hx
  repeat' (
    first
      | (with_reducible assumption) | lift_lets
      | (intro x; have y : State := x; clear y; revert x; with_reducible apply kept_lift)
      | (intro x; have y : State := x.1; clear y; revert x; with_reducible apply kept_lift_fst)
      | (intro x; have y : State := x.2; clear y; revert x; with_reducible apply kept_lift_snd)
      | (intro x; clear_value x) | (with_reducible apply State.calRasterStop_kept)
      | (with_reducible apply State.put_kept) | simp only [kept_mk, kept_fold] | (with_reducible intro _)
      | (with_reducible apply kept_ite) | split | dsimp only)

theorem execVpixRestored_kept {q : List Instr} {s : State} {z : State} (kq : Kept q s)
    (hx : execVpixRestored s = .next z) : Kept q z := by
  obtain rfl := Host.Outcome.next.inj hx
  repeat' (
    first
      | (with_reducible assumption) | (with_reducible apply State.loadTaps_kept)
      | (with_reducible apply State.pixUp_kept) | (with_reducible intro _) | (with_reducible apply kept_ite)
      | split | dsimp only)

theorem execFreezeRequest_kept {q : List Instr} (high : Bool) {s : State} {z : State} (kq : Kept q s)
    (hx : execFreezeRequest high s = .next z) : Kept q z := by
  obtain rfl := Host.Outcome.next.inj hx
  repeat' (
    first
      | (with_reducible assumption) | lift_lets
      | (intro x; have y : State := x; clear y; revert x; with_reducible apply kept_lift)
      | (intro x; have y : State := x.1; clear y; revert x; with_reducible apply kept_lift_fst)
      | (intro x; have y : State := x.2; clear y; revert x; with_reducible apply kept_lift_snd)
      | (intro x; clear_value x) | (with_reducible apply State.put_kept) | (with_reducible apply State.raise_kept)
      | (with_reducible apply State.rasterStop_kept) | simp only [kept_mk, kept_fold] | (with_reducible intro _)
      | (with_reducible apply kept_ite) | split | dsimp only)

theorem State.pwrTick_kept {q : List Instr} {s : State} (t : TickIn) (kq : Kept q s) :
    Kept q (State.pwrTick s t) := by
  unfold State.pwrTick
  repeat' (
    first
      | (with_reducible assumption) | lift_lets
      | (intro x; have y : State := x; clear y; revert x; with_reducible apply kept_lift)
      | (intro x; have y : State := x.1; clear y; revert x; with_reducible apply kept_lift_fst)
      | (intro x; have y : State := x.2; clear y; revert x; with_reducible apply kept_lift_snd)
      | (intro x; clear_value x) | (with_reducible apply State.railTick_kept) | simp only [kept_mk, kept_fold]
      | (with_reducible intro _) | (with_reducible apply kept_ite) | split | dsimp only)

end Sys2Proof.Machine
end

