-- ==== Sys2Proof/Laws/KeptJobs.lean ====
section
/-!
SUPPORT. The operations of Machine/Jobs.lean keep the queue and the canonical form.
-/

set_option linter.unusedSimpArgs false
set_option linter.unusedTactic false
set_option linter.unreachableTactic false

namespace Sys2Proof.Machine

theorem State.setSuspend_kept {q : List Instr} {s : State} (n : Nat) (on : Bool) (kq : Kept q s) :
    Kept q (State.setSuspend s n on) := by
  unfold State.setSuspend
  repeat' (
    first
      | (with_reducible assumption) | lift_lets
      | (intro x; have y : State := x; clear y; revert x; with_reducible apply kept_lift)
      | (intro x; have y : State := x.1; clear y; revert x; with_reducible apply kept_lift_fst)
      | (intro x; have y : State := x.2; clear y; revert x; with_reducible apply kept_lift_snd)
      | (intro x; clear_value x) | simp only [kept_mk, kept_fold] | (with_reducible intro _)
      | (with_reducible apply kept_ite) | split | dsimp only)

theorem State.cmdIgnored_kept {q : List Instr} {s : State} (n : Nat) (kq : Kept q s) :
    Kept q (State.cmdIgnored s n) := by
  unfold State.cmdIgnored
  repeat' (
    first
      | (with_reducible assumption) | (with_reducible apply State.put_kept) | (with_reducible intro _) | split
      | dsimp only)

theorem State.scanBegin_kept {q : List Instr} {s : State} (kq : Kept q s) :
    Kept q (State.scanBegin s).1 := by
  unfold State.scanBegin
  repeat' (
    first
      | (with_reducible assumption) | (with_reducible apply State.scanEnd_kept)
      | (with_reducible apply State.scanStart_kept) | (with_reducible intro _) | (with_reducible apply kept_ite)
      | (with_reducible apply kept_ite_fst) | (with_reducible apply kept_ite_snd) | split | dsimp only)

theorem State.ownerStart_kept {q : List Instr} {s : State} (t : Nat) (kq : Kept q s) :
    Kept q (State.ownerStart s t).1 := by
  unfold State.ownerStart
  repeat' (
    first
      | (with_reducible assumption) | (with_reducible apply State.bistStart_kept)
      | (with_reducible apply State.calRunStart_kept) | (with_reducible apply State.checkpointStart_kept)
      | (with_reducible apply State.lcStart_kept) | (with_reducible apply State.loadStart_kept)
      | (with_reducible apply State.nvStart_kept) | (with_reducible apply State.rebuildStart_kept)
      | (with_reducible apply State.rsStart_kept) | (with_reducible apply State.scanBegin_kept)
      | (with_reducible intro _) | (with_reducible apply kept_ite) | (with_reducible apply kept_ite_fst)
      | (with_reducible apply kept_ite_snd) | split | dsimp only)

theorem State.startFail_kept {q : List Instr} {s : State} (n reason : Nat) (kq : Kept q s) :
    Kept q (State.startFail s n reason) := by
  unfold State.startFail
  repeat' (
    first
      | (with_reducible assumption) | (with_reducible apply State.jobEnd_kept)
      | (with_reducible apply State.put_kept) | (with_reducible intro _) | split | dsimp only)

theorem State.startNotice_kept {q : List Instr} {s : State} (t : Nat) (kq : Kept q s) :
    Kept q (State.startNotice s t) := by
  unfold State.startNotice
  repeat' (
    first
      | (with_reducible assumption) | (with_reducible apply State.newChallenge_kept)
      | (with_reducible apply State.put_kept) | (with_reducible intro _) | (with_reducible apply kept_ite)
      | split | dsimp only)

theorem State.jobStart_kept {q : List Instr} {s : State} (n t : Nat) (kq : Kept q s) :
    Kept q (State.jobStart s n t) := by
  unfold State.jobStart
  repeat' (
    first
      | (with_reducible assumption) | lift_lets
      | (intro x; have y : State := x; clear y; revert x; with_reducible apply kept_lift)
      | (intro x; have y : State := x.1; clear y; revert x; with_reducible apply kept_lift_fst)
      | (intro x; have y : State := x.2; clear y; revert x; with_reducible apply kept_lift_snd)
      | (intro x; clear_value x) | (with_reducible apply State.ownerStart_kept)
      | (with_reducible apply State.put_kept) | (with_reducible apply State.setSuspend_kept)
      | (with_reducible apply State.startFail_kept) | (with_reducible apply State.startNotice_kept)
      | (with_reducible intro _) | (with_reducible apply kept_ite) | split | dsimp only)

theorem State.jobSuspend_kept {q : List Instr} {s : State} (n : Nat) (kq : Kept q s) :
    Kept q (State.jobSuspend s n) := by
  unfold State.jobSuspend
  repeat' (
    first
      | (with_reducible assumption) | lift_lets
      | (intro x; have y : State := x; clear y; revert x; with_reducible apply kept_lift)
      | (intro x; have y : State := x.1; clear y; revert x; with_reducible apply kept_lift_fst)
      | (intro x; have y : State := x.2; clear y; revert x; with_reducible apply kept_lift_snd)
      | (intro x; clear_value x) | (with_reducible apply State.cmdIgnored_kept)
      | (with_reducible apply State.setSuspend_kept) | (with_reducible intro _) | (with_reducible apply kept_ite)
      | split | dsimp only)

theorem State.jobResume_kept {q : List Instr} {s : State} (n : Nat) (kq : Kept q s) :
    Kept q (State.jobResume s n) := by
  unfold State.jobResume
  repeat' (
    first
      | (with_reducible assumption) | lift_lets
      | (intro x; have y : State := x; clear y; revert x; with_reducible apply kept_lift)
      | (intro x; have y : State := x.1; clear y; revert x; with_reducible apply kept_lift_fst)
      | (intro x; have y : State := x.2; clear y; revert x; with_reducible apply kept_lift_snd)
      | (intro x; clear_value x) | (with_reducible apply State.calResume_kept)
      | (with_reducible apply State.put_kept) | (with_reducible apply State.rotateCheck_kept)
      | (with_reducible apply State.rotationGo_kept) | (with_reducible intro _) | (with_reducible apply kept_ite)
      | split | dsimp only)

theorem State.jobCommand_kept {q : List Instr} {s : State} (n cmd t : Nat) (kq : Kept q s) :
    Kept q (State.jobCommand s n cmd t) := by
  unfold State.jobCommand
  repeat' (
    first
      | (with_reducible assumption) | (with_reducible apply State.cmdIgnored_kept)
      | (with_reducible apply State.jobResume_kept) | (with_reducible apply State.jobStart_kept)
      | (with_reducible apply State.jobStop_kept) | (with_reducible apply State.jobSuspend_kept)
      | (with_reducible apply State.setSuspend_kept) | (with_reducible intro _) | (with_reducible apply kept_ite)
      | split | dsimp only)

theorem State.jobCmdWrite_kept {q : List Instr} {s : State} (n : Nat) (v : Word) (kq : Kept q s) :
    Kept q (State.jobCmdWrite s n v) := by
  unfold State.jobCmdWrite
  repeat' (
    first
      | (with_reducible assumption) | (with_reducible apply State.jobCommand_kept) | (with_reducible intro _)
      | split | dsimp only)

theorem State.jobPort_kept {q : List Instr} {s : State} (i : Initiator) (n : BitVec 2) (cmd t : Nat) (kq : Kept q s) :
    Kept q (State.jobPort s i n cmd t) := by
  unfold State.jobPort
  repeat' (
    first
      | (with_reducible assumption) | (with_reducible apply State.jobCommand_kept)
      | (with_reducible apply State.portWrite_kept) | (with_reducible intro _) | split | dsimp only)

theorem execStartJob_kept {q : List Instr} (i : Initiator) (n : BitVec 2) (t : BitVec 4) {s : State} {z : State} (kq : Kept q s)
    (hx : execStartJob i n t s = .next z) : Kept q z := by
  obtain rfl := Host.Outcome.next.inj hx
  repeat' (
    first
      | (with_reducible assumption) | (with_reducible apply State.jobPort_kept) | (with_reducible intro _)
      | split | dsimp only)

theorem execMemScan_kept {q : List Instr} (i : Initiator) (n : BitVec 2) {s : State} {z : State} (kq : Kept q s)
    (hx : execMemScan i n s = .next z) : Kept q z := by
  obtain rfl := Host.Outcome.next.inj hx
  repeat' (
    first
      | (with_reducible assumption) | (with_reducible apply State.jobPort_kept) | (with_reducible intro _)
      | split | dsimp only)

theorem execNvmWrite_kept {q : List Instr} (i : Initiator) (n : BitVec 2) {s : State} {z : State} (kq : Kept q s)
    (hx : execNvmWrite i n s = .next z) : Kept q z := by
  obtain rfl := Host.Outcome.next.inj hx
  repeat' (
    first
      | (with_reducible assumption) | (with_reducible apply State.jobPort_kept) | (with_reducible intro _)
      | split | dsimp only)

theorem execBistRun_kept {q : List Instr} (i : Initiator) (n : BitVec 2) {s : State} {z : State} (kq : Kept q s)
    (hx : execBistRun i n s = .next z) : Kept q z := by
  obtain rfl := Host.Outcome.next.inj hx
  repeat' (
    first
      | (with_reducible assumption) | (with_reducible apply State.jobPort_kept) | (with_reducible intro _)
      | split | dsimp only)

theorem execCalRun_kept {q : List Instr} (i : Initiator) (n : BitVec 2) {s : State} {z : State} (kq : Kept q s)
    (hx : execCalRun i n s = .next z) : Kept q z := by
  obtain rfl := Host.Outcome.next.inj hx
  repeat' (
    first
      | (with_reducible assumption) | (with_reducible apply State.jobPort_kept) | (with_reducible intro _)
      | split | dsimp only)

theorem execImageLoad_kept {q : List Instr} (i : Initiator) (n : BitVec 2) {s : State} {z : State} (kq : Kept q s)
    (hx : execImageLoad i n s = .next z) : Kept q z := by
  obtain rfl := Host.Outcome.next.inj hx
  repeat' (
    first
      | (with_reducible assumption) | (with_reducible apply State.jobPort_kept) | (with_reducible intro _)
      | split | dsimp only)

theorem execRestructure_kept {q : List Instr} (i : Initiator) (n : BitVec 2) {s : State} {z : State} (kq : Kept q s)
    (hx : execRestructure i n s = .next z) : Kept q z := by
  obtain rfl := Host.Outcome.next.inj hx
  repeat' (
    first
      | (with_reducible assumption) | (with_reducible apply State.jobPort_kept) | (with_reducible intro _)
      | split | dsimp only)

theorem execDefectRebuild_kept {q : List Instr} (i : Initiator) (n : BitVec 2) {s : State} {z : State} (kq : Kept q s)
    (hx : execDefectRebuild i n s = .next z) : Kept q z := by
  obtain rfl := Host.Outcome.next.inj hx
  repeat' (
    first
      | (with_reducible assumption) | (with_reducible apply State.jobPort_kept) | (with_reducible intro _)
      | split | dsimp only)

theorem execLifecycle_kept {q : List Instr} (i : Initiator) (n : BitVec 2) {s : State} {z : State} (kq : Kept q s)
    (hx : execLifecycle i n s = .next z) : Kept q z := by
  obtain rfl := Host.Outcome.next.inj hx
  repeat' (
    first
      | (with_reducible assumption) | (with_reducible apply State.jobPort_kept) | (with_reducible intro _)
      | split | dsimp only)

theorem execRecCheckpoint_kept {q : List Instr} (i : Initiator) (n : BitVec 2) {s : State} {z : State} (kq : Kept q s)
    (hx : execRecCheckpoint i n s = .next z) : Kept q z := by
  obtain rfl := Host.Outcome.next.inj hx
  repeat' (
    first
      | (with_reducible assumption) | (with_reducible apply State.jobPort_kept) | (with_reducible intro _)
      | split | dsimp only)

theorem execSuspendJob_kept {q : List Instr} (i : Initiator) (n : BitVec 2) {s : State} {z : State} (kq : Kept q s)
    (hx : execSuspendJob i n s = .next z) : Kept q z := by
  obtain rfl := Host.Outcome.next.inj hx
  repeat' (
    first
      | (with_reducible assumption) | (with_reducible apply State.jobPort_kept) | (with_reducible intro _)
      | split | dsimp only)

theorem execResumeJob_kept {q : List Instr} (i : Initiator) (n : BitVec 2) {s : State} {z : State} (kq : Kept q s)
    (hx : execResumeJob i n s = .next z) : Kept q z := by
  obtain rfl := Host.Outcome.next.inj hx
  repeat' (
    first
      | (with_reducible assumption) | (with_reducible apply State.jobPort_kept) | (with_reducible intro _)
      | split | dsimp only)

theorem execCancelJob_kept {q : List Instr} (i : Initiator) (n : BitVec 2) {s : State} {z : State} (kq : Kept q s)
    (hx : execCancelJob i n s = .next z) : Kept q z := by
  obtain rfl := Host.Outcome.next.inj hx
  repeat' (
    first
      | (with_reducible assumption) | (with_reducible apply State.jobPort_kept) | (with_reducible intro _)
      | split | dsimp only)

theorem State.suspendWork_kept {q : List Instr} {s : State} (t pos : Nat) (kq : Kept q s) :
    Kept q (State.suspendWork s t pos) := by
  unfold State.suspendWork
  repeat' (
    first
      | (with_reducible assumption) | lift_lets
      | (intro x; have y : State := x; clear y; revert x; with_reducible apply kept_lift)
      | (intro x; have y : State := x.1; clear y; revert x; with_reducible apply kept_lift_fst)
      | (intro x; have y : State := x.2; clear y; revert x; with_reducible apply kept_lift_snd)
      | (intro x; clear_value x) | (with_reducible apply State.calSuspend_kept)
      | (with_reducible apply State.nomadRest_kept) | (with_reducible apply State.scanTo_kept)
      | simp only [kept_mk, kept_fold] | (with_reducible intro _) | (with_reducible apply kept_ite) | split
      | dsimp only)

theorem execJobSuspended_kept {q : List Instr} (n : BitVec 2) (pos : Nat) {s : State} {z : State} (kq : Kept q s)
    (hx : execJobSuspended n pos s = .next z) : Kept q z := by
  obtain rfl := Host.Outcome.next.inj hx
  repeat' (
    first
      | (with_reducible assumption) | lift_lets
      | (intro x; have y : State := x; clear y; revert x; with_reducible apply kept_lift)
      | (intro x; have y : State := x.1; clear y; revert x; with_reducible apply kept_lift_fst)
      | (intro x; have y : State := x.2; clear y; revert x; with_reducible apply kept_lift_snd)
      | (intro x; clear_value x) | (with_reducible apply State.put_kept)
      | (with_reducible apply State.setSuspend_kept) | (with_reducible apply State.suspendWork_kept)
      | (with_reducible intro _) | (with_reducible apply kept_ite) | split | dsimp only)

end Sys2Proof.Machine
end

