-- ==== Sys2Proof/Laws/KeptCaravan.lean ====
section
/-!
SUPPORT. The operations of Machine/Caravan.lean keep the queue and the canonical form.
-/

set_option linter.unusedSimpArgs false
set_option linter.unusedTactic false
set_option linter.unreachableTactic false

namespace Sys2Proof.Machine

theorem State.ringMark_kept {q : List Instr} {s : State} (kq : Kept q s) :
    Kept q (State.ringMark s) := by
  unfold State.ringMark
  repeat' (
    first
      | (with_reducible assumption) | lift_lets
      | (intro x; have y : State := x; clear y; revert x; with_reducible apply kept_lift)
      | (intro x; have y : State := x.1; clear y; revert x; with_reducible apply kept_lift_fst)
      | (intro x; have y : State := x.2; clear y; revert x; with_reducible apply kept_lift_snd)
      | (intro x; clear_value x) | simp only [kept_mk, kept_fold] | (with_reducible intro _)
      | (with_reducible apply kept_ite) | split | dsimp only)

theorem State.epochSend_kept {q : List Instr} {s : State} (kq : Kept q s) :
    Kept q (State.epochSend s) := by
  unfold State.epochSend
  repeat' (
    first
      | (with_reducible assumption) | lift_lets
      | (intro x; have y : State := x; clear y; revert x; with_reducible apply kept_lift)
      | (intro x; have y : State := x.1; clear y; revert x; with_reducible apply kept_lift_fst)
      | (intro x; have y : State := x.2; clear y; revert x; with_reducible apply kept_lift_snd)
      | (intro x; clear_value x) | (with_reducible apply State.epoch_kept) | (with_reducible apply State.put_kept)
      | (with_reducible apply State.putB_kept) | (with_reducible apply State.ringMark_kept)
      | simp only [kept_mk, kept_fold] | (with_reducible intro _) | (with_reducible apply kept_ite) | split
      | dsimp only)

theorem execEnumFrameSend_kept {q : List Instr} {s : State} {z : State} (kq : Kept q s)
    (hx : execEnumFrameSend s = .next z) : Kept q z := by
  obtain rfl := Host.Outcome.next.inj hx
  repeat' (
    first
      | (with_reducible assumption) | lift_lets
      | (intro x; have y : State := x; clear y; revert x; with_reducible apply kept_lift)
      | (intro x; have y : State := x.1; clear y; revert x; with_reducible apply kept_lift_fst)
      | (intro x; have y : State := x.2; clear y; revert x; with_reducible apply kept_lift_snd)
      | (intro x; clear_value x) | (with_reducible apply State.put_kept) | (with_reducible apply State.putB_kept)
      | simp only [kept_mk, kept_fold] | (with_reducible intro _) | (with_reducible apply kept_ite) | split
      | dsimp only)

theorem State.cvnCtrlWrite_kept {q : List Instr} {s : State} (v : Word) (kq : Kept q s) :
    Kept q (State.cvnCtrlWrite s v) := by
  unfold State.cvnCtrlWrite
  repeat' (
    first
      | (with_reducible assumption) | lift_lets
      | (intro x; have y : State := x; clear y; revert x; with_reducible apply kept_lift)
      | (intro x; have y : State := x.1; clear y; revert x; with_reducible apply kept_lift_fst)
      | (intro x; have y : State := x.2; clear y; revert x; with_reducible apply kept_lift_snd)
      | (intro x; clear_value x) | (with_reducible apply State.enumAsk_kept)
      | (with_reducible apply State.masterPosition_kept) | (with_reducible apply State.regWrite_kept)
      | (with_reducible intro _) | (with_reducible apply kept_ite) | split | dsimp only)

theorem execEnumRequest_kept {q : List Instr} (i : Initiator) (en : Bool) {s : State} {z : State} (kq : Kept q s)
    (hx : execEnumRequest i en s = .next z) : Kept q z := by
  obtain rfl := Host.Outcome.next.inj hx
  repeat' (
    first
      | (with_reducible assumption) | (with_reducible apply State.cvnCtrlWrite_kept)
      | (with_reducible apply State.portWrite_kept) | (with_reducible intro _) | split | dsimp only)

theorem State.cvnCode_kept {q : List Instr} {s : State} (n addr : Nat) (kq : Kept q s) :
    Kept q (State.cvnCode s n addr) := by
  unfold State.cvnCode
  repeat' (
    first
      | (with_reducible assumption) | (with_reducible apply State.incBy_kept)
      | (with_reducible apply State.raise_kept) | (with_reducible intro _) | (with_reducible apply kept_ite)
      | split | dsimp only)

theorem State.cvnLater_kept {q : List Instr} {s : State} (n : Nat) (kq : Kept q s) :
    Kept q (State.cvnLater s n) := by
  unfold State.cvnLater
  repeat' (
    first
      | (with_reducible assumption) | lift_lets
      | (intro x; have y : State := x; clear y; revert x; with_reducible apply kept_lift)
      | (intro x; have y : State := x.1; clear y; revert x; with_reducible apply kept_lift_fst)
      | (intro x; have y : State := x.2; clear y; revert x; with_reducible apply kept_lift_snd)
      | (intro x; clear_value x) | (with_reducible apply State.incBy_kept)
      | (with_reducible apply State.raise_kept) | simp only [kept_mk, kept_fold] | (with_reducible intro _)
      | (with_reducible apply kept_ite) | split | dsimp only)

theorem State.cvnTick_kept {q : List Instr} {s : State} (t : TickIn) (kq : Kept q s) :
    Kept q (State.cvnTick s t) := by
  unfold State.cvnTick
  repeat' (
    first
      | (with_reducible assumption) | (with_reducible apply State.cvnLater_kept)
      | (with_reducible apply State.incBy_kept) | (with_reducible intro _) | (with_reducible apply kept_ite)
      | split | dsimp only)

theorem State.takePosition_kept {q : List Instr} {s : State} (p : Nat) (kq : Kept q s) :
    Kept q (State.takePosition s p) := by
  unfold State.takePosition
  repeat' (
    first
      | (with_reducible assumption) | lift_lets
      | (intro x; have y : State := x; clear y; revert x; with_reducible apply kept_lift)
      | (intro x; have y : State := x.1; clear y; revert x; with_reducible apply kept_lift_fst)
      | (intro x; have y : State := x.2; clear y; revert x; with_reducible apply kept_lift_snd)
      | (intro x; clear_value x) | (with_reducible apply State.irq_kept) | (with_reducible apply State.put_kept)
      | (with_reducible intro _) | (with_reducible apply kept_ite) | split | dsimp only)

theorem execEnumFrameReceived_kept {q : List Instr} (id : Byte) (good : Bool) (codeErrors fills : Nat) (token : Bool) {s : State} {z : State} (kq : Kept q s)
    (hx : execEnumFrameReceived id good codeErrors fills token s = .next z) : Kept q z := by
  obtain rfl := Host.Outcome.next.inj hx
  repeat' (
    first
      | (with_reducible assumption) | lift_lets
      | (intro x; have y : State := x; clear y; revert x; with_reducible apply kept_lift)
      | (intro x; have y : State := x.1; clear y; revert x; with_reducible apply kept_lift_fst)
      | (intro x; have y : State := x.2; clear y; revert x; with_reducible apply kept_lift_snd)
      | (intro x; clear_value x) | (with_reducible apply State.codeErrors_kept)
      | (with_reducible apply State.cvnCode_kept) | (with_reducible apply State.put_kept)
      | (with_reducible apply State.raise_kept) | (with_reducible apply State.takePosition_kept)
      | (with_reducible intro _) | (with_reducible apply kept_ite) | split | dsimp only)

theorem State.shareWrite_kept {q : List Instr} {s : State} (bytes : List Byte) (kq : Kept q s) :
    Kept q (State.shareWrite s bytes) := by
  unfold State.shareWrite
  repeat' (
    first
      | (with_reducible assumption) | (with_reducible apply State.setReg_kept)
      | (with_reducible apply forUpto_keeps (P := Kept q)) | (with_reducible intro _) | split | dsimp only)

theorem execShareReceived_kept {q : List Instr} (bytes : List Byte) (read : ShareRead) {s : State} {z : State} (kq : Kept q s)
    (hx : execShareReceived bytes read s = .next z) : Kept q z := by
  obtain rfl := Host.Outcome.next.inj hx
  repeat' (
    first
      | (with_reducible assumption) | lift_lets
      | (intro x; have y : State := x; clear y; revert x; with_reducible apply kept_lift)
      | (intro x; have y : State := x.1; clear y; revert x; with_reducible apply kept_lift_fst)
      | (intro x; have y : State := x.2; clear y; revert x; with_reducible apply kept_lift_snd)
      | (intro x; clear_value x) | (with_reducible apply State.codeErrors_kept)
      | (with_reducible apply State.cvnLater_kept) | (with_reducible apply State.inc_kept)
      | (with_reducible apply State.irq_kept) | (with_reducible apply State.shareWrite_kept)
      | simp only [kept_mk, kept_fold] | (with_reducible intro _) | (with_reducible apply kept_ite) | split
      | dsimp only)

theorem execShareDimWrite_kept {q : List Instr} {s : State} {z : State} (kq : Kept q s)
    (hx : execShareDimWrite s = .next z) : Kept q z := by
  obtain rfl := Host.Outcome.next.inj hx
  repeat' (
    first
      | (with_reducible assumption) | lift_lets
      | (intro x; have y : State := x; clear y; revert x; with_reducible apply kept_lift)
      | (intro x; have y : State := x.1; clear y; revert x; with_reducible apply kept_lift_fst)
      | (intro x; have y : State := x.2; clear y; revert x; with_reducible apply kept_lift_snd)
      | (intro x; clear_value x) | (with_reducible apply State.putSh_kept) | simp only [kept_mk, kept_fold]
      | (with_reducible intro _) | (with_reducible apply kept_ite) | split | dsimp only)

theorem State.ringPair_kept {q : List Instr} {s : State} (f : Field) (p : BitVec 2) (kq : Kept q s) :
    Kept q (State.ringPair s f p) := by
  unfold State.ringPair
  repeat' (
    first
      | (with_reducible assumption) | lift_lets
      | (intro x; have y : State := x; clear y; revert x; with_reducible apply kept_lift)
      | (intro x; have y : State := x.1; clear y; revert x; with_reducible apply kept_lift_fst)
      | (intro x; have y : State := x.2; clear y; revert x; with_reducible apply kept_lift_snd)
      | (intro x; clear_value x) | (with_reducible apply State.putB_kept)
      | (with_reducible apply State.raise_kept) | simp only [kept_mk, kept_fold] | (with_reducible intro _)
      | split | dsimp only)

theorem State.chainThrottle_kept {q : List Instr} {s : State} (thr : Bool) (kq : Kept q s) :
    Kept q (State.chainThrottle s thr) := by
  unfold State.chainThrottle
  repeat' (
    first
      | (with_reducible assumption) | lift_lets
      | (intro x; have y : State := x; clear y; revert x; with_reducible apply kept_lift)
      | (intro x; have y : State := x.1; clear y; revert x; with_reducible apply kept_lift_fst)
      | (intro x; have y : State := x.2; clear y; revert x; with_reducible apply kept_lift_snd)
      | (intro x; clear_value x) | simp only [kept_mk, kept_fold] | (with_reducible intro _) | split
      | dsimp only)

theorem State.noposAnswer_kept {q : List Instr} {s : State} (kq : Kept q s) :
    Kept q (State.noposAnswer s) := by
  unfold State.noposAnswer
  repeat' (
    first
      | (with_reducible assumption) | lift_lets
      | (intro x; have y : State := x; clear y; revert x; with_reducible apply kept_lift)
      | (intro x; have y : State := x.1; clear y; revert x; with_reducible apply kept_lift_fst)
      | (intro x; have y : State := x.2; clear y; revert x; with_reducible apply kept_lift_snd)
      | (intro x; clear_value x) | (with_reducible apply State.enumAsk_kept) | simp only [kept_mk, kept_fold]
      | (with_reducible intro _) | (with_reducible apply kept_ite) | split | dsimp only)

theorem State.ringPairs_kept {q : List Instr} {s : State} (r : RingFrame) (kq : Kept q s) :
    Kept q (State.ringPairs s r) := by
  unfold State.ringPairs
  repeat' (
    first
      | (with_reducible assumption) | lift_lets
      | (intro x; have y : State := x; clear y; revert x; with_reducible apply kept_lift)
      | (intro x; have y : State := x.1; clear y; revert x; with_reducible apply kept_lift_fst)
      | (intro x; have y : State := x.2; clear y; revert x; with_reducible apply kept_lift_snd)
      | (intro x; clear_value x) | (with_reducible apply State.chainThrottle_kept)
      | (with_reducible apply State.noposAnswer_kept) | (with_reducible apply State.raise_kept)
      | (with_reducible apply State.ringPair_kept) | simp only [kept_mk, kept_fold] | (with_reducible intro _)
      | (with_reducible apply kept_ite) | split | dsimp only)

theorem State.ringEnum_kept {q : List Instr} {s : State} (r : RingFrame) (kq : Kept q s) :
    Kept q (State.ringEnum s r) := by
  unfold State.ringEnum
  repeat' (
    first
      | (with_reducible assumption) | lift_lets
      | (intro x; have y : State := x; clear y; revert x; with_reducible apply kept_lift)
      | (intro x; have y : State := x.1; clear y; revert x; with_reducible apply kept_lift_fst)
      | (intro x; have y : State := x.2; clear y; revert x; with_reducible apply kept_lift_snd)
      | (intro x; clear_value x) | (with_reducible apply State.put_kept) | (with_reducible apply State.raise_kept)
      | simp only [kept_mk, kept_fold] | (with_reducible intro _) | (with_reducible apply kept_ite) | split
      | dsimp only)

theorem execMasterFrameReceived_kept {q : List Instr} (r : RingFrame) {s : State} {z : State} (kq : Kept q s)
    (hx : execMasterFrameReceived r s = .next z) : Kept q z := by
  obtain rfl := Host.Outcome.next.inj hx
  repeat' (
    first
      | (with_reducible assumption) | lift_lets
      | (intro x; have y : State := x; clear y; revert x; with_reducible apply kept_lift)
      | (intro x; have y : State := x.1; clear y; revert x; with_reducible apply kept_lift_fst)
      | (intro x; have y : State := x.2; clear y; revert x; with_reducible apply kept_lift_snd)
      | (intro x; clear_value x) | (with_reducible apply State.codeErrors_kept)
      | (with_reducible apply State.cvnCode_kept) | (with_reducible apply State.put_kept)
      | (with_reducible apply State.raise_kept) | (with_reducible apply State.ringEnum_kept)
      | (with_reducible apply State.ringPairs_kept) | simp only [kept_mk, kept_fold] | (with_reducible intro _)
      | (with_reducible apply kept_ite) | split | dsimp only)

theorem execRingReturnTimeout_kept {q : List Instr} {s : State} {z : State} (kq : Kept q s)
    (hx : execRingReturnTimeout s = .next z) : Kept q z := by
  obtain rfl := Host.Outcome.next.inj hx
  repeat' (
    first
      | (with_reducible assumption) | lift_lets
      | (intro x; have y : State := x; clear y; revert x; with_reducible apply kept_lift)
      | (intro x; have y : State := x.1; clear y; revert x; with_reducible apply kept_lift_fst)
      | (intro x; have y : State := x.2; clear y; revert x; with_reducible apply kept_lift_snd)
      | (intro x; clear_value x) | (with_reducible apply State.put_kept) | (with_reducible apply State.raise_kept)
      | simp only [kept_mk, kept_fold] | (with_reducible intro _) | (with_reducible apply kept_ite) | split
      | dsimp only)

theorem State.shareInc_kept {q : List Instr} {s : State} (kq : Kept q s) :
    Kept q (State.shareInc s) := by
  unfold State.shareInc
  repeat' (
    first
      | (with_reducible assumption) | (with_reducible apply State.put_kept) | (with_reducible intro _)
      | (with_reducible apply kept_ite) | split | dsimp only)

theorem State.shDataRead_kept {q : List Instr} {s : State} (kq : Kept q s) :
    Kept q (State.shDataRead s).2 := by
  unfold State.shDataRead
  repeat' (
    first
      | (with_reducible assumption) | (with_reducible apply State.shareInc_kept) | (with_reducible intro _)
      | (with_reducible apply kept_ite) | (with_reducible apply kept_ite_fst)
      | (with_reducible apply kept_ite_snd) | split | dsimp only)

theorem State.shDataWrite_kept {q : List Instr} {s : State} (v : Word) (kq : Kept q s) :
    Kept q (State.shDataWrite s v) := by
  unfold State.shDataWrite
  repeat' (
    first
      | (with_reducible assumption) | lift_lets
      | (intro x; have y : State := x; clear y; revert x; with_reducible apply kept_lift)
      | (intro x; have y : State := x.1; clear y; revert x; with_reducible apply kept_lift_fst)
      | (intro x; have y : State := x.2; clear y; revert x; with_reducible apply kept_lift_snd)
      | (intro x; clear_value x) | (with_reducible apply State.shareInc_kept) | simp only [kept_mk, kept_fold]
      | (with_reducible intro _) | (with_reducible apply kept_ite) | split | dsimp only)

theorem execCvnShDataAccess_kept {q : List Instr} (i : Initiator) (write : Option Word) {s : State} {z : State} (kq : Kept q s)
    (hx : execCvnShDataAccess i write s = .next z) : Kept q z := by
  obtain rfl := Host.Outcome.next.inj hx
  repeat' (
    first
      | (with_reducible assumption) | lift_lets
      | (intro x; have y : State := x; clear y; revert x; with_reducible apply kept_lift)
      | (intro x; have y : State := x.1; clear y; revert x; with_reducible apply kept_lift_fst)
      | (intro x; have y : State := x.2; clear y; revert x; with_reducible apply kept_lift_snd)
      | (intro x; clear_value x) | (with_reducible apply State.portRead_kept)
      | (with_reducible apply State.portWrite_kept) | (with_reducible apply State.shDataRead_kept)
      | (with_reducible apply State.shDataWrite_kept) | simp only [kept_mk, kept_fold] | (with_reducible intro _)
      | split | dsimp only)

end Sys2Proof.Machine
end

