-- ==== Sys2Proof/Laws/KeptRaster.lean ====
section
/-!
SUPPORT. The operations of Machine/Raster.lean keep the queue and the canonical form.
-/

set_option linter.unusedSimpArgs false
set_option linter.unusedTactic false
set_option linter.unreachableTactic false

namespace Sys2Proof.Machine

theorem State.lineFresh_kept {q : List Instr} {s : State} (kq : Kept q s) :
    Kept q (State.lineFresh s) := by
  unfold State.lineFresh
  repeat' (
    first
      | (with_reducible assumption) | lift_lets
      | (intro x; have y : State := x; clear y; revert x; with_reducible apply kept_lift)
      | (intro x; have y : State := x.1; clear y; revert x; with_reducible apply kept_lift_fst)
      | (intro x; have y : State := x.2; clear y; revert x; with_reducible apply kept_lift_snd)
      | (intro x; clear_value x) | simp only [kept_mk, kept_fold] | (with_reducible intro _) | split
      | dsimp only)

theorem State.lineOver_kept {q : List Instr} {s : State} (kq : Kept q s) :
    Kept q (State.lineOver s) := by
  unfold State.lineOver
  repeat' (
    first
      | (with_reducible assumption) | lift_lets
      | (intro x; have y : State := x; clear y; revert x; with_reducible apply kept_lift)
      | (intro x; have y : State := x.1; clear y; revert x; with_reducible apply kept_lift_fst)
      | (intro x; have y : State := x.2; clear y; revert x; with_reducible apply kept_lift_snd)
      | (intro x; clear_value x) | (with_reducible apply State.deadlineOver_kept)
      | (with_reducible apply State.limiterRaise_kept) | (with_reducible apply State.lineFresh_kept)
      | (with_reducible apply State.loadDisplay_kept) | (with_reducible apply State.lpeLine_kept)
      | (with_reducible apply State.mskLine_kept) | (with_reducible apply State.runTo_kept)
      | simp only [kept_mk, kept_fold] | (with_reducible intro _) | (with_reducible apply kept_ite) | split
      | dsimp only)

theorem State.tapUpsets_kept {q : List Instr} {s : State} (cols : List Nat) (kq : Kept q s) :
    Kept q (State.tapUpsets s cols) := by
  unfold State.tapUpsets
  repeat' (
    first
      | (with_reducible assumption) | lift_lets
      | (intro x; have y : State := x; clear y; revert x; with_reducible apply kept_lift)
      | (intro x; have y : State := x.1; clear y; revert x; with_reducible apply kept_lift_fst)
      | (intro x; have y : State := x.2; clear y; revert x; with_reducible apply kept_lift_snd)
      | (intro x; clear_value x) | (with_reducible apply kept_foldl) | simp only [kept_mk, kept_fold]
      | (with_reducible intro _) | split | dsimp only)

theorem State.lineMatch_kept {q : List Instr} {s : State} (kq : Kept q s) :
    Kept q (State.lineMatch s) := by
  unfold State.lineMatch
  repeat' (
    first
      | (with_reducible assumption) | (with_reducible apply State.irq_kept) | (with_reducible intro _)
      | (with_reducible apply kept_ite) | split | dsimp only)

theorem State.fsyncLine_kept {q : List Instr} {s : State} (kq : Kept q s) :
    Kept q (State.fsyncLine s) := by
  unfold State.fsyncLine
  repeat' (
    first
      | (with_reducible assumption) | lift_lets
      | (intro x; have y : State := x; clear y; revert x; with_reducible apply kept_lift)
      | (intro x; have y : State := x.1; clear y; revert x; with_reducible apply kept_lift_fst)
      | (intro x; have y : State := x.2; clear y; revert x; with_reducible apply kept_lift_snd)
      | (intro x; clear_value x) | simp only [kept_mk, kept_fold] | (with_reducible intro _)
      | (with_reducible apply kept_ite) | split | dsimp only)

theorem State.lineBegin_kept {q : List Instr} {s : State} (u : LineUpsets) (kq : Kept q s) :
    Kept q (State.lineBegin s u) := by
  unfold State.lineBegin
  repeat' (
    first
      | (with_reducible assumption) | lift_lets
      | (intro x; have y : State := x; clear y; revert x; with_reducible apply kept_lift)
      | (intro x; have y : State := x.1; clear y; revert x; with_reducible apply kept_lift_fst)
      | (intro x; have y : State := x.2; clear y; revert x; with_reducible apply kept_lift_snd)
      | (intro x; clear_value x) | (with_reducible apply State.calLine_kept)
      | (with_reducible apply State.crestDeliver_kept) | (with_reducible apply State.fsyncLine_kept)
      | (with_reducible apply State.lineMatch_kept) | (with_reducible apply State.linePulse_kept)
      | (with_reducible apply State.lumLine_kept) | (with_reducible apply State.rowValueWrite_kept)
      | (with_reducible apply State.tapUpsets_kept) | (with_reducible apply State.thmLine_kept)
      | simp only [kept_mk, kept_fold] | (with_reducible intro _) | (with_reducible apply kept_ite) | split
      | dsimp only)

theorem execLineStart_kept {q : List Instr} (upsets : LineUpsets) {s : State} {z : State} (kq : Kept q s)
    (hx : execLineStart upsets s = .next z) : Kept q z := by
  obtain rfl := Host.Outcome.next.inj hx
  repeat' (
    first
      | (with_reducible assumption) | lift_lets
      | (intro x; have y : State := x; clear y; revert x; with_reducible apply kept_lift)
      | (intro x; have y : State := x.1; clear y; revert x; with_reducible apply kept_lift_fst)
      | (intro x; have y : State := x.2; clear y; revert x; with_reducible apply kept_lift_snd)
      | (intro x; clear_value x) | (with_reducible apply State.lineBegin_kept)
      | (with_reducible apply State.lineOver_kept) | simp only [kept_mk, kept_fold] | (with_reducible intro _)
      | (with_reducible apply kept_ite) | split | dsimp only)

theorem State.windowMissed_kept {q : List Instr} {s : State} (kq : Kept q s) :
    Kept q (State.windowMissed s) := by
  unfold State.windowMissed
  repeat' (
    first
      | (with_reducible assumption) | lift_lets
      | (intro x; have y : State := x; clear y; revert x; with_reducible apply kept_lift)
      | (intro x; have y : State := x.1; clear y; revert x; with_reducible apply kept_lift_fst)
      | (intro x; have y : State := x.2; clear y; revert x; with_reducible apply kept_lift_snd)
      | (intro x; clear_value x) | (with_reducible apply State.inc_kept) | simp only [kept_mk, kept_fold]
      | (with_reducible intro _) | split | dsimp only)

theorem State.windowHit_kept {q : List Instr} {s : State} (e : Int) (kq : Kept q s) :
    Kept q (State.windowHit s e) := by
  unfold State.windowHit
  repeat' (
    first
      | (with_reducible assumption) | lift_lets
      | (intro x; have y : State := x; clear y; revert x; with_reducible apply kept_lift)
      | (intro x; have y : State := x.1; clear y; revert x; with_reducible apply kept_lift_fst)
      | (intro x; have y : State := x.2; clear y; revert x; with_reducible apply kept_lift_snd)
      | (intro x; clear_value x) | (with_reducible apply State.put_kept) | simp only [kept_mk, kept_fold]
      | (with_reducible intro _) | (with_reducible apply kept_ite) | split | dsimp only)

theorem State.followDecision_kept {q : List Instr} {s : State} (hold : Bool) (kq : Kept q s) :
    Kept q (State.followDecision s hold) := by
  unfold State.followDecision
  repeat' (
    first
      | (with_reducible assumption) | lift_lets
      | (intro x; have y : State := x; clear y; revert x; with_reducible apply kept_lift)
      | (intro x; have y : State := x.1; clear y; revert x; with_reducible apply kept_lift_fst)
      | (intro x; have y : State := x.2; clear y; revert x; with_reducible apply kept_lift_snd)
      | (intro x; clear_value x) | (with_reducible apply State.put_kept)
      | (with_reducible apply State.windowHit_kept) | (with_reducible apply State.windowMissed_kept)
      | simp only [kept_mk, kept_fold] | (with_reducible intro _) | (with_reducible apply kept_ite) | split
      | dsimp only)

theorem execFollowTimeout_kept {q : List Instr} {s : State} {z : State} (kq : Kept q s)
    (hx : execFollowTimeout s = .next z) : Kept q z := by
  obtain rfl := Host.Outcome.next.inj hx
  repeat' (
    first
      | (with_reducible assumption) | lift_lets
      | (intro x; have y : State := x; clear y; revert x; with_reducible apply kept_lift)
      | (intro x; have y : State := x.1; clear y; revert x; with_reducible apply kept_lift_fst)
      | (intro x; have y : State := x.2; clear y; revert x; with_reducible apply kept_lift_snd)
      | (intro x; clear_value x) | (with_reducible apply State.irq_kept) | (with_reducible apply State.put_kept)
      | (with_reducible apply State.raise_kept) | simp only [kept_mk, kept_fold] | (with_reducible intro _)
      | (with_reducible apply kept_ite) | split | dsimp only)

theorem execGpio3RisingEdge_kept {q : List Instr} {s : State} {z : State} (kq : Kept q s)
    (hx : execGpio3RisingEdge s = .next z) : Kept q z := by
  obtain rfl := Host.Outcome.next.inj hx
  repeat' (
    first
      | (with_reducible assumption) | (with_reducible apply State.cadence_kept)
      | (with_reducible apply State.wakeEvent_kept) | (with_reducible intro _) | (with_reducible apply kept_ite)
      | split | dsimp only)

theorem State.commitInstant_kept {q : List Instr} {s : State} (kq : Kept q s) :
    Kept q (State.commitInstant s) := by
  unfold State.commitInstant
  repeat' (
    first
      | (with_reducible assumption) | lift_lets
      | (intro x; have y : State := x; clear y; revert x; with_reducible apply kept_lift)
      | (intro x; have y : State := x.1; clear y; revert x; with_reducible apply kept_lift_fst)
      | (intro x; have y : State := x.2; clear y; revert x; with_reducible apply kept_lift_snd)
      | (intro x; clear_value x) | (with_reducible apply State.commitResolve_kept)
      | (with_reducible apply State.dacApply_kept) | (with_reducible apply State.rsInstant_kept)
      | (with_reducible apply State.signatureLatch_kept) | (with_reducible intro _)
      | (with_reducible apply kept_ite) | split | dsimp only)

theorem State.startOfBlank_kept {q : List Instr} {s : State} (kq : Kept q s) :
    Kept q (State.startOfBlank s) := by
  unfold State.startOfBlank
  repeat' (
    first
      | (with_reducible assumption) | lift_lets
      | (intro x; have y : State := x; clear y; revert x; with_reducible apply kept_lift)
      | (intro x; have y : State := x.1; clear y; revert x; with_reducible apply kept_lift_fst)
      | (intro x; have y : State := x.2; clear y; revert x; with_reducible apply kept_lift_snd)
      | (intro x; clear_value x) | (with_reducible apply State.commitInstant_kept)
      | (with_reducible apply State.crestInstant_kept) | (with_reducible apply State.epochSend_kept)
      | (with_reducible apply State.followDecision_kept) | (with_reducible apply State.irq_kept)
      | (with_reducible apply State.lumBlank_kept) | (with_reducible apply State.put_kept)
      | (with_reducible apply State.rsSwap_kept) | simp only [kept_mk, kept_fold] | (with_reducible intro _)
      | (with_reducible apply kept_ite) | split | dsimp only)

theorem execStartOfBlank_kept {q : List Instr} {s : State} {z : State} (kq : Kept q s)
    (hx : execStartOfBlank s = .next z) : Kept q z := by
  obtain rfl := Host.Outcome.next.inj hx
  repeat' (
    first
      | (with_reducible assumption) | (with_reducible apply State.startOfBlank_kept) | (with_reducible intro _)
      | (with_reducible apply kept_ite) | split | dsimp only)

theorem State.pwmClamp_kept {q : List Instr} {s : State} (kq : Kept q s) :
    Kept q (State.pwmClamp s) := by
  unfold State.pwmClamp
  repeat' (
    first
      | (with_reducible assumption) | lift_lets
      | (intro x; have y : State := x; clear y; revert x; with_reducible apply kept_lift)
      | (intro x; have y : State := x.1; clear y; revert x; with_reducible apply kept_lift_fst)
      | (intro x; have y : State := x.2; clear y; revert x; with_reducible apply kept_lift_snd)
      | (intro x; clear_value x) | simp only [kept_mk, kept_fold] | (with_reducible intro _)
      | (with_reducible apply kept_ite) | split | dsimp only)

theorem State.newTiming_kept {q : List Instr} {s : State} (t : Retime) (kq : Kept q s) :
    Kept q (State.newTiming s t) := by
  unfold State.newTiming
  repeat' (
    first
      | (with_reducible assumption) | (with_reducible apply State.pwmClamp_kept)
      | (with_reducible apply State.setTiming_kept) | (with_reducible intro _) | split | dsimp only)

theorem State.slaveBank_kept {q : List Instr} {s : State} (n : Nat) (kq : Kept q s) :
    Kept q (State.slaveBank s n) := by
  unfold State.slaveBank
  repeat' (
    first
      | (with_reducible assumption) | lift_lets
      | (intro x; have y : State := x; clear y; revert x; with_reducible apply kept_lift)
      | (intro x; have y : State := x.1; clear y; revert x; with_reducible apply kept_lift_fst)
      | (intro x; have y : State := x.2; clear y; revert x; with_reducible apply kept_lift_snd)
      | (intro x; clear_value x) | (with_reducible apply State.put_kept)
      | (with_reducible apply State.railDisable_kept) | (with_reducible apply State.raise_kept)
      | (with_reducible apply State.swapBanks_kept) | (with_reducible intro _) | (with_reducible apply kept_ite)
      | split | dsimp only)

theorem State.retimeTake_kept {q : List Instr} {s : State} (t : Retime) (kq : Kept q s) :
    Kept q (State.retimeTake s t) := by
  unfold State.retimeTake
  repeat' (
    first
      | (with_reducible assumption) | lift_lets
      | (intro x; have y : State := x; clear y; revert x; with_reducible apply kept_lift)
      | (intro x; have y : State := x.1; clear y; revert x; with_reducible apply kept_lift_fst)
      | (intro x; have y : State := x.2; clear y; revert x; with_reducible apply kept_lift_snd)
      | (intro x; clear_value x) | (with_reducible apply State.newTiming_kept)
      | (with_reducible apply State.put_kept) | (with_reducible apply State.swapBanks_kept)
      | (with_reducible apply State.thmRetimeDone_kept) | simp only [kept_mk, kept_fold]
      | (with_reducible intro _) | split | dsimp only)

theorem State.slaveTake_kept {q : List Instr} {s : State} (n : Nat × Nat × Nat) (kq : Kept q s) :
    Kept q (State.slaveTake s n) := by
  unfold State.slaveTake
  repeat' (
    first
      | (with_reducible assumption) | lift_lets
      | (intro x; have y : State := x; clear y; revert x; with_reducible apply kept_lift)
      | (intro x; have y : State := x.1; clear y; revert x; with_reducible apply kept_lift_fst)
      | (intro x; have y : State := x.2; clear y; revert x; with_reducible apply kept_lift_snd)
      | (intro x; clear_value x) | (with_reducible apply State.newTiming_kept)
      | (with_reducible apply State.put_kept) | (with_reducible apply State.slaveBank_kept)
      | (with_reducible apply State.vbNote_kept) | simp only [kept_mk, kept_fold] | (with_reducible intro _)
      | (with_reducible apply kept_ite) | split | dsimp only)

theorem State.frameBegin_kept {q : List Instr} {s : State} (kq : Kept q s) :
    Kept q (State.frameBegin s) := by
  unfold State.frameBegin
  repeat' (
    first
      | (with_reducible assumption) | lift_lets
      | (intro x; have y : State := x; clear y; revert x; with_reducible apply kept_lift)
      | (intro x; have y : State := x.1; clear y; revert x; with_reducible apply kept_lift_fst)
      | (intro x; have y : State := x.2; clear y; revert x; with_reducible apply kept_lift_snd)
      | (intro x; clear_value x) | (with_reducible apply State.enginesLoad_kept)
      | (with_reducible apply State.fanLoop_kept) | (with_reducible apply State.put_kept)
      | simp only [kept_mk, kept_fold] | (with_reducible intro _) | split | dsimp only)

theorem State.frameTiming_kept {q : List Instr} {s : State} (kq : Kept q s) :
    Kept q (State.frameTiming s) := by
  unfold State.frameTiming
  repeat' (
    first
      | (with_reducible assumption) | lift_lets
      | (intro x; have y : State := x; clear y; revert x; with_reducible apply kept_lift)
      | (intro x; have y : State := x.1; clear y; revert x; with_reducible apply kept_lift_fst)
      | (intro x; have y : State := x.2; clear y; revert x; with_reducible apply kept_lift_snd)
      | (intro x; clear_value x) | (with_reducible apply State.retimeTake_kept)
      | (with_reducible apply State.slaveTake_kept) | simp only [kept_mk, kept_fold] | (with_reducible intro _)
      | (with_reducible apply kept_ite) | split | dsimp only)

theorem State.frameDone_kept {q : List Instr} {s : State} (edges : Nat) (kq : Kept q s) :
    Kept q (State.frameDone s edges) := by
  unfold State.frameDone
  repeat' (
    first
      | (with_reducible assumption) | lift_lets
      | (intro x; have y : State := x; clear y; revert x; with_reducible apply kept_lift)
      | (intro x; have y : State := x.1; clear y; revert x; with_reducible apply kept_lift_fst)
      | (intro x; have y : State := x.2; clear y; revert x; with_reducible apply kept_lift_snd)
      | (intro x; clear_value x) | (with_reducible apply State.frameBegin_kept)
      | (with_reducible apply State.frameTiming_kept) | (with_reducible apply State.irq_kept)
      | (with_reducible apply State.lineOver_kept) | (with_reducible apply State.tachFrame_kept)
      | simp only [kept_mk, kept_fold] | (with_reducible intro _) | split | dsimp only)

theorem execFrameDone_kept {q : List Instr} (tachEdges : Nat) {s : State} {z : State} (kq : Kept q s)
    (hx : execFrameDone tachEdges s = .next z) : Kept q z := by
  obtain rfl := Host.Outcome.next.inj hx
  repeat' (
    first
      | (with_reducible assumption) | (with_reducible apply State.frameDone_kept) | (with_reducible intro _)
      | (with_reducible apply kept_ite) | split | dsimp only)

theorem State.framePosition_kept {q : List Instr} {s : State} (f : Word) (c a : Nat) (lead : Bool) (kq : Kept q s) :
    Kept q (State.framePosition s f c a lead) := by
  unfold State.framePosition
  repeat' (
    first
      | (with_reducible assumption) | lift_lets
      | (intro x; have y : State := x; clear y; revert x; with_reducible apply kept_lift)
      | (intro x; have y : State := x.1; clear y; revert x; with_reducible apply kept_lift_fst)
      | (intro x; have y : State := x.2; clear y; revert x; with_reducible apply kept_lift_snd)
      | (intro x; clear_value x) | (with_reducible apply State.lineFresh_kept) | simp only [kept_mk, kept_fold]
      | (with_reducible intro _) | split | dsimp only)

theorem State.startBank_kept {q : List Instr} {s : State} (slave : Bool) (n : Nat) (kq : Kept q s) :
    Kept q (State.startBank s slave n) := by
  unfold State.startBank
  repeat' (
    first
      | (with_reducible assumption) | (with_reducible apply State.put_kept)
      | (with_reducible apply State.railDisable_kept) | (with_reducible apply State.raise_kept)
      | (with_reducible apply State.swapBanks_kept) | (with_reducible intro _) | (with_reducible apply kept_ite)
      | split | dsimp only)

theorem State.rasterBegin_kept {q : List Instr} {s : State} (t : Retime) (f : Word) (c a : Nat) (kq : Kept q s) :
    Kept q (State.rasterBegin s t f c a) := by
  unfold State.rasterBegin
  repeat' (
    first
      | (with_reducible assumption) | lift_lets
      | (intro x; have y : State := x; clear y; revert x; with_reducible apply kept_lift)
      | (intro x; have y : State := x.1; clear y; revert x; with_reducible apply kept_lift_fst)
      | (intro x; have y : State := x.2; clear y; revert x; with_reducible apply kept_lift_snd)
      | (intro x; clear_value x) | (with_reducible apply State.commitRetarget_kept)
      | (with_reducible apply State.frameBegin_kept) | (with_reducible apply State.framePosition_kept)
      | (with_reducible apply State.litEnter_kept) | (with_reducible apply State.lpeStart_kept)
      | (with_reducible apply State.newTiming_kept) | (with_reducible apply State.put_kept)
      | (with_reducible apply State.safRefresh_kept) | (with_reducible apply State.sourceSample_kept)
      | (with_reducible apply State.startBank_kept) | (with_reducible apply State.thmRetimeDone_kept)
      | (with_reducible apply State.watchdogArm_kept) | simp only [kept_mk, kept_fold] | (with_reducible intro _)
      | (with_reducible apply kept_ite) | split | dsimp only)

theorem execRasterStart_kept {q : List Instr} {s : State} {z : State} (kq : Kept q s)
    (hx : execRasterStart s = .next z) : Kept q z := by
  obtain rfl := Host.Outcome.next.inj hx
  repeat' (
    first
      | (with_reducible assumption) | lift_lets
      | (intro x; have y : State := x; clear y; revert x; with_reducible apply kept_lift)
      | (intro x; have y : State := x.1; clear y; revert x; with_reducible apply kept_lift_fst)
      | (intro x; have y : State := x.2; clear y; revert x; with_reducible apply kept_lift_snd)
      | (intro x; clear_value x) | (with_reducible apply State.rasterBegin_kept)
      | simp only [kept_mk, kept_fold] | (with_reducible intro _) | (with_reducible apply kept_ite) | split
      | dsimp only)

end Sys2Proof.Machine
end

