-- ==== Sys2Proof/Laws/KeptChain.lean ====
section
/-!
SUPPORT. The operations of Machine/Chain.lean keep the queue and the canonical form.
-/

set_option linter.unusedSimpArgs false
set_option linter.unusedTactic false
set_option linter.unreachableTactic false

namespace Sys2Proof.Machine

theorem State.resync_kept {q : List Instr} {s : State} (h : EpochFrame) (late : Bool) (kq : Kept q s) :
    Kept q (State.resync s h late) := by
  unfold State.resync
  repeat' (
    first
      | (with_reducible assumption) | lift_lets
      | (intro x; have y : State := x; clear y; revert x; with_reducible apply kept_lift)
      | (intro x; have y : State := x.1; clear y; revert x; with_reducible apply kept_lift_fst)
      | (intro x; have y : State := x.2; clear y; revert x; with_reducible apply kept_lift_snd)
      | (intro x; clear_value x) | (with_reducible apply State.epoch_kept) | (with_reducible apply State.inc_kept)
      | (with_reducible apply State.irq_kept) | (with_reducible apply State.put_kept)
      | (with_reducible apply State.raise_kept) | simp only [kept_mk, kept_fold] | (with_reducible intro _)
      | (with_reducible apply kept_ite) | split | dsimp only)

theorem State.epochTake_kept {q : List Instr} {s : State} (h : EpochFrame) (kq : Kept q s) :
    Kept q (State.epochTake s h) := by
  unfold State.epochTake
  repeat' (
    first
      | (with_reducible assumption) | lift_lets
      | (intro x; have y : State := x; clear y; revert x; with_reducible apply kept_lift)
      | (intro x; have y : State := x.1; clear y; revert x; with_reducible apply kept_lift_fst)
      | (intro x; have y : State := x.2; clear y; revert x; with_reducible apply kept_lift_snd)
      | (intro x; clear_value x) | (with_reducible apply State.put_kept) | simp only [kept_mk, kept_fold]
      | (with_reducible intro _) | (with_reducible apply kept_ite) | split | dsimp only)

theorem State.epochRunning_kept {q : List Instr} {s : State} (h : EpochFrame) (kq : Kept q s) :
    Kept q (State.epochRunning s h) := by
  unfold State.epochRunning
  repeat' (
    first
      | (with_reducible assumption) | lift_lets
      | (intro x; have y : State := x; clear y; revert x; with_reducible apply kept_lift)
      | (intro x; have y : State := x.1; clear y; revert x; with_reducible apply kept_lift_fst)
      | (intro x; have y : State := x.2; clear y; revert x; with_reducible apply kept_lift_snd)
      | (intro x; clear_value x) | (with_reducible apply State.epoch_kept)
      | (with_reducible apply State.epochTake_kept) | (with_reducible apply State.putB_kept)
      | (with_reducible apply State.raise_kept) | (with_reducible apply State.resync_kept)
      | (with_reducible intro _) | (with_reducible apply kept_ite) | split | dsimp only)

theorem State.epochArm_kept {q : List Instr} {s : State} (h : EpochFrame) (kq : Kept q s) :
    Kept q (State.epochArm s h) := by
  unfold State.epochArm
  repeat' (
    first
      | (with_reducible assumption) | lift_lets
      | (intro x; have y : State := x; clear y; revert x; with_reducible apply kept_lift)
      | (intro x; have y : State := x.1; clear y; revert x; with_reducible apply kept_lift_fst)
      | (intro x; have y : State := x.2; clear y; revert x; with_reducible apply kept_lift_snd)
      | (intro x; clear_value x) | (with_reducible apply State.setReg_kept) | simp only [kept_mk, kept_fold]
      | (with_reducible intro _) | split | dsimp only)

theorem execEpochFrameReceived_kept {q : List Instr} (h : EpochFrame) (crcOk : Bool) (codeErrors cyc : Nat) {s : State} {z : State} (kq : Kept q s)
    (hx : execEpochFrameReceived h crcOk codeErrors cyc s = .next z) : Kept q z := by
  obtain rfl := Host.Outcome.next.inj hx
  repeat' (
    first
      | (with_reducible assumption) | lift_lets
      | (intro x; have y : State := x; clear y; revert x; with_reducible apply kept_lift)
      | (intro x; have y : State := x.1; clear y; revert x; with_reducible apply kept_lift_fst)
      | (intro x; have y : State := x.2; clear y; revert x; with_reducible apply kept_lift_snd)
      | (intro x; clear_value x) | (with_reducible apply State.codeErrors_kept)
      | (with_reducible apply State.cvnCode_kept) | (with_reducible apply State.epoch_kept)
      | (with_reducible apply State.epochArm_kept) | (with_reducible apply State.epochRunning_kept)
      | (with_reducible apply State.put_kept) | (with_reducible apply State.runTo_kept)
      | simp only [kept_mk, kept_fold] | (with_reducible intro _) | (with_reducible apply kept_ite) | split
      | dsimp only)

theorem execEpochMissing_kept {q : List Instr} {s : State} {z : State} (kq : Kept q s)
    (hx : execEpochMissing s = .next z) : Kept q z := by
  obtain rfl := Host.Outcome.next.inj hx
  repeat' (
    first
      | (with_reducible assumption) | lift_lets
      | (intro x; have y : State := x; clear y; revert x; with_reducible apply kept_lift)
      | (intro x; have y : State := x.1; clear y; revert x; with_reducible apply kept_lift_fst)
      | (intro x; have y : State := x.2; clear y; revert x; with_reducible apply kept_lift_snd)
      | (intro x; clear_value x) | (with_reducible apply State.put_kept) | simp only [kept_mk, kept_fold]
      | (with_reducible intro _) | (with_reducible apply kept_ite) | split | dsimp only)

theorem execEpochLost_kept {q : List Instr} {s : State} {z : State} (kq : Kept q s)
    (hx : execEpochLost s = .next z) : Kept q z := by
  obtain rfl := Host.Outcome.next.inj hx
  repeat' (
    first
      | (with_reducible assumption) | lift_lets
      | (intro x; have y : State := x; clear y; revert x; with_reducible apply kept_lift)
      | (intro x; have y : State := x.1; clear y; revert x; with_reducible apply kept_lift_fst)
      | (intro x; have y : State := x.2; clear y; revert x; with_reducible apply kept_lift_snd)
      | (intro x; clear_value x) | (with_reducible apply State.raise_kept) | simp only [kept_mk, kept_fold]
      | (with_reducible intro _) | (with_reducible apply kept_ite) | split | dsimp only)

theorem State.resyncLoad_kept {q : List Instr} {s : State} (l : EpochLoad) (kq : Kept q s) :
    Kept q (State.resyncLoad s l) := by
  unfold State.resyncLoad
  repeat' (
    first
      | (with_reducible assumption) | lift_lets
      | (intro x; have y : State := x; clear y; revert x; with_reducible apply kept_lift)
      | (intro x; have y : State := x.1; clear y; revert x; with_reducible apply kept_lift_fst)
      | (intro x; have y : State := x.2; clear y; revert x; with_reducible apply kept_lift_snd)
      | (intro x; clear_value x) | (with_reducible apply State.commitRetarget_kept)
      | (with_reducible apply State.composeStop_kept) | (with_reducible apply State.frameBegin_kept)
      | (with_reducible apply State.framePosition_kept) | (with_reducible apply State.lineOver_kept)
      | (with_reducible apply State.newTiming_kept) | (with_reducible apply State.put_kept)
      | (with_reducible apply State.slaveBank_kept) | (with_reducible apply State.vbNote_kept)
      | simp only [kept_mk, kept_fold] | (with_reducible intro _) | (with_reducible apply kept_ite) | split
      | dsimp only)

theorem execSlaveResyncLoad_kept {q : List Instr} {s : State} {z : State} (kq : Kept q s)
    (hx : execSlaveResyncLoad s = .next z) : Kept q z := by
  obtain rfl := Host.Outcome.next.inj hx
  repeat' (
    first
      | (with_reducible assumption) | lift_lets
      | (intro x; have y : State := x; clear y; revert x; with_reducible apply kept_lift)
      | (intro x; have y : State := x.1; clear y; revert x; with_reducible apply kept_lift_fst)
      | (intro x; have y : State := x.2; clear y; revert x; with_reducible apply kept_lift_snd)
      | (intro x; clear_value x) | (with_reducible apply State.resyncLoad_kept) | simp only [kept_mk, kept_fold]
      | (with_reducible intro _) | (with_reducible apply kept_ite) | split | dsimp only)

theorem State.setRole_kept {q : List Instr} {s : State} (r : Nat) (kq : Kept q s) :
    Kept q (State.setRole s r) := by
  unfold State.setRole
  repeat' (
    first
      | (with_reducible assumption) | (with_reducible apply State.irq_kept)
      | (with_reducible apply State.put_kept) | (with_reducible apply State.putB_kept)
      | (with_reducible apply State.safRefresh_kept) | (with_reducible intro _) | split | dsimp only)

theorem State.standbyEnter_kept {q : List Instr} {s : State} (kq : Kept q s) :
    Kept q (State.standbyEnter s) := by
  unfold State.standbyEnter
  repeat' (
    first
      | (with_reducible assumption) | lift_lets
      | (intro x; have y : State := x; clear y; revert x; with_reducible apply kept_lift)
      | (intro x; have y : State := x.1; clear y; revert x; with_reducible apply kept_lift_fst)
      | (intro x; have y : State := x.2; clear y; revert x; with_reducible apply kept_lift_snd)
      | (intro x; clear_value x) | (with_reducible apply State.setRole_kept) | simp only [kept_mk, kept_fold]
      | (with_reducible intro _) | split | dsimp only)

theorem State.conflict_kept {q : List Instr} {s : State} (kq : Kept q s) :
    Kept q (State.conflict s) := by
  unfold State.conflict
  repeat' (
    first
      | (with_reducible assumption) | lift_lets
      | (intro x; have y : State := x; clear y; revert x; with_reducible apply kept_lift)
      | (intro x; have y : State := x.1; clear y; revert x; with_reducible apply kept_lift_fst)
      | (intro x; have y : State := x.2; clear y; revert x; with_reducible apply kept_lift_snd)
      | (intro x; clear_value x) | (with_reducible apply State.inc_kept) | (with_reducible apply State.put_kept)
      | (with_reducible apply State.raise_kept) | (with_reducible apply State.standbyEnter_kept)
      | simp only [kept_mk, kept_fold] | (with_reducible intro _) | (with_reducible apply kept_ite) | split
      | dsimp only)

theorem State.presence_kept {q : List Instr} {s : State} (kq : Kept q s) :
    Kept q (State.presence s) := by
  unfold State.presence
  repeat' (
    first
      | (with_reducible assumption) | lift_lets
      | (intro x; have y : State := x; clear y; revert x; with_reducible apply kept_lift)
      | (intro x; have y : State := x.1; clear y; revert x; with_reducible apply kept_lift_fst)
      | (intro x; have y : State := x.2; clear y; revert x; with_reducible apply kept_lift_snd)
      | (intro x; clear_value x) | (with_reducible apply State.conflict_kept)
      | (with_reducible apply State.put_kept) | simp only [kept_mk, kept_fold] | (with_reducible intro _)
      | (with_reducible apply kept_ite) | split | dsimp only)

theorem execTdmEdge_kept {q : List Instr} (gap : Nat) {s : State} {z : State} (kq : Kept q s)
    (hx : execTdmEdge gap s = .next z) : Kept q z := by
  obtain rfl := Host.Outcome.next.inj hx
  repeat' (
    first
      | (with_reducible assumption) | lift_lets
      | (intro x; have y : State := x; clear y; revert x; with_reducible apply kept_lift)
      | (intro x; have y : State := x.1; clear y; revert x; with_reducible apply kept_lift_fst)
      | (intro x; have y : State := x.2; clear y; revert x; with_reducible apply kept_lift_snd)
      | (intro x; clear_value x) | (with_reducible apply State.presence_kept) | simp only [kept_mk, kept_fold]
      | (with_reducible intro _) | (with_reducible apply kept_ite) | split | dsimp only)

theorem State.claimEnter_kept {q : List Instr} {s : State} (kq : Kept q s) :
    Kept q (State.claimEnter s) := by
  unfold State.claimEnter
  repeat' (
    first
      | (with_reducible assumption) | (with_reducible apply State.setRole_kept) | (with_reducible intro _)
      | split | dsimp only)

theorem execTdmLoss_kept {q : List Instr} {s : State} {z : State} (kq : Kept q s)
    (hx : execTdmLoss s = .next z) : Kept q z := by
  obtain rfl := Host.Outcome.next.inj hx
  repeat' (
    first
      | (with_reducible assumption) | lift_lets
      | (intro x; have y : State := x; clear y; revert x; with_reducible apply kept_lift)
      | (intro x; have y : State := x.1; clear y; revert x; with_reducible apply kept_lift_fst)
      | (intro x; have y : State := x.2; clear y; revert x; with_reducible apply kept_lift_snd)
      | (intro x; clear_value x) | (with_reducible apply State.claimEnter_kept)
      | (with_reducible apply State.inc_kept) | (with_reducible apply State.put_kept)
      | (with_reducible apply State.raise_kept) | simp only [kept_mk, kept_fold] | (with_reducible intro _)
      | (with_reducible apply kept_ite) | split | dsimp only)

theorem execStandbyWaitExpiry_kept {q : List Instr} {s : State} {z : State} (kq : Kept q s)
    (hx : execStandbyWaitExpiry s = .next z) : Kept q z := by
  obtain rfl := Host.Outcome.next.inj hx
  repeat' (
    first
      | (with_reducible assumption) | (with_reducible apply State.claimEnter_kept) | (with_reducible intro _)
      | (with_reducible apply kept_ite) | split | dsimp only)

theorem execClaimToActive_kept {q : List Instr} {s : State} {z : State} (kq : Kept q s)
    (hx : execClaimToActive s = .next z) : Kept q z := by
  obtain rfl := Host.Outcome.next.inj hx
  repeat' (
    first
      | (with_reducible assumption) | (with_reducible apply State.inc_kept)
      | (with_reducible apply State.raise_kept) | (with_reducible apply State.setRole_kept)
      | (with_reducible intro _) | (with_reducible apply kept_ite) | split | dsimp only)

theorem execAbdication_kept {q : List Instr} {s : State} {z : State} (kq : Kept q s)
    (hx : execAbdication s = .next z) : Kept q z := by
  obtain rfl := Host.Outcome.next.inj hx
  repeat' (
    first
      | (with_reducible assumption) | (with_reducible apply State.standbyEnter_kept) | (with_reducible intro _)
      | (with_reducible apply kept_ite) | split | dsimp only)

theorem execTdmOutMismatch_kept {q : List Instr} (bad : Bool) {s : State} {z : State} (kq : Kept q s)
    (hx : execTdmOutMismatch bad s = .next z) : Kept q z := by
  obtain rfl := Host.Outcome.next.inj hx
  repeat' (
    first
      | (with_reducible assumption) | lift_lets
      | (intro x; have y : State := x; clear y; revert x; with_reducible apply kept_lift)
      | (intro x; have y : State := x.1; clear y; revert x; with_reducible apply kept_lift_fst)
      | (intro x; have y : State := x.2; clear y; revert x; with_reducible apply kept_lift_snd)
      | (intro x; clear_value x) | (with_reducible apply State.assertF_kept)
      | (with_reducible apply State.deassertF_kept) | simp only [kept_mk, kept_fold] | (with_reducible intro _)
      | (with_reducible apply kept_ite) | split | dsimp only)

theorem execTandemDarkEnd_kept {q : List Instr} {s : State} {z : State} (kq : Kept q s)
    (hx : execTandemDarkEnd s = .next z) : Kept q z := by
  obtain rfl := Host.Outcome.next.inj hx
  repeat' (
    first
      | (with_reducible assumption) | (with_reducible apply State.put_kept)
      | (with_reducible apply State.safRefresh_kept) | (with_reducible intro _) | (with_reducible apply kept_ite)
      | split | dsimp only)

end Sys2Proof.Machine
end

