-- ==== Sys2Proof/Laws/KeptHostIf.lean ====
section
/-!
SUPPORT. The operations of Machine/HostIf.lean keep the queue and the canonical form.
-/

set_option linter.unusedSimpArgs false
set_option linter.unusedTactic false
set_option linter.unreachableTactic false

namespace Sys2Proof.Machine

theorem State.glbWrite_kept {q : List Instr} {s : State} (i : FaultInfo) (a : Nat) (v : Word) (kq : Kept q s) :
    Kept q (State.glbWrite s i a v) := by
  unfold State.glbWrite
  repeat' (
    first
      | (with_reducible assumption) | (with_reducible apply State.commitCtrlWrite_kept)
      | (with_reducible apply State.commitRequest_kept) | (with_reducible apply State.regWrite_kept)
      | (with_reducible intro _) | (with_reducible apply kept_ite) | split | dsimp only)

theorem State.glbRead_kept {q : List Instr} {s : State} (a : Nat) (kq : Kept q s) :
    Kept q (State.glbRead s a).2 := by
  unfold State.glbRead
  repeat' (
    first
      | (with_reducible assumption) | (with_reducible apply State.readClear_kept) | (with_reducible intro _)
      | (with_reducible apply kept_ite) | (with_reducible apply kept_ite_fst)
      | (with_reducible apply kept_ite_snd) | split | dsimp only)

theorem State.safWrite_kept {q : List Instr} {s : State} (a : Nat) (v : Word) (kq : Kept q s) :
    Kept q (State.safWrite s a v) := by
  unfold State.safWrite
  repeat' (
    first
      | (with_reducible assumption) | (with_reducible apply State.regWrite_kept)
      | (with_reducible apply State.safCommand_kept) | (with_reducible apply State.safConfig_kept)
      | (with_reducible intro _) | (with_reducible apply kept_ite) | split | dsimp only)

theorem State.lnkWrite_kept {q : List Instr} {s : State} (i : Initiator) (a : Nat) (v : Word) (kq : Kept q s) :
    Kept q (State.lnkWrite s i a v) := by
  unfold State.lnkWrite
  repeat' (
    first
      | (with_reducible assumption) | (with_reducible apply State.linkInject_kept)
      | (with_reducible apply State.lnkCtrlWrite_kept) | (with_reducible apply State.msgOff_kept)
      | (with_reducible apply State.regWrite_kept) | (with_reducible intro _) | (with_reducible apply kept_ite)
      | split | dsimp only)

theorem State.cvnWrite_kept {q : List Instr} {s : State} (a : Nat) (v : Word) (kq : Kept q s) :
    Kept q (State.cvnWrite s a v) := by
  unfold State.cvnWrite
  repeat' (
    first
      | (with_reducible assumption) | (with_reducible apply State.cvnCtrlWrite_kept)
      | (with_reducible apply State.regWrite_kept) | (with_reducible apply State.shDataWrite_kept)
      | (with_reducible intro _) | (with_reducible apply kept_ite) | split | dsimp only)

theorem State.cvnRead_kept {q : List Instr} {s : State} (a : Nat) (kq : Kept q s) :
    Kept q (State.cvnRead s a).2 := by
  unfold State.cvnRead
  repeat' (
    first
      | (with_reducible assumption) | (with_reducible apply State.readClear_kept)
      | (with_reducible apply State.shDataRead_kept) | (with_reducible intro _) | (with_reducible apply kept_ite)
      | (with_reducible apply kept_ite_fst) | (with_reducible apply kept_ite_snd) | split | dsimp only)

theorem State.cfgWrite_kept {q : List Instr} {s : State} (a : Nat) (v : Word) (kq : Kept q s) :
    Kept q (State.cfgWrite s a v) := by
  unfold State.cfgWrite
  repeat' (
    first
      | (with_reducible assumption) | (with_reducible apply State.imgWrite_kept)
      | (with_reducible apply State.keyWrite_kept) | (with_reducible apply State.regWrite_kept)
      | (with_reducible apply State.setReg_kept) | (with_reducible intro _) | (with_reducible apply kept_ite)
      | split | dsimp only)

theorem State.cfgRead_kept {q : List Instr} {s : State} (a : Nat) (kq : Kept q s) :
    Kept q (State.cfgRead s a).2 := by
  unfold State.cfgRead
  repeat' (
    first
      | (with_reducible assumption) | (with_reducible apply State.readClear_kept) | (with_reducible intro _)
      | (with_reducible apply kept_ite) | (with_reducible apply kept_ite_fst)
      | (with_reducible apply kept_ite_snd) | split | dsimp only)

theorem State.pwrWrite_kept {q : List Instr} {s : State} (a : Nat) (v : Word) (kq : Kept q s) :
    Kept q (State.pwrWrite s a v) := by
  unfold State.pwrWrite
  repeat' (
    first
      | (with_reducible assumption) | (with_reducible apply State.jobCmdWrite_kept)
      | (with_reducible apply State.powerRequest_kept) | (with_reducible apply State.regWrite_kept)
      | (with_reducible intro _) | (with_reducible apply kept_ite) | split | dsimp only)

theorem State.hostWrite_kept {q : List Instr} {s : State} (i : Initiator) (a : Nat) (v : Word) (kq : Kept q s) :
    Kept q (State.hostWrite s i a v) := by
  unfold State.hostWrite
  repeat' (
    first
      | (with_reducible assumption) | lift_lets
      | (intro x; have y : State := x; clear y; revert x; with_reducible apply kept_lift)
      | (intro x; have y : State := x.1; clear y; revert x; with_reducible apply kept_lift_fst)
      | (intro x; have y : State := x.2; clear y; revert x; with_reducible apply kept_lift_snd)
      | (intro x; clear_value x) | (with_reducible apply State.cfgWrite_kept)
      | (with_reducible apply State.coreWrite_kept) | (with_reducible apply State.cvnWrite_kept)
      | (with_reducible apply State.fltWrite_kept) | (with_reducible apply State.glbWrite_kept)
      | (with_reducible apply State.lnkWrite_kept) | (with_reducible apply State.pwrWrite_kept)
      | (with_reducible apply State.safWrite_kept) | simp only [kept_mk, kept_fold] | (with_reducible intro _)
      | split | dsimp only)

theorem State.hostRead_kept {q : List Instr} {s : State} (i : Initiator) (a : Nat) (kq : Kept q s) :
    Kept q (State.hostRead s i a).2 := by
  unfold State.hostRead
  repeat' (
    first
      | (with_reducible assumption) | lift_lets
      | (intro x; have y : State := x; clear y; revert x; with_reducible apply kept_lift)
      | (intro x; have y : State := x.1; clear y; revert x; with_reducible apply kept_lift_fst)
      | (intro x; have y : State := x.2; clear y; revert x; with_reducible apply kept_lift_snd)
      | (intro x; clear_value x) | (with_reducible apply State.cfgRead_kept)
      | (with_reducible apply State.coreRead_kept) | (with_reducible apply State.cvnRead_kept)
      | (with_reducible apply State.glbRead_kept) | (with_reducible apply State.readClear_kept)
      | simp only [kept_mk, kept_fold] | (with_reducible intro _) | split | dsimp only)

theorem State.readAfterSeal_kept {q : List Instr} {s : State} (ts : List Nat) (kq : Kept q s) :
    Kept q (State.readAfterSeal s ts) := by
  unfold State.readAfterSeal
  repeat' (
    first
      | (with_reducible assumption) | (with_reducible apply State.afterSeal_kept) | (with_reducible intro _)
      | (with_reducible apply kept_ite) | split | dsimp only)

theorem State.layerRead_kept {q : List Instr} {s : State} (i : Initiator) (a : Nat) (kq : Kept q s) :
    Kept q (State.layerRead s i a) := by
  unfold State.layerRead
  repeat' (
    first
      | (with_reducible assumption) | lift_lets
      | (intro x; have y : State := x; clear y; revert x; with_reducible apply kept_lift)
      | (intro x; have y : State := x.1; clear y; revert x; with_reducible apply kept_lift_fst)
      | (intro x; have y : State := x.2; clear y; revert x; with_reducible apply kept_lift_snd)
      | (intro x; clear_value x) | (with_reducible apply State.accRecord_kept)
      | (with_reducible apply State.answer_kept) | (with_reducible apply State.readAfterSeal_kept)
      | (with_reducible intro _) | (with_reducible apply kept_ite) | split | dsimp only)

theorem State.layerWrite_kept {q : List Instr} {s : State} (i : Initiator) (a : Nat) (v : Word) (kq : Kept q s) :
    Kept q (State.layerWrite s i a v) := by
  unfold State.layerWrite
  repeat' (
    first
      | (with_reducible assumption) | lift_lets
      | (intro x; have y : State := x; clear y; revert x; with_reducible apply kept_lift)
      | (intro x; have y : State := x.1; clear y; revert x; with_reducible apply kept_lift_fst)
      | (intro x; have y : State := x.2; clear y; revert x; with_reducible apply kept_lift_snd)
      | (intro x; clear_value x) | (with_reducible apply State.accRecord_kept)
      | (with_reducible apply State.answer_kept) | (with_reducible apply State.lockedWrite_kept)
      | (with_reducible apply State.memStore_kept) | (with_reducible apply State.offBlock_kept)
      | (with_reducible intro _) | (with_reducible apply kept_ite) | split | dsimp only)

theorem State.wordRead_kept {q : List Instr} {s : State} (i : Initiator) (a : Nat) (kq : Kept q s) :
    Kept q (State.wordRead s i a) := by
  unfold State.wordRead
  repeat' (
    first
      | (with_reducible assumption) | (with_reducible apply State.accRecord_kept)
      | (with_reducible apply State.answer_kept) | (with_reducible apply State.hostRead_kept)
      | (with_reducible apply State.layerRead_kept) | (with_reducible apply State.portRead_kept)
      | (with_reducible intro _) | (with_reducible apply kept_ite) | split | dsimp only)

theorem State.wordWrite_kept {q : List Instr} {s : State} (i : Initiator) (a : Nat) (v : Word) (kq : Kept q s) :
    Kept q (State.wordWrite s i a v) := by
  unfold State.wordWrite
  repeat' (
    first
      | (with_reducible assumption) | (with_reducible apply State.accRecord_kept)
      | (with_reducible apply State.answer_kept) | (with_reducible apply State.hostWrite_kept)
      | (with_reducible apply State.layerWrite_kept) | (with_reducible apply State.portWrite_kept)
      | (with_reducible apply State.sealInPost_kept) | (with_reducible intro _) | (with_reducible apply kept_ite)
      | split | dsimp only)

theorem State.readRun_kept {q : List Instr} {s : State} (i : Initiator) (n : Nat) (as : List Nat) (r : RunAnswer)
    (kq : Kept q s) : Kept q (s.readRun i n as r).2 := by
  induction as generalizing s n r with
  | nil => exact kq
  | cons a t ih => exact ih _ _ (State.wordRead_kept i a kq)

theorem State.writeRun_kept {q : List Instr} {s : State} (i : Initiator) (n : Nat) (ps : List (Nat × Word)) (r : RunAnswer)
    (kq : Kept q s) : Kept q (s.writeRun i n ps r).2 := by
  induction ps generalizing s n r with
  | nil => exact kq
  | cons p t ih => exact ih _ _ (State.wordWrite_kept i p.1 p.2 kq)

theorem execRegisterWrite_kept {q : List Instr} (i : Initiator) (a : BitVec 17) (v : Word) {s : State} {z : State} (kq : Kept q s)
    (hx : execRegisterWrite i a v s = .next z) : Kept q z := by
  obtain rfl := Host.Outcome.next.inj hx
  repeat' (
    first
      | (with_reducible assumption) | (with_reducible apply State.wordWrite_kept) | (with_reducible intro _)
      | (with_reducible apply kept_ite) | split | dsimp only)

theorem execReadClearRegister_kept {q : List Instr} (i : Initiator) (a : BitVec 17) {s : State} {z : State} (kq : Kept q s)
    (hx : execReadClearRegister i a s = .next z) : Kept q z := by
  obtain rfl := Host.Outcome.next.inj hx
  repeat' (
    first
      | (with_reducible assumption) | (with_reducible apply State.wordRead_kept) | (with_reducible intro _)
      | (with_reducible apply kept_ite) | split | dsimp only)

theorem execIrqStatusClear_kept {q : List Instr} (i : Initiator) (v : Word) {s : State} {z : State} (kq : Kept q s)
    (hx : execIrqStatusClear i v s = .next z) : Kept q z := by
  obtain rfl := Host.Outcome.next.inj hx
  repeat' (
    first
      | (with_reducible assumption) | (with_reducible apply State.portWrite_kept)
      | (with_reducible apply State.regWrite_kept) | (with_reducible intro _) | split | dsimp only)

theorem execIrqRawRead_kept {q : List Instr} (i : Initiator) {s : State} {z : State} (kq : Kept q s)
    (hx : execIrqRawRead i s = .next z) : Kept q z := by
  obtain rfl := Host.Outcome.next.inj hx
  repeat' (
    first
      | (with_reducible assumption) | (with_reducible apply State.portRead_kept)
      | (with_reducible apply State.readClear_kept) | (with_reducible intro _) | split | dsimp only)

theorem State.spiBegin_kept {q : List Instr} {s : State} (kq : Kept q s) :
    Kept q (State.spiBegin s) := by
  unfold State.spiBegin
  repeat' (
    first
      | (with_reducible assumption) | lift_lets
      | (intro x; have y : State := x; clear y; revert x; with_reducible apply kept_lift)
      | (intro x; have y : State := x.1; clear y; revert x; with_reducible apply kept_lift_fst)
      | (intro x; have y : State := x.2; clear y; revert x; with_reducible apply kept_lift_snd)
      | (intro x; clear_value x) | simp only [kept_mk, kept_fold] | (with_reducible intro _) | split
      | dsimp only)

theorem State.spiLost_kept {q : List Instr} {s : State} (f : Field) (kq : Kept q s) :
    Kept q (State.spiLost s f) := by
  unfold State.spiLost
  repeat' (
    first
      | (with_reducible assumption) | lift_lets
      | (intro x; have y : State := x; clear y; revert x; with_reducible apply kept_lift)
      | (intro x; have y : State := x.1; clear y; revert x; with_reducible apply kept_lift_fst)
      | (intro x; have y : State := x.2; clear y; revert x; with_reducible apply kept_lift_snd)
      | (intro x; clear_value x) | (with_reducible apply State.inc_kept) | simp only [kept_mk, kept_fold]
      | (with_reducible intro _) | split | dsimp only)

theorem State.spiDone_kept {q : List Instr} {s : State} (tag : Byte) (op len : Nat) (r : RunAnswer) (data : List Byte) (kq : Kept q s) :
    Kept q (State.spiDone s tag op len r data) := by
  unfold State.spiDone
  repeat' (
    first
      | (with_reducible assumption) | lift_lets
      | (intro x; have y : State := x; clear y; revert x; with_reducible apply kept_lift)
      | (intro x; have y : State := x.1; clear y; revert x; with_reducible apply kept_lift_fst)
      | (intro x; have y : State := x.2; clear y; revert x; with_reducible apply kept_lift_snd)
      | (intro x; clear_value x) | simp only [kept_mk, kept_fold] | (with_reducible intro _) | split
      | dsimp only)

theorem State.spiRefuse_kept {q : List Instr} {s : State} (tag : Byte) (op len : Nat) (res : Nat) (write : Bool) (a : Nat) (kq : Kept q s) :
    Kept q (State.spiRefuse s tag op len res write a) := by
  unfold State.spiRefuse
  repeat' (
    first
      | (with_reducible assumption) | (with_reducible apply State.accRecord_kept)
      | (with_reducible apply State.spiDone_kept) | (with_reducible intro _) | split | dsimp only)

theorem State.spiFrame_kept {q : List Instr} {s : State} (len : Nat) {k : State → State} (kq : Kept q s)
    (hk : ∀ s, Kept q s → Kept q (k s)) : Kept q (s.spiFrame len k) := by
  have h := State.spiBegin_kept kq
  unfold State.spiFrame
  refine kept_ite kq (kept_ite (kept_update h) (kept_ite (State.spiLost_kept _ h) ?_))
  exact hk _ (kept_update h)

theorem State.spiReadWords_kept {q : List Instr} {s : State} (fix : Bool) (tag : Byte) (len a : Nat) (kq : Kept q s) :
    Kept q (State.spiReadWords s fix tag len a) := by
  unfold State.spiReadWords
  repeat' (
    first
      | (with_reducible assumption) | (with_reducible apply State.readRun_kept)
      | (with_reducible apply State.reverse_kept) | (with_reducible apply State.spiDone_kept)
      | (with_reducible apply State.spiFrame_kept) | (with_reducible apply State.spiRefuse_kept)
      | (with_reducible intro _) | (with_reducible apply kept_ite) | split | dsimp only)

theorem State.spiWriteWords_kept {q : List Instr} {s : State} (fix : Bool) (tag : Byte) (len a : Nat) (data : List Word) (kq : Kept q s) :
    Kept q (State.spiWriteWords s fix tag len a data) := by
  unfold State.spiWriteWords
  repeat' (
    first
      | (with_reducible assumption) | (with_reducible apply State.lockedWrite_kept)
      | (with_reducible apply State.spiBegin_kept) | (with_reducible apply State.spiDone_kept)
      | (with_reducible apply State.spiFrame_kept) | (with_reducible apply State.spiLost_kept)
      | (with_reducible apply State.spiRefuse_kept) | (with_reducible apply State.writeRun_kept)
      | (with_reducible intro _) | (with_reducible apply kept_ite) | split | dsimp only)

theorem execSpiRd_kept {q : List Instr} (tag : Byte) (len : BitVec 16) (a : Word) {s : State} {z : State} (kq : Kept q s)
    (hx : execSpiRd tag len a s = .next z) : Kept q z := by
  obtain rfl := Host.Outcome.next.inj hx
  repeat' (
    first
      | (with_reducible assumption) | (with_reducible apply State.spiReadWords_kept) | (with_reducible intro _)
      | split | dsimp only)

theorem execSpiRdFix_kept {q : List Instr} (tag : Byte) (len : BitVec 16) (a : Word) {s : State} {z : State} (kq : Kept q s)
    (hx : execSpiRdFix tag len a s = .next z) : Kept q z := by
  obtain rfl := Host.Outcome.next.inj hx
  repeat' (
    first
      | (with_reducible assumption) | (with_reducible apply State.spiReadWords_kept) | (with_reducible intro _)
      | split | dsimp only)

theorem execSpiWr_kept {q : List Instr} (tag : Byte) (len : BitVec 16) (a : Word) (data : List Word) {s : State} {z : State} (kq : Kept q s)
    (hx : execSpiWr tag len a data s = .next z) : Kept q z := by
  obtain rfl := Host.Outcome.next.inj hx
  repeat' (
    first
      | (with_reducible assumption) | (with_reducible apply State.spiWriteWords_kept) | (with_reducible intro _)
      | split | dsimp only)

theorem execSpiWrFix_kept {q : List Instr} (tag : Byte) (len : BitVec 16) (a : Word) (data : List Word) {s : State} {z : State} (kq : Kept q s)
    (hx : execSpiWrFix tag len a data s = .next z) : Kept q z := by
  obtain rfl := Host.Outcome.next.inj hx
  repeat' (
    first
      | (with_reducible assumption) | (with_reducible apply State.spiWriteWords_kept) | (with_reducible intro _)
      | split | dsimp only)

theorem execSpiMemRd_kept {q : List Instr} (tag : Byte) (len : BitVec 16) (a : Word) {s : State} {z : State} (kq : Kept q s)
    (hx : execSpiMemRd tag len a s = .next z) : Kept q z := by
  obtain rfl := Host.Outcome.next.inj hx
  repeat' (
    first
      | (with_reducible assumption) | lift_lets
      | (intro x; have y : State := x; clear y; revert x; with_reducible apply kept_lift)
      | (intro x; have y : State := x.1; clear y; revert x; with_reducible apply kept_lift_fst)
      | (intro x; have y : State := x.2; clear y; revert x; with_reducible apply kept_lift_snd)
      | (intro x; clear_value x) | (with_reducible apply State.accRecord_kept)
      | (with_reducible apply State.readAfterSeal_kept) | (with_reducible apply State.spiDone_kept)
      | (with_reducible apply State.spiFrame_kept) | (with_reducible apply State.spiRefuse_kept)
      | simp only [kept_mk, kept_fold] | (with_reducible intro _) | (with_reducible apply kept_ite) | split
      | dsimp only)

theorem State.memWrApply_kept {q : List Instr} {s : State} (i : Initiator) (a : Nat) (bs : List Byte) (res : Nat) (kq : Kept q s) :
    Kept q (State.memWrApply s i a bs res) := by
  unfold State.memWrApply
  repeat' (
    first
      | (with_reducible assumption) | (with_reducible apply State.lockedWrite_kept)
      | (with_reducible apply State.memStore_kept) | (with_reducible apply State.offBlock_kept)
      | (with_reducible intro _) | (with_reducible apply kept_ite) | split | dsimp only)

theorem execSpiMemWr_kept {q : List Instr} (tag : Byte) (len : BitVec 16) (a : Word) (data : List Byte) {s : State} {z : State} (kq : Kept q s)
    (hx : execSpiMemWr tag len a data s = .next z) : Kept q z := by
  obtain rfl := Host.Outcome.next.inj hx
  repeat' (
    first
      | (with_reducible assumption) | (with_reducible apply State.accRecord_kept)
      | (with_reducible apply State.memWrApply_kept) | (with_reducible apply State.spiBegin_kept)
      | (with_reducible apply State.spiDone_kept) | (with_reducible apply State.spiFrame_kept)
      | (with_reducible apply State.spiLost_kept) | (with_reducible apply State.spiRefuse_kept)
      | (with_reducible intro _) | (with_reducible apply kept_ite) | split | dsimp only)

theorem execSpiStatus_kept {q : List Instr} (tag : Byte) (len : BitVec 16) (a : Word) {s : State} {z : State} (kq : Kept q s)
    (hx : execSpiStatus tag len a s = .next z) : Kept q z := by
  obtain rfl := Host.Outcome.next.inj hx
  repeat' (
    first
      | (with_reducible assumption) | (with_reducible apply State.spiFrame_kept)
      | (with_reducible apply State.spiRefuse_kept) | (with_reducible intro _) | split | dsimp only)

theorem execSpiOpNotUsed_kept {q : List Instr} (op : BitVec 4) (tag : Byte) (len : BitVec 16) (a : Word) {s : State} {z : State} (kq : Kept q s)
    (hx : execSpiOpNotUsed op tag len a s = .next z) : Kept q z := by
  obtain rfl := Host.Outcome.next.inj hx
  repeat' (
    first
      | (with_reducible assumption) | (with_reducible apply State.spiFrame_kept)
      | (with_reducible apply State.spiRefuse_kept) | (with_reducible intro _) | (with_reducible apply kept_ite)
      | split | dsimp only)

theorem execSpiFrameRejected_kept {q : List Instr} (crc : Bool) {s : State} {z : State} (kq : Kept q s)
    (hx : execSpiFrameRejected crc s = .next z) : Kept q z := by
  obtain rfl := Host.Outcome.next.inj hx
  repeat' (
    first
      | (with_reducible assumption) | (with_reducible apply State.spiBegin_kept)
      | (with_reducible apply State.spiLost_kept) | (with_reducible intro _) | (with_reducible apply kept_ite)
      | split | dsimp only)

theorem execSpiTimeout_kept {q : List Instr} {s : State} {z : State} (kq : Kept q s)
    (hx : execSpiTimeout s = .next z) : Kept q z := by
  obtain rfl := Host.Outcome.next.inj hx
  repeat' (
    first
      | (with_reducible assumption) | lift_lets
      | (intro x; have y : State := x; clear y; revert x; with_reducible apply kept_lift)
      | (intro x; have y : State := x.1; clear y; revert x; with_reducible apply kept_lift_fst)
      | (intro x; have y : State := x.2; clear y; revert x; with_reducible apply kept_lift_snd)
      | (intro x; clear_value x) | (with_reducible apply State.spiBegin_kept)
      | (with_reducible apply State.spiLost_kept) | simp only [kept_mk, kept_fold] | (with_reducible intro _)
      | (with_reducible apply kept_ite) | split | dsimp only)

theorem execSpiResponseReady_kept {q : List Instr} {s : State} {z : State} (kq : Kept q s)
    (hx : execSpiResponseReady s = .next z) : Kept q z := by
  obtain rfl := Host.Outcome.next.inj hx
  repeat' (
    first
      | (with_reducible assumption) | lift_lets
      | (intro x; have y : State := x; clear y; revert x; with_reducible apply kept_lift)
      | (intro x; have y : State := x.1; clear y; revert x; with_reducible apply kept_lift_fst)
      | (intro x; have y : State := x.2; clear y; revert x; with_reducible apply kept_lift_snd)
      | (intro x; clear_value x) | simp only [kept_mk, kept_fold] | (with_reducible intro _) | split
      | dsimp only)

theorem State.irLoad_kept {q : List Instr} {s : State} (ir : BitVec 4) (kq : Kept q s) :
    Kept q (State.irLoad s ir) := by
  unfold State.irLoad
  repeat' (
    first
      | (with_reducible assumption) | lift_lets
      | (intro x; have y : State := x; clear y; revert x; with_reducible apply kept_lift)
      | (intro x; have y : State := x.1; clear y; revert x; with_reducible apply kept_lift_fst)
      | (intro x; have y : State := x.2; clear y; revert x; with_reducible apply kept_lift_snd)
      | (intro x; clear_value x) | simp only [kept_mk, kept_fold] | (with_reducible intro _) | split
      | dsimp only)

theorem State.jtagDo_kept {q : List Instr} {s : State} (ir : BitVec 4) {k : State → State} (kq : Kept q s)
    (hk : ∀ s, Kept q s → Kept q (k s)) : Kept q (s.jtagDo ir k) :=
  kept_ite kq (hk _ (State.irLoad_kept ir kq))

theorem State.tapReset_kept {q : List Instr} {s : State} (kq : Kept q s) :
    Kept q (State.tapReset s) := by
  unfold State.tapReset
  repeat' (
    first
      | (with_reducible assumption) | lift_lets
      | (intro x; have y : State := x; clear y; revert x; with_reducible apply kept_lift)
      | (intro x; have y : State := x.1; clear y; revert x; with_reducible apply kept_lift_fst)
      | (intro x; have y : State := x.2; clear y; revert x; with_reducible apply kept_lift_snd)
      | (intro x; clear_value x) | simp only [kept_mk, kept_fold] | (with_reducible intro _) | split
      | dsimp only)

theorem State.jtagResult_kept {q : List Instr} {s : State} (kq : Kept q s) :
    Kept q (State.jtagResult s) := by
  unfold State.jtagResult
  repeat' (
    first
      | (with_reducible assumption) | lift_lets
      | (intro x; have y : State := x; clear y; revert x; with_reducible apply kept_lift)
      | (intro x; have y : State := x.1; clear y; revert x; with_reducible apply kept_lift_fst)
      | (intro x; have y : State := x.2; clear y; revert x; with_reducible apply kept_lift_snd)
      | (intro x; clear_value x) | simp only [kept_mk, kept_fold] | (with_reducible intro _)
      | (with_reducible apply kept_ite) | split | dsimp only)

theorem State.jtagRefuse_kept {q : List Instr} {s : State} (write : Bool) (a : Nat) (kq : Kept q s) :
    Kept q (State.jtagRefuse s write a) := by
  unfold State.jtagRefuse
  repeat' (
    first
      | (with_reducible assumption) | lift_lets
      | (intro x; have y : State := x; clear y; revert x; with_reducible apply kept_lift)
      | (intro x; have y : State := x.1; clear y; revert x; with_reducible apply kept_lift_fst)
      | (intro x; have y : State := x.2; clear y; revert x; with_reducible apply kept_lift_snd)
      | (intro x; clear_value x) | (with_reducible apply State.accPut_kept) | simp only [kept_mk, kept_fold]
      | (with_reducible intro _) | split | dsimp only)

theorem State.regaccGet_kept {q : List Instr} {s : State} (a : Nat) (kq : Kept q s) :
    Kept q (State.regaccGet s a) := by
  unfold State.regaccGet
  repeat' (
    first
      | (with_reducible assumption) | (with_reducible apply State.jtagRefuse_kept)
      | (with_reducible apply State.jtagResult_kept) | (with_reducible apply State.wordRead_kept)
      | (with_reducible intro _) | (with_reducible apply kept_ite) | split | dsimp only)

theorem State.regaccPut_kept {q : List Instr} {s : State} (a : Nat) (v : Word) (kq : Kept q s) :
    Kept q (State.regaccPut s a v) := by
  unfold State.regaccPut
  repeat' (
    first
      | (with_reducible assumption) | (with_reducible apply State.jtagRefuse_kept)
      | (with_reducible apply State.jtagResult_kept) | (with_reducible apply State.wordWrite_kept)
      | (with_reducible intro _) | (with_reducible apply kept_ite) | split | dsimp only)

theorem State.scanGrant_kept {q : List Instr} {s : State} (kq : Kept q s) :
    Kept q (State.scanGrant s) := by
  unfold State.scanGrant
  repeat' (
    first
      | (with_reducible assumption) | lift_lets
      | (intro x; have y : State := x; clear y; revert x; with_reducible apply kept_lift)
      | (intro x; have y : State := x.1; clear y; revert x; with_reducible apply kept_lift_fst)
      | (intro x; have y : State := x.2; clear y; revert x; with_reducible apply kept_lift_snd)
      | (intro x; clear_value x) | (with_reducible apply State.clearSecrets_kept)
      | simp only [kept_mk, kept_fold] | (with_reducible intro _) | (with_reducible apply kept_ite) | split
      | dsimp only)

theorem State.testEntry_kept {q : List Instr} {s : State} (kq : Kept q s) :
    Kept q (State.testEntry s) := by
  unfold State.testEntry
  repeat' (
    first
      | (with_reducible assumption) | (with_reducible apply State.clearSecrets_kept)
      | (with_reducible apply State.put_kept) | (with_reducible apply State.raise_kept)
      | (with_reducible apply State.rasterStop_kept) | (with_reducible intro _) | (with_reducible apply kept_ite)
      | split | dsimp only)

theorem execIdcode_kept {q : List Instr} {s : State} {z : State} (kq : Kept q s)
    (hx : execIdcode s = .next z) : Kept q z := by
  obtain rfl := Host.Outcome.next.inj hx
  repeat' (
    first
      | (with_reducible assumption) | (with_reducible apply State.jtagDo_kept) | (with_reducible intro _)
      | split | dsimp only)

theorem execRegaccRead_kept {q : List Instr} (a : Word) {s : State} {z : State} (kq : Kept q s)
    (hx : execRegaccRead a s = .next z) : Kept q z := by
  obtain rfl := Host.Outcome.next.inj hx
  repeat' (
    first
      | (with_reducible assumption) | (with_reducible apply State.jtagDo_kept)
      | (with_reducible apply State.regaccGet_kept) | (with_reducible intro _) | split | dsimp only)

theorem execRegaccWrite_kept {q : List Instr} (a v : Word) {s : State} {z : State} (kq : Kept q s)
    (hx : execRegaccWrite a v s = .next z) : Kept q z := by
  obtain rfl := Host.Outcome.next.inj hx
  repeat' (
    first
      | (with_reducible assumption) | (with_reducible apply State.jtagDo_kept)
      | (with_reducible apply State.regaccPut_kept) | (with_reducible intro _) | split | dsimp only)

theorem execScanEntry_kept {q : List Instr} {s : State} {z : State} (kq : Kept q s)
    (hx : execScanEntry s = .next z) : Kept q z := by
  obtain rfl := Host.Outcome.next.inj hx
  repeat' (
    first
      | (with_reducible assumption) | (with_reducible apply State.jtagDo_kept)
      | (with_reducible apply State.scanGrant_kept) | (with_reducible intro _) | split | dsimp only)

theorem execLk0640Entry_kept {q : List Instr} {s : State} {z : State} (kq : Kept q s)
    (hx : execLk0640Entry s = .next z) : Kept q z := by
  obtain rfl := Host.Outcome.next.inj hx
  repeat' (
    first
      | (with_reducible assumption) | (with_reducible apply State.jtagDo_kept)
      | (with_reducible apply State.testEntry_kept) | (with_reducible intro _) | split | dsimp only)

theorem State.irUpdate_kept {q : List Instr} {s : State} (ir : BitVec 4) (kq : Kept q s) :
    Kept q (State.irUpdate s ir) := by
  unfold State.irUpdate
  repeat' (
    first
      | (with_reducible assumption) | lift_lets
      | (intro x; have y : State := x; clear y; revert x; with_reducible apply kept_lift)
      | (intro x; have y : State := x.1; clear y; revert x; with_reducible apply kept_lift_fst)
      | (intro x; have y : State := x.2; clear y; revert x; with_reducible apply kept_lift_snd)
      | (intro x; clear_value x) | (with_reducible apply State.scanGrant_kept)
      | (with_reducible apply State.testEntry_kept) | simp only [kept_mk, kept_fold] | (with_reducible intro _)
      | (with_reducible apply kept_ite) | split | dsimp only)

theorem State.drUpdate_kept {q : List Instr} {s : State} (w : Nat) (kq : Kept q s) :
    Kept q (State.drUpdate s w) := by
  unfold State.drUpdate
  repeat' (
    first
      | (with_reducible assumption) | lift_lets
      | (intro x; have y : State := x; clear y; revert x; with_reducible apply kept_lift)
      | (intro x; have y : State := x.1; clear y; revert x; with_reducible apply kept_lift_fst)
      | (intro x; have y : State := x.2; clear y; revert x; with_reducible apply kept_lift_snd)
      | (intro x; clear_value x) | (with_reducible apply State.regaccGet_kept)
      | (with_reducible apply State.regaccPut_kept) | (with_reducible intro _) | (with_reducible apply kept_ite)
      | split | dsimp only)

theorem State.tapEdge_kept {q : List Instr} {s : State} (tms tdi : Bool) (kq : Kept q s) :
    Kept q (State.tapEdge s tms tdi) := by
  unfold State.tapEdge
  repeat' (
    first
      | (with_reducible assumption) | lift_lets
      | (intro x; have y : State := x; clear y; revert x; with_reducible apply kept_lift)
      | (intro x; have y : State := x.1; clear y; revert x; with_reducible apply kept_lift_fst)
      | (intro x; have y : State := x.2; clear y; revert x; with_reducible apply kept_lift_snd)
      | (intro x; clear_value x) | (with_reducible apply State.drUpdate_kept)
      | (with_reducible apply State.irUpdate_kept) | (with_reducible apply State.tapReset_kept)
      | simp only [kept_mk, kept_fold] | (with_reducible intro _) | split | dsimp only)

theorem State.tapTick_kept {q : List Instr} {s : State} (trst : Bool) (tck : List (Bool × Bool)) (kq : Kept q s) :
    Kept q (State.tapTick s trst tck) := by
  unfold State.tapTick
  repeat' (
    first
      | (with_reducible assumption) | lift_lets
      | (intro x; have y : State := x; clear y; revert x; with_reducible apply kept_lift)
      | (intro x; have y : State := x.1; clear y; revert x; with_reducible apply kept_lift_fst)
      | (intro x; have y : State := x.2; clear y; revert x; with_reducible apply kept_lift_snd)
      | (intro x; clear_value x) | (with_reducible apply State.tapEdge_kept)
      | (with_reducible apply State.tapReset_kept) | (with_reducible apply kept_foldl)
      | simp only [kept_mk, kept_fold] | (with_reducible intro _) | (with_reducible apply kept_ite) | split
      | dsimp only)

end Sys2Proof.Machine
end

