-- ==== Sys2Proof/Laws/KeptPackets.lean ====
section
/-!
SUPPORT. The operations of Machine/Packets.lean keep the queue and the canonical form.
-/

set_option linter.unusedSimpArgs false
set_option linter.unusedTactic false
set_option linter.unreachableTactic false

namespace Sys2Proof.Machine

theorem State.ackSend_kept {q : List Instr} {s : State} (nak replay : Bool) (seq st idx : Nat) (kq : Kept q s) :
    Kept q (State.ackSend s nak replay seq st idx) := by
  unfold State.ackSend
  repeat' (
    first
      | (with_reducible assumption) | lift_lets
      | (intro x; have y : State := x; clear y; revert x; with_reducible apply kept_lift)
      | (intro x; have y : State := x.1; clear y; revert x; with_reducible apply kept_lift_fst)
      | (intro x; have y : State := x.2; clear y; revert x; with_reducible apply kept_lift_snd)
      | (intro x; clear_value x) | (with_reducible apply State.injTake_kept) | simp only [kept_mk, kept_fold]
      | (with_reducible intro _) | (with_reducible apply kept_ite) | split | dsimp only)

theorem State.replayNak_kept {q : List Instr} {s : State} (st : Nat) (kq : Kept q s) :
    Kept q (State.replayNak s st) := by
  unfold State.replayNak
  repeat' (
    first
      | (with_reducible assumption) | lift_lets
      | (intro x; have y : State := x; clear y; revert x; with_reducible apply kept_lift)
      | (intro x; have y : State := x.1; clear y; revert x; with_reducible apply kept_lift_fst)
      | (intro x; have y : State := x.2; clear y; revert x; with_reducible apply kept_lift_snd)
      | (intro x; clear_value x) | (with_reducible apply State.ackSend_kept)
      | (with_reducible apply State.linkExit_kept) | (with_reducible apply State.pcount_kept)
      | simp only [kept_mk, kept_fold] | (with_reducible intro _) | (with_reducible apply kept_ite) | split
      | dsimp only)

theorem State.seqConsume_kept {q : List Instr} {s : State} (kq : Kept q s) :
    Kept q (State.seqConsume s) := by
  unfold State.seqConsume
  repeat' (
    first
      | (with_reducible assumption) | lift_lets
      | (intro x; have y : State := x; clear y; revert x; with_reducible apply kept_lift)
      | (intro x; have y : State := x.1; clear y; revert x; with_reducible apply kept_lift_fst)
      | (intro x; have y : State := x.2; clear y; revert x; with_reducible apply kept_lift_snd)
      | (intro x; clear_value x) | (with_reducible apply State.put_kept) | simp only [kept_mk, kept_fold]
      | (with_reducible intro _) | split | dsimp only)

theorem State.refuseRecord_kept {q : List Instr} {s : State} (d : Bool) (type st seq : Nat) (kq : Kept q s) :
    Kept q (State.refuseRecord s d type st seq) := by
  unfold State.refuseRecord
  repeat' (
    first
      | (with_reducible assumption) | (with_reducible apply State.pput_kept) | (with_reducible intro _) | split
      | dsimp only)

theorem State.packetOver_kept {q : List Instr} {s : State} (p : RxPacket) (e : LocalEnd) (kq : Kept q s) :
    Kept q (State.packetOver s p e) := by
  unfold State.packetOver
  repeat' (
    first
      | (with_reducible assumption) | lift_lets
      | (intro x; have y : State := x; clear y; revert x; with_reducible apply kept_lift)
      | (intro x; have y : State := x.1; clear y; revert x; with_reducible apply kept_lift_fst)
      | (intro x; have y : State := x.2; clear y; revert x; with_reducible apply kept_lift_snd)
      | (intro x; clear_value x) | (with_reducible apply State.ackSend_kept)
      | (with_reducible apply State.lnkRaise_kept) | (with_reducible apply State.pcount_kept)
      | (with_reducible apply State.refuseRecord_kept) | (with_reducible apply State.seqConsume_kept)
      | (with_reducible intro _) | (with_reducible apply kept_ite) | split | dsimp only)

theorem State.seqApplied_kept {q : List Instr} {s : State} (p : RxPacket) (kq : Kept q s) :
    Kept q (State.seqApplied s p) := by
  unfold State.seqApplied
  repeat' (
    first
      | (with_reducible assumption) | lift_lets
      | (intro x; have y : State := x; clear y; revert x; with_reducible apply kept_lift)
      | (intro x; have y : State := x.1; clear y; revert x; with_reducible apply kept_lift_fst)
      | (intro x; have y : State := x.2; clear y; revert x; with_reducible apply kept_lift_snd)
      | (intro x; clear_value x) | (with_reducible apply State.setPort_kept) | simp only [kept_mk, kept_fold]
      | (with_reducible intro _) | split | dsimp only)

theorem State.pktDiscard_kept {q : List Instr} {s : State} (a st idx : Nat) (kq : Kept q s) :
    Kept q (State.pktDiscard s a st idx).1 := by
  unfold State.pktDiscard
  repeat' (
    first
      | (with_reducible assumption) | (with_reducible apply State.accRecord_kept) | (with_reducible intro _)
      | split | dsimp only)

theorem State.pktRefused_kept {q : List Instr} {s : State} (p : RxPacket) (st : Nat) (kq : Kept q s) :
    Kept q (State.pktRefused s p st) := by
  unfold State.pktRefused
  repeat' (
    first
      | (with_reducible assumption) | (with_reducible apply State.accRecord_kept) | (with_reducible intro _)
      | split | dsimp only)

theorem State.pktPostNak_kept {q : List Instr} {s : State} (a : Nat) (kq : Kept q s) :
    Kept q (State.pktPostNak s a).1 := by
  unfold State.pktPostNak
  repeat' (
    first
      | (with_reducible assumption) | (with_reducible apply State.accRecord_kept) | (with_reducible intro _)
      | split | dsimp only)

theorem State.arrivalFail_kept {q : List Instr} {s : State} (t : Nat) (kq : Kept q s) :
    Kept q (State.arrivalFail s t).1 := by
  unfold State.arrivalFail
  repeat' (
    first
      | (with_reducible assumption) | lift_lets
      | (intro x; have y : State := x; clear y; revert x; with_reducible apply kept_lift)
      | (intro x; have y : State := x.1; clear y; revert x; with_reducible apply kept_lift_fst)
      | (intro x; have y : State := x.2; clear y; revert x; with_reducible apply kept_lift_snd)
      | (intro x; clear_value x) | (with_reducible apply State.accRecord_kept)
      | (with_reducible apply State.inc_kept) | (with_reducible apply State.raiseI_kept)
      | simp only [kept_mk, kept_fold] | (with_reducible intro _) | (with_reducible apply kept_ite)
      | (with_reducible apply kept_ite_fst) | (with_reducible apply kept_ite_snd) | split | dsimp only)

theorem State.tilePacket_kept {q : List Instr} {s : State} (p : RxPacket) (kq : Kept q s) :
    Kept q (State.tilePacket s p).1 := by
  unfold State.tilePacket
  repeat' (
    first
      | (with_reducible assumption) | lift_lets
      | (intro x; have y : State := x; clear y; revert x; with_reducible apply kept_lift)
      | (intro x; have y : State := x.1; clear y; revert x; with_reducible apply kept_lift_fst)
      | (intro x; have y : State := x.2; clear y; revert x; with_reducible apply kept_lift_snd)
      | (intro x; clear_value x) | (with_reducible apply State.afterSeal_kept)
      | (with_reducible apply State.arrivalFail_kept) | (with_reducible apply State.dirReadEffect_kept)
      | (with_reducible apply State.lockedWrite_kept) | (with_reducible apply State.offBlock_kept)
      | (with_reducible apply State.pktDiscard_kept) | (with_reducible apply State.pktPostNak_kept)
      | (with_reducible apply State.seqApplied_kept) | (with_reducible apply State.tileStore_kept)
      | simp only [kept_mk, kept_fold] | (with_reducible intro _) | (with_reducible apply kept_ite)
      | (with_reducible apply kept_ite_fst) | (with_reducible apply kept_ite_snd) | split | dsimp only)

theorem State.memPacket_kept {q : List Instr} {s : State} (p : RxPacket) (kq : Kept q s) :
    Kept q (State.memPacket s p).1 := by
  unfold State.memPacket
  repeat' (
    first
      | (with_reducible assumption) | lift_lets
      | (intro x; have y : State := x; clear y; revert x; with_reducible apply kept_lift)
      | (intro x; have y : State := x.1; clear y; revert x; with_reducible apply kept_lift_fst)
      | (intro x; have y : State := x.2; clear y; revert x; with_reducible apply kept_lift_snd)
      | (intro x; clear_value x) | (with_reducible apply State.memWrApply_kept)
      | (with_reducible apply State.pktDiscard_kept) | (with_reducible apply State.pktPostNak_kept)
      | (with_reducible apply State.seqApplied_kept) | (with_reducible intro _) | (with_reducible apply kept_ite)
      | (with_reducible apply kept_ite_fst) | (with_reducible apply kept_ite_snd) | split | dsimp only)

theorem State.regPacket_kept {q : List Instr} {s : State} (p : RxPacket) (kq : Kept q s) :
    Kept q (State.regPacket s p).1 := by
  unfold State.regPacket
  repeat' (
    first
      | (with_reducible assumption) | (with_reducible apply State.seqApplied_kept)
      | (with_reducible apply State.writeRun_kept) | (with_reducible intro _) | split | dsimp only)

theorem State.readPacket_kept {q : List Instr} {s : State} (p : RxPacket) (kq : Kept q s) :
    Kept q (State.readPacket s p).1 := by
  unfold State.readPacket
  repeat' (
    first
      | (with_reducible assumption) | (with_reducible apply State.readRun_kept)
      | (with_reducible apply State.retPush_kept) | (with_reducible apply State.reverse_kept)
      | (with_reducible apply State.seqApplied_kept) | (with_reducible intro _) | (with_reducible apply kept_ite)
      | (with_reducible apply kept_ite_fst) | (with_reducible apply kept_ite_snd) | split | dsimp only)

theorem State.commitPacket_kept {q : List Instr} {s : State} (p : RxPacket) (kq : Kept q s) :
    Kept q (State.commitPacket s p).1 := by
  unfold State.commitPacket
  repeat' (
    first
      | (with_reducible assumption) | lift_lets
      | (intro x; have y : State := x; clear y; revert x; with_reducible apply kept_lift)
      | (intro x; have y : State := x.1; clear y; revert x; with_reducible apply kept_lift_fst)
      | (intro x; have y : State := x.2; clear y; revert x; with_reducible apply kept_lift_snd)
      | (intro x; clear_value x) | (with_reducible apply State.seqApplied_kept)
      | (with_reducible apply State.wordWrite_kept) | (with_reducible intro _) | split | dsimp only)

theorem State.listPacket_kept {q : List Instr} {s : State} (p : RxPacket) (kq : Kept q s) :
    Kept q (State.listPacket s p).1 := by
  unfold State.listPacket
  repeat' (
    first
      | (with_reducible assumption) | lift_lets
      | (intro x; have y : State := x; clear y; revert x; with_reducible apply kept_lift)
      | (intro x; have y : State := x.1; clear y; revert x; with_reducible apply kept_lift_fst)
      | (intro x; have y : State := x.2; clear y; revert x; with_reducible apply kept_lift_snd)
      | (intro x; clear_value x) | (with_reducible apply State.listSubmit_kept)
      | (with_reducible apply State.portWrite_kept) | (with_reducible apply State.seqApplied_kept)
      | (with_reducible intro _) | (with_reducible apply kept_ite) | (with_reducible apply kept_ite_fst)
      | (with_reducible apply kept_ite_snd) | split | dsimp only)

theorem State.packetLocal_kept {q : List Instr} {s : State} (p : RxPacket) (kq : Kept q s) :
    Kept q (State.packetLocal s p).1 := by
  unfold State.packetLocal
  repeat' (
    first
      | (with_reducible assumption) | lift_lets
      | (intro x; have y : State := x; clear y; revert x; with_reducible apply kept_lift)
      | (intro x; have y : State := x.1; clear y; revert x; with_reducible apply kept_lift_fst)
      | (intro x; have y : State := x.2; clear y; revert x; with_reducible apply kept_lift_snd)
      | (intro x; clear_value x) | (with_reducible apply State.commitPacket_kept)
      | (with_reducible apply State.listPacket_kept) | (with_reducible apply State.memPacket_kept)
      | (with_reducible apply State.readPacket_kept) | (with_reducible apply State.regPacket_kept)
      | (with_reducible apply State.tilePacket_kept) | simp only [kept_mk, kept_fold] | (with_reducible intro _)
      | split | dsimp only)

theorem State.frameFail_kept {q : List Instr} {s : State} (kq : Kept q s) :
    Kept q (State.frameFail s) := by
  unfold State.frameFail
  repeat' (
    first
      | (with_reducible assumption) | (with_reducible apply State.lnkRaise_kept)
      | (with_reducible apply State.pcount_kept) | (with_reducible apply State.replayNak_kept)
      | (with_reducible intro _) | split | dsimp only)

theorem State.seqGap_kept {q : List Instr} {s : State} (kq : Kept q s) :
    Kept q (State.seqGap s) := by
  unfold State.seqGap
  repeat' (
    first
      | (with_reducible assumption) | (with_reducible apply State.replayNak_kept) | (with_reducible intro _)
      | (with_reducible apply kept_ite) | split | dsimp only)

theorem State.seqAccept_kept {q : List Instr} {s : State} (kq : Kept q s) :
    Kept q (State.seqAccept s) := by
  unfold State.seqAccept
  repeat' (
    first
      | (with_reducible assumption) | lift_lets
      | (intro x; have y : State := x; clear y; revert x; with_reducible apply kept_lift)
      | (intro x; have y : State := x.1; clear y; revert x; with_reducible apply kept_lift_fst)
      | (intro x; have y : State := x.2; clear y; revert x; with_reducible apply kept_lift_snd)
      | (intro x; clear_value x) | simp only [kept_mk, kept_fold] | (with_reducible intro _) | split
      | dsimp only)

theorem State.packetEnd_kept {q : List Instr} {s : State} (p : RxPacket) (fwd : Bool) (e : LocalEnd) (kq : Kept q s) :
    Kept q (State.packetEnd s p fwd e).1 := by
  unfold State.packetEnd
  repeat' (
    first
      | (with_reducible assumption) | lift_lets
      | (intro x; have y : State := x; clear y; revert x; with_reducible apply kept_lift)
      | (intro x; have y : State := x.1; clear y; revert x; with_reducible apply kept_lift_fst)
      | (intro x; have y : State := x.2; clear y; revert x; with_reducible apply kept_lift_snd)
      | (intro x; clear_value x) | (with_reducible apply State.packetOver_kept) | simp only [kept_mk, kept_fold]
      | (with_reducible intro _) | (with_reducible apply kept_ite) | (with_reducible apply kept_ite_fst)
      | (with_reducible apply kept_ite_snd) | split | dsimp only)

theorem State.packetApply_kept {q : List Instr} {s : State} (p : RxPacket) (kq : Kept q s) :
    Kept q (State.packetApply s p).1 := by
  unfold State.packetApply
  repeat' (
    first
      | (with_reducible assumption) | (with_reducible apply State.packetEnd_kept)
      | (with_reducible apply State.packetLocal_kept) | (with_reducible apply State.pktRefused_kept)
      | (with_reducible apply State.replayNak_kept) | simp only [kept_mk, kept_fold] | (with_reducible intro _)
      | (with_reducible apply kept_ite) | (with_reducible apply kept_ite_fst)
      | (with_reducible apply kept_ite_snd) | split | dsimp only)

theorem State.packetHead_kept {q : List Instr} {s : State} (p : RxPacket) (kq : Kept q s) :
    Kept q (State.packetHead s p).1 := by
  unfold State.packetHead
  repeat' (
    first
      | (with_reducible assumption) | lift_lets
      | (intro x; have y : State := x; clear y; revert x; with_reducible apply kept_lift)
      | (intro x; have y : State := x.1; clear y; revert x; with_reducible apply kept_lift_fst)
      | (intro x; have y : State := x.2; clear y; revert x; with_reducible apply kept_lift_snd)
      | (intro x; clear_value x) | (with_reducible apply State.ackSend_kept)
      | (with_reducible apply State.frameFail_kept) | (with_reducible apply State.injTake_kept)
      | (with_reducible apply State.packetApply_kept) | (with_reducible apply State.seqAccept_kept)
      | (with_reducible apply State.seqGap_kept) | (with_reducible intro _) | (with_reducible apply kept_ite)
      | (with_reducible apply kept_ite_fst) | (with_reducible apply kept_ite_snd) | split | dsimp only)

theorem State.rxStep_kept {q : List Instr} {s : State} (p : RxPacket) (t : List RxPacket) (kq : Kept q s) :
    Kept q (State.rxStep s p t).1 := by
  unfold State.rxStep
  repeat' (
    first
      | (with_reducible assumption) | (with_reducible apply State.packetHead_kept)
      | simp only [kept_mk, kept_fold] | (with_reducible intro _) | split | dsimp only)

theorem State.rxDrain_kept {q : List Instr} (n : Nat) {s : State} (kq : Kept q s) : Kept q (State.rxDrain n s) := by
  induction n generalizing s with
  | zero => exact kq
  | succ n ih =>
    unfold State.rxDrain
    split
    · exact kq
    · rename_i p t _
      have h := State.rxStep_kept p t kq
      exact kept_ite kq (kept_ite (ih h) h)

theorem State.rxRun_kept {q : List Instr} {s : State} (kq : Kept q s) :
    Kept q (State.rxRun s) := by
  unfold State.rxRun
  repeat' (
    first
      | (with_reducible assumption) | (with_reducible apply State.rxDrain_kept) | (with_reducible intro _)
      | split | dsimp only)

theorem State.returnAck_kept {q : List Instr} {s : State} (h : PktHead) (kq : Kept q s) :
    Kept q (State.returnAck s h) := by
  unfold State.returnAck
  repeat' (
    first
      | (with_reducible assumption) | lift_lets
      | (intro x; have y : State := x; clear y; revert x; with_reducible apply kept_lift)
      | (intro x; have y : State := x.1; clear y; revert x; with_reducible apply kept_lift_fst)
      | (intro x; have y : State := x.2; clear y; revert x; with_reducible apply kept_lift_snd)
      | (intro x; clear_value x) | (with_reducible apply State.injTake_kept)
      | (with_reducible apply State.pcount_kept) | simp only [kept_mk, kept_fold] | (with_reducible intro _)
      | (with_reducible apply kept_ite) | split | dsimp only)

theorem State.rxFull_kept {q : List Instr} {s : State} (kq : Kept q s) :
    Kept q (State.rxFull s) := by
  unfold State.rxFull
  repeat' (
    first
      | (with_reducible assumption) | (with_reducible apply State.replayNak_kept) | (with_reducible intro _)
      | split | dsimp only)

theorem State.packetIn_kept {q : List Instr} {s : State} (p : RxPacket) (kq : Kept q s) :
    Kept q (State.packetIn s p) := by
  unfold State.packetIn
  repeat' (
    first
      | (with_reducible assumption) | lift_lets
      | (intro x; have y : State := x; clear y; revert x; with_reducible apply kept_lift)
      | (intro x; have y : State := x.1; clear y; revert x; with_reducible apply kept_lift_fst)
      | (intro x; have y : State := x.2; clear y; revert x; with_reducible apply kept_lift_snd)
      | (intro x; clear_value x) | (with_reducible apply State.notTs_kept)
      | (with_reducible apply State.returnAck_kept) | (with_reducible apply State.rxFull_kept)
      | (with_reducible apply State.rxRun_kept) | simp only [kept_mk, kept_fold] | (with_reducible intro _)
      | (with_reducible apply kept_ite) | split | dsimp only)

theorem State.packetArrive_kept {q : List Instr} {s : State} (p : RxPacket) (kq : Kept q s) :
    Kept q (State.packetArrive s p) := by
  unfold State.packetArrive
  repeat' (
    first
      | (with_reducible assumption) | lift_lets
      | (intro x; have y : State := x; clear y; revert x; with_reducible apply kept_lift)
      | (intro x; have y : State := x.1; clear y; revert x; with_reducible apply kept_lift_fst)
      | (intro x; have y : State := x.2; clear y; revert x; with_reducible apply kept_lift_snd)
      | (intro x; clear_value x) | (with_reducible apply State.injColumn_kept)
      | (with_reducible apply State.packetIn_kept) | simp only [kept_mk, kept_fold] | (with_reducible intro _)
      | (with_reducible apply kept_ite) | split | dsimp only)

theorem execTileWrite_kept {q : List Instr} (h : PktHead) (payload : List Word) (dirRead : DirRead) {s : State} {z : State} (kq : Kept q s)
    (hx : execTileWrite h payload dirRead s = .next z) : Kept q z := by
  obtain rfl := Host.Outcome.next.inj hx
  repeat' (
    first
      | (with_reducible assumption) | (with_reducible apply State.packetArrive_kept) | (with_reducible intro _)
      | split | dsimp only)

theorem execMemWrite_kept {q : List Instr} (h : PktHead) (payload : List Word) {s : State} {z : State} (kq : Kept q s)
    (hx : execMemWrite h payload s = .next z) : Kept q z := by
  obtain rfl := Host.Outcome.next.inj hx
  repeat' (
    first
      | (with_reducible assumption) | (with_reducible apply State.packetArrive_kept) | (with_reducible intro _)
      | split | dsimp only)

theorem execRegWrite_kept {q : List Instr} (h : PktHead) (payload : List Word) {s : State} {z : State} (kq : Kept q s)
    (hx : execRegWrite h payload s = .next z) : Kept q z := by
  obtain rfl := Host.Outcome.next.inj hx
  repeat' (
    first
      | (with_reducible assumption) | (with_reducible apply State.packetArrive_kept)
      | (with_reducible apply State.regWrite_kept) | (with_reducible intro _) | split | dsimp only)

theorem execRegRead_kept {q : List Instr} (h : PktHead) (payload : List Word) {s : State} {z : State} (kq : Kept q s)
    (hx : execRegRead h payload s = .next z) : Kept q z := by
  obtain rfl := Host.Outcome.next.inj hx
  repeat' (
    first
      | (with_reducible assumption) | (with_reducible apply State.packetArrive_kept) | (with_reducible intro _)
      | split | dsimp only)

theorem execCommitPacket_kept {q : List Instr} (h : PktHead) (payload : List Word) {s : State} {z : State} (kq : Kept q s)
    (hx : execCommitPacket h payload s = .next z) : Kept q z := by
  obtain rfl := Host.Outcome.next.inj hx
  repeat' (
    first
      | (with_reducible assumption) | (with_reducible apply State.packetArrive_kept) | (with_reducible intro _)
      | split | dsimp only)

theorem execObjectList_kept {q : List Instr} (h : PktHead) (payload : List Word) {s : State} {z : State} (kq : Kept q s)
    (hx : execObjectList h payload s = .next z) : Kept q z := by
  obtain rfl := Host.Outcome.next.inj hx
  repeat' (
    first
      | (with_reducible assumption) | (with_reducible apply State.packetArrive_kept) | (with_reducible intro _)
      | split | dsimp only)

theorem execPacketTypeNotUsed_kept {q : List Instr} (type : BitVec 4) (h : PktHead) (payload : List Word) {s : State} {z : State} (kq : Kept q s)
    (hx : execPacketTypeNotUsed type h payload s = .next z) : Kept q z := by
  obtain rfl := Host.Outcome.next.inj hx
  repeat' (
    first
      | (with_reducible assumption) | (with_reducible apply State.packetArrive_kept) | (with_reducible intro _)
      | (with_reducible apply kept_ite) | split | dsimp only)

theorem State.idleFail_kept {q : List Instr} {s : State} (kq : Kept q s) :
    Kept q (State.idleFail s) := by
  unfold State.idleFail
  repeat' (
    first
      | (with_reducible assumption) | (with_reducible apply State.notTs_kept)
      | (with_reducible apply State.pcount_kept) | (with_reducible intro _) | split | dsimp only)

theorem State.idleFailUp_kept {q : List Instr} {s : State} (kq : Kept q s) :
    Kept q (State.idleFailUp s) := by
  unfold State.idleFailUp
  repeat' (
    first
      | (with_reducible assumption) | (with_reducible apply State.idleFail_kept) | (with_reducible intro _)
      | (with_reducible apply kept_ite) | split | dsimp only)

theorem execPacketFrameFail_kept {q : List Instr} (f : RxFrame) {s : State} {z : State} (kq : Kept q s)
    (hx : execPacketFrameFail f s = .next z) : Kept q z := by
  obtain rfl := Host.Outcome.next.inj hx
  repeat' (
    first
      | (with_reducible assumption) | (with_reducible apply State.idleFailUp_kept)
      | (with_reducible apply State.injColumn_kept) | (with_reducible apply State.packetArrive_kept)
      | (with_reducible intro _) | (with_reducible apply kept_ite) | split | dsimp only)

theorem execReceiveBufferFull_kept {q : List Instr} (h : PktHead) {s : State} {z : State} (kq : Kept q s)
    (hx : execReceiveBufferFull h s = .next z) : Kept q z := by
  obtain rfl := Host.Outcome.next.inj hx
  repeat' (
    first
      | (with_reducible assumption) | lift_lets
      | (intro x; have y : State := x; clear y; revert x; with_reducible apply kept_lift)
      | (intro x; have y : State := x.1; clear y; revert x; with_reducible apply kept_lift_fst)
      | (intro x; have y : State := x.2; clear y; revert x; with_reducible apply kept_lift_snd)
      | (intro x; clear_value x) | (with_reducible apply State.injColumn_kept)
      | (with_reducible apply State.notTs_kept) | (with_reducible apply State.returnAck_kept)
      | (with_reducible apply State.rxFull_kept) | (with_reducible apply State.rxRun_kept)
      | (with_reducible intro _) | (with_reducible apply kept_ite) | split | dsimp only)

theorem execIdlePacket_kept {q : List Instr} (d : Bool) (h : PktHead) (payload : List Word) {s : State} {z : State} (kq : Kept q s)
    (hx : execIdlePacket d h payload s = .next z) : Kept q z := by
  obtain rfl := Host.Outcome.next.inj hx
  repeat' (
    first
      | (with_reducible assumption) | (with_reducible apply State.idleFailUp_kept)
      | (with_reducible apply State.injColumn_kept) | (with_reducible apply State.notTs_kept)
      | (with_reducible apply State.pcount_kept) | (with_reducible apply State.returnAck_kept)
      | (with_reducible apply State.rxRun_kept) | (with_reducible intro _) | (with_reducible apply kept_ite)
      | split | dsimp only)

theorem execReturnResendTimeout_kept {q : List Instr} {s : State} {z : State} (kq : Kept q s)
    (hx : execReturnResendTimeout s = .next z) : Kept q z := by
  obtain rfl := Host.Outcome.next.inj hx
  repeat' (
    first
      | (with_reducible assumption) | (with_reducible apply State.retResend_kept)
      | (with_reducible apply State.rxRun_kept) | (with_reducible intro _) | (with_reducible apply kept_ite)
      | split | dsimp only)

theorem State.replayPush_kept {q : List Instr} {s : State} (p : RxPacket) (kq : Kept q s) :
    Kept q (State.replayPush s p) := by
  unfold State.replayPush
  repeat' (
    first
      | (with_reducible assumption) | lift_lets
      | (intro x; have y : State := x; clear y; revert x; with_reducible apply kept_lift)
      | (intro x; have y : State := x.1; clear y; revert x; with_reducible apply kept_lift_fst)
      | (intro x; have y : State := x.2; clear y; revert x; with_reducible apply kept_lift_snd)
      | (intro x; clear_value x) | (with_reducible apply State.injTake_kept)
      | (with_reducible apply State.put_kept) | (with_reducible apply State.wakePort_kept)
      | simp only [kept_mk, kept_fold] | (with_reducible intro _) | (with_reducible apply kept_ite) | split
      | dsimp only)

theorem State.noForward_kept {q : List Instr} {s : State} (p : RxPacket) (kq : Kept q s) :
    Kept q (State.noForward s p) := by
  unfold State.noForward
  repeat' (
    first
      | (with_reducible assumption) | (with_reducible apply State.pktRefused_kept) | (with_reducible intro _)
      | (with_reducible apply kept_ite) | split | dsimp only)

theorem State.forwardHead_kept {q : List Instr} {s : State} (p : RxPacket) (e : LocalEnd) (t : List RxPacket) (kq : Kept q s) :
    Kept q (State.forwardHead s p e t) := by
  unfold State.forwardHead
  repeat' (
    first
      | (with_reducible assumption) | lift_lets
      | (intro x; have y : State := x; clear y; revert x; with_reducible apply kept_lift)
      | (intro x; have y : State := x.1; clear y; revert x; with_reducible apply kept_lift_fst)
      | (intro x; have y : State := x.2; clear y; revert x; with_reducible apply kept_lift_snd)
      | (intro x; clear_value x) | (with_reducible apply State.noForward_kept)
      | (with_reducible apply State.packetOver_kept) | (with_reducible apply State.replayPush_kept)
      | (with_reducible apply State.rxRun_kept) | (with_reducible apply State.seqApplied_kept)
      | (with_reducible apply State.wakePort_kept) | simp only [kept_mk, kept_fold] | (with_reducible intro _)
      | (with_reducible apply kept_ite) | split | dsimp only)

theorem execPacketForward_kept {q : List Instr} {s : State} {z : State} (kq : Kept q s)
    (hx : execPacketForward s = .next z) : Kept q z := by
  obtain rfl := Host.Outcome.next.inj hx
  repeat' (
    first
      | (with_reducible assumption) | lift_lets
      | (intro x; have y : State := x; clear y; revert x; with_reducible apply kept_lift)
      | (intro x; have y : State := x.1; clear y; revert x; with_reducible apply kept_lift_fst)
      | (intro x; have y : State := x.2; clear y; revert x; with_reducible apply kept_lift_snd)
      | (intro x; clear_value x) | (with_reducible apply State.forwardHead_kept)
      | simp only [kept_mk, kept_fold] | (with_reducible intro _) | (with_reducible apply kept_ite) | split
      | dsimp only)

theorem State.replayResend_kept {q : List Instr} {s : State} (upset : Bool) (kq : Kept q s) :
    Kept q (State.replayResend s upset) := by
  unfold State.replayResend
  repeat' (
    first
      | (with_reducible assumption) | lift_lets
      | (intro x; have y : State := x; clear y; revert x; with_reducible apply kept_lift)
      | (intro x; have y : State := x.1; clear y; revert x; with_reducible apply kept_lift_fst)
      | (intro x; have y : State := x.2; clear y; revert x; with_reducible apply kept_lift_snd)
      | (intro x; clear_value x) | (with_reducible apply State.injTake_kept)
      | (with_reducible apply State.linkExit_kept) | (with_reducible apply State.lnkRaise_kept)
      | (with_reducible apply State.pcount_kept) | (with_reducible apply State.wakePort_kept)
      | simp only [kept_mk, kept_fold] | (with_reducible intro _) | (with_reducible apply kept_ite) | split
      | dsimp only)

theorem execDReplayTimeout_kept {q : List Instr} (upset : Bool) {s : State} {z : State} (kq : Kept q s)
    (hx : execDReplayTimeout upset s = .next z) : Kept q z := by
  obtain rfl := Host.Outcome.next.inj hx
  repeat' (
    first
      | (with_reducible assumption) | (with_reducible apply State.replayResend_kept) | (with_reducible intro _)
      | (with_reducible apply kept_ite) | split | dsimp only)

theorem State.replayAck_kept {q : List Instr} {s : State} (a free : Nat) (kq : Kept q s) :
    Kept q (State.replayAck s a free) := by
  unfold State.replayAck
  repeat' (
    first
      | (with_reducible assumption) | lift_lets
      | (intro x; have y : State := x; clear y; revert x; with_reducible apply kept_lift)
      | (intro x; have y : State := x.1; clear y; revert x; with_reducible apply kept_lift_fst)
      | (intro x; have y : State := x.2; clear y; revert x; with_reducible apply kept_lift_snd)
      | (intro x; clear_value x) | (with_reducible apply State.setPort_kept) | simp only [kept_mk, kept_fold]
      | (with_reducible intro _) | (with_reducible apply kept_ite) | split | dsimp only)

theorem execAckNak_kept {q : List Instr} (seq : BitVec 12) (nak replay : Bool) (status : Byte) (free : BitVec 5) (upset : Bool) {s : State} {z : State} (kq : Kept q s)
    (hx : execAckNak seq nak replay status free upset s = .next z) : Kept q z := by
  obtain rfl := Host.Outcome.next.inj hx
  repeat' (
    first
      | (with_reducible assumption) | lift_lets
      | (intro x; have y : State := x; clear y; revert x; with_reducible apply kept_lift)
      | (intro x; have y : State := x.1; clear y; revert x; with_reducible apply kept_lift_fst)
      | (intro x; have y : State := x.2; clear y; revert x; with_reducible apply kept_lift_snd)
      | (intro x; clear_value x) | (with_reducible apply State.notTs_kept)
      | (with_reducible apply State.refuseRecord_kept) | (with_reducible apply State.replayAck_kept)
      | (with_reducible apply State.replayResend_kept) | simp only [kept_mk, kept_fold] | (with_reducible intro _)
      | (with_reducible apply kept_ite) | split | dsimp only)

theorem State.returnReceive_kept {q : List Instr} {s : State} (type id seq : Nat) (payload : List Word) (kq : Kept q s) :
    Kept q (State.returnReceive s type id seq payload) := by
  unfold State.returnReceive
  repeat' (
    first
      | (with_reducible assumption) | lift_lets
      | (intro x; have y : State := x; clear y; revert x; with_reducible apply kept_lift)
      | (intro x; have y : State := x.1; clear y; revert x; with_reducible apply kept_lift_fst)
      | (intro x; have y : State := x.2; clear y; revert x; with_reducible apply kept_lift_snd)
      | (intro x; clear_value x) | (with_reducible apply State.put_kept)
      | (with_reducible apply State.retPush_kept) | simp only [kept_mk, kept_fold] | (with_reducible intro _)
      | (with_reducible apply kept_ite) | split | dsimp only)

theorem State.returnFail_kept {q : List Instr} {s : State} (kq : Kept q s) :
    Kept q (State.returnFail s) := by
  unfold State.returnFail
  repeat' (
    first
      | (with_reducible assumption) | lift_lets
      | (intro x; have y : State := x; clear y; revert x; with_reducible apply kept_lift)
      | (intro x; have y : State := x.1; clear y; revert x; with_reducible apply kept_lift_fst)
      | (intro x; have y : State := x.2; clear y; revert x; with_reducible apply kept_lift_snd)
      | (intro x; clear_value x) | (with_reducible apply State.pcount_kept) | simp only [kept_mk, kept_fold]
      | (with_reducible intro _) | split | dsimp only)

theorem State.returnWords_kept {q : List Instr} {s : State} (ws : List Word) (kq : Kept q s) :
    Kept q (State.returnWords s ws) := by
  unfold State.returnWords
  repeat' (
    first
      | (with_reducible assumption) | lift_lets
      | (intro x; have y : State := x; clear y; revert x; with_reducible apply kept_lift)
      | (intro x; have y : State := x.1; clear y; revert x; with_reducible apply kept_lift_fst)
      | (intro x; have y : State := x.2; clear y; revert x; with_reducible apply kept_lift_snd)
      | (intro x; clear_value x) | (with_reducible apply State.ack_kept)
      | (with_reducible apply State.pcount_kept) | (with_reducible apply State.returnReceive_kept)
      | (with_reducible intro _) | (with_reducible apply kept_ite) | split | dsimp only)

theorem execReturnPacketReceived_kept {q : List Instr} (w0 w1 : Word) (rest : List Word) (eop upset : Bool) {s : State} {z : State} (kq : Kept q s)
    (hx : execReturnPacketReceived w0 w1 rest eop upset s = .next z) : Kept q z := by
  obtain rfl := Host.Outcome.next.inj hx
  repeat' (
    first
      | (with_reducible assumption) | (with_reducible apply State.notTs_kept)
      | (with_reducible apply State.returnFail_kept) | (with_reducible apply State.returnWords_kept)
      | (with_reducible intro _) | (with_reducible apply kept_ite) | split | dsimp only)

theorem execLnkInject_kept {q : List Instr} (i : Initiator) (v : Word) {s : State} {z : State} (kq : Kept q s)
    (hx : execLnkInject i v s = .next z) : Kept q z := by
  obtain rfl := Host.Outcome.next.inj hx
  repeat' (
    first
      | (with_reducible assumption) | (with_reducible apply State.linkInject_kept)
      | (with_reducible apply State.portWrite_kept) | (with_reducible intro _) | split | dsimp only)

end Sys2Proof.Machine
end

