-- ==== Sys2Proof/Laws/KeptTicks.lean ====
section
/-!
SUPPORT. The operations of Machine/Ticks.lean keep the queue and the canonical form.
-/

set_option linter.unusedSimpArgs false
set_option linter.unusedTactic false
set_option linter.unreachableTactic false

namespace Sys2Proof.Machine

theorem execSafetyTick_kept {q : List Instr} (t : TickIn) {s : State} {z : State} (kq : Kept q s)
    (hx : execSafetyTick t s = .next z) : Kept q z := by
  obtain rfl := Host.Outcome.next.inj hx
  repeat' (
    first
      | (with_reducible assumption) | lift_lets
      | (intro x; have y : State := x; clear y; revert x; with_reducible apply kept_lift)
      | (intro x; have y : State := x.1; clear y; revert x; with_reducible apply kept_lift_fst)
      | (intro x; have y : State := x.2; clear y; revert x; with_reducible apply kept_lift_snd)
      | (intro x; clear_value x) | (with_reducible apply State.cfgTick_kept)
      | (with_reducible apply State.cvnTick_kept) | (with_reducible apply State.dirHits_kept)
      | (with_reducible apply State.fltTick_kept) | (with_reducible apply State.lnkTick_kept)
      | (with_reducible apply State.pwrTick_kept) | (with_reducible apply State.recTick_kept)
      | (with_reducible apply State.safTick_kept) | (with_reducible apply State.tapTick_kept)
      | (with_reducible apply State.thmTick_kept) | (with_reducible intro _) | (with_reducible apply kept_ite)
      | split | dsimp only)

end Sys2Proof.Machine
end

