-- ==== Sys2Proof/Laws/Memory.lean ====
section
/-!
SUPPORT. What the operations over the two memory windows do: a byte written is read back, every byte beside is left
alone, and the canonical form is kept.
-/

namespace Sys2Proof.Machine

/-- The two forms of the canonical form agree. -/
theorem sparseWfB_iff {α : Type} [DecidableEq α] {d : Nat → α} {m : Sparse α} : sparseWfB d m = true ↔ SparseWf d m := by
  induction m with
  | nil => simp [sparseWfB]
  | cons e m ih =>
    cases m with
    | nil => simp [sparseWfB, SparseWf]
    | cons f t =>
      have two : SparseWf d (e :: f :: t) ↔ e.1 < f.1 ∧ e.2 ≠ d e.1 ∧ SparseWf d (f :: t) := by
        simp only [SparseWf, List.pairwise_cons, List.forall_mem_cons]
        grind
      rw [two, ← ih]
      simp [sparseWfB]
      tauto

/-- Bytes outside a write of layer memory are left alone. -/
theorem State.lmByte_lmWrite_out {s : State} {a j : Nat} {bs : List Byte} (h : j < a ∨ a + bs.length ≤ j) :
    (s.lmWrite a bs).lmByte j = s.lmByte j := sparseGet_fill_out h

/-- Bytes written to layer memory are read back. -/
theorem State.lmByte_lmWrite_in {s : State} {a i : Nat} {bs : List Byte} (hs : s.Wf) (hi : i < bs.length) :
    (s.lmWrite a bs).lmByte (a + i) = bs[i] := sparseGet_fill_in hs.2.2.1 hi

/-- Bytes outside a write of non-volatile memory are left alone. -/
theorem State.nvByte_nvWrite_out {s : State} {a j : Nat} {bs : List Byte} (h : j < a ∨ a + bs.length ≤ j) :
    (s.nvWrite a bs).nvByte j = s.nvByte j := sparseGet_fill_out h

/-- Bytes written to non-volatile memory are read back. -/
theorem State.nvByte_nvWrite_in {s : State} {a i : Nat} {bs : List Byte} (hs : s.Wf) (hi : i < bs.length) :
    (s.nvWrite a bs).nvByte (a + i) = bs[i] := sparseGet_fill_in hs.2.2.2 hi

/-- A write of layer memory keeps the canonical form. -/
theorem State.lmWrite_wf {s : State} (a : Nat) (bs : List Byte) (h : Memory.wf s.lmem = true) :
    Memory.wf (s.lmWrite a bs).lmem = true :=
  sparseWfB_iff.mpr (sparseWf_fill a bs (sparseWfB_iff.mp h))

/-- A write of non-volatile memory keeps the canonical form. -/
theorem State.nvWrite_wf {s : State} (a : Nat) (bs : List Byte) (h : Memory.wf s.nvm = true) :
    Memory.wf (s.nvWrite a bs).nvm = true :=
  sparseWfB_iff.mpr (sparseWf_fill a bs (sparseWfB_iff.mp h))

/-- A seal that loses its tile leaves every byte alone. -/
theorem State.sealLost_lmem {s : State} (r : Nat) : (s.sealLost r).lmem = s.lmem := by
  unfold State.sealLost
  split <;> rfl

/-- Emptying a bank keeps the canonical form. -/
theorem State.bankLost_wf {s : State} (b : Nat) (h : Memory.wf s.lmem = true) : Memory.wf (s.bankLost b).lmem = true := by
  refine sparseWfB_iff.mpr (sparseWf_clear _ _ (sparseWfB_iff.mp ?_))
  split
  · exact (congrArg (fun m => Memory.wf m = true) (State.sealLost_lmem (s := s) 2)).mpr h
  · exact h

/-- The directory update of a partial write leaves every byte alone. -/
theorem State.unsealTiles_lmem {s : State} (ts : List Nat) : (s.unsealTiles ts).lmem = s.lmem := by
  induction ts generalizing s with
  | nil => rfl
  | cons t ts ih => exact ih.trans rfl

/-- What a read of a directory entry finds leaves every byte alone. -/
theorem State.dirFound_lmem {s : State} (t : Nat) (r : DirRead) (i : FaultInfo) : (s.dirFound t r i).lmem = s.lmem := by
  cases r
  · rfl
  all_goals
    simp only [State.dirFound, State.raiseI]
    split <;> rfl

/-- A seal leaves every byte alone. -/
theorem State.sealEnd_lmem {s : State} : s.sealEnd.lmem = s.lmem := by
  unfold State.sealEnd
  split
  · rfl
  · exact State.dirFound_lmem _ _ _

theorem State.afterSeal_lmem {s : State} (ts : List Nat) : (s.afterSeal ts).lmem = s.lmem := by
  unfold State.afterSeal
  split
  · rfl
  · split
    · exact State.sealEnd_lmem
    · rfl

/-- Reads of directory entries leave every byte alone. -/
theorem State.dirTouches_lmem {s : State} (i : FaultInfo) (ts : List Nat) : (s.dirTouches i ts).lmem = s.lmem := by
  induction ts generalizing s with
  | nil => rfl
  | cons t ts ih => exact ih.trans (State.dirFound_lmem t _ i)

/-- A partial write changes the bytes it writes and no other (R74). -/
theorem State.lmByte_memStore_out {s : State} {a j : Nat} {bs : List Byte} {i : FaultInfo}
    (h : j < a ∨ a + bs.length ≤ j) : (s.memStore a bs i).lmByte j = s.lmByte j := by
  unfold State.memStore
  rw [State.lmByte_lmWrite_out h]
  unfold State.lmByte
  rw [State.unsealTiles_lmem, State.dirTouches_lmem, State.afterSeal_lmem]

/-- A TILE_WRITE changes the bytes of its tile and no other (R73). -/
theorem State.lmByte_tileStore_out {s : State} {t j : Nat} {crc : Word} {bs : List Byte}
    (h : j < tileAddr t ∨ tileAddr t + bs.length ≤ j) : (s.tileStore t crc bs).lmByte j = s.lmByte j := by
  unfold State.tileStore
  rw [State.lmByte_lmWrite_out h]
  exact congrArg (fun m => sparseGet memDefault m j) (State.afterSeal_lmem [t])

end Sys2Proof.Machine
end

