-- ==== Sys2Proof/WellFormed.lean ====
section
/-!
DEFINITION. Which commands can reach the block: bounds that the spec sets to what a command carries.  A meaning is
given for every command; a well-formed one stays within the sizes of the array, the packets and the lanes.
-/

namespace Sys2Proof

/-- A column of the array (R1). -/
def columnOk (x : Nat) : Bool := decide (x < 2048)

/-- A row of the array (R1). -/
def rowOk (y : Nat) : Bool := decide (y < 512)

/-- A phase of the rail: N_PH is 1 to 6 (R229). -/
def phaseOk (p : BitVec 3) : Bool := decide (p.toNat < 6)

/-- Upsets of a line lie within the array. -/
def lineUpsetsOk (u : LineUpsets) : Bool :=
  u.gain.all columnOk && (u.map.all fun m => columnOk m.x && decide (m.state < 4)) && u.taps.all columnOk

/-- A training set brings one symbol of each receive lane: four on port U, one on port D (R333). -/
def lanesOk (d : Bool) (l : List TsLane) : Bool := l.length == (if d then 1 else 4)

/-- A packet has at most 1,026 payload words (R343, R345). -/
def payloadOk (p : List Word) : Bool := decide (p.length ≤ 1026)

/-- A type of the forward lanes that is not used there (R345). -/
def unusedType (t : BitVec 4) : Bool := t.toNat == 5 || decide (8 ≤ t.toNat)

/-- The fields of an EPOCH header have their widths (R369). -/
def epochOk (h : EpochFrame) : Bool :=
  decide (h.epoch < 65536) && decide (h.curVb < 1024) && decide (h.nSlots < 4096) && decide (h.vb < 1024) &&
    decide (h.k < 512) && decide (h.nxNSlots < 4096) && decide (h.nxVb < 1024) && decide (h.nxK < 512) &&
    decide (h.c < 4096) && decide (h.a < 524288) && decide (h.shLen < 32)

/-- A register address: a multiple of 4 within the register region (R23). -/
def registerOk (a : BitVec 17) : Bool := a.toNat % 4 == 0 && decide (a.toNat < 0x15000)

/-- A measurement pair has as many values on both sides (R455). -/
def calPairOk (p : CalPair) : Bool :=
  match p with
  | .link a b => a.length == b.length
  | .precharge => true
  | .isns a b => a.length == b.length
  | .trim a b => a.length == b.length && a.length == 32

/-- Upsets of LP7's coefficient words name words of its table (R246). -/
def complianceOk (r : Compliance) : Bool :=
  match r with
  | .none => true
  | .bad upsets => upsets.all fun i => decide (i < 16)
  | .report _ _ upsets _ => upsets.all fun i => decide (i < 16)

/-- The command is within the bounds of the spec. -/
def Instr.wellFormed : Instr → Bool
  | .retime _ _ => true
  | .rasterStart => true
  | .startOfBlank => true
  | .frameDone _ => true
  | .lineStart upsets => lineUpsetsOk upsets
  | .displayLoad upsets => upsets.all fun u => columnOk u.1
  | .emitterSense high low volts => high.all columnOk && low.all columnOk && volts.all fun u => columnOk u.1
  | .readback upsets => upsets.all fun u => columnOk u.1
  | .spareSlotMaskWrite _ upsets => upsets.all columnOk
  | .maskEpoch => true
  | .maskPassGroup upsets => upsets.all fun u => rowOk u.1 && columnOk u.2
  | .rowGroupBoundary _ => true
  | .isetMeasure _ _ => true
  | .isetFault => true
  | .headroomTrim r => complianceOk r
  | .bandFetchStart => true
  | .tileCrcCheck upsets _ => upsets.all fun u => decide (u.1 < 4096)
  | .rowComposition _ _ => true
  | .compositionDeadline d => d.pixels.length == 12 && (d.pixels.all fun n => decide (n ≤ 2048)) && lineUpsetsOk { gain := d.gain, map := d.map }
  | .outStall => true
  | .gainReloadRow => true
  | .innerSample _ _ _ _ _ => true
  | .phasePulseStart p => phaseOk p
  | .phasePulseEnd p => phaseOk p
  | .isnsConversion p _ _ => phaseOk p
  | .loopEvaluation upsets _ => upsets.all fun i => decide (i < 16)
  | .loopFallback => true
  | .railStartTimeout => true
  | .vledOvp => true
  | .vledUvp => true
  | .isnsRangeFault => true
  | .isnsRefFault => true
  | .psFltNLow => true
  | .cbcTrip p => phaseOk p
  | .phaseOc => true
  | .crestFallback _ => true
  | .fanPeriod => true
  | .tachFault => true
  | .railEnWrite _ _ => true
  | .swapBanks _ _ => true
  | .loopBankSwap => true
  | .fbClear _ loop _ => decide (loop.toNat < 9)
  | .lpeCoefMWrite _ _ => true
  | .lpeCoefMRead _ => true
  | .sensorGate counts => counts.length == 32
  | .sensorPublish => true
  | .sensorBroken => true
  | .shutdownEnd => true
  | .throttleGraceExpiry => true
  | .throttleRetimeIssue => true
  | .throttleRelease => true
  | .slaveThrottleTimeout => true
  | .safetyTick _ => true
  | .darkPadActive _ _ => true
  | .darkRelightExpiry => true
  | .darkDiscrepancy => true
  | .darkSw _ _ => true
  | .firmwareOasisRequest _ _ => true
  | .safLock _ _ => true
  | .darkNetMismatch _ => true
  | .darkNetProof _ => true
  | .leaveInit => true
  | .srstFall => true
  | .srstRise => true
  | .srstStuck => true
  | .relightFbTimeout => true
  | .relightComplete => true
  | .dimEntry => true
  | .rampTick => true
  | .envelopeExceeded => true
  | .lrmFbMismatch => true
  | .oasisBootCheck => true
  | .oasisRowCheck _ => true
  | .sealReadStart => true
  | .sealLatch => true
  | .safeOutFail => true
  | .islandSupplyFault => true
  | .islandReset => true
  | .islandResetEnd => true
  | .clockMonitorFail => true
  | .islandOscStop _ => true
  | .clockOffGrantEnd => true
  | .rasterStall => true
  | .engineMismatch west east => decide (west.c < 4096) && decide (east.c < 4096)
  | .refMonitorFault _ _ => true
  | .faultLiveRise _ => true
  | .faultLiveFall _ => true
  | .faultPairInvalid _ _ => true
  | .faultPairProof _ => true
  | .t1Expiry _ => true
  | .t2Expiry _ => true
  | .fltAck _ _ => true
  | .fltInject _ _ => true
  | .injectionEnd => true
  | .fltFirstRel _ _ => true
  | .faultPinFail => true
  | .linkDownExpiry _ => true
  | .signalDetected _ => true
  | .ts1Received d lanes => lanesOk d lanes
  | .ts2Received d lanes _ => lanesOk d lanes
  | .trainingTimeout _ => true
  | .trainPacket _ _ _ _ => true
  | .skpTimeout _ => true
  | .codeErrorLimit _ _ => true
  | .eiosReceived _ _ => true
  | .l1IdleExpiry => true
  | .lowPowerExitTimeout _ => true
  | .retrain _ _ _ => true
  | .packetFrameFail _ => true
  | .receiveBufferFull _ => true
  | .idlePacket _ _ payload => payloadOk payload
  | .tileWrite _ payload _ => payloadOk payload
  | .memWrite _ payload => payloadOk payload
  | .regWrite _ payload => payloadOk payload
  | .regRead _ payload => payloadOk payload
  | .commitPacket _ payload => payloadOk payload
  | .objectList _ payload => payloadOk payload
  | .packetForward => true
  | .ackNak _ _ _ _ _ _ => true
  | .returnPacketReceived _ _ _ _ _ => true
  | .dReplayTimeout _ => true
  | .returnResendTimeout => true
  | .hostTimeout => true
  | .irqMessage => true
  | .lnkInject _ _ => true
  | .epochFrameReceived h _ _ _ => epochOk h
  | .epochMissing => true
  | .epochLost => true
  | .slaveResyncLoad => true
  | .enumRequest _ _ => true
  | .enumFrameSend => true
  | .enumFrameReceived _ _ _ fills _ => decide (fills ≤ 4095)
  | .shareReceived bytes _ => decide (bytes.length ≤ 16)
  | .shareDimWrite => true
  | .masterFrameReceived _ => true
  | .ringReturnTimeout => true
  | .tdmEdge _ => true
  | .tdmLoss => true
  | .standbyWaitExpiry => true
  | .claimToActive => true
  | .abdication => true
  | .tdmOutMismatch _ => true
  | .tandemDarkEnd => true
  | .resetNLow => true
  | .resetNRelease _ _ => true
  | .bootStepDone _ => true
  | .bootStepTimeout => true
  | .pwrReq _ _ => true
  | .pixReady => true
  | .rasterStop => true
  | .transitionStepDone => true
  | .transitionStepTimeout => true
  | .slaveStartTimeout => true
  | .wakeEvent _ => true
  | .wakeStepReady _ => true
  | .wakeStepTimeout => true
  | .railWindowFault => true
  | .pllLockLoss => true
  | .pllRelock => true
  | .vpixLoss => true
  | .vpixRestored => true
  | .freezeRequest _ => true
  | .gpio3RisingEdge => true
  | .startJob _ _ _ => true
  | .memScan _ _ => true
  | .nvmWrite _ _ => true
  | .bistRun _ _ => true
  | .calRun _ _ => true
  | .imageLoad _ _ => true
  | .restructure _ _ => true
  | .defectRebuild _ _ => true
  | .lifecycle _ _ => true
  | .recCheckpoint _ _ => true
  | .suspendJob _ _ => true
  | .jobSuspended _ _ => true
  | .resumeJob _ _ => true
  | .cancelJob _ _ => true
  | .scanComplete => true
  | .nvmUnitStart => true
  | .nvmUnitDone => true
  | .imageStaged _ => true
  | .restructureSwap => true
  | .restructureNoOasis => true
  | .lifecycleFuseBlow _ => true
  | .dropImage _ _ => true
  | .keyWrite _ _ _ => true
  | .lk0640Entry => true
  | .scanEntry => true
  | .idcode => true
  | .regaccRead _ => true
  | .regaccWrite _ _ => true
  | .postGroupDone _ _ => true
  | .latchTestRow failed => failed.all columnOk
  | .bgTestSlice => true
  | .bankTestDone _ => true
  | .migrateDone => true
  | .bgEnWrite _ _ => true
  | .bankEnWrite _ _ => true
  | .sealTile _ _ => true
  | .sealComplete _ => true
  | .cmpTtDataRead _ => true
  | .cmpTtDataWrite _ _ => true
  | .sclCoefDataRead _ => true
  | .sclCoefDataWrite _ _ => true
  | .aryPcDataRead _ => true
  | .aryPcDataWrite _ _ => true
  | .cvnShDataAccess _ _ => true
  | .hltDefectSet _ _ => true
  | .hltDlog0Read _ => true
  | .defectLimitWrite _ _ => true
  | .senseRowFault => true
  | .rbPersist => true
  | .signatureMissLimit => true
  | .mskSubmit _ _ => true
  | .listTimeout => true
  | .gainReload _ _ => true
  | .commitArm _ _ _ => true
  | .commitWithdraw _ => true
  | .commitStale => true
  | .followTimeout => true
  | .operatingSecond _ => true
  | .litSecond => true
  | .checkpointStart => true
  | .checkpointCommit => true
  | .checkpointTimeout => true
  | .calAutoTrigger => true
  | .calItemComplete p => calPairOk p
  | .spiStatus _ _ _ => true
  | .spiRd _ _ _ => true
  | .spiWr _ _ _ _ => true
  | .spiRdFix _ _ _ => true
  | .spiWrFix _ _ _ _ => true
  | .spiMemRd _ _ _ => true
  | .spiMemWr _ _ _ _ => true
  | .spiFrameRejected _ => true
  | .spiTimeout => true
  | .spiResponseReady => true
  | .irqStatusClear _ _ => true
  | .irqRawRead _ => true
  | .readClearRegister _ a => registerOk a
  | .registerWrite _ a _ => registerOk a
  | .vddBelowThreshold => true
  | .vddaLnkLoss => true
  | .nomadDomainReady => true
  | .restoreMergeDone => true
  | .bodyReadTimeout => true
  | .preChargeCalibrationSlot ones => ones.length == 2048 && ones.all fun n => decide (n ≤ 8)
  | .packetTypeNotUsed type _ payload => unusedType type && payloadOk payload
  | .spiOpNotUsed op _ _ _ => decide (7 ≤ op.toNat)

end Sys2Proof
end

