-- ==== Sys2Proof/Laws/PerInstr.lean ====
section
/-!
SUPPORT. Per command: a well-formed one names columns of the array only, and brings no more payload words than a packet
holds (R1, R343).
-/

namespace Sys2Proof.Laws.OperandBounds

/-- Columns that a command names. -/
def columns : Instr → List Nat
  | .lineStart u => u.gain ++ (u.map.map fun m => m.x) ++ u.taps
  | .displayLoad u => u.map Prod.fst
  | .emitterSense high low volts => high ++ low ++ volts.map Prod.fst
  | .readback u => u.map Prod.fst
  | .spareSlotMaskWrite _ u => u
  | .maskPassGroup u => u.map Prod.snd
  | .latchTestRow failed => failed
  | _ => []

/-- Payload words that a command brings. -/
def payload : Instr → List Word
  | .idlePacket _ _ p => p
  | .tileWrite _ p _ => p
  | .memWrite _ p => p
  | .regWrite _ p => p
  | .regRead _ p => p
  | .commitPacket _ p => p
  | .objectList _ p => p
  | .packetTypeNotUsed _ _ p => p
  | _ => []

/-- The operands of a well-formed command are within the bounds of the array and of a packet. -/
def Statement (i : Instr) : Prop :=
  i.wellFormed = true → (∀ x, x ∈ columns i → x < 2048) ∧ (payload i).length ≤ 1026

/-- A command that names no column and brings no payload. -/
theorem none {i : Instr} (hc : columns i = []) (hp : payload i = []) : Statement i := by
  intro _
  rw [hc, hp]
  exact ⟨(fun x h => nomatch h), Nat.zero_le _⟩

/-- A command that brings a payload and names no column. -/
theorem words {i : Instr} {p : List Word} (hc : columns i = []) (hp : payload i = p) (h : i.wellFormed = payloadOk p) :
    Statement i := by
  intro hw
  rw [hc, hp]
  exact ⟨(fun x hx => nomatch hx), of_decide_eq_true (h.symm.trans hw)⟩

/-- A command that names columns and brings no payload. -/
theorem named {i : Instr} (hp : payload i = []) (h : i.wellFormed = true → ∀ x, x ∈ columns i → x < 2048) :
    Statement i := by
  intro hw
  rw [hp]
  exact ⟨h hw, Nat.zero_le _⟩

theorem retime : ∀ a b, Statement (.retime a b) := fun _ _ => none rfl rfl
theorem rasterStart : Statement .rasterStart := none rfl rfl
theorem startOfBlank : Statement .startOfBlank := none rfl rfl
theorem frameDone : ∀ a, Statement (.frameDone a) := fun _ => none rfl rfl
theorem lineStart : ∀ a, Statement (.lineStart a) := fun u => named rfl fun hw x hx => by
  simp only [Instr.wellFormed, lineUpsetsOk, columnOk, Bool.and_eq_true, List.all_eq_true, decide_eq_true_eq] at hw
  simp only [columns, List.mem_append, List.mem_map] at hx
  rcases hx with (hx | ⟨m, hm, rfl⟩) | hx
  · exact hw.1.1 x hx
  · exact (hw.1.2 m hm).1
  · exact hw.2 x hx

theorem displayLoad : ∀ a, Statement (.displayLoad a) := fun u => named rfl fun hw x hx => by
  simp only [Instr.wellFormed, columnOk, List.all_eq_true, decide_eq_true_eq] at hw
  obtain ⟨e, he, rfl⟩ := List.mem_map.1 hx
  exact hw e he

theorem emitterSense : ∀ a b c, Statement (.emitterSense a b c) := fun _ _ _ => named rfl fun hw x hx => by
  simp only [Instr.wellFormed, columnOk, Bool.and_eq_true, List.all_eq_true, decide_eq_true_eq] at hw
  simp only [columns, List.mem_append, List.mem_map] at hx
  rcases hx with (hx | hx) | ⟨m, hm, rfl⟩
  · exact hw.1.1 x hx
  · exact hw.1.2 x hx
  · exact hw.2 m hm

theorem readback : ∀ a, Statement (.readback a) := fun u => named rfl fun hw x hx => by
  simp only [Instr.wellFormed, columnOk, List.all_eq_true, decide_eq_true_eq] at hw
  obtain ⟨e, he, rfl⟩ := List.mem_map.1 hx
  exact hw e he

theorem spareSlotMaskWrite : ∀ a b, Statement (.spareSlotMaskWrite a b) := fun _ _ => named rfl fun hw x hx => of_decide_eq_true (List.all_eq_true.1 hw x hx)
theorem maskEpoch : Statement .maskEpoch := none rfl rfl
theorem maskPassGroup : ∀ a, Statement (.maskPassGroup a) := fun _ => named rfl fun hw x hx => by
  simp only [Instr.wellFormed, columnOk, Bool.and_eq_true, List.all_eq_true, decide_eq_true_eq] at hw
  obtain ⟨e, he, rfl⟩ := List.mem_map.1 hx
  exact (hw e he).2

theorem rowGroupBoundary : ∀ a, Statement (.rowGroupBoundary a) := fun _ => none rfl rfl
theorem isetMeasure : ∀ a b, Statement (.isetMeasure a b) := fun _ _ => none rfl rfl
theorem isetFault : Statement .isetFault := none rfl rfl
theorem headroomTrim : ∀ a, Statement (.headroomTrim a) := fun _ => none rfl rfl
theorem bandFetchStart : Statement .bandFetchStart := none rfl rfl
theorem tileCrcCheck : ∀ a b, Statement (.tileCrcCheck a b) := fun _ _ => none rfl rfl
theorem rowComposition : ∀ a b, Statement (.rowComposition a b) := fun _ _ => none rfl rfl
theorem compositionDeadline : ∀ a, Statement (.compositionDeadline a) := fun _ => none rfl rfl
theorem outStall : Statement .outStall := none rfl rfl
theorem gainReloadRow : Statement .gainReloadRow := none rfl rfl
theorem innerSample : ∀ a b c d e, Statement (.innerSample a b c d e) := fun _ _ _ _ _ => none rfl rfl
theorem phasePulseStart : ∀ a, Statement (.phasePulseStart a) := fun _ => none rfl rfl
theorem phasePulseEnd : ∀ a, Statement (.phasePulseEnd a) := fun _ => none rfl rfl
theorem isnsConversion : ∀ a b c, Statement (.isnsConversion a b c) := fun _ _ _ => none rfl rfl
theorem loopEvaluation : ∀ a b, Statement (.loopEvaluation a b) := fun _ _ => none rfl rfl
theorem loopFallback : Statement .loopFallback := none rfl rfl
theorem railStartTimeout : Statement .railStartTimeout := none rfl rfl
theorem vledOvp : Statement .vledOvp := none rfl rfl
theorem vledUvp : Statement .vledUvp := none rfl rfl
theorem isnsRangeFault : Statement .isnsRangeFault := none rfl rfl
theorem isnsRefFault : Statement .isnsRefFault := none rfl rfl
theorem psFltNLow : Statement .psFltNLow := none rfl rfl
theorem cbcTrip : ∀ a, Statement (.cbcTrip a) := fun _ => none rfl rfl
theorem phaseOc : Statement .phaseOc := none rfl rfl
theorem crestFallback : ∀ a, Statement (.crestFallback a) := fun _ => none rfl rfl
theorem fanPeriod : Statement .fanPeriod := none rfl rfl
theorem tachFault : Statement .tachFault := none rfl rfl
theorem railEnWrite : ∀ a b, Statement (.railEnWrite a b) := fun _ _ => none rfl rfl
theorem swapBanks : ∀ a b, Statement (.swapBanks a b) := fun _ _ => none rfl rfl
theorem loopBankSwap : Statement .loopBankSwap := none rfl rfl
theorem fbClear : ∀ a b c, Statement (.fbClear a b c) := fun _ _ _ => none rfl rfl
theorem lpeCoefMWrite : ∀ a b, Statement (.lpeCoefMWrite a b) := fun _ _ => none rfl rfl
theorem lpeCoefMRead : ∀ a, Statement (.lpeCoefMRead a) := fun _ => none rfl rfl
theorem sensorGate : ∀ a, Statement (.sensorGate a) := fun _ => none rfl rfl
theorem sensorPublish : Statement .sensorPublish := none rfl rfl
theorem sensorBroken : Statement .sensorBroken := none rfl rfl
theorem shutdownEnd : Statement .shutdownEnd := none rfl rfl
theorem throttleGraceExpiry : Statement .throttleGraceExpiry := none rfl rfl
theorem throttleRetimeIssue : Statement .throttleRetimeIssue := none rfl rfl
theorem throttleRelease : Statement .throttleRelease := none rfl rfl
theorem slaveThrottleTimeout : Statement .slaveThrottleTimeout := none rfl rfl
theorem safetyTick : ∀ a, Statement (.safetyTick a) := fun _ => none rfl rfl
theorem darkPadActive : ∀ a b, Statement (.darkPadActive a b) := fun _ _ => none rfl rfl
theorem darkRelightExpiry : Statement .darkRelightExpiry := none rfl rfl
theorem darkDiscrepancy : Statement .darkDiscrepancy := none rfl rfl
theorem darkSw : ∀ a b, Statement (.darkSw a b) := fun _ _ => none rfl rfl
theorem firmwareOasisRequest : ∀ a b, Statement (.firmwareOasisRequest a b) := fun _ _ => none rfl rfl
theorem safLock : ∀ a b, Statement (.safLock a b) := fun _ _ => none rfl rfl
theorem darkNetMismatch : ∀ a, Statement (.darkNetMismatch a) := fun _ => none rfl rfl
theorem darkNetProof : ∀ a, Statement (.darkNetProof a) := fun _ => none rfl rfl
theorem leaveInit : Statement .leaveInit := none rfl rfl
theorem srstFall : Statement .srstFall := none rfl rfl
theorem srstRise : Statement .srstRise := none rfl rfl
theorem srstStuck : Statement .srstStuck := none rfl rfl
theorem relightFbTimeout : Statement .relightFbTimeout := none rfl rfl
theorem relightComplete : Statement .relightComplete := none rfl rfl
theorem dimEntry : Statement .dimEntry := none rfl rfl
theorem rampTick : Statement .rampTick := none rfl rfl
theorem envelopeExceeded : Statement .envelopeExceeded := none rfl rfl
theorem lrmFbMismatch : Statement .lrmFbMismatch := none rfl rfl
theorem oasisBootCheck : Statement .oasisBootCheck := none rfl rfl
theorem oasisRowCheck : ∀ a, Statement (.oasisRowCheck a) := fun _ => none rfl rfl
theorem sealReadStart : Statement .sealReadStart := none rfl rfl
theorem sealLatch : Statement .sealLatch := none rfl rfl
theorem safeOutFail : Statement .safeOutFail := none rfl rfl
theorem islandSupplyFault : Statement .islandSupplyFault := none rfl rfl
theorem islandReset : Statement .islandReset := none rfl rfl
theorem islandResetEnd : Statement .islandResetEnd := none rfl rfl
theorem clockMonitorFail : Statement .clockMonitorFail := none rfl rfl
theorem islandOscStop : ∀ a, Statement (.islandOscStop a) := fun _ => none rfl rfl
theorem clockOffGrantEnd : Statement .clockOffGrantEnd := none rfl rfl
theorem rasterStall : Statement .rasterStall := none rfl rfl
theorem engineMismatch : ∀ a b, Statement (.engineMismatch a b) := fun _ _ => none rfl rfl
theorem refMonitorFault : ∀ a b, Statement (.refMonitorFault a b) := fun _ _ => none rfl rfl
theorem faultLiveRise : ∀ a, Statement (.faultLiveRise a) := fun _ => none rfl rfl
theorem faultLiveFall : ∀ a, Statement (.faultLiveFall a) := fun _ => none rfl rfl
theorem faultPairInvalid : ∀ a b, Statement (.faultPairInvalid a b) := fun _ _ => none rfl rfl
theorem faultPairProof : ∀ a, Statement (.faultPairProof a) := fun _ => none rfl rfl
theorem t1Expiry : ∀ a, Statement (.t1Expiry a) := fun _ => none rfl rfl
theorem t2Expiry : ∀ a, Statement (.t2Expiry a) := fun _ => none rfl rfl
theorem fltAck : ∀ a b, Statement (.fltAck a b) := fun _ _ => none rfl rfl
theorem fltInject : ∀ a b, Statement (.fltInject a b) := fun _ _ => none rfl rfl
theorem injectionEnd : Statement .injectionEnd := none rfl rfl
theorem fltFirstRel : ∀ a b, Statement (.fltFirstRel a b) := fun _ _ => none rfl rfl
theorem faultPinFail : Statement .faultPinFail := none rfl rfl
theorem linkDownExpiry : ∀ a, Statement (.linkDownExpiry a) := fun _ => none rfl rfl
theorem signalDetected : ∀ a, Statement (.signalDetected a) := fun _ => none rfl rfl
theorem ts1Received : ∀ a b, Statement (.ts1Received a b) := fun _ _ => none rfl rfl
theorem ts2Received : ∀ a b c, Statement (.ts2Received a b c) := fun _ _ _ => none rfl rfl
theorem trainingTimeout : ∀ a, Statement (.trainingTimeout a) := fun _ => none rfl rfl
theorem trainPacket : ∀ a b c d, Statement (.trainPacket a b c d) := fun _ _ _ _ => none rfl rfl
theorem skpTimeout : ∀ a, Statement (.skpTimeout a) := fun _ => none rfl rfl
theorem codeErrorLimit : ∀ a b, Statement (.codeErrorLimit a b) := fun _ _ => none rfl rfl
theorem eiosReceived : ∀ a b, Statement (.eiosReceived a b) := fun _ _ => none rfl rfl
theorem l1IdleExpiry : Statement .l1IdleExpiry := none rfl rfl
theorem lowPowerExitTimeout : ∀ a, Statement (.lowPowerExitTimeout a) := fun _ => none rfl rfl
theorem retrain : ∀ a b c, Statement (.retrain a b c) := fun _ _ _ => none rfl rfl
theorem packetFrameFail : ∀ a, Statement (.packetFrameFail a) := fun _ => none rfl rfl
theorem receiveBufferFull : ∀ a, Statement (.receiveBufferFull a) := fun _ => none rfl rfl
theorem idlePacket : ∀ a b c, Statement (.idlePacket a b c) := fun _ _ _ => words rfl rfl rfl
theorem tileWrite : ∀ a b c, Statement (.tileWrite a b c) := fun _ _ _ => words rfl rfl rfl
theorem memWrite : ∀ a b, Statement (.memWrite a b) := fun _ _ => words rfl rfl rfl
theorem regWrite : ∀ a b, Statement (.regWrite a b) := fun _ _ => words rfl rfl rfl
theorem regRead : ∀ a b, Statement (.regRead a b) := fun _ _ => words rfl rfl rfl
theorem commitPacket : ∀ a b, Statement (.commitPacket a b) := fun _ _ => words rfl rfl rfl
theorem objectList : ∀ a b, Statement (.objectList a b) := fun _ _ => words rfl rfl rfl
theorem packetForward : Statement .packetForward := none rfl rfl
theorem ackNak : ∀ a b c d e f, Statement (.ackNak a b c d e f) := fun _ _ _ _ _ _ => none rfl rfl
theorem returnPacketReceived : ∀ a b c d e, Statement (.returnPacketReceived a b c d e) := fun _ _ _ _ _ => none rfl rfl
theorem dReplayTimeout : ∀ a, Statement (.dReplayTimeout a) := fun _ => none rfl rfl
theorem returnResendTimeout : Statement .returnResendTimeout := none rfl rfl
theorem hostTimeout : Statement .hostTimeout := none rfl rfl
theorem irqMessage : Statement .irqMessage := none rfl rfl
theorem lnkInject : ∀ a b, Statement (.lnkInject a b) := fun _ _ => none rfl rfl
theorem epochFrameReceived : ∀ a b c d, Statement (.epochFrameReceived a b c d) := fun _ _ _ _ => none rfl rfl
theorem epochMissing : Statement .epochMissing := none rfl rfl
theorem epochLost : Statement .epochLost := none rfl rfl
theorem slaveResyncLoad : Statement .slaveResyncLoad := none rfl rfl
theorem enumRequest : ∀ a b, Statement (.enumRequest a b) := fun _ _ => none rfl rfl
theorem enumFrameSend : Statement .enumFrameSend := none rfl rfl
theorem enumFrameReceived : ∀ a b c d e, Statement (.enumFrameReceived a b c d e) := fun _ _ _ _ _ => none rfl rfl
theorem shareReceived : ∀ a b, Statement (.shareReceived a b) := fun _ _ => none rfl rfl
theorem shareDimWrite : Statement .shareDimWrite := none rfl rfl
theorem masterFrameReceived : ∀ a, Statement (.masterFrameReceived a) := fun _ => none rfl rfl
theorem ringReturnTimeout : Statement .ringReturnTimeout := none rfl rfl
theorem tdmEdge : ∀ a, Statement (.tdmEdge a) := fun _ => none rfl rfl
theorem tdmLoss : Statement .tdmLoss := none rfl rfl
theorem standbyWaitExpiry : Statement .standbyWaitExpiry := none rfl rfl
theorem claimToActive : Statement .claimToActive := none rfl rfl
theorem abdication : Statement .abdication := none rfl rfl
theorem tdmOutMismatch : ∀ a, Statement (.tdmOutMismatch a) := fun _ => none rfl rfl
theorem tandemDarkEnd : Statement .tandemDarkEnd := none rfl rfl
theorem resetNLow : Statement .resetNLow := none rfl rfl
theorem resetNRelease : ∀ a b, Statement (.resetNRelease a b) := fun _ _ => none rfl rfl
theorem bootStepDone : ∀ a, Statement (.bootStepDone a) := fun _ => none rfl rfl
theorem bootStepTimeout : Statement .bootStepTimeout := none rfl rfl
theorem pwrReq : ∀ a b, Statement (.pwrReq a b) := fun _ _ => none rfl rfl
theorem pixReady : Statement .pixReady := none rfl rfl
theorem rasterStop : Statement .rasterStop := none rfl rfl
theorem transitionStepDone : Statement .transitionStepDone := none rfl rfl
theorem transitionStepTimeout : Statement .transitionStepTimeout := none rfl rfl
theorem slaveStartTimeout : Statement .slaveStartTimeout := none rfl rfl
theorem wakeEvent : ∀ a, Statement (.wakeEvent a) := fun _ => none rfl rfl
theorem wakeStepReady : ∀ a, Statement (.wakeStepReady a) := fun _ => none rfl rfl
theorem wakeStepTimeout : Statement .wakeStepTimeout := none rfl rfl
theorem railWindowFault : Statement .railWindowFault := none rfl rfl
theorem pllLockLoss : Statement .pllLockLoss := none rfl rfl
theorem pllRelock : Statement .pllRelock := none rfl rfl
theorem vpixLoss : Statement .vpixLoss := none rfl rfl
theorem vpixRestored : Statement .vpixRestored := none rfl rfl
theorem freezeRequest : ∀ a, Statement (.freezeRequest a) := fun _ => none rfl rfl
theorem gpio3RisingEdge : Statement .gpio3RisingEdge := none rfl rfl
theorem startJob : ∀ a b c, Statement (.startJob a b c) := fun _ _ _ => none rfl rfl
theorem memScan : ∀ a b, Statement (.memScan a b) := fun _ _ => none rfl rfl
theorem nvmWrite : ∀ a b, Statement (.nvmWrite a b) := fun _ _ => none rfl rfl
theorem bistRun : ∀ a b, Statement (.bistRun a b) := fun _ _ => none rfl rfl
theorem calRun : ∀ a b, Statement (.calRun a b) := fun _ _ => none rfl rfl
theorem imageLoad : ∀ a b, Statement (.imageLoad a b) := fun _ _ => none rfl rfl
theorem restructure : ∀ a b, Statement (.restructure a b) := fun _ _ => none rfl rfl
theorem defectRebuild : ∀ a b, Statement (.defectRebuild a b) := fun _ _ => none rfl rfl
theorem lifecycle : ∀ a b, Statement (.lifecycle a b) := fun _ _ => none rfl rfl
theorem recCheckpoint : ∀ a b, Statement (.recCheckpoint a b) := fun _ _ => none rfl rfl
theorem suspendJob : ∀ a b, Statement (.suspendJob a b) := fun _ _ => none rfl rfl
theorem jobSuspended : ∀ a b, Statement (.jobSuspended a b) := fun _ _ => none rfl rfl
theorem resumeJob : ∀ a b, Statement (.resumeJob a b) := fun _ _ => none rfl rfl
theorem cancelJob : ∀ a b, Statement (.cancelJob a b) := fun _ _ => none rfl rfl
theorem scanComplete : Statement .scanComplete := none rfl rfl
theorem nvmUnitStart : Statement .nvmUnitStart := none rfl rfl
theorem nvmUnitDone : Statement .nvmUnitDone := none rfl rfl
theorem imageStaged : ∀ a, Statement (.imageStaged a) := fun _ => none rfl rfl
theorem restructureSwap : Statement .restructureSwap := none rfl rfl
theorem restructureNoOasis : Statement .restructureNoOasis := none rfl rfl
theorem lifecycleFuseBlow : ∀ a, Statement (.lifecycleFuseBlow a) := fun _ => none rfl rfl
theorem dropImage : ∀ a b, Statement (.dropImage a b) := fun _ _ => none rfl rfl
theorem keyWrite : ∀ a b c, Statement (.keyWrite a b c) := fun _ _ _ => none rfl rfl
theorem lk0640Entry : Statement .lk0640Entry := none rfl rfl
theorem scanEntry : Statement .scanEntry := none rfl rfl
theorem idcode : Statement .idcode := none rfl rfl
theorem regaccRead : ∀ a, Statement (.regaccRead a) := fun _ => none rfl rfl
theorem regaccWrite : ∀ a b, Statement (.regaccWrite a b) := fun _ _ => none rfl rfl
theorem postGroupDone : ∀ a b, Statement (.postGroupDone a b) := fun _ _ => none rfl rfl
theorem latchTestRow : ∀ a, Statement (.latchTestRow a) := fun _ => named rfl fun hw x hx => of_decide_eq_true (List.all_eq_true.1 hw x hx)
theorem bgTestSlice : Statement .bgTestSlice := none rfl rfl
theorem bankTestDone : ∀ a, Statement (.bankTestDone a) := fun _ => none rfl rfl
theorem migrateDone : Statement .migrateDone := none rfl rfl
theorem bgEnWrite : ∀ a b, Statement (.bgEnWrite a b) := fun _ _ => none rfl rfl
theorem bankEnWrite : ∀ a b, Statement (.bankEnWrite a b) := fun _ _ => none rfl rfl
theorem sealTile : ∀ a b, Statement (.sealTile a b) := fun _ _ => none rfl rfl
theorem sealComplete : ∀ a, Statement (.sealComplete a) := fun _ => none rfl rfl
theorem cmpTtDataRead : ∀ a, Statement (.cmpTtDataRead a) := fun _ => none rfl rfl
theorem cmpTtDataWrite : ∀ a b, Statement (.cmpTtDataWrite a b) := fun _ _ => none rfl rfl
theorem sclCoefDataRead : ∀ a, Statement (.sclCoefDataRead a) := fun _ => none rfl rfl
theorem sclCoefDataWrite : ∀ a b, Statement (.sclCoefDataWrite a b) := fun _ _ => none rfl rfl
theorem aryPcDataRead : ∀ a, Statement (.aryPcDataRead a) := fun _ => none rfl rfl
theorem aryPcDataWrite : ∀ a b, Statement (.aryPcDataWrite a b) := fun _ _ => none rfl rfl
theorem cvnShDataAccess : ∀ a b, Statement (.cvnShDataAccess a b) := fun _ _ => none rfl rfl
theorem hltDefectSet : ∀ a b, Statement (.hltDefectSet a b) := fun _ _ => none rfl rfl
theorem hltDlog0Read : ∀ a, Statement (.hltDlog0Read a) := fun _ => none rfl rfl
theorem defectLimitWrite : ∀ a b, Statement (.defectLimitWrite a b) := fun _ _ => none rfl rfl
theorem senseRowFault : Statement .senseRowFault := none rfl rfl
theorem rbPersist : Statement .rbPersist := none rfl rfl
theorem signatureMissLimit : Statement .signatureMissLimit := none rfl rfl
theorem mskSubmit : ∀ a b, Statement (.mskSubmit a b) := fun _ _ => none rfl rfl
theorem listTimeout : Statement .listTimeout := none rfl rfl
theorem gainReload : ∀ a b, Statement (.gainReload a b) := fun _ _ => none rfl rfl
theorem commitArm : ∀ a b c, Statement (.commitArm a b c) := fun _ _ _ => none rfl rfl
theorem commitWithdraw : ∀ a, Statement (.commitWithdraw a) := fun _ => none rfl rfl
theorem commitStale : Statement .commitStale := none rfl rfl
theorem followTimeout : Statement .followTimeout := none rfl rfl
theorem operatingSecond : ∀ a, Statement (.operatingSecond a) := fun _ => none rfl rfl
theorem litSecond : Statement .litSecond := none rfl rfl
theorem checkpointStart : Statement .checkpointStart := none rfl rfl
theorem checkpointCommit : Statement .checkpointCommit := none rfl rfl
theorem checkpointTimeout : Statement .checkpointTimeout := none rfl rfl
theorem calAutoTrigger : Statement .calAutoTrigger := none rfl rfl
theorem calItemComplete : ∀ a, Statement (.calItemComplete a) := fun _ => none rfl rfl
theorem spiStatus : ∀ a b c, Statement (.spiStatus a b c) := fun _ _ _ => none rfl rfl
theorem spiRd : ∀ a b c, Statement (.spiRd a b c) := fun _ _ _ => none rfl rfl
theorem spiWr : ∀ a b c d, Statement (.spiWr a b c d) := fun _ _ _ _ => none rfl rfl
theorem spiRdFix : ∀ a b c, Statement (.spiRdFix a b c) := fun _ _ _ => none rfl rfl
theorem spiWrFix : ∀ a b c d, Statement (.spiWrFix a b c d) := fun _ _ _ _ => none rfl rfl
theorem spiMemRd : ∀ a b c, Statement (.spiMemRd a b c) := fun _ _ _ => none rfl rfl
theorem spiMemWr : ∀ a b c d, Statement (.spiMemWr a b c d) := fun _ _ _ _ => none rfl rfl
theorem spiFrameRejected : ∀ a, Statement (.spiFrameRejected a) := fun _ => none rfl rfl
theorem spiTimeout : Statement .spiTimeout := none rfl rfl
theorem spiResponseReady : Statement .spiResponseReady := none rfl rfl
theorem irqStatusClear : ∀ a b, Statement (.irqStatusClear a b) := fun _ _ => none rfl rfl
theorem irqRawRead : ∀ a, Statement (.irqRawRead a) := fun _ => none rfl rfl
theorem readClearRegister : ∀ a b, Statement (.readClearRegister a b) := fun _ _ => none rfl rfl
theorem registerWrite : ∀ a b c, Statement (.registerWrite a b c) := fun _ _ _ => none rfl rfl
theorem vddBelowThreshold : Statement .vddBelowThreshold := none rfl rfl
theorem vddaLnkLoss : Statement .vddaLnkLoss := none rfl rfl
theorem nomadDomainReady : Statement .nomadDomainReady := none rfl rfl
theorem restoreMergeDone : Statement .restoreMergeDone := none rfl rfl
theorem bodyReadTimeout : Statement .bodyReadTimeout := none rfl rfl
theorem preChargeCalibrationSlot : ∀ a, Statement (.preChargeCalibrationSlot a) := fun _ => none rfl rfl
theorem packetTypeNotUsed : ∀ a b c, Statement (.packetTypeNotUsed a b c) := fun a b c hw => by
  have h : (unusedType a && payloadOk c) = true := hw
  rw [Bool.and_eq_true] at h
  exact ⟨(fun x hx => nomatch hx), of_decide_eq_true h.2⟩

theorem spiOpNotUsed : ∀ a b c d, Statement (.spiOpNotUsed a b c d) := fun _ _ _ _ => none rfl rfl

end Sys2Proof.Laws.OperandBounds
end

