-- ==== Sys2Proof/Laws/Registers.lean ====
section
/-!
SUPPORT. What a write of a register or of one of its fields does: it is read back, and every other register and every
other field of the same register is left alone.
-/

namespace Sys2Proof.Machine

/-! ### Bits of a word -/

theorem bitMask_getLsbD {hi lo i : Nat} (hi32 : hi < 32) (hl : lo ≤ hi) :
    (bitMask hi lo).getLsbD i = (decide (lo ≤ i) && decide (i ≤ hi)) := by
  have e : 2 ^ (hi + 1) - 2 ^ lo = 2 ^ lo * (2 ^ (hi + 1 - lo) - 1) := by
    rw [Nat.mul_sub, ← Nat.pow_add, Nat.mul_one]
    congr 2
    omega
  unfold bitMask
  rw [BitVec.getLsbD_ofNat, e, Nat.testBit_two_pow_mul, Nat.testBit_two_pow_sub_one, Bool.eq_iff_iff]
  simp only [Bool.and_eq_true, decide_eq_true_eq]
  omega

/-- Each bit of a word after a field of it is set. -/
theorem wordPut_getLsbD {w : Word} {hi lo v i : Nat} (hi32 : hi < 32) (hl : lo ≤ hi) :
    (wordPut w hi lo v).getLsbD i = if lo ≤ i ∧ i ≤ hi then v.testBit (i - lo) else w.getLsbD i := by
  unfold wordPut
  rw [BitVec.getLsbD_or, BitVec.getLsbD_and, BitVec.getLsbD_not, bitMask_getLsbD hi32 hl, BitVec.getLsbD_ofNat,
    Nat.mul_comm, Nat.testBit_two_pow_mul, Nat.testBit_mod_two_pow]
  by_cases h32 : i < 32
  · by_cases h1 : lo ≤ i <;> by_cases h2 : i ≤ hi
    · have h3 : i - lo < hi + 1 - lo := by omega
      simp [h1, h2, h32, h3]
    · have h3 : ¬ i - lo < hi + 1 - lo := by omega
      simp [h1, h2, h32, h3]
    · simp [h1, h32]
    · simp [h1, h32]
  · have h2 : ¬ i ≤ hi := by omega
    have h3 : w.getLsbD i = false := BitVec.getLsbD_of_ge w i (by omega)
    simp [h2, h32, h3]

/-- Each bit of a field's value. -/
theorem wordGet_testBit {w : Word} {hi lo i : Nat} :
    (wordGet w hi lo).testBit i = (decide (i < hi + 1 - lo) && w.getLsbD (lo + i)) := by
  unfold wordGet
  rw [Nat.testBit_mod_two_pow, Nat.testBit_div_two_pow, Nat.add_comm i lo]
  rfl

/-- A field set in a word reads what was put there. -/
theorem wordGet_put_same {w : Word} {hi lo v : Nat} (hi32 : hi < 32) (hl : lo ≤ hi) :
    wordGet (wordPut w hi lo v) hi lo = v % 2 ^ (hi + 1 - lo) := by
  refine Nat.eq_of_testBit_eq fun i => ?_
  rw [wordGet_testBit, wordPut_getLsbD hi32 hl, Nat.testBit_mod_two_pow]
  by_cases h : i < hi + 1 - lo
  · have h1 : lo ≤ lo + i ∧ lo + i ≤ hi := by omega
    simp [h, h1]
  · simp [h]

/-- A field set in a word leaves the bits beside it alone. -/
theorem wordGet_put_other {w : Word} {hi lo v h l : Nat} (hi32 : hi < 32) (hl : lo ≤ hi) (hd : h < lo ∨ hi < l) :
    wordGet (wordPut w hi lo v) h l = wordGet w h l := by
  refine Nat.eq_of_testBit_eq fun i => ?_
  rw [wordGet_testBit, wordGet_testBit, wordPut_getLsbD hi32 hl]
  by_cases hb : i < h + 1 - l
  · have h1 : ¬ (lo ≤ l + i ∧ l + i ≤ hi) := by omega
    simp [h1]
  · simp [hb]

/-! ### Registers -/

/-- A register that is written reads what was written. -/
theorem State.reg_setReg_same {s : State} {a : Nat} {w : Word} (h : s.Wf) : (s.setReg a w).reg a = w :=
  sparseGet_set_same h.1

/-- A write of a register leaves the others alone. -/
theorem State.reg_setReg_ne {s : State} {a b : Nat} {w : Word} (h : b ≠ a) : (s.setReg a w).reg b = s.reg b :=
  sparseGet_set_ne h

/-- Well-formed field: it lies within the word. -/
def Field.ok (f : Field) : Prop := f.hi < 32 ∧ f.lo ≤ f.hi

/-- A field that is written reads what was written, to its width. -/
theorem State.get_put_same {s : State} {f : Field} {v : Nat} (h : s.Wf) (hf : f.ok) :
    (s.put f v).get f = v % 2 ^ (f.hi + 1 - f.lo) := by
  unfold State.get State.put
  rw [State.reg_setReg_same h, wordGet_put_same hf.1 hf.2]

/-- A write of a field leaves the fields of other registers alone. -/
theorem State.get_put_addr {s : State} {f g : Field} {v : Nat} (h : g.addr ≠ f.addr) : (s.put f v).get g = s.get g := by
  unfold State.get State.put
  rw [State.reg_setReg_ne h]

/-- A write of a field leaves the other fields of its register alone. -/
theorem State.get_put_beside {s : State} {f g : Field} {v : Nat} (hs : s.Wf) (hf : f.ok) (ha : g.addr = f.addr)
    (hd : g.hi < f.lo ∨ f.hi < g.lo) : (s.put f v).get g = s.get g := by
  unfold State.get State.put
  rw [ha, State.reg_setReg_same hs, wordGet_put_other hf.1 hf.2 hd]

/-- A write of a field leaves the other registers alone. -/
theorem State.reg_put_ne {s : State} {f : Field} {v b : Nat} (h : b ≠ f.addr) : (s.put f v).reg b = s.reg b :=
  State.reg_setReg_ne h

/-- A write keeps the canonical form. -/
theorem State.put_wf {s : State} {f : Field} {v : Nat} (h : s.Wf) : (s.put f v).Wf :=
  ⟨sparseWf_set _ _ h.1, h.2⟩

theorem State.setReg_wf {s : State} {a : Nat} {w : Word} (h : s.Wf) : (s.setReg a w).Wf :=
  ⟨sparseWf_set _ _ h.1, h.2⟩

end Sys2Proof.Machine
end

