-- ==== Sys2Proof/Laws/State.lean ====
section
/-!
SUPPORT. Each field of the state after each of the plain updates: unchanged, but for the one that the update writes.
-/

namespace Sys2Proof.Machine

@[simp] theorem State.setReg_pending (s : State) (a : Nat) (w : Word) : (s.setReg a w).pending = s.pending := rfl
@[simp] theorem State.setReg_shadow (s : State) (a : Nat) (w : Word) : (s.setReg a w).shadow = s.shadow := rfl
@[simp] theorem State.setReg_port (s : State) (a : Nat) (w : Word) : (s.setReg a w).port = s.port := rfl
@[simp] theorem State.setReg_freeCount (s : State) (a : Nat) (w : Word) : (s.setReg a w).freeCount = s.freeCount := rfl
@[simp] theorem State.setReg_lmem (s : State) (a : Nat) (w : Word) : (s.setReg a w).lmem = s.lmem := rfl
@[simp] theorem State.setReg_nvm (s : State) (a : Nat) (w : Word) : (s.setReg a w).nvm = s.nvm := rfl
@[simp] theorem State.setReg_ras (s : State) (a : Nat) (w : Word) : (s.setReg a w).ras = s.ras := rfl
@[simp] theorem State.setReg_lmc (s : State) (a : Nat) (w : Word) : (s.setReg a w).lmc = s.lmc := rfl
@[simp] theorem State.setReg_cmp (s : State) (a : Nat) (w : Word) : (s.setReg a w).cmp = s.cmp := rfl
@[simp] theorem State.setReg_nvmw (s : State) (a : Nat) (w : Word) : (s.setReg a w).nvmw = s.nvmw := rfl
@[simp] theorem State.setReg_msk (s : State) (a : Nat) (w : Word) : (s.setReg a w).msk = s.msk := rfl
@[simp] theorem State.setReg_lum (s : State) (a : Nat) (w : Word) : (s.setReg a w).lum = s.lum := rfl
@[simp] theorem State.setReg_ary (s : State) (a : Nat) (w : Word) : (s.setReg a w).ary = s.ary := rfl
@[simp] theorem State.setReg_hlt (s : State) (a : Nat) (w : Word) : (s.setReg a w).hlt = s.hlt := rfl
@[simp] theorem State.setReg_lpe (s : State) (a : Nat) (w : Word) : (s.setReg a w).lpe = s.lpe := rfl
@[simp] theorem State.setReg_recd (s : State) (a : Nat) (w : Word) : (s.setReg a w).recd = s.recd := rfl
@[simp] theorem State.setReg_thm (s : State) (a : Nat) (w : Word) : (s.setReg a w).thm = s.thm := rfl
@[simp] theorem State.setReg_lnk (s : State) (a : Nat) (w : Word) : (s.setReg a w).lnk = s.lnk := rfl
@[simp] theorem State.setReg_cvn (s : State) (a : Nat) (w : Word) : (s.setReg a w).cvn = s.cvn := rfl
@[simp] theorem State.setReg_tdm (s : State) (a : Nat) (w : Word) : (s.setReg a w).tdm = s.tdm := rfl
@[simp] theorem State.setReg_cfg (s : State) (a : Nat) (w : Word) : (s.setReg a w).cfg = s.cfg := rfl
@[simp] theorem State.setReg_spi (s : State) (a : Nat) (w : Word) : (s.setReg a w).spi = s.spi := rfl
@[simp] theorem State.setReg_saf (s : State) (a : Nat) (w : Word) : (s.setReg a w).saf = s.saf := rfl
@[simp] theorem State.setReg_flt (s : State) (a : Nat) (w : Word) : (s.setReg a w).flt = s.flt := rfl
@[simp] theorem State.setReg_pwr (s : State) (a : Nat) (w : Word) : (s.setReg a w).pwr = s.pwr := rfl
@[simp] theorem State.setReg_cal (s : State) (a : Nat) (w : Word) : (s.setReg a w).cal = s.cal := rfl
@[simp] theorem State.setReg_bst (s : State) (a : Nat) (w : Word) : (s.setReg a w).bst = s.bst := rfl

@[simp] theorem State.setShReg_pending (s : State) (a : Nat) (w : Word) : (s.setShReg a w).pending = s.pending := rfl
@[simp] theorem State.setShReg_regs (s : State) (a : Nat) (w : Word) : (s.setShReg a w).regs = s.regs := rfl
@[simp] theorem State.setShReg_port (s : State) (a : Nat) (w : Word) : (s.setShReg a w).port = s.port := rfl
@[simp] theorem State.setShReg_freeCount (s : State) (a : Nat) (w : Word) : (s.setShReg a w).freeCount = s.freeCount := rfl
@[simp] theorem State.setShReg_lmem (s : State) (a : Nat) (w : Word) : (s.setShReg a w).lmem = s.lmem := rfl
@[simp] theorem State.setShReg_nvm (s : State) (a : Nat) (w : Word) : (s.setShReg a w).nvm = s.nvm := rfl
@[simp] theorem State.setShReg_ras (s : State) (a : Nat) (w : Word) : (s.setShReg a w).ras = s.ras := rfl
@[simp] theorem State.setShReg_lmc (s : State) (a : Nat) (w : Word) : (s.setShReg a w).lmc = s.lmc := rfl
@[simp] theorem State.setShReg_cmp (s : State) (a : Nat) (w : Word) : (s.setShReg a w).cmp = s.cmp := rfl
@[simp] theorem State.setShReg_nvmw (s : State) (a : Nat) (w : Word) : (s.setShReg a w).nvmw = s.nvmw := rfl
@[simp] theorem State.setShReg_msk (s : State) (a : Nat) (w : Word) : (s.setShReg a w).msk = s.msk := rfl
@[simp] theorem State.setShReg_lum (s : State) (a : Nat) (w : Word) : (s.setShReg a w).lum = s.lum := rfl
@[simp] theorem State.setShReg_ary (s : State) (a : Nat) (w : Word) : (s.setShReg a w).ary = s.ary := rfl
@[simp] theorem State.setShReg_hlt (s : State) (a : Nat) (w : Word) : (s.setShReg a w).hlt = s.hlt := rfl
@[simp] theorem State.setShReg_lpe (s : State) (a : Nat) (w : Word) : (s.setShReg a w).lpe = s.lpe := rfl
@[simp] theorem State.setShReg_recd (s : State) (a : Nat) (w : Word) : (s.setShReg a w).recd = s.recd := rfl
@[simp] theorem State.setShReg_thm (s : State) (a : Nat) (w : Word) : (s.setShReg a w).thm = s.thm := rfl
@[simp] theorem State.setShReg_lnk (s : State) (a : Nat) (w : Word) : (s.setShReg a w).lnk = s.lnk := rfl
@[simp] theorem State.setShReg_cvn (s : State) (a : Nat) (w : Word) : (s.setShReg a w).cvn = s.cvn := rfl
@[simp] theorem State.setShReg_tdm (s : State) (a : Nat) (w : Word) : (s.setShReg a w).tdm = s.tdm := rfl
@[simp] theorem State.setShReg_cfg (s : State) (a : Nat) (w : Word) : (s.setShReg a w).cfg = s.cfg := rfl
@[simp] theorem State.setShReg_spi (s : State) (a : Nat) (w : Word) : (s.setShReg a w).spi = s.spi := rfl
@[simp] theorem State.setShReg_saf (s : State) (a : Nat) (w : Word) : (s.setShReg a w).saf = s.saf := rfl
@[simp] theorem State.setShReg_flt (s : State) (a : Nat) (w : Word) : (s.setShReg a w).flt = s.flt := rfl
@[simp] theorem State.setShReg_pwr (s : State) (a : Nat) (w : Word) : (s.setShReg a w).pwr = s.pwr := rfl
@[simp] theorem State.setShReg_cal (s : State) (a : Nat) (w : Word) : (s.setShReg a w).cal = s.cal := rfl
@[simp] theorem State.setShReg_bst (s : State) (a : Nat) (w : Word) : (s.setShReg a w).bst = s.bst := rfl

@[simp] theorem State.put_pending (s : State) (f : Field) (v : Nat) : (s.put f v).pending = s.pending := rfl
@[simp] theorem State.put_shadow (s : State) (f : Field) (v : Nat) : (s.put f v).shadow = s.shadow := rfl
@[simp] theorem State.put_port (s : State) (f : Field) (v : Nat) : (s.put f v).port = s.port := rfl
@[simp] theorem State.put_freeCount (s : State) (f : Field) (v : Nat) : (s.put f v).freeCount = s.freeCount := rfl
@[simp] theorem State.put_lmem (s : State) (f : Field) (v : Nat) : (s.put f v).lmem = s.lmem := rfl
@[simp] theorem State.put_nvm (s : State) (f : Field) (v : Nat) : (s.put f v).nvm = s.nvm := rfl
@[simp] theorem State.put_ras (s : State) (f : Field) (v : Nat) : (s.put f v).ras = s.ras := rfl
@[simp] theorem State.put_lmc (s : State) (f : Field) (v : Nat) : (s.put f v).lmc = s.lmc := rfl
@[simp] theorem State.put_cmp (s : State) (f : Field) (v : Nat) : (s.put f v).cmp = s.cmp := rfl
@[simp] theorem State.put_nvmw (s : State) (f : Field) (v : Nat) : (s.put f v).nvmw = s.nvmw := rfl
@[simp] theorem State.put_msk (s : State) (f : Field) (v : Nat) : (s.put f v).msk = s.msk := rfl
@[simp] theorem State.put_lum (s : State) (f : Field) (v : Nat) : (s.put f v).lum = s.lum := rfl
@[simp] theorem State.put_ary (s : State) (f : Field) (v : Nat) : (s.put f v).ary = s.ary := rfl
@[simp] theorem State.put_hlt (s : State) (f : Field) (v : Nat) : (s.put f v).hlt = s.hlt := rfl
@[simp] theorem State.put_lpe (s : State) (f : Field) (v : Nat) : (s.put f v).lpe = s.lpe := rfl
@[simp] theorem State.put_recd (s : State) (f : Field) (v : Nat) : (s.put f v).recd = s.recd := rfl
@[simp] theorem State.put_thm (s : State) (f : Field) (v : Nat) : (s.put f v).thm = s.thm := rfl
@[simp] theorem State.put_lnk (s : State) (f : Field) (v : Nat) : (s.put f v).lnk = s.lnk := rfl
@[simp] theorem State.put_cvn (s : State) (f : Field) (v : Nat) : (s.put f v).cvn = s.cvn := rfl
@[simp] theorem State.put_tdm (s : State) (f : Field) (v : Nat) : (s.put f v).tdm = s.tdm := rfl
@[simp] theorem State.put_cfg (s : State) (f : Field) (v : Nat) : (s.put f v).cfg = s.cfg := rfl
@[simp] theorem State.put_spi (s : State) (f : Field) (v : Nat) : (s.put f v).spi = s.spi := rfl
@[simp] theorem State.put_saf (s : State) (f : Field) (v : Nat) : (s.put f v).saf = s.saf := rfl
@[simp] theorem State.put_flt (s : State) (f : Field) (v : Nat) : (s.put f v).flt = s.flt := rfl
@[simp] theorem State.put_pwr (s : State) (f : Field) (v : Nat) : (s.put f v).pwr = s.pwr := rfl
@[simp] theorem State.put_cal (s : State) (f : Field) (v : Nat) : (s.put f v).cal = s.cal := rfl
@[simp] theorem State.put_bst (s : State) (f : Field) (v : Nat) : (s.put f v).bst = s.bst := rfl

@[simp] theorem State.putSh_pending (s : State) (f : Field) (v : Nat) : (s.putSh f v).pending = s.pending := rfl
@[simp] theorem State.putSh_regs (s : State) (f : Field) (v : Nat) : (s.putSh f v).regs = s.regs := rfl
@[simp] theorem State.putSh_port (s : State) (f : Field) (v : Nat) : (s.putSh f v).port = s.port := rfl
@[simp] theorem State.putSh_freeCount (s : State) (f : Field) (v : Nat) : (s.putSh f v).freeCount = s.freeCount := rfl
@[simp] theorem State.putSh_lmem (s : State) (f : Field) (v : Nat) : (s.putSh f v).lmem = s.lmem := rfl
@[simp] theorem State.putSh_nvm (s : State) (f : Field) (v : Nat) : (s.putSh f v).nvm = s.nvm := rfl
@[simp] theorem State.putSh_ras (s : State) (f : Field) (v : Nat) : (s.putSh f v).ras = s.ras := rfl
@[simp] theorem State.putSh_lmc (s : State) (f : Field) (v : Nat) : (s.putSh f v).lmc = s.lmc := rfl
@[simp] theorem State.putSh_cmp (s : State) (f : Field) (v : Nat) : (s.putSh f v).cmp = s.cmp := rfl
@[simp] theorem State.putSh_nvmw (s : State) (f : Field) (v : Nat) : (s.putSh f v).nvmw = s.nvmw := rfl
@[simp] theorem State.putSh_msk (s : State) (f : Field) (v : Nat) : (s.putSh f v).msk = s.msk := rfl
@[simp] theorem State.putSh_lum (s : State) (f : Field) (v : Nat) : (s.putSh f v).lum = s.lum := rfl
@[simp] theorem State.putSh_ary (s : State) (f : Field) (v : Nat) : (s.putSh f v).ary = s.ary := rfl
@[simp] theorem State.putSh_hlt (s : State) (f : Field) (v : Nat) : (s.putSh f v).hlt = s.hlt := rfl
@[simp] theorem State.putSh_lpe (s : State) (f : Field) (v : Nat) : (s.putSh f v).lpe = s.lpe := rfl
@[simp] theorem State.putSh_recd (s : State) (f : Field) (v : Nat) : (s.putSh f v).recd = s.recd := rfl
@[simp] theorem State.putSh_thm (s : State) (f : Field) (v : Nat) : (s.putSh f v).thm = s.thm := rfl
@[simp] theorem State.putSh_lnk (s : State) (f : Field) (v : Nat) : (s.putSh f v).lnk = s.lnk := rfl
@[simp] theorem State.putSh_cvn (s : State) (f : Field) (v : Nat) : (s.putSh f v).cvn = s.cvn := rfl
@[simp] theorem State.putSh_tdm (s : State) (f : Field) (v : Nat) : (s.putSh f v).tdm = s.tdm := rfl
@[simp] theorem State.putSh_cfg (s : State) (f : Field) (v : Nat) : (s.putSh f v).cfg = s.cfg := rfl
@[simp] theorem State.putSh_spi (s : State) (f : Field) (v : Nat) : (s.putSh f v).spi = s.spi := rfl
@[simp] theorem State.putSh_saf (s : State) (f : Field) (v : Nat) : (s.putSh f v).saf = s.saf := rfl
@[simp] theorem State.putSh_flt (s : State) (f : Field) (v : Nat) : (s.putSh f v).flt = s.flt := rfl
@[simp] theorem State.putSh_pwr (s : State) (f : Field) (v : Nat) : (s.putSh f v).pwr = s.pwr := rfl
@[simp] theorem State.putSh_cal (s : State) (f : Field) (v : Nat) : (s.putSh f v).cal = s.cal := rfl
@[simp] theorem State.putSh_bst (s : State) (f : Field) (v : Nat) : (s.putSh f v).bst = s.bst := rfl

@[simp] theorem State.inc_pending (s : State) (f : Field) : (s.inc f).pending = s.pending := rfl
@[simp] theorem State.inc_shadow (s : State) (f : Field) : (s.inc f).shadow = s.shadow := rfl
@[simp] theorem State.inc_port (s : State) (f : Field) : (s.inc f).port = s.port := rfl
@[simp] theorem State.inc_freeCount (s : State) (f : Field) : (s.inc f).freeCount = s.freeCount := rfl
@[simp] theorem State.inc_lmem (s : State) (f : Field) : (s.inc f).lmem = s.lmem := rfl
@[simp] theorem State.inc_nvm (s : State) (f : Field) : (s.inc f).nvm = s.nvm := rfl
@[simp] theorem State.inc_ras (s : State) (f : Field) : (s.inc f).ras = s.ras := rfl
@[simp] theorem State.inc_lmc (s : State) (f : Field) : (s.inc f).lmc = s.lmc := rfl
@[simp] theorem State.inc_cmp (s : State) (f : Field) : (s.inc f).cmp = s.cmp := rfl
@[simp] theorem State.inc_nvmw (s : State) (f : Field) : (s.inc f).nvmw = s.nvmw := rfl
@[simp] theorem State.inc_msk (s : State) (f : Field) : (s.inc f).msk = s.msk := rfl
@[simp] theorem State.inc_lum (s : State) (f : Field) : (s.inc f).lum = s.lum := rfl
@[simp] theorem State.inc_ary (s : State) (f : Field) : (s.inc f).ary = s.ary := rfl
@[simp] theorem State.inc_hlt (s : State) (f : Field) : (s.inc f).hlt = s.hlt := rfl
@[simp] theorem State.inc_lpe (s : State) (f : Field) : (s.inc f).lpe = s.lpe := rfl
@[simp] theorem State.inc_recd (s : State) (f : Field) : (s.inc f).recd = s.recd := rfl
@[simp] theorem State.inc_thm (s : State) (f : Field) : (s.inc f).thm = s.thm := rfl
@[simp] theorem State.inc_lnk (s : State) (f : Field) : (s.inc f).lnk = s.lnk := rfl
@[simp] theorem State.inc_cvn (s : State) (f : Field) : (s.inc f).cvn = s.cvn := rfl
@[simp] theorem State.inc_tdm (s : State) (f : Field) : (s.inc f).tdm = s.tdm := rfl
@[simp] theorem State.inc_cfg (s : State) (f : Field) : (s.inc f).cfg = s.cfg := rfl
@[simp] theorem State.inc_spi (s : State) (f : Field) : (s.inc f).spi = s.spi := rfl
@[simp] theorem State.inc_saf (s : State) (f : Field) : (s.inc f).saf = s.saf := rfl
@[simp] theorem State.inc_flt (s : State) (f : Field) : (s.inc f).flt = s.flt := rfl
@[simp] theorem State.inc_pwr (s : State) (f : Field) : (s.inc f).pwr = s.pwr := rfl
@[simp] theorem State.inc_cal (s : State) (f : Field) : (s.inc f).cal = s.cal := rfl
@[simp] theorem State.inc_bst (s : State) (f : Field) : (s.inc f).bst = s.bst := rfl

@[simp] theorem State.lmWrite_pending (s : State) (a : Nat) (bs : List Byte) : (s.lmWrite a bs).pending = s.pending := rfl
@[simp] theorem State.lmWrite_regs (s : State) (a : Nat) (bs : List Byte) : (s.lmWrite a bs).regs = s.regs := rfl
@[simp] theorem State.lmWrite_shadow (s : State) (a : Nat) (bs : List Byte) : (s.lmWrite a bs).shadow = s.shadow := rfl
@[simp] theorem State.lmWrite_port (s : State) (a : Nat) (bs : List Byte) : (s.lmWrite a bs).port = s.port := rfl
@[simp] theorem State.lmWrite_freeCount (s : State) (a : Nat) (bs : List Byte) : (s.lmWrite a bs).freeCount = s.freeCount := rfl
@[simp] theorem State.lmWrite_nvm (s : State) (a : Nat) (bs : List Byte) : (s.lmWrite a bs).nvm = s.nvm := rfl
@[simp] theorem State.lmWrite_ras (s : State) (a : Nat) (bs : List Byte) : (s.lmWrite a bs).ras = s.ras := rfl
@[simp] theorem State.lmWrite_lmc (s : State) (a : Nat) (bs : List Byte) : (s.lmWrite a bs).lmc = s.lmc := rfl
@[simp] theorem State.lmWrite_cmp (s : State) (a : Nat) (bs : List Byte) : (s.lmWrite a bs).cmp = s.cmp := rfl
@[simp] theorem State.lmWrite_nvmw (s : State) (a : Nat) (bs : List Byte) : (s.lmWrite a bs).nvmw = s.nvmw := rfl
@[simp] theorem State.lmWrite_msk (s : State) (a : Nat) (bs : List Byte) : (s.lmWrite a bs).msk = s.msk := rfl
@[simp] theorem State.lmWrite_lum (s : State) (a : Nat) (bs : List Byte) : (s.lmWrite a bs).lum = s.lum := rfl
@[simp] theorem State.lmWrite_ary (s : State) (a : Nat) (bs : List Byte) : (s.lmWrite a bs).ary = s.ary := rfl
@[simp] theorem State.lmWrite_hlt (s : State) (a : Nat) (bs : List Byte) : (s.lmWrite a bs).hlt = s.hlt := rfl
@[simp] theorem State.lmWrite_lpe (s : State) (a : Nat) (bs : List Byte) : (s.lmWrite a bs).lpe = s.lpe := rfl
@[simp] theorem State.lmWrite_recd (s : State) (a : Nat) (bs : List Byte) : (s.lmWrite a bs).recd = s.recd := rfl
@[simp] theorem State.lmWrite_thm (s : State) (a : Nat) (bs : List Byte) : (s.lmWrite a bs).thm = s.thm := rfl
@[simp] theorem State.lmWrite_lnk (s : State) (a : Nat) (bs : List Byte) : (s.lmWrite a bs).lnk = s.lnk := rfl
@[simp] theorem State.lmWrite_cvn (s : State) (a : Nat) (bs : List Byte) : (s.lmWrite a bs).cvn = s.cvn := rfl
@[simp] theorem State.lmWrite_tdm (s : State) (a : Nat) (bs : List Byte) : (s.lmWrite a bs).tdm = s.tdm := rfl
@[simp] theorem State.lmWrite_cfg (s : State) (a : Nat) (bs : List Byte) : (s.lmWrite a bs).cfg = s.cfg := rfl
@[simp] theorem State.lmWrite_spi (s : State) (a : Nat) (bs : List Byte) : (s.lmWrite a bs).spi = s.spi := rfl
@[simp] theorem State.lmWrite_saf (s : State) (a : Nat) (bs : List Byte) : (s.lmWrite a bs).saf = s.saf := rfl
@[simp] theorem State.lmWrite_flt (s : State) (a : Nat) (bs : List Byte) : (s.lmWrite a bs).flt = s.flt := rfl
@[simp] theorem State.lmWrite_pwr (s : State) (a : Nat) (bs : List Byte) : (s.lmWrite a bs).pwr = s.pwr := rfl
@[simp] theorem State.lmWrite_cal (s : State) (a : Nat) (bs : List Byte) : (s.lmWrite a bs).cal = s.cal := rfl
@[simp] theorem State.lmWrite_bst (s : State) (a : Nat) (bs : List Byte) : (s.lmWrite a bs).bst = s.bst := rfl

@[simp] theorem State.nvWrite_pending (s : State) (a : Nat) (bs : List Byte) : (s.nvWrite a bs).pending = s.pending := rfl
@[simp] theorem State.nvWrite_regs (s : State) (a : Nat) (bs : List Byte) : (s.nvWrite a bs).regs = s.regs := rfl
@[simp] theorem State.nvWrite_shadow (s : State) (a : Nat) (bs : List Byte) : (s.nvWrite a bs).shadow = s.shadow := rfl
@[simp] theorem State.nvWrite_port (s : State) (a : Nat) (bs : List Byte) : (s.nvWrite a bs).port = s.port := rfl
@[simp] theorem State.nvWrite_freeCount (s : State) (a : Nat) (bs : List Byte) : (s.nvWrite a bs).freeCount = s.freeCount := rfl
@[simp] theorem State.nvWrite_lmem (s : State) (a : Nat) (bs : List Byte) : (s.nvWrite a bs).lmem = s.lmem := rfl
@[simp] theorem State.nvWrite_ras (s : State) (a : Nat) (bs : List Byte) : (s.nvWrite a bs).ras = s.ras := rfl
@[simp] theorem State.nvWrite_lmc (s : State) (a : Nat) (bs : List Byte) : (s.nvWrite a bs).lmc = s.lmc := rfl
@[simp] theorem State.nvWrite_cmp (s : State) (a : Nat) (bs : List Byte) : (s.nvWrite a bs).cmp = s.cmp := rfl
@[simp] theorem State.nvWrite_nvmw (s : State) (a : Nat) (bs : List Byte) : (s.nvWrite a bs).nvmw = s.nvmw := rfl
@[simp] theorem State.nvWrite_msk (s : State) (a : Nat) (bs : List Byte) : (s.nvWrite a bs).msk = s.msk := rfl
@[simp] theorem State.nvWrite_lum (s : State) (a : Nat) (bs : List Byte) : (s.nvWrite a bs).lum = s.lum := rfl
@[simp] theorem State.nvWrite_ary (s : State) (a : Nat) (bs : List Byte) : (s.nvWrite a bs).ary = s.ary := rfl
@[simp] theorem State.nvWrite_hlt (s : State) (a : Nat) (bs : List Byte) : (s.nvWrite a bs).hlt = s.hlt := rfl
@[simp] theorem State.nvWrite_lpe (s : State) (a : Nat) (bs : List Byte) : (s.nvWrite a bs).lpe = s.lpe := rfl
@[simp] theorem State.nvWrite_recd (s : State) (a : Nat) (bs : List Byte) : (s.nvWrite a bs).recd = s.recd := rfl
@[simp] theorem State.nvWrite_thm (s : State) (a : Nat) (bs : List Byte) : (s.nvWrite a bs).thm = s.thm := rfl
@[simp] theorem State.nvWrite_lnk (s : State) (a : Nat) (bs : List Byte) : (s.nvWrite a bs).lnk = s.lnk := rfl
@[simp] theorem State.nvWrite_cvn (s : State) (a : Nat) (bs : List Byte) : (s.nvWrite a bs).cvn = s.cvn := rfl
@[simp] theorem State.nvWrite_tdm (s : State) (a : Nat) (bs : List Byte) : (s.nvWrite a bs).tdm = s.tdm := rfl
@[simp] theorem State.nvWrite_cfg (s : State) (a : Nat) (bs : List Byte) : (s.nvWrite a bs).cfg = s.cfg := rfl
@[simp] theorem State.nvWrite_spi (s : State) (a : Nat) (bs : List Byte) : (s.nvWrite a bs).spi = s.spi := rfl
@[simp] theorem State.nvWrite_saf (s : State) (a : Nat) (bs : List Byte) : (s.nvWrite a bs).saf = s.saf := rfl
@[simp] theorem State.nvWrite_flt (s : State) (a : Nat) (bs : List Byte) : (s.nvWrite a bs).flt = s.flt := rfl
@[simp] theorem State.nvWrite_pwr (s : State) (a : Nat) (bs : List Byte) : (s.nvWrite a bs).pwr = s.pwr := rfl
@[simp] theorem State.nvWrite_cal (s : State) (a : Nat) (bs : List Byte) : (s.nvWrite a bs).cal = s.cal := rfl
@[simp] theorem State.nvWrite_bst (s : State) (a : Nat) (bs : List Byte) : (s.nvWrite a bs).bst = s.bst := rfl

@[simp] theorem State.setFrec_pending (s : State) (n : Nat) (r : FaultRec) : (s.setFrec n r).pending = s.pending := rfl
@[simp] theorem State.setFrec_regs (s : State) (n : Nat) (r : FaultRec) : (s.setFrec n r).regs = s.regs := rfl
@[simp] theorem State.setFrec_shadow (s : State) (n : Nat) (r : FaultRec) : (s.setFrec n r).shadow = s.shadow := rfl
@[simp] theorem State.setFrec_port (s : State) (n : Nat) (r : FaultRec) : (s.setFrec n r).port = s.port := rfl
@[simp] theorem State.setFrec_freeCount (s : State) (n : Nat) (r : FaultRec) : (s.setFrec n r).freeCount = s.freeCount := rfl
@[simp] theorem State.setFrec_lmem (s : State) (n : Nat) (r : FaultRec) : (s.setFrec n r).lmem = s.lmem := rfl
@[simp] theorem State.setFrec_nvm (s : State) (n : Nat) (r : FaultRec) : (s.setFrec n r).nvm = s.nvm := rfl
@[simp] theorem State.setFrec_ras (s : State) (n : Nat) (r : FaultRec) : (s.setFrec n r).ras = s.ras := rfl
@[simp] theorem State.setFrec_lmc (s : State) (n : Nat) (r : FaultRec) : (s.setFrec n r).lmc = s.lmc := rfl
@[simp] theorem State.setFrec_cmp (s : State) (n : Nat) (r : FaultRec) : (s.setFrec n r).cmp = s.cmp := rfl
@[simp] theorem State.setFrec_nvmw (s : State) (n : Nat) (r : FaultRec) : (s.setFrec n r).nvmw = s.nvmw := rfl
@[simp] theorem State.setFrec_msk (s : State) (n : Nat) (r : FaultRec) : (s.setFrec n r).msk = s.msk := rfl
@[simp] theorem State.setFrec_lum (s : State) (n : Nat) (r : FaultRec) : (s.setFrec n r).lum = s.lum := rfl
@[simp] theorem State.setFrec_ary (s : State) (n : Nat) (r : FaultRec) : (s.setFrec n r).ary = s.ary := rfl
@[simp] theorem State.setFrec_hlt (s : State) (n : Nat) (r : FaultRec) : (s.setFrec n r).hlt = s.hlt := rfl
@[simp] theorem State.setFrec_lpe (s : State) (n : Nat) (r : FaultRec) : (s.setFrec n r).lpe = s.lpe := rfl
@[simp] theorem State.setFrec_recd (s : State) (n : Nat) (r : FaultRec) : (s.setFrec n r).recd = s.recd := rfl
@[simp] theorem State.setFrec_thm (s : State) (n : Nat) (r : FaultRec) : (s.setFrec n r).thm = s.thm := rfl
@[simp] theorem State.setFrec_lnk (s : State) (n : Nat) (r : FaultRec) : (s.setFrec n r).lnk = s.lnk := rfl
@[simp] theorem State.setFrec_cvn (s : State) (n : Nat) (r : FaultRec) : (s.setFrec n r).cvn = s.cvn := rfl
@[simp] theorem State.setFrec_tdm (s : State) (n : Nat) (r : FaultRec) : (s.setFrec n r).tdm = s.tdm := rfl
@[simp] theorem State.setFrec_cfg (s : State) (n : Nat) (r : FaultRec) : (s.setFrec n r).cfg = s.cfg := rfl
@[simp] theorem State.setFrec_spi (s : State) (n : Nat) (r : FaultRec) : (s.setFrec n r).spi = s.spi := rfl
@[simp] theorem State.setFrec_saf (s : State) (n : Nat) (r : FaultRec) : (s.setFrec n r).saf = s.saf := rfl
@[simp] theorem State.setFrec_pwr (s : State) (n : Nat) (r : FaultRec) : (s.setFrec n r).pwr = s.pwr := rfl
@[simp] theorem State.setFrec_cal (s : State) (n : Nat) (r : FaultRec) : (s.setFrec n r).cal = s.cal := rfl
@[simp] theorem State.setFrec_bst (s : State) (n : Nat) (r : FaultRec) : (s.setFrec n r).bst = s.bst := rfl

@[simp] theorem State.answer_pending (s : State) (v : Word) (r : Nat) : (s.answer v r).pending = s.pending := rfl
@[simp] theorem State.answer_regs (s : State) (v : Word) (r : Nat) : (s.answer v r).regs = s.regs := rfl
@[simp] theorem State.answer_shadow (s : State) (v : Word) (r : Nat) : (s.answer v r).shadow = s.shadow := rfl
@[simp] theorem State.answer_freeCount (s : State) (v : Word) (r : Nat) : (s.answer v r).freeCount = s.freeCount := rfl
@[simp] theorem State.answer_lmem (s : State) (v : Word) (r : Nat) : (s.answer v r).lmem = s.lmem := rfl
@[simp] theorem State.answer_nvm (s : State) (v : Word) (r : Nat) : (s.answer v r).nvm = s.nvm := rfl
@[simp] theorem State.answer_ras (s : State) (v : Word) (r : Nat) : (s.answer v r).ras = s.ras := rfl
@[simp] theorem State.answer_lmc (s : State) (v : Word) (r : Nat) : (s.answer v r).lmc = s.lmc := rfl
@[simp] theorem State.answer_cmp (s : State) (v : Word) (r : Nat) : (s.answer v r).cmp = s.cmp := rfl
@[simp] theorem State.answer_nvmw (s : State) (v : Word) (r : Nat) : (s.answer v r).nvmw = s.nvmw := rfl
@[simp] theorem State.answer_msk (s : State) (v : Word) (r : Nat) : (s.answer v r).msk = s.msk := rfl
@[simp] theorem State.answer_lum (s : State) (v : Word) (r : Nat) : (s.answer v r).lum = s.lum := rfl
@[simp] theorem State.answer_ary (s : State) (v : Word) (r : Nat) : (s.answer v r).ary = s.ary := rfl
@[simp] theorem State.answer_hlt (s : State) (v : Word) (r : Nat) : (s.answer v r).hlt = s.hlt := rfl
@[simp] theorem State.answer_lpe (s : State) (v : Word) (r : Nat) : (s.answer v r).lpe = s.lpe := rfl
@[simp] theorem State.answer_recd (s : State) (v : Word) (r : Nat) : (s.answer v r).recd = s.recd := rfl
@[simp] theorem State.answer_thm (s : State) (v : Word) (r : Nat) : (s.answer v r).thm = s.thm := rfl
@[simp] theorem State.answer_lnk (s : State) (v : Word) (r : Nat) : (s.answer v r).lnk = s.lnk := rfl
@[simp] theorem State.answer_cvn (s : State) (v : Word) (r : Nat) : (s.answer v r).cvn = s.cvn := rfl
@[simp] theorem State.answer_tdm (s : State) (v : Word) (r : Nat) : (s.answer v r).tdm = s.tdm := rfl
@[simp] theorem State.answer_cfg (s : State) (v : Word) (r : Nat) : (s.answer v r).cfg = s.cfg := rfl
@[simp] theorem State.answer_spi (s : State) (v : Word) (r : Nat) : (s.answer v r).spi = s.spi := rfl
@[simp] theorem State.answer_saf (s : State) (v : Word) (r : Nat) : (s.answer v r).saf = s.saf := rfl
@[simp] theorem State.answer_flt (s : State) (v : Word) (r : Nat) : (s.answer v r).flt = s.flt := rfl
@[simp] theorem State.answer_pwr (s : State) (v : Word) (r : Nat) : (s.answer v r).pwr = s.pwr := rfl
@[simp] theorem State.answer_cal (s : State) (v : Word) (r : Nat) : (s.answer v r).cal = s.cal := rfl
@[simp] theorem State.answer_bst (s : State) (v : Word) (r : Nat) : (s.answer v r).bst = s.bst := rfl

@[simp] theorem State.withPending_regs (s : State) (q : List Instr) : (s.withPending q).regs = s.regs := rfl
@[simp] theorem State.withPending_shadow (s : State) (q : List Instr) : (s.withPending q).shadow = s.shadow := rfl
@[simp] theorem State.withPending_port (s : State) (q : List Instr) : (s.withPending q).port = s.port := rfl
@[simp] theorem State.withPending_freeCount (s : State) (q : List Instr) : (s.withPending q).freeCount = s.freeCount := rfl
@[simp] theorem State.withPending_lmem (s : State) (q : List Instr) : (s.withPending q).lmem = s.lmem := rfl
@[simp] theorem State.withPending_nvm (s : State) (q : List Instr) : (s.withPending q).nvm = s.nvm := rfl
@[simp] theorem State.withPending_ras (s : State) (q : List Instr) : (s.withPending q).ras = s.ras := rfl
@[simp] theorem State.withPending_lmc (s : State) (q : List Instr) : (s.withPending q).lmc = s.lmc := rfl
@[simp] theorem State.withPending_cmp (s : State) (q : List Instr) : (s.withPending q).cmp = s.cmp := rfl
@[simp] theorem State.withPending_nvmw (s : State) (q : List Instr) : (s.withPending q).nvmw = s.nvmw := rfl
@[simp] theorem State.withPending_msk (s : State) (q : List Instr) : (s.withPending q).msk = s.msk := rfl
@[simp] theorem State.withPending_lum (s : State) (q : List Instr) : (s.withPending q).lum = s.lum := rfl
@[simp] theorem State.withPending_ary (s : State) (q : List Instr) : (s.withPending q).ary = s.ary := rfl
@[simp] theorem State.withPending_hlt (s : State) (q : List Instr) : (s.withPending q).hlt = s.hlt := rfl
@[simp] theorem State.withPending_lpe (s : State) (q : List Instr) : (s.withPending q).lpe = s.lpe := rfl
@[simp] theorem State.withPending_recd (s : State) (q : List Instr) : (s.withPending q).recd = s.recd := rfl
@[simp] theorem State.withPending_thm (s : State) (q : List Instr) : (s.withPending q).thm = s.thm := rfl
@[simp] theorem State.withPending_lnk (s : State) (q : List Instr) : (s.withPending q).lnk = s.lnk := rfl
@[simp] theorem State.withPending_cvn (s : State) (q : List Instr) : (s.withPending q).cvn = s.cvn := rfl
@[simp] theorem State.withPending_tdm (s : State) (q : List Instr) : (s.withPending q).tdm = s.tdm := rfl
@[simp] theorem State.withPending_cfg (s : State) (q : List Instr) : (s.withPending q).cfg = s.cfg := rfl
@[simp] theorem State.withPending_spi (s : State) (q : List Instr) : (s.withPending q).spi = s.spi := rfl
@[simp] theorem State.withPending_saf (s : State) (q : List Instr) : (s.withPending q).saf = s.saf := rfl
@[simp] theorem State.withPending_flt (s : State) (q : List Instr) : (s.withPending q).flt = s.flt := rfl
@[simp] theorem State.withPending_pwr (s : State) (q : List Instr) : (s.withPending q).pwr = s.pwr := rfl
@[simp] theorem State.withPending_cal (s : State) (q : List Instr) : (s.withPending q).cal = s.cal := rfl
@[simp] theorem State.withPending_bst (s : State) (q : List Instr) : (s.withPending q).bst = s.bst := rfl

@[simp] theorem State.setDir_pending (s : State) (t : Nat) (e : DirEntry) : (s.setDir t e).pending = s.pending := rfl
@[simp] theorem State.setDir_regs (s : State) (t : Nat) (e : DirEntry) : (s.setDir t e).regs = s.regs := rfl
@[simp] theorem State.setDir_shadow (s : State) (t : Nat) (e : DirEntry) : (s.setDir t e).shadow = s.shadow := rfl
@[simp] theorem State.setDir_port (s : State) (t : Nat) (e : DirEntry) : (s.setDir t e).port = s.port := rfl
@[simp] theorem State.setDir_freeCount (s : State) (t : Nat) (e : DirEntry) : (s.setDir t e).freeCount = s.freeCount := rfl
@[simp] theorem State.setDir_lmem (s : State) (t : Nat) (e : DirEntry) : (s.setDir t e).lmem = s.lmem := rfl
@[simp] theorem State.setDir_nvm (s : State) (t : Nat) (e : DirEntry) : (s.setDir t e).nvm = s.nvm := rfl
@[simp] theorem State.setDir_ras (s : State) (t : Nat) (e : DirEntry) : (s.setDir t e).ras = s.ras := rfl
@[simp] theorem State.setDir_cmp (s : State) (t : Nat) (e : DirEntry) : (s.setDir t e).cmp = s.cmp := rfl
@[simp] theorem State.setDir_nvmw (s : State) (t : Nat) (e : DirEntry) : (s.setDir t e).nvmw = s.nvmw := rfl
@[simp] theorem State.setDir_msk (s : State) (t : Nat) (e : DirEntry) : (s.setDir t e).msk = s.msk := rfl
@[simp] theorem State.setDir_lum (s : State) (t : Nat) (e : DirEntry) : (s.setDir t e).lum = s.lum := rfl
@[simp] theorem State.setDir_ary (s : State) (t : Nat) (e : DirEntry) : (s.setDir t e).ary = s.ary := rfl
@[simp] theorem State.setDir_hlt (s : State) (t : Nat) (e : DirEntry) : (s.setDir t e).hlt = s.hlt := rfl
@[simp] theorem State.setDir_lpe (s : State) (t : Nat) (e : DirEntry) : (s.setDir t e).lpe = s.lpe := rfl
@[simp] theorem State.setDir_recd (s : State) (t : Nat) (e : DirEntry) : (s.setDir t e).recd = s.recd := rfl
@[simp] theorem State.setDir_thm (s : State) (t : Nat) (e : DirEntry) : (s.setDir t e).thm = s.thm := rfl
@[simp] theorem State.setDir_lnk (s : State) (t : Nat) (e : DirEntry) : (s.setDir t e).lnk = s.lnk := rfl
@[simp] theorem State.setDir_cvn (s : State) (t : Nat) (e : DirEntry) : (s.setDir t e).cvn = s.cvn := rfl
@[simp] theorem State.setDir_tdm (s : State) (t : Nat) (e : DirEntry) : (s.setDir t e).tdm = s.tdm := rfl
@[simp] theorem State.setDir_cfg (s : State) (t : Nat) (e : DirEntry) : (s.setDir t e).cfg = s.cfg := rfl
@[simp] theorem State.setDir_spi (s : State) (t : Nat) (e : DirEntry) : (s.setDir t e).spi = s.spi := rfl
@[simp] theorem State.setDir_saf (s : State) (t : Nat) (e : DirEntry) : (s.setDir t e).saf = s.saf := rfl
@[simp] theorem State.setDir_flt (s : State) (t : Nat) (e : DirEntry) : (s.setDir t e).flt = s.flt := rfl
@[simp] theorem State.setDir_pwr (s : State) (t : Nat) (e : DirEntry) : (s.setDir t e).pwr = s.pwr := rfl
@[simp] theorem State.setDir_cal (s : State) (t : Nat) (e : DirEntry) : (s.setDir t e).cal = s.cal := rfl
@[simp] theorem State.setDir_bst (s : State) (t : Nat) (e : DirEntry) : (s.setDir t e).bst = s.bst := rfl

end Sys2Proof.Machine
end

