-- ==== Sys2Proof/Tests/Slice0.lean ====
section
/-!
SUPPORT. Tests: ill-formed commands that the check refuses, single steps with results worked out from the spec, and
for each statement a state and operands that meet its hypotheses.
-/

namespace Sys2Proof.Tests

open Sys2Proof Sys2Proof.Machine

set_option Elab.async false

/-- A state with the given fields put. -/
def puts (s : State) (l : List (Field × Nat)) : State := l.foldl (fun s p => s.put p.1 p.2) s

/-- IDLE: CORE, LNK and the PLL are on, logical bank 0 is physical bank 0 and on; the island is in INIT. -/
def idle : State :=
  { puts State.reset
      [(F.PWR_STATUS_STATE, 3), (F.PWR_DOM_CORE, 1), (F.PWR_DOM_LNK, 1), (F.PWR_DOM_PLL, 1), (F.PWR_DOM_MEM, 0x1FFFF)] with
    saf := { State.reset.saf with darkA := false, darkB := true, padReq := false } }

/-- LIT: PIX is on and the raster runs, 120 slots a line and 16 blanking lines, at slot 0 of line 5. -/
def lit : State :=
  let s := puts idle
    [(F.PWR_STATUS_STATE, 4), (F.PWR_DOM_PIX, 1), (F.RAS_ACT_TIMING_N_SLOTS, 120), (F.RAS_ACT_TIMING_VB, 16),
      (F.RAS_ACT_PWM_K, 4), (F.RAS_STATUS_RUN, 1), (F.SAF_STATE_STATE, 1)]
  { s with ras := { s.ras with running := true, lineServed := true, line := 5, everStarted := true } }

/-- What a command answers, as a state. -/
def after (c : Instr) (s : State) : State := match exec c s with | .next t => t | _ => s

/-- The canonical form of a state, as a Bool. -/
def wfB (s : State) : Bool :=
  sparseWfB regReset s.regs && sparseWfB regReset s.shadow && Memory.wf s.lmem && Memory.wf s.nvm

theorem wf_of_wfB {s : State} (h : wfB s = true) : s.Wf := by
  unfold wfB Memory.wf at h
  simp only [Bool.and_eq_true, sparseWfB_iff] at h
  exact ⟨h.1.1.1, h.1.1.2, h.1.2, h.2⟩

theorem idle_wf : idle.Wf := wf_of_wfB (by decide +kernel)
theorem lit_wf : lit.Wf := wf_of_wfB (by decide +kernel)

/-! ### An ill-formed command for each check, and a well-formed one at the bound -/

theorem test_wf_column :
    (Instr.readback [(2047, 1)]).wellFormed = true ∧ (Instr.readback [(2048, 1)]).wellFormed = false ∧
    (Instr.spareSlotMaskWrite 0 [2048]).wellFormed = false ∧ (Instr.latchTestRow [2048]).wellFormed = false ∧
    (Instr.displayLoad [(2048, 0)]).wellFormed = false ∧ (Instr.emitterSense [] [2048] []).wellFormed = false := by decide

theorem test_wf_row :
    (Instr.maskPassGroup [(511, 2047)]).wellFormed = true ∧ (Instr.maskPassGroup [(512, 0)]).wellFormed = false := by decide

theorem test_wf_phase :
    (Instr.phasePulseStart 5).wellFormed = true ∧ (Instr.phasePulseStart 6).wellFormed = false ∧
    (Instr.phasePulseEnd 6).wellFormed = false ∧ (Instr.isnsConversion 7 0 true).wellFormed = false ∧
    (Instr.cbcTrip 6).wellFormed = false := by decide

theorem test_wf_line_upsets :
    (Instr.lineStart { map := [{ x := 2047, second := false, state := 3 }] }).wellFormed = true ∧
    (Instr.lineStart { map := [{ x := 0, second := false, state := 4 }] }).wellFormed = false ∧
    (Instr.lineStart { gain := [2048] }).wellFormed = false ∧ (Instr.lineStart { taps := [2048] }).wellFormed = false := by decide

theorem test_wf_lanes :
    (Instr.ts1Received false [{}, {}, {}, {}]).wellFormed = true ∧ (Instr.ts1Received false [{}]).wellFormed = false ∧
    (Instr.ts2Received true [{}] 0).wellFormed = true ∧ (Instr.ts2Received true [{}, {}] 0).wellFormed = false := by decide

theorem test_wf_payload :
    (Instr.tileWrite {} (List.replicate 1026 0) .good).wellFormed = true ∧
    (Instr.tileWrite {} (List.replicate 1027 0) .good).wellFormed = false := by decide +kernel

/-- The largest header. -/
def widest : EpochFrame :=
  { epoch := 65535, frame := 0, curVb := 1023, nSlots := 4095, vb := 1023, k := 511, nxNSlots := 4095, nxVb := 1023, nxK := 511, c := 4095,
    a := 524287, shLen := 31 }

theorem test_wf_epoch :
    (Instr.epochFrameReceived widest true 0 0).wellFormed = true ∧
    (Instr.epochFrameReceived { widest with epoch := 65536 } true 0 0).wellFormed = false ∧
    (Instr.epochFrameReceived { widest with c := 4096 } true 0 0).wellFormed = false ∧
    (Instr.epochFrameReceived { widest with shLen := 32 } true 0 0).wellFormed = false := by decide +kernel

theorem test_wf_register :
    (Instr.registerWrite .spi 0x14FFC 0).wellFormed = true ∧ (Instr.registerWrite .spi 0x15000 0).wellFormed = false ∧
    (Instr.readClearRegister .spi 2).wellFormed = false := by decide +kernel

theorem test_wf_calibration_pair :
    (Instr.calItemComplete (.link [1] [])).wellFormed = false ∧ (Instr.calItemComplete (.isns [] [1])).wellFormed = false ∧
    (Instr.calItemComplete (.trim [1] [1])).wellFormed = false := by decide +kernel

theorem test_wf_counts :
    (Instr.compositionDeadline { pixels := List.replicate 12 2048 }).wellFormed = true ∧
    (Instr.compositionDeadline { pixels := [2048] }).wellFormed = false ∧ (Instr.compositionDeadline { pixels := List.replicate 12 2049 }).wellFormed = false ∧
    (Instr.headroomTrim (.bad [15])).wellFormed = true ∧ (Instr.headroomTrim (.report 0 false [16] false)).wellFormed = false ∧
    (Instr.compositionDeadline { pixels := List.replicate 12 0, gain := [2048] }).wellFormed = false ∧
    (Instr.sensorGate [0]).wellFormed = false ∧ (Instr.loopEvaluation [16] false).wellFormed = false ∧
    (Instr.fbClear .spi 9 0).wellFormed = false ∧ (Instr.tileCrcCheck [(4096, 1)] .good).wellFormed = false ∧
    (Instr.engineMismatch { c := 4096 } {}).wellFormed = false ∧ (Instr.enumFrameReceived 0 true 0 4096 true).wellFormed = false ∧
    (Instr.shareReceived (List.replicate 17 0) { crcOk := true }).wellFormed = false := by decide +kernel

theorem test_wf_last_rows :
    (Instr.preChargeCalibrationSlot [0]).wellFormed = false ∧ (Instr.packetTypeNotUsed 4 {} []).wellFormed = false ∧
    (Instr.packetTypeNotUsed 5 {} []).wellFormed = true ∧ (Instr.spiOpNotUsed 6 0 0 0).wellFormed = false ∧
    (Instr.spiOpNotUsed 7 0 0 0).wellFormed = true := by decide +kernel

/-! ### Values that the spec itself works out -/

/-- R9 and R10, over the nine bytes "123456789". -/
theorem test_check_codes :
    crc32 [0x31, 0x32, 0x33, 0x34, 0x35, 0x36, 0x37, 0x38, 0x39] = 0xCBF43926 ∧
    crc8 [0x31, 0x32, 0x33, 0x34, 0x35, 0x36, 0x37, 0x38, 0x39] = 0xDF := by decide +kernel

/-- The frames of the SPI example of spec/20_host_registers.md: the CRC of the header and of the empty one, and GLB_ID. -/
theorem test_spi_example :
    crc8 [0x10, 0, 0, 1, 0, 0, 0, 0] = 0x2E ∧ crc8 (List.replicate 8 0) = 0x21 ∧ idle.regView A.GLB_ID = 0x4C4B2048 := by
  decide +kernel

/-- The example of R17: pixel (1300, 400) lies in row group 50 and zone 13. -/
theorem test_pixel_example : rowGroup 400 = 50 ∧ zoneOf 1300 400 = 13 := by decide

/-- The blending example of spec/04_layers_blending.md. -/
theorem test_blend_example :
    srgbEntry 200 = 37852 ∧ mul16 32896 49152 = 24672 ∧ mul16 40000 40863 = 24941 ∧ mul16 37852 24672 = 14250 ∧
    mul16 37852 49152 = 28389 := by decide +kernel

/-- The layer L5 of that example over the first one, in its three modes. -/
def overL5 (premul additive : Bool) : Nat :=
  blend { lit.layerCfg false 5 with la := 49152, premul := premul, additive := additive } 40000 (37852, 32896)

theorem test_blend_modes : overL5 false false = 39191 ∧ overL5 true false = 53330 ∧ overL5 false true = 54250 := by decide +kernel

/-- The scaler example of spec/05_scalers_commit.md: 40, 35 and 30 granules at 6, 5 and 4 taps; 4 taps fit. -/
theorem test_scaler_example :
    scalerNeed 6 98304 1280 = 40 ∧ scalerNeed 5 98304 1280 = 35 ∧ scalerNeed 4 98304 1280 = 30 ∧
    fitTaps 98304 1280 32 6 = some 4 ∧ filterOut (512 * 61000) = 30500 := by decide

/-- The object of the example of R148, and its levels. -/
def cutOut : MaskObj :=
  { x0 := 900, x1 := 1000, y0 := 200, y1 := 240, el := 13, er := 13, et := 6, eb := 6, prio := 0, level := 7 }

theorem test_mask_example :
    maskLevel [cutOut] 0 0 950 220 = 7 ∧ maskLevel [cutOut] 0 0 1005 220 = 5 ∧ maskLevel [cutOut] 0 0 1005 244 = 3 ∧
    maskLevel [cutOut] 0 0 1013 220 = 0 := by decide

/-- The encoding example of spec/07_luminance_pipeline.md. -/
theorem test_encoding_example :
    mul16 (mul16 49152 65535) 65535 = 49152 ∧ driveValue 40000 140 900 49152 = 110389 ∧ driveWord 110389 0 = 0xB6BD ∧
    driveWord 50000 0 = 0x2C35 := by decide

/-- The derating examples of spec/11_thermal.md: 118.50 degrees at a knee of 105. -/
theorem test_derating_example : zoneFactorT 474 420 = 716 ∧ driveWord (driveValue 65535 128 716 65535) 0 % 0x8000 = 0x3000 + 2863 := by
  decide

/-- The example of R198: 2.0 uA is near DAC 655, which lies within the DAC's range. -/
theorem test_dac : dacEff 655 = 655 ∧ dacEff 0 = 164 ∧ dacEff 1023 = 983 := by decide

/-! ### Single steps -/

/-- A state and a command in front of it, stepped. -/
def stepped (c : Instr) (s : State) : State := match step (s.withPending [c]) with | .next t => t | _ => s

theorem test_empty_queue_idles : step State.reset = .next State.reset := rfl

theorem test_register_write : (stepped (.registerWrite .spi 0x1010 0x00200078) idle).reg A.RAS_NEXT_TIMING = 0x00200078 := by decide +kernel

theorem test_register_write_off : (stepped (.registerWrite .spi 0x1010 7) State.reset).reg A.RAS_NEXT_TIMING = State.reset.reg A.RAS_NEXT_TIMING := by
  decide +kernel

theorem test_spi_mem_wr : (stepped (.spiMemWr 1 2 0x01000010 [0xAB, 0xCD]) idle).lmByte 0x01000011 = 0xCD := by decide +kernel

theorem test_irq_status_clear :
    ((stepped (.irqStatusClear .spi 4) (idle.setReg A.GLB_IRQ_STATUS 7)).reg A.GLB_IRQ_STATUS) = 3 := by decide +kernel

theorem test_removal_on_dark_pad : (stepped (.darkPadActive true true) lit).darkNets = true := by decide +kernel

/-- The envelope example of spec/12_safety.md: half of 300 ms to a floor of a tenth. -/
theorem test_envelope_example :
    ({ lit with saf := { lit.saf with dimCfg := 0x199A0000, rampCfg := 30000 } } : State).envelopeAt 15000 = 36045 := by decide +kernel

theorem test_claim_to_active :
    (stepped .claimToActive (puts lit [(F.CVN_TDM_STATUS_ROLE, 3), (F.CVN_TDM_STATUS_HOLD, 1)])).role = 1 := by decide +kernel


/-! ### Witnesses: states and operands that meet the hypotheses of the statements -/

/-- LIT with two bytes of layer memory. -/
def lit2 : State := { lit with lmem := [(0x01000000, 5), (0x01000003, 7)] }

/-- `s` in life-cycle state `n`. -/
def inLife (n : Nat) (s : State) : State := s.put F.CFG_LC_STATE n

/-- An SPI access is in progress. -/
def spiBusy : State := { lit with spi := { lit.spi with busy := some {} } }

theorem witness_StepRunsFrontCommand :
    idle.pending = [] := by decide +kernel

theorem witness_EveryStepTakesOneCommand :
    idle.Wf ∧ (lit2.withPending [.rasterStop, .commitStale]).Wf := 
  ⟨by simp only [State.Wf, WfData, SparseWf]; decide +kernel, by simp only [State.Wf, WfData, SparseWf]; decide +kernel⟩

theorem witness_StepKeepsCanonicalForm :
    ∃ s t : State, s.pending = [.spiTimeout, .rasterStop] ∧ s.Wf ∧ step s = .next t :=
  ⟨lit2.withPending [.spiTimeout, .rasterStop], _, rfl,
    by simp only [State.Wf, WfData, SparseWf]; decide +kernel, rfl⟩
theorem witness_FieldWriteReadsBack :
    idle.Wf ∧ (⟨0x15000, 31, 0⟩ : Field).hi < 32 ∧ (⟨0x15000, 31, 0⟩ : Field).lo ≤ (⟨0x15000, 31, 0⟩ : Field).hi := 
  ⟨by simp only [State.Wf, WfData, SparseWf]; decide +kernel, by decide +kernel⟩

theorem witness_EventBitsStandUntilCleared :
    (idle.Wf ∧ 23 < 24) ∧
    (idle.Wf ∧ idle.writable A.GLB_IRQ_STATUS) ∧
    (idle.Wf ∧ idle.readable A.GLB_IRQ_RAW) := 
  ⟨⟨by simp only [State.Wf, WfData, SparseWf]; decide +kernel, by decide +kernel⟩,
    ⟨by simp only [State.Wf, WfData, SparseWf]; decide +kernel, by simp only [State.writable]; decide +kernel⟩,
    ⟨by simp only [State.Wf, WfData, SparseWf]; decide +kernel, by simp only [State.readable]; decide +kernel⟩⟩

theorem witness_PortRefusesAndRecords :
    (idle.Wf ∧ 15 < 16 ∧ 255 < 256 ∧ 255 ≠ 0 ∧ 2 ^ 32 - 1 < 2 ^ 32) ∧
    ((0 : BitVec 17).toNat % 4 = 0 ∧ (0 : BitVec 17).toNat < 0x15000 ∧ State.reset.aonOn = false) ∧
    ((0xAFFC : BitVec 17).toNat < 0x15000 ∧ (idle.put F.PWR_DOM_CORE 0).aonOn = true ∧ (idle.put F.PWR_DOM_CORE 0).portDecide 0xAFFC true = 7) ∧
    ((0x14FFC : BitVec 17).toNat < 0x15000 ∧ (idle.put F.BST_STATUS_POST 1).aonOn = true ∧ (idle.put F.BST_STATUS_POST 1).portDecide 0x14FFC true = 6) ∧
    ((0x14FFC : BitVec 17).toNat < 0x15000 ∧ idle.aonOn = true ∧ idle.portDecide 0x14FFC true = 8) ∧
    ((0x2000 : BitVec 17).toNat < 0x15000 ∧ (idle.put F.BST_STATUS_POST 1).aonOn = true ∧ (idle.put F.BST_STATUS_POST 1).portDecide 0x2000 false = 6) ∧
    ((0xAFFC : BitVec 17).toNat < 0x15000 ∧ (idle.put F.PWR_DOM_CORE 0).aonOn = true ∧ (idle.put F.PWR_DOM_CORE 0).portDecide 0xAFFC false = 7) ∧
    ((0x14FFC : BitVec 17).toNat < 0x15000 ∧ idle.aonOn = true ∧ idle.portDecide 0x14FFC false = 0 ∧ regRow 0x14FFC = none) ∧
    (0xAFFC < 0x15000 ∧ 0xAFFC / 0x1000 = 10 ∧ (idle.put F.PWR_DOM_CORE 0).get F.PWR_DOM_CORE = 0) ∧
    (0xD000 < 0x15000 ∧ 0xD000 / 0x1000 = 13 ∧ (idle.put F.PWR_DOM_LNK 0).get F.PWR_DOM_LNK = 0) ∧
    (0x14FFC < 0x15000 ∧ 0x14FFC / 0x1000 ∈ [1, 2, 3, 4, 5, 6, 7, 8, 9, 15, 17, 18, 19, 20] ∧ (idle.put F.PWR_STATUS_STATE 6).power = 6) ∧
    (0x0 < 0x15000 ∧ 0x0 / 0x1000 ∈ [0, 11, 12, 14, 16] ∧ idle.get F.BST_STATUS_POST = 0 ∧ idle.get F.CFG_STATUS_FROZEN = 0) ∧
    (0x14FFC < 0x15000 ∧ idle.get F.PWR_DOM_CORE ≠ 0 ∧ idle.get F.PWR_DOM_LNK ≠ 0 ∧ idle.power ∈ [3, 4, 5] ∧ idle.get F.BST_STATUS_POST = 0 ∧ idle.get F.CFG_STATUS_FROZEN = 0) := 
  ⟨⟨by simp only [State.Wf, WfData, SparseWf]; decide +kernel, by decide +kernel⟩,
    by decide +kernel⟩

theorem witness_PlainRegistersFollowAccessCodes :
    (idle.Wf ∧ idle.writable A.RAS_NEXT_TIMING ∧ (0x103C : BitVec 17).toNat % 4 = 0 ∧ A.RAS_NEXT_TIMING < 0x15000 ∧ plainWrite A.RAS_NEXT_TIMING = true ∧ idle.absent A.RAS_NEXT_TIMING = false) ∧
    (idle.Wf ∧ idle.readable A.GLB_IRQ_RAW ∧ A.GLB_IRQ_RAW < 0x15000 ∧ plainRead A.GLB_IRQ_RAW = true ∧ idle.absent A.GLB_IRQ_RAW = false) := 
  ⟨⟨by simp only [State.Wf, WfData, SparseWf]; decide +kernel, by simp only [State.writable]; decide +kernel, by decide +kernel⟩,
    ⟨by simp only [State.Wf, WfData, SparseWf]; decide +kernel, by simp only [State.readable]; decide +kernel, by decide +kernel⟩⟩

theorem witness_SpiFramesWithoutAccess :
    (idle.aonOn = true ∧ 7 ≤ (7 : BitVec 4).toNat) ∧
    (spiBusy.aonOn = true ∧ (0xFFFF : BitVec 16) ≠ 0 ∧ 7 ≤ (15 : BitVec 4).toNat ∧ spiBusy.spi.busy ≠ none) ∧
    (idle.aonOn = true ∧ (1 : BitVec 16) ≠ 0 ∧ 7 ≤ (7 : BitVec 4).toNat ∧ idle.spi.busy = none) ∧
    (spiBusy.spi.busy = some {}) := by decide +kernel

theorem witness_SpiWordFramesAccessInOrder :
    (idle.aonOn = true ∧ idle.spi.busy = none ∧ 1 ≤ (64 : BitVec 16).toNat ∧ (64 : BitVec 16).toNat ≤ 64 ∧ (0x14F00 : Word).toNat % 4 = 0 ∧ (List.replicate 64 (5 : Word)).length = (64 : BitVec 16).toNat ∧ (0x14F00 : Word).toNat + 4 * (64 : BitVec 16).toNat ≤ 0x15000) ∧
    (idle.aonOn = true ∧ idle.spi.busy = none ∧ 1 ≤ (1 : BitVec 16).toNat ∧ (1 : BitVec 16).toNat ≤ 64 ∧ (0x14FFC : Word).toNat % 4 = 0 ∧ (0x14FFC : Word).toNat < 0x15000 ∧ [(5 : Word)].length = (1 : BitVec 16).toNat) ∧
    (64 < (65 : BitVec 16).toNat ∧ (List.replicate 65 (5 : Word)).length = (65 : BitVec 16).toNat ∧ idle.aonOn = true ∧ idle.spi.busy = none) ∧
    (1 ≤ (64 : BitVec 16).toNat ∧ (64 : BitVec 16).toNat ≤ 64 ∧ (List.replicate 64 (5 : Word)).length = (64 : BitVec 16).toNat ∧ (0x14FFD : Word).toNat % 4 ≠ 0 ∧ idle.aonOn = true ∧ idle.spi.busy = none) := by decide +kernel

/-- Layer memory with tiles 1 and 2 under a lock. -/
def locked : State := puts lit2 [(F.LMC_LOCKn_EN 0, 1), (F.LMC_LOCKn_FIRST 0, 1), (F.LMC_LOCKn_COUNT 0, 2)]

/-- Only physical bank 0 is on. -/
def oneBank : State := lit2.put F.PWR_DOM_MEM 1

theorem witness_SpiMemoryFrames :
    (lit2.Wf ∧ lit2.aonOn = true ∧ lit2.spi.busy = none ∧ lit2.power ≠ 1 ∧ lit2.post = false ∧ lit2.frozen = false ∧ (0x01000000 : Word).toNat + (256 : BitVec 16).toNat ≤ 0x04000000 ∧ (∀ k, k < 256 → lit2.tileOn (tileOf (0x01000000 + k)) = true) ∧ (∀ k, k < 256 → lit2.tileLocked (tileOf (0x01000000 + k)) = false) ∧ (List.replicate 256 (9 : Byte)).length = 256) ∧
    (locked.Wf ∧ locked.aonOn = true ∧ locked.spi.busy = none ∧ locked.power ≠ 1 ∧ locked.post = false ∧ locked.frozen = false ∧ (∀ k, k < 4 → locked.tileOn (tileOf (0x01000FFF + k)) = true) ∧ locked.tileLocked (tileOf (0x01000FFF + 1)) = true ∧ [(9 : Byte), 8, 0, 6].length = 4) ∧
    (oneBank.Wf ∧ oneBank.aonOn = true ∧ oneBank.spi.busy = none ∧ oneBank.power ≠ 1 ∧ oneBank.post = false ∧ oneBank.frozen = false ∧ (∀ j, j < 2 → oneBank.tileOn (tileOf (0x012FFFFE + j)) = true) ∧ oneBank.tileOn (tileOf (0x012FFFFE + 2)) = false ∧ [(9 : Byte), 8, 0, 6].length = 4 ∧ 2 < 4) := 
  ⟨⟨by simp only [State.Wf, WfData, SparseWf]; decide +kernel, by decide +kernel⟩,
    ⟨by simp only [State.Wf, WfData, SparseWf]; decide +kernel, by decide +kernel⟩,
    ⟨by simp only [State.Wf, WfData, SparseWf]; decide +kernel, by decide +kernel⟩⟩

theorem witness_JtagFollowsLifeCycle :
    ((inLife 1 lit2).Wf ∧ (inLife 1 lit2).readable 0x1010 ∧ (inLife 1 lit2).writable 0x1010 ∧ (inLife 1 lit2).cfg.trst = false ∧ (inLife 1 lit2).lc ∈ [0, 1, 3] ∧ (0x1010 : Word).toNat % 4 = 0 ∧ (0x1010 : Word).toNat < 0x15000 ∧ (inLife 1 lit2).absent 0x1010 = false ∧ plainRead 0x1010 = true ∧ plainWrite 0x1010 = true) ∧
    ((inLife 3 lit2).Wf ∧ (inLife 3 lit2).coreOn = true ∧ (inLife 3 lit2).lc = 3) ∧
    (({ lit2 with cfg := { lit2.cfg with trst := true } } : State).cfg.trst = true ∧ lit2.cfg.trst = false) ∧
    ((inLife 4 lit2).aonOn = true ∧ (inLife 4 lit2).cfg.trst = false ∧ (inLife 4 lit2).lc = 4 ∧ (inLife 2 lit2).aonOn = true ∧ (inLife 2 lit2).lc = 2 ∧ (inLife 2 lit2).frozen = false) ∧
    ((inLife 3 lit2).aonOn = true ∧ (inLife 3 lit2).lc ∈ [0, 1, 3] ∧ (inLife 2 (lit2.put F.CFG_STATUS_FROZEN 1)).lc = 2 ∧ (inLife 2 (lit2.put F.CFG_STATUS_FROZEN 1)).frozen = true) ∧
    ((inLife 0 lit2).coreOn = true ∧ (inLife 0 lit2).cfg.trst = false ∧ (inLife 0 lit2).lc = 0) ∧
    ((inLife 4 lit2).coreOn = true ∧ (inLife 4 lit2).lc = 4) := 
  ⟨⟨by simp only [State.Wf, WfData, SparseWf]; decide +kernel, by simp only [State.readable]; decide +kernel, by simp only [State.writable]; decide +kernel, by decide +kernel⟩,
    ⟨by simp only [State.Wf, WfData, SparseWf]; decide +kernel, by decide +kernel⟩,
    by decide +kernel⟩

/-- Every bank holds its own number, with tiles and bytes at bank edges. -/
def banks : State := (List.range 16).foldl (fun s b => s.put (bankMapField b) b)
  { lit2 with
    lmem := lit2.lmem ++ [(0x01300005, 9), (0x01600000, 8)]
    lmc := { lit2.lmc with dir := [(0, { st := .sealed, crc := 3 }), (767, { st := .unsealed }), (768, { st := .sealed })] } }

/-- The seal of tile 768 is under way. -/
def sealing : State :=
  { puts banks [(F.LMC_SEAL_STATUS_BUSY, 1)] with lmc := { banks.lmc with sealing := some { tile := 768, self := true, crc := 0, by_ := 1 } } }

theorem witness_SealsFollowTheirTable :
    ((banks.put F.LMC_SEAL_STATUS_BUSY 1).Wf ∧ (banks.put F.LMC_SEAL_STATUS_BUSY 1).writable A.LMC_SEAL ∧ (banks.put F.LMC_SEAL_STATUS_BUSY 1).get F.LMC_SEAL_STATUS_BUSY = 1) ∧
    (banks.Wf ∧ banks.writable A.LMC_SEAL ∧ banks.get F.LMC_SEAL_STATUS_BUSY = 0 ∧ 12288 ≤ (12288 : Word).toNat % 2 ^ 14) ∧
    (oneBank.Wf ∧ oneBank.writable A.LMC_SEAL ∧ oneBank.get F.LMC_SEAL_STATUS_BUSY = 0 ∧ (12287 : Word).toNat % 2 ^ 14 < 12288 ∧ oneBank.tileOn 12287 = false) ∧
    (banks.writable A.LMC_SEAL ∧ banks.get F.LMC_SEAL_STATUS_BUSY = 0 ∧ banks.tileOn 1 = true ∧ (banks.dirEntry 1).st = .empty ∧ banks.dirLatent 1 = .good) ∧
    (banks.writable A.LMC_SEAL ∧ banks.get F.LMC_SEAL_STATUS_BUSY = 0 ∧ banks.tileOn 768 = true ∧ (banks.dirEntry 768).st ≠ .empty ∧ banks.dirLatent 768 = .good) ∧
    ((banks.put F.BST_STATUS_POST 1).Wf ∧ (banks.put F.BST_STATUS_POST 1).aonOn = true ∧ (banks.put F.BST_STATUS_POST 1).get F.LMC_SEAL_STATUS_BUSY = 0 ∧ (banks.put F.BST_STATUS_POST 1).tileOn 768 = true ∧ (banks.put F.BST_STATUS_POST 1).post = true ∧ (banks.put F.BST_STATUS_POST 1).portDecide A.LMC_SEAL true = 6) ∧
    (banks.Wf ∧ 7 < 8) ∧
    (sealing.Wf ∧ sealing.coreRun = true ∧ sealing.lmc.sealing = some { tile := 768, self := true, crc := 0, by_ := 1 } ∧ sealing.dirLatent 768 = .good) ∧
    (({ sealing with lmc := { sealing.lmc with dirHit := [(768, true)] } } : State).coreRun = true ∧ ({ sealing with lmc := { sealing.lmc with dirHit := [(768, false)] } } : State).lmc.dirHit = [(768, false)]) := 
  ⟨⟨by simp only [State.Wf, WfData, SparseWf]; decide +kernel, by simp only [State.writable]; decide +kernel, by decide +kernel⟩,
    ⟨by simp only [State.Wf, WfData, SparseWf]; decide +kernel, by simp only [State.writable]; decide +kernel, by decide +kernel⟩,
    ⟨by simp only [State.Wf, WfData, SparseWf]; decide +kernel, by simp only [State.writable]; decide +kernel, by decide +kernel⟩,
    ⟨by simp only [State.writable]; decide +kernel, by decide +kernel⟩,
    ⟨by simp only [State.writable]; decide +kernel, by decide +kernel⟩,
    ⟨by simp only [State.Wf, WfData, SparseWf]; decide +kernel, by decide +kernel⟩,
    ⟨by simp only [State.Wf, WfData, SparseWf]; decide +kernel, by decide +kernel⟩,
    ⟨by simp only [State.Wf, WfData, SparseWf]; decide +kernel, by decide +kernel⟩,
    by decide +kernel⟩

/-- Bank 16 is the nomad bank, off; rotation is asked for. -/
def nomadOff : State := puts banks [(F.LMC_NOMAD_PHYS, 16), (F.PWR_DOM_MEM, 0xFFFF)]

/-- The rotation is off. -/
def still : State := banks.put F.LMC_CTRL_BG_EN 0

/-- The nomad bank's domain has been switched on. -/
def nomadOn : State := let s := puts banks [(F.LMC_NOMAD_PHYS, 16), (F.LMC_CTRL_BG_EN, 1)]; { s with lmc := { s.lmc with nomadWait := true } }

/-- Bank 1 is under MIGRATE. -/
def migrating : State :=
  let s := puts banks [(F.LMC_NOMAD_PHYS, 16), (F.LMC_CTRL_BG_EN, 1), (F.LMC_STATUS_BG_PHASE, 1), (F.LMC_STATUS_MIGRATE_BANK, 1)]
  { s with lmc := { s.lmc with dir := [(0, { st := .sealed, crc := 3 }), (767, { st := .unsealed })] } }

theorem witness_BanksRotateAndGoOff :
    (nomadOff.Wf ∧ nomadOff.writable A.LMC_CTRL ∧ nomadOff.lmc.rotate = none ∧ (1 : Word).getLsbD 0 = true ∧ nomadOff.get F.LMC_STATUS_BG_PHASE = 0 ∧ nomadOff.post = false ∧ nomadOff.awake = true ∧ nomadOff.memHeld = false ∧ nomadOff.get F.LMC_NOMAD_PHYS = 16 ∧ nomadOff.memOn 16 = false) ∧
    (migrating.Wf ∧ migrating.writable A.LMC_CTRL ∧ migrating.lmc.rotate = none ∧ (0 : Word).getLsbD 0 = false ∧ migrating.get F.LMC_STATUS_BG_PHASE = 1 ∧ migrating.get F.LMC_STATUS_MIGRATE_BANK = 1 ∧ migrating.lmc.sealing = none ∧ migrating.lmc.dirHit = [] ∧ (∀ i, i < 768 → (migrating.dirEntry (768 * 1 + i)).st ≠ .sealed)) ∧
    (nomadOn.Wf ∧ nomadOn.coreRun = true ∧ nomadOn.lmc.nomadWait = true ∧ nomadOn.lmc.rotate = none ∧ nomadOn.get F.LMC_STATUS_BG_PHASE = 0 ∧ nomadOn.post = false ∧ nomadOn.awake = true ∧ nomadOn.memHeld = false ∧ nomadOn.get F.LMC_CTRL_BG_EN = 1 ∧ nomadOn.get F.LMC_NOMAD_PHYS = 16 ∧ nomadOn.memOn 16 = true ∧ nomadOn.bankOn 0 = true ∧ (∀ i, i < 16 → (nomadOn.lmc.nextBank + i) % 16 = 0 → ∀ j, j < i → nomadOn.bankOn ((nomadOn.lmc.nextBank + j) % 16) = false)) ∧
    (migrating.Wf ∧ migrating.coreRun = true ∧ migrating.get F.LMC_STATUS_BG_PHASE = 1 ∧ migrating.lmc.rotate = none ∧ migrating.get F.LMC_NOMAD_PHYS = 16 ∧ migrating.get F.LMC_STATUS_MIGRATE_BANK = 1) ∧
    (still.Wf ∧ still.writable A.LMC_BANK_EN ∧ still.lmc.scan = none ∧ still.bankOn 1 = true ∧ still.get F.LMC_STATUS_BG_PHASE = 0 ∧ still.get F.LMC_CTRL_BG_EN = 0 ∧ still.lmc.rotate = none ∧ (∀ c, c < 16 → c ≠ 1 → (0xFFFD : Word).getLsbD c = still.bankOn c) ∧ (0xFFFD : Word).getLsbD 1 = false ∧ (∀ c, c < 16 → c ≠ 1 → still.physOf c ≠ still.physOf 1)) := 
  ⟨⟨by simp only [State.Wf, WfData, SparseWf]; decide +kernel, by simp only [State.writable]; decide +kernel, by decide +kernel⟩,
    ⟨by simp only [State.Wf, WfData, SparseWf]; decide +kernel, by simp only [State.writable]; decide +kernel, by decide +kernel⟩,
    ⟨by simp only [State.Wf, WfData, SparseWf]; decide +kernel, by decide +kernel⟩,
    ⟨by simp only [State.Wf, WfData, SparseWf]; decide +kernel, by decide +kernel⟩,
    ⟨by simp only [State.Wf, WfData, SparseWf]; decide +kernel, by simp only [State.writable]; decide +kernel, by decide +kernel⟩⟩

/-- Physical bank 3 has been tested to the end. -/
def tested : State := puts migrating [(F.LMC_STATUS_BG_PHASE, 2), (F.LMC_STATUS_TEST_PHYS, 3)]

theorem witness_BankTestCountsOrRetires :
    tested.Wf ∧ tested.coreRun = true ∧ tested.get F.LMC_STATUS_BG_PHASE = 2 ∧ tested.lmc.bgOps = 0 ∧ tested.lmc.rotate = none ∧ tested.get F.LMC_STATUS_TEST_PHYS = 3 := 
  ⟨by simp only [State.Wf, WfData, SparseWf]; decide +kernel, by decide +kernel⟩

/-- A MEM_SCAN of 7 bytes is running in slot 2. -/
def scanning : State :=
  { puts banks [(F.PWR_JOBn_STATUS_STATE 2, 1), (F.PWR_JOBn_STATUS_TYPE 2, 1)] with
    lmc := { banks.lmc with scan := some { addr := 0x01000000, len := 7, seed := 0, pos := 0, run := 0xFFFFFFFF } } }


theorem witness_ScansAndSlices :
    (scanning.Wf ∧ scanning.coreRun = true ∧ scanning.findRunning Job.memScan = some 2 ∧ scanning.findJob Job.memScan = some 2 ∧ scanning.lmc.scan = some { addr := 0x01000000, len := 7, seed := 0, pos := 0, run := 0xFFFFFFFF } ∧ (0xFFFFFFFF : Word) = 0 ^^^ 0xFFFFFFFF#32) ∧
    (tested.coreRun = true ∧ tested.get F.LMC_STATUS_BG_PHASE = 2 ∧ tested.lmc.rotate = none ∧ tested.ras.running = true ∧ tested.lineOn = true ∧ tested.slotOpen 8 = true ∧ tested.lmc.sliced = false) ∧
    (({ tested with ras := { tested.ras with slot := 9 } } : State).slotOpen 8 = false ∧ ({ tested with lmc := { tested.lmc with sliced := true } } : State).lmc.sliced = true) ∧
    (tested.coreRun = true ∧ ({ tested with ras := { tested.ras with running := false } } : State).ras.running = false) := 
  ⟨⟨by simp only [State.Wf, WfData, SparseWf]; decide +kernel, by decide +kernel⟩,
    by decide +kernel⟩

/-- LIT in line `l`, with `b` bands fetched. -/
def fetchIn (l b : Nat) : State := { lit2 with ras := { lit2.ras with line := l }, cmp := { lit2.cmp with bands := b } }

/-- Line 24 from the end of a blanking of 30 lines. -/
def lateBlank : State :=
  let s := lit2.put F.RAS_STATUS_CUR_VB 30
  { s with ras := { s.ras with line := 518, blankServed := true } }

/-- Tile 5 is at the head of the fetch, and its directory entry is `e`. -/
def fetching (e : DirEntry) : State :=
  { lit2 with
    lmc := { lit2.lmc with dir := [(5, e)] }
    cmp := { lit2.cmp with todo := [{ layer := 0, band := 0, tile := 5 }] } }

/-- CRC-32 of the bytes of tile 5. -/
def tile5 : Word := crc32 (lit2.lmBytes (0x01000000 + 4096 * 5) 4096)

theorem witness_FetchUsesOnlySealedTiles :
    ((fetchIn 472 31).composes = true ∧ (fetchIn 472 31).lineCycle = 0 ∧ (fetchIn 472 31).fetchLine = 16 * ((31 : Nat) : Int) - 24 ∧ (fetchIn 472 31).cmp.bands = 31) ∧
    (lateBlank.composes = true ∧ lateBlank.lineCycle = 0 ∧ lateBlank.fetchLine = -24 ∧ lateBlank.cmp.forFrame ≠ some (lateBlank.ras.frame + 1)) ∧
    ((fetching { st := .bad }).coreRun = true ∧ (fetching { st := .bad }).cmp.todo = { layer := 0, band := 0, tile := 5 } :: [] ∧ (fetching { st := .bad }).lmc.sealing = none ∧ (fetching { st := .bad }).dirLatent 5 = .good ∧ (fetching { st := .bad }).tileOn 5 = true ∧ ((fetching { st := .bad }).dirEntry 5).st = .bad) ∧
    ((fetching { st := .unsealed }).coreRun = true ∧ (fetching { st := .unsealed }).lmc.sealing = none ∧ (fetching { st := .unsealed }).dirLatent 5 = .good ∧ ((fetching { st := .unsealed }).dirEntry 5).st = .unsealed) := by decide +kernel

theorem witness_FetchUsesOnlySealedTiles_sealed (c : Word) :
    (fetching { st := .sealed, crc := c }).coreRun = true ∧ (fetching { st := .sealed, crc := c }).lmc.sealing = none ∧
    (fetching { st := .sealed, crc := c }).dirLatent 5 = .good ∧
    (fetching { st := .sealed, crc := c }).tileOn 5 = true ∧
    ((fetching { st := .sealed, crc := c }).dirEntry 5).st = .sealed ∧
    ((fetching { st := .sealed, crc := c }).dirEntry 5).crc = c :=
  ⟨Eq.trans (b := lit2.coreRun) rfl (by decide +kernel), rfl, rfl, Eq.trans (b := lit2.tileOn 5) rfl (by decide +kernel), rfl, rfl⟩

theorem witness_FetchUsesOnlySealedTiles_crc :
    crc32 ((fetching { st := .sealed, crc := tile5 }).lmBytes (0x01000000 + 4096 * 5) 4096) = tile5 ∧
    crc32 ((fetching { st := .sealed, crc := tile5 + 1 }).lmBytes (0x01000000 + 4096 * 5) 4096) ≠ tile5 + 1 :=
  ⟨rfl, by
    have h : crc32 ((fetching { st := .sealed, crc := tile5 + 1 }).lmBytes (0x01000000 + 4096 * 5) 4096) = tile5 := rfl
    rw [h]
    bv_omega⟩

/-- Two bands are fetched, row 31 is next, and no layer is enabled. -/
def composing : State :=
  { lit2 with
    ras := { lit2.ras with line := 520, blankServed := true }
    cmp := { lit2.cmp with nextRow := 31, bands := 2, stallDue := 1 } }

theorem witness_RowsAreComposedInOrder :
    (composing.Wf ∧ composing.composes = true ∧ composing.cmp.nextRow < 512 ∧ composing.cmp.nextRow / 16 < composing.cmp.bands ∧ (composing.cmp.nextRow : Int) - 24 ≤ composing.fetchLine ∧ composing.fetchLine < (composing.cmp.nextRow : Int) - 2 ∧ composing.rowReleased composing.cmp.nextRow = true ∧ composing.layersOf composing.cmp.nextRow = [] ∧ composing.get F.HLT_SIG_CFG_N_REG = 0) ∧
    (composing.coreRun = true ∧ composing.cmp.stallDue ≠ 0) := 
  ⟨⟨by simp only [State.Wf, WfData, SparseWf]; decide +kernel, by decide +kernel⟩,
    by decide +kernel⟩

/-- The data ports stand at their last entries; layer slots 0 and 1 and scaler 0 are in the image. -/
def tables : State :=
  puts lit2 [(F.CMP_LAYER_TYPE_TYPE, 0x5), (F.CMP_TT_ADDR_LAYER, 1), (F.CMP_TT_ADDR_BANK, 1), (F.CMP_TT_ADDR_INDEX, 255),
    (F.CMP_TT_ADDR_INC, 1), (F.SCL_SCn_GRANT_GRANT 0, 1), (F.SCL_COEF_ADDR_BANK, 1), (F.SCL_COEF_ADDR_PHASE, 63),
    (F.SCL_COEF_ADDR_TAP, 7)]

/-- The data ports stand at the bank in use. -/
def tablesUsed : State := puts tables [(F.CMP_TT_ADDR_BANK, 0), (F.SCL_COEF_ADDR_BANK, 0)]

/-- The data ports stand at a slot and a scaler that the image leaves out. -/
def tablesOut : State := puts tables [(F.CMP_TT_ADDR_LAYER, 11), (F.SCL_SCn_GRANT_GRANT 5, 0), (F.SCL_COEF_ADDR_SCALER, 5)]

theorem witness_TableDataPorts :
    (tables.Wf ∧ tables.readable A.CMP_TT_DATA ∧ tables.writable A.CMP_TT_DATA ∧ tables.readable A.SCL_COEF_DATA ∧ tables.writable A.SCL_COEF_DATA) ∧
    (tablesUsed.Wf ∧ tablesUsed.writable A.CMP_TT_DATA ∧ tablesUsed.writable A.SCL_COEF_DATA ∧ tablesUsed.ttInRange = true ∧ tablesUsed.get (F.CMP_Ln_CTRL_TT_SEL (tablesUsed.get F.CMP_TT_ADDR_LAYER)) = tablesUsed.get F.CMP_TT_ADDR_BANK ∧ tablesUsed.coefInRange = true ∧ tablesUsed.get (F.SCL_SCn_CTRL_COEF_SEL (tablesUsed.get F.SCL_COEF_ADDR_SCALER)) = tablesUsed.get F.SCL_COEF_ADDR_BANK) ∧
    (tablesOut.Wf ∧ tablesOut.readable A.CMP_TT_DATA ∧ tablesOut.writable A.SCL_COEF_DATA ∧ tablesOut.ttInRange = false ∧ tablesOut.coefInRange = false) ∧
    (tables.ttInRange = true ∧ tables.get (F.CMP_Ln_CTRL_TT_SEL (tables.get F.CMP_TT_ADDR_LAYER)) ≠ tables.get F.CMP_TT_ADDR_BANK) ∧
    (tables.coefInRange = true ∧ tables.get (F.SCL_SCn_CTRL_COEF_SEL (tables.get F.SCL_COEF_ADDR_SCALER)) ≠ tables.get F.SCL_COEF_ADDR_BANK) := 
  ⟨⟨by simp only [State.Wf, WfData, SparseWf]; decide +kernel, by simp only [State.readable]; decide +kernel, by simp only [State.writable]; decide +kernel, by simp only [State.readable]; decide +kernel, by simp only [State.writable]; decide +kernel⟩,
    ⟨by simp only [State.Wf, WfData, SparseWf]; decide +kernel, by simp only [State.writable]; decide +kernel, by simp only [State.writable]; decide +kernel, by decide +kernel⟩,
    ⟨by simp only [State.Wf, WfData, SparseWf]; decide +kernel, by simp only [State.readable]; decide +kernel, by simp only [State.writable]; decide +kernel, by decide +kernel⟩,
    by decide +kernel⟩

/-- A commit is armed; the last alive value is 250, and steps of up to 4 pass. -/
def armed : State :=
  puts lit2 [(F.GLB_COMMIT_CTRL_MAX_DELTA, 4), (F.GLB_COMMIT_CTRL_ALIVE_VALID, 1), (F.GLB_COMMIT_CTRL_LAST_ALIVE, 250),
    (F.GLB_COMMIT_STATUS_STATE, 1)]

/-- The commit queue has a stale commit to report. -/
def stale : State := { lit2 with cmp := { lit2.cmp with staleDue := true } }

theorem witness_CommitRequests :
    (armed.Wf ∧ armed.writable A.GLB_COMMIT ∧ armed.post = false ∧ 1 ≤ (254 + 256 - armed.get F.GLB_COMMIT_CTRL_LAST_ALIVE) % 256 ∧ (254 + 256 - armed.get F.GLB_COMMIT_CTRL_LAST_ALIVE) % 256 ≤ armed.get F.GLB_COMMIT_CTRL_MAX_DELTA) ∧
    ((armed.put F.BST_STATUS_POST 1).Wf ∧ (armed.put F.BST_STATUS_POST 1).writable A.GLB_COMMIT ∧ (armed.put F.BST_STATUS_POST 1).post = true) ∧
    (armed.get F.GLB_COMMIT_CTRL_MAX_DELTA ≠ 0 ∧ armed.get F.GLB_COMMIT_CTRL_ALIVE_VALID ≠ 0 ∧ (¬ ((255 + 256 - armed.get F.GLB_COMMIT_CTRL_LAST_ALIVE) % 256 ≤ armed.get F.GLB_COMMIT_CTRL_MAX_DELTA))) ∧
    (stale.aonOn = true ∧ stale.cmp.staleDue = true) := 
  ⟨⟨by simp only [State.Wf, WfData, SparseWf]; decide +kernel, by simp only [State.writable]; decide +kernel, by decide +kernel⟩,
    ⟨by simp only [State.Wf, WfData, SparseWf]; decide +kernel, by simp only [State.writable]; decide +kernel, by decide +kernel⟩,
    by decide +kernel⟩

/-- A RETIME that passes every check, with the given fields put in its place. -/
def asked (l : List (Field × Nat)) : State :=
  puts lit2 ([(F.RAS_NEXT_TIMING_N_SLOTS, 250), (F.RAS_NEXT_TIMING_VB, 30), (F.RAS_NEXT_PWM_K, 20), (F.SAF_SEAL_VALUE, 0xFF),
      (F.LPE_BANK_A_M_SW, 16), (F.LPE_BANK_A_READY, 1), (F.LPE_BANK_B_M_SW, 16), (F.LPE_BANK_B_READY, 1)] ++ l)

theorem witness_RetimeIsCheckedThenPending :
    ((asked []).Wf ∧ (asked []).writable A.RAS_CTRL ∧ (0xFFFFFFFE : Word).getLsbD 0 = false) ∧
    ((asked [(F.RAS_NEXT_TIMING_VB, 23)]).Wf ∧ (asked [(F.RAS_NEXT_TIMING_VB, 23)]).writable A.RAS_CTRL ∧ (asked [(F.RAS_NEXT_TIMING_VB, 23)]).ras.running = true ∧ (asked [(F.RAS_NEXT_TIMING_VB, 23)]).get F.RAS_ACT_MODE_MODE ≠ 2 ∧ (asked [(F.RAS_NEXT_TIMING_VB, 23)]).get F.RAS_NEXT_TIMING_VB < 24 ∧ (asked [(F.RAS_NEXT_TIMING_VB, 23)]).get F.RAS_STATUS_RUN = 1) ∧
    ((asked [(F.RAS_NEXT_TIMING_N_SLOTS, 95)]).Wf ∧ (asked [(F.RAS_NEXT_TIMING_N_SLOTS, 95)]).ras.running = true ∧ (asked [(F.RAS_NEXT_TIMING_N_SLOTS, 95)]).get F.RAS_ACT_MODE_MODE ≠ 2 ∧ (¬ ((asked [(F.RAS_NEXT_TIMING_N_SLOTS, 95)]).get F.RAS_NEXT_TIMING_VB < 24)) ∧ (asked [(F.RAS_NEXT_TIMING_N_SLOTS, 95)]).get F.RAS_NEXT_MODE_MODE ≠ 1 ∧ (asked [(F.RAS_NEXT_TIMING_N_SLOTS, 95)]).get F.RAS_NEXT_TIMING_N_SLOTS < 96) ∧
    ((asked [(F.RAS_NEXT_TIMING_N_SLOTS, 96)]).Wf ∧ (asked [(F.RAS_NEXT_TIMING_N_SLOTS, 96)]).ras.running = true ∧ (asked [(F.RAS_NEXT_TIMING_N_SLOTS, 96)]).get F.RAS_ACT_MODE_MODE ≠ 2 ∧ 96 ≤ (asked [(F.RAS_NEXT_TIMING_N_SLOTS, 96)]).get F.RAS_NEXT_TIMING_N_SLOTS ∧ (asked [(F.RAS_NEXT_TIMING_N_SLOTS, 96)]).get F.RAS_NEXT_TIMING_N_SLOTS * (512 + (asked [(F.RAS_NEXT_TIMING_N_SLOTS, 96)]).get F.RAS_NEXT_TIMING_VB) < 103600) ∧
    ((asked [(F.RAS_NEXT_PWM_K, 3)]).Wf ∧ (asked [(F.RAS_NEXT_PWM_K, 3)]).ras.running = true ∧ (asked [(F.RAS_NEXT_PWM_K, 3)]).get F.RAS_ACT_MODE_MODE ≠ 2 ∧ 103600 ≤ (asked [(F.RAS_NEXT_PWM_K, 3)]).get F.RAS_NEXT_TIMING_N_SLOTS * (512 + (asked [(F.RAS_NEXT_PWM_K, 3)]).get F.RAS_NEXT_TIMING_VB) ∧ (asked [(F.RAS_NEXT_PWM_K, 3)]).get F.RAS_NEXT_PWM_K < 4) ∧
    ((1 : Word).getLsbD 0 = true ∧ (asked [(F.RAS_STATUS_RUN, 3)]).get F.RAS_STATUS_RUN = 3) ∧
    ((asked [(F.RAS_ACT_MODE_MODE, 2)]).get F.RAS_STATUS_RUN = 1 ∧ (asked [(F.RAS_ACT_MODE_MODE, 2)]).ras.running = true ∧ (asked [(F.RAS_ACT_MODE_MODE, 2)]).get F.RAS_ACT_MODE_MODE = 2) ∧
    (({ puts (asked []) [(F.RAS_STATUS_RUN, 0)] with ras := { lit2.ras with running := false } } : State).get F.RAS_STATUS_RUN = 0 ∧ ({ puts (asked []) [(F.RAS_STATUS_RUN, 0)] with ras := { lit2.ras with running := false } } : State).ras.running = false) ∧
    ((asked []).get F.RAS_STATUS_RUN ≠ 2 ∧ (asked []).get F.RAS_STATUS_RUN ≠ 3 ∧ (asked []).retimeCheck ((asked []).nextTiming false) = 0 ∧ (asked []).ras.running = true) := 
  ⟨⟨by simp only [State.Wf, WfData, SparseWf]; decide +kernel, by simp only [State.writable]; decide +kernel, by decide +kernel⟩,
    ⟨by simp only [State.Wf, WfData, SparseWf]; decide +kernel, by simp only [State.writable]; decide +kernel, by decide +kernel⟩,
    ⟨by simp only [State.Wf, WfData, SparseWf]; decide +kernel, by decide +kernel⟩,
    ⟨by simp only [State.Wf, WfData, SparseWf]; decide +kernel, by decide +kernel⟩,
    ⟨by simp only [State.Wf, WfData, SparseWf]; decide +kernel, by decide +kernel⟩,
    by decide +kernel⟩

/-- The timing of a start. -/
def aStart : Retime := { nSlots := 250, vb := 30, k := 20, mode := 0, src := 0, start := true, byThm := false }

/-- A starting RETIME is pending. -/
def starting : State :=
  { puts idle [(F.RAS_RETIME_FRAME_TARGET, 99), (F.RAS_STATUS_RUN, 2)] with ras := { idle.ras with pend := some aStart } }

/-- The last line of a frame of 512 + 16 lines is over. -/
def lastLine : State :=
  let s := lit2.put F.RAS_STATUS_CUR_VB 16
  { s with ras := { s.ras with line := 527, blankServed := true } }

/-- Row 6 is complete at LUM, or with `lock` 0 cannot be written. -/
def rowDue (lock : Nat) : State :=
  { lit2.put F.ARY_STATUS_LOCK_OK lock with lum := { lit2.lum with
      ready := [{ y := 6, words := List.replicate 2048 0x8000, demand := 0, crest := 0 }] } }

theorem witness_RasterStartsAndCounts :
    ((rowDue 1).Wf ∧ SparseWf blackRow (rowDue 1).ary.storage ∧ SparseWf blackRow (rowDue 1).hlt.written ∧ SparseWf (fun _ => 0) (rowDue 1).lum.demand ∧ SparseWf (fun _ => none) (rowDue 1).lum.crest ∧ (rowDue 1).coreRun = true ∧ (rowDue 1).ras.running = true ∧ (rowDue 1).lineOn = true ∧ (rowDue 1).ras.lineServed = true ∧ (rowDue 1).ras.line + 1 = 6 ∧ 6 < (rowDue 1).frameLines ∧ (rowDue 1).ras.leadIn = false ∧ ((rowDue 1).lum.ready.find? (fun r => r.y == 6)).isSome = true ∧ (rowDue 1).pixOn = true ∧ (rowDue 1).get F.ARY_STATUS_LOCK_OK = 1 ∧ (rowDue 1).holdLines = false) ∧
    (starting.Wf ∧ starting.coreRun = true ∧ starting.ras.running = false ∧ starting.ras.pend = some aStart ∧ aStart.mode < 2 ∧ aStart.nSlots < 4096 ∧ aStart.vb < 1024 ∧ aStart.k < 512 ∧ 0 < aStart.nSlots * aStart.k) ∧
    (lit2.Wf ∧ lit2.coreRun = true ∧ lit2.ras.running = true ∧ lit2.lineOn = true ∧ lit2.ras.line + 1 < lit2.frameLines) ∧
    (lastLine.Wf ∧ lastLine.frameEnd = true ∧ 512 ≤ lastLine.ras.line ∧ lastLine.get F.PWR_STATUS_STEP ≠ 3) ∧
    ((rowDue 0).lineOn = true ∧ (rowDue 0).get F.ARY_STATUS_LOCK_OK = 0 ∧ (rowDue 0).ras.leadIn = false ∧ lit2.lum.ready.find? (fun r => r.y == 6) = none) ∧
    (({ lit2 with ras := { lit2.ras with lineServed := false, line := 0 } } : State).coreRun = true ∧ ({ lit2 with ras := { lit2.ras with lineServed := false, line := 0 } } : State).ras.lineServed = false) ∧
    (({ lastLine.put F.RAS_STATUS_RUN 3 with ras := { lastLine.ras with pend := some aStart } } : State).frameEnd = true ∧ ({ lastLine.put F.RAS_STATUS_RUN 3 with ras := { lastLine.ras with pend := some aStart } } : State).get F.RAS_STATUS_RUN = 3) := 
  ⟨⟨by simp only [State.Wf, WfData, SparseWf]; decide +kernel, by simp only [SparseWf]; decide +kernel, by simp only [SparseWf]; decide +kernel, by simp only [SparseWf]; decide +kernel, by simp only [SparseWf]; decide +kernel, by decide +kernel⟩,
    ⟨by simp only [State.Wf, WfData, SparseWf]; decide +kernel, by decide +kernel⟩,
    ⟨by simp only [State.Wf, WfData, SparseWf]; decide +kernel, by decide +kernel⟩,
    ⟨by simp only [State.Wf, WfData, SparseWf]; decide +kernel, by decide +kernel⟩,
    by decide +kernel⟩

/-- Line 512 is reached, its instant not served. -/
def atBlank : State := { lit2 with ras := { lit2.ras with line := 512 } }

/-- A commit is armed at its instant. -/
def committing : State := (atBlank.put F.GLB_COMMIT_STATUS_STATE 1).setShReg A.CMP_BG 0x55

/-- Layer slot 0 of the shadow set is enabled with a surface of no tiles. -/
def misconfigured : State :=
  ((((committing.put F.CMP_LAYER_TYPE_TYPE 1).putSh (F.CMP_Ln_CTRL_EN 0) 1).putSh (F.CMP_Ln_SIZE_W 0) 1).putSh (F.CMP_Ln_SIZE_H 0) 1)

/-- Scaler 3 of the shadow set serves layer 0, which shows one pixel. -/
def scalerShadow : State :=
  (((((atBlank.put (F.SCL_SCn_GRANT_GRANT 3) 1).put F.CMP_LAYER_TYPE_TYPE 1).putSh (F.SCL_SCn_CTRL_EN 3) 1).putSh
    (F.CMP_Ln_CTRL_EN 0) 1).putSh (F.CMP_Ln_SIZE_W 0) 1).putSh (F.CMP_Ln_SIZE_H 0) 1

theorem witness_CommitInstantTransfersShadows :
    (atBlank.Wf ∧ atBlank.blankDue = true ∧ atBlank.rsDue = false ∧ atBlank.get F.RAS_ACT_MODE_MODE = 0) ∧
    (committing.Wf ∧ committing.get F.GLB_COMMIT_STATUS_STATE ≠ 0 ∧ committing.configFail = none ∧ (∀ i, i < 12 → ¬ (committing.notReady i = true ∧ committing.holdMode i = 2)) ∧ A.CMP_BG ∈ rwsAddrs ∧ committing.heldAddr A.CMP_BG = false) ∧
    (atBlank.Wf ∧ scalerShadow.Wf ∧ atBlank.get F.GLB_COMMIT_STATUS_STATE = 0 ∧ scalerShadow.get F.GLB_COMMIT_STATUS_STATE = 0 ∧ (scalerShadow.scalerCfg true 3).present = true ∧ (scalerShadow.scalerCfg true 3).en = true ∧ (scalerShadow.layerCfg true (scalerShadow.scalerCfg true 3).layer).visible = true) ∧
    (committing.Wf ∧ committing.blankDue = true ∧ committing.rsDue = false ∧ committing.resyncHold = false ∧ committing.get F.GLB_COMMIT_STATUS_STATE ≠ 0 ∧ committing.configFail = none ∧ (∀ i, i < 12 → ¬ (committing.notReady i = true ∧ committing.holdMode i = 2))) ∧
    (misconfigured.Wf ∧ misconfigured.get F.GLB_COMMIT_STATUS_STATE ≠ 0 ∧ misconfigured.configFail = some (0, 3)) ∧
    (atBlank.Wf ∧ 1 ≤ atBlank.get F.RAS_ACT_TIMING_VB ∧ (atBlank.put F.RAS_ACT_TIMING_VB 1022).get F.RAS_ACT_TIMING_VB < 1023) := 
  ⟨⟨by simp only [State.Wf, WfData, SparseWf]; decide +kernel, by decide +kernel⟩,
    ⟨by simp only [State.Wf, WfData, SparseWf]; decide +kernel, by decide +kernel⟩,
    ⟨by simp only [State.Wf, WfData, SparseWf]; decide +kernel, by simp only [State.Wf, WfData, SparseWf]; decide +kernel, by decide +kernel⟩,
    ⟨by simp only [State.Wf, WfData, SparseWf]; decide +kernel, by decide +kernel⟩,
    ⟨by simp only [State.Wf, WfData, SparseWf]; decide +kernel, by decide +kernel⟩,
    ⟨by simp only [State.Wf, WfData, SparseWf]; decide +kernel, by decide +kernel⟩⟩

/-- FOLLOW by GPIO3 with the window open. -/
def following : State :=
  let s := puts lit2 [(F.CFG_GPIO_FUNC, 64), (F.RAS_ACT_MODE_MODE, 1), (F.RAS_ACT_MODE_FOLLOW_SRC, 1)]
  { s with ras := { s.ras with window := true } }

/-- The raster is to stop at the end of this line. -/
def stopping : State := puts lastLine [(F.PWR_STATUS_STEP, 3), (F.PWR_STATUS_TARGET, 3)]


theorem witness_CadenceAndStop :
    (stopping.Wf ∧ stopping.get F.PWR_STATUS_STEP = 3 ∧ stopping.frameEnd = true ∧ stopping.get F.RAS_STATUS_RUN ≠ 0) ∧
    (lit2.gpio3Aux = false) ∧
    (following.gpio3Aux = true ∧ following.wakeOn 4 = false ∧ following.coreRun = true ∧ following.ras.window = true ∧ following.get F.RAS_ACT_MODE_MODE = 1 ∧ following.get F.RAS_ACT_MODE_FOLLOW_SRC = 1 ∧ following.ras.winEv = none) ∧
    (({ following with ras := { following.ras with winEv := some (5, 16) } } : State).ras.winEv ≠ none ∧ ({ following with ras := { following.ras with winEv := some (5, 16) } } : State).coreRun = true) ∧
    (({ lit2 with ras := { lit2.ras with missDue := true } } : State).coreRun = true ∧ ({ lit2 with ras := { lit2.ras with missDue := true } } : State).ras.missDue = true) := 
  ⟨⟨by simp only [State.Wf, WfData, SparseWf]; decide +kernel, by decide +kernel⟩,
    by decide +kernel⟩

/-- The staged words of a list of one object: GEN, and the object's left and right edge in rows 3. -/
def staged (gen count x0 x1 : Nat) : State :=
  ((((lit2.setReg (A.MSK_STAGEn 0) (BitVec.ofNat 32 (gen + 256 * count))).setReg (A.MSK_STAGEn 1)
    (BitVec.ofNat 32 (x0 + 65536 * x1))).setReg (A.MSK_STAGEn 2) 0x00030003).setReg (A.MSK_STAGEn 4) 0x12)

/-- The same, with the last accepted GEN. -/
def stagedAfter (last gen x0 x1 : Nat) : State :=
  puts (staged gen 1 x0 x1) [(F.MSK_LIST_STATUS_LAST_GEN, last), (F.MSK_LIST_STATUS_GEN_VALID, 1)]

/-- The words of the object. -/
def body (s : State) : List Word := (List.range 4).map fun i => s.reg (A.MSK_STAGEn (i + 1))

theorem witness_MaskListsAreChecked :
    ((staged 7 64 5 9).Wf ∧ (staged 7 64 5 9).writable A.MSK_SUBMIT ∧ (staged 7 64 5 9).post = false ∧ (¬ ((258 : Word).toNat % 512 ≤ 257)) ∧ (257 : Word).toNat % 512 - 1 = 4 * (((staged 7 64 5 9).reg (A.MSK_STAGEn 0)).toNat / 256 % 128)) ∧
    ((staged 7 1 9 5).Wf ∧ (staged 7 1 9 5).writable A.MSK_SUBMIT ∧ ((staged 7 1 9 5).reg (A.MSK_STAGEn 0)).toNat / 256 % 128 = 1 ∧ (5 : Word).toNat % 512 - 1 = 4 * 1 ∧ (maskObjs (body (staged 7 1 9 5))).findIdx? (fun o => decide (o.x1 < o.x0) || decide (o.y1 < o.y0)) = some 0) ∧
    ((stagedAfter 7 7 5 5).Wf ∧ (stagedAfter 7 7 5 5).writable A.MSK_SUBMIT ∧ (∀ o ∈ maskObjs (body (stagedAfter 7 7 5 5)), o.x0 ≤ o.x1 ∧ o.y0 ≤ o.y1) ∧ (stagedAfter 7 7 5 5).get F.MSK_LIST_STATUS_GEN_VALID = 1 ∧ (((stagedAfter 7 7 5 5).reg (A.MSK_STAGEn 0)).toNat % 256 + 256 - (stagedAfter 7 7 5 5).get F.MSK_LIST_STATUS_LAST_GEN) % 256 = 0) ∧
    ((stagedAfter 7 135 5 9).Wf ∧ (stagedAfter 7 135 5 9).get F.MSK_LIST_STATUS_GEN_VALID = 1 ∧ (((stagedAfter 7 135 5 9).reg (A.MSK_STAGEn 0)).toNat % 256 + 256 - (stagedAfter 7 135 5 9).get F.MSK_LIST_STATUS_LAST_GEN) % 256 = 128) ∧
    ((stagedAfter 7 134 5 9).Wf ∧ (stagedAfter 7 134 5 9).get F.MSK_LIST_STATUS_GEN_VALID = 1 ∧ (((stagedAfter 7 134 5 9).reg (A.MSK_STAGEn 0)).toNat % 256 + 256 - (stagedAfter 7 134 5 9).get F.MSK_LIST_STATUS_LAST_GEN) % 256 = 127) := 
  ⟨⟨by simp only [State.Wf, WfData, SparseWf]; decide +kernel, by simp only [State.writable]; decide +kernel, by decide +kernel⟩,
    ⟨by simp only [State.Wf, WfData, SparseWf]; decide +kernel, by simp only [State.writable]; decide +kernel, by decide +kernel⟩,
    ⟨by simp only [State.Wf, WfData, SparseWf]; decide +kernel, by simp only [State.writable]; decide +kernel, by decide +kernel⟩,
    ⟨by simp only [State.Wf, WfData, SparseWf]; decide +kernel, by decide +kernel⟩,
    ⟨by simp only [State.Wf, WfData, SparseWf]; decide +kernel, by decide +kernel⟩⟩

/-- LIT in an epoch line; a timeout is 10 epochs. -/
def epoch : State := puts lit2 [(F.MSK_EPOCH_PHASE, 5), (F.MSK_EPOCH_PERIOD, 4), (F.MSK_TIMEOUT_EPOCHS, 10)]

/-- A list waits, another pass runs, or 9 epochs have gone. -/
def epochList : State := { epoch with msk := { epoch.msk with waiting := some ([], 255) } }
def epochPass : State := { epoch with msk := { epoch.msk with full := true, pass := some 4 } }
def epochLast : State := { epoch with msk := { epoch.msk with epochs := 9 } }

/-- A list that waited when the timeout was reached, whose own pass is wanted, or not. -/
def epochStale (req : Bool) : State :=
  { epoch.put F.MSK_CTRL_TO_ACTION 2 with msk := { epoch.msk with waiting := some ([], 255), stale := true, toReq := req } }

/-- Group 126 of a pass is next. -/
def passing : State := { lit2.put F.RAS_ACT_TIMING_N_SLOTS 135 with msk := { lit2.msk with pass := some 126 } }

theorem witness_MaskPassesRun :
    (epoch.Wf ∧ epoch.epochOpen = true ∧ epoch.timeoutNow = false ∧ epoch.holdLines = false ∧ epoch.msk.gotList = false ∧ epoch.passReason = false) ∧
    (epochPass.Wf ∧ epochPass.epochOpen = true ∧ epochPass.timeoutNow = false ∧ epochPass.holdLines = false ∧ epochPass.msk.gotList = false ∧ epochPass.passReason = true ∧ epochPass.msk.pass ≠ none) ∧
    (epochList.Wf ∧ epochList.epochOpen = true ∧ epochList.timeoutNow = false ∧ epochList.holdLines = false ∧ epochList.msk.pass = none ∧ epochList.msk.waiting = some ([], 255) ∧ (List.replicate 64 ({ x0 := 0, x1 := 0, y0 := 0, y1 := 0, el := 0, er := 0, et := 0, eb := 0, prio := 0, level := 0 } : MaskObj)).length ≤ 64) ∧
    ((epochStale true).Wf ∧ (epochStale true).epochOpen = true ∧ (epochStale true).timeoutNow = false ∧ (epochStale true).holdLines = false ∧ (epochStale true).msk.pass = none ∧ (epochStale true).msk.waiting = some ([], 255) ∧ (epochStale true).msk.stale = true ∧ (epochStale true).timeoutPass = true ∧ (epochStale false).timeoutPass = false ∧ epochList.msk.stale = false) ∧
    (passing.Wf ∧ SparseWf darkRow passing.msk.target ∧ passing.msk.pass = some 126 ∧ passing.lineOn = true ∧ passing.groupSlot 126 < passing.nSlots) ∧
    (epochLast.Wf ∧ epochLast.epochOpen = true ∧ epochLast.timeoutNow = true) := 
  ⟨⟨by simp only [State.Wf, WfData, SparseWf]; decide +kernel, by decide +kernel⟩,
    ⟨by simp only [State.Wf, WfData, SparseWf]; decide +kernel, by decide +kernel⟩,
    ⟨by simp only [State.Wf, WfData, SparseWf]; decide +kernel, by decide +kernel⟩,
    ⟨by simp only [State.Wf, WfData, SparseWf]; decide +kernel, by decide +kernel⟩,
    ⟨by simp only [State.Wf, WfData, SparseWf]; decide +kernel, by simp only [SparseWf]; decide +kernel, by decide +kernel⟩,
    ⟨by simp only [State.Wf, WfData, SparseWf]; decide +kernel, by decide +kernel⟩⟩

/-- Mask writes wait: rows 3 and 7 darken, row 2 brightens; or row 2 brightens; or none waits, with row 511 to scrub. -/
def darkening : State := { lit2 with msk := { lit2.msk with dark := [3, 7], bright := [2] } }
def brightening : State := { lit2 with msk := { lit2.msk with dark := [], bright := [2] } }
def scrubbing (on : Nat) : State := { lit2.put F.MSK_CTRL_SCRUB on with msk := { lit2.msk with dark := [], bright := [], scrubRow := 511 } }

theorem witness_MaskWritesOnlyDarken :
    (SparseWf darkRow darkening.ary.maskW ∧ SparseWf darkRow darkening.ary.maskA ∧ SparseWf darkRow darkening.msk.latched ∧ darkening.maskSlot (BitVec.toNat (100#12)) = true ∧ darkening.msk.dark = 3 :: [7]) ∧
    (SparseWf darkRow brightening.ary.maskW ∧ SparseWf darkRow brightening.ary.maskA ∧ SparseWf darkRow brightening.msk.latched ∧ brightening.maskSlot (BitVec.toNat (100#12)) = true ∧ brightening.msk.dark = [] ∧ brightening.msk.bright = 2 :: []) ∧
    (SparseWf darkRow (scrubbing 1).msk.latched ∧ (scrubbing 1).maskSlot (BitVec.toNat (100#12)) = true ∧ (scrubbing 1).msk.dark = [] ∧ (scrubbing 1).msk.bright = [] ∧ (scrubbing 1).get F.MSK_CTRL_SCRUB = 1) ∧
    ((scrubbing 0).maskSlot (BitVec.toNat (100#12)) = true ∧ (scrubbing 0).get F.MSK_CTRL_SCRUB = 0) := 
  ⟨⟨by simp only [SparseWf]; decide +kernel, by simp only [SparseWf]; decide +kernel, by simp only [SparseWf]; decide +kernel, by decide +kernel⟩,
    ⟨by simp only [SparseWf]; decide +kernel, by simp only [SparseWf]; decide +kernel, by simp only [SparseWf]; decide +kernel, by decide +kernel⟩,
    ⟨by simp only [SparseWf]; decide +kernel, by decide +kernel⟩,
    by decide +kernel⟩

/-- A gain reload of row `y` in line `l`. -/
def reloading (y l : Nat) : State :=
  { lit2.put F.LUM_STATE_RELOAD_BUSY 1 with lum := { lit2.lum with reload := some y }, ras := { lit2.ras with line := l } }

/-- The row due at LUM in line 5 has not been handed over. -/
def overdue : State := { lit2 with cmp := { lit2.cmp with nextRow := 7, bands := 1 } }

/-- Row 8, or row 0, has been handed over to LUM, which processes it from the next line; in row 8 column 0 is ISOLATED in
one copy of the map. -/
def handedOver : State :=
  { puts lit2 [(F.LUM_CTRL_FILL_EN, 1), (F.LUM_CTRL_GAIN_EN, 1)] with
    cmp := { lit2.cmp with rows := [(8, List.replicate 2048 65535)], nextRow := 9 },
    hlt := { lit2.hlt with map := [(2048 * 8, (2, 4))] } }
def handedZero : State :=
  let s := lit2.put F.RAS_STATUS_CUR_VB 16
  { s with ras := { s.ras with line := 525, blankServed := true }, cmp := { s.cmp with rows := [(0, [65535])], nextRow := 1 } }

theorem witness_GainReloadsAndLateRows :
    (handedOver.Wf ∧ handedOver.coreRun = true ∧ handedOver.ras.running = true ∧ handedOver.lineOn = true ∧ handedOver.ras.lineServed = true ∧ handedOver.ras.line + 1 < handedOver.frameLines ∧ ({ handedOver with ras := { handedOver.ras with line := 6 } } : State).lumRow = some 8 ∧ handedOver.ras.line + 1 = 6 ∧ handedOver.get F.LUM_STATE_SOURCE = 0 ∧ handedOver.cmp.rows.find? (fun p => p.1 == 8) = some (8, List.replicate 2048 65535) ∧ handedOver.mapState 0 8 ≠ handedOver.mapState2 0 8 ∧ handedOver.get F.LUM_CTRL_FILL_EN = 1) ∧
    (handedZero.Wf ∧ handedZero.coreRun = true ∧ handedZero.ras.running = true ∧ handedZero.lineOn = true ∧ handedZero.ras.lineServed = true ∧ handedZero.ras.line + 1 < handedZero.frameLines ∧ ({ handedZero with ras := { handedZero.ras with line := 526 } } : State).lumRow = some 0 ∧ handedZero.wantSource.1 = false ∧ handedZero.cmp.rows.find? (fun p => p.1 == 0) = some (0, [65535]) ∧ handedZero.deadlineDue = none) ∧
    (lit2.writable A.LUM_GAIN_RELOAD ∧ lit2.get F.LUM_STATE_RELOAD_BUSY = 0) ∧
    ((reloading 0 5).writable A.LUM_GAIN_RELOAD ∧ (reloading 0 5).get F.LUM_STATE_RELOAD_BUSY = 1) ∧
    ((reloading 510 238).Wf ∧ SparseWf gainDefault (reloading 510 238).lum.gain ∧ (reloading 510 238).lum.reload = some 510 ∧ (reloading 510 238).lineOn = true ∧ (reloading 510 238).ras.line = (510 + 256) % (reloading 510 238).frameLines) ∧
    ((reloading 511 239).Wf ∧ (reloading 511 239).lum.reload = some 511 ∧ (reloading 511 239).lineOn = true ∧ (reloading 511 239).ras.line = (511 + 256) % (reloading 511 239).frameLines) ∧
    (overdue.lumRow = some 7 ∧ overdue.lineOn = true ∧ overdue.composes = true ∧ overdue.ras.slot = 0 ∧ overdue.cmp.nextRow = 7 ∧ 0 < overdue.cmp.bands ∧ overdue.get F.LUM_STATE_SOURCE = 0) := 
  ⟨⟨by simp only [State.Wf, WfData, SparseWf]; decide +kernel, by decide +kernel⟩,
    ⟨by simp only [State.Wf, WfData, SparseWf]; decide +kernel, by decide +kernel⟩,
    ⟨by simp only [State.writable]; decide +kernel, by decide +kernel⟩,
    ⟨by simp only [State.writable]; decide +kernel, by decide +kernel⟩,
    ⟨by simp only [State.Wf, WfData, SparseWf]; decide +kernel, by simp only [SparseWf]; decide +kernel, by decide +kernel⟩,
    ⟨by simp only [State.Wf, WfData, SparseWf]; decide +kernel, by decide +kernel⟩,
    by decide +kernel⟩

/-- A row of drive words in which one pixel is lit. -/
def litRow : Row := (List.replicate 2048 0x8000).set 3 0x0001

/-- Row 5 has been written into the storage latches. -/
def written : State := { lit2 with ary := { lit2.ary with storage := [(5, litRow)], loadDue := true } }

/-- Row 5, cut to its first word, reads back as another word of good parity. -/
def misread : State :=
  { lit2 with ary := { lit2.ary with storage := [(5, [0x0001])] }, hlt := { lit2.hlt with written := [(5, [0x0002])] } }

/-- Group 2 comes to its boundary in this line. -/
def boundary : State :=
  let s := lit2.put F.SAF_STATE_STATE 1
  { s with saf := { s.saf with padReq := false }, ary := { s.ary with
      maskW := [(16, List.replicate 2048 1)], west := { s.ary.west with c := 3962 } } }

theorem witness_RowsLoadAndReadBack :
    (SparseWf blackRow written.ary.storage ∧ SparseWf blackRow written.ary.display ∧ written.lineOn = true ∧ written.ary.loadDue = true ∧ written.slotOpen 2 = true) ∧
    (SparseWf darkRow boundary.ary.maskA ∧ boundary.lineOn = true ∧ boundary.pixOn = true ∧ boundary.darkNets = false ∧ boundary.lineCycle + boundary.groupCycles (BitVec.toNat (2#6)) < 16 * boundary.nSlots) ∧
    (lit2.lineOn = true ∧ lit2.ras.line < 512 ∧ lit2.slotOpen 7 = true ∧ lit2.hlt.readBack = false ∧ lit2.pixOn = true ∧ lit2.holdLines = false) ∧
    (misread.lineOn = true ∧ misread.ras.line < 512 ∧ misread.slotOpen 7 = true ∧ misread.hlt.readBack = false ∧ misread.pixOn = true ∧ misread.holdLines = false ∧ (∀ w ∈ misread.storageRow misread.ras.line, wordOk w = true) ∧ rowCrcOk (misread.storageRow misread.ras.line) (misread.writtenRow misread.ras.line) = false) ∧
    (({ lit2 with hlt := { lit2.hlt with persistDue := [5, 6] } } : State).hlt.persistDue = 5 :: [6] ∧ ({ lit2 with hlt := { lit2.hlt with persistDue := [5, 6] } } : State).coreRun = true) := 
  ⟨⟨by simp only [SparseWf]; decide +kernel, by simp only [SparseWf]; decide +kernel, by decide +kernel⟩,
    ⟨by simp only [SparseWf]; decide +kernel, by decide +kernel⟩,
    by decide +kernel⟩

theorem witness_RowsLoadAndReadBack_equal :
    (∀ w ∈ lit2.storageRow lit2.ras.line, wordOk w = true) ∧
    lit2.storageRow lit2.ras.line = lit2.writtenRow lit2.ras.line := by
  refine ⟨fun w h => ?_, rfl⟩
  have h1 : w ∈ List.replicate 2048 0x8000 := h
  rw [List.eq_of_mem_replicate h1]
  decide

/-- Sense results count: the rail is in regulation, and CONFIRM is 2. -/
def sensing : State := puts lit2 [(F.LPE_STATUS_IN_REG, 1), (F.HLT_SENSE_CFG_CONFIRM, 2), (F.HLT_DEFECT_LIMIT_LIMIT, 0)]

/-- The same, with one result at the pixel already. -/
def sensedOnce : State := match exec (.emitterSense [] [2047] []) sensing with
  | .next t => { sensing with hlt := { sensing.hlt with confirm := t.hlt.confirm } }
  | _ => sensing

theorem witness_FindingsAreConfirmed :
    (sensing.Wf ∧ sensing.lineOn = true ∧ sensing.slotOpen 4 = true ∧ sensing.hlt.sensed = false ∧ sensing.lum.raise = none ∧ sensing.pixOn = true ∧ sensing.holdLines = false ∧ sensing.senseDiscard = false ∧ wordIso ((sensing.displayRow sensing.ras.line).getD 2047 0) = false ∧ 1 ≤ sensing.get F.HLT_SENSE_CFG_ROW_LIMIT ∧ sensing.get F.HLT_DEFECT_LIMIT_LIMIT = 0 ∧ sensing.hlt.confirm = [] ∧ sensing.hlt.map = [] ∧ sensing.hlt.mapCopy = [] ∧ sensing.confirmCount 2047 5 Cause.open_ + 1 < max (sensing.get F.HLT_SENSE_CFG_CONFIRM) 1) ∧
    (sensedOnce.Wf ∧ sensedOnce.lineOn = true ∧ sensedOnce.slotOpen 4 = true ∧ sensedOnce.hlt.sensed = false ∧ sensedOnce.senseDiscard = false ∧ max (sensedOnce.get F.HLT_SENSE_CFG_CONFIRM) 1 ≤ sensedOnce.confirmCount 2047 5 Cause.open_ + 1) ∧
    (lit2.lineOn = true ∧ lit2.ras.line < 512 ∧ lit2.slotOpen 4 = true ∧ lit2.hlt.sensed = false ∧ lit2.lum.raise = none ∧ lit2.pixOn = true ∧ lit2.holdLines = false ∧ lit2.senseDiscard = true) ∧
    (({ lit2 with hlt := { lit2.hlt with senseDue := [511] } } : State).hlt.senseDue = 511 :: [] ∧ ({ lit2 with hlt := { lit2.hlt with senseDue := [511] } } : State).coreRun = true) := 
  ⟨⟨by simp only [State.Wf, WfData, SparseWf]; decide +kernel, by decide +kernel⟩,
    ⟨by simp only [State.Wf, WfData, SparseWf]; decide +kernel, by decide +kernel⟩,
    by decide +kernel⟩

/-- The last pixel is DEAD, by a finding. -/
def oneDead : State := { lit2 with hlt := { lit2.hlt with map := [(pixelKey 2047 511, (1, 1))], mapCopy := [(pixelKey 2047 511, 1)] } }

/-- A RESTORE is to be merged. -/
def restoring : State :=
  { puts oneDead [(F.PWR_JOBn_STATUS_TYPE 2, 7), (F.PWR_JOBn_STATUS_STATE 2, 1)] with hlt := { oneDead.hlt with rebuildMode := 2 } }

/-- One entry stands in the defect log. -/
def logged : State := { lit2 with hlt := { lit2.hlt with log := [{ x := 2047, y := 511, cause := 1, frame := 3 }] } }

theorem witness_MapStatesOnlyRise :
    (oneDead.Wf ∧ oneDead.writable A.HLT_DEFECT_SET ∧ SparseWf mapDefault oneDead.hlt.map ∧ (0x81FF07FF : Word).toNat / 2 ^ 30 = 2 ∧ oneDead.mapState 2047 511 < 2 ∧ (oneDead.put F.HLT_DEFECT_LIMIT_LIMIT 0).get F.HLT_DEFECT_LIMIT_LIMIT = 0) ∧
    (oneDead.Wf ∧ oneDead.writable A.HLT_DEFECT_LIMIT ∧ oneDead.hlt.limitReported = false ∧ (0xFFE00000 : Word).toNat % 2 ^ 21 = 0) ∧
    (lit2.readable A.HLT_DLOG0 ∧ lit2.hlt.log = []) ∧
    (logged.readable A.HLT_DLOG0 ∧ logged.hlt.log = { x := 2047, y := 511, cause := 1, frame := 3 } :: []) ∧
    (restoring.Wf ∧ SparseWf mapDefault restoring.hlt.map ∧ restoring.coreRun = true ∧ restoring.findJob Job.defectRebuild = some 2 ∧ restoring.jobState 2 = Job.running ∧ restoring.hlt.rebuildMode = 2) ∧
    ((0x41FF07FF : Word).toNat / 2 ^ 30 ≤ oneDead.mapState ((0x41FF07FF : Word).toNat % 2048) ((0x41FF07FF : Word).toNat / 65536 % 512)) ∧
    (({ lit2 with hlt := { lit2.hlt with missDue := [(3, true)] } } : State).hlt.missDue = (3, true) :: [] ∧ ({ lit2 with hlt := { lit2.hlt with missDue := [(3, true)] } } : State).coreRun = true) := 
  ⟨⟨by simp only [State.Wf, WfData, SparseWf]; decide +kernel, by simp only [State.writable]; decide +kernel, by simp only [SparseWf]; decide +kernel, by decide +kernel⟩,
    ⟨by simp only [State.Wf, WfData, SparseWf]; decide +kernel, by simp only [State.writable]; decide +kernel, by decide +kernel⟩,
    ⟨by simp only [State.readable]; decide +kernel, by decide +kernel⟩,
    ⟨by simp only [State.readable]; decide +kernel, by decide +kernel⟩,
    ⟨by simp only [State.Wf, WfData, SparseWf]; decide +kernel, by simp only [SparseWf]; decide +kernel, by decide +kernel⟩,
    by decide +kernel⟩

/-- Three measurements outside, or three inside with ISET_BAD set. -/
def isetRun (out in_ : Nat) : State :=
  let s := lit2.put F.ARY_STATUS_ISET_BAD 1
  { s with ary := { s.ary with isetOut := out, isetIn := in_, isetDue := out == 4 } }

/-- The sources are on, and the reference current is 10 mA. -/
def sourcesOn (hold : Nat) : State :=
  puts lit2 [(F.ARY_ISET_IREF, 10000), (F.ARY_STATUS_DAC_EFF, 500), (F.LUM_BUDGET_STATUS_LF, 65535), (F.SAF_ENV_CEIL, 65535),
    (F.ARY_CTRL_SRC_EN, 1), (F.CVN_TDM_STATUS_HOLD, hold)]

/-- The tap port stands at column 2,047. -/
def taps : State := puts lit2 [(F.ARY_PC_ADDR_COL, 2047), (F.ARY_PC_ADDR_INC, 1)]


theorem witness_DriveReferencesAndTaps :
    ((isetRun 3 0).Wf ∧ (isetRun 3 0).coreRun = true ∧ (isetRun 3 0).lineOn = true ∧ (isetRun 3 0).slotOpen 8 = true ∧ (isetRun 3 0).ary.isetServed = false ∧ min (BitVec.toNat (8999#14)) 11000 < 9000 ∧ (isetRun 3 0).ary.isetOut = 3) ∧
    ((isetRun 0 3).Wf ∧ (isetRun 0 3).lineOn = true ∧ (¬ (min (BitVec.toNat (16383#14)) 11000 < 9000)) ∧ 3 ≤ (isetRun 0 3).ary.isetIn ∧ (isetRun 0 3).get F.ARY_STATUS_ISET_BAD = 1) ∧
    ((isetRun 4 0).Wf ∧ (isetRun 4 0).coreRun = true ∧ (isetRun 4 0).ary.isetDue = true) ∧
    ((sourcesOn 1).Wf ∧ (sourcesOn 1).coreRun = true ∧ (sourcesOn 1).irefWrong 10000000 = true ∧ (sourcesOn 1).standbyHold = true) ∧
    (lit2.Wf ∧ lit2.coreRun = true ∧ lit2.ras.running = true ∧ ({ skew := 1, c := 2, a := 3 } : EngineCopy) ≠ {}) ∧
    (taps.Wf ∧ taps.readable A.ARY_PC_DATA ∧ taps.writable A.ARY_PC_DATA ∧ taps.ary.taps = [] ∧ taps.pixOn = true) ∧
    ((taps.put F.PWR_DOM_PIX 0).Wf ∧ (taps.put F.PWR_DOM_PIX 0).writable A.ARY_PC_DATA ∧ (taps.put F.PWR_DOM_PIX 0).pixOn = false) ∧
    ((sourcesOn 0).coreRun = true ∧ (sourcesOn 0).irefWrong 0 = true ∧ (sourcesOn 0).standbyHold = false) := 
  ⟨⟨by simp only [State.Wf, WfData, SparseWf]; decide +kernel, by decide +kernel⟩,
    ⟨by simp only [State.Wf, WfData, SparseWf]; decide +kernel, by decide +kernel⟩,
    ⟨by simp only [State.Wf, WfData, SparseWf]; decide +kernel, by decide +kernel⟩,
    ⟨by simp only [State.Wf, WfData, SparseWf]; decide +kernel, by decide +kernel⟩,
    ⟨by simp only [State.Wf, WfData, SparseWf]; decide +kernel, by decide +kernel⟩,
    ⟨by simp only [State.Wf, WfData, SparseWf]; decide +kernel, by simp only [State.readable]; decide +kernel, by simp only [State.writable]; decide +kernel, by decide +kernel⟩,
    ⟨by simp only [State.Wf, WfData, SparseWf]; decide +kernel, by simp only [State.writable]; decide +kernel, by decide +kernel⟩,
    by decide +kernel⟩

/-- A checkpoint is asked for; copy A is in force. -/
def cpAsked : State :=
  { puts lit2 [(F.REC_SEQ_SRC, 1), (F.REC_STATUS_LOADED, 1)] with recd := { lit2.recd with cpReq := true, x := { opSecs := 5 }, base := { opSecs := 7 } } }

/-- A checkpoint runs, its last unit is stored, its time is over. -/
def cpRunning : State :=
  { puts cpAsked [(F.REC_STATUS_CP_RUN, 1), (F.REC_STATUS_BANK, 1), (F.REC_STATUS_CP_PENDING, 1),
      (F.PWR_JOBn_STATUS_TYPE 1, 9), (F.PWR_JOBn_STATUS_STATE 1, 2)] with
    recd := { cpAsked.recd with cpReq := false, cpSecs := 300, cpLast := some (0x08000040, [1, 2, 3]) } }

/-- A checkpoint runs, a unit before its last is being programmed, its time is over. -/
def cpLate : State :=
  { cpRunning with
    recd := { cpRunning.recd with cpLast := none }
    nvmw := { cpRunning.nvmw with
      unit := some (0x08000000, [9])
      tasks := [{ owner := Job.recCheckpoint, units := [(0x08000000, [9]), (0x08000040, [1, 2, 3])] }] } }

/-- The same with no unit in progress, and a merge that fills the log. -/
def cpIdle : State :=
  { cpRunning.put F.REC_STATUS_BANK 0 with
    recd := { cpRunning.recd with cpLast := none, y := { log := List.replicate 200 {} }, x := { log := List.replicate 100 {} } } }

/-- A second has ended, the tenth of operation. -/
def tenth : State :=
  { lit2.put F.REC_CTRL_CP_PERIOD 10 with recd := { lit2.recd with opDue := true, litDue := true, x := { opSecs := 9 } } }

theorem witness_RecorderBanksAndCheckpoints :
    (cpAsked.Wf ∧ cpAsked.recorderOn = true ∧ cpAsked.recd.cpReq = true ∧ cpAsked.get F.REC_STATUS_CP_RUN = 0 ∧ cpAsked.get F.REC_STATUS_LOADED = 1) ∧
    (cpRunning.Wf ∧ cpRunning.recd.cpLast = some (0x08000040, [1, 2, 3]) ∧ cpRunning.get F.REC_STATUS_CP_RUN = 1 ∧ cpRunning.findJob Job.recCheckpoint = some 1) ∧
    (cpIdle.Wf ∧ cpIdle.recorderOn = true ∧ cpIdle.get F.REC_STATUS_CP_RUN = 1 ∧ max (cpIdle.get F.REC_CTRL_CP_TO) 1 ≤ cpIdle.recd.cpSecs ∧ cpIdle.recd.cpLast = none ∧ cpIdle.nvmw.unit = none ∧ cpIdle.collect.log.length < 256 ∧ 256 ≤ cpIdle.frozenBank.log.length + cpIdle.collect.log.length) ∧
    (cpLate.Wf ∧ cpLate.recorderOn = true ∧ cpLate.get F.REC_STATUS_CP_RUN = 1 ∧ max (cpLate.get F.REC_CTRL_CP_TO) 1 ≤ cpLate.recd.cpSecs ∧ cpLate.recd.cpLast = none ∧ cpLate.nvmw.unit = some (0x08000000, [9]) ∧ cpLate.nvmw.tasks = [{ owner := Job.recCheckpoint, units := (0x08000000, [9]) :: (0x08000040, [1, 2, 3]) :: [] }]) ∧
    (tenth.Wf ∧ tenth.recorderOn = true ∧ tenth.recd.opDue = true ∧ tenth.get F.REC_STATUS_CP_RUN = 0) ∧
    (cpRunning.recorderOn = true ∧ max (cpRunning.get F.REC_CTRL_CP_TO) 1 ≤ cpRunning.recd.cpSecs) ∧
    (tenth.recd.litDue = true ∧ tenth.get F.REC_STATUS_BANK = 0) := 
  ⟨⟨by simp only [State.Wf, WfData, SparseWf]; decide +kernel, by decide +kernel⟩,
    ⟨by simp only [State.Wf, WfData, SparseWf]; decide +kernel, by decide +kernel⟩,
    ⟨by simp only [State.Wf, WfData, SparseWf]; decide +kernel, by decide +kernel⟩,
    ⟨by simp only [State.Wf, WfData, SparseWf]; decide +kernel, by decide +kernel⟩,
    ⟨by simp only [State.Wf, WfData, SparseWf]; decide +kernel, by decide +kernel⟩,
    by decide +kernel⟩

/-- Counts of a gate: `n` tier sensors read 136 degrees, every other sensor about 25. -/
def gateOf (n : Nat) : List Nat := (List.range 32).map fun i => if 16 ≤ i ∧ i < 16 + n then 1991 else 2560

/-- IDLE with a gate of readings to publish; the same `n` tier sensors were as hot before. -/
def publishing (n : Nat) : State :=
  { idle with thm := { idle.thm with
      sensors := (List.range 32).map fun i =>
        ({ hist := if 16 ≤ i ∧ i < 16 + n then [545, 550, 100] else [100, 110], lastOk := none, oor := 0 } : Sensor)
      gate := some (gateOf n) } }

/-- Sensor 31 has its third reading out of range. -/
def breaking : State :=
  { idle with thm := { idle.thm with
      sensors := (List.range 32).map fun i => ({ hist := [100, 100], lastOk := none, oor := if i = 31 then 2 else 0 } : Sensor)
      gate := some ((List.range 32).map fun i => if i = 31 then 1 else 2560) } }

/-- SAFE, with 16 qualifying publications since the shutdown. -/
def cooled : State :=
  { puts idle [(F.PWR_STATUS_STATE, 6), (F.THM_STATUS_SHUTDOWN, 1)] with thm := { idle.thm with restartRun := 16 } }

theorem witness_TemperaturesArePublished :
    ((publishing 0).Wf ∧ (publishing 0).get F.PWR_DOM_CORE = 1 ∧ (publishing 0).get F.PWR_DOM_PLL = 1 ∧ (publishing 0).frozen = false ∧ (publishing 0).thm.gate = some (gateOf 0) ∧ (publishing 0).tsBroken 31 = false ∧ ((publishing 0).sensor 31).hist = 100 :: 110 :: [] ∧ inTRange 100 = true ∧ inTRange ((publishing 0).conversion (gateOf 0) 31) = true) ∧
    (breaking.Wf ∧ breaking.get F.PWR_DOM_CORE = 1 ∧ breaking.get F.PWR_DOM_PLL = 1 ∧ breaking.frozen = false ∧ breaking.thm.gate = some ((List.range 32).map fun i => if i = 31 then 1 else 2560) ∧ breaking.breaksNow ((List.range 32).map fun i => if i = 31 then 1 else 2560) 31 = true ∧ (∀ j, j < 31 → breaking.breaksNow ((List.range 32).map fun i => if i = 31 then 1 else 2560) j = false)) ∧
    (cooled.Wf ∧ cooled.power = Power.safe ∧ cooled.get F.THM_STATUS_SHUTDOWN = 1 ∧ cooled.thm.restartRun = 16 ∧ cooled.nvmw.unit = none) ∧
    (idle.get F.PWR_DOM_CORE = 1 ∧ idle.get F.PWR_DOM_PLL = 1 ∧ idle.frozen = false ∧ idle.thm.gate = none ∧ idle.ras.running = false) ∧
    ((publishing 2).thm.gate = some (gateOf 2) ∧ (publishing 2).get F.THM_STATUS_SHUTDOWN = 0 ∧ (publishing 2).frozen = false) := 
  ⟨⟨by simp only [State.Wf, WfData, SparseWf]; decide +kernel, by decide +kernel⟩,
    ⟨by simp only [State.Wf, WfData, SparseWf]; decide +kernel, by decide +kernel⟩,
    ⟨by simp only [State.Wf, WfData, SparseWf]; decide +kernel, by decide +kernel⟩,
    by decide +kernel⟩

theorem witness_TemperaturesArePublished_votes :
    ∃ t, exec .sensorPublish (publishing 2) = .next t ∧ 2 ≤ t.votes ∧ t.power = Power.safe :=
  ⟨_, rfl, by decide +kernel⟩

/-- A grace of 1,000 ticks is over; the last publication found EN = 1. -/
def graceOver : State :=
  { lit2 with thm := { lit2.thm with hotTicks := some 1000, useGrace := 1, useThrottle := 0x80000000 } }

/-- The throttle cause stands; the inactive bank is ready for the timing in force with M_SW = `m`. -/
def throttling (m : Nat) : State :=
  { puts lit2 [(F.RAS_ACT_TIMING_N_SLOTS, 383), (F.RAS_ACT_TIMING_VB, 32), (F.RAS_ACT_PWM_K, 17), (F.SAF_SEAL_VALUE, 0xFF),
      (F.LPE_BANK_B_READY, 1), (F.LPE_BANK_B_M_SW, m)] with thm := { lit2.thm with cause := true } }

/-- Throttled, with the release due to a base of `vb` lines. -/
def releasing (vb : Nat) : State :=
  { (throttling 20).put F.THM_STATUS_THROTTLED 1 with
    thm := { lit2.thm with cause := true, base := some { (throttling 20).actTiming with vb := vb }, relDue := true } }

/-- A slave's request has stood for the grace. -/
def slaveAsking : State :=
  { puts idle [(F.RAS_ACT_MODE_MODE, 2), (F.THM_STATUS_THR_REQ, 1)] with
    thm := { idle.thm with reqTicks := some 1000, useGrace := 1 } }

/-- The RETIME that throttling asks for, and the one that ends it. -/
def slowed (s : State) : Retime := { s.actTiming with vb := 512 + 2 * s.get F.RAS_ACT_TIMING_VB, byThm := true }
def resumed (vb : Nat) : Retime := { (throttling 20).actTiming with vb := vb, start := false, byThm := true }

theorem witness_ThrottlingFollowsItsRules :
    ((throttling 20).Wf ∧ (throttling 20).coreRun = true ∧ (throttling 20).thm.cause = true ∧ (throttling 20).thm.blocked = false ∧ (throttling 20).get F.THM_STATUS_THROTTLED = 0 ∧ (throttling 20).get F.RAS_STATUS_RUN = 1 ∧ (throttling 20).slaveRaster = false ∧ (throttling 20).thm.issued = none ∧ (throttling 20).retimeCheck (slowed (throttling 20)) = 0) ∧
    ((throttling 0).Wf ∧ (throttling 0).coreRun = true ∧ (throttling 0).retimeCheck (slowed (throttling 0)) ≠ 0) ∧
    ((releasing 32).Wf ∧ (releasing 32).coreRun = true ∧ (releasing 32).get F.THM_STATUS_THROTTLED = 1 ∧ (releasing 32).thm.again = false ∧ (releasing 32).thm.issued = none ∧ (releasing 32).slaveRaster = false ∧ (releasing 32).get F.RAS_STATUS_RUN = 1 ∧ (releasing 32).thm.relDue = true ∧ (releasing 32).retimeCheck (resumed 32) = 0) ∧
    ((releasing 3).Wf ∧ (releasing 3).coreRun = true ∧ (releasing 3).retimeCheck (resumed 3) ≠ 0) ∧
    (graceOver.get F.PWR_DOM_CORE = 1 ∧ graceOver.get F.PWR_DOM_PLL = 1 ∧ graceOver.frozen = false ∧ graceOver.thm.hotLong = false ∧ graceOver.thm.hotTicks = some 1000 ∧ graceOver.graceTicks ≤ 1000 ∧ graceOver.slaveModule = false ∧ graceOver.thrEn = true ∧ graceOver.get F.THM_STATUS_THR_REQ = 0) ∧
    (slaveAsking.get F.PWR_DOM_CORE = 1 ∧ slaveAsking.get F.PWR_DOM_PLL = 1 ∧ slaveAsking.frozen = false ∧ slaveAsking.ras.running = false ∧ slaveAsking.get F.THM_STATUS_THR_REQ = 1 ∧ slaveAsking.thm.reqReported = false ∧ slaveAsking.slaveThrottled = false ∧ slaveAsking.thm.reqTicks = some 1000 ∧ slaveAsking.graceTicks ≤ 1000) := 
  ⟨⟨by simp only [State.Wf, WfData, SparseWf]; decide +kernel, by decide +kernel⟩,
    ⟨by simp only [State.Wf, WfData, SparseWf]; decide +kernel, by decide +kernel⟩,
    ⟨by simp only [State.Wf, WfData, SparseWf]; decide +kernel, by decide +kernel⟩,
    ⟨by simp only [State.Wf, WfData, SparseWf]; decide +kernel, by decide +kernel⟩,
    by decide +kernel⟩

/-- Calibrations wait: LINK of port U in L0, PRECHARGE, ISNS with the rail off. -/
def calWaits (u pc is : Bool) : State :=
  { lit2.put F.LNK_U_STATUS_STATE 7 with cal := { lit2.cal with waitU := u, waitPc := pc, waitIsns := is } }

/-- An automatic ISNS item of six phases is under way, with `n` pairs met. -/
def isnsItem (n : Nat) : CalItem := { item := 2, auto := true, started := true, pairs := n }
def isnsRun (n : Nat) : State :=
  { puts lit2 [(F.LPE_TOPO_N_PH, 6), (F.CAL_CTRL_TRIES, 3)] with cal := { lit2.cal with run := some (isnsItem n) } }

/-- PRECHARGE is under way at slot `n` of the candidate of bit `b`. -/
def pcOf (n b : Nat) : PcMeas := { started := true, slots := n, bit := b }
def pcRun (n b : Nat) : State :=
  { lit2 with cal := { lit2.cal with run := some { item := 1, auto := true, started := true }, pc := some (pcOf n b) } }


theorem witness_CalibrationIsMirageChecked :
    ((calWaits true true true).Wf ∧ (calWaits true true true).coreRun = true ∧ (calWaits true true true).get F.CAL_CTRL_AUTO = 1 ∧ (calWaits true true true).cal.run = none ∧ (calWaits true true true).cal.job = none ∧ (calWaits true true true).portU0 = true) ∧
    ((calWaits false false false).Wf ∧ (calWaits false false false).coreRun = true ∧ (calWaits false false false).get F.CAL_CTRL_AUTO = 1 ∧ (calWaits false false false).cal.waitD = false) ∧
    ((isnsRun 0).Wf ∧ (isnsRun 0).coreRun = true ∧ (isnsRun 0).cal.run = some (isnsItem 0) ∧ (isnsRun 0).cal.ending = false ∧ (isnsRun 0).rail = Rail.off ∧ (isnsRun 0).nPh ≤ 6 ∧ ([1024, 2048, 3000, -5000, 200000, -200000] : List Int).length = (isnsRun 0).nPh ∧ (∀ e ∈ (([1024, 2048, 3000, -5000, 200000, -200000] : List Int).map isnsValue).zip (([1024, 4096, 3000, -6000, 200000, -200000] : List Int).map isnsValue), e.1 - e.2 ≤ 2 ∧ e.2 - e.1 ≤ 2)) ∧
    ((calWaits false true true).cal.waitPc = true ∧ (calWaits false true true).ras.running = true ∧ (calWaits false true true).pixOn = true) ∧
    ((calWaits false false true).cal.waitIsns = true ∧ (calWaits false false true).rail = Rail.off) ∧
    ((isnsRun 2).coreRun = true ∧ (isnsItem 1).pairs + 1 < max ((isnsRun 1).get F.CAL_CTRL_TRIES) 1 ∧ max ((isnsRun 2).get F.CAL_CTRL_TRIES) 1 ≤ (isnsItem 2).pairs + 1 ∧ 2 < isnsValue 8000 - isnsValue 0) ∧
    ((pcRun 3 3).cal.pc = some (pcOf 3 3) ∧ (pcRun 3 3).lineOn = true ∧ (pcRun 3 3).pixOn = true ∧ (pcOf 3 3).started = true ∧ (pcOf 3 3).used = false ∧ (pcRun 3 3).slotOpen ((pcRun 3 3).nSlots - 1) = true ∧ (pcOf 3 3).ones.length = 2048 ∧ (pcOf 3 3).taps.length = 2048 ∧ (pcOf 62 3).slots + 1 < 64) ∧
    ((pcOf 63 3).slots + 1 = 64 ∧ (pcOf 63 1).bit ≠ 0 ∧ (pcOf 63 0).bit = 0 ∧ (pcRun 63 0).lineOn = true ∧ (pcRun 63 0).slotOpen ((pcRun 63 0).nSlots - 1) = true) := 
  ⟨⟨by simp only [State.Wf, WfData, SparseWf]; decide +kernel, by decide +kernel⟩,
    ⟨by simp only [State.Wf, WfData, SparseWf]; decide +kernel, by decide +kernel⟩,
    ⟨by simp only [State.Wf, WfData, SparseWf]; decide +kernel, by decide +kernel⟩,
    by decide +kernel⟩

/-- A coefficient of bank 0. -/
def coefOf (n i : Nat) (v sh : Int) : Nat × (Word × BitVec 6) := (lpCoefKey 0 n i, (BitVec.ofInt 32 v, BitVec.ofInt 6 sh))

/-- The rail is in state `r` with six phases; the loops `due` are due for evaluation. -/
def rail (r : Nat) (due : List Nat) : State :=
  { puts lit2 [(F.LPE_TOPO_N_PH, 6), (F.LPE_STATUS_RAIL, r), (F.LPE_BANK_A_M_SW, 8), (F.LPE_VSET_VSET_MIN, 3000),
      (F.LPE_VSET_VSET_MAX, 4500), (F.LUM_CREST_MV, 3333), (F.LPE_HEAD_HEAD_NOM, 300)] with
    saf := { lit2.saf with lrm := true }
    lpe := { lit2.lpe with
      phEn := true, pwm := 63, due := due, coef := [coefOf 2 0 1000 20, coefOf 2 1 500 20]
      loops := (List.range 9).map fun n => { i := n, d := 2 * n, e1 := 77, u1 := 99, stored := some (-5) } } }

/-- The same with every phase's conversion invalid, and `n` overruns in a row at LP2. -/
def overrun (n : Nat) : State :=
  let s := (rail 2 [2]).put (F.LPE_LPn_STATUS_RUN 2) n
  { s with lpe := { s.lpe with phases := s.lpe.phases.map fun (p : Phase) => { p with invalid := true }, fbDue := [8] } }

/-- LP2 runs its fallback law. -/
def fallback : State := (rail 2 []).put (F.LPE_LPn_STATUS_FALLBACK 2) 1

/-- The coefficient port stands at bank `b`, loop `n`, index `i`. -/
def coefPort (b n i : Nat) : State :=
  puts (rail 2 []) [(F.LPE_COEF_ADDR_BANK, b), (F.LPE_COEF_ADDR_LOOP, n), (F.LPE_COEF_ADDR_INDEX, i), (F.LPE_COEF_ADDR_INC, 1)]
def coefPend : State := let s := coefPort 1 2 15; { s with ras := { s.ras with pend := some aStart } }

theorem witness_LoopsFollowTheirLaws :
    ((rail 2 [2, 3]).Wf ∧ (rail 2 [2, 3]).coreRun = true ∧ (rail 2 [2, 3]).lpe.due = 2 :: [3] ∧ (rail 2 [2, 3]).lpe.loops.length = 9 ∧ (rail 2 [2, 3]).lpe.coefBad = [] ∧ (rail 2 [2, 3]).get (F.LPE_LPn_STATUS_FALLBACK 2) = 0 ∧ ((rail 2 [2, 3]).loop 2).bad = false ∧ ((rail 2 [2, 3]).phase 2).invalid = false ∧ ((rail 2 [2, 3]).loop 6).stored = some (-5)) ∧
    ((rail 2 [8]).Wf ∧ (rail 2 [8]).coreRun = true ∧ (rail 2 [8]).lpe.due = 8 :: [] ∧ (rail 2 [8]).lpe.loops.length = 9 ∧ (rail 2 [8]).lpe.coefBad = [] ∧ (rail 2 [8]).get (F.LPE_LPn_STATUS_FALLBACK 8) = 0 ∧ ((rail 2 [8]).loop 8).bad = false) ∧
    ((overrun 2).Wf ∧ (overrun 2).coreRun = true ∧ (overrun 2).lpe.due = 2 :: [] ∧ ((overrun 2).phase 2).invalid = true ∧ (overrun 2).get (F.LPE_LPn_STATUS_RUN 2) < 3 ∧ (overrun 2).get (F.LPE_LPn_STATUS_RUN 2) = 2) ∧
    ((overrun 0).Wf ∧ (overrun 0).coreRun = true ∧ (overrun 0).lpe.fbDue = 8 :: [] ∧ (overrun 0).lpe.loops.length = 9) ∧
    (fallback.Wf ∧ fallback.writable (A.LPE_LPn_CMD 2) ∧ fallback.loopOn 2 = true ∧ fallback.get (F.LPE_LPn_STATUS_FALLBACK 2) = 1 ∧ (1 : Word).getLsbD 0 = true) ∧
    ((rail 2 []).writable (A.LPE_LPn_CMD 8) ∧ (rail 2 []).loopOn 8 = false) ∧
    ((rail 2 []).Wf ∧ (rail 2 []).lineOn = true ∧ (rail 2 []).slotOpen 8 = true ∧ (rail 2 []).lpe.trimServed = false ∧ (rail 2 []).lpe.coefBad = [] ∧ (rail 2 []).lpe.loops.length = 9 ∧ ((rail 2 []).uLimits 7).1 ≤ ((rail 2 []).uLimits 7).2) ∧
    ((coefPort 1 8 0).Wf ∧ (coefPort 1 8 0).readable A.LPE_COEF_M ∧ (coefPort 1 8 0).writable A.LPE_COEF_M ∧ SparseWf lpCoefDefault (coefPort 1 8 0).lpe.coef ∧ (coefPort 1 9 0).lpCoefRange = true) ∧
    ((coefPort 0 2 0).Wf ∧ (coefPort 0 2 0).writable A.LPE_COEF_M ∧ (coefPort 0 2 0).lpCoefRange = false ∧ (coefPort 0 2 0).get F.LPE_COEF_ADDR_BANK = (coefPort 0 2 0).actBank) ∧
    (coefPend.Wf ∧ coefPend.writable A.LPE_COEF_M ∧ coefPend.lpCoefRange = false ∧ coefPend.get F.LPE_COEF_ADDR_BANK ≠ coefPend.actBank ∧ coefPend.ras.pend ≠ none) ∧
    ((coefPort 1 2 15).Wf ∧ (coefPort 1 2 15).writable A.LPE_COEF_M ∧ (coefPort 1 2 15).lpCoefRange = false ∧ (coefPort 1 2 15).get F.LPE_COEF_ADDR_BANK ≠ (coefPort 1 2 15).actBank ∧ (coefPort 1 2 15).ras.pend = none) ∧
    ((rail 2 [6]).lpe.due = 6 :: [] ∧ (rail 2 [6]).lpe.vsnsInvalid = false ∧ ((rail 2 [6]).loop 6).bad = false ∧ (rail 2 [6]).get (F.LPE_LPn_STATUS_FALLBACK 6) = 0) := 
  ⟨⟨by simp only [State.Wf, WfData, SparseWf]; decide +kernel, by decide +kernel⟩,
    ⟨by simp only [State.Wf, WfData, SparseWf]; decide +kernel, by decide +kernel⟩,
    ⟨by simp only [State.Wf, WfData, SparseWf]; decide +kernel, by decide +kernel⟩,
    ⟨by simp only [State.Wf, WfData, SparseWf]; decide +kernel, by decide +kernel⟩,
    ⟨by simp only [State.Wf, WfData, SparseWf]; decide +kernel, by simp only [State.writable]; decide +kernel, by decide +kernel⟩,
    ⟨by simp only [State.writable]; decide +kernel, by decide +kernel⟩,
    ⟨by simp only [State.Wf, WfData, SparseWf]; decide +kernel, by decide +kernel⟩,
    ⟨by simp only [State.Wf, WfData, SparseWf]; decide +kernel, by simp only [State.readable]; decide +kernel, by simp only [State.writable]; decide +kernel, by simp only [SparseWf]; decide +kernel, by decide +kernel⟩,
    ⟨by simp only [State.Wf, WfData, SparseWf]; decide +kernel, by simp only [State.writable]; decide +kernel, by decide +kernel⟩,
    ⟨by simp only [State.Wf, WfData, SparseWf]; decide +kernel, by simp only [State.writable]; decide +kernel, by decide +kernel⟩,
    ⟨by simp only [State.Wf, WfData, SparseWf]; decide +kernel, by simp only [State.writable]; decide +kernel, by decide +kernel⟩,
    by decide +kernel⟩

/-- `n` inner samples of the line have been taken, the rail in state `r`. -/
def sampled (n r : Nat) : State := let s := rail r []; { s with lpe := { s.lpe with n := n, psHigh := true } }

/-- The rail is OFF with RAIL_EN set. -/
def railAsked : State := (sampled 4 0).put F.LPE_CTRL_RAIL_EN 1

/-- Phase 1 is due to pulse, or to convert after a conversion at the end of the range. -/
def pulsing : State := let s := sampled 4 2; { s with lpe := { s.lpe with k := 1, phases := s.lpe.phases.map fun (p : Phase) => { p with pulseDue := true }, loops := s.lpe.loops.map fun l => { l with stored := some (2 ^ 30) } } }
def converting : State := let s := rail 2 []; { s with lpe := { s.lpe with phases := s.lpe.phases.map fun (p : Phase) => { p with convDue := true, fullRun := 1, conv := 77 } } }

/-- A swap is pending, or the other bank is ready for one. -/
def swapping : State := (sampled 0 2).put F.LPE_STATUS_SWAP_RESULT 3
def swapReady : State := puts (rail 2 []) [(F.LPE_BANK_B_READY, 1), (F.LPE_BANK_B_M_SW, 8)]

theorem witness_SamplesPulsesAndBanks :
    ((sampled 3 2).Wf ∧ (sampled 3 2).sampleOpen = true ∧ (sampled 3 2).get F.LPE_STATUS_SWAP_RESULT ≠ 3 ∧ (sampled 3 2).lpe.tripDue = false ∧ (sampled 3 2).lpe.psHigh = true ∧ (sampled 3 2).outerNext = false ∧ (sampled 3 2).rail ≠ 1) ∧
    (railAsked.Wf ∧ railAsked.sampleOpen = true ∧ railAsked.get F.LPE_STATUS_SWAP_RESULT ≠ 3 ∧ railAsked.lpe.tripDue = false ∧ railAsked.lpe.psHigh = true ∧ railAsked.outerNext = true ∧ railAsked.rail = 0 ∧ railAsked.get F.LPE_CTRL_RAIL_EN = 1 ∧ railAsked.removalOn = false ∧ railAsked.nPh ≠ 0 ∧ railAsked.loopOn 5 = true) ∧
    (pulsing.Wf ∧ pulsing.lineOn = true ∧ pulsing.lpe.loops.length = 9 ∧ (pulsing.loop 1).stored = some (2 ^ 30) ∧ pulsing.lpe.phases.length = 6 ∧ (pulsing.phase 1).pulseDue = true ∧ (pulsing.loopForce 1).pulseLength 1 ≠ 0 ∧ pulsing.railLive = true ∧ pulsing.lpe.phEn = true) ∧
    ((rail 2 []).Wf ∧ (rail 2 []).coreRun = true ∧ (rail 2 []).lpe.pwm.getLsbD 5 = true ∧ ((rail 2 []).phase 5).pulseEnd < 16 * (rail 2 []).nSlots ∧ (rail 2 []).lpe.phases.length = 6) ∧
    (swapping.Wf ∧ swapping.sampleOpen = true ∧ swapping.outerNext = true ∧ swapping.get F.LPE_STATUS_SWAP_RESULT = 3) ∧
    (swapReady.Wf ∧ swapReady.writable A.LPE_CTRL ∧ swapReady.bankReady (1 - swapReady.actBank) = true ∧ swapReady.bankMsw (1 - swapReady.actBank) = swapReady.bankMsw swapReady.actBank ∧ swapReady.bankKout (1 - swapReady.actBank) = swapReady.bankKout swapReady.actBank ∧ swapReady.ras.pend = none ∧ swapReady.get F.LPE_STATUS_SWAP_RESULT ≠ 3 ∧ (0x101 : Word).getLsbD 0 = true) ∧
    ((rail 2 []).writable A.LPE_CTRL ∧ (rail 2 []).bankReady (1 - (rail 2 []).actBank) = false ∧ (rail 2 []).get F.LPE_STATUS_SWAP_RESULT ≠ 3) ∧
    ((rail 1 []).Wf ∧ (rail 1 []).writable A.LPE_CTRL ∧ (rail 1 []).rail ≠ 0 ∧ (0 : Word).getLsbD 8 = false ∧ (0 : Word).getLsbD 0 = false) ∧
    ((rail 0 []).Wf ∧ (rail 0 []).writable A.LPE_CTRL ∧ (rail 0 []).rail = 0 ∧ (1 : Word).getLsbD 8 = false) ∧
    (((rail 2 []).phase 5).cbcHit = false ∧ max (((rail 2 []).put F.LPE_ILIM_CBC_RUN 1).get F.LPE_ILIM_CBC_RUN) 1 ≤ ((rail 2 []).phase 5).cbcRun + 1 ∧ ((rail 2 []).phase 5).cbcRun < 255) ∧
    (converting.lineOn = true ∧ converting.lpe.phases.length = 6 ∧ (converting.phase 5).convDue = true ∧ (converting.phase 5).conv < 16 * converting.nSlots ∧ converting.lineCycle ≤ (converting.phase 5).conv ∧ BitVec.toInt (2047#12) = 2047 ∧ BitVec.toInt (2048#12) = -2048 ∧ 1 ≤ (converting.phase 5).fullRun) := 
  ⟨⟨by simp only [State.Wf, WfData, SparseWf]; decide +kernel, by decide +kernel⟩,
    ⟨by simp only [State.Wf, WfData, SparseWf]; decide +kernel, by decide +kernel⟩,
    ⟨by simp only [State.Wf, WfData, SparseWf]; decide +kernel, by decide +kernel⟩,
    ⟨by simp only [State.Wf, WfData, SparseWf]; decide +kernel, by decide +kernel⟩,
    ⟨by simp only [State.Wf, WfData, SparseWf]; decide +kernel, by decide +kernel⟩,
    ⟨by simp only [State.Wf, WfData, SparseWf]; decide +kernel, by simp only [State.writable]; decide +kernel, by decide +kernel⟩,
    ⟨by simp only [State.writable]; decide +kernel, by decide +kernel⟩,
    ⟨by simp only [State.Wf, WfData, SparseWf]; decide +kernel, by simp only [State.writable]; decide +kernel, by decide +kernel⟩,
    ⟨by simp only [State.Wf, WfData, SparseWf]; decide +kernel, by simp only [State.writable]; decide +kernel, by decide +kernel⟩,
    by decide +kernel⟩

/-- Every report of the rail is due, the rail in state `r`. -/
def reports (r : Nat) : State :=
  let s := puts (rail r []) [(F.LPE_TOPO_FAN, 1), (F.LPE_FAN_DIV, 5)]
  { s with lpe := { s.lpe with
      startDue := true, uvpDue := true, refDue := true, rangeDue := [5], ocDue := [5], ovpDue := true, tachDue := true, psHigh := true } }


theorem witness_RailFaultsTripTheRail :
    ((reports 1).Wf ∧ (reports 1).coreRun = true ∧ (reports 1).lpe.startDue = true ∧ (reports 1).rail = 1 ∧ (reports 1).lpe.uvpDue = true ∧ (reports 1).lpe.refDue = true ∧ (reports 1).lpe.rangeDue.head? = some 5 ∧ (reports 1).lpe.ocDue.head? = some 5 ∧ (reports 1).lpe.psHigh = true ∧ (reports 1).railLive = true) ∧
    ((reports 0).Wf ∧ (reports 0).coreRun = true ∧ (reports 0).railLive = false ∧ (reports 0).lpe.ocDue.head? = some 5) ∧
    ((reports 2).Wf ∧ (reports 2).coreRun = true ∧ (reports 2).ras.running = true ∧ (reports 2).get F.LPE_STATUS_CREST_FB = 0 ∧ ({ reports 2 with lpe := { (reports 2).lpe with crestMiss := 2 } } : State).lpe.crestMiss = 2) ∧
    ((reports 2).coreRun = true ∧ (reports 2).lpe.ovpDue = true) ∧
    ((reports 2).lineOn = true ∧ (reports 2).get F.LPE_TOPO_FAN = 1 ∧ (reports 2).ras.line % max ((reports 2).get F.LPE_FAN_DIV) 1 = 0 ∧ (reports 2).lpe.fanServed = false ∧ (reports 2).lpe.tachDue = true) := 
  ⟨⟨by simp only [State.Wf, WfData, SparseWf]; decide +kernel, by decide +kernel⟩,
    ⟨by simp only [State.Wf, WfData, SparseWf]; decide +kernel, by decide +kernel⟩,
    ⟨by simp only [State.Wf, WfData, SparseWf]; decide +kernel, by decide +kernel⟩,
    by decide +kernel⟩

/-- The island in state `st` with every cause of its own due. -/
def causes (st : Nat) : State :=
  { puts lit2 [(F.SAF_STATE_STATE, st), (F.SAF_DISC_DISC, 500), (F.SAF_STATE_RELIGHT_WAIT, 1), (F.LPE_STATUS_RAIL, 2)] with
    saf := { lit2.saf with
      lrm := true, envRun := 2, lrmFollowed := true, supplyRun := 2, arrayRun := 2, wdArmed := true, wdTicks := 20
      relightTicks := 256, outRun := 2 }
    lpe := { lit2.lpe with pwm := 5, phEn := true } }
def islandClock : State := { causes 1 with saf := { (causes 1).saf with islandRun := 2 } }
def oscClock : State := { lit2 with saf := { lit2.saf with oscRun := 2 } }

/-- INIT; the proof of the nets has released net `n`, whose far end has had its tick. -/
def proving (n : Nat) : State := { idle with saf := { idle.saf with proofNet := n, proofAged := true, outRun := 2 } }

/-- The far end of net A alone, or of net B alone, differs from its driven level. -/
def netBad (a b : Bool) : State := { lit2 with saf := { lit2.saf with netBadA := a, netBadB := b } }

theorem witness_OwnCausesRemoveLight :
    ((causes 1).Wf ∧ (causes 1).saf.held = false ∧ (causes 1).safOn = true ∧ (causes 1).get F.SAF_DISC_DISC = (causes 1).discLimit ∧ (causes 1).get F.SAF_STATE_DISC_LATCH = 0 ∧ (causes 1).coreOn = true ∧ (causes 1).rail = 2 ∧ (causes 1).saf.lrm = true) ∧
    ((causes 0).Wf ∧ (proving 1).Wf ∧ (causes 0).saf.held = false ∧ (causes 0).safOn = true ∧ (causes 0).safState = 0 ∧ (proving 1).saf.held = false ∧ (proving 1).safOn = true ∧ (proving 1).safState = 0 ∧ (proving 1).saf.proofAged = true ∧ (proving 1).netsForced = false) ∧
    ((causes 5).get F.SAF_STATE_RELIGHT_WAIT = 1 ∧ (causes 5).get F.SAF_STATE_LRM_FB = 0 ∧ timeUp (causes 5).saf.relightTicks ((causes 5).get F.SAF_LRM_FB_TIME) = true ∧ timeUp ({ causes 5 with saf := { (causes 5).saf with lrmFollowed := false, lrmTicks := 256 } } : State).saf.lrmTicks ((causes 5).get F.SAF_LRM_FB_TIME) = true) ∧
    ((causes 2).saf.envRun = 2 ∧ (causes 2).stands Code.SAF_ENVELOPE = false ∧ (causes 2).saf.supplyRun = 2 ∧ (causes 2).stands Code.SAF_SUPPLY = false) ∧
    ((causes 3).get F.SAF_STATE_LRM_FB ≠ 1 ∧ (causes 3).saf.lrm ≠ false ∧ (causes 3).stands Code.SAF_LRM_FB = false ∧ (causes 3).saf.lrmFollowed = true) ∧
    (islandClock.saf.islandRun = 2 ∧ islandClock.stands Code.SAF_CLK_ISLAND = false ∧ (causes 1).saf.islandRun ≠ 2 ∧ (causes 1).saf.arrayRun = 2 ∧ (causes 1).stands Code.SAF_CLK_ARRAY = false) ∧
    ((causes 1).saf.wdArmed = true ∧ 20 ≤ (causes 1).saf.wdTicks ∧ (causes 1).saf.wdStall = false ∧ (causes 1).safOn = true ∧ (causes 1).saf.outRun = 2) ∧
    ((netBad true false).safOn = true ∧ (if true then (netBad false true).saf.netBadA else (netBad false true).saf.netBadB) = false ∧ (if false then (netBad true false).saf.netBadA else (netBad true false).saf.netBadB) = false) ∧
    ((proving 1).safOn = true ∧ (proving 1).saf.proofNet = 1 ∧ (proving 2).safState = 0 ∧ (proving 2).saf.proofAged = true ∧ (proving 2).netsForced = false ∧ (proving 2).saf.proofNet ≠ 1) ∧
    (oscClock.safOn = true ∧ oscClock.saf.islandRun ≠ 2 ∧ oscClock.saf.arrayRun ≠ 2 ∧ oscClock.saf.oscRun = 2 ∧ oscClock.stands Code.SAF_CLK_OSCIN = false) := 
  ⟨⟨by simp only [State.Wf, WfData, SparseWf]; decide +kernel, by decide +kernel⟩,
    ⟨by simp only [State.Wf, WfData, SparseWf]; decide +kernel, by simp only [State.Wf, WfData, SparseWf]; decide +kernel, by decide +kernel⟩,
    by decide +kernel⟩

/-- The island's state is OASIS, and the conditions given hold. -/
def island (l : List (Field × Nat)) : State := puts lit2 ([(F.SAF_STATE_STATE, 2)] ++ l)

/-- A pad request stands, and its relight counter runs or not. -/
def padAsked (q : Bool) : State := { lit2 with saf := { lit2.saf with padReq := true, darkA := false, darkB := true, padQuiet := q } }

/-- The island's registers are locked. -/
def safLocked : State := lit2.put F.SAF_LOCK_LOCK 1

/-- Oasis is asked for, no copy of its beam is valid; it has one valid copy, or is shown already. -/
def noBeam : State := island [(F.SAF_STATE_STATE, 1), (F.SAF_STATE_REQ_FW, 1)]
def beamShown : State := { island [(F.SAF_STATE_REQ_FW, 1)] with saf := { lit2.saf with shown := some 0 } }

theorem witness_IslandStateAndDarkRequests :
    (noBeam.Wf ∧ noBeam.saf.held = false ∧ noBeam.safState ≠ 0 ∧ noBeam.darkCause = false ∧ noBeam.oasisReq = true ∧ noBeam.wantSource.1 = true ∧ noBeam.safState ≠ 2 ∧ noBeam.chooseCopy noBeam.wantSource.2 = none) ∧
    (beamShown.Wf ∧ beamShown.darkCause = false ∧ beamShown.oasisReq = true ∧ beamShown.safState = 2 ∧ beamShown.saf.shown = some beamShown.wantSource.2) ∧
    ((island []).Wf ∧ (island []).saf.held = false ∧ (island []).safState ≠ 0 ∧ (island []).get F.SAF_STATE_REMOVE_LATCH ≠ 1 ∧ (island []).get F.SAF_STATE_RELIGHT_WAIT ≠ 1 ∧ (island []).darkCause = false ∧ (island []).get F.SAF_STATE_DIM_LATCH ≠ 1 ∧ (island []).oasisReq = false) ∧
    (lit2.Wf ∧ lit2.saf.held = false ∧ lit2.safState ≠ 0) ∧
    ((padAsked true).Wf ∧ (padAsked true).safOn = true ∧ (padAsked true).relightRuns = true ∧ (padAsked true).get F.SAF_SEAL_VALUE / 4 % 2 = 0 ∧ (padAsked true).safState ≠ 0 ∧ (padAsked true).get F.SAF_STATE_REMOVE_LATCH = 0 ∧ (padAsked true).get F.SAF_STATE_RELIGHT_WAIT = 0) ∧
    (lit2.Wf ∧ lit2.writable A.SAF_CMD ∧ lit2.saf.held = false ∧ (0x301 : Word).getLsbD 0 = true ∧ lit2.power ≠ 5) ∧
    (((lit2.put F.PWR_STATUS_STATE 5).put F.PWR_STATUS_STEP 2).writable A.SAF_CMD ∧ (lit2.put F.PWR_STATUS_STATE 5).saf.held = false ∧ (0x300 : Word).getLsbD 0 = false ∧ ((lit2.put F.PWR_STATUS_STATE 5).put F.PWR_STATUS_STEP 2).power = 5) ∧
    ((lit2.put F.PWR_STATUS_STATE 5).Wf ∧ (lit2.put F.PWR_STATUS_STATE 5).writable A.SAF_CMD ∧ (lit2.put F.PWR_STATUS_STATE 5).power = 5 ∧ (lit2.put F.PWR_STATUS_STATE 5).get F.PWR_STATUS_STEP = 0) ∧
    (({ lit2 with saf := { lit2.saf with held := true } } : State).writable A.SAF_CMD ∧ ({ lit2 with saf := { lit2.saf with held := true } } : State).saf.held = true) ∧
    (lit2.Wf ∧ lit2.writable A.SAF_LOCK ∧ lit2.saf.held = false) ∧
    (safLocked.Wf ∧ safLocked.writable A.SAF_LRM ∧ A.SAF_LRM < 2 ^ 17 ∧ A.SAF_LRM ∈ [A.SAF_DIM, A.SAF_RAMP, A.SAF_OASIS, A.SAF_MON, A.SAF_LRM] ∧ safLocked.get F.SAF_LOCK_LOCK = 1) ∧
    ((island [(F.SAF_STATE_REMOVE_LATCH, 1)]).get F.SAF_STATE_REMOVE_LATCH = 1 ∧ (island [(F.SAF_STATE_DARK_HOLD, 1)]).darkCause = true ∧ (island [(F.SAF_STATE_DARK_HOLD, 1)]).get F.SAF_STATE_REMOVE_LATCH ≠ 1) ∧
    ((island [(F.SAF_STATE_DIM_LATCH, 1)]).darkCause = false ∧ (island [(F.SAF_STATE_DIM_LATCH, 1)]).get F.SAF_STATE_DIM_LATCH = 1 ∧ (island [(F.SAF_STATE_REQ_FW, 1)]).darkCause = false ∧ (island [(F.SAF_STATE_REQ_FW, 1)]).oasisReq = true) ∧
    ((padAsked false).safOn = true ∧ (padAsked false).relightRuns = false) := 
  ⟨⟨by simp only [State.Wf, WfData, SparseWf]; decide +kernel, by decide +kernel⟩,
    ⟨by simp only [State.Wf, WfData, SparseWf]; decide +kernel, by decide +kernel⟩,
    ⟨by simp only [State.Wf, WfData, SparseWf]; decide +kernel, by decide +kernel⟩,
    ⟨by simp only [State.Wf, WfData, SparseWf]; decide +kernel, by decide +kernel⟩,
    ⟨by simp only [State.Wf, WfData, SparseWf]; decide +kernel, by decide +kernel⟩,
    ⟨by simp only [State.Wf, WfData, SparseWf]; decide +kernel, by simp only [State.writable]; decide +kernel, by decide +kernel⟩,
    ⟨by simp only [State.writable]; decide +kernel, by decide +kernel⟩,
    ⟨by simp only [State.Wf, WfData, SparseWf]; decide +kernel, by simp only [State.writable]; decide +kernel, by decide +kernel⟩,
    ⟨by simp only [State.writable]; decide +kernel, by decide +kernel⟩,
    ⟨by simp only [State.Wf, WfData, SparseWf]; decide +kernel, by simp only [State.writable]; decide +kernel, by decide +kernel⟩,
    ⟨by simp only [State.Wf, WfData, SparseWf]; decide +kernel, by simp only [State.writable]; decide +kernel, by decide +kernel⟩,
    by decide +kernel⟩

/-- INIT may be left. -/
def initDone : State :=
  { puts idle [(F.SAF_SEAL_READ_DONE, 1), (F.CFG_STATUS_LOADED, 1), (F.SAF_SEAL_MATCH, 1), (F.SAF_STATE_SRST_SEEN, 1),
      (F.CFG_LC_STATE, 1), (F.SAF_SEAL_VALUE, 16)] with saf := { idle.saf with proofDone := true, bootChecked := true } }

/-- A relight waits for the rail, which is in regulation. -/
def relit : State :=
  puts lit2 [(F.SAF_STATE_RELIGHT_WAIT, 1), (F.SAF_STATE_LRM_FB, 1), (F.LPE_STATUS_IN_REG, 1), (F.SAF_STATE_STATE, 5)]

/-- SRST_N has risen after `w` ticks low, every latch set. -/
def srst (w : Nat) : State :=
  { puts lit2 [(F.SAF_STATE_REMOVE_LATCH, 1), (F.SAF_STATE_DIM_LATCH, 1), (F.SAF_STATE_DISC_LATCH, 1),
      (F.SAF_STATE_DARK_HOLD, 1), (F.SAF_STATE_STATE, 5), (F.SAF_SEAL_MATCH, 1), (F.SAF_SEAL_OPEN, 0)] with saf := { lit2.saf with srstRosePending := true, srstLow := w } }
def srstCause : State := (srst 5000).put F.SAF_DISC_DISC 1

/-- SRST_N has fallen and stays low. -/
def srstDown : State := { lit2 with saf := { lit2.saf with srstFellPending := true, srstLow := 500000, srstLevel := false } }

/-- A dim entry is due; a ramp of 100 ticks stands at tick `n`. -/
def dimming : State :=
  (({ puts lit2 [(F.SAF_STATE_DIM_LATCH, 1), (F.SAF_STATE_STATE, 3)] with saf := { lit2.saf with dimDue := true } }).setReg
    A.SAF_RAMP 100).setReg A.SAF_DIM 0x20000000
def ramping (n : Nat) : State := { dimming with saf := { dimming.saf with rampN := n, rampDue := true, rampCfg := 100, dimCfg := 0x20000000 } }

theorem witness_ResetRelightAndRamp :
    (initDone.Wf ∧ initDone.safOn = true ∧ initDone.safState = 0 ∧ initDone.mayLeaveInit = true ∧ initDone.get F.SAF_STATE_REMOVE_LATCH = 0 ∧ initDone.get F.SAF_SEAL_VALUE / 16 % 2 = 1 ∧ initDone.get F.CVN_TDM_STATUS_ROLE = 0) ∧
    ((initDone.put F.SAF_STATE_REMOVE_LATCH 1).Wf ∧ (initDone.put F.SAF_STATE_REMOVE_LATCH 1).mayLeaveInit = true ∧ (initDone.put F.SAF_STATE_REMOVE_LATCH 1).get F.SAF_STATE_REMOVE_LATCH = 1) ∧
    (relit.Wf ∧ relit.safOn = true ∧ relit.get F.SAF_STATE_RELIGHT_WAIT = 1 ∧ relit.get F.SAF_STATE_LRM_FB = 1 ∧ relit.get F.LPE_STATUS_IN_REG = 1 ∧ relit.safState ≠ 0 ∧ relit.get F.SAF_STATE_REMOVE_LATCH = 0 ∧ relit.darkCause = false ∧ relit.get F.SAF_STATE_DIM_LATCH = 0 ∧ relit.oasisReq = false) ∧
    ((srst 4999).Wf ∧ (srst 4999).safOn = true ∧ (srst 4999).saf.srstRosePending = true ∧ (srst 4999).saf.srstLow < 5000 ∧ 200000 < (srst 200001).saf.srstLow) ∧
    (srstCause.Wf ∧ srstCause.safOn = true ∧ srstCause.saf.srstRosePending = true ∧ 5000 ≤ srstCause.saf.srstLow ∧ srstCause.saf.srstLow ≤ 200000 ∧ (srstCause.deassertF Code.SAF_SRST_STUCK).srstClear = false) ∧
    ((srst 200000).Wf ∧ (srst 200000).saf.srstLow ≤ 200000 ∧ ((srst 200000).deassertF Code.SAF_SRST_STUCK).srstClear = true ∧ (srst 200000).oasisReq = false ∧ (srst 200000).get F.SAF_STATE_REMOVE_LATCH = 1 ∧ (srst 200000).safState ≠ 0) ∧
    (srstDown.Wf ∧ srstDown.safOn = true ∧ srstDown.saf.srstFellPending = true ∧ srstDown.saf.srstLevel = false ∧ 500000 ≤ srstDown.saf.srstLow ∧ srstDown.get F.SAF_STATE_SRST_STUCK = 0) ∧
    (dimming.Wf ∧ dimming.safOn = true ∧ dimming.saf.dimDue = true ∧ dimming.reg A.SAF_RAMP &&& 0xFFFFF ≠ 0) ∧
    ((ramping 99).Wf ∧ (ramping 99).safOn = true ∧ (ramping 99).saf.rampDue = true ∧ (ramping 99).saf.rampN < (ramping 99).saf.rampCfg.toNat % 2 ^ 20 ∧ (ramping 100).saf.rampCfg.toNat % 2 ^ 20 ≤ (ramping 100).saf.rampN) := 
  ⟨⟨by simp only [State.Wf, WfData, SparseWf]; decide +kernel, by decide +kernel⟩,
    ⟨by simp only [State.Wf, WfData, SparseWf]; decide +kernel, by decide +kernel⟩,
    ⟨by simp only [State.Wf, WfData, SparseWf]; decide +kernel, by decide +kernel⟩,
    ⟨by simp only [State.Wf, WfData, SparseWf]; decide +kernel, by decide +kernel⟩,
    ⟨by simp only [State.Wf, WfData, SparseWf]; decide +kernel, by decide +kernel⟩,
    ⟨by simp only [State.Wf, WfData, SparseWf]; decide +kernel, by decide +kernel⟩,
    ⟨by simp only [State.Wf, WfData, SparseWf]; decide +kernel, by decide +kernel⟩,
    ⟨by simp only [State.Wf, WfData, SparseWf]; decide +kernel, by decide +kernel⟩,
    ⟨by simp only [State.Wf, WfData, SparseWf]; decide +kernel, by decide +kernel⟩⟩

/-- The strap samples `hi` and `lo` are taken. -/
def straps (hi lo : BitVec 8) : State := { idle with saf := { idle.saf with sealTick := some 21, sealHi := hi, sealLo := lo } }

/-- A running CRC-32 over zeros, 64 bytes at a time. -/
theorem crc_zeros (n : Nat) {c d : Word} (h : crc32Run c (List.replicate 64 0) = d) :
    crc32Run c (List.replicate (64 + n) 0) = crc32Run d (List.replicate n 0) := by
  rw [List.replicate_add, crc32Run, List.foldl_append]
  exact congrArg (fun e => crc32Run e (List.replicate n 0)) h

/-- CRC-32 of 512 zero bytes. -/
theorem crc_row : crc32 (List.replicate 512 0) = 2997515640 := by
  have h : crc32Run 4294967295 (List.replicate 512 0) = 1297451655 :=
    (crc_zeros 448 (d := 2322767049) (by decide +kernel)).trans <| (crc_zeros 384 (d := 1029113186) (by decide +kernel)).trans <|
    (crc_zeros 320 (d := 1946220301) (by decide +kernel)).trans <| (crc_zeros 256 (d := 4066998951) (by decide +kernel)).trans <|
    (crc_zeros 192 (d := 1379444914) (by decide +kernel)).trans <| (crc_zeros 128 (d := 2001022648) (by decide +kernel)).trans <|
    (crc_zeros 64 (d := 3111512508) (by decide +kernel)).trans (by decide +kernel)
  rw [crc32, show (0xFFFFFFFF#32 : Word) = 4294967295 from rfl, h]
  decide

/-- Copy 1 of beam 1 is sound in row 5, copy 0 is not; oasis shows beam 1. -/
def oasis : State :=
  puts { lit2 with nvm := [(136317972, 120), (136317973, 117), (136317974, 170), (136317975, 178)] }
    [(F.LUM_STATE_SOURCE, 1), (F.LUM_STATE_BEAM, 1), (F.SAF_OASIS_STATUS_VALID, 0xC)]
def oasisOther : State := oasis.setUse 1 1

/-- The island is held; a grant of a clock stop is over. -/
def held : State := { lit2 with saf := { lit2.saf with held := true } }

theorem witness_StrapsCopiesAndTicks_rows :
    oasis.oasisRowOk 1 1 5 = true ∧ oasis.oasisRowOk 1 0 5 = false ∧ oasisOther.oasisRowOk 1 1 5 = true := by
  have h1 : oasis.nvBytes (oasisRowAddr 1 1 5) 512 = List.replicate 512 0 := by decide +kernel
  have h0 : oasis.nvBytes (oasisRowAddr 1 0 5) 512 = List.replicate 512 0 := by decide +kernel
  have h2 : oasisOther.nvBytes (oasisRowAddr 1 1 5) 512 = List.replicate 512 0 := by decide +kernel
  have w1 : oasis.nvWord (oasisTable 1 1 + 4 * 5) = 2997515640 := by decide +kernel
  have w0 : oasis.nvWord (oasisTable 1 0 + 4 * 5) = 0 := by decide +kernel
  have w2 : oasisOther.nvWord (oasisTable 1 1 + 4 * 5) = 2997515640 := by decide +kernel
  unfold State.oasisRowOk
  rw [h1, h0, h2, w1, w0, w2, crc_row]
  decide


theorem witness_StrapsCopiesAndTicks :
    (({ idle with saf := { idle.saf with sealWant := true, vddioIn := true } } : State).Wf ∧ ({ idle with saf := { idle.saf with vddioIn := false } } : State).saf.vddioIn = false ∧ ({ idle with saf := { idle.saf with sealWant := true, vddioIn := true } } : State).safOn = true ∧ ({ idle with saf := { idle.saf with sealWant := true, vddioIn := true } } : State).saf.sealWant = true ∧ ({ idle with saf := { idle.saf with sealWant := true, vddioIn := true } } : State).saf.vddioIn = true) ∧
    ((straps 0x3B 0x3B).Wf ∧ (straps 0x3B 0x3B).safOn = true ∧ (straps 0x3B 0x3B).saf.sealTick = some 21 ∧ (straps 0x3B 0x3B).safState = 0 ∧ (straps 0x3B 0x3B).saf.sealHi = (straps 0x3B 0x3B).saf.sealLo) ∧
    (idle.Wf ∧ idle.safOn = true ∧ idle.coreRun = true ∧ idle.safState = 0 ∧ idle.saf.bootChecked = false) ∧
    (oasis.Wf ∧ oasis.safOn = true ∧ oasis.coreRun = true ∧ oasis.ras.running = true ∧ (5 : BitVec 7) ≠ 0 ∧ oasis.get F.LUM_STATE_SOURCE = 1 ∧ oasis.oasisUse (oasis.get F.LUM_STATE_BEAM) = 0 ∧ oasis.copyValid 1 0 = true ∧ oasis.copyValid 1 1 = true) ∧
    (oasisOther.Wf ∧ oasisOther.get F.LUM_STATE_SOURCE = 1 ∧ oasisOther.oasisUse (oasisOther.get F.LUM_STATE_BEAM) = 1 ∧ oasisOther.copyValid 1 1 = true) ∧
    (lit2.Wf ∧ (lit2.put F.CVN_TDM_STATUS_ROLE 1).Wf ∧ lit2.saf.held = false ∧ (lit2.put F.CVN_TDM_STATUS_ROLE 1).saf.held = false ∧ (lit2.put F.CVN_TDM_STATUS_ROLE 1).get F.CVN_TDM_STATUS_ROLE ≠ 0) ∧
    (held.Wf ∧ ({ held with saf := { held.saf with netBadB := true } } : State).Wf ∧ held.saf.held = true ∧ held.safOn = false ∧ ({ held with saf := { held.saf with netBadB := true } } : State).saf.held = true ∧ ({ held with saf := { held.saf with netBadB := true } } : State).saf.netBadB = true) ∧
    (lit2.Wf ∧ held.safOn = false ∧ lit2.safOn = true ∧ ({ trst := true } : TickIn).trst = true ∧ ({ tck := List.replicate 5 (true, false) } : TickIn).trst = false ∧ ({ tck := List.replicate 5 (true, false) } : TickIn).tck = List.replicate 5 (true, false) ∧ ({ vddio := 1400, darkA := true, darkB := true } : TickIn).tck = [] ∧ ({ vddio := 1399, darkA := true, darkB := true } : TickIn).vddio < 1400 ∧ ({ vddio := 1400, darkA := true, darkB := false } : TickIn).darkA = !({ vddio := 1400, darkA := true, darkB := false } : TickIn).darkB ∧ ({ vddio := 1400, darkA := true, darkB := true } : TickIn).darkA ≠ !({ vddio := 1400, darkA := true, darkB := true } : TickIn).darkB) ∧
    ((straps 0x3B 0x29).saf.sealTick = some 21 ∧ ((straps 0x3B 0x29).saf.sealHi ^^^ (straps 0x3B 0x29).saf.sealLo) &&& 3 ≠ 0) ∧
    (({ lit2 with saf := { lit2.saf with grant := true, grantWait := true, grantTicks := 50 } } : State).safOn = true ∧ ({ lit2 with saf := { lit2.saf with grant := true, grantWait := true, grantTicks := 50 } } : State).grantOver = true) := 
  ⟨⟨by simp only [State.Wf, WfData, SparseWf]; decide +kernel, by decide +kernel⟩,
    ⟨by simp only [State.Wf, WfData, SparseWf]; decide +kernel, by decide +kernel⟩,
    ⟨by simp only [State.Wf, WfData, SparseWf]; decide +kernel, by decide +kernel⟩,
    ⟨by simp only [State.Wf, WfData, SparseWf]; decide +kernel, by decide +kernel⟩,
    ⟨by simp only [State.Wf, WfData, SparseWf]; decide +kernel, by decide +kernel⟩,
    ⟨by simp only [State.Wf, WfData, SparseWf]; decide +kernel, by simp only [State.Wf, WfData, SparseWf]; decide +kernel, by decide +kernel⟩,
    ⟨by simp only [State.Wf, WfData, SparseWf]; decide +kernel, by simp only [State.Wf, WfData, SparseWf]; decide +kernel, by decide +kernel⟩,
    ⟨by simp only [State.Wf, WfData, SparseWf]; decide +kernel, by decide +kernel⟩,
    by decide +kernel⟩

/-- Code `n` has occurred and waits for its sample. -/
def occurred (n : Nat) (s : State) : State :=
  s.setFrec n { s.frec n with pulses := [{ init := 3, access := 2, addr := 0x12345678 }] }

/-- LIT, with the first-error record free for every class. -/
def faultBase : State := lit2.put F.FLT_CTRL_FIRST_CLASS 1

/-- Code `n` is PENDING with effective class `c` and its timer at 0, live or not. -/
def pendingAt (n c : Nat) (live : Bool) : State :=
  lit2.setFrec n { lit2.frec n with st := .pending, eff := c, live := live, timer := some 0, unmasked := true }
def ackedAt (n : Nat) : State := lit2.setFrec n { lit2.frec n with st := .acked, live := true, unmasked := true }

/-- Two codes of class C1 occur in one cycle. -/
def twoAtOnce : State := occurred 16 (occurred 18 faultBase)

theorem witness_FaultsLatchAndEscalate :
    ((occurred 0x20 (lit2.put (F.FLT_MASKn_MASK 1) 1)).Wf ∧ SparseWf faultDefault (occurred 0x20 (lit2.put (F.FLT_MASKn_MASK 1) 1)).flt.recs ∧ codeUsed 0x20 = true ∧ (occurred 0x20 (lit2.put (F.FLT_MASKn_MASK 1) 1)).sourceOn 0x20 = true ∧ ((occurred 0x20 (lit2.put (F.FLT_MASKn_MASK 1) 1)).frec 0x20).live = false ∧ ((occurred 0x20 (lit2.put (F.FLT_MASKn_MASK 1) 1)).frec 0x20).driver 0x20 = some { init := 3, access := 2, addr := 0x12345678 } ∧ (occurred 0x20 (lit2.put (F.FLT_MASKn_MASK 1) 1)).masked 0x20 = true) ∧
    ((occurred 16 faultBase).Wf ∧ SparseWf faultDefault (occurred 16 faultBase).flt.recs ∧ codeUsed 16 = true ∧ (occurred 16 faultBase).aonOn = true ∧ (occurred 16 faultBase).sourceOn 16 = true ∧ ((occurred 16 faultBase).frec 16).live = false ∧ (occurred 16 faultBase).saf.held = false ∧ ((occurred 16 faultBase).frec 16).driver 16 = some { init := 3, access := 2, addr := 0x12345678 } ∧ (occurred 16 faultBase).masked 16 = false ∧ ((occurred 16 faultBase).frec 16).st = .none ∧ ((occurred 16 faultBase).frec 16).base = 1 ∧ (occurred 16 faultBase).get F.FLT_FIRST0_VALID = 0 ∧ min ((occurred 16 faultBase).get F.FLT_CTRL_FIRST_CLASS) 4 ≤ 1 ∧ (occurred 16 faultBase).flt.recs.any (fun e => (occurred 16 faultBase).latchesBefore e.1 16 1) = false) ∧
    (twoAtOnce.Wf ∧ SparseWf faultDefault twoAtOnce.flt.recs ∧ (twoAtOnce.frec 18).base = 1 ∧ (twoAtOnce.frec 18).st = .none ∧ twoAtOnce.sourceOn 18 = true ∧ twoAtOnce.masked 18 = false ∧ twoAtOnce.saf.held = false ∧ twoAtOnce.flt.recs.any (fun e => twoAtOnce.latchesBefore e.1 18 1) = true ∧ twoAtOnce.flt.recs.any (fun e => twoAtOnce.latchesBefore e.1 16 1) = false) ∧
    ((ackedAt 16).Wf ∧ SparseWf faultDefault (ackedAt 16).flt.recs ∧ (ackedAt 16).aonOn = true ∧ ((ackedAt 16).frec 16).live = true ∧ ((ackedAt 16).frec 16).held = false ∧ ((ackedAt 16).frec 16).st = .acked) ∧
    ((pendingAt 16 1 true).Wf ∧ SparseWf faultDefault (pendingAt 16 1 true).flt.recs ∧ ((pendingAt 16 1 true).frec 16).live = true ∧ ((pendingAt 16 1 true).frec 16).held = false ∧ ((pendingAt 16 1 true).frec 16).st ≠ .acked ∧ ((pendingAt 16 1 true).frec 16).expired 1 = true ∧ (pendingAt 16 1 true).saf.held = false) ∧
    ((pendingAt 16 2 false).Wf ∧ SparseWf faultDefault (pendingAt 16 2 false).flt.recs ∧ (pendingAt 16 2 false).writable A.FLT_ACK ∧ ((pendingAt 16 2 false).frec 16).expired 2 = true ∧ ((pendingAt 16 2 false).frec 16).live = false ∧ ((pendingAt 16 2 false).frec ((16 : Word).toNat % 256)).st = .pending ∧ (pendingAt 16 2 false).saf.held = false) ∧
    (lit2.Wf ∧ SparseWf faultDefault lit2.flt.recs ∧ lit2.writable A.FLT_ACK ∧ (lit2.frec 255).st ≠ .pending) ∧
    (((occurred 85 faultBase).frec 85).base = 2 ∧ (occurred 85 faultBase).masked 85 = false ∧ ((occurred 72 faultBase).frec 72).base = 3 ∧ (occurred 72 faultBase).masked 72 = false) ∧
    (((occurred 1 (faultBase.put F.FLT_FIRST0_VALID 1)).frec 1).base = 4 ∧ (occurred 1 (faultBase.put F.FLT_FIRST0_VALID 1)).masked 1 = false ∧ (occurred 1 (faultBase.put F.FLT_FIRST0_VALID 1)).get F.FLT_FIRST0_VALID = 1) := 
  ⟨⟨by simp only [State.Wf, WfData, SparseWf]; decide +kernel, by simp only [SparseWf]; decide +kernel, by decide +kernel⟩,
    ⟨by simp only [State.Wf, WfData, SparseWf]; decide +kernel, by simp only [SparseWf]; decide +kernel, by decide +kernel⟩,
    ⟨by simp only [State.Wf, WfData, SparseWf]; decide +kernel, by simp only [SparseWf]; decide +kernel, by decide +kernel⟩,
    ⟨by simp only [State.Wf, WfData, SparseWf]; decide +kernel, by simp only [SparseWf]; decide +kernel, by decide +kernel⟩,
    ⟨by simp only [State.Wf, WfData, SparseWf]; decide +kernel, by simp only [SparseWf]; decide +kernel, by decide +kernel⟩,
    ⟨by simp only [State.Wf, WfData, SparseWf]; decide +kernel, by simp only [SparseWf]; decide +kernel, by simp only [State.writable]; decide +kernel, by decide +kernel⟩,
    ⟨by simp only [State.Wf, WfData, SparseWf]; decide +kernel, by simp only [SparseWf]; decide +kernel, by simp only [State.writable]; decide +kernel, by decide +kernel⟩,
    by decide +kernel⟩

/-- Code 0x20 is held live, or its pair is invalid. -/
def heldLive : State := lit2.setFrec 0x20 { lit2.frec 0x20 with live := true, invalid := true }

/-- The proof is due, an injection is over, the pads have read back wrong twice. -/
def proofDue : State := { lit2 with flt := { lit2.flt with proofTicks := 1000 } }
def injected : State :=
  let s := lit2.setFrec 0x20 { lit2.frec 0x20 with inj := some { init := 0, access := 0, addr := 0 } }
  { s with flt := { s.flt with inject := some (0x20, 0) } }
def pinsWrong : State := { lit2 with flt := { lit2.flt with pinRun := 2 } }


theorem witness_FaultPairsInjectionsMasks :
    (SparseWf faultDefault heldLive.flt.recs ∧ (heldLive.frec 0x20).live = true ∧ (heldLive.frec 0x20).invalid = true) ∧
    (SparseWf faultDefault lit2.flt.recs ∧ (lit2.frec 0x20).live = false ∧ codeUsed 0x20 = true ∧ lit2.aonOn = true ∧ (lit2.frec 0x20).invalid = false ∧ lit2.sourceOn 0x20 = true ∧ 0x20 ≠ Code.COL_PAIR) ∧
    ((inLife 1 lit2).writable A.FLT_INJECT ∧ SparseWf faultDefault (inLife 1 lit2).flt.recs ∧ (inLife 1 lit2).mayInject = true ∧ codeUsed ((0x20 : Word).toNat % 256) = true ∧ (inLife 1 lit2).sourceOn 0x20 = true ∧ (inLife 1 lit2).flt.inject = none ∧ 0x20 ≠ Code.COL_INJECT ∧ ((inLife 1 lit2).frec Code.COL_INJECT).live = false) ∧
    (injected.writable A.FLT_INJECT ∧ injected.flt.inject ≠ none) ∧
    (SparseWf faultDefault injected.flt.recs ∧ injected.flt.inject = some (0x20, 0)) ∧
    (lit2.Wf ∧ lit2.writable A.FLT_FIRST_REL ∧ (1 : Word).getLsbD 0 = true ∧ (2 : Word).getLsbD 0 = false) ∧
    (lit2.Wf ∧ lit2.writable (A.FLT_MASKn 7)) ∧
    (proofDue.aonOn = true ∧ 1000 ≤ proofDue.flt.proofTicks ∧ codeUsed 0xF0 = true ∧ proofDue.sourceOn 0xF0 = true ∧ (proofDue.frec 0xF0).live = false ∧ (proofDue.frec 0xF0).driver 0xF0 = none ∧ ((proofDue.setFrec 0x20 { proofDue.frec 0x20 with live := true }).frec 0x20).live = true) ∧
    (pinsWrong.aonOn = true ∧ pinsWrong.flt.pinRun = 2) := 
  ⟨⟨by simp only [SparseWf]; decide +kernel, by decide +kernel⟩,
    ⟨by simp only [SparseWf]; decide +kernel, by decide +kernel⟩,
    ⟨by simp only [State.writable]; decide +kernel, by simp only [SparseWf]; decide +kernel, by decide +kernel⟩,
    ⟨by simp only [State.writable]; decide +kernel, by decide +kernel⟩,
    ⟨by simp only [SparseWf]; decide +kernel, by decide +kernel⟩,
    ⟨by simp only [State.Wf, WfData, SparseWf]; decide +kernel, by simp only [State.writable]; decide +kernel, by decide +kernel⟩,
    ⟨by simp only [State.Wf, WfData, SparseWf]; decide +kernel, by simp only [State.writable]; decide +kernel⟩,
    by decide +kernel⟩

/-- A transition to `g` from state `p` is in step `n`, its time over. -/
def inStep (g n p : Nat) (s : State) : State :=
  { puts s [(F.PWR_STATUS_TARGET, g), (F.PWR_STATUS_STEP, n)] with
    pwr := { s.pwr with fromState := p, stepTicks := 100000 } }

/-- IDLE with a job running in slot 2. -/
def jobRuns : State := puts idle [(F.PWR_JOBn_STATUS_STATE 2, 1), (F.PWR_JOBn_STATUS_TYPE 2, 4)]

/-- DORMANT; HOT_STANDBY. -/
def dormant : State := idle.put F.PWR_STATUS_STATE 2
def standby : State := lit2.put F.PWR_STATUS_STATE 5

/-- S1 of the way to LIT: PIX on, the timing of the next start as given. -/
def lighting (l : List (Field × Nat)) : State :=
  inStep 4 1 3 (puts idle ([(F.PWR_DOM_PIX, 1), (F.BST_CTRL_LATCH_EN, 0), (F.RAS_NEXT_TIMING_N_SLOTS, 383),
    (F.RAS_NEXT_TIMING_VB, 32), (F.RAS_NEXT_PWM_K, 16), (F.SAF_SEAL_VALUE, 8), (F.LPE_BANK_A_M_SW, 16),
    (F.LPE_BANK_A_READY, 1)] ++ l))
def latchTest : State := { lighting [] with bst := { (lighting []).bst with latchRow := some 510 } }

theorem witness_RequestsStartLatchOrReverse :
    (lit2.Wf ∧ lit2.writable A.PWR_REQ ∧ 5 < (6 : Word).toNat % 8 ∧ (1 : Word).toNat % 8 < 2 ∧ (inStep 2 9 4 idle).get F.PWR_STATUS_STATE ≠ 0) ∧
    (jobRuns.Wf ∧ jobRuns.writable A.PWR_REQ ∧ jobRuns.get F.PWR_STATUS_STATE = 3 ∧ jobRuns.get F.PWR_STATUS_STEP = 0 ∧ (2 : Word).toNat % 8 = 2 ∧ jobRuns.cfg.scanOn = false ∧ jobRuns.get F.CFG_STATUS_TEST ≠ 1 ∧ jobRuns.jobActive 2 = true ∧ 4 ≤ (5 : Word).toNat % 8 ∧ jobRuns.saf.held = false) ∧
    (standby.Wf ∧ standby.writable A.PWR_REQ ∧ ({ standby with saf := { standby.saf with held := true } } : State).writable A.PWR_REQ ∧ standby.get F.PWR_STATUS_STEP = 0 ∧ 4 ≤ standby.get F.PWR_STATUS_STATE ∧ (4 : Word).toNat % 8 ≠ standby.get F.PWR_STATUS_STATE ∧ (3 : Word).toNat % 8 ≤ 3 ∧ (4 : Word).toNat % 8 ≥ 4 ∧ standby.saf.held = false ∧ ({ standby with saf := { standby.saf with held := true } } : State).saf.held = true ∧ ({ standby with saf := { standby.saf with held := true } } : State).get F.PWR_STATUS_STATE = 5) ∧
    (dormant.Wf ∧ dormant.writable A.PWR_REQ ∧ dormant.get F.PWR_STATUS_STATE = 2 ∧ dormant.get F.PWR_STATUS_STEP = 0 ∧ 3 ≤ (5 : Word).toNat % 8) ∧
    ((inStep 4 1 3 idle).Wf ∧ (inStep 4 1 3 idle).writable A.PWR_REQ ∧ (inStep 4 1 3 idle).get F.PWR_STATUS_STEP = 1 ∧ (4 : Word).toNat % 8 = (inStep 4 1 3 idle).target ∧ (3 : Word).toNat % 8 = (inStep 4 1 3 idle).pwr.fromState ∧ (5 : Word).toNat % 8 ≠ (inStep 4 1 3 idle).pwr.fromState ∧ (inStep 4 1 3 idle).target ≠ 2) ∧
    (((inStep 4 1 3 idle).put F.PWR_STATUS_LATCHED 1).Wf ∧ ((inStep 4 1 3 idle).put F.PWR_STATUS_LATCHED 1).writable A.PWR_REQ ∧ (inStep 4 1 3 idle).get F.PWR_STATUS_LATCHED = 0 ∧ ((inStep 4 1 3 idle).put F.PWR_STATUS_LATCHED 1).get F.PWR_STATUS_LATCHED = 1 ∧ (4 : Word).toNat % 8 = ((inStep 4 1 3 idle).put F.PWR_STATUS_LATCHED 1).target ∧ (4 : Word).toNat % 8 ≠ ((inStep 4 1 3 idle).put F.PWR_STATUS_LATCHED 1).pwr.fromState) ∧
    ((inStep 2 3 4 lit2).Wf ∧ (inStep 2 3 4 lit2).writable A.PWR_REQ ∧ (inStep 2 3 4 lit2).target = 2 ∧ (3 : Word).toNat % 8 = 3 ∧ (inStep 2 3 4 lit2).get F.PWR_STATUS_STEP = 3 ∧ (inStep 2 3 4 lit2).pwr.fromState ≠ 3 ∧ (inStep 2 3 4 lit2).get F.PWR_STATUS_LATCHED = 0) ∧
    ((inStep 2 9 4 idle).Wf ∧ (inStep 2 9 4 idle).writable A.PWR_REQ ∧ 8 ≤ (inStep 2 9 4 idle).get F.PWR_STATUS_STEP ∧ (4 : Word).toNat % 8 ≠ (inStep 2 9 4 idle).target) ∧
    ((inStep 3 3 4 lit2).Wf ∧ (inStep 3 3 4 lit2).writable A.PWR_REQ ∧ (4 : Word).toNat % 8 = (inStep 3 3 4 lit2).pwr.fromState ∧ (inStep 3 3 4 lit2).get F.PWR_STATUS_STEP = 3 ∧ (inStep 3 3 4 lit2).get F.PWR_STATUS_LATCHED = 0) ∧
    ((lighting [(F.BST_CTRL_LATCH_EN, 1)]).Wf ∧ (lighting [(F.BST_CTRL_LATCH_EN, 1)]).coreRun = true ∧ (lighting [(F.BST_CTRL_LATCH_EN, 1)]).post = false ∧ (lighting [(F.BST_CTRL_LATCH_EN, 1)]).pixOn = true ∧ (lighting [(F.BST_CTRL_LATCH_EN, 1)]).get F.PWR_STATUS_STEP = 1 ∧ (lighting [(F.BST_CTRL_LATCH_EN, 1)]).bst.latchRow = none ∧ (lighting [(F.BST_CTRL_LATCH_EN, 1)]).get F.BST_CTRL_LATCH_EN = 1 ∧ (lighting [(F.BST_CTRL_LATCH_EN, 1)]).get F.PWR_STATUS_REVERSING ≠ 1) ∧
    ((lighting [(F.PWR_STATUS_REVERSING, 1)]).Wf ∧ (lighting [(F.PWR_STATUS_REVERSING, 1)]).get F.PWR_STATUS_REVERSING = 1 ∧ (lighting [(F.PWR_STATUS_REVERSING, 1)]).get F.PWR_STATUS_LATCHED = 0) ∧
    ((lighting []).Wf ∧ (lighting []).get F.BST_CTRL_LATCH_EN = 0 ∧ (lighting []).rasRun = 0 ∧ (lighting []).retimeCheck ((lighting []).nextTiming true) = 0 ∧ (lighting []).get F.RAS_NEXT_MODE_MODE ≠ 2 ∧ (lighting []).get F.PWR_STATUS_LATCHED = 0) ∧
    ((lighting [(F.RAS_NEXT_PWM_K, 1)]).Wf ∧ (lighting [(F.RAS_NEXT_PWM_K, 1)]).retimeCheck ((lighting [(F.RAS_NEXT_PWM_K, 1)]).nextTiming true) ≠ 0) ∧
    (latchTest.Wf ∧ latchTest.hlt.map = [] ∧ latchTest.coreRun = true ∧ latchTest.pixOn = true ∧ latchTest.bst.latchRow = some 510 ∧ latchTest.get F.PWR_STATUS_REVERSING = 0 ∧ latchTest.mapState 2047 510 < 2) ∧
    ((inStep 4 2 3 (idle.put F.PWR_DOM_PIX 1)).Wf ∧ (inStep 4 2 3 (idle.put F.PWR_DOM_PIX 1)).get F.PWR_STATUS_STEP = 2 ∧ timeUp (inStep 4 2 3 (idle.put F.PWR_DOM_PIX 1)).pwr.stepTicks ((inStep 4 2 3 (idle.put F.PWR_DOM_PIX 1)).get F.PWR_TIMEOUT_START) = true ∧ (inStep 4 2 3 (idle.put F.PWR_DOM_PIX 1)).get F.PWR_STATUS_LATCHED = 0) ∧
    (lit2.get F.PWR_STATUS_STEP = 0 ∧ (4 : Word).toNat % 8 = lit2.get F.PWR_STATUS_STATE ∧ (¬ (5 < 4 ∨ 4 < 2)) ∧ jobRuns.nvmw.unit = none ∧ jobRuns.recd.cpLast = none) := 
  ⟨⟨by simp only [State.Wf, WfData, SparseWf]; decide +kernel, by simp only [State.writable]; decide +kernel, by decide +kernel⟩,
    ⟨by simp only [State.Wf, WfData, SparseWf]; decide +kernel, by simp only [State.writable]; decide +kernel, by decide +kernel⟩,
    ⟨by simp only [State.Wf, WfData, SparseWf]; decide +kernel, by simp only [State.writable]; decide +kernel, by simp only [State.writable]; decide +kernel, by decide +kernel⟩,
    ⟨by simp only [State.Wf, WfData, SparseWf]; decide +kernel, by simp only [State.writable]; decide +kernel, by decide +kernel⟩,
    ⟨by simp only [State.Wf, WfData, SparseWf]; decide +kernel, by simp only [State.writable]; decide +kernel, by decide +kernel⟩,
    ⟨by simp only [State.Wf, WfData, SparseWf]; decide +kernel, by simp only [State.writable]; decide +kernel, by decide +kernel⟩,
    ⟨by simp only [State.Wf, WfData, SparseWf]; decide +kernel, by simp only [State.writable]; decide +kernel, by decide +kernel⟩,
    ⟨by simp only [State.Wf, WfData, SparseWf]; decide +kernel, by simp only [State.writable]; decide +kernel, by decide +kernel⟩,
    ⟨by simp only [State.Wf, WfData, SparseWf]; decide +kernel, by simp only [State.writable]; decide +kernel, by decide +kernel⟩,
    ⟨by simp only [State.Wf, WfData, SparseWf]; decide +kernel, by decide +kernel⟩,
    ⟨by simp only [State.Wf, WfData, SparseWf]; decide +kernel, by decide +kernel⟩,
    ⟨by simp only [State.Wf, WfData, SparseWf]; decide +kernel, by decide +kernel⟩,
    ⟨by simp only [State.Wf, WfData, SparseWf]; decide +kernel, by decide +kernel⟩,
    ⟨by simp only [State.Wf, WfData, SparseWf]; decide +kernel, by decide +kernel⟩,
    ⟨by simp only [State.Wf, WfData, SparseWf]; decide +kernel, by decide +kernel⟩,
    by decide +kernel⟩

/-- A DORMANT entry, or another transition to `g`, is in step `n`. -/
def entering (g n : Nat) : State := inStep g n 3 (idle.put F.PWR_DOM_PIX 1)

theorem witness_DormantEntryAndWake :
    ((entering 3 4).Wf ∧ (entering 3 4).get F.PWR_STATUS_LATCHED = 0 ∧ (entering 3 4).aonOn = true ∧ (entering 3 4).stepReady (entering 3 4).step? = true ∧ (entering 3 4).get F.PWR_STATUS_STEP = 4 ∧ (entering 3 4).target ≠ 2 ∧ ((entering 3 4).put F.PWR_STATUS_REVERSING 1).get F.PWR_STATUS_REVERSING ≠ 0 ∧ ((entering 3 4).put F.PWR_STATUS_REVERSING 1).stepReady ((entering 3 4).put F.PWR_STATUS_REVERSING 1).step? = true) ∧
    ((entering 2 7).Wf ∧ (entering 2 7).stepReady (entering 2 7).step? = true ∧ (∀ n, n < 4 → (entering 2 7).jobActive n = false) ∧ (entering 2 8).stepReady (entering 2 8).step? = true ∧ (entering 2 9).stepReady (entering 2 9).step? = true ∧ (entering 2 9).get F.PWR_STATUS_STEP = 9) ∧
    ((entering 2 9).Wf ∧ SparseWf faultDefault (entering 2 9).flt.recs ∧ (entering 2 9).get F.PWR_STATUS_LATCHED = 0 ∧ (entering 2 9).aonOn = true ∧ timeUp (entering 2 9).pwr.stepTicks ((entering 2 9).get F.PWR_TIMEOUT_STEP) = true ∧ timeUp (entering 4 1).pwr.stepTicks ((entering 4 1).get F.PWR_TIMEOUT_STEP) = true ∧ (entering 4 1).get F.PWR_STATUS_STEP = 1) ∧
    (dormant.Wf ∧ dormant.wakeOn 7 = false ∧ (dormant.put F.PWR_WAKE_CVN 1).wakeOn 3 = true ∧ (dormant.put F.PWR_WAKE_CVN 1).power = 2 ∧ (dormant.put F.PWR_WAKE_CVN 1).step? = 0) ∧
    ((inStep 3 10 2 dormant).Wf ∧ (inStep 3 10 2 dormant).get F.PWR_STATUS_LATCHED = 0 ∧ (inStep 3 10 2 dormant).get F.PWR_STATUS_STEP = 10 ∧ (inStep 3 13 2 dormant).get F.PWR_STATUS_STEP = 13) ∧
    ((inStep 3 13 2 dormant).Wf ∧ SparseWf faultDefault (inStep 3 13 2 dormant).flt.recs ∧ 10 ≤ (inStep 3 13 2 dormant).step? ∧ (inStep 3 13 2 dormant).step? ≤ 13 ∧ timeUp (inStep 3 13 2 dormant).pwr.stepTicks 10 = true ∧ timeUp (inStep 3 12 2 dormant).pwr.stepTicks 400 = true ∧ (inStep 3 13 2 dormant).pwr.wakeRetried = false) ∧
    ((entering 2 4).stepReady (entering 2 4).step? = true ∧ (entering 2 4).target = 2 ∧ (entering 2 4).nvmw.unit = none ∧ (entering 2 4).recd.cpLast = none ∧ (entering 2 5).stepReady (entering 2 5).step? = true ∧ (entering 2 5).get F.PWR_STATUS_REVERSING = 0 ∧ (entering 2 6).stepReady (entering 2 6).step? = true ∧ (entering 2 6).lmc.scan = none ∧ (entering 2 6).get F.LMC_STATUS_BG_PHASE ≠ 1) ∧
    (((entering 2 5).put F.PWR_STATUS_REVERSING 1).get F.PWR_STATUS_REVERSING ≠ 0 ∧ ((entering 2 5).put F.PWR_STATUS_REVERSING 1).stepReady 5 = true) ∧
    (({ inStep 3 10 2 dormant with pwr := { (inStep 3 10 2 dormant).pwr with wakeRetried := true } } : State).pwr.wakeRetried = true ∧ ({ inStep 3 10 2 dormant with pwr := { (inStep 3 10 2 dormant).pwr with wakeRetried := true } } : State).step? = 10) := 
  ⟨⟨by simp only [State.Wf, WfData, SparseWf]; decide +kernel, by decide +kernel⟩,
    ⟨by simp only [State.Wf, WfData, SparseWf]; decide +kernel, by decide +kernel⟩,
    ⟨by simp only [State.Wf, WfData, SparseWf]; decide +kernel, by simp only [SparseWf]; decide +kernel, by decide +kernel⟩,
    ⟨by simp only [State.Wf, WfData, SparseWf]; decide +kernel, by decide +kernel⟩,
    ⟨by simp only [State.Wf, WfData, SparseWf]; decide +kernel, by decide +kernel⟩,
    ⟨by simp only [State.Wf, WfData, SparseWf]; decide +kernel, by simp only [SparseWf]; decide +kernel, by decide +kernel⟩,
    by decide +kernel⟩

/-- Supplies and RESET_N as given. -/
def supplied (resetN vddOk : Bool) (s : State) : State := { s with nvm := [(0x08000005, 5)], pwr := { s.pwr with resetN := resetN, vddOk := vddOk } }

/-- BOOT is in step `n`, its time over. -/
def bootAt (n : Nat) : State := { idle.put F.PWR_STATUS_STATE 1 with cfg := { idle.cfg with bootStep := n, bootTicks := 60000 } }

/-- An image header of generation `gen`. -/
def header (gen : Nat) : List Byte :=
  let wd := fun n : Nat => leBytes (BitVec.ofNat 32 n)
  leBytes imgMagic ++ wd (65536 + gen) ++ wd 48 ++ wd 0 ++ wd 0 ++ wd 0 ++ wd 0 ++ wd 0
def slotA (gen : Nat) : State := { bootAt 3 with cfg := { (bootAt 3).cfg with hdrA := some (header gen) } }

theorem witness_ResetAndBoot :
    ((supplied true true lit2).Wf ∧ (supplied true true lit2).power ≠ 0 ∧ (supplied true true lit2).saf.held = false ∧ (supplied true true lit2).pwr.resetN = true ∧ (supplied true true lit2).pwr.vddOk = true ∧ (supplied true false lit2).power ≠ 0 ∧ (supplied true false lit2).pwr.vddOk = false) ∧
    ((supplied false true State.reset).Wf ∧ (supplied false true State.reset).pwr.resetN = false ∧ (supplied false true State.reset).pwr.vddOk = true ∧ (supplied false true State.reset).nvmw.unit = none ∧ (supplied true false State.reset).pwr.vddOk = false ∧ (supplied false false State.reset).pwr.resetN = false) ∧
    ((bootAt 1).Wf ∧ SparseWf faultDefault (bootAt 1).flt.recs ∧ (bootAt 1).frozen = false ∧ (bootAt 1).power = 1 ∧ (bootAt 1).cfg.bootStep = 1) ∧
    ((bootAt 2).Wf ∧ SparseWf faultDefault (bootAt 2).flt.recs ∧ (bootAt 2).frozen = false ∧ (bootAt 2).power = 1 ∧ (bootAt 2).cfg.bootStep = 2 ∧ headerOk (header 7) = true ∧ headerOk [] = false ∧ timeUp (bootAt 2).cfg.bootTicks 1000 = true) ∧
    ((slotA 65535).Wf ∧ (slotA 65535).power = 1 ∧ (slotA 65535).cfg.bootStep = 3 ∧ (slotA 65535).cfg.hdrA = some (header 65535) ∧ imgGen (header 7) < imgGen ((header 65535).take 32)) ∧
    ((bootAt 3).Wf ∧ (bootAt 3).cfg.bootStep = 3 ∧ (bootAt 3).cfg.hdrA = none ∧ (bootAt 3).cfg.hdrB = none) ∧
    ((bootAt 6).Wf ∧ (bootAt 6).power = 1 ∧ (bootAt 6).cfg.bootStep = 6 ∧ (bootAt 6).cfg.image.isNone = true) := 
  ⟨⟨by simp only [State.Wf, WfData, SparseWf]; decide +kernel, by decide +kernel⟩,
    ⟨by simp only [State.Wf, WfData, SparseWf]; decide +kernel, by decide +kernel⟩,
    ⟨by simp only [State.Wf, WfData, SparseWf]; decide +kernel, by simp only [SparseWf]; decide +kernel, by decide +kernel⟩,
    ⟨by simp only [State.Wf, WfData, SparseWf]; decide +kernel, by simp only [SparseWf]; decide +kernel, by decide +kernel⟩,
    ⟨by simp only [State.Wf, WfData, SparseWf]; decide +kernel, by decide +kernel⟩,
    ⟨by simp only [State.Wf, WfData, SparseWf]; decide +kernel, by decide +kernel⟩,
    ⟨by simp only [State.Wf, WfData, SparseWf]; decide +kernel, by decide +kernel⟩⟩

/-- The runs of bad ticks of the rails. -/
def rails (vdd vpix vdda vddio : Nat) : State :=
  { lit2 with pwr := { lit2.pwr with vddRun := vdd, vpixRun := vpix, vddaRun := vdda, vddioRun := vddio } }
def linksUp : State := puts lit2 [(F.LNK_U_STATUS_STATE, 7), (F.LNK_D_STATUS_STATE, 7)]


theorem witness_SuppliesAndFreeze :
    (lit2.Wf ∧ lit2.pllWanted = true ∧ lit2.get F.PWR_DOM_PLL = 1 ∧ (lit2.put F.PWR_DOM_PLL 0).pllWanted = true ∧ (lit2.put F.PWR_DOM_PLL 0).get F.PWR_DOM_PLL = 0) ∧
    (lit2.Wf ∧ ({ lit2 with pwr := { lit2.pwr with vpixLost := true, vpixGood := 2 } } : State).Wf ∧ lit2.get F.PWR_DOM_PIX = 1 ∧ ({ lit2 with pwr := { lit2.pwr with vpixLost := true, vpixGood := 2 } } : State).pwr.vpixLost = true ∧ ({ lit2 with pwr := { lit2.pwr with vpixLost := true, vpixGood := 2 } } : State).pwr.vpixGood = 2 ∧ ({ lit2 with pwr := { lit2.pwr with vpixLost := true, vpixGood := 1 } } : State).pwr.vpixGood ≠ 2) ∧
    (linksUp.Wf ∧ linksUp.pwr.vddaLost = false ∧ linksUp.get F.LNK_U_STATUS_STATE = 7 ∧ linksUp.get F.LNK_D_STATUS_STATE = 7) ∧
    ((inLife 1 lit2).Wf ∧ (inLife 1 lit2).coreOn = true ∧ (inLife 1 lit2).frozen = false ∧ (inLife 1 lit2).cfg.freezeOff = false ∧ (inLife 1 lit2).mayFreeze = true) ∧
    ((inLife 4 lit2).Wf ∧ (inLife 4 lit2).coreOn = true ∧ (inLife 4 lit2).frozen = false ∧ (inLife 4 lit2).cfg.freezeOff = false ∧ (inLife 4 lit2).mayFreeze = false) ∧
    ((rails 2 0 1 3).aonOn = true ∧ (rails 2 0 1 3).pwr.vddRun = 2 ∧ (rails 2 0 1 3).pwr.vddaRun ≠ 2 ∧ (rails 0 2 0 0).pwr.vpixRun = 2 ∧ (rails 0 0 2 0).pwr.vddaRun = 2 ∧ (rails 0 0 0 2).pwr.vddioRun = 2) := 
  ⟨⟨by simp only [State.Wf, WfData, SparseWf]; decide +kernel, by decide +kernel⟩,
    ⟨by simp only [State.Wf, WfData, SparseWf]; decide +kernel, by simp only [State.Wf, WfData, SparseWf]; decide +kernel, by decide +kernel⟩,
    ⟨by simp only [State.Wf, WfData, SparseWf]; decide +kernel, by decide +kernel⟩,
    ⟨by simp only [State.Wf, WfData, SparseWf]; decide +kernel, by decide +kernel⟩,
    ⟨by simp only [State.Wf, WfData, SparseWf]; decide +kernel, by decide +kernel⟩,
    by decide +kernel⟩

/-- Slot `k` holds a job of type `ty` in state `st`. -/
def slot (k st ty : Nat) (s : State) : State := puts s [(F.PWR_JOBn_STATUS_STATE k, st), (F.PWR_JOBn_STATUS_TYPE k, ty)]

/-- Operands of jobs that are not refused. -/
def scanArgs : State := puts lit2 [(F.CHK_ADDR_ADDR, 0x08000000), (F.CHK_LEN_LEN, 100)]
def nvmArgs : State := puts lit2 [(F.CFG_NVM_SRC_VALUE, 0x01000000), (F.CFG_NVM_DST_VALUE, 0x08000000), (F.CFG_NVM_LEN_VALUE, 2048)]
def postArgs : State := idle.put F.BST_RUN_MODE 1
def calArgs : State := (lit2.put F.LNK_U_STATUS_STATE 7).setReg A.CAL_RUN 1
def loadArgs : State := puts lit2 [(F.CFG_IMG_SRC, 1), (F.CFG_IMG_ADDR_ADDR, 0x1000)]

/-- An image without sections; it is staged. -/
def bareImage : Image := { hdr := List.replicate 32 0, sects := [] }
def stagedImage : State := { lit2 with cfg := { lit2.cfg with staged := some bareImage, stagedSrc := 1 } }
def restructuring : State := { idle with cfg := { idle.cfg with staged := some bareImage, stagedSrc := 1 } }

/-- A suspended CAL_RUN in slot 3 stands at its PRECHARGE item, with the raster stopped. -/
def darkJob : State :=
  let s := slot 3 2 4 lit2
  { s with ras := { s.ras with running := false }, cal := { s.cal with run := some { item := 1, auto := false } } }

theorem witness_JobCommandsFollowTheTable :
    (darkJob.Wf ∧ darkJob.writable (A.PWR_JOBn_CMD (BitVec.toNat (3#2))) ∧ darkJob.jobState 3 = 2 ∧ darkJob.jobType 3 = 4 ∧ (darkJob.cal.run.map fun it => (it.item, it.auto)) = some (1, false) ∧ darkJob.ras.running = false ∧ darkJob.findJob 4 = some 3) ∧
    ((slot 3 1 5 lit2).Wf ∧ (slot 3 1 5 lit2).writable (A.PWR_JOBn_CMD (BitVec.toNat (3#2))) ∧ (slot 3 1 5 lit2).jobActive 3 = true ∧ (slot 3 1 5 lit2).jobState 3 = 1 ∧ (slot 3 1 5 lit2).jobType 3 ∈ [1, 2, 3, 4, 5] ∧ (slot 3 1 9 lit2).jobType 3 = 9 ∧ (slot 3 2 5 lit2).jobState 3 = 2 ∧ (slot 3 2 5 lit2).jobType 3 ≠ 3 ∧ (slot 3 1 5 lit2).nvmw.unit = none ∧ (slot 3 1 5 lit2).recd.cpLast = none) ∧
    (lit2.Wf ∧ lit2.writable (A.PWR_JOBn_CMD 3) ∧ (∀ j, j < 4 → lit2.jobActive j = false) ∧ lit2.awake = true ∧ (slot 0 1 9 lit2).jobActive 3 = false ∧ (slot 0 1 9 lit2).jobActive 0 = true ∧ (slot 0 1 9 lit2).jobType 0 = 9) ∧
    (dormant.Wf ∧ dormant.writable (A.PWR_JOBn_CMD 3) ∧ (∀ j, j < 4 → dormant.jobActive j = false) ∧ dormant.awake = false ∧ dormant.lmc.scan = none) ∧
    (scanArgs.Wf ∧ scanArgs.writable (A.PWR_JOBn_CMD 3) ∧ scanArgs.scanRefusal = 0 ∧ scanArgs.get F.CHK_LEN_LEN ≠ 0 ∧ (puts lit2 [(F.CHK_ADDR_ADDR, 0x00FFFFFF), (F.CHK_LEN_LEN, 5)]).scanRefusal ≠ 0) ∧
    (nvmArgs.Wf ∧ nvmArgs.writable (A.PWR_JOBn_CMD 3) ∧ nvmArgs.nvRefusal (nvmArgs.get F.CFG_NVM_SRC_VALUE) (nvmArgs.get F.CFG_NVM_DST_VALUE) (nvmArgs.get F.CFG_NVM_LEN_VALUE) = 0 ∧ nvmArgs.get F.CFG_NVM_LEN_VALUE ≠ 0) ∧
    (postArgs.Wf ∧ postArgs.writable (A.PWR_JOBn_CMD 3) ∧ postArgs.get F.BST_RUN_MODE = 1 ∧ postArgs.lcOpen = true ∧ postArgs.power = 3 ∧ postArgs.post = false ∧ (inLife 2 postArgs).lcOpen = false) ∧
    (calArgs.Wf ∧ calArgs.writable (A.PWR_JOBn_CMD 3) ∧ (calArgs.reg A.CAL_RUN).toNat % 16 = 1 ∧ calArgs.portU0 = true ∧ calArgs.cal.run = none) ∧
    (loadArgs.Wf ∧ loadArgs.writable (A.PWR_JOBn_CMD 3) ∧ loadArgs.loadRefusal = 0 ∧ lit2.loadRefusal ≠ 0 ∧ lit2.loadRefusal < 32) ∧
    ((stagedImage.put F.CFG_STATUS_LOADED 1).Wf ∧ (stagedImage.put F.CFG_STATUS_LOADED 1).rsRefusal = 0 ∧ (stagedImage.put F.CFG_STATUS_LOADED 1).get F.CFG_STATUS_LOADED = 1 ∧ (stagedImage.put F.CFG_STATUS_LOADED 1).ras.running = true ∧ (stagedImage.put F.CFG_STATUS_LOADED 1).saf.held = false) ∧
    (restructuring.Wf ∧ restructuring.writable (A.PWR_JOBn_CMD 3) ∧ restructuring.rsRefusal = 0 ∧ restructuring.ras.running = false) ∧
    ((lit2.put F.HLT_REBUILD_MODE 2).Wf ∧ (lit2.put F.HLT_REBUILD_MODE 2).get F.HLT_REBUILD_MODE = 2 ∧ lit2.get F.REC_STATUS_CP_RUN = 0) := 
  ⟨⟨by simp only [State.Wf, WfData, SparseWf]; decide +kernel, by simp only [State.writable]; decide +kernel, by decide +kernel⟩,
    ⟨by simp only [State.Wf, WfData, SparseWf]; decide +kernel, by simp only [State.writable]; decide +kernel, by decide +kernel⟩,
    ⟨by simp only [State.Wf, WfData, SparseWf]; decide +kernel, by simp only [State.writable]; decide +kernel, by decide +kernel⟩,
    ⟨by simp only [State.Wf, WfData, SparseWf]; decide +kernel, by simp only [State.writable]; decide +kernel, by decide +kernel⟩,
    ⟨by simp only [State.Wf, WfData, SparseWf]; decide +kernel, by simp only [State.writable]; decide +kernel, by decide +kernel⟩,
    ⟨by simp only [State.Wf, WfData, SparseWf]; decide +kernel, by simp only [State.writable]; decide +kernel, by decide +kernel⟩,
    ⟨by simp only [State.Wf, WfData, SparseWf]; decide +kernel, by simp only [State.writable]; decide +kernel, by decide +kernel⟩,
    ⟨by simp only [State.Wf, WfData, SparseWf]; decide +kernel, by simp only [State.writable]; decide +kernel, by decide +kernel⟩,
    ⟨by simp only [State.Wf, WfData, SparseWf]; decide +kernel, by simp only [State.writable]; decide +kernel, by decide +kernel⟩,
    ⟨by simp only [State.Wf, WfData, SparseWf]; decide +kernel, by decide +kernel⟩,
    ⟨by simp only [State.Wf, WfData, SparseWf]; decide +kernel, by simp only [State.writable]; decide +kernel, by decide +kernel⟩,
    ⟨by simp only [State.Wf, WfData, SparseWf]; decide +kernel, by decide +kernel⟩⟩

/-- A suspension is asked for of the job in slot 2. -/
def suspending (ty : Nat) : State :=
  let s := slot 2 1 ty lit2
  { s with pwr := { s.pwr with suspend := 4 }, lmc := { s.lmc with scan := some { addr := 0x01000000, len := 10000, seed := 0, pos := 0, run := 5 } } }

/-- A unit write is due, or under way; the last unit of an NVM_WRITE. -/
def writer (u : Option (Nat × List Byte)) : State :=
  { lit2.put F.THM_STATUS_NVM_OK 1 with
    nvmw := { lit2.nvmw with unit := u, tasks := [{ owner := 7, units := [(0x08000040, [1, 2, 3]), (0x08000000, [7])] }] } }
def lastUnit : State :=
  { slot 2 1 2 lit2 with nvmw := { lit2.nvmw with unit := some (0x083FFFFF, [7]), tasks := [{ owner := 2, units := [(0x083FFFFF, [7])] }] } }

/-- A raise of the generation floor waits, or its record is under way. -/
def flooring (u : Option (Nat × List Byte)) : State :=
  { lit2.put F.THM_STATUS_NVM_OK 1 with
    nvmw := { lit2.nvmw with unit := u, tasks := [{ owner := 0, units := u.toList, floor := 7 }] } }

/-- An image is read for staging; its bytes. -/
def loading : State := let s := slot 2 1 5 lit2; { s with cfg := { s.cfg with loadSrc := 1, loadTicks := 50000 } }
def imageBytes : List Byte := header 77 ++ cmac lit2.kAuth (header 77)

/-- A restructure is due at once, or at the commit instant, or has waited 8 instants. -/
def swapNow : State := let s := slot 2 1 6 stagedImage; { s with cfg := { s.cfg with rsNow := true } }
def swapDue : State :=
  let s := puts (slot 2 1 6 stagedImage) [(F.CFG_STATUS_LOADED, 1), (F.CFG_RS_STATUS_PHASE, 1), (F.LUM_STATE_SOURCE, 1)]
  { s with ras := { s.ras with line := 512 } }
def gaveUp : State := { swapDue with cfg := { swapDue.cfg with rsInstants := 8 } }

theorem witness_JobWorkAndImages :
    ((suspending 1).Wf ∧ (suspending 1).pwr.suspend.getLsbD (BitVec.toNat (2#2)) = true ∧ (suspending 1).jobState 2 = 1 ∧ (suspending 1).jobType 2 = 1 ∧ (suspending 1).lmc.scan = some { addr := 0x01000000, len := 10000, seed := 0, pos := 0, run := 5 } ∧ 8192 ≤ 10000 ∧ (0x01000000 + 8192) % 4096 = 0) ∧
    ((suspending 5).Wf ∧ (suspending 5).jobState 2 = 1 ∧ (suspending 5).jobType 2 = 5) ∧
    ((writer none).Wf ∧ (writer none).nvmw.tasks = { owner := 7, units := [(0x08000040, [1, 2, 3]), (0x08000000, [7])] } :: [] ∧ (writer none).nvmw.unit = none ∧ (writer none).coreRun = true ∧ (writer none).get F.THM_STATUS_NVM_OK = 1 ∧ (writer none).taskHeld { owner := 7, units := [(0x08000040, [1, 2, 3]), (0x08000000, [7])] } = false) ∧
    ((flooring none).Wf ∧ (flooring (some (lcRecordAddr 1, [7]))).Wf ∧ (flooring none).nvmw.tasks = { owner := 0, units := [], floor := 7 } :: [] ∧ (flooring none).nvmw.unit = none ∧ (flooring none).coreRun = true ∧ (flooring none).get F.THM_STATUS_NVM_OK = 1 ∧ (flooring (some (lcRecordAddr 1, [7]))).nvmw.tasks = { owner := 0, units := (lcRecordAddr 1, [7]) :: [], floor := 7 } :: [] ∧ (flooring (some (lcRecordAddr 1, [7]))).nvmw.unit = some (lcRecordAddr 1, [7])) ∧
    ((writer (some (0x08000040, [1, 2, 3]))).Wf ∧ (writer (some (0x08000040, [1, 2, 3]))).nvmw.unit = some (0x08000040, [1, 2, 3])) ∧
    (lastUnit.Wf ∧ lastUnit.nvmw.tasks = { owner := 2, units := (0x083FFFFF, [7]) :: [] } :: [] ∧ lastUnit.nvmw.unit = some (0x083FFFFF, [7]) ∧ lastUnit.cfg.nvLen ≤ lastUnit.cfg.nvPos ∧ lastUnit.findJob 2 = some 2) ∧
    (loading.Wf ∧ loading.coreRun = true ∧ loading.findJob 5 = some 2 ∧ loading.findRunning 5 = some 2 ∧ loading.cfg.loadSrc ≠ 3 ∧ loading.lc ≠ 4 ∧ 50000 ≤ loading.cfg.loadTicks ∧ (match imgCheck loading.kAuth loading.kEnc (loading.get F.CFG_FLOOR_FLOOR) [1, 2, 3] with | .error r => decide (r < 32) | .ok _ => false) = true) ∧
    (lit2.Wf ∧ lit2.writable A.CFG_IMG ∧ lit2.findJob 6 = none) ∧
    (swapNow.Wf ∧ swapNow.coreRun = true ∧ swapNow.findRunning 6 = some 2 ∧ swapNow.findJob 6 = some 2 ∧ swapNow.cfg.staged = some bareImage ∧ swapNow.cfg.rsNow = true) ∧
    (swapDue.Wf ∧ swapDue.findRunning 6 = some 2 ∧ swapDue.blankDue = true ∧ swapDue.rsDue = true) ∧
    (gaveUp.Wf ∧ gaveUp.findJob 6 = some 2 ∧ gaveUp.get F.CFG_RS_STATUS_PHASE = 1 ∧ 8 ≤ gaveUp.cfg.rsInstants ∧ gaveUp.saf.held = false) := 
  ⟨⟨by simp only [State.Wf, WfData, SparseWf]; decide +kernel, by decide +kernel⟩,
    ⟨by simp only [State.Wf, WfData, SparseWf]; decide +kernel, by decide +kernel⟩,
    ⟨by simp only [State.Wf, WfData, SparseWf]; decide +kernel, by decide +kernel⟩,
    ⟨by simp only [State.Wf, WfData, SparseWf]; decide +kernel, by simp only [State.Wf, WfData, SparseWf]; decide +kernel, by decide +kernel⟩,
    ⟨by simp only [State.Wf, WfData, SparseWf]; decide +kernel, by decide +kernel⟩,
    ⟨by simp only [State.Wf, WfData, SparseWf]; decide +kernel, by decide +kernel⟩,
    ⟨by simp only [State.Wf, WfData, SparseWf]; decide +kernel, by decide +kernel⟩,
    ⟨by simp only [State.Wf, WfData, SparseWf]; decide +kernel, by simp only [State.writable]; decide +kernel, by decide +kernel⟩,
    ⟨by simp only [State.Wf, WfData, SparseWf]; decide +kernel, by decide +kernel⟩,
    ⟨by simp only [State.Wf, WfData, SparseWf]; decide +kernel, by decide +kernel⟩,
    ⟨by simp only [State.Wf, WfData, SparseWf]; decide +kernel, by decide +kernel⟩⟩

/-- A life-cycle move from `st` to `tg` with `fu` fuses blown. -/
def fusing (st tg fu : Nat) : State :=
  let s := slot 2 1 8 (puts lit2 [(F.CFG_LC_STATE, st), (F.THM_STATUS_NVM_OK, 1)])
  { s with cfg := { s.cfg with lcTarget := tg, fuses := fu }, nvmw := { s.nvmw with tasks := [{ owner := 8, units := [] }] } }

/-- The power-on self-test is in group `g`. -/
def selfTest (g : Nat) : State := puts lit2 [(F.BST_STATUS_POST, 1), (F.BST_STATUS_GROUP, g), (F.LMC_STATUS_POST, 1)]

theorem witness_KeysLifeCycleSelfTest :
    ((inLife 0 lit2).writable (A.CFG_KEYn 7) ∧ (inLife 1 lit2).writable (A.CFG_KEYn 7) ∧ (inLife 0 lit2).lc = 0 ∧ (inLife 1 lit2).lc ≠ 0) ∧
    ((fusing 1 4 1).Wf ∧ SparseWf faultDefault (fusing 1 4 1).flt.recs ∧ (fusing 1 4 1).nvmw.tasks = { owner := 8, units := [] } :: [] ∧ (fusing 1 4 1).coreRun = true ∧ (fusing 1 4 1).get F.THM_STATUS_NVM_OK = 1 ∧ (fusing 1 4 1).nvmw.unit = none ∧ (fusing 1 4 1).findJob 8 = some 2 ∧ (¬ ((fusing 1 4 1).lc = 0 ∧ (fusing 1 4 1).cfg.lcTarget = 1)) ∧ (fusing 1 4 1).cfg.fuses + 1 < (fusing 1 4 1).cfg.lcTarget) ∧
    ((fusing 2 3 2).Wf ∧ (fusing 2 3 2).cfg.fuses + 1 = (fusing 2 3 2).cfg.lcTarget ∧ (fusing 2 3 2).cfg.lcTarget < 4 ∧ (fusing 3 4 3).cfg.fuses = 3 ∧ (fusing 3 4 3).cfg.lcTarget = 4) ∧
    ((fusing 0 1 0).Wf ∧ (fusing 0 1 0).lc = 0 ∧ (fusing 0 1 0).cfg.lcTarget = 1 ∧ (fusing 0 1 0).cfg.fuses = 0) ∧
    ((selfTest 4).Wf ∧ SparseWf faultDefault (selfTest 4).flt.recs ∧ (selfTest 4).post = true ∧ (selfTest 4).coreRun = true ∧ (selfTest 4).bst.jobPost = false ∧ (selfTest 4).bst.stopPost = false ∧ (selfTest 4).get F.BST_STATUS_GROUP = 4) ∧
    ((selfTest 5).Wf ∧ (selfTest 5).post = true ∧ (selfTest 5).coreRun = true ∧ (selfTest 5).get F.BST_STATUS_GROUP = 5) := 
  ⟨⟨by simp only [State.writable]; decide +kernel, by simp only [State.writable]; decide +kernel, by decide +kernel⟩,
    ⟨by simp only [State.Wf, WfData, SparseWf]; decide +kernel, by simp only [SparseWf]; decide +kernel, by decide +kernel⟩,
    ⟨by simp only [State.Wf, WfData, SparseWf]; decide +kernel, by decide +kernel⟩,
    ⟨by simp only [State.Wf, WfData, SparseWf]; decide +kernel, by decide +kernel⟩,
    ⟨by simp only [State.Wf, WfData, SparseWf]; decide +kernel, by simp only [SparseWf]; decide +kernel, by decide +kernel⟩,
    ⟨by simp only [State.Wf, WfData, SparseWf]; decide +kernel, by decide +kernel⟩⟩

theorem witness_JobWorkAndImages_image :
    ∃ m, loading.findJob 5 = some 2 ∧ loading.lc ≠ 4 ∧
      imgCheck loading.kAuth loading.kEnc (loading.get F.CFG_FLOOR_FLOOR) imageBytes = .ok m :=
  ⟨_, by decide +kernel, by decide +kernel,
    imgCheck_bare _ _ _ _ (by decide +kernel) (by decide +kernel) (by decide +kernel) (by decide +kernel) (by decide +kernel)
      (cmac_length _ _ (by decide +kernel))⟩

/-- LIT with port `d` in state `st`, its registers `p`. -/
def portAt (d : Bool) (st : Nat) (p : Port) : State := (lit2.put (portField d F.LNK_U_STATUS_STATE) st).setPort d p

/-- Port `d` in training step `st`, with `run` good sets and `far` sets of the far end before. -/
def training (d : Bool) (st run far : Nat) : State :=
  portAt d st { lit2.port? d with run := run, farRun := far, ticks := 9, eq := if d then [0] else [0, 0, 0, 0] }

/-- The lanes of a training set at port `d`, all alike. -/
def lanes (d : Bool) (l : TsLane) : List TsLane :=
  if d then [{ l with lane := 0 }] else [{ l with lane := 3 }, { l with lane := 2 }, { l with lane := 1 }, { l with lane := 0 }]

/-- Port `d` in the given state with `n` ticks behind it. -/
def waiting (d : Bool) (st n : Nat) : State := portAt d st { lit2.port? d with ticks := n }

/-- Port `d` is leaving L1 with `n` good TS2 sets. -/
def exiting (d : Bool) (n : Nat) : State :=
  (portAt d 7 { lit2.port? d with run := n, exiting := true, ticks := 1 }).put (portField d F.LNK_U_STATUS_LPS) 1

theorem witness_PortsTrain :
    (((waiting true 0 10).put F.LNK_D_CTRL_EN 1).Wf ∧ ((waiting true 0 10).put F.LNK_D_CTRL_EN 1).lnkOn = true ∧ ((waiting true 0 10).put F.LNK_D_CTRL_EN 1).pwr.vddaLost = false ∧ ((waiting true 0 10).put F.LNK_D_CTRL_EN 1).pst true = 0 ∧ 10 ≤ (((waiting true 0 10).put F.LNK_D_CTRL_EN 1).port? true).ticks ∧ ((waiting true 0 10).put F.LNK_D_CTRL_EN 1).pget true F.LNK_U_CTRL_EN = 1 ∧ ((waiting true 0 10).put F.LNK_D_CTRL_EN 0).pget true F.LNK_U_CTRL_EN = 0) ∧
    ((waiting false 1 10).Wf ∧ (waiting false 1 10).lnkOn = true ∧ (waiting false 1 10).pwr.vddaLost = false ∧ (waiting false 1 10).pst false = 1 ∧ 10 ≤ ((waiting false 1 10).port? false).ticks) ∧
    ((training false 2 7 0).Wf ∧ SparseWf faultDefault (training false 2 7 0).flt.recs ∧ (training false 2 7 0).lnkOn = true ∧ (training false 2 7 0).injArmed 3 = false ∧ (lanes false {}).length = (if false then 1 else 4) ∧ (lanes false {}).all (fun l => !l.codeError) = true ∧ (training false 2 7 0).pst false = 2 ∧ ((training false 2 7 0).port? false).short = false ∧ 7 ≤ ((training false 2 7 0).port? false).run ∧ ((training false 2 6 0).port? false).run < 7) ∧
    ((training true 3 7 0).Wf ∧ (training true 3 7 0).pst true = 3 ∧ polOf (lanes true {}) = (training true 3 7 0).pget true F.LNK_U_STATUS_POL ∧ 7 ≤ ((training true 3 7 0).port? true).run ∧ polOf (lanes true { inverted := true }) ≠ (training true 3 7 0).pget true F.LNK_U_STATUS_POL ∧ polOf (lanes true { inverted := true }) < 16) ∧
    ((training false 4 0 7).Wf ∧ (training false 4 0 7).injArmed 3 = false ∧ (training false 4 0 7).pst false = 4 ∧ (if false then some false else laneMap (lanes false { locked := true })) = some true ∧ (∀ l ∈ lanes false { locked := true }, l.locked = true) ∧ 7 ≤ ((training false 4 0 7).port? false).farRun ∧ ((training false 4 0 6).port? false).farRun < 7 ∧ laneMap [({} : TsLane), { lane := 0 }, { lane := 1 }, { lane := 2 }] = none) ∧
    ((training true 5 0 7).Wf ∧ (training true 5 0 7).pst true = 5 ∧ ((training true 5 0 7).pget true F.LNK_U_CTRL_EQ_FIXED = 1 ∨ ∀ l ∈ lanes true { eyeOk := true, eqDone := true }, l.eyeOk = true) ∧ ((training true 5 0 7).port? true).eq.length = (lanes true { eyeOk := true, eqDone := true }).length ∧ (∀ l ∈ lanes true { eyeOk := true, eqDone := true }, l.eqDone = true) ∧ 7 ≤ ((training true 5 0 7).port? true).farRun) ∧
    ((training true 7 0 7).Wf ∧ (training true 7 0 7).lnkOn = true ∧ (training true 7 0 7).pst true = 7 ∧ (training true 7 0 7).lps true ≠ 2 ∧ 7 ≤ ((training true 7 0 7).port? true).farRun ∧ ((training true 7 0 6).port? true).farRun < 7 ∧ (exiting false 3).lps false ≠ 2 ∧ (exiting false 3).injArmed 3 = false) ∧
    ((training false 5 7 7).Wf ∧ (training false 5 7 7).injArmed 3 = false ∧ (training false 5 7 7).pst false ∈ [2, 3, 4, 5] ∧ ((training false 5 7 7).port? false).short = false ∧ ((lanes false { codeError := true }).countP fun l => l.codeError) ≠ 0) ∧
    ((training false 6 7 7).Wf ∧ (lanes false { ready := true }).all (fun l => !l.codeError) = true ∧ (∀ l ∈ lanes false { ready := true }, l.ready = true) ∧ (training false 6 7 7).injArmed 3 = false ∧ (training false 6 7 7).pst false = 6 ∧ ((training false 6 7 7).port? false).short = false ∧ 7 ≤ ((training false 6 7 7).port? false).run ∧ 7 ≤ ((training false 6 7 7).port? false).farRun ∧ ((training false 6 7 6).port? false).farRun < 7 ∧ 32 ≤ 32 ∧ 32 < 33) ∧
    ((exiting true 15).Wf ∧ (exiting true 15).pst true = 7 ∧ (exiting true 15).lps true = 1 ∧ ((exiting true 15).port? true).exiting = true ∧ 15 ≤ ((exiting true 15).port? true).run ∧ ((exiting true 14).port? true).run < 15) ∧
    ((waiting true 2 1000).Wf ∧ SparseWf faultDefault (waiting true 2 1000).flt.recs ∧ (waiting true 2 1000).lnkOn = true ∧ ((waiting true 2 1000).port? true).short = false ∧ (waiting true 2 1000).pst true = 2 ∧ 1000 ≤ ((waiting true 2 1000).port? true).ticks) ∧
    ((puts (training true 5 0 0) [(F.LNK_D_FIRn_PRE 1, 8), (F.LNK_D_FIRn_POST 1, 16)]).Wf ∧ (puts (training true 5 0 0) [(F.LNK_D_FIRn_PRE 1, 8), (F.LNK_D_FIRn_POST 1, 16)]).lnkOn = true ∧ (puts (training true 5 0 0) [(F.LNK_D_FIRn_PRE 1, 8), (F.LNK_D_FIRn_POST 1, 16)]).pst true = 5 ∧ (puts (training true 5 0 0) [(F.LNK_D_FIRn_PRE 1, 8), (F.LNK_D_FIRn_POST 1, 16)]).get F.LNK_D_CTRL_EQ_FIXED = 0 ∧ [(0x10 : Word), 5, 0xA, 0][1]? = some 5 ∧ (puts (training true 5 0 0) [(F.LNK_D_FIRn_PRE 1, 8), (F.LNK_D_FIRn_POST 1, 16)]).get (F.LNK_D_FIRn_PRE 1) ≤ 8 ∧ (puts (training true 5 0 0) [(F.LNK_D_FIRn_PRE 1, 8), (F.LNK_D_FIRn_POST 1, 16)]).get (F.LNK_D_FIRn_POST 1) ≤ 16) ∧
    ((waiting false 5 1999).pst false = 5 ∧ ((waiting false 5 1999).port? false).ticks < 2000 ∧ (waiting false 6 100).pst false ∈ [3, 4, 6] ∧ 100 ≤ ((waiting false 6 100).port? false).ticks) := 
  ⟨⟨by simp only [State.Wf, WfData, SparseWf]; decide +kernel, by decide +kernel⟩,
    ⟨by simp only [State.Wf, WfData, SparseWf]; decide +kernel, by decide +kernel⟩,
    ⟨by simp only [State.Wf, WfData, SparseWf]; decide +kernel, by simp only [SparseWf]; decide +kernel, by decide +kernel⟩,
    ⟨by simp only [State.Wf, WfData, SparseWf]; decide +kernel, by decide +kernel⟩,
    ⟨by simp only [State.Wf, WfData, SparseWf]; decide +kernel, by decide +kernel⟩,
    ⟨by simp only [State.Wf, WfData, SparseWf]; decide +kernel, by decide +kernel⟩,
    ⟨by simp only [State.Wf, WfData, SparseWf]; decide +kernel, by decide +kernel⟩,
    ⟨by simp only [State.Wf, WfData, SparseWf]; decide +kernel, by decide +kernel⟩,
    ⟨by simp only [State.Wf, WfData, SparseWf]; decide +kernel, by decide +kernel⟩,
    ⟨by simp only [State.Wf, WfData, SparseWf]; decide +kernel, by decide +kernel⟩,
    ⟨by simp only [State.Wf, WfData, SparseWf]; decide +kernel, by simp only [SparseWf]; decide +kernel, by decide +kernel⟩,
    ⟨by simp only [State.Wf, WfData, SparseWf]; decide +kernel, by decide +kernel⟩,
    by decide +kernel⟩

/-- Port `d` is ACTIVE with packets in both buffers. -/
def carrying (d : Bool) : State :=
  let s := portAt d 7 { lit2.port? d with ticks := 10, lastSeq := 77, codeErrors := 5 }
  { s.put (portField d F.LNK_U_ERR_ERR_LIMIT) 8 with
    lnk := { s.lnk with ret := [{ type := 1, id := 0, seq := 3, payload := [] }], replay := [{ type := 1, id := 0, seq := 3, payload := [] }] } }

/-- D has been idle for 10 ticks and has asked for L1. -/
def asking : State := (portAt true 7 { lit2.port? true with ask := 1, idleTicks := 10 }).put F.LNK_D_CTRL_L1_EN 1

/-- U has heard nothing for 300 ticks, with a limit of 3. -/
def quiet : State := let s := (waiting false 7 0).put F.LNK_HOST_TO_TIMEOUT 3; { s with lnk := { s.lnk with hostTicks := 300 } }


theorem witness_PortsLeaveActive :
    ((carrying true).Wf ∧ SparseWf faultDefault (carrying true).flt.recs ∧ (carrying true).lnkOn = true ∧ (carrying true).pst true = 7 ∧ (carrying true).lps true = 0 ∧ 10 ≤ ((carrying true).port? true).ticks ∧ ((waiting true 7 9).port? true).ticks < 10) ∧
    ((exiting false 0).Wf ∧ (exiting false 0).lps false = 1 ∧ ((exiting false 0).port? false).exiting = true ∧ 1 ≤ ((exiting false 0).port? false).ticks) ∧
    ((carrying false).Wf ∧ (carrying false).pget false F.LNK_U_ERR_ERR_LIMIT ≠ 0 ∧ (carrying false).pget false F.LNK_U_ERR_ERR_LIMIT < ((carrying false).port? false).codeErrors + (4 : BitVec 16).toNat ∧ ((carrying false).port? false).codeErrors + (3 : BitVec 16).toNat ≤ (carrying false).pget false F.LNK_U_ERR_ERR_LIMIT) ∧
    (((waiting false 7 0).put F.LNK_U_CTRL_L2_EN 1).Wf ∧ ((waiting false 7 0).put F.LNK_U_CTRL_L2_EN 1).portUp false = true ∧ ((waiting false 7 0).put F.LNK_U_CTRL_L2_EN 1).get (if true then F.LNK_U_CTRL_L2_EN else F.LNK_U_CTRL_L1_EN) = 1 ∧ ((waiting false 7 0).put F.LNK_U_CTRL_L2_EN 1).lnk.rx = [] ∧ ((waiting false 7 0).put F.LNK_U_CTRL_L2_EN 1).lnk.ret = [] ∧ (carrying false).portUp false = true ∧ (¬ (carrying false).lnk.ret = [])) ∧
    (asking.Wf ∧ asking.portUp true = true ∧ asking.lnk.d.ask = 1 ∧ asking.lnk.d.ask ≠ 2) ∧
    ((carrying true).Wf ∧ SparseWf faultDefault (carrying true).flt.recs ∧ (carrying true).writable (if true then A.LNK_D_CTRL else A.LNK_U_CTRL) ∧ (0x101 : Word).getLsbD 8 = true ∧ (0x100 : Word).getLsbD 0 = false ∧ (carrying true).pst true = 7 ∧ (0x37 : Word).getLsbD 8 = false ∧ (0x37 : Word).getLsbD 0 = true) ∧
    (quiet.Wf ∧ SparseWf faultDefault quiet.flt.recs ∧ quiet.portUp false = true ∧ quiet.get F.LNK_HOST_TO_TIMEOUT ≠ 0 ∧ 100 * quiet.get F.LNK_HOST_TO_TIMEOUT ≤ quiet.lnk.hostTicks ∧ quiet.lnk.hostReported = false ∧ (¬ (100 * (quiet.put F.LNK_HOST_TO_TIMEOUT 4).get F.LNK_HOST_TO_TIMEOUT ≤ quiet.lnk.hostTicks))) ∧
    (lit2.Wf ∧ lit2.writable A.LNK_INJECT ∧ SparseWf faultDefault lit2.flt.recs ∧ (lit2.put F.LNK_INJECT_PENDING 1).writable A.LNK_INJECT ∧ (0x25 : Word).getLsbD 31 = false ∧ 1 ≤ (0x25 : Word).toNat % 8 ∧ (0x25 : Word).toNat % 8 ≤ 5 ∧ lit2.mayInject = true ∧ lit2.get F.LNK_INJECT_PENDING = 0 ∧ (0x20 : Word).toNat % 8 = 0 ∧ (lit2.put F.LNK_INJECT_PENDING 1).get F.LNK_INJECT_PENDING = 1 ∧ (inLife 2 lit2).mayInject = false ∧ 6 ≤ (0x26 : Word).toNat % 8) ∧
    (asking.portUp true = true ∧ asking.get F.LNK_D_CTRL_L1_EN = 1 ∧ asking.lnk.replay = [] ∧ 10 ≤ asking.lnk.d.idleTicks) := 
  ⟨⟨by simp only [State.Wf, WfData, SparseWf]; decide +kernel, by simp only [SparseWf]; decide +kernel, by decide +kernel⟩,
    ⟨by simp only [State.Wf, WfData, SparseWf]; decide +kernel, by decide +kernel⟩,
    ⟨by simp only [State.Wf, WfData, SparseWf]; decide +kernel, by decide +kernel⟩,
    ⟨by simp only [State.Wf, WfData, SparseWf]; decide +kernel, by decide +kernel⟩,
    ⟨by simp only [State.Wf, WfData, SparseWf]; decide +kernel, by decide +kernel⟩,
    ⟨by simp only [State.Wf, WfData, SparseWf]; decide +kernel, by simp only [SparseWf]; decide +kernel, by simp only [State.writable]; decide +kernel, by decide +kernel⟩,
    ⟨by simp only [State.Wf, WfData, SparseWf]; decide +kernel, by simp only [SparseWf]; decide +kernel, by decide +kernel⟩,
    ⟨by simp only [State.Wf, WfData, SparseWf]; decide +kernel, by simp only [State.writable]; decide +kernel, by simp only [SparseWf]; decide +kernel, by simp only [State.writable]; decide +kernel, by decide +kernel⟩,
    by decide +kernel⟩

/-- Both ports ACTIVE in L0; U expects 4095 and D sends 9 next. -/
def active : State :=
  puts lit2 [(F.LNK_U_STATUS_STATE, 7), (F.LNK_D_STATUS_STATE, 7), (F.LNK_U_SEQ_RX_NEXT, 4095), (F.LNK_D_SEQ_TX_NEXT, 9)]

/-- A head with sequence number `n`, for this module. -/
def headOf (n : Nat) : PktHead := { seq := BitVec.ofNat 12 n }

/-- A packet that has been dealt with; U's buffer full of them, or holding one. -/
def doneWith : RxPacket := { type := 3, head := headOf 4095, payload := [], done := some {} }
def full : State := { active with lnk := { active.lnk with rx := List.replicate 16 doneWith } }
def oneHeld : State := { active with lnk := { active.lnk with rx := [doneWith] } }

/-- The words of a tile of zeros, and its CRC. -/
def zeroTile : List Word := List.replicate 1024 0
def memPacket : List Word := [0x01000001, 5, 0x04030201, 0x99]

theorem witness_ForwardPackets :
    (active.Wf ∧ SparseWf faultDefault active.flt.recs ∧ active.portUp false = true ∧ active.get F.LNK_INJECT_PENDING = 0 ∧ active.lnk.naks < 15 ∧ active.lnk.rx = [] ∧ frameGood { words := [] } = false ∧ frameGood { words := frameWords 3 {} [1, 2] true } = false ∧ headType (frameWords 3 {} [1, 2] true) ≠ 0 ∧ frameGood { words := frameWords 0 {} [] true } = false ∧ headType (frameWords 0 {} [] true) = 0 ∧ frameGood { words := frameWords 8 {} [7] false } = true ∧ frameGood { words := frameWords 8 {} [7] false, eop := false } = false) ∧
    (full.Wf ∧ SparseWf faultDefault full.flt.recs ∧ full.portUp false = true ∧ full.lnk.naks < 15 ∧ full.lnk.rx = doneWith :: List.replicate 15 doneWith ∧ (List.replicate 15 doneWith).length = 15 ∧ doneWith.done.isSome = true ∧ (headOf 3).rv = false) ∧
    (active.Wf ∧ active.lnk.rx = [] ∧ (headOf 2046).rv = false ∧ [(1 : Word), 2].length ≤ 1026 ∧ 2048 ≤ ((headOf 2047).seq.toNat + 4096 - active.get F.LNK_U_SEQ_RX_NEXT) % 4096 ∧ 1 ≤ ((headOf 2046).seq.toNat + 4096 - active.get F.LNK_U_SEQ_RX_NEXT) % 4096 ∧ ((headOf 2046).seq.toNat + 4096 - active.get F.LNK_U_SEQ_RX_NEXT) % 4096 < 2048 ∧ active.lnk.nakSent = false ∧ ((headOf 4095).seq.toNat + 4096 - active.get F.LNK_U_SEQ_RX_NEXT) % 4096 = 0 ∧ (∀ ty ∈ [1, 2, 3, 4, 6, 7], lenAccepted ty [] = false)) ∧
    (SparseWf dirDefault active.lmc.dir ∧ (headOf 4095).bc = false ∧ (headOf 4095).tg = false ∧ (headOf 4095).dest = 0 ∧ active.get F.CVN_STATUS_POS_VALID = 0 ∧ zeroTile.length = 1024 ∧ 767 < 12288 ∧ active.post = false ∧ active.power ≠ 1 ∧ active.tileOn 767 = true ∧ active.frozen = false ∧ active.tileLocked 767 = false ∧ active.lmc.sealing = none ∧ active.dirLatent 767 = .good) ∧
    (active.writable A.RAS_NEXT_TIMING ∧ active.writable A.RAS_NEXT_PWM ∧ [(7 : Word), 9] ≠ [] ∧ [(7 : Word), 9].length ≤ 64 ∧ A.RAS_NEXT_TIMING % 4 = 0 ∧ A.RAS_NEXT_TIMING + 4 * 2 ≤ 0x15000 ∧ A.RAS_NEXT_PWM = A.RAS_NEXT_TIMING + 4 ∧ plainWrite A.RAS_NEXT_TIMING = true ∧ plainWrite A.RAS_NEXT_PWM = true ∧ A.RAS_NEXT_TIMING / 4096 ≠ 13) ∧
    (active.readable A.RAS_ACT_TIMING ∧ active.readable A.RAS_ACT_PWM ∧ (7 : Nat) < 65536 ∧ A.RAS_ACT_TIMING % 4 = 0 ∧ active.retFits 3 = true ∧ A.RAS_ACT_TIMING + 4 * 2 ≤ 0x15000 ∧ plainRead A.RAS_ACT_TIMING = true ∧ plainRead A.RAS_ACT_PWM = true ∧ A.RAS_ACT_PWM = A.RAS_ACT_TIMING + 4 ∧ active.retFits 65 = true ∧ 0x083FFF00 + 4 * 64 ≤ 0x08400000) ∧
    (active.writable A.GLB_COMMIT ∧ (0x00050007 : Word).getLsbD 8 = false ∧ (active.put F.GLB_COMMIT_STATUS_STATE 1).get F.GLB_COMMIT_STATUS_STATE = 1 ∧ (0x00050107 : Word).getLsbD 8 = true ∧ active.post = false ∧ (active.put F.GLB_COMMIT_CTRL_MAX_DELTA 0).get F.GLB_COMMIT_CTRL_MAX_DELTA = 0) ∧
    (active.writable A.MSK_SUBMIT ∧ [(0x00010000 : Word)] ≠ [] ∧ [(0x00010000 : Word)].length ≤ 257 ∧ active.post = false ∧ active.lnk.nakSent = false ∧ ({ active with lnk := { active.lnk with nakSent := true } } : State).lnk.nakSent = true) ∧
    (((8 : BitVec 4).toNat = 5 ∨ 8 ≤ (8 : BitVec 4).toNat) ∧ ((5 : BitVec 4).toNat = 5 ∨ 8 ≤ (5 : BitVec 4).toNat)) ∧
    (lenAccepted 2 memPacket = true ∧ memPacket = BitVec.ofNat 32 0x01000001 :: 5 :: [0x04030201, 0x99] ∧ (5 : Word).toNat % 8192 = 5 ∧ 0x01000000 ≤ 0x01000001 ∧ 0x01000001 + 5 ≤ 0x04000000 ∧ active.memWrGate 0x01000001 5 = (0, 0) ∧ active.lmc.dirHit = []) ∧
    (active.aonOn = true ∧ active.portDecide 0x14FFC true ≠ 0 ∧ 0x14FFC % 4 = 0 ∧ 0x14FFC + 4 * 1 ≤ 0x15000) := 
  ⟨⟨by simp only [State.Wf, WfData, SparseWf]; decide +kernel, by simp only [SparseWf]; decide +kernel, by decide +kernel⟩,
    ⟨by simp only [State.Wf, WfData, SparseWf]; decide +kernel, by simp only [SparseWf]; decide +kernel, by decide +kernel⟩,
    ⟨by simp only [State.Wf, WfData, SparseWf]; decide +kernel, by decide +kernel⟩,
    ⟨by simp only [SparseWf]; decide +kernel, by decide +kernel⟩,
    ⟨by simp only [State.writable]; decide +kernel, by simp only [State.writable]; decide +kernel, by decide +kernel⟩,
    ⟨by simp only [State.readable]; decide +kernel, by simp only [State.readable]; decide +kernel, by decide +kernel⟩,
    ⟨by simp only [State.writable]; decide +kernel, by decide +kernel⟩,
    ⟨by simp only [State.writable]; decide +kernel, by decide +kernel⟩,
    by decide +kernel⟩

/-- D's replay buffer holds packets 4, 5, 6, sent `k` times again. -/
def unacked (k : Nat) : State :=
  { active with lnk := { active.lnk with
      ackA := 3, repTicks := 65535, repResends := k, retTicks := 65535, retResends := k,
      replay := [4, 5, 6].map fun n => { type := 3, id := 5, seq := n, payload := [] },
      ret := [4, 5, 6].map fun n => { type := 8, id := 5, seq := n, payload := [] } } }

/-- An enabled event waits to be told; U in state `n`. -/
def telling (n : Nat) : State :=
  let s := puts active [(F.LNK_MSG_IRQ, 1), (F.LNK_U_STATUS_STATE, n)]
  { (s.setReg A.GLB_IRQ_ENABLE 7).setReg A.GLB_IRQ_STATUS 5 with lnk := { s.lnk with irqEvent := true } }


theorem witness_ForwardingAndReturns :
    (oneHeld.Wf ∧ SparseWf faultDefault oneHeld.flt.recs ∧ oneHeld.portUp false = true ∧ oneHeld.lnk.rx = [doneWith] ∧ doneWith.done = some {} ∧ oneHeld.get F.LNK_INJECT_PENDING = 0 ∧ oneHeld.dActive = true ∧ oneHeld.lps true = 0 ∧ oneHeld.dCredit = true ∧ oneHeld.replayFits doneWith.payload.length = true ∧ ({ oneHeld with lnk := { oneHeld.lnk with credit := 0 } } : State).dCredit = false ∧ (oneHeld.put F.LNK_D_STATUS_STATE 0).dActive = false ∧ doneWith.head.bc = false ∧ doneWith.head.tg = false) ∧
    ((unacked 0).Wf ∧ (unacked 0).portUp true = true ∧ (unacked 0).get F.LNK_INJECT_PENDING = 0 ∧ ((5 : BitVec 12).toNat % 4096 + 4096 - (unacked 0).lnk.ackA % 4096) % 4096 < 2048 ∧ (¬ ((2 : BitVec 12).toNat % 4096 + 4096 - (unacked 0).lnk.ackA % 4096) % 4096 < 2048)) ∧
    ((unacked 3).Wf ∧ SparseWf faultDefault (unacked 3).flt.recs ∧ (unacked 3).portUp true = true ∧ (unacked 3).lnk.replay ≠ [] ∧ max ((unacked 3).get F.LNK_D_ERR_REPLAY_TO) 1 ≤ (unacked 3).lnk.repTicks ∧ (unacked 3).lnk.repResends = 3 ∧ (unacked 2).lnk.repResends < 3 ∧ (unacked 3).get F.LNK_INJECT_PENDING = 0) ∧
    (active.Wf ∧ active.portUp true = true ∧ active.get F.LNK_INJECT_PENDING = 0 ∧ frameGood { words := 1 :: 2 :: [3], eop := true, upset := true } = false ∧ frameWords 5 { seq := 0 } [1, 2] false = (frameWords 5 { seq := 0 } [1, 2] false).headD 0 :: (frameWords 5 { seq := 0 } [1, 2] false).getD 1 0 :: (frameWords 5 { seq := 0 } [1, 2] false).drop 2 ∧ 2 ≤ [(1 : Word), 2].length ∧ [(1 : Word), 2].length ≤ 65 ∧ active.pst false = 7 ∧ active.retFits [(1 : Word), 2].length = true ∧ ((({ seq := 0 } : PktHead).seq).toNat + 4096 - active.get F.LNK_D_SEQ_RX_NEXT) % 4096 = 0 ∧ 1 ≤ ((2047 : BitVec 12).toNat + 4096 - active.get F.LNK_D_SEQ_RX_NEXT) % 4096 ∧ ((2047 : BitVec 12).toNat + 4096 - active.get F.LNK_D_SEQ_RX_NEXT) % 4096 < 2048 ∧ 2048 ≤ ((2048 : BitVec 12).toNat + 4096 - active.get F.LNK_D_SEQ_RX_NEXT) % 4096) ∧
    ((unacked 3).Wf ∧ (unacked 3).portUp false = true ∧ (unacked 3).lnk.ret ≠ [] ∧ (unacked 3).lnk.rx = [] ∧ max ((unacked 3).get F.LNK_U_ERR_RET_TO) 1 ≤ (unacked 3).lnk.retTicks ∧ (unacked 3).lnk.retResends = 3 ∧ (unacked 2).lnk.retResends < 3 ∧ ({ rack := 5, rv := true } : PktHead).rv = true ∧ ({ rack := 5, rv := true } : PktHead).rnak = false ∧ (unacked 3).injArmed 3 = false ∧ (unacked 3).get F.LNK_INJECT_PENDING = 0) ∧
    ((telling 7).Wf ∧ (telling 7).lnkOn = true ∧ (telling 7).get F.LNK_MSG_IRQ = 1 ∧ (telling 7).lnk.irqEvent = true ∧ (telling 7).lnk.irqSent = false ∧ (telling 7).get F.LNK_INJECT_PENDING = 0 ∧ (telling 7).pst false = 7 ∧ (telling 7).retFits 5 = true ∧ (telling 7).get F.CVN_STATUS_POS_VALID = 0 ∧ (telling 0).pst false ≠ 7) ∧
    ((unacked 2).lnk.replay ≠ [] ∧ (∀ p ∈ (unacked 2).lnk.replay, ¬ (((4 : BitVec 12).toNat + 4095) % 4096 % 4096 + 4096 - p.seq % 4096) % 4096 < 2048) ∧ (unacked 2).lnk.repResends < 3) ∧
    (frameWords 8 { seq := 4095 } [1, 2, 3, 4, 5] false = (frameWords 8 { seq := 4095 } [1, 2, 3, 4, 5] false).headD 0 :: (frameWords 8 { seq := 4095 } [1, 2, 3, 4, 5] false).getD 1 0 :: (frameWords 8 { seq := 4095 } [1, 2, 3, 4, 5] false).drop 2 ∧ [(1 : Word), 2, 3, 4, 5].length = 5) := 
  ⟨⟨by simp only [State.Wf, WfData, SparseWf]; decide +kernel, by simp only [SparseWf]; decide +kernel, by decide +kernel⟩,
    ⟨by simp only [State.Wf, WfData, SparseWf]; decide +kernel, by decide +kernel⟩,
    ⟨by simp only [State.Wf, WfData, SparseWf]; decide +kernel, by simp only [SparseWf]; decide +kernel, by decide +kernel⟩,
    ⟨by simp only [State.Wf, WfData, SparseWf]; decide +kernel, by decide +kernel⟩,
    ⟨by simp only [State.Wf, WfData, SparseWf]; decide +kernel, by decide +kernel⟩,
    ⟨by simp only [State.Wf, WfData, SparseWf]; decide +kernel, by decide +kernel⟩,
    by decide +kernel⟩

/-- A running slave at position 2, with 200 slots a line and 30 blanking lines. -/
def slave : State :=
  puts lit2 [(F.RAS_ACT_TIMING_N_SLOTS, 200), (F.RAS_ACT_TIMING_VB, 30), (F.RAS_ACT_PWM_K, 20), (F.CVN_CTRL_EN, 1), (F.CVN_CFG_BIT, 4),
    (F.CVN_CFG_HOP_W, 3), (F.CVN_CFG_EP_TO, 2), (F.CVN_STATUS_POS, 2), (F.CVN_STATUS_POS_VALID, 1), (F.RAS_ACT_MODE_MODE, 2),
    (F.RAS_STATUS_CUR_VB, 30)]

/-- The slave at slot 43, cycle 12 of line `l` of frame 7, and one armed to start. -/
def slaveAt (l : Nat) : State := { slave with ras := { slave.ras with line := l, slot := 43, cyc := 12, blankServed := true, frame := 7 } }
def slaveArmed : State :=
  { slave with ras := { slave.ras with
      running := false, pend := some { nSlots := 200, vb := 30, k := 20, mode := 2, src := 0, start := true, byThm := false } } }

/-- An epoch of frame 7 that agrees with the slave. -/
def epochOf : EpochFrame :=
  { epoch := 7001, frame := 7, curVb := 30, nSlots := 200, vb := 30, k := 20, nxNSlots := 200, nxVb := 30, nxK := 20, c := 5, a := 6, shLen := 2 }

/-- The same epoch, which announces other blanking lines for the next frame. -/
def epochNext : EpochFrame := { epochOf with nxVb := 40 }

/-- The state in which a slave at `s` judges `epochOf`, `cyc` cycles into the line. -/
def judging (s : State) (cyc : Nat) : State :=
  (({ (s.cvnCode 0 7001).put F.CVN_EPOCH_EPOCH 7001 with cvn := { s.cvn with shLen := 2 } } : State)).runTo (min cyc (16 * s.nSlots - 1))

/-- A slave so far down the chain that the epoch arrives late. -/
def farSlave : State :=
  let s := puts (slaveAt 541) [(F.CVN_STATUS_POS, 4020), (F.CVN_CFG_BIT, 4), (F.CVN_CFG_HOP_W, 17)]
  { s with ras := { s.ras with line := 512 + (s.hopDelay + s.headerCycles) / 3200, slot := 0, cyc := 0 } }

theorem witness_EpochsDriveTheSlave :
    ((slaveAt 512).Wf ∧ SparseWf faultDefault (slaveAt 512).flt.recs ∧ (slaveAt 512).cvnSlave = true ∧ (¬ (false = true ∧ epochValid epochOf = true))) ∧
    (slaveArmed.Wf ∧ slaveArmed.cvnSlave = true ∧ epochValid epochOf = true ∧ slaveArmed.slaveArmed = true) ∧
    (((slaveAt 512).put F.CVN_STATUS_POS_VALID 0).Wf ∧ ((slaveAt 512).put F.CVN_STATUS_POS_VALID 0).cvnSlave = true ∧ epochValid epochOf = true ∧ ((slaveAt 512).put F.CVN_STATUS_POS_VALID 0).slaveArmed = false ∧ ((slaveAt 512).put F.CVN_STATUS_POS_VALID 0).get F.CVN_STATUS_POS_VALID = 0) ∧
    (farSlave.Wf ∧ epochValid epochOf = true ∧ farSlave.cvnSlave = true ∧ farSlave.slaveArmed = false ∧ farSlave.lineOn = true ∧ farSlave.slaveRaster = true ∧ farSlave.get F.CVN_STATUS_POS_VALID = 1 ∧ (judging farSlave ((farSlave.hopDelay + farSlave.headerCycles) % 3200)).epochAgrees epochOf = true ∧ (judging farSlave ((farSlave.hopDelay + farSlave.headerCycles) % 3200)).epochOnTime epochOf = false ∧ (judging farSlave ((farSlave.hopDelay + farSlave.headerCycles) % 3200)).epochSame epochOf = true) ∧
    (({ slave with cvn := { slave.cvn with load := some { frame := 9, nSlots := 240, vb := 17, k := 5, c := 11, a := 700000 } } } : State).Wf ∧ slave.coreRun = true ∧ ({ slave with cvn := { slave.cvn with load := some { frame := 9, nSlots := 240, vb := 17, k := 5, c := 11, a := 700000 } } } : State).slaveRaster = true) ∧
    (epochValid epochOf = true ∧ (slaveAt 512).slaveArmed = false ∧ (slaveAt 512).lineOn = true ∧ (slaveAt 512).slaveRaster = true ∧ (slaveAt 512).get F.CVN_STATUS_POS_VALID = 1 ∧ (judging (slaveAt 512) 706).epochAgrees epochOf = true ∧ (judging (slaveAt 512) 706).epochOnTime epochOf = true) ∧
    (epochValid epochNext = true ∧ farSlave.lineOn = true ∧ (judging farSlave ((farSlave.hopDelay + farSlave.headerCycles) % 3200)).epochAgrees epochNext = true ∧ (judging farSlave ((farSlave.hopDelay + farSlave.headerCycles) % 3200)).epochOnTime epochNext = false ∧ (judging farSlave ((farSlave.hopDelay + farSlave.headerCycles) % 3200)).epochSame epochNext = false) ∧
    ((slaveAt 541).cvnSlave = true ∧ epochValid epochOf = true ∧ (slaveAt 541).lineOn = true ∧ (slaveAt 541).slaveRaster = true ∧ (judging (slaveAt 541) 3199).epochAgrees epochOf = false) := 
  ⟨⟨by simp only [State.Wf, WfData, SparseWf]; decide +kernel, by simp only [SparseWf]; decide +kernel, by decide +kernel⟩,
    ⟨by simp only [State.Wf, WfData, SparseWf]; decide +kernel, by decide +kernel⟩,
    ⟨by simp only [State.Wf, WfData, SparseWf]; decide +kernel, by decide +kernel⟩,
    ⟨by simp only [State.Wf, WfData, SparseWf]; decide +kernel, by decide +kernel⟩,
    ⟨by simp only [State.Wf, WfData, SparseWf]; decide +kernel, by decide +kernel⟩,
    by decide +kernel⟩

theorem witness_MissingEpochsFlyAndAreReported :
    ((slaveAt 540).Wf ∧ (slaveAt 540).lineOn = true ∧ (slaveAt 540).slaveRaster = true ∧ (slaveAt 540).ras.blankServed = true ∧ (slaveAt 540).ras.line = 510 + (slaveAt 540).get F.RAS_ACT_TIMING_VB ∧ (slaveAt 540).cvn.gotEpoch = false ∧ (slaveAt 540).cvn.missServed = false) ∧
    (({ slaveAt 540 with cvn := { slave.cvn with gotEpoch := true } } : State).Wf ∧ ({ slaveAt 540 with cvn := { slave.cvn with gotEpoch := true } } : State).lineOn = true ∧ ({ slaveAt 540 with cvn := { slave.cvn with gotEpoch := true } } : State).slaveRaster = true ∧ ({ slaveAt 540 with cvn := { slave.cvn with gotEpoch := true } } : State).ras.line = 540 ∧ ({ slaveAt 540 with cvn := { slave.cvn with gotEpoch := true } } : State).cvn.gotEpoch = true) ∧
    (({ slave with cvn := { slave.cvn with flyRun := 2 } } : State).Wf ∧ SparseWf faultDefault slave.flt.recs ∧ slave.coreRun = true ∧ slave.slaveRaster = true ∧ slave.get F.CVN_CFG_EP_TO ≠ 0 ∧ slave.get F.CVN_CFG_EP_TO ≤ 2 ∧ slave.cvn.lostReported = false ∧ slave.cvn.flyRun < slave.get F.CVN_CFG_EP_TO) := 
  ⟨⟨by simp only [State.Wf, WfData, SparseWf]; decide +kernel, by decide +kernel⟩,
    ⟨by simp only [State.Wf, WfData, SparseWf]; decide +kernel, by decide +kernel⟩,
    ⟨by simp only [State.Wf, WfData, SparseWf]; decide +kernel, by simp only [SparseWf]; decide +kernel, by decide +kernel⟩⟩

/-- An enabled master, with the ring or without it. -/
def master (ring : Nat) : State :=
  let s := puts lit2 [(F.CVN_CTRL_EN, 1), (F.CVN_CFG_BIT, 4), (F.CVN_CFG_MASTER, 1), (F.CVN_CFG_RING, ring), (F.CVN_EPOCH_ENUM_ID, 255),
    (F.CVN_SH_ADDR_INDEX, 16383), (F.CVN_SH_ADDR_INC, ring), (F.CVN_STATUS_ENUM_BUSY, 1)]
  { s with ras := { s.ras with running := false }, cvn := { s.cvn with sentEnums := [3, 2], sentEpochs := [9, 8], marks := 3 } }

/-- A share of `n` bytes follows. -/
def sharing (n : Nat) : State := { slave.put F.CVN_SH_CFG_DIM_MAP 1 with cvn := { slave.cvn with shLen := n } }

theorem witness_PositionsSharesAndRing :
    ((master 0).Wf ∧ (master 0).writable A.CVN_CTRL ∧ slave.Wf ∧ slave.writable A.CVN_CTRL ∧ (master 0).get F.CVN_CFG_MASTER = 1 ∧ slave.get F.CVN_CFG_MASTER = 0) ∧
    ((master 1).Wf ∧ (master 1).cvnMaster = true ∧ (master 1).get F.CVN_STATUS_ENUM_BUSY = 1 ∧ (master 1).cvn.enumOut = false ∧ (master 1).ras.running = false) ∧
    (slave.Wf ∧ SparseWf faultDefault slave.flt.recs ∧ slave.cvnSlave = true ∧ 4094 < 4095 ∧ slave.get F.CVN_STATUS_POS_VALID = 1 ∧ slave.get F.CVN_STATUS_POS = 1 + 1 ∧ slave.get F.CVN_STATUS_POS ≠ 1 + 4094) ∧
    ((sharing 16).Wf ∧ (sharing 16).cvnSlave = true ∧ (sharing 16).cvn.shLen = (List.replicate 16 (200 : Byte)).length ∧ 1 ≤ (List.replicate 16 (200 : Byte)).length ∧ (List.replicate 16 (200 : Byte)).length ≤ 16 ∧ (sharing 16).get F.CVN_STATUS_POS_VALID = 1 ∧ (sharing 16).ras.running = true ∧ ((sharing 16).put F.CVN_STATUS_POS_VALID 0).cvnSlave = true ∧ ((sharing 16).put F.CVN_STATUS_POS_VALID 0).get F.CVN_STATUS_POS_VALID = 0) ∧
    (({ slave with cvn := { slave.cvn with dim := some 65535 } } : State).Wf ∧ slave.coreRun = true ∧ ({ slave with cvn := { slave.cvn with dim := some 65535 } } : State).cvn.dim = some 65535) ∧
    ((master 1).Wf ∧ SparseWf shareDefault (master 1).cvn.share ∧ (master 1).writable A.CVN_SH_DATA ∧ (master 1).readable A.CVN_SH_DATA) ∧
    ((master 1).Wf ∧ SparseWf faultDefault (master 1).flt.recs ∧ (master 1).cvnMaster = true ∧ ({ num := 8 } : RingFrame).good = true ∧ (master 1).get F.CVN_CFG_RING = 1 ∧ (if ({ num := 8 } : RingFrame).enum then (master 1).cvn.sentEnums.contains 8 else (master 1).cvn.sentEpochs.contains 8) = true ∧ (if ({ enum := true, num := 2 } : RingFrame).enum then (master 1).cvn.sentEnums.contains 2 else (master 1).cvn.sentEpochs.contains 2) = true ∧ (¬ (master 0).get F.CVN_CFG_RING = 1)) ∧
    ((master 1).Wf ∧ SparseWf faultDefault (master 1).flt.recs ∧ (master 1).cvnMaster = true ∧ (master 1).get F.CVN_CFG_RING = 1 ∧ 3 ≤ (master 1).cvn.marks) := 
  ⟨⟨by simp only [State.Wf, WfData, SparseWf]; decide +kernel, by simp only [State.writable]; decide +kernel, by simp only [State.Wf, WfData, SparseWf]; decide +kernel, by simp only [State.writable]; decide +kernel, by decide +kernel⟩,
    ⟨by simp only [State.Wf, WfData, SparseWf]; decide +kernel, by decide +kernel⟩,
    ⟨by simp only [State.Wf, WfData, SparseWf]; decide +kernel, by simp only [SparseWf]; decide +kernel, by decide +kernel⟩,
    ⟨by simp only [State.Wf, WfData, SparseWf]; decide +kernel, by decide +kernel⟩,
    ⟨by simp only [State.Wf, WfData, SparseWf]; decide +kernel, by decide +kernel⟩,
    ⟨by simp only [State.Wf, WfData, SparseWf]; decide +kernel, by simp only [SparseWf]; decide +kernel, by simp only [State.writable]; decide +kernel, by simp only [State.readable]; decide +kernel⟩,
    ⟨by simp only [State.Wf, WfData, SparseWf]; decide +kernel, by simp only [SparseWf]; decide +kernel, by decide +kernel⟩,
    ⟨by simp only [State.Wf, WfData, SparseWf]; decide +kernel, by simp only [SparseWf]; decide +kernel, by decide +kernel⟩⟩

/-- The tandem role is `r`, with `e` edges and `c` conflicts before; the island runs. -/
def tandem (r e c : Nat) : State :=
  let s := puts lit2 [(F.CVN_TDM_STATUS_ROLE, r), (F.CVN_TDM_STATUS_HOLD, r / 2), (F.LPE_STATUS_IN_REG, 1)]
  { s with tdm := { s.tdm with edges := e, conflicts := c } }

/-- Presence stands; the output is bad. -/
def present (r : Nat) : State := (tandem r 3 0).put F.CVN_TDM_STATUS_PRESENCE 1
def badOut (s : State) : State := { s with tdm := { s.tdm with outBad := true } }


theorem witness_TandemRolesFollowTheTable :
    ((tandem 2 2 0).Wf ∧ SparseWf faultDefault (tandem 2 2 0).flt.recs ∧ (tandem 2 2 0).tdmOn = true ∧ 39 < 40 ∧ 60 < 61 ∧ 40 ≤ 60 ∧ (tandem 2 1 0).tdm.edges < 2 ∧ 2 ≤ (tandem 2 2 0).tdm.edges ∧ (tandem 2 2 0).get F.CVN_TDM_STATUS_PRESENCE = 0 ∧ (tandem 2 2 0).role = 2) ∧
    ((tandem 3 2 2).Wf ∧ (tandem 3 2 2).tdmOn = true ∧ 2 ≤ (tandem 3 2 2).tdm.edges ∧ (tandem 3 2 2).get F.CVN_TDM_STATUS_PRESENCE = 0 ∧ (tandem 3 2 2).role = 3 ∧ (tandem 3 2 2).tdm.conflicts = 2) ∧
    ((tandem 1 2 1).Wf ∧ (tandem 1 2 1).tdmOn = true ∧ 2 ≤ (tandem 1 2 1).tdm.edges ∧ (tandem 1 2 1).get F.CVN_TDM_STATUS_PRESENCE = 0 ∧ (tandem 1 2 1).role = 1) ∧
    ((present 1).Wf ∧ (badOut (present 2)).Wf ∧ (present 1).tdmOn = true ∧ (present 1).get F.CVN_TDM_STATUS_PRESENCE = 1 ∧ (present 1).role ≠ 2 ∧ (badOut (present 2)).tdmOn = true ∧ (badOut (present 2)).get F.CVN_TDM_STATUS_PRESENCE = 1 ∧ (badOut (present 2)).role = 2 ∧ (badOut (present 2)).faulted = true ∧ (present 2).faulted = false) ∧
    ((tandem 2 0 0).Wf ∧ (tandem 2 0 0).tdmOn = true ∧ (tandem 2 0 0).role = 2 ∧ (tandem 2 0 0).tdm.seen = false ∧ (tandem 2 0 0).faulted = false ∧ (badOut (tandem 2 0 0)).faulted = true) ∧
    ((tandem 3 0 0).Wf ∧ (tandem 3 0 0).tdmOn = true ∧ (tandem 3 0 0).role = 3) ∧
    ((badOut (tandem 1 0 0)).Wf ∧ (badOut (tandem 1 0 0)).tdmOn = true ∧ (badOut (tandem 1 0 0)).role = 1 ∧ (badOut (tandem 1 0 0)).faulted = true ∧ (tandem 1 0 0).faulted = false) ∧
    ((tandem 1 0 0).Wf ∧ (tandem 1 0 0).tdmOn = true ∧ (tandem 1 0 0).tdm.outBad = false ∧ (badOut (tandem 1 0 0)).tdm.outBad = true) ∧
    (((tandem 2 0 0).put F.CVN_TDM_STATUS_TDARK 1).Wf ∧ ((tandem 2 0 0).put F.CVN_TDM_STATUS_TDARK 1).tdmOn = true ∧ ((tandem 2 0 0).put F.CVN_TDM_STATUS_TDARK 1).get F.CVN_TDM_STATUS_TDARK = 1 ∧ ((tandem 2 0 0).put F.CVN_TDM_STATUS_TDARK 1).get F.CVN_TDM_STATUS_HOLD = 1 ∧ ((tandem 1 0 0).put F.CVN_TDM_STATUS_TDARK 1).get F.CVN_TDM_STATUS_HOLD = 0) ∧
    ((present 1).tdm.edges = 3 ∧ (present 1).tdm.seen = false ∧ (present 3).role = 3 ∧ (present 2).role = 2 ∧ (tandem 0 2 0).role = 0 ∧ (tandem 0 2 0).tdmOn = true) := 
  ⟨⟨by simp only [State.Wf, WfData, SparseWf]; decide +kernel, by simp only [SparseWf]; decide +kernel, by decide +kernel⟩,
    ⟨by simp only [State.Wf, WfData, SparseWf]; decide +kernel, by decide +kernel⟩,
    ⟨by simp only [State.Wf, WfData, SparseWf]; decide +kernel, by decide +kernel⟩,
    ⟨by simp only [State.Wf, WfData, SparseWf]; decide +kernel, by simp only [State.Wf, WfData, SparseWf]; decide +kernel, by decide +kernel⟩,
    ⟨by simp only [State.Wf, WfData, SparseWf]; decide +kernel, by decide +kernel⟩,
    ⟨by simp only [State.Wf, WfData, SparseWf]; decide +kernel, by decide +kernel⟩,
    ⟨by simp only [State.Wf, WfData, SparseWf]; decide +kernel, by decide +kernel⟩,
    ⟨by simp only [State.Wf, WfData, SparseWf]; decide +kernel, by decide +kernel⟩,
    ⟨by simp only [State.Wf, WfData, SparseWf]; decide +kernel, by decide +kernel⟩,
    by decide +kernel⟩

end Sys2Proof.Tests
end

section
/-!
Every command of the block answers a next state, leaves the queue alone and keeps the stored words and bytes in canonical
form; so does every step, which takes the front command off the queue first.
-/

namespace Sys2Proof.Machine

/-- No command faults or is refused: each arm of `exec` answers a next state (R310). -/
theorem exec_answers (c : Instr) (s : State) : ∃ t, exec c s = .next t := by
  cases c <;> exact ⟨_, rfl⟩

/-- The meaning of each command keeps `Kept`, by the lemma of its block. -/
theorem exec_kept {q : List Instr} {c : Instr} {s z : State} (kq : Kept q s) (hx : exec c s = .next z) : Kept q z := by
  cases c with
  | retime who v => exact execRetime_kept who v kq hx
  | rasterStart => exact execRasterStart_kept kq hx
  | startOfBlank => exact execStartOfBlank_kept kq hx
  | frameDone tachEdges => exact execFrameDone_kept tachEdges kq hx
  | lineStart upsets => exact execLineStart_kept upsets kq hx
  | displayLoad upsets => exact execDisplayLoad_kept upsets kq hx
  | emitterSense high low volts => exact execEmitterSense_kept high low volts kq hx
  | readback upsets => exact execReadback_kept upsets kq hx
  | spareSlotMaskWrite slot upsets => exact execSpareSlotMaskWrite_kept slot upsets kq hx
  | maskEpoch => exact execMaskEpoch_kept kq hx
  | maskPassGroup latchedUpsets => exact execMaskPassGroup_kept latchedUpsets kq hx
  | rowGroupBoundary g => exact execRowGroupBoundary_kept g kq hx
  | isetMeasure iref limited => exact execIsetMeasure_kept iref limited kq hx
  | isetFault => exact execIsetFault_kept kq hx
  | headroomTrim r => exact execHeadroomTrim_kept r kq hx
  | bandFetchStart => exact execBandFetchStart_kept kq hx
  | tileCrcCheck upsets dirRead => exact execTileCrcCheck_kept upsets dirRead kq hx
  | rowComposition ttUpsets coefUpsets => exact execRowComposition_kept ttUpsets coefUpsets kq hx
  | compositionDeadline delivered => exact execCompositionDeadline_kept delivered kq hx
  | outStall => exact execOutStall_kept kq hx
  | gainReloadRow => exact execGainReloadRow_kept kq hx
  | innerSample vsns ref vsnsValid refValid psHigh => exact execInnerSample_kept vsns ref vsnsValid refValid psHigh kq hx
  | phasePulseStart p => exact execPhasePulseStart_kept p kq hx
  | phasePulseEnd p => exact execPhasePulseEnd_kept p kq hx
  | isnsConversion p code valid => exact execIsnsConversion_kept p code valid kq hx
  | loopEvaluation upsets stateUpset => exact execLoopEvaluation_kept upsets stateUpset kq hx
  | loopFallback => exact execLoopFallback_kept kq hx
  | railStartTimeout => exact execRailStartTimeout_kept kq hx
  | vledOvp => exact execVledOvp_kept kq hx
  | vledUvp => exact execVledUvp_kept kq hx
  | isnsRangeFault => exact execIsnsRangeFault_kept kq hx
  | isnsRefFault => exact execIsnsRefFault_kept kq hx
  | psFltNLow => exact execPsFltNLow_kept kq hx
  | cbcTrip p => exact execCbcTrip_kept p kq hx
  | phaseOc => exact execPhaseOc_kept kq hx
  | crestFallback parity => exact execCrestFallback_kept parity kq hx
  | fanPeriod => exact execFanPeriod_kept kq hx
  | tachFault => exact execTachFault_kept kq hx
  | railEnWrite who v => exact execRailEnWrite_kept who v kq hx
  | swapBanks who v => exact execSwapBanks_kept who v kq hx
  | loopBankSwap => exact execLoopBankSwap_kept kq hx
  | fbClear who loop v => exact execFbClear_kept who loop v kq hx
  | lpeCoefMWrite who v => exact execLpeCoefMWrite_kept who v kq hx
  | lpeCoefMRead who => exact execLpeCoefMRead_kept who kq hx
  | sensorGate counts => exact execSensorGate_kept counts kq hx
  | sensorPublish => exact execSensorPublish_kept kq hx
  | sensorBroken => exact execSensorBroken_kept kq hx
  | shutdownEnd => exact execShutdownEnd_kept kq hx
  | throttleGraceExpiry => exact execThrottleGraceExpiry_kept kq hx
  | throttleRetimeIssue => exact execThrottleRetimeIssue_kept kq hx
  | throttleRelease => exact execThrottleRelease_kept kq hx
  | slaveThrottleTimeout => exact execSlaveThrottleTimeout_kept kq hx
  | safetyTick t => exact execSafetyTick_kept t kq hx
  | darkPadActive a b => exact execDarkPadActive_kept a b kq hx
  | darkRelightExpiry => exact execDarkRelightExpiry_kept kq hx
  | darkDiscrepancy => exact execDarkDiscrepancy_kept kq hx
  | darkSw who v => exact execDarkSw_kept who v kq hx
  | firmwareOasisRequest who v => exact execFirmwareOasisRequest_kept who v kq hx
  | safLock who v => exact execSafLock_kept who v kq hx
  | darkNetMismatch net => exact execDarkNetMismatch_kept net kq hx
  | darkNetProof pass => exact execDarkNetProof_kept pass kq hx
  | leaveInit => exact execLeaveInit_kept kq hx
  | srstFall => exact execSrstFall_kept kq hx
  | srstRise => exact execSrstRise_kept kq hx
  | srstStuck => exact execSrstStuck_kept kq hx
  | relightFbTimeout => exact execRelightFbTimeout_kept kq hx
  | relightComplete => exact execRelightComplete_kept kq hx
  | dimEntry => exact execDimEntry_kept kq hx
  | rampTick => exact execRampTick_kept kq hx
  | envelopeExceeded => exact execEnvelopeExceeded_kept kq hx
  | lrmFbMismatch => exact execLrmFbMismatch_kept kq hx
  | oasisBootCheck => exact execOasisBootCheck_kept kq hx
  | oasisRowCheck v => exact execOasisRowCheck_kept v kq hx
  | sealReadStart => exact execSealReadStart_kept kq hx
  | sealLatch => exact execSealLatch_kept kq hx
  | safeOutFail => exact execSafeOutFail_kept kq hx
  | islandSupplyFault => exact execIslandSupplyFault_kept kq hx
  | islandReset => exact execIslandReset_kept kq hx
  | islandResetEnd => exact execIslandResetEnd_kept kq hx
  | clockMonitorFail => exact execClockMonitorFail_kept kq hx
  | islandOscStop stopped => exact execIslandOscStop_kept stopped kq hx
  | clockOffGrantEnd => exact execClockOffGrantEnd_kept kq hx
  | rasterStall => exact execRasterStall_kept kq hx
  | engineMismatch west east => exact execEngineMismatch_kept west east kq hx
  | refMonitorFault first second => exact execRefMonitorFault_kept first second kq hx
  | faultLiveRise code => exact execFaultLiveRise_kept code kq hx
  | faultLiveFall code => exact execFaultLiveFall_kept code kq hx
  | faultPairInvalid code bad => exact execFaultPairInvalid_kept code bad kq hx
  | faultPairProof failed => exact execFaultPairProof_kept failed kq hx
  | t1Expiry code => exact execT1Expiry_kept code kq hx
  | t2Expiry code => exact execT2Expiry_kept code kq hx
  | fltAck who v => exact execFltAck_kept who v kq hx
  | fltInject who v => exact execFltInject_kept who v kq hx
  | injectionEnd => exact execInjectionEnd_kept kq hx
  | fltFirstRel who v => exact execFltFirstRel_kept who v kq hx
  | faultPinFail => exact execFaultPinFail_kept kq hx
  | linkDownExpiry d => exact execLinkDownExpiry_kept d kq hx
  | signalDetected d => exact execSignalDetected_kept d kq hx
  | ts1Received d lanes => exact execTs1Received_kept d lanes kq hx
  | ts2Received d lanes skew => exact execTs2Received_kept d lanes skew kq hx
  | trainingTimeout d => exact execTrainingTimeout_kept d kq hx
  | trainPacket w0 w1 w2 w3 => exact execTrainPacket_kept w0 w1 w2 w3 kq hx
  | skpTimeout d => exact execSkpTimeout_kept d kq hx
  | codeErrorLimit d n => exact execCodeErrorLimit_kept d n kq hx
  | eiosReceived d l2 => exact execEiosReceived_kept d l2 kq hx
  | l1IdleExpiry => exact execL1IdleExpiry_kept kq hx
  | lowPowerExitTimeout d => exact execLowPowerExitTimeout_kept d kq hx
  | retrain who d v => exact execRetrain_kept who d v kq hx
  | packetFrameFail f => exact execPacketFrameFail_kept f kq hx
  | receiveBufferFull h => exact execReceiveBufferFull_kept h kq hx
  | idlePacket d h payload => exact execIdlePacket_kept d h payload kq hx
  | tileWrite h payload dirRead => exact execTileWrite_kept h payload dirRead kq hx
  | memWrite h payload => exact execMemWrite_kept h payload kq hx
  | regWrite h payload => exact execRegWrite_kept h payload kq hx
  | regRead h payload => exact execRegRead_kept h payload kq hx
  | commitPacket h payload => exact execCommitPacket_kept h payload kq hx
  | objectList h payload => exact execObjectList_kept h payload kq hx
  | packetForward => exact execPacketForward_kept kq hx
  | ackNak seq nak replay status free upset => exact execAckNak_kept seq nak replay status free upset kq hx
  | returnPacketReceived w0 w1 rest eop upset => exact execReturnPacketReceived_kept w0 w1 rest eop upset kq hx
  | dReplayTimeout upset => exact execDReplayTimeout_kept upset kq hx
  | returnResendTimeout => exact execReturnResendTimeout_kept kq hx
  | hostTimeout => exact execHostTimeout_kept kq hx
  | irqMessage => exact execIrqMessage_kept kq hx
  | lnkInject who v => exact execLnkInject_kept who v kq hx
  | epochFrameReceived h crcOk codeErrors cyc => exact execEpochFrameReceived_kept h crcOk codeErrors cyc kq hx
  | epochMissing => exact execEpochMissing_kept kq hx
  | epochLost => exact execEpochLost_kept kq hx
  | slaveResyncLoad => exact execSlaveResyncLoad_kept kq hx
  | enumRequest who en => exact execEnumRequest_kept who en kq hx
  | enumFrameSend => exact execEnumFrameSend_kept kq hx
  | enumFrameReceived id good codeErrors fills token => exact execEnumFrameReceived_kept id good codeErrors fills token kq hx
  | shareReceived bytes read => exact execShareReceived_kept bytes read kq hx
  | shareDimWrite => exact execShareDimWrite_kept kq hx
  | masterFrameReceived r => exact execMasterFrameReceived_kept r kq hx
  | ringReturnTimeout => exact execRingReturnTimeout_kept kq hx
  | tdmEdge gap => exact execTdmEdge_kept gap kq hx
  | tdmLoss => exact execTdmLoss_kept kq hx
  | standbyWaitExpiry => exact execStandbyWaitExpiry_kept kq hx
  | claimToActive => exact execClaimToActive_kept kq hx
  | abdication => exact execAbdication_kept kq hx
  | tdmOutMismatch bad => exact execTdmOutMismatch_kept bad kq hx
  | tandemDarkEnd => exact execTandemDarkEnd_kept kq hx
  | resetNLow => exact execResetNLow_kept kq hx
  | resetNRelease vdd vddio => exact execResetNRelease_kept vdd vddio kq hx
  | bootStepDone b => exact execBootStepDone_kept b kq hx
  | bootStepTimeout => exact execBootStepTimeout_kept kq hx
  | pwrReq who v => exact execPwrReq_kept who v kq hx
  | pixReady => exact execPixReady_kept kq hx
  | rasterStop => exact execRasterStop_kept kq hx
  | transitionStepDone => exact execTransitionStepDone_kept kq hx
  | transitionStepTimeout => exact execTransitionStepTimeout_kept kq hx
  | slaveStartTimeout => exact execSlaveStartTimeout_kept kq hx
  | wakeEvent source => exact execWakeEvent_kept source kq hx
  | wakeStepReady retentionOk => exact execWakeStepReady_kept retentionOk kq hx
  | wakeStepTimeout => exact execWakeStepTimeout_kept kq hx
  | railWindowFault => exact execRailWindowFault_kept kq hx
  | pllLockLoss => exact execPllLockLoss_kept kq hx
  | pllRelock => exact execPllRelock_kept kq hx
  | vpixLoss => exact execVpixLoss_kept kq hx
  | vpixRestored => exact execVpixRestored_kept kq hx
  | freezeRequest high => exact execFreezeRequest_kept high kq hx
  | gpio3RisingEdge => exact execGpio3RisingEdge_kept kq hx
  | startJob who n t => exact execStartJob_kept who n t kq hx
  | memScan who n => exact execMemScan_kept who n kq hx
  | nvmWrite who n => exact execNvmWrite_kept who n kq hx
  | bistRun who n => exact execBistRun_kept who n kq hx
  | calRun who n => exact execCalRun_kept who n kq hx
  | imageLoad who n => exact execImageLoad_kept who n kq hx
  | restructure who n => exact execRestructure_kept who n kq hx
  | defectRebuild who n => exact execDefectRebuild_kept who n kq hx
  | lifecycle who n => exact execLifecycle_kept who n kq hx
  | recCheckpoint who n => exact execRecCheckpoint_kept who n kq hx
  | suspendJob who n => exact execSuspendJob_kept who n kq hx
  | jobSuspended n pos => exact execJobSuspended_kept n pos kq hx
  | resumeJob who n => exact execResumeJob_kept who n kq hx
  | cancelJob who n => exact execCancelJob_kept who n kq hx
  | scanComplete => exact execScanComplete_kept kq hx
  | nvmUnitStart => exact execNvmUnitStart_kept kq hx
  | nvmUnitDone => exact execNvmUnitDone_kept kq hx
  | imageStaged flash => exact execImageStaged_kept flash kq hx
  | restructureSwap => exact execRestructureSwap_kept kq hx
  | restructureNoOasis => exact execRestructureNoOasis_kept kq hx
  | lifecycleFuseBlow verified => exact execLifecycleFuseBlow_kept verified kq hx
  | dropImage who v => exact execDropImage_kept who v kq hx
  | keyWrite who n v => exact execKeyWrite_kept who n v kq hx
  | lk0640Entry => exact execLk0640Entry_kept kq hx
  | scanEntry => exact execScanEntry_kept kq hx
  | idcode => exact execIdcode_kept kq hx
  | regaccRead a => exact execRegaccRead_kept a kq hx
  | regaccWrite a v => exact execRegaccWrite_kept a v kq hx
  | postGroupDone banks rams => exact execPostGroupDone_kept banks rams kq hx
  | latchTestRow failed => exact execLatchTestRow_kept failed kq hx
  | bgTestSlice => exact execBgTestSlice_kept kq hx
  | bankTestDone pass => exact execBankTestDone_kept pass kq hx
  | migrateDone => exact execMigrateDone_kept kq hx
  | bgEnWrite who v => exact execBgEnWrite_kept who v kq hx
  | bankEnWrite who v => exact execBankEnWrite_kept who v kq hx
  | sealTile who v => exact execSealTile_kept who v kq hx
  | sealComplete dirRead => exact execSealComplete_kept dirRead kq hx
  | cmpTtDataRead who => exact execCmpTtDataRead_kept who kq hx
  | cmpTtDataWrite who v => exact execCmpTtDataWrite_kept who v kq hx
  | sclCoefDataRead who => exact execSclCoefDataRead_kept who kq hx
  | sclCoefDataWrite who v => exact execSclCoefDataWrite_kept who v kq hx
  | aryPcDataRead who => exact execAryPcDataRead_kept who kq hx
  | aryPcDataWrite who v => exact execAryPcDataWrite_kept who v kq hx
  | cvnShDataAccess who write => exact execCvnShDataAccess_kept who write kq hx
  | hltDefectSet who v => exact execHltDefectSet_kept who v kq hx
  | hltDlog0Read who => exact execHltDlog0Read_kept who kq hx
  | defectLimitWrite who v => exact execDefectLimitWrite_kept who v kq hx
  | senseRowFault => exact execSenseRowFault_kept kq hx
  | rbPersist => exact execRbPersist_kept kq hx
  | signatureMissLimit => exact execSignatureMissLimit_kept kq hx
  | mskSubmit who v => exact execMskSubmit_kept who v kq hx
  | listTimeout => exact execListTimeout_kept kq hx
  | gainReload who v => exact execGainReload_kept who v kq hx
  | commitArm who rdy alive => exact execCommitArm_kept who rdy alive kq hx
  | commitWithdraw who => exact execCommitWithdraw_kept who kq hx
  | commitStale => exact execCommitStale_kept kq hx
  | followTimeout => exact execFollowTimeout_kept kq hx
  | operatingSecond upset => exact execOperatingSecond_kept upset kq hx
  | litSecond => exact execLitSecond_kept kq hx
  | checkpointStart => exact execCheckpointStart_kept kq hx
  | checkpointCommit => exact execCheckpointCommit_kept kq hx
  | checkpointTimeout => exact execCheckpointTimeout_kept kq hx
  | calAutoTrigger => exact execCalAutoTrigger_kept kq hx
  | calItemComplete p => exact execCalItemComplete_kept p kq hx
  | spiStatus tag len a => exact execSpiStatus_kept tag len a kq hx
  | spiRd tag len a => exact execSpiRd_kept tag len a kq hx
  | spiWr tag len a data => exact execSpiWr_kept tag len a data kq hx
  | spiRdFix tag len a => exact execSpiRdFix_kept tag len a kq hx
  | spiWrFix tag len a data => exact execSpiWrFix_kept tag len a data kq hx
  | spiMemRd tag len a => exact execSpiMemRd_kept tag len a kq hx
  | spiMemWr tag len a data => exact execSpiMemWr_kept tag len a data kq hx
  | spiFrameRejected crc => exact execSpiFrameRejected_kept crc kq hx
  | spiTimeout => exact execSpiTimeout_kept kq hx
  | spiResponseReady => exact execSpiResponseReady_kept kq hx
  | irqStatusClear who v => exact execIrqStatusClear_kept who v kq hx
  | irqRawRead who => exact execIrqRawRead_kept who kq hx
  | readClearRegister who a => exact execReadClearRegister_kept who a kq hx
  | registerWrite who a v => exact execRegisterWrite_kept who a v kq hx
  | vddBelowThreshold => exact execVddBelowThreshold_kept kq hx
  | vddaLnkLoss => exact execVddaLnkLoss_kept kq hx
  | nomadDomainReady => exact execNomadDomainReady_kept kq hx
  | restoreMergeDone => exact execRestoreMergeDone_kept kq hx
  | bodyReadTimeout => exact execBodyReadTimeout_kept kq hx
  | preChargeCalibrationSlot ones => exact execPreChargeCalibrationSlot_kept ones kq hx
  | packetTypeNotUsed type h payload => exact execPacketTypeNotUsed_kept type h payload kq hx
  | spiOpNotUsed op tag len a => exact execSpiOpNotUsed_kept op tag len a kq hx

theorem step_of_empty {s : State} (h : s.pending = []) : step s = .next s := by
  unfold step
  rw [h]

theorem step_of_front {s : State} {c : Instr} {q : List Instr} (h : s.pending = c :: q) :
    step s = exec c (s.withPending q) := by
  unfold step
  rw [h]

theorem State.withPending_kept {s : State} (q : List Instr) (h : s.Wf) : Kept q (s.withPending q) := ⟨rfl, h⟩

/-- A step leaves the rest of the queue and the canonical form. -/
theorem step_kept {s t : State} (h : s.Wf) (hx : step s = .next t) : Kept s.pending.tail t := by
  cases hq : s.pending with
  | nil =>
    rw [step_of_empty hq] at hx
    obtain rfl := Host.Outcome.next.inj hx
    exact ⟨hq, h⟩
  | cons c q =>
    rw [step_of_front hq] at hx
    exact exec_kept (State.withPending_kept q h) hx

theorem step_answers (s : State) : ∃ t, step s = .next t := by
  cases hq : s.pending with
  | nil => exact ⟨s, step_of_empty hq⟩
  | cons c q => exact step_of_front hq ▸ exec_answers c _

/-- Settles O2: `exec` is total, and what it keeps includes the rest of the queue. -/
theorem everyStepTakesOneCommand : Obligations.EveryStepTakesOneCommand := by
  intro s hs
  obtain ⟨t, ht⟩ := step_answers s
  exact ⟨t, ht, (step_kept hs ht).1⟩

/-- Settles O3: the invariant `Kept` of the front command's meaning. -/
theorem stepKeepsCanonicalForm : Obligations.StepKeepsCanonicalForm :=
  fun _ _ hs hx => (step_kept hs hx).2

/-! ### Fields -/

/-- Bits beside a field keep their values when it is written. -/
theorem State.put_bit_beside {s : State} {f : Field} {v i : Nat} (h : s.Wf) (hf : f.ok) (hi : ¬ (f.lo ≤ i ∧ i ≤ f.hi)) :
    ((s.put f v).reg f.addr).getLsbD i = (s.reg f.addr).getLsbD i := by
  unfold State.put
  rw [State.reg_setReg_same h, wordPut_getLsbD hf.1 hf.2, if_neg hi]

/-- A write of one register changes active registers only, and of these that one. -/
theorem onlyRegs_setReg (s : State) (a : Nat) (w : Word) : OnlyRegs [a] s (s.setReg a w) :=
  ⟨rfl, fun _ hb => State.reg_setReg_ne (List.ne_of_not_mem_cons hb)⟩

theorem State.get_lt (s : State) (f : Field) : s.get f < 2 ^ (f.hi + 1 - f.lo) :=
  Nat.mod_lt _ (Nat.two_pow_pos _)

theorem satInc_eq_min {n top : Nat} (h : n ≤ top) : satInc n top = min (n + 1) top := by
  unfold satInc
  split <;> omega

/-- A counter field that counts reads one more, at most its top. -/
theorem State.get_inc_same {s : State} {f : Field} (h : s.Wf) (hf : f.ok) :
    (s.inc f).get f = min (s.get f + 1) f.top := by
  have hlt := s.get_lt f
  have hle : s.get f ≤ f.top := Nat.le_sub_one_of_lt hlt
  have htop : f.top < 2 ^ (f.hi + 1 - f.lo) := Nat.sub_one_lt_of_lt hlt
  unfold State.inc
  rw [satInc_eq_min hle, State.get_put_same h hf, Nat.mod_eq_of_lt (by omega)]

/-- Settles O5: a field write is a write of its register in which only the field's bits differ. -/
theorem fieldWriteReadsBack : Obligations.FieldWriteReadsBack := by
  intro s f v hs hhi hlo
  have hf : f.ok := ⟨hhi, hlo⟩
  exact ⟨State.get_put_same hs hf, fun i hi => State.put_bit_beside hs hf hi, onlyRegs_setReg s _ _,
    State.get_inc_same hs hf⟩

end Sys2Proof.Machine
end

section
/-!
The registers whose access codes alone say what a write and a read do: the block that holds such a register passes the
access on to `regWrite`, `regView` and `readClear`, and these act bit by bit (R14).
-/

namespace Sys2Proof.Machine

/-! ### Which registers have no rule of their own -/

theorem ne_of_plainWrite {a : Nat} (h : plainWrite a = true) : ∀ b ∈ ownWriteRule, a ≠ b := by
  rintro b hb rfl
  simp [plainWrite, hb] at h

theorem ne_of_plainRead {a : Nat} (h : plainRead a = true) : ∀ b ∈ ownReadRule, a ≠ b := by
  rintro b hb rfl
  simp [plainRead, hb] at h

/-- The arrays of registers that a plain write does not name: SAF, CFG_KEYn, PWR_JOBn_CMD, LPE_LPn_CMD, FLT_MASKn. -/
theorem plainWrite_ranges {a : Nat} (h : plainWrite a = true) (h4 : a % 4 = 0) :
    window a ≠ 11 ∧ ¬ (A.CFG_KEYn 0 ≤ a ∧ a ≤ A.CFG_KEYn 7) ∧
    ¬ (A.PWR_JOBn_CMD 0 ≤ a ∧ a ≤ A.PWR_JOBn_CMD 3 ∧ a % 16 = 0) ∧ ¬ (0x9100 ≤ a ∧ a < 0x9190 ∧ a % 16 = 12) ∧
    ¬ (0xC0A0 ≤ a ∧ a < 0xC0C0) := by
  simp only [plainWrite, Bool.and_eq_true, Bool.not_eq_true', List.any_eq_false, List.mem_range, beq_iff_eq, bne_iff_ne,
    A.CFG_KEYn, A.PWR_JOBn_CMD, A.LPE_LPn_CMD, A.FLT_MASKn] at h
  obtain ⟨⟨⟨⟨⟨-, hsaf⟩, hkey⟩, hjob⟩, hloop⟩, hmask⟩ := h
  refine ⟨hsaf, fun hr => ?_, fun hr => ?_, fun hr => ?_, fun hr => ?_⟩
  · exact hkey ((a - A.CFG_KEYn 0) / 4) (by simp only [A.CFG_KEYn] at *; omega) (by simp only [A.CFG_KEYn] at *; omega)
  · exact hjob ((a - A.PWR_JOBn_CMD 0) / 16) (by simp only [A.PWR_JOBn_CMD] at *; omega)
      (by simp only [A.PWR_JOBn_CMD] at *; omega)
  · exact hloop ((a - 0x9100) / 16) (by omega) (by omega)
  · exact hmask ((a - 0xC0A0) / 4) (by omega) (by omega)

/-- A plain write that the port has let through goes by the access codes. -/
theorem State.hostWrite_plain {s : State} {i : Initiator} {a : Nat} {v : Word} (h : plainWrite a = true) (h4 : a % 4 = 0)
    (ha : s.absent a = false) : s.hostWrite i a v = s.regWrite a v := by
  obtain ⟨hsaf, hkey, hjob, hloop, hmask⟩ := plainWrite_ranges h h4
  have hne := ne_of_plainWrite h
  simp only [ownWriteRule, List.forall_mem_cons] at hne
  unfold State.hostWrite
  dsimp only
  split
  · simp [State.glbWrite, hne]
  · exact absurd ‹_› hsaf
  · simp [State.fltWrite, hne, hmask]
  · simp [State.lnkWrite, hne]
  · simp [State.cvnWrite, hne]
  · simp [State.cfgWrite, hne, hkey]
  · simp [State.pwrWrite, hne, hjob]
  · simp [State.coreWrite, hne, hloop, ha]

/-- A plain read that the port has let through shows the stored register and clears by the access codes. -/
theorem State.hostRead_plain {s : State} {i : Initiator} {a : Nat} (h : plainRead a = true) (ha : s.absent a = false) :
    s.hostRead i a = (s.regView a, s.readClear a) := by
  have hne := ne_of_plainRead h
  have hflt : ¬ (0xC080 ≤ a ∧ a < 0xC0A0) ∧ ¬ (0xC400 ≤ a ∧ a < 0xC800) := by
    simp only [plainRead, Bool.and_eq_true, Bool.not_eq_true', Bool.and_eq_false_iff, decide_eq_false_iff_not] at h
    omega
  simp only [ownReadRule, List.forall_mem_cons] at hne
  unfold State.hostRead
  split
  · simp [State.glbRead, hne]
  · rfl
  · simp [State.fltRead, hne, hflt]
  · rfl
  · simp [State.cvnRead, hne]
  · simp [State.cfgRead, hne]
  · rfl
  · simp [State.coreRead, hne, ha]

/-! ### The access codes, bit by bit (R14) -/

/-- An active bit after a write by the access codes. -/
theorem State.regWrite_bit {s : State} {a i : Nat} {v : Word} (h : s.Wf) (hi : i < 32) :
    ((s.regWrite a v).reg a).getLsbD i =
      if (accessMask .w1s a).getLsbD i ∧ v.getLsbD i then true
      else if (accessMask .w1c a).getLsbD i ∧ v.getLsbD i then false
      else if (accessMask .rw a).getLsbD i then v.getLsbD i
      else (s.reg a).getLsbD i := by
  have hreg : (s.regWrite a v).reg a =
      (((s.reg a &&& ~~~ accessMask .rw a) ||| (v &&& accessMask .rw a)) &&& ~~~ (v &&& accessMask .w1c a)) |||
        (v &&& accessMask .w1s a) := by
    unfold State.regWrite
    dsimp only
    split <;> exact State.reg_setReg_same h
  rw [hreg]
  simp only [BitVec.getLsbD_or, BitVec.getLsbD_and, BitVec.getLsbD_not, hi, decide_true, Bool.true_and]
  split_ifs with hset hclear hrw
  · simp [hset]
  · simp_all
  · cases hv : v.getLsbD i <;> simp_all
  · cases hv : v.getLsbD i <;> simp_all

/-- A shadow value that is written is read back. -/
theorem State.shReg_setShReg_same {s : State} {a : Nat} {w : Word} (h : s.Wf) : (s.setShReg a w).shReg a = w :=
  sparseGet_set_same h.2.1

/-- A shadow bit after a write by the access codes. -/
theorem State.regWrite_shadow_bit {s : State} {a i : Nat} {v : Word} (h : s.Wf) (hi : i < 32) :
    ((s.regWrite a v).shReg a).getLsbD i =
      if (accessMask .rws a).getLsbD i then v.getLsbD i else (s.shReg a).getLsbD i := by
  unfold State.regWrite
  dsimp only
  split
  · rename_i hm
    simp [hm, State.shReg]
  · rw [State.shReg_setShReg_same (State.setReg_wf h)]
    simp only [BitVec.getLsbD_or, BitVec.getLsbD_and, BitVec.getLsbD_not, hi, decide_true, Bool.true_and]
    cases (accessMask .rws a).getLsbD i <;> simp [State.shReg]

/-- A write by the access codes leaves every other register alone. -/
theorem State.regWrite_but (s : State) (a : Nat) (v : Word) : RegsBut [a] s (s.regWrite a v) := by
  intro b hb
  have hne : b ≠ a := List.ne_of_not_mem_cons hb
  unfold State.regWrite
  dsimp only
  split
  · exact ⟨State.reg_setReg_ne hne, rfl⟩
  · exact ⟨State.reg_setReg_ne hne, sparseGet_set_ne hne⟩

/-- A write by the access codes leaves all but the registers alone. -/
theorem State.regWrite_rest (s : State) (a : Nat) (v : Word) :
    { s.regWrite a v with regs := s.regs, shadow := s.shadow } = s := by
  unfold State.regWrite
  dsimp only
  split <;> rfl

/-- A bit that a read of the stored register returns. -/
theorem State.regView_bit {s : State} {a i : Nat} (hi : i < 32) :
    (s.regView a).getLsbD i =
      if (accessMask .wo a).getLsbD i then false
      else if (accessMask .rws a).getLsbD i then (s.shReg a).getLsbD i
      else (s.reg a).getLsbD i := by
  simp only [State.regView, BitVec.getLsbD_or, BitVec.getLsbD_and, BitVec.getLsbD_not, hi, decide_true, Bool.true_and]
  cases (accessMask .wo a).getLsbD i <;> cases (accessMask .rws a).getLsbD i <;> simp

/-- An active bit after a read. -/
theorem State.readClear_bit {s : State} {a i : Nat} (h : s.Wf) (hi : i < 32) :
    ((s.readClear a).reg a).getLsbD i =
      if (accessMask .rc1 a).getLsbD i then true
      else if (accessMask .rc a).getLsbD i then false else (s.reg a).getLsbD i := by
  unfold State.readClear
  dsimp only
  split
  · rename_i hm
    simp [hm.1, hm.2]
  · rw [State.reg_setReg_same h]
    simp only [BitVec.getLsbD_or, BitVec.getLsbD_and, BitVec.getLsbD_not, hi, decide_true, Bool.true_and]
    cases (accessMask .rc1 a).getLsbD i <;> cases (accessMask .rc a).getLsbD i <;> simp

/-- A read changes the active register that it reads and nothing else. -/
theorem State.readClear_only (s : State) (a : Nat) : OnlyRegs [a] s (s.readClear a) := by
  unfold State.readClear
  dsimp only
  split
  · exact ⟨rfl, fun _ _ => rfl⟩
  · exact onlyRegs_setReg s _ _

/-! ### The two commands through an open port (R485) -/

/-- A plain register write through an open port is the write by the access codes, answered OK. -/
theorem execRegisterWrite_plain {who : Initiator} {a : BitVec 17} {v : Word} {s : State} (h4 : a.toNat % 4 = 0)
    (hend : a.toNat < regEnd) (hw : s.writable a.toNat) (hp : plainWrite a.toNat = true) (ha : s.absent a.toNat = false) :
    exec (.registerWrite who a v) s = .next ((s.regWrite a.toNat v).answer 0 Res.ok) := by
  obtain ⟨haon, hok⟩ := hw
  have hseal : s.sealInPost who a.toNat v = s := by
    have hne := ne_of_plainWrite hp A.LMC_SEAL (by simp [ownWriteRule])
    simp [State.sealInPost, hne]
  have hport : s.portWrite who a.toNat (fun s => s.hostWrite who a.toNat v) = (s.regWrite a.toNat v).answer 0 Res.ok := by
    simp [State.portWrite, haon, hok, State.hostWrite_plain hp h4 ha]
  change Host.Outcome.next _ = _
  rw [if_pos ⟨h4, hend⟩, State.wordWrite, if_neg (not_not.mpr h4), if_pos hend, hseal, hport]

/-- A plain register read through an open port answers the stored register and clears by the access codes. -/
theorem execReadClearRegister_plain {who : Initiator} {a : BitVec 17} {s : State} (h4 : a.toNat % 4 = 0)
    (hend : a.toNat < regEnd) (hr : s.readable a.toNat) (hp : plainRead a.toNat = true) (ha : s.absent a.toNat = false) :
    exec (.readClearRegister who a) s = .next ((s.readClear a.toNat).answer (s.regView a.toNat) Res.ok) := by
  obtain ⟨haon, hok, hfz, hrow⟩ := hr
  have hport : s.portRead who a.toNat (fun s => s.hostRead who a.toNat) =
      (s.readClear a.toNat).answer (s.regView a.toNat) Res.ok := by
    have hsome : (regRow a.toNat).isNone = false := by simpa using hrow
    simp [State.portRead, haon, hok, hfz, hsome, State.hostRead_plain hp ha]
  change Host.Outcome.next _ = _
  rw [if_pos ⟨h4, hend⟩, State.wordRead, if_neg (not_not.mpr h4), if_pos hend, hport]

/-- Settles O8: the commands reduce to `regWrite`, `regView` and `readClear`, which act bit by bit. -/
theorem plainRegistersFollowAccessCodes : Obligations.PlainRegistersFollowAccessCodes := by
  constructor
  · intro who a v s hs h4 hend hw hp ha
    refine ⟨_, execRegisterWrite_plain h4 hend hw hp ha, ?_, ?_, ?_, ?_⟩
    · exact fun i hi => State.regWrite_bit hs hi
    · exact fun i hi => State.regWrite_shadow_bit hs hi
    · exact State.regWrite_but s a.toNat v
    · exact congrArg State.accepted (State.regWrite_rest s a.toNat v)
  · intro who a s hs h4 hend hr hp ha
    refine ⟨_, execReadClearRegister_plain h4 hend hr hp ha, ?_, rfl, ?_, ?_⟩
    · exact fun i hi => State.regView_bit hi
    · exact fun i hi => State.readClear_bit hs hi
    · obtain ⟨hrest, hregs⟩ := State.readClear_only s a.toNat
      exact ⟨congrArg (fun t : State => { t with port := s.port }) hrest, hregs⟩

end Sys2Proof.Machine
end

section
/-!
A RASTER_START that ends a transition starts the latched power request (R433).  From IDLE a latched DORMANT enters D1, which
cancels the jobs, and the unit that the non-volatile writer has begun is completed (R410, R440): a byte of memory changes.
-/

namespace Sys2Proof.Machine

/-- The accepted start: FREE, 100 slots, 24 lines of blanking, K = 40. -/
def pendingStart : Retime := { nSlots := 100, vb := 24, k := 40, mode := 0, src := 0, start := true, byThm := false }

/-- CORE and the main PLL are on, in IDLE, in step L2 with TARGET = IDLE, and DORMANT is latched. -/
def dormantLatched : State :=
  let core := (State.reset.put F.PWR_DOM_CORE 1).put F.PWR_DOM_PLL 1
  let idle := (core.put F.PWR_STATUS_STATE Power.idle).put F.PWR_STATUS_TARGET Power.idle
  (idle.put F.PWR_STATUS_STEP PwStep.l2).requestLatch Power.dormant

/-- A start is pending, and the first of a checkpoint's two units is being written. -/
def latchedAtStart : State :=
  { dormantLatched with
    ras := { dormantLatched.ras with pend := some pendingStart }
    nvmw := { tasks := [{ owner := Job.recCheckpoint, units := [(0, [1]), (64, [1])] }], unit := some (0, [1]) } }

theorem latchedAtStart_wf : latchedAtStart.Wf := by
  have hreset : State.reset.Wf := ⟨sparseWf_nil, sparseWf_nil, sparseWf_nil, sparseWf_nil⟩
  have hlatched : dormantLatched.Wf := by
    unfold dormantLatched State.requestLatch
    iterate 7 apply State.put_wf
    exact hreset
  exact hlatched

/-- The start of the raster completes the unit, whose byte 0 is 1. -/
theorem rasterStart_writes_unit : ∃ t, exec .rasterStart latchedAtStart = .next t ∧ t.nvByte 0 = 1 :=
  ⟨_, rfl, by decide +kernel⟩

/-- Refutes O22: no hypothesis of its first clause ties the power step to TARGET, and in step L2 with TARGET = IDLE and
DORMANT latched RASTER_START writes non-volatile byte 0. -/
theorem not_rasterStartsAndCounts : ¬ Obligations.RasterStartsAndCounts := by
  rintro ⟨hstart, -⟩
  obtain ⟨t, ht, -, -, -, -, -, -, -, -, -, -, -, -, -, -, -, -, -, -, hmem⟩ :=
    hstart latchedAtStart pendingStart latchedAtStart_wf (by decide +kernel) rfl rfl (by decide) (by decide) (by decide)
      (by decide) (by decide)
  obtain ⟨u, hu, hbyte⟩ := rasterStart_writes_unit
  obtain rfl := Host.Outcome.next.inj (ht.symm.trans hu)
  obtain ⟨-, hnv⟩ := hmem
  have hzero : latchedAtStart.nvByte 0 = 0 := rfl
  rw [hnv 0, hzero] at hbyte
  exact absurd hbyte (by decide)

end Sys2Proof.Machine
end

section
/-!
A step is the meaning of the front command.  An access through the register port is decided by R485; a refused one is
recorded, reported and answered, and does nothing else (R437, R487).
-/

namespace Sys2Proof.Machine

/-- Settles O1: by the shape of the queue. -/
theorem stepRunsFrontCommand : Obligations.StepRunsFrontCommand :=
  ⟨fun _ _ _ => step_of_front rfl, fun _ h => step_of_empty h⟩

/-! ### The register port refuses (R485, R487) -/

/-- With AON in reset a write reaches nothing: neither the register nor a seal in the self-test. -/
theorem State.wordWrite_aonOff {s : State} {i : Initiator} {a : Nat} {v : Word} (h4 : a % 4 = 0) (hend : a < regEnd)
    (hoff : s.aonOn = false) : s.wordWrite i a v = s := by
  simp [State.wordWrite, h4, hend, State.sealInPost, State.portWrite, hoff]

/-- With AON in reset a read answers nothing. -/
theorem State.wordRead_aonOff {s : State} {i : Initiator} {a : Nat} (h4 : a % 4 = 0) (hend : a < regEnd)
    (hoff : s.aonOn = false) : s.wordRead i a = s := by
  simp [State.wordRead, h4, hend, State.portRead, hoff]

/-- A write that the port refuses is recorded with its RESULT; one to a block that is off is counted and reported as well. -/
theorem State.wordWrite_refused {s : State} {i : Initiator} {a r : Nat} {v : Word} (h4 : a % 4 = 0) (hend : a < regEnd)
    (haon : s.aonOn = true) (hr : s.portDecide a true = r) (hne : r ≠ Res.ok)
    (hseal : r ≠ Res.busy ∨ a ≠ A.LMC_SEAL ∨ s.post = false) :
    s.wordWrite i a v =
      (((if r = Res.off then s.offBlock i a else s).accRecord (initNo i) r true a).answer 0 r) := by
  have hpost : s.sealInPost i a v = s := by
    rcases hseal with h | h | h <;> simp [State.sealInPost, hr, h]
  subst hr
  simp [State.wordWrite, h4, hend, hpost, State.portWrite, haon, hne]

/-- A read that the port refuses answers 0 and is recorded with its RESULT. -/
theorem State.wordRead_refused {s : State} {i : Initiator} {a r : Nat} (h4 : a % 4 = 0) (hend : a < regEnd)
    (haon : s.aonOn = true) (hr : s.portDecide a false = r) (hne : r ≠ Res.ok) :
    s.wordRead i a = (s.accRecord (initNo i) r false a).answer 0 r := by
  subst hr
  simp [State.wordRead, h4, hend, State.portRead, haon, hne]

/-- A read of a reserved offset of a block that is on answers 0 with OK. -/
theorem State.wordRead_reserved {s : State} {i : Initiator} {a : Nat} (h4 : a % 4 = 0) (hend : a < regEnd)
    (haon : s.aonOn = true) (hok : s.portDecide a false = Res.ok) (hrow : regRow a = none) :
    s.wordRead i a = s.answer 0 Res.ok := by
  simp [State.wordRead, h4, hend, State.portRead, haon, hok, hrow]

theorem execRegisterWrite_eq {i : Initiator} {a : BitVec 17} {v : Word} {s : State} (h4 : a.toNat % 4 = 0)
    (hend : a.toNat < regEnd) : exec (.registerWrite i a v) s = .next (s.wordWrite i a.toNat v) :=
  congrArg Host.Outcome.next (if_pos ⟨h4, hend⟩)

theorem execReadClearRegister_eq {i : Initiator} {a : BitVec 17} {s : State} (h4 : a.toNat % 4 = 0)
    (hend : a.toNat < regEnd) : exec (.readClearRegister i a) s = .next (s.wordRead i a.toNat) :=
  congrArg Host.Outcome.next (if_pos ⟨h4, hend⟩)

/-! ### Fields after writes of fields -/

/-- A written field reads what was written, to its width. -/
theorem State.get_put_self {s : State} {f : Field} {v : Nat} (hs : s.Wf) (hf : f.hi < 32 ∧ f.lo ≤ f.hi) :
    (s.put f v).get f = v % 2 ^ (f.hi + 1 - f.lo) := State.get_put_same hs hf

/-- A field of another register, or beside the written one, keeps its value. -/
theorem State.get_put_ne {s : State} {f g : Field} {v : Nat} (hs : s.Wf) (hf : f.hi < 32 ∧ f.lo ≤ f.hi)
    (hd : g.addr ≠ f.addr ∨ g.hi < f.lo ∨ f.hi < g.lo) : (s.put f v).get g = s.get g := by
  by_cases ha : g.addr = f.addr
  · exact State.get_put_beside hs hf ha (hd.resolve_left (not_not.mpr ha))
  · exact State.get_put_addr ha

/-! ### The record of a refused access (R487) -/

/-- The record of a refused access reads back in its five fields. -/
theorem State.accPut_get {s : State} {n r a : Nat} {write : Bool} (hs : s.Wf) (hn : n < 16) (hr : r < 256) (ha : a < 2 ^ 32) :
    (s.accPut n r write a).get F.GLB_ACC_ERR_VALID = 1 ∧ (s.accPut n r write a).get F.GLB_ACC_ERR_RESULT = r ∧
    (s.accPut n r write a).get F.GLB_ACC_ERR_INIT = n ∧ (s.accPut n r write a).get F.GLB_ACC_ERR_WRITE = b2n write ∧
    (s.accPut n r write a).get F.GLB_ACC_ADDR_ADDR = a := by
  have hwrite : b2n write < 2 := by cases write <;> decide
  unfold State.accPut State.putB
  refine ⟨?_, ?_, ?_, ?_, ?_⟩ <;>
    simp (disch := first | decide | apply_rules [State.put_wf]) only [State.get_put_ne, State.get_put_self]
  · exact Nat.mod_eq_of_lt (by decide)
  · exact Nat.mod_eq_of_lt hr
  · exact Nat.mod_eq_of_lt (Nat.lt_of_lt_of_le hn (by decide))
  · exact Nat.mod_eq_of_lt hwrite
  · exact Nat.mod_eq_of_lt ha

/-- The record of a refused access changes the two registers of R487 alone. -/
theorem State.accPut_only (s : State) (n r : Nat) (write : Bool) (a : Nat) :
    OnlyRegs [A.GLB_ACC_ERR, A.GLB_ACC_ADDR] s (s.accPut n r write a) := by
  refine ⟨rfl, fun b hb => ?_⟩
  have herr : b ≠ A.GLB_ACC_ERR := fun h => hb (by simp [h])
  have haddr : b ≠ A.GLB_ACC_ADDR := fun h => hb (by simp [h])
  unfold State.accPut State.putB
  rw [State.reg_put_ne haddr, State.reg_put_ne herr, State.reg_put_ne herr, State.reg_put_ne herr, State.reg_put_ne herr]

/-! ### The decision of the port (R437, R485) -/

/-- An access to a block that is off answers OFF. -/
theorem State.portDecide_off {s : State} {a : Nat} {write : Bool} (h : s.blockOff a = true) :
    s.portDecide a write = Res.off := by
  simp [State.portDecide, h]

/-- An access to a block that is on and not busy, of a module that is not frozen, is refused only as a write where nothing
can be written. -/
theorem State.portDecide_on {s : State} {a : Nat} {write : Bool} (hoff : s.blockOff a = false) (hbusy : s.blockBusy a = false)
    (hfz : s.frozen = false) :
    s.portDecide a write = if write = true ∧ ((regRow a).isNone = true ∨ hasWritable a = false) then Res.ro else Res.ok := by
  simp only [State.portDecide, hoff, hbusy, hfz, Bool.false_eq_true, if_false]
  cases write <;> cases regRow a <;> simp

/-- The windows of the blocks of AON and of the island: GLB, SAF, FLT, CVN, PWR (R23). -/
def aonWindows : List Nat := [0, 11, 12, 14, 16]

theorem not_core_of_aonWindow {w : Nat} (h : w ∈ aonWindows) :
    coreWindow w = false ∧ lnkWindow w = false ∧ w ≠ 10 ∧ w ≠ 2 ∧ w ≠ 20 ∧ w ≠ 4 ∧ w ≠ 5 := by
  revert h
  unfold aonWindows
  decide +revert

/-- The blocks of AON and of the island are never off and never busy. -/
theorem State.block_open_of_aon {s : State} {a : Nat} (h : window a ∈ aonWindows) :
    s.blockOff a = false ∧ s.blockBusy a = false := by
  obtain ⟨hcore, hlnk, h10, h2, h20, h4, h5⟩ := not_core_of_aonWindow h
  simp [State.blockOff, State.blockBusy, hcore, hlnk, h10, h2, h20, h4, h5]

/-- In IDLE, LIT and HOT_STANDBY with CORE and LNK on no block is off, and none is busy without the self-test. -/
theorem State.block_open_of_awake {s : State} {a : Nat} (hcore : s.get F.PWR_DOM_CORE ≠ 0) (hlnk : s.get F.PWR_DOM_LNK ≠ 0)
    (hpow : s.power ∈ [3, 4, 5]) (hpost : s.post = false) : s.blockOff a = false ∧ s.blockBusy a = false := by
  have h6 : s.power ≠ Power.safe := by rintro h; simp [h, Power.safe] at hpow
  have h1 : s.power ≠ Power.boot := by rintro h; simp [h, Power.boot] at hpow
  simp [State.blockOff, State.blockBusy, State.lnkOn, State.coreOn, State.flag, hcore, hlnk, h6, h1, hpost]

/-- A CORE block but THM is off with CORE off, and in SAFE (R425, R437). -/
theorem State.blockOff_core {s : State} {a : Nat} (hw : a / 0x1000 ∈ [1, 2, 3, 4, 5, 6, 7, 8, 9, 15, 17, 18, 19, 20])
    (h : s.get F.PWR_DOM_CORE = 0 ∨ s.power = 6) : s.blockOff a = true := by
  have hkind : coreWindow (a / 0x1000) = true ∧ lnkWindow (a / 0x1000) = false ∧ a / 0x1000 ≠ 10 := by
    generalize a / 0x1000 = w at hw
    revert hw
    decide +revert
  have hoff : s.coreOn = false := by
    rcases h with h | h <;> simp [State.coreOn, State.flag, h, Power.safe]
  simp [State.blockOff, window, hkind, hoff]

/-- Settles O7: the two commands are accesses through the port, whose refusals are said above, and the decision of the port
comes from the domains of the block. -/
theorem portRefusesAndRecords : Obligations.PortRefusesAndRecords := by
  refine ⟨fun who a v s h4 hend => ⟨fun hoff => ?_, fun haon hr => ?_, fun r haon hr hres hseal => ?_,
    fun r haon hr hres => ?_, fun haon hr hrow => ?_⟩, fun s n r write a hs hn hr h0 ha => ?_,
    fun s a write hend => ⟨fun hw h => ?_, fun hw h => ?_, fun hw h => ?_⟩, fun s a write hend hon hpost hfz => ?_⟩
  · rw [execRegisterWrite_eq h4 hend, execReadClearRegister_eq h4 hend, State.wordWrite_aonOff h4 hend hoff,
      State.wordRead_aonOff h4 hend hoff]
    exact ⟨rfl, rfl⟩
  · rw [execRegisterWrite_eq h4 hend, State.wordWrite_refused h4 hend haon hr (by decide) (.inl (by decide))]
    rfl
  · have hne : r ≠ Res.ok ∧ r ≠ Res.off := by rcases hres with rfl | rfl <;> decide
    rw [execRegisterWrite_eq h4 hend, State.wordWrite_refused h4 hend haon hr hne.1 (.inr hseal), if_neg hne.2]
  · have hne : r ≠ Res.ok := by rcases hres with rfl | rfl <;> decide
    rw [execReadClearRegister_eq h4 hend, State.wordRead_refused h4 hend haon hr hne]
  · rw [execReadClearRegister_eq h4 hend, State.wordRead_reserved h4 hend haon hr hrow]
    rfl
  · rw [State.accRecord, if_neg (c := r = Res.ok) h0]
    obtain ⟨hvalid, hres, hinit, hwrite, haddr⟩ := State.accPut_get hs hn hr ha
    exact ⟨hvalid, hres, hinit, hwrite, haddr, State.accPut_only s n r write a⟩
  · exact State.portDecide_off (by simp [State.blockOff, window, lnkWindow, hw, State.flag, h])
  · exact State.portDecide_off (by simp [State.blockOff, window, lnkWindow, hw, State.lnkOn, State.flag, h])
  · exact State.portDecide_off (State.blockOff_core hw h)
  · have hopen : s.blockOff a = false ∧ s.blockBusy a = false := by
      rcases hon with hw | ⟨hcore, hlnk, hpow⟩
      · exact State.block_open_of_aon hw
      · exact State.block_open_of_awake hcore hlnk hpow (by simp [State.post, State.flag, hpost])
    rw [State.portDecide_on hopen.1 hopen.2 (by simp [State.frozen, State.flag, hfz])]
    rfl

end Sys2Proof.Machine
end

section
/-!
What an operation leaves unchanged.  `Frame L ps s t` says that from `s` to `t` only registers in the address spans `L` and
only the parts `ps` of the state may differ.  It is closed under the updates of the model, so the frame of an operation is
read off its definition from the outside in.
-/

namespace Sys2Proof.Machine

/-! ### Parts and spans -/

/-- The parts of the state beside the values of its registers.  The last five are within others: the latches of the pixels within `ary`, the
unit being written within `nvmw`, the TAP's state within `cfg`, the reset, the clock-off grant and the wanted strap read of the
island within `saf`, and the events that have occurred within the interrupt register; an operation with `events` may clear
them (R490). -/
inductive Part where
  | pending | port | freeCount | lmem | nvm | ras | lmc | cmp | nvmw | msk | lum | ary | hlt | lpe | recd | thm | lnk | cvn | tdm
  | cfg | spi | saf | flt | pwr | cal | bst | shadow | latches | unit | tap | island | events
  deriving DecidableEq

/-- The part is the same in both states. -/
def Part.Same : Part → State → State → Prop
  | .pending, s, t => t.pending = s.pending
  | .port, s, t => t.port = s.port
  | .freeCount, s, t => t.freeCount = s.freeCount
  | .lmem, s, t => t.lmem = s.lmem
  | .nvm, s, t => t.nvm = s.nvm
  | .ras, s, t => t.ras = s.ras
  | .lmc, s, t => t.lmc = s.lmc
  | .cmp, s, t => t.cmp = s.cmp
  | .nvmw, s, t => t.nvmw = s.nvmw
  | .msk, s, t => t.msk = s.msk
  | .lum, s, t => t.lum = s.lum
  | .ary, s, t => t.ary = s.ary
  | .hlt, s, t => t.hlt = s.hlt
  | .lpe, s, t => t.lpe = s.lpe
  | .recd, s, t => t.recd = s.recd
  | .thm, s, t => t.thm = s.thm
  | .lnk, s, t => t.lnk = s.lnk
  | .cvn, s, t => t.cvn = s.cvn
  | .tdm, s, t => t.tdm = s.tdm
  | .cfg, s, t => t.cfg = s.cfg
  | .spi, s, t => t.spi = s.spi
  | .saf, s, t => t.saf = s.saf
  | .flt, s, t => t.flt = s.flt
  | .pwr, s, t => t.pwr = s.pwr
  | .cal, s, t => t.cal = s.cal
  | .bst, s, t => t.bst = s.bst
  | .shadow, s, t => t.shadow = s.shadow
  | .latches, s, t => (t.ary.storage = s.ary.storage ∧ t.ary.display = s.ary.display) ∧ t.ary.maskW = s.ary.maskW ∧
      t.ary.maskA = s.ary.maskA
  | .tap, s, t => t.cfg.tap = s.cfg.tap
  | .unit, s, t => t.nvmw.unit = s.nvmw.unit
  | .island, s, t => (t.saf.held, t.saf.grant, t.saf.sealWant) = (s.saf.held, s.saf.grant, s.saf.sealWant)
  | .events, _, _ => True

theorem Part.Same.refl (p : Part) (s : State) : p.Same s s := by
  cases p with
  | latches => exact ⟨⟨rfl, rfl⟩, rfl, rfl⟩
  | events => trivial
  | _ => rfl

theorem Part.Same.trans {p : Part} {s t u : State} (h : p.Same s t) (h' : p.Same t u) : p.Same s u := by
  cases p with
  | latches =>
    obtain ⟨⟨hs, hd⟩, hw, ha⟩ := h
    obtain ⟨⟨hs', hd'⟩, hw', ha'⟩ := h'
    exact ⟨⟨hs'.trans hs, hd'.trans hd⟩, hw'.trans hw, ha'.trans ha⟩
  | events => trivial
  | _ => exact Eq.trans h' h

/-- A stretch of register addresses, from `lo` on to before `hi`; without end where `hi` is 0. -/
structure Span where
  lo : Nat
  hi : Nat

/-- The one register at `a`. -/
def Span.reg (a : Nat) : Span := ⟨a, a + 1⟩

/-- The 4 KiB window of a block (R23). -/
def Span.window (w : Nat) : Span := ⟨0x1000 * w, 0x1000 * w + 0x1000⟩

/-- The address lies in one of the spans. -/
def covers (L : List Span) (a : Nat) : Bool := L.any fun r => Nat.ble r.lo a && (Nat.beq r.hi 0 || Nat.blt a r.hi)

/-- Every span of `L` lies in a span of `M`. -/
def within (L M : List Span) : Bool :=
  L.all fun r => M.any fun q => Nat.ble q.lo r.lo && (Nat.beq q.hi 0 || (Nat.blt 0 r.hi && Nat.ble r.hi q.hi))

theorem covers_of_within {L M : List Span} {a : Nat} (h : within L M = true) (ha : covers L a = true) : covers M a = true := by
  simp only [covers, List.any_eq_true] at ha ⊢
  obtain ⟨r, hr, har⟩ := ha
  simp only [within, List.all_eq_true, List.any_eq_true] at h
  obtain ⟨q, hq, hqr⟩ := h r hr
  refine ⟨q, hq, ?_⟩
  simp only [Bool.and_eq_true, Bool.or_eq_true, Nat.ble_eq, Nat.blt_eq, Nat.beq_eq] at har hqr ⊢
  omega

/-- The state `t` with the parts `ps` of `u`. -/
def State.takeParts (ps : List Part) (t u : State) : State := { t with
  pending := if ps.contains .pending then u.pending else t.pending,
  port := if ps.contains .port then u.port else t.port,
  freeCount := if ps.contains .freeCount then u.freeCount else t.freeCount,
  lmem := if ps.contains .lmem then u.lmem else t.lmem,
  nvm := if ps.contains .nvm then u.nvm else t.nvm,
  ras := if ps.contains .ras then u.ras else t.ras,
  lmc := if ps.contains .lmc then u.lmc else t.lmc,
  cmp := if ps.contains .cmp then u.cmp else t.cmp,
  nvmw := if ps.contains .nvmw then if ps.contains .unit then u.nvmw else { u.nvmw with unit := t.nvmw.unit } else t.nvmw,
  msk := if ps.contains .msk then u.msk else t.msk,
  lum := if ps.contains .lum then u.lum else t.lum,
  ary := if ps.contains .ary then
      if ps.contains .latches then u.ary
      else { u.ary with storage := t.ary.storage, display := t.ary.display, maskW := t.ary.maskW, maskA := t.ary.maskA }
    else t.ary,
  hlt := if ps.contains .hlt then u.hlt else t.hlt,
  lpe := if ps.contains .lpe then u.lpe else t.lpe,
  recd := if ps.contains .recd then u.recd else t.recd,
  thm := if ps.contains .thm then u.thm else t.thm,
  lnk := if ps.contains .lnk then u.lnk else t.lnk,
  cvn := if ps.contains .cvn then u.cvn else t.cvn,
  tdm := if ps.contains .tdm then u.tdm else t.tdm,
  cfg := if ps.contains .cfg then if ps.contains .tap then u.cfg else { u.cfg with tap := t.cfg.tap } else t.cfg,
  spi := if ps.contains .spi then u.spi else t.spi,
  saf := if ps.contains .saf then
      if ps.contains .island then u.saf
      else { u.saf with held := t.saf.held, grant := t.saf.grant, sealWant := t.saf.sealWant }
    else t.saf,
  flt := if ps.contains .flt then u.flt else t.flt,
  pwr := if ps.contains .pwr then u.pwr else t.pwr,
  cal := if ps.contains .cal then u.cal else t.cal,
  bst := if ps.contains .bst then u.bst else t.bst,
  shadow := if ps.contains .shadow then u.shadow else t.shadow }

theorem State.takeParts_same {ps : List Part} {t u : State} {p : Part} (hp : ps.contains p = false) :
    p.Same t (State.takeParts ps t u) := by
  cases p <;> simp only [Part.Same, State.takeParts, hp, Bool.false_eq_true, if_false]
  case latches => split <;> exact ⟨⟨rfl, rfl⟩, rfl, rfl⟩
  all_goals split <;> rfl

/-! ### Frames -/

/-- From `s` to `t` only registers in the spans `L` and only the parts `ps` may differ, and the canonical form is kept. -/
structure Frame (L : List Span) (ps : List Part) (s t : State) : Prop where
  wf : s.Wf → t.Wf
  reg : ∀ a, covers L a = false → t.reg a = s.reg a
  part : ∀ p, ps.contains p = false → p.Same s t
  events : ps.contains .events = false → s.Wf → ∀ n, (s.reg A.GLB_IRQ_STATUS).getLsbD n = true →
    (t.reg A.GLB_IRQ_STATUS).getLsbD n = true

/-- A register in the spans that is not the register of the events, unless these may be cleared. -/
def writes (L : List Span) (ps : List Part) (a : Nat) : Bool :=
  covers L a && (ps.contains .events || a != A.GLB_IRQ_STATUS)

/-- The registers that an event touches (R490). -/
abbrev irqSpans : List Span := [.reg A.GLB_IRQ_STATUS, .reg A.GLB_IRQ_RAW]

namespace Frame

variable {L M : List Span} {ps qs : List Part} {s t u : State}

theorem refl : Frame L ps s s := ⟨id, fun _ _ => rfl, fun p _ => .refl p s, fun _ _ _ => id⟩

theorem trans (h : Frame L ps s t) (h' : Frame L ps t u) : Frame L ps s u :=
  ⟨h'.wf ∘ h.wf, fun a ha => (h'.reg a ha).trans (h.reg a ha),
    fun p hp => (h.part p hp).trans (h'.part p hp), fun he hs n hn => h'.events he (h.wf hs) n (h.events he hs n hn)⟩

theorem mono (h : Frame L ps s t) (hL : (within L M && ps.all qs.contains) = true) : Frame M qs s t := by
  rw [Bool.and_eq_true, List.all_eq_true] at hL
  obtain ⟨hL, hp⟩ := hL
  have hout : ∀ p, qs.contains p = false → ps.contains p = false := by
    intro p hnot
    by_contra hc
    rw [hp p (by simpa using hc)] at hnot
    cases hnot
  refine ⟨h.wf, fun a ha => h.reg a ?_, fun p hnot => h.part p (hout p hnot), fun he => h.events (hout _ he)⟩
  by_contra hc
  rw [covers_of_within hL (by simpa using hc)] at ha
  cases ha

/-- An operation with a frame of its own goes on from `t`. -/
theorem op (h' : Frame M qs t u) (h : Frame L ps s t) (hM : (within M L && qs.all ps.contains) = true) : Frame L ps s u :=
  h.trans (h'.mono hM)

theorem ite {c : Prop} [Decidable c] (h : Frame L ps s t) (h' : Frame L ps s u) : Frame L ps s (if c then t else u) := by
  split
  · exact h
  · exact h'

/-- An update of the parts in `ps`. -/
theorem upd (h : Frame L ps s t) (hu : State.takeParts ps t u = u) (hw : t.Wf → u.Wf) : Frame L ps s u := by
  refine h.trans ⟨hw, fun a _ => ?_, fun p hp => ?_, fun _ _ n hn => ?_⟩
  · rw [← hu]; rfl
  · rw [← hu]; exact State.takeParts_same hp
  · rw [← hu]; exact hn

/-- A register in the spans is written. -/
theorem setReg {a : Nat} {w : Word} (h : Frame L ps s t) (ha : writes L ps a = true) : Frame L ps s (t.setReg a w) := by
  rw [writes, Bool.and_eq_true, Bool.or_eq_true] at ha
  obtain ⟨ha, hev⟩ := ha
  refine h.trans ⟨State.setReg_wf, fun b hb => State.reg_setReg_ne ?_, fun p _ => ?_, fun he _ n hn => ?_⟩
  · rintro rfl
    rw [ha] at hb
    cases hb
  · cases p with
    | latches => exact ⟨⟨rfl, rfl⟩, rfl, rfl⟩
    | events => trivial
    | _ => rfl
  · rw [State.reg_setReg_ne]
    · exact hn
    · rintro rfl
      rcases hev with hev | hev
      · rw [hev] at he
        cases he
      · simp at hev

theorem put {f : Field} {v : Nat} (h : Frame L ps s t) (ha : writes L ps f.addr = true) : Frame L ps s (t.put f v) := h.setReg ha

theorem putB {f : Field} {b : Bool} (h : Frame L ps s t) (ha : writes L ps f.addr = true) : Frame L ps s (t.putB f b) := h.put ha

theorem inc {f : Field} (h : Frame L ps s t) (ha : writes L ps f.addr = true) : Frame L ps s (t.inc f) := h.put ha

theorem saf {x : Saf} (h : Frame L ps s t) (hp : ps.contains .saf = true)
    (hx : (x.held, x.grant, x.sealWant) = (t.saf.held, t.saf.grant, t.saf.sealWant)) :
    Frame L ps s { t with saf := x } := by
  refine h.upd ?_ id
  obtain ⟨hh, hg⟩ := Prod.mk.inj hx
  obtain ⟨hg, hw⟩ := Prod.mk.inj hg
  simp only [State.takeParts, hp, if_true, ite_self, ← hh, ← hg, ← hw]

theorem flt {x : Flt} (h : Frame L ps s t) (hp : ps.contains .flt = true) : Frame L ps s { t with flt := x } :=
  h.upd (by simp only [State.takeParts, hp, if_true, ite_self]) id

theorem ary {x : Ary} (h : Frame L ps s t) (hp : ps.contains .ary = true)
    (hx : (x.storage = t.ary.storage ∧ x.display = t.ary.display) ∧ x.maskW = t.ary.maskW ∧ x.maskA = t.ary.maskA) :
    Frame L ps s { t with ary := x } := by
  refine h.upd ?_ id
  obtain ⟨⟨hs, hd⟩, hw, ha⟩ := hx
  simp only [State.takeParts, hp, if_true, ite_self, ← hs, ← hd, ← hw, ← ha]

theorem lpe {x : Lpe} (h : Frame L ps s t) (hp : ps.contains .lpe = true) : Frame L ps s { t with lpe := x } :=
  h.upd (by simp only [State.takeParts, hp, if_true, ite_self]) id

theorem cal {x : Cal} (h : Frame L ps s t) (hp : ps.contains .cal = true) : Frame L ps s { t with cal := x } :=
  h.upd (by simp only [State.takeParts, hp, if_true, ite_self]) id

theorem ras {x : Ras} (h : Frame L ps s t) (hp : ps.contains .ras = true) : Frame L ps s { t with ras := x } :=
  h.upd (by simp only [State.takeParts, hp, if_true, ite_self]) id

theorem msk {x : Msk} (h : Frame L ps s t) (hp : ps.contains .msk = true) : Frame L ps s { t with msk := x } :=
  h.upd (by simp only [State.takeParts, hp, if_true, ite_self]) id

theorem cfg {x : Cfg} (h : Frame L ps s t) (hp : ps.contains .cfg = true)
    (hx : x.tap = t.cfg.tap) :
    Frame L ps s { t with cfg := x } := 
  h.upd (by simp only [State.takeParts, hp, if_true, ite_self, ← hx]) id

theorem tdm {x : Tdm} (h : Frame L ps s t) (hp : ps.contains .tdm = true) : Frame L ps s { t with tdm := x } :=
  h.upd (by simp only [State.takeParts, hp, if_true, ite_self]) id

theorem pwr {x : Pwr} (h : Frame L ps s t) (hp : ps.contains .pwr = true) : Frame L ps s { t with pwr := x } :=
  h.upd (by simp only [State.takeParts, hp, if_true, ite_self]) id

theorem nvmw {x : Nvmw} (h : Frame L ps s t) (hp : ps.contains .nvmw = true)
    (hx : x.unit = t.nvmw.unit) :
    Frame L ps s { t with nvmw := x } := 
  h.upd (by simp only [State.takeParts, hp, if_true, ite_self, ← hx]) id

theorem lnk {x : Lnk} (h : Frame L ps s t) (hp : ps.contains .lnk = true) : Frame L ps s { t with lnk := x } :=
  h.upd (by simp only [State.takeParts, hp, if_true, ite_self]) id

theorem cmp {x : Cmp} (h : Frame L ps s t) (hp : ps.contains .cmp = true) : Frame L ps s { t with cmp := x } :=
  h.upd (by simp only [State.takeParts, hp, if_true, ite_self]) id

theorem hlt {x : Hlt} (h : Frame L ps s t) (hp : ps.contains .hlt = true) : Frame L ps s { t with hlt := x } :=
  h.upd (by simp only [State.takeParts, hp, if_true, ite_self]) id

theorem recd {x : Recorder} (h : Frame L ps s t) (hp : ps.contains .recd = true) : Frame L ps s { t with recd := x } :=
  h.upd (by simp only [State.takeParts, hp, if_true, ite_self]) id

theorem lum {x : Lum} (h : Frame L ps s t) (hp : ps.contains .lum = true) : Frame L ps s { t with lum := x } :=
  h.upd (by simp only [State.takeParts, hp, if_true, ite_self]) id

theorem lmc {x : Lmc} (h : Frame L ps s t) (hp : ps.contains .lmc = true) : Frame L ps s { t with lmc := x } :=
  h.upd (by simp only [State.takeParts, hp, if_true, ite_self]) id

theorem cvn {x : Cvn} (h : Frame L ps s t) (hp : ps.contains .cvn = true) : Frame L ps s { t with cvn := x } :=
  h.upd (by simp only [State.takeParts, hp, if_true, ite_self]) id

theorem thm {x : Thm} (h : Frame L ps s t) (hp : ps.contains .thm = true) : Frame L ps s { t with thm := x } :=
  h.upd (by simp only [State.takeParts, hp, if_true, ite_self]) id

/-- A field outside the spans keeps its value. -/
theorem get {f : Field} (h : Frame L ps s t) (ha : covers L f.addr = false) : t.get f = s.get f := by
  unfold State.get
  rw [h.reg _ ha]

theorem flag {f : Field} (h : Frame L ps s t) (ha : covers L f.addr = false) : t.flag f = s.flag f := by
  unfold State.flag
  rw [h.get ha]

/-- Where the spans lie within single registers, the other registers are those of before. -/
theorem regsBut {as : List Nat} (h : Frame L ps s t) (hL : (within L (as.map .reg) && !ps.contains .shadow) = true) :
    RegsBut as s t := by
  rw [Bool.and_eq_true, Bool.not_eq_true'] at hL
  obtain ⟨hL, hsh⟩ := hL
  refine fun a hn => ⟨h.reg a ?_, congrArg (sparseGet regReset · a) (h.part .shadow hsh)⟩
  by_contra hc
  have hcov := covers_of_within hL (by simpa using hc)
  simp only [covers, List.any_map, List.any_eq_true, Function.comp_apply, Span.reg, Bool.and_eq_true, Bool.or_eq_true, Nat.ble_eq,
    Nat.blt_eq, Nat.beq_eq] at hcov
  obtain ⟨b, hb, hab⟩ := hcov
  obtain rfl : a = b := by omega
  exact hn hb

/-- Both memory windows are untouched. -/
theorem sameMemory (h : Frame L ps s t) (hn : (ps.contains .lmem || ps.contains .nvm) = false) : SameMemory s t := by
  rw [Bool.or_eq_false_iff] at hn
  exact ⟨fun a => congrArg (sparseGet memDefault · a) (h.part .lmem hn.1), fun a => congrArg (sparseGet memDefault · a) (h.part .nvm hn.2)⟩

/-- The register of the events once event `n` has occurred. -/
theorem irq_status {n : Nat} (hs : t.Wf) :
    (t.irq n).reg A.GLB_IRQ_STATUS = t.reg A.GLB_IRQ_STATUS ||| BitVec.ofNat 32 (2 ^ n) := by
  unfold State.irq
  extract_lets _ s1
  have hw : s1.Wf := by unfold s1; split <;> exact hs
  have hr : s1.reg A.GLB_IRQ_STATUS = t.reg A.GLB_IRQ_STATUS := by unfold s1; split <;> rfl
  rw [State.reg_setReg_ne (by decide), State.reg_setReg_same hw, hr]

/-- An event sets its bit in the two interrupt registers, and may ask for a message (R357, R490). -/
theorem irq {n : Nat} (h : Frame L ps s t) (ha : (within irqSpans L && ps.contains .lnk) = true) : Frame L ps s (t.irq n) := by
  rw [Bool.and_eq_true] at ha
  have hf : Frame irqSpans [.lnk, .events] t (t.irq n) := by
    unfold State.irq
    exact .setReg (.setReg (.ite (.lnk .refl rfl) .refl) rfl) rfl
  refine h.trans (Frame.mono (L := irqSpans) (ps := [.lnk]) ⟨hf.wf, hf.reg, fun p hp => ?_, fun _ hs k hk => ?_⟩ (by simpa using ha))
  · cases p with
    | events => trivial
    | lnk => cases hp
    | _ => exact hf.part _ rfl
  · rw [irq_status hs, BitVec.getLsbD_or, hk, Bool.true_or]

/-- The event that occurs is on record. -/
theorem irq_event {n : Nat} (hs : t.Wf) (hn : n < 32) : ((t.irq n).reg A.GLB_IRQ_STATUS).getLsbD n = true := by
  rw [irq_status hs, BitVec.getLsbD_or, BitVec.getLsbD_ofNat, Nat.testBit_two_pow_self]
  simp [hn]

/-- A fault record is written. -/
theorem setFrec {n : Nat} {r : FaultRec} (h : Frame L ps s t) (hp : ps.contains .flt = true) : Frame L ps s (t.setFrec n r) :=
  h.flt hp

theorem raiseI {n : Nat} {i : FaultInfo} (h : Frame L ps s t) (hp : ps.contains .flt = true) :
    Frame L ps s (t.raiseI n i) := .ite h (h.setFrec hp)

theorem raise {n x : Nat} (h : Frame L ps s t) (hp : ps.contains .flt = true) : Frame L ps s (t.raise n x) := h.raiseI hp

theorem assertF {n x : Nat} (h : Frame L ps s t) (hp : ps.contains .flt = true) : Frame L ps s (t.assertF n x) := by
  unfold State.assertF
  extract_lets r
  split
  · exact h
  · exact h.setFrec hp

theorem deassertF {n : Nat} (h : Frame L ps s t) (hp : ps.contains .flt = true) : Frame L ps s (t.deassertF n) := by
  unfold State.deassertF
  extract_lets r
  split
  · exact h.setFrec hp
  · exact h

end Frame

theorem SameMemory.refl (s : State) : SameMemory s s := ⟨fun _ => rfl, fun _ => rfl⟩

theorem SameMemory.trans {s t u : State} (h : SameMemory s t) (h' : SameMemory t u) : SameMemory s u :=
  ⟨fun a => (h'.1 a).trans (h.1 a), fun a => (h'.2 a).trans (h.2 a)⟩

end Sys2Proof.Machine
end

section
/-!
The operations of the safety island: what each may touch, and what light removal does (R251, R280 to R283, R291).
-/

namespace Sys2Proof.Machine

/-! ### What the domains and the power state give, under a frame -/

section
variable {L : List Span} {ps : List Part} {s t : State}

theorem Frame.coreOn_eq (h : Frame L ps s t) (hd : (covers L A.PWR_DOM || covers L A.PWR_STATUS) = false) :
    t.coreOn = s.coreOn := by
  rw [Bool.or_eq_false_iff] at hd
  unfold State.coreOn State.power
  rw [h.flag (f := F.PWR_DOM_CORE) hd.1, h.get (f := F.PWR_STATUS_STATE) hd.2]

theorem Frame.aonOn_eq (h : Frame L ps s t) (hp : covers L A.PWR_STATUS = false) : t.aonOn = s.aonOn := by
  unfold State.aonOn State.power
  rw [h.get (f := F.PWR_STATUS_STATE) hp]

end

/-! ### Frames of the island's operations -/

theorem State.netsTrack_frame (s : State) : Frame [.reg A.ARY_CNT] [.ary] s s.netsTrack :=
  .ite (.ary (.ite .refl (.inc .refl rfl)) rfl ⟨⟨rfl, rfl⟩, rfl, rfl⟩) (.ary .refl rfl ⟨⟨rfl, rfl⟩, rfl, rfl⟩)

theorem State.lpeRemoval_frame (s : State) : Frame [.reg A.LPE_STATUS] [.lpe] s s.lpeRemoval := 
  .ite .refl (.lpe (.put (.ite (.put (.put .refl rfl) rfl) .refl) rfl) rfl)

theorem State.driveLrm_frame (s : State) (on : Bool) : Frame [.reg A.LPE_STATUS] [.lpe, .saf] s (s.driveLrm on) :=
  .ite .refl (.ite (.put (.saf .refl rfl rfl) rfl) (.op (State.lpeRemoval_frame _) (.saf .refl rfl rfl) rfl))

theorem State.safGoto_frame (s : State) (t : Nat) :
    Frame [.reg A.GLB_IRQ_STATUS, .reg A.GLB_IRQ_RAW, .reg A.SAF_STATE] [.lnk] s (s.safGoto t) :=
  .ite .refl (.irq (.put .refl rfl) rfl)

theorem State.copyInvalid_frame (s : State) (b k : Nat) : Frame [.reg A.SAF_OASIS_STATUS] [.flt] s (s.copyInvalid b k) :=
  .ite (.raise (.put .refl rfl) rfl) .refl

theorem State.oasisEntry_frame (s : State) (b : Nat) :
    Frame [.reg A.SAF_OASIS_STATUS] [.flt, .saf] s (s.oasisEntry b) := by
  unfold State.oasisEntry
  extract_lets s1 s2 s3
  have h1 : Frame [.reg A.SAF_OASIS_STATUS] [.flt, .saf] s s1 := .ite (.mono (State.copyInvalid_frame s b 0) rfl) .refl
  have h2 : Frame [.reg A.SAF_OASIS_STATUS] [.flt, .saf] s s2 := .ite (.op (State.copyInvalid_frame s1 b 1) h1 rfl) h1
  have h3 : Frame [.reg A.SAF_OASIS_STATUS] [.flt, .saf] s s3 := .put h2 rfl
  split
  · exact h3
  · exact .saf h3 rfl rfl

/-- The registers that a change of the island's state may touch. -/
def islandSpans : List Span :=
  [.reg A.GLB_IRQ_STATUS, .reg A.GLB_IRQ_RAW, .reg A.ARY_CNT, .reg A.LPE_STATUS, .reg A.SAF_STATE, .reg A.SAF_OASIS_STATUS]

/-- The parts that a change of the island's state may touch. -/
def islandParts : List Part := [.ary, .lpe, .lnk, .saf, .flt]

theorem State.safRefreshRaw_frame (s : State) : Frame islandSpans islandParts s s.safRefreshRaw := by
  unfold State.safRefreshRaw
  split
  · exact .refl
  · extract_lets t w shows entry s0 saf s1
    have h1 : Frame islandSpans islandParts s s1 := .saf (.put (.mono (State.safGoto_frame s t) rfl) rfl) rfl rfl
    split
    · split
      · exact .op (State.oasisEntry_frame ..) h1 rfl
      · exact .op (State.safGoto_frame ..) (.op (State.driveLrm_frame ..) (.put (.raise (.op (State.oasisEntry_frame ..) h1 rfl) rfl) rfl) rfl) rfl
    · exact h1

theorem State.safRefresh_frame (s : State) : Frame islandSpans islandParts s s.safRefresh :=
  .op (State.netsTrack_frame _) (.mono (State.safRefreshRaw_frame s) rfl) rfl

/-! ### The dark nets (R202, R280, R281) -/

/-- What the dark nets at the pixel tier follow from: no register of ARY, and nothing that ARY holds. -/
theorem Frame.darkNets_eq {s t : State} (h : Frame [.reg A.ARY_CNT] [.ary] s t) :
    t.netsDriven = s.netsDriven ∧ t.netsReach = s.netsReach ∧ t.darkNets = s.darkNets := by
  have hsaf : t.saf = s.saf := h.part .saf rfl
  have hst : t.safState = s.safState := h.get rfl
  have hpad : t.padActive = s.padActive := by
    simp [State.padActive, hsaf, h.aonOn_eq rfl]
  have hramp : t.rampDark = s.rampDark := by
    simp [State.rampDark, State.dimToDark, hsaf, h.flag (f := F.SAF_STATE_DIM_LATCH) rfl, h.flag (f := F.SAF_STATE_RAMP_DONE) rfl]
  have hdrv : t.netsDriven = s.netsDriven := by simp [State.netsDriven, hsaf, hst, hpad, hramp]
  have hfor : t.netsForced = s.netsForced := by
    simp [State.netsForced, hsaf, hpad, h.flag (f := F.SAF_CMD_DARK_SW) rfl, h.flag (f := F.CVN_TDM_STATUS_TDARK) rfl]
  refine ⟨hdrv, by simp [State.netsReach, hsaf], ?_⟩
  simp [State.darkNets, State.netA, State.netB, State.netReleased, hsaf, hst, hdrv, hfor]

/-- Nets that are driven asserted and whose assertion reaches the pixel tier keep every pixel from conducting: of the two at
most one is released by the proof. -/
theorem State.darkNets_of_driven {s : State} (hd : s.netsDriven = true) (hr : s.netsReach = true) : s.darkNets = true := by
  have hone : s.netReleased 1 = false ∨ s.netReleased 2 = false := by
    by_cases h : s.saf.proofNet = 1 <;> simp [State.netReleased, h]
  have hnone : s.saf.proofNet = 0 → s.netReleased 1 = false ∧ s.netReleased 2 = false := by
    intro h; simp [State.netReleased, h]
  simp only [State.netsReach, Bool.or_eq_true, Bool.and_eq_true, Bool.not_eq_true', beq_iff_eq] at hr
  simp only [State.darkNets, State.netA, State.netB, hd]
  rcases hr with ⟨ha, hb⟩ | ⟨hab, h0⟩
  · rcases hone with h | h <;> simp [ha, hb, h]
  · obtain ⟨h1, h2⟩ := hnone h0
    rcases hab with h | h <;> simp [h, h1, h2]

/-- Every pixel group is off once the nets are tracked. -/
theorem State.netsTrack_conduct {s : State} (h : s.darkNets = true) : s.netsTrack.ary.conduct = 0 := by
  simp [State.netsTrack, h]

/-- The nets after they have been tracked: asserted nets that reach the pixel tier leave no group conducting. -/
theorem State.netsTrack_dark {s : State} (hd : s.netsDriven = true) (hr : s.netsTrack.netsReach = true) :
    s.netsTrack.darkNets = true ∧ s.netsTrack.ary.conduct = 0 := by
  obtain ⟨-, hreach, hnets⟩ := Frame.darkNets_eq s.netsTrack_frame
  have hdark := State.darkNets_of_driven hd (hreach ▸ hr)
  exact ⟨hnets ▸ hdark, State.netsTrack_conduct hdark⟩

/-! ### Light removal (R251, R282, R291) -/

/-- An event leaves every field outside the interrupt registers alone. -/
theorem State.get_irq {s : State} {n : Nat} {f : Field} (h1 : f.addr ≠ A.GLB_IRQ_STATUS) (h2 : f.addr ≠ A.GLB_IRQ_RAW) :
    (s.irq n).get f = s.get f := by
  unfold State.get State.irq
  dsimp only
  rw [State.reg_setReg_ne h2, State.reg_setReg_ne h1]
  split <;> rfl

/-- The island's state after a change of it. -/
theorem State.safGoto_safState {s : State} {t : Nat} (hs : s.Wf) (ht : t < 8) : (s.safGoto t).safState = t := by
  unfold State.safGoto
  split
  · assumption
  · exact (State.get_irq (by decide) (by decide)).trans
      ((State.get_put_self hs (by decide)).trans (Nat.mod_eq_of_lt ht))

/-- A change of the island's state writes STATE alone. -/
theorem State.get_safGoto {s : State} {t : Nat} {f : Field} (hs : s.Wf) (h1 : f.addr ≠ A.GLB_IRQ_STATUS) (h2 : f.addr ≠ A.GLB_IRQ_RAW)
    (hd : f.addr ≠ A.SAF_STATE ∨ 2 < f.lo) : (s.safGoto t).get f = s.get f := by
  unfold State.safGoto
  split
  · rfl
  · rw [State.get_irq h1 h2, State.get_put_ne hs (by decide) (hd.imp id .inr)]

/-- With the removal latch set the island's state goes to REMOVED, outside INIT, and shows no beam. -/
theorem State.safRefreshRaw_of_latch {s : State} (h : s.flag F.SAF_STATE_REMOVE_LATCH = true) :
    s.safRefreshRaw =
      if s.saf.held = true ∨ s.safState = Isl.init then s
      else
        let s1 := (s.safGoto Isl.removed).put F.SAF_STATE_BEAM (if s.wantSource.1 then s.wantSource.2 else 0)
        { s1 with saf := { s1.saf with shown := none } } := by
  have ht : s.safTarget = Isl.removed := by simp [State.safTarget, h]
  unfold State.safRefreshRaw
  simp only [ht, Bool.or_eq_true, decide_eq_true_eq]
  split
  · rfl
  · simp [Isl.removed, Isl.oasis, Isl.dim]

theorem State.safRefreshRaw_frame_of_latch {s : State} (h : s.get F.SAF_STATE_REMOVE_LATCH = 1) :
    Frame [.reg A.GLB_IRQ_STATUS, .reg A.GLB_IRQ_RAW, .reg A.SAF_STATE] [.lnk, .saf] s s.safRefreshRaw := by
  rw [State.safRefreshRaw_of_latch (by simp [State.flag, h])]
  exact .ite .refl (.saf (.put (.mono (State.safGoto_frame _ _) rfl) rfl) rfl rfl)

/-- The registers that light removal may touch. -/
def removalSpans : List Span :=
  [.reg A.GLB_IRQ_STATUS, .reg A.GLB_IRQ_RAW, .reg A.ARY_CNT, .reg A.LPE_STATUS, .reg A.SAF_STATE]

/-- Light removal as far as LRM: the latch is set, a relight ends, and LRM goes to removal; the state has still to follow. -/
def State.lrmRemoved (s : State) : State :=
  ((s.put F.SAF_STATE_REMOVE_LATCH 1).put F.SAF_STATE_RELIGHT_WAIT 0).driveLrm false

theorem State.setRemoval_eq (s : State) : s.setRemoval = s.lrmRemoved.safRefreshRaw.netsTrack := rfl

theorem State.lrmRemoved_frame (s : State) : Frame [.reg A.LPE_STATUS, .reg A.SAF_STATE] [.lpe, .saf] s s.lrmRemoved :=
  .op (State.driveLrm_frame _ false) (.put (.put .refl rfl) rfl) rfl

/-- The latch stands and no relight runs. -/
theorem State.lrmRemoved_latch {s : State} (hs : s.Wf) :
    s.lrmRemoved.get F.SAF_STATE_REMOVE_LATCH = 1 ∧ s.lrmRemoved.get F.SAF_STATE_RELIGHT_WAIT = 0 := by
  have hwf : (s.put F.SAF_STATE_REMOVE_LATCH 1).Wf := State.put_wf hs
  have hf := State.driveLrm_frame ((s.put F.SAF_STATE_REMOVE_LATCH 1).put F.SAF_STATE_RELIGHT_WAIT 0) false
  refine ⟨(hf.get rfl).trans ?_, (hf.get rfl).trans ?_⟩
  · rw [State.get_put_ne hwf (by decide) (by decide), State.get_put_self hs (by decide)]
    decide
  · rw [State.get_put_self hwf (by decide)]
    decide

/-- A field of SAF_STATE beside the latch and the relight keeps its value. -/
theorem State.get_lrmRemoved {s : State} {f : Field} (hs : s.Wf) (ha : f.addr = A.SAF_STATE)
    (h3 : f.hi < 3 ∨ 3 < f.lo) (h7 : f.hi < 7 ∨ 7 < f.lo) : s.lrmRemoved.get f = s.get f := by
  refine ((State.driveLrm_frame _ false).get (by rw [ha]; decide)).trans ?_
  rw [State.get_put_ne (State.put_wf hs) (by decide) (.inr h3), State.get_put_ne hs (by decide) (.inr h7)]

/-- Light removal raises no fault and reads no oasis table. -/
theorem State.setRemoval_frame (s : State) (hs : s.Wf) : Frame removalSpans [.ary, .lpe, .lnk, .saf] s s.setRemoval :=
  .op (State.netsTrack_frame _) (.op (State.safRefreshRaw_frame_of_latch (State.lrmRemoved_latch hs).1) (.mono s.lrmRemoved_frame rfl) rfl) rfl

/-- Light removal stops the rail of an LPE that is on: its stages are off, STOP is set, and a rail that was starting or
running is OFF (R251). -/
theorem State.lpeRemoval_off {s : State} (hs : s.Wf) (hc : s.coreOn = true) :
    s.lpeRemoval.lpe.pwm = 0 ∧ s.lpeRemoval.lpe.phEn = false ∧ s.lpeRemoval.get F.LPE_STATUS_STOP = 1 ∧
      (s.rail = 1 ∨ s.rail = 2 → s.lpeRemoval.rail = 0) := by
  unfold State.lpeRemoval
  rw [if_neg (by simp [hc])]
  extract_lets s1 lpe
  have h1 : s1.Wf := by
    unfold s1
    split
    · exact State.put_wf (State.put_wf hs)
    · exact hs
  refine ⟨rfl, rfl, (State.get_put_self h1 (by decide)).trans (by decide), fun hr => ?_⟩
  refine (State.get_put_ne h1 (by decide) (by decide)).trans ?_
  have he : s1 = (s.put F.LPE_STATUS_RAIL 0).put F.LPE_STATUS_IN_REG 0 := if_pos hr
  rw [he, State.get_put_ne (State.put_wf hs) (by decide) (by decide), State.get_put_self hs (by decide)]
  decide

/-- LRM goes to removal, and the rail with it. -/
theorem State.driveLrm_removal {s : State} (hs : s.Wf) :
    (s.driveLrm false).saf.lrm = false ∧
    (s.saf.lrm = true → s.coreOn = true → (s.driveLrm false).lpe.pwm = 0 ∧ (s.driveLrm false).lpe.phEn = false ∧
      (s.driveLrm false).get F.LPE_STATUS_STOP = 1 ∧ (s.rail = 1 ∨ s.rail = 2 → (s.driveLrm false).rail = 0)) := by
  by_cases hl : s.saf.lrm = false
  · rw [State.driveLrm, if_pos hl]
    exact ⟨hl, fun h => absurd (hl.symm.trans h) (by decide)⟩
  · rw [State.driveLrm, if_neg hl]
    refine ⟨congrArg Saf.lrm ((State.lpeRemoval_frame _).part .saf rfl), fun _ hc => ?_⟩
    exact State.lpeRemoval_off (s := { s with saf := { s.saf with lrm := false, lrmTicks := 0, lrmFollowed := false } }) hs hc

theorem State.driveLrm_saf (s : State) (on : Bool) :
    (s.driveLrm on).saf = if s.saf.lrm = on then s.saf else { s.saf with lrm := on, lrmTicks := 0, lrmFollowed := false } := by
  unfold State.driveLrm
  by_cases h : s.saf.lrm = on
  · simp only [if_pos h]
  · simp only [if_neg h]
    cases on
    · exact (State.lpeRemoval_frame _).part .saf rfl
    · rfl

/-- The island's state and its latches as the latch of removal leaves them. -/
theorem State.safRefreshRaw_removes {s : State} (hs : s.Wf) (hh : s.saf.held = false)
    (hl : s.get F.SAF_STATE_REMOVE_LATCH = 1) :
    s.safRefreshRaw.safState = (if s.safState = 0 then 0 else 5) ∧ s.safRefreshRaw.saf.lrm = s.saf.lrm ∧
    (∀ f : Field, f.addr ∉ [A.GLB_IRQ_STATUS, A.GLB_IRQ_RAW] → f.addr ≠ A.SAF_STATE ∨ 2 < f.lo ∧ (f.hi < 16 ∨ 17 < f.lo) →
      s.safRefreshRaw.get f = s.get f) := by
  rw [State.safRefreshRaw_of_latch (by simp [State.flag, hl])]
  by_cases h0 : s.safState = 0
  · rw [if_pos (.inr h0), if_pos h0]
    exact ⟨h0, rfl, fun _ _ _ => rfl⟩
  · rw [if_neg (by simp [hh, Isl.init, h0]), if_neg h0]
    have hgo : (s.safGoto Isl.removed).Wf := (State.safGoto_frame s _).wf hs
    refine ⟨?_, ?_, fun f hirq hd => ?_⟩
    · exact (State.get_put_ne hgo (by decide) (by decide)).trans (State.safGoto_safState hs (by decide))
    · have hsaf : (s.safGoto Isl.removed).saf = s.saf := (State.safGoto_frame s _).part .saf rfl
      change (s.safGoto Isl.removed).saf.lrm = _
      rw [hsaf]
    · simp only [List.mem_cons, List.not_mem_nil, or_false, not_or] at hirq
      refine (State.get_put_ne hgo (by decide) ?_).trans (State.get_safGoto hs hirq.1 hirq.2 (hd.imp id And.left))
      exact hd.imp id And.right

/-- LRM and the rail once LRM has been driven to removal. -/
theorem State.lrmRemoved_removal {s : State} (hs : s.Wf) :
    s.lrmRemoved.saf.lrm = false ∧ s.lrmRemoved.saf.held = s.saf.held ∧
    (s.saf.lrm = true → s.coreOn = true → s.lrmRemoved.lpe.pwm = 0 ∧ s.lrmRemoved.lpe.phEn = false ∧
      s.lrmRemoved.get F.LPE_STATUS_STOP = 1 ∧ (s.rail = 1 ∨ s.rail = 2 → s.lrmRemoved.rail = 0)) := by
  have hf : Frame [.reg A.SAF_STATE] [] s ((s.put F.SAF_STATE_REMOVE_LATCH 1).put F.SAF_STATE_RELIGHT_WAIT 0) :=
    .put (.put .refl rfl) rfl
  obtain ⟨hlrm, hrail⟩ := State.driveLrm_removal (hf.wf hs)
  refine ⟨hlrm, ?_, fun hl hc => ?_⟩
  · refine (congrArg Saf.held (State.driveLrm_saf _ false)).trans ?_
    split <;> rfl
  · obtain ⟨hpwm, hph, hstop, hoff⟩ := hrail hl ((hf.coreOn_eq rfl).trans hc)
    exact ⟨hpwm, hph, hstop, fun hr => hoff (by rwa [State.rail, hf.get rfl])⟩

/-- Light has been removed since `s`, as far as the registers, the rail and the nets show it (R251, R281, R287, R291). -/
structure LightRemoved (s t : State) : Prop where
  latch : t.get F.SAF_STATE_REMOVE_LATCH = 1
  relight : t.get F.SAF_STATE_RELIGHT_WAIT = 0
  lrm : t.saf.lrm = false
  nets : t.netsReach = true → t.darkNets = true ∧ t.ary.conduct = 0
  state : t.safState = if s.safState = 0 then 0 else 5
  rail : s.saf.lrm = true → s.coreOn = true → t.lpe.pwm = 0 ∧ t.lpe.phEn = false ∧ t.get F.LPE_STATUS_STOP = 1 ∧
    (s.rail = 1 ∨ s.rail = 2 → t.rail = 0)

/-- Setting the removal latch removes light from an island that is not in reset. -/
theorem State.setRemoval_removes {s : State} (hs : s.Wf) (hh : s.saf.held = false) : LightRemoved s s.setRemoval := by
  obtain ⟨hlatch, hwait⟩ := State.lrmRemoved_latch hs
  obtain ⟨hlrm, hheld, hrail⟩ := State.lrmRemoved_removal hs
  have hst : s.lrmRemoved.safState = s.safState := State.get_lrmRemoved hs rfl (by decide) (by decide)
  have hwf := s.lrmRemoved_frame.wf hs
  rw [State.setRemoval_eq]
  generalize s.lrmRemoved = b at *
  obtain ⟨hcst, hclrm, hcget⟩ := State.safRefreshRaw_removes hwf (hheld.trans hh) hlatch
  have hclpe : b.safRefreshRaw.lpe = b.lpe := (State.safRefreshRaw_frame_of_latch hlatch).part .lpe rfl
  have hdrv : b.safRefreshRaw.netsDriven = true := by
    have hcst' : b.safRefreshRaw.safState = 0 ∨ b.safRefreshRaw.safState = 5 := by rw [hcst]; split <;> simp
    rcases hcst' with h | h <;> simp [State.netsDriven, h, Isl.init, Isl.dark, Isl.removed]
  have hft := State.netsTrack_frame b.safRefreshRaw
  have hsafT : b.safRefreshRaw.netsTrack.saf = b.safRefreshRaw.saf := hft.part .saf rfl
  have hlpeT : b.safRefreshRaw.netsTrack.lpe = b.lpe := Eq.trans (hft.part .lpe rfl) hclpe
  exact {
    latch := (hft.get rfl).trans ((hcget _ (by decide) (by decide)).trans hlatch)
    relight := (hft.get rfl).trans ((hcget _ (by decide) (by decide)).trans hwait)
    lrm := by rw [hsafT, hclrm, hlrm]
    nets := fun hr => State.netsTrack_dark hdrv hr
    state := (hft.get rfl).trans (hcst.trans (by rw [hst]))
    rail := fun hl hc => by
      obtain ⟨hpwm, hph, hstop, hoff⟩ := hrail hl hc
      exact ⟨by rw [hlpeT, hpwm], by rw [hlpeT, hph], (hft.get rfl).trans ((hcget _ (by decide) (by decide)).trans hstop),
        fun hr => (hft.get rfl).trans ((hcget _ (by decide) (by decide)).trans (hoff hr))⟩ }

/-- Light removal leaves a field of SAF_STATE beside the latch, the relight, STATE and BEAM alone. -/
theorem State.get_setRemoval {s : State} {f : Field} (hs : s.Wf) (hh : s.saf.held = false) (ha : f.addr = A.SAF_STATE)
    (h3 : 3 < f.lo) (h7 : f.hi < 7 ∨ 7 < f.lo) (h16 : f.hi < 16 ∨ 17 < f.lo) : s.setRemoval.get f = s.get f := by
  obtain ⟨-, hheld, -⟩ := State.lrmRemoved_removal hs
  obtain ⟨-, -, hget⟩ := State.safRefreshRaw_removes (s.lrmRemoved_frame.wf hs) (hheld.trans hh) (State.lrmRemoved_latch hs).1
  refine ((State.netsTrack_frame _).get (by rw [ha]; decide)).trans ((hget f (by rw [ha]; decide) (.inr ⟨by omega, h16⟩)).trans ?_)
  exact State.get_lrmRemoved hs ha (.inr h3) h7

end Sys2Proof.Machine
end

section
/-!
The island's own C4 causes (R32, R37, R274, R279, R280, R287, R290 to R292): each reports its code and removes light.
-/

namespace Sys2Proof.Machine

/-! ### A fault pair follows the records alone -/

theorem State.frec_congr {s y : State} (h : y.flt = s.flt) (n : Nat) : y.frec n = s.frec n := by
  unfold State.frec
  rw [h]

theorem State.setFrec_flt {s y : State} (h : y.flt = s.flt) (n : Nat) (r : FaultRec) :
    (y.setFrec n r).flt = (s.setFrec n r).flt := by
  unfold State.setFrec
  dsimp only
  rw [h]

theorem State.raise_flt {s y : State} (h : y.flt = s.flt) (n x : Nat) : (y.raise n x).flt = (s.raise n x).flt := by
  unfold State.raise State.raiseI
  rw [State.frec_congr h]
  extract_lets r
  split
  · exact h
  · exact State.setFrec_flt h n _

theorem State.assertF_flt {s y : State} (h : y.flt = s.flt) (n x : Nat) : (y.assertF n x).flt = (s.assertF n x).flt := by
  unfold State.assertF
  rw [State.frec_congr h]
  extract_lets r
  split
  · exact h
  · exact State.setFrec_flt h n _

theorem State.deassertF_flt {s y : State} (h : y.flt = s.flt) (n : Nat) : (y.deassertF n).flt = (s.deassertF n).flt := by
  unfold State.deassertF
  rw [State.frec_congr h]
  extract_lets r
  split
  · exact State.setFrec_flt h n _
  · exact h

/-! ### A cause and its effect -/

/-- The state in which a cause of `s` is found: what light removal goes by is that of `s`. -/
structure FoundIn (s y : State) : Prop where
  wf : y.Wf
  held : y.saf.held = false
  flt : y.flt = s.flt
  safState : y.safState = s.safState
  lrm : y.saf.lrm = s.saf.lrm
  core : y.coreOn = s.coreOn
  rail : y.rail = s.rail
  memory : SameMemory s y

theorem FoundIn.refl {s : State} (hs : s.Wf) (hh : s.saf.held = false) : FoundIn s s :=
  ⟨hs, hh, rfl, rfl, rfl, rfl, rfl, .refl s⟩

/-- One of the island's own C4 causes, held as a level or raised once. -/
def State.causeC4 (s : State) (code : Nat) (level : Bool) : State :=
  if level then s.ownC4Level code 0 else s.ownC4 code 0

/-- A cause that stands in `y` removes light, reports its code and leaves memory alone (R283). -/
theorem FoundIn.causeC4 {s y : State} (h : FoundIn s y) (code : Nat) (level : Bool) :
    LightRemoved s (y.causeC4 code level) ∧
    (y.causeC4 code level).flt = (if level then s.assertF code 0 else s.raise code 0).flt ∧
    SameMemory s (y.causeC4 code level) := by
  obtain ⟨x, hx, hflt, hsame⟩ : ∃ x, y.causeC4 code level = x.setRemoval ∧
      x.flt = (if level then s.assertF code 0 else s.raise code 0).flt ∧ Frame [] [.flt] y x := by
    cases level
    · exact ⟨y.raise code 0, rfl, State.raise_flt h.flt code 0, .raise .refl rfl⟩
    · exact ⟨y.assertF code 0, rfl, State.assertF_flt h.flt code 0, .assertF .refl rfl⟩
  have hsaf : x.saf = y.saf := hsame.part .saf rfl
  have hxw : x.Wf := hsame.wf h.wf
  have hst : x.safState = s.safState := (hsame.get rfl).trans h.safState
  have hcore : x.coreOn = s.coreOn := (hsame.coreOn_eq rfl).trans h.core
  have hrail : x.rail = s.rail := (hsame.get rfl).trans h.rail
  have hfr := State.setRemoval_frame x hxw
  have hr := State.setRemoval_removes hxw (hsaf ▸ h.held)
  rw [hx]
  refine ⟨⟨hr.latch, hr.relight, hr.lrm, hr.nets, hst ▸ hr.state, fun hl hc => ?_⟩, ?_, ?_⟩
  · exact hrail ▸ hr.rail (by rw [hsaf, h.lrm, hl]) (hcore.trans hc)
  · exact Eq.trans (hfr.part .flt rfl) hflt
  · exact h.memory.trans ((hsame.sameMemory rfl).trans (hfr.sameMemory rfl))

/-- Tracking the nets once more changes nothing of it. -/
theorem LightRemoved.netsTrack {s t : State} (h : LightRemoved s t) : LightRemoved s t.netsTrack := by
  have hd : t.netsDriven = true := by
    have hst : t.safState = 0 ∨ t.safState = 5 := by rw [h.state]; split <;> simp
    rcases hst with h | h <;> simp [State.netsDriven, h, Isl.init, Isl.dark, Isl.removed]
  have hf := State.netsTrack_frame t
  have hsaf : t.netsTrack.saf = t.saf := hf.part .saf rfl
  have hlpe : t.netsTrack.lpe = t.lpe := hf.part .lpe rfl
  refine ⟨(hf.get rfl).trans h.latch, (hf.get rfl).trans h.relight, hsaf ▸ h.lrm, fun hr => State.netsTrack_dark hd hr,
    (hf.get rfl).trans h.state, fun hl hc => ?_⟩
  obtain ⟨hpwm, hph, hstop, hrail⟩ := h.rail hl hc
  exact ⟨hlpe ▸ hpwm, hlpe ▸ hph, (hf.get rfl).trans hstop, fun hr => (hf.get rfl).trans (hrail hr)⟩

/-! ### The causes, one by one -/

/-- A change of what the island remembers, beside its reset and LRM. -/
theorem FoundIn.of_saf {s : State} {x : Saf} (hs : s.Wf) (hh : x.held = false) (hl : x.lrm = s.saf.lrm) :
    FoundIn s { s with saf := x } :=
  ⟨hs, hh, rfl, rfl, hl, rfl, rfl, .refl s⟩

theorem FoundIn.netsTrack {s y : State} (h : FoundIn s y) : FoundIn s y.netsTrack := by
  have hf := State.netsTrack_frame y
  have hsaf : y.netsTrack.saf = y.saf := hf.part .saf rfl
  exact ⟨hf.wf h.wf, hsaf ▸ h.held, Eq.trans (hf.part .flt rfl) h.flt, (hf.get rfl).trans h.safState, hsaf ▸ h.lrm,
    (hf.coreOn_eq rfl).trans h.core, (hf.get rfl).trans h.rail, h.memory.trans (hf.sameMemory rfl)⟩

theorem execDarkDiscrepancy_cause {s : State} (hon : s.safOn = true) (hn : s.get F.SAF_DISC_DISC = s.discLimit)
    (hl : s.get F.SAF_STATE_DISC_LATCH = 0) :
    exec .darkDiscrepancy s = .next ((s.put F.SAF_STATE_DISC_LATCH 1).causeC4 Code.SAF_DARK_DISC true) :=
  congrArg Host.Outcome.next (if_pos (by simp [hon, hn, State.flag, hl]))

/-- The level of a dark net's return has been found to differ from its driven level, or to agree again. -/
def State.netReturn (s : State) (b bad : Bool) : State :=
  ({ s with saf := if b then { s.saf with netBadB := bad } else { s.saf with netBadA := bad } }).netsTrack

theorem State.netReturn_saf (s : State) (b bad : Bool) :
    (s.netReturn b bad).saf = if b then { s.saf with netBadB := bad } else { s.saf with netBadA := bad } :=
  (State.netsTrack_frame _).part .saf rfl

theorem State.netReturn_safOn (s : State) (b bad : Bool) : (s.netReturn b bad).safOn = s.safOn := by
  cases b <;> simp [State.safOn, State.netReturn_saf]

theorem execDarkNetMismatch_eq {s : State} {b bad : Bool} (hon : s.safOn = true) :
    exec (.darkNetMismatch ⟨b, bad⟩) s = .next
      (if ((s.netReturn b bad).saf.netBadA || (s.netReturn b bad).saf.netBadB) = true
        then (s.netReturn b bad).causeC4 Code.SAF_DARKNET true
        else (s.netReturn b bad).deassertF Code.SAF_DARKNET) := by
  have hon' : ¬ (!(s.netReturn b bad).safOn) = true := by simp [State.netReturn_safOn, hon]
  exact congrArg Host.Outcome.next (if_neg hon')

theorem execDarkNetMismatch_bad {s : State} {b : Bool} (hon : s.safOn = true) :
    exec (.darkNetMismatch ⟨b, true⟩) s = .next ((s.netReturn b true).causeC4 Code.SAF_DARKNET true) := by
  rw [execDarkNetMismatch_eq hon, if_pos]
  rw [State.netReturn_saf]
  cases b <;> simp

/-- A return that agrees again ends the condition, where the other net's return agrees too. -/
theorem execDarkNetMismatch_good {s : State} {b : Bool} (hon : s.safOn = true)
    (hother : (if b then s.saf.netBadA else s.saf.netBadB) = false) :
    exec (.darkNetMismatch ⟨b, false⟩) s = .next ((s.netReturn b false).deassertF Code.SAF_DARKNET) := by
  rw [execDarkNetMismatch_eq hon, if_neg]
  rw [State.netReturn_saf]
  cases b <;> simpa using hother

theorem execDarkNetProof_fails {s : State} (hon : s.safOn = true) (h0 : s.safState = 0) (ha : s.saf.proofAged = true)
    (hf : s.netsForced = false) :
    exec (.darkNetProof false) s = .next ((s.proofGo 0 false).causeC4 Code.SAF_DARKNET false) := by
  change Host.Outcome.next (if _ then _ else _) = _
  rw [if_pos (by simp [hon, h0, ha, hf, Isl.init])]
  rfl

theorem execDarkNetProof_passes {s : State} (hon : s.safOn = true) (h0 : s.safState = 0) (ha : s.saf.proofAged = true)
    (hf : s.netsForced = false) :
    exec (.darkNetProof true) s = .next (if s.saf.proofNet = 1 then s.proofGo 2 false else s.proofGo 0 true) := by
  change Host.Outcome.next (if _ then _ else _) = _
  rw [if_pos (by simp [hon, h0, ha, hf, Isl.init])]
  rfl

theorem execRelightFbTimeout_cause {s : State} (hon : s.safOn = true) (hw : s.get F.SAF_STATE_RELIGHT_WAIT = 1)
    (hfb : s.get F.SAF_STATE_LRM_FB = 0) (ht : timeUp s.saf.relightTicks (s.get F.SAF_LRM_FB_TIME) = true) :
    exec .relightFbTimeout s = .next (s.causeC4 Code.SAF_LRM_FB false) :=
  congrArg Host.Outcome.next (if_pos (by simp [hon, State.flag, hw, hfb, ht]))

theorem execEnvelopeExceeded_cause {s : State} (hon : s.safOn = true) (hr : s.saf.envRun = 2)
    (hst : s.stands Code.SAF_ENVELOPE = false) :
    exec .envelopeExceeded s = .next (s.causeC4 Code.SAF_ENVELOPE true) :=
  congrArg Host.Outcome.next (if_pos (by simp [hon, hr, hst]))

theorem execLrmFbMismatch_cause {s : State} (hon : s.safOn = true) (hfb : s.get F.SAF_STATE_LRM_FB = 1 ↔ s.saf.lrm = false)
    (hst : s.stands Code.SAF_LRM_FB = false)
    (ht : s.saf.lrmFollowed = true ∨ timeUp s.saf.lrmTicks (s.get F.SAF_LRM_FB_TIME) = true) :
    exec .lrmFbMismatch s = .next (s.causeC4 Code.SAF_LRM_FB true) := by
  have hlt : s.get F.SAF_STATE_LRM_FB < 2 := s.get_lt _
  have hne : (s.flag F.SAF_STATE_LRM_FB != s.saf.lrm) = true := by
    cases hl : s.saf.lrm
    · simp [State.flag, hfb.mpr hl]
    · have h0 : s.get F.SAF_STATE_LRM_FB = 0 := by
        have : s.get F.SAF_STATE_LRM_FB ≠ 1 := fun h => by simp [hfb.mp h] at hl
        omega
      simp [State.flag, h0]
  exact congrArg Host.Outcome.next (if_pos (by rcases ht with h | h <;> simp [hon, hne, hst, h]))

theorem execIslandSupplyFault_cause {s : State} (hon : s.safOn = true) (hr : s.saf.supplyRun = 2)
    (hst : s.stands Code.SAF_SUPPLY = false) :
    exec .islandSupplyFault s = .next (s.causeC4 Code.SAF_SUPPLY true) :=
  congrArg Host.Outcome.next (if_pos (by simp [hon, hr, hst]))

theorem execClockMonitorFail_island {s : State} (hon : s.safOn = true) (hr : s.saf.islandRun = 2)
    (hst : s.stands Code.SAF_CLK_ISLAND = false) :
    exec .clockMonitorFail s = .next (s.causeC4 Code.SAF_CLK_ISLAND true) :=
  congrArg Host.Outcome.next ((if_neg (by simp [hon])).trans (if_pos (by simp [hr, hst])))

theorem execClockMonitorFail_array {s : State} (hon : s.safOn = true) (hi : s.saf.islandRun ≠ 2) (hr : s.saf.arrayRun = 2)
    (hst : s.stands Code.SAF_CLK_ARRAY = false) :
    exec .clockMonitorFail s = .next (s.causeC4 Code.SAF_CLK_ARRAY true) :=
  congrArg Host.Outcome.next ((if_neg (by simp [hon])).trans ((if_neg (by simp [hi])).trans (if_pos (by simp [hr, hst]))))

/-- A wrong OSC_IN only holds its code. -/
theorem execClockMonitorFail_oscIn {s : State} (hon : s.safOn = true) (hi : s.saf.islandRun ≠ 2) (ha : s.saf.arrayRun ≠ 2)
    (hr : s.saf.oscRun = 2) (hst : s.stands Code.SAF_CLK_OSCIN = false) :
    exec .clockMonitorFail s = .next (s.assertF Code.SAF_CLK_OSCIN 0) :=
  congrArg Host.Outcome.next ((if_neg (by simp [hon])).trans ((if_neg (by simp [hi])).trans ((if_neg (by simp [ha])).trans
    (if_pos (by simp [hr, hst])))))

theorem execSafeOutFail_eq {s : State} (hon : s.safOn = true) (hr : s.saf.outRun = 2) :
    exec .safeOutFail s = .next (s.assertF Code.SAF_OUT 0) :=
  congrArg Host.Outcome.next (if_pos (by simp [hon, hr]))

theorem execRasterStall_cause {s : State} (hon : s.safOn = true) (ha : s.saf.wdArmed = true) (ht : 20 ≤ s.saf.wdTicks)
    (hst : s.saf.wdStall = false) :
    exec .rasterStall s = .next (({ s with saf := { s.saf with wdStall := true } }).causeC4 Code.RAS_STALL false) :=
  congrArg Host.Outcome.next (if_pos (by simp [hon, ha, ht, hst]))

/-- The RC detector stops the oscillator: the cause is applied, and the nets are tracked once more. -/
theorem execIslandOscStop_cause {s : State} (hh : s.saf.held = false) :
    exec (.islandOscStop true) s = .next
      (({ s with saf := { s.saf with oscStopped := true } }).causeC4 Code.SAF_CLK_ISLAND false).netsTrack :=
  congrArg Host.Outcome.next (if_neg (by simp [hh]))

/-- The latch of a discrepancy outlasts the light removal that it causes. -/
theorem darkDiscrepancy_latch {s : State} (hs : s.Wf) (hh : s.saf.held = false) :
    ((s.put F.SAF_STATE_DISC_LATCH 1).causeC4 Code.SAF_DARK_DISC true).get F.SAF_STATE_DISC_LATCH = 1 := by
  have hput : (s.put F.SAF_STATE_DISC_LATCH 1).Wf := State.put_wf hs
  have hf : Frame [] [.flt] (s.put F.SAF_STATE_DISC_LATCH 1) ((s.put F.SAF_STATE_DISC_LATCH 1).assertF Code.SAF_DARK_DISC 0) :=
    .assertF .refl rfl
  have hsaf : ((s.put F.SAF_STATE_DISC_LATCH 1).assertF Code.SAF_DARK_DISC 0).saf = s.saf := hf.part .saf rfl
  refine (State.get_setRemoval (hf.wf hput) (by rw [hsaf, hh]) rfl (by decide) (by decide) (by decide)).trans ?_
  rw [hf.get rfl, State.get_put_self hs (by decide)]
  decide

/-- A field of SAF_STATE beside STATE is no part of what light removal goes by. -/
theorem FoundIn.of_put {s : State} {f : Field} {v : Nat} (hs : s.Wf) (hh : s.saf.held = false)
    (hf : f.hi < 32 ∧ f.lo ≤ f.hi) (ha : f.addr = A.SAF_STATE) (hlo : 2 < f.lo) : FoundIn s (s.put f v) :=
  ⟨State.put_wf hs, hh, rfl, State.get_put_ne hs hf (.inr (.inl hlo)), rfl,
    Frame.coreOn_eq (L := [.reg A.SAF_STATE]) (ps := []) (.put .refl (by rw [ha]; decide)) rfl,
    State.get_put_addr (by rw [ha]; decide), .refl s⟩

/-- A level of a net's return is none of what light removal goes by. -/
theorem FoundIn.of_netReturn {s : State} (hs : s.Wf) (hh : s.saf.held = false) (b bad : Bool) : FoundIn s (s.netReturn b bad) := by
  refine FoundIn.netsTrack (FoundIn.of_saf hs ?_ ?_) <;> cases b <;> simp [hh]

/-- Which net the proof has released is none of it either. -/
theorem FoundIn.of_proofGo {s : State} (hs : s.Wf) (hh : s.saf.held = false) (n : Nat) (done : Bool) :
    FoundIn s (s.proofGo n done) :=
  FoundIn.netsTrack (.of_saf (x := { s.saf with proofNet := n, proofAged := false, proofDone := done }) hs hh rfl)

/-- Each of the island's own C4 causes takes its effect in a state in which it is found; the oscillator's stop tracks the
nets once more. -/
theorem ownCause_removes {s : State} {c : Instr} {code : Nat} {level : Bool} {y t : State} (h : FoundIn s y)
    (hx : exec c s = .next t) (ht : t = y.causeC4 code level ∨ t = (y.causeC4 code level).netsTrack)
    (hd : c = .darkDiscrepancy → t.get F.SAF_STATE_DISC_LATCH = 1) :
    Completes c s fun t =>
      t.flt = (if level then s.assertF code 0 else s.raise code 0).flt ∧
      t.get F.SAF_STATE_REMOVE_LATCH = 1 ∧ t.get F.SAF_STATE_RELIGHT_WAIT = 0 ∧ t.saf.lrm = false ∧
      (t.netsReach = true → t.darkNets = true ∧ t.ary.conduct = 0) ∧ t.safState = (if s.safState = 0 then 0 else 5) ∧
      (c = .darkDiscrepancy → t.get F.SAF_STATE_DISC_LATCH = 1) ∧
      (s.saf.lrm = true → s.coreOn = true → t.lpe.pwm = 0 ∧ t.lpe.phEn = false ∧ t.get F.LPE_STATUS_STOP = 1 ∧
        (s.rail = 1 ∨ s.rail = 2 → t.rail = 0)) ∧ SameMemory s t := by
  obtain ⟨hr, hflt, hmem⟩ := h.causeC4 code level
  have hf := State.netsTrack_frame (y.causeC4 code level)
  obtain ⟨hr', hflt', hmem'⟩ : LightRemoved s t ∧ t.flt = (if level then s.assertF code 0 else s.raise code 0).flt ∧
      SameMemory s t := by
    rcases ht with rfl | rfl
    · exact ⟨hr, hflt, hmem⟩
    · exact ⟨hr.netsTrack, Eq.trans (hf.part .flt rfl) hflt, hmem.trans (hf.sameMemory rfl)⟩
  exact ⟨t, hx, hflt', hr'.latch, hr'.relight, hr'.lrm, hr'.nets, hr'.state, hd, hr'.rail, hmem'⟩

/-! ### What a proof of INIT releases (R280) -/

/-- The proof goes on: the net that is released is the one named, unless a request holds the drivers. -/
theorem State.proofGo_effect {s : State} {n : Nat} {done : Bool} (h0 : s.safState = 0) (hf : s.netsForced = false) :
    (s.proofGo n done).saf.proofAged = false ∧ (s.proofGo n done).saf.proofDone = done ∧ (s.proofGo n done).flt = s.flt ∧
    (s.proofGo n done).safState = 0 ∧ (∀ k, (s.proofGo n done).netReleased k = (n == k)) ∧ SameMemory s (s.proofGo n done) := by
  have hfr : Frame [.reg A.ARY_CNT] [.ary, .saf] s (s.proofGo n done) := .op (State.netsTrack_frame _) (.saf .refl rfl rfl) rfl
  have hsaf : (s.proofGo n done).saf = { s.saf with proofNet := n, proofAged := false, proofDone := done } :=
    (State.netsTrack_frame _).part .saf rfl
  have hst : (s.proofGo n done).safState = 0 := (hfr.get rfl).trans h0
  have hforced : (s.proofGo n done).netsForced = false := by
    rw [← hf]
    simp [State.netsForced, State.padActive, hsaf, hfr.aonOn_eq rfl, hfr.flag (f := F.SAF_CMD_DARK_SW) rfl,
      hfr.flag (f := F.CVN_TDM_STATUS_TDARK) rfl]
  refine ⟨by rw [hsaf], by rw [hsaf], hfr.part .flt rfl, hst, fun k => ?_, hfr.sameMemory rfl⟩
  simp [State.netReleased, hst, hforced, Isl.init, hsaf]

/-- Settles O40: every cause leads to `causeC4` in a state of which light removal sees what it sees in `s`. -/
theorem ownCausesRemoveLight : Obligations.OwnCausesRemoveLight := by
  refine ⟨fun s c code level hs hh hcause => ?_, fun s hon => ⟨fun b hother => ?_, fun h0 ha hf => ?_, fun hr => ?_,
    fun hi ha hr hst => ?_⟩⟩
  · have hself := FoundIn.refl hs hh
    rcases hcause with ⟨hon, hrow⟩ | ⟨rfl, rfl, rfl⟩
    · rcases hrow with ⟨rfl, hn, hl, rfl, rfl⟩ | ⟨hc, rfl, rfl⟩ | ⟨rfl, h0, ha, hf, rfl, rfl⟩ | ⟨rfl, hw, hfb, ht, rfl, rfl⟩ |
        ⟨rfl, hr, hst, rfl, rfl⟩ | ⟨rfl, hfb, hst, ht, rfl, rfl⟩ | ⟨rfl, hr, hst, rfl, rfl⟩ | ⟨rfl, hr, hst, rfl, rfl⟩ |
        ⟨rfl, hi, hr, hst, rfl, rfl⟩ | ⟨rfl, ha, ht, hst, rfl, rfl⟩
      · exact ownCause_removes (.of_put hs hh (by decide) rfl (by decide)) (execDarkDiscrepancy_cause hon hn hl) (.inl rfl)
          fun _ => darkDiscrepancy_latch hs hh
      · rcases hc with rfl | rfl <;>
          exact ownCause_removes (.of_netReturn hs hh _ true) (execDarkNetMismatch_bad hon) (.inl rfl) nofun
      · exact ownCause_removes (.of_proofGo hs hh 0 false) (execDarkNetProof_fails hon h0 ha hf) (.inl rfl) nofun
      · exact ownCause_removes hself (execRelightFbTimeout_cause hon hw hfb ht) (.inl rfl) nofun
      · exact ownCause_removes hself (execEnvelopeExceeded_cause hon hr hst) (.inl rfl) nofun
      · exact ownCause_removes hself (execLrmFbMismatch_cause hon hfb hst ht) (.inl rfl) nofun
      · exact ownCause_removes hself (execIslandSupplyFault_cause hon hr hst) (.inl rfl) nofun
      · exact ownCause_removes hself (execClockMonitorFail_island hon hr hst) (.inl rfl) nofun
      · exact ownCause_removes hself (execClockMonitorFail_array hon hi hr hst) (.inl rfl) nofun
      · exact ownCause_removes (.of_saf (x := { s.saf with wdStall := true }) hs hh rfl) (execRasterStall_cause hon ha ht hst) (.inl rfl) nofun
    · exact ownCause_removes (.of_saf (x := { s.saf with oscStopped := true }) hs hh rfl) (execIslandOscStop_cause hh) (.inr rfl) nofun
  · have hf : Frame [.reg A.ARY_CNT] [.ary, .saf, .flt] s ((s.netReturn b false).deassertF Code.SAF_DARKNET) :=
      .deassertF (.op (State.netsTrack_frame _) (.saf .refl rfl (by cases b <;> rfl)) rfl) rfl
    have hflt : (s.netReturn b false).flt = s.flt := (State.netsTrack_frame _).part .flt rfl
    have hd : Frame [] [.flt] (s.netReturn b false) ((s.netReturn b false).deassertF Code.SAF_DARKNET) := .deassertF .refl rfl
    have hsaf := Eq.trans (hd.part .saf rfl) (s.netReturn_saf b false)
    refine ⟨_, execDarkNetMismatch_good hon hother, ?_, ?_, State.deassertF_flt hflt _, hf.get rfl, ?_, hf.sameMemory rfl⟩ <;>
      rw [hsaf] <;> cases b <;> simp_all
  · rw [Completes, execDarkNetProof_passes hon h0 ha hf]
    refine ⟨_, rfl, ?_⟩
    split
    case isTrue h1 =>
      obtain ⟨haged, hdone, hflt, hst, hrel, hmem⟩ := State.proofGo_effect (n := 2) (done := false) h0 hf
      exact ⟨haged, hflt, hst, fun _ => ⟨hdone, hrel 2, hrel 1⟩, fun h => absurd h1 h, hmem⟩
    case isFalse h1 =>
      obtain ⟨haged, hdone, hflt, hst, hrel, hmem⟩ := State.proofGo_effect (n := 0) (done := true) h0 hf
      exact ⟨haged, hflt, hst, fun h => absurd h h1, fun _ => ⟨hdone, hrel 1, hrel 2⟩, hmem⟩
  · exact execSafeOutFail_eq hon hr
  · exact execClockMonitorFail_oscIn hon hi ha hr hst

end Sys2Proof.Machine
end

section
/-!
What a calibration, a link exit and a raster stop leave unchanged, and the supplies and the freeze request (R188, R421, R436,
R441).
-/

namespace Sys2Proof.Machine

/-! ### Calibration -/

/-- The registers that the end of a calibration run and the adoption of its values may touch. -/
def calSpans : List Span := irqSpans ++ [⟨A.PWR_JOBn_CMD 0, A.PWR_JOBn_CMD 4⟩, .reg A.THM_STATUS, ⟨A.CAL_CTRL, 0⟩]

/-- The parts that the end of a calibration run may touch. -/
def calParts : List Part := [.lnk, .ary, .cal, .nvmw]

theorem State.findJob_lt {s : State} {t n : Nat} (h : s.findJob t = some n) : n < 4 :=
  List.mem_range.1 (List.mem_of_find?_eq_some h)

theorem State.setBit_frame (s : State) {f : Field} (hf : f.addr ≠ A.GLB_IRQ_STATUS) (i : Nat) :
    Frame [.reg f.addr] [] s (s.setBit f i) :=
  .ite .refl (.put .refl (by simp [writes, covers, Span.reg, hf]))

theorem State.jobCommitOf_frame (s : State) (t : Nat) : Frame [⟨A.PWR_JOBn_CMD 0, A.PWR_JOBn_CMD 4⟩] [] s (s.jobCommitOf t) := by
  unfold State.jobCommitOf
  split
  next n hn =>
    have := State.findJob_lt hn
    exact .put .refl (by interval_cases n <;> rfl)
  · exact .refl

theorem State.jobEndOf_frame (s : State) (t st : Nat) :
    Frame (irqSpans ++ [⟨A.PWR_JOBn_CMD 0, A.PWR_JOBn_CMD 4⟩]) [.lnk] s (s.jobEndOf t st) := by
  unfold State.jobEndOf
  split
  next n hn =>
    have := State.findJob_lt hn
    exact .irq (.put .refl (by interval_cases n <;> rfl)) rfl
  · exact .refl

theorem State.loadTaps_frame (s : State) : Frame [] [.ary] s s.loadTaps := .ary .refl rfl ⟨⟨rfl, rfl⟩, rfl, rfl⟩

theorem State.setIsns_frame (s : State) (p : Nat) (o : Int) : Frame [⟨A.CAL_ISNS0, 0⟩] [] s (s.setIsns p o) :=
  .setReg .refl (by simp [writes, covers, A.CAL_ISNS0, A.GLB_IRQ_STATUS]; omega)

theorem Frame.forUpto {L : List Span} {ps : List Part} {f : Nat → State → State} (s : State) :
    ∀ {n : Nat}, (∀ p s, p < n → Frame L ps s (f p s)) → Frame L ps s (Machine.forUpto n f s)
  | 0, _ => .refl
  | n + 1, hf => (Frame.forUpto s fun p s hp => hf p s (by omega)).trans (hf n _ (by omega))

theorem Frame.foldl {α : Type} {L : List Span} {ps : List Part} {f : State → α → State} :
    ∀ {xs : List α} (s : State), (∀ s x, x ∈ xs → Frame L ps s (f s x)) → Frame L ps s (xs.foldl f s)
  | [], _, _ => .refl
  | x :: xs, s, hf => (hf s x (by simp)).trans (Frame.foldl (f s x) fun s y hy => hf s y (by simp [hy]))

theorem State.adoptLink_frame (s : State) (v : CalVal) : Frame [⟨A.CAL_CTRL, 0⟩] [] s (s.adoptLink v) := by
  unfold State.adoptLink
  extract_lets s1
  have h1 : Frame [⟨A.CAL_CTRL, 0⟩] [] s s1 := .ite (.put (.put (.put (.put .refl rfl) rfl) rfl) rfl) .refl
  exact .ite (.put h1 rfl) h1

theorem State.adopt_frame (s : State) (v : CalVal) : Frame calSpans calParts s (s.adopt v) := by
  unfold State.adopt
  refine .ite (.mono (s.adoptLink_frame v) rfl) (.ite ?_ (.ite ?_ ?_))
  · exact .op (State.loadTaps_frame _) (.cal .refl rfl) rfl
  · exact .mono (.forUpto s fun p s _ => s.setIsns_frame p _) rfl
  · exact .cal (.put .refl rfl) rfl

theorem State.calJobOver_frame (s : State) : Frame [] [.cal] s s.calJobOver := .cal .refl rfl

theorem State.calCommit_frame (s : State) : Frame calSpans calParts s s.calCommit :=
  .op (State.jobEndOf_frame _ _ _) (.op (State.jobCommitOf_frame _ _) (.op (State.calJobOver_frame _)
    (.foldl _ fun s v _ => s.adopt_frame v) rfl) rfl) rfl

theorem State.calIdle_frame (s : State) : Frame [⟨A.CAL_CTRL, 0⟩] [.cal] s s.calIdle := .cal (.put (.put .refl rfl) rfl) rfl

theorem State.calFlag_frame (s : State) (item reason : Nat) :
    Frame (irqSpans ++ [⟨A.CAL_CTRL, 0⟩]) [.cal, .lnk] s (s.calFlag item reason) :=
  .irq (.put (.op (State.setBit_frame _ (by decide) _) (.mono s.calIdle_frame rfl) rfl) rfl) rfl

theorem State.calJobFail_frame (s : State) (item reason : Nat) : Frame calSpans calParts s (s.calJobFail item reason) :=
  .op (State.jobEndOf_frame _ _ _) (.op (State.calJobOver_frame _) (.mono (s.calFlag_frame item reason) rfl) rfl) rfl

theorem State.calNeeds_frame (s : State) (i : Nat) : Frame calSpans calParts s (s.calNeeds i) :=
  .ite (s.calJobFail_frame _ _) (.ite (s.calJobFail_frame _ _) .refl)

theorem State.calBegin_frame (s : State) (it : CalItem) : Frame [⟨A.CAL_CTRL, 0⟩] [.cal] s (s.calBegin it) :=
  .cal (.ite (.put .refl rfl) (.put .refl rfl)) rfl

theorem State.calNext_frame (s : State) : Frame calSpans calParts s s.calNext := by
  unfold State.calNext
  split
  · exact .op (State.calNeeds_frame _ _) (.op (State.calBegin_frame _ _) (.cal .refl rfl) rfl) rfl
  · exact .ite (.nvmw .refl rfl rfl) s.calCommit_frame

theorem State.calShow_frame (s : State) : Frame [⟨A.CAL_CTRL, 0⟩] [] s s.calShow := .put .refl rfl

theorem State.calYield_frame (s : State) (it : CalItem) : Frame calSpans calParts s (s.calYield it) :=
  .op (State.calNext_frame _) (.op (State.calShow_frame _) (.cal (.mono s.calIdle_frame rfl) rfl) rfl) rfl

theorem State.calFail_frame (s : State) (reason : Nat) : Frame calSpans calParts s (s.calFail reason) := by
  unfold State.calFail
  split
  · exact .refl
  · exact .ite (s.calJobFail_frame _ _) (.ite (.op (State.calYield_frame _ _) (.mono (s.calFlag_frame _ _) rfl) rfl)
      (.mono (s.calFlag_frame _ _) rfl))

theorem State.calRasterStop_frame (s : State) : Frame calSpans calParts s s.calRasterStop := by
  unfold State.calRasterStop
  extract_lets _ s1
  have h1 : Frame calSpans calParts s s1 := .cal .refl rfl
  split
  · exact h1
  · exact .ite (.ite (.op (State.calFail_frame _ _) h1 rfl) h1) (.ite (.op (State.calYield_frame _ _) h1 rfl) h1)

/-- With no calibration in hand the raster stop of CAL touches no register. -/
theorem State.calRasterStop_idle {s : State} (h : s.cal.run = none) : Frame [] [.cal] s s.calRasterStop := by
  unfold State.calRasterStop
  simp only [h]
  exact .cal .refl rfl

/-! ### The links -/

/-- The registers of port D, or of port U, and those of an event. -/
def portSpans (d : Bool) : List Span := irqSpans ++ [if d then ⟨A.LNK_D_CTRL, A.LNK_MSG⟩ else ⟨A.LNK_U_CTRL, A.LNK_D_CTRL⟩]

theorem Frame.pput {L : List Span} {ps : List Part} {s t : State} {d : Bool} {f : Field} {v : Nat} (h : Frame L ps s t)
    (ha : writes L ps (portField d f).addr = true) : Frame L ps s (t.pput d f v) := h.put ha

theorem State.setPort_frame (s : State) (d : Bool) (p : Port) : Frame [] [.lnk] s (s.setPort d p) :=
  .ite (.lnk .refl rfl) (.lnk .refl rfl)

theorem State.setLps_frame (s : State) (d : Bool) (l : Nat) : Frame (portSpans d) [.lnk] s (s.setLps d l) :=
  .ite .refl (.irq (.pput .refl (by cases d <;> rfl)) (by cases d <;> rfl))

theorem State.portGoto_frame (s : State) (d : Bool) (st : Nat) : Frame (portSpans d) [.lnk] s (s.portGoto d st) :=
  .op (State.setPort_frame _ _ _) (.ite .refl (.irq (.pput .refl (by cases d <;> rfl)) (by cases d <;> rfl)))
    (by cases d <;> rfl)

theorem State.portDown_frame (s : State) (d : Bool) : Frame (portSpans d) [.lnk] s (s.portDown d) :=
  .op (State.portGoto_frame _ _ _) (.op (State.setLps_frame _ _ _) (.mono (s.setPort_frame _ _) (by cases d <;> rfl))
    (by cases d <;> rfl)) (by cases d <;> rfl)

theorem State.clearU_frame (s : State) : Frame (portSpans false) [.lnk] s s.clearU := .lnk (.put .refl rfl) rfl

theorem State.clearD_frame (s : State) : Frame [] [.lnk] s s.clearD := .lnk .refl rfl

theorem Frame.lnkRaise {L : List Span} {ps : List Part} {s t : State} {d : Bool} {n q st c : Nat} (h : Frame L ps s t)
    (hp : ps.contains .flt = true) : Frame L ps s (t.lnkRaise n d q st c) := h.raiseI hp

theorem State.calLinkDown_frame (s : State) (u : Bool) : Frame calSpans calParts s (s.calLinkDown u) :=
  .ite (s.calFail_frame _) .refl

/-- The parts that a link exit may touch. -/
def linkParts : List Part := .flt :: calParts

theorem State.linkExit_frame (s : State) (d : Bool) (cause : Nat) :
    Frame (portSpans d ++ calSpans) linkParts s (s.linkExit d cause) := by
  unfold State.linkExit
  refine .ite .refl (.ite (.op (State.portDown_frame _ _) (.mono (s.setPort_frame _ _) (by cases d <;> rfl)) (by cases d <;> rfl)) ?_)
  extract_lets s1 s2 s3 s4
  have h2 : Frame (portSpans d ++ calSpans) linkParts s s2 :=
    .pput (.pput (.pput .refl (by cases d <;> rfl)) (by cases d <;> rfl)) (by cases d <;> rfl)
  have h3 : Frame (portSpans d ++ calSpans) linkParts s s3 := by
    cases d
    · exact .op s2.clearU_frame h2 rfl
    · exact .op s2.clearD_frame h2 rfl
  have h4 : Frame (portSpans d ++ calSpans) linkParts s s4 := .ite h3 (.lnkRaise h3 rfl)
  exact .op (State.calLinkDown_frame _ _) (.op (s4.portDown_frame d) h4 (by cases d <;> rfl)) (by cases d <;> rfl)

/-! ### The raster stop -/

theorem State.retimeAbandon_frame (s : State) :
    Frame [.reg A.RAS_RETIME_STATUS, .reg A.THM_STATUS] [.ras, .thm] s s.retimeAbandon := by
  unfold State.retimeAbandon
  split
  · exact .refl
  · extract_lets s1 s2
    have h1 : Frame [.reg A.RAS_RETIME_STATUS, .reg A.THM_STATUS] [.ras, .thm] s s1 := .put (.put .refl rfl) rfl
    have h2 : Frame [.reg A.RAS_RETIME_STATUS, .reg A.THM_STATUS] [.ras, .thm] s s2 := .ite (.put h1 rfl) h1
    exact h2.upd rfl id

theorem State.composeStop_frame (s : State) : Frame [] [.cmp, .lum, .ary] s s.composeStop := .upd .refl rfl id

theorem State.passAbandon_frame (s : State) : Frame [.reg A.MSK_STATUS] [.msk] s s.passAbandon :=
  .ite (.msk (.put .refl rfl) rfl) .refl

theorem State.stageOff_frame (s : State) : Frame [] [.lpe] s s.stageOff := .lpe .refl rfl

theorem State.railStop_frame (s : State) : Frame [.reg A.LPE_STATUS] [.lpe] s s.railStop :=
  .ite (.lpe (.put (.put (.mono s.stageOff_frame rfl) rfl) rfl) rfl) (.mono s.stageOff_frame rfl)

theorem State.commitRetarget_frame (s : State) : Frame [.reg A.GLB_COMMIT_TARGET] [] s s.commitRetarget :=
  .ite .refl (.setReg .refl rfl)

/-- The raster generator stands: its registers, its record, and what the other blocks note of it. -/
def State.rasOff (s : State) : State :=
  let s2 := ((((s.put F.RAS_STATUS_RUN 0).setReg A.RAS_ACT_TIMING 0).setReg A.RAS_ACT_PWM 0).setReg A.RAS_ACT_MODE 0).put
    F.RAS_STATUS_P 0
  let s3 := s2.put F.RAS_STATUS_FLYWHEEL 0
  { s3 with
    ras := { s3.ras with
      running := false, leadIn := false, winEv := none, window := false, missRun := 0, missReported := false,
      missDue := false, inRun := 0, outRun := 0, fsync := false }
    cvn := { s3.cvn with load := none, nx := none, gotEpoch := false, missServed := false, flyRun := 0, lostReported := false }
    saf := { s3.saf with wdArmed := false } }

/-- The blocks that go by the raster follow its stop. -/
def State.rasFollowers (s : State) : State :=
  ((s.composeStop.passAbandon).railStop.calRasterStop).safRefresh.commitRetarget

theorem State.rasterStop_eq (s : State) :
    s.rasterStop = if s.rasRun = 0 then s
      else if s.ras.running then s.retimeAbandon.rasOff.rasFollowers else s.retimeAbandon.rasOff := rfl

theorem State.rasOff_frame (s : State) :
    Frame [⟨A.RAS_ACT_TIMING, A.RAS_RETIME_STATUS⟩] [.ras, .cvn, .saf] s s.rasOff :=
  .upd (t := State.put _ _ _) (.put (.put (.setReg (.setReg (.setReg (.put .refl rfl) rfl) rfl) rfl) rfl) rfl) rfl id

/-- The registers that the followers of the raster may touch. -/
def followerSpans : List Span :=
  islandSpans ++ calSpans ++ [.reg A.MSK_STATUS, .reg A.LPE_STATUS, .reg A.GLB_COMMIT_TARGET]

/-- The parts that the followers of the raster may touch. -/
def followerParts : List Part := [.cmp, .lum, .msk] ++ islandParts ++ calParts

theorem State.rasFollowers_frame (s : State) : Frame followerSpans followerParts s s.rasFollowers :=
  .op (State.commitRetarget_frame _) (.op (State.safRefresh_frame _) (.op (State.calRasterStop_frame _)
    (.op (State.railStop_frame _) (.op (State.passAbandon_frame _) (.mono s.composeStop_frame rfl) rfl) rfl) rfl) rfl) rfl

/-- The registers that a raster stop may touch. -/
def rasStopSpans : List Span :=
  ⟨A.RAS_ACT_TIMING, A.RAS_RETIME_FRAME⟩ :: followerSpans

/-- The parts that a raster stop may touch. -/
def rasStopParts : List Part := [.ras, .thm, .cvn] ++ followerParts

theorem State.rasterStop_frame (s : State) : Frame rasStopSpans rasStopParts s s.rasterStop := by
  have h4 : Frame rasStopSpans rasStopParts s s.retimeAbandon.rasOff :=
    .op (State.rasOff_frame _) (.mono s.retimeAbandon_frame rfl) rfl
  rw [State.rasterStop_eq]
  exact .ite .refl (.ite (.op (State.rasFollowers_frame _) h4 rfl) h4)

theorem State.rasOff_stopped {s : State} (hs : s.Wf) : s.rasOff.rasRun = 0 ∧ s.rasOff.ras.running = false := by
  refine ⟨?_, rfl⟩
  have hf : Frame [⟨A.RAS_ACT_TIMING, A.RAS_STATUS⟩] [] (s.put F.RAS_STATUS_RUN 0)
      ((((s.put F.RAS_STATUS_RUN 0).setReg A.RAS_ACT_TIMING 0).setReg A.RAS_ACT_PWM 0).setReg A.RAS_ACT_MODE 0) :=
    .setReg (.setReg (.setReg .refl rfl) rfl) rfl
  have hw := hf.wf (State.put_wf hs)
  refine (State.get_put_ne (State.put_wf hw) (by decide) (by decide)).trans ?_
  rw [State.get_put_ne hw (by decide) (by decide), hf.get rfl, State.get_put_self hs (by decide)]
  decide

/-- After a raster stop the run register stands at 0, and a raster that was on is not running. -/
theorem State.rasterStop_stopped {s : State} (hs : s.Wf) :
    s.rasterStop.rasRun = 0 ∧ s.rasterStop.ras.running = (s.ras.running && decide (s.rasRun = 0)) := by
  rw [State.rasterStop_eq]
  by_cases h0 : s.rasRun = 0
  · rw [if_pos h0]
    simp [h0]
  · obtain ⟨hr, hn⟩ := State.rasOff_stopped (s.retimeAbandon_frame.wf hs)
    have hf := State.rasFollowers_frame s.retimeAbandon.rasOff
    rw [if_neg h0]
    simp only [h0, decide_false, Bool.and_false]
    split
    · exact ⟨(hf.get rfl).trans hr, (congrArg Ras.running (hf.part .ras rfl)).trans hn⟩
    · exact ⟨hr, hn⟩

/-! ### The supplies, the PLL and the freeze request -/

/-- A rail that is not at its second bad tick is not reported. -/
theorem State.railReport_other {s : State} {run code : Nat} (h : run ≠ 2) : s.railReport run code = s := if_neg h

/-- A rail at its second bad tick raises its code. -/
theorem State.railReport_second {s : State} {code : Nat} : s.railReport 2 code = s.raise code 0 := if_pos rfl

theorem State.raise_pwr (s : State) (n x : Nat) : (s.raise n x).pwr = s.pwr :=
  (Frame.raise (L := []) (ps := [.flt]) .refl rfl).part .pwr rfl

theorem execRailWindowFault_on {s : State} (h : s.aonOn = true) :
    exec .railWindowFault s = .next
      (let p := s.pwr
      let s1 := (((s.railReport p.vddRun Code.PWR_VDD).railReport p.vpixRun Code.PWR_VPIX).railReport p.vddaRun
        Code.PWR_VDDA_LNK).railReport p.vddioRun Code.PWR_VDDIO
      let told := fun (n : Nat) => if n = 2 then 3 else n
      { s1 with pwr := { s1.pwr with
        vddRun := told p.vddRun, vpixRun := told p.vpixRun, vddaRun := told p.vddaRun, vddioRun := told p.vddioRun } }) :=
  congrArg Host.Outcome.next (if_neg (by simp [h]))

theorem execPllLockLoss_on {s : State} (hw : s.pllWanted = true) (h : s.get F.PWR_DOM_PLL = 1) :
    exec .pllLockLoss s = .next ((s.put F.PWR_DOM_PLL 0).raise Code.PWR_PLL 0) :=
  congrArg Host.Outcome.next (if_pos (by simp [hw, State.flag, h]))

theorem execPllRelock_off {s : State} (hw : s.pllWanted = true) (h : s.get F.PWR_DOM_PLL = 0) :
    exec .pllRelock s = .next (s.put F.PWR_DOM_PLL 1) :=
  congrArg Host.Outcome.next (if_pos (by simp [hw, State.flag, h]))

/-- The supply VPIX has gone: PIX is off, with its latches and a latch test. -/
def State.vpixGone (s : State) : State :=
  { s.put F.PWR_DOM_PIX 0 with
      pwr := { s.pwr with vpixLost := true, vpixGood := 0 }
      ary := { s.ary with storage := [], display := [], maskW := [], maskA := [], loadDue := false }
      bst := { s.bst with latchRow := none } }.put F.BST_STATUS_LATCH 0

theorem execVpixLoss_on {s : State} (h : s.get F.PWR_DOM_PIX = 1) : exec .vpixLoss s = .next s.vpixGone.calRasterStop :=
  congrArg Host.Outcome.next (if_pos (by simp [State.flag, h]))

theorem State.vpixGone_frame (s : State) :
    Frame [.reg A.PWR_DOM, .reg A.BST_STATUS] [.pwr, .ary, .latches, .bst] s s.vpixGone :=
  .put (.upd (t := s.put F.PWR_DOM_PIX 0) (.put .refl rfl) rfl id) rfl

theorem execVpixRestored_not {s : State} (h : s.pwr.vpixLost = false ∨ s.pwr.vpixGood ≠ 2) : exec .vpixRestored s = .next s :=
  congrArg Host.Outcome.next (if_neg (by rcases h with h | h <;> simp [h]))

theorem execVpixRestored_good {s : State} (hl : s.pwr.vpixLost = true) (hg : s.pwr.vpixGood = 2) :
    exec .vpixRestored s = .next s.pixUp.loadTaps :=
  congrArg Host.Outcome.next (if_pos (by simp [hl, hg]))

theorem State.setSets_frame (s : State) (dark bright : List Nat) : Frame [.reg A.MSK_STATUS] [.msk] s (s.setSets dark bright) :=
  .msk (.put (.put .refl rfl) rfl) rfl

theorem State.mskPixUp_frame (s : State) : Frame [.reg A.MSK_STATUS] [.msk] s s.mskPixUp :=
  .msk (.op (State.setSets_frame _ _ _) (.put .refl rfl) rfl) rfl

theorem State.lumPixUp_frame (s : State) : Frame [.reg A.LUM_DEMAND] [.lum] s s.lumPixUp := .lum (.put .refl rfl) rfl

theorem State.pixPowerUp_frame (s : State) :
    Frame [.reg A.MSK_STATUS, .reg A.LUM_DEMAND] [.msk, .lum, .ary, .latches, .hlt] s s.pixPowerUp :=
  .op (State.lumPixUp_frame _) (.op (State.mskPixUp_frame _) (.upd .refl rfl id) rfl) rfl

/-- PIX comes back with black latches and the working taps of CAL. -/
theorem State.pixUp_loadTaps {s : State} (hs : s.Wf) :
    s.pixUp.loadTaps.get F.PWR_DOM_PIX = 1 ∧ s.pixUp.loadTaps.pixOn = true ∧ s.pixUp.loadTaps.ary.storage = [] ∧
      s.pixUp.loadTaps.ary.display = [] ∧ s.pixUp.loadTaps.ary.taps = s.cal.taps ∧ s.pixUp.loadTaps.ary.tapBad = [] := by
  have hf := (s.put F.PWR_DOM_PIX 1).pixPowerUp_frame
  have h1 : s.pixUp.loadTaps.get F.PWR_DOM_PIX = 1 :=
    ((hf.get rfl).trans (State.get_put_self hs (by decide))).trans (by decide)
  have hl : s.pixUp.loadTaps.pwr.vpixLost = false := rfl
  exact ⟨h1, by simp [State.pixOn, State.flag, h1, hl], rfl, rfl, rfl, rfl⟩

/-- A port that goes down shows state 0. -/
theorem State.portDown_pst {s : State} (hs : s.Wf) (d : Bool) : (s.portDown d).pst d = 0 := by
  unfold State.portDown State.portGoto
  extract_lets p s1
  refine ((s1.setPort_frame d _).get (by cases d <;> rfl)).trans ?_
  by_cases h : ((s.setPort d { slow := p.slow, lastSeq := p.lastSeq }).setLps d 0).pst d = PortSt.down
  · rw [show s1 = _ from if_pos h]
    exact h
  · rw [show s1 = _ from if_neg h]
    have hw := (State.setLps_frame _ d 0).wf ((s.setPort_frame d { slow := p.slow, lastSeq := p.lastSeq }).wf hs)
    refine ((Frame.irq (L := irqSpans) (ps := [.lnk]) .refl rfl).get (by cases d <;> rfl)).trans ?_
    exact (State.get_put_self hw (by cases d <;> decide)).trans (by cases d <;> decide)

/-- An active port that leaves its state is down. -/
theorem State.linkExit_down {s : State} (hs : s.Wf) {d : Bool} (cause : Nat) (h : s.pst d = 7) : (s.linkExit d cause).pst d = 0 := by
  unfold State.linkExit
  rw [if_neg (by rw [h]; decide), if_neg (by rw [h]; simp [PortSt.active])]
  extract_lets s1 s2 s3 s4
  have h2 : Frame (portSpans d) [.lnk, .flt] s s2 :=
    .pput (.pput (.pput .refl (by cases d <;> rfl)) (by cases d <;> rfl)) (by cases d <;> rfl)
  have h3 : Frame (portSpans d) [.lnk, .flt] s s3 := by
    cases d
    · exact .op s2.clearU_frame h2 rfl
    · exact .op s2.clearD_frame h2 rfl
  have h4 : Frame (portSpans d) [.lnk, .flt] s s4 := .ite h3 (.lnkRaise h3 rfl)
  exact ((State.calLinkDown_frame _ _).get (by cases d <;> rfl)).trans (State.portDown_pst (h4.wf hs) d)

/-- The loss of VDDA_LNK takes both active ports down. -/
theorem State.vddaLoss_down {s : State} (hs : s.Wf) (hu : s.pst false = 7) (hd : s.pst true = 7) :
    s.vddaLoss.pst false = 0 ∧ s.vddaLoss.pst true = 0 ∧ s.vddaLoss.pwr.vddaLost = true := by
  unfold State.vddaLoss
  extract_lets _ s1
  have h1 := s1.linkExit_frame false 2
  have h2 := (s1.linkExit false 2).linkExit_frame true 2
  have hw : s1.Wf := hs
  refine ⟨(h2.get rfl).trans (State.linkExit_down hw 2 hu), State.linkExit_down (h1.wf hw) 2 ((h1.get rfl).trans hd), ?_⟩
  exact congrArg Pwr.vddaLost (Eq.trans (h2.part .pwr rfl) (h1.part .pwr rfl))

/-- The module has seen FREEZE high. -/
def State.freezeHigh (s : State) : State := { s with cfg := { s.cfg with freezePad := true } }

/-- The refusal shows, and FREEZE is ignored until it has been seen low. -/
def State.freezeIgnore (s : State) : State :=
  { s.put F.CFG_STATUS_FREEZE_REF 1 with cfg := { s.cfg with freezeOff := true } }

theorem execFreezeRequest_high {s : State} (hc : s.coreOn = true) (hf : s.frozen = false) (ho : s.cfg.freezeOff = false) :
    exec (.freezeRequest true) s = .next
      (if s.mayFreeze then
        let s2 := s.freezeHigh.rasterStop
        ({ s2 with lpe := { s2.lpe with pwm := 0 } }).put F.CFG_STATUS_FROZEN 1
      else s.freezeHigh.freezeIgnore.raise Code.CFG_FREEZE_REF 0) :=
  congrArg Host.Outcome.next (if_neg (show ¬ (s.cfg.freezeOff || s.frozen || !s.coreOn) = true by simp [hc, hf, ho]))

/-- A freeze that is permitted stops the raster. -/
theorem freezeRequest_permitted {s : State} (hs : s.Wf) (hc : s.coreOn = true) (hf : s.frozen = false)
    (ho : s.cfg.freezeOff = false) (hm : s.mayFreeze = true) :
    Completes (.freezeRequest true) s fun t =>
      t.frozen = true ∧ t.rasRun = 0 ∧ t.ras.running = (s.ras.running && decide (s.rasRun = 0)) ∧ t.cfg.freezePad = true := by
  rw [Completes, execFreezeRequest_high hc hf ho, if_pos hm]
  have hw : s.freezeHigh.Wf := hs
  have hfr := s.freezeHigh.rasterStop_frame
  obtain ⟨hrun, hras⟩ := State.rasterStop_stopped hw
  refine ⟨_, rfl, ?_, (State.get_put_addr (by decide)).trans hrun, hras, congrArg Cfg.freezePad (hfr.part .cfg rfl)⟩
  have h1 : (s.freezeHigh.rasterStop.put F.CFG_STATUS_FROZEN 1).get F.CFG_STATUS_FROZEN = 1 :=
    (State.get_put_self (hfr.wf hw) (by decide)).trans (by decide)
  exact bne_iff_ne.2 (h1.trans_ne (by decide))

/-- A freeze that is not permitted is refused and ignored until FREEZE has been seen low. -/
theorem freezeRequest_refused {s : State} (hs : s.Wf) (hc : s.coreOn = true) (hf : s.frozen = false)
    (ho : s.cfg.freezeOff = false) (hm : s.mayFreeze = false) :
    Completes (.freezeRequest true) s fun t =>
      t.frozen = false ∧ t.get F.CFG_STATUS_FREEZE_REF = 1 ∧ t.cfg.freezeOff = true ∧ t.flt = (s.raise Code.CFG_FREEZE_REF 0).flt ∧
      t.ras = s.ras ∧ RegsBut [A.CFG_STATUS] s t := by
  rw [Completes, execFreezeRequest_high hc hf ho, if_neg (by simp [hm])]
  have hw : s.freezeHigh.Wf := hs
  have hput : Frame [.reg A.CFG_STATUS] [.cfg] s s.freezeHigh.freezeIgnore :=
    .upd (t := s.put F.CFG_STATUS_FREEZE_REF 1) (.put .refl rfl) rfl id
  have hr : Frame [] [.flt] s.freezeHigh.freezeIgnore (s.freezeHigh.freezeIgnore.raise Code.CFG_FREEZE_REF 0) := .raise .refl rfl
  have hall : Frame [.reg A.CFG_STATUS] [.cfg, .flt] s (s.freezeHigh.freezeIgnore.raise Code.CFG_FREEZE_REF 0) := .op hr (.mono hput rfl) rfl
  refine ⟨_, rfl, ?_, ?_, congrArg Cfg.freezeOff (hr.part .cfg rfl),
    State.raise_flt (s := s) (y := s.freezeHigh.freezeIgnore) rfl _ _, hall.part .ras rfl, hall.regsBut rfl⟩
  · refine (hr.flag rfl).trans (Eq.trans ?_ hf)
    exact congrArg (· != 0) (State.get_put_ne (f := F.CFG_STATUS_FREEZE_REF) (g := F.CFG_STATUS_FROZEN) hw (by decide) (by decide))
  · exact (hr.get rfl).trans ((State.get_put_self hw (by decide)).trans (by decide))

/-- Settles O49: each command's branch, with the frames of what it calls. -/
theorem suppliesAndFreeze : Obligations.SuppliesAndFreeze := by
  refine ⟨fun s hon => ⟨fun h1 h2 h3 h4 => ?_, fun h1 h2 h3 h4 => ?_, fun h1 h2 h3 h4 => ?_, fun h1 h2 h3 h4 => ?_⟩, fun s hs hw => ⟨fun h => ?_, fun h => ?_⟩,
    fun s hs => ⟨fun h => ?_, fun h => execVpixRestored_not h, fun hl hg => ?_⟩, fun s hs hl hu hd => ?_,
    fun s hs => ⟨?_, fun hc hf ho => ⟨freezeRequest_permitted hs hc hf ho, freezeRequest_refused hs hc hf ho⟩⟩⟩
  · rw [execRailWindowFault_on hon]
    simp [h1, h2, h3, h4, State.railReport_other, State.railReport_second, State.raise_pwr]
  · rw [execRailWindowFault_on hon]
    simp [h1, h2, h3, h4, State.railReport_other, State.railReport_second, State.raise_pwr]
  · rw [execRailWindowFault_on hon]
    simp [h1, h2, h3, h4, State.railReport_other, State.railReport_second, State.raise_pwr]
  · rw [execRailWindowFault_on hon]
    simp [h1, h2, h3, h4, State.railReport_other, State.railReport_second, State.raise_pwr]
  · have hf : Frame [.reg A.PWR_DOM] [.flt] s ((s.put F.PWR_DOM_PLL 0).raise Code.PWR_PLL 0) := .raise (.put .refl rfl) rfl
    have hr : Frame [] [.flt] (s.put F.PWR_DOM_PLL 0) ((s.put F.PWR_DOM_PLL 0).raise Code.PWR_PLL 0) := .raise .refl rfl
    refine ⟨_, execPllLockLoss_on hw h, ?_, hf.regsBut rfl, ?_, hf.part .ras rfl, hf.part .ary rfl⟩
    · rw [hr.get rfl, State.get_put_self hs (by decide)]
      decide
    · exact State.raise_flt (s := s) (y := s.put F.PWR_DOM_PLL 0) rfl _ _
  · have hf : Frame [.reg A.PWR_DOM] [] s (s.put F.PWR_DOM_PLL 1) := .put .refl rfl
    refine ⟨_, execPllRelock_off hw h, ?_, hf.regsBut rfl, rfl, rfl⟩
    rw [State.get_put_self hs (by decide)]
    decide
  · have hg := s.vpixGone_frame
    have hr := s.vpixGone.calRasterStop_frame
    have hpwr : s.vpixGone.calRasterStop.pwr = s.vpixGone.pwr := hr.part .pwr rfl
    have hbst : s.vpixGone.calRasterStop.bst = s.vpixGone.bst := hr.part .bst rfl
    have hpix : s.vpixGone.calRasterStop.get F.PWR_DOM_PIX = 0 :=
      (hr.get rfl).trans ((State.get_put_addr (by decide)).trans ((State.get_put_self hs (by decide)).trans (by decide)))
    obtain ⟨⟨hst, hdi⟩, hmw, hma⟩ := hr.part .latches rfl
    refine ⟨_, execVpixLoss_on h, hpix, by simp [State.pixOn, State.flag, hpix], by rw [hpwr]; rfl, hst, hdi, hmw, hma, by rw [hbst]; rfl, ?_, fun hn => ?_⟩
    · refine (hr.get rfl).trans ((State.get_put_self ?_ (by decide)).trans (by decide))
      exact State.put_wf hs
    · exact (Frame.op (State.calRasterStop_idle (s := s.vpixGone) hn) (.mono hg rfl) rfl : Frame [.reg A.PWR_DOM, .reg A.BST_STATUS] [.pwr, .ary, .latches, .bst, .cal] _ _).regsBut rfl
  · obtain ⟨h1, h2, h3, h4, h5, h6⟩ := State.pixUp_loadTaps hs
    exact ⟨_, execVpixRestored_good hl hg, h1, h2, h3, h4, h5, h6⟩
  · exact ⟨_, congrArg Host.Outcome.next (if_neg (by simp [hl])), State.vddaLoss_down hs hu hd⟩
  · exact ⟨_, rfl, rfl⟩

end Sys2Proof.Machine
end

section
/-!
The commit instant (R34, R64, R125 to R129, R141): the transfer of the shadows, and what the rest of the instant leaves alone.
-/

namespace Sys2Proof.Machine

/-! ### The transfer -/

/-- The RWS fields of the register hold their shadow values. -/
def State.transferred (s : State) (a : Nat) : Prop := s.reg a &&& accessMask .rws a = s.shReg a &&& accessMask .rws a

theorem State.transferReg_same {s : State} (hs : s.Wf) (a : Nat) : (s.transferReg a).transferred a := by
  unfold State.transferred State.transferReg
  extract_lets m
  rw [State.reg_setReg_same hs]
  change ((s.reg a &&& ~~~ m) ||| (s.shReg a &&& m)) &&& m = s.shReg a &&& m
  ext i hi
  simp only [BitVec.getElem_and, BitVec.getElem_or, BitVec.getElem_not]
  cases m[i] <;> simp

theorem State.transferReg_other {s : State} {a b : Nat} (hs : s.Wf) (h : s.transferred a) : (s.transferReg b).transferred a := by
  by_cases hab : a = b
  · subst hab
    exact State.transferReg_same hs a
  · exact (congrArg (· &&& accessMask .rws a) (State.reg_setReg_ne hab)).trans h

/-- Stretches that hold every register with RWS fields. -/
def transferSpans : List Span := [⟨A.RAS_FOLLOW, A.RAS_ACT_TIMING⟩, ⟨A.LMC_CTRL, 0⟩]

theorem rwsAddrs_within : ∀ a ∈ rwsAddrs, writes transferSpans [] a = true := by decide +kernel

theorem State.transferReg_frame (s : State) {a : Nat} (ha : a ∈ rwsAddrs) : Frame transferSpans [] s (s.transferReg a) :=
  .setReg .refl (rwsAddrs_within a ha)

/-- Transferred registers stay so, and every register of the list that is not held back is transferred. -/
theorem State.foldl_transferReg {held : Nat → Bool} {a : Nat} :
    ∀ {as : List Nat} {s : State}, s.Wf → s.transferred a ∨ a ∈ as ∧ held a = false →
      (as.foldl (fun s a => if held a then s else s.transferReg a) s).transferred a
  | [], s, _, h => h.resolve_right (by simp)
  | b :: as, s, hs, h => by
    rw [List.foldl_cons]
    refine State.foldl_transferReg (by split; exacts [hs, State.setReg_wf hs]) ?_
    rcases h with h | ⟨hmem, hh⟩
    · left
      split
      · exact h
      · exact State.transferReg_other hs h
    · rcases List.mem_cons.1 hmem with rfl | hmem
      · left
        rw [if_neg (by simp [hh])]
        exact State.transferReg_same hs a
      · exact .inr ⟨hmem, hh⟩

theorem State.transfer_transferred {s : State} (hs : s.Wf) {held : Nat → Bool} {a : Nat} (ha : a ∈ rwsAddrs) (hh : held a = false) :
    (s.transfer held).transferred a :=
  State.foldl_transferReg hs (.inr ⟨ha, hh⟩)

theorem State.transfer_frame (s : State) (held : Nat → Bool) : Frame transferSpans [] s (s.transfer held) :=
  .foldl s fun s _ ha => .ite .refl (s.transferReg_frame ha)

/-! ### What the instant touches beside the RWS fields -/

/-- The registers that a region shows its results in (R222 to R225). -/
def regionSpans : List Span := (List.range 32).map fun n => ⟨A.HLT_Rn_OUT n, A.HLT_Rn_CTRL (n + 1)⟩

/-- The registers of a scaler's STATUS (R141). -/
def scalerStatusSpans : List Span := (List.range 4).map fun n => .reg (A.SCL_SCn_STATUS n)

/-- The registers that the instant may touch beside the transfer. -/
def instantSpans : List Span :=
  [⟨0, A.RAS_CTRL⟩, ⟨A.RAS_STATUS, A.LMC_CTRL⟩, .reg A.LUM_BUDGET_STATUS, .reg A.LUM_STATE, ⟨A.ARY_STATUS, A.HLT_SENSE_CFG⟩,
    ⟨A.HLT_SIG_OUT_FLAGS, A.HLT_Rn_CTRL 0⟩, ⟨A.LPE_CTRL, 0⟩] ++ scalerStatusSpans ++ regionSpans

/-- The instant touches no RWS field beside the transfer. -/
theorem rwsAddrs_beside : ∀ a ∈ rwsAddrs, covers instantSpans a = false := by decide +kernel

theorem Frame.transferred {L : List Span} {ps : List Part} {s t : State} {a : Nat} (h : Frame L ps s t)
    (hL : (within L instantSpans && !ps.contains .shadow) = true) (ha : a ∈ rwsAddrs) (hs : s.transferred a) : t.transferred a := by
  rw [Bool.and_eq_true, Bool.not_eq_true'] at hL
  obtain ⟨hL, hsh⟩ := hL
  have hout : covers L a = false := by
    by_contra hc
    have := covers_of_within hL (by simpa using hc)
    rw [rwsAddrs_beside a ha] at this
    cases this
  have hshadow : t.shReg a = s.shReg a := congrArg (sparseGet regReset · a) (h.part .shadow hsh)
  unfold State.transferred
  rw [h.reg a hout, hshadow]
  exact hs

theorem State.maskTrigger_frame (s before : State) : Frame [] [.msk] s (s.maskTrigger before) := .ite (.msk .refl rfl) .refl

theorem State.sigInvalid_frame (s : State) : Frame regionSpans [] s s.sigInvalid :=
  .forUpto s fun p s hp => .ite (.putB .refl (by interval_cases p <;> rfl)) .refl

theorem State.scalerTaps_frame (s : State) : Frame scalerStatusSpans [] s s.scalerTaps :=
  .forUpto s fun p s hp => .put .refl (by interval_cases p <;> rfl)

theorem State.scalerStatus_frame (s : State) : Frame scalerStatusSpans [] s s.scalerStatus :=
  .trans s.scalerTaps_frame (.forUpto _ fun p s hp => .ite (.putB .refl (by interval_cases p <;> rfl)) .refl)

theorem State.scalerNeeds_frame (s : State) : Frame scalerStatusSpans [] s s.scalerNeeds :=
  .forUpto s fun p s hp => .ite .refl (.ite (.put .refl (by interval_cases p <;> rfl)) (.put .refl (by interval_cases p <;> rfl)))

theorem State.staleCount_frame (s : State) : Frame [] [.cmp] s s.staleCount :=
  .ite .refl (.ite (.cmp .refl rfl) (.cmp .refl rfl))

/-! ### The commit that is taken, and the one that is rejected -/

/-- The registers that a taken commit touches beside the transfer, before it shows its result. -/
def takeSpans : List Span := [⟨0, A.RAS_CTRL⟩] ++ scalerStatusSpans ++ regionSpans

/-- What a taken commit does after the transfer, before it shows its result. -/
theorem State.commitTake_steps (s : State) :
    ∃ u, Frame takeSpans [.msk, .cmp, .lnk, .flt] (s.transfer s.heldAddr) u ∧
      s.commitTake = (((u.put F.GLB_COMMIT_STATUS_STATE 0).put F.GLB_COMMIT_STATUS_LAST 1).inc
        F.GLB_COMMIT_CNT_TAKEN).irq Irq.commitTaken := by
  unfold State.commitTake
  extract_lets kept drop dropped s1 s2 s3 _ s4 s5 s6 s7
  refine ⟨s7, ?_, rfl⟩
  have h1 : Frame takeSpans [.msk, .cmp, .lnk, .flt] (s.transfer s.heldAddr) s1 := .mono (State.maskTrigger_frame _ _) rfl
  have h2 : Frame takeSpans [.msk, .cmp, .lnk, .flt] (s.transfer s.heldAddr) s2 :=
    (Frame.op (State.sigInvalid_frame _) h1 rfl).trans
      (.forUpto _ fun i t hi => .ite (.inc .refl (by interval_cases i <;> rfl)) .refl)
  have h3 : Frame takeSpans [.msk, .cmp, .lnk, .flt] (s.transfer s.heldAddr) s3 := .ite (.irq h2 rfl) h2
  have h4 : Frame takeSpans [.msk, .cmp, .lnk, .flt] (s.transfer s.heldAddr) s4 := .cmp h3 rfl
  have h5 : Frame takeSpans [.msk, .cmp, .lnk, .flt] (s.transfer s.heldAddr) s5 :=
    .op (State.scalerStatus_frame _) (.put (.put h4 rfl) rfl) rfl
  have h6 : Frame takeSpans [.msk, .cmp, .lnk, .flt] (s.transfer s.heldAddr) s6 := .putB h5 rfl
  exact .ite (.raise h6 rfl) h6

/-- What a commit that is taken leaves behind. -/
structure Taken (s t : State) : Prop where
  transferred : ∀ a, a ∈ rwsAddrs → s.heldAddr a = false → t.reg a &&& accessMask .rws a = s.shReg a &&& accessMask .rws a
  idle : t.get F.GLB_COMMIT_STATUS_STATE = 0
  last : t.get F.GLB_COMMIT_STATUS_LAST = 1
  event : (t.reg A.GLB_IRQ_STATUS).getLsbD 4 = true
  shadow : t.shadow = s.shadow

/-- What follows a taken commit leaves its result and the transferred fields alone. -/
theorem Taken.frame {L : List Span} {ps : List Part} {s t u : State} (h : Taken s t) (hs : t.Wf) (hf : Frame L ps t u)
    (hL : (within L instantSpans && !ps.contains .shadow) = true)
    (hev : (ps.contains .events || covers L A.GLB_COMMIT_STATUS) = false) : Taken s u := by
  have hsh := hL
  rw [Bool.and_eq_true, Bool.not_eq_true'] at hsh
  rw [Bool.or_eq_false_iff] at hev
  have hshadow : u.shadow = s.shadow := Eq.trans (hf.part .shadow hsh.2) h.shadow
  refine ⟨fun a ha hh => ?_, (hf.get hev.2).trans h.idle, (hf.get hev.2).trans h.last, hf.events hev.1 hs 4 h.event, hshadow⟩
  have ht : t.transferred a := by
    unfold State.transferred State.shReg
    rw [h.shadow]
    exact h.transferred a ha hh
  have hu := hf.transferred hL ha ht
  unfold State.transferred State.shReg at hu
  rwa [hshadow] at hu

theorem State.commitTake_taken {s : State} (hs : s.Wf) : Taken s s.commitTake := by
  obtain ⟨u, hu, he⟩ := s.commitTake_steps
  have hwt := (s.transfer_frame s.heldAddr).wf hs
  have hwu := hu.wf hwt
  have hput : Frame [.reg A.GLB_COMMIT_STATUS] [] u ((u.put F.GLB_COMMIT_STATUS_STATE 0).put F.GLB_COMMIT_STATUS_LAST 1) :=
    .put (.put .refl rfl) rfl
  have hend : Frame (.reg A.GLB_COMMIT_CNT :: irqSpans) [.lnk] ((u.put F.GLB_COMMIT_STATUS_STATE 0).put F.GLB_COMMIT_STATUS_LAST 1)
      s.commitTake := by
    rw [he]
    exact .irq (.inc .refl rfl) rfl
  have hall : Frame takeSpans [.msk, .cmp, .lnk, .flt] (s.transfer s.heldAddr) s.commitTake := .op hend (.op hput hu rfl) rfl
  have hshadow : s.commitTake.shadow = s.shadow :=
    Eq.trans (hall.part .shadow rfl) ((s.transfer_frame s.heldAddr).part .shadow rfl)
  refine ⟨fun a ha hh => ?_, (hend.get rfl).trans ?_, (hend.get rfl).trans ?_, ?_, hshadow⟩
  · have ht := hall.transferred rfl ha (s.transfer_transferred hs ha hh)
    unfold State.transferred State.shReg at ht
    rwa [hshadow] at ht
  · rw [State.get_put_ne (State.put_wf hwu) (by decide) (by decide), State.get_put_self hwu (by decide)]
    decide
  · rw [State.get_put_self (State.put_wf hwu) (by decide)]
    decide
  · rw [he]
    exact Frame.irq_event (State.put_wf (hput.wf hwu)) (by decide)

/-- The layers that are not ready are none that holds the commit. -/
def State.noneHolds (s : State) : Prop := ∀ i, i < 12 → ¬ (s.notReady i = true ∧ s.holdMode i = 2)

theorem State.commitResolve_take {s : State} (h : s.get F.GLB_COMMIT_STATUS_STATE ≠ 0) (hc : s.configFail = none)
    (hh : s.noneHolds) : s.commitResolve = s.commitTake.scalerNeeds := by
  unfold State.commitResolve
  rw [if_neg h, hc]
  refine congrArg State.scalerNeeds (if_neg ?_)
  rw [List.any_eq_true]
  rintro ⟨i, hi, hb⟩
  exact hh i (List.mem_range.1 hi) (by simpa using hb)

/-- The registers that the resolution of a commit may touch. -/
def commitSpans : List Span := ⟨0, A.RAS_CTRL⟩ :: transferSpans

/-- The parts that the resolution of a commit may touch. -/
def commitParts : List Part := [.msk, .cmp, .lnk, .flt]

theorem State.commitTake_frame (s : State) : Frame commitSpans commitParts s s.commitTake := by
  obtain ⟨u, hu, he⟩ := s.commitTake_steps
  rw [he]
  exact .irq (.inc (.put (.put (.op hu (.mono (s.transfer_frame _) rfl) rfl) rfl) rfl) rfl) rfl

theorem State.commitRejectAt_frame (s : State) (layer reason : Nat) :
    Frame [⟨0, A.RAS_CTRL⟩] [.lnk, .flt] s (s.commitRejectAt layer reason) :=
  .raiseI (.irq (.inc (.put (.put (.put (.put .refl rfl) rfl) rfl) rfl) rfl) rfl) rfl

theorem State.commitHold_frame (s : State) : Frame [⟨0, A.RAS_CTRL⟩] [.lnk] s s.commitHold :=
  .setReg (.irq (.inc (.put .refl rfl) rfl) rfl) rfl

theorem State.commitResolve_frame (s : State) : Frame commitSpans commitParts s s.commitResolve := by
  unfold State.commitResolve
  refine .op (State.scalerNeeds_frame _) (.ite (.mono s.staleCount_frame rfl) ?_) rfl
  split
  · exact .op (State.staleCount_frame _) (.mono (s.commitRejectAt_frame _ _) rfl) rfl
  · exact .ite (.op (State.staleCount_frame _) (.mono s.commitHold_frame rfl) rfl) s.commitTake_frame

/-- A commit that no check and no layer stands against is taken. -/
theorem State.commitResolve_taken {s : State} (hs : s.Wf) (h : s.get F.GLB_COMMIT_STATUS_STATE ≠ 0) (hc : s.configFail = none)
    (hh : s.noneHolds) : Taken s s.commitResolve := by
  rw [State.commitResolve_take h hc hh]
  exact (State.commitTake_taken hs).frame (s.commitTake_frame.wf hs) (State.scalerNeeds_frame _) rfl rfl

theorem State.commitResolve_none {s : State} (h : s.get F.GLB_COMMIT_STATUS_STATE = 0) :
    s.commitResolve = s.staleCount.scalerNeeds := by
  unfold State.commitResolve
  rw [if_pos h]

theorem State.commitResolve_reject {s : State} {layer reason : Nat} (h : s.get F.GLB_COMMIT_STATUS_STATE ≠ 0)
    (hc : s.configFail = some (layer, reason)) :
    s.commitResolve = (s.commitRejectAt layer reason).staleCount.scalerNeeds := by
  unfold State.commitResolve
  rw [if_neg h, hc]

/-! ### The rest of the instant -/

/-- The registers that the signature latch may touch. -/
def signatureSpans : List Span := irqSpans ++ ⟨A.HLT_SIG_OUT_FLAGS, A.HLT_Rn_CTRL 0⟩ :: regionSpans

theorem State.sigRun_frame (s : State) (n : Nat) (rb : Bool) : Frame [] [.hlt] s (s.sigRun n rb) := .hlt .refl rfl

theorem State.sigVerdict_frame (s : State) {n : Nat} (hn : n < 32) (rb fail : Bool) :
    Frame signatureSpans [.hlt, .lnk] s (s.sigVerdict n rb fail) := by
  unfold State.sigVerdict
  extract_lets s1 old k _ s2 a s3
  have h1 : Frame signatureSpans [.hlt, .lnk] s s1 :=
    .ite (.putB .refl (by interval_cases n <;> rfl)) (.putB .refl (by interval_cases n <;> rfl))
  have h2 : Frame signatureSpans [.hlt, .lnk] s s2 := .ite (.hlt h1 rfl) (.hlt h1 rfl)
  have h3 : Frame signatureSpans [.hlt, .lnk] s s3 := .irq (.setReg h2 (by cases rb <;> rfl)) rfl
  exact .ite (.ite (.hlt h3 rfl) h3) h2

theorem State.sigOut_frame (s : State) {n : Nat} (hn : n < 32) : Frame signatureSpans [.hlt, .lnk] s (s.sigOut n) := by
  unfold State.sigOut
  refine .ite ?_ (.mono (s.sigRun_frame _ _) rfl)
  extract_lets v s1
  have h1 : Frame signatureSpans [.hlt, .lnk] s s1 := .setReg .refl (by interval_cases n <;> rfl)
  exact .ite (h1.trans (s1.sigVerdict_frame hn _ _)) (.op (s1.sigRun_frame _ _) h1 rfl)

theorem State.sigRb_frame (s : State) {n : Nat} (hn : n < 32) : Frame signatureSpans [.hlt, .lnk] s (s.sigRb n) := by
  unfold State.sigRb
  refine .ite ?_ (.mono (s.sigRun_frame _ _) rfl)
  extract_lets v s1
  have h1 : Frame signatureSpans [.hlt, .lnk] s s1 := .setReg .refl (by interval_cases n <;> rfl)
  have h2 (v : Nat) : Frame signatureSpans [.hlt, .lnk] s (s1.put (F.HLT_Rn_STATUS_INCOMPLETE n) v) :=
    .put h1 (by interval_cases n <;> rfl)
  exact .ite (.op (State.sigRun_frame _ _ _) (h2 1) rfl) ((h2 0).trans (State.sigVerdict_frame _ hn _ _))

theorem State.signatureLatch_frame (s : State) : Frame signatureSpans [.hlt, .lnk] s s.signatureLatch := by
  unfold State.signatureLatch
  extract_lets s1 s2
  have h1 : Frame signatureSpans [.hlt, .lnk] s s1 := .forUpto s fun n s hn =>
    .ite ((s.sigOut_frame hn).trans (State.sigRb_frame _ hn))
      (.op (State.sigRun_frame _ _ _) (.mono (s.sigRun_frame _ _) rfl) rfl)
  have h2 : Frame signatureSpans [.hlt, .lnk] s s2 := .ite h1 (.setReg h1 rfl)
  exact .hlt h2 rfl

theorem State.dacApply_frame (s : State) : Frame [.reg A.ARY_STATUS] [.flt] s s.dacApply :=
  .ite (.raise (.putB (.put .refl rfl) rfl) rfl) (.putB (.put .refl rfl) rfl)

theorem State.cfgRequest_frame (s : State) (on : Bool) : Frame islandSpans islandParts s (s.cfgRequest on) :=
  .ite (.putB .refl rfl) (.op (State.safRefresh_frame _) (.putB .refl rfl) rfl)

theorem State.rsResult_frame (s : State) (result reason : Nat) : Frame [.reg A.CFG_RS_STATUS] [] s (s.rsResult result reason) :=
  .ite (.put (.put .refl rfl) rfl) (.put .refl rfl)

theorem State.rsEnd_frame (s : State) (result reason : Nat) :
    Frame (.reg A.CFG_RS_STATUS :: islandSpans) (.cfg :: islandParts) s (s.rsEnd result reason) :=
  .op (State.cfgRequest_frame _ _) (.cfg (.op (State.rsResult_frame _ _ _) (.put .refl rfl) rfl) rfl rfl) rfl

/-- The registers that the instant of a restructure may touch. -/
def rsSpans : List Span := [.reg A.CFG_RS_STATUS, ⟨A.PWR_JOBn_CMD 0, A.PWR_JOBn_CMD 4⟩] ++ islandSpans

theorem State.rsInstant_frame (s : State) (taken : Bool) : Frame rsSpans (.cfg :: islandParts) s (s.rsInstant taken) :=
  .ite .refl (.ite (.cfg .refl rfl rfl) (.ite (.op (State.jobEndOf_frame _ _ _) (.mono (s.rsEnd_frame _ _) rfl) rfl) .refl))

theorem State.budgetHandover_frame (s : State) : Frame [.reg A.LUM_BUDGET_STATUS] [] s s.budgetHandover :=
  .ite (.put .refl rfl) (.ite (.put .refl rfl) .refl)

theorem State.setCredit_frame (s : State) (b : Nat) : Frame [.reg A.LUM_STATE] [.lum] s (s.setCredit b) := .lum (.put .refl rfl) rfl

theorem State.boostUpdate_frame (s : State) : Frame [.reg A.LUM_STATE] [.lum, .flt] s s.boostUpdate :=
  .ite (.raise (.putB (.mono (s.setCredit_frame _) rfl) rfl) rfl) (.putB (.mono (s.setCredit_frame _) rfl) rfl)

theorem State.lumBlank_frame (s : State) : Frame [.reg A.LUM_BUDGET_STATUS, .reg A.LUM_STATE] [.lum, .flt] s s.lumBlank :=
  .lum (.op (State.boostUpdate_frame _) (.mono s.budgetHandover_frame rfl) rfl) rfl

theorem State.crestInstant_frame (s : State) : Frame [] [.lpe] s s.crestInstant := .ite (.lpe .refl rfl) .refl

theorem State.ringMark_frame (s : State) : Frame [] [.cvn] s s.ringMark := .ite (.cvn .refl rfl) .refl

theorem State.epochSend_frame (s : State) : Frame [.reg A.CVN_STATUS, .reg A.CVN_EPOCH] [.cvn] s s.epochSend :=
  .ite (.op (State.ringMark_frame _) (.cvn (.putB (.put .refl rfl) rfl) rfl) rfl) .refl

theorem State.windowMissed_frame (s : State) : Frame [⟨A.RAS_STATUS, A.LMC_CTRL⟩] [.ras] s s.windowMissed := .ras (.inc .refl rfl) rfl

theorem State.windowHit_frame (s : State) (e : Int) : Frame [⟨A.RAS_STATUS, A.LMC_CTRL⟩] [.ras] s (s.windowHit e) :=
  .ras (.ite (.put (.put .refl rfl) rfl) (.ite (.put (.put .refl rfl) rfl) (.put .refl rfl))) rfl

theorem State.followDecision_frame (s : State) (hold : Bool) : Frame [⟨A.RAS_STATUS, A.LMC_CTRL⟩] [.ras] s (s.followDecision hold) := by
  unfold State.followDecision
  extract_lets vb follow _ s0
  have h0 : Frame [⟨A.RAS_STATUS, A.LMC_CTRL⟩] [.ras] s s0 := .ras .refl rfl
  refine .ite (.put h0 rfl) (.ite (.put (.put h0 rfl) rfl) ?_)
  split
  · exact .put (.put (.op (State.windowMissed_frame _) h0 rfl) rfl) rfl
  · exact .put (.put (.op (State.windowHit_frame _ _) h0 rfl) rfl) rfl

/-- The parts that the instant may touch beside the raster's. -/
def instantParts : List Part := [.msk, .cmp, .hlt, .cfg, .lum] ++ islandParts

/-- What follows the resolution at the instant. -/
def State.afterResolve (s : State) (taken : Bool) : State := (if taken then s.dacApply else s).rsInstant taken

theorem State.afterResolve_frame (s : State) (taken : Bool) :
    Frame (.reg A.ARY_STATUS :: rsSpans) (.cfg :: islandParts) s (s.afterResolve taken) :=
  .op (State.rsInstant_frame _ _) (.ite (.mono s.dacApply_frame rfl) .refl) rfl

theorem State.commitInstant_eq (s : State) :
    s.commitInstant = if s.resyncHold then s.signatureLatch
      else s.signatureLatch.commitResolve.afterResolve (s.signatureLatch.commitResolve.takenSince s.signatureLatch) := rfl

theorem State.commitInstant_frame (s : State) : Frame commitSpans instantParts s s.commitInstant := by
  rw [State.commitInstant_eq]
  have h1 : Frame commitSpans instantParts s s.signatureLatch := .mono s.signatureLatch_frame rfl
  exact .ite h1 (.op (State.afterResolve_frame _ _) (.op (State.commitResolve_frame _) h1 rfl) rfl)

/-- The start of blanking once the commit instant is over, up to the decision on the frame's length. -/
def State.instantOver (s : State) : State := s.commitInstant.lumBlank.crestInstant

theorem State.instantOver_frame (s : State) : Frame commitSpans instantParts s s.instantOver :=
  .op (State.crestInstant_frame _) (.op (State.lumBlank_frame _) s.commitInstant_frame rfl) rfl

/-- The start of blanking from the decision on the frame's length on. -/
def State.blankDecided (s : State) : State :=
  let hold := s.holdDue
  let s3 := s.followDecision hold
  let s4 := if hold then s3.put F.RAS_STATUS_RUN RasRun.hold else s3
  let s5 := { s4 with
    ras := { s4.ras with blankServed := true }
    cvn := { s4.cvn with gotEpoch := false, missServed := false } }
  s5.epochSend.irq Irq.startOfBlank

theorem State.blankDecided_frame (s : State) :
    Frame (irqSpans ++ [⟨A.RAS_STATUS, A.LMC_CTRL⟩, .reg A.CVN_STATUS, .reg A.CVN_EPOCH]) [.ras, .cvn, .lnk] s s.blankDecided := by
  unfold State.blankDecided
  extract_lets hold s3 s4 _ _ s5
  have h3 : Frame (irqSpans ++ [⟨A.RAS_STATUS, A.LMC_CTRL⟩, .reg A.CVN_STATUS, .reg A.CVN_EPOCH]) [.ras, .cvn, .lnk] s s3 :=
    .mono (s.followDecision_frame hold) rfl
  have h4 : Frame (irqSpans ++ [⟨A.RAS_STATUS, A.LMC_CTRL⟩, .reg A.CVN_STATUS, .reg A.CVN_EPOCH]) [.ras, .cvn, .lnk] s s4 :=
    .ite (.put h3 rfl) h3
  have h5 : Frame (irqSpans ++ [⟨A.RAS_STATUS, A.LMC_CTRL⟩, .reg A.CVN_STATUS, .reg A.CVN_EPOCH]) [.ras, .cvn, .lnk] s s5 :=
    .upd h4 rfl id
  exact .irq (.op (State.epochSend_frame _) h5 rfl) rfl

theorem execStartOfBlank_due {s : State} (hb : s.blankDue = true) (hr : s.rsDue = false) :
    exec .startOfBlank s = .next s.instantOver.blankDecided := by
  refine congrArg Host.Outcome.next ((if_pos hb).trans ?_)
  unfold State.startOfBlank
  rw [if_neg (by simp [hr])]
  rfl

theorem State.windowHit_place (s : State) (e : Int) :
    (s.windowHit e).ras.frame = s.ras.frame ∧ (s.windowHit e).ras.line = s.ras.line := by
  unfold State.windowHit
  extract_lets inside nIn nOut s1 s2
  have h2 : s2.ras = s.ras := by
    unfold s2
    split
    · rfl
    · split <;> rfl
  exact ⟨(congrArg Ras.frame h2 :), (congrArg Ras.line h2 :)⟩

/-- The decision leaves where the raster stands. -/
theorem State.followDecision_place (s : State) (hold : Bool) :
    (s.followDecision hold).ras.frame = s.ras.frame ∧ (s.followDecision hold).ras.line = s.ras.line := by
  unfold State.followDecision
  extract_lets vb follow _ s0
  split
  · exact ⟨rfl, rfl⟩
  split
  · exact ⟨rfl, rfl⟩
  split
  · exact ⟨rfl, rfl⟩
  · exact s0.windowHit_place _

/-- The blanking that is decided on is that of the frame, or differs from it by one line where the cadence is followed. -/
theorem State.followDecision_curVb {s : State} (hs : s.Wf) (hold : Bool) :
    ∃ d : Int, -1 ≤ d ∧ d ≤ 1 ∧ (s.get F.RAS_ACT_MODE_MODE = 0 → d = 0) ∧
      (s.followDecision hold).get F.RAS_STATUS_CUR_VB = ((s.get F.RAS_ACT_TIMING_VB : Int) + d).toNat % 1024 := by
  unfold State.followDecision
  extract_lets vb follow _ s0
  have hput {t : State} (ht : t.Wf) (v : Nat) : (t.put F.RAS_STATUS_CUR_VB v).get F.RAS_STATUS_CUR_VB = v % 1024 :=
    State.get_put_self ht (by decide)
  have hw0 : s0.Wf := hs
  have hvb : ((vb : Int) + 0).toNat = vb := by omega
  split
  · exact ⟨0, by omega, by omega, fun _ => rfl, by rw [hput hw0, ← hvb]⟩
  · split
    · exact ⟨0, by omega, by omega, fun _ => rfl, by rw [hput (State.put_wf hw0), ← hvb]⟩
    · split
      · refine ⟨0, by omega, by omega, fun _ => rfl, ?_⟩
        rw [hput (State.put_wf (s0.windowMissed_frame.wf hw0)), ← hvb]
      next hf _ _ l v _ =>
        refine ⟨_, ?_, ?_, fun h => ?_, hput (State.put_wf ((s0.windowHit_frame _).wf hw0)) _⟩
        · split_ifs <;> omega
        · split_ifs <;> omega
        · exact absurd hf (by simp [follow, h, RasMode.follow])

/-- Where the frame's blanking is known, the place of the raster and the event after the decision. -/
theorem State.blankDecided_effect {s : State} (hs : s.Wf) :
    s.blankDecided.ras.blankServed = true ∧ s.blankDecided.ras.frame = s.ras.frame ∧ s.blankDecided.ras.line = s.ras.line ∧
      (s.blankDecided.reg A.GLB_IRQ_STATUS).getLsbD 0 = true ∧
      s.blankDecided.get F.RAS_STATUS_CUR_VB = (s.followDecision s.holdDue).get F.RAS_STATUS_CUR_VB := by
  unfold State.blankDecided
  extract_lets hold s3 s4 _ _ s5
  have hw3 : s3.Wf := (s.followDecision_frame hold).wf hs
  have h4 : s4.Wf ∧ s4.ras = s3.ras ∧ s4.get F.RAS_STATUS_CUR_VB = s3.get F.RAS_STATUS_CUR_VB := by
    unfold s4
    split
    · exact ⟨State.put_wf hw3, rfl, State.get_put_ne hw3 (by decide) (by decide)⟩
    · exact ⟨hw3, rfl, rfl⟩
  obtain ⟨hw4, hras4, hvb4⟩ := h4
  have hw5 : s5.Wf := hw4
  have hf : Frame (irqSpans ++ [.reg A.CVN_STATUS, .reg A.CVN_EPOCH]) [.cvn, .lnk] s5 (s5.epochSend.irq Irq.startOfBlank) :=
    .irq (.mono s5.epochSend_frame rfl) rfl
  have hras : (s5.epochSend.irq Irq.startOfBlank).ras = s5.ras := hf.part .ras rfl
  obtain ⟨hframe, hline⟩ := s.followDecision_place hold
  refine ⟨congrArg Ras.blankServed hras, ?_, ?_, Frame.irq_event (s5.epochSend_frame.wf hw5) (by decide), (hf.get rfl).trans hvb4⟩
  · exact (congrArg Ras.frame hras).trans ((congrArg Ras.frame hras4).trans hframe)
  · exact (congrArg Ras.line hras).trans ((congrArg Ras.line hras4).trans hline)

end Sys2Proof.Machine
end

section
/-!
The signature latch comes before the commit is resolved, and leaves alone what the resolution goes by (R125, R224); with it the
statement about the commit instant.
-/

namespace Sys2Proof.Machine

/-! ### What the resolution of a commit goes by -/

/-- A register that may tell of layers and scalers: none of GLB's events, none of a scaler's STATUS, and none from HLT on. -/
def tellsLayers (a : Nat) : Bool := Nat.ble A.GLB_COMMIT a && Nat.blt a A.HLT_SENSE_CFG && !covers scalerStatusSpans a

/-- Both states show the same layers and scalers. -/
structure SameLayers (s t : State) : Prop where
  shadow : t.shadow = s.shadow
  cmp : t.cmp = s.cmp
  lmc : t.lmc = s.lmc
  get : ∀ f : Field, tellsLayers f.addr = true → t.get f = s.get f

/-- No span reaches between the two addresses. -/
theorem covers_between {L : List Span} {lo hi a : Nat}
    (h : (L.all fun r => (Nat.blt 0 r.hi && Nat.ble r.hi lo) || Nat.ble hi r.lo) = true) (h1 : lo ≤ a) (h2 : a < hi) :
    covers L a = false := by
  by_contra hc
  simp only [Bool.not_eq_false, covers, List.any_eq_true] at hc
  obtain ⟨r, hr, hra⟩ := hc
  have := List.all_eq_true.1 h r hr
  simp only [Bool.and_eq_true, Bool.or_eq_true, Nat.ble_eq, Nat.blt_eq, Nat.beq_eq] at this hra
  omega

theorem State.signatureLatch_layers (s : State) : SameLayers s s.signatureLatch :=
  have h := s.signatureLatch_frame
  ⟨h.part .shadow rfl, h.part .cmp rfl, h.part .lmc rfl, fun f hf => by
    simp only [tellsLayers, Bool.and_eq_true, Nat.ble_eq, Nat.blt_eq] at hf
    exact h.get (covers_between rfl hf.1.1 hf.1.2)⟩

theorem any_range_congr {n : Nat} {p q : Nat → Bool} (h : ∀ i, i < n → p i = q i) : (List.range n).any p = (List.range n).any q := by
  rw [Bool.eq_iff_iff]
  simp only [List.any_eq_true, List.mem_range]
  exact exists_congr fun i => and_congr_right fun hi => by rw [h i hi]

namespace SameLayers

variable {s t : State}

theorem shReg (h : SameLayers s t) (a : Nat) : t.shReg a = s.shReg a := congrArg (sparseGet regReset · a) h.shadow

theorem getSh (h : SameLayers s t) (f : Field) : t.getSh f = s.getSh f := by
  unfold State.getSh
  rw [h.shReg]

theorem layerType (h : SameLayers s t) (i : Nat) : t.layerType i = s.layerType i := by
  unfold State.layerType
  rw [h.get _ rfl]

theorem getSet (h : SameLayers s t) (sh : Bool) {f : Field} (hf : tellsLayers f.addr = true) :
    t.getSet sh f = s.getSet sh f := by
  unfold State.getSet
  rw [h.getSh, h.get f hf]

theorem layerCfg (h : SameLayers s t) (sh : Bool) {i : Nat} (hi : i < 16) : t.layerCfg sh i = s.layerCfg sh i := by
  unfold State.layerCfg
  rw [h.layerType, h.get _ rfl]
  interval_cases i <;> simp (disch := decide) only [h.getSet]

theorem layerCfg_shadow (h : SameLayers s t) (i : Nat) : t.layerCfg true i = s.layerCfg true i := by
  unfold State.layerCfg State.getSet
  simp only [h.layerType, h.get F.CMP_LAYER_CLASS_SYMBOL rfl, h.getSh, if_true]

theorem scalerCfg (h : SameLayers s t) (sh : Bool) {n : Nat} (hn : n < 4) : t.scalerCfg sh n = s.scalerCfg sh n := by
  unfold State.scalerCfg
  interval_cases n <;> simp (disch := decide) only [h.getSet, h.get]

/-- The scalers that serve a layer of the shadow set are the same. -/
theorem scalersNaming (h : SameLayers s t) (i : Nat) : t.scalersNaming i = s.scalersNaming i :=
  List.filter_congr fun n hn => by rw [h.scalerCfg true (List.mem_range.1 hn)]

theorem srcSize (h : SameLayers s t) (i : Nat) (c : LayerCfg) : t.srcSize i c = s.srcSize i c := by
  have hof : t.scalerOf true i = s.scalerOf true i := by
    unfold State.scalerOf
    rw [h.layerType]
    split
    · exact List.find?_congr fun n hn => by rw [h.scalerCfg true (List.mem_range.1 hn)]
    · rfl
  unfold State.srcSize
  rw [hof]
  split
  next n hn =>
    have hn4 : n < 4 := by
      unfold State.scalerOf at hn
      split at hn
      · exact List.mem_range.1 (List.mem_of_find?_eq_some hn)
      · cases hn
    rw [h.scalerCfg true hn4]
  · rfl

theorem lt_of_scalersNaming {i n : Nat} (h : s.scalersNaming i = [n]) : n < 4 := by
  have : n ∈ s.scalersNaming i := by rw [h]; exact List.mem_singleton.2 rfl
  exact List.mem_range.1 (List.mem_filter.1 this).1

theorem scalerConfigOk (h : SameLayers s t) (i : Nat) : t.scalerConfigOk i = s.scalerConfigOk i := by
  unfold State.scalerConfigOk
  rw [h.scalersNaming]
  split
  · rfl
  next n hn => rw [h.scalerCfg true (lt_of_scalersNaming hn), h.layerType]
  · rfl

theorem lineBufferOk (h : SameLayers s t) (i : Nat) : t.lineBufferOk i = s.lineBufferOk i := by
  unfold State.lineBufferOk
  rw [h.scalersNaming]
  split
  next n hn => rw [h.scalerCfg true (lt_of_scalersNaming hn), h.layerCfg_shadow]
  · rfl

theorem layerCheck (h : SameLayers s t) (i : Nat) : t.layerCheck i = s.layerCheck i := by
  unfold State.layerCheck State.layerConfigOk
  simp only [h.layerCfg_shadow, h.srcSize, h.scalerConfigOk, h.lineBufferOk]

theorem configFail (h : SameLayers s t) : t.configFail = s.configFail := by
  unfold State.configFail
  simp only [h.layerCheck]

theorem layerSealed (h : SameLayers s t) (i : Nat) : t.layerSealed i = s.layerSealed i := by
  unfold State.layerSealed State.dirEntry
  rw [h.layerCfg_shadow, h.lmc]

theorem selfReady (h : SameLayers s t) (i : Nat) : t.selfReady i = s.selfReady i := by
  unfold State.selfReady
  rw [h.layerCfg_shadow, h.layerSealed, h.cmp]

theorem notReady (h : SameLayers s t) (i : Nat) : t.notReady i = s.notReady i := by
  unfold State.notReady State.layerReady
  simp only [h.layerCfg_shadow, h.selfReady, h.get F.GLB_SYNC_GROUP_GROUP rfl]

theorem holdMode (h : SameLayers s t) (i : Nat) : t.holdMode i = s.holdMode i := by
  unfold State.holdMode
  rw [h.get _ rfl]

theorem noneHolds (h : SameLayers s t) (hh : s.noneHolds) : t.noneHolds := fun i hi => by
  rw [h.notReady, h.holdMode]
  exact hh i hi

/-- A scaler of the active set names one of the first four layers. -/
theorem scalerCfg_layer_lt (s : State) (n : Nat) : (s.scalerCfg false n).layer < 4 := s.get_lt _

theorem scalerRuns (h : SameLayers s t) {n : Nat} (hn : n < 4) : t.scalerRuns n = s.scalerRuns n := by
  have hl : (s.scalerCfg false n).layer < 16 := Nat.lt_of_lt_of_le (scalerCfg_layer_lt s n) (by decide)
  unfold State.scalerRuns State.layerLive
  simp only [h.scalerCfg false hn, h.layerType, h.layerCfg false hl, h.cmp]

theorem scalerHeld (h : SameLayers s t) {n : Nat} (hn : n < 4) : t.scalerHeld n = s.scalerHeld n := by
  unfold State.scalerHeld
  simp only [h.scalerCfg _ hn, h.scalerRuns hn, h.notReady]

/-- The registers that are held back are the same. -/
theorem heldAddr (h : SameLayers s t) (a : Nat) : t.heldAddr a = s.heldAddr a := by
  unfold State.heldAddr
  simp only [h.notReady]
  exact congrArg (_ || ·) (any_range_congr fun n hn => by rw [h.scalerHeld hn])

end SameLayers

/-! ### The statement -/

/-- A commit that is taken, of a state that shows the same layers. -/
theorem Taken.of_layers {s t u : State} (h : SameLayers s t) (ht : Taken t u) : Taken s u := by
  refine ⟨fun a ha hh => ?_, ht.idle, ht.last, ht.event, ht.shadow.trans h.shadow⟩
  rw [ht.transferred a ha (by rw [h.heldAddr, hh]), h.shReg]

/-- The instant takes a commit that no check and no layer stands against. -/
theorem State.instantOver_taken {s : State} (hs : s.Wf) (hr : s.resyncHold = false) (h : s.get F.GLB_COMMIT_STATUS_STATE ≠ 0)
    (hc : s.configFail = none) (hh : s.noneHolds) : s.instantOver.Wf ∧ Taken s s.instantOver := by
  have hl := s.signatureLatch_layers
  have hw := s.signatureLatch_frame.wf hs
  have ht : Taken s s.signatureLatch.commitResolve := (State.commitResolve_taken hw
    (by rwa [hl.get _ rfl]) (hl.configFail.trans hc) (hl.noneHolds hh)).of_layers hl
  have hwr := (State.commitResolve_frame _).wf hw
  have he : s.commitInstant =
      s.signatureLatch.commitResolve.afterResolve (s.signatureLatch.commitResolve.takenSince s.signatureLatch) := by
    rw [State.commitInstant_eq, if_neg (by simp [hr])]
  have hf : Frame ([.reg A.ARY_STATUS, .reg A.LUM_BUDGET_STATUS, .reg A.LUM_STATE] ++ rsSpans) (.lum :: .cfg :: islandParts)
      s.signatureLatch.commitResolve s.instantOver := by
    refine .op (State.crestInstant_frame _) (.op (State.lumBlank_frame _) ?_ rfl) rfl
    rw [he]
    exact .mono (State.afterResolve_frame _ _) rfl
  exact ⟨hf.wf hwr, ht.frame hwr hf rfl rfl⟩

/-- The result of a rejected commit. -/
theorem State.commitRejectAt_effect {s : State} (hs : s.Wf) {layer reason : Nat} (hl : layer < 16) (hr : reason < 16) :
    (s.commitRejectAt layer reason).get F.GLB_COMMIT_STATUS_STATE = 0 ∧
      (s.commitRejectAt layer reason).get F.GLB_COMMIT_STATUS_LAST = 2 ∧
      (s.commitRejectAt layer reason).get F.GLB_COMMIT_STATUS_LAYER = layer ∧
      (s.commitRejectAt layer reason).get F.GLB_COMMIT_STATUS_REASON = reason := by
  have h1 := State.put_wf (f := F.GLB_COMMIT_STATUS_STATE) (v := 0) hs
  have h2 := State.put_wf (f := F.GLB_COMMIT_STATUS_LAST) (v := 2) h1
  have h3 := State.put_wf (f := F.GLB_COMMIT_STATUS_REASON) (v := reason) h2
  have hf : Frame (.reg A.GLB_COMMIT_CNT :: irqSpans) [.lnk, .flt] ((((s.put F.GLB_COMMIT_STATUS_STATE 0).put
      F.GLB_COMMIT_STATUS_LAST 2).put F.GLB_COMMIT_STATUS_REASON reason).put F.GLB_COMMIT_STATUS_LAYER layer)
      (s.commitRejectAt layer reason) := .raiseI (.irq (.inc .refl rfl) rfl) rfl
  refine ⟨(hf.get rfl).trans ?_, (hf.get rfl).trans ?_, (hf.get rfl).trans ?_, (hf.get rfl).trans ?_⟩
  · rw [State.get_put_ne h3 (by decide) (by decide), State.get_put_ne h2 (by decide) (by decide),
      State.get_put_ne h1 (by decide) (by decide), State.get_put_self hs (by decide)]
    decide
  · rw [State.get_put_ne h3 (by decide) (by decide), State.get_put_ne h2 (by decide) (by decide),
      State.get_put_self h1 (by decide)]
    decide
  · rw [State.get_put_self h3 (by decide)]
    exact Nat.mod_eq_of_lt hl
  · rw [State.get_put_ne h3 (by decide) (by decide), State.get_put_self h2 (by decide)]
    exact Nat.mod_eq_of_lt hr

/-- The layer and the reason of a check that fails. -/
theorem State.configFail_lt {s : State} {layer reason : Nat} (h : s.configFail = some (layer, reason)) : layer < 16 ∧ reason < 16 := by
  obtain ⟨i, hi, he⟩ := Option.map_eq_some_iff.1 h
  obtain ⟨rfl, rfl⟩ := Prod.mk.inj he
  have hlt := List.mem_range.1 (List.mem_of_find?_eq_some hi)
  refine ⟨by omega, ?_⟩
  unfold State.layerCheck
  split_ifs <;> decide

/-! ### The need of the scalers (R141) -/

/-- NEED of one scaler. -/
def needStep (n : Nat) (s : State) : State :=
  let c := s.scalerCfg true n
  if !c.present then s
  else if c.en && (s.layerCfg true c.layer).visible then
    s.put (F.SCL_SCn_STATUS_NEED n) (min 255 (scalerNeed c.vTaps c.vStep (s.layerCfg true c.layer).w))
  else s.put (F.SCL_SCn_STATUS_NEED n) 0

theorem needStep_frame (s : State) {n : Nat} (hn : n < 4) : Frame [.reg (A.SCL_SCn_STATUS n)] [] s (needStep n s) := by
  have hput (v : Nat) : Frame [.reg (A.SCL_SCn_STATUS n)] [] s (s.put (F.SCL_SCn_STATUS_NEED n) v) :=
    .put .refl (by interval_cases n <;> rfl)
  exact .ite .refl (.ite (hput _) (hput _))

/-- A field beside NEED of the scaler keeps its value. -/
theorem needStep_get {s : State} (hs : s.Wf) (n : Nat) {g : Field} (hg : g.addr ≠ A.SCL_SCn_STATUS n ∨ 7 < g.lo) :
    (needStep n s).get g = s.get g := by
  have hput (v : Nat) : (s.put (F.SCL_SCn_STATUS_NEED n) v).get g = s.get g :=
    State.get_put_ne hs ⟨show 7 < 32 by decide, Nat.zero_le _⟩ (hg.imp id .inr)
  unfold needStep
  extract_lets c
  split
  · rfl
  · split
    · exact hput _
    · exact hput _

theorem SameLayers.trans {s t u : State} (h : SameLayers s t) (h' : SameLayers t u) : SameLayers s u :=
  ⟨h'.shadow.trans h.shadow, h'.cmp.trans h.cmp, h'.lmc.trans h.lmc, fun f hf => (h'.get f hf).trans (h.get f hf)⟩

theorem needStep_layers (s : State) {n : Nat} (hn : n < 4) : SameLayers s (needStep n s) := by
  have h := needStep_frame s hn
  refine ⟨h.part .shadow rfl, h.part .cmp rfl, h.part .lmc rfl, fun f hf => h.get ?_⟩
  simp only [tellsLayers, Bool.and_eq_true, Bool.not_eq_true'] at hf
  by_contra hc
  have := covers_of_within (L := [.reg (A.SCL_SCn_STATUS n)]) (M := scalerStatusSpans) (by interval_cases n <;> rfl) (by simpa using hc)
  rw [hf.2] at this
  cases this

/-- The scaler is provided and enabled, and its layer has a window. -/
def State.scalerWanted (s : State) (n : Nat) : Prop :=
  (s.scalerCfg true n).present = true ∧ (s.scalerCfg true n).en = true ∧ (s.layerCfg true (s.scalerCfg true n).layer).visible = true

/-- What NEED of a wanted scaler shows. -/
def State.needOf (s : State) (n : Nat) : Nat :=
  min 255 (scalerNeed (s.scalerCfg true n).vTaps (s.scalerCfg true n).vStep (s.layerCfg true (s.scalerCfg true n).layer).w)

/-- Up to scaler `k`: the needs shown, and what stays. -/
structure Needs (k : Nat) (s t : State) : Prop where
  wf : t.Wf
  layers : SameLayers s t
  need : ∀ n, n < k → s.scalerWanted n → t.get (F.SCL_SCn_STATUS_NEED n) = s.needOf n
  kept : ∀ n, n < 4 → t.get (F.SCL_SCn_STATUS_EFF_TAPS n) = s.get (F.SCL_SCn_STATUS_EFF_TAPS n) ∧
    t.get (F.SCL_SCn_STATUS_DEGRADED n) = s.get (F.SCL_SCn_STATUS_DEGRADED n)

theorem needStep_need {s : State} (hs : s.Wf) {n : Nat} (h : s.scalerWanted n) :
    (needStep n s).get (F.SCL_SCn_STATUS_NEED n) = s.needOf n := by
  obtain ⟨hp, he, hv⟩ := h
  have hstep : needStep n s = s.put (F.SCL_SCn_STATUS_NEED n) (s.needOf n) := by
    unfold needStep
    simp only [hp, he, hv]
    rfl
  rw [hstep, State.get_put_self hs ⟨show 7 < 32 by decide, Nat.zero_le _⟩]
  exact Nat.mod_eq_of_lt (Nat.lt_of_le_of_lt (Nat.min_le_left _ _) (show 255 < 2 ^ 8 by decide))

theorem SameLayers.needOf {s t : State} (h : SameLayers s t) {n : Nat} (hn : n < 4) :
    t.needOf n = s.needOf n ∧ (s.scalerWanted n → t.scalerWanted n) := by
  unfold State.needOf State.scalerWanted
  rw [h.scalerCfg true hn, h.layerCfg_shadow]
  exact ⟨rfl, id⟩

theorem Needs.step {s t : State} {k : Nat} (h : Needs k s t) (hk : k < 4) : Needs (k + 1) s (needStep k t) := by
  refine ⟨(needStep_frame t hk).wf h.wf, h.layers.trans (needStep_layers t hk), fun n hn hw => ?_, fun n hn => ⟨?_, ?_⟩⟩
  · by_cases hnk : n = k
    · subst hnk
      obtain ⟨hneed, hwant⟩ := h.layers.needOf hk
      rw [needStep_need h.wf (hwant hw), hneed]
    · have hlt : n < k := by omega
      rw [needStep_get h.wf k (.inl (by simp only [A.SCL_SCn_STATUS, F.SCL_SCn_STATUS_NEED]; omega)), h.need n hlt hw]
  · rw [needStep_get h.wf k (.inr (show 7 < 16 by decide)), (h.kept n hn).1]
  · rw [needStep_get h.wf k (.inr (show 7 < 31 by decide)), (h.kept n hn).2]

theorem needs_forUpto {s : State} (hs : s.Wf) : ∀ k, k ≤ 4 → Needs k s (forUpto k needStep s)
  | 0, _ => ⟨hs, ⟨rfl, rfl, rfl, fun _ _ => rfl⟩, nofun, fun _ _ => ⟨rfl, rfl⟩⟩
  | k + 1, hk => (needs_forUpto hs k (by omega)).step (by omega)

/-- What the count of STALE leaves: all that the needs are computed from. -/
theorem State.staleCount_need (s : State) (n : Nat) :
    s.staleCount.needOf n = s.needOf n ∧ (s.scalerWanted n → s.staleCount.scalerWanted n) := by
  unfold State.staleCount
  extract_lets st k
  split
  · exact ⟨rfl, id⟩
  · split
    · exact ⟨rfl, id⟩
    · exact ⟨rfl, id⟩

/-- Settles O23: the transfer, then the frames of what the instant does besides; the signature latch before it shows the
same layers. -/
theorem commitInstantTransfersShadows : Obligations.CommitInstantTransfersShadows := by
  refine ⟨fun s hs hb hr => ?_, fun s hs hb hr hn h hc hh => ?_, fun s hs h hc hh => ?_, fun s hs h => ?_,
    fun s layer reason hs h hc => ?_, fun s hold hs h1 h2 => ?_⟩
  · have hi := s.instantOver_frame
    have hd := s.instantOver.blankDecided_frame
    have hras : s.instantOver.ras = s.ras := hi.part .ras rfl
    obtain ⟨hserved, hframe, hline, hev, hvb⟩ := State.blankDecided_effect (hi.wf hs)
    refine ⟨_, execStartOfBlank_due hb hr, hserved, hframe.trans (by rw [hras]), hline.trans ?_, hev,
      (hi.sameMemory rfl).trans (hd.sameMemory rfl), fun hm => ?_⟩
    · rw [hras]
      simp only [State.blankDue, Bool.and_eq_true, beq_iff_eq] at hb
      exact hb.1.2
    · obtain ⟨d, -, -, hd0, hcur⟩ := State.followDecision_curVb (hi.wf hs) s.instantOver.holdDue
      rw [hvb, hcur, hd0 ((hi.get rfl).trans hm), hi.get rfl]
      have := s.get_lt F.RAS_ACT_TIMING_VB
      simp only [F.RAS_ACT_TIMING_VB] at this ⊢
      omega
  · obtain ⟨hw, ht⟩ := State.instantOver_taken hs hn h hc hh
    have hf := ht.frame hw s.instantOver.blankDecided_frame rfl rfl
    exact ⟨_, execStartOfBlank_due hb hr, hf.transferred, hf.idle, hf.last, hf.event, hf.shadow⟩
  · have ht := State.commitResolve_taken hs h hc hh
    exact ⟨ht.transferred, ht.idle, ht.last, ht.event, ht.shadow, s.commitResolve_frame.sameMemory rfl⟩
  · have hstale := s.staleCount_frame
    rw [State.commitResolve_none h]
    have hneeds := needs_forUpto (hstale.wf hs) 4 (le_refl 4)
    have hall : Frame scalerStatusSpans [.cmp] s s.staleCount.scalerNeeds := .op s.staleCount.scalerNeeds_frame (.mono hstale rfl) rfl
    refine ⟨hall.regsBut rfl, hall.part .shadow rfl, fun n hn => ⟨?_, ?_, fun hp he hv => ?_⟩⟩
    · exact (hneeds.kept n hn).1.trans (hstale.get rfl)
    · exact (hneeds.kept n hn).2.trans (hstale.get rfl)
    · obtain ⟨hneed, hwant⟩ := s.staleCount_need n
      exact (hneeds.need n hn (hwant ⟨hp, he, hv⟩)).trans hneed
  · obtain ⟨hl, hr⟩ := State.configFail_lt hc
    obtain ⟨h1, h2, h3, h4⟩ := State.commitRejectAt_effect hs hl hr
    have hrej := s.commitRejectAt_frame layer reason
    have hend : Frame scalerStatusSpans [.cmp] (s.commitRejectAt layer reason) (s.commitRejectAt layer reason).staleCount.scalerNeeds :=
      .op (State.scalerNeeds_frame _) (.mono (State.staleCount_frame _) rfl) rfl
    have hall : Frame instantSpans [.lnk, .flt, .cmp] s (s.commitRejectAt layer reason).staleCount.scalerNeeds :=
      .op hend (.mono hrej rfl) rfl
    rw [State.commitResolve_reject h hc]
    refine ⟨fun a ha => ?_, (hend.get rfl).trans h1, (hend.get rfl).trans h2, (hend.get rfl).trans h3, (hend.get rfl).trans h4,
      hall.part .shadow rfl⟩
    rw [hall.reg a (rwsAddrs_beside a ha)]
  · obtain ⟨d, hlo, hhi, -, hcur⟩ := State.followDecision_curVb hs hold
    dsimp only
    rw [hcur]
    omega

end Sys2Proof.Machine
end

section
/-!
The resets: what each returns to its reset value, what it leaves, and the state of OFF (R39, R324, R426, R488).
-/

namespace Sys2Proof.Machine

/-! ### Registers back at their reset values -/

theorem sparseGet_clear_out {α : Type} {d : Nat → α} {lo n k : Nat} (h : k < lo ∨ lo + n ≤ k) :
    ∀ m : Sparse α, sparseGet d (sparseClear m lo n) k = sparseGet d m k
  | [] => rfl
  | e :: m => by
    have ih := sparseGet_clear_out (d := d) h m
    unfold sparseClear at ih ⊢
    by_cases he : e.1 = k
    · have hk : (decide (e.1 < lo) || decide (lo + n ≤ e.1)) = true := by simpa [he] using h
      rw [List.filter_cons, if_pos hk]
      simp [sparseGet, he]
    · rw [List.filter_cons]
      split
      · simp [sparseGet, he, ih]
      · simp [sparseGet, he, ih]

theorem sparseGet_clear_in {α : Type} {d : Nat → α} {lo n k : Nat} (h1 : lo ≤ k) (h2 : k < lo + n) :
    ∀ m : Sparse α, sparseGet d (sparseClear m lo n) k = d k
  | [] => rfl
  | e :: m => by
    have ih := sparseGet_clear_in (d := d) h1 h2 m
    unfold sparseClear at ih ⊢
    rw [List.filter_cons]
    split
    next hk =>
      have he : e.1 ≠ k := by
        simp only [Bool.or_eq_true, decide_eq_true_eq] at hk
        omega
      simp [sparseGet, he, ih]
    · exact ih

theorem State.resetRegs_reg_out {s : State} {lo n a : Nat} (h : a < lo ∨ lo + n ≤ a) : (s.resetRegs lo n).reg a = s.reg a :=
  sparseGet_clear_out h _

theorem State.resetRegs_reg_in {s : State} {lo n a : Nat} (h1 : lo ≤ a) (h2 : a < lo + n) : (s.resetRegs lo n).reg a = regReset a :=
  sparseGet_clear_in h1 h2 _

/-- Registers in the spans return to their reset values; those of the events among them only where events may be cleared. -/
theorem Frame.resetRegs {L : List Span} {ps : List Part} {s t : State} {lo n : Nat} (h : Frame L ps s t)
    (ha : (within [⟨lo, lo + n⟩] L && Nat.blt 0 n && ps.contains .shadow &&
      (ps.contains .events || Nat.ble (lo + n) A.GLB_IRQ_STATUS || Nat.blt A.GLB_IRQ_STATUS lo)) = true) :
    Frame L ps s (t.resetRegs lo n) := by
  simp only [Bool.and_eq_true, Bool.or_eq_true, Nat.ble_eq, Nat.blt_eq] at ha
  obtain ⟨⟨⟨hw, hn⟩, hsh⟩, hev⟩ := ha
  refine h.trans ⟨fun hwf => (State.resetRegs_kept lo n (q := t.pending) ⟨rfl, hwf⟩).2, fun a hb => State.resetRegs_reg_out ?_,
    fun p hp => ?_, fun he _ k hk => ?_⟩
  · by_contra hc
    have hcov : covers [⟨lo, lo + n⟩] a = true := by
      simp only [covers, List.any_cons, List.any_nil, Bool.or_false, Bool.and_eq_true, Bool.or_eq_true, Nat.ble_eq, Nat.blt_eq]
      omega
    rw [covers_of_within hw hcov] at hb
    cases hb
  · cases p with
    | shadow => rw [hsh] at hp; cases hp
    | latches => exact ⟨⟨rfl, rfl⟩, rfl, rfl⟩
    | events => trivial
    | _ => rfl
  · rw [State.resetRegs_reg_out]
    · exact hk
    · rcases hev with (hev | hev) | hev
      · rw [hev] at he; cases he
      · exact .inr hev
      · exact .inl hev

/-! ### Frames of the resets -/

theorem State.nvWrite_frame (s : State) (a : Nat) (bs : List Byte) : Frame [] [.nvm] s (s.nvWrite a bs) :=
  .upd .refl rfl fun hw => (State.nvWrite_kept a bs (q := s.pending) ⟨rfl, hw⟩).2

theorem State.unitWrite_frame (s : State) : Frame [.reg A.CFG_NVM_STATUS] [.nvm, .nvmw, .unit] s s.unitWrite := by
  unfold State.unitWrite
  split
  · exact .refl
  next u _ =>
    have h : Frame [.reg A.CFG_NVM_STATUS] [.nvm, .nvmw, .unit] s ((s.nvWrite u.1 u.2).put F.CFG_NVM_STATUS_UNIT 0) :=
      .put (.mono (s.nvWrite_frame _ _) rfl) rfl
    exact h.upd rfl id

theorem State.floorDone_frame (s : State) : Frame [.reg A.CFG_FLOOR] [.nvmw] s s.floorDone := by
  unfold State.floorDone
  split
  · exact .refl
  · exact .nvmw (.put .refl rfl) rfl rfl

theorem State.unitFinish_frame (s : State) : Frame [.reg A.CFG_NVM_STATUS, .reg A.CFG_FLOOR] [.nvm, .nvmw, .unit] s s.unitFinish := by
  unfold State.unitFinish
  extract_lets s1
  have h : Frame [.reg A.CFG_NVM_STATUS, .reg A.CFG_FLOOR] [.nvm, .nvmw, .unit] s (if s.floorUnder then s1.floorDone else s1) :=
    .ite (.op s1.floorDone_frame (.mono s.unitWrite_frame rfl) rfl) (.mono s.unitWrite_frame rfl)
  exact h.upd rfl id

/-- With no unit under way nothing is written. -/
theorem State.unitFinish_of_none {s : State} (h : s.nvmw.unit = none) : s.unitFinish = { s with nvmw := {} } := by
  unfold State.unitFinish State.floorUnder State.unitWrite
  rw [h]
  rfl

theorem State.levelsOff_frame (s : State) (p : Nat → Bool) : Frame [] [.flt] s (s.levelsOff p) :=
  .foldl s fun _ _ _ => .ite (.deassertF .refl rfl) .refl

theorem State.recReset_frame (s : State) (keep : Bool) : Frame [] [.recd] s (s.recReset keep) := .ite (.recd .refl rfl) (.recd .refl rfl)

theorem State.newChallenge_frame (s : State) : Frame [.window 0xF] [.cfg] s s.newChallenge :=
  .cfg (.put (.put .refl rfl) rfl) rfl rfl

theorem State.cfgReset_frame (s : State) : Frame [.window 0xF] [.cfg, .shadow] s s.cfgReset :=
  .op (State.newChallenge_frame _) (.put (.cfg (.resetRegs .refl rfl) rfl rfl) rfl) rfl

/-- The registers of CORE: those of its blocks, and the frame that a commit is armed for. -/
def coreSpans : List Span := [.reg A.GLB_COMMIT_TARGET, ⟨A.RAS_CTRL, A.SAF_STATE⟩, .window 0xF, ⟨A.BST_CTRL, 0⟩]

/-- The parts that a reset of CORE clears. -/
def coreParts : List Part :=
  [.shadow, .ras, .lmc, .lmem, .cmp, .msk, .lum, .ary, .latches, .hlt, .lpe, .cal, .bst, .recd, .thm, .cfg, .flt]

/-- The reset of CORE once a unit under way has ended. -/
def State.coreCleared (s : State) (safeEnd test : Bool) : State :=
  let s1 := coreWindows.foldl (fun s w => s.resetRegs (0x1000 * w) 0x1000) (s.recReset safeEnd)
  let s2 := if safeEnd then s1 else (s1.resetRegs 0xA000 0x1000).thmReset
  let s3 := { s2 with ras := {}, lmc := {}, lmem := [], cmp := s2.cmp.glbPart, msk := {}, lum := {}, ary := {},
                      hlt := { limitReported := safeEnd && s2.hlt.limitReported }, lpe := {}, cal := {}, bst := {} }
  let s4 := if safeEnd then s3.cfgReset.putB F.CFG_STATUS_TEST test else s3.cfgReset
  (s4.commitRetarget).levelsOff (coreCode safeEnd)

theorem State.coreReset_eq (s : State) (safeEnd : Bool) :
    s.coreReset safeEnd = s.unitFinish.coreCleared safeEnd (s.flag F.CFG_STATUS_TEST) := rfl

theorem State.thmReset_frame (s : State) : Frame [] [.thm] s s.thmReset := .thm .refl rfl

theorem State.coreCleared_frame (s : State) (safeEnd test : Bool) : Frame coreSpans coreParts s (s.coreCleared safeEnd test) := by
  unfold State.coreCleared
  extract_lets s1 s2 s3 s4
  have h1 : Frame coreSpans coreParts s s1 := by
    refine .trans (.mono (s.recReset_frame safeEnd) rfl) (.foldl _ fun s w hw => .resetRegs .refl ?_)
    simp only [coreWindows, List.mem_cons, List.not_mem_nil, or_false] at hw
    rcases hw with rfl | rfl | rfl | rfl | rfl | rfl | rfl | rfl | rfl | rfl | rfl | rfl | rfl <;> rfl
  have h2 : Frame coreSpans coreParts s s2 := .ite h1 (.op (State.thmReset_frame _) (.resetRegs h1 rfl) rfl)
  have h3 : Frame coreSpans coreParts s s3 :=
    h2.upd rfl fun hw => ⟨hw.1, hw.2.1, sparseWf_nil, hw.2.2.2⟩
  have h4 : Frame coreSpans coreParts s s4 := .ite (.putB (.op s3.cfgReset_frame h3 rfl) rfl) (.op s3.cfgReset_frame h3 rfl)
  exact .op (State.levelsOff_frame _ _) (.op s4.commitRetarget_frame h4 rfl) rfl

theorem State.coreCleared_effect (s : State) (safeEnd test : Bool) :
    (s.coreCleared safeEnd test).lmem = [] ∧ (s.coreCleared safeEnd test).ras = {} ∧ (s.coreCleared safeEnd test).msk = {} := by
  unfold State.coreCleared
  extract_lets s1 s2 s3 s4
  have h4 : Frame [.window 0xF] [.cfg, .shadow] s3 s4 := .ite (.putB s3.cfgReset_frame rfl) s3.cfgReset_frame
  have h : Frame [.window 0xF, .reg A.GLB_COMMIT_TARGET] [.cfg, .shadow, .flt] s3 (s4.commitRetarget.levelsOff (coreCode safeEnd)) :=
    .op (State.levelsOff_frame _ _) (.op s4.commitRetarget_frame (.mono h4 rfl) rfl) rfl
  exact ⟨h.part .lmem rfl, h.part .ras rfl, h.part .msk rfl⟩

/-- The registers of the AON blocks GLB, PWR, CVN and FLT. -/
def aonSpans : List Span := [.window 0, .window 0xC, .window 0xE, .window 0x10]

theorem State.fltReset_frame (s : State) : Frame [.window 0xC] [.flt, .shadow] s s.fltReset := .flt (.resetRegs .refl rfl) rfl

/-- The parts that a reset of AON clears. -/
def aonParts : List Part := [.shadow, .events, .cvn, .tdm, .spi, .port, .pwr, .cmp, .flt]

theorem State.aonReset_frame (s : State) : Frame aonSpans aonParts s s.aonReset := by
  unfold State.aonReset
  extract_lets s1 pads
  have h1 : Frame aonSpans aonParts s s1 := .resetRegs (.resetRegs (.resetRegs .refl rfl) rfl) rfl
  exact .op (State.fltReset_frame _) (h1.upd rfl id) rfl

theorem State.lnkReset_frame (s : State) : Frame [.window 0xD] [.shadow, .lnk, .flt] s s.lnkReset :=
  .op (State.levelsOff_frame _ _) (.lnk (.resetRegs .refl rfl) rfl) rfl

theorem State.fltRequest_frame (s : State) : Frame islandSpans islandParts s s.fltRequest :=
  .ite .refl (.op (State.safRefresh_frame _) (.putB .refl rfl) rfl)

theorem State.darkPads_frame (s : State) (a b : Bool) :
    Frame (.reg A.SAF_CNT :: islandSpans) islandParts s (s.darkPads a b) := by
  unfold State.darkPads
  extract_lets _ s1 s1' _ s2
  have h1 : Frame (.reg A.SAF_CNT :: islandSpans) islandParts s s1 := .saf .refl rfl rfl
  have h1' : Frame (.reg A.SAF_CNT :: islandSpans) islandParts s s1' := .inc h1 rfl
  have h2 : Frame (.reg A.SAF_CNT :: islandSpans) islandParts s s2 := .ite h1 (.saf h1' rfl rfl)
  exact .ite (.op (State.safRefresh_frame _) h2 rfl) (.op (State.netsTrack_frame _) h1 rfl)

/-! ### The state of OFF -/

/-- A register of an AON block is at its reset value after the reset of AON. -/
theorem State.aonReset_reg {s : State} {a : Nat} (ha : a < 0x1000 ∨ 0x10000 ≤ a ∧ a < 0x11000 ∨ 0xE000 ≤ a ∧ a < 0xF000) :
    s.aonReset.reg a = regReset a := by
  have hout : s.aonReset.reg a = (((s.resetRegs 0x0000 0x1000).resetRegs 0x10000 0x1000).resetRegs 0xE000 0x1000).reg a :=
    State.resetRegs_reg_out (by omega)
  rw [hout]
  rcases ha with h | ⟨h1, h2⟩ | ⟨h1, h2⟩
  · rw [State.resetRegs_reg_out (by omega), State.resetRegs_reg_out (by omega), State.resetRegs_reg_in (by omega) (by omega)]
  · rw [State.resetRegs_reg_out (by omega), State.resetRegs_reg_in (by omega) (by omega)]
  · exact State.resetRegs_reg_in (by omega) (by omega)

/-- The reset of CORE, AON and LNK. -/
def State.blocksReset (s : State) : State := ((s.coreReset false).aonReset).lnkReset

theorem State.coreReset_frame (s : State) (safeEnd : Bool) :
    Frame coreSpans (.nvm :: .nvmw :: .unit :: coreParts) s (s.coreReset safeEnd) := by
  rw [State.coreReset_eq]
  exact .op (State.coreCleared_frame _ _ _) (.mono s.unitFinish_frame rfl) rfl

/-- The registers that the reset of the blocks touches: all but those of the island. -/
def resetSpans : List Span := [⟨0, A.SAF_STATE⟩, ⟨A.FLT_CTRL, 0⟩]

/-- The parts that the reset of the blocks touches. -/
def resetParts : List Part := [.nvm, .nvmw, .unit, .lnk] ++ coreParts ++ aonParts

theorem State.blocksReset_frame (s : State) : Frame resetSpans resetParts s s.blocksReset :=
  .op (State.lnkReset_frame _) (.op (State.aonReset_frame _) (.mono (s.coreReset_frame false) rfl) rfl) rfl

/-- What the reset of the blocks leaves behind. -/
structure BlocksAreReset (s t : State) : Prop where
  lmem : t.lmem = []
  ras : t.ras = {}
  msk : t.msk = {}
  lnk : t.lnk = {}
  spi : t.spi = {}
  port : t.port = {}
  cvn : t.cvn = {}
  resetN : t.pwr.resetN = s.pwr.resetN
  vddOk : t.pwr.vddOk = s.pwr.vddOk
  reg : ∀ a, a < 0x1000 ∨ 0x10000 ≤ a ∧ a < 0x11000 ∨ 0xD000 ≤ a ∧ a < 0xF000 → t.reg a = regReset a
  nvm : s.nvmw.unit = none → t.nvm = s.nvm

/-- The parts that the reset of AON sets anew. -/
theorem State.aonReset_parts (s : State) : s.aonReset.spi = {} ∧ s.aonReset.port = {} ∧ s.aonReset.cvn = {} ∧
    s.aonReset.pwr.resetN = s.pwr.resetN ∧ s.aonReset.pwr.vddOk = s.pwr.vddOk := ⟨rfl, rfl, rfl, rfl, rfl⟩

theorem State.blocksReset_effect (s : State) : BlocksAreReset s s.blocksReset := by
  have hcore := s.coreReset_frame false
  have ha := (s.coreReset false).aonReset_frame
  have hl := (s.coreReset false).aonReset.lnkReset_frame
  have hoff : Frame [] [.flt] { (s.coreReset false).aonReset.resetRegs 0xD000 0x1000 with lnk := {} } s.blocksReset :=
    State.levelsOff_frame _ _
  obtain ⟨hlmem, hras, hmsk⟩ := s.unitFinish.coreCleared_effect false (s.flag F.CFG_STATUS_TEST)
  obtain ⟨hspi, hport, hcvn, hrn, hvdd⟩ := (s.coreReset false).aonReset_parts
  have hcpwr : (s.coreReset false).pwr = s.pwr := hcore.part .pwr rfl
  exact {
    lmem := Eq.trans (hl.part .lmem rfl) (Eq.trans (ha.part .lmem rfl) hlmem)
    ras := Eq.trans (hl.part .ras rfl) (Eq.trans (ha.part .ras rfl) hras)
    msk := Eq.trans (hl.part .msk rfl) (Eq.trans (ha.part .msk rfl) hmsk)
    lnk := hoff.part .lnk rfl
    spi := Eq.trans (hl.part .spi rfl) hspi
    port := Eq.trans (hl.part .port rfl) hport
    cvn := Eq.trans (hl.part .cvn rfl) hcvn
    resetN := (congrArg Pwr.resetN (hl.part .pwr rfl)).trans (hrn.trans (congrArg Pwr.resetN hcpwr))
    vddOk := (congrArg Pwr.vddOk (hl.part .pwr rfl)).trans (hvdd.trans (congrArg Pwr.vddOk hcpwr))
    reg := fun a h => by
      rw [hoff.reg a rfl]
      by_cases hd : 0xD000 ≤ a ∧ a < 0xE000
      · exact State.resetRegs_reg_in hd.1 (by omega)
      · exact (State.resetRegs_reg_out (by omega)).trans (State.aonReset_reg (by omega))
    nvm := fun hu => by
      have hn : s.unitFinish.nvm = s.nvm := by rw [State.unitFinish_of_none hu]
      have hcn : (s.coreReset false).nvm = s.unitFinish.nvm := (State.coreCleared_frame _ _ _).part .nvm rfl
      exact Eq.trans (hl.part .nvm rfl) (Eq.trans (ha.part .nvm rfl) (hcn.trans hn)) }

/-! ### The island after the reset of the other blocks -/

/-- No message has been asked for, and of the events none has occurred but a change of the island's state. -/
structure Quiet (s : State) : Prop where
  wf : s.Wf
  enable : s.reg A.GLB_IRQ_ENABLE = 0
  lnk : s.lnk = {}
  status : s.reg A.GLB_IRQ_STATUS = 0 ∨ s.reg A.GLB_IRQ_STATUS = 0x4000

theorem Quiet.frame {L : List Span} {ps : List Part} {s t : State} (h : Quiet s) (hf : Frame L ps s t)
    (hL : (covers L A.GLB_IRQ_ENABLE || covers L A.GLB_IRQ_STATUS || ps.contains .lnk) = false) : Quiet t := by
  simp only [Bool.or_eq_false_iff] at hL
  obtain ⟨⟨he, hs⟩, hl⟩ := hL
  exact ⟨hf.wf h.wf, (hf.reg _ he).trans h.enable, Eq.trans (hf.part .lnk hl) h.lnk, by rw [hf.reg _ hs]; exact h.status⟩

/-- With the events' messages off, an event asks for none. -/
theorem State.irq_lnk {s : State} {n : Nat} (h : s.reg A.GLB_IRQ_ENABLE = 0) : (s.irq n).lnk = s.lnk := by
  have hb : bitOf (s.reg A.GLB_IRQ_ENABLE).toNat n = false := by rw [h]; simp [bitOf]
  unfold State.irq
  simp only [hb, Bool.false_and, Bool.false_eq_true, if_false]
  rfl

theorem Quiet.safGoto {s : State} (h : Quiet s) (t : Nat) : Quiet (s.safGoto t) := by
  unfold State.safGoto
  split
  · exact h
  · have hp : Quiet (s.put F.SAF_STATE_STATE t) := h.frame (L := [.reg A.SAF_STATE]) (ps := []) (.put .refl rfl) rfl
    have hf : Frame irqSpans [.lnk] (s.put F.SAF_STATE_STATE t) ((s.put F.SAF_STATE_STATE t).irq Irq.safetyState) := .irq .refl rfl
    refine ⟨hf.wf hp.wf, (hf.reg _ rfl).trans hp.enable, (State.irq_lnk hp.enable).trans hp.lnk, .inr ?_⟩
    rw [Frame.irq_status hp.wf]
    rcases hp.status with h0 | h0 <;> rw [h0] <;> decide

theorem Quiet.safRefresh {s : State} (h : Quiet s) : Quiet s.safRefresh := by
  have hraw : Quiet s.safRefreshRaw := by
    unfold State.safRefreshRaw
    split
    · exact h
    · extract_lets t w shows entry s0 saf s1
      have h1 : Quiet s1 := (h.safGoto t).frame (L := [.reg A.SAF_STATE]) (ps := [.saf]) (.saf (.put .refl rfl) rfl rfl) rfl
      split
      · have he (b : Nat) : Quiet (s1.oasisEntry b) := h1.frame (s1.oasisEntry_frame b) rfl
        split
        · exact he _
        · refine Quiet.safGoto (Quiet.frame (L := [.reg A.SAF_STATE, .reg A.LPE_STATUS]) (ps := [.flt, .lpe, .saf]) (he w.2) ?_ rfl) _
          exact .op (State.driveLrm_frame _ _) (.put (.raise .refl rfl) rfl) rfl
      · exact h1
  exact hraw.frame (State.netsTrack_frame _) rfl

theorem Quiet.fltRequest {s : State} (h : Quiet s) : Quiet s.fltRequest := by
  unfold State.fltRequest
  split
  · exact h
  · exact (h.frame (L := [.reg A.SAF_STATE]) (ps := []) (.putB .refl rfl) rfl).safRefresh

theorem Quiet.darkPads {s : State} (h : Quiet s) (a b : Bool) : Quiet (s.darkPads a b) := by
  unfold State.darkPads
  extract_lets _ s1 s1' _ s2
  have h1 : Quiet s1 := h.frame (L := []) (ps := [.saf]) (.saf .refl rfl rfl) rfl
  have h1' : Frame [.reg A.SAF_CNT] [.saf] s1 s1' := .inc .refl rfl
  have h2 : Quiet s2 := h1.frame (L := [.reg A.SAF_CNT]) (ps := [.saf]) (.ite .refl (.saf h1' rfl rfl)) rfl
  split
  · exact h2.safRefresh
  · exact h1.frame (State.netsTrack_frame _) rfl

/-- The blocks outside the island, reset from a state whose raster has stopped; the island then holds its dark pads active. -/
theorem State.offReset_eq (s : State) :
    s.offReset =
      ((if s.rasterStop.unitFinish.blocksReset.saf.held then s.rasterStop.unitFinish.blocksReset
        else (s.rasterStop.unitFinish.blocksReset.put F.SAF_STATE_REQ_CFG 0).fltRequest).darkPads true false) := rfl

/-- The island's part of OFF: no register but its own, those of the events and those that light removal touches. -/
theorem State.offIsland_frame (s : State) :
    Frame (.reg A.SAF_CNT :: islandSpans) islandParts s
      ((if s.saf.held then s else (s.put F.SAF_STATE_REQ_CFG 0).fltRequest).darkPads true false) :=
  .trans (.ite .refl (.op (State.fltRequest_frame _) (.put .refl rfl) rfl)) (State.darkPads_frame _ _ _)

theorem Quiet.offIsland {s : State} (h : Quiet s) :
    Quiet ((if s.saf.held then s else (s.put F.SAF_STATE_REQ_CFG 0).fltRequest).darkPads true false) := by
  refine Quiet.darkPads ?_ _ _
  split
  · exact h
  · exact (h.frame (L := [.reg A.SAF_STATE]) (ps := []) (.put .refl rfl) rfl).fltRequest

/-- The blocks after their reset. -/
theorem State.blocksReset_quiet {s : State} (hs : s.Wf) : Quiet s.blocksReset := by
  have h := s.blocksReset_effect
  exact ⟨s.blocksReset_frame.wf hs, (h.reg _ (by decide)).trans (by decide), h.lnk, .inl ((h.reg _ (by decide)).trans (by decide))⟩

/-- OFF, as far as the blocks outside the island go. -/
structure IsOff (s t : State) : Prop where
  state : t.get F.PWR_STATUS_STATE = 0
  step : t.get F.PWR_STATUS_STEP = 0
  lmem : t.lmem = []
  ras : t.ras = {}
  msk : t.msk = {}
  lnk : t.lnk = {}
  spi : t.spi = {}
  port : t.port = {}
  cvn : t.cvn = {}
  reg : ∀ a, a ∉ [A.GLB_IRQ_STATUS, A.GLB_IRQ_RAW] → a < 0x1000 ∨ 0xD000 ≤ a ∧ a < 0xF000 → t.reg a = regReset a
  events : t.reg A.GLB_IRQ_STATUS = 0 ∨ t.reg A.GLB_IRQ_STATUS = 0x4000
  nvm : t.nvm = s.nvm ∨ s.nvmw.unit.isSome = true

theorem State.offReset_effect {s : State} (hs : s.Wf) :
    IsOff s s.offReset ∧ s.offReset.pwr.resetN = s.pwr.resetN ∧ s.offReset.pwr.vddOk = s.pwr.vddOk ∧
      s.offReset.saf.grant = s.saf.grant := by
  have hstop := s.rasterStop_frame
  have hfin := s.rasterStop.unitFinish_frame
  have hw := hfin.wf (hstop.wf hs)
  have hb := s.rasterStop.unitFinish.blocksReset_effect
  have hbf := s.rasterStop.unitFinish.blocksReset_frame
  have hf := s.rasterStop.unitFinish.blocksReset.offIsland_frame
  have hq := (State.blocksReset_quiet hw).offIsland
  have hpwr : s.rasterStop.unitFinish.pwr = s.pwr := Eq.trans (hfin.part .pwr rfl) (hstop.part .pwr rfl)
  have hnvm : s.nvmw.unit = none → s.rasterStop.unitFinish.blocksReset.nvm = s.nvm := fun hu => by
    have hsu : s.rasterStop.nvmw.unit = none := Eq.trans (hstop.part .unit rfl) hu
    have hn : s.rasterStop.unitFinish.nvm = s.rasterStop.nvm := by rw [State.unitFinish_of_none hsu]
    exact (hb.nvm rfl).trans (hn.trans (hstop.part .nvm rfl))
  have hgrant : s.rasterStop.unitFinish.blocksReset.saf.grant = s.saf.grant := by
    have h1 := Eq.trans (hfin.part .saf rfl) (Eq.refl s.rasterStop.saf)
    have h2 := Eq.trans (hbf.part .saf rfl) h1
    rw [h2]
    exact (Prod.mk.inj (Prod.mk.inj (hstop.part .island rfl)).2).1
  rw [State.offReset_eq]
  generalize s.rasterStop.unitFinish.blocksReset = b at *
  refine ⟨{ state := ?_, step := ?_, lmem := Eq.trans (hf.part .lmem rfl) hb.lmem, ras := Eq.trans (hf.part .ras rfl) hb.ras,
            msk := Eq.trans (hf.part .msk rfl) hb.msk, lnk := hq.lnk, spi := Eq.trans (hf.part .spi rfl) hb.spi,
            port := Eq.trans (hf.part .port rfl) hb.port, cvn := Eq.trans (hf.part .cvn rfl) hb.cvn, reg := fun a ha hd => ?_,
            events := hq.status, nvm := ?_ }, ?_, ?_, ?_⟩
  · rw [hf.get rfl, State.get, hb.reg _ (by decide)]
    decide
  · rw [hf.get rfl, State.get, hb.reg _ (by decide)]
    decide
  · simp only [List.mem_cons, List.not_mem_nil, or_false, not_or, A.GLB_IRQ_STATUS, A.GLB_IRQ_RAW] at ha
    refine (hf.reg a ?_).trans (hb.reg a (by omega))
    rcases hd with hd | hd
    · have h3 : a < 0x20 ∨ 0x21 ≤ a ∧ a < 0x28 ∨ 0x29 ≤ a := by omega
      rcases h3 with h | ⟨h1, h2⟩ | h
      · exact covers_between (lo := 0) (hi := 0x20) rfl (Nat.zero_le a) h
      · exact covers_between (lo := 0x21) (hi := 0x28) rfl h1 h2
      · exact covers_between (lo := 0x29) (hi := 0x1000) rfl h hd
    · exact covers_between (lo := 0xD000) (hi := 0xF000) rfl hd.1 hd.2
  · cases hu : s.nvmw.unit with
    | none => exact .inl (Eq.trans (hf.part .nvm rfl) (hnvm hu))
    | some u => exact .inr rfl
  · exact (congrArg Pwr.resetN (hf.part .pwr rfl)).trans (hb.resetN.trans (congrArg Pwr.resetN hpwr))
  · exact (congrArg Pwr.vddOk (hf.part .pwr rfl)).trans (hb.vddOk.trans (congrArg Pwr.vddOk hpwr))
  · exact (Prod.mk.inj (Prod.mk.inj (hf.part .island rfl)).2).1.trans hgrant

/-! ### RESET_N low, and VDD below its threshold -/

/-- The clock-off grant is a matter of the island alone. -/
theorem IsOff.of_saf {s t : State} {x : Saf} (h : IsOff s t) : IsOff s { t with saf := x } :=
  ⟨h.state, h.step, h.lmem, h.ras, h.msk, h.lnk, h.spi, h.port, h.cvn, h.reg, h.events, h.nvm⟩

/-- A reset is one of the module that stood before the pin moved. -/
theorem IsOff.of_nvm {s s' t : State} (h : IsOff s' t) (hn : s'.nvm = s.nvm) (hu : s'.nvmw.unit = s.nvmw.unit) : IsOff s t :=
  ⟨h.state, h.step, h.lmem, h.ras, h.msk, h.lnk, h.spi, h.port, h.cvn, h.reg, h.events, by rw [← hn, ← hu]; exact h.nvm⟩

/-- RESET_N is low. -/
def State.pinLow (s : State) : State := { s with pwr := { s.pwr with resetN := false } }

/-- VDD is below its threshold. -/
def State.vddLow (s : State) : State := { s with pwr := { s.pwr with vddOk := false } }

theorem execResetNLow_on {s : State} (hp : s.power ≠ 0) (hr : s.pwr.resetN = true) :
    exec .resetNLow s = .next (if s.pinLow.offReset.pwr.vddOk then s.pinLow.offReset.grantGive else s.pinLow.offReset) := by
  have hp' : s.pinLow.power ≠ Power.off := hp
  refine congrArg Host.Outcome.next ((if_neg (by simp [hr])).trans ?_)
  change (let s2 := if s.pinLow.power = Power.off then s.pinLow else s.pinLow.offReset
    if s2.pwr.vddOk then s2.grantGive else s2) = _
  rw [if_neg hp']

theorem execVddBelowThreshold_on {s : State} (hp : s.power ≠ 0) (hv : s.pwr.vddOk = true) :
    exec .vddBelowThreshold s = .next s.vddLow.unitLost.offReset.grantEnd := by
  have hp' : s.vddLow.power ≠ Power.off := hp
  refine congrArg Host.Outcome.next ((if_neg (by simp [hv])).trans ?_)
  exact congrArg State.grantEnd (if_neg hp')

theorem resetNLow_off {s : State} (hs : s.Wf) (hp : s.power ≠ 0) (hr : s.pwr.resetN = true) :
    Completes .resetNLow s fun t => IsOff s t ∧ t.pwr.resetN = false ∧
      (s.pwr.vddOk = true → t.saf.grant = true ∧ t.saf.grantWait = false) ∧ (s.pwr.vddOk = false → t.saf.grant = s.saf.grant) := by
  have hw : s.pinLow.Wf := hs
  obtain ⟨hoff, hrn, hvdd, hgrant⟩ := State.offReset_effect hw
  have hoff : IsOff s s.pinLow.offReset := hoff.of_nvm rfl rfl
  refine ⟨_, execResetNLow_on hp hr, ?_⟩
  cases hv : s.pwr.vddOk with
  | true =>
    rw [if_pos (hvdd.trans hv)]
    exact ⟨hoff.of_saf, hrn, fun _ => ⟨rfl, rfl⟩, nofun⟩
  | false =>
    rw [if_neg (by rw [hvdd]; simp [State.pinLow, hv])]
    exact ⟨hoff, hrn, nofun, fun _ => hgrant⟩

theorem State.unitLost_frame (s : State) : Frame [.reg A.CFG_NVM_STATUS] [.nvm, .nvmw, .unit, .freeCount] s s.unitLost := by
  unfold State.unitLost
  split
  · exact .refl
  · have h : Frame [.reg A.CFG_NVM_STATUS] [.nvm, .nvmw, .unit, .freeCount] s
        (if Config.unitWritten s.freeCount then s.unitWrite else { s with nvmw := { s.nvmw with unit := none } }) :=
      .ite (.mono s.unitWrite_frame rfl) (.upd .refl rfl id)
    exact h.upd rfl id

theorem vddBelowThreshold_off {s : State} (hs : s.Wf) (hp : s.power ≠ 0) (hv : s.pwr.vddOk = true) :
    Completes .vddBelowThreshold s fun t => IsOff s t ∧ t.pwr.vddOk = false ∧ t.saf.grant = false := by
  have hf := s.vddLow.unitLost_frame
  obtain ⟨hoff, -, hvdd, -⟩ := State.offReset_effect (hf.wf hs)
  have hpwr : s.vddLow.unitLost.pwr = s.vddLow.pwr := hf.part .pwr rfl
  refine ⟨_, execVddBelowThreshold_on hp hv, IsOff.of_saf ⟨hoff.state, hoff.step, hoff.lmem, hoff.ras, hoff.msk, hoff.lnk, hoff.spi,
    hoff.port, hoff.cvn, hoff.reg, hoff.events, ?_⟩, hvdd.trans (by rw [hpwr]; rfl), rfl⟩
  cases hu : s.nvmw.unit with
  | none =>
    have hsame : s.vddLow.unitLost = s.vddLow := by
      have hu' : s.vddLow.nvmw.unit = none := hu
      unfold State.unitLost
      rw [hu']
    rcases hoff.nvm with h | h
    · exact .inl (h.trans (by rw [hsame]; rfl))
    · rw [hsame] at h
      exact absurd h (by simp [State.vddLow, hu])
  | some u => exact .inr rfl

end Sys2Proof.Machine
end

section
/-!
The boot (R403, R404, R426, R444): the release of the reset, the steps of the boot loader, and the entry of IDLE.
-/

namespace Sys2Proof.Machine

/-! ### The entry of BOOT -/

theorem State.enterState_frame (s : State) (st : Nat) : Frame (.reg A.PWR_STATUS :: irqSpans) [.lnk] s (s.enterState st) :=
  .put (.put (.put (.ite .refl (.irq .refl rfl)) rfl) rfl) rfl

theorem State.enterState_state {s : State} (hs : s.Wf) {st : Nat} (h : st < 8) : (s.enterState st).get F.PWR_STATUS_STATE = st := by
  have hw : (if s.power = st then s else s.irq Irq.powerState).Wf :=
    (Frame.ite (L := irqSpans) (ps := [.lnk]) .refl (.irq .refl rfl)).wf hs
  have h1 := State.put_wf (f := F.PWR_STATUS_STATE) (v := st) hw
  refine (State.get_put_ne (State.put_wf h1) (by decide) (by decide)).trans ?_
  rw [State.get_put_ne h1 (by decide) (by decide), State.get_put_self hw (by decide)]
  exact Nat.mod_eq_of_lt h

/-- A change of the power state is an event. -/
theorem State.enterState_event {s : State} (hs : s.Wf) {st : Nat} (h : s.power ≠ st) :
    ((s.enterState st).reg A.GLB_IRQ_STATUS).getLsbD 20 = true := by
  unfold State.enterState
  extract_lets s1
  have he : s1 = s.irq Irq.powerState := if_neg h
  have hf : Frame [.reg A.PWR_STATUS] [] s1 (((s1.put F.PWR_STATUS_STATE st).put F.PWR_STATUS_TARGET st).put F.PWR_STATUS_STEP 0) :=
    .put (.put (.put .refl rfl) rfl) rfl
  rw [hf.reg _ rfl, he]
  exact Frame.irq_event hs (by decide)

/-- The domains as BOOT begins with them (R426). -/
def State.bootDomains (s : State) : State :=
  ((((s.put F.PWR_DOM_CORE 1).put F.PWR_DOM_MEM 0x1FFFF).put F.PWR_DOM_LNK 0).put F.PWR_DOM_PIX 0).put F.PWR_DOM_PLL 0

theorem State.bootDomains_frame (s : State) : Frame [.reg A.PWR_DOM] [] s s.bootDomains :=
  .put (.put (.put (.put (.put .refl rfl) rfl) rfl) rfl) rfl

theorem State.bootDomains_get {s : State} (hs : s.Wf) :
    s.bootDomains.get F.PWR_DOM_CORE = 1 ∧ s.bootDomains.get F.PWR_DOM_MEM = 0x1FFFF ∧ s.bootDomains.get F.PWR_DOM_LNK = 0 ∧
      s.bootDomains.get F.PWR_DOM_PIX = 0 ∧ s.bootDomains.get F.PWR_DOM_PLL = 0 := by
  have h1 := State.put_wf (f := F.PWR_DOM_CORE) (v := 1) hs
  have h2 := State.put_wf (f := F.PWR_DOM_MEM) (v := 0x1FFFF) h1
  have h3 := State.put_wf (f := F.PWR_DOM_LNK) (v := 0) h2
  have h4 := State.put_wf (f := F.PWR_DOM_PIX) (v := 0) h3
  unfold State.bootDomains
  refine ⟨?_, ?_, ?_, ?_, ?_⟩
  · rw [State.get_put_ne h4 (by decide) (by decide), State.get_put_ne h3 (by decide) (by decide),
      State.get_put_ne h2 (by decide) (by decide), State.get_put_ne h1 (by decide) (by decide), State.get_put_self hs (by decide)]
    decide
  · rw [State.get_put_ne h4 (by decide) (by decide), State.get_put_ne h3 (by decide) (by decide),
      State.get_put_ne h2 (by decide) (by decide), State.get_put_self h1 (by decide)]
    decide
  · rw [State.get_put_ne h4 (by decide) (by decide), State.get_put_ne h3 (by decide) (by decide), State.get_put_self h2 (by decide)]
    decide
  · rw [State.get_put_ne h4 (by decide) (by decide), State.get_put_self h3 (by decide)]
    decide
  · rw [State.get_put_self h4 (by decide)]
    decide

/-- The loader at its first step, with the clock-off grant held. -/
def State.bootFirst (s : State) : State :=
  { s with
    saf := { s.saf with grant := true, grantWait := true, grantTicks := 0 }
    cfg := { s.cfg with bootStep := 1, bootTicks := 0 } }

theorem State.bootEnter_eq (s : State) : s.bootEnter = s.stopTrack.bootDomains.bootFirst.enterState Power.boot := rfl

theorem State.stopTrack_frame (s : State) : Frame [.reg A.LPE_STATUS] [] s s.stopTrack := .putB .refl rfl

theorem State.bootFirst_frame (s : State) : Frame [] [.saf, .island, .cfg] s s.bootFirst := .upd .refl rfl id

/-- What the release of the reset does to the module that the reset of the blocks leaves. -/
def State.unreset (s : State) (vddio : Nat) : State :=
  let s2 := { s with pwr := { s.pwr with vddio33 := decide (2500 ≤ vddio) },
                     saf := { s.saf with sealWant := true, vddioIn := vddioOperating vddio },
                     cfg := { s.cfg with freezeOff := s.cfg.freezePad } }
  if s2.saf.held then s2 else ((s2.put F.SAF_LOCK_LOCK 0).put F.SAF_STATE_REQ_CFG 0).fltRequest

theorem State.release_eq (s : State) (vddio : Nat) : s.release vddio = (s.blocksReset.unreset vddio).bootEnter := by
  unfold State.release
  extract_lets s1 _ _ _ s2 s3
  have hb : s.blocksReset = s1 := rfl
  rw [hb]
  clear_value s1
  rfl

theorem State.unreset_frame (s : State) (vddio : Nat) :
    Frame (.reg A.SAF_LOCK :: islandSpans) ([.pwr, .cfg, .island] ++ islandParts) s (s.unreset vddio) := by
  unfold State.unreset
  extract_lets _ _ _ s2
  have h2 : Frame (.reg A.SAF_LOCK :: islandSpans) ([.pwr, .cfg, .island] ++ islandParts) s s2 := .upd .refl rfl id
  exact .ite h2 (.op (State.fltRequest_frame _) (.put (.put h2 rfl) rfl) rfl)

theorem State.unreset_effect (s : State) (vddio : Nat) :
    (s.unreset vddio).saf.sealWant = true ∧ (s.unreset vddio).pwr = { s.pwr with vddio33 := decide (2500 ≤ vddio) } := by
  unfold State.unreset
  extract_lets _ _ _ s2
  have hf : Frame (.reg A.SAF_LOCK :: islandSpans) islandParts s2
      (if s2.saf.held then s2 else ((s2.put F.SAF_LOCK_LOCK 0).put F.SAF_STATE_REQ_CFG 0).fltRequest) :=
    .ite .refl (.op (State.fltRequest_frame _) (.put (.put .refl rfl) rfl) rfl)
  exact ⟨(Prod.mk.inj (Prod.mk.inj (hf.part .island rfl)).2).2, hf.part .pwr rfl⟩

/-- BOOT as the release of the reset leaves it. -/
structure Boots (s : State) (vddio : Nat) (t : State) : Prop where
  state : t.get F.PWR_STATUS_STATE = 1
  step : t.cfg.bootStep = 1
  ticks : t.cfg.bootTicks = 0
  core : t.get F.PWR_DOM_CORE = 1
  mem : t.get F.PWR_DOM_MEM = 0x1FFFF
  lnk : t.get F.PWR_DOM_LNK = 0
  pix : t.get F.PWR_DOM_PIX = 0
  pll : t.get F.PWR_DOM_PLL = 0
  strapRead : t.saf.sealWant = true
  grant : t.saf.grantWait = true
  vddio : t.pwr.vddio33 = true ↔ 2500 ≤ vddio
  resetN : t.pwr.resetN = s.pwr.resetN
  vddOk : t.pwr.vddOk = s.pwr.vddOk
  nvm : s.nvmw.unit = none → t.nvm = s.nvm
  enable : t.reg A.GLB_IRQ_ENABLE = regReset A.GLB_IRQ_ENABLE

/-- The module out of its reset, whose blocks stand as `b` shows them, boots. -/
theorem State.boots_of_blocks {s b : State} {vddio : Nat} (hb : BlocksAreReset s b) (hw : b.Wf) :
    Boots s vddio (b.unreset vddio).bootEnter := by
  have hr := b.unreset_frame vddio
  have hrw := hr.wf hw
  obtain ⟨hseal, hpwr⟩ := b.unreset_effect vddio
  generalize b.unreset vddio = r at *
  have htrack := r.stopTrack_frame
  have hdom := r.stopTrack.bootDomains_frame
  obtain ⟨hcore, hmem, hlnk, hpix, hpll⟩ := State.bootDomains_get (htrack.wf hrw)
  have hfirst := r.stopTrack.bootDomains.bootFirst_frame
  have hent := r.stopTrack.bootDomains.bootFirst.enterState_frame Power.boot
  have hstate := State.enterState_state (hfirst.wf (hdom.wf (htrack.wf hrw))) (st := Power.boot) (by decide)
  rw [State.bootEnter_eq]
  have hall : Frame ([.reg A.LPE_STATUS, .reg A.PWR_DOM, .reg A.PWR_STATUS] ++ irqSpans) [.saf, .island, .cfg, .lnk] r
      (r.stopTrack.bootDomains.bootFirst.enterState Power.boot) := .op hent (.op hfirst (.op hdom (.mono htrack rfl) rfl) rfl) rfl
  have hsaf : (r.stopTrack.bootDomains.bootFirst.enterState Power.boot).saf = r.stopTrack.bootDomains.bootFirst.saf :=
    hent.part .saf rfl
  have hcfg : (r.stopTrack.bootDomains.bootFirst.enterState Power.boot).cfg = r.stopTrack.bootDomains.bootFirst.cfg :=
    hent.part .cfg rfl
  have hpwr' : (r.stopTrack.bootDomains.bootFirst.enterState Power.boot).pwr = r.pwr := hall.part .pwr rfl
  exact {
    state := hstate
    step := by rw [hcfg]; rfl
    ticks := by rw [hcfg]; rfl
    core := (hent.get rfl).trans hcore
    mem := (hent.get rfl).trans hmem
    lnk := (hent.get rfl).trans hlnk
    pix := (hent.get rfl).trans hpix
    pll := (hent.get rfl).trans hpll
    strapRead := by rw [hsaf]; exact hseal
    grant := by rw [hsaf]; rfl
    vddio := by rw [hpwr', hpwr]; simp
    resetN := by rw [hpwr', hpwr]; exact hb.resetN
    vddOk := by rw [hpwr', hpwr]; exact hb.vddOk
    nvm := fun hu => Eq.trans (hall.part .nvm rfl) (Eq.trans (hr.part .nvm rfl) (hb.nvm hu))
    enable := (hall.reg _ rfl).trans ((hr.reg A.GLB_IRQ_ENABLE rfl).trans (hb.reg _ (by decide))) }

theorem State.release_boots {s : State} (hs : s.Wf) (vddio : Nat) : Boots s vddio (s.release vddio) := by
  rw [State.release_eq]
  exact State.boots_of_blocks s.blocksReset_effect (s.blocksReset_frame.wf hs)

/-! ### The steps of the loader -/

/-- The record of a code that is not raised is the one before. -/
theorem State.frec_raise_ne {s : State} {n m x : Nat} (h : m ≠ n) : (s.raise n x).frec m = s.frec m := by
  unfold State.raise State.raiseI
  extract_lets r
  split
  · rfl
  · exact sparseGet_set_ne h

theorem State.showKeys_frame (s : State) : Frame [.reg A.CFG_STATUS, .reg A.CFG_KCV] [] s s.showKeys :=
  .put (.put (.putB (.putB .refl rfl) rfl) rfl) rfl

theorem State.floorRead_frame (s : State) : Frame [.reg A.CFG_FLOOR] [.flt] s s.floorRead := by
  unfold State.floorRead
  split
  · exact .put .refl rfl
  · exact .raise (.put .refl rfl) rfl

theorem State.floorRead_frec {s : State} {n : Nat} (h : n ≠ Code.CFG_NVM_RECORD) : s.floorRead.frec n = s.frec n := by
  unfold State.floorRead
  split
  · rfl
  · exact State.frec_raise_ne h

theorem execBootStepDone_on {b : BootIn} {s : State} (hp : s.power = 1) (hf : s.frozen = false) :
    exec (.bootStepDone b) s = .next
      (match s.cfg.bootStep with
      | 1 => s.bootFuses b.voteBad
      | 2 => s.bootHeader (if headerOk b.bytes then .ok (b.bytes.take 32) else .error Reason.header)
      | 3 => s.bootHeader (if headerOk b.bytes then .ok (b.bytes.take 32) else .error Reason.header)
      | 4 => s.bootBody b.bytes
      | 5 => s.bootApply b.ramFail
      | 6 => s.bootSignal
      | _ => s) :=
  congrArg Host.Outcome.next (if_neg (by simp [hp, hf, Power.boot]))

/-- Step 1 shows the life cycle that the fuses hold, and goes on where it sends the boot. -/
theorem State.bootFuses_effect {s : State} (hs : s.Wf) (bad : Bool) :
    (s.bootFuses bad).get F.CFG_LC_STATE = s.cfg.fuses % 8 ∧ (s.bootFuses bad).cfg.bootTicks = 0 ∧
      (s.bootFuses bad).cfg.bootStep = (if s.cfg.fuses = 4 then 5 else 2) ∧
      (bad = true → (s.bootFuses bad).frec Code.CFG_FUSE = (s.raise Code.CFG_FUSE 0).frec Code.CFG_FUSE) := by
  unfold State.bootFuses
  extract_lets s1 s2
  have h1 : Frame [] [.flt] s s1 := .ite (.raise .refl rfl) .refl
  have hcfg1 : s1.cfg = s.cfg := h1.part .cfg rfl
  have h2 : Frame [.reg A.CFG_STATUS, .reg A.CFG_KCV, .reg A.CFG_FLOOR] [.flt] (s1.put F.CFG_LC_STATE s1.cfg.fuses) s2 :=
    .op (State.floorRead_frame _) (.mono (State.showKeys_frame _) rfl) rfl
  have hcfg2 : s2.cfg = s.cfg := Eq.trans (h2.part .cfg rfl) hcfg1
  have hlc : s2.get F.CFG_LC_STATE = s.cfg.fuses % 8 := by
    rw [h2.get rfl, State.get_put_self (h1.wf hs) (by decide), hcfg1]
    rfl
  have hfuse : bad = true → s2.frec Code.CFG_FUSE = (s.raise Code.CFG_FUSE 0).frec Code.CFG_FUSE := by
    rintro rfl
    exact State.floorRead_frec (by decide)
  have hend : (if s2.cfg.fuses = Lc.end_ then s2.bootGo 5 else s2.bootGo 2) = s2.bootGo (if s.cfg.fuses = 4 then 5 else 2) := by
    rw [hcfg2]
    exact (apply_ite s2.bootGo _ _ _).symm
  rw [hend]
  exact ⟨hlc, rfl, rfl, hfuse⟩

theorem State.frec_setFrec {s : State} {n : Nat} {r : FaultRec} (h : SparseWf faultDefault s.flt.recs) : (s.setFrec n r).frec n = r :=
  sparseGet_set_same h

theorem State.raise_recs {s : State} {n x : Nat} (h : SparseWf faultDefault s.flt.recs) :
    SparseWf faultDefault (s.raise n x).flt.recs := by
  unfold State.raise State.raiseI
  extract_lets r
  split
  · exact h
  · exact sparseWf_set _ _ h

/-- What a raise makes of a record follows from the record. -/
theorem State.frec_raise_congr {s t : State} {n x : Nat} (hs : SparseWf faultDefault s.flt.recs)
    (ht : SparseWf faultDefault t.flt.recs) (h : t.frec n = s.frec n) : (t.raise n x).frec n = (s.raise n x).frec n := by
  unfold State.raise State.raiseI
  rw [h]
  extract_lets r
  split
  · exact h
  · rw [State.frec_setFrec ht, State.frec_setFrec hs]

/-- A slot is shown as failed with the reason. -/
def reasonField (slot : Nat) : Field := if slot = 1 then F.CFG_BOOT_REASON_REASON_A else F.CFG_BOOT_REASON_REASON_B

theorem State.slotFail_eq (s : State) (slot reason : Nat) :
    s.slotFail slot reason = (s.put (reasonField slot) reason).raise Code.CFG_SLOT_BAD (slot - 1) := rfl

theorem reasonField_addr (slot : Nat) : (reasonField slot).addr = A.CFG_BOOT_REASON := by
  unfold reasonField
  split <;> rfl

theorem State.slotFail_frame (s : State) (slot reason : Nat) : Frame [.reg A.CFG_BOOT_REASON] [.flt] s (s.slotFail slot reason) := by
  rw [State.slotFail_eq]
  exact .raise (.put .refl (by rw [reasonField_addr]; rfl)) rfl

theorem State.slotFail_frec (s : State) (slot reason : Nat) :
    (s.slotFail slot reason).frec Code.CFG_SLOT_BAD = (s.raise Code.CFG_SLOT_BAD (slot - 1)).frec Code.CFG_SLOT_BAD :=
  State.frec_congr (State.raise_flt (s := s) (y := s.put (reasonField slot) reason) rfl _ _) _

/-- Slot A is shown as failed. -/
theorem State.slotFail_reasonA {s : State} (hs : s.Wf) {reason : Nat} (h : reason < 32) :
    (s.slotFail 1 reason).get F.CFG_BOOT_REASON_REASON_A = reason := by
  have hf : Frame [] [.flt] (s.put F.CFG_BOOT_REASON_REASON_A reason) (s.slotFail 1 reason) := .raise .refl rfl
  rw [hf.get rfl, State.get_put_self hs (by decide)]
  exact Nat.mod_eq_of_lt h

theorem imgGen_lt (b : List Byte) : imgGen b < 2 ^ 16 := Nat.mod_lt _ (Nat.two_pow_pos _)

/-- The header of slot A has come. -/
def State.gotHeaderA (s : State) (h : List Byte) : State :=
  { s.put F.CFG_BOOT_GEN_A (imgGen h) with cfg := { s.cfg with hdrA := some h } }

theorem State.bootHeader_okA {s : State} (h2 : s.cfg.bootStep = 2) (h : List Byte) :
    s.bootHeader (.ok h) = (s.gotHeaderA h).bootGo 3 := by
  unfold State.bootHeader
  simp only [h2]
  exact if_pos rfl

theorem State.bootHeader_errorA {s : State} (h2 : s.cfg.bootStep = 2) (r : Nat) :
    s.bootHeader (.error r) = (s.slotFail 1 r).bootGo 3 := by
  unfold State.bootHeader
  simp only [h2]
  exact if_pos rfl

/-- The header of slot B has come. -/
def State.gotHeaderB (s : State) (h : List Byte) : State :=
  { s.put F.CFG_BOOT_GEN_B (imgGen h) with cfg := { s.cfg with hdrB := some h } }

theorem State.bootHeader_B (s : State) (h3 : s.cfg.bootStep = 3) (b : Except Nat (List Byte)) :
    s.bootHeader b =
      let s1 := match b with
        | .error r => s.slotFail 2 r
        | .ok h => s.gotHeaderB h
      s1.bodyGo s1.firstSlot := by
  have hB : (s.cfg.bootStep == 2) = false := by rw [h3]; rfl
  unfold State.bootHeader
  simp only [hB, Bool.false_eq_true, if_false]
  cases b <;> rfl

/-- Step 2 with a good header, and with a bad one or none. -/
theorem State.bootHeader_goodA {s : State} (hs : s.Wf) (h2 : s.cfg.bootStep = 2) (h : List Byte) :
    (s.bootHeader (.ok h)).get F.CFG_BOOT_GEN_A = imgGen h ∧ (s.bootHeader (.ok h)).cfg.hdrA = some h ∧
      (s.bootHeader (.ok h)).cfg.bootStep = 3 ∧ RegsBut [A.CFG_BOOT] s (s.bootHeader (.ok h)) := by
  rw [State.bootHeader_okA h2]
  have hf : Frame [.reg A.CFG_BOOT] [] s (s.put F.CFG_BOOT_GEN_A (imgGen h)) := .put .refl rfl
  refine ⟨?_, rfl, rfl, hf.regsBut rfl⟩
  exact (State.get_put_self (f := F.CFG_BOOT_GEN_A) hs (by decide)).trans (Nat.mod_eq_of_lt (imgGen_lt h))

theorem State.bootHeader_badA {s : State} (hs : s.Wf) (h2 : s.cfg.bootStep = 2) {r : Nat} (hr : r < 32) :
    (s.bootHeader (.error r)).get F.CFG_BOOT_REASON_REASON_A = r ∧
      (s.bootHeader (.error r)).frec Code.CFG_SLOT_BAD = (s.raise Code.CFG_SLOT_BAD 0).frec Code.CFG_SLOT_BAD ∧
      (s.bootHeader (.error r)).cfg.hdrA = s.cfg.hdrA ∧ (s.bootHeader (.error r)).cfg.bootStep = 3 ∧
      (s.bootHeader (.error r)).cfg.bootTicks = 0 ∧ RegsBut [A.CFG_BOOT_REASON] s (s.bootHeader (.error r)) := by
  rw [State.bootHeader_errorA h2]
  have hf := s.slotFail_frame 1 r
  have hcfg : (s.slotFail 1 r).cfg = s.cfg := hf.part .cfg rfl
  exact ⟨State.slotFail_reasonA hs hr, s.slotFail_frec 1 r, (congrArg Cfg.hdrA hcfg :), rfl, rfl, hf.regsBut rfl⟩

/-- Step 3 with a good header: the body of the newer slot follows. -/
theorem State.bootHeader_goodB {s : State} (hs : s.Wf) (h3 : s.cfg.bootStep = 3) (h : List Byte) :
    (s.bootHeader (.ok h)).get F.CFG_BOOT_GEN_B = imgGen h ∧ (s.bootHeader (.ok h)).cfg.bootStep = 4 ∧
      (∀ a, s.cfg.hdrA = some a → (s.bootHeader (.ok h)).cfg.slot = if imgGen a < imgGen h then 2 else 1) ∧
      (s.cfg.hdrA = none → (s.bootHeader (.ok h)).cfg.slot = 2) := by
  rw [State.bootHeader_B s h3]
  have hgen : (s.put F.CFG_BOOT_GEN_B (imgGen h)).get F.CFG_BOOT_GEN_B = imgGen h :=
    (State.get_put_self (f := F.CFG_BOOT_GEN_B) hs (by decide)).trans (Nat.mod_eq_of_lt (imgGen_lt h))
  have hfirst : (s.gotHeaderB h).firstSlot =
      match s.cfg.hdrA with
      | some a => some (if imgGen a < imgGen h then 2 else 1)
      | none => some 2 := by
    unfold State.firstSlot State.gotHeaderB
    cases s.cfg.hdrA <;> rfl
  dsimp only
  rw [hfirst]
  cases ha : s.cfg.hdrA with
  | none => exact ⟨hgen, rfl, nofun, fun _ => rfl⟩
  | some a => exact ⟨hgen, rfl, fun _ he => by cases he; rfl, nofun⟩

/-- Step 3 with a bad header and none good before: there is no image. -/
theorem State.bootHeader_none {s : State} (hr : SparseWf faultDefault s.flt.recs) (h3 : s.cfg.bootStep = 3) (ha : s.cfg.hdrA = none)
    (hb : s.cfg.hdrB = none) (r : Nat) :
    (s.bootHeader (.error r)).frec Code.CFG_SLOT_BAD = (s.raise Code.CFG_SLOT_BAD 1).frec Code.CFG_SLOT_BAD ∧
      (s.bootHeader (.error r)).frec Code.CFG_NO_IMAGE = (s.raise Code.CFG_NO_IMAGE 0).frec Code.CFG_NO_IMAGE ∧
      (s.bootHeader (.error r)).cfg.bootStep = 5 := by
  have hcfg : (s.slotFail 2 r).cfg = s.cfg := (s.slotFail_frame 2 r).part .cfg rfl
  have hfirst : (s.slotFail 2 r).firstSlot = none := by
    unfold State.firstSlot
    rw [hcfg, ha, hb]
  have he : s.bootHeader (.error r) = ((s.slotFail 2 r).raise Code.CFG_NO_IMAGE 0).bootGo 5 := by
    rw [State.bootHeader_B s h3]
    dsimp only
    rw [hfirst]
    rfl
  rw [he]
  have hput : SparseWf faultDefault (s.put (reasonField 2) r).flt.recs := hr
  refine ⟨(State.frec_raise_ne (by decide)).trans (s.slotFail_frec 2 r), ?_, rfl⟩
  refine State.frec_raise_congr hr ?_ (State.frec_raise_ne (s := s.put (reasonField 2) r) (by decide))
  exact State.raise_recs hput

/-! ### The entry of IDLE -/

theorem State.setRemoval_island (s : State) : Frame islandSpans islandParts s s.setRemoval :=
  .op (State.safRefresh_frame _) (.op (State.driveLrm_frame _ _) (.put (.put .refl rfl) rfl) rfl) rfl

theorem State.ownC4Level_frame (s : State) (n x : Nat) : Frame islandSpans islandParts s (s.ownC4Level n x) :=
  .op (State.setRemoval_island _) (.assertF .refl rfl) rfl

theorem State.strapCompare_frame (s : State) : Frame (.reg A.SAF_SEAL :: islandSpans) islandParts s s.strapCompare := by
  unfold State.strapCompare
  extract_lets ok s1
  have h1 : Frame (.reg A.SAF_SEAL :: islandSpans) islandParts s s1 := .putB .refl rfl
  exact .ite .refl (.ite (.deassertF h1 rfl) (.ite h1 (.op (s1.ownC4Level_frame _ _) h1 rfl)))

theorem State.strapExpect_frame (s : State) (v : Nat) : Frame (.reg A.SAF_SEAL :: islandSpans) islandParts s (s.strapExpect v) := by
  have h : Frame (.reg A.SAF_SEAL :: islandSpans) islandParts s
      { s.put F.SAF_SEAL_EXPECT v with saf := { s.saf with strapKnown := true, expect := v } } :=
    .upd (t := s.put F.SAF_SEAL_EXPECT v) (.put .refl rfl) rfl id
  exact .ite (.saf .refl rfl rfl) (.op (State.strapCompare_frame _) h rfl)

theorem State.creditFull_frame (s : State) : Frame [.reg A.LUM_STATE] [.lum] s s.creditFull := s.setCredit_frame _

theorem State.enumAsk_frame (s : State) : Frame [.reg A.CVN_STATUS] [.cvn] s s.enumAsk :=
  .ite (.upd (t := s.put F.CVN_STATUS_ENUM_BUSY 1) (.put .refl rfl) rfl id) .refl

theorem State.floorWrite_frame (s : State) (n : Nat) : Frame [] [.nvmw] s (s.floorWrite n) := .nvmw .refl rfl rfl

/-- The registers that an image that has been loaded may touch beside its own. -/
def imageSpans : List Span := [.reg A.SAF_LOCK, .reg A.SAF_SEAL, .reg A.LUM_STATE, .reg A.CVN_STATUS] ++ islandSpans

/-- The parts that an image that has been loaded may touch. -/
def imageParts : List Part := [.lum, .cvn, .nvmw] ++ islandParts

/-- The image shows in CFG_STATUS, and what follows touches other registers. -/
theorem State.imageLoaded_after (s : State) (m : Image) (src : Nat) :
    Frame imageSpans imageParts (((s.put F.CFG_STATUS_LOADED 1).put F.CFG_STATUS_SOURCE src).put F.CFG_STATUS_GEN m.gen)
      (s.imageLoaded m src) := by
  unfold State.imageLoaded
  extract_lets s1 s2 s3
  have h2 : Frame imageSpans imageParts s1 s2 := .ite (.put .refl rfl) .refl
  have h3 : Frame imageSpans imageParts s1 s3 :=
    .op (State.enumAsk_frame _) (.op (State.creditFull_frame _) (.op (State.strapExpect_frame _ _) h2 rfl) rfl) rfl
  exact .ite (.op (State.floorWrite_frame _ _) h3 rfl) h3

theorem State.imageLoaded_frame (s : State) (m : Image) (src : Nat) :
    Frame (.reg A.CFG_STATUS :: imageSpans) imageParts s (s.imageLoaded m src) :=
  .op (s.imageLoaded_after m src) (.put (.put (.put .refl rfl) rfl) rfl) rfl

theorem State.imageLoaded_loaded {s : State} (hs : s.Wf) (m : Image) (src : Nat) :
    (s.imageLoaded m src).get F.CFG_STATUS_LOADED = 1 := by
  have h1 := State.put_wf (f := F.CFG_STATUS_LOADED) (v := 1) hs
  rw [(s.imageLoaded_after m src).get rfl, State.get_put_ne (State.put_wf h1) (by decide) (by decide),
    State.get_put_ne h1 (by decide) (by decide), State.get_put_self hs (by decide)]
  decide

theorem State.recAdopt_frame (s : State) (src : Option Nat) : Frame [.reg A.REC_SEQ] [.recd] s (s.recAdopt src) :=
  .put (.put (.recd .refl rfl) rfl) rfl

theorem State.recRestamp_frame (s : State) : Frame [.reg A.REC_PCC, .reg A.REC_STATUS] [.recd] s s.recRestamp :=
  .put (.put (.recd .refl rfl) rfl) rfl

theorem State.recLoad_frame (s : State) : Frame [.window 0x13] [.recd, .flt] s s.recLoad :=
  .op (State.recRestamp_frame _) (.op (State.recAdopt_frame _ _) (.ite (.raise .refl rfl) .refl) rfl) rfl

theorem State.dirFound_frame (s : State) (t : Nat) (r : DirRead) (i : FaultInfo) :
    Frame [.window 2] [.lmc, .freeCount, .flt] s (s.dirFound t r i) := by
  unfold State.dirFound State.setDir State.tick
  split
  · exact .refl
  · exact .raiseI (.inc .refl rfl) rfl
  · exact .raiseI (.upd .refl rfl id) rfl

theorem State.dirTouch_frame (s : State) (t : Nat) (i : FaultInfo) : Frame [.window 2] [.lmc, .freeCount, .flt] s (s.dirTouch t i) :=
  .lmc (s.dirFound_frame _ _ _) rfl

theorem State.sealWrite_frame (s : State) (j : SealJob) : Frame [.window 2] [.lmc] s (s.sealWrite j) :=
  .lmc (.put (.put (.put (.lmc .refl rfl) rfl) rfl) rfl) rfl

theorem State.sealEnd_frame (s : State) : Frame [.window 2] [.lmc, .freeCount, .flt] s s.sealEnd := by
  unfold State.sealEnd
  split
  · exact .refl
  · exact .op (State.sealWrite_frame _ _) (s.dirTouch_frame _ _) rfl

theorem State.afterSeal_frame (s : State) (ts : List Nat) : Frame [.window 2] [.lmc, .freeCount, .flt] s (s.afterSeal ts) := by
  unfold State.afterSeal
  split
  · exact .refl
  · exact .ite s.sealEnd_frame .refl

theorem State.migrateTile_frame (s : State) (t : Nat) : Frame [.window 2] [.lmc, .freeCount, .flt] s (s.migrateTile t) :=
  .ite (.raiseI (.lmc (s.dirTouch_frame _ _) rfl) rfl) (s.dirTouch_frame _ _)

theorem State.migrateCheck_frame (s : State) : ∀ ts : List Nat, Frame [.window 2] [.lmc, .freeCount, .flt] s (s.migrateCheck ts)
  | [] => .refl
  | t :: ts => (s.migrateTile_frame t).trans (State.migrateCheck_frame _ ts)

theorem State.migrateCopy_frame (s : State) (ts : List Nat) : Frame [.window 2] [.lmc, .freeCount, .flt] s (s.migrateCopy ts) :=
  (s.afterSeal_frame ts).trans (State.migrateCheck_frame _ ts)

theorem State.setMem_frame (s : State) (p : Nat) (on : Bool) : Frame [.reg A.PWR_DOM] [] s (s.setMem p on) :=
  .ite .refl (.put .refl rfl)

theorem State.nomadRest_frame (s : State) : Frame [.reg A.PWR_DOM] [.lmc] s s.nomadRest := by
  unfold State.nomadRest
  split
  · split
    · exact .lmc (.mono (s.setMem_frame _ _) rfl) rfl
    · exact .refl
  · exact .refl

/-- What a rotation that is abandoned does before its bank goes off. -/
theorem State.migrateAbandon_steps (s : State) :
    ∃ u, Frame [.window 2] [.lmc, .freeCount, .flt] s u ∧ s.migrateAbandon = u.nomadRest := by
  unfold State.migrateAbandon
  split
  · refine ⟨_, .put (.put (.op (State.migrateCopy_frame _ _) ?_ rfl) rfl) rfl, rfl⟩
    exact .upd .refl rfl id
  · exact ⟨s, .refl, rfl⟩

/-- A field of PWR_DOM beside MEM keeps its value where banks go on or off. -/
theorem State.get_setMem {s : State} (hs : s.Wf) (p : Nat) (on : Bool) {g : Field} (hg : g.hi < 4) :
    (s.setMem p on).get g = s.get g := by
  unfold State.setMem
  extract_lets m
  split
  · rfl
  · exact State.get_put_ne hs (by decide) (.inr (.inl hg))

theorem State.get_nomadRest {s : State} (hs : s.Wf) {g : Field} (hg : g.hi < 4) : s.nomadRest.get g = s.get g := by
  unfold State.nomadRest
  split
  · split
    · exact State.get_setMem hs _ _ hg
    · rfl
  · rfl

theorem State.get_forUpto_setMem {s : State} (hs : s.Wf) {g : Field} (hg : g.hi < 4) :
    ∀ n, (forUpto n (fun p s => s.setMem p true) s).get g = s.get g
  | 0 => rfl
  | n + 1 => by
    have hw := (Frame.forUpto (L := [.reg A.PWR_DOM]) (ps := []) (f := fun p s => State.setMem s p true) s (n := n)
      fun p s _ => s.setMem_frame p true).wf hs
    exact (State.get_setMem hw n true hg).trans (State.get_forUpto_setMem hs hg n)

theorem State.sealLost_frame (s : State) (r : Nat) : Frame [.window 2] [.lmc] s (s.sealLost r) := by
  unfold State.sealLost
  split
  · exact .refl
  · exact .lmc (.put (.put (.put .refl rfl) rfl) rfl) rfl

theorem State.tilesEmpty_frame (s : State) (r : Nat) : Frame [.window 2] [.lmc, .lmem] s (s.tilesEmpty r) := by
  have h : Frame [.window 2] [.lmc, .lmem] s (s.sealLost r) := .mono (s.sealLost_frame r) rfl
  exact h.upd rfl fun hw => ⟨hw.1, hw.2.1, sparseWf_nil, hw.2.2.2⟩

/-- What the start of the self-test may touch (R444). -/
def postSpans : List Span := [.window 2, .reg A.PWR_DOM, .reg A.BST_STATUS]

def postParts : List Part := [.lmc, .lmem, .freeCount, .bst, .flt]

/-- What the self-test notes as it starts. -/
def State.postRecords (s : State) (job : Bool) : State :=
  { s with bst := { s.bst with jobPost := job, stopPost := false, failed := !job && s.bst.failed },
           lmc := { s.lmc with nomadWait := false } }

theorem State.postRecords_frame (s : State) (job : Bool) : Frame [] [.bst, .lmc] s (s.postRecords job) := .upd .refl rfl id

/-- The self-test runs, and its first group is shown; the domains beside the banks stay. -/
theorem State.postStart_effect {s : State} (hs : s.Wf) (job : Bool) :
    Frame postSpans postParts s (s.postStart job) ∧ (s.postStart job).post = true ∧ (s.postStart job).get F.BST_STATUS_GROUP = 1 ∧
      ∀ g : Field, g.addr = A.PWR_DOM → g.hi < 4 → (s.postStart job).get g = s.get g := by
  obtain ⟨u, hu, he⟩ := s.migrateAbandon_steps
  have hn : Frame postSpans postParts s u.nomadRest := .op u.nomadRest_frame (.mono hu rfl) rfl
  have hng (g : Field) (ha : g.addr = A.PWR_DOM) (hg : g.hi < 4) : u.nomadRest.get g = s.get g :=
    (State.get_nomadRest (hu.wf hs) hg).trans (hu.get (by rw [ha]; rfl))
  have hnw := hn.wf hs
  unfold State.postStart
  rw [he]
  generalize u.nomadRest = v at *
  extract_lets s1 s2 s3
  change Frame postSpans postParts s ((s3.postRecords job).postGroup 1) ∧ ((s3.postRecords job).postGroup 1).post = true ∧
    ((s3.postRecords job).postGroup 1).get F.BST_STATUS_GROUP = 1 ∧
    ∀ g : Field, g.addr = A.PWR_DOM → g.hi < 4 → ((s3.postRecords job).postGroup 1).get g = s.get g
  have h1 : Frame [.window 2] [.lmc, .lmem] (v.put F.BST_STATUS_POST 1) s1 := .op (State.tilesEmpty_frame _ 3) (.put .refl rfl) rfl
  have hw1 := h1.wf (State.put_wf hnw)
  have h2 : Frame [.reg A.PWR_DOM] [] s1 s2 := .forUpto s1 fun p s _ => s.setMem_frame p true
  have h3 : Frame [.window 2] [.bst, .lmc] s2 (s3.postRecords job) :=
    .op (s3.postRecords_frame job) (.put (.put (.put .refl rfl) rfl) rfl) rfl
  have hw3 := h3.wf (h2.wf hw1)
  have hall : Frame postSpans postParts s (s3.postRecords job) := .op h3 (.op h2 (.op h1 (.put hn rfl) rfl) rfl) rfl
  refine ⟨.put hall rfl, ?_, State.get_put_self hw3 (by decide), fun g ha hg => ?_⟩
  · have hflag : ((s3.postRecords job).postGroup 1).get F.BST_STATUS_POST = 1 := by
      refine (State.get_put_ne hw3 (by decide) (by decide)).trans ?_
      rw [h3.get rfl, h2.get rfl, h1.get rfl, State.get_put_self hnw (by decide)]
      decide
    exact bne_iff_ne.2 (hflag.trans_ne (by decide))
  · have hout : covers [.window 2] g.addr = false := by rw [ha]; rfl
    refine (State.get_put_addr (by rw [ha]; decide)).trans ?_
    rw [h3.get hout]
    refine (State.get_forUpto_setMem hw1 hg 17).trans ?_
    rw [h1.get hout, State.get_put_addr (by rw [ha]; decide)]
    exact hng g ha hg

theorem State.bootCheckpoint_frame (s : State) : Frame [.window 0x13] [.recd] s s.bootCheckpoint := by
  have h : Frame [.window 0x13] [.recd] s { s with recd := { s.recd with cpReqBoot := true } } := .recd .refl rfl
  exact .ite (.put h rfl) (.recd h rfl)

/-- What the entry of IDLE from BOOT may touch. -/
def idleSpans : List Span := [.reg A.PWR_STATUS, .window 0x13] ++ irqSpans ++ postSpans

def idleParts : List Part := [.lnk, .recd] ++ postParts

/-- IDLE is entered from BOOT (R426, R444). -/
theorem State.idleFromBoot_effect {s : State} (hs : s.Wf) (hp : s.power ≠ 3) :
    Frame idleSpans idleParts s s.idleFromBoot ∧ s.idleFromBoot.get F.PWR_STATUS_STATE = 3 ∧
      s.idleFromBoot.get F.PWR_DOM_LNK = 1 ∧ s.idleFromBoot.get F.PWR_DOM_PLL = 1 ∧ s.idleFromBoot.post = true ∧
      s.idleFromBoot.get F.BST_STATUS_GROUP = 1 ∧ (s.idleFromBoot.reg A.GLB_IRQ_STATUS).getLsbD 20 = true := by
  unfold State.idleFromBoot
  extract_lets s1
  have hdom : Frame [.reg A.PWR_DOM] [] s ((s.put F.PWR_DOM_LNK 1).put F.PWR_DOM_PLL 1) := .put (.put .refl rfl) rfl
  have hwd := hdom.wf hs
  have hent : Frame (.reg A.PWR_STATUS :: irqSpans) [.lnk] ((s.put F.PWR_DOM_LNK 1).put F.PWR_DOM_PLL 1) s1 := State.enterState_frame _ _
  have hw1 := hent.wf hwd
  obtain ⟨hpost, hflag, hgroup, hget⟩ := State.postStart_effect hw1 false
  have hcp := (s1.postStart false).bootCheckpoint_frame
  have hev : (s1.reg A.GLB_IRQ_STATUS).getLsbD 20 = true := by
    exact State.enterState_event hwd (by rwa [State.power, hdom.get rfl])
  refine ⟨.op hcp (.op hpost (.op hent (.mono hdom rfl) rfl) rfl) rfl, ?_, ?_, ?_, ?_, (hcp.get rfl).trans hgroup, ?_⟩
  · rw [hcp.get rfl, hpost.get rfl]
    exact State.enterState_state hwd (by decide)
  · rw [hcp.get rfl, hget _ rfl (by decide), hent.get rfl, State.get_put_ne (State.put_wf hs) (by decide) (by decide),
      State.get_put_self hs (by decide)]
    decide
  · rw [hcp.get rfl, hget _ rfl (by decide), hent.get rfl, State.get_put_self (State.put_wf hs) (by decide)]
    decide
  · exact (hcp.flag rfl).trans hflag
  · exact hcp.events rfl (hpost.wf hw1) 20 (hpost.events rfl hw1 20 hev)

theorem State.bootGo_frame (s : State) (n : Nat) : Frame [] [.cfg] s (s.bootGo n) := .cfg .refl rfl rfl

/-- Step 6 enters IDLE, with the image of the boot shown. -/
theorem State.bootSignal_effect {s : State} (hs : s.Wf) (hp : s.power = 1) :
    s.bootSignal.get F.PWR_STATUS_STATE = 3 ∧ s.bootSignal.get F.PWR_DOM_LNK = 1 ∧ s.bootSignal.get F.PWR_DOM_PLL = 1 ∧
      s.bootSignal.post = true ∧ s.bootSignal.get F.BST_STATUS_GROUP = 1 ∧ s.bootSignal.cfg.bootStep = 0 ∧
      (s.bootSignal.reg A.GLB_IRQ_STATUS).getLsbD 20 = true ∧
      (s.cfg.image.isNone = true → s.bootSignal.get F.CFG_STATUS_LOADED = s.get F.CFG_STATUS_LOADED) ∧
      ∀ m, s.cfg.image = some m → s.bootSignal.get F.CFG_STATUS_LOADED = 1 := by
  unfold State.bootSignal
  extract_lets s1 s2
  have h1 : Frame (.reg A.CFG_STATUS :: imageSpans) imageParts s s1 := by
    unfold s1
    split
    · exact s.imageLoaded_frame _ _
    · exact .refl
  have h2 : Frame [.window 0x13] [.recd, .flt, .cfg] s1 (s2.recLoad.bootGo 0) :=
    .op (State.bootGo_frame _ 0) (.op s2.recLoad_frame (.ite (.raise .refl rfl) .refl) rfl) rfl
  have hw := h2.wf (h1.wf hs)
  have hpow : (s2.recLoad.bootGo 0).power ≠ 3 := by
    rw [State.power, h2.get rfl, h1.get rfl]
    exact fun h => absurd (hp.symm.trans h) (by decide)
  obtain ⟨hidle, hst, hlnk, hpll, hpost, hgroup, hev⟩ := State.idleFromBoot_effect hw hpow
  refine ⟨hst, hlnk, hpll, hpost, hgroup, congrArg Cfg.bootStep (hidle.part .cfg rfl), hev, fun hn => ?_, fun m hm => ?_⟩
  · have he : s1 = s := by
      unfold s1
      rw [Option.isNone_iff_eq_none.1 hn]
    rw [hidle.get rfl, h2.get rfl, he]
  · have he : s1 = s.imageLoaded m s.cfg.slot := by
      unfold s1
      rw [hm]
    rw [hidle.get rfl, h2.get rfl, he]
    exact State.imageLoaded_loaded hs m _

theorem execBootStepDone_fuses {b : BootIn} {s : State} (hp : s.power = 1) (hf : s.frozen = false) (h : s.cfg.bootStep = 1) :
    exec (.bootStepDone b) s = .next (s.bootFuses b.voteBad) :=
  (execBootStepDone_on hp hf).trans (by simp only [h])

theorem execBootStepDone_header {b : BootIn} {s : State} (hp : s.power = 1) (hf : s.frozen = false)
    (h : s.cfg.bootStep = 2 ∨ s.cfg.bootStep = 3) :
    exec (.bootStepDone b) s = .next (s.bootHeader (if headerOk b.bytes then .ok (b.bytes.take 32) else .error Reason.header)) :=
  (execBootStepDone_on hp hf).trans (by rcases h with h | h <;> simp only [h])

theorem execBootStepDone_goodHeader {b : BootIn} {s : State} (hp : s.power = 1) (hf : s.frozen = false)
    (h : s.cfg.bootStep = 2 ∨ s.cfg.bootStep = 3) (hok : headerOk b.bytes = true) :
    exec (.bootStepDone b) s = .next (s.bootHeader (.ok (b.bytes.take 32))) := by
  rw [execBootStepDone_header hp hf h, if_pos hok]

theorem execBootStepDone_badHeader {b : BootIn} {s : State} (hp : s.power = 1) (hf : s.frozen = false)
    (h : s.cfg.bootStep = 2 ∨ s.cfg.bootStep = 3) (hbad : headerOk b.bytes = false) :
    exec (.bootStepDone b) s = .next (s.bootHeader (.error Reason.header)) := by
  rw [execBootStepDone_header hp hf h, if_neg (by simp [hbad])]

theorem execBootStepDone_signal {b : BootIn} {s : State} (hp : s.power = 1) (hf : s.frozen = false) (h : s.cfg.bootStep = 6) :
    exec (.bootStepDone b) s = .next s.bootSignal :=
  (execBootStepDone_on hp hf).trans (by simp only [h])

theorem execBootStepTimeout_header {s : State} (hp : s.power = 1) (hf : s.frozen = false) (ht : timeUp s.cfg.bootTicks 1000 = true)
    (h2 : s.cfg.bootStep = 2) : exec .bootStepTimeout s = .next (s.bootHeader (.error Reason.timeout)) := by
  have hl : bootLimit s.cfg.bootStep = some 1000 := by rw [h2]; rfl
  refine congrArg Host.Outcome.next ?_
  simp only [hl]
  refine (if_neg (by simp [hp, hf, ht, Power.boot])).trans ?_
  simp only [h2]

/-- RESET_N is found released. -/
def State.pinHigh (s : State) : State := { s with pwr := { s.pwr with resetN := true } }

/-- VDD is found back. -/
def State.vddHigh (s : State) : State := { s with pwr := { s.pwr with vddOk := true } }

theorem execResetNRelease_pin {s : State} (vddio : Nat) (hr : s.pwr.resetN = false) (hv : s.pwr.vddOk = true) :
    exec (.resetNRelease false vddio) s = .next (s.pinHigh.release vddio) :=
  congrArg Host.Outcome.next (((if_neg (by simp)).trans (if_neg (by simp [hr]))).trans (if_pos hv))

theorem execResetNRelease_waits {s : State} (vddio : Nat) (hr : s.pwr.resetN = false) (hv : s.pwr.vddOk = false) :
    exec (.resetNRelease false vddio) s = .next s.pinHigh :=
  congrArg Host.Outcome.next (((if_neg (by simp)).trans (if_neg (by simp [hr]))).trans (if_neg (by simp [hv])))

theorem execResetNRelease_vdd {s : State} (vddio : Nat) (hr : s.pwr.resetN = true) (hv : s.pwr.vddOk = false) :
    exec (.resetNRelease true vddio) s = .next (s.vddHigh.release vddio) :=
  congrArg Host.Outcome.next (((if_pos rfl).trans (if_neg (by simp [hv]))).trans (if_pos hr))

/-- A release boots the module, whichever of the two pins was the last to come. -/
theorem release_completes {c : Instr} {s u : State} {vddio : Nat} (hu : u.Wf) (he : exec c s = .next (u.release vddio)) :
    ∃ t, exec c s = .next t ∧ Boots u vddio t := ⟨_, he, State.release_boots hu vddio⟩

/-- Settles O48: the resets, the release, and each step of the loader. -/
theorem resetAndBoot : Obligations.ResetAndBoot := by
  refine ⟨fun s hs hp _ => ⟨fun hr => ?_, fun hv => ?_⟩, fun vddio s hs => ⟨fun hr hv => ?_, fun hr hv => ?_, fun hr hv => ?_⟩,
    fun b s hs hrec hp hf => ⟨fun h1 => ?_, fun h2 hok => ?_, fun h2 hbad => ?_, fun h3 hok => ?_, fun h3 hbad ha hb => ?_, fun h6 => ?_⟩,
    fun s hs _ hp hf ht h2 => ?_⟩
  · obtain ⟨t, he, h, hrn, hg1, hg2⟩ := resetNLow_off hs hp hr
    exact ⟨t, he, ⟨h.state, h.step, h.lmem, h.ras, h.msk, h.lnk, h.spi, h.port, h.cvn, h.reg, h.events, h.nvm⟩, hrn, hg1, hg2⟩
  · obtain ⟨t, he, h, hvdd, hg⟩ := vddBelowThreshold_off hs hp hv
    exact ⟨t, he, ⟨h.state, h.step, h.lmem, h.ras, h.msk, h.lnk, h.spi, h.port, h.cvn, h.reg, h.events, h.nvm⟩, hvdd, hg⟩
  · obtain ⟨t, he, h⟩ := release_completes (u := s.pinHigh) hs (execResetNRelease_pin vddio hr hv)
    exact ⟨t, he, h.state, h.step, h.ticks, h.core, h.mem, h.lnk, h.pix, h.pll, h.strapRead, h.grant, h.vddio, h.resetN,
      h.vddOk.trans hv, h.nvm, h.enable⟩
  · obtain ⟨t, he, h⟩ := release_completes (u := s.vddHigh) hs (execResetNRelease_vdd vddio hr hv)
    exact ⟨t, he, h.state, h.step, h.ticks, h.core, h.mem, h.lnk, h.pix, h.pll, h.strapRead, h.grant, h.vddio, h.resetN.trans hr,
      h.vddOk, h.nvm, h.enable⟩
  · exact execResetNRelease_waits vddio hr hv
  · obtain ⟨hlc, hticks, hstep, hfuse⟩ := State.bootFuses_effect hs b.voteBad
    exact ⟨s.bootFuses b.voteBad, execBootStepDone_fuses hp hf h1, hlc, hticks, hstep, hfuse⟩
  · obtain ⟨hgen, hhdr, hstep, hregs⟩ := State.bootHeader_goodA hs h2 (b.bytes.take 32)
    exact ⟨_, execBootStepDone_goodHeader hp hf (.inl h2) hok, hgen, hhdr, hstep, hregs⟩
  · obtain ⟨hr, hfr, hhdr, hstep, -, hregs⟩ := State.bootHeader_badA hs h2 (r := Reason.header) (by decide)
    exact ⟨_, execBootStepDone_badHeader hp hf (.inl h2) hbad, hr, hfr, hhdr, hstep, hregs⟩
  · obtain ⟨hgen, hstep, hsome, hnone⟩ := State.bootHeader_goodB hs h3 (b.bytes.take 32)
    exact ⟨_, execBootStepDone_goodHeader hp hf (.inr h3) hok, hgen, hstep, hsome, hnone⟩
  · obtain ⟨hbadRec, hnoImage, hstep⟩ := State.bootHeader_none hrec h3 ha hb Reason.header
    exact ⟨_, execBootStepDone_badHeader hp hf (.inr h3) hbad, hbadRec, hnoImage, hstep⟩
  · exact ⟨_, execBootStepDone_signal hp hf h6, State.bootSignal_effect hs hp⟩
  · obtain ⟨hr, hfr, -, hstep, hticks, -⟩ := State.bootHeader_badA hs h2 (r := Reason.timeout) (by decide)
    exact ⟨_, execBootStepTimeout_header hp hf ht h2, hr, hfr, hstep, hticks⟩

end Sys2Proof.Machine
end

section
/-!
The straps, the oasis copies and the reset of the island (R274, R293, R294, R296, R389).
-/

namespace Sys2Proof.Machine

/-! ### The strap read (R296) -/

/-- In INIT light removal leaves the state of the island and the strap read alone. -/
theorem State.setRemoval_init {s : State} (hs : s.Wf) (h0 : s.safState = 0) :
    s.setRemoval.safState = 0 ∧ s.setRemoval.saf.sealTick = s.saf.sealTick := by
  have hst : s.lrmRemoved.safState = 0 := (State.get_lrmRemoved hs rfl (by decide) (by decide)).trans h0
  have hraw : s.lrmRemoved.safRefreshRaw = s.lrmRemoved := by
    unfold State.safRefreshRaw
    exact if_pos (by simp [hst, Isl.init])
  have htrack := State.netsTrack_frame s.lrmRemoved
  rw [State.setRemoval_eq, hraw]
  refine ⟨(htrack.get rfl).trans hst, (congrArg Saf.sealTick (htrack.part .saf rfl) :).trans ?_⟩
  refine (congrArg Saf.sealTick (State.driveLrm_saf ((s.put F.SAF_STATE_REMOVE_LATCH 1).put F.SAF_STATE_RELIGHT_WAIT 0) false)).trans ?_
  split <;> rfl

/-- From `s` to `t` the result of the strap read stands and the island stays in INIT. -/
structure KeepsRead (s t : State) : Prop where
  wf : t.Wf
  state : t.safState = s.safState
  tick : t.saf.sealTick = s.saf.sealTick
  read : ∀ g : Field, g.addr = A.SAF_SEAL → g.hi < 16 ∨ 24 < g.lo → t.get g = s.get g

theorem KeepsRead.frame {L : List Span} {ps : List Part} {s t u : State} (h : KeepsRead s t) (hf : Frame L ps t u)
    (hL : (covers L A.SAF_SEAL || covers L A.SAF_STATE || ps.contains .saf) = false) : KeepsRead s u := by
  simp only [Bool.or_eq_false_iff] at hL
  obtain ⟨⟨hseal, hstate⟩, hsaf⟩ := hL
  exact ⟨hf.wf h.wf, (hf.get hstate).trans h.state, (congrArg Saf.sealTick (hf.part .saf hsaf) :).trans h.tick,
    fun g ha hg => (hf.get (by rwa [ha])).trans (h.read g ha hg)⟩

/-- A field of the straps beside those that the read gives is written. -/
theorem KeepsRead.put {s t : State} (h : KeepsRead s t) {f : Field} {v : Nat} (ha : f.addr = A.SAF_SEAL) (hl : 16 ≤ f.lo ∧ f.lo ≤ f.hi)
    (hh : f.hi ≤ 24) : KeepsRead s (t.put f v) :=
  ⟨State.put_wf h.wf, (State.get_put_addr (by rw [ha]; decide)).trans h.state, h.tick, fun g hga hg =>
    (State.get_put_ne h.wf (by omega) (.inr (by omega))).trans (h.read g hga hg)⟩

theorem KeepsRead.ownC4Level {s t : State} (h : KeepsRead s t) (h0 : s.safState = 0) (n x : Nat) : KeepsRead s (t.ownC4Level n x) := by
  have ha : KeepsRead s (t.assertF n x) := h.frame (.assertF (L := []) (ps := [.flt]) .refl rfl) rfl
  obtain ⟨hstate, htick⟩ := State.setRemoval_init ha.wf (ha.state.trans h0)
  have hf := (t.assertF n x).setRemoval_island
  exact ⟨hf.wf ha.wf, hstate.trans h0.symm, htick.trans ha.tick, fun g hga hg => (hf.get (by rw [hga]; rfl)).trans (ha.read g hga hg)⟩

theorem KeepsRead.strapCompare {s t : State} (h : KeepsRead s t) (h0 : s.safState = 0) : KeepsRead s t.strapCompare := by
  unfold State.strapCompare
  extract_lets ok s1
  have h1 : KeepsRead s s1 := h.put (f := F.SAF_SEAL_MATCH) rfl (by decide) (by decide)
  split
  · exact h
  split
  · exact h1.frame (.deassertF (L := []) (ps := [.flt]) .refl rfl) rfl
  split
  · exact h1
  · exact h1.ownC4Level h0 _ _

theorem State.masterPosition_frame (s : State) : Frame [.window 0xE] [] s s.masterPosition := .ite (.put (.putB .refl rfl) rfl) .refl

theorem State.cvnStraps_frame (s : State) : Frame [.window 0xE] [.cvn] s s.cvnStraps := by
  unfold State.cvnStraps
  extract_lets v was s1 s2
  have h1 : Frame [.window 0xE] [.cvn] s s1 := .putB (.putB (.putB .refl rfl) rfl) rfl
  have h2 : Frame [.window 0xE] [.cvn] s s2 := .ite (.put h1 rfl) (.op s1.masterPosition_frame h1 rfl)
  exact .ite (.op s2.enumAsk_frame h2 rfl) h2

/-- The samples have been taken over, as the registers show them. -/
def State.strapsTaken (s : State) : State :=
  { ((s.put F.SAF_SEAL_VALUE (strapValue s.saf.sealHi s.saf.sealLo)).put F.SAF_SEAL_OPEN (s.saf.sealHi ^^^ s.saf.sealLo).toNat).put
      F.SAF_SEAL_READ_DONE 1 with saf := { s.saf with sealTick := none } }

theorem execSealLatch_init {s : State} (hs : s.Wf) (hon : s.safOn = true) (ht : s.saf.sealTick = some 21) (h0 : s.safState = 0) :
    ∃ t, exec .sealLatch s = .next t ∧ KeepsRead s.strapsTaken t := by
  let s1 := s.strapsTaken.cvnStraps
  have hw : s.strapsTaken.Wf := State.put_wf (State.put_wf (State.put_wf hs))
  have hst : s.strapsTaken.safState = 0 :=
    (Frame.get (f := F.SAF_STATE_STATE) (L := [.reg A.SAF_SEAL]) (ps := []) (.put (.put (.put .refl rfl) rfl) rfl) rfl).trans h0
  have h1 : KeepsRead s.strapsTaken s1 := KeepsRead.frame ⟨hw, rfl, rfl, fun _ _ _ => rfl⟩ s.strapsTaken.cvnStraps_frame rfl
  have hinit : s1.safState = Isl.init := h1.state.trans hst
  let s3 := if (s.saf.sealHi ^^^ s.saf.sealLo).toNat = 0 then s1.deassertF Code.SAF_SEAL_OPEN
      else if s1.stands Code.SAF_SEAL_OPEN then s1 else s1.ownC4Level Code.SAF_SEAL_OPEN 0
  have h3 : KeepsRead s.strapsTaken s3 := by
    unfold s3
    split
    · exact h1.frame (.deassertF (L := []) (ps := [.flt]) .refl rfl) rfl
    split
    · exact h1
    · exact h1.ownC4Level hst _ _
  let s4 := if s3.saf.strapKnown then s3.put F.SAF_SEAL_EXPECT s3.saf.expect else s3
  have h4 : KeepsRead s.strapsTaken s4 := by
    unfold s4
    split
    · exact h3.put (f := F.SAF_SEAL_EXPECT) rfl (by decide) (by decide)
    · exact h3
  refine ⟨s4.strapCompare, ?_, h4.strapCompare hst⟩
  refine congrArg Host.Outcome.next ((if_pos (by simp [hon, ht])).trans ?_)
  have hgo : (if s1.safState = Isl.init then s1 else s1.tdmLeaveInit.safRefresh) = s1 := if_pos hinit
  change State.strapCompare (let s2 := (if s1.safState = Isl.init then s1 else s1.tdmLeaveInit.safRefresh)
    let s3 := if (s.saf.sealHi ^^^ s.saf.sealLo).toNat = 0 then s2.deassertF Code.SAF_SEAL_OPEN
      else if s2.stands Code.SAF_SEAL_OPEN then s2 else s2.ownC4Level Code.SAF_SEAL_OPEN 0
    if s3.saf.strapKnown then s3.put F.SAF_SEAL_EXPECT s3.saf.expect else s3) = _
  rw [hgo]

/-- Straps that agree are taken as they are. -/
theorem strapValue_same (v : Byte) : strapValue v v = v.toNat := by
  simp [strapValue]

/-- Where one of the two lowest straps is open, both read 0. -/
theorem strapValue_open {hi lo : Byte} (h : (hi ^^^ lo) &&& 3 ≠ 0) : strapValue hi lo % 4 = 0 := by
  have hmask : ∀ v : Byte, (v &&& 0xFC#8).toNat % 4 = 0 := by decide
  unfold strapValue
  extract_lets opens v v'
  have hv : v' = v &&& 0xFC#8 := if_pos h
  rw [hv]
  exact hmask v

theorem strapValue_lt (hi lo : Byte) : strapValue hi lo < 2 ^ 8 := BitVec.isLt _

theorem State.strapsTaken_get {s : State} (hs : s.Wf) :
    s.strapsTaken.get F.SAF_SEAL_READ_DONE = 1 ∧ s.strapsTaken.get F.SAF_SEAL_OPEN = (s.saf.sealHi ^^^ s.saf.sealLo).toNat ∧
      s.strapsTaken.get F.SAF_SEAL_VALUE = strapValue s.saf.sealHi s.saf.sealLo := by
  have h1 := State.put_wf (f := F.SAF_SEAL_VALUE) (v := strapValue s.saf.sealHi s.saf.sealLo) hs
  have h2 := State.put_wf (f := F.SAF_SEAL_OPEN) (v := (s.saf.sealHi ^^^ s.saf.sealLo).toNat) h1
  refine ⟨(State.get_put_self h2 (by decide)).trans (by decide), (State.get_put_ne h2 (by decide) (by decide)).trans ?_,
    (State.get_put_ne h2 (by decide) (by decide)).trans ?_⟩
  · exact (State.get_put_self h1 (by decide)).trans (Nat.mod_eq_of_lt (BitVec.isLt _))
  · refine (State.get_put_ne h1 (by decide) (by decide)).trans ?_
    exact (State.get_put_self hs (by decide)).trans (Nat.mod_eq_of_lt (strapValue_lt _ _))

theorem execSealReadStart_off {s : State} (h : s.saf.vddioIn = false) : exec .sealReadStart s = .next s :=
  congrArg Host.Outcome.next (if_neg (by simp [h]))

theorem sealReadStart_starts {s : State} (hs : s.Wf) (hon : s.safOn = true) (hw : s.saf.sealWant = true) (hv : s.saf.vddioIn = true) :
    ∃ t, exec .sealReadStart s = .next t ∧ t.get F.SAF_SEAL_READ_DONE = 0 ∧ t.saf.sealWant = false ∧ t.saf.sealTick = some 0 ∧
      RegsBut [A.SAF_SEAL] s t := by
  have hf : Frame [.reg A.SAF_SEAL] [] s (s.put F.SAF_SEAL_READ_DONE 0) := .put .refl rfl
  refine ⟨_, congrArg Host.Outcome.next (if_pos (by simp [hon, hw, hv])), ?_, rfl, rfl, hf.regsBut rfl⟩
  exact (State.get_put_self (f := F.SAF_SEAL_READ_DONE) hs (by decide)).trans (by decide)

theorem sealLatch_takes {s : State} (hs : s.Wf) (hon : s.safOn = true) (ht : s.saf.sealTick = some 21) (h0 : s.safState = 0) :
    ∃ t, exec .sealLatch s = .next t ∧ t.get F.SAF_SEAL_READ_DONE = 1 ∧ t.saf.sealTick = none ∧ t.safState = 0 ∧
      t.get F.SAF_SEAL_OPEN = (s.saf.sealHi ^^^ s.saf.sealLo).toNat ∧
      (s.saf.sealHi = s.saf.sealLo → t.get F.SAF_SEAL_VALUE = s.saf.sealHi.toNat) ∧
      ((s.saf.sealHi ^^^ s.saf.sealLo) &&& 3 ≠ 0 → t.get F.SAF_SEAL_VALUE % 4 = 0) := by
  obtain ⟨t, he, h⟩ := execSealLatch_init hs hon ht h0
  obtain ⟨hdone, hopen, hvalue⟩ := State.strapsTaken_get hs
  have hst : s.strapsTaken.safState = 0 :=
    (Frame.get (f := F.SAF_STATE_STATE) (L := [.reg A.SAF_SEAL]) (ps := []) (.put (.put (.put .refl rfl) rfl) rfl) rfl).trans h0
  have hv : t.get F.SAF_SEAL_VALUE = strapValue s.saf.sealHi s.saf.sealLo := (h.read _ rfl (by decide)).trans hvalue
  refine ⟨t, he, (h.read _ rfl (by decide)).trans hdone, h.tick, h.state.trans hst, (h.read _ rfl (by decide)).trans hopen,
    fun hagree => ?_, fun hop => ?_⟩
  · rw [hv, hagree, strapValue_same]
  · rw [hv]
    exact strapValue_open hop

end Sys2Proof.Machine
end

section
/-!
The oasis copies (R57, R293, R294): the check of the boot, and the check of a row in use.
-/

namespace Sys2Proof.Machine

/-! ### The copies found good at the boot -/

theorem bitOf_eq_testBit (n i : Nat) : bitOf n i = n.testBit i := by
  rw [Nat.testBit_eq_decide_div_mod_eq, bitOf]
  rfl

/-- The check of the boot looks at the non-volatile memory alone. -/
theorem State.oasisCopyGood_congr {s t : State} (h : t.nvm = s.nvm) (b k : Nat) : t.oasisCopyGood b k = s.oasisCopyGood b k := by
  simp only [State.oasisCopyGood, State.oasisTableOk, State.oasisRowOk, State.nvBytes, State.nvWord, State.nvByte, h]

theorem State.oasisBootCopy_frame (s : State) (i : Nat) : Frame [.reg A.SAF_OASIS_STATUS] [.flt] s (s.oasisBootCopy i) :=
  .ite (.put .refl rfl) (.raise .refl rfl)

/-- After the first `n` copies VALID shows those of them that are good. -/
structure CopiesChecked (s : State) (n : Nat) (t : State) : Prop where
  frame : Frame [.reg A.SAF_OASIS_STATUS] [.flt] s t
  bound : t.get F.SAF_OASIS_STATUS_VALID < 2 ^ n
  valid : ∀ i, i < n → (t.get F.SAF_OASIS_STATUS_VALID).testBit i = s.oasisCopyGood (i / 2) (i % 2)

theorem CopiesChecked.step {s t : State} {n : Nat} (hs : s.Wf) (hn : n < 8) (h : CopiesChecked s n t) :
    CopiesChecked s (n + 1) (t.oasisBootCopy n) := by
  obtain ⟨hf, hb, hv⟩ := h
  have hgood : t.oasisCopyGood (n / 2) (n % 2) = s.oasisCopyGood (n / 2) (n % 2) := State.oasisCopyGood_congr (hf.part .nvm rfl) _ _
  have hf' : Frame [.reg A.SAF_OASIS_STATUS] [.flt] s (t.oasisBootCopy n) := hf.trans (t.oasisBootCopy_frame n)
  have hpow : (2 : Nat) ^ (n + 1) = 2 ^ n + 2 ^ n := by rw [Nat.pow_succ]; omega
  have hle : (2 : Nat) ^ (n + 1) ≤ 2 ^ 8 := Nat.pow_le_pow_right (by decide) hn
  cases hg : s.oasisCopyGood (n / 2) (n % 2) with
  | true =>
    have he : (t.oasisBootCopy n).get F.SAF_OASIS_STATUS_VALID = 2 ^ n + t.get F.SAF_OASIS_STATUS_VALID := by
      unfold State.oasisBootCopy
      rw [if_pos (hgood.trans hg), State.get_put_self (hf.wf hs) (by decide), Nat.add_comm]
      refine Nat.mod_eq_of_lt ?_
      change _ < 2 ^ 8
      omega
    refine ⟨hf', by omega, fun i hi => ?_⟩
    rw [he]
    by_cases hin : i = n
    · subst hin
      rw [Nat.testBit_two_pow_add_eq, Nat.testBit_lt_two_pow hb, hg]
      rfl
    · rw [Nat.testBit_two_pow_add_gt (by omega)]
      exact hv i (by omega)
  | false =>
    have he : (t.oasisBootCopy n).get F.SAF_OASIS_STATUS_VALID = t.get F.SAF_OASIS_STATUS_VALID := by
      have hc : t.oasisBootCopy n = t.raise Code.SAF_OASIS_COPY 0 := if_neg (by simp [hgood.trans hg])
      rw [hc]
      exact Frame.get (L := []) (ps := [.flt]) (.raise .refl rfl) rfl
    refine ⟨hf', by omega, fun i hi => ?_⟩
    rw [he]
    by_cases hin : i = n
    · subst hin
      rw [Nat.testBit_lt_two_pow hb, hg]
    · exact hv i (by omega)

theorem copiesChecked_range {s : State} (hs : s.Wf) (h0 : s.get F.SAF_OASIS_STATUS_VALID = 0) :
    ∀ n, n ≤ 8 → CopiesChecked s n ((List.range n).foldl State.oasisBootCopy s)
  | 0, _ => by
    rw [List.range_zero, List.foldl_nil]
    exact ⟨.refl, by rw [h0]; decide, nofun⟩
  | n + 1, hn => by
    rw [List.range_succ, List.foldl_append, List.foldl_cons, List.foldl_nil]
    exact (copiesChecked_range hs h0 n (by omega)).step hs hn

/-- The check of the boot is complete. -/
def State.copiesShown (s : State) : State :=
  { s.put F.SAF_OASIS_STATUS_PREF_B (beamMask s.oasisPreferB) with
    saf := { s.saf with bootChecked := true, useB := BitVec.ofNat 4 (beamMask s.oasisUseB) } }

theorem State.copiesShown_frame (s : State) : Frame [.reg A.SAF_OASIS_STATUS] [.saf] s s.copiesShown := .saf (.put .refl rfl) rfl rfl

theorem State.copiesShown_valid {s : State} (hs : s.Wf) :
    s.copiesShown.get F.SAF_OASIS_STATUS_VALID = s.get F.SAF_OASIS_STATUS_VALID :=
  State.get_put_ne (f := F.SAF_OASIS_STATUS_PREF_B) hs (by decide) (by decide)

theorem execOasisBootCheck_init {s : State} (hon : s.safOn = true) (hrun : s.coreRun = true) (h0 : s.safState = 0)
    (hc : s.saf.bootChecked = false) :
    exec .oasisBootCheck s =
      .next ((List.range 8).foldl State.oasisBootCopy (s.put F.SAF_OASIS_STATUS_VALID 0)).copiesShown :=
  congrArg Host.Outcome.next (if_pos (by simp [hon, hrun, h0, hc, Isl.init]))

theorem oasisBootCheck_shows {s : State} (hs : s.Wf) (hon : s.safOn = true) (hrun : s.coreRun = true) (h0 : s.safState = 0)
    (hc : s.saf.bootChecked = false) :
    ∃ t, exec .oasisBootCheck s = .next t ∧ t.saf.bootChecked = true ∧
      (∀ b k, b < 4 → k < 2 → t.copyValid b k = s.oasisCopyGood b k) ∧ t.safState = 0 ∧
      RegsBut [A.SAF_OASIS_STATUS] s t ∧ SameMemory s t := by
  have hput : Frame [.reg A.SAF_OASIS_STATUS] [.flt] s (s.put F.SAF_OASIS_STATUS_VALID 0) := .put .refl rfl
  have hzero : (s.put F.SAF_OASIS_STATUS_VALID 0).get F.SAF_OASIS_STATUS_VALID = 0 :=
    (State.get_put_self hs (by decide)).trans (by decide)
  obtain ⟨hf, -, hv⟩ := copiesChecked_range (hput.wf hs) hzero 8 (by omega)
  rw [execOasisBootCheck_init hon hrun h0 hc]
  generalize (List.range 8).foldl State.oasisBootCopy (s.put F.SAF_OASIS_STATUS_VALID 0) = u at *
  have hall : Frame [.reg A.SAF_OASIS_STATUS] [.flt, .saf] s u.copiesShown :=
    .op u.copiesShown_frame (.op hf (.mono hput rfl) rfl) rfl
  refine ⟨_, rfl, rfl, fun b k hb hk => ?_, (hall.get rfl).trans h0, hall.regsBut rfl, hall.sameMemory rfl⟩
  unfold State.copyValid
  rw [State.copiesShown_valid (hf.wf (hput.wf hs)), bitOf_eq_testBit, hv _ (by omega), State.oasisCopyGood_congr (hput.part .nvm rfl)]
  congr 1 <;> omega

/-! ### The check of a row -/

theorem State.setUse_use (s : State) {b k : Nat} (hb : b < 4) (hk : k < 2) : (s.setUse b k).oasisUse b = k := by
  have hset : ∀ u : BitVec 4, ∀ i : Fin 4, (u ||| BitVec.ofNat 4 (2 ^ i.val)).getLsbD i.val = true ∧
      (u &&& ~~~ BitVec.ofNat 4 (2 ^ i.val)).getLsbD i.val = false := by decide
  obtain ⟨hor, hand⟩ := hset s.saf.useB ⟨b, hb⟩
  unfold State.oasisUse State.setUse
  dsimp only at hor hand ⊢
  by_cases h1 : k = 1
  · rw [if_pos h1, hor, h1]
    rfl
  · rw [if_neg h1, hand]
    have h0 : k = 0 := by omega
    rw [h0]
    rfl

/-- A copy that is marked leaves the mark of another alone. -/
theorem State.copyInvalid_valid {s : State} (hs : s.Wf) {b k : Nat} (hb : b < 4) (hk : k < 2) (h : s.copyValid b k = true) :
    (s.copyInvalid b k).copyValid b k = false ∧ (s.copyInvalid b k).copyValid b (1 - k) = s.copyValid b (1 - k) := by
  have hbit : (s.get F.SAF_OASIS_STATUS_VALID).testBit (2 * b + k) = true := by rwa [← bitOf_eq_testBit]
  have hlt : s.get F.SAF_OASIS_STATUS_VALID < 2 ^ 8 := s.get_lt _
  have he : (s.copyInvalid b k).get F.SAF_OASIS_STATUS_VALID = s.get F.SAF_OASIS_STATUS_VALID - 2 ^ (2 * b + k) := by
    unfold State.copyInvalid
    rw [if_pos h]
    refine (Frame.get (L := []) (ps := [.flt]) (.raise .refl rfl) rfl).trans ((State.get_put_self hs (by decide)).trans ?_)
    exact Nat.mod_eq_of_lt (Nat.lt_of_le_of_lt (Nat.sub_le _ _) hlt)
  unfold State.copyValid
  rw [he]
  have hdata : ∀ v : Fin 256, ∀ b : Fin 4, ∀ k : Fin 2, bitOf v.val (2 * b.val + k.val) = true →
      bitOf (v.val - 2 ^ (2 * b.val + k.val)) (2 * b.val + k.val) = false ∧
      bitOf (v.val - 2 ^ (2 * b.val + k.val)) (2 * b.val + (1 - k.val)) = bitOf v.val (2 * b.val + (1 - k.val)) := by decide +kernel
  exact hdata ⟨_, hlt⟩ ⟨b, hb⟩ ⟨k, hk⟩ h

/-- What the check of a row looks at beside VALID is the non-volatile memory. -/
theorem State.oasisRowOk_congr {s t : State} (h : t.nvm = s.nvm) (b k v : Nat) : t.oasisRowOk b k v = s.oasisRowOk b k v := by
  simp only [State.oasisRowOk, State.nvBytes, State.nvWord, State.nvByte, h]

theorem State.setUse_frame (s : State) (b k : Nat) : Frame [] [.saf] s (s.setUse b k) := .saf .refl rfl rfl

theorem State.oasisRowCheck_good {s : State} {b v : Nat} (hv : s.copyValid b (s.oasisUse b) = true)
    (hr : s.oasisRowOk b (s.oasisUse b) v = true) : (s.oasisRowCheck b v).1 = s := by
  unfold State.oasisRowCheck
  simp [hv, hr]

/-- A row of the copy in use fails and that of the other copy passes. -/
theorem State.oasisRowCheck_other {s : State} (hs : s.Wf) {b v : Nat} (hb : b < 4) (hv : s.copyValid b (s.oasisUse b) = true)
    (hr : s.oasisRowOk b (s.oasisUse b) v = false) (hv' : s.copyValid b (1 - s.oasisUse b) = true)
    (hr' : s.oasisRowOk b (1 - s.oasisUse b) v = true) :
    (s.oasisRowCheck b v).1 = (s.copyInvalid b (s.oasisUse b)).setUse b (1 - s.oasisUse b) := by
  have hk : s.oasisUse b < 2 := by unfold State.oasisUse b2n; split <;> decide
  have hf := s.copyInvalid_frame b (s.oasisUse b)
  obtain ⟨-, hother⟩ := State.copyInvalid_valid hs hb hk hv
  have hrow := State.oasisRowOk_congr (hf.part .nvm rfl) b (1 - s.oasisUse b) v
  unfold State.oasisRowCheck
  simp [hv, hr, hother, hv', hrow, hr']

theorem execOasisRowCheck_active {s : State} {v : BitVec 7} (hon : s.safOn = true) (hrun : s.coreRun = true)
    (hras : s.ras.running = true) (hv : v ≠ 0) (hsrc : s.get F.LUM_STATE_SOURCE = 1) :
    exec (.oasisRowCheck v) s = .next (s.oasisRowCheck (s.get F.LUM_STATE_BEAM) v.toNat).1 := by
  refine congrArg Host.Outcome.next ?_
  dsimp only
  rw [if_pos (by simp [hon, hrun, hras]), if_neg hv, if_pos (by simp [State.flag, hsrc])]

theorem oasisRowCheck_takes {s : State} (hs : s.Wf) {v : BitVec 7} {b k : Nat} (hb : b < 4) (hk : s.oasisUse b = k)
    (hexec : exec (.oasisRowCheck v) s = .next (s.oasisRowCheck b v.toNat).1) (hv : s.copyValid b k = true)
    (hr : s.oasisRowOk b k v.toNat = false) (hv' : s.copyValid b (1 - k) = true) (hr' : s.oasisRowOk b (1 - k) v.toNat = true) :
    ∃ t, exec (.oasisRowCheck v) s = .next t ∧ t.oasisUse b = 1 - k ∧ t.copyValid b k = false ∧ t.copyValid b (1 - k) = true ∧
      t.flt = (s.raise Code.SAF_OASIS_COPY 0).flt ∧ t.safState = s.safState ∧ RegsBut [A.SAF_OASIS_STATUS] s t := by
  subst hk
  have hk2 : s.oasisUse b < 2 := by unfold State.oasisUse b2n; split <;> decide
  obtain ⟨hbad, hother⟩ := State.copyInvalid_valid hs hb hk2 hv
  have hf : Frame [.reg A.SAF_OASIS_STATUS] [.flt, .saf] s ((s.copyInvalid b (s.oasisUse b)).setUse b (1 - s.oasisUse b)) :=
    .op (State.setUse_frame _ _ _) (.mono (s.copyInvalid_frame _ _) rfl) rfl
  have hflt : (s.copyInvalid b (s.oasisUse b)).flt = (s.raise Code.SAF_OASIS_COPY 0).flt := by
    unfold State.copyInvalid
    rw [if_pos hv]
    exact State.raise_flt (s := s) (y := s.put F.SAF_OASIS_STATUS_VALID _) rfl _ _
  refine ⟨_, hexec.trans (congrArg Host.Outcome.next (State.oasisRowCheck_other hs hb hv hr hv' hr')),
    State.setUse_use _ hb (by omega), hbad, hother.trans hv', hflt, hf.get rfl, hf.regsBut rfl⟩

end Sys2Proof.Machine
end

section
/-!
The reset of the island and its end (R57, R274, R389, R488), and the end of the clock-off grant (R38).
-/

namespace Sys2Proof.Machine

/-! ### The pairs of the island fall -/

theorem State.deassertF_recs {s : State} (h : SparseWf faultDefault s.flt.recs) (n : Nat) :
    SparseWf faultDefault (s.deassertF n).flt.recs := by
  unfold State.deassertF
  extract_lets r
  split
  · exact sparseWf_set _ _ h
  · exact h

theorem State.deassertF_level {s : State} (h : SparseWf faultDefault s.flt.recs) (n : Nat) : ((s.deassertF n).frec n).level = none := by
  unfold State.deassertF
  extract_lets r
  split
  · rw [State.frec_setFrec h]
  next hn => exact hn

/-- A pair that is down stays so where another falls. -/
theorem State.deassertF_level_ne {s : State} (n : Nat) {m : Nat} (hm : (s.frec m).level = none) : ((s.deassertF n).frec m).level = none := by
  unfold State.deassertF
  extract_lets r
  split
  next hr =>
    have hne : m ≠ n := by
      rintro rfl
      rw [hm] at hr
      cases hr
    exact (congrArg FaultRec.level (sparseGet_set_ne hne)).trans hm
  · exact hm

theorem State.levelsFall {s : State} (h : SparseWf faultDefault s.flt.recs) (base : Nat) :
    ∀ k, SparseWf faultDefault (forUpto k (fun i s => s.deassertF (base + i)) s).flt.recs ∧
      ∀ i, i < k → ((forUpto k (fun i s => s.deassertF (base + i)) s).frec (base + i)).level = none
  | 0 => ⟨h, nofun⟩
  | k + 1 => by
    obtain ⟨hw, hl⟩ := State.levelsFall h base k
    refine ⟨State.deassertF_recs hw _, fun i hi => ?_⟩
    by_cases he : i = k
    · rw [he]
      exact State.deassertF_level hw _
    · exact State.deassertF_level_ne _ (hl i (by omega))

theorem State.islandLevelsEnd_level {s : State} (h : SparseWf faultDefault s.flt.recs) {n : Nat} (hlo : 0x80 ≤ n) (hhi : n ≤ 0x8E) :
    (s.islandLevelsEnd.frec n).level = none := by
  obtain ⟨-, hl⟩ := State.levelsFall h Code.SAF_DARK_DISC 15
  have hn : n = Code.SAF_DARK_DISC + (n - 0x80) := by
    change n = 0x80 + (n - 0x80)
    omega
  rw [hn]
  exact State.deassertF_level_ne _ (hl _ (by omega))

theorem State.islandLevelsEnd_frame (s : State) : Frame [] [.flt] s s.islandLevelsEnd :=
  .deassertF (.forUpto s fun _ _ _ => .deassertF .refl rfl) rfl

/-! ### The reset of the island (R57, R274, R389) -/

/-- The island with what it holds set to `x`, in reset. -/
def State.withHeld (s : State) (x : Saf) : State := { s with saf := { x with held := true } }

theorem State.withHeld_frame (s : State) (x : Saf) : Frame [] [.saf, .island] s (s.withHeld x) := .upd .refl rfl id

/-- The island is held in reset, its LRM at removal and its pairs down. -/
def State.islandHeld (s : State) : State := (s.driveLrm false).islandLevelsEnd.withHeld (s.driveLrm false).saf

/-- The tandem role is OFF, which is an event where it was another. -/
def State.tandemOff (s : State) : State :=
  let s2a := if s.get F.CVN_TDM_STATUS_ROLE = 0 then s else s.irq Irq.tandem
  let s3 := (((s2a.put F.CVN_TDM_STATUS_ROLE 0).put F.CVN_TDM_STATUS_HOLD 0).put F.CVN_TDM_STATUS_TDARK 0).put
    F.CVN_TDM_STATUS_PRESENCE 0
  { s3 with tdm := { s3.tdm with edges := 0, seen := false, lossSince := false, outBad := false } }

theorem execIslandReset_free {s : State} (h : s.saf.held = false) : exec .islandReset s = .next s.islandHeld.tandemOff.netsTrack :=
  congrArg Host.Outcome.next (if_neg (by simp [h]))

theorem State.islandHeld_frame (s : State) : Frame [.reg A.LPE_STATUS] [.lpe, .saf, .island, .flt] s s.islandHeld :=
  .op (State.withHeld_frame _ _) (.op (State.islandLevelsEnd_frame _) (.mono (s.driveLrm_frame false) rfl) rfl) rfl

theorem State.islandHeld_effect {s : State} (hs : s.Wf) : s.islandHeld.saf.held = true ∧ s.islandHeld.saf.lrm = false ∧
    (SparseWf faultDefault s.flt.recs → ∀ n, 0x80 ≤ n → n ≤ 0x8E → (s.islandHeld.frec n).level = none) := by
  obtain ⟨hlrm, -⟩ := State.driveLrm_removal hs
  refine ⟨rfl, hlrm, fun hr n hlo hhi => ?_⟩
  have hflt : (s.driveLrm false).flt = s.flt := (s.driveLrm_frame false).part .flt rfl
  have hheld : s.islandHeld.flt = (s.driveLrm false).islandLevelsEnd.flt := (State.withHeld_frame _ _).part .flt rfl
  rw [State.frec_congr hheld]
  exact State.islandLevelsEnd_level (hflt ▸ hr) hlo hhi

theorem State.tandemOff_frame (s : State) : Frame (.reg A.CVN_TDM_STATUS :: irqSpans) [.lnk, .tdm] s s.tandemOff := by
  unfold State.tandemOff
  extract_lets s2a s3
  have h1 : Frame (.reg A.CVN_TDM_STATUS :: irqSpans) [.lnk, .tdm] s s2a := .ite .refl (.irq .refl rfl)
  exact .tdm (.put (.put (.put (.put h1 rfl) rfl) rfl) rfl) rfl

theorem State.tandemOff_effect {s : State} (hs : s.Wf) : s.tandemOff.get F.CVN_TDM_STATUS_ROLE = 0 ∧ s.tandemOff.tdm.outBad = false ∧
    (s.get F.CVN_TDM_STATUS_ROLE ≠ 0 → (s.tandemOff.reg A.GLB_IRQ_STATUS).getLsbD 18 = true) := by
  unfold State.tandemOff
  extract_lets s2a s3
  have h1 : Frame irqSpans [.lnk] s s2a := .ite .refl (.irq .refl rfl)
  have hw := h1.wf hs
  have h3 : Frame [.reg A.CVN_TDM_STATUS] [.tdm] s2a
      { s3 with tdm := { s3.tdm with edges := 0, seen := false, lossSince := false, outBad := false } } :=
    .tdm (.put (.put (.put (.put .refl rfl) rfl) rfl) rfl) rfl
  have hwp (v : Nat) (f : Field) {u : State} (hu : u.Wf) : (u.put f v).Wf := State.put_wf hu
  refine ⟨?_, rfl, fun hr => ?_⟩
  · change s3.get F.CVN_TDM_STATUS_ROLE = 0
    unfold s3
    rw [State.get_put_ne (hwp _ _ (hwp _ _ (hwp _ _ hw))) (by decide) (by decide), State.get_put_ne (hwp _ _ (hwp _ _ hw)) (by decide) (by decide),
      State.get_put_ne (hwp _ _ hw) (by decide) (by decide), State.get_put_self hw (by decide)]
    decide
  · rw [h3.reg _ rfl]
    unfold s2a
    rw [if_neg hr]
    exact Frame.irq_event hs (by decide)

theorem islandReset_holds {s : State} (hs : s.Wf) (hh : s.saf.held = false) :
    ∃ t, exec .islandReset s = .next t ∧ t.saf.held = true ∧ (t.netsReach = true → t.darkNets = true ∧ t.ary.conduct = 0) ∧
      t.sourceDisable = true ∧ t.saf.lrm = false ∧ t.safePads = none ∧ t.get F.CVN_TDM_STATUS_ROLE = 0 ∧
      (s.get F.CVN_TDM_STATUS_ROLE ≠ 0 → (t.reg A.GLB_IRQ_STATUS).getLsbD 18 = true) ∧ t.tdm.outBad = false ∧
      (SparseWf faultDefault s.flt.recs → ∀ n, 0x80 ≤ n → n ≤ 0x8E → (t.frec n).level = none) ∧ SameMemory s t := by
  obtain ⟨hheld, hlrm, hlev⟩ := State.islandHeld_effect hs
  have hh := s.islandHeld_frame
  have hoff := s.islandHeld.tandemOff_frame
  obtain ⟨hrole, hbad, hev⟩ := State.tandemOff_effect (hh.wf hs)
  have ht := State.netsTrack_frame s.islandHeld.tandemOff
  rw [execIslandReset_free ‹_›]
  have hrole0 : s.islandHeld.get F.CVN_TDM_STATUS_ROLE = s.get F.CVN_TDM_STATUS_ROLE := hh.get rfl
  have hsaf : s.islandHeld.tandemOff.netsTrack.saf = s.islandHeld.saf := Eq.trans (ht.part .saf rfl) (hoff.part .saf rfl)
  have hflt : s.islandHeld.tandemOff.netsTrack.flt = s.islandHeld.flt := Eq.trans (ht.part .flt rfl) (hoff.part .flt rfl)
  have hdrv : s.islandHeld.tandemOff.netsDriven = true := by
    have hsaf' : s.islandHeld.tandemOff.saf = s.islandHeld.saf := hoff.part .saf rfl
    simp [State.netsDriven, hsaf', hheld]
  have hmem : Frame ([.reg A.LPE_STATUS, .reg A.CVN_TDM_STATUS, .reg A.ARY_CNT] ++ irqSpans) [.lpe, .saf, .island, .flt, .lnk, .tdm, .ary] s
      s.islandHeld.tandemOff.netsTrack := .op ht (.op hoff (.mono hh rfl) rfl) rfl
  have htheld : s.islandHeld.tandemOff.netsTrack.saf.held = true := by rw [hsaf, hheld]
  have hout : s.islandHeld.tandemOff.netsTrack.tdm.outBad = false := (congrArg Tdm.outBad (ht.part .tdm rfl) :).trans hbad
  refine ⟨_, rfl, htheld, State.netsTrack_dark hdrv, by simp [State.sourceDisable, htheld], by rw [hsaf, hlrm],
    if_pos htheld, (ht.get rfl).trans hrole, fun hr => ?_, hout, fun hrec n hlo hhi => ?_, hmem.sameMemory rfl⟩
  · rw [ht.reg _ rfl]
    exact hev (by rwa [hrole0])
  · rw [State.frec_congr hflt]
    exact hlev hrec n hlo hhi

/-! ### The end of the reset (R274, R293, R488) -/

/-- What the island holds as its reset ends: what stands outside it, and all else anew. -/
def State.safAnew (s : State) : Saf := {
  strapKnown := s.saf.strapKnown, expect := s.saf.expect
  darkA := s.saf.darkA, darkB := s.saf.darkB, padReq := s.padActive, useB := 0
  grant := s.saf.grant, grantWait := s.saf.grantWait, grantTicks := s.saf.grantTicks
  wdArmed := s.saf.wdArmed, vddioIn := s.saf.vddioIn, netBadA := s.saf.netBadA, netBadB := s.saf.netBadB }

/-- The island's registers and what it holds are those of its reset. -/
def State.islandAnew (s : State) : State := { s.resetRegs A.SAF_STATE 0x1000 with saf := s.safAnew }

/-- The state of the island is INIT, an event where it was another, and the requests from outside it stand. -/
def State.islandFrom (s u : State) : State :=
  let s3 := if s.safState = Isl.init then u else u.irq Irq.safetyState
  (s3.putB F.SAF_STATE_REQ_FLT s.c2Stands).putB F.SAF_STATE_REQ_CFG (s.flag F.SAF_STATE_REQ_CFG)

/-- A net return that differs is a cause at once. -/
def State.netsJudged (s : State) : State :=
  if s.saf.netBadA || s.saf.netBadB then s.ownC4Level Code.SAF_DARKNET 0 else s

theorem execIslandResetEnd_held {s : State} (h : s.saf.held = true) :
    exec .islandResetEnd s = .next (s.islandFrom s.islandAnew).netsTrack.netsJudged.recWindow :=
  congrArg Host.Outcome.next (if_neg (by simp [h]))

theorem State.islandAnew_frame (s : State) :
    Frame [.window 0xB] [.shadow, .saf, .island] s s.islandAnew := by
  have h : Frame [.window 0xB] [.shadow, .saf, .island] s (s.resetRegs A.SAF_STATE 0x1000) := .resetRegs .refl rfl
  exact h.upd rfl id

theorem State.islandAnew_reg {s : State} {a : Nat} (h1 : 0xB000 ≤ a) (h2 : a < 0xC000) : s.islandAnew.reg a = regReset a :=
  State.resetRegs_reg_in h1 h2

theorem State.islandFrom_frame (s u : State) : Frame (.reg A.SAF_STATE :: irqSpans) [.lnk] u (s.islandFrom u) :=
  .putB (.putB (.ite .refl (.irq .refl rfl)) rfl) rfl

/-- The fields of the island's state once its reset has ended. -/
theorem State.islandFrom_get {s u : State} (hu : u.Wf) :
    (s.islandFrom u).get F.SAF_STATE_REQ_FLT = b2n s.c2Stands ∧
    (s.islandFrom u).get F.SAF_STATE_REQ_CFG = s.get F.SAF_STATE_REQ_CFG ∧
    (s.islandFrom u).safState = u.safState := by
  have h3 : Frame irqSpans [.lnk] u (if s.safState = Isl.init then u else u.irq Irq.safetyState) := .ite .refl (.irq .refl rfl)
  have hw := h3.wf hu
  have hst : (if s.safState = Isl.init then u else u.irq Irq.safetyState).safState = u.safState := h3.get rfl
  unfold State.islandFrom
  generalize (if s.safState = Isl.init then u else u.irq Irq.safetyState) = v at *
  have hw1 : (v.putB F.SAF_STATE_REQ_FLT s.c2Stands).Wf := State.put_wf hw
  refine ⟨?_, ?_, ?_⟩
  · refine (State.get_put_ne hw1 (by decide) (by decide)).trans ((State.get_put_self hw (by decide)).trans ?_)
    cases s.c2Stands <;> rfl
  · refine (State.get_put_self hw1 (by decide)).trans ?_
    have hlt : s.get F.SAF_STATE_REQ_CFG < 2 := s.get_lt _
    unfold State.flag
    generalize s.get F.SAF_STATE_REQ_CFG = n at *
    interval_cases n <;> rfl
  · refine (State.get_put_ne hw1 (by decide) (by decide)).trans ((State.get_put_ne hw (by decide) (by decide)).trans ?_)
    exact hst

theorem State.recWindow_frame (s : State) : Frame [] [.recd] s s.recWindow := .recd .refl rfl

/-- The dark nets of an island in INIT, once they have been tracked and their returns judged. -/
structure InitJudged (s t : State) : Prop where
  latch : s.saf.netBadA = true ∨ s.saf.netBadB = true → t.get F.SAF_STATE_REMOVE_LATCH = 1
  held : t.saf.held = false
  state : t.safState = 0
  sealWant : t.saf.sealWant = s.saf.sealWant
  nets : t.netsReach = true → t.darkNets = true
  lrm : t.saf.lrm = false
  frame : Frame removalSpans [.ary, .lpe, .lnk, .saf, .flt] s t
  req : ∀ f : Field, f.addr = A.SAF_STATE → 8 < f.lo → f.hi < 16 → t.get f = s.get f

theorem State.netsJudged_init {s : State} (hs : s.Wf) (hh : s.saf.held = false) (h0 : s.safState = 0) (hl : s.saf.lrm = false) :
    InitJudged s s.netsTrack.netsJudged := by
  have ht := State.netsTrack_frame s
  have hsaf : s.netsTrack.saf = s.saf := ht.part .saf rfl
  have hdrv : s.netsDriven = true := by simp [State.netsDriven, h0, Isl.init]
  unfold State.netsJudged
  rw [hsaf]
  split
  next hbad =>
    have ha : Frame [.reg A.ARY_CNT] [.ary, .flt] s (s.netsTrack.assertF Code.SAF_DARKNET 0) := .assertF (.mono ht rfl) rfl
    have haw := ha.wf hs
    have hasaf : (s.netsTrack.assertF Code.SAF_DARKNET 0).saf = s.saf := ha.part .saf rfl
    have hah : (s.netsTrack.assertF Code.SAF_DARKNET 0).saf.held = false := by rw [hasaf, hh]
    have hr := State.setRemoval_removes haw hah
    have hrf := State.setRemoval_frame _ haw
    have hst : (s.netsTrack.assertF Code.SAF_DARKNET 0).safState = 0 := (ha.get rfl).trans h0
    exact {
      latch := fun _ => hr.latch
      held := (congrArg (·.1) (hrf.part .island rfl) :).trans hah
      state := hr.state.trans (if_pos hst)
      sealWant := (congrArg (·.2.2) (hrf.part .island rfl) :).trans (by rw [hasaf])
      nets := fun h => (hr.nets h).1
      lrm := hr.lrm
      frame := .op hrf (.mono ha rfl) rfl
      req := fun f hf h8 h16 =>
        (State.get_setRemoval haw hah hf (by omega) (.inr (by omega)) (.inl h16)).trans (ha.get (by rw [hf]; rfl)) }
  next hgood =>
    exact {
      latch := fun h => absurd (by simpa using h) hgood
      held := by rw [hsaf, hh]
      state := (ht.get rfl).trans h0
      sealWant := by rw [hsaf]
      nets := fun h => (State.netsTrack_dark hdrv h).1
      lrm := by rw [hsaf, hl]
      frame := .mono ht rfl
      req := fun f hf _ _ => ht.get (by rw [hf]; rfl) }

/-- Single registers cover their own addresses alone. -/
theorem covers_regs {as : List Nat} {a : Nat} (h : a ∉ as) : covers (as.map .reg) a = false := by
  by_contra hc
  simp only [covers, List.any_map, Bool.not_eq_false, List.any_eq_true, Function.comp_apply, Span.reg, Bool.and_eq_true,
    Bool.or_eq_true, Nat.ble_eq, Nat.blt_eq, Nat.beq_eq] at hc
  obtain ⟨b, hb, hab⟩ := hc
  obtain rfl : a = b := by omega
  exact h hb

theorem islandResetEnd_inits {s : State} (hs : s.Wf) (hh : s.saf.held = true) :
    ∃ t, exec .islandResetEnd s = .next t ∧ (s.saf.netBadA = true ∨ s.saf.netBadB = true → t.get F.SAF_STATE_REMOVE_LATCH = 1) ∧
      t.saf.held = false ∧ t.safState = 0 ∧ t.saf.sealWant = true ∧ (t.netsReach = true → t.darkNets = true) ∧ t.saf.lrm = false ∧
      t.get F.SAF_STATE_REQ_FLT = b2n s.c2Stands ∧ t.get F.SAF_STATE_REQ_CFG = s.get F.SAF_STATE_REQ_CFG ∧
      (∀ a, 0xB000 ≤ a → a < 0xC000 → a ≠ A.SAF_STATE → t.reg a = regReset a) ∧ SameMemory s t := by
  have hnew := s.islandAnew_frame
  have hfrom := s.islandFrom_frame s.islandAnew
  obtain ⟨hflt, hcfg, hst⟩ := State.islandFrom_get (s := s) (hnew.wf hs)
  have hst0 : (s.islandFrom s.islandAnew).safState = 0 := by
    rw [hst, State.safState, State.get, State.islandAnew_reg (by decide) (by decide)]
    decide
  have hsaf : (s.islandFrom s.islandAnew).saf = s.safAnew := hfrom.part .saf rfl
  have hj := State.netsJudged_init (hfrom.wf (hnew.wf hs)) (by rw [hsaf]; rfl) hst0 (by rw [hsaf]; rfl)
  have hall : Frame [.window 0xB, .reg A.GLB_IRQ_STATUS, .reg A.GLB_IRQ_RAW, .reg A.ARY_CNT, .reg A.LPE_STATUS]
      [.ary, .lpe, .lnk, .saf, .flt, .shadow, .island] s (s.islandFrom s.islandAnew).netsTrack.netsJudged :=
    .op hj.frame (.op hfrom (.mono hnew rfl) rfl) rfl
  rw [execIslandResetEnd_held hh]
  have hrec := (s.islandFrom s.islandAnew).netsTrack.netsJudged.recWindow_frame
  have hreg : ∀ a, 0xB000 ≤ a → a < 0xC000 → a ≠ A.SAF_STATE →
      (s.islandFrom s.islandAnew).netsTrack.netsJudged.reg a = regReset a := by
    intro a h1 h2 hne
    have hout (as : List Nat) (has : ∀ b ∈ as, b < 0xB000 ∨ b = A.SAF_STATE) : covers (as.map .reg) a = false := by
      refine covers_regs fun hm => ?_
      have hb := has a hm
      omega
    rw [hj.frame.reg a (hout [A.GLB_IRQ_STATUS, A.GLB_IRQ_RAW, A.ARY_CNT, A.LPE_STATUS, A.SAF_STATE] (by decide)),
      hfrom.reg a (hout [A.SAF_STATE, A.GLB_IRQ_STATUS, A.GLB_IRQ_RAW] (by decide)), State.islandAnew_reg h1 h2]
  have hbad : s.saf.netBadA = true ∨ s.saf.netBadB = true →
      (s.islandFrom s.islandAnew).saf.netBadA = true ∨ (s.islandFrom s.islandAnew).saf.netBadB = true := by rw [hsaf]; exact id
  have hwant : (s.islandFrom s.islandAnew).saf.sealWant = true := by rw [hsaf]; rfl
  refine ⟨_, rfl, fun hb => hj.latch (hbad hb), hj.held, hj.state, hj.sealWant.trans hwant, hj.nets, hj.lrm,
    (hj.req _ rfl (by decide) (by decide)).trans hflt, (hj.req _ rfl (by decide) (by decide)).trans hcfg, hreg, hall.sameMemory rfl⟩

/-! ### The end of the clock-off grant (R38) -/

theorem clockOffGrantEnd_ends {s : State} (hon : s.safOn = true) (h : s.grantOver = true) :
    ∃ t, exec .clockOffGrantEnd s = .next t ∧ t.saf.grant = false ∧ t.saf.arrayRun = 0 ∧ t.saf.islandRun = 0 ∧
      { t with saf := s.saf } = s :=
  ⟨s.grantEnd, congrArg Host.Outcome.next (if_pos (by simp [hon, h])), rfl, rfl, rfl, rfl⟩

end Sys2Proof.Machine
end

section
/-!
The tick of the island (R279, R299, R500): what its parts leave alone, the count of ticks, and the disagreement count of the pads.
-/

namespace Sys2Proof.Machine

/-! ### Every part of a tick leaves the counts and the straps alone -/

/-- Every register but those of the straps, of the disagreement count and of the tick. -/
def tickSpans : List Span :=
  [⟨0, A.SAF_SEAL⟩, ⟨A.SAF_SEAL + 1, A.SAF_DISC⟩, ⟨A.SAF_DISC + 1, A.SAF_TICK⟩, ⟨A.SAF_TICK + 1, 0⟩]

/-- Every part of the state. -/
def allParts : List Part :=
  [.pending, .port, .freeCount, .lmem, .nvm, .ras, .lmc, .cmp, .nvmw, .msk, .lum, .ary, .hlt, .lpe, .recd, .thm, .lnk, .cvn, .tdm,
    .cfg, .spi, .saf, .flt, .pwr, .cal, .bst, .shadow, .latches, .unit, .tap, .island, .events]

/-- From `s` to `t` the straps, the disagreement count and the tick stay. -/
abbrev Ticks (s t : State) : Prop := Frame tickSpans allParts s t

theorem State.safRefresh_ticks (s : State) : Ticks s s.safRefresh := .mono s.safRefresh_frame rfl

theorem State.driveLrm_ticks (s : State) (on : Bool) : Ticks s (s.driveLrm on) := .mono (s.driveLrm_frame on) rfl

theorem State.relightStart_ticks (s : State) : Ticks s s.relightStart := .op (State.driveLrm_ticks _ _) (.saf (.put .refl rfl) rfl rfl) rfl

theorem State.srstAccept_ticks (s : State) : Ticks s s.srstAccept := by
  unfold State.srstAccept
  extract_lets was s1 s2 x s3 s4
  have h2 : Ticks s s2 := .put (.put (.put (.put (.put (.put (.put (.put .refl rfl) rfl) rfl) rfl) rfl) rfl) rfl) rfl
  have h4 : Ticks s s4 := .put (.saf h2 rfl rfl) rfl
  exact .ite (.op (State.safRefresh_ticks _) (.op s4.relightStart_ticks h4 rfl) rfl) (.op s4.safRefresh_ticks h4 rfl)

theorem State.srstLate_ticks (s : State) : Ticks s s.srstLate := by
  unfold State.srstLate State.srstJudge
  extract_lets w _ s0 s1
  have h1 : Ticks s s1 := .deassertF (.put (.put (.saf .refl rfl rfl) rfl) rfl) rfl
  exact .ite (.ite (.inc (.put h1 rfl) rfl) (.ite (.op s1.srstAccept_ticks h1 rfl) (.raise (.inc (.put h1 rfl) rfl) rfl))) .refl

theorem State.relightExpire_ticks (s : State) : Ticks s s.relightExpire := by
  unfold State.relightExpire
  extract_lets _ s1
  have h1 : Ticks s s1 := .saf .refl rfl rfl
  exact .op (State.safRefresh_ticks _) (.ite h1 (.put h1 rfl)) rfl

theorem State.darkTick_ticks (s : State) (a b : Bool) : Ticks s (s.darkTick a b) := by
  unfold State.darkTick
  extract_lets s1
  have h1 : Ticks s s1 := .ite (.mono (s.darkPads_frame a b) rfl) .refl
  exact .ite (.op s1.relightExpire_ticks h1 rfl) (.saf h1 rfl rfl)

theorem State.proofTick_ticks (s : State) : Ticks s s.proofTick :=
  .ite .refl (.ite (.op (State.netsTrack_frame _) (.saf .refl rfl rfl) rfl) (.saf .refl rfl rfl))

theorem State.sealStep_ticks (s : State) (pads : Byte) : Ticks s (s.sealStep pads) := by
  unfold State.sealStep
  split
  · exact .refl
  · exact .saf .refl rfl rfl

theorem State.fbTick_ticks (s : State) (level : Bool) : Ticks s (s.fbTick level) := by
  unfold State.fbTick
  extract_lets x now run flips s1 agrees s2
  have h1 : Ticks s s1 := .ite (.putB .refl rfl) .refl
  have h2 : Ticks s s2 := h1.upd rfl id
  exact .ite (.deassertF h2 rfl) h2

theorem State.clockTick_ticks (s : State) (array osc : Nat) : Ticks s (s.clockTick array osc) := by
  unfold State.clockTick
  extract_lets s0 g badA badO badI _ s1 s2 s3
  have h0 : Ticks s s0 := .ite (.upd .refl rfl id) .refl
  have h1 : Ticks s s1 := .saf h0 rfl rfl
  have h2 : Ticks s s2 := .ite h1 (.deassertF h1 rfl)
  have h3 : Ticks s s3 := .ite h2 (.deassertF h2 rfl)
  exact .ite h3 (.deassertF h3 rfl)

theorem State.supplyTick_ticks (s : State) (vddh vreg : Nat) : Ticks s (s.supplyTick vddh vreg) := by
  unfold State.supplyTick
  extract_lets bad _ s1
  have h1 : Ticks s s1 := .saf .refl rfl rfl
  exact .ite h1 (.deassertF h1 rfl)

theorem State.outTick_ticks (s : State) (a b : Bool) : Ticks s (s.outTick a b) := by
  unfold State.outTick
  extract_lets bad _ _ s1
  have h1 : Ticks s s1 := .saf (.put .refl rfl) rfl rfl
  exact .ite h1 (.deassertF h1 rfl)

theorem State.rampSet_ticks (s : State) : Ticks s s.rampSet := by
  unfold State.rampSet
  extract_lets e s1 x s2
  have h2 : Ticks s s2 := .saf (.put (.put .refl rfl) rfl) rfl rfl
  exact .ite (.op (State.safRefresh_ticks _) (.put h2 rfl) rfl) h2

theorem State.dimTick_ticks (s : State) : Ticks s s.dimTick := by
  unfold State.dimTick
  extract_lets s0
  have h0 : Ticks s s0 := .ite (.op (State.safRefresh_ticks _) (.op (State.rampSet_ticks _) (.saf (.put .refl rfl) rfl rfl) rfl) rfl) .refl
  exact .ite .refl (.ite (.saf h0 rfl rfl) (.saf h0 rfl rfl))

theorem State.setCollect_ticks (s : State) (b : RecBank) : Ticks s (s.setCollect b) := .ite (.recd .refl rfl) (.recd .refl rfl)

theorem State.recExt_ticks (s : State) (e : Nat) (v : Int) : Ticks s (s.recExt e v) := .ite (State.setCollect_ticks _ _) .refl

theorem State.imonTick_ticks (s : State) (mA : Nat) : Ticks s (s.imonTick mA) := by
  unfold State.imonTick
  extract_lets m read limit s1 skip run _ s2
  have h1 : Ticks s s1 := .op (State.recExt_ticks _ _ _) (.put (.put .refl rfl) rfl) rfl
  have h2 : Ticks s s2 := .saf h1 rfl rfl
  exact .ite (.ite (.deassertF h2 rfl) h2) (.op (State.recExt_ticks _ _ _) (.deassertF (.saf .refl rfl rfl) rfl) rfl)

theorem State.srstTick_ticks (s : State) (level : Bool) : Ticks s (s.srstTick level) := by
  unfold State.srstTick
  extract_lets x high low lowTick run flips s1
  have h1 : Ticks s s1 := .saf .refl rfl rfl
  exact .ite (.put h1 rfl) h1

theorem State.setDim_ticks (s : State) : Ticks s s.setDim :=
  .ite .refl (.op (State.safRefresh_ticks _) (.saf (.put .refl rfl) rfl rfl) rfl)

theorem State.fltRequest_ticks (s : State) : Ticks s s.fltRequest := .mono s.fltRequest_frame rfl

theorem State.react_ticks (s : State) (cls : Nat) : Ticks s (s.react cls) := by
  unfold State.react
  split
  · exact .refl
  split
  · exact s.fltRequest_ticks
  · exact s.setDim_ticks
  · exact .mono s.setRemoval_island rfl
  · exact .refl

theorem State.applyClass_ticks (s : State) (n c : Nat) : Ticks s (s.applyClass n c) := by
  have hmask : writes tickSpans allParts (F.FLT_MASKn_MASK (n / 32)).addr = true := by
    have hle : Nat.ble (A.SAF_TICK + 1) (F.FLT_MASKn_MASK (n / 32)).addr = true :=
      (Nat.ble_eq ..).mpr (Nat.le_trans (by decide) (Nat.le_add_right 0xc0a0 _))
    simp only [writes, covers, tickSpans, List.any_cons, hle]
    simp [allParts]
  unfold State.applyClass
  extract_lets r base eff s1 s2
  have h1 : Ticks s s1 := .setFrec .refl rfl
  have h2 : Ticks s s2 := .ite (.put h1 hmask) h1
  exact .ite (.op (State.fltRequest_ticks _) (.op (s2.react_ticks _) h2 rfl) rfl) h2

theorem State.classHit_ticks (s : State) (n : Nat) : Ticks s (s.classHit n) := by
  unfold State.classHit
  extract_lets r s1
  have h1 : Ticks s s1 := .setFrec .refl rfl
  exact .ite .refl (.raise (.flt h1 rfl) rfl)

theorem State.classReload_ticks (s : State) : Ticks s s.classReload :=
  .trans (.flt .refl rfl) (.foldl _ fun s e _ => s.applyClass_ticks e.1 e.2)

theorem State.fltTick_ticks (s : State) (i : TickIn) : Ticks s (s.fltTick i) := by
  unfold State.fltTick
  extract_lets indicated bad s1
  have h1 : Ticks s s1 := s.classReload_ticks.trans (.foldl _ fun s n _ => s.classHit_ticks n)
  exact .ite .refl (.flt h1 rfl)

theorem State.recTick_ticks (s : State) : Ticks s s.recTick := by
  unfold State.recTick
  extract_lets s0 op lit o l
  have h0 : Ticks s s0 := .ite (.mono s.recWindow_frame rfl) .refl
  exact .recd h0 rfl

theorem State.thmTick_ticks (s : State) : Ticks s s.thmTick := .thm .refl rfl

theorem State.portTick_ticks (s : State) (d : Bool) : Ticks s (s.portTick d) := .mono (s.setPort_frame d _) rfl

theorem State.pcount_ticks (s : State) (d : Bool) {f : Field} (n : Nat) (h : ∀ d, writes tickSpans allParts (portField d f).addr = true) :
    Ticks s (s.pcount d f n) := .put .refl (h d)

theorem State.linkExit_ticks (s : State) (d : Bool) (cause : Nat) : Ticks s (s.linkExit d cause) :=
  .mono (s.linkExit_frame d cause) (by cases d <;> rfl)

theorem State.codeErrors_ticks (s : State) (d : Bool) (n : Nat) : Ticks s (s.codeErrors d n) := by
  unfold State.codeErrors
  extract_lets s1 t _ s2 lim
  have h1 : Ticks s s1 := s.pcount_ticks d n (by decide)
  have h2 : Ticks s s2 := .op (s1.setPort_frame d _) h1 rfl
  exact .ite (.ite (.op (s2.linkExit_ticks d 1) h2 rfl) h2) h1

theorem State.injColumn_ticks (s : State) : Ticks s s.injColumn :=
  .ite (.op (State.codeErrors_ticks _ _ _) (.ite (.put .refl rfl) .refl) rfl) .refl

theorem State.lnkTick_ticks (s : State) : Ticks s s.lnkTick := by
  unfold State.lnkTick
  extract_lets s1 l
  have h1 : Ticks s s1 := (s.portTick_ticks false).trans ((State.portTick_ticks _ true).trans (State.injColumn_ticks _))
  exact .ite .refl (.lnk h1 rfl)

theorem State.pwrTick_ticks (s : State) (i : TickIn) : Ticks s (s.pwrTick i) := by
  unfold State.pwrTick State.railTick
  extract_lets nom ioBad _ s1
  have h1 : Ticks s s1 := .pwr .refl rfl
  exact .pwr h1 rfl

theorem State.cfgTick_ticks (s : State) : Ticks s s.cfgTick := .cfg .refl rfl rfl

theorem State.cvnTick_ticks (s : State) (i : TickIn) : Ticks s (s.cvnTick i) := by
  have hlater : Ticks s (s.cvnLater i.cvnErrors) := by
    unfold State.cvnLater
    extract_lets s1 s2
    have h1 : Ticks s s1 := .put .refl rfl
    have h2 : Ticks s s2 := .ite h1 (.raise h1 rfl)
    exact .ite .refl (.cvn h2 rfl)
  exact .ite (.put hlater rfl) .refl

theorem State.dirHits_frame : ∀ (l : List (Nat × Bool)) (s : State), Frame [] [.lmc] s (s.dirHits l)
  | [], _ => .refl
  | (t, two) :: r, s => by
    unfold State.dirHits
    extract_lets old
    exact .ite (State.dirHits_frame r s) (.trans (.lmc .refl rfl) (State.dirHits_frame r _))

/-! ### The two counts (R279, R500) -/

theorem State.discTick_frame (s : State) (a b : Bool) : Frame [.reg A.SAF_DISC] [.flt] s (s.discTick a b) :=
  .ite (.deassertF (.put .refl rfl) rfl) (.put (.put .refl rfl) rfl)

theorem State.discLimit_lt (s : State) : s.discLimit < 2 ^ 16 := by
  unfold State.discLimit
  split <;> decide

theorem State.discTick_disc {s : State} (hs : s.Wf) (a b : Bool) :
    (s.discTick a b).get F.SAF_DISC_DISC = if a = !b then 0 else min (s.get F.SAF_DISC_DISC + 1) s.discLimit := by
  unfold State.discTick
  by_cases hab : a = !b
  · rw [if_pos (by simp [hab]), if_pos hab]
    refine (Frame.get (L := []) (ps := [.flt]) (.deassertF .refl rfl) rfl).trans ((State.get_put_self hs (by decide)).trans ?_)
    decide
  · rw [if_neg (by simpa using hab), if_neg hab]
    refine (State.get_put_ne (State.put_wf hs) (by decide) (by decide)).trans ((State.get_put_self hs (by decide)).trans ?_)
    exact Nat.mod_eq_of_lt (Nat.lt_of_le_of_lt (Nat.min_le_right _ _) s.discLimit_lt)

/-- The tick has sampled VDDIO. -/
def State.vddioSeen (s : State) (mV : Nat) : State := { s with saf := { s.saf with vddioIn := vddioOperating mV } }

theorem State.vddioSeen_ticks (s : State) (mV : Nat) : Ticks s (s.vddioSeen mV) := .saf .refl rfl rfl

/-- The part of the island's tick before the disagreement count, and the part after it. -/
def State.safTickHead (s : State) (i : TickIn) (a b : Bool) : State :=
  ((((s.srstLate.wrapInc F.SAF_TICK_TICK).vddioSeen i.vddio).darkTick a b).proofTick).sealStep i.seals

def State.safTickTail (s : State) (i : TickIn) : State :=
  let s2 := ((s.fbTick i.lrmFb).clockTick i.arrayCount i.oscCount)
  let s3 := ((s2.supplyTick i.vddh i.vreg).outTick i.safeA i.safeB).dimTick
  let s4 := (s3.imonTick i.current).srstTick i.srst
  if s4.saf.wdArmed then { s4 with saf := { s4.saf with wdTicks := min (s4.saf.wdTicks + 1) 20 } } else s4

theorem State.safTick_eq (s : State) (i : TickIn) :
    s.safTick i =
      (let lost := decide (i.vddio < 1400) || !s.aonOn
       ((s.safTickHead i (i.darkA || lost) (i.darkB && !lost)).discTick (i.darkA || lost) (i.darkB && !lost)).safTickTail i) := rfl

theorem State.safTickTail_ticks (s : State) (i : TickIn) : Ticks s (s.safTickTail i) := by
  unfold State.safTickTail
  extract_lets s2 s3 s4
  have h2 : Ticks s s2 := (s.fbTick_ticks _).trans (State.clockTick_ticks _ _ _)
  have h3 : Ticks s s3 := h2.trans ((State.supplyTick_ticks _ _ _).trans ((State.outTick_ticks _ _ _).trans (State.dimTick_ticks _)))
  have h4 : Ticks s s4 := h3.trans ((State.imonTick_ticks _ _).trans (State.srstTick_ticks _ _))
  exact .ite (.saf h4 rfl rfl) h4

/-- The tick counts, and the disagreement count and the straps stay. -/
theorem State.safTickHead_counts {s : State} (hs : s.Wf) (i : TickIn) (a b : Bool) :
    (s.safTickHead i a b).Wf ∧ (s.safTickHead i a b).get F.SAF_TICK_TICK = (s.get F.SAF_TICK_TICK + 1) % 2 ^ 32 ∧
      (s.safTickHead i a b).get F.SAF_DISC_DISC = s.get F.SAF_DISC_DISC ∧ (s.safTickHead i a b).discLimit = s.discLimit := by
  have hlate := s.srstLate_ticks
  have hput : Frame [.reg A.SAF_TICK] [] s.srstLate (s.srstLate.wrapInc F.SAF_TICK_TICK) := .put .refl rfl
  have htick : (s.srstLate.wrapInc F.SAF_TICK_TICK).get F.SAF_TICK_TICK = (s.get F.SAF_TICK_TICK + 1) % 2 ^ 32 := by
    refine (State.get_put_self (hlate.wf hs) (by decide)).trans ?_
    rw [hlate.get rfl]
    rfl
  have hrest : Ticks (s.srstLate.wrapInc F.SAF_TICK_TICK) (s.safTickHead i a b) :=
    .trans (.trans (.trans (State.vddioSeen_ticks _ _) (State.darkTick_ticks _ _ _)) (State.proofTick_ticks _)) (State.sealStep_ticks _ _)
  refine ⟨hrest.wf (hput.wf (hlate.wf hs)), (hrest.get rfl).trans htick, ?_, ?_⟩
  · rw [hrest.get rfl, hput.get rfl, hlate.get rfl]
  · unfold State.discLimit
    rw [hrest.get rfl, hput.get rfl, hlate.get rfl]

theorem State.safTick_counts {s : State} (hs : s.Wf) (i : TickIn) :
    (s.safTick i).get F.SAF_TICK_TICK = (s.get F.SAF_TICK_TICK + 1) % 2 ^ 32 ∧
      (s.safTick i).get F.SAF_DISC_DISC = if i.vddio < 1400 ∨ s.aonOn = false ∨ i.darkA = !i.darkB then 0
        else min (s.get F.SAF_DISC_DISC + 1) s.discLimit := by
  rw [State.safTick_eq]
  extract_lets lost
  obtain ⟨hw, htick, hdisc, hlim⟩ := State.safTickHead_counts hs i (i.darkA || lost) (i.darkB && !lost)
  generalize s.safTickHead i (i.darkA || lost) (i.darkB && !lost) = u at *
  have hd := u.discTick_frame (i.darkA || lost) (i.darkB && !lost)
  have ht := (u.discTick (i.darkA || lost) (i.darkB && !lost)).safTickTail_ticks i
  rw [ht.get rfl, hd.get rfl, ht.get rfl, State.discTick_disc hw, hdisc, hlim, htick]
  refine ⟨rfl, if_congr ?_ rfl rfl⟩
  by_cases hv : i.vddio < 1400
  · simp [lost, hv]
  · cases h : s.aonOn <;> simp [lost, hv, h]

/-- What a tick does before the pads of the JTAG port are taken. -/
def State.tickDone (s : State) (i : TickIn) : State :=
  let s1 := if s.coreOn then s.dirHits i.dirHits else s
  (((((((s1.safTick i).fltTick i).recTick).thmTick).lnkTick).pwrTick i).cfgTick).cvnTick i

theorem execSafetyTick_on {s : State} {i : TickIn} (hon : s.safOn = true) :
    exec (.safetyTick i) s = .next ((s.tickDone i).tapTick i.trst i.tck) :=
  congrArg Host.Outcome.next (if_pos hon)

theorem execSafetyTick_off {s : State} {i : TickIn} (hoff : s.safOn = false) : exec (.safetyTick i) s = .next s :=
  congrArg Host.Outcome.next (if_neg (by simp [hoff]))

theorem State.tickDone_counts {s : State} (hs : s.Wf) (i : TickIn) :
    (s.tickDone i).get F.SAF_TICK_TICK = (s.get F.SAF_TICK_TICK + 1) % 2 ^ 32 ∧
      (s.tickDone i).get F.SAF_DISC_DISC = if i.vddio < 1400 ∨ s.aonOn = false ∨ i.darkA = !i.darkB then 0
        else min (s.get F.SAF_DISC_DISC + 1) s.discLimit := by
  unfold State.tickDone
  extract_lets s1
  have h1 : Frame [] [.lmc] s s1 := .ite (State.dirHits_frame _ _) .refl
  obtain ⟨htick, hdisc⟩ := State.safTick_counts (h1.wf hs) i
  have hrest : Ticks (s1.safTick i) ((((((((s1.safTick i).fltTick i).recTick).thmTick).lnkTick).pwrTick i).cfgTick).cvnTick i) :=
    .trans (.trans (.trans (.trans (.trans (.trans (State.fltTick_ticks _ _) (State.recTick_ticks _)) (State.thmTick_ticks _))
      (State.lnkTick_ticks _)) (State.pwrTick_ticks _ _)) (State.cfgTick_ticks _)) (State.cvnTick_ticks _ _)
  have hlim : s1.discLimit = s.discLimit := by
    unfold State.discLimit
    rw [h1.get rfl]
  rw [hrest.get rfl, hrest.get rfl, htick, hdisc, h1.get rfl, h1.get rfl, hlim, h1.aonOn_eq rfl]
  exact ⟨rfl, rfl⟩

end Sys2Proof.Machine
end

section
/-!
The TAP's state (R418): no operation but an edge of TCK and the reset of the TAP changes it.  First the rules, then the
blocks whose registers the port writes, and the jobs.
-/

namespace Sys2Proof.Machine

/-! ### The rules -/

/-- From `s` to `t` the state of the TAP stays. -/
def SameTap (s t : State) : Prop := t.cfg.tap = s.cfg.tap

namespace SameTap

variable {s t u : State} {L : List Span} {ps : List Part}

theorem refl : SameTap s s := Eq.refl _

theorem trans (h : SameTap s t) (h' : SameTap t u) : SameTap s u := Eq.trans h' h

/-- An operation that keeps the state goes on from `t`. -/
theorem op (h' : SameTap t u) (h : SameTap s t) : SameTap s u := h.trans h'

theorem ite {c : Prop} [Decidable c] (h : SameTap s t) (h' : SameTap s u) : SameTap s (if c then t else u) := by
  split
  · exact h
  · exact h'

/-- A choice between two operations that answer a value beside the state. -/
theorem iteFst {α : Type} {c : Prop} [Decidable c] {p q : State × α} (h : SameTap s p.1) (h' : SameTap s q.1) :
    SameTap s (if c then p else q).1 := by
  split
  · exact h
  · exact h'

theorem iteSnd {α : Type} {c : Prop} [Decidable c] {p q : α × State} (h : SameTap s p.2) (h' : SameTap s q.2) :
    SameTap s (if c then p else q).2 := by
  split
  · exact h
  · exact h'

theorem forUpto {f : Nat → State → State} (hf : ∀ n s, SameTap s (f n s)) : ∀ (n : Nat) (s : State), SameTap s (forUpto n f s)
  | 0, _ => .refl
  | n + 1, s => (forUpto hf n s).trans (hf n _)

end SameTap

/-- A frame that does not name the TAP keeps its state. -/
theorem Frame.sameTap {L : List Span} {ps : List Part} {s t : State} (h : Frame L ps s t) (hp : ps.contains .tap = false) : SameTap s t :=
  h.part .tap hp

/-! ### Events, faults and the island -/

theorem State.irq_tap (s : State) (n : Nat) : SameTap s (s.irq n) := (Frame.irq (L := irqSpans) (ps := [.lnk]) .refl rfl).sameTap rfl

theorem State.raiseI_tap (s : State) (n : Nat) (i : FaultInfo) : SameTap s (s.raiseI n i) := .ite .refl rfl

theorem State.raise_tap (s : State) (n x : Nat) : SameTap s (s.raise n x) := s.raiseI_tap n _

theorem State.safRefresh_tap (s : State) : SameTap s s.safRefresh := s.safRefresh_frame.sameTap rfl

theorem State.regWrite_tap (s : State) (a : Nat) (v : Word) : SameTap s (s.regWrite a v) := .ite rfl rfl

theorem State.readClear_tap (s : State) (a : Nat) : SameTap s (s.readClear a) := .ite .refl rfl

theorem State.accRecord_tap (s : State) (i res : Nat) (write : Bool) (a : Nat) : SameTap s (s.accRecord i res write a) := .ite .refl rfl

theorem State.safCmd_tap (s : State) (v : Word) : SameTap s (s.safCmd v) := .ite .refl (.op (State.safRefresh_tap _) (s.regWrite_tap _ _))

theorem State.safConfig_tap (s : State) (a : Nat) (v : Word) : SameTap s (s.safConfig a v) :=
  .ite .refl (.ite rfl (.op (State.safRefresh_tap _) (s.regWrite_tap _ _)))

/-! ### GLB -/

theorem State.cadence_tap (s : State) (src : Nat) : SameTap s (s.cadence src) := by
  unfold State.cadence
  split
  · split <;> rfl
  · rfl

theorem State.commitRejected_tap (s : State) (reason : Nat) : SameTap s (s.commitRejected reason) := .op (State.irq_tap _ _) rfl

theorem State.commitArm_tap (s : State) (v : Word) (info : FaultInfo) : SameTap s (s.commitArm v info) := by
  unfold State.commitArm
  extract_lets s1 s2
  have h1 : SameTap s s1 := .ite rfl rfl
  exact h1

theorem State.commitArmRequest_tap (s : State) (v : Word) (info : FaultInfo) : SameTap s (s.commitArmRequest v info) :=
  .ite (s.commitRejected_tap _) (.ite (.op (State.raiseI_tap _ _ _) (s.commitRejected_tap _)) (s.commitArm_tap _ _))

theorem State.commitWithdraw_tap (s : State) : SameTap s s.commitWithdraw := .ite .refl rfl

theorem State.commitRequest_tap (s : State) (v : Word) (info : FaultInfo) : SameTap s (s.commitRequest v info) :=
  .ite (.op (State.commitArmRequest_tap _ _ _) (s.cadence_tap _)) (.op (State.commitWithdraw_tap _) (s.cadence_tap _))

theorem State.commitCtrlWrite_tap (s : State) (v : Word) : SameTap s (s.commitCtrlWrite v) :=
  .ite (s.regWrite_tap A.GLB_COMMIT_CTRL v) (s.regWrite_tap A.GLB_COMMIT_CTRL v)

theorem State.glbWrite_tap (s : State) (i : FaultInfo) (a : Nat) (v : Word) : SameTap s (s.glbWrite i a v) :=
  .ite (s.commitRequest_tap _ _) (.ite (s.commitCtrlWrite_tap _) (s.regWrite_tap _ _))

theorem State.glbRead_tap (s : State) (a : Nat) : SameTap s (s.glbRead a).2 :=
  .iteSnd .refl (.iteSnd .refl (.iteSnd .refl (s.readClear_tap a)))

/-! ### FLT, LNK, CVN and CFG -/

theorem State.fltRequest_tap (s : State) : SameTap s s.fltRequest := s.fltRequest_frame.sameTap rfl

theorem State.unlatch_tap (s : State) (n : Nat) : SameTap s (s.unlatch n) := .op (State.fltRequest_tap _) rfl

theorem State.ack_tap (s : State) (n : Nat) : SameTap s (s.ack n) := .ite rfl (.ite rfl (s.unlatch_tap n))

theorem State.inject_tap (s : State) (i : Initiator) (v : Word) : SameTap s (s.inject i v) := .ite rfl (.op (State.raiseI_tap _ _ _) rfl)

theorem State.firstRel_tap (s : State) (v : Word) : SameTap s (s.firstRel v) := .ite rfl .refl

theorem State.fltWrite_tap (s : State) (i : Initiator) (a : Nat) (v : Word) : SameTap s (s.fltWrite i a v) :=
  .ite (s.ack_tap _) (.ite (s.inject_tap _ _) (.ite (s.firstRel_tap _) (.ite rfl (s.regWrite_tap _ _))))

theorem State.linkExit_tap (s : State) (d : Bool) (cause : Nat) : SameTap s (s.linkExit d cause) := (s.linkExit_frame d cause).sameTap rfl

theorem State.lnkCtrlWrite_tap (s : State) (d : Bool) (v : Word) : SameTap s (s.lnkCtrlWrite d v) :=
  .ite (.op (State.linkExit_tap _ _ _) (s.regWrite_tap _ _)) (s.regWrite_tap _ _)

theorem State.linkInject_tap (s : State) (i : Initiator) (ok : Bool) (v : Word) : SameTap s (s.linkInject i ok v) := by
  unfold State.linkInject
  extract_lets k s0 s1
  have h0 : SameTap s s0 := .ite rfl .refl
  exact .ite h0 (.ite h0 (.op (State.raiseI_tap _ _ _) h0))

theorem State.msgOff_tap (s : State) : SameTap s s.msgOff := .ite .refl rfl

theorem State.lnkWrite_tap (s : State) (i : Initiator) (a : Nat) (v : Word) : SameTap s (s.lnkWrite i a v) :=
  .ite (s.lnkCtrlWrite_tap _ _) (.ite (s.lnkCtrlWrite_tap _ _) (.ite (s.linkInject_tap _ _ _)
    (.ite (.op (State.msgOff_tap _) (s.regWrite_tap _ _)) (s.regWrite_tap _ _))))

theorem State.cvnCtrlWrite_tap (s : State) (v : Word) : SameTap s (s.cvnCtrlWrite v) := by
  unfold State.cvnCtrlWrite
  extract_lets s1
  have h1 : SameTap s s1 := .op ((State.masterPosition_frame _).sameTap rfl) (s.regWrite_tap _ _)
  exact .ite (.op (s1.enumAsk_frame.sameTap rfl) h1) h1

theorem State.shareInc_tap (s : State) : SameTap s s.shareInc := .ite rfl .refl

theorem State.shDataWrite_tap (s : State) (v : Word) : SameTap s (s.shDataWrite v) := .op (State.shareInc_tap _) (.ite rfl .refl)

theorem State.cvnWrite_tap (s : State) (a : Nat) (v : Word) : SameTap s (s.cvnWrite a v) :=
  .ite (s.cvnCtrlWrite_tap _) (.ite (s.shDataWrite_tap _) (s.regWrite_tap _ _))

theorem State.cvnRead_tap (s : State) (a : Nat) : SameTap s (s.cvnRead a).2 :=
  .iteSnd s.shareInc_tap (.iteSnd .refl (.iteSnd .refl (s.readClear_tap a)))

theorem State.imgWrite_tap (s : State) (v : Word) : SameTap s (s.imgWrite v) := .ite (s.regWrite_tap _ _) (s.regWrite_tap _ _)

theorem State.keyWrite_tap (s : State) (n : Nat) (v : Word) : SameTap s (s.keyWrite n v) := .ite rfl .refl

theorem State.cfgWrite_tap (s : State) (a : Nat) (v : Word) : SameTap s (s.cfgWrite a v) :=
  .ite (s.imgWrite_tap _) (.ite (s.keyWrite_tap _ _) (.ite rfl (s.regWrite_tap _ _)))

theorem State.cfgRead_tap (s : State) (a : Nat) : SameTap s (s.cfgRead a).2 := .iteSnd .refl (s.readClear_tap a)

theorem State.clearSecrets_tap (s : State) : SameTap s s.clearSecrets := rfl

/-! ### The ends of the jobs -/

theorem State.jobCommitOf_tap (s : State) (t : Nat) : SameTap s (s.jobCommitOf t) := (s.jobCommitOf_frame t).sameTap rfl

theorem State.jobEnd_tap (s : State) (n st : Nat) : SameTap s (s.jobEnd n st) := .op (State.irq_tap _ _) rfl

theorem State.jobEndOf_tap (s : State) (t st : Nat) : SameTap s (s.jobEndOf t st) := (s.jobEndOf_frame t st).sameTap rfl

theorem State.lastResult_tap (s : State) (res why : Field) (result reason : Nat) : SameTap s (s.lastResult res why result reason) :=
  .ite rfl rfl

theorem State.nvResult_tap (s : State) (result reason : Nat) : SameTap s (s.nvResult result reason) := s.lastResult_tap _ _ _ _

theorem State.nvDone_tap (s : State) : SameTap s s.nvDone :=
  .op (State.jobEndOf_tap _ _ _) (.op (State.jobCommitOf_tap _ _) ((s.nvDrop Job.nvmWrite).nvResult_tap 1 0))

theorem State.rebuildDone_tap (s : State) : SameTap s s.rebuildDone := .op (State.jobEndOf_tap _ _ _) (.op (State.jobCommitOf_tap _ _) rfl)

theorem State.calStored_tap (s : State) : SameTap s s.calStored := .op ((State.calCommit_frame _).sameTap rfl) rfl

theorem State.taskDone_tap (s : State) (owner : Nat) : SameTap s (s.taskDone owner) :=
  .ite (s.floorDone_frame.sameTap rfl) (.ite (.ite s.nvDone_tap .refl) (.ite (.op (State.calStored_tap _) rfl)
    (.ite (.op (State.rebuildDone_tap _) rfl) rfl)))

theorem State.unitWrite_tap (s : State) : SameTap s s.unitWrite := s.unitWrite_frame.sameTap rfl

theorem State.gainCommit_tap (s : State) (owner a : Nat) : SameTap s (s.gainCommit owner a) := .ite (s.jobCommitOf_tap _) .refl

theorem State.unitDone_tap (s : State) : SameTap s s.unitDone := by
  unfold State.unitDone
  split
  · exact .refl
  split
  · exact s.unitWrite_tap
  next t ts _ =>
    extract_lets _ _ s1 s2
    have h1 : SameTap s s1 := .op (State.unitWrite_tap _) rfl
    have h2 : SameTap s s2 := .op (s1.gainCommit_tap _ _) h1
    exact .ite s.unitWrite_tap (.ite rfl (.ite (.op (s2.taskDone_tap _) h2) h2))

/-! ### The checkpoint -/

theorem State.setCollect_tap (s : State) (b : RecBank) : SameTap s (s.setCollect b) := .ite rfl rfl

theorem State.setFrozen_tap (s : State) (b : RecBank) : SameTap s (s.setFrozen b) := .ite rfl rfl

theorem State.cpNext_tap (s : State) : SameTap s s.cpNext := .ite rfl rfl

theorem State.cpCommit_tap (s : State) : SameTap s s.cpCommit := by
  unfold State.cpCommit
  extract_lets t s1 _ _ s2 s3 s4 s5
  have h2 : SameTap s s2 := .op (State.setFrozen_tap _ _) rfl
  have h3 : SameTap s s3 := .op (State.irq_tap _ _) h2
  have h4 : SameTap s s4 := .ite h3 h3
  have h5 : SameTap s s5 := .op (State.jobEndOf_tap _ _ _) (.op (s4.jobCommitOf_tap _) h4)
  exact .op s5.cpNext_tap h5

theorem State.cpUnit_tap (s : State) : SameTap s s.cpUnit := by
  unfold State.cpUnit
  split
  · exact .ite (.op (State.cpCommit_tap _) rfl) .refl
  · exact .refl

theorem State.unitSettle_tap (s : State) (t : Nat) : SameTap s (s.unitSettle t) :=
  .ite s.cpUnit_tap (.ite (.ite (.op (State.cpUnit_tap _) s.unitDone_tap) s.unitDone_tap) .refl)

theorem State.cpAbort_tap (s : State) (result reason : Nat) : SameTap s (s.cpAbort result reason) := by
  unfold State.cpAbort
  extract_lets b lost s0 s1 _ s2 s3 s4
  have h0 : SameTap s s0 := .op (State.setFrozen_tap _ _) (s.setCollect_tap b)
  have h1 : SameTap s s1 := .ite (.op (State.raise_tap _ _ _) h0) h0
  have h4 : SameTap s s4 := .ite (.op (State.irq_tap _ _) (.op (s3.raise_tap _ _) h1)) h1
  exact .ite (.op s4.cpNext_tap h4) rfl

theorem State.cpStop_tap (s : State) (cancel : Bool) : SameTap s (s.cpStop cancel) :=
  .ite (s.unitSettle_tap _) (.op (State.cpAbort_tap _ _ _) (s.unitSettle_tap _))

/-! ### The rotation of the banks -/

theorem State.setMem_tap (s : State) (p : Nat) (on : Bool) : SameTap s (s.setMem p on) := (s.setMem_frame p on).sameTap rfl

theorem State.nomadRest_tap (s : State) : SameTap s s.nomadRest := s.nomadRest_frame.sameTap rfl

theorem State.migrateAbandon_tap (s : State) : SameTap s s.migrateAbandon := by
  obtain ⟨u, hu, he⟩ := s.migrateAbandon_steps
  rw [he]
  exact .op u.nomadRest_tap (hu.sameTap rfl)

theorem State.migrateStart_tap (s : State) (b : Nat) : SameTap s (s.migrateStart b) := by
  unfold State.migrateStart
  extract_lets s1
  have h1 : SameTap s s1 := .ite rfl .refl
  exact h1

theorem State.rotationGo_tap (s : State) : SameTap s s.rotationGo := by
  unfold State.rotationGo
  split
  · exact .refl
  split
  · exact .refl
  · refine .ite .refl ?_
    split
    · split
      · exact s.migrateStart_tap _
      · exact .refl
    · exact s.setMem_tap _ _

theorem State.nomadOn_tap (s : State) : SameTap s s.nomadOn := by
  unfold State.nomadOn
  split
  · exact .refl
  split
  · exact .refl
  · exact .ite .refl (s.setMem_tap _ _)

theorem State.rotateJobEnd_tap (s : State) : SameTap s s.rotateJobEnd := by
  unfold State.rotateJobEnd
  split
  · exact .op (State.jobEndOf_tap _ _ _) rfl
  · exact .refl

theorem State.rotateCheck_tap (s : State) : SameTap s s.rotateCheck := .ite (.op (State.nomadRest_tap _) s.rotateJobEnd_tap) .refl

theorem State.bistCancel_tap (s : State) : SameTap s s.bistCancel :=
  .ite rfl (.op (State.rotationGo_tap _) (.op (State.migrateAbandon_tap _) rfl))

/-! ### The stop of a job -/

theorem State.calIdle_tap (s : State) : SameTap s s.calIdle := rfl

theorem State.calCancel_tap (s : State) : SameTap s s.calCancel := by
  unfold State.calCancel
  split
  · extract_lets s0
    have h0 : SameTap s s0 := by
      unfold s0
      split
      · exact .ite .refl s.calIdle_tap
      · exact .refl
    exact h0
  · exact .refl

theorem State.rsEnd_tap (s : State) (result reason : Nat) : SameTap s (s.rsEnd result reason) := (s.rsEnd_frame result reason).sameTap rfl

theorem State.jobWorkEnd_tap (s : State) (t : Nat) (cancel : Bool) : SameTap s (s.jobWorkEnd t cancel) :=
  .ite rfl (.ite (.op (State.nvResult_tap _ _ _) rfl) (.ite s.bistCancel_tap (.ite s.calCancel_tap (.ite (s.rsEnd_tap _ _)
    (.ite rfl (.ite rfl (.ite (s.cpAbort_tap _ _) .refl)))))))

theorem State.jobStop_tap (s : State) (n : Nat) (cancel : Bool) : SameTap s (s.jobStop n cancel) := by
  unfold State.jobStop
  split
  · extract_lets s0 s1
    have h0 : SameTap s s0 := s.unitSettle_tap _
    have h1 : SameTap s s1 := .op (State.jobWorkEnd_tap _ _ _) (.op (s0.jobEnd_tap _ _) h0)
    exact .ite (.ite h1 h1) h0
  · exact .refl

theorem State.jobsStop_tap (s : State) (cancel : Bool) : SameTap s (s.jobsStop cancel) :=
  .op (.forUpto (fun n s => s.jobStop_tap n cancel) 4 _) (.ite (s.cpStop_tap _) .refl)

end Sys2Proof.Machine
end

section
/-!
The TAP's state under the power state and the starts of the jobs (R425 to R431, R438 to R443).
-/

namespace Sys2Proof.Machine

/-! ### The starts of the jobs -/

theorem State.setSuspend_tap (s : State) (n : Nat) (on : Bool) : SameTap s (s.setSuspend n on) := rfl

theorem State.startFail_tap (s : State) (n reason : Nat) : SameTap s (s.startFail n reason) := .op (State.jobEnd_tap _ _ _) rfl

theorem State.newChallenge_tap (s : State) : SameTap s s.newChallenge := s.newChallenge_frame.sameTap rfl

theorem State.startNotice_tap (s : State) (t : Nat) : SameTap s (s.startNotice t) := .ite rfl (.ite s.newChallenge_tap .refl)

theorem State.scanEnd_tap (s : State) : SameTap s s.scanEnd := by
  unfold State.scanEnd
  split
  · exact .refl
  · exact .op (State.jobEndOf_tap _ _ _) (.op (State.jobCommitOf_tap _ _) rfl)

theorem State.scanStart_tap (s : State) : SameTap s s.scanStart.1 := .iteFst rfl rfl

theorem State.scanBegin_tap (s : State) : SameTap s s.scanBegin.1 := .iteFst (.op (State.scanEnd_tap _) s.scanStart_tap) s.scanStart_tap

theorem State.nvStart_tap (s : State) : SameTap s s.nvStart.1 := by
  unfold State.nvStart
  extract_lets src dst len r _ s1
  have h1 : SameTap s s1 := rfl
  exact .iteFst (s.nvResult_tap _ _) (.iteFst (.op s1.nvDone_tap h1) h1)

theorem State.postStart_tap (s : State) (job : Bool) : SameTap s (s.postStart job) := by
  unfold State.postStart
  extract_lets s1 s2 s3
  have h1 : SameTap s s1 := .op ((State.tilesEmpty_frame _ 3).sameTap rfl) s.migrateAbandon_tap
  have h2 : SameTap s s2 := .op (.forUpto (fun p s => s.setMem_tap p true) 17 s1) h1
  exact h2

theorem State.bistStart_tap (s : State) : SameTap s s.bistStart.1 := by
  unfold State.bistStart
  extract_lets mode r s1
  have h1 : SameTap s s1 := rfl
  exact .iteFst rfl (.iteFst (.op (State.jobCommitOf_tap _ _) (.op (s1.postStart_tap true) h1))
    (.op (State.rotationGo_tap _) (.op (State.rotateJobEnd_tap _) rfl)))

theorem State.calYield_tap (s : State) (it : CalItem) : SameTap s (s.calYield it) := (s.calYield_frame it).sameTap rfl

theorem State.calNext_tap (s : State) : SameTap s s.calNext := s.calNext_frame.sameTap rfl

theorem State.calRunStart_tap (s : State) : SameTap s s.calRunStart.1 := by
  unfold State.calRunStart
  extract_lets w has lc pt ref s1 _ s2
  have href (r : Nat) : SameTap s (ref r).1 := rfl
  have h2 : SameTap s s2 := rfl
  refine .iteFst (href _) (.iteFst (href _) (.iteFst (href _) (.iteFst (href _) (.iteFst (href _) (.iteFst (href _) (.iteFst (href _) ?_))))))
  split
  next it _ => exact .iteFst rfl (.op (s2.calYield_tap it) h2)
  · exact .op s2.calNext_tap h2

theorem State.loadStart_tap (s : State) : SameTap s s.loadStart.1 := .iteFst (s.lastResult_tap _ _ _ _) rfl

theorem State.rsStart_tap (s : State) : SameTap s s.rsStart.1 :=
  .iteFst ((s.rsResult_frame _ _).sameTap rfl) (.iteFst rfl (.op ((State.cfgRequest_frame _ true).sameTap rfl) rfl))

theorem State.defectLimit_tap (s : State) : SameTap s s.defectLimit := .ite (.op (State.raise_tap _ _ _) rfl) rfl

theorem State.rebuildStart_tap (s : State) : SameTap s s.rebuildStart.1 :=
  .iteFst rfl (.iteFst (.iteFst (.op (State.rebuildDone_tap _) (.op (State.defectLimit_tap _) rfl)) rfl)
    (.iteFst (.iteFst (.op (State.jobEndOf_tap _ _ _) rfl) rfl) rfl))

theorem State.lcStart_tap (s : State) : SameTap s s.lcStart.1 := by
  unfold State.lcStart
  extract_lets target r s1 _ _ _ s2
  have h1 : SameTap s s1 := s.newChallenge_tap
  have h2 : SameTap s s2 := .ite h1 h1
  exact .iteFst h1 h2

theorem State.checkpointStart_tap (s : State) : SameTap s s.checkpointStart.1 := .iteFst rfl rfl

theorem State.ownerStart_tap (s : State) (t : Nat) : SameTap s (s.ownerStart t).1 :=
  .iteFst s.scanBegin_tap (.iteFst s.nvStart_tap (.iteFst s.bistStart_tap (.iteFst s.calRunStart_tap (.iteFst s.loadStart_tap
    (.iteFst s.rsStart_tap (.iteFst s.rebuildStart_tap (.iteFst s.lcStart_tap s.checkpointStart_tap)))))))

theorem State.jobStart_tap (s : State) (n t : Nat) : SameTap s (s.jobStart n t) := by
  unfold State.jobStart
  extract_lets s1 r r2
  have h1 : SameTap s s1 := rfl
  have hrun : SameTap s (s1.put (F.PWR_JOBn_STATUS_STATE n) Job.running) := rfl
  have h2 : SameTap s r2.1 := hrun.trans (State.ownerStart_tap _ t)
  exact .ite (.op (State.startFail_tap _ _ _) (.op (s1.startNotice_tap t) h1)) (.ite h2 (.op (State.startFail_tap _ _ _) h2))

theorem State.jobSuspend_tap (s : State) (n : Nat) : SameTap s (s.jobSuspend n) := .ite rfl (.ite .refl (s.setSuspend_tap n true))

theorem State.calResume_tap (s : State) : SameTap s s.calResume := .ite (.ite .refl ((s.calFail_frame _).sameTap rfl)) .refl

theorem State.jobResume_tap (s : State) (n : Nat) : SameTap s (s.jobResume n) :=
  .ite (.op (State.rotationGo_tap _) (.op (State.rotateCheck_tap _) rfl)) (.ite (.op (State.calResume_tap _) rfl) rfl)

theorem State.jobCommand_tap (s : State) (n cmd t : Nat) : SameTap s (s.jobCommand n cmd t) :=
  .ite .refl (.ite (.ite rfl (s.jobStart_tap n t)) (.ite rfl (.ite (.ite (s.jobSuspend_tap n) .refl)
    (.ite (.ite (s.jobResume_tap n) .refl) (.op (State.jobStop_tap _ n true) (s.setSuspend_tap n false))))))

/-! ### The power state -/

theorem State.powerResult_tap (s : State) (r : Nat) : SameTap s (s.powerResult r) := .op (State.irq_tap _ _) rfl

theorem State.enterState_tap (s : State) (st : Nat) : SameTap s (s.enterState st) := (s.enterState_frame st).sameTap rfl

theorem State.transition_tap (s : State) (t n : Nat) : SameTap s (s.transition t n) := rfl

theorem State.requestLatch_tap (s : State) (t : Nat) : SameTap s (s.requestLatch t) := rfl

theorem State.d1Begin_tap (s : State) : SameTap s s.d1Begin := .op (State.jobsStop_tap _ true) rfl

theorem State.wakeBegin_tap (s : State) (source : Nat) : SameTap s (s.wakeBegin source) := rfl

theorem State.darkSw_tap (s : State) (on : Bool) : SameTap s (s.darkSw on) := .ite .refl (.op (State.safRefresh_tap _) rfl)

theorem State.darkSwBack_tap (s : State) : SameTap s s.darkSwBack := by
  unfold State.darkSwBack
  split
  · exact .op (State.darkSw_tap _ _) rfl
  · exact .refl

theorem State.pixUp_tap (s : State) : SameTap s s.pixUp := by
  unfold State.pixUp
  extract_lets s1
  have h1 : SameTap s s1 := .op ((State.pixPowerUp_frame _).sameTap rfl) rfl
  exact h1

theorem State.litBegin_tap (s : State) (t : Nat) : SameTap s (s.litBegin t) := by
  unfold State.litBegin
  extract_lets _ s1
  have h1 : SameTap s s1 := .ite (.op (State.darkSw_tap _ true) rfl) .refl
  exact .op (State.pixUp_tap _) (.op (s1.transition_tap _ _) h1)

theorem State.standbySwitch_tap (s : State) (t : Nat) : SameTap s (s.standbySwitch t) :=
  .ite .refl (.op (State.powerResult_tap _ _) (.op (State.enterState_tap _ _) (s.darkSw_tap _)))

theorem State.requestStart_tap (s : State) (t : Nat) : SameTap s (s.requestStart t) :=
  .ite (s.powerResult_tap _) (.ite (.ite (s.wakeBegin_tap 1) (s.wakeBegin_tap 1)) (.ite
    (.ite (.op (State.d1Begin_tap _) (s.transition_tap _ _)) (s.litBegin_tap t))
    (.ite (s.standbySwitch_tap t) (s.transition_tap _ _))))

theorem State.latchedStart_tap (s : State) : SameTap s s.latchedStart := .ite (.op (State.requestStart_tap _ _) rfl) .refl

theorem State.transitionEnd_tap (s : State) (st result : Nat) : SameTap s (s.transitionEnd st result) := by
  unfold State.transitionEnd
  extract_lets s1 s2
  have h1 : SameTap s s1 := .ite rfl .refl
  have h2 : SameTap s s2 := .op (State.powerResult_tap _ _) (.op (State.enterState_tap _ _) h1)
  exact .op (State.latchedStart_tap _) h2

theorem State.rasterStop_tap (s : State) : SameTap s s.rasterStop := s.rasterStop_frame.sameTap rfl

theorem State.litUndo_tap (s : State) (result : Nat) : SameTap s (s.litUndo result) :=
  .op (State.transitionEnd_tap _ _ _) (.op (State.darkSwBack_tap _) s.rasterStop_tap)

theorem State.reverse_tap (s : State) : SameTap s s.reverse := .ite (s.litUndo_tap _) (.ite (s.transitionEnd_tap _ _) rfl)

theorem State.entryUndo_tap (s : State) : SameTap s s.entryUndo := .ite rfl s.reverse_tap

theorem State.dormantReverse_tap (s : State) (t : Nat) : SameTap s (s.dormantReverse t) :=
  .ite (s.requestLatch_tap t) (.ite s.reverse_tap (.ite s.entryUndo_tap s.entryUndo_tap))

theorem State.requestDuring_tap (s : State) (t : Nat) : SameTap s (s.requestDuring t) :=
  .ite (s.dormantReverse_tap t) (.ite .refl (.ite (.op (State.reverse_tap _) (.ite (s.requestLatch_tap t) .refl)) (s.requestLatch_tap t)))

theorem State.powerRequest_tap (s : State) (t : Nat) : SameTap s (s.powerRequest t) :=
  .ite (s.powerResult_tap _) (.ite (s.requestStart_tap t) (s.requestDuring_tap t))

theorem State.pwrWrite_tap (s : State) (a : Nat) (v : Word) : SameTap s (s.pwrWrite a v) :=
  .ite (s.powerRequest_tap _) (.ite (s.jobCommand_tap _ _ _) (s.regWrite_tap _ _))

theorem State.safCommand_tap (s : State) (v : Word) : SameTap s (s.safCommand v) :=
  .ite (.op (State.powerRequest_tap _ _) (s.safCmd_tap v)) (s.safCmd_tap v)

theorem State.safWrite_tap (s : State) (a : Nat) (v : Word) : SameTap s (s.safWrite a v) :=
  .ite (s.safCommand_tap v) (.ite (s.safConfig_tap a v) (.ite .refl (s.regWrite_tap a v)))

end Sys2Proof.Machine
end

section
/-!
The TAP's state under the registers of CORE and the memory, and from there under every access and every edge of TCK (R418, R419).
-/

namespace Sys2Proof.Machine

/-! ### The registers of CORE -/

theorem State.retime_tap (s : State) (t : Retime) : SameTap s (s.retime t) := .ite rfl (.ite rfl rfl)

theorem State.bgEnWrite_tap (s : State) (v : Word) : SameTap s (s.bgEnWrite v) :=
  .ite (.ite (.op (State.nomadOn_tap _) rfl) (.op (State.nomadRest_tap _) rfl))
    (.ite (.op (State.rotationGo_tap _) rfl) (.op (State.migrateAbandon_tap _) rfl))

theorem State.bankLost_tap (s : State) (b : Nat) : SameTap s (s.bankLost b) := by
  unfold State.bankLost
  extract_lets s1
  have h1 : SameTap s s1 := .ite ((s.sealLost_frame 2).sameTap rfl) .refl
  exact h1

theorem State.bankPower_tap (s : State) (b : Nat) (on : Bool) : SameTap s (s.bankPower b on) := by
  unfold State.bankPower
  extract_lets s1 s2
  have h1 : SameTap s s1 := .ite s.migrateAbandon_tap .refl
  have h2 : SameTap s s2 := .op (State.bankLost_tap _ b) (.op (s1.setMem_tap _ false) h1)
  exact .ite .refl (.ite (s.setMem_tap _ true) h2)

theorem State.banksPower_tap (s : State) (en : Nat) : SameTap s (s.banksPower en) :=
  .forUpto (fun b s => .ite .refl (s.bankPower_tap b _)) 16 s

theorem State.scanBankLost_tap (s : State) : SameTap s s.scanBankLost := by
  unfold State.scanBankLost
  split
  · exact .refl
  · exact .ite (.op (State.jobEndOf_tap _ _ _) rfl) .refl

theorem State.bankEnWrite_tap (s : State) (v : Word) : SameTap s (s.bankEnWrite v) :=
  .op (State.scanBankLost_tap _) (.op (State.rotationGo_tap _) (.op (State.rotateCheck_tap _) (.op (State.banksPower_tap _ _) rfl)))

theorem State.dirTouch_tap (s : State) (t : Nat) (i : FaultInfo) : SameTap s (s.dirTouch t i) := (s.dirTouch_frame t i).sameTap rfl

theorem State.sealAccept_tap (s : State) (t : Nat) (self : Bool) (from_ : Nat) : SameTap s (s.sealAccept t self from_) :=
  .ite (s.dirTouch_tap t (sealInfo from_ t)) (s.dirTouch_tap t (sealInfo from_ t))

theorem State.sealStart_tap (s : State) (v : Word) (from_ : Nat) : SameTap s (s.sealStart v from_) :=
  .ite rfl (.ite rfl (.ite rfl (.ite rfl (s.sealAccept_tap _ _ _))))

theorem State.ttInc_tap (s : State) : SameTap s s.ttInc := .ite rfl .refl

theorem State.ttDataWrite_tap (s : State) (v : Word) : SameTap s (s.ttDataWrite v) :=
  .ite (.op (State.ttInc_tap _) rfl) (.ite (.op (State.ttInc_tap _) rfl) (.op (State.ttInc_tap _) rfl))

theorem State.coefInc_tap (s : State) : SameTap s s.coefInc := .ite rfl .refl

theorem State.coefDataWrite_tap (s : State) (v : Word) : SameTap s (s.coefDataWrite v) :=
  .ite (.op (State.coefInc_tap _) rfl) (.ite (.op (State.coefInc_tap _) rfl) (.op (State.coefInc_tap _) rfl))

theorem State.listReject_tap (s : State) (reason obj : Nat) (info : FaultInfo) : SameTap s (s.listReject reason obj info) := by
  unfold State.listReject
  extract_lets s1 s2
  have h2 : SameTap s s2 := .ite rfl rfl
  exact .ite (.op (s2.raiseI_tap _ _) h2) (.ite (.op (s2.raiseI_tap _ _) h2) h2)

theorem State.listSubmit_tap (s : State) (ws : List Word) (info : FaultInfo) : SameTap s (s.listSubmit ws info) := by
  unfold State.listSubmit
  extract_lets r
  refine .ite ?_ (s.listReject_tap _ _ _)
  cases ws <;> rfl

theorem State.gainReload_tap (s : State) (v : Word) : SameTap s (s.gainReload v) := .ite .refl rfl

theorem State.colInc_tap (s : State) : SameTap s s.colInc := .ite rfl .refl

theorem State.pcDataWrite_tap (s : State) (v : Word) : SameTap s (s.pcDataWrite v) := .op (State.colInc_tap _) (.ite rfl .refl)

theorem State.mapRaise_tap (s : State) (x y st cause : Nat) : SameTap s (s.mapRaise x y st cause) :=
  .ite .refl (.op (State.defectLimit_tap _) rfl)

theorem State.defectSet_tap (s : State) (v : Word) : SameTap s (s.defectSet v) := .ite (s.mapRaise_tap _ _ _ _) .refl

theorem State.defectLimitWrite_tap (s : State) (v : Word) : SameTap s (s.defectLimitWrite v) := .op (State.defectLimit_tap _) rfl

theorem State.swapRequest_tap (s : State) : SameTap s s.swapRequest := .ite (.op (State.irq_tap _ _) (.ite .refl rfl)) rfl

theorem State.railDisable_tap (s : State) : SameTap s s.railDisable := .ite .refl rfl

theorem State.lpeCtrlWrite_tap (s : State) (v : Word) : SameTap s (s.lpeCtrlWrite v) := by
  unfold State.lpeCtrlWrite
  extract_lets s1 s2
  have h1 : SameTap s s1 := s.regWrite_tap _ _
  have h2 : SameTap s s2 := .ite (.op s1.swapRequest_tap h1) h1
  exact .ite (.op s2.railDisable_tap h2) h2

theorem State.bankWrite_tap (s : State) (b : Nat) (v : Word) : SameTap s (s.bankWrite b v) := .ite rfl (.ite rfl (s.regWrite_tap _ _))

theorem State.lpCoefInc_tap (s : State) : SameTap s s.lpCoefInc := .ite rfl .refl

theorem State.bankUnready_tap (s : State) (b : Nat) : SameTap s (s.bankUnready b) := .ite rfl rfl

theorem State.lpCoefWrite_tap (s : State) (v : Word) : SameTap s (s.lpCoefWrite v) :=
  .ite (.op (State.lpCoefInc_tap _) rfl) (.ite (.op (State.lpCoefInc_tap _) rfl) (.ite (.op (State.lpCoefInc_tap _) rfl)
    (.op (State.lpCoefInc_tap _) (.op (State.bankUnready_tap _ _) rfl))))

theorem State.satFlags_tap (s : State) (n : Nat) (hi lo i : Bool) : SameTap s (s.satFlags n hi lo i) := by
  unfold State.satFlags
  extract_lets s1 s2 s3
  have h2 : SameTap s s2 := .ite rfl rfl
  have h3 : SameTap s s3 := .ite h2 h2
  exact .ite h3 h3

theorem State.fbClear_tap (s : State) (n : Nat) (v : Word) : SameTap s (s.fbClear n v) := .ite (.op (State.satFlags_tap _ _ _ _ _) rfl) .refl

theorem State.coreWrite_tap (s : State) (i : FaultInfo) (a : Nat) (v : Word) : SameTap s (s.coreWrite i a v) :=
  .ite .refl (.ite (.ite (s.retime_tap _) .refl) (.ite (s.bgEnWrite_tap v) (.ite (s.bankEnWrite_tap v) (.ite (s.sealStart_tap v _)
    (.ite (s.ttDataWrite_tap v) (.ite (s.coefDataWrite_tap v) (.ite (s.listSubmit_tap _ _) (.ite (s.gainReload_tap v)
    (.ite (s.pcDataWrite_tap v) (.ite (s.defectSet_tap v) (.ite (s.defectLimitWrite_tap v) (.ite (s.lpeCtrlWrite_tap v)
    (.ite (s.bankWrite_tap 0 v) (.ite (s.bankWrite_tap 1 v) (.ite (s.lpCoefWrite_tap v) (.ite (s.fbClear_tap _ v)
    (.ite rfl (s.regWrite_tap a v))))))))))))))))))

theorem State.dirSelRead_tap (s : State) (i : FaultInfo) : SameTap s (s.dirSelRead i) := .ite (s.dirTouch_tap _ _) .refl

theorem State.ttDataRead_tap (s : State) : SameTap s s.ttDataRead.2 := .iteSnd s.ttInc_tap (.op (State.ttInc_tap _) rfl)

theorem State.coefDataRead_tap (s : State) : SameTap s s.coefDataRead.2 := .iteSnd s.coefInc_tap (.op (State.coefInc_tap _) rfl)

theorem State.lpCoefRead_tap (s : State) : SameTap s s.lpCoefRead.2 :=
  .iteSnd (.op (State.lpCoefInc_tap _) rfl) (.op (State.lpCoefInc_tap _) rfl)

theorem State.coreRead_tap (s : State) (i : FaultInfo) (a : Nat) : SameTap s (s.coreRead i a).2 :=
  .iteSnd .refl (.iteSnd (s.dirSelRead_tap i) (.iteSnd (s.dirSelRead_tap i) (.iteSnd .refl (.iteSnd s.ttDataRead_tap
    (.iteSnd s.coefDataRead_tap (.iteSnd .refl (.iteSnd .refl (.iteSnd s.colInc_tap (.iteSnd .refl (.iteSnd rfl (.iteSnd .refl
    (.iteSnd s.lpCoefRead_tap (.iteSnd .refl (.iteSnd .refl (.iteSnd .refl (.iteSnd .refl (.iteSnd .refl
    (s.readClear_tap a))))))))))))))))))

/-! ### The accesses -/

theorem State.hostRead_tap (s : State) (i : Initiator) (a : Nat) : SameTap s (s.hostRead i a).2 := by
  unfold State.hostRead
  split
  · exact s.glbRead_tap a
  · exact s.readClear_tap a
  · exact s.readClear_tap a
  · exact s.readClear_tap a
  · exact s.cvnRead_tap a
  · exact s.cfgRead_tap a
  · exact s.readClear_tap a
  · exact s.coreRead_tap _ a

theorem State.hostWrite_tap (s : State) (i : Initiator) (a : Nat) (v : Word) : SameTap s (s.hostWrite i a v) := by
  unfold State.hostWrite
  extract_lets info
  split
  · exact s.glbWrite_tap info a v
  · exact s.safWrite_tap a v
  · exact s.fltWrite_tap i a v
  · exact s.lnkWrite_tap i a v
  · exact s.cvnWrite_tap a v
  · exact s.cfgWrite_tap a v
  · exact s.pwrWrite_tap a v
  · exact s.coreWrite_tap info a v

theorem State.offBlock_tap (s : State) (i : Initiator) (a : Nat) : SameTap s (s.offBlock i a) := .op (State.raiseI_tap _ _ _) rfl

theorem SameTap.answer {s t : State} (h : SameTap s t) (v : Word) (r : Nat) : SameTap s (t.answer v r) := h

/-- A refused access is recorded and answered. -/
theorem State.refused_tap (s : State) (i res : Nat) (write : Bool) (a : Nat) (v : Word) (r : Nat) :
    SameTap s ((s.accRecord i res write a).answer v r) := (s.accRecord_tap i res write a).answer v r

theorem State.portWrite_tap (s : State) (i : Initiator) (a : Nat) {k : State → State} (hk : SameTap s (k s)) :
    SameTap s (s.portWrite i a k) := by
  unfold State.portWrite
  extract_lets r s1
  have h1 : SameTap s s1 := .ite (s.offBlock_tap i a) .refl
  exact .ite .refl (.ite (hk.answer _ _) (.op (s1.refused_tap _ _ _ _ _ _) h1))

theorem State.portRead_tap (s : State) (i : Initiator) (a : Nat) {k : State → Word × State} (hk : SameTap s (k s).2) :
    SameTap s (s.portRead i a k) :=
  .ite .refl (.ite (.ite (SameTap.refl.answer _ _) (hk.answer _ _)) (s.refused_tap _ _ _ _ _ _))

theorem State.afterSeal_tap (s : State) (ts : List Nat) : SameTap s (s.afterSeal ts) := (s.afterSeal_frame ts).sameTap rfl

theorem State.layerRead_tap (s : State) (i : Initiator) (a : Nat) : SameTap s (s.layerRead i a) := by
  unfold State.layerRead
  extract_lets s1 r
  have h1 : SameTap s s1 := .ite .refl (s.afterSeal_tap _)
  exact .ite (h1.answer _ _) (.op (s1.refused_tap _ _ _ _ _ _) h1)

theorem State.dirTouches_tap (i : FaultInfo) : ∀ (ts : List Nat) (s : State), SameTap s (s.dirTouches i ts)
  | [], _ => .refl
  | t :: ts, s => (s.dirTouch_tap t i).trans (State.dirTouches_tap i ts _)

theorem State.unsealTiles_tap : ∀ (ts : List Nat) (s : State), SameTap s (s.unsealTiles ts)
  | [], _ => .refl
  | t :: ts, s => SameTap.trans (t := s.setDir t { s.dirEntry t with st := .unsealed }) rfl (State.unsealTiles_tap ts _)

theorem State.memStore_tap (s : State) (a : Nat) (bs : List Byte) (i : FaultInfo) : SameTap s (s.memStore a bs i) := by
  unfold State.memStore
  extract_lets s1
  have h1 : SameTap s s1 := .op (State.dirTouches_tap i _ _) (s.afterSeal_tap _)
  exact .op (State.unsealTiles_tap _ s1) h1

theorem State.layerWrite_tap (s : State) (i : Initiator) (a : Nat) (v : Word) : SameTap s (s.layerWrite i a v) := by
  unfold State.layerWrite
  extract_lets r s1
  have h1 : SameTap s s1 := .ite (s.offBlock_tap i a) .refl
  have hlock : SameTap s (s.lockedWrite i a) := .op (State.raiseI_tap _ _ _) rfl
  exact .ite (.ite (.op (State.refused_tap _ _ _ _ _ _ _) hlock) ((s.memStore_tap _ _ _).answer _ _)) (.op (s1.refused_tap _ _ _ _ _ _) h1)

theorem State.sealInPost_tap (s : State) (i : Initiator) (a : Nat) (v : Word) : SameTap s (s.sealInPost i a v) :=
  .ite (s.sealStart_tap v _) .refl

theorem State.wordRead_tap (s : State) (i : Initiator) (a : Nat) : SameTap s (s.wordRead i a) :=
  .ite (s.refused_tap _ _ _ _ _ _) (.ite (s.portRead_tap i a (s.hostRead_tap i a)) (.ite (s.layerRead_tap i a)
    (.ite (SameTap.refl.answer _ _) (s.refused_tap _ _ _ _ _ _))))

theorem State.wordWrite_tap (s : State) (i : Initiator) (a : Nat) (v : Word) : SameTap s (s.wordWrite i a v) :=
  .ite (s.refused_tap _ _ _ _ _ _) (.ite (.op (State.portWrite_tap _ i a (State.hostWrite_tap _ i a v)) (s.sealInPost_tap i a v))
    (.ite (s.layerWrite_tap i a v) (.ite (s.refused_tap _ _ _ _ _ _) (s.refused_tap _ _ _ _ _ _))))

/-! ### The edges of TCK (R418) -/

theorem State.jtagResult_tap (s : State) : SameTap s s.jtagResult := rfl

theorem State.jtagRefuse_tap (s : State) (write : Bool) (a : Nat) : SameTap s (s.jtagRefuse write a) := rfl

theorem State.regaccGet_tap (s : State) (a : Nat) : SameTap s (s.regaccGet a) :=
  .ite .refl (.ite (.op (State.jtagResult_tap _) (s.wordRead_tap .jtag a)) (s.jtagRefuse_tap _ _))

theorem State.regaccPut_tap (s : State) (a : Nat) (v : Word) : SameTap s (s.regaccPut a v) :=
  .ite .refl (.ite (.op (State.jtagResult_tap _) (s.wordWrite_tap .jtag a v)) (s.jtagRefuse_tap _ _))

theorem State.drUpdate_tap (s : State) (w : Nat) : SameTap s (s.drUpdate w) :=
  .ite (.ite (s.regaccGet_tap _) (.ite (s.regaccPut_tap _ _) .refl)) .refl

/-- The chains of SCAN are connected. -/
theorem SameTap.scanOn {s t : State} (h : SameTap s t) : SameTap s { t with cfg := { t.cfg with scanOn := true } } := h

theorem State.scanGrant_tap (s : State) : SameTap s s.scanGrant :=
  .ite .refl (.ite (SameTap.refl.scanOn) (.ite s.clearSecrets_tap.scanOn .refl))

theorem State.testEntry_tap (s : State) : SameTap s s.testEntry := .ite (.op (State.rasterStop_tap _) (s.raise_tap _ _)) .refl

theorem State.irUpdate_tap (s : State) (ir : BitVec 4) : SameTap s (s.irUpdate ir) :=
  .ite (.op (State.scanGrant_tap _) rfl) (.ite (.op (State.testEntry_tap _) rfl) rfl)

/-- The controller has taken an edge into the state `t`. -/
def State.tapGo (s : State) (t : Tap) (bits : List Bool) : State := { s with cfg := { s.cfg with tap := t, bits := bits } }

/-- What the edge into a state of the controller applies. -/
def State.tapApply (s : State) (bits : List Bool) : Tap → State
  | .updateIr => s.irUpdate (BitVec.ofNat 4 (bitsValue bits))
  | .updateDr => s.drUpdate (bitsValue bits)
  | .testLogicReset => s.tapReset
  | _ => s

theorem State.tapEdge_eq (s : State) (tms tdi : Bool) :
    ∃ bits, s.tapEdge tms tdi = (s.tapGo (s.cfg.tap.next tms) bits).tapApply bits (s.cfg.tap.next tms) := ⟨_, rfl⟩

theorem State.tapApply_tap {s : State} {t : Tap} (h : s.cfg.tap = t) (bits : List Bool) : (s.tapApply bits t).cfg.tap = t := by
  cases t with
  | updateIr => exact Eq.trans (s.irUpdate_tap _) h
  | updateDr => exact Eq.trans (s.drUpdate_tap _) h
  | testLogicReset => rfl
  | _ => exact h

/-- At each edge the controller goes on as its arcs give it, whatever access the edge applies. -/
theorem State.tapEdge_next (s : State) (tms tdi : Bool) : (s.tapEdge tms tdi).cfg.tap = s.cfg.tap.next tms := by
  obtain ⟨bits, he⟩ := s.tapEdge_eq tms tdi
  rw [he]
  exact State.tapApply_tap rfl bits

/-- From every state of the controller five edges with TMS at 1 lead to Test-Logic-Reset. -/
theorem Tap.next_five (t : Tap) : ((((t.next true).next true).next true).next true).next true = .testLogicReset := by
  cases t <;> rfl

end Sys2Proof.Machine
end

section
/-!
The straps, the oasis copies, the reset of the island and its ticks together (R38, R57, R274, R293 to R299, R418, R500).
-/

namespace Sys2Proof.Machine

/-- TRST_N low leaves the controller in Test-Logic-Reset with IDCODE as its instruction (R418). -/
theorem State.tapTick_trst (s : State) (tck : List (Bool × Bool)) :
    (s.tapTick true tck).cfg.trst = true ∧ (s.tapTick true tck).cfg.tap = .testLogicReset ∧ (s.tapTick true tck).cfg.ir = 1 ∧
      (s.tapTick true tck).cfg.scanOn = false := ⟨rfl, rfl, rfl, rfl⟩

theorem State.tapTick_five (s : State) : (s.tapTick false (List.replicate 5 (true, false))).cfg.tap = .testLogicReset := by
  have hfold : s.tapTick false (List.replicate 5 (true, false)) =
      ((((State.tapEdge { s with cfg := { s.cfg with trst := false } } true false).tapEdge true false).tapEdge true false).tapEdge
        true false).tapEdge true false := rfl
  rw [hfold]
  simp only [State.tapEdge_next]
  exact Tap.next_five _

/-- With no edge taken the pads of the port touch what CFG holds alone. -/
theorem State.tapTick_frame (s : State) {trst : Bool} {tck : List (Bool × Bool)} (h : trst = true ∨ tck = []) :
    Frame [] [.cfg, .tap] s (s.tapTick trst tck) := by
  rcases h with rfl | rfl
  · exact .upd .refl rfl id
  · unfold State.tapTick
    extract_lets _ s1
    have h1 : Frame [] [.cfg, .tap] s s1 := .upd .refl rfl id
    exact .ite (.upd h1 rfl id) h1

theorem safetyTick_counts {s : State} (hs : s.Wf) (i : TickIn) (hon : s.safOn = true) :
    ∃ t, exec (.safetyTick i) s = .next t ∧
      (i.trst = true → t.cfg.trst = true ∧ t.cfg.tap = .testLogicReset ∧ t.cfg.ir = 1 ∧ t.cfg.scanOn = false) ∧
      (i.trst = false → i.tck = List.replicate 5 (true, false) → t.cfg.tap = .testLogicReset) ∧
      (i.trst = true ∨ i.tck = [] →
        t.get F.SAF_TICK_TICK = (s.get F.SAF_TICK_TICK + 1) % 2 ^ 32 ∧
        t.get F.SAF_DISC_DISC = (if i.vddio < 1400 ∨ s.aonOn = false ∨ i.darkA = !i.darkB then 0
          else min (s.get F.SAF_DISC_DISC + 1) s.discLimit)) := by
  obtain ⟨htick, hdisc⟩ := State.tickDone_counts hs i
  refine ⟨_, execSafetyTick_on hon, fun h => ?_, fun h hk => ?_, fun h => ?_⟩
  · rw [h]
    exact State.tapTick_trst _ _
  · rw [h, hk]
    exact State.tapTick_five _
  · have hf := (s.tickDone i).tapTick_frame h
    rw [hf.get rfl, hf.get rfl]
    exact ⟨htick, hdisc⟩

/-- Settles O43: the strap read, the oasis copies, the island's reset and its end, the grant, and the tick. -/
theorem strapsCopiesAndTicks : Obligations.StrapsCopiesAndTicks := by
  refine ⟨fun s => execSealReadStart_off, fun s => sealReadStart_starts, fun s => sealLatch_takes, fun s => oasisBootCheck_shows,
    fun s v hs hon hrun hras hv hsrc => ?_, fun s => islandReset_holds, fun s => islandResetEnd_inits,
    fun s => clockOffGrantEnd_ends, fun s i => ⟨execSafetyTick_off, fun hs => safetyTick_counts hs i⟩⟩
  have hb : s.get F.LUM_STATE_BEAM < 4 := s.get_lt _
  have hexec := execOasisRowCheck_active hon hrun hras hv hsrc
  refine ⟨fun hval hrow => ?_, fun hval hrow => oasisRowCheck_takes hs hb rfl hexec hval hrow⟩
  rw [hexec, State.oasisRowCheck_good hval hrow]

end Sys2Proof.Machine
end

section
/-!
RETIME through an open port: the first check of R58 that fails, and what an ignored, a rejected and an accepted RETIME leave
(R58, R59, R61).
-/

namespace Sys2Proof.Machine

/-- A write of one register word through an open port is the register's own effect, answered OK (R485). -/
theorem State.portWrite_open {s : State} {i : Initiator} {a : Nat} {k : State → State} (hw : s.writable a) :
    s.portWrite i a k = (k s).accepted := by
  obtain ⟨haon, hok⟩ := hw
  simp [State.portWrite, haon, hok, State.accepted]

theorem wordGet_bit_zero {v : Word} : wordGet v 0 0 = 1 ↔ v.getLsbD 0 = true := by
  simp [wordGet, BitVec.getLsbD]

theorem execRetime_open {who : Initiator} {v : Word} {s : State} (hw : s.writable A.RAS_CTRL) :
    exec (.retime who v) s =
      .next (if v.getLsbD 0 = true then s.retime (s.nextTiming false) else s).accepted := by
  simp only [← wordGet_bit_zero]
  exact congrArg Host.Outcome.next (State.portWrite_open hw)

/-! ### The checks of R58 -/

/-- Codes 1 to 4: each stands where its own condition holds and those before it do not. -/
theorem timingCode_first {follow : Bool} {P : Prop} {n vb k r : Nat} (hP : follow = true ↔ P) :
    let vbBad := vb < 24 ∨ 1023 < vb ∨ (P ∧ (vb < 25 ∨ 1022 < vb))
    let sizeBad := n * (512 + vb) < 103600 ∨ 837600 < n * (512 + vb)
    let kBad := k < 4 ∨ n * k < 3125 ∨ 25000 < n * k
    (r = 1 ∧ vbBad ∨ r = 2 ∧ ¬ vbBad ∧ n < 96 ∨ r = 3 ∧ ¬ vbBad ∧ 96 ≤ n ∧ sizeBad ∨
      r = 4 ∧ ¬ vbBad ∧ 96 ≤ n ∧ ¬ sizeBad ∧ kBad) → timingCode follow n vb k = r := by
  obtain rfl := propext hP
  unfold timingCode
  rintro vbBad sizeBad kBad (⟨rfl, hvb⟩ | ⟨rfl, hvb, hn⟩ | ⟨rfl, hvb, hn, hs⟩ | ⟨rfl, hvb, hn, hs, hk⟩)
  · rw [if_pos hvb]
  · rw [if_neg hvb, if_pos hn]
  · rw [if_neg hvb, if_neg (Nat.not_lt.mpr hn), if_pos hs]
  · rw [if_neg hvb, if_neg (Nat.not_lt.mpr hn), if_neg hs, if_pos hk]

section
variable {s : State} {t : Retime}

/-- On a stopped raster only a start is looked at (R62). -/
theorem State.retimeCheck_stopped (hrun : s.ras.running = false) (ht : t.start = false) : s.retimeCheck t = 7 := by
  simp [State.retimeCheck, hrun, ht]

/-- While a SLAVE raster runs every request fails with code 5, whatever the values (log entry 19). -/
theorem State.retimeCheck_slave (hrun : s.ras.running = true) (hm : s.get F.RAS_ACT_MODE_MODE = 2) : s.retimeCheck t = 5 := by
  simp [State.retimeCheck, hrun, hm, RasMode.slave]

/-- Otherwise the values come first. -/
theorem State.retimeCheck_values (hrun : s.ras.running = true) (hm : s.get F.RAS_ACT_MODE_MODE ≠ 2)
    (hc : timingCode (t.mode == RasMode.follow) t.nSlots t.vb t.k ≠ 0) :
    s.retimeCheck t = timingCode (t.mode == RasMode.follow) t.nSlots t.vb t.k := by
  simp [State.retimeCheck, hrun, hm, RasMode.slave, hc]

/-- A RETIME by RAS_CTRL passes on a running raster only. -/
theorem State.running_of_retimeCheck (h : s.retimeCheck t = 0) (ht : t.start = false) : s.ras.running = true := by
  by_contra hrun
  rw [State.retimeCheck_stopped (by simpa using hrun) ht] at h
  cases h

/-! ### The three outcomes -/

theorem State.retime_ignored (h : s.get F.RAS_STATUS_RUN = 2 ∨ s.get F.RAS_STATUS_RUN = 3) :
    s.retime t = s.put F.RAS_RETIME_STATUS_IGNORED 1 := if_pos h

theorem State.retime_rejected (hfree : ¬ (s.get F.RAS_STATUS_RUN = 2 ∨ s.get F.RAS_STATUS_RUN = 3))
    (hc : s.retimeCheck t ≠ 0) : s.retime t = s.retimeReject (s.retimeCheck t) :=
  (if_neg hfree).trans (if_pos hc)

theorem State.retime_accepted (hfree : ¬ (s.get F.RAS_STATUS_RUN = 2 ∨ s.get F.RAS_STATUS_RUN = 3))
    (hc : s.retimeCheck t = 0) : s.retime t = s.retimeAccept t :=
  (if_neg hfree).trans (if_neg (not_not.mpr hc))

end

/-- A rejection shows in RAS_RETIME_STATUS and nowhere else. -/
theorem State.retimeReject_shows {s : State} {r : Nat} (hs : s.Wf) (hr : r < 16) :
    (s.retimeReject r).get F.RAS_RETIME_STATUS_RESULT = 3 ∧ (s.retimeReject r).get F.RAS_RETIME_STATUS_REASON = r ∧
    OnlyRegs [A.RAS_RETIME_STATUS] s (s.retimeReject r) := by
  have hs1 : (s.put F.RAS_RETIME_STATUS_RESULT 3).Wf := State.put_wf hs
  unfold State.retimeReject
  refine ⟨?_, ?_, rfl, fun a ha => ?_⟩
  · rw [State.get_put_ne hs1 (by decide) (by decide), State.get_put_self hs (by decide)]
    decide
  · rw [State.get_put_self hs1 (by decide)]
    exact Nat.mod_eq_of_lt hr
  · have hne : a ≠ A.RAS_RETIME_STATUS := List.ne_of_not_mem_cons ha
    rw [State.reg_put_ne hne, State.reg_put_ne hne]

theorem State.get_setReg_ne {s : State} {f : Field} {a : Nat} {w : Word} (h : f.addr ≠ a) :
    (s.setReg a w).get f = s.get f := by
  unfold State.get
  rw [State.reg_setReg_ne h]

/-- The registers as an accepted RETIME leaves them. -/
def State.retimeRegs (s : State) (t : Retime) : State :=
  ((((s.put F.RAS_RETIME_STATUS_RESULT 1).put F.RAS_RETIME_STATUS_IGNORED 0).put F.RAS_STATUS_RUN 2).setReg
    A.RAS_RETIME_FRAME (s.retimeFrame t)).put F.RAS_STATUS_FOLLOW_LOCK 0

theorem State.retimeAccept_eq (s : State) (t : Retime) :
    s.retimeAccept t = { s.retimeRegs t with ras := { s.ras with pend := some t, inRun := 0, outRun := 0 } } := rfl

/-- An accepted RETIME shows as pending for its frame, and FOLLOW_LOCK is cleared (R54, R59). -/
theorem State.retimeRegs_shows {s : State} (t : Retime) (hs : s.Wf) :
    (s.retimeRegs t).get F.RAS_RETIME_STATUS_RESULT = 1 ∧ (s.retimeRegs t).get F.RAS_RETIME_STATUS_IGNORED = 0 ∧
    (s.retimeRegs t).get F.RAS_STATUS_RUN = 2 ∧ (s.retimeRegs t).get F.RAS_STATUS_FOLLOW_LOCK = 0 ∧
    (s.retimeRegs t).reg A.RAS_RETIME_FRAME = s.retimeFrame t ∧
    OnlyRegs [A.RAS_RETIME_STATUS, A.RAS_RETIME_FRAME, A.RAS_STATUS] s (s.retimeRegs t) := by
  have h1 : (s.put F.RAS_RETIME_STATUS_RESULT 1).Wf := State.put_wf hs
  have h2 : ((s.put F.RAS_RETIME_STATUS_RESULT 1).put F.RAS_RETIME_STATUS_IGNORED 0).Wf := State.put_wf h1
  have h3 := State.put_wf (f := F.RAS_STATUS_RUN) (v := 2) h2
  have h4 := State.setReg_wf (a := A.RAS_RETIME_FRAME) (w := s.retimeFrame t) h3
  unfold State.retimeRegs
  refine ⟨?_, ?_, ?_, ?_, ?_, rfl, fun a ha => ?_⟩
  · rw [State.get_put_addr (by decide), State.get_setReg_ne (by decide), State.get_put_addr (by decide),
      State.get_put_ne h1 (by decide) (by decide), State.get_put_self hs (by decide)]
    decide
  · rw [State.get_put_addr (by decide), State.get_setReg_ne (by decide), State.get_put_addr (by decide),
      State.get_put_self h1 (by decide)]
    decide
  · rw [State.get_put_ne h4 (by decide) (by decide), State.get_setReg_ne (by decide), State.get_put_self h2 (by decide)]
    decide
  · rw [State.get_put_self h4 (by decide)]
    decide
  · rw [State.reg_put_ne (by decide), State.reg_setReg_same h3]
  · simp only [List.mem_cons, List.not_mem_nil, or_false, not_or] at ha
    obtain ⟨hstatus, hframe, hras⟩ := ha
    rw [State.reg_put_ne hras, State.reg_setReg_ne hframe, State.reg_put_ne hras, State.reg_put_ne hstatus,
      State.reg_put_ne hstatus]

/-- Settles O21: the command is `State.retime` on the RAS_NEXT values, whose check and whose three outcomes are said above. -/
theorem retimeIsCheckedThenPending : Obligations.RetimeIsCheckedThenPending := by
  intro who v s hs hw n vb k follow free vbBad sizeBad kBad
  have hexec := execRetime_open (who := who) (v := v) hw
  have hfree : free → ¬ (s.get F.RAS_STATUS_RUN = 2 ∨ s.get F.RAS_STATUS_RUN = 3) := fun h => not_or.mpr h
  refine ⟨fun hv => ?_, fun hv => ⟨fun hf => ?_, fun r hf hr => ?_, fun hf hc => ?_⟩⟩
  · rw [hexec, if_neg (Bool.eq_false_iff.mp hv)]
  · rw [hexec, if_pos hv, State.retime_ignored (by simpa [free, imp_iff_not_or] using hf)]
  · have hcheck : s.retimeCheck (s.nextTiming false) = r ∧ r ≠ 0 ∧ r < 16 := by
      rcases hr with ⟨rfl, hrun⟩ | ⟨rfl, hrun, hm⟩ | ⟨hrun, hm, hr⟩
      · exact ⟨State.retimeCheck_stopped hrun rfl, by decide, by decide⟩
      · exact ⟨State.retimeCheck_slave hrun hm, by decide, by decide⟩
      · have hcode : timingCode ((s.nextTiming false).mode == RasMode.follow) n vb k = r := timingCode_first beq_iff_eq hr
        have hbound : r ≠ 0 ∧ r < 16 := by omega
        exact ⟨(State.retimeCheck_values hrun hm (hcode.trans_ne hbound.1)).trans hcode, hbound⟩
    obtain ⟨rfl, h0, h16⟩ := hcheck
    obtain ⟨hres, hreason, hrest, hregs⟩ := State.retimeReject_shows hs h16
    rw [if_pos hv, State.retime_rejected (hfree hf) h0] at hexec
    exact ⟨_, hexec, hres, hreason, hrest, hregs⟩
  · have hrun := State.running_of_retimeCheck hc rfl
    have hframe : s.retimeFrame (s.nextTiming false) = s.ras.frame + (if s.ras.blankServed then 2 else 1) := if_pos hrun
    obtain ⟨hres, hign, hpend, hlock, htarget, hrest, hregs⟩ := State.retimeRegs_shows (s.nextTiming false) hs
    rw [if_pos hv, State.retime_accepted (hfree hf) hc, State.retimeAccept_eq] at hexec
    exact ⟨_, hexec, hres, hign, hpend, hlock, htarget.trans hframe, rfl, hrest, hregs⟩

end Sys2Proof.Machine
end

section
/-!
The raster position runs on within a line: the position and the counters move, and nothing else (R16, R48, R193).
-/

namespace Sys2Proof.Machine

/-- `t` is `s` but for the position in the line and the counters of RAS and of the two engines. -/
def State.Moved (s t : State) : Prop :=
  { t with
    ras := { t.ras with slot := s.ras.slot, cyc := s.ras.cyc, lineEnd := s.ras.lineEnd, pwmC := s.ras.pwmC, pwmA := s.ras.pwmA }
    ary := { t.ary with west := s.ary.west, east := s.ary.east } } = s

theorem State.runTo_moved (s : State) (t : Nat) : s.Moved (s.runTo t) := by
  unfold State.runTo
  split <;> rfl

theorem State.toSlot_moved (s : State) (n : Nat) : s.Moved (s.toSlot n) := by
  unfold State.toSlot
  split
  · exact s.runTo_moved _
  · exact s.runTo_moved _

namespace State.Moved

variable {s t : State} (h : s.Moved t)
include h

theorem wf (hs : s.Wf) : t.Wf := (congrArg State.Wf h).mpr hs

theorem sameMemory : SameMemory s t := ⟨fun a => (congrArg (State.lmByte · a) h :), fun a => (congrArg (State.nvByte · a) h :)⟩

theorem get (f : Field) : t.get f = s.get f := (congrArg (State.get · f) h :)

theorem regs : t.regs = s.regs := (congrArg State.regs h :)

theorem flt : t.flt = s.flt := (congrArg State.flt h :)

theorem hlt : t.hlt = s.hlt := (congrArg State.hlt h :)

theorem pixOn : t.pixOn = s.pixOn := (congrArg State.pixOn h :)

theorem darkNets : t.darkNets = s.darkNets := (congrArg State.darkNets h :)

theorem line : t.ras.line = s.ras.line := (congrArg (·.ras.line) h :)

theorem frame : t.ras.frame = s.ras.frame := (congrArg (·.ras.frame) h :)

theorem storageRow (y : Nat) : t.storageRow y = s.storageRow y := (congrArg (State.storageRow · y) h :)

theorem displayRow (y : Nat) : t.displayRow y = s.displayRow y := (congrArg (State.displayRow · y) h :)

theorem maskWRow (y : Nat) : t.maskWRow y = s.maskWRow y := (congrArg (State.maskWRow · y) h :)

theorem maskARow (y : Nat) : t.maskARow y = s.maskARow y := (congrArg (State.maskARow · y) h :)

theorem maskW : t.ary.maskW = s.ary.maskW := (congrArg (·.ary.maskW) h :)

theorem maskA : t.ary.maskA = s.ary.maskA := (congrArg (·.ary.maskA) h :)

theorem loadDue : t.ary.loadDue = s.ary.loadDue := (congrArg (·.ary.loadDue) h :)

theorem display : t.ary.display = s.ary.display := (congrArg (·.ary.display) h :)

end State.Moved

end Sys2Proof.Machine
end

section
/-!
Cadence events, the report of a lost cadence, and the stop of the raster at the end of a frame (R52 to R54, R428, R514).
-/

namespace Sys2Proof.Machine

/-! ### The cadence (R52 to R54) -/

theorem execGpio3RisingEdge_other {s : State} (h : s.gpio3Aux = false) : exec .gpio3RisingEdge s = .next s :=
  congrArg Host.Outcome.next (if_pos (by rw [h]; rfl))

theorem State.wakeEvent_off {s : State} {n : Nat} (h : s.wakeOn n = false) : s.wakeEvent n = s :=
  if_pos (by rw [h]; rfl)

/-- Which wake sources are enabled follows from two registers (R398, R431). -/
theorem Frame.wakeOn_eq {L : List Span} {ps : List Part} {s t : State} (h : Frame L ps s t)
    (hc : (covers L A.PWR_WAKE || covers L A.CFG_GPIO) = false) (n : Nat) : t.wakeOn n = s.wakeOn n := by
  rw [Bool.or_eq_false_iff] at hc
  unfold State.wakeOn State.gpio3Aux
  rw [h.flag (f := F.PWR_WAKE_LNK) hc.1, h.flag (f := F.PWR_WAKE_CVN) hc.1, h.flag (f := F.PWR_WAKE_GPIO) hc.1,
    h.get (f := F.CFG_GPIO_FUNC) hc.2]

theorem State.cadence_frame (s : State) (src : Nat) : Frame [.reg A.RAS_FOLLOW_CNT] [.ras] s (s.cadence src) := by
  unfold State.cadence
  split
  · split
    · exact .inc .refl rfl
    · exact .ras .refl rfl
  · exact .refl

/-- With no wake source at stake an edge of the auxiliary input is a cadence event alone. -/
theorem execGpio3RisingEdge_aux {s : State} (haux : s.gpio3Aux = true) (hwake : s.wakeOn 4 = false) :
    exec .gpio3RisingEdge s = .next (s.cadence 1) := by
  have hoff : (s.cadence 1).wakeOn 4 = false := ((s.cadence_frame 1).wakeOn_eq rfl 4).trans hwake
  exact congrArg Host.Outcome.next ((if_neg (by simp [haux])).trans (State.wakeEvent_off hoff))

section
variable {s : State} {src : Nat} (hrun : s.coreRun = true) (hwin : s.ras.window = true) (hmode : s.get F.RAS_ACT_MODE_MODE = 1)
  (hsrc : s.get F.RAS_ACT_MODE_FOLLOW_SRC = src)
include hrun hwin hmode hsrc

theorem State.cadence_first (h : s.ras.winEv = none) :
    s.cadence src = { s with ras := { s.ras with
      winEv := some (s.ras.line, if 512 ≤ s.ras.line then s.get F.RAS_STATUS_CUR_VB else s.get F.RAS_ACT_TIMING_VB) } } := by
  simp [State.cadence, hrun, hwin, hmode, hsrc, h]

theorem State.cadence_further (h : s.ras.winEv ≠ none) : s.cadence src = s.inc F.RAS_FOLLOW_CNT_EXTRA := by
  obtain ⟨e, he⟩ := Option.ne_none_iff_exists'.mp h
  simp [State.cadence, hrun, hwin, hmode, hsrc, he]

end

theorem execFollowTimeout_due {s : State} (hrun : s.coreRun = true) (hdue : s.ras.missDue = true) :
    exec .followTimeout s = .next { ((s.put F.RAS_STATUS_FOLLOW_LOCK 0).irq 23).raise Code.RAS_FOLLOW_LOST 0 with
      ras := { s.ras with missDue := false } } := by
  have hf : Frame (.reg A.RAS_STATUS :: irqSpans) [.lnk, .flt] s
      (((s.put F.RAS_STATUS_FOLLOW_LOCK 0).irq 23).raise Code.RAS_FOLLOW_LOST 0) := .raise (.irq (.put .refl rfl) rfl) rfl
  have hras : (((s.put F.RAS_STATUS_FOLLOW_LOCK 0).irq 23).raise Code.RAS_FOLLOW_LOST 0).ras = s.ras := hf.part .ras rfl
  rw [← hras]
  exact congrArg Host.Outcome.next (if_pos (by rw [hrun, hdue]; rfl))

/-! ### The watchdog through the followers of the raster -/

theorem State.oasisEntry_wdArmed (s : State) (b : Nat) : (s.oasisEntry b).saf.wdArmed = s.saf.wdArmed := by
  unfold State.oasisEntry
  extract_lets s1 s2 s3
  have h1 : Frame [.reg A.SAF_OASIS_STATUS] [.flt] s s1 := .ite (State.copyInvalid_frame s b 0) .refl
  have h2 : Frame [.reg A.SAF_OASIS_STATUS] [.flt] s s2 := .ite (.op (State.copyInvalid_frame s1 b 1) h1 rfl) h1
  have h3 : s3.saf = s.saf := h2.part .saf rfl
  split <;> exact (congrArg Saf.wdArmed h3 :)

theorem State.driveLrm_wdArmed (s : State) (on : Bool) : (s.driveLrm on).saf.wdArmed = s.saf.wdArmed := by
  unfold State.driveLrm
  split
  · rfl
  · extract_lets saf s1
    split
    · rfl
    · exact (congrArg Saf.wdArmed (s1.lpeRemoval_frame.part .saf rfl) :)

/-- The state of the island follows its conditions without touching the watchdog's arming. -/
theorem State.safRefresh_wdArmed (s : State) : s.safRefresh.saf.wdArmed = s.saf.wdArmed := by
  have hnets : s.safRefresh.saf = s.safRefreshRaw.saf := s.safRefreshRaw.netsTrack_frame.part .saf rfl
  rw [hnets]
  unfold State.safRefreshRaw
  split
  · rfl
  · extract_lets t w shows entry s0 saf s1 s2
    have h1 : s1.saf.wdArmed = s.saf.wdArmed := (congrArg Saf.wdArmed ((s.safGoto_frame t).part .saf rfl) :)
    split
    · split
      · exact (s1.oasisEntry_wdArmed _).trans h1
      · have h2 : s2.saf = (s1.oasisEntry w.2).saf := (Frame.raise (L := []) (ps := [.flt]) .refl rfl).part .saf rfl
        have h3 := (State.safGoto_frame ((s2.put F.SAF_STATE_REMOVE_LATCH 1).driveLrm false) Isl.removed).part .saf rfl
        calc _ = ((s2.put F.SAF_STATE_REMOVE_LATCH 1).driveLrm false).saf.wdArmed := congrArg Saf.wdArmed h3
          _ = s2.saf.wdArmed := State.driveLrm_wdArmed _ _
          _ = (s1.oasisEntry w.2).saf.wdArmed := congrArg Saf.wdArmed h2
          _ = s.saf.wdArmed := (s1.oasisEntry_wdArmed _).trans h1
    · exact h1

theorem State.rasFollowers_wdArmed (s : State) : s.rasFollowers.saf.wdArmed = s.saf.wdArmed := by
  have hbefore : Frame (.reg A.MSK_STATUS :: .reg A.LPE_STATUS :: calSpans) ([.cmp, .lum, .msk, .lpe] ++ calParts) s
      ((s.composeStop.passAbandon).railStop.calRasterStop) :=
    .op (State.calRasterStop_frame _) (.op (State.railStop_frame _) (.op (State.passAbandon_frame _)
      (.mono s.composeStop_frame rfl) rfl) rfl) rfl
  calc s.rasFollowers.saf.wdArmed
      = ((s.composeStop.passAbandon).railStop.calRasterStop).safRefresh.saf.wdArmed :=
        congrArg Saf.wdArmed ((State.commitRetarget_frame _).part .saf rfl)
    _ = ((s.composeStop.passAbandon).railStop.calRasterStop).saf.wdArmed := State.safRefresh_wdArmed _
    _ = s.saf.wdArmed := congrArg Saf.wdArmed (hbefore.part .saf rfl)

/-! ### The raster stop (R62, R428, R514) -/

theorem State.retimeAbandon_ras (s : State) : s.retimeAbandon.ras = { s.ras with pend := none } := by
  unfold State.retimeAbandon
  split
  next h => rw [← h]
  next =>
    extract_lets s1 s2
    have h2 : Frame [.reg A.RAS_RETIME_STATUS, .reg A.THM_STATUS] [] s s2 :=
      .ite (.put (.put (.put .refl rfl) rfl) rfl) (.put (.put .refl rfl) rfl)
    exact congrArg (fun r : Ras => { r with pend := none }) (h2.part .ras rfl)

/-- What a stop leaves of the raster: the generator stands with nothing pending, the timing in force reads 0, and the
watchdog is disarmed; the position stays where it was. -/
structure State.StoppedFrom (s t : State) : Prop where
  running : t.ras.running = false
  pend : t.ras.pend = none
  frame : t.ras.frame = s.ras.frame
  line : t.ras.line = s.ras.line
  run : t.get F.RAS_STATUS_RUN = 0
  timing : t.reg A.RAS_ACT_TIMING = 0
  wdArmed : t.saf.wdArmed = false

theorem State.rasOff_stops {s u : State} (hu : u.Wf) (hras : u.ras = { s.ras with pend := none }) :
    s.StoppedFrom u.rasOff where
  running := rfl
  pend := (congrArg Ras.pend hras :)
  frame := (congrArg Ras.frame hras :)
  line := (congrArg Ras.line hras :)
  run := (State.rasOff_stopped hu).1
  timing := by
    have hf : Frame [⟨A.RAS_ACT_PWM, A.RAS_RETIME_STATUS⟩] [.ras, .cvn, .saf] ((u.put F.RAS_STATUS_RUN 0).setReg A.RAS_ACT_TIMING 0)
        u.rasOff := .upd (t := State.put _ _ _) (.put (.put (.setReg (.setReg .refl rfl) rfl) rfl) rfl) rfl id
    exact (hf.reg A.RAS_ACT_TIMING rfl).trans (State.reg_setReg_same (State.put_wf hu))
  wdArmed := rfl

/-- The followers of the raster leave what the stop has set. -/
theorem State.StoppedFrom.followers {s t : State} (h : s.StoppedFrom t) : s.StoppedFrom t.rasFollowers where
  running := (congrArg Ras.running (t.rasFollowers_frame.part .ras rfl)).trans h.running
  pend := (congrArg Ras.pend (t.rasFollowers_frame.part .ras rfl)).trans h.pend
  frame := (congrArg Ras.frame (t.rasFollowers_frame.part .ras rfl)).trans h.frame
  line := (congrArg Ras.line (t.rasFollowers_frame.part .ras rfl)).trans h.line
  run := (t.rasFollowers_frame.get rfl).trans h.run
  timing := (t.rasFollowers_frame.reg _ rfl).trans h.timing
  wdArmed := t.rasFollowers_wdArmed.trans h.wdArmed

theorem State.rasterStop_stops {s : State} (hs : s.Wf) (h0 : s.get F.RAS_STATUS_RUN ≠ 0) : s.StoppedFrom s.rasterStop := by
  have hoff := State.rasOff_stops (s.retimeAbandon_frame.wf hs) s.retimeAbandon_ras
  rw [State.rasterStop_eq, if_neg (c := s.rasRun = 0) h0]
  split
  · exact hoff.followers
  · exact hoff

theorem State.stepGo_frame (s : State) (n : Nat) : Frame [.reg A.PWR_STATUS] [.pwr] s (s.stepGo n) :=
  .pwr (.put .refl rfl) rfl

theorem State.pixOff_frame (s : State) : Frame [.reg A.PWR_DOM, .reg A.BST_STATUS] [.bst, .pwr] s s.pixOff :=
  .upd (t := State.put _ _ _) (.put (.put .refl rfl) rfl) rfl id

theorem execRasterStop_end {s : State} (hstep : s.get F.PWR_STATUS_STEP = 3) (hend : s.frameEnd = true) :
    exec .rasterStop s = .next (((s.runTo (16 * s.nSlots - 1)).rasterStop).stepGo 4).pixOff :=
  congrArg Host.Outcome.next (if_pos (by simp [State.step?, hstep, PwStep.s1, hend]))

/-- Settles O24: the cadence event and its report by their conditions; the stop by what `State.rasterStop` leaves. -/
theorem cadenceAndStop : Obligations.CadenceAndStop := by
  refine ⟨fun s => execGpio3RisingEdge_other, fun s haux hwake hrun hwin hmode hsrc => ⟨fun hev => ?_, fun hev => ?_⟩,
    fun s => execFollowTimeout_due, fun s hs hstep hend h0 => ?_⟩
  · have hexec := execGpio3RisingEdge_aux haux hwake
    rw [State.cadence_first hrun hwin hmode hsrc hev] at hexec
    refine ⟨_, hexec, rfl, ?_, rfl⟩
    rw [← hev]
  · have hexec := execGpio3RisingEdge_aux haux hwake
    exact ⟨_, hexec, State.cadence_further hrun hwin hmode hsrc hev⟩
  · have hmoved := s.runTo_moved (16 * s.nSlots - 1)
    have hexec := execRasterStop_end hstep hend
    generalize s.runTo (16 * s.nSlots - 1) = u at hmoved hexec
    have hstop := State.rasterStop_stops (hmoved.wf hs) ((hmoved.get _).trans_ne h0)
    have hmem := u.rasterStop_frame.sameMemory rfl
    have hwf := u.rasterStop_frame.wf (hmoved.wf hs)
    generalize u.rasterStop = v at hstop hmem hwf hexec
    have hgo := v.stepGo_frame 4
    have hoff := (v.stepGo 4).pixOff_frame
    have hf : Frame [.reg A.PWR_STATUS, .reg A.PWR_DOM, .reg A.BST_STATUS] [.bst, .pwr] v (v.stepGo 4).pixOff :=
      .op hoff (.mono hgo rfl) rfl
    have hras := hf.part .ras rfl
    refine ⟨_, hexec, (congrArg Ras.running hras).trans hstop.running, (congrArg Ras.pend hras).trans hstop.pend,
      (hf.get rfl).trans hstop.run, (hf.reg _ rfl).trans hstop.timing,
      (congrArg Saf.wdArmed (hf.part .saf rfl)).trans hstop.wdArmed, ?_,
      (congrArg Ras.frame hras).trans (hstop.frame.trans hmoved.frame),
      (congrArg Ras.line hras).trans (hstop.line.trans hmoved.line),
      hmoved.sameMemory.trans (hmem.trans (hf.sameMemory rfl))⟩
    refine (hoff.get rfl).trans ((State.get_put_self hwf (by decide)).trans ?_)
    decide

end Sys2Proof.Machine
end

section
/-!
What the array does with the row of a line: the display latches load it, a row group takes its written mask levels at its
boundary, and readback compares the storage latches with the words kept (R154, R186, R187, R204, R220, R221).
-/

namespace Sys2Proof.Machine

/-! ### The display load (R186, R187) -/

theorem execDisplayLoad_due {s : State} (hon : s.lineOn = true) (hdue : s.ary.loadDue = true) (hslot : s.slotOpen 2 = true) :
    exec (.displayLoad []) s = .next ((s.loadDisplay []).toSlot 3) :=
  congrArg Host.Outcome.next (if_pos (by rw [hon, hdue, hslot]; rfl))

/-- A word of good parity is what its display latch takes. -/
theorem displayLoadRow_getElem? {st old : Row} {x w o : Nat} (hw : st[x]? = some w) (ho : old[x]? = some o)
    (hok : wordOk w = true) : (displayLoadRow st old)[x]? = some w := by
  induction st generalizing old x with
  | nil => simp at hw
  | cons a st ih =>
    cases old with
    | nil => simp at ho
    | cons b old =>
      cases x with
      | zero =>
        obtain rfl : a = w := by simpa using hw
        simp [displayLoadRow, displayLoad, hok]
      | succ x => exact ih (old := old) (x := x) (by simpa using hw) (by simpa using ho)

/-- Without upsets the storage latches keep what they hold. -/
theorem State.loadDisplay_storageRow {s : State} (hs : SparseWf blackRow s.ary.storage) (y : Nat) :
    (s.loadDisplay []).storageRow y = s.storageRow y := by
  by_cases hy : y = s.ras.line
  · subst hy
    exact sparseGet_set_same hs
  · exact sparseGet_set_ne hy

theorem State.loadDisplay_displayRow {s : State} (hs : SparseWf blackRow s.ary.display) :
    (s.loadDisplay []).displayRow s.ras.line = displayLoadRow (s.storageRow s.ras.line) (s.displayRow s.ras.line) :=
  sparseGet_set_same hs

theorem State.loadDisplay_displayRow_ne {s : State} {y : Nat} (hy : y ≠ s.ras.line) :
    (s.loadDisplay []).displayRow y = s.displayRow y := sparseGet_set_ne hy

/-! ### The mask levels of a row group (R154) -/

/-- The first `n` rows of a group take their written levels. -/
def State.groupMasksUpto (s : State) (g n : Nat) : State :=
  forUpto n (fun i s => { s with ary := { s.ary with
    maskA := sparseSet darkRow s.ary.maskA (8 * g + i) (s.maskWRow (8 * g + i)) } }) s

theorem State.groupMasksUpto_only (s : State) (g n : Nat) :
    { s.groupMasksUpto g n with ary := { (s.groupMasksUpto g n).ary with maskA := s.ary.maskA } } = s := by
  unfold State.groupMasksUpto
  refine forUpto_keeps (P := fun t : State => { t with ary := { t.ary with maskA := s.ary.maskA } } = s) (fun i t h => ?_) n rfl
  exact h

theorem State.groupMasks_darkNets (s : State) (g : Nat) : (s.groupMasks g).darkNets = s.darkNets :=
  (congrArg State.darkNets (s.groupMasksUpto_only g 8) :)

theorem State.groupMasksUpto_maskARow {s : State} (hs : SparseWf darkRow s.ary.maskA) (g n y : Nat) :
    SparseWf darkRow (s.groupMasksUpto g n).ary.maskA ∧
    (s.groupMasksUpto g n).maskARow y = if 8 * g ≤ y ∧ y < 8 * g + n then s.maskWRow y else s.maskARow y := by
  induction n with
  | zero => exact ⟨hs, (if_neg (by omega)).symm⟩
  | succ n ih =>
    obtain ⟨hwf, hrow⟩ := ih
    have hkept : (s.groupMasksUpto g n).maskWRow (8 * g + n) = s.maskWRow (8 * g + n) :=
      (congrArg (State.maskWRow · (8 * g + n)) (s.groupMasksUpto_only g n) :)
    refine ⟨sparseWf_set _ _ hwf, ?_⟩
    by_cases hy : y = 8 * g + n
    · subst hy
      rw [if_pos (by omega), ← hkept]
      exact sparseGet_set_same hwf
    · refine (sparseGet_set_ne hy).trans (hrow.trans ?_)
      congr 1
      exact propext (by omega)

/-- The state after the boundary of row group `g`: its levels in force, and the group conducts again (R154, R204). -/
def State.groupReleased (s : State) (g : Nat) : State :=
  { s.groupMasks g with ary := { (s.groupMasks g).ary with conduct := (s.groupMasks g).ary.conduct ||| BitVec.ofNat 64 (2 ^ g) } }

theorem execRowGroupBoundary_released {s : State} {g : BitVec 6} (hon : s.lineOn = true) (hpix : s.pixOn = true)
    (hdark : s.darkNets = false) (hcyc : s.lineCycle + s.groupCycles g.toNat < 16 * s.nSlots) :
    exec (.rowGroupBoundary g) s =
      .next ((s.runTo (s.lineCycle + s.groupCycles g.toNat)).groupReleased g.toNat) := by
  have hmoved := s.runTo_moved (s.lineCycle + s.groupCycles g.toNat)
  have hnow : (s.lineOn && decide (s.lineCycle + s.groupCycles g.toNat < 16 * s.nSlots)) = true := by simp [hon, hcyc]
  have hpix1 := hmoved.pixOn.trans hpix
  have hnets := (State.groupMasks_darkNets _ g.toNat).trans (hmoved.darkNets.trans hdark)
  change execRowGroupBoundary g s = _
  simp only [execRowGroupBoundary, hnow, hpix1, hnets, if_true, Bool.false_eq_true, if_false]
  rfl

theorem State.groupReleased_shows {s : State} {g : Nat} (hg : g < 64) (hs : SparseWf darkRow s.ary.maskA) :
    (∀ y, rowGroup y = g → (s.groupReleased g).maskARow y = s.maskWRow y) ∧
    (∀ y, rowGroup y ≠ g → (s.groupReleased g).maskARow y = s.maskARow y) ∧ (s.groupReleased g).ary.maskW = s.ary.maskW ∧
    (s.groupReleased g).ary.conduct.getLsbD g = true ∧ (s.groupReleased g).ary.display = s.ary.display ∧
    (s.groupReleased g).regs = s.regs := by
  have hrow := fun y => (State.groupMasksUpto_maskARow hs g 8 y).2
  have honly := s.groupMasksUpto_only g 8
  refine ⟨fun y hy => (hrow y).trans (if_pos ?_), fun y hy => (hrow y).trans (if_neg ?_),
    (congrArg (·.ary.maskW) honly :), ?_, (congrArg (·.ary.display) honly :), (congrArg State.regs honly :)⟩
  · unfold rowGroup at hy
    omega
  · unfold rowGroup at hy
    omega
  · rw [State.groupReleased, BitVec.getLsbD_or, BitVec.getLsbD_ofNat, Nat.testBit_two_pow_self]
    simp [hg]

/-! ### Readback (R220, R221) -/

/-- Words of good parity are not counted. -/
theorem State.rbParity_good {s : State} {r : Row} (h : ∀ w ∈ r, wordOk w = true) : s.rbParity r = s := by
  induction r with
  | nil => rfl
  | cons w r ih =>
    obtain ⟨hw, hr⟩ := List.forall_mem_cons.mp h
    exact (if_pos hw).trans (ih hr)

/-- The taps of the regions touch their accumulators alone (R223). -/
theorem State.rbTap_only (s : State) (y : Nat) (row : Row) :
    { s.rbTap y row with hlt := { (s.rbTap y row).hlt with rbAcc := s.hlt.rbAcc, wrAcc := s.hlt.wrAcc } } = s := by
  refine forUpto_keeps (P := fun t : State => { t with hlt := { t.hlt with rbAcc := s.hlt.rbAcc, wrAcc := s.hlt.wrAcc } } = s)
    (fun n t h => ?_) 32 rfl
  dsimp only
  split
  · exact h
  · exact h

theorem mem_insertRow_self (y : Nat) (l : List Nat) : y ∈ insertRow y l := by
  induction l with
  | nil => simp [insertRow]
  | cons z l ih =>
    unfold insertRow
    split_ifs with hlt heq
    · simp
    · simp [heq]
    · exact List.mem_cons_of_mem _ ih

/-- The row of the line is read without upsets: its words stand in the storage latches as before. -/
def State.rowRead (s : State) : State :=
  { s with ary := { s.ary with storage := sparseSet blackRow s.ary.storage s.ras.line (s.storageRow s.ras.line) } }

/-- The end of a readback: the row enters the taps and the rows read back. -/
def State.rowReadBack (s : State) (y : Nat) (row : Row) : State :=
  { s.rbTap y row with hlt := { (s.rbTap y row).hlt with readBack := true, rbRows := insertRow y (s.rbTap y row).hlt.rbRows } }

/-- A readback of a row of good parity: the compare alone decides what it reports. -/
theorem execReadback_good {s : State} (hon : s.lineOn = true) (hline : s.ras.line < 512) (hslot : s.slotOpen 7 = true)
    (hrb : s.hlt.readBack = false) (hpix : s.pixOn = true) (hhold : s.holdLines = false)
    (hok : ∀ w ∈ s.storageRow s.ras.line, wordOk w = true) :
    exec (.readback []) s = .next
      (((if rowCrcOk (s.storageRow s.ras.line) (s.writtenRow s.ras.line) = true then s.rowRead
        else s.rowRead.rbMismatch s.ras.line).rowReadBack s.ras.line (s.storageRow s.ras.line)).toSlot 8) := by
  change Host.Outcome.next (if _ then ((let u := s.rowRead.rbParity (s.storageRow s.ras.line)
    if rowCrcOk (s.storageRow s.ras.line) (u.writtenRow s.ras.line) = true then u
    else u.rbMismatch s.ras.line).rowReadBack s.ras.line (s.storageRow s.ras.line)).toSlot 8 else s) = _
  rw [if_pos (by simp [hon, hline, hslot, hrb, hpix, hhold]), State.rbParity_good hok]
  rfl

theorem State.raise_regs (s : State) (n x : Nat) : (s.raise n x).regs = s.regs := by
  unfold State.raise State.raiseI
  dsimp only
  split <;> rfl

/-- What the end of a readback leaves of a state. -/
theorem State.rowReadBack_shows (s : State) (y : Nat) (row : Row) :
    let t := (s.rowReadBack y row).toSlot 8
    t.regs = s.regs ∧ t.flt = s.flt ∧ t.hlt.rbRow = s.hlt.rbRow ∧ t.hlt.persistDue = s.hlt.persistDue ∧
    y ∈ t.hlt.rbRows ∧ t.hlt.readBack = true ∧ SameMemory s t := by
  have hmoved := (s.rowReadBack y row).toSlot_moved 8
  have honly := s.rbTap_only y row
  have hhlt := hmoved.hlt
  have hmem : SameMemory s (s.rowReadBack y row) :=
    ⟨fun a => (congrArg (State.lmByte · a) honly :), fun a => (congrArg (State.nvByte · a) honly :)⟩
  refine ⟨hmoved.regs.trans (congrArg State.regs honly :), hmoved.flt.trans (congrArg State.flt honly :),
    (congrArg Hlt.rbRow hhlt).trans (congrArg (·.hlt.rbRow) honly :),
    (congrArg Hlt.persistDue hhlt).trans (congrArg (·.hlt.persistDue) honly :), ?_, congrArg Hlt.readBack hhlt,
    hmem.trans hmoved.sameMemory⟩
  rw [hhlt]
  exact mem_insertRow_self y _

/-- A mismatching row is counted and reported (R221). -/
theorem State.rbMismatch_shows (s : State) (y : Nat) :
    (s.rbMismatch y).regs = (s.inc F.HLT_RB_CNT_MISMATCH_ROWS).regs ∧
    (s.rbMismatch y).flt = (s.raise Code.HLT_RB_MISMATCH y).flt ∧ SameMemory s (s.rbMismatch y) :=
  ⟨State.raise_regs _ _ _, State.raise_flt (s := s) (y := s.inc F.HLT_RB_CNT_MISMATCH_ROWS) rfl _ _,
    (Frame.raise (L := [.reg A.HLT_RB_CNT]) (ps := [.flt]) (t := s.inc F.HLT_RB_CNT_MISMATCH_ROWS) (.inc .refl rfl)
      rfl).sameMemory rfl⟩

theorem execRbPersist_due {s : State} {y : Nat} {due : List Nat} (h : s.hlt.persistDue = y :: due) (hrun : s.coreRun = true) :
    exec .rbPersist s = .next { s.raise Code.HLT_RB_PERSIST y with hlt := { s.hlt with persistDue := due } } := by
  change execRbPersist s = _
  rw [execRbPersist, h]
  exact congrArg Host.Outcome.next (if_pos hrun)

/-- Settles O29: each command by its equation above, and what the moved position leaves alone. -/
theorem rowsLoadAndReadBack : Obligations.RowsLoadAndReadBack := by
  refine ⟨fun s hon hdue hslot hst hdi => ?_, fun s g hon hpix hdark hwf hcyc => ?_,
    fun s hon hline hslot hrb hpix hhold hok => ⟨fun heq => ?_, fun hcrc => ?_⟩, fun s y due => execRbPersist_due⟩
  · have hmoved := (s.loadDisplay []).toSlot_moved 3
    refine ⟨_, execDisplayLoad_due hon hdue hslot, fun x w o hw ho hok => ?_, fun y hy => ?_, fun y => ?_, hmoved.loadDue,
      hmoved.maskA, hmoved.maskW, hmoved.regs, hmoved.sameMemory⟩
    · rw [hmoved.displayRow, State.loadDisplay_displayRow hdi]
      exact displayLoadRow_getElem? hw ho hok
    · rw [hmoved.displayRow, State.loadDisplay_displayRow_ne hy]
    · rw [hmoved.storageRow, State.loadDisplay_storageRow hst]
  · have hmoved := s.runTo_moved (s.lineCycle + s.groupCycles g.toNat)
    refine ⟨_, execRowGroupBoundary_released hon hpix hdark hcyc, ?_⟩
    obtain ⟨hin, hout, hmask, hconduct, hdisplay, hregs⟩ := State.groupReleased_shows g.isLt (hmoved.maskA ▸ hwf)
    exact ⟨fun y hy => (hin y hy).trans (hmoved.maskWRow y), fun y hy => (hout y hy).trans (hmoved.maskARow y),
      hmask.trans hmoved.maskW, hconduct, hdisplay.trans hmoved.display, hregs.trans hmoved.regs⟩
  · have hexec := execReadback_good hon hline hslot hrb hpix hhold hok
    rw [if_pos (by simp [rowCrcOk, heq])] at hexec
    exact ⟨_, hexec, s.rowRead.rowReadBack_shows _ _⟩
  · have hexec := execReadback_good hon hline hslot hrb hpix hhold hok
    rw [hcrc, if_neg Bool.false_ne_true] at hexec
    obtain ⟨hregs, hflt, -, -, hrow, hdone, hmem⟩ :=
      (s.rowRead.rbMismatch s.ras.line).rowReadBack_shows s.ras.line (s.storageRow s.ras.line)
    obtain ⟨hcount, hraise, hmem'⟩ := s.rowRead.rbMismatch_shows s.ras.line
    exact ⟨_, hexec, hregs.trans hcount, (hflt.trans hraise).trans (State.raise_flt (s := s) (y := s.rowRead) rfl _ _), hrow, hdone,
      hmem'.trans hmem⟩

end Sys2Proof.Machine
end

section
/-!
Two statements that fail for want of a hypothesis: the slice of the background test of a state whose cycle has run on past
its slot (R461), and a REG_WRITE packet for the register of a layer slot that the image leaves out (R95, R346).
-/

namespace Sys2Proof.Machine

/-- CORE and its PLL are on, in IDLE. -/
def coreAwake : State :=
  ((State.reset.put F.PWR_DOM_CORE 1).put F.PWR_DOM_PLL 1).put F.PWR_STATUS_STATE Power.idle

theorem coreAwake_wf : coreAwake.Wf := by
  have hreset : State.reset.Wf := ⟨sparseWf_nil, sparseWf_nil, sparseWf_nil, sparseWf_nil⟩
  unfold coreAwake
  iterate 3 apply State.put_wf
  exact hreset

/-- A bank is under TEST in a line of 120 slots, at slot 0, cycle 128: that cycle of the line is the first of slot 8. -/
def pastItsSlot : State :=
  let tested := (coreAwake.put F.LMC_STATUS_BG_PHASE 2).put F.RAS_ACT_TIMING_N_SLOTS 120
  { tested with ras := { tested.ras with running := true, lineServed := true, slot := 0, cyc := 128 } }

theorem pastItsSlot_slice : ∃ t, exec .bgTestSlice pastItsSlot = .next t ∧ t.ras.slot = 0 := ⟨_, rfl, by decide +kernel⟩

/-- Refutes O16: no hypothesis of its slice clause bounds the cycle within the slot, and where that cycle has run on to
slot 8 BG_TEST_SLICE leaves the slot number alone. -/
theorem not_scansAndSlices : ¬ Obligations.ScansAndSlices := by
  rintro ⟨-, -, hslice⟩
  obtain ⟨hrun, -, -⟩ := hslice pastItsSlot (by decide +kernel) (by decide +kernel) rfl
  obtain ⟨t, ht, -, hslot, -⟩ := hrun (by decide +kernel) (by decide +kernel) (by decide +kernel) (by decide +kernel)
  obtain ⟨u, hu, hzero⟩ := pastItsSlot_slice
  obtain rfl := Host.Outcome.next.inj (ht.symm.trans hu)
  exact absurd (hzero.symm.trans hslot) (by decide)

/-- Port U is ACTIVE in L0 and expects packet 0; the image has no layer slot. -/
def linkAwake : State := (coreAwake.put F.PWR_DOM_LNK 1).put F.LNK_U_STATUS_STATE PortSt.active

theorem linkAwake_wf : linkAwake.Wf := State.put_wf (State.put_wf coreAwake_wf)

/-- The payload of a REG_WRITE that writes 1 to the position of layer slot 0. -/
def posOfSlot0 : List Word := [BitVec.ofNat 32 (A.CMP_Ln_POS 0), 1]

/-- In a module whose image leaves layer slot 0 out, the shadow register keeps its reset value. -/
theorem posOfSlot0_dropped :
    ∃ t, exec (.regWrite {} posOfSlot0) linkAwake = .next t ∧ t.shReg (A.CMP_Ln_POS 0) = 0 :=
  ⟨_, rfl, by decide +kernel⟩

/-- Refutes O55: the register of a layer slot that the image leaves out passes the port and is plain, but a write of it is
discarded (R95). -/
theorem not_forwardPackets : ¬ Obligations.ForwardPackets := by
  rintro ⟨-, hstate⟩
  obtain ⟨-, -, -, -, hpacket⟩ := hstate linkAwake linkAwake_wf sparseWf_nil (by decide +kernel) (by decide +kernel) (by decide)
  obtain ⟨-, -, hown⟩ := hpacket {} posOfSlot0 rfl rfl (by decide)
  obtain ⟨-, -, hwrite, -⟩ := hown (by decide +kernel)
  obtain ⟨hplain, -⟩ := hwrite (A.CMP_Ln_POS 0) [1] rfl (by decide) (by decide) (by decide) (by decide)
  have hport : ∀ k, k < [(1 : Word)].length → linkAwake.writable (A.CMP_Ln_POS 0 + 4 * k) ∧
      plainWrite (A.CMP_Ln_POS 0 + 4 * k) = true ∧ (A.CMP_Ln_POS 0 + 4 * k) / 4096 ≠ 13 := by
    intro k hk
    obtain rfl : k = 0 := by simpa using hk
    exact ⟨by simp only [State.writable]; decide +kernel, by decide +kernel, by decide⟩
  obtain ⟨t, ht, -, -, hval, -⟩ := hplain hport
  obtain ⟨u, hu, hzero⟩ := posOfSlot0_dropped
  obtain rfl := Host.Outcome.next.inj (ht.symm.trans hu)
  obtain ⟨-, hsh⟩ := hval 0 (by decide)
  rw [show A.CMP_Ln_POS 0 + 4 * 0 = A.CMP_Ln_POS 0 from rfl, hzero] at hsh
  exact absurd hsh (by decide +kernel)

end Sys2Proof.Machine
end

section
/-!
The fetch of a band (R77-R79, R109).  A read of a directory entry that no bit error has hit changes nothing.
-/

namespace Sys2Proof.Machine

/-! ### A directory entry that no bit error has hit (R71) -/

theorem State.dirHit_none_of_good {s : State} {t : Nat} (h : s.dirLatent t = .good) :
    s.lmc.dirHit.find? (fun e => e.1 == t) = none := by
  unfold State.dirLatent at h
  split at h
  · assumption
  · split at h <;> cases h

/-- What is read well has no error waiting, so the read changes nothing. -/
theorem State.dirTouch_of_good {s : State} {t : Nat} (h : s.dirLatent t = .good) (i : FaultInfo) : s.dirTouch t i = s := by
  have hkeep : s.lmc.dirHit.filter (fun e => e.1 != t) = s.lmc.dirHit := by
    refine List.filter_eq_self.2 fun e he => ?_
    simpa using List.find?_eq_none.1 (State.dirHit_none_of_good h) e he
  unfold State.dirTouch
  rw [h]
  simp only [State.dirFound, hkeep]

/-! ### The tile at the head of the fetch (R77-R79) -/

/-- The fetch of a tile touches registers of LMC and the event bits, the directory, the faults and the message request. -/
theorem State.fetchTile_frame (s : State) (t : Nat) :
    Frame (.window 2 :: irqSpans) [.lmc, .flt, .lnk] s (s.fetchTile t).2 := by
  unfold State.fetchTile
  split
  · split
    · exact .refl
    · exact .raiseI (.irq (.inc (.lmc .refl rfl) rfl) rfl) rfl
  · exact .inc .refl rfl
  · exact .raise (.inc .refl rfl) rfl

theorem State.tileUse_eq {s : State} {t : Nat} (ht : t < 12288) (hon : s.tileOn t = true) : s.tileUse t = (s.dirEntry t).st := by
  unfold State.tileUse
  rw [if_pos (by simp [tileCount, ht, hon])]

/-- A tile that the fetch finds outside the window, in a bank that is off, EMPTY or UNSEALED. -/
theorem State.fetchTile_unusable {s : State} {t : Nat}
    (h : 12288 ≤ t ∨ s.tileOn t = false ∨ (s.dirEntry t).st = .empty ∨ (s.dirEntry t).st = .unsealed) :
    s.fetchTile t = (none, (s.inc F.LMC_CNT0_UNSEALED_USE).raise Code.LMC_UNSEALED_USE (tileAddr t)) := by
  have huse : s.tileUse t = .empty ∨ s.tileUse t = .unsealed := by
    unfold State.tileUse
    split
    · next hin =>
      rw [tileCount, Bool.and_eq_true, decide_eq_true_eq] at hin
      obtain ⟨hlt, hon⟩ := hin
      rcases h with hout | hoff | hst | hst
      · omega
      · rw [hon] at hoff
        cases hoff
      · exact .inl hst
      · exact .inr hst
    · exact .inl rfl
  unfold State.fetchTile
  rcases huse with h | h <;> rw [h]

/-- With no seal of the tile, no upset and no error in its entry, the check of the tile is its fetch. -/
theorem execTileCrcCheck_clean {s : State} {j : FetchTile} {rest : List FetchTile} (hcore : s.coreRun = true)
    (htodo : s.cmp.todo = j :: rest) (hseal : s.lmc.sealing = none) (hgood : s.dirLatent j.tile = .good) :
    exec (.tileCrcCheck [] .good) s = .next { (s.fetchTile j.tile).2 with cmp := { s.cmp with
      todo := rest
      late := if s.deadlineBand = some j.band then j.layer :: s.cmp.late else s.cmp.late
      bufs := s.cmp.bufs ++ [{ layer := j.layer, band := j.band, tile := j.tile, bytes := (s.fetchTile j.tile).1 }] } } := by
  have hafter : s.afterSeal [j.tile] = s := by unfold State.afterSeal; rw [hseal]
  have hread (i : FaultInfo) : s.dirReadEffect j.tile .good i = s := s.dirTouch_of_good hgood i
  have hcmp : (s.fetchTile j.tile).2.cmp = s.cmp := (s.fetchTile_frame j.tile).part .cmp rfl
  change execTileCrcCheck [] .good s = _
  unfold execTileCrcCheck
  simp only [htodo, hcore, Bool.not_true, Bool.false_eq_true, if_false, hafter, State.flipBytes, hread, hcmp]

/-- Settles O17: the start of a band by the line it starts in, a tile by what the directory says of it. -/
theorem fetchUsesOnlySealedTiles : Obligations.FetchUsesOnlySealedTiles := by
  refine ⟨?_, ?_, ?_⟩
  · intro s b hcomp hcyc hb hb32 hline hbands
    have hband : ((s.fetchLine + 24) / 16).toNat = b := by omega
    have hdue : (s.fetchLine + 24) % 16 = 0 ∧ 0 ≤ s.fetchLine + 24 ∧ s.fetchLine + 24 < 512 := by omega
    change execBandFetchStart s = _
    unfold execBandFetchStart
    simp [hcomp, hcyc, hdue, hband, hbands, show b ≠ 0 by omega]
  · intro s hcomp hcyc hline hframe
    have hdue : (s.composes && s.lineCycle == 0 && (s.fetchLine + 24) % 16 == 0 && 0 ≤ s.fetchLine + 24 &&
        s.fetchLine + 24 < 512) = true := by rw [hcomp, hcyc, hline]; rfl
    have hband : ((s.fetchLine + 24) / 16).toNat = 0 := by rw [hline]; rfl
    have hexec : exec .bandFetchStart s = .next { s with
        cmp := { s.cmp with
          todo := (List.range 12).flatMap fun i => s.bandTiles i 0, bufs := [], bands := 1, nextRow := 0, rows := [],
          last := [], forFrame := some (s.ras.frame + 1) }
        hlt := { s.hlt with outAcc := [] } } := by
      change execBandFetchStart s = _
      unfold execBandFetchStart
      rw [if_pos hdue]
      dsimp only
      rw [if_pos hband, if_pos hframe]
    exact ⟨_, hexec, rfl, rfl, rfl, rfl, rfl, rfl, rfl, rfl⟩
  · intro s j rest hcore htodo hseal hgood
    have hexec := execTileCrcCheck_clean hcore htodo hseal hgood
    refine ⟨fun hlt hon hst => ⟨fun hcrc => ?_, fun hcrc => ?_⟩, fun hlt hon hst => ?_, fun hout => ?_⟩
    all_goals rw [hexec]
    · have hfetch : s.fetchTile j.tile = (some (s.lmBytes (tileAddr j.tile) 4096), s) := by
        unfold State.fetchTile
        rw [State.tileUse_eq hlt hon, hst]
        exact if_pos hcrc
      rw [hfetch]
      rfl
    · have hfetch : s.fetchTile j.tile = (none, (((s.setDir j.tile { s.dirEntry j.tile with st := .bad }).inc F.LMC_CNT0_CRC_FAIL).irq
          Irq.tileCrc).raiseI Code.LMC_TILE_CRC { init := 3, access := 3, addr := tileAddr j.tile }) := by
        unfold State.fetchTile
        rw [State.tileUse_eq hlt hon, hst]
        exact if_neg hcrc
      rw [hfetch]
      rfl
    · have hfetch : s.fetchTile j.tile = (none, s.inc F.LMC_CNT2_BAD_USE) := by
        unfold State.fetchTile
        rw [State.tileUse_eq hlt hon, hst]
      rw [hfetch]
    · rw [State.fetchTile_unusable hout]
      rfl

end Sys2Proof.Machine
end

section
/-!
The seal's table (R75, R76): what a write of LMC_SEAL does, and how a seal that has read its directory entry ends (R71).
-/

namespace Sys2Proof.Machine

/-! ### What the port's decision reads -/

/-- The registers that the power state, the self-test and the freeze are read from. -/
abbrev portRegs : List Nat := [A.PWR_DOM, A.PWR_STATUS, A.BST_STATUS, A.CFG_STATUS]

section
variable {L : List Span} {ps : List Part} {s t : State}

theorem Frame.portDecide_eq (h : Frame L ps s t) (hd : portRegs.any (covers L) = false) (a : Nat) (write : Bool) :
    t.portDecide a write = s.portDecide a write := by
  simp only [portRegs, List.any_cons, List.any_nil, Bool.or_false, Bool.or_eq_false_iff] at hd
  obtain ⟨hdom, hpow, hbst, hcfg⟩ := hd
  have hoff : t.blockOff a = s.blockOff a := by
    simp only [State.blockOff, State.lnkOn, State.coreOn, State.power, h.flag (f := F.PWR_DOM_LNK) hdom,
      h.flag (f := F.PWR_DOM_CORE) hdom, h.get (f := F.PWR_STATUS_STATE) hpow]
  have hbusy : t.blockBusy a = s.blockBusy a := by
    simp only [State.blockBusy, State.power, State.post, h.get (f := F.PWR_STATUS_STATE) hpow, h.flag (f := F.BST_STATUS_POST) hbst]
  have hfrozen : t.frozen = s.frozen := h.flag hcfg
  unfold State.portDecide
  rw [hoff, hbusy, hfrozen]

theorem Frame.coreRun_eq (h : Frame L ps s t) (hd : portRegs.any (covers L) = false) : t.coreRun = s.coreRun := by
  simp only [portRegs, List.any_cons, List.any_nil, Bool.or_false, Bool.or_eq_false_iff] at hd
  obtain ⟨hdom, hpow, -, hcfg⟩ := hd
  simp only [State.coreRun, State.coreOn, State.power, State.frozen, h.flag (f := F.PWR_DOM_CORE) hdom,
    h.flag (f := F.PWR_DOM_PLL) hdom, h.get (f := F.PWR_STATUS_STATE) hpow, h.flag (f := F.CFG_STATUS_FROZEN) hcfg]

end

/-! ### States that differ in registers alone -/

theorem OnlyRegs.refl (as : List Nat) (s : State) : OnlyRegs as s s := ⟨rfl, fun _ _ => rfl⟩

theorem OnlyRegs.put {as : List Nat} {s t : State} (h : OnlyRegs as s t) {f : Field} (hf : f.addr ∈ as) (v : Nat) :
    OnlyRegs as s (t.put f v) :=
  ⟨h.1, fun a ha => (State.reg_put_ne (by rintro rfl; exact ha hf)).trans (h.2 a ha)⟩

/-! ### The write of LMC_SEAL -/

theorem wordGet_low {v : Word} : wordGet v 13 0 = v.toNat % 2 ^ 14 := by simp [wordGet]

theorem wordGet_top {v : Word} : (wordGet v 31 31 == 1) = v.getLsbD 31 := by
  simp [wordGet, BitVec.getLsbD, Nat.testBit_eq_decide_div_mod_eq, Bool.beq_eq_decide_eq]

theorem State.flag_of_get {s : State} {f : Field} {n : Nat} (h : s.get f = n) : s.flag f = (n != 0) := by
  rw [State.flag, h]

/-- The tile of a seal that is not discarded, by the first check it meets (R75). -/
theorem State.sealStart_idle {s : State} (hb : s.get F.LMC_SEAL_STATUS_BUSY = 0) (v : Word) (n : Nat) :
    s.sealStart v n =
      if tileCount ≤ v.toNat % 2 ^ 14 then s.sealRefused 1
      else if !s.tileOn (v.toNat % 2 ^ 14) then s.sealRefused 2
      else if s.post then s.sealRefused 3
      else s.sealAccept (v.toNat % 2 ^ 14) (v.getLsbD 31) n := by
  unfold State.sealStart
  rw [State.flag_of_get hb, wordGet_low, wordGet_top]
  rfl


/-- A block that is open is no block that the self-test holds. -/
theorem State.post_of_writable {s : State} {a : Nat} (hw : s.writable a) (ha : window a = 2 ∨ window a = 20 ∨ window a = 4 ∨ window a = 5) :
    s.post = false := by
  obtain ⟨-, hok⟩ := hw
  by_contra hpost
  have hbusy : s.blockBusy a = true := by
    have hp : s.post = true := by simpa using hpost
    simpa [State.blockBusy, hp] using Or.inr (by tauto)
  unfold State.portDecide at hok
  rw [hbusy] at hok
  split at hok <;> cases hok

theorem execSealTile_open {who : Initiator} {v : Word} {s : State} (hw : s.writable A.LMC_SEAL) :
    exec (.sealTile who v) s = .next (s.sealStart v (initNo who)).accepted := by
  have hpost := State.post_of_writable hw (.inl rfl)
  have hseal : s.sealInPost who A.LMC_SEAL v = s := by simp [State.sealInPost, hpost]
  change Host.Outcome.next ((s.sealInPost who A.LMC_SEAL v).portWrite who A.LMC_SEAL _) = _
  rw [hseal, State.portWrite_open hw]

/-- In the self-test the port answers BUSY, and the seal is refused with its own reason. -/
theorem execSealTile_post {who : Initiator} {v : Word} {s : State} (haon : s.aonOn = true)
    (hb : s.get F.LMC_SEAL_STATUS_BUSY = 0) (hlt : v.toNat % 2 ^ 14 < tileCount) (hon : s.tileOn (v.toNat % 2 ^ 14) = true)
    (hpost : s.post = true) (hport : s.portDecide A.LMC_SEAL true = Res.busy) :
    exec (.sealTile who v) s = .next (((s.sealRefused 3).accRecord (initNo who) Res.busy true A.LMC_SEAL).answer 0 Res.busy) := by
  have hseal : s.sealInPost who A.LMC_SEAL v = s.sealRefused 3 := by
    unfold State.sealInPost
    rw [haon, hpost, hport, if_pos (by decide), State.sealStart_idle hb, if_neg (by omega), hon, hpost]
    rfl
  have hframe : Frame [.window 2] [] s (s.sealRefused 3) := .put (.put .refl rfl) rfl
  have haon' : (s.sealRefused 3).aonOn = true := by rw [← haon, State.aonOn, State.power, hframe.get rfl]; rfl
  change Host.Outcome.next ((s.sealInPost who A.LMC_SEAL v).portWrite who A.LMC_SEAL _) = _
  rw [hseal]
  unfold State.portWrite
  rw [haon', hframe.portDecide_eq rfl, hport]
  rfl

theorem State.sealRefused_effect {s : State} (hs : s.Wf) {r : Nat} (hr : r < 8) :
    (s.sealRefused r).get F.LMC_SEAL_STATUS_RESULT = 3 ∧ (s.sealRefused r).get F.LMC_SEAL_STATUS_REASON = r ∧
      OnlyRegs [A.LMC_SEAL_STATUS] s (s.sealRefused r) := by
  refine ⟨?_, ?_, .put (.put (.refl _ s) (by decide) _) (by decide) _⟩
  · rw [State.sealRefused, State.get_put_ne (State.put_wf hs) (by decide) (by decide), State.get_put_self hs (by decide)]
    rfl
  · rw [State.sealRefused, State.get_put_self (State.put_wf hs) (by decide)]
    exact Nat.mod_eq_of_lt (Nat.lt_of_lt_of_le hr (by decide))

/-- A seal is accepted where the entry is read well and the tile is not EMPTY. -/
theorem State.sealAccept_held {s : State} {t : Nat} (hgood : s.dirLatent t = .good) (hst : (s.dirEntry t).st ≠ .empty) (self : Bool)
    (n : Nat) : s.sealAccept t self n =
      { (s.put F.LMC_SEAL_STATUS_BUSY 1).put F.LMC_SEAL_STATUS_OVERRUN 0 with
        lmc := { s.lmc with sealing := some { tile := t, self := self, crc := s.reg A.LMC_SEAL_CRC, by_ := n } } } := by
  unfold State.sealAccept
  rw [State.dirTouch_of_good hgood]
  exact if_neg hst

theorem State.sealAccept_empty {s : State} {t : Nat} (hgood : s.dirLatent t = .good) (hst : (s.dirEntry t).st = .empty) (self : Bool)
    (n : Nat) : s.sealAccept t self n = s.sealRefused 4 := by
  unfold State.sealAccept
  rw [State.dirTouch_of_good hgood]
  exact if_pos hst

/-- What an accepted seal holds (R75). -/
theorem sealTile_accepted {who : Initiator} {v : Word} {s : State} (hs : s.Wf) (hw : s.writable A.LMC_SEAL)
    (hb : s.get F.LMC_SEAL_STATUS_BUSY = 0) (hlt : v.toNat % 2 ^ 14 < tileCount) (hon : s.tileOn (v.toNat % 2 ^ 14) = true)
    (hst : (s.dirEntry (v.toNat % 2 ^ 14)).st ≠ .empty) (hgood : s.dirLatent (v.toNat % 2 ^ 14) = .good) :
    Completes (.sealTile who v) s fun t =>
      t.get F.LMC_SEAL_STATUS_BUSY = 1 ∧ t.get F.LMC_SEAL_STATUS_OVERRUN = 0 ∧
      t.lmc.sealing = some { tile := v.toNat % 2 ^ 14, self := v.getLsbD 31, crc := s.reg A.LMC_SEAL_CRC, by_ := initNo who } ∧
      OnlyRegs [A.LMC_SEAL_STATUS] s { t with port := s.port, lmc := { t.lmc with sealing := s.lmc.sealing } } := by
  have hpost := State.post_of_writable hw (.inl rfl)
  have hexec := execSealTile_open (who := who) (v := v) hw
  rw [State.sealStart_idle hb, if_neg (by omega), hon, hpost, State.sealAccept_held hgood hst] at hexec
  have hbusy := State.put_wf (f := F.LMC_SEAL_STATUS_BUSY) (v := 1) hs
  refine ⟨_, hexec, ?_, ?_, rfl, ?_⟩
  · exact (State.get_put_ne hbusy (by decide) (by decide)).trans (State.get_put_self hs (by decide))
  · exact State.get_put_self hbusy (by decide)
  · exact OnlyRegs.put (.put (.refl _ s) (by decide) _) (by decide) _

/-! ### The end of a seal -/

/-- The record of LMC alone changes. -/
def State.setLmc (s : State) (x : Lmc) : State := { s with lmc := x }

@[simp] theorem State.setLmc_lmc (s : State) (x : Lmc) : (s.setLmc x).lmc = x := rfl
@[simp] theorem State.setLmc_setLmc (s : State) (x y : Lmc) : (s.setLmc x).setLmc y = s.setLmc y := rfl
@[simp] theorem State.setLmc_get (s : State) (x : Lmc) (f : Field) : (s.setLmc x).get f = s.get f := rfl
@[simp] theorem State.setLmc_put (s : State) (x : Lmc) (f : Field) (v : Nat) : (s.setLmc x).put f v = (s.put f v).setLmc x := rfl
@[simp] theorem State.setLmc_self (s : State) : s.setLmc s.lmc = s := rfl

/-- An occurrence of a fault and a change within LMC do not touch the same. -/
theorem State.raiseI_setLmc (s : State) (x : Lmc) (n : Nat) (i : FaultInfo) :
    (s.setLmc x).raiseI n i = (s.raiseI n i).setLmc x :=
  (apply_ite (fun t => State.setLmc t x)
    (((s.frec n).live && ((s.frec n).level.isSome || (s.frec n).inj.isSome || (s.frec n).invalid)) = true)
    s (s.setFrec n { s.frec n with pulses := (s.frec n).pulses ++ [i] })).symm

theorem State.raiseI_lmc (s : State) (n : Nat) (i : FaultInfo) : (s.raiseI n i).lmc = s.lmc :=
  (Frame.raiseI (L := []) (ps := [.flt]) .refl rfl).part .lmc rfl

/-- What a read of an entry finds does not depend on the errors that wait in others. -/
theorem State.dirFound_dirHit (s : State) (hits : List (Nat × Bool)) (t : Nat) (r : DirRead) (i : FaultInfo) :
    State.dirFound { s with lmc := { s.lmc with dirHit := hits } } t r i =
      { s.dirFound t r i with lmc := { (s.dirFound t r i).lmc with dirHit := hits } } := by
  cases r with
  | good => rfl
  | corrected =>
    unfold State.dirFound
    simp only [State.raiseI_lmc]
    exact State.raiseI_setLmc (s.inc F.LMC_CNT1_DIR_CORR) _ _ _
  | double =>
    unfold State.dirFound
    simp only [State.raiseI_lmc]
    exact State.raiseI_setLmc (s.tick.setDir t { st := .bad, crc := Config.lostCrc s.freeCount }) _ _ _

/-- What a read finds leaves the errors that wait, and the seal that runs. -/
theorem State.dirFound_waiting (s : State) (t : Nat) (r : DirRead) (i : FaultInfo) :
    (s.dirFound t r i).lmc.dirHit = s.lmc.dirHit ∧ (s.dirFound t r i).lmc.sealing = s.lmc.sealing := by
  cases r with
  | good => exact ⟨rfl, rfl⟩
  | corrected => exact ⟨congrArg Lmc.dirHit (State.raiseI_lmc _ _ _), congrArg Lmc.sealing (State.raiseI_lmc _ _ _)⟩
  | double =>
    have h := State.raiseI_lmc (s.tick.setDir t { st := .bad, crc := Config.lostCrc s.freeCount }) Code.LMC_DIR_DED i
    exact ⟨(congrArg Lmc.dirHit h :), (congrArg Lmc.sealing h :)⟩

theorem State.dirFound_coreRun (s : State) (t : Nat) (r : DirRead) (i : FaultInfo) : (s.dirFound t r i).coreRun = s.coreRun :=
  (s.dirFound_frame t r i).coreRun_eq rfl

theorem State.dirFound_latent (s : State) (t u : Nat) (r : DirRead) (i : FaultInfo) :
    (s.dirFound t r i).dirLatent u = s.dirLatent u := by
  unfold State.dirLatent
  rw [(s.dirFound_waiting t r i).1]

/-- A seal ends on the entry as a read of it leaves it. -/
theorem execSealComplete_running {s : State} {j : SealJob} (hrun : s.coreRun = true) (hseal : s.lmc.sealing = some j) (r : DirRead) :
    exec (.sealComplete r) s = .next (s.dirReadEffect j.tile r (sealInfo j.by_ j.tile)).sealEnd := by
  change Host.Outcome.next (if s.coreRun then (s.sealDirRead r).sealEnd else s) = _
  rw [if_pos hrun]
  unfold State.sealDirRead
  rw [hseal]

theorem State.sealEnd_of_good {s : State} {j : SealJob} (hseal : s.lmc.sealing = some j) (hgood : s.dirLatent j.tile = .good) :
    s.sealEnd = s.sealWrite j := by
  unfold State.sealEnd
  rw [hseal]
  dsimp only
  rw [State.dirTouch_of_good hgood]

/-- With no error waiting, the seal ends on what its read finds. -/
theorem execSealComplete_good {s : State} {j : SealJob} (hrun : s.coreRun = true) (hseal : s.lmc.sealing = some j)
    (hgood : s.dirLatent j.tile = .good) (r : DirRead) :
    exec (.sealComplete r) s = exec (.sealComplete .good) (s.dirFound j.tile r (sealInfo j.by_ j.tile)) := by
  have hseal' := (s.dirFound_waiting j.tile r (sealInfo j.by_ j.tile)).2.trans hseal
  have hgood' := (s.dirFound_latent j.tile j.tile r (sealInfo j.by_ j.tile)).trans hgood
  rw [execSealComplete_running hrun hseal, execSealComplete_running ((s.dirFound_coreRun _ _ _).trans hrun) hseal']
  unfold State.dirReadEffect
  rw [State.dirTouch_of_good hgood, State.dirTouch_of_good hgood']
  rfl


/-- LMC_SEAL_STATUS once a seal has ended with RESULT `r`. -/
def State.sealShown (s : State) (r : Nat) : State :=
  ((s.put F.LMC_SEAL_STATUS_BUSY 0).put F.LMC_SEAL_STATUS_RESULT r).put F.LMC_SEAL_STATUS_REASON 0

/-- A seal of tile `k` ends with the entry and the RESULT `o`. -/
def State.sealRecord (s : State) (k : Nat) (o : DirEntry × Nat) : State :=
  (s.sealShown o.2).setLmc { s.lmc with sealing := none, dir := sparseSet dirDefault s.lmc.dir k o.1 }

theorem State.sealWrite_eq (s : State) (j : SealJob) :
    s.sealWrite j = s.sealRecord j.tile (sealOutcome (s.dirEntry j.tile) j.self j.crc (s.tileCrc j.tile)) := by
  unfold State.sealWrite
  generalize sealOutcome (s.dirEntry j.tile) j.self j.crc (s.tileCrc j.tile) = o
  rfl

theorem State.sealRecord_effect {s : State} (hs : s.Wf) (k : Nat) {o : DirEntry × Nat} (ho : o.2 < 4) :
    (s.sealRecord k o).get F.LMC_SEAL_STATUS_BUSY = 0 ∧ (s.sealRecord k o).get F.LMC_SEAL_STATUS_REASON = 0 ∧
      (s.sealRecord k o).get F.LMC_SEAL_STATUS_RESULT = o.2 ∧
      (s.sealRecord k o).lmc = { s.lmc with sealing := none, dir := sparseSet dirDefault s.lmc.dir k o.1 } ∧
      OnlyRegs [A.LMC_SEAL_STATUS] s { s.sealRecord k o with lmc := s.lmc } := by
  have hbusy := State.put_wf (f := F.LMC_SEAL_STATUS_BUSY) (v := 0) hs
  have hresult := State.put_wf (f := F.LMC_SEAL_STATUS_RESULT) (v := o.2) hbusy
  unfold State.sealRecord
  rw [State.setLmc_get, State.setLmc_get, State.setLmc_get]
  refine ⟨?_, ?_, ?_, rfl, ?_⟩
  · rw [State.sealShown, State.get_put_ne hresult (by decide) (by decide), State.get_put_ne hbusy (by decide) (by decide),
      State.get_put_self hs (by decide)]
    exact Nat.zero_mod _
  · rw [State.sealShown, State.get_put_self hresult (by decide)]
    exact Nat.zero_mod _
  · rw [State.sealShown, State.get_put_ne hresult (by decide) (by decide), State.get_put_self hbusy (by decide)]
    exact Nat.mod_eq_of_lt ho
  · have honly : OnlyRegs [A.LMC_SEAL_STATUS] s (s.sealShown o.2) :=
      .put (.put (.put (.refl _ s) (by decide) _) (by decide) _) (by decide) _
    exact honly

/-- A seal whose CRC agrees, or that takes the CRC itself, makes its tile SEALED. -/
theorem sealOutcome_agrees {e : DirEntry} {self : Bool} {want got : Word} (h : self = true ∨ want = got) :
    sealOutcome e self want got = ({ st := .sealed, crc := got }, 1) := by
  unfold sealOutcome
  rcases h with rfl | rfl <;> simp

theorem sealOutcome_differs {e : DirEntry} {want got : Word} (h : want ≠ got) :
    sealOutcome e false want got = ({ e with st := if e.st = .sealed then .unsealed else e.st }, 2) := by
  unfold sealOutcome
  rw [if_neg (by simpa using h)]
  obtain ⟨st, crc⟩ := e
  cases st <;> rfl

/-- A seal that ends on a good entry: what the tile becomes, and what stays (R75). -/
theorem sealComplete_ends {s : State} {j : SealJob} (hs : s.Wf) (hrun : s.coreRun = true) (hseal : s.lmc.sealing = some j)
    (hgood : s.dirLatent j.tile = .good) :
    let crc := s.tileCrc j.tile
    Completes (.sealComplete .good) s fun t =>
      t.get F.LMC_SEAL_STATUS_BUSY = 0 ∧ t.get F.LMC_SEAL_STATUS_REASON = 0 ∧ t.lmc.sealing = none ∧
      (j.self = true ∨ j.crc = crc →
        t.get F.LMC_SEAL_STATUS_RESULT = 1 ∧ t.lmc = { s.lmc with
          sealing := none, dir := sparseSet dirDefault s.lmc.dir j.tile { st := .sealed, crc := crc } }) ∧
      (j.self = false → j.crc ≠ crc →
        t.get F.LMC_SEAL_STATUS_RESULT = 2 ∧ t.lmc = { s.lmc with
          sealing := none
          dir := sparseSet dirDefault s.lmc.dir j.tile { s.dirEntry j.tile with
            st := if (s.dirEntry j.tile).st = .sealed then .unsealed else (s.dirEntry j.tile).st } }) ∧
      OnlyRegs [A.LMC_SEAL_STATUS] s { t with lmc := s.lmc } := by
  intro crc
  have hexec : exec (.sealComplete .good) s = .next (s.sealWrite j) := by
    rw [execSealComplete_running hrun hseal]
    change Host.Outcome.next (s.dirTouch j.tile (sealInfo j.by_ j.tile)).sealEnd = _
    rw [State.dirTouch_of_good hgood, State.sealEnd_of_good hseal hgood]
  rw [State.sealWrite_eq] at hexec
  rcases Decidable.em (j.self = true ∨ j.crc = crc) with h | h
  · rw [sealOutcome_agrees h] at hexec
    obtain ⟨hbusy, hreason, hresult, hlmc, honly⟩ := State.sealRecord_effect hs j.tile (o := ({ st := .sealed, crc := crc }, 1)) (Nat.lt_of_sub_eq_succ rfl)
    exact ⟨_, hexec, hbusy, hreason, congrArg Lmc.sealing hlmc, fun _ => ⟨hresult, hlmc⟩,
      fun hself hne => absurd h (by simp [hself, hne]), honly⟩
  · obtain ⟨hself, hne⟩ := not_or.1 h
    have hself : j.self = false := by simpa using hself
    rw [hself, sealOutcome_differs hne] at hexec
    obtain ⟨hbusy, hreason, hresult, hlmc, honly⟩ := State.sealRecord_effect hs j.tile (o := ({ s.dirEntry j.tile with
      st := if (s.dirEntry j.tile).st = .sealed then .unsealed else (s.dirEntry j.tile).st }, 2)) (Nat.lt_of_sub_eq_succ rfl)
    exact ⟨_, hexec, hbusy, hreason, congrArg Lmc.sealing hlmc, fun h' => absurd h' h, fun _ _ => ⟨hresult, hlmc⟩, honly⟩

/-- An error that had hit the entry before is found as one found by the read itself (log entry 72). -/
theorem sealComplete_latent {s : State} {j : SealJob} {two : Bool} (hrun : s.coreRun = true) (hseal : s.lmc.sealing = some j)
    (hhit : s.lmc.dirHit = [(j.tile, two)]) :
    exec (.sealComplete .good) s = exec (.sealComplete (if two then .double else .corrected))
      { s with lmc := { s.lmc with dirHit := [] } } := by
  let i := sealInfo j.by_ j.tile
  let clean : State := { s with lmc := { s.lmc with dirHit := [] } }
  have hlatent : s.dirLatent j.tile = if two then .double else .corrected := by
    unfold State.dirLatent
    rw [hhit]
    simp
  have hkeep : (s.dirFound j.tile (s.dirLatent j.tile) i).lmc.dirHit.filter (fun e => e.1 != j.tile) = [] := by
    rw [(s.dirFound_waiting j.tile _ i).1, hhit]
    simp
  have htouch : s.dirTouch j.tile i = clean.dirFound j.tile (s.dirLatent j.tile) i := by
    rw [State.dirFound_dirHit, ← hkeep]
    rfl
  have hgood : clean.dirLatent j.tile = .good := rfl
  have hfound := (clean.dirFound_latent j.tile j.tile (s.dirLatent j.tile) i).trans hgood
  rw [execSealComplete_running hrun hseal, execSealComplete_running (s := clean) hrun hseal, ← hlatent]
  change Host.Outcome.next (s.dirTouch j.tile i).sealEnd = Host.Outcome.next ((clean.dirTouch j.tile i).dirFound j.tile _ i).sealEnd
  rw [State.dirTouch_of_good hgood, htouch]

/-- Settles O13: the write of LMC_SEAL by the checks of R75 in order, and the seal's end by the CRC of its tile. -/
theorem sealsFollowTheirTable : Obligations.SealsFollowTheirTable := by
  refine ⟨?_, fun reason s hs hr => State.sealRefused_effect hs hr, fun j s hs hrun hseal hgood => sealComplete_ends hs hrun hseal hgood,
    fun j s hrun hseal hgood => ⟨execSealComplete_good hrun hseal hgood .corrected, execSealComplete_good hrun hseal hgood .double⟩,
    fun j s two hrun hseal hhit => sealComplete_latent hrun hseal hhit⟩
  intro who v s hs haon t0
  refine ⟨fun hw hb => ?_, fun hw hb (hge : tileCount ≤ v.toNat % 2 ^ 14) => ?_,
    fun hw hb (hlt : v.toNat % 2 ^ 14 < tileCount) (hoff : s.tileOn (v.toNat % 2 ^ 14) = false) => ?_,
    fun hw hb (hlt : v.toNat % 2 ^ 14 < tileCount) (hon : s.tileOn (v.toNat % 2 ^ 14) = true) hst hgood => ?_,
    fun hw hb hlt hon hst hgood => sealTile_accepted hs hw hb hlt hon hst hgood,
    fun hb hlt hon hpost hport => execSealTile_post haon hb hlt hon hpost hport⟩
  · rw [execSealTile_open hw]
    unfold State.sealStart
    rw [State.flag_of_get hb]
    rfl
  · rw [execSealTile_open hw, State.sealStart_idle hb, if_pos hge]
  · rw [execSealTile_open hw, State.sealStart_idle hb, if_neg (Nat.not_le.2 hlt), hoff]
    rfl
  · rw [execSealTile_open hw, State.sealStart_idle hb, if_neg (Nat.not_le.2 hlt), hon, State.post_of_writable hw (.inl rfl),
      State.sealAccept_empty hgood hst]
    rfl

end Sys2Proof.Machine
end

section
/-!
The byte frames of the SPI slave: MEM_RD and MEM_WR in layer memory (R74, R81, R86, R484, R485).
-/

namespace Sys2Proof.Machine

/-! ### The tiles of a range of bytes (R68) -/

/-- The tiles a range touches are those of its bytes. -/
theorem mem_tilesOf {a n t : Nat} (hbase : layerBase ≤ a) (hn : 1 ≤ n) : t ∈ tilesOf a n ↔ ∃ k, k < n ∧ tileOf (a + k) = t := by
  unfold tilesOf
  rw [if_neg (by omega)]
  simp only [List.mem_map, List.mem_range]
  simp only [tileOf, layerBase] at hbase ⊢
  constructor
  · rintro ⟨i, hi, rfl⟩
    rcases Nat.eq_zero_or_pos i with rfl | hpos
    · exact ⟨0, by omega, by simp⟩
    · exact ⟨0x01000000 + 4096 * ((a - 0x01000000) / 4096 + i) - a, by omega, by omega⟩
  · rintro ⟨k, hk, rfl⟩
    exact ⟨(a + k - 0x01000000) / 4096 - (a - 0x01000000) / 4096, by omega, by omega⟩

/-! ### The directory operations touch the status of seals and a counter alone -/

/-- The registers of LMC that a read of a directory entry and the end of a seal touch. -/
abbrev dirSpans : List Span := [.reg A.LMC_SEAL_STATUS, .reg A.LMC_CNT1]

abbrev dirParts : List Part := [.lmc, .freeCount, .flt]

theorem State.dirFound_regs (s : State) (t : Nat) (r : DirRead) (i : FaultInfo) : Frame dirSpans dirParts s (s.dirFound t r i) := by
  unfold State.dirFound State.setDir State.tick
  split
  · exact .refl
  · exact .raiseI (.inc .refl rfl) rfl
  · exact .raiseI (.upd .refl rfl id) rfl

theorem State.dirTouch_regs (s : State) (t : Nat) (i : FaultInfo) : Frame dirSpans dirParts s (s.dirTouch t i) :=
  .lmc (s.dirFound_regs _ _ _) rfl

theorem State.dirTouches_regs (i : FaultInfo) : ∀ (ts : List Nat) (s : State), Frame dirSpans dirParts s (s.dirTouches i ts)
  | [], _ => .refl
  | t :: ts, s => (s.dirTouch_regs t i).trans (State.dirTouches_regs i ts _)

theorem State.sealEnd_regs (s : State) : Frame dirSpans dirParts s s.sealEnd := by
  unfold State.sealEnd
  split
  · exact .refl
  · exact .lmc (.put (.put (.put (.lmc (s.dirTouch_regs _ _) rfl) rfl) rfl) rfl) rfl

theorem State.afterSeal_regs (s : State) (ts : List Nat) : Frame dirSpans dirParts s (s.afterSeal ts) := by
  unfold State.afterSeal
  split
  · exact .refl
  · exact .ite s.sealEnd_regs .refl

theorem State.unsealTiles_frame : ∀ (ts : List Nat) (s : State), Frame [] [.lmc] s (s.unsealTiles ts)
  | [], _ => .refl
  | t :: ts, s => .trans (.lmc .refl rfl) (State.unsealTiles_frame ts (s.setDir t { s.dirEntry t with st := .unsealed }))

/-- A partial write touches registers as the reads of its entries do, and stores its bytes. -/
theorem State.memStore_frame (s : State) (a : Nat) (bs : List Byte) (i : FaultInfo) :
    Frame dirSpans (.lmem :: dirParts) s (s.memStore a bs i) := by
  let ts := tilesOf a bs.length
  have hdir : Frame dirSpans (.lmem :: dirParts) s (((s.afterSeal ts).dirTouches i ts).unsealTiles ts) :=
    .op (State.unsealTiles_frame ts _) (.op (State.dirTouches_regs i ts _) (.mono (s.afterSeal_regs ts) rfl) rfl) rfl
  exact hdir.upd rfl fun hw => ⟨hw.1, hw.2.1, sparseWf_fill _ _ hw.2.2.1, hw.2.2.2⟩

/-- A partial write stores byte `k` of its bytes at `a + k` (R74). -/
theorem State.lmByte_memStore_in {s : State} (hs : s.Wf) {a k : Nat} {bs : List Byte} (i : FaultInfo) (hk : k < bs.length) :
    (s.memStore a bs i).lmByte (a + k) = bs[k] := by
  have hframe := (s.afterSeal_regs (tilesOf a bs.length)).trans (State.dirTouches_regs i (tilesOf a bs.length) _)
  exact State.lmByte_lmWrite_in ((State.unsealTiles_frame _ _).wf (hframe.wf hs)) hk

/-! ### The frame and its checks -/

theorem State.accRecord_frame (s : State) (i r : Nat) (write : Bool) (a : Nat) :
    Frame [.reg A.GLB_ACC_ERR, .reg A.GLB_ACC_ADDR] [] s (s.accRecord i r write a) :=
  .ite .refl (.put (.putB (.put (.put (.put .refl rfl) rfl) rfl) rfl) rfl)

/-- An accepted frame on an idle slave is carried out. -/
theorem State.spiFrame_idle {s : State} (haon : s.aonOn = true) (hbusy : s.spi.busy = none) {len : Nat} (hlen : len ≠ 0)
    (k : State → State) : s.spiFrame len k = k (s.spiFrameBegun false false) := by
  have hb : s.spiBegin.spi.busy.isSome = false := by simp [State.spiBegin, hbusy]
  unfold State.spiFrame
  rw [haon]
  simp only [Bool.not_true, Bool.false_eq_true, if_false, if_neg hlen, hb]
  rfl

/-- A range inside the layer memory window passes every check of R484. -/
theorem frameCheck_layer {op a n : Nat} (hop : op = 5 ∨ op = 6) (hn : 1 ≤ n) (htop : n ≤ 256) (hlo : 0x01000000 ≤ a)
    (hhi : a + n ≤ 0x04000000) : frameCheck op n 256 a n = 0 := by
  have hregion : ∀ b, 0x01000000 ≤ b → b < 0x04000000 → regionOf b = 1 := by
    intro b h1 h2
    simp [regionOf, regEnd, layerBase, layerEnd, show ¬ b < 0x15000 by omega, h1, h2]
  have hro : ¬ nvmBase ≤ a + n - 1 := by simp only [nvmBase]; omega
  unfold frameCheck
  dsimp only
  rw [hregion a hlo (by omega), hregion (a + n - 1) (by omega) (by omega)]
  rcases hop with rfl | rfl <;> simp [hro, show ¬ 256 < n by omega]

theorem State.raiseI_flt {s y : State} (h : y.flt = s.flt) (n : Nat) (i : FaultInfo) : (y.raiseI n i).flt = (s.raiseI n i).flt := by
  unfold State.raiseI
  rw [State.frec_congr h]
  extract_lets r
  split
  · exact h
  · exact State.setFrec_flt h n _

/-! ### The decision of a write -/

theorem State.memWrGate_off {s : State} {a n k : Nat} (hk : k < n) (hoff : s.tileOn (tileOf (a + k)) = false)
    (hon : ∀ j, j < k → s.tileOn (tileOf (a + j)) = true) : s.memWrGate a n = (Res.off, k) := by
  have hfind : (List.range n).find? (fun k => !s.tileOn (tileOf (a + k))) = some k := by
    rw [List.find?_range_eq_some]
    exact ⟨by simp [hoff], by simpa using hk, fun j hj => by simp [hon j hj]⟩
  unfold State.memWrGate
  rw [hfind]

/-- With every bank on the decision is LOCKED where some tile of the range is locked, and else OK. -/
theorem State.memWrGate_on {s : State} {a n : Nat} (hon : ∀ k, k < n → s.tileOn (tileOf (a + k)) = true)
    (hboot : s.power ≠ 1) (hpost : s.post = false) (hfrozen : s.frozen = false) :
    s.memWrGate a n = if (tilesOf a n).any s.tileLocked then (Res.locked, 0) else (Res.ok, 0) := by
  have hfind : (List.range n).find? (fun k => !s.tileOn (tileOf (a + k))) = none := by
    rw [List.find?_eq_none]
    intro k hk
    simp [hon k (by simpa using hk)]
  have hpow : (s.power == Power.boot) = false := by simpa [Power.boot] using hboot
  unfold State.memWrGate
  rw [hfind]
  simp [hpow, hpost, hfrozen]


/-! ### Which banks are on -/

theorem bankMapField_addr (b : Nat) : (bankMapField b).addr = A.LMC_BANK_MAPn (b / 4) := by
  unfold bankMapField
  split <;> rfl

/-- The registers that say which banks are on: the map and the MEM domains. -/
abbrev bankRegs : List Nat := [A.LMC_BANK_MAPn 0, A.LMC_BANK_MAPn 1, A.LMC_BANK_MAPn 2, A.LMC_BANK_MAPn 3]

theorem bankMapField_mem {b : Nat} (hb : b < 16) : (bankMapField b).addr ∈ bankRegs := by
  have hq : b / 4 = 0 ∨ b / 4 = 1 ∨ b / 4 = 2 ∨ b / 4 = 3 := by omega
  rw [bankMapField_addr]
  rcases hq with h | h | h | h <;> rw [h] <;> simp [bankRegs]

section
variable {L : List Span} {ps : List Part} {s t : State}

theorem Frame.physOf_eq (h : Frame L ps s t) (hd : bankRegs.any (covers L) = false) {b : Nat} (hb : b < 16) :
    t.physOf b = s.physOf b :=
  h.get (Bool.eq_false_iff.2 fun hc => by
    rw [List.any_eq_false] at hd
    exact hd _ (bankMapField_mem hb) hc)

theorem Frame.bankOn_eq (h : Frame L ps s t) (hd : (A.PWR_DOM :: bankRegs).any (covers L) = false) {b : Nat} (hb : b < 16) :
    t.bankOn b = s.bankOn b := by
  rw [List.any_cons, Bool.or_eq_false_iff] at hd
  obtain ⟨hdom, hmap⟩ := hd
  unfold State.bankOn State.memOn
  rw [h.physOf_eq hmap hb, h.get hdom]

theorem Frame.tileOn_eq (h : Frame L ps s t) (hd : (A.PWR_DOM :: bankRegs).any (covers L) = false) {k : Nat} (hk : k < tileCount) :
    t.tileOn k = s.tileOn k :=
  h.bankOn_eq hd (by simp only [bankOfTile, tileCount] at hk ⊢; omega)

end

theorem tileOf_lt {a : Nat} (ha : a < 0x04000000) : tileOf a < tileCount := by
  simp only [tileOf, tileCount, layerBase]
  omega

/-! ### The frames -/

section
variable {s : State} {tag : Byte} {len : BitVec 16} {a : Word} {data : List Byte}

/-- A byte of a bank that is on reads as stored (R485). -/
theorem State.byteRead_on {s : State} {b : Nat} (hlo : 0x01000000 ≤ b) (hhi : b < 0x04000000) (hon : s.tileOn (tileOf b) = true)
    (hboot : s.power ≠ 1) (hpost : s.post = false) : s.byteRead b = (s.lmByte b, Res.ok) := by
  have hregion : regionOf b ≠ 2 := by
    simp [regionOf, regEnd, layerBase, layerEnd, show ¬ b < 0x15000 by omega, hlo, hhi]
  have hgate : s.layerGate b false = Res.ok := by simp [State.layerGate, hon, hpost, hboot, Power.boot]
  unfold State.byteRead
  rw [if_neg hregion, hgate]
  rfl

/-- A MEM_RD of a range whose banks are on answers its bytes, after a seal of their tiles (R75, R485). -/
theorem spiMemRd_reads (haon : s.aonOn = true) (hbusy : s.spi.busy = none) (hboot : s.power ≠ 1) (hpost : s.post = false)
    (h1 : 1 ≤ len.toNat) (h256 : len.toNat ≤ 256) (hlo : 0x01000000 ≤ a.toNat) (hhi : a.toNat + len.toNat ≤ 0x04000000)
    (hon : ∀ k, k < len.toNat → s.tileOn (tileOf (a.toNat + k)) = true) :
    exec (.spiMemRd tag len a) s = .next (((s.spiFrameBegun false false).readAfterSeal (tilesOf a.toNat len.toNat)).spiWaiting tag 5 0 0
      len.toNat ((List.range len.toNat).map fun k => s.lmByte (a.toNat + k))) := by
  let u := (s.spiFrameBegun false false).readAfterSeal (tilesOf a.toNat len.toNat)
  have hu : Frame dirSpans dirParts (s.spiFrameBegun false false) u := .ite .refl (State.afterSeal_regs _ _)
  have hbytes : ∀ k, k < len.toNat → u.byteRead (a.toNat + k) = (s.lmByte (a.toNat + k), Res.ok) := by
    intro k hk
    have htile : u.tileOn (tileOf (a.toNat + k)) = true :=
      (hu.tileOn_eq rfl (tileOf_lt (by omega))).trans (hon k hk)
    have hpow : u.power = s.power := hu.get rfl
    rw [State.byteRead_on (by omega) (by omega) htile (by rw [hpow]; exact hboot) ((hu.flag rfl).trans hpost),
      (hu.sameMemory rfl).1]
    rfl
  have hgood : ((List.range len.toNat).filter fun k => (u.byteRead (a.toNat + k)).2 != Res.ok) = [] := by
    rw [List.filter_eq_nil_iff]
    intro k hk
    rw [hbytes k (by simpa using hk)]
    simp
  have hmap : ((List.range len.toNat).map fun k => u.byteRead (a.toNat + k)).map (fun b => b.1) =
      (List.range len.toNat).map fun k => s.lmByte (a.toNat + k) := by
    rw [List.map_map]
    exact List.map_congr_left fun k hk => congrArg Prod.fst (hbytes k (by simpa using hk))
  change Host.Outcome.next (s.spiFrame len.toNat _) = _
  rw [State.spiFrame_idle haon hbusy (by omega)]
  dsimp only
  rw [frameCheck_layer (.inl rfl) h1 h256 hlo hhi, if_neg (by decide)]
  simp only [u] at hgood hmap
  rw [hgood, hmap]
  rfl

/-- A MEM_WR is decided as a whole, applied and recorded (R485, R487). -/
theorem spiMemWr_decided (haon : s.aonOn = true) (hbusy : s.spi.busy = none) (h1 : 1 ≤ len.toNat) (h256 : len.toNat ≤ 256)
    (hlo : 0x01000000 ≤ a.toNat) (hhi : a.toNat + len.toNat ≤ 0x04000000) (hdata : data.length = len.toNat) :
    exec (.spiMemWr tag len a data) s =
      let g := s.memWrGate a.toNat len.toNat
      .next ((((s.spiFrameBegun false false).memWrApply .spi a.toNat data g.1).accRecord 0 g.1 true a.toNat).spiWaiting tag 6 g.1 g.2
        len.toNat []) := by
  have hshort : ¬ (s.aonOn && decide (len.toNat ≤ 256) && decide (data.length < len.toNat)) = true := by simp [hdata]
  change Host.Outcome.next (if (s.aonOn && decide (len.toNat ≤ 256) && decide (data.length < len.toNat)) = true then _
    else s.spiFrame len.toNat _) = _
  rw [if_neg hshort, State.spiFrame_idle haon hbusy (by omega)]
  dsimp only
  rw [frameCheck_layer (.inr rfl) h1 h256 hlo hhi, if_neg (by decide), ← hdata, List.take_length]
  rfl

/-- The frame whose bytes meet no bank that is off and no lock stores them (R74). -/
theorem spiMemWr_stores (hs : s.Wf) (hdata : data.length = len.toNat)
    (hexec : exec (.spiMemWr tag len a data) s = let g := s.memWrGate a.toNat len.toNat
      .next ((((s.spiFrameBegun false false).memWrApply .spi a.toNat data g.1).accRecord 0 g.1 true a.toNat).spiWaiting tag 6 g.1 g.2
        len.toNat []))
    (hgate : s.memWrGate a.toNat len.toNat = (Res.ok, 0)) :
    Completes (.spiMemWr tag len a data) s fun t =>
      t.spi.busy = some (spiAnswer tag 6 0 0 len.toNat []) ∧
      (∀ k b, data[k]? = some b → t.lmByte (a.toNat + k) = b) ∧
      (∀ j, j < a.toNat ∨ a.toNat + len.toNat ≤ j → t.lmByte j = s.lmByte j) ∧
      (∀ j, t.nvByte j = s.nvByte j) ∧ RegsBut [A.LMC_SEAL_STATUS, A.LMC_CNT1] s t := by
  rw [hgate] at hexec
  let i : FaultInfo := { init := initNo .spi, access := writeKind .spi, addr := a.toNat }
  have hframe := (s.spiFrameBegun false false).memStore_frame a.toNat data i
  refine ⟨_, hexec, rfl, fun k b hk => ?_, fun j hj => ?_, fun j => ?_, ?_⟩
  · obtain ⟨hlt, rfl⟩ := List.getElem?_eq_some_iff.1 hk
    exact State.lmByte_memStore_in (s := s.spiFrameBegun false false) hs i hlt
  · exact State.lmByte_memStore_out (s := s.spiFrameBegun false false) (by rwa [hdata])
  · exact congrArg (sparseGet memDefault · j) (hframe.part .nvm rfl)
  · exact hframe.regsBut rfl

/-- A frame that is discarded is counted and reported, and stores nothing (R81, R437). -/
theorem spiMemWr_discarded (hs : s.Wf) {f : Field} {c r k : Nat}
    (hexec : exec (.spiMemWr tag len a data) s = let g := s.memWrGate a.toNat len.toNat
      .next ((((s.spiFrameBegun false false).memWrApply .spi a.toNat data g.1).accRecord 0 g.1 true a.toNat).spiWaiting tag 6 g.1 g.2
        len.toNat []))
    (hgate : s.memWrGate a.toNat len.toNat = (r, k))
    (happly : (s.spiFrameBegun false false).memWrApply .spi a.toNat data r =
      ((s.spiFrameBegun false false).inc f).raiseI c { init := 0, access := 2, addr := a.toNat })
    (hf : f.ok) (hfar : covers [.reg A.GLB_ACC_ERR, .reg A.GLB_ACC_ADDR] f.addr = false) :
    Completes (.spiMemWr tag len a data) s fun t =>
      t.spi.busy = some (spiAnswer tag 6 r k len.toNat []) ∧ t.lmem = s.lmem ∧ t.nvm = s.nvm ∧ t.lmc = s.lmc ∧
      t.flt = (s.raiseI c { init := 0, access := 2, addr := a.toNat }).flt ∧ t.get f = min (s.get f + 1) f.top := by
  rw [hgate] at hexec
  dsimp only at hexec
  rw [happly] at hexec
  let s0 := s.spiFrameBegun false false
  let i : FaultInfo := { init := 0, access := 2, addr := a.toNat }
  have hraise : Frame [] [.flt] (s0.inc f) ((s0.inc f).raiseI c i) := .raiseI .refl rfl
  have hacc := State.accRecord_frame ((s0.inc f).raiseI c i) 0 r true a.toNat
  have hkept (p : Part) (h : ([.flt] : List Part).contains p = false) : p.Same (s0.inc f) (((s0.inc f).raiseI c i).accRecord 0 r true a.toNat) :=
    (hraise.part p h).trans (hacc.part p rfl)
  have hflt : ((s0.inc f).raiseI c i).flt = (s.raiseI c i).flt := State.raiseI_flt (y := s0.inc f) (s := s) rfl c i
  refine ⟨_, hexec, rfl, hkept .lmem rfl, hkept .nvm rfl, hkept .lmc rfl, Eq.trans (hacc.part .flt rfl) hflt, ?_⟩
  exact (hacc.get hfar).trans ((hraise.get rfl).trans (State.get_inc_same (s := s0) hs hf))

end

/-- Settles O11: the read by its bytes, the write by the decision on its range. -/
theorem spiMemoryFrames : Obligations.SpiMemoryFrames := by
  intro tag len a data s hs haon hbusy hboot hpost hfrozen h1 h256 hlo hhi hdata
  have hexec := spiMemWr_decided (tag := tag) haon hbusy h1 h256 hlo hhi hdata
  refine ⟨fun hon => ?_, fun k hk hoff hbefore =>
    spiMemWr_discarded (f := F.GLB_OFFBLOCK_COUNT_COUNT) hs hexec (State.memWrGate_off hk hoff hbefore) rfl ⟨by decide, by decide⟩ rfl⟩
  have hgate := State.memWrGate_on hon hboot hpost hfrozen
  refine ⟨?_, fun hfree => spiMemWr_stores hs hdata hexec ?_, fun k hk hlock =>
    spiMemWr_discarded (f := F.LMC_CNT1_LOCKED_WRITE) hs hexec (r := Res.locked) (k := 0) ?_ rfl ⟨by decide, by decide⟩ rfl⟩
  · have hframe : Frame dirSpans dirParts (s.spiFrameBegun false false)
        ((s.spiFrameBegun false false).readAfterSeal (tilesOf a.toNat len.toNat)) := .ite .refl (State.afterSeal_regs _ _)
    exact ⟨_, spiMemRd_reads haon hbusy hboot hpost h1 h256 hlo hhi hon, rfl, hframe.sameMemory rfl, hframe.regsBut rfl⟩
  · rw [hgate, if_neg]
    rw [Bool.not_eq_true, List.any_eq_false]
    intro t ht
    obtain ⟨k, hk, rfl⟩ := (mem_tilesOf hlo h1).1 ht
    rw [hfree k hk]
    decide
  · rw [hgate, if_pos]
    exact List.any_eq_true.2 ⟨_, (mem_tilesOf hlo h1).2 ⟨k, hk, rfl⟩, hlock⟩

end Sys2Proof.Machine
end

section
/-!
Bank rotation and bank power (R84-R86): MIGRATE begins, is abandoned and ends in SWAP, and a bank that goes off loses its
tiles.
-/

namespace Sys2Proof.Machine

/-! ### One bit of a number -/

/-- A number that is `2 ^ p` more has bit `p` set where it was clear, and its other bits as they were. -/
theorem testBit_add_two_pow {m p : Nat} (h : m.testBit p = false) (i : Nat) :
    (m + 2 ^ p).testBit i = (decide (i = p) || m.testBit i) := by
  have hr : m % 2 ^ (p + 1) < 2 ^ p := by
    have h' := h
    rw [Nat.testBit_eq_decide_div_mod_eq, decide_eq_false_iff_not] at h'
    have hsplit := Nat.div_add_mod (m % 2 ^ (p + 1)) (2 ^ p)
    have hquot : m % 2 ^ (p + 1) / 2 ^ p = m / 2 ^ p % 2 := by rw [Nat.pow_succ, Nat.mod_mul_right_div_self]
    have hlt := Nat.mod_lt (m % 2 ^ (p + 1)) (Nat.two_pow_pos p)
    rw [hquot, show m / 2 ^ p % 2 = 0 by omega] at hsplit
    omega
  have hm : m = 2 ^ (p + 1) * (m / 2 ^ (p + 1)) + m % 2 ^ (p + 1) := (Nat.div_add_mod _ _).symm
  have hlow : 2 ^ p + m % 2 ^ (p + 1) < 2 ^ (p + 1) := by have := Nat.pow_succ 2 p; omega
  have hsum : m + 2 ^ p = 2 ^ (p + 1) * (m / 2 ^ (p + 1)) + (2 ^ p + m % 2 ^ (p + 1)) := by omega
  have hbits := Nat.testBit_two_pow_mul_add (m / 2 ^ (p + 1)) (Nat.mod_lt m (Nat.two_pow_pos (p + 1))) i
  rw [← hm] at hbits
  rw [hsum, Nat.testBit_two_pow_mul_add _ hlow, hbits]
  split
  · next hi =>
    rcases Nat.lt_or_eq_of_le (Nat.le_of_lt_succ hi) with hlt | rfl
    · rw [Nat.testBit_two_pow_add_gt hlt]
      simp [Nat.ne_of_lt hlt]
    · rw [Nat.testBit_two_pow_add_eq, Nat.testBit_lt_two_pow hr]
      simp
  · next hi => simp [show i ≠ p by omega]

/-- A number that is `2 ^ p` less has bit `p` clear where it was set, and its other bits as they were. -/
theorem testBit_sub_two_pow {m p : Nat} (h : m.testBit p = true) (i : Nat) :
    (m - 2 ^ p).testBit i = (decide (i ≠ p) && m.testBit i) := by
  have hle : 2 ^ p ≤ m := Nat.ge_two_pow_of_testBit h
  have hclear : (m - 2 ^ p).testBit p = false := by
    rw [Nat.testBit_eq_decide_div_mod_eq] at h ⊢
    have hdiv := Nat.sub_mul_div m (2 ^ p) 1
    rw [Nat.mul_one] at hdiv
    rw [hdiv]
    simp only [decide_eq_true_eq, decide_eq_false_iff_not] at h ⊢
    omega
  have hadd := testBit_add_two_pow hclear i
  rw [Nat.sub_add_cancel hle] at hadd
  rw [hadd]
  by_cases hi : i = p
  · subst hi
    simp [hclear]
  · simp [hi]

/-- Bit `p` is set, whether or not it was. -/
theorem testBit_withBit (m p i : Nat) : (if bitOf m p then m else m + 2 ^ p).testBit i = (decide (i = p) || m.testBit i) := by
  rw [bitOf_eq_testBit]
  split
  · next hb =>
    by_cases hi : i = p
    · subst hi
      simp [hb]
    · simp [hi]
  · next hb => exact testBit_add_two_pow (by simpa using hb) i

/-- Bit `p` is cleared, whether or not it was set. -/
theorem testBit_withoutBit (m p i : Nat) : (if bitOf m p then m - 2 ^ p else m).testBit i = (decide (i ≠ p) && m.testBit i) := by
  rw [bitOf_eq_testBit]
  split
  · next hb => exact testBit_sub_two_pow hb i
  · next hb =>
    by_cases hi : i = p
    · subst hi
      simpa using hb
    · simp [hi]

/-- A number with one of its low `w` bits set is no wider. -/
theorem withBit_lt {m p w : Nat} (hm : m < 2 ^ w) (hp : p < w) : (if bitOf m p then m else m + 2 ^ p) < 2 ^ w := by
  refine Nat.lt_pow_two_of_testBit _ fun i hi => ?_
  rw [testBit_withBit, Nat.testBit_lt_two_pow (Nat.lt_of_lt_of_le hm (Nat.pow_le_pow_right (by decide) hi))]
  simp only [Bool.or_false, decide_eq_false_iff_not]
  omega

theorem withoutBit_lt {m p w : Nat} (hm : m < 2 ^ w) : (if bitOf m p then m - 2 ^ p else m) < 2 ^ w := by
  split
  · exact Nat.lt_of_le_of_lt (Nat.sub_le _ _) hm
  · exact hm

/-! ### The domains of the banks -/

/-- A MEM domain goes off. -/
theorem State.memOn_setMem_off {s : State} (hs : s.Wf) (p q : Nat) :
    (s.setMem p false).memOn q = (decide (q ≠ p) && s.memOn q) := by
  have hput : (s.setMem p false).get F.PWR_DOM_MEM =
      (if bitOf (s.get F.PWR_DOM_MEM) p then s.get F.PWR_DOM_MEM - 2 ^ p else s.get F.PWR_DOM_MEM) :=
    (State.get_put_self hs (by decide)).trans (Nat.mod_eq_of_lt (withoutBit_lt (s.get_lt F.PWR_DOM_MEM)))
  unfold State.memOn
  rw [hput, bitOf_eq_testBit _ q, testBit_withoutBit, bitOf_eq_testBit]

/-- A MEM domain goes on, where they are not held off. -/
theorem State.memOn_setMem_on {s : State} (hs : s.Wf) (hheld : s.memHeld = false) {p : Nat} (hp17 : p < 17) (q : Nat) :
    (s.setMem p true).memOn q = (decide (q = p) || s.memOn q) := by
  have hput : (s.setMem p true).get F.PWR_DOM_MEM =
      (if bitOf (s.get F.PWR_DOM_MEM) p then s.get F.PWR_DOM_MEM else s.get F.PWR_DOM_MEM + 2 ^ p) := by
    unfold State.setMem
    rw [hheld]
    exact (State.get_put_self hs (by decide)).trans (Nat.mod_eq_of_lt (withBit_lt (s.get_lt F.PWR_DOM_MEM) hp17))
  unfold State.memOn
  rw [hput, bitOf_eq_testBit _ q, testBit_withBit, bitOf_eq_testBit]

theorem State.nomad_of_get {s : State} {n : Nat} (h : s.get F.LMC_NOMAD_PHYS = n) (hn : n < 17) : s.nomad = some n := by
  unfold State.nomad
  rw [h]
  exact if_pos hn

/-! ### A rotation begins (R85) -/

section
variable {s : State} {n b : Nat}

/-- A rotation stands idle: no phase, an awake module, the MEM domains not held off, a nomad bank. -/
structure State.RotationIdle (s : State) (n : Nat) : Prop where
  phase : s.get F.LMC_STATUS_BG_PHASE = 0
  post : s.post = false
  awake : s.awake = true
  held : s.memHeld = false
  nomad : s.nomad = some n
  rotate : s.lmc.rotate = none

/-- An idle rotation stays idle where a register of LMC beside LMC_STATUS and LMC_NOMAD changes. -/
theorem State.RotationIdle.put {f : Field} {v : Nat} (h : s.RotationIdle n)
    (hf : f.addr ∉ [A.LMC_STATUS, A.LMC_NOMAD, A.BST_STATUS, A.PWR_STATUS]) : (s.put f v).RotationIdle n := by
  have hget (g : Field) (hg : g.addr ∈ [A.LMC_STATUS, A.LMC_NOMAD, A.BST_STATUS, A.PWR_STATUS]) : (s.put f v).get g = s.get g :=
    State.get_put_addr fun he => hf (he ▸ hg)
  have hpow : (s.put f v).power = s.power := hget _ (by decide)
  have hstep : (s.put f v).get F.PWR_STATUS_STEP = s.get F.PWR_STATUS_STEP := hget _ (by decide)
  refine ⟨(hget _ (by decide)).trans h.phase, ?_, ?_, ?_, ?_, h.rotate⟩
  · rw [← h.post, State.post, State.flag, hget _ (by decide)]
    rfl
  · rw [← h.awake, State.awake, hpow]
    rfl
  · rw [← h.held, State.memHeld, hpow, hstep]
    rfl
  · rw [← h.nomad, State.nomad, hget _ (by decide)]
    rfl

/-- Wanted, it begins MIGRATE of the next bank, or switches the nomad domain on and waits. -/
theorem State.RotationIdle.go (h : s.RotationIdle n) (hen : s.get F.LMC_CTRL_BG_EN = 1) :
    s.rotationGo = if s.memOn n && !s.lmc.nomadWait then s.rotationBank.elim s s.migrateStart
      else { s.setMem n true with lmc := { (s.setMem n true).lmc with nomadWait := true } } := by
  have hwant : s.rotationWanted = true := by
    unfold State.rotationWanted
    rw [h.rotate]
    exact bne_iff_ne.2 (hen.trans_ne (by decide))
  unfold State.rotationGo
  rw [h.phase, h.post, h.awake, h.held, h.nomad, hwant, if_neg (by decide)]
  cases s.rotationBank <;> rfl

/-- Not wanted, nothing happens. -/
theorem State.rotationGo_unwanted (hrot : s.lmc.rotate = none) (hen : s.get F.LMC_CTRL_BG_EN = 0) : s.rotationGo = s := by
  have hwant : s.rotationWanted = false := by
    unfold State.rotationWanted
    rw [hrot]
    exact State.flag_of_get hen
  unfold State.rotationGo
  rw [hwant]
  split
  · rfl
  · split <;> rfl

/-- The next bank is the first that is on, in the order of the rotation. -/
theorem State.rotationBank_next (hrot : s.lmc.rotate = none) (hb : b < 16) (hon : s.bankOn b = true)
    (hfirst : ∀ i, i < 16 → (s.lmc.nextBank + i) % 16 = b → ∀ j, j < i → s.bankOn ((s.lmc.nextBank + j) % 16) = false) :
    s.rotationBank = some b := by
  have hwrap : (s.lmc.nextBank + (b + 16 - s.lmc.nextBank % 16) % 16) % 16 = b := by omega
  have hlt : (b + 16 - s.lmc.nextBank % 16) % 16 < 16 := Nat.mod_lt _ (by decide)
  have hfind : (List.range 16).find? ((fun c => s.bankOn c) ∘ fun i => (s.lmc.nextBank + i) % 16) =
      some ((b + 16 - s.lmc.nextBank % 16) % 16) := by
    rw [List.find?_range_eq_some]
    refine ⟨by simp [hwrap, hon], by simpa using hlt, fun j hj => ?_⟩
    simp [hfirst _ hlt hwrap j hj]
  unfold State.rotationBank
  rw [hrot]
  dsimp only
  rw [List.find?_map, hfind, Option.map_some, hwrap]

end

/-! ### The checks of MIGRATE (R71, R85) -/

theorem State.tileCrc_eq (s : State) (t : Nat) : s.tileCrc t = crc32 (s.lmBytes (0x01000000 + 4096 * t) 4096) := rfl

/-- A tile whose entry no error has hit, and whose CRC agrees if it is SEALED. -/
def State.tileSound (s : State) (t : Nat) : Prop :=
  s.dirLatent t = .good ∧ ((s.dirEntry t).st = .sealed → s.tileCrc t = (s.dirEntry t).crc)

/-- The copy of sound tiles changes nothing. -/
theorem State.migrateCheck_of_sound {s : State} : ∀ {ts : List Nat}, (∀ t ∈ ts, s.tileSound t) → s.migrateCheck ts = s
  | [], _ => rfl
  | t :: ts, h => by
    obtain ⟨hgood, hcrc⟩ := h t (by simp)
    have htile : s.migrateTile t = s := by
      unfold State.migrateTile
      dsimp only
      rw [State.dirTouch_of_good hgood]
      exact if_neg fun hbad => hbad.2 (hcrc hbad.1)
    unfold State.migrateCheck
    rw [htile]
    exact State.migrateCheck_of_sound fun u hu => h u (by simp [hu])

/-- With no seal in progress, so does MIGRATE. -/
theorem State.migrateCopy_of_sound {s : State} {ts : List Nat} (hseal : s.lmc.sealing = none) (h : ∀ t ∈ ts, s.tileSound t) :
    s.migrateCopy ts = s := by
  have hafter : s.afterSeal ts = s := by
    unfold State.afterSeal
    rw [hseal]
  unfold State.migrateCopy
  rw [hafter, State.migrateCheck_of_sound h]

/-- What a read of directory entries, a seal's end and MIGRATE leave of LMC: all but the directory, the errors that wait and the
seal. -/
def Lmc.SameRotation (x y : Lmc) : Prop := y = { x with dir := y.dir, dirHit := y.dirHit, sealing := y.sealing }

theorem Lmc.SameRotation.trans {x y z : Lmc} (h : x.SameRotation y) (h' : y.SameRotation z) : x.SameRotation z := by
  unfold Lmc.SameRotation at *
  rw [h', h]

theorem Lmc.SameRotation.rotate_eq {x y : Lmc} (h : x.SameRotation y) : y.rotate = x.rotate := by
  rw [h]

theorem State.dirTouch_rotation (s : State) (t : Nat) (i : FaultInfo) : s.lmc.SameRotation (s.dirTouch t i).lmc := by
  have hfound : s.lmc.SameRotation (s.dirFound t (s.dirLatent t) i).lmc := by
    generalize s.dirLatent t = r
    cases r with
    | good => rfl
    | corrected =>
      unfold State.dirFound
      rw [State.raiseI_lmc]
      rfl
    | double =>
      unfold State.dirFound
      rw [State.raiseI_lmc]
      rfl
  exact hfound.trans rfl


theorem State.sealEnd_rotation (s : State) : s.lmc.SameRotation s.sealEnd.lmc := by
  unfold State.sealEnd
  split
  · rfl
  · exact (s.dirTouch_rotation _ _).trans rfl

theorem State.afterSeal_rotation (s : State) (ts : List Nat) : s.lmc.SameRotation (s.afterSeal ts).lmc := by
  unfold State.afterSeal
  split
  · rfl
  · split
    · exact s.sealEnd_rotation
    · rfl

theorem State.migrateTile_rotation (s : State) (t : Nat) : s.lmc.SameRotation (s.migrateTile t).lmc := by
  unfold State.migrateTile
  extract_lets i s1 e
  split
  · rw [State.raiseI_lmc]
    exact (s.dirTouch_rotation t i).trans rfl
  · exact s.dirTouch_rotation t i

theorem State.migrateCheck_rotation : ∀ (ts : List Nat) (s : State), s.lmc.SameRotation (s.migrateCheck ts).lmc
  | [], _ => rfl
  | t :: ts, s => (s.migrateTile_rotation t).trans (State.migrateCheck_rotation ts _)

theorem State.migrateCopy_rotation (s : State) (ts : List Nat) : s.lmc.SameRotation (s.migrateCopy ts).lmc :=
  (s.afterSeal_rotation ts).trans (State.migrateCheck_rotation ts _)

theorem State.migrateTile_regs (s : State) (t : Nat) : Frame dirSpans dirParts s (s.migrateTile t) :=
  .ite (.raiseI (.lmc (s.dirTouch_regs _ _) rfl) rfl) (s.dirTouch_regs _ _)

theorem State.migrateCheck_regs : ∀ (ts : List Nat) (s : State), Frame dirSpans dirParts s (s.migrateCheck ts)
  | [], _ => .refl
  | t :: ts, s => (s.migrateTile_regs t).trans (State.migrateCheck_regs ts _)

theorem State.migrateCopy_regs (s : State) (ts : List Nat) : Frame dirSpans dirParts s (s.migrateCopy ts) :=
  (s.afterSeal_regs ts).trans (State.migrateCheck_regs ts _)

/-! ### The commands -/

theorem wordGet_bit_one {v : Word} (h : v.getLsbD 0 = false) : wordGet v 0 0 = 0 := by
  have hne : wordGet v 0 0 ≠ 1 := fun he => by rw [wordGet_bit_zero.1 he] at h; cases h
  have hlt : wordGet v 0 0 < 2 := Nat.mod_lt _ (by decide)
  omega

theorem execBgEnWrite_open {who : Initiator} {v : Word} {s : State} (hw : s.writable A.LMC_CTRL) :
    exec (.bgEnWrite who v) s = .next (s.bgEnWrite v).accepted :=
  congrArg Host.Outcome.next (State.portWrite_open hw)

/-- BG_EN = 1 with the nomad domain off (R85). -/
theorem bgEnWrite_on {who : Initiator} {v : Word} {s : State} {n : Nat} (hs : s.Wf) (hw : s.writable A.LMC_CTRL)
    (hv : v.getLsbD 0 = true) (hidle : s.RotationIdle n) (hn : n < 17) (hoff : s.memOn n = false) :
    Completes (.bgEnWrite who v) s fun t =>
      t.get F.LMC_CTRL_BG_EN = 1 ∧ t.memOn n = true ∧ t.lmc = { s.lmc with nomadWait := true } ∧
      RegsBut [A.LMC_CTRL, A.PWR_DOM] s t ∧ SameMemory s t := by
  have hbit : wordGet v 0 0 = 1 := wordGet_bit_zero.2 hv
  let s1 := s.put F.LMC_CTRL_BG_EN (wordGet v 0 0)
  have hs1 : s1.Wf := State.put_wf hs
  have hidle1 : s1.RotationIdle n := hidle.put (by decide)
  have hen : s1.get F.LMC_CTRL_BG_EN = 1 := by
    rw [State.get_put_self hs (by decide), hbit]
    rfl
  have hoff1 : s1.memOn n = false := by rw [← hoff, State.memOn, State.get_put_addr (by decide)]; rfl
  have hstep : s.bgEnWrite v = { s1.setMem n true with lmc := { (s1.setMem n true).lmc with nomadWait := true } } := by
    have hrot : s1.lmc.rotate.isSome = false := by rw [hidle1.rotate]; rfl
    change (if s1.lmc.rotate.isSome then _ else if wordGet v 0 0 = 1 then s1.rotationGo else _) = _
    rw [hrot, hbit, if_neg (by decide), if_pos rfl, hidle1.go hen, hoff1]
    rfl
  have hexec := execBgEnWrite_open (who := who) (v := v) hw
  rw [hstep] at hexec
  have hmem : Frame [.reg A.PWR_DOM] [] s1 (s1.setMem n true) := s1.setMem_frame n true
  have hframe : Frame [.reg A.LMC_CTRL, .reg A.PWR_DOM] [] s (s1.setMem n true) := .op hmem (.put .refl rfl) rfl
  refine ⟨_, hexec, (hmem.get rfl).trans hen, ?_, ?_, hframe.regsBut rfl, hframe.sameMemory rfl⟩
  · exact (State.memOn_setMem_on hs1 hidle1.held hn n).trans (by simp)
  · change { (s1.setMem n true).lmc with nomadWait := true } = _
    rw [hframe.part .lmc rfl]

/-- Nothing is wanted: the nomad domain may go off, and the wait for it ends. -/
theorem State.nomadRest_lmc (s : State) : s.nomadRest.lmc = s.lmc ∨ s.nomadRest.lmc = { s.lmc with nomadWait := false } := by
  unfold State.nomadRest
  split
  · split
    · next n _ =>
      refine .inr ?_
      change { (s.setMem n false).lmc with nomadWait := false } = _
      rw [(s.setMem_frame n false).part .lmc rfl]
    · exact .inl rfl
  · exact .inl rfl

/-- BG_EN = 0 during MIGRATE of a bank whose tiles are sound abandons it (R85). -/
theorem bgEnWrite_off {who : Initiator} {v : Word} {s : State} {c : Nat} (hs : s.Wf) (hw : s.writable A.LMC_CTRL)
    (hrot : s.lmc.rotate = none) (hv : v.getLsbD 0 = false) (hphase : s.get F.LMC_STATUS_BG_PHASE = 1)
    (hbank : s.get F.LMC_STATUS_MIGRATE_BANK = c) (hseal : s.lmc.sealing = none) (hsound : ∀ i ∈ bankTiles c, s.tileSound i) :
    Completes (.bgEnWrite who v) s fun t =>
      t.get F.LMC_CTRL_BG_EN = 0 ∧ t.get F.LMC_STATUS_BG_PHASE = 0 ∧ t.get F.LMC_STATUS_MIGRATE_BANK = 31 ∧
      (∀ b, b < 16 → t.physOf b = s.physOf b) ∧ t.lmc.dir = s.lmc.dir ∧ t.flt = s.flt ∧
      RegsBut [A.LMC_CTRL, A.LMC_STATUS, A.PWR_DOM] s t ∧ SameMemory s t := by
  have hbit : wordGet v 0 0 = 0 := wordGet_bit_one hv
  let s1 := s.put F.LMC_CTRL_BG_EN (wordGet v 0 0)
  have hs1 : s1.Wf := State.put_wf hs
  have hen : s1.get F.LMC_CTRL_BG_EN = 0 := by
    rw [State.get_put_self hs (by decide), hbit]
    rfl
  have hcopy : s1.tick.migrateCopy ((bankTiles c).take (Config.tilesCopied s1.freeCount)) = s1.tick :=
    State.migrateCopy_of_sound hseal fun t ht => hsound t (List.mem_of_mem_take ht)
  let s2 := (s1.tick.put F.LMC_STATUS_BG_PHASE 0).put F.LMC_STATUS_MIGRATE_BANK 31
  have hstep : s.bgEnWrite v = s2.nomadRest := by
    change (if s1.lmc.rotate.isSome then _ else if wordGet v 0 0 = 1 then _ else s1.migrateAbandon) = _
    have hnone : s1.lmc.rotate.isSome = false := by rw [show s1.lmc.rotate = none from hrot]; rfl
    rw [hnone, hbit, if_neg (by decide), if_neg (by decide)]
    unfold State.migrateAbandon
    rw [State.get_put_addr (by decide), hphase, State.get_put_addr (by decide), hbank, if_pos rfl]
    dsimp only
    rw [hcopy]
  have hexec := execBgEnWrite_open (who := who) (v := v) hw
  rw [hstep] at hexec
  have htick : s1.tick.Wf := hs1
  have hrest := s2.nomadRest_frame
  have h2 : Frame [.reg A.LMC_CTRL, .reg A.LMC_STATUS] [.freeCount] s s2 :=
    .put (.put (.upd (.put .refl rfl) rfl id) rfl) rfl
  have hall : Frame [.reg A.LMC_CTRL, .reg A.LMC_STATUS, .reg A.PWR_DOM] [.freeCount, .lmc] s s2.nomadRest :=
    .op hrest (.mono h2 rfl) rfl
  refine ⟨_, hexec, ?_, ?_, ?_, fun b hb => hall.physOf_eq rfl hb, ?_, hall.part .flt rfl, hall.regsBut rfl, hall.sameMemory rfl⟩
  · refine (hrest.get (f := F.LMC_CTRL_BG_EN) rfl).trans ?_
    rw [State.get_put_addr (by decide), State.get_put_addr (by decide)]
    exact hen
  · refine (hrest.get (f := F.LMC_STATUS_BG_PHASE) rfl).trans ?_
    rw [State.get_put_ne (State.put_wf htick) (by decide) (by decide), State.get_put_self htick (by decide)]
    rfl
  · refine (hrest.get (f := F.LMC_STATUS_MIGRATE_BANK) rfl).trans ?_
    rw [State.get_put_self (State.put_wf htick) (by decide)]
    rfl
  · change s2.nomadRest.lmc.dir = _
    rcases s2.nomadRest_lmc with h | h <;> rw [h] <;> rfl

/-- The nomad domain is ready: MIGRATE begins (R85). -/
theorem nomadDomainReady_starts {s : State} {n b : Nat} (hs : s.Wf) (hrun : s.coreRun = true) (hwait : s.lmc.nomadWait = true)
    (hidle : s.RotationIdle n) (hen : s.get F.LMC_CTRL_BG_EN = 1) (hon : s.memOn n = true) (hb : b < 16)
    (hbank : s.rotationBank = some b) :
    Completes .nomadDomainReady s fun t =>
      t.get F.LMC_STATUS_BG_PHASE = 1 ∧ t.get F.LMC_STATUS_MIGRATE_BANK = b ∧
      OnlyRegs [A.LMC_STATUS] s { t with lmc := { t.lmc with nomadWait := true } } := by
  let s1 : State := { s with lmc := { s.lmc with nomadWait := false } }
  have hidle1 : s1.RotationIdle n := ⟨hidle.phase, hidle.post, hidle.awake, hidle.held, hidle.nomad, hidle.rotate⟩
  have hexec : exec .nomadDomainReady s = .next ((s1.put F.LMC_STATUS_BG_PHASE 1).put F.LMC_STATUS_MIGRATE_BANK b) := by
    have hgo : s1.rotationGo = s1.migrateStart b := by
      rw [hidle1.go hen, show s1.memOn n = true from hon, show s1.rotationBank = some b from hbank]
      rfl
    have hstart : s1.migrateStart b = (s1.put F.LMC_STATUS_BG_PHASE 1).put F.LMC_STATUS_MIGRATE_BANK b := by
      unfold State.migrateStart
      rw [show s1.lmc.rotate = none from hidle.rotate]
      rfl
    change Host.Outcome.next (if s.coreRun && s.lmc.nomadWait then s1.rotationGo else s) = _
    rw [hrun, hwait, hgo, hstart]
    rfl
  have hs1 : s1.Wf := hs
  refine ⟨_, hexec, ?_, ?_, ?_⟩
  · rw [State.get_put_ne (State.put_wf hs1) (by decide) (by decide), State.get_put_self hs1 (by decide)]
    rfl
  · rw [State.get_put_self (State.put_wf hs1) (by decide)]
    exact Nat.mod_eq_of_lt (Nat.lt_of_lt_of_le hb (by decide))
  · have hlmc : { s.lmc with nomadWait := true } = s.lmc := by rw [← hwait]
    have hput : OnlyRegs [A.LMC_STATUS] s ((s.put F.LMC_STATUS_BG_PHASE 1).put F.LMC_STATUS_MIGRATE_BANK b) :=
      .put (.put (.refl _ s) (by decide) _) (by decide) _
    have hback : ((s.put F.LMC_STATUS_BG_PHASE 1).put F.LMC_STATUS_MIGRATE_BANK b).setLmc { s.lmc with nomadWait := true } =
        (s.put F.LMC_STATUS_BG_PHASE 1).put F.LMC_STATUS_MIGRATE_BANK b := by
      rw [hlmc]
      rfl
    rw [← hback] at hput
    exact hput


/-! ### SWAP -/

/-- Two logical banks stand in different fields of the map. -/
theorem bankMapField_apart {b c : Nat} (hb : b < 16) (hc : c < 16) (hne : c ≠ b) :
    (bankMapField c).addr ≠ (bankMapField b).addr ∨ (bankMapField c).hi < (bankMapField b).lo ∨
      (bankMapField b).hi < (bankMapField c).lo := by
  have hall : ∀ b c : Fin 16, c.val ≠ b.val → (bankMapField c).addr ≠ (bankMapField b).addr ∨
      (bankMapField c).hi < (bankMapField b).lo ∨ (bankMapField b).hi < (bankMapField c).lo := by decide
  exact hall ⟨b, hb⟩ ⟨c, hc⟩ hne

theorem bankMapField_width (b : Nat) : ((bankMapField b).hi < 32 ∧ (bankMapField b).lo ≤ (bankMapField b).hi) ∧
    (bankMapField b).hi + 1 - (bankMapField b).lo = 5 := by
  unfold bankMapField
  split <;> exact ⟨⟨Nat.le_of_ble_eq_true rfl, Nat.le_of_ble_eq_true rfl⟩, rfl⟩

theorem bankMapField_ne {b : Nat} (hb : b < 16) {g : Field} (hg : g.addr ∉ bankRegs) : g.addr ≠ (bankMapField b).addr :=
  fun he => hg (he ▸ bankMapField_mem hb)

/-- What SWAP leaves of LMC. -/
theorem State.swapBank_lmc (s : State) (b n : Nat) : (s.swapBank b n).lmc.bgOps = marchSsOps ∧
    (s.swapBank b n).lmc.nextBank = (b + 1) % 16 ∧ (s.swapBank b n).lmem = s.lmem ∧ (s.swapBank b n).nvm = s.nvm :=
  ⟨rfl, rfl, rfl, rfl⟩

/-- The registers after SWAP (R85). -/
theorem State.swapBank_effect {s : State} (hs : s.Wf) {b n : Nat} (hb : b < 16) (hn : n < 17) :
    (s.swapBank b n).physOf b = n ∧ (s.swapBank b n).get F.LMC_NOMAD_PHYS = s.physOf b ∧
      (s.swapBank b n).get F.LMC_STATUS_TEST_PHYS = s.physOf b ∧ (∀ c, c < 16 → c ≠ b → (s.swapBank b n).physOf c = s.physOf c) ∧
      (s.swapBank b n).get F.LMC_STATUS_BG_PHASE = 2 := by
  obtain ⟨hok, hwidth⟩ := bankMapField_width b
  have hp32 : s.physOf b < 2 ^ 5 := hwidth ▸ s.get_lt (bankMapField b)
  let s1 := s.put (bankMapField b) n
  have h1 : s1.Wf := State.put_wf hs
  let s2 := s1.put F.LMC_NOMAD_PHYS (s.physOf b)
  have h2 : s2.Wf := State.put_wf h1
  let s3 := s2.put F.LMC_STATUS_BG_PHASE 2
  have h3 : s3.Wf := State.put_wf h2
  let s4 := s3.put F.LMC_STATUS_MIGRATE_BANK 31
  have h4 : s4.Wf := State.put_wf h3
  let s5 := s4.put F.LMC_STATUS_TEST_PHYS (s.physOf b)
  have hget (g : Field) : (s.swapBank b n).get g = s5.get g := rfl
  have hlater : Frame [.reg A.LMC_NOMAD, .reg A.LMC_STATUS] [] s1 s5 := .put (.put (.put (.put .refl rfl) rfl) rfl) rfl
  have hmap (c : Nat) (hc : c < 16) : (s.swapBank b n).physOf c = s1.physOf c := hlater.physOf_eq rfl hc
  refine ⟨?_, ?_, ?_, fun c hc hne => ?_, ?_⟩
  · rw [hmap b hb, State.physOf, State.get_put_self hs hok, hwidth]
    exact Nat.mod_eq_of_lt (by omega)
  · rw [hget, State.get_put_addr (by decide), State.get_put_addr (by decide), State.get_put_addr (by decide),
      State.get_put_self h1 (by decide)]
    exact Nat.mod_eq_of_lt hp32
  · rw [hget, State.get_put_self h4 (by decide)]
    exact Nat.mod_eq_of_lt hp32
  · rw [hmap c hc]
    exact State.get_put_ne hs hok (bankMapField_apart hb hc hne)
  · rw [hget, State.get_put_ne h4 (by decide) (by decide), State.get_put_ne h3 (by decide) (by decide), State.get_put_self h2 (by decide)]
    rfl

theorem State.swapBank_rotate {s : State} (b n : Nat) (h : s.lmc.rotate = none) : (s.swapBank b n).lmc.rotate = none := by
  unfold State.swapBank
  dsimp only
  change s.lmc.rotate.map _ = none
  rw [h]
  rfl

theorem execMigrateDone_background {s : State} {n b : Nat} (hrun : s.coreRun = true) (hphase : s.get F.LMC_STATUS_BG_PHASE = 1)
    (hnomad : s.nomad = some n) (hbank : s.get F.LMC_STATUS_MIGRATE_BANK = b) (hrot : (s.migrateCopy (bankTiles b)).lmc.rotate = none) :
    exec .migrateDone s = .next ((s.migrateCopy (bankTiles b)).swapBank b n) := by
  change execMigrateDone s = _
  unfold execMigrateDone
  rw [hrun, hphase, if_pos (by decide), hnomad, hbank]
  dsimp only
  rw [State.swapBank_rotate b n hrot, if_neg (by decide)]

/-- MIGRATE_DONE outside a ROTATE job is the copy and SWAP (R85). -/
theorem migrateDone_swaps {s : State} {n b : Nat} (hs : s.Wf) (hrun : s.coreRun = true) (hphase : s.get F.LMC_STATUS_BG_PHASE = 1)
    (hrot : s.lmc.rotate = none) (hnomad : s.get F.LMC_NOMAD_PHYS = n) (hn : n < 17) (hbank : s.get F.LMC_STATUS_MIGRATE_BANK = b)
    (hb : b < 16) :
    Completes .migrateDone s fun t =>
      t.physOf b = n ∧ t.get F.LMC_NOMAD_PHYS = s.physOf b ∧ t.get F.LMC_STATUS_TEST_PHYS = s.physOf b ∧
      (∀ c, c < 16 → c ≠ b → t.physOf c = s.physOf c) ∧ t.get F.LMC_STATUS_BG_PHASE = 2 ∧
      t.lmc.bgOps = 4325376 ∧ t.lmc.nextBank = (b + 1) % 16 ∧ t.lmem = s.lmem ∧ t.nvm = s.nvm := by
  have hu := s.migrateCopy_regs (bankTiles b)
  have hexec := execMigrateDone_background hrun hphase (State.nomad_of_get hnomad hn) hbank
    ((s.migrateCopy_rotation (bankTiles b)).rotate_eq.trans hrot)
  generalize s.migrateCopy (bankTiles b) = u at hu hexec
  obtain ⟨hphys, hnom, htest, hother, hph⟩ := State.swapBank_effect (hu.wf hs) hb hn
  obtain ⟨hops, hnext, hlmem, hnvm⟩ := u.swapBank_lmc b n
  have hmap (c : Nat) (hc : c < 16) : u.physOf c = s.physOf c := hu.physOf_eq rfl hc
  exact ⟨_, hexec, hphys, hnom.trans (hmap b hb), htest.trans (hmap b hb), fun c hc hne => (hother c hc hne).trans (hmap c hc), hph,
    hops, hnext, hlmem.trans (hu.part .lmem rfl), hnvm.trans (hu.part .nvm rfl)⟩

/-! ### A bank goes off (R86) -/

/-- Bit `c` of the mask of the banks that have a physical bank. -/
theorem State.bankEnMask_testBit (s : State) {c : Nat} (hc : c < 16) : s.bankEnMask.testBit c = decide (s.physOf c < 17) := by
  have hfold : ∀ n, (∀ i, n ≤ i → ((List.range n).foldl (fun m b => if s.physOf b < 17 then m + 2 ^ b else m) 0).testBit i = false) ∧
      ∀ i, i < n → ((List.range n).foldl (fun m b => if s.physOf b < 17 then m + 2 ^ b else m) 0).testBit i =
        decide (s.physOf i < 17) := by
    intro n
    induction n with
    | zero => exact ⟨fun i _ => by simp, fun i hi => absurd hi (by omega)⟩
    | succ n ih =>
      obtain ⟨hhigh, hlow⟩ := ih
      rw [List.range_succ, List.foldl_append, List.foldl_cons, List.foldl_nil]
      generalize (List.range n).foldl (fun m b => if s.physOf b < 17 then m + 2 ^ b else m) 0 = m at hhigh hlow
      by_cases hp : s.physOf n < 17
      · rw [if_pos hp]
        refine ⟨fun i hi => ?_, fun i hi => ?_⟩
        · rw [testBit_add_two_pow (hhigh n le_rfl), hhigh i (by omega)]
          simp [show i ≠ n by omega]
        · rw [testBit_add_two_pow (hhigh n le_rfl)]
          rcases Nat.lt_or_eq_of_le (Nat.le_of_lt_succ hi) with h | rfl
          · rw [hlow i h]
            simp [Nat.ne_of_lt h]
          · simp [hp]
      · rw [if_neg hp]
        refine ⟨fun i hi => hhigh i (by omega), fun i hi => ?_⟩
        rcases Nat.lt_or_eq_of_le (Nat.le_of_lt_succ hi) with h | rfl
        · exact hlow i h
        · rw [hhigh i le_rfl]
          simp [hp]
  exact (hfold 16).2 c hc

/-- A bank goes off outside MIGRATE: its domain goes off, and its tiles are lost. -/
def State.bankOff (s : State) (b : Nat) : State := (s.setMem (s.physOf b) false).bankLost b

theorem State.bankPower_off {s : State} {b : Nat} (hp : s.physOf b < 17) (hphase : s.get F.LMC_STATUS_BG_PHASE = 0)
    (hrot : s.lmc.rotate = none) : s.bankPower b false = s.bankOff b := by
  have hnone : (s.bankOff b).lmc.rotate = none := by
    unfold State.bankOff State.bankLost
    dsimp only
    split
    · unfold State.sealLost
      split <;> exact hrot
    · exact hrot
  unfold State.bankPower
  rw [if_neg (by omega), if_neg (by decide), hphase, if_neg (by simp)]
  change (s.bankOff b).setLmc { (s.bankOff b).lmc with rotate := (s.bankOff b).lmc.rotate.map _ } = _
  rw [hnone]
  generalize s.bankOff b = t at hnone
  have hself : { t.lmc with rotate := none } = t.lmc := by rw [← hnone]
  exact (congrArg t.setLmc hself).trans t.setLmc_self

theorem State.bankLost_frame (s : State) (b : Nat) : Frame [.reg A.LMC_SEAL_STATUS] [.lmc, .lmem] s (s.bankLost b) := by
  have hseal : Frame [.reg A.LMC_SEAL_STATUS] [.lmc] s (if s.sealIn b then s.sealLost 2 else s) := by
    refine .ite ?_ .refl
    unfold State.sealLost
    split
    · exact .refl
    · exact .lmc (.put (.put (.put .refl rfl) rfl) rfl) rfl
  have hall : Frame [.reg A.LMC_SEAL_STATUS] [.lmc, .lmem] s (if s.sealIn b then s.sealLost 2 else s) := .mono hseal rfl
  exact hall.upd rfl fun hw => ⟨hw.1, hw.2.1, sparseWf_clear _ _ hw.2.2.1, hw.2.2.2⟩


/-- The content of a bank that is lost: every tile EMPTY, every byte 0 (R72, R86). -/
theorem State.bankLost_content (s : State) (b : Nat) :
    (∀ i, 768 * b ≤ i → i < 768 * b + 768 → (s.bankLost b).dirEntry i = {}) ∧
    (∀ i, ¬ (768 * b ≤ i ∧ i < 768 * b + 768) → (s.bankLost b).dirEntry i = s.dirEntry i) ∧
    (∀ a, tileAddr (768 * b) ≤ a → a < tileAddr (768 * b) + 768 * 4096 → (s.bankLost b).lmByte a = 0) ∧
    ∀ a, ¬ (tileAddr (768 * b) ≤ a ∧ a < tileAddr (768 * b) + 768 * 4096) → (s.bankLost b).lmByte a = s.lmByte a := by
  have hkept : (if s.sealIn b then s.sealLost 2 else s).lmc.dir = s.lmc.dir ∧ (if s.sealIn b then s.sealLost 2 else s).lmem = s.lmem := by
    split
    · unfold State.sealLost
      split <;> exact ⟨rfl, rfl⟩
    · exact ⟨rfl, rfl⟩
  obtain ⟨hdir, hmem⟩ := hkept
  have hd : (s.bankLost b).lmc.dir = sparseClear s.lmc.dir (768 * b) 768 := by rw [← hdir]; rfl
  have hm : (s.bankLost b).lmem = sparseClear s.lmem (tileAddr (768 * b)) (768 * 4096) := by rw [← hmem]; rfl
  unfold State.dirEntry State.lmByte
  rw [hd, hm]
  exact ⟨fun i h1 h2 => sparseGet_clear_in h1 h2 _, fun i h => sparseGet_clear_out (by omega) _, fun a h1 h2 => sparseGet_clear_in h1 h2 _,
    fun a h => sparseGet_clear_out (by omega) _⟩

theorem State.bankOff_frame (s : State) (b : Nat) : Frame [.reg A.PWR_DOM, .reg A.LMC_SEAL_STATUS] [.lmc, .lmem] s (s.bankOff b) :=
  .op (State.bankLost_frame _ b) (.mono (s.setMem_frame _ _) rfl) rfl

/-- After a bank has gone off it is off, and a bank on another physical bank is as it was. -/
theorem State.bankOff_on {s : State} (hs : s.Wf) {b : Nat} (hb : b < 16) :
    (s.bankOff b).bankOn b = false ∧ ∀ c, c < 16 → s.physOf c ≠ s.physOf b → (s.bankOff b).bankOn c = s.bankOn c := by
  have hmem : ∀ q, (s.bankOff b).memOn q = (decide (q ≠ s.physOf b) && s.memOn q) := by
    intro q
    rw [← State.memOn_setMem_off hs]
    exact congrArg (bitOf · q) ((State.bankLost_frame _ b).get rfl)
  have hmap (c : Nat) (hc : c < 16) : (s.bankOff b).physOf c = s.physOf c := (s.bankOff_frame b).physOf_eq rfl hc
  unfold State.bankOn
  refine ⟨?_, fun c hc hne => ?_⟩
  · rw [hmap b hb, hmem]
    simp
  · rw [hmap c hc, hmem]
    simp [hne]

/-- A loop that acts at one index alone makes that one act. -/
theorem forUpto_single {α : Type} {f : Nat → α → α} {x y : α} {b : Nat} (hact : f b x = y) (hbefore : ∀ k, k < b → f k x = x) :
    ∀ n, (∀ k, b < k → k < n → f k y = y) → forUpto n f x = if b < n then y else x
  | 0, _ => rfl
  | n + 1, hafter => by
    have ih := forUpto_single hact hbefore n fun k hk hn => hafter k hk (Nat.lt_succ_of_lt hn)
    change f n (forUpto n f x) = _
    rw [ih]
    rcases Nat.lt_trichotomy b n with h | rfl | h
    · rw [if_pos h, if_pos (Nat.lt_succ_of_lt h)]
      exact hafter n h (Nat.lt_succ_self n)
    · rw [if_neg (Nat.lt_irrefl b), if_pos (Nat.lt_succ_self b)]
      exact hact
    · rw [if_neg (by omega), if_neg (by omega)]
      exact hbefore n h

/-- An enable word that is as the banks are but for bank `b`, which is on, switches that bank off alone. -/
theorem State.banksPower_one {s : State} (hs : s.Wf) {b en : Nat} (hb : b < 16) (hon : s.bankOn b = true) (hoff : bitOf en b = false)
    (hother : ∀ c, c < 16 → c ≠ b → bitOf en c = s.bankOn c) (hphys : ∀ c, c < 16 → c ≠ b → s.physOf c ≠ s.physOf b)
    (hphase : s.get F.LMC_STATUS_BG_PHASE = 0) (hrot : s.lmc.rotate = none) : s.banksPower en = s.bankOff b := by
  obtain ⟨-, hrest⟩ := State.bankOff_on hs hb
  have hp : s.physOf b < 17 := by
    unfold State.bankOn at hon
    simp only [Bool.and_eq_true, decide_eq_true_eq] at hon
    exact hon.1
  refine (forUpto_single (b := b) (y := s.bankOff b) ?_ (fun k hk => ?_) 16 fun k hk h16 => ?_).trans (if_pos hb)
  · rw [hoff, hon, if_neg (by decide)]
    exact State.bankPower_off hp hphase hrot
  · exact if_pos (hother k (by omega) (by omega))
  · refine if_pos ?_
    rw [hrest k h16 (hphys k h16 (by omega))]
    exact hother k h16 (by omega)

theorem wordGet_half_testBit {v : Word} {i : Nat} (hi : i < 16) : (wordGet v 15 0).testBit i = v.getLsbD i := by
  rw [wordGet_testBit]
  simp [hi]

/-- LMC_BANK_EN with the bit of one bank that is on cleared (R86). -/
theorem bankEnWrite_clears {who : Initiator} {v : Word} {s : State} {b : Nat} (hs : s.Wf) (hw : s.writable A.LMC_BANK_EN)
    (hscan : s.lmc.scan = none) (hb : b < 16) (hon : s.bankOn b = true) (hphase : s.get F.LMC_STATUS_BG_PHASE = 0)
    (hen : s.get F.LMC_CTRL_BG_EN = 0) (hrot : s.lmc.rotate = none) (hbits : ∀ c, c < 16 → c ≠ b → v.getLsbD c = s.bankOn c)
    (hoff : v.getLsbD b = false) (hphys : ∀ c, c < 16 → c ≠ b → s.physOf c ≠ s.physOf b) :
    ∃ s1, Frame [.reg A.LMC_BANK_EN] [] s s1 ∧ exec (.bankEnWrite who v) s = .next (s1.bankOff b).accepted := by
  let en := (wordGet v 15 0) &&& s.bankEnMask
  let s1 := s.put F.LMC_BANK_EN_EN en
  have h1 : Frame [.reg A.LMC_BANK_EN] [] s s1 := .put .refl rfl
  have hbit : ∀ c, c < 16 → bitOf en c = (v.getLsbD c && decide (s.physOf c < 17)) := by
    intro c hc
    rw [bitOf_eq_testBit, Nat.testBit_and, wordGet_half_testBit hc, State.bankEnMask_testBit s hc]
  have honBit : ∀ c, c < 16 → c ≠ b → bitOf en c = s1.bankOn c := by
    intro c hc hne
    rw [hbit c hc, hbits c hc hne, h1.bankOn_eq rfl hc]
    unfold State.bankOn
    cases decide (s.physOf c < 17) <;> simp
  have hmap (c : Nat) (hc : c < 16) : s1.physOf c = s.physOf c := h1.physOf_eq rfl hc
  have hpower : s1.banksPower en = s1.bankOff b := by
    refine State.banksPower_one (h1.wf hs) hb ((h1.bankOn_eq rfl hb).trans hon) ?_ honBit (fun c hc hne => ?_) ((h1.get rfl).trans hphase) hrot
    · rw [hbit b hb, hoff]
      rfl
    · rw [hmap c hc, hmap b hb]
      exact hphys c hc hne
  have h2 := s1.bankOff_frame b
  have hlmc : (s1.bankOff b).lmc.rotate = none ∧ (s1.bankOff b).lmc.scan = none := by
    unfold State.bankOff State.bankLost
    dsimp only
    split
    · unfold State.sealLost
      split <;> exact ⟨hrot, hscan⟩
    · exact ⟨hrot, hscan⟩
  obtain ⟨hrot2, hscan2⟩ := hlmc
  have hen2 : (s1.bankOff b).get F.LMC_CTRL_BG_EN = 0 := ((h2.get rfl).trans (h1.get rfl)).trans hen
  have hcheck : (s1.bankOff b).rotateCheck = s1.bankOff b := by
    unfold State.rotateCheck
    rw [hrot2]
    simp
  have hlast : (s1.bankOff b).scanBankLost = s1.bankOff b := by
    unfold State.scanBankLost
    rw [hscan2]
  have hstep : s.bankEnWrite v = s1.bankOff b := by
    change (((s1.banksPower en).rotateCheck).rotationGo).scanBankLost = _
    rw [hpower, hcheck, State.rotationGo_unwanted hrot2 hen2, hlast]
  refine ⟨s1, h1, ?_⟩
  rw [← hstep]
  exact congrArg Host.Outcome.next (State.portWrite_open hw)

/-- Settles O14: the rotation from its writes, its waiting domain and its last tile, and one bank going off. -/
theorem banksRotateAndGoOff : Obligations.BanksRotateAndGoOff := by
  refine ⟨?_, ?_, fun s n b hs hrun hphase hrot hnomad hn hbank hb => migrateDone_swaps hs hrun hphase hrot hnomad hn hbank hb, ?_⟩
  · intro who v s n hs hw hrot
    refine ⟨fun hv hphase hpost hawake hheld hnomad hn hoff => ?_, fun c hv hphase hbank hc hseal hhit hcrc => ?_⟩
    · exact bgEnWrite_on hs hw hv ⟨hphase, hpost, hawake, hheld, State.nomad_of_get hnomad hn, hrot⟩ hn hoff
    · refine bgEnWrite_off hs hw hrot hv hphase hbank hseal fun i hi => ?_
      obtain ⟨k, hk, rfl⟩ := List.mem_map.1 hi
      rw [List.mem_range] at hk
      refine ⟨?_, fun hst => (s.tileCrc_eq _).trans (hcrc (768 * c + k) (by omega) (by omega) hst)⟩
      unfold State.dirLatent
      rw [hhit]
      rfl
  · intro s n b hs hrun hwait hrot hphase hpost hawake hheld hen hnomad hn hmem hb hon hfirst
    exact nomadDomainReady_starts hs hrun hwait ⟨hphase, hpost, hawake, hheld, State.nomad_of_get hnomad hn, hrot⟩ hen hmem hb
      (State.rotationBank_next hrot hb hon hfirst)
  · intro who v s b hs hw hscan hb hon hphase hen hrot hbits hoff hphys
    obtain ⟨s1, h1, hexec⟩ := bankEnWrite_clears (who := who) hs hw hscan hb hon hphase hen hrot hbits hoff hphys
    obtain ⟨hbank, hrest⟩ := State.bankOff_on (h1.wf hs) hb
    obtain ⟨hempty, hdir, hzero, hmem⟩ := (s1.setMem (s1.physOf b) false).bankLost_content b
    have hmap (c : Nat) (hc : c < 16) : s1.physOf c = s.physOf c := h1.physOf_eq rfl hc
    have hdom := s1.setMem_frame (s1.physOf b) false
    have hall : Frame [.reg A.LMC_BANK_EN, .reg A.PWR_DOM, .reg A.LMC_SEAL_STATUS] [.lmc, .lmem] s (s1.bankOff b) :=
      .op (s1.bankOff_frame b) (.mono h1 rfl) rfl
    have hsameDir : (s1.setMem (s1.physOf b) false).lmc = s.lmc := Eq.trans (hdom.part .lmc rfl) (h1.part .lmc rfl)
    have hsameMem : (s1.setMem (s1.physOf b) false).lmem = s.lmem := Eq.trans (hdom.part .lmem rfl) (h1.part .lmem rfl)
    have hbase : tileAddr (768 * b) = 0x01000000 + 0x300000 * b := by
      simp only [tileAddr, layerBase]
      omega
    rw [hbase] at hzero hmem
    refine ⟨_, hexec, hbank, fun c hc hne => ?_, fun i hi => hempty i hi.1 hi.2, fun i hi => ?_, fun a ha => ?_, fun a ha => ?_,
      hall.part .nvm rfl, hall.regsBut rfl⟩
    · refine (hrest c hc ?_).trans (h1.bankOn_eq rfl hc)
      rw [hmap c hc, hmap b hb]
      exact hphys c hc hne
    · refine (hdir i hi).trans ?_
      unfold State.dirEntry
      rw [hsameDir]
    · exact hzero a ha.1 (by omega)
    · refine (hmem a fun h => ha ⟨h.1, by omega⟩).trans ?_
      unfold State.lmByte
      rw [hsameMem]

end Sys2Proof.Machine
end

section
/-!
The job slots (R438): their four registers, a slot that ends, and the job of a type that passes its commit point and ends.
-/

namespace Sys2Proof.Machine

/-! ### The registers of the slots -/

abbrev jobRegs : List Nat := [A.PWR_JOBn_STATUS 0, A.PWR_JOBn_STATUS 1, A.PWR_JOBn_STATUS 2, A.PWR_JOBn_STATUS 3]

theorem jobReg_mem {n : Nat} (hn : n < 4) : A.PWR_JOBn_STATUS n ∈ jobRegs := by
  interval_cases n <;> decide

theorem jobReg_inj {m n : Nat} (h : m ≠ n) : A.PWR_JOBn_STATUS m ≠ A.PWR_JOBn_STATUS n := by
  simp only [A.PWR_JOBn_STATUS]
  omega

theorem jobReg_irq {n : Nat} : A.PWR_JOBn_STATUS n ≠ A.GLB_IRQ_STATUS ∧ A.PWR_JOBn_STATUS n ≠ A.GLB_IRQ_RAW := by
  simp only [A.PWR_JOBn_STATUS, A.GLB_IRQ_STATUS, A.GLB_IRQ_RAW]
  omega

theorem jobState_ok (n : Nat) : (F.PWR_JOBn_STATUS_STATE n).hi < 32 ∧ (F.PWR_JOBn_STATUS_STATE n).lo ≤ (F.PWR_JOBn_STATUS_STATE n).hi :=
  ⟨Nat.le_of_ble_eq_true rfl, Nat.le_of_ble_eq_true rfl⟩

theorem jobType_ok (n : Nat) : (F.PWR_JOBn_STATUS_TYPE n).hi < 32 ∧ (F.PWR_JOBn_STATUS_TYPE n).lo ≤ (F.PWR_JOBn_STATUS_TYPE n).hi :=
  ⟨Nat.le_of_ble_eq_true rfl, Nat.le_of_ble_eq_true rfl⟩

theorem jobReason_ok (n : Nat) :
    (F.PWR_JOBn_STATUS_REASON n).hi < 32 ∧ (F.PWR_JOBn_STATUS_REASON n).lo ≤ (F.PWR_JOBn_STATUS_REASON n).hi :=
  ⟨Nat.le_of_ble_eq_true rfl, Nat.le_of_ble_eq_true rfl⟩

theorem jobCommitted_ok (n : Nat) :
    (F.PWR_JOBn_STATUS_COMMITTED n).hi < 32 ∧ (F.PWR_JOBn_STATUS_COMMITTED n).lo ≤ (F.PWR_JOBn_STATUS_COMMITTED n).hi :=
  ⟨Nat.le_of_ble_eq_true rfl, Nat.le_of_ble_eq_true rfl⟩

/-! ### States with the same slots -/

/-- Every job slot shows in `t` what it shows in `s`. -/
def SameSlots (s t : State) : Prop := ∀ n, n < 4 → t.reg (A.PWR_JOBn_STATUS n) = s.reg (A.PWR_JOBn_STATUS n)

namespace SameSlots

variable {s t u : State}

theorem refl : SameSlots s s := fun _ _ => rfl

theorem trans (h : SameSlots s t) (h' : SameSlots t u) : SameSlots s u := fun n hn => (h' n hn).trans (h n hn)

theorem get (h : SameSlots s t) {n : Nat} (hn : n < 4) {f : Field} (hf : f.addr = A.PWR_JOBn_STATUS n) : t.get f = s.get f := by
  unfold State.get
  rw [hf, h n hn]

theorem jobState (h : SameSlots s t) {n : Nat} (hn : n < 4) : t.jobState n = s.jobState n := h.get hn rfl

theorem jobType (h : SameSlots s t) {n : Nat} (hn : n < 4) : t.jobType n = s.jobType n := h.get hn rfl

theorem jobActive (h : SameSlots s t) {n : Nat} (hn : n < 4) : t.jobActive n = s.jobActive n := by
  unfold State.jobActive
  rw [h.jobState hn]

end SameSlots

theorem Frame.sameSlots {L : List Span} {ps : List Part} {s t : State} (h : Frame L ps s t) (hd : jobRegs.any (covers L) = false) :
    SameSlots s t := by
  intro n hn
  rw [List.any_eq_false] at hd
  exact h.reg _ (Bool.eq_false_iff.2 (hd _ (jobReg_mem hn)))

/-- The slot of a type depends on the states and types of the slots alone. -/
theorem State.findJob_congr {s t : State} (h : ∀ n, n < 4 → t.jobState n = s.jobState n ∧ t.jobType n = s.jobType n) (ty : Nat) :
    t.findJob ty = s.findJob ty := by
  refine List.find?_congr fun n hn => ?_
  obtain ⟨hst, hty⟩ := h n (List.mem_range.1 hn)
  unfold State.jobActive
  rw [hst, hty]

theorem State.findRunning_congr {s t : State} (h : ∀ n, n < 4 → t.jobState n = s.jobState n ∧ t.jobType n = s.jobType n) (ty : Nat) :
    t.findRunning ty = s.findRunning ty := by
  refine List.find?_congr fun n hn => ?_
  obtain ⟨hst, hty⟩ := h n (List.mem_range.1 hn)
  rw [hst, hty]

theorem SameSlots.findJob {s t : State} (h : SameSlots s t) (ty : Nat) : t.findJob ty = s.findJob ty :=
  State.findJob_congr (fun _ hn => ⟨h.jobState hn, h.jobType hn⟩) ty

theorem SameSlots.findRunning {s t : State} (h : SameSlots s t) (ty : Nat) : t.findRunning ty = s.findRunning ty :=
  State.findRunning_congr (fun _ hn => ⟨h.jobState hn, h.jobType hn⟩) ty

theorem State.findJob_found {s : State} {ty n : Nat} (h : s.findJob ty = some n) :
    n < 4 ∧ s.jobActive n = true ∧ s.jobType n = ty := by
  have hp := List.find?_some h
  simp only [Bool.and_eq_true, beq_iff_eq] at hp
  exact ⟨State.findJob_lt h, hp.1, hp.2⟩

theorem State.findJob_none {s : State} {ty : Nat} (h : ∀ n, n < 4 → s.jobActive n = true → s.jobType n ≠ ty) : s.findJob ty = none := by
  refine List.find?_eq_none.2 fun n hn => ?_
  simp only [Bool.and_eq_true, beq_iff_eq, not_and]
  exact h n (List.mem_range.1 hn)

/-! ### A slot ends (R438) -/

theorem State.reg_irq {s : State} {n a : Nat} (h1 : a ≠ A.GLB_IRQ_STATUS) (h2 : a ≠ A.GLB_IRQ_RAW) : (s.irq n).reg a = s.reg a := by
  unfold State.irq
  dsimp only
  rw [State.reg_setReg_ne h2, State.reg_setReg_ne h1]
  split <;> rfl

/-- The registers that the end of slot `n` touches. -/
abbrev endSpans (n : Nat) : List Span := [.reg (A.PWR_JOBn_STATUS n), .reg A.GLB_IRQ_STATUS, .reg A.GLB_IRQ_RAW]

theorem writes_slot {L : List Span} {ps : List Part} {n : Nat} : writes (.reg (A.PWR_JOBn_STATUS n) :: L) ps (A.PWR_JOBn_STATUS n) = true := by
  simp [writes, covers, Span.reg, jobReg_irq.1]

theorem State.jobEnd_frame (s : State) (n st : Nat) : Frame (endSpans n) [.lnk] s (s.jobEnd n st) :=
  .irq (.put .refl writes_slot) (by simp [within, Span.reg])

theorem State.jobCommit_frame (s : State) (n : Nat) : Frame [.reg (A.PWR_JOBn_STATUS n)] [] s (s.jobCommit n) := .put .refl writes_slot

theorem State.jobEnd_wf {s : State} (hs : s.Wf) (n st : Nat) : (s.jobEnd n st).Wf := (s.jobEnd_frame n st).wf hs

theorem State.jobEnd_state {s : State} (hs : s.Wf) (n : Nat) {st : Nat} (hst : st < 8) : (s.jobEnd n st).jobState n = st := by
  refine (State.get_irq jobReg_irq.1 jobReg_irq.2).trans ((State.get_put_self hs (jobState_ok n)).trans ?_)
  exact Nat.mod_eq_of_lt hst

/-- The other fields of the slot are left. -/
theorem State.jobEnd_beside {s : State} (hs : s.Wf) {n : Nat} (st : Nat) {f : Field} (hf : f.addr = A.PWR_JOBn_STATUS n) (hlo : 2 < f.lo) :
    (s.jobEnd n st).get f = s.get f := by
  refine (State.get_irq (hf ▸ jobReg_irq.1) (hf ▸ jobReg_irq.2)).trans (State.get_put_ne hs (jobState_ok n) (.inr (.inr hlo)))

theorem State.jobEnd_reg (s : State) {n st a : Nat} (hn : a ≠ A.PWR_JOBn_STATUS n) (h1 : a ≠ A.GLB_IRQ_STATUS) (h2 : a ≠ A.GLB_IRQ_RAW) :
    (s.jobEnd n st).reg a = s.reg a :=
  (State.reg_irq h1 h2).trans (State.reg_put_ne hn)

theorem State.jobEnd_get (s : State) {n st : Nat} {f : Field} (hn : f.addr ≠ A.PWR_JOBn_STATUS n) (h1 : f.addr ≠ A.GLB_IRQ_STATUS)
    (h2 : f.addr ≠ A.GLB_IRQ_RAW) : (s.jobEnd n st).get f = s.get f := by
  unfold State.get
  rw [State.jobEnd_reg s hn h1 h2]

theorem State.jobEnd_event {s : State} (hs : s.Wf) (n st : Nat) : ((s.jobEnd n st).reg A.GLB_IRQ_STATUS).getLsbD 19 = true :=
  Frame.irq_event (State.put_wf hs) (by decide)

/-- The end of slot `n` leaves the others. -/
theorem State.jobEnd_other (s : State) {n m : Nat} (st : Nat) (hne : m ≠ n) {f : Field} (hf : f.addr = A.PWR_JOBn_STATUS m) :
    (s.jobEnd n st).get f = s.get f :=
  s.jobEnd_get (hf ▸ jobReg_inj hne) (hf ▸ jobReg_irq.1) (hf ▸ jobReg_irq.2)

/-! ### The job of a type commits and ends -/

section
variable {s : State} {ty k : Nat}

theorem State.jobCommit_same (hs : s.Wf) (k : Nat) {n : Nat} (_hn : n < 4) :
    (s.jobCommit k).jobState n = s.jobState n ∧ (s.jobCommit k).jobType n = s.jobType n := by
  have hput (f : Field) (hf : f.addr = A.PWR_JOBn_STATUS n) (hhi : f.hi < 15) : (s.jobCommit k).get f = s.get f :=
    State.get_put_ne hs (jobCommitted_ok k) (.inr (.inl hhi))
  exact ⟨hput _ rfl (Nat.le_of_ble_eq_true rfl), hput _ rfl (Nat.le_of_ble_eq_true rfl)⟩

/-- The job of the type is committed, then ends in state `st`. -/
theorem State.jobOver_eq (hs : s.Wf) (hk : s.findJob ty = some k) (st : Nat) :
    (s.jobCommitOf ty).jobEndOf ty st = (s.jobCommit k).jobEnd k st := by
  have hcommit : s.jobCommitOf ty = s.jobCommit k := by
    unfold State.jobCommitOf
    rw [hk]
  have hfind : (s.jobCommit k).findJob ty = some k := (State.findJob_congr (fun _ hn => State.jobCommit_same hs k hn) ty).trans hk
  unfold State.jobEndOf
  rw [hcommit, hfind]

theorem State.jobEndOf_eq (hk : s.findJob ty = some k) (st : Nat) : s.jobEndOf ty st = s.jobEnd k st := by
  unfold State.jobEndOf
  rw [hk]

theorem State.jobCommitOf_eq (hk : s.findJob ty = some k) : s.jobCommitOf ty = s.jobCommit k := by
  unfold State.jobCommitOf
  rw [hk]

/-- A job that commits and ends: its slot, the event, and nothing else but a request for a message. -/
theorem State.jobOver_effect (hs : s.Wf) (k : Nat) {st : Nat} (hst : st < 8) :
    Frame (endSpans k) [.lnk] s ((s.jobCommit k).jobEnd k st) ∧ ((s.jobCommit k).jobEnd k st).jobState k = st ∧
      ((s.jobCommit k).jobEnd k st).get (F.PWR_JOBn_STATUS_COMMITTED k) = 1 ∧
      (((s.jobCommit k).jobEnd k st).reg A.GLB_IRQ_STATUS).getLsbD 19 = true := by
  have hcommit : Frame (endSpans k) [.lnk] s (s.jobCommit k) := .put .refl writes_slot
  have hwf := hcommit.wf hs
  refine ⟨hcommit.trans (State.jobEnd_frame _ k st), State.jobEnd_state hwf k hst, ?_, State.jobEnd_event hwf k st⟩
  refine (State.jobEnd_beside hwf st rfl (Nat.le_of_ble_eq_true rfl)).trans ?_
  exact State.get_put_self hs (jobCommitted_ok k)

/-- A register is covered by the span of another only if they are the same. -/
theorem covers_reg_cons {b a : Nat} {L : List Span} (hne : a ≠ b) : covers (.reg b :: L) a = covers L a := by
  have hout : (Nat.ble b a && (Nat.beq (b + 1) 0 || Nat.blt a (b + 1))) = false := by
    rw [Bool.eq_false_iff]
    simp only [ne_eq, Bool.and_eq_true, Bool.or_eq_true, Nat.ble_eq, Nat.beq_eq, Nat.blt_eq]
    omega
  simp only [covers, List.any_cons, Span.reg, hout, Bool.false_or]

/-- The spans that the end of a slot touches lie clear of a register that is none of the slots' or the events'. -/
theorem covers_endSpans {k a : Nat} (hk : k < 4) (ha : a ∉ A.GLB_IRQ_STATUS :: A.GLB_IRQ_RAW :: jobRegs) :
    covers (endSpans k) a = false := by
  have h1 : a ≠ A.PWR_JOBn_STATUS k := by
    rintro rfl
    exact ha (List.mem_cons_of_mem _ (List.mem_cons_of_mem _ (jobReg_mem hk)))
  have h2 : a ≠ A.GLB_IRQ_STATUS := by
    rintro rfl
    exact ha List.mem_cons_self
  have h3 : a ≠ A.GLB_IRQ_RAW := by
    rintro rfl
    exact ha (List.mem_cons_of_mem _ List.mem_cons_self)
  rw [covers_reg_cons h1, covers_reg_cons h2, covers_reg_cons h3]
  rfl

end

end Sys2Proof.Machine
end

section
/-!
Keys, the fuses of the life cycle, and the groups of the self-test (R415-R417, R444, R445).
-/

namespace Sys2Proof.Machine

/-! ### Key words (R415) -/

/-- A key word that is stored replaces the one of its number and no other. -/
theorem find?_replace {α : Type} (n : Nat) (v : α) (l : List (Nat × α)) :
    ((n, v) :: l.filter fun e => e.1 != n).find? (fun e => e.1 == n) = some (n, v) ∧
      ∀ k, k ≠ n → ((n, v) :: l.filter fun e => e.1 != n).find? (fun e => e.1 == k) = l.find? fun e => e.1 == k := by
  refine ⟨by simp, fun k hk => ?_⟩
  rw [List.find?_cons_of_neg (by simpa using Ne.symm hk), List.find?_filter]
  congr 1
  funext e
  by_cases h : e.1 = k <;> simp [h, hk]

theorem execKeyWrite_open {who : Initiator} {n : BitVec 3} {v : Word} {s : State} (hw : s.writable (A.CFG_KEYn n.toNat)) :
    exec (.keyWrite who n v) s = .next (s.keyWrite n.toNat v).accepted := congrArg Host.Outcome.next (State.portWrite_open hw)

/-! ### The fuses (R417) -/

section
variable {s : State} {k : Nat} {w : NvmTask} {ws : List NvmTask} {b : Bool}

/-- A life cycle whose turn it is: the head of the writers, with NVM_OK and no unit in progress. -/
structure State.LcTurn (s : State) (k : Nat) : Prop where
  wf : s.Wf
  recs : SparseWf faultDefault s.flt.recs
  head : ∃ w ws, s.nvmw.tasks = w :: ws ∧ w.owner = Job.lifecycle
  run : s.coreRun = true
  ok : s.flag F.THM_STATUS_NVM_OK = true
  idle : s.nvmw.unit = none
  job : s.findJob Job.lifecycle = some k

/-- From BLANK to FACTORY the keys are programmed first. -/
def State.lcKeys (s : State) : Bool := s.lc == Lc.blank && s.cfg.lcTarget == Lc.factory

/-- The state in which the next fuse is blown: the keys have been programmed where the path asks for them. -/
def State.lcReady (s : State) : State := if s.lcKeys then s.keyProgram else s

/-- A blown fuse. -/
def State.fuseBlown (s : State) : State :=
  { s with cfg := { s.cfg with fuses := max s.cfg.fuses (min (s.cfg.fuses + 1) s.cfg.lcTarget) } }

/-- LIFECYCLE_FUSE_BLOW in its turn: a verify that fails ends the job, and else the next fuse is blown (R417). -/
theorem State.LcTurn.exec_eq (h : s.LcTurn k) :
    exec (.lifecycleFuseBlow b) s = .next (if s.lcKeys && !b then
        ((s.lcReady.nvDrop Job.lifecycle).put F.CFG_LC_REASON LcReason.keys).jobEndOf Job.lifecycle Job.failed
      else if s.lcReady.fuseBlown.cfg.lcTarget ≤ s.lcReady.fuseBlown.cfg.fuses then s.lcReady.fuseBlown.lcCommit
      else s.lcReady.fuseBlown) := by
  obtain ⟨w, ws, htasks, howner⟩ := h.head
  have hturn : (!(w.owner == Job.lifecycle && s.coreRun && s.flag F.THM_STATUS_NVM_OK && s.nvmw.unit.isNone)) = false := by
    rw [howner, h.run, h.ok, h.idle]
    rfl
  change execLifecycleFuseBlow b s = _
  unfold execLifecycleFuseBlow
  rw [htasks]
  dsimp only
  rw [hturn, if_neg (by decide)]
  rfl

/-- What the last fuse leaves of CFG beside the job: the target is the state, and END clears the secrets. -/
def State.lcSettled (s : State) : State :=
  let s1 := (s.put F.CFG_LC_STATE s.cfg.lcTarget).nvDrop Job.lifecycle
  if s.cfg.lcTarget = Lc.end_ then s1.clearSecrets.raise Code.CFG_END 0 else s1.showKeys

theorem State.lcCommit_eq (s : State) : s.lcCommit = (s.lcSettled.jobCommitOf Job.lifecycle).jobEndOf Job.lifecycle Job.done := rfl

/-- The registers and parts that it touches. -/
abbrev lcSpans : List Span := [.reg A.CFG_LC, .reg A.CFG_STATUS, .reg A.CFG_KCV]

theorem State.nvDrop_frame (s : State) (o : Nat) : Frame [] [.nvmw] s (s.nvDrop o) := .nvmw .refl rfl rfl

theorem State.clearSecrets_frame (s : State) : Frame [.reg A.CFG_STATUS, .reg A.CFG_KCV] [.cfg] s s.clearSecrets :=
  .op (State.showKeys_frame _) (.cfg (.put (.cfg .refl rfl rfl) rfl) rfl rfl) rfl

theorem State.lcSettled_frame (s : State) : Frame lcSpans [.nvmw, .cfg, .flt] s s.lcSettled := by
  have h1 : Frame lcSpans [.nvmw, .cfg, .flt] s ((s.put F.CFG_LC_STATE s.cfg.lcTarget).nvDrop Job.lifecycle) :=
    .nvmw (.put .refl rfl) rfl rfl
  exact .ite (.raise (.op (State.clearSecrets_frame _) h1 rfl) rfl) (.op (State.showKeys_frame _) h1 rfl)

/-- What a life cycle that reaches its target shows: its job DONE and COMMITTED, its state, no task left. -/
def lcTold (s : State) (k : Nat) (t : State) : Prop :=
  t.jobState k = 3 ∧ t.get (F.PWR_JOBn_STATUS_COMMITTED k) = 1 ∧ t.get F.CFG_LC_STATE = s.cfg.lcTarget ∧
    (∀ x ∈ t.nvmw.tasks, x.owner ≠ 8) ∧ (t.reg A.GLB_IRQ_STATUS).getLsbD 19 = true

/-- The last fuse: the job ends, and CFG is settled (R417). -/
theorem State.lcCommit_effect (hs : s.Wf) (hk : s.findJob Job.lifecycle = some k) (htarget : s.cfg.lcTarget < 8) :
    Frame (endSpans k) [.lnk] s.lcSettled s.lcCommit ∧ lcTold s k s.lcCommit := by
  have hsettled := s.lcSettled_frame
  have hk4 := State.findJob_lt hk
  have hwf := hsettled.wf hs
  rw [State.lcCommit_eq, State.jobOver_eq hwf (((hsettled.sameSlots rfl).findJob _).trans hk)]
  obtain ⟨hover, hstate, hcommitted, hevent⟩ := State.jobOver_effect hwf k (st := Job.done) (by decide)
  refine ⟨hover, hstate, hcommitted, ?_, ?_, hevent⟩
  · have hset : ((s.put F.CFG_LC_STATE s.cfg.lcTarget).nvDrop Job.lifecycle).get F.CFG_LC_STATE = s.cfg.lcTarget :=
      (State.get_put_self hs (by decide)).trans (Nat.mod_eq_of_lt htarget)
    refine (hover.get (covers_endSpans hk4 (by decide))).trans (Eq.trans ?_ hset)
    unfold State.lcSettled
    dsimp only
    split
    · exact ((Frame.raise (L := []) (ps := [.flt]) .refl rfl).get rfl).trans ((State.clearSecrets_frame _).get rfl)
    · exact (State.showKeys_frame _).get rfl
  · have htasks : s.lcSettled.nvmw.tasks = s.nvmw.tasks.filter fun t => t.owner != Job.lifecycle := by
      unfold State.lcSettled
      dsimp only
      split
      · exact congrArg Nvmw.tasks (((Frame.raise (L := []) (ps := [.flt]) .refl rfl).part .nvmw rfl).trans
          ((State.clearSecrets_frame _).part .nvmw rfl))
      · exact congrArg Nvmw.tasks ((State.showKeys_frame _).part .nvmw rfl)
    intro x hx
    rw [show _ = s.lcSettled.nvmw from hover.part .nvmw rfl, htasks, List.mem_filter] at hx
    simpa [Job.lifecycle] using hx.2

/-- Before END the secrets stay. -/
theorem State.lcSettled_cfg (hlt : s.cfg.lcTarget < 4) : s.lcSettled.cfg = s.cfg := by
  unfold State.lcSettled
  dsimp only
  rw [if_neg (by unfold Lc.end_; omega)]
  exact (State.showKeys_frame _).part .cfg rfl

/-- END clears the secrets and raises CFG_END (R416). -/
theorem State.lcSettled_end (hs : s.Wf) (h4 : s.cfg.lcTarget = Lc.end_) :
    s.lcSettled.cfg = { s.cfg with kill := true, staged := none, stagedSrc := 0 } ∧ s.lcSettled.get F.CFG_STATUS_KEYS = 0 ∧
      s.lcSettled.get F.CFG_STATUS_CLEARED = 1 ∧ s.lcSettled.flt = (s.raise Code.CFG_END 0).flt := by
  let s1 := (s.put F.CFG_LC_STATE s.cfg.lcTarget).nvDrop Job.lifecycle
  let s2 := (State.dropStaged { s1 with cfg := { s1.cfg with kill := true } })
  have heq : s.lcSettled = s2.showKeys.raise Code.CFG_END 0 := by
    unfold State.lcSettled
    dsimp only
    rw [if_pos h4]
    rfl
  have hraise : Frame [] [.flt] s2.showKeys (s2.showKeys.raise Code.CFG_END 0) := .raise .refl rfl
  have hwf : s2.Wf := State.put_wf (State.put_wf hs)
  have hkeys : (s2.putB F.CFG_STATUS_KEYS false).Wf := State.put_wf hwf
  have hshown : s2.showKeys = (((s2.putB F.CFG_STATUS_KEYS false).putB F.CFG_STATUS_CLEARED true).put F.CFG_KCV_AUTH
      (keyCheck s2.kAuth)).put F.CFG_KCV_ENC (keyCheck s2.kEnc) := rfl
  have hkcv : Frame [.reg A.CFG_KCV] [] ((s2.putB F.CFG_STATUS_KEYS false).putB F.CFG_STATUS_CLEARED true) s2.showKeys :=
    .put (.put .refl rfl) rfl
  rw [heq]
  refine ⟨?_, ?_, ?_, ?_⟩
  · exact Eq.trans (hraise.part .cfg rfl) (Eq.trans (s2.showKeys_frame.part .cfg rfl) rfl)
  · rw [hraise.get rfl, hkcv.get rfl]
    exact (State.get_put_ne hkeys (by decide) (by decide)).trans (State.get_put_self hwf (by decide))
  · rw [hraise.get rfl, hkcv.get rfl]
    exact State.get_put_self hkeys (by decide)
  · exact (State.raise_flt (s2.showKeys_frame.part .flt rfl) _ _).trans (State.raise_flt (y := s2) (s := s) rfl _ _)

theorem State.kAuth_killed (h : s.cfg.kill = true) : s.kAuth = zeroKey ∧ s.kEnc = zeroKey := by
  simp [State.kAuth, State.kEnc, State.keysZero, h]

/-- The fuse that LIFECYCLE_FUSE_BLOW blows short of the target. -/
theorem fuseBlow_short (h : s.LcTurn k) (hkeys : s.lcKeys = false) (hlt : s.cfg.fuses + 1 < s.cfg.lcTarget) :
    exec (.lifecycleFuseBlow b) s = .next { s with cfg := { s.cfg with fuses := s.cfg.fuses + 1 } } := by
  have hblown : s.fuseBlown = { s with cfg := { s.cfg with fuses := s.cfg.fuses + 1 } } := by
    unfold State.fuseBlown
    rw [show max s.cfg.fuses (min (s.cfg.fuses + 1) s.cfg.lcTarget) = s.cfg.fuses + 1 by omega]
  have hready : s.lcReady = s := by rw [State.lcReady, hkeys, if_neg (by decide)]
  rw [h.exec_eq, hready, hblown, hkeys]
  exact congrArg Host.Outcome.next (if_neg (Nat.not_le.2 hlt))

/-- The fuse that reaches the target. -/
theorem fuseBlow_last (h : s.LcTurn k) (hver : (s.lcKeys && !b) = false) (hlast : s.cfg.fuses + 1 = s.cfg.lcTarget) :
    ∃ u : State, u.Wf ∧ u.findJob Job.lifecycle = some k ∧ u.flt = s.flt ∧ exec (.lifecycleFuseBlow b) s = .next u.lcCommit ∧
      u.cfg = { s.lcReady.cfg with fuses := s.cfg.lcTarget } := by
  have hfields : s.lcReady.cfg.fuses = s.cfg.fuses ∧ s.lcReady.cfg.lcTarget = s.cfg.lcTarget ∧ s.lcReady.flt = s.flt ∧
      s.lcReady.regs = s.regs ∧ (s.Wf → s.lcReady.Wf) := by
    unfold State.lcReady
    split <;> exact ⟨rfl, rfl, rfl, rfl, id⟩
  obtain ⟨hfuses, htarget, hflt, hregs, hwf⟩ := hfields
  have hmax : max s.cfg.fuses (min (s.cfg.fuses + 1) s.cfg.lcTarget) = s.cfg.lcTarget := by omega
  refine ⟨s.lcReady.fuseBlown, hwf h.wf, ?_, hflt, ?_, ?_⟩
  · refine Eq.trans (SameSlots.findJob (fun n _ => ?_) _) h.job
    exact congrArg (sparseGet regReset · _) hregs
  · rw [h.exec_eq, hver, if_neg (by decide), if_pos]
    change s.lcReady.cfg.lcTarget ≤ max s.lcReady.cfg.fuses (min (s.lcReady.cfg.fuses + 1) s.lcReady.cfg.lcTarget)
    rw [hfuses, htarget, hmax]
  · unfold State.fuseBlown
    rw [hfuses, htarget, hmax]

end


/-! ### The verdict on a bank (R83, R445) -/

theorem oneHot_getLsbD {p i : Nat} (hp : p < 17) : (BitVec.ofNat 17 (2 ^ p)).getLsbD i = decide (i = p) := by
  rw [BitVec.getLsbD_ofNat, Nat.testBit_two_pow]
  by_cases h : i = p
  · subst h
    simp [hp]
  · simp [h, Ne.symm h]

/-- Bank `p` is judged: what its failure bit and its retirement become, and that nothing else does. -/
structure Judged (p : Nat) (bad : Bool) (s t : State) : Prop where
  frame : Frame [.reg A.BST_BANK_FAIL] [.lmc, .flt, .bst] s t
  fail : ∀ i, (t.reg A.BST_BANK_FAIL).getLsbD i = if i = p then bad else (s.reg A.BST_BANK_FAIL).getLsbD i
  retired : ∀ i, t.lmc.retired.getLsbD i = if i = p then bad else s.lmc.retired.getLsbD i
  bst : t.bst = { s.bst with failed := s.bst.failed || bad }

theorem State.failBits {s : State} (hs : s.Wf) (v i : Nat) :
    ((s.put F.BST_BANK_FAIL_FAIL v).reg A.BST_BANK_FAIL).getLsbD i = if i < 17 then v.testBit i else (s.reg A.BST_BANK_FAIL).getLsbD i := by
  change ((s.setReg A.BST_BANK_FAIL _).reg A.BST_BANK_FAIL).getLsbD i = _
  rw [State.reg_setReg_same hs, wordPut_getLsbD (by decide) (by decide)]
  by_cases h : i < 17
  · rw [if_pos h, if_pos ⟨Nat.zero_le _, Nat.le_of_lt_succ h⟩]
    rfl
  · rw [if_neg h, if_neg fun hb => h (Nat.lt_succ_of_le hb.2)]
    rfl

theorem State.failBit_get (s : State) {i : Nat} (hi : i < 17) : (s.get F.BST_BANK_FAIL_FAIL).testBit i = (s.reg A.BST_BANK_FAIL).getLsbD i := by
  refine wordGet_testBit.trans ?_
  simp [F.BST_BANK_FAIL_FAIL, A.BST_BANK_FAIL, hi]

theorem State.bankFails_judged {s : State} (hs : s.Wf) {p : Nat} (hp : p < 17) :
    Judged p true s { s.retireBank p with bst := { s.bst with failed := true } } := by
  let m := s.get F.BST_BANK_FAIL_FAIL
  let s1 := s.put F.BST_BANK_FAIL_FAIL (if bitOf m p then m else m + 2 ^ p)
  let s2 : State := { s1 with lmc := { s1.lmc with retired := s1.lmc.retired ||| BitVec.ofNat 17 (2 ^ p) } }
  have hraise : Frame [] [.flt] s2 (s.retireBank p) := .raise .refl rfl
  have h2 : Frame [.reg A.BST_BANK_FAIL] [.lmc] s s2 := .lmc (.put .refl rfl) rfl
  have hall : Frame [.reg A.BST_BANK_FAIL] [.lmc, .flt, .bst] s (s.retireBank p) := .op hraise (.mono h2 rfl) rfl
  refine ⟨hall.upd rfl id, fun i => ?_, fun i => ?_, by simp⟩
  · have hreg : (s.retireBank p).reg A.BST_BANK_FAIL = s1.reg A.BST_BANK_FAIL := hraise.reg _ rfl
    change ((s.retireBank p).reg A.BST_BANK_FAIL).getLsbD i = _
    rw [hreg, State.failBits hs]
    by_cases hi : i < 17
    · rw [if_pos hi, testBit_withBit, s.failBit_get hi]
      by_cases he : i = p <;> simp [he]
    · rw [if_neg hi, if_neg (by omega)]
  · have hlmc : (s.retireBank p).lmc = s2.lmc := hraise.part .lmc rfl
    change (s.retireBank p).lmc.retired.getLsbD i = _
    rw [hlmc]
    change (s.lmc.retired ||| BitVec.ofNat 17 (2 ^ p)).getLsbD i = _
    rw [BitVec.getLsbD_or, oneHot_getLsbD hp]
    by_cases he : i = p <;> simp [he]

theorem State.bankPasses_judged {s : State} (hs : s.Wf) {p : Nat} (hp : p < 17) : Judged p false s (s.bankPasses p) := by
  have hframe : Frame [.reg A.BST_BANK_FAIL] [.lmc, .flt, .bst] s (s.bankPasses p) := .lmc (.put .refl rfl) rfl
  refine ⟨hframe, fun i => ?_, fun i => ?_, by rw [Bool.or_false]; rfl⟩
  · change ((s.put F.BST_BANK_FAIL_FAIL _).reg A.BST_BANK_FAIL).getLsbD i = _
    rw [State.failBits hs]
    by_cases hi : i < 17
    · rw [if_pos hi, testBit_withoutBit, s.failBit_get hi]
      by_cases he : i = p <;> simp [he]
    · rw [if_neg hi, if_neg (by omega)]
  · change (s.lmc.retired &&& ~~~ BitVec.ofNat 17 (2 ^ p)).getLsbD i = _
    rw [BitVec.getLsbD_and, BitVec.getLsbD_not, oneHot_getLsbD hp]
    by_cases he : i = p
    · simp [he]
    · by_cases hi : i < 17
      · simp [he, hi]
      · simp [he, hi, BitVec.getLsbD_of_ge s.lmc.retired i (by omega)]

/-- The banks of a list are judged. -/
structure AllJudged (l : List Nat) (banks : BitVec 17) (s t : State) : Prop where
  frame : Frame [.reg A.BST_BANK_FAIL] [.lmc, .flt, .bst] s t
  fail : ∀ i, (t.reg A.BST_BANK_FAIL).getLsbD i = if i ∈ l then banks.getLsbD i else (s.reg A.BST_BANK_FAIL).getLsbD i
  retired : ∀ i, t.lmc.retired.getLsbD i = if i ∈ l then banks.getLsbD i else s.lmc.retired.getLsbD i
  bst : t.bst = { s.bst with failed := s.bst.failed || l.any fun p => banks.getLsbD p }

/-- The verdicts of a group, bank by bank. -/
theorem State.groupBankResult_judged (banks : BitVec 17) : ∀ (l : List Nat) (s : State), s.Wf → (∀ p ∈ l, p < 17) →
    AllJudged l banks s (s.groupBankResult banks l)
  | [], s, _, _ => ⟨.refl, fun i => rfl, fun i => rfl, by simp [State.groupBankResult]⟩
  | p :: l, s, hs, hl => by
    have hone : ∃ u, Judged p (banks.getLsbD p) s u ∧ s.groupBankResult banks (p :: l) = u.groupBankResult banks l := by
      have hp := hl p List.mem_cons_self
      cases hb : banks.getLsbD p with
      | true => exact ⟨_, State.bankFails_judged hs hp, by simp [State.groupBankResult, hb]⟩
      | false => exact ⟨_, State.bankPasses_judged hs hp, by simp [State.groupBankResult, hb]⟩
    obtain ⟨u, hu, he⟩ := hone
    have ih := State.groupBankResult_judged banks l u (hu.frame.wf hs) fun q hq => hl q (List.mem_cons_of_mem _ hq)
    rw [he]
    refine ⟨hu.frame.trans ih.frame, fun i => ?_, fun i => ?_, ?_⟩
    · rw [ih.fail, hu.fail]
      by_cases hi : i ∈ l
      · simp [hi]
      · by_cases hp : i = p <;> simp [hi, hp]
    · rw [ih.retired, hu.retired]
      by_cases hi : i ∈ l
      · simp [hi]
      · by_cases hp : i = p <;> simp [hi, hp]
    · rw [ih.bst, hu.bst]
      simp [Bool.or_assoc]


/-! ### A group completes (R444) -/

theorem groupBanks_lt {g p : Nat} (hg : g ≤ 5) (hp : p ∈ groupBanks g) : p < 17 := by
  unfold groupBanks at hp
  split at hp <;> simp only [List.mem_cons, List.not_mem_nil, or_false] at hp <;> omega

theorem forUpto_id {α : Type} {f : Nat → α → α} (x : α) : ∀ n, (∀ k, k < n → f k x = x) → forUpto n f x = x
  | 0, _ => rfl
  | n + 1, h => by
    change f n (forUpto n f x) = x
    rw [forUpto_id x n fun k hk => h k (Nat.lt_succ_of_lt hk)]
    exact h n (Nat.lt_succ_self n)

/-- With no RAM named, none is reported. -/
theorem State.ramResults_zero (s : State) (lo n : Nat) : s.ramResults 0 lo n = s :=
  forUpto_id s n fun k _ => by simp [bitOf]

/-- A group of the power-on self-test, not of a job, completes. -/
theorem execPostGroupDone_runs {s : State} {banks : BitVec 17} {rams : BitVec 4} (hpost : s.post = true) (hrun : s.coreRun = true)
    (hjob : s.bst.jobPost = false) (hg : s.get F.BST_STATUS_GROUP = 1 → rams = 0)
    (hstop : (s.groupBankResult banks (groupBanks (s.get F.BST_STATUS_GROUP))).bst.stopPost = false) :
    exec (.postGroupDone banks rams) s = .next (if s.get F.BST_STATUS_GROUP = 5 then
        (s.groupBankResult banks (groupBanks (s.get F.BST_STATUS_GROUP))).postEnd
      else (s.groupBankResult banks (groupBanks (s.get F.BST_STATUS_GROUP))).postGroup (s.get F.BST_STATUS_GROUP + 1)) := by
  change execPostGroupDone banks rams s = _
  unfold execPostGroupDone
  rw [hpost, hrun, hjob, if_neg (by decide), if_neg (by simp)]
  dsimp only
  have hrams : (if s.get F.BST_STATUS_GROUP = 1 then (s.groupBankResult banks (groupBanks (s.get F.BST_STATUS_GROUP))).ramResults rams.toNat 0 4
      else s.groupBankResult banks (groupBanks (s.get F.BST_STATUS_GROUP))) = s.groupBankResult banks (groupBanks (s.get F.BST_STATUS_GROUP)) := by
    split
    · next h1 =>
      rw [hg h1]
      exact State.ramResults_zero _ 0 4
    · rfl
  rw [hrams, hstop]
  simp

/-- A group before the last: its verdicts, and the next group begins. -/
theorem postGroupDone_next {s : State} {banks : BitVec 17} {rams : BitVec 4} {g : Nat} (hs : s.Wf) (hpost : s.post = true)
    (hrun : s.coreRun = true) (hjob : s.bst.jobPost = false) (hstop : s.bst.stopPost = false) (hg : s.get F.BST_STATUS_GROUP = g)
    (h4 : g ≤ 4) (hrams : rams = 0) :
    Completes (.postGroupDone banks rams) s fun t =>
      t.post = true ∧ t.get F.BST_STATUS_GROUP = g + 1 ∧
      (∀ p, p ∈ groupBanks g → t.lmc.retired.getLsbD p = banks.getLsbD p ∧ (t.reg A.BST_BANK_FAIL).getLsbD p = banks.getLsbD p) ∧
      (∀ p, p < 17 → p ∉ groupBanks g → t.lmc.retired.getLsbD p = s.lmc.retired.getLsbD p) ∧
      (t.bst.failed = true ↔ s.bst.failed = true ∨ ∃ p ∈ groupBanks g, banks.getLsbD p = true) := by
  have hall := State.groupBankResult_judged banks (groupBanks g) s hs fun p hp => groupBanks_lt (by omega) hp
  have hexec := execPostGroupDone_runs (banks := banks) hpost hrun hjob (fun _ => hrams) (by rw [hg, hall.bst]; exact hstop)
  rw [hg, if_neg (by omega)] at hexec
  generalize s.groupBankResult banks (groupBanks g) = u at hall hexec
  have hu := hall.frame.wf hs
  refine ⟨_, hexec, ?_, ?_, fun p hp => ⟨?_, ?_⟩, fun p _ hp => ?_, ?_⟩
  · have hflag : (u.postGroup (g + 1)).get F.BST_STATUS_POST = s.get F.BST_STATUS_POST :=
      (State.get_put_ne hu (by decide) (by decide)).trans (hall.frame.get rfl)
    exact (congrArg (· != 0) hflag).trans hpost
  · exact (State.get_put_self hu (by decide)).trans (Nat.mod_eq_of_lt (Nat.lt_of_le_of_lt (Nat.succ_le_succ h4) (by decide)))
  · exact (hall.retired p).trans (if_pos hp)
  · change ((u.put F.BST_STATUS_GROUP (g + 1)).reg A.BST_BANK_FAIL).getLsbD p = _
    rw [State.reg_put_ne (by decide), hall.fail, if_pos hp]
  · exact (hall.retired p).trans (if_neg hp)
  · change u.bst.failed = true ↔ _
    rw [hall.bst]
    simp


/-! ### The end of the self-test (R83, R90, R444) -/

/-- What stays as layer memory enters service: the result of the test, the content of layer memory and its directory, and the
banks that are retired. -/
structure KeepsService (s t : State) : Prop where
  wf : s.Wf → t.Wf
  status : t.reg A.BST_STATUS = s.reg A.BST_STATUS
  post : s.Wf → t.get F.LMC_STATUS_POST = s.get F.LMC_STATUS_POST
  lmem : t.lmem = s.lmem
  dir : t.lmc.dir = s.lmc.dir
  retired : t.lmc.retired = s.lmc.retired
  bst : t.bst = s.bst

namespace KeepsService

variable {s t u : State}

theorem refl : KeepsService s s := ⟨id, rfl, fun _ => rfl, rfl, rfl, rfl, rfl⟩

theorem trans (h : KeepsService s t) (h' : KeepsService t u) : KeepsService s u :=
  ⟨fun hs => h'.wf (h.wf hs), h'.status.trans h.status, fun hs => (h'.post (h.wf hs)).trans (h.post hs), h'.lmem.trans h.lmem,
    h'.dir.trans h.dir, h'.retired.trans h.retired, h'.bst.trans h.bst⟩

theorem of_frame {L : List Span} {ps : List Part} (h : Frame L ps s t)
    (hd : (covers L A.BST_STATUS || covers L A.LMC_STATUS || ps.contains .lmem || ps.contains .lmc || ps.contains .bst) = false) :
    KeepsService s t := by
  simp only [Bool.or_eq_false_iff] at hd
  obtain ⟨⟨⟨⟨hstatus, hlmc⟩, hmem⟩, hdir⟩, hbst⟩ := hd
  exact ⟨h.wf, h.reg _ hstatus, fun _ => h.get hlmc, h.part .lmem hmem, congrArg Lmc.dir (h.part .lmc hdir),
    congrArg Lmc.retired (h.part .lmc hdir), h.part .bst hbst⟩

theorem put {f : Field} {v : Nat} (h : KeepsService s t) (hf : f.addr = A.LMC_STATUS ∧ f.lo ≤ f.hi ∧ f.hi < 31) :
    KeepsService s (t.put f v) := by
  obtain ⟨ha, hlo, hhi⟩ := hf
  refine h.trans ⟨State.put_wf, State.reg_put_ne (by rw [ha]; decide), fun ht => ?_, rfl, rfl, rfl, rfl⟩
  exact State.get_put_ne ht ⟨by omega, hlo⟩ (.inr (.inr hhi))

theorem lmc {x : Lmc} (h : KeepsService s t) (hx : x.dir = t.lmc.dir ∧ x.retired = t.lmc.retired) :
    KeepsService s { t with lmc := x } :=
  h.trans ⟨id, rfl, fun _ => rfl, rfl, hx.1, hx.2, rfl⟩

end KeepsService

theorem State.rotationOff_keepsService (s : State) : KeepsService s s.rotationOff :=
  .lmc (.put (.put (.put .refl ⟨rfl, by decide, by decide⟩) ⟨rfl, by decide, by decide⟩) ⟨rfl, by decide, by decide⟩) ⟨rfl, rfl⟩

theorem State.setMem_keepsService (s : State) (p : Nat) (on : Bool) : KeepsService s (s.setMem p on) :=
  .of_frame (s.setMem_frame p on) rfl

theorem State.migrateStart_keepsService (s : State) (b : Nat) : KeepsService s (s.migrateStart b) := by
  have hbank : KeepsService s (if s.lmc.rotate.isSome then s.put F.BST_RUN_STATUS_BANK b else s) :=
    .of_frame (L := [.reg A.BST_RUN_STATUS]) (ps := []) (.ite (.put .refl rfl) .refl) rfl
  exact .put (.put hbank ⟨rfl, by decide, by decide⟩) ⟨rfl, by decide, by decide⟩

theorem State.rotationGo_keepsService (s : State) : KeepsService s s.rotationGo := by
  unfold State.rotationGo
  split
  · exact .refl
  split
  · exact .refl
  split
  · exact .refl
  split
  · split
    · exact s.migrateStart_keepsService _
    · exact .refl
  · exact .lmc (s.setMem_keepsService _ _) ⟨rfl, rfl⟩

theorem forUpto_keepsService {f : Nat → State → State} (hf : ∀ k s, KeepsService s (f k s)) : ∀ (n : Nat) (s : State),
    KeepsService s (forUpto n f s)
  | 0, _ => .refl
  | n + 1, s => (forUpto_keepsService hf n s).trans (hf n _)

theorem State.memByEnable_keepsService (s : State) : KeepsService s s.memByEnable := by
  unfold State.memByEnable
  exact .trans (forUpto_keepsService (fun p s => s.setMem_keepsService p _) 17 s) (State.rotationGo_keepsService _)

theorem State.jobEndOf_keepsService (s : State) (t st : Nat) : KeepsService s (s.jobEndOf t st) := .of_frame (s.jobEndOf_frame t st) rfl

theorem State.scanBankLost_keepsService (s : State) : KeepsService s s.scanBankLost := by
  unfold State.scanBankLost
  split
  · exact .refl
  · split
    · have hfail : KeepsService s ((s.put F.CHK_STATUS_RESULT 2).put F.CHK_STATUS_REASON 2) :=
        .of_frame (L := [.reg A.CHK_STATUS]) (ps := []) (.put (.put .refl rfl) rfl) rfl
      exact .trans (.lmc (x := { s.lmc with scan := none }) hfail ⟨rfl, rfl⟩) (State.jobEndOf_keepsService _ Job.memScan Job.failed)
    · exact .refl

theorem State.mapBanks_frame (s : State) : Frame [⟨A.LMC_BANK_MAPn 0, A.LMC_SEAL_CRC⟩] [] s s.mapBanks := by
  unfold State.mapBanks
  refine .put (.put (.forUpto s fun b u hb => ?_) rfl) rfl
  interval_cases b <;> exact .put .refl rfl

theorem State.tilesEmpty_effect (s : State) (r : Nat) : Frame [.reg A.LMC_SEAL_STATUS] [.lmc, .lmem] s (s.tilesEmpty r) ∧
    (s.tilesEmpty r).lmem = [] ∧ (s.tilesEmpty r).lmc.dir = [] ∧ (s.tilesEmpty r).lmc.retired = s.lmc.retired := by
  have hlost : Frame [.reg A.LMC_SEAL_STATUS] [.lmc, .lmem] s (s.sealLost r) ∧ (s.sealLost r).lmc.retired = s.lmc.retired := by
    unfold State.sealLost
    split
    · exact ⟨.refl, rfl⟩
    · exact ⟨.lmc (.put (.put (.put .refl rfl) rfl) rfl) rfl, rfl⟩
  obtain ⟨hframe, hretired⟩ := hlost
  exact ⟨hframe.upd rfl fun hw => ⟨hw.1, hw.2.1, sparseWf_nil, hw.2.2.2⟩, rfl, rfl, hretired⟩

/-- The state in which the result of the self-test is shown. -/
def State.postShown (s : State) : State :=
  (((s.put F.BST_STATUS_POST 0).put F.LMC_STATUS_POST 0).put F.BST_STATUS_GROUP 0).put F.BST_STATUS_POST_RESULT
    (if s.bst.failed then 2 else 1)

theorem State.postShown_frame (s : State) : Frame [.reg A.BST_STATUS, .reg A.LMC_STATUS] [] s s.postShown :=
  .put (.put (.put (.put .refl rfl) rfl) rfl) rfl

/-- Layer memory enters service, empty, on the banks of a fresh map. -/
def State.serves (s : State) : State :=
  { (s.tilesEmpty 3).rotationOff with msk := { s.msk with latched := [], target := [] } }.memByEnable.scanBankLost

/-- The test is over. -/
def State.testOver (s : State) : State :=
  let t := { s with bst := { s.bst with jobPost := false, stopPost := false, failed := false } }
  if s.bst.jobPost && !s.bst.stopPost then t.jobEndOf Job.bistRun Job.done else t

theorem State.postEnd_stages (s : State) : s.postEnd =
    (if s.postShown.bst.stopPost then s.postShown.mapPartly else s.postShown.mapBanks).serves.testOver := rfl

theorem State.serves_keepsService (s : State) : KeepsService (s.tilesEmpty 3) s.serves := by
  have hmask : KeepsService (s.tilesEmpty 3).rotationOff
      { (s.tilesEmpty 3).rotationOff with msk := { s.msk with latched := [], target := [] } } :=
    ⟨id, rfl, fun _ => rfl, rfl, rfl, rfl, rfl⟩
  exact .trans (.trans (.trans (State.rotationOff_keepsService _) hmask) (State.memByEnable_keepsService _))
    (State.scanBankLost_keepsService _)

theorem State.testOver_power {s : State} (hjob : s.bst.jobPost = false) :
    s.testOver = { s with bst := { s.bst with jobPost := false, stopPost := false, failed := false } } := by
  unfold State.testOver
  dsimp only
  rw [if_neg (by simp [hjob])]

/-- What layer memory in service shows. -/
theorem State.serves_effect {s : State} (hs : s.Wf) :
    s.serves.reg A.BST_STATUS = s.reg A.BST_STATUS ∧ s.serves.get F.LMC_STATUS_POST = s.get F.LMC_STATUS_POST ∧ s.serves.lmem = [] ∧
      s.serves.lmc.dir = [] ∧ s.serves.lmc.retired = s.lmc.retired ∧ s.serves.bst = s.bst := by
  obtain ⟨hempty, hlmem, hdir, hretired⟩ := s.tilesEmpty_effect 3
  have hkeep := s.serves_keepsService
  have hbst : (s.tilesEmpty 3).bst = s.bst := hempty.part .bst rfl
  exact ⟨hkeep.status.trans (hempty.reg _ rfl), (hkeep.post (hempty.wf hs)).trans (hempty.get rfl), hkeep.lmem.trans hlmem,
    hkeep.dir.trans hdir, hkeep.retired.trans hretired, hkeep.bst.trans hbst⟩

/-- The result that is shown (R445). -/
theorem State.postShown_effect {s : State} (hs : s.Wf) :
    s.postShown.post = false ∧ s.postShown.get F.BST_STATUS_GROUP = 0 ∧ s.postShown.get F.LMC_STATUS_POST = 0 ∧
      s.postShown.get F.BST_STATUS_POST_RESULT = if s.bst.failed then 2 else 1 := by
  have h1 := State.put_wf (f := F.BST_STATUS_POST) (v := 0) hs
  have h2 := State.put_wf (f := F.LMC_STATUS_POST) (v := 0) h1
  have h3 := State.put_wf (f := F.BST_STATUS_GROUP) (v := 0) h2
  refine ⟨State.flag_of_get (n := 0) ?_, ?_, ?_, ?_⟩
  · exact (State.get_put_ne h3 (by decide) (by decide)).trans ((State.get_put_ne h2 (by decide) (by decide)).trans
      ((State.get_put_addr (by decide)).trans (State.get_put_self hs (by decide))))
  · exact (State.get_put_ne h3 (by decide) (by decide)).trans (State.get_put_self h2 (by decide))
  · exact (State.get_put_addr (by decide)).trans ((State.get_put_addr (by decide)).trans (State.get_put_self h1 (by decide)))
  · exact (State.get_put_self h3 (by decide)).trans (by split <;> rfl)

theorem State.postEnd_eq {s : State} (hjob : s.bst.jobPost = false) (hstop : s.bst.stopPost = false) (hbst : s.postShown.mapBanks.serves.bst = s.bst) :
    s.postEnd = { s.postShown.mapBanks.serves with
      bst := { s.postShown.mapBanks.serves.bst with jobPost := false, stopPost := false, failed := false } } := by
  rw [State.postEnd_stages, show s.postShown.bst.stopPost = false from hstop, if_neg (by decide)]
  exact State.testOver_power ((congrArg Bst.jobPost hbst).trans hjob)

/-- The end of the power-on self-test: its result, and layer memory in service and empty. -/
theorem State.postEnd_effect {s : State} (hs : s.Wf) (hjob : s.bst.jobPost = false) (hstop : s.bst.stopPost = false) :
    s.postEnd.post = false ∧ s.postEnd.get F.BST_STATUS_GROUP = 0 ∧ s.postEnd.get F.LMC_STATUS_POST = 0 ∧ s.postEnd.lmem = [] ∧
      s.postEnd.lmc.dir = [] ∧ s.postEnd.lmc.retired = s.lmc.retired ∧
      s.postEnd.get F.BST_STATUS_POST_RESULT = if s.bst.failed then 2 else 1 := by
  obtain ⟨hpost, hgroup, hmem, hresult⟩ := State.postShown_effect hs
  have hmap := s.postShown.mapBanks_frame
  obtain ⟨hstatus, hin, hlmem, hdir, hretired, hbst⟩ := State.serves_effect (hmap.wf (s.postShown_frame.wf hs))
  have hlmc : s.postShown.mapBanks.lmc = s.lmc := hmap.part .lmc rfl
  have hmbst : s.postShown.mapBanks.bst = s.bst := hmap.part .bst rfl
  have hreg : s.postShown.mapBanks.serves.reg A.BST_STATUS = s.postShown.reg A.BST_STATUS := hstatus.trans (hmap.reg _ rfl)
  have hin' : s.postShown.mapBanks.serves.get F.LMC_STATUS_POST = s.postShown.get F.LMC_STATUS_POST := hin.trans (hmap.get rfl)
  rw [State.postEnd_eq hjob hstop (hbst.trans hmbst)]
  generalize s.postShown.mapBanks.serves = u at *
  refine ⟨?_, ?_, hin'.trans hmem, hlmem, hdir, hretired.trans (congrArg Lmc.retired hlmc), ?_⟩
  · exact (congrArg (fun w => wordGet w _ _ != 0) hreg).trans hpost
  · exact (congrArg (fun w => wordGet w _ _) hreg).trans hgroup
  · exact (congrArg (fun w => wordGet w _ _) hreg).trans hresult

/-- The last group: the test ends with its result. -/
theorem postGroupDone_last {s : State} {banks : BitVec 17} {rams : BitVec 4} (hs : s.Wf) (hpost : s.post = true)
    (hrun : s.coreRun = true) (hjob : s.bst.jobPost = false) (hstop : s.bst.stopPost = false) (hg : s.get F.BST_STATUS_GROUP = 5) :
    Completes (.postGroupDone banks rams) s fun t =>
      t.post = false ∧ t.get F.BST_STATUS_GROUP = 0 ∧ t.get F.LMC_STATUS_POST = 0 ∧ t.lmem = [] ∧ t.lmc.dir = [] ∧
      t.lmc.retired.getLsbD 16 = banks.getLsbD 16 ∧
      t.get F.BST_STATUS_POST_RESULT = (if s.bst.failed = true ∨ banks.getLsbD 16 = true then 2 else 1) := by
  have hall : AllJudged [16] banks s (s.groupBankResult banks (groupBanks (s.get F.BST_STATUS_GROUP))) := by
    rw [hg]
    exact State.groupBankResult_judged banks (groupBanks 5) s hs fun p hp => groupBanks_lt (by decide) hp
  have hexec := execPostGroupDone_runs (rams := rams) hpost hrun hjob (fun h => absurd (hg.symm.trans h) (by decide)) (by rw [hall.bst]; exact hstop)
  rw [if_pos hg] at hexec
  generalize s.groupBankResult banks (groupBanks (s.get F.BST_STATUS_GROUP)) = u at hall hexec
  obtain ⟨hover, hgroup, hmem, hlmem, hdir, hretired, hresult⟩ := State.postEnd_effect (hall.frame.wf hs)
    ((congrArg Bst.jobPost hall.bst).trans hjob) ((congrArg Bst.stopPost hall.bst).trans hstop)
  refine ⟨_, hexec, hover, hgroup, hmem, hlmem, hdir, ?_, ?_⟩
  · rw [hretired]
    exact (hall.retired 16).trans (if_pos (by decide))
  · rw [hresult, hall.bst]
    simp


/-! ### The obligation -/

/-- LIFECYCLE_FUSE_BLOW reaches a target: what the job and CFG show. -/
theorem fuseBlow_commits {s : State} {k : Nat} {b : Bool} (h : s.LcTurn k) (hver : (s.lcKeys && !b) = false)
    (hlast : s.cfg.fuses + 1 = s.cfg.lcTarget) (htarget : s.cfg.lcTarget < 8) :
    ∃ u : State, u.Wf ∧ u.flt = s.flt ∧ u.cfg = { s.lcReady.cfg with fuses := s.cfg.lcTarget } ∧
      exec (.lifecycleFuseBlow b) s = .next u.lcCommit ∧ Frame (endSpans k) [.lnk] u.lcSettled u.lcCommit ∧ lcTold s k u.lcCommit := by
  obtain ⟨u, hu, hjob, hflt, hexec, hcfg⟩ := fuseBlow_last h hver hlast
  have hready : s.lcReady.cfg.lcTarget = s.cfg.lcTarget := by
    unfold State.lcReady
    split <;> rfl
  have hut : u.cfg.lcTarget = s.cfg.lcTarget := (congrArg Cfg.lcTarget hcfg).trans hready
  obtain ⟨hframe, htold⟩ := State.lcCommit_effect hu hjob (hut ▸ htarget)
  unfold lcTold at htold
  rw [hut] at htold
  exact ⟨u, hu, hflt, hcfg, hexec, hframe, htold⟩

/-- The fuse of END clears the secrets. -/
theorem fuseBlow_end {s : State} {k : Nat} {b : Bool} (h : s.LcTurn k) (hkeys : s.lcKeys = false) (h3 : s.cfg.fuses = 3)
    (h4 : s.cfg.lcTarget = 4) :
    Completes (.lifecycleFuseBlow b) s fun t =>
      lcTold s k t ∧ t.cfg.fuses = 4 ∧ t.cfg.kill = true ∧ t.kAuth = zeroKey ∧ t.kEnc = zeroKey ∧ t.cfg.staged = none ∧
      t.get F.CFG_STATUS_KEYS = 0 ∧ t.get F.CFG_STATUS_CLEARED = 1 ∧ t.frec Code.CFG_END = (s.raise Code.CFG_END 0).frec Code.CFG_END := by
  obtain ⟨u, hu, hflt, hcfg, hexec, hframe, htold⟩ := fuseBlow_commits (b := b) h (by rw [hkeys]; rfl) (by omega) (by omega)
  have hk4 := State.findJob_lt h.job
  have hready : s.lcReady = s := by rw [State.lcReady, hkeys, if_neg (by decide)]
  rw [hready] at hcfg
  obtain ⟨hset, hshown, hcleared, hraised⟩ := State.lcSettled_end hu ((congrArg Cfg.lcTarget hcfg).trans h4)
  have htcfg : u.lcCommit.cfg = { u.cfg with kill := true, staged := none, stagedSrc := 0 } := Eq.trans (hframe.part .cfg rfl) hset
  have hkill : u.lcCommit.cfg.kill = true := congrArg Cfg.kill htcfg
  obtain ⟨hauth, henc⟩ := State.kAuth_killed hkill
  refine ⟨_, hexec, htold, ?_, hkill, hauth, henc, congrArg Cfg.staged htcfg, ?_, ?_, ?_⟩
  · exact (congrArg Cfg.fuses htcfg).trans ((congrArg Cfg.fuses hcfg).trans h4)
  · exact (hframe.get (covers_endSpans hk4 (by decide))).trans hshown
  · exact (hframe.get (covers_endSpans hk4 (by decide))).trans hcleared
  · exact State.frec_congr ((Eq.trans (hframe.part .flt rfl) hraised).trans (State.raise_flt hflt _ _)) _

/-- A verify that fails ends the job with KEYS, and no fuse is blown. -/
theorem fuseBlow_keysFail {s : State} {k : Nat} (h : s.LcTurn k) (hblank : s.lc = Lc.blank) (htarget : s.cfg.lcTarget = Lc.factory) :
    Completes (.lifecycleFuseBlow false) s fun t =>
      t.jobState k = 5 ∧ t.get F.CFG_LC_REASON = 2 ∧ t.cfg.fuses = s.cfg.fuses ∧ t.get F.CFG_LC_STATE = 0 := by
  have hkeys : s.lcKeys = true := by simp [State.lcKeys, hblank, htarget]
  let u := (s.keyProgram.nvDrop Job.lifecycle).put F.CFG_LC_REASON LcReason.keys
  have hp : (s.keyProgram.nvDrop Job.lifecycle).Wf := h.wf
  have hu : u.Wf := State.put_wf hp
  have hk4 := State.findJob_lt h.job
  have hregs : Frame [.reg A.CFG_LC] [.cfg, .nvmw] s u := .put (.op (State.nvDrop_frame _ _) (.cfg .refl rfl rfl) rfl) rfl
  have hjob : u.findJob Job.lifecycle = some k := ((hregs.sameSlots rfl).findJob _).trans h.job
  have hend : exec (.lifecycleFuseBlow false) s = .next (u.jobEnd k Job.failed) := by
    rw [h.exec_eq, State.lcReady, hkeys, if_pos rfl, if_pos (by decide)]
    exact congrArg Host.Outcome.next (State.jobEndOf_eq hjob _)
  have hframe := u.jobEnd_frame k Job.failed
  refine ⟨_, hend, State.jobEnd_state hu k (by decide), ?_, ?_, ?_⟩
  · exact (hframe.get (covers_endSpans hk4 (by decide))).trans (State.get_put_self hp (by decide))
  · have hcfg : (u.jobEnd k Job.failed).cfg = u.cfg := hframe.part .cfg rfl
    exact (congrArg Cfg.fuses hcfg).trans rfl
  · refine (hframe.get (covers_endSpans hk4 (by decide))).trans ((State.get_put_ne hp (by decide) (by decide)).trans ?_)
    exact hblank

/-- Settles O52: a key word replaces its number's; a fuse is blown in the turn of the life cycle and the last one commits; a
group of the self-test judges its banks, and the last one puts layer memory into service. -/
theorem keysLifeCycleSelfTest : Obligations.KeysLifeCycleSelfTest := by
  unfold Obligations.KeysLifeCycleSelfTest
  refine ⟨fun who n v s hw => ⟨fun hblank => ?_, fun hlc => ?_⟩, fun b s w ws k hs hrecs htasks howner hrun hok hidle hjob => ?_,
    fun banks rams s hs hrecs hpost hrun hjob hstop => ⟨fun _ h4 hrams => ?_, fun hg => ?_⟩⟩
  · obtain ⟨hnew, hold⟩ := find?_replace n.toNat v s.cfg.keyIn
    have hstored : exec (.keyWrite who n v) s = .next ({ s with cfg := { s.cfg with
        keyIn := (n.toNat, v) :: s.cfg.keyIn.filter fun e => e.1 != n.toNat } } : State).accepted := by
      rw [execKeyWrite_open hw, State.keyWrite, if_pos (show s.lc = Lc.blank from hblank)]
    refine ⟨_, hstored, ?_⟩
    exact ⟨hnew, hold, rfl, rfl⟩
  · rw [execKeyWrite_open hw, State.keyWrite, if_neg (show ¬ s.lc = Lc.blank from hlc)]
  · have hturn : s.LcTurn k := ⟨hs, hrecs, ⟨w, ws, htasks, howner⟩, hrun, by rw [State.flag, hok]; rfl, hidle, hjob⟩
    have hnokeys : ¬ (s.lc = 0 ∧ s.cfg.lcTarget = 1) → s.lcKeys = false := fun hn => by
      simpa [State.lcKeys, Lc.blank, Lc.factory] using hn
    refine ⟨fun hn hlt => fuseBlow_short hturn (hnokeys hn) hlt, fun hn hlast hlt => ?_, fun h3 h4 => ?_, fun ⟨hblank, h1⟩ h0 => ?_,
      fun ⟨hblank, h1⟩ => fuseBlow_keysFail hturn hblank h1⟩
    · obtain ⟨u, hu, hflt, hcfg, hexec, hframe, htold⟩ :=
        fuseBlow_commits (b := b) hturn (by rw [hnokeys hn]; rfl) hlast (by omega)
      rw [State.lcReady, hnokeys hn, if_neg (by decide)] at hcfg
      have hlc4 : u.cfg.lcTarget < 4 := by rw [hcfg]; exact hlt
      have htcfg : u.lcCommit.cfg = u.cfg := Eq.trans (hframe.part .cfg rfl) (State.lcSettled_cfg hlc4)
      refine ⟨_, hexec, htold, ?_, ?_, ?_⟩ <;> rw [htcfg, hcfg]
    · exact fuseBlow_end hturn (hnokeys fun hk => by omega) h3 h4
    · have hkeys : s.lcKeys = true := by simp [State.lcKeys, Lc.blank, Lc.factory, hblank, h1]
      obtain ⟨u, hu, hflt, hcfg, hexec, hframe, htold⟩ := fuseBlow_commits (b := true) hturn (by simp) (by omega) (by omega)
      rw [State.lcReady, hkeys, if_pos rfl] at hcfg
      have hlc4 : u.cfg.lcTarget < 4 := by
        rw [hcfg]
        exact Nat.lt_of_le_of_lt (Nat.le_of_eq h1) (by decide)
      have htcfg : u.lcCommit.cfg = u.cfg := Eq.trans (hframe.part .cfg rfl) (State.lcSettled_cfg hlc4)
      refine ⟨_, hexec, htold, ?_, ?_, ?_⟩
      · rw [htcfg, hcfg, h1]
      · rw [htcfg, hcfg]
        rfl
      · rw [htcfg, hcfg]
        rfl
  · exact postGroupDone_next hs hpost hrun hjob hstop rfl h4 hrams
  · exact postGroupDone_last hs hpost hrun hjob hstop hg

end Sys2Proof.Machine
end

section
/-!
The work of jobs: suspension, the writer of the non-volatile memory, images and their loading (R89, R402, R405, R410, R438).
-/

namespace Sys2Proof.Machine

/-! ### A job is suspended at its point (R89, R438) -/

theorem setSuspend_off (s : State) {k : Nat} (hk : k < 4) : (s.setSuspend k false).pwr.suspend.getLsbD k = false := by
  change (s.pwr.suspend &&& ~~~ BitVec.ofNat 4 (2 ^ k)).getLsbD k = false
  interval_cases k <;> simp

/-- The slot of a job that is suspended, before the owner notes its position. -/
def State.slotSuspended (s : State) (k : Nat) : State := (s.setSuspend k false).put (F.PWR_JOBn_STATUS_STATE k) Job.suspended

theorem State.slotSuspended_frame (s : State) (k : Nat) : Frame [.reg (A.PWR_JOBn_STATUS k)] [.pwr] s (s.slotSuspended k) :=
  .put (.pwr .refl rfl) writes_slot

theorem State.slotSuspended_state {s : State} (hs : s.Wf) (k : Nat) : (s.slotSuspended k).jobState k = 2 :=
  State.get_put_self (s := s.setSuspend k false) hs (jobState_ok k)

theorem execJobSuspended_point {n : BitVec 2} {pos : Nat} {s : State} (hwait : s.pwr.suspend.getLsbD n.toNat = true)
    (hrun : s.jobState n.toNat = 1) (hpoint : s.atSuspension (s.jobType n.toNat) pos = true) :
    exec (.jobSuspended n pos) s = .next ((s.slotSuspended n.toNat).suspendWork (s.jobType n.toNat) pos) := by
  change execJobSuspended n pos s = _
  unfold execJobSuspended
  dsimp only
  rw [hwait, hrun, hpoint, if_pos (by decide)]
  rfl

theorem State.scanTo_regs (s : State) (j : ScanJob) (pos : Nat) : (s.scanTo j pos).regs = (s.put F.CHK_PROGRESS_DONE pos).regs := rfl

/-- A scan is suspended at a tile boundary, with the bytes read so far. -/
theorem jobSuspended_scan {n : BitVec 2} {pos : Nat} {s : State} {j : ScanJob} (hs : s.Wf) (hwait : s.pwr.suspend.getLsbD n.toNat = true)
    (hrun : s.jobState n.toNat = 1) (htype : s.jobType n.toNat = Job.memScan) (hj : s.lmc.scan = some j) (hle : j.pos ≤ pos)
    (hlen : pos ≤ j.len) (hpos : pos < 2 ^ 26) (htile : pos = 0 ∨ (j.addr + pos) % 4096 = 0) :
    Completes (.jobSuspended n pos) s fun t => t.jobState n.toNat = 2 ∧ t.pwr.suspend.getLsbD n.toNat = false ∧
      t.get F.CHK_PROGRESS_DONE = pos ∧ t.lmc.scan.map (fun j => j.pos) = some pos := by
  have hpoint : s.atSuspension (s.jobType n.toNat) pos = true := by
    rw [htype, State.atSuspension, if_pos rfl, hj]
    simp [ScanJob.boundary, hle, hlen, htile]
  have hwork : (s.slotSuspended n.toNat).suspendWork (s.jobType n.toNat) pos = (s.slotSuspended n.toNat).scanTo j pos := by
    have hscan : (s.slotSuspended n.toNat).lmc.scan = some j := hj
    rw [htype, State.suspendWork, if_pos rfl, hscan]
  have hwf := (s.slotSuspended_frame n.toNat).wf hs
  have hscan : Frame [.reg A.CHK_PROGRESS] [.lmc] (s.slotSuspended n.toNat) ((s.slotSuspended n.toNat).scanTo j pos) :=
    .lmc (.put .refl rfl) rfl
  have hdone : ((s.slotSuspended n.toNat).scanTo j pos).get F.CHK_PROGRESS_DONE = pos := by
    have hput : ((s.slotSuspended n.toNat).put F.CHK_PROGRESS_DONE pos).get F.CHK_PROGRESS_DONE = pos :=
      (State.get_put_self hwf (by decide)).trans (Nat.mod_eq_of_lt hpos)
    unfold State.get State.reg at hput ⊢
    rw [State.scanTo_regs]
    exact hput
  have hat : ((s.slotSuspended n.toNat).scanTo j pos).lmc.scan.map (fun j => j.pos) = some pos := rfl
  have hexec := (execJobSuspended_point hwait hrun hpoint).trans (congrArg Host.Outcome.next hwork)
  generalize (s.slotSuspended n.toNat).scanTo j pos = t at hscan hdone hat hexec
  refine ⟨t, hexec, ?_, ?_, hdone, hat⟩
  · have hprogress : A.PWR_JOBn_STATUS n.toNat ≠ A.CHK_PROGRESS := by
      simp only [A.PWR_JOBn_STATUS, A.CHK_PROGRESS]
      omega
    exact (hscan.get (covers_reg_cons (L := []) hprogress)).trans (State.slotSuspended_state hs _)
  · have hpwr : t.pwr = (s.slotSuspended n.toNat).pwr := hscan.part .pwr rfl
    rw [hpwr]
    exact setSuspend_off s n.isLt

/-- An IMAGE_LOAD is suspended anywhere. -/
theorem jobSuspended_load {n : BitVec 2} {pos : Nat} {s : State} (hs : s.Wf) (hwait : s.pwr.suspend.getLsbD n.toNat = true)
    (hrun : s.jobState n.toNat = 1) (htype : s.jobType n.toNat = Job.imageLoad) :
    Completes (.jobSuspended n pos) s fun t => t.jobState n.toNat = 2 ∧ t.pwr.suspend.getLsbD n.toNat = false ∧
      RegsBut [A.PWR_JOBn_STATUS n.toNat] s t ∧ t.cfg = s.cfg := by
  have hexec := execJobSuspended_point (pos := pos) hwait hrun (by rw [htype]; rfl)
  rw [htype] at hexec
  exact ⟨_, hexec, State.slotSuspended_state hs _, setSuspend_off s n.isLt,
    (s.slotSuspended_frame n.toNat).regsBut (by simp [within, Span.reg]), rfl⟩

/-! ### The writer (R410) -/

section
variable {s : State} {w : NvmTask} {ws : List NvmTask} {u : Nat × List Byte} {us : List (Nat × List Byte)}

/-- The writer whose turn it is may start a unit. -/
theorem execNvmUnitStart_turn (htasks : s.nvmw.tasks = w :: ws) (hidle : s.nvmw.unit = none) (hrun : s.coreRun = true)
    (hok : s.get F.THM_STATUS_NVM_OK = 1) (hheld : s.taskHeld w = false) (howner : w.owner ≠ Job.lifecycle) (hnv : ¬ (w.owner = Job.nvmWrite ∧ w.units = [])) :
    exec .nvmUnitStart s = .next (if w.owner = 0 ∧ w.units = [] then s.floorNext.unitBegin else s.unitBegin) := by
  have hflag : s.flag F.THM_STATUS_NVM_OK = true := by
    rw [State.flag, hok]
    rfl
  change execNvmUnitStart s = _
  unfold execNvmUnitStart
  rw [htasks]
  dsimp only
  rw [if_pos (by simp [hrun, hidle, hflag, hheld, howner]), if_neg hnv]

theorem State.unitBegin_eq (htasks : s.nvmw.tasks = w :: ws) (hunits : w.units = u :: us) :
    s.unitBegin = { s.put F.CFG_NVM_STATUS_UNIT 1 with nvmw := { s.nvmw with unit := some u } } := by
  unfold State.unitBegin
  rw [htasks]
  dsimp only
  rw [hunits]

/-- The first unit of the writer whose turn it is starts. -/
theorem nvmUnitStart_first (hs : s.Wf) (htasks : s.nvmw.tasks = w :: ws) (hunits : w.units = u :: us) (hidle : s.nvmw.unit = none)
    (hrun : s.coreRun = true) (hok : s.get F.THM_STATUS_NVM_OK = 1) (hheld : s.taskHeld w = false) (howner : w.owner ≠ Job.lifecycle) :
    Completes .nvmUnitStart s fun t =>
      t.nvmw.unit = some u ∧ t.nvmw.tasks = s.nvmw.tasks ∧ t.get F.CFG_NVM_STATUS_UNIT = 1 ∧ t.nvm = s.nvm ∧ t.lmem = s.lmem ∧
      RegsBut [A.CFG_NVM_STATUS] s t := by
  have hsome : ∀ n, ¬ (w.owner = n ∧ w.units = []) := fun _ h => List.cons_ne_nil u us (hunits.symm.trans h.2)
  have hexec := execNvmUnitStart_turn htasks hidle hrun hok hheld howner (hsome _)
  rw [if_neg (hsome 0), State.unitBegin_eq htasks hunits] at hexec
  have hframe : Frame [.reg A.CFG_NVM_STATUS] [] s (s.put F.CFG_NVM_STATUS_UNIT 1) := .put .refl rfl
  exact ⟨_, hexec, rfl, rfl, State.get_put_self hs (by decide), rfl, rfl, hframe.regsBut rfl⟩

theorem State.floorUnit_length (s : State) (floor : Nat) : (s.floorUnit floor).2.length = 64 := by
  simp [State.floorUnit, State.unitWith, State.nvBytes, leBytes]

/-- A floor write forms its unit as its turn comes. -/
theorem nvmUnitStart_floor (htasks : s.nvmw.tasks = w :: ws) (howner : w.owner = 0) (hunits : w.units = []) (hidle : s.nvmw.unit = none)
    (hrun : s.coreRun = true) (hok : s.get F.THM_STATUS_NVM_OK = 1) :
    Completes .nvmUnitStart s fun t =>
      ∃ bytes, t.nvmw.unit = some (lcRecordAddr s.floorTarget.1, bytes) ∧
        t.nvmw.tasks = { w with units := [(lcRecordAddr s.floorTarget.1, bytes)] } :: ws ∧ bytes.length = 64 ∧
        t.get F.CFG_FLOOR_FLOOR = s.get F.CFG_FLOOR_FLOOR ∧ SameMemory s t := by
  have hheld : s.taskHeld w = false := by
    unfold State.taskHeld
    rw [howner]
    rfl
  have hexec := execNvmUnitStart_turn htasks hidle hrun hok hheld (by rw [howner]; decide) (by rw [howner]; simp [Job.nvmWrite])
  have hnext : s.floorNext = { s with nvmw := { s.nvmw with tasks := { w with units := [s.floorUnit w.floor] } :: ws } } := by
    unfold State.floorNext
    rw [htasks]
  rw [if_pos ⟨howner, hunits⟩, hnext, State.unitBegin_eq rfl rfl] at hexec
  exact ⟨_, hexec, (s.floorUnit w.floor).2, rfl, rfl, s.floorUnit_length _, State.get_put_addr (by decide), fun _ => rfl, fun _ => rfl⟩

/-! A unit completes. -/

/-- The state in which the unit in progress has been written, whole. -/
def State.unitStored (s : State) (u : Nat × List Byte) (tasks : List NvmTask) : State :=
  { (s.nvWrite u.1 u.2).put F.CFG_NVM_STATUS_UNIT 0 with nvmw := { s.nvmw with tasks := tasks, unit := none } }

theorem State.unitStored_frame (s : State) (u : Nat × List Byte) (tasks : List NvmTask) :
    Frame [.reg A.CFG_NVM_STATUS] [.nvm, .nvmw, .unit] s (s.unitStored u tasks) :=
  .upd (.put (.op (s.nvWrite_frame u.1 u.2) .refl rfl) rfl) rfl id

/-- What a unit that has been written shows: its bytes, and no other. -/
def UnitStored (s : State) (u : Nat × List Byte) (t : State) : Prop :=
  (∀ i, i < u.2.length → t.nvByte (u.1 + i) = u.2.getD i 0) ∧
    (∀ a, a < u.1 ∨ u.1 + u.2.length ≤ a → t.nvByte a = s.nvByte a) ∧ t.nvmw.unit = none ∧ t.get F.CFG_NVM_STATUS_UNIT = 0

theorem State.unitStored_stored (hs : s.Wf) (u : Nat × List Byte) (tasks : List NvmTask) : UnitStored s u (s.unitStored u tasks) := by
  refine ⟨fun i hi => ?_, fun a ha => State.nvByte_nvWrite_out ha, rfl, State.get_put_self ((s.nvWrite_frame u.1 u.2).wf hs) (by decide)⟩
  rw [List.getD_eq_getElem _ _ hi]
  exact State.nvByte_nvWrite_in hs hi

theorem UnitStored.congr {t t' : State} (h : UnitStored s u t) (hnvm : t'.nvm = t.nvm) (hunit : t'.nvmw.unit = none)
    (hget : t'.get F.CFG_NVM_STATUS_UNIT = t.get F.CFG_NVM_STATUS_UNIT) : UnitStored s u t' := by
  obtain ⟨hin, hout, -, hzero⟩ := h
  have hbyte : ∀ a, t'.nvByte a = t.nvByte a := fun a => congrArg (sparseGet memDefault · a) hnvm
  exact ⟨fun i hi => (hbyte _).trans (hin i hi), fun a ha => (hbyte _).trans (hout a ha), hunit, hget.trans hzero⟩

/-- A unit of the writer whose turn it is has been written; the last one of a task ends it. -/
theorem State.unitDone_turn (htasks : s.nvmw.tasks = w :: ws) (hunits : w.units = u :: us) (hunit : s.nvmw.unit = some u)
    (hlast : us ≠ [] ∨ w.owner ≠ Job.recCheckpoint) :
    s.unitDone =
      if us = [] then ((s.unitStored u ({ w with units := us } :: ws)).gainCommit w.owner u.1).taskDone w.owner
      else (s.unitStored u ({ w with units := us } :: ws)).gainCommit w.owner u.1 := by
  have hcheck : ¬ (w.owner = Job.recCheckpoint ∧ w.units.length = 1) := by
    rintro ⟨howner, hlen⟩
    rw [hunits] at hlen
    exact hlast.elim (fun h => h (List.length_eq_zero_iff.1 (Nat.succ.inj hlen))) (fun h => h howner)
  have hone : (w.units.length = 1) = (us = []) := by
    rw [hunits]
    simp
  unfold State.unitDone
  rw [hunit, htasks]
  dsimp only
  rw [if_neg (by rw [hunits]; simp), if_neg hcheck]
  simp only [hone]
  rw [hunits]
  unfold State.unitWrite
  simp only [hunit]
  rfl

theorem State.gainCommit_other (s : State) {o : Nat} (ho : o ≠ Job.nvmWrite) (a : Nat) : s.gainCommit o a = s := by
  unfold State.gainCommit
  rw [if_neg]
  simp [ho]

theorem execNvmUnitDone_eq (s : State) : exec .nvmUnitDone s = .next s.unitDone := rfl

/-- A unit before the last of its task. -/
theorem nvmUnitDone_next (hs : s.Wf) (htasks : s.nvmw.tasks = w :: ws) (hunits : w.units = u :: us) (hunit : s.nvmw.unit = some u)
    (hmore : us ≠ []) (howner : w.owner ≠ Job.nvmWrite) :
    Completes .nvmUnitDone s fun t =>
      UnitStored s u t ∧ t.nvmw.tasks = { w with units := us } :: ws ∧ RegsBut [A.CFG_NVM_STATUS] s t := by
  refine ⟨_, (execNvmUnitDone_eq s).trans (congrArg Host.Outcome.next (State.unitDone_turn htasks hunits hunit (.inl hmore))), ?_⟩
  rw [if_neg hmore, State.gainCommit_other _ howner]
  exact ⟨State.unitStored_stored hs u _, rfl, (State.unitStored_frame s u _).regsBut rfl⟩

/-- The unit of a floor write: its floor is in force, and the writers behind it go on waiting. -/
theorem nvmUnitDone_floor (hs : s.Wf) (htasks : s.nvmw.tasks = w :: ws) (hunits : w.units = [u]) (hunit : s.nvmw.unit = some u)
    (howner : w.owner = 0) :
    Completes .nvmUnitDone s fun t => UnitStored s u t ∧ t.nvmw.tasks = ws ∧ t.get F.CFG_FLOOR_FLOOR = w.floor % 65536 ∧
      RegsBut [A.CFG_NVM_STATUS, A.CFG_FLOOR] s t := by
  let t0 := s.unitStored u ({ w with units := [] } :: ws)
  have h0 : Frame [.reg A.CFG_NVM_STATUS, .reg A.CFG_FLOOR] [.nvm, .nvmw, .unit] s t0 := (s.unitStored_frame u _).mono rfl
  have hdone : s.unitDone = { t0.put F.CFG_FLOOR_FLOOR w.floor with nvmw := { t0.nvmw with tasks := ws } } := by
    rw [State.unitDone_turn htasks hunits hunit (.inr (by rw [howner]; decide)), if_pos rfl, howner, State.gainCommit_other _ (by decide)]
    rfl
  have hframe : Frame [.reg A.CFG_NVM_STATUS, .reg A.CFG_FLOOR] [.nvm, .nvmw, .unit] s
      { t0.put F.CFG_FLOOR_FLOOR w.floor with nvmw := { t0.nvmw with tasks := ws } } := .upd (.put h0 rfl) rfl id
  refine ⟨_, (execNvmUnitDone_eq s).trans (congrArg Host.Outcome.next hdone), ?_, rfl, ?_, hframe.regsBut rfl⟩
  · exact (State.unitStored_stored hs u ({ w with units := [] } :: ws)).congr rfl rfl (State.get_put_addr (by decide))
  · exact State.get_put_self (h0.wf hs) (by decide)

/-- A span of one slot lies clear of a register that is none of the slots'. -/
theorem covers_jobReg {k a : Nat} (hk : k < 4) (ha : a ∉ jobRegs) : covers [.reg (A.PWR_JOBn_STATUS k)] a = false := by
  have hne : a ≠ A.PWR_JOBn_STATUS k := by
    rintro rfl
    exact ha (jobReg_mem hk)
  rw [covers_reg_cons hne]
  rfl

/-- The row table commits the last row of an NVM_WRITE (R412). -/
theorem State.gainCommit_effect {k : Nat} (hs : s.Wf) (hk : s.findJob Job.nvmWrite = some k) (o a : Nat) :
    Frame [.reg (A.PWR_JOBn_STATUS k)] [] s (s.gainCommit o a) ∧ (s.gainCommit o a).findJob Job.nvmWrite = some k := by
  unfold State.gainCommit
  split
  · rw [State.jobCommitOf_eq hk]
    exact ⟨s.jobCommit_frame k, (State.findJob_congr (fun _ hn => State.jobCommit_same hs k hn) _).trans hk⟩
  · exact ⟨.refl, hk⟩

/-- An NVM_WRITE whose last unit is written ends DONE. -/
theorem State.nvDone_effect {k : Nat} (hs : s.Wf) (hk : s.findJob Job.nvmWrite = some k) :
    Frame (.reg A.CFG_NVM_STATUS :: endSpans k) [.nvmw, .lnk] s s.nvDone ∧ s.nvDone.jobState k = 3 ∧
      s.nvDone.get (F.PWR_JOBn_STATUS_COMMITTED k) = 1 ∧ s.nvDone.get F.CFG_NVM_STATUS_RESULT = 1 ∧
      (s.nvDone.reg A.GLB_IRQ_STATUS).getLsbD 19 = true ∧ s.nvDone.get F.CFG_NVM_STATUS_UNIT = s.get F.CFG_NVM_STATUS_UNIT := by
  let d := (s.nvDrop Job.nvmWrite).put F.CFG_NVM_STATUS_RESULT 1
  have hd : Frame [.reg A.CFG_NVM_STATUS] [.nvmw] s d := .put (.op (s.nvDrop_frame _) .refl rfl) rfl
  have hdwf := hd.wf hs
  have hk4 := State.findJob_lt hk
  have heq : s.nvDone = (d.jobCommit k).jobEnd k Job.done := State.jobOver_eq hdwf (((hd.sameSlots rfl).findJob _).trans hk) _
  obtain ⟨hover, hstate, hcommitted, hevent⟩ := State.jobOver_effect hdwf k (st := Job.done) (by decide)
  have hget : ∀ f : Field, f.addr = A.CFG_NVM_STATUS → ((d.jobCommit k).jobEnd k Job.done).get f = d.get f := fun f hf =>
    hover.get (hf ▸ covers_endSpans hk4 (by decide))
  rw [heq]
  refine ⟨.trans (hd.mono (by simp [within, Span.reg])) (hover.mono (by simp [within, Span.reg])), hstate, hcommitted, ?_, hevent, ?_⟩
  · exact (hget _ rfl).trans (State.get_put_self hs (by decide))
  · exact (hget _ rfl).trans (State.get_put_ne hs (by decide) (by decide))

/-- The last unit of an NVM_WRITE. -/
theorem nvmUnitDone_written {k : Nat} (hs : s.Wf) (htasks : s.nvmw.tasks = w :: ws) (hunits : w.units = [u]) (hunit : s.nvmw.unit = some u)
    (howner : w.owner = Job.nvmWrite) (hend : s.cfg.nvLen ≤ s.cfg.nvPos) (hk : s.findJob Job.nvmWrite = some k) :
    Completes .nvmUnitDone s fun t => UnitStored s u t ∧ t.jobState k = 3 ∧ t.get (F.PWR_JOBn_STATUS_COMMITTED k) = 1 ∧
      t.get F.CFG_NVM_STATUS_RESULT = 1 ∧ (t.reg A.GLB_IRQ_STATUS).getLsbD 19 = true := by
  have h0 := s.unitStored_frame u ({ w with units := [] } :: ws)
  have hstored := State.unitStored_stored hs u ({ w with units := [] } :: ws)
  have hk0 := ((h0.sameSlots rfl).findJob Job.nvmWrite).trans hk
  have hlen : (s.unitStored u ({ w with units := [] } :: ws)).cfg = s.cfg := rfl
  obtain ⟨hcommit, hkc⟩ := State.gainCommit_effect (h0.wf hs) hk0 w.owner u.1
  have hdone : s.unitDone = ((s.unitStored u ({ w with units := [] } :: ws)).gainCommit w.owner u.1).taskDone w.owner := by
    rw [State.unitDone_turn htasks hunits hunit (.inr (by rw [howner]; decide)), if_pos rfl]
  have hwf := hcommit.wf (h0.wf hs)
  have hk4 := State.findJob_lt hk
  have hunit0 : (s.unitStored u ({ w with units := [] } :: ws)).nvmw.unit = none := rfl
  generalize s.unitStored u ({ w with units := [] } :: ws) = t0 at hstored hcommit hlen hunit0 hkc hdone hwf
  have hcfg : (t0.gainCommit w.owner u.1).cfg = t0.cfg := hcommit.part .cfg rfl
  have hget : (t0.gainCommit w.owner u.1).get F.CFG_NVM_STATUS_UNIT = t0.get F.CFG_NVM_STATUS_UNIT :=
    hcommit.get (covers_jobReg hk4 (by decide))
  have hnvm : (t0.gainCommit w.owner u.1).nvm = t0.nvm := hcommit.part .nvm rfl
  have hnone : (t0.gainCommit w.owner u.1).nvmw.unit = none := Eq.trans (hcommit.part .unit rfl) hunit0
  generalize t0.gainCommit w.owner u.1 = c at *
  have htask : c.taskDone w.owner = c.nvDone := by
    unfold State.taskDone
    rw [howner, if_neg (by decide), if_pos rfl, if_pos (by rw [hcfg, hlen]; exact hend)]
  rw [htask] at hdone
  obtain ⟨hframe, hstate, hcommitted, hresult, hevent, hshown⟩ := State.nvDone_effect hwf hkc
  refine ⟨_, (execNvmUnitDone_eq s).trans (congrArg Host.Outcome.next hdone), ?_, hstate, hcommitted, hresult, hevent⟩
  exact hstored.congr (Eq.trans (hframe.part .nvm rfl) hnvm) (Eq.trans (hframe.part .unit rfl) hnone) (hshown.trans hget)

end

end Sys2Proof.Machine
end

section
/-!
The loading of an image, and a staged image that is dropped (R399, R402, R405).
-/

namespace Sys2Proof.Machine

section
variable {s : State} {k : Nat}

theorem State.imgResult_frame (s : State) (result reason : Nat) : Frame [.reg A.CFG_IMG_STATUS] [] s (s.imgResult result reason) :=
  .ite (.put (.put .refl rfl) rfl) (.put .refl rfl)

/-- An IMAGE_LOAD that ends FAILED. -/
theorem State.loadFail_effect (hs : s.Wf) (hk : s.findJob Job.imageLoad = some k) {r : Nat} (hr : r < 32) :
    (s.loadFail r).jobState k = 5 ∧ (s.loadFail r).get F.CFG_IMG_STATUS_RESULT = 2 ∧ (s.loadFail r).get F.CFG_IMG_STATUS_REASON = r ∧
      (s.loadFail r).cfg = s.cfg ∧ (s.loadFail r).get F.CFG_STATUS_STAGED = s.get F.CFG_STATUS_STAGED := by
  let d := (s.put F.CFG_IMG_STATUS_RESULT 2).put F.CFG_IMG_STATUS_REASON r
  have h1 : (s.put F.CFG_IMG_STATUS_RESULT 2).Wf := State.put_wf hs
  have hd : Frame [.reg A.CFG_IMG_STATUS] [] s d := s.imgResult_frame 2 r
  have hk4 := State.findJob_lt hk
  have heq : s.loadFail r = d.jobEnd k Job.failed := State.jobEndOf_eq (((hd.sameSlots rfl).findJob _).trans hk) _
  have hframe := d.jobEnd_frame k Job.failed
  rw [heq]
  refine ⟨State.jobEnd_state (hd.wf hs) k (by decide), ?_, ?_, ?_, ?_⟩
  · exact (hframe.get (covers_endSpans hk4 (by decide))).trans
      ((State.get_put_ne h1 (by decide) (by decide)).trans (State.get_put_self hs (by decide)))
  · exact (hframe.get (covers_endSpans hk4 (by decide))).trans
      ((State.get_put_self h1 (by decide)).trans (Nat.mod_eq_of_lt hr))
  · exact hframe.part .cfg rfl
  · exact (hframe.get (covers_endSpans hk4 (by decide))).trans (hd.get rfl)

/-- An image that passes is staged, which is the commit point. -/
theorem State.imgStage_passes (hs : s.Wf) (hk : s.findJob Job.imageLoad = some k) (hlc : s.lc ≠ Lc.end_) {bytes : List Byte} {m : Image}
    (hm : imgCheck s.kAuth s.kEnc (s.get F.CFG_FLOOR_FLOOR) bytes = .ok m) :
    (s.imgStage bytes).jobState k = 3 ∧ (s.imgStage bytes).get (F.PWR_JOBn_STATUS_COMMITTED k) = 1 ∧
      (s.imgStage bytes).get F.CFG_STATUS_STAGED = 1 ∧ (s.imgStage bytes).cfg.staged = some m ∧
      (s.imgStage bytes).get F.CFG_IMG_STATUS_GEN = m.gen % 65536 ∧ (s.imgStage bytes).get F.CFG_IMG_STATUS_RESULT = 1 ∧
      (s.imgStage bytes).get F.CFG_STATUS_GEN = s.get F.CFG_STATUS_GEN := by
  let s1 : State := { s with cfg := { s.cfg with staged := some m, stagedSrc := s.cfg.loadSrc, stagedKeyed := !s.keysZero } }
  let s2 := s1.put F.CFG_STATUS_STAGED 1
  let s3 := s2.put F.CFG_IMG_STATUS_GEN m.gen
  let d := s3.put F.CFG_IMG_STATUS_RESULT 1
  have h1 : s1.Wf := hs
  have h2 : s2.Wf := State.put_wf h1
  have h3 : s3.Wf := State.put_wf h2
  have hd : Frame [.reg A.CFG_STATUS, .reg A.CFG_IMG_STATUS] [.cfg] s d := .put (.put (.put (.cfg .refl rfl rfl) rfl) rfl) rfl
  have hk4 := State.findJob_lt hk
  have hdk : d.findJob Job.imageLoad = some k := ((hd.sameSlots rfl).findJob _).trans hk
  have heq : s.imgStage bytes = (d.jobCommit k).jobEnd k Job.done := by
    rw [← State.jobOver_eq (hd.wf hs) hdk, State.imgStage, if_neg hlc, hm]
    rfl
  obtain ⟨hframe, hstate, hcommitted, -⟩ := State.jobOver_effect (hd.wf hs) k (st := Job.done) (by decide)
  have hcfg : ((d.jobCommit k).jobEnd k Job.done).cfg = d.cfg := hframe.part .cfg rfl
  have hget : ∀ f : Field, f.addr ∉ A.GLB_IRQ_STATUS :: A.GLB_IRQ_RAW :: jobRegs →
      ((d.jobCommit k).jobEnd k Job.done).get f = d.get f := fun f hf => hframe.get (covers_endSpans hk4 hf)
  rw [heq]
  refine ⟨hstate, hcommitted, ?_, congrArg Cfg.staged hcfg, ?_, ?_, ?_⟩
  · exact (hget _ (by decide)).trans
      ((State.get_put_addr (by decide)).trans ((State.get_put_addr (by decide)).trans (State.get_put_self h1 (by decide))))
  · exact (hget _ (by decide)).trans ((State.get_put_ne h3 (by decide) (by decide)).trans (State.get_put_self h2 (by decide)))
  · exact (hget _ (by decide)).trans (State.get_put_self h3 (by decide))
  · exact (hget _ (by decide)).trans
      ((State.get_put_addr (by decide)).trans ((State.get_put_addr (by decide)).trans (State.get_put_ne h1 (by decide) (by decide))))

theorem State.imgStage_fails {bytes : List Byte} {r : Nat} (hlc : s.lc ≠ Lc.end_)
    (hm : imgCheck s.kAuth s.kEnc (s.get F.CFG_FLOOR_FLOOR) bytes = .error r) : s.imgStage bytes = s.loadFail r := by
  rw [State.imgStage, if_neg hlc, hm]

theorem execImageStaged_flash {bytes : List Byte} (hrun : s.coreRun = true) (hk : s.findRunning Job.imageLoad = some k)
    (hsrc : s.cfg.loadSrc ≠ 3) : exec (.imageStaged bytes) s = .next (s.imgStage bytes) := by
  change execImageStaged bytes s = _
  unfold execImageStaged
  rw [hrun, hk, if_pos (by rfl), if_neg hsrc]

theorem execBodyReadTimeout_due (hk : s.findRunning Job.imageLoad = some k) (hticks : 50000 ≤ s.cfg.loadTicks) :
    exec .bodyReadTimeout s = .next (s.loadFail Reason.timeout) := by
  change execBodyReadTimeout s = _
  unfold execBodyReadTimeout timeUp
  rw [hk, if_pos]
  simp only [Option.isSome_some, Bool.true_and, decide_eq_true_eq]
  omega

/-- CFG_IMG has no shadow. -/
theorem State.imgReg_frame (s : State) (v : Word) : Frame [.reg A.CFG_IMG] [] s (s.regWrite A.CFG_IMG v) := by
  unfold State.regWrite
  dsimp only
  rw [if_pos (by rfl)]
  exact .setReg .refl rfl

/-- A write of CFG_IMG takes SRC. -/
theorem State.imgReg_src (hs : s.Wf) (v : Word) : (s.regWrite A.CFG_IMG (v ||| 0x100#32)).get F.CFG_IMG_SRC = v.toNat % 4 := by
  have hbit : ∀ i, i < 2 → ((s.regWrite A.CFG_IMG (v ||| 0x100#32)).reg A.CFG_IMG).getLsbD i = v.getLsbD i := by
    intro i hi
    rw [State.regWrite_bit hs (by omega), show accessMask .w1s A.CFG_IMG = 0#32 from rfl, show accessMask .w1c A.CFG_IMG = 0#32 from rfl,
      show accessMask .rw A.CFG_IMG = 3#32 from rfl]
    interval_cases i <;> simp
  refine Nat.eq_of_testBit_eq fun i => ?_
  change (wordGet ((s.regWrite A.CFG_IMG (v ||| 0x100#32)).reg A.CFG_IMG) 1 0).testBit i = _
  rw [wordGet_testBit, show 4 = 2 ^ 2 from rfl, Nat.testBit_mod_two_pow, Nat.zero_add]
  by_cases hi : i < 2
  · rw [hbit i hi]
    rfl
  · simp [hi]

/-- DROP is the bit 8 of CFG_IMG. -/
theorem imgDrop_set (v : Word) : wordGet (v ||| 0x100#32) 8 8 = 1 := by
  refine Nat.eq_of_testBit_eq fun i => ?_
  rw [wordGet_testBit]
  cases i with
  | zero => simp
  | succ i => simp [Nat.testBit_succ]

/-- DROP discards a staged image. -/
theorem dropImage_drops {who : Initiator} {v : Word} (hs : s.Wf) (hw : s.writable A.CFG_IMG) (hk : s.findJob Job.restructure = none) :
    Completes (.dropImage who v) s fun t =>
      t.get F.CFG_STATUS_STAGED = 0 ∧ t.cfg.staged = none ∧ t.get F.CFG_IMG_SRC = v.toNat % 4 ∧
        RegsBut [A.CFG_STATUS, A.CFG_IMG] s t := by
  let s1 := s.regWrite A.CFG_IMG (v ||| 0x100#32)
  have h1 := s.imgReg_frame (v ||| 0x100#32)
  have hdropped : Frame [.reg A.CFG_STATUS, .reg A.CFG_IMG] [.cfg] s s1.dropStaged :=
    .cfg (.put (h1.mono rfl) rfl) rfl rfl
  have hexec : exec (.dropImage who v) s = .next s1.dropStaged.accepted := by
    refine (congrArg Host.Outcome.next (State.portWrite_open hw)).trans ?_
    rw [State.imgWrite, if_pos ⟨imgDrop_set v, by rw [hk]; rfl⟩]
  refine ⟨_, hexec, State.get_put_self (h1.wf hs) (by decide), rfl, ?_, fun a ha => ?_⟩
  · exact (State.get_put_addr (by decide)).trans (State.imgReg_src hs v)
  · exact hdropped.regsBut rfl a ha

end

end Sys2Proof.Machine
end

section
/-!
A field that an operation leaves, and a restructure that is given up (R282, R407).
-/

namespace Sys2Proof.Machine

/-! ### A field that is left -/

/-- The field `f` reads in `t` as in `s`, and the canonical form stays. -/
structure KeepsField (f : Field) (s t : State) : Prop where
  wf : s.Wf → t.Wf
  get : s.Wf → t.get f = s.get f

namespace KeepsField

variable {f : Field} {s t u : State}

theorem refl : KeepsField f s s := ⟨id, fun _ => rfl⟩

theorem trans (h : KeepsField f s t) (h' : KeepsField f t u) : KeepsField f s u :=
  ⟨fun hs => h'.wf (h.wf hs), fun hs => (h'.get (h.wf hs)).trans (h.get hs)⟩

theorem of_frame {L : List Span} {ps : List Part} (h : Frame L ps s t) (hd : covers L f.addr = false) : KeepsField f s t :=
  ⟨h.wf, fun _ => h.get hd⟩

theorem op {L : List Span} {ps : List Part} (h' : Frame L ps t u) (h : KeepsField f s t) (hd : covers L f.addr = false) :
    KeepsField f s u := h.trans (.of_frame h' hd)

/-- A write of another field. -/
theorem put {g : Field} {v : Nat} (h : KeepsField f s t)
    (hg : (g.hi < 32 ∧ g.lo ≤ g.hi) ∧ (f.addr ≠ g.addr ∨ f.hi < g.lo ∨ g.hi < f.lo)) : KeepsField f s (t.put g v) :=
  h.trans ⟨State.put_wf, fun ht => State.get_put_ne ht hg.1 hg.2⟩

/-- A part other than the registers. -/
theorem upd {t' : State} (h : KeepsField f s t) (hregs : t'.regs = t.regs) (hwf : t.Wf → t'.Wf) : KeepsField f s t' :=
  h.trans ⟨hwf, fun _ => by unfold State.get State.reg; rw [hregs]⟩

theorem ite {c : Prop} [Decidable c] {a b : State} (ha : KeepsField f s a) (hb : KeepsField f s b) :
    KeepsField f s (if c then a else b) := by
  split
  · exact ha
  · exact hb

end KeepsField

/-! ### The request of CFG (R295, R407) -/

theorem State.safGoto_keepsRequest (s : State) (n : Nat) : KeepsField F.SAF_STATE_REQ_CFG s (s.safGoto n) :=
  .ite .refl (.op (L := [.reg A.GLB_IRQ_STATUS, .reg A.GLB_IRQ_RAW]) (ps := [.lnk]) (.irq .refl rfl) (.put .refl (by decide)) rfl)

/-- The island follows its conditions, and leaves the request of CFG. -/
theorem State.safRefresh_keepsRequest (s : State) : KeepsField F.SAF_STATE_REQ_CFG s s.safRefresh := by
  refine .op (State.netsTrack_frame _) ?_ rfl
  unfold State.safRefreshRaw
  split
  · exact .refl
  · extract_lets t w shows entry s0 saf s1
    have h1 : KeepsField F.SAF_STATE_REQ_CFG s s1 := .upd (.put (s.safGoto_keepsRequest t) (by decide)) rfl id
    split
    · split
      · exact .op (State.oasisEntry_frame ..) h1 rfl
      · next s2 =>
        have h2 : KeepsField F.SAF_STATE_REQ_CFG s ((s1.oasisEntry w.2).raise Code.SAF_OASIS_NONE 0) :=
          .op (L := []) (ps := [.flt]) (.raise .refl rfl) (.op (State.oasisEntry_frame ..) h1 rfl) rfl
        exact .trans (.op (State.driveLrm_frame ..) (.put h2 (by decide)) rfl) (State.safGoto_keepsRequest _ _)
    · exact h1

/-- The request of CFG as it is placed or withdrawn. -/
theorem State.cfgRequest_shown {s : State} (hs : s.Wf) (on : Bool) (hheld : s.saf.held = false) :
    (s.cfgRequest on).get F.SAF_STATE_REQ_CFG = b2n on := by
  have hput : (s.putB F.SAF_STATE_REQ_CFG on).Wf := State.put_wf hs
  have heq : s.cfgRequest on = (s.putB F.SAF_STATE_REQ_CFG on).safRefresh := by
    unfold State.cfgRequest
    rw [hheld, if_neg (by decide)]
  rw [heq, (State.safRefresh_keepsRequest _).get hput]
  exact (State.get_put_self hs (by decide)).trans (by cases on <;> rfl)

/-! ### A restructure that is given up (R407) -/

/-- RESTRUCTURE_NO_OASIS: the job fails, the request is withdrawn, the structure stays. -/
theorem restructureNoOasis_fails {s : State} {k : Nat} (hs : s.Wf) (hk : s.findJob Job.restructure = some k)
    (hphase : s.get F.CFG_RS_STATUS_PHASE = 1) (hinstants : 8 ≤ s.cfg.rsInstants) (hheld : s.saf.held = false) :
    Completes .restructureNoOasis s fun t => t.jobState k = 5 ∧ t.get F.CFG_RS_STATUS_PHASE = 0 ∧ t.get F.CFG_RS_STATUS_RESULT = 2 ∧
      t.get F.CFG_RS_STATUS_REASON = 16 ∧ t.get F.SAF_STATE_REQ_CFG = 0 ∧ t.cfg.staged = s.cfg.staged ∧
      t.get F.LPE_TOPO_N_PH = s.get F.LPE_TOPO_N_PH ∧ (t.reg A.GLB_IRQ_STATUS).getLsbD 19 = true := by
  let s1 := s.put F.CFG_RS_STATUS_PHASE 0
  let s2 := s1.put F.CFG_RS_STATUS_RESULT 2
  let s3 := s2.put F.CFG_RS_STATUS_REASON Reason.noOasis
  let s4 : State := { s3 with cfg := { s3.cfg with rsNow := false } }
  let e := s4.cfgRequest false
  have h1 : s1.Wf := State.put_wf hs
  have h2 : s2.Wf := State.put_wf h1
  have h4 : Frame [.reg A.CFG_RS_STATUS] [.cfg] s s4 := .cfg (.put (.put (.put .refl rfl) rfl) rfl) rfl rfl
  have h4wf := h4.wf hs
  have he : Frame islandSpans islandParts s4 e := State.cfgRequest_frame s4 false
  have hrequest : e.get F.SAF_STATE_REQ_CFG = 0 := State.cfgRequest_shown h4wf false hheld
  have hslots : SameSlots s e := (h4.sameSlots rfl).trans (he.sameSlots rfl)
  have hexec : exec .restructureNoOasis s = .next (e.jobEnd k Job.failed) := by
    change execRestructureNoOasis s = _
    unfold execRestructureNoOasis
    rw [hk, hphase, if_pos (by simpa using hinstants)]
    exact congrArg Host.Outcome.next (State.jobEndOf_eq (ty := Job.restructure) ((hslots.findJob _).trans hk) _)
  have hk4 := State.findJob_lt hk
  have hewf := he.wf h4wf
  have hstatus : ∀ f : Field, f.addr = A.CFG_RS_STATUS → e.get f = s4.get f := fun f hf => he.get (by rw [hf]; rfl)
  have hphase0 : s4.get F.CFG_RS_STATUS_PHASE = 0 :=
    (State.get_put_ne h2 (by decide) (by decide)).trans ((State.get_put_ne h1 (by decide) (by decide)).trans (State.get_put_self hs (by decide)))
  have hresult : s4.get F.CFG_RS_STATUS_RESULT = 2 := (State.get_put_ne h2 (by decide) (by decide)).trans (State.get_put_self h1 (by decide))
  have hreason : s4.get F.CFG_RS_STATUS_REASON = 16 := State.get_put_self h2 (by decide)
  have htopo : e.get F.LPE_TOPO_N_PH = s.get F.LPE_TOPO_N_PH := (he.get rfl).trans (h4.get rfl)
  have hecfg : e.cfg = s4.cfg := he.part .cfg rfl
  have hstaged : e.cfg.staged = s.cfg.staged := (congrArg Cfg.staged hecfg).trans rfl
  generalize e = e at *
  have hend := e.jobEnd_frame k Job.failed
  have hget : ∀ f : Field, f.addr ∉ A.GLB_IRQ_STATUS :: A.GLB_IRQ_RAW :: jobRegs → (e.jobEnd k Job.failed).get f = e.get f :=
    fun f hf => hend.get (covers_endSpans hk4 hf)
  have hcfg : (e.jobEnd k Job.failed).cfg = e.cfg := hend.part .cfg rfl
  refine ⟨_, hexec, State.jobEnd_state hewf k (by decide), ?_, ?_, ?_, ?_, ?_, ?_, State.jobEnd_event hewf k _⟩
  · exact (hget _ (by decide)).trans ((hstatus _ rfl).trans hphase0)
  · exact (hget _ (by decide)).trans ((hstatus _ rfl).trans hresult)
  · exact (hget _ (by decide)).trans ((hstatus _ rfl).trans hreason)
  · exact (hget _ (by decide)).trans hrequest
  · exact (congrArg Cfg.staged hcfg).trans hstaged
  · exact (hget _ (by decide)).trans htopo

end Sys2Proof.Machine
end

section
/-!
What the swap of a restructure rests on while the sections of its image are applied (R398, R407, R408): the slots of its type,
the phases, and that no commit is armed.
-/

namespace Sys2Proof.Machine

/-! ### The relation -/

/-- The registers of the job slots, of the phases and of the commit. -/
abbrev swapRegs : List Nat := A.LPE_TOPO :: A.GLB_COMMIT_STATUS :: jobRegs

/-- The phases of the structure, and whether a commit is armed. -/
abbrev swapFields : List Field := [F.LPE_TOPO_N_PH, F.GLB_COMMIT_STATUS_STATE]

/-- The types of the slots, the states of those of a RESTRUCTURE, the phases and the armed commit are in `t` as in `s`. -/
structure SwapKept (s t : State) : Prop where
  wf : s.Wf → t.Wf
  jobType : s.Wf → ∀ n, n < 4 → t.jobType n = s.jobType n
  jobState : s.Wf → ∀ n, n < 4 → s.jobType n = Job.restructure → t.jobState n = s.jobState n
  field : s.Wf → ∀ f ∈ swapFields, t.get f = s.get f

namespace SwapKept

variable {s t u : State}

theorem refl : SwapKept s s := ⟨id, fun _ _ _ => rfl, fun _ _ _ _ => rfl, fun _ _ _ => rfl⟩

theorem trans (h : SwapKept s t) (h' : SwapKept t u) : SwapKept s u where
  wf hs := h'.wf (h.wf hs)
  jobType hs n hn := (h'.jobType (h.wf hs) n hn).trans (h.jobType hs n hn)
  jobState hs n hn ht := (h'.jobState (h.wf hs) n hn ((h.jobType hs n hn).trans ht)).trans (h.jobState hs n hn ht)
  field hs f hf := (h'.field (h.wf hs) f hf).trans (h.field hs f hf)

theorem comp (h' : SwapKept t u) (h : SwapKept s t) : SwapKept s u := h.trans h'

/-- None of these registers is touched. -/
theorem of_regs (hwf : s.Wf → t.Wf) (h : ∀ a ∈ swapRegs, t.reg a = s.reg a) : SwapKept s t := by
  have hget : ∀ f : Field, f.addr ∈ swapRegs → t.get f = s.get f := fun f hf => by unfold State.get; rw [h _ hf]
  have hslot : ∀ n, n < 4 → A.PWR_JOBn_STATUS n ∈ swapRegs := fun n hn =>
    List.mem_cons_of_mem _ (List.mem_cons_of_mem _ (jobReg_mem hn))
  refine ⟨hwf, fun _ n hn => hget _ (hslot n hn), fun _ n hn _ => hget _ (hslot n hn), fun _ f hf => hget f ?_⟩
  simp only [List.mem_cons, List.not_mem_nil, or_false] at hf
  rcases hf with rfl | rfl <;> decide

theorem of_frame {L : List Span} {ps : List Part} (h : Frame L ps s t) (hd : swapRegs.any (covers L) = false) : SwapKept s t := by
  rw [List.any_eq_false] at hd
  exact .of_regs h.wf fun a ha => h.reg a (Bool.eq_false_iff.2 (hd a ha))

theorem op {L : List Span} {ps : List Part} (h' : Frame L ps t u) (h : SwapKept s t) (hd : swapRegs.any (covers L) = false) :
    SwapKept s u := h.trans (.of_frame h' hd)

theorem setReg {a : Nat} {w : Word} (h : SwapKept s t) (ha : a ∉ swapRegs) : SwapKept s (t.setReg a w) :=
  h.trans (.of_regs State.setReg_wf fun _ hb => State.reg_setReg_ne fun he => ha (he ▸ hb))

theorem put {f : Field} {v : Nat} (h : SwapKept s t) (hf : f.addr ∉ swapRegs) : SwapKept s (t.put f v) := h.setReg hf

/-- A part other than the registers. -/
theorem upd {t' : State} (h : SwapKept s t) (hregs : t'.regs = t.regs) (hwf : t.Wf → t'.Wf) : SwapKept s t' :=
  h.trans (.of_regs hwf fun a _ => by unfold State.reg; rw [hregs])

theorem ite {c : Prop} [Decidable c] {a b : State} (ha : SwapKept s a) (hb : SwapKept s b) : SwapKept s (if c then a else b) := by
  split
  · exact ha
  · exact hb

theorem forUpto {f : Nat → State → State} (s : State) : ∀ {n : Nat}, (∀ k t, k < n → SwapKept t (f k t)) →
    SwapKept s (Machine.forUpto n f s)
  | 0, _ => .refl
  | n + 1, hf => (forUpto s fun k t hk => hf k t (Nat.lt_succ_of_lt hk)).trans (hf n _ (Nat.lt_succ_self n))

theorem foldl {α : Type} {f : State → α → State} (hf : ∀ s x, SwapKept s (f s x)) : ∀ (xs : List α) (s : State),
    SwapKept s (xs.foldl f s)
  | [], _ => .refl
  | x :: xs, s => (hf s x).trans (foldl hf xs _)

/-- A register beyond the slots' and beside the phases and the commit. -/
theorem regs_out {a : Nat} (h : a ≠ A.LPE_TOPO ∧ a ≠ A.GLB_COMMIT_STATUS ∧ (a < A.PWR_JOBn_STATUS 0 ∨ A.PWR_JOBn_STATUS 3 < a)) :
    a ∉ swapRegs := by
  obtain ⟨h1, h2, h3⟩ := h
  simp only [A.PWR_JOBn_STATUS] at h3
  simp only [List.mem_cons, List.not_mem_nil, or_false, A.PWR_JOBn_STATUS, not_or]
  omega

/-- The job of another type passes its commit point. -/
theorem jobCommitOf (h : SwapKept s t) (ty : Nat) : SwapKept s (t.jobCommitOf ty) := by
  unfold State.jobCommitOf
  split
  · next n _ =>
    have hout : ∀ f ∈ swapFields, f.addr ≠ A.PWR_JOBn_STATUS n := by
      simp only [List.mem_cons, List.not_mem_nil, or_false, forall_eq_or_imp, forall_eq, A.PWR_JOBn_STATUS]
      exact ⟨by show 36868 ≠ _; omega, by show 68 ≠ _; omega⟩
    refine h.trans ⟨State.put_wf, fun ht m hm => (State.jobCommit_same ht n hm).2, fun ht m hm _ => (State.jobCommit_same ht n hm).1,
      fun _ f hf => State.get_put_addr (hout f hf)⟩
  · exact h

/-- The job of another type ends. -/
theorem jobEndOf {ty : Nat} (h : SwapKept s t) (hty : ty ≠ Job.restructure) (st : Nat) : SwapKept s (t.jobEndOf ty st) := by
  unfold State.jobEndOf
  split
  · next n hn =>
    obtain ⟨hn4, -, htn⟩ := State.findJob_found hn
    have hout : ∀ f ∈ swapFields, f.addr ∉ A.GLB_IRQ_STATUS :: A.GLB_IRQ_RAW :: jobRegs := by decide
    refine h.trans ⟨fun ht => State.jobEnd_wf ht n st, fun ht m _ => ?_, fun _ m _ hm => ?_, fun _ f hf => ?_⟩
    · by_cases hmn : m = n
      · subst hmn
        exact State.jobEnd_beside ht st rfl (Nat.le_of_ble_eq_true rfl)
      · exact State.jobEnd_other t st hmn rfl
    · have hmn : m ≠ n := fun he => hty (htn.symm.trans (he ▸ hm))
      exact State.jobEnd_other t st hmn rfl
    · exact (t.jobEnd_frame n st).get (covers_endSpans hn4 (hout f hf))
  · exact h

end SwapKept

/-! ### Banks and the scan (R85, R86, R90) -/

theorem State.migrateAbandon_swapKept (s : State) : SwapKept s s.migrateAbandon := by
  obtain ⟨u, hu, heq⟩ := s.migrateAbandon_steps
  rw [heq]
  exact .op (State.nomadRest_frame u) (.of_frame hu rfl) rfl

theorem State.rotationGo_frame (s : State) : Frame [.reg A.PWR_DOM, .reg A.LMC_STATUS, .reg A.BST_RUN_STATUS] [.lmc] s s.rotationGo := by
  unfold State.rotationGo State.migrateStart
  split
  · exact .refl
  split
  · exact .refl
  split
  · exact .refl
  split
  · split
    · exact .put (.put (.ite (.put .refl rfl) .refl) rfl) rfl
    · exact .refl
  · exact .lmc (.mono (s.setMem_frame _ _) rfl) rfl

theorem State.nomadOn_frame (s : State) : Frame [.reg A.PWR_DOM] [.lmc] s s.nomadOn := by
  unfold State.nomadOn
  split
  · exact .refl
  split
  · exact .refl
  · exact .ite .refl (.lmc (.mono (s.setMem_frame _ _) rfl) rfl)

theorem State.bgEnWrite_swapKept (s : State) (v : Word) : SwapKept s (s.bgEnWrite v) := by
  have h1 : SwapKept s (s.put F.LMC_CTRL_BG_EN (wordGet v 0 0)) := .put .refl (by decide)
  exact .ite (.ite (.op (State.nomadOn_frame _) h1 rfl) (.op (State.nomadRest_frame _) h1 rfl))
    (.ite (.op (State.rotationGo_frame _) h1 rfl) (h1.trans (State.migrateAbandon_swapKept _)))

theorem State.bankPower_swapKept (s : State) (b : Nat) (on : Bool) : SwapKept s (s.bankPower b on) := by
  unfold State.bankPower
  split
  · exact .refl
  split
  · exact .of_frame (s.setMem_frame _ _) rfl
  · extract_lets s1 s2
    have h1 : SwapKept s s1 := .ite s.migrateAbandon_swapKept .refl
    have h2 : SwapKept s s2 := .op (State.bankLost_frame _ b) (.op (State.setMem_frame s1 _ false) h1 rfl) rfl
    exact .upd h2 rfl id

theorem State.banksPower_swapKept (s : State) (en : Nat) : SwapKept s (s.banksPower en) :=
  .forUpto s fun b t _ => .ite .refl (t.bankPower_swapKept b _)

theorem State.rotateJobEnd_swapKept (s : State) : SwapKept s s.rotateJobEnd := by
  unfold State.rotateJobEnd
  split
  · have h1 : SwapKept s { s with lmc := { s.lmc with rotate := none } } := .upd .refl rfl id
    exact h1.jobEndOf (ty := Job.bistRun) (by decide) _
  · exact .refl

theorem State.scanBankLost_swapKept (s : State) : SwapKept s s.scanBankLost := by
  unfold State.scanBankLost
  split
  · exact .refl
  · have h1 : SwapKept s ((s.put F.CHK_STATUS_RESULT 2).put F.CHK_STATUS_REASON 2) :=
      .of_frame (L := [.reg A.CHK_STATUS]) (ps := []) (.put (.put .refl rfl) rfl) rfl
    have h2 : SwapKept s { (s.put F.CHK_STATUS_RESULT 2).put F.CHK_STATUS_REASON 2 with lmc := { s.lmc with scan := none } } :=
      .upd h1 rfl id
    exact .ite (h2.jobEndOf (ty := Job.memScan) (by decide) _) .refl

theorem State.bankEnWrite_swapKept (s : State) (v : Word) : SwapKept s (s.bankEnWrite v) := by
  have hbanks := fun en => (SwapKept.put (f := F.LMC_BANK_EN_EN) (v := en) (.refl (s := s)) (by decide)).trans
    (State.banksPower_swapKept _ en)
  have hcheck : ∀ t : State, SwapKept t t.rotateCheck := fun t =>
    .ite (.op (State.nomadRest_frame _) t.rotateJobEnd_swapKept rfl) .refl
  exact (SwapKept.op (State.rotationGo_frame _) ((hbanks _).trans (hcheck _)) rfl).trans (State.scanBankLost_swapKept _)

end Sys2Proof.Machine
end

section
/-!
The register writes of an image and its sections, and what they leave of the job slots and of the phases (R398, R407, R408).
-/

namespace Sys2Proof.Machine

/-! ### Calibration and the links -/

theorem State.adopt_swapKept (s : State) (v : CalVal) : SwapKept s (s.adopt v) := by
  unfold State.adopt
  refine .ite (.of_frame (s.adoptLink_frame v) rfl) (.ite ?_ (.ite ?_ ?_))
  · exact .op (State.loadTaps_frame _) (.of_frame (L := []) (ps := [.cal]) (.cal .refl rfl) rfl) rfl
  · exact .forUpto s fun p t _ => .of_frame (t.setIsns_frame p _) rfl
  · exact .of_frame (L := [.reg A.THM_STATUS, ⟨A.CAL_CTRL, 0⟩]) (ps := [.cal]) (.cal (.put .refl rfl) rfl) rfl

theorem State.calCommit_swapKept (s : State) : SwapKept s s.calCommit := by
  have hadopt : SwapKept s (s.cal.vals.foldl (fun s v => s.adopt v) s) := .foldl State.adopt_swapKept _ s
  exact (SwapKept.jobCommitOf (.op (State.calJobOver_frame _) hadopt rfl) _).jobEndOf (by decide) _

theorem State.calJobFail_swapKept (s : State) (item reason : Nat) : SwapKept s (s.calJobFail item reason) :=
  SwapKept.jobEndOf (.op (State.calJobOver_frame _) (.of_frame (s.calFlag_frame item reason) rfl) rfl) (by decide) _

theorem State.calNext_swapKept (s : State) : SwapKept s s.calNext := by
  have hneeds : ∀ (t : State) (i : Nat), SwapKept t (t.calNeeds i) := fun t i =>
    .ite (t.calJobFail_swapKept _ _) (.ite (t.calJobFail_swapKept _ _) .refl)
  unfold State.calNext
  split
  · next i t _ =>
    have h1 : SwapKept s { s with cal := { s.cal with todo := t } } := .upd .refl rfl id
    exact (SwapKept.op (State.calBegin_frame _ _) h1 rfl).trans (hneeds _ i)
  · exact .ite (.upd .refl rfl id) s.calCommit_swapKept

theorem State.calYield_swapKept (s : State) (it : CalItem) : SwapKept s (s.calYield it) := by
  unfold State.calYield
  extract_lets s1
  have h1 : SwapKept s s1 := .of_frame s.calIdle_frame rfl
  exact (SwapKept.op (State.calShow_frame _) (.op (L := []) (ps := [.cal]) (.cal .refl rfl) h1 rfl) rfl).trans (State.calNext_swapKept _)

theorem State.calFail_swapKept (s : State) (reason : Nat) : SwapKept s (s.calFail reason) := by
  unfold State.calFail
  split
  · exact .refl
  · next it _ =>
    have hflag : SwapKept s (s.calFlag it.item reason) := .of_frame (s.calFlag_frame _ _) rfl
    exact .ite (s.calJobFail_swapKept _ _) (.ite (hflag.trans (State.calYield_swapKept _ it)) hflag)

theorem State.portDown_swapKept (s : State) (d : Bool) : SwapKept s (s.portDown d) :=
  .of_frame (s.portDown_frame d) (by cases d <;> rfl)

theorem State.linkExit_swapKept (s : State) (d : Bool) : SwapKept s (s.linkExit d 0) := by
  unfold State.linkExit
  refine .ite .refl (.ite (.trans (.of_frame (s.setPort_frame d _) rfl) (State.portDown_swapKept _ d)) ?_)
  extract_lets s1 s2 s3 s4
  have h2 : Frame (portSpans d) [] s s2 :=
    .pput (.pput (.pput .refl (by cases d <;> rfl)) (by cases d <;> rfl)) (by cases d <;> rfl)
  have h3 : SwapKept s s3 := by
    cases d
    · exact .op s2.clearU_frame (.of_frame h2 rfl) rfl
    · exact .op s2.clearD_frame (.of_frame h2 rfl) rfl
  have hcal : ∀ t : State, SwapKept t (t.calLinkDown (!d)) := fun t => .ite (t.calFail_swapKept _) .refl
  exact (h3.trans (State.portDown_swapKept _ d)).trans (hcal _)

theorem State.setRate_swapKept (s : State) (d : Bool) (r : Nat) : SwapKept s (s.setRate d r) := by
  have h1 : SwapKept s (s.pput d F.LNK_U_CTRL_RATE r) := .put .refl (by cases d <;> decide)
  exact .ite (h1.trans (State.linkExit_swapKept _ d)) h1

/-! ### Register writes -/

/-- No write by the access codes reaches the low half of these registers. -/
theorem swapRegs_masks {a : Nat} (ha : a ∈ swapRegs) : ∀ i, i < 16 →
    (accessMask .rw a).getLsbD i = false ∧ (accessMask .w1s a).getLsbD i = false ∧ (accessMask .w1c a).getLsbD i = false := by
  simp only [List.mem_cons, List.not_mem_nil, or_false] at ha
  rcases ha with rfl | rfl | rfl | rfl | rfl | rfl <;> decide

/-- A field in the low half of these registers is left by every write by the access codes. -/
theorem State.regWrite_low {s : State} (hs : s.Wf) (a : Nat) (v : Word) {f : Field} (hf : f.addr ∈ swapRegs) (hhi : f.hi < 16) :
    (s.regWrite a v).get f = s.get f := by
  have hbit : ∀ i, i < 16 → ((s.regWrite a v).reg f.addr).getLsbD i = (s.reg f.addr).getLsbD i := by
    intro i hi
    by_cases ha : f.addr = a
    · subst ha
      obtain ⟨hrw, hset, hclear⟩ := swapRegs_masks hf i hi
      rw [State.regWrite_bit hs (by omega), hrw, hset, hclear]
      simp
    · rw [(s.regWrite_but a v f.addr (by simpa using ha)).1]
  refine Nat.eq_of_testBit_eq fun i => ?_
  unfold State.get
  rw [wordGet_testBit, wordGet_testBit]
  by_cases hi : i < f.hi + 1 - f.lo
  · rw [hbit _ (by omega)]
  · simp [hi]

theorem State.setShReg_wf {s : State} {a : Nat} {w : Word} (hs : s.Wf) : (s.setShReg a w).Wf :=
  ⟨hs.1, sparseWf_set _ _ hs.2.1, hs.2.2⟩

theorem State.regWrite_wf {s : State} (hs : s.Wf) (a : Nat) (v : Word) : (s.regWrite a v).Wf := by
  unfold State.regWrite
  dsimp only
  split
  · exact State.setReg_wf hs
  · exact State.setShReg_wf (State.setReg_wf hs)

theorem State.regWrite_swapKept (s : State) (a : Nat) (v : Word) : SwapKept s (s.regWrite a v) := by
  have hslot : ∀ n, n < 4 → A.PWR_JOBn_STATUS n ∈ swapRegs := fun n hn =>
    List.mem_cons_of_mem _ (List.mem_cons_of_mem _ (jobReg_mem hn))
  refine ⟨fun hs => State.regWrite_wf hs a v, fun hs n hn => State.regWrite_low hs a v (hslot n hn) (Nat.le_of_ble_eq_true rfl),
    fun hs n hn _ => State.regWrite_low hs a v (hslot n hn) (Nat.le_of_ble_eq_true rfl), fun hs f hf => ?_⟩
  simp only [List.mem_cons, List.not_mem_nil, or_false] at hf
  rcases hf with rfl | rfl <;> exact State.regWrite_low hs a v (by decide) (by decide)

end Sys2Proof.Machine
end

section
/-!
The register writes of an image and its sections (R398, R407, R408).
-/

namespace Sys2Proof.Machine

/-! ### The registers of CORE that a write does more to -/

theorem State.retime_swapKept (s : State) (t : Retime) : SwapKept s (s.retime t) := by
  have hrej : ∀ c, Frame [.reg A.RAS_RETIME_STATUS] [] s (s.retimeReject c) := fun c => .put (.put .refl rfl) rfl
  have hacc : Frame [.reg A.RAS_RETIME_STATUS, .reg A.RAS_STATUS, .reg A.RAS_RETIME_FRAME] [.ras] s (s.retimeAccept t) :=
    .ras (.ras (.put (.setReg (.put (.put (.put .refl rfl) rfl) rfl) rfl) rfl) rfl) rfl
  exact .ite (.put .refl (by decide)) (.ite (.of_frame (hrej _) rfl) (.of_frame hacc rfl))

theorem State.sealStart_swapKept (s : State) (v : Word) (from_ : Nat) : SwapKept s (s.sealStart v from_) := by
  have hrefuse : ∀ (t : State) (r : Nat), Frame [.window 2] [.lmc, .freeCount, .flt] t (t.sealRefused r) := fun t r =>
    .put (.put .refl rfl) rfl
  have haccept : ∀ t self, Frame [.window 2] [.lmc, .freeCount, .flt] s (s.sealAccept t self from_) := by
    intro t self
    have h1 := s.dirTouch_frame t (sealInfo from_ t)
    exact .ite (.op (hrefuse _ 4) h1 rfl) (.lmc (.put (.put h1 rfl) rfl) rfl)
  have hall : Frame [.window 2] [.lmc, .freeCount, .flt] s (s.sealStart v from_) :=
    .ite (.put .refl rfl) (.ite (hrefuse _ _) (.ite (hrefuse _ _) (.ite (hrefuse _ _) (haccept _ _))))
  exact .of_frame hall rfl

theorem State.ttDataWrite_swapKept (s : State) (v : Word) : SwapKept s (s.ttDataWrite v) := by
  have hinc : ∀ t : State, Frame [.window 3] [.cmp] t t.ttInc := fun t => .ite (.put .refl rfl) .refl
  have hall : Frame [.window 3] [.cmp] s (s.ttDataWrite v) :=
    .ite (.op (hinc _) (.put .refl rfl) rfl) (.ite (.op (hinc _) (.put .refl rfl) rfl) (.op (hinc _) (.cmp .refl rfl) rfl))
  exact .of_frame hall rfl

theorem State.coefDataWrite_swapKept (s : State) (v : Word) : SwapKept s (s.coefDataWrite v) := by
  have hinc : ∀ t : State, Frame [.window 4] [.cmp] t t.coefInc := fun t => .ite (.put (.put .refl rfl) rfl) .refl
  have hall : Frame [.window 4] [.cmp] s (s.coefDataWrite v) :=
    .ite (.op (hinc _) (.put .refl rfl) rfl) (.ite (.op (hinc _) (.put .refl rfl) rfl) (.op (hinc _) (.cmp .refl rfl) rfl))
  exact .of_frame hall rfl

theorem State.listSubmit_swapKept (s : State) (ws : List Word) (i : FaultInfo) : SwapKept s (s.listSubmit ws i) := by
  have hrej : ∀ r o, Frame [.window 5] [.msk, .flt] s (s.listReject r o i) := by
    intro r o
    unfold State.listReject
    extract_lets s1 s2
    have h1 : Frame [.window 5] [.msk, .flt] s s1 := .put (.put (.put .refl rfl) rfl) rfl
    have h2 : Frame [.window 5] [.msk, .flt] s s2 := .ite (.inc h1 rfl) (.inc h1 rfl)
    exact .ite (.raiseI h2 rfl) (.ite (.raiseI h2 rfl) h2)
  have hacc : ∀ h t, Frame [.window 5] [.msk, .flt] s (s.listAccept h t) := fun h t =>
    .msk (.inc (.put (.put (.put (.put (.put .refl rfl) rfl) rfl) rfl) rfl) rfl) rfl
  unfold State.listSubmit
  extract_lets r
  split
  · split
    · exact .of_frame (hacc _ _) rfl
    · exact .refl
  · exact .of_frame (hrej _ _) rfl

theorem State.gainReload_swapKept (s : State) (v : Word) : SwapKept s (s.gainReload v) := by
  have hall : Frame [.reg A.LUM_STATE] [.lum] s (s.gainReload v) := .ite .refl (.lum (.put .refl rfl) rfl)
  exact .of_frame hall rfl

theorem State.pcDataWrite_swapKept (s : State) (v : Word) : SwapKept s (s.pcDataWrite v) := by
  have htap : ∀ x n, SwapKept s (s.setTap x n) := fun x n => .upd .refl rfl id
  have hinc : ∀ t : State, SwapKept t t.colInc := fun t => .ite (.put .refl (by decide)) .refl
  exact (SwapKept.ite (htap _ _) .refl).trans (hinc _)

theorem State.defectLimit_swapKept (s : State) : SwapKept s s.defectLimit := by
  unfold State.defectLimit
  extract_lets d i s1 l
  have h1 : Frame [.window 8] [.hlt, .flt] s s1 := .put (.put .refl rfl) rfl
  have hall : Frame [.window 8] [.hlt, .flt] s (if l != 0 && decide (l < d + i) && !s.hlt.limitReported then
      { s1.raise Code.HLT_DEFECT_LIMIT 0 with hlt := { s1.hlt with limitReported := true } } else s1) :=
    .ite (.hlt (.raise h1 rfl) rfl) h1
  exact .of_frame hall rfl

theorem State.defectSet_swapKept (s : State) (v : Word) : SwapKept s (s.defectSet v) := by
  have hraise : ∀ x y st c, SwapKept s (s.mapRaise x y st c) := by
    intro x y st c
    unfold State.mapRaise
    extract_lets e c1
    exact .ite .refl (.comp (State.defectLimit_swapKept _) (.upd .refl rfl id))
  exact .ite (hraise _ _ _ _) .refl

theorem State.lpeCtrlWrite_swapKept (s : State) (v : Word) : SwapKept s (s.lpeCtrlWrite v) := by
  have hswap : ∀ t : State, Frame [.reg A.LPE_STATUS, .reg A.GLB_IRQ_STATUS, .reg A.GLB_IRQ_RAW] [.lpe, .lnk] t t.swapRequest :=
    fun t => .ite (.irq (.ite .refl (.put .refl rfl)) rfl) (.put .refl rfl)
  have hoff : ∀ t : State, Frame [.reg A.LPE_STATUS] [.lpe] t t.railDisable := fun t =>
    .ite .refl (.lpe (.lpe (.put (.put .refl rfl) rfl) rfl) rfl)
  have h1 := s.regWrite_swapKept A.LPE_CTRL v
  have h2 : SwapKept s (if wordGet v 8 8 = 1 then (s.regWrite A.LPE_CTRL v).swapRequest else s.regWrite A.LPE_CTRL v) :=
    .ite (.op (hswap _) h1 rfl) h1
  exact .ite (.op (hoff _) h2 rfl) h2

theorem State.bankWrite_swapKept (s : State) (b : Nat) (v : Word) : SwapKept s (s.bankWrite b v) :=
  .ite (.put .refl (by decide)) (.ite (.put .refl (by decide)) (s.regWrite_swapKept _ v))

theorem State.lpCoefWrite_swapKept (s : State) (v : Word) : SwapKept s (s.lpCoefWrite v) := by
  have hinc : ∀ t : State, Frame [.reg A.LPE_COEF_ADDR] [] t t.lpCoefInc := fun t => .ite (.put .refl rfl) .refl
  have hput : ∀ f : Field, f.addr = A.LPE_COEF_STATUS → SwapKept s (s.put f 1).lpCoefInc := fun f hf =>
    .op (hinc _) (.put .refl (by rw [hf]; decide)) rfl
  have hready : ∀ (t : State) (b : Nat), SwapKept t (t.bankUnready b) := fun t b => .ite (.put .refl (by decide)) (.put .refl (by decide))
  exact .ite (hput _ rfl) (.ite (hput _ rfl) (.ite (hput _ rfl)
    (.op (hinc _) (.comp (hready _ _) (.upd .refl rfl id)) rfl)))

/-- The status registers of the loops lie between. -/
theorem loopReg_out {n : Nat} (hn : n < 9) : A.LPE_LPn_STATUS n ∉ swapRegs := by
  interval_cases n <;> decide

theorem State.satTrack_swapKept (s : State) {n : Nat} (hn : n < 9) : SwapKept s (s.satTrack n) := by
  have hput : ∀ {t u : State} (f : Field) (v : Nat), f.addr = A.LPE_LPn_STATUS n → SwapKept t u → SwapKept t (u.put f v) := fun f v hf h =>
    h.put (hf ▸ loopReg_out hn)
  unfold State.satTrack State.satFlags
  extract_lets ul il i s1 s2 s3
  have h1 : SwapKept s s1 := hput _ _ rfl (hput _ _ rfl (hput _ _ rfl .refl))
  have h2 : SwapKept s s2 := .ite (hput _ _ rfl h1) h1
  have h3 : SwapKept s s3 := .ite (hput _ _ rfl h2) h2
  exact .ite (hput _ _ rfl h3) h3

theorem State.fbClear_swapKept (s : State) {n : Nat} (hn : n < 9) (v : Word) : SwapKept s (s.fbClear n v) := by
  have hloop : SwapKept s (s.setLoop n (s.bumpless n (s.loop n))) := .upd .refl rfl id
  have h1 := hloop.put (f := F.LPE_LPn_STATUS_FALLBACK n) (v := 0) (loopReg_out hn)
  have h2 := h1.put (f := F.LPE_LPn_STATUS_RUN n) (v := 0) (loopReg_out hn)
  exact .ite (h2.trans (State.satTrack_swapKept _ hn)) .refl

/-- A write of a register of CORE. -/
theorem State.coreWrite_swapKept (s : State) (i : FaultInfo) (a : Nat) (v : Word) : SwapKept s (s.coreWrite i a v) := by
  unfold State.coreWrite
  refine .ite .refl (.ite (.ite (s.retime_swapKept _) .refl) (.ite (s.bgEnWrite_swapKept v) (.ite (s.bankEnWrite_swapKept v)
    (.ite (s.sealStart_swapKept v _) (.ite (s.ttDataWrite_swapKept v) (.ite (s.coefDataWrite_swapKept v)
    (.ite (s.listSubmit_swapKept _ i) (.ite (s.gainReload_swapKept v) (.ite (s.pcDataWrite_swapKept v)
    (.ite (s.defectSet_swapKept v) (.ite ?_ (.ite (s.lpeCtrlWrite_swapKept v) (.ite (s.bankWrite_swapKept 0 v)
    (.ite (s.bankWrite_swapKept 1 v) (.ite (s.lpCoefWrite_swapKept v) ?_)))))))))))))))
  · exact .comp (State.defectLimit_swapKept _) (.put .refl (by decide))
  · split
    · next ha => exact s.fbClear_swapKept (by omega) v
    · exact .ite (.upd .refl rfl id) (s.regWrite_swapKept a v)

end Sys2Proof.Machine
end

section
/-!
The sections of an image, and the swap of a restructure (R398, R407, R408).
-/

namespace Sys2Proof.Machine

/-! ### Registers of a section -/

theorem State.imgReg_swapKept (s : State) (boot : Bool) {a : Nat} (v : Word) (ha : a ∉ swapRegs) : SwapKept s (s.imgReg boot a v) := by
  unfold State.imgReg
  extract_lets rws m s1
  have h1 : SwapKept s s1 := SwapKept.refl.setReg ha
  exact .ite h1 (.upd h1 rfl fun hw => State.setShReg_wf hw)

theorem State.imgRegs_swapKept (boot : Bool) (m : Image) (t : Nat) : ∀ (as : List Nat) (s : State) (i : Nat), (∀ a ∈ as, a ∉ swapRegs) →
    SwapKept s (s.imgRegs boot m t i as)
  | [], _, _, _ => .refl
  | a :: as, s, i, h => (s.imgReg_swapKept boot _ (h a List.mem_cons_self)).trans
      (State.imgRegs_swapKept boot m t as _ (i + 1) fun b hb => h b (List.mem_cons_of_mem _ hb))

theorem State.imgFresh_swapKept (s : State) (fresh : Bool) {lo n : Nat} (h : ∀ a ∈ swapRegs, a < lo ∨ lo + n ≤ a) :
    SwapKept s (s.imgFresh fresh lo n) := by
  have hwf : s.Wf → (s.resetRegs lo n).Wf := fun hs => ⟨sparseWf_clear _ _ hs.1, sparseWf_clear _ _ hs.2.1, hs.2.2⟩
  exact .ite (.of_regs hwf fun a ha => State.resetRegs_reg_out (h a ha)) .refl

/-! ### The sections -/

section
variable (s : State) (m : Image)

theorem State.applyLayers_swapKept : SwapKept s (s.applyLayers false m) := by
  unfold State.applyLayers
  extract_lets w s1 types symbols modes
  have h1 : SwapKept s s1 := .forUpto s fun i t hi => t.imgFresh_swapKept _ (by interval_cases i <;> decide)
  exact .comp (State.imgReg_swapKept _ _ _ (by decide)) (.put (.put h1 (by decide)) (by decide))

theorem State.applyScalers_swapKept : SwapKept s (s.applyScalers m) :=
  .forUpto s fun n t hn => by
    have hout : A.SCL_SCn_GRANT n ∉ swapRegs := by interval_cases n <;> decide
    exact .put (t.imgFresh_swapKept _ (by interval_cases n <;> decide)) hout

theorem State.applyMemory_swapKept : SwapKept s (s.applyMemory false m) :=
  .comp (State.imgRegs_swapKept _ _ _ _ _ _ (by decide)) (s.bankEnWrite_swapKept _)

theorem State.applySignatures_swapKept : SwapKept s (s.applySignatures m) :=
  .put (.forUpto s fun r t hr => t.imgFresh_swapKept _ (by interval_cases r <;> decide)) (by decide)

theorem State.applyCoefs_swapKept (bank : Nat) (ws : List Word) : SwapKept s (s.applyCoefs bank ws) :=
  .forUpto s fun _ _ _ => .upd .refl rfl id

/-- Section LOOPS after the phases. -/
theorem State.applyLoops_swapKept : SwapKept (s.put F.LPE_TOPO_N_PH (wBits (m.word 5 0 0) 2 0)) (s.applyLoops false m) := by
  let s1 := s.put F.LPE_TOPO_N_PH (wBits (m.word 5 0 0) 2 0)
  have h2 : ∀ (o : Option (List Word)) (bank a : Nat) (w : List Word → Word), a ∉ swapRegs →
      SwapKept s1 (match o with | none => s1 | some ws => (s1.applyCoefs bank ws).setReg a (w ws)) := by
    intro o bank a w ha
    cases o with
    | none => exact .refl
    | some ws => exact .setReg (s1.applyCoefs_swapKept bank ws) ha
  have hregs : ∀ a ∈ [A.LPE_VSET, A.LPE_HEAD, A.LPE_PROT, A.LPE_START, A.LPE_REG, A.LPE_ILIM, A.LPE_FAN, A.LPE_TACH], a ∉ swapRegs := by
    decide
  have hbank : ∀ b : Nat, (if b = 0 then A.LPE_BANK_A else A.LPE_BANK_B) ∉ swapRegs := fun b => by split <;> decide
  unfold State.applyLoops
  refine SwapKept.setReg (.comp (State.imgRegs_swapKept _ _ _ _ _ _ hregs) ?_) (by decide)
  exact h2 (m.sect 5) (1 - s.actBank) _ _ (hbank _)

/-- FAN stands beside the phases. -/
theorem State.applyGpio_swapKept : SwapKept s (s.applyGpio m) := by
  have h1 : SwapKept s (s.put F.CFG_GPIO_FUNC (wBits (m.word 9 0 0) 7 0)) := .put .refl (by decide)
  have hslot : ∀ (t : State) (b : Bool) (f : Field), f.addr ∈ jobRegs → (t.putB F.LPE_TOPO_FAN b).get f = t.get f := fun t b f hf =>
    State.get_put_addr fun he => by
      rw [he] at hf
      exact absurd hf (by decide)
  refine .trans h1 ⟨State.put_wf, fun _ n hn => hslot _ _ _ (jobReg_mem hn), fun _ n hn _ => hslot _ _ _ (jobReg_mem hn), fun hs f hf => ?_⟩
  refine State.get_put_ne hs (by decide) ?_
  simp only [List.mem_cons, List.not_mem_nil, or_false] at hf
  rcases hf with rfl | rfl <;> decide

theorem State.freshLoops_swapKept (before : State) : SwapKept s (s.freshLoops before) :=
  .forUpto s fun n t hn => t.imgFresh_swapKept _ (by interval_cases n <;> decide)

theorem State.react_swapKept (c : Nat) : SwapKept s (s.react c) := by
  have hdim : SwapKept s s.setDim := by
    have h1 : SwapKept s (s.put F.SAF_STATE_DIM_LATCH 1) := .put .refl (by decide)
    exact .ite .refl (.op (State.safRefresh_frame _) (.upd h1 rfl id) rfl)
  unfold State.react
  split
  · exact .refl
  split
  · exact .of_frame s.fltRequest_frame rfl
  · exact hdim
  · exact .of_frame s.setRemoval_island rfl
  · exact .refl

theorem maskReg_out {n : Nat} (hn : n < 256) : A.FLT_MASKn (n / 32) ∉ swapRegs := by
  refine SwapKept.regs_out ?_
  simp only [A.FLT_MASKn, A.LPE_TOPO, A.GLB_COMMIT_STATUS, A.PWR_JOBn_STATUS]
  omega

theorem State.applyClass_swapKept {n : Nat} (hn : n < 256) (c : Nat) : SwapKept s (s.applyClass n c) := by
  unfold State.applyClass
  extract_lets r base eff s1 s2
  have h1 : SwapKept s s1 := .upd .refl rfl id
  have h2 : SwapKept s s2 := .ite (.put h1 (maskReg_out hn)) h1
  exact .ite (.op (State.fltRequest_frame _) (.comp (State.react_swapKept _ _) h2) rfl) h2

theorem State.applyFaults_swapKept : SwapKept s (s.applyFaults m) := by
  unfold State.applyFaults
  extract_lets classes
  have h1 : SwapKept s { s with flt := { s.flt with tableBad := [] } } := .upd .refl rfl id
  exact h1.trans (.forUpto _ fun n t hn => .ite (t.applyClass_swapKept hn _) .refl)

theorem State.applyCaravan_swapKept : SwapKept s (s.applyCaravan m) := by
  have hall : Frame [.reg A.CVN_CFG, .reg A.CVN_TDM_CFG, .reg A.CVN_SH_CFG] [] s (s.applyCaravan m) :=
    .put (.put (.put (.put (.put (.put .refl rfl) rfl) rfl) rfl) rfl) rfl
  exact .of_frame hall rfl

theorem State.applySafety_swapKept : SwapKept s (s.applySafety false m) :=
  .ite .refl (.op (State.safRefresh_frame _) (State.imgRegs_swapKept _ _ _ _ _ _ (by decide)) rfl)

theorem State.applyLink_swapKept : SwapKept s (s.applyLink m) :=
  .comp (State.setRate_swapKept _ true _) (s.setRate_swapKept false _)

theorem State.applyWrites_swapKept : ∀ (l : List (Nat × Word)) (s : State), SwapKept s (s.applyWrites false l)
  | [], _ => .refl
  | (a, v) :: l, s => by
    unfold State.applyWrites
    exact (s.coreWrite_swapKept _ a v).trans (State.applyWrites_swapKept l _)

end

/-! ### The swap -/

/-- The image is applied: its phases are in force, no commit is armed where none was, and the slots of a RESTRUCTURE stand. -/
theorem State.applySections_effect {s : State} (hs : s.Wf) (m : Image) :
    (s.applySections false m).Wf ∧
      (∀ n, n < 4 → (s.applySections false m).jobType n = s.jobType n ∧
        (s.jobType n = Job.restructure → (s.applySections false m).jobState n = s.jobState n)) ∧
      (s.applySections false m).get F.LPE_TOPO_N_PH = (m.word 5 0 0).toNat % 8 ∧
      (s.applySections false m).get F.GLB_COMMIT_STATUS_STATE = s.get F.GLB_COMMIT_STATUS_STATE := by
  let a := (((s.applyLayers false m).applyScalers m).applyMemory false m).applySignatures m
  have ha : SwapKept s a := ((s.applyLayers_swapKept m).trans (State.applyScalers_swapKept _ m)).trans
    ((State.applyMemory_swapKept _ m).trans (State.applySignatures_swapKept _ m))
  let b := a.put F.LPE_TOPO_N_PH (wBits (m.word 5 0 0) 2 0)
  have hb : SwapKept b (s.applySections false m) := by
    unfold State.applySections
    extract_lets s1 s2 s3 s4 s5
    have h1 : SwapKept b s1 := a.applyLoops_swapKept m
    have h2 : SwapKept b s2 := (h1.trans (s1.applyGpio_swapKept m)).trans (State.freshLoops_swapKept _ s)
    have h3 : SwapKept b s3 := .comp (State.imgRegs_swapKept _ _ _ _ _ _ (by decide)) h2
    have h4 : SwapKept b s4 := ((h3.trans (s3.applyFaults_swapKept m)).trans (State.applyCaravan_swapKept _ m)).trans
      ((State.applySafety_swapKept _ m).trans (State.applyLink_swapKept _ m))
    have h5 : SwapKept b s5 := .op (State.sigInvalid_frame _) (h4.trans (State.applyWrites_swapKept _ _)) rfl
    exact .op (State.scalerTaps_frame _) h5 rfl
  have hawf := ha.wf hs
  have hbwf : b.Wf := State.put_wf hawf
  have hslot : ∀ f : Field, f.addr ≠ A.LPE_TOPO → b.get f = a.get f := fun f hf => State.get_put_addr hf
  have hjob : ∀ n, A.PWR_JOBn_STATUS n ≠ A.LPE_TOPO := fun n => by
    simp only [A.PWR_JOBn_STATUS, A.LPE_TOPO]
    omega
  have htype : ∀ n, n < 4 → b.jobType n = s.jobType n := fun n hn => (hslot _ (hjob n)).trans (ha.jobType hs n hn)
  refine ⟨hb.wf hbwf, fun n hn => ⟨(hb.jobType hbwf n hn).trans (htype n hn), fun ht => ?_⟩, ?_, ?_⟩
  · exact (hb.jobState hbwf n hn ((htype n hn).trans ht)).trans ((hslot _ (hjob n)).trans (ha.jobState hs n hn ht))
  · rw [hb.field hbwf _ List.mem_cons_self]
    have hphases : wBits (m.word 5 0 0) 2 0 = (m.word 5 0 0).toNat % 8 := by simp [wBits, bitsOf]
    exact (State.get_put_self hawf (by decide)).trans ((congrArg (· % 8) hphases).trans (Nat.mod_mod _ 8))
  · exact (hb.field hbwf _ (by decide)).trans ((hslot _ (by decide)).trans (ha.field hs _ (by decide)))

/-- The slot of a type depends on the types of the slots and on the states of those of that type. -/
theorem State.findJob_of_type {s t : State} {ty : Nat}
    (h : ∀ n, n < 4 → t.jobType n = s.jobType n ∧ (s.jobType n = ty → t.jobState n = s.jobState n)) : t.findJob ty = s.findJob ty := by
  refine List.find?_congr fun n hn => ?_
  obtain ⟨htype, hstate⟩ := h n (List.mem_range.1 hn)
  unfold State.jobActive
  rw [htype]
  by_cases hty : s.jobType n = ty
  · rw [hstate hty]
  · rw [beq_false_of_ne hty, Bool.and_false, Bool.and_false]

theorem State.findRunning_found {s : State} {ty n : Nat} (h : s.findRunning ty = some n) : s.jobState n = Job.running ∧ s.jobType n = ty := by
  have hp := List.find?_some h
  simpa using hp

theorem State.commitWithdraw_frame (s : State) : Frame [.reg A.GLB_COMMIT_STATUS] [] s s.commitWithdraw :=
  .ite .refl (.put (.put .refl rfl) rfl)

theorem State.commitWithdraw_state {s : State} (hs : s.Wf) : s.commitWithdraw.get F.GLB_COMMIT_STATUS_STATE = 0 := by
  unfold State.commitWithdraw
  split
  · next h => exact h
  · exact (State.get_put_ne (State.put_wf hs) (by decide) (by decide)).trans (State.get_put_self hs (by decide))

/-- The staged structure is applied, dropped and shown as the one loaded. -/
def State.structureLoaded (s : State) (m : Image) : State :=
  ((s.commitWithdraw.applySections false m).dropStaged).imageLoaded m s.cfg.stagedSrc

theorem execRestructureSwap_due {s : State} {k : Nat} {m : Image} (hrun : s.coreRun = true) (hk : s.findRunning Job.restructure = some k)
    (hm : s.cfg.staged = some m) (hdue : s.cfg.rsNow = true ∨ (s.blankDue = true ∧ s.rsDue = true)) :
    exec .restructureSwap s = .next (({ s.structureLoaded m with
      cfg := { (s.structureLoaded m).cfg with keyed := s.cfg.stagedKeyed, rsNow := false } } : State).put
        F.CFG_RS_STATUS_PHASE 2 |>.jobCommitOf Job.restructure) := by
  have hswap : exec .restructureSwap s = .next s.rsSwap := by
    change execRestructureSwap s = _
    unfold execRestructureSwap
    rw [hrun, hk, if_neg (by decide)]
    rcases hdue with hnow | ⟨hblank, hrs⟩
    · rw [if_pos hnow, if_pos (by rfl)]
    · rw [hblank, hrs]
      simp
  rw [hswap]
  unfold State.rsSwap
  rw [hm]
  rfl

theorem State.dropStaged_wf {s : State} (hs : s.Wf) : s.dropStaged.Wf := State.put_wf (f := F.CFG_STATUS_STAGED) (v := 0) hs

/-- The staged image is dropped and shown as the one loaded. -/
theorem State.stagedLoaded_effect {s : State} (hs : s.Wf) (m : Image) (src : Nat) :
    Frame (.reg A.CFG_STATUS :: imageSpans) (.cfg :: imageParts) s (s.dropStaged.imageLoaded m src) ∧
      (s.dropStaged.imageLoaded m src).get F.CFG_STATUS_GEN = m.gen % 65536 ∧
      (s.dropStaged.imageLoaded m src).get F.CFG_STATUS_SOURCE = src % 4 ∧
      (s.dropStaged.imageLoaded m src).get F.CFG_STATUS_STAGED = 0 ∧ (s.dropStaged.imageLoaded m src).cfg.staged = none := by
  have hd : Frame (.reg A.CFG_STATUS :: imageSpans) (.cfg :: imageParts) s s.dropStaged := .cfg (.put .refl rfl) rfl rfl
  have hstaged : s.dropStaged.get F.CFG_STATUS_STAGED = 0 := State.get_put_self hs (by decide)
  have hnone : s.dropStaged.cfg.staged = none := rfl
  have hdwf := hd.wf hs
  have hloaded : Frame (.reg A.CFG_STATUS :: imageSpans) (.cfg :: imageParts) s (s.dropStaged.imageLoaded m src) :=
    hd.trans ((s.dropStaged.imageLoaded_frame m src).mono rfl)
  have hcfg : (s.dropStaged.imageLoaded m src).cfg = s.dropStaged.cfg := (s.dropStaged.imageLoaded_frame m src).part .cfg rfl
  generalize s.dropStaged = d at *
  have h1 := State.put_wf (f := F.CFG_STATUS_LOADED) (v := 1) hdwf
  have h2 := State.put_wf (f := F.CFG_STATUS_SOURCE) (v := src) h1
  have hafter := d.imageLoaded_after m src
  refine ⟨hloaded, ?_, ?_, ?_, (congrArg Cfg.staged hcfg).trans hnone⟩
  · rw [hafter.get rfl]
    exact State.get_put_self h2 (by decide)
  · rw [hafter.get rfl, State.get_put_ne h2 (by decide) (by decide)]
    exact State.get_put_self h1 (by decide)
  · rw [hafter.get rfl, State.get_put_ne h2 (by decide) (by decide), State.get_put_ne h1 (by decide) (by decide),
      State.get_put_ne hdwf (by decide) (by decide), hstaged]

/-- What the structure that has been loaded shows. -/
theorem State.structureLoaded_effect {s : State} (hs : s.Wf) (m : Image) :
    (s.structureLoaded m).Wf ∧
      (∀ n, n < 4 → (s.structureLoaded m).jobType n = s.jobType n ∧
        (s.jobType n = Job.restructure → (s.structureLoaded m).jobState n = s.jobState n)) ∧
      (s.structureLoaded m).get F.CFG_STATUS_LOADED = 1 ∧ (s.structureLoaded m).get F.CFG_STATUS_GEN = m.gen % 65536 ∧
      (s.structureLoaded m).get F.CFG_STATUS_SOURCE = s.cfg.stagedSrc % 4 ∧ (s.structureLoaded m).get F.CFG_STATUS_STAGED = 0 ∧
      (s.structureLoaded m).cfg.staged = none ∧ (s.structureLoaded m).get F.LPE_TOPO_N_PH = (m.word 5 0 0).toNat % 8 ∧
      (s.structureLoaded m).get F.GLB_COMMIT_STATUS_STATE = 0 := by
  have hw := s.commitWithdraw_frame
  have hwslots := hw.sameSlots rfl
  obtain ⟨hwf, hslots, hphases, hstate⟩ := State.applySections_effect (hw.wf hs) m
  rw [State.commitWithdraw_state hs] at hstate
  unfold State.structureLoaded
  generalize s.commitWithdraw.applySections false m = a at *
  obtain ⟨hframe, hgen, hsource, hstaged, hnone⟩ := State.stagedLoaded_effect hwf m s.cfg.stagedSrc
  have hlast := hframe.sameSlots rfl
  have hloaded := State.imageLoaded_loaded (State.dropStaged_wf hwf) m s.cfg.stagedSrc
  refine ⟨hframe.wf hwf, fun n hn => ⟨?_, fun ht => ?_⟩, hloaded, hgen, hsource, hstaged, hnone, ?_, ?_⟩
  · exact (hlast.jobType hn).trans ((hslots n hn).1.trans (hwslots.jobType hn))
  · exact (hlast.jobState hn).trans (((hslots n hn).2 ((hwslots.jobType hn).trans ht)).trans (hwslots.jobState hn))
  · exact (hframe.get rfl).trans hphases
  · exact (hframe.get rfl).trans hstate

/-- RESTRUCTURE_SWAP: the staged image is the one loaded, and the job is committed. -/
theorem restructureSwap_swaps {s : State} {k : Nat} {m : Image} (hs : s.Wf) (hrun : s.coreRun = true)
    (hrunning : s.findRunning Job.restructure = some k) (hk : s.findJob Job.restructure = some k) (hm : s.cfg.staged = some m)
    (hdue : s.cfg.rsNow = true ∨ (s.blankDue = true ∧ s.rsDue = true)) :
    Completes .restructureSwap s fun t =>
      t.get F.CFG_RS_STATUS_PHASE = 2 ∧ t.get (F.PWR_JOBn_STATUS_COMMITTED k) = 1 ∧ t.jobState k = 1 ∧ t.cfg.rsNow = false ∧
      t.get F.CFG_STATUS_LOADED = 1 ∧ t.get F.CFG_STATUS_GEN = m.gen % 65536 ∧ t.get F.CFG_STATUS_SOURCE = s.cfg.stagedSrc % 4 ∧
      t.get F.CFG_STATUS_STAGED = 0 ∧ t.cfg.staged = none ∧ t.get F.LPE_TOPO_N_PH = (m.word 5 0 0).toNat % 8 ∧
      t.get F.GLB_COMMIT_STATUS_STATE = 0 := by
  obtain ⟨hwf, hslots, hloaded, hgen, hsource, hstaged, hnone, hphases, hcommit⟩ := State.structureLoaded_effect hs m
  have hexec := execRestructureSwap_due hrun hrunning hm hdue
  generalize s.structureLoaded m = l at *
  let c : State := { l with cfg := { l.cfg with keyed := s.cfg.stagedKeyed, rsNow := false } }
  let p := c.put F.CFG_RS_STATUS_PHASE 2
  have hc : c.Wf := hwf
  have hp : Frame [.reg A.CFG_RS_STATUS] [.cfg] l p := .put (.cfg .refl rfl rfl) rfl
  have hpwf := hp.wf hwf
  have hpslots := hp.sameSlots rfl
  have hfind : p.findJob Job.restructure = some k := (hpslots.findJob _).trans ((State.findJob_of_type hslots).trans hk)
  have hk4 := State.findJob_lt hk
  obtain ⟨hstate, htype⟩ := State.findRunning_found hrunning
  have heq : p.jobCommitOf Job.restructure = p.jobCommit k := State.jobCommitOf_eq hfind
  have hend := p.jobCommit_frame k
  have hget : ∀ f : Field, f.addr ∉ jobRegs → (p.jobCommit k).get f = p.get f := fun f hf => hend.get (covers_jobReg hk4 hf)
  have hcfg : (p.jobCommit k).cfg = c.cfg := hend.part .cfg rfl
  refine ⟨_, hexec.trans (congrArg Host.Outcome.next heq), ?_, State.get_put_self hpwf (jobCommitted_ok k), ?_, ?_, ?_, ?_, ?_, ?_, ?_, ?_, ?_⟩
  · exact (hget _ (by decide)).trans (State.get_put_self hc (by decide))
  · exact (State.jobCommit_same hpwf k hk4).1.trans ((hpslots.jobState hk4).trans (((hslots k hk4).2 htype).trans hstate))
  · exact congrArg Cfg.rsNow hcfg
  · exact (hget _ (by decide)).trans ((hp.get rfl).trans hloaded)
  · exact (hget _ (by decide)).trans ((hp.get rfl).trans hgen)
  · exact (hget _ (by decide)).trans ((hp.get rfl).trans hsource)
  · exact (hget _ (by decide)).trans ((hp.get rfl).trans hstaged)
  · exact (congrArg Cfg.staged hcfg).trans hnone
  · exact (hget _ (by decide)).trans ((hp.get rfl).trans hphases)
  · exact (hget _ (by decide)).trans ((hp.get rfl).trans hcommit)

/-! ### The obligation -/

/-- Settles O51: a job is suspended at its point, the writer writes whole units in turn, an image is staged or rejected, and a
restructure swaps or gives up. -/
theorem jobWorkAndImages : Obligations.JobWorkAndImages := by
  unfold Obligations.JobWorkAndImages
  refine ⟨fun n pos s hs hwait hrun => ⟨fun ht j hj hle hlen hpos htile => ?_, fun ht => ?_⟩, fun s w ws u us hs htasks hunits hidle hrun hok hheld ho => ?_,
    fun s w ws hs htasks ho hunits hidle hrun hok => ?_,
    fun s w ws u us hs htasks hunits hunit => ⟨fun hmore ho => ?_, fun hnil ho => ?_, fun hnil ho hend k hk => ?_⟩,
    fun bytes s k hs hrun hk hrunning hsrc hlc => ⟨fun r hr hcheck => ?_, fun m hcheck => ?_⟩,
    fun s k hs hrunning hk hticks => ?_, fun who v s hs hw hk => ?_, fun s k m hs hrun hrunning hk hm hdue => ?_,
    fun s k hs hk hphase hinstants hheld => ?_⟩
  · exact jobSuspended_scan hs hwait hrun ht hj hle hlen hpos htile
  · exact jobSuspended_load hs hwait hrun ht
  · exact nvmUnitStart_first hs htasks hunits hidle hrun hok hheld ho
  · exact nvmUnitStart_floor htasks ho hunits hidle hrun hok
  · exact nvmUnitDone_next hs htasks hunits hunit hmore ho
  · subst hnil
    exact nvmUnitDone_floor hs htasks hunits hunit ho
  · subst hnil
    exact nvmUnitDone_written hs htasks hunits hunit ho hend hk
  · have hexec := execImageStaged_flash (bytes := bytes) hrun hrunning hsrc
    rw [State.imgStage_fails hlc hcheck] at hexec
    exact ⟨_, hexec, State.loadFail_effect hs hk hr⟩
  · exact ⟨_, execImageStaged_flash hrun hrunning hsrc, State.imgStage_passes hs hk hlc hcheck⟩
  · obtain ⟨hstate, hresult, hreason, hcfg, -⟩ := State.loadFail_effect hs hk (r := Reason.timeout) (by decide)
    exact ⟨_, execBodyReadTimeout_due hrunning hticks, hstate, hresult, hreason, hcfg⟩
  · exact dropImage_drops hs hw hk
  · exact restructureSwap_swaps hs hrun hrunning hk hm hdue
  · exact restructureNoOasis_fails hs hk hphase hinstants hheld

end Sys2Proof.Machine
end

section
/-!
The commands of a job slot, and the start of a job that its own block does not decide (R438, R439).
-/

namespace Sys2Proof.Machine

/-! ### The command of a slot -/

/-- A command that starts a job of the type: by its number, or by its name. -/
def Starts (who : Initiator) (n : BitVec 2) (c : Instr) (ty : Nat) : Prop :=
  c = Instr.startJob who n (BitVec.ofNat 4 ty) ∧ ty < 16 ∨
    (c, ty) ∈ [(Instr.memScan who n, 1), (Instr.nvmWrite who n, 2), (Instr.bistRun who n, 3), (Instr.calRun who n, 4),
      (Instr.imageLoad who n, 5), (Instr.restructure who n, 6), (Instr.defectRebuild who n, 7), (Instr.lifecycle who n, 8),
      (Instr.recCheckpoint who n, 9)]

section
variable {who : Initiator} {n : BitVec 2} {c : Instr} {ty : Nat} {s : State}

theorem Starts.lt (h : Starts who n c ty) : ty < 16 := by
  rcases h with ⟨-, h⟩ | h
  · exact h
  · simp only [List.mem_cons, Prod.mk.injEq, List.not_mem_nil, or_false] at h
    omega

/-- Every start is the command 1 of the slot. -/
theorem Starts.exec_eq (h : Starts who n c ty) (hw : s.writable (A.PWR_JOBn_CMD n.toNat)) :
    exec c s = .next (s.jobCommand n.toNat 1 ty).accepted := by
  have hport : s.jobPort who n 1 ty = (s.jobCommand n.toNat 1 ty).accepted := State.portWrite_open hw
  rcases h with ⟨rfl, hty⟩ | h
  · have hnum : (BitVec.ofNat 4 ty).toNat = ty := by
      rw [BitVec.toNat_ofNat]
      exact Nat.mod_eq_of_lt hty
    change Host.Outcome.next (s.jobPort who n 1 (BitVec.ofNat 4 ty).toNat) = _
    rw [hnum, hport]
  · simp only [List.mem_cons, Prod.mk.injEq, List.not_mem_nil, or_false] at h
    rcases h with ⟨rfl, rfl⟩ | ⟨rfl, rfl⟩ | ⟨rfl, rfl⟩ | ⟨rfl, rfl⟩ | ⟨rfl, rfl⟩ | ⟨rfl, rfl⟩ | ⟨rfl, rfl⟩ | ⟨rfl, rfl⟩ | ⟨rfl, rfl⟩ <;>
      exact congrArg Host.Outcome.next hport

/-- SUSPEND, RESUME and CANCEL are the commands 2 to 4. -/
theorem slotCommand_eq (hw : s.writable (A.PWR_JOBn_CMD n.toNat)) :
    exec (.suspendJob who n) s = .next (s.jobCommand n.toNat 2 0).accepted ∧
      exec (.resumeJob who n) s = .next (s.jobCommand n.toNat 3 0).accepted ∧
      exec (.cancelJob who n) s = .next (s.jobCommand n.toNat 4 0).accepted :=
  ⟨congrArg Host.Outcome.next (State.portWrite_open hw), congrArg Host.Outcome.next (State.portWrite_open hw),
    congrArg Host.Outcome.next (State.portWrite_open hw)⟩

end

section
variable {s : State} {k ty : Nat}

theorem State.jobCommand_start_active (h : s.jobActive k = true) : s.jobCommand k 1 ty = s.cmdIgnored k := by
  simp [State.jobCommand, h]

theorem State.jobCommand_start (h : s.jobActive k = false) : s.jobCommand k 1 ty = s.jobStart k ty := by
  simp [State.jobCommand, h]

theorem State.jobCommand_inactive (h : s.jobActive k = false) {cmd : Nat} (hcmd : cmd ∈ [2, 3, 4]) :
    s.jobCommand k cmd 0 = s.cmdIgnored k := by
  simp only [List.mem_cons, List.not_mem_nil, or_false] at hcmd
  rcases hcmd with rfl | rfl | rfl <;> simp [State.jobCommand, h]

theorem State.jobActive_running (h : s.jobState k = 1) : s.jobActive k = true := by
  simp [State.jobActive, h, Job.running]

theorem State.jobActive_suspended (h : s.jobState k = 2) : s.jobActive k = true := by
  simp [State.jobActive, h, Job.suspended]

theorem State.jobCommand_suspend (h : s.jobState k = 1) : s.jobCommand k 2 0 = s.jobSuspend k := by
  simp [State.jobCommand, State.jobActive_running h, h, Job.running]

theorem State.jobCommand_suspend_suspended (h : s.jobState k = 2) : s.jobCommand k 2 0 = s := by
  simp [State.jobCommand, State.jobActive_suspended h, h, Job.running]

theorem State.jobCommand_resume (h : s.jobState k = 2) : s.jobCommand k 3 0 = s.jobResume k := by
  simp [State.jobCommand, State.jobActive_suspended h, h, Job.suspended]

theorem State.jobCommand_resume_running (h : s.jobState k = 1) : s.jobCommand k 3 0 = s := by
  simp [State.jobCommand, State.jobActive_running h, h, Job.suspended]

theorem State.jobCommand_cancel (h : s.jobActive k = true) : s.jobCommand k 4 0 = (s.setSuspend k false).jobStop k true := by
  simp [State.jobCommand, h]

/-! ### A slot that begins a job -/

/-- The slot as a START finds it: its type, with COMMITTED and REASON cleared. -/
def State.jobBegun (s : State) (k ty : Nat) : State :=
  (((s.setSuspend k false).put (F.PWR_JOBn_STATUS_TYPE k) ty).put (F.PWR_JOBn_STATUS_COMMITTED k) 0).put (F.PWR_JOBn_STATUS_REASON k) 0

/-- The slot of a job that its owner is asked to start. -/
def State.jobStarted (s : State) (k ty : Nat) : State := (s.jobBegun k ty).put (F.PWR_JOBn_STATUS_STATE k) Job.running

/-- The slot shows the type, with COMMITTED and REASON clear. -/
structure Begun (k ty : Nat) (s u : State) : Prop where
  frame : Frame [.reg (A.PWR_JOBn_STATUS k)] [.pwr] s u
  wf : u.Wf
  type : u.jobType k = ty
  committed : u.get (F.PWR_JOBn_STATUS_COMMITTED k) = 0
  reason : u.get (F.PWR_JOBn_STATUS_REASON k) = 0

theorem State.jobBegun_begun (hs : s.Wf) (k : Nat) (hty : ty < 16) : Begun k ty s (s.jobBegun k ty) := by
  have h0 : (s.setSuspend k false).Wf := hs
  have h1 : ((s.setSuspend k false).put (F.PWR_JOBn_STATUS_TYPE k) ty).Wf := State.put_wf h0
  have h2 := State.put_wf (f := F.PWR_JOBn_STATUS_COMMITTED k) (v := 0) h1
  refine ⟨.put (.put (.put (.pwr .refl rfl) writes_slot) writes_slot) writes_slot, State.put_wf h2, ?_, ?_, ?_⟩
  · refine (State.get_put_ne h2 (jobReason_ok k) (.inr (.inl (Nat.le_of_ble_eq_true rfl)))).trans ?_
    refine (State.get_put_ne h1 (jobCommitted_ok k) (.inr (.inl (Nat.le_of_ble_eq_true rfl)))).trans ?_
    exact (State.get_put_self h0 (jobType_ok k)).trans (Nat.mod_eq_of_lt hty)
  · refine (State.get_put_ne h2 (jobReason_ok k) (.inr (.inr (Nat.le_of_ble_eq_true rfl)))).trans ?_
    exact State.get_put_self h1 (jobCommitted_ok k)
  · exact State.get_put_self h2 (jobReason_ok k)

/-- The slots that are not `k`'s stay as they are. -/
theorem Begun.other {u : State} (h : Begun k ty s u) {n : Nat} (hn : n ≠ k) : u.jobState n = s.jobState n ∧ u.jobType n = s.jobType n := by
  have hget : ∀ f : Field, f.addr = A.PWR_JOBn_STATUS n → u.get f = s.get f := fun f hf => h.frame.get (by
    rw [hf, covers_reg_cons (jobReg_inj hn)]
    rfl)
  exact ⟨hget _ rfl, hget _ rfl⟩

/-! ### A START that fails -/

/-- The job of the slot is FAILED. -/
def JobFailed (k ty r : Nat) (t : State) : Prop :=
  t.jobState k = 5 ∧ t.jobType k = ty ∧ t.get (F.PWR_JOBn_STATUS_REASON k) = r ∧ t.get (F.PWR_JOBn_STATUS_COMMITTED k) = 0 ∧
    (t.reg A.GLB_IRQ_STATUS).getLsbD 19 = true

/-- The job of the slot is RUNNING. -/
def JobRuns (k ty : Nat) (t : State) : Prop :=
  t.jobState k = 1 ∧ t.jobType k = ty ∧ t.get (F.PWR_JOBn_STATUS_REASON k) = 0

theorem State.startFail_effect {u : State} (hu : u.Wf) (htype : u.jobType k = ty) (hcommitted : u.get (F.PWR_JOBn_STATUS_COMMITTED k) = 0)
    {r : Nat} (hr : r < 16) : JobFailed k ty r (u.startFail k r) ∧ Frame (endSpans k) [.lnk] u (u.startFail k r) := by
  let v := u.put (F.PWR_JOBn_STATUS_REASON k) r
  have hv : Frame (endSpans k) [.lnk] u v := .put .refl writes_slot
  have hvwf := hv.wf hu
  refine ⟨⟨State.jobEnd_state hvwf k (by decide), ?_, ?_, ?_, State.jobEnd_event hvwf k _⟩, hv.trans (v.jobEnd_frame k _)⟩
  · refine (State.jobEnd_beside hvwf _ rfl (Nat.le_of_ble_eq_true rfl)).trans ?_
    exact (State.get_put_ne hu (jobReason_ok k) (.inr (.inl (Nat.le_of_ble_eq_true rfl)))).trans htype
  · refine (State.jobEnd_beside hvwf _ rfl (Nat.le_of_ble_eq_true rfl)).trans ?_
    exact (State.get_put_self hu (jobReason_ok k)).trans (Nat.mod_eq_of_lt hr)
  · refine (State.jobEnd_beside hvwf _ rfl (Nat.le_of_ble_eq_true rfl)).trans ?_
    exact (State.get_put_ne hu (jobReason_ok k) (.inr (.inr (Nat.le_of_ble_eq_true rfl)))).trans hcommitted

/-- A START that no owner decides on. -/
theorem State.jobStart_refused (h : s.startRefusal k ty ≠ 0) :
    s.jobStart k ty = ((s.jobBegun k ty).startNotice ty).startFail k (s.startRefusal k ty) := by
  unfold State.jobStart
  dsimp only
  rw [if_pos (by simpa using h)]
  rfl

/-- A START that the owner of the type decides on. -/
theorem State.jobStart_owner (h : s.startRefusal k ty = 0) :
    s.jobStart k ty = if ((s.jobStarted k ty).ownerStart ty).2 then ((s.jobStarted k ty).ownerStart ty).1
      else ((s.jobStarted k ty).ownerStart ty).1.startFail k JobReason.owner := by
  unfold State.jobStart
  dsimp only
  rw [h, if_neg (by decide)]
  rfl

/-- What a START that is refused without its owner leaves of the slot. -/
theorem State.startNotice_frame (s : State) (ty : Nat) :
    Frame [.reg A.CHK_STATUS, .window 15] [.cfg] s (s.startNotice ty) :=
  .ite (.put (.put .refl rfl) rfl) (.ite (.mono s.newChallenge_frame rfl) .refl)

/-- A START that is refused without its owner fails. -/
theorem State.jobStart_fails (hs : s.Wf) (hk : k < 4) (hty : ty < 16) {r : Nat} (hr : s.startRefusal k ty = r) (h0 : r ≠ 0) (h16 : r < 16) :
    JobFailed k ty r (s.jobStart k ty) ∧
      Frame (endSpans k) [.lnk] ((s.jobBegun k ty).startNotice ty) (s.jobStart k ty) := by
  have hb := State.jobBegun_begun hs k hty
  have hn := (s.jobBegun k ty).startNotice_frame ty
  have hslots := hn.sameSlots rfl
  rw [State.jobStart_refused (hr ▸ h0), hr]
  exact State.startFail_effect (hn.wf hb.wf) ((hslots.jobType hk).trans hb.type) ((hslots.get hk rfl).trans hb.committed) h16

theorem State.startRefusal_type (h : ty = 0 ∨ 10 ≤ ty) : s.startRefusal k ty = 1 := if_pos h

theorem State.startRefusal_busy (h1 : 1 ≤ ty) (h9 : ty ≤ 9) {j : Nat} (hj : j < 4) (hne : j ≠ k) (hactive : s.jobActive j = true)
    (htype : s.jobType j = ty) : s.startRefusal k ty = 2 := by
  unfold State.startRefusal
  rw [if_neg (by omega), if_pos]
  · rfl
  · rw [List.any_eq_true]
    exact ⟨j, List.mem_range.2 hj, by simp [hne, hactive, htype]⟩

theorem State.startRefusal_free (h1 : 1 ≤ ty) (h9 : ty ≤ 9) (hfree : ∀ j, j < 4 → s.jobActive j = false) :
    s.startRefusal k ty = if s.awake then 0 else 3 := by
  have hnone : ((List.range 4).any fun m => m != k && s.jobActive m && s.jobType m == ty) = false := by
    rw [List.any_eq_false]
    intro m hm
    simp [hfree m (List.mem_range.1 hm)]
  unfold State.startRefusal
  rw [if_neg (by omega), hnone, if_neg (by decide)]
  cases s.awake <;> rfl

end

end Sys2Proof.Machine
end

section
/-!
A slot whose job has been started, and the owners of MEM_SCAN, NVM_WRITE and IMAGE_LOAD (R87, R88, R405, R411, R438).
-/

namespace Sys2Proof.Machine

/-! ### A slot whose job has been started -/

/-- The registers of the job slots. -/
abbrev slotSpans : List Span := [⟨A.PWR_JOBn_CMD 0, A.PWR_JOBn_CMD 4⟩]

/-- The one active slot runs a job of the type. -/
structure Started (k ty : Nat) (s u : State) : Prop where
  frame : Frame slotSpans [.pwr] s u
  slot : k < 4
  wf : u.Wf
  state : u.jobState k = 1
  type : u.jobType k = ty
  committed : u.get (F.PWR_JOBn_STATUS_COMMITTED k) = 0
  reason : u.get (F.PWR_JOBn_STATUS_REASON k) = 0
  alone : ∀ n, n < 4 → n ≠ k → u.jobActive n = false

section
variable {s u x : State} {k ty : Nat} {L : List Span} {ps : List Part}

theorem State.jobStarted_started (hs : s.Wf) (hk : k < 4) (hty : ty < 16) (hfree : ∀ j, j < 4 → s.jobActive j = false) :
    Started k ty s (s.jobStarted k ty) := by
  have hb := State.jobBegun_begun hs k hty
  have hput : Frame [.reg (A.PWR_JOBn_STATUS k)] [.pwr] s (s.jobStarted k ty) := .put hb.frame writes_slot
  have hbeside : ∀ f : Field, f.addr = A.PWR_JOBn_STATUS k → 2 < f.lo → (s.jobStarted k ty).get f = (s.jobBegun k ty).get f :=
    fun f _ hlo => State.get_put_ne hb.wf (jobState_ok k) (.inr (.inr hlo))
  refine ⟨hput.mono (by interval_cases k <;> rfl), hk, hput.wf hs, State.get_put_self hb.wf (jobState_ok k), ?_, ?_, ?_, fun n hn hne => ?_⟩
  · exact (hbeside _ rfl (Nat.le_of_ble_eq_true rfl)).trans hb.type
  · exact (hbeside _ rfl (Nat.le_of_ble_eq_true rfl)).trans hb.committed
  · exact (hbeside _ rfl (Nat.le_of_ble_eq_true rfl)).trans hb.reason
  · have hstate : (s.jobStarted k ty).jobState n = s.jobState n := hput.get (by
      change covers _ (A.PWR_JOBn_STATUS n) = false
      rw [covers_reg_cons (jobReg_inj hne)]
      rfl)
    rw [← hfree n hn]
    unfold State.jobActive
    rw [hstate]

theorem Started.findJob (h : Started k ty s u) : u.findJob ty = some k := by
  cases hf : u.findJob ty with
  | none =>
    have hk := List.find?_eq_none.1 hf k (List.mem_range.2 h.slot)
    simp [State.jobActive_running h.state, h.type] at hk
  | some n =>
    obtain ⟨hn, hactive, -⟩ := State.findJob_found hf
    by_contra hne
    exact absurd hactive (by simp [h.alone n hn fun he => hne (he ▸ rfl)])

theorem Started.findJob_other (h : Started k ty s u) {ty' : Nat} (hne : ty' ≠ ty) : u.findJob ty' = none := by
  refine State.findJob_none fun n hn hactive htype => ?_
  by_cases hnk : n = k
  · exact hne (htype.symm.trans (hnk ▸ h.type))
  · exact absurd hactive (by simp [h.alone n hn hnk])

/-- An owner that does not touch the slots leaves the job RUNNING. -/
theorem Started.runs (h : Started k ty s u) (hx : Frame L ps u x) (hd : jobRegs.any (covers L) = false) : JobRuns k ty x := by
  have hslots := hx.sameSlots hd
  exact ⟨(hslots.jobState h.slot).trans h.state, (hslots.jobType h.slot).trans h.type, (hslots.get h.slot rfl).trans h.reason⟩

/-- An owner that refuses: the job is FAILED with OWNER. -/
theorem Started.fails (h : Started k ty s u) (hx : Frame L ps u x) (hd : jobRegs.any (covers L) = false) :
    JobFailed k ty 4 (x.startFail k JobReason.owner) ∧ Frame (endSpans k) [.lnk] x (x.startFail k JobReason.owner) := by
  have hslots := hx.sameSlots hd
  exact State.startFail_effect (hx.wf h.wf) ((hslots.jobType h.slot).trans h.type) ((hslots.get h.slot rfl).trans h.committed) (by decide)

theorem State.jobStart_accepts (hfree : s.startRefusal k ty = 0) (howner : (s.jobStarted k ty).ownerStart ty = (x, true)) :
    s.jobStart k ty = x := by
  rw [State.jobStart_owner hfree, howner, if_pos rfl]

theorem State.jobStart_denies (hfree : s.startRefusal k ty = 0) (howner : (s.jobStarted k ty).ownerStart ty = (x, false)) :
    s.jobStart k ty = x.startFail k JobReason.owner := by
  rw [State.jobStart_owner hfree, howner, if_neg Bool.false_ne_true]

/-! ### MEM_SCAN (R87, R88, R90) -/

theorem Frame.post_eq (h : Frame L ps s x) (hd : covers L A.BST_STATUS = false) : x.post = s.post := h.flag hd

/-- The tiles of a range in the layer memory. -/
theorem tilesOf_lt {a n t : Nat} (hbase : layerBase ≤ a) (hend : a + n ≤ layerEnd) (ht : t ∈ tilesOf a n) : t < tileCount := by
  have hn : 1 ≤ n := by
    by_contra h0
    rw [tilesOf, if_pos (by omega)] at ht
    cases ht
  obtain ⟨i, hi, rfl⟩ := (mem_tilesOf hbase hn).1 ht
  exact tileOf_lt (by simp only [layerEnd] at hend; omega)

/-- A range in a window that begins in the layer memory lies in it. -/
theorem range_layer {a n : Nat} (hin : rangeInWindow a n = true) (hlt : a < layerEnd) : layerBase ≤ a ∧ a + n ≤ layerEnd := by
  have hbase : ¬ nvmBase ≤ a := by
    simp only [nvmBase, layerEnd] at hlt ⊢
    omega
  simpa [rangeInWindow, hbase] using hin

theorem Frame.scanRefusal_eq (h : Frame L ps s x)
    (hd : (A.CHK_ADDR :: A.CHK_LEN :: A.BST_STATUS :: A.PWR_DOM :: bankRegs).any (covers L) = false)
    (hp : ps.contains .lmc = false) : x.scanRefusal = s.scanRefusal := by
  simp only [List.any_cons, Bool.or_eq_false_iff] at hd
  obtain ⟨haddr, hlen, hpost, hdom, hmap⟩ := hd
  have htiles : ∀ a n, rangeInWindow a n = true → a < layerEnd →
      ((tilesOf a n).any fun t => !x.tileOn t) = (tilesOf a n).any fun t => !s.tileOn t := by
    intro a n hin hlt
    obtain ⟨hbase, hend⟩ := range_layer hin hlt
    rw [Bool.eq_iff_iff, List.any_eq_true, List.any_eq_true]
    refine exists_congr fun t => and_congr_right fun ht => ?_
    rw [h.tileOn_eq (by simp only [List.any_cons, Bool.or_eq_false_iff]; exact ⟨hdom, hmap⟩) (tilesOf_lt hbase hend ht)]
  have hlmc : x.lmc = s.lmc := h.part .lmc hp
  unfold State.scanRefusal
  rw [h.get haddr, h.get hlen, hlmc, h.post_eq hpost]
  dsimp only
  by_cases hin : rangeInWindow (s.get F.CHK_ADDR_ADDR) (s.get F.CHK_LEN_LEN) = true
  · by_cases hlt : s.get F.CHK_ADDR_ADDR < layerEnd
    · rw [htiles _ _ hin hlt]
    · simp [hlt]
  · rw [if_pos (by simpa using hin), if_pos (by simpa using hin)]

/-- START of a MEM_SCAN that is accepted: the scan stands at the start of its range. -/
theorem Started.scan (h : Started k Job.memScan s u) (hr : s.scanRefusal = 0) (hlen : s.get F.CHK_LEN_LEN ≠ 0) :
    ∃ x, u.ownerStart Job.memScan = (x, true) ∧ JobRuns k 1 x ∧ x.get F.CHK_PROGRESS_DONE = 0 ∧
      x.lmc.scan = some { addr := s.get F.CHK_ADDR_ADDR, len := s.get F.CHK_LEN_LEN, seed := s.reg A.CHK_SEED, pos := 0,
                          run := ~~~ s.reg A.CHK_SEED } := by
  have hru : u.scanRefusal = 0 := (h.frame.scanRefusal_eq rfl rfl).trans hr
  have hseed : u.reg A.CHK_SEED = s.reg A.CHK_SEED := h.frame.reg _ rfl
  let x : State := { u.put F.CHK_PROGRESS_DONE 0 with lmc := { u.lmc with scan := some {
    addr := u.get F.CHK_ADDR_ADDR, len := u.get F.CHK_LEN_LEN, seed := u.reg A.CHK_SEED, pos := 0,
    run := u.reg A.CHK_SEED ^^^ 0xFFFFFFFF#32 } } }
  have hx : Frame [.reg A.CHK_PROGRESS] [.lmc] u x := .lmc (.put .refl rfl) rfl
  have hstart : u.scanStart = (x, true) := by
    unfold State.scanStart
    dsimp only
    rw [if_neg (by simpa using hru)]
    rfl
  refine ⟨x, ?_, h.runs hx rfl, State.get_put_self h.wf (by decide), ?_⟩
  · change u.scanBegin = _
    unfold State.scanBegin
    rw [hstart, h.frame.get rfl]
    simp [hlen]
  · change some _ = some _
    rw [h.frame.get rfl, h.frame.get rfl, hseed]
    exact congrArg (fun w => some (ScanJob.mk _ _ _ 0 w)) BitVec.xor_allOnes

/-- START of a MEM_SCAN that is refused (R90). -/
theorem Started.scanRefused (h : Started k Job.memScan s u) (hr : s.scanRefusal ≠ 0) :
    ∃ x, u.ownerStart Job.memScan = (x, false) ∧ JobFailed k 1 4 (x.startFail k JobReason.owner) ∧
      (x.startFail k JobReason.owner).get F.CHK_STATUS_REASON = s.scanRefusal ∧
      (x.startFail k JobReason.owner).get F.CHK_STATUS_RESULT = 2 := by
  have hru : u.scanRefusal = s.scanRefusal := h.frame.scanRefusal_eq rfl rfl
  have hlt : s.scanRefusal < 16 := by
    unfold State.scanRefusal
    dsimp only
    split_ifs <;> decide
  let u1 := u.put F.CHK_STATUS_RESULT 2
  let x := u1.put F.CHK_STATUS_REASON s.scanRefusal
  have h1 : u1.Wf := State.put_wf h.wf
  have hx : Frame [.reg A.CHK_STATUS] [] u x := .put (.put .refl rfl) rfl
  have hstart : u.scanStart = (x, false) := by
    unfold State.scanStart
    dsimp only
    rw [hru, if_pos hr]
  obtain ⟨hfailed, hframe⟩ := h.fails hx rfl
  refine ⟨x, ?_, hfailed, ?_, ?_⟩
  · change u.scanBegin = _
    unfold State.scanBegin
    rw [hstart]
    rfl
  · exact (hframe.get (covers_endSpans h.slot (by decide))).trans ((State.get_put_self h1 (by decide)).trans (Nat.mod_eq_of_lt hlt))
  · exact (hframe.get (covers_endSpans h.slot (by decide))).trans
      ((State.get_put_ne h1 (by decide) (by decide)).trans (State.get_put_self h.wf (by decide)))

/-! ### NVM_WRITE (R411) -/

theorem Frame.nvRefusal_eq (h : Frame L ps s x) (hd : [A.CAL_GEN, A.SAF_OASIS_STATUS].any (covers L) = false)
    (hp : ps.contains .nvm = false) (src dst len : Nat) : x.nvRefusal src dst len = s.nvRefusal src dst len := by
  simp only [List.any_cons, List.any_nil, Bool.or_eq_false_iff] at hd
  obtain ⟨hgen, hvalid, -⟩ := hd
  have hnvm : x.nvm = s.nvm := h.part .nvm hp
  have hcopy : ∀ b, x.chooseCopy b = s.chooseCopy b := by
    intro b
    unfold State.chooseCopy State.oasisPreferB State.oasisNewerB State.copyValid State.oasisTableOk State.oasisGen State.nvWord
      State.nvBytes State.nvByte
    rw [h.get hvalid, hnvm]
  have hsrc : x.calSrc = s.calSrc := by
    unfold State.calSrc
    rw [h.get hgen]
  unfold State.nvRefusal State.nvInUse
  rw [hsrc]
  simp only [hcopy]

/-- START of an NVM_WRITE that is accepted: its range is held, and its task joins the writers. -/
theorem Started.nvWrite (h : Started k Job.nvmWrite s u)
    (hr : s.nvRefusal (s.get F.CFG_NVM_SRC_VALUE) (s.get F.CFG_NVM_DST_VALUE) (s.get F.CFG_NVM_LEN_VALUE) = 0)
    (hlen : s.get F.CFG_NVM_LEN_VALUE ≠ 0) :
    ∃ x, u.ownerStart Job.nvmWrite = (x, true) ∧ JobRuns k 2 x ∧
      x.nvmw.tasks = s.nvmw.tasks ++ [{ owner := 2, units := [] }] ∧ x.cfg.nvPos = 0 ∧
      x.cfg.nvSrc = s.get F.CFG_NVM_SRC_VALUE ∧ x.cfg.nvDst = s.get F.CFG_NVM_DST_VALUE ∧
      x.cfg.nvLen = s.get F.CFG_NVM_LEN_VALUE := by
  have hru : u.nvRefusal (u.get F.CFG_NVM_SRC_VALUE) (u.get F.CFG_NVM_DST_VALUE) (u.get F.CFG_NVM_LEN_VALUE) = 0 := by
    rw [h.frame.nvRefusal_eq rfl rfl, h.frame.get rfl, h.frame.get rfl, h.frame.get rfl]
    exact hr
  let x : State := { u with
    cfg := { u.cfg with nvSrc := u.get F.CFG_NVM_SRC_VALUE, nvDst := u.get F.CFG_NVM_DST_VALUE,
                        nvLen := u.get F.CFG_NVM_LEN_VALUE, nvPos := 0 }
    nvmw := { u.nvmw with tasks := u.nvmw.tasks ++ [{ owner := Job.nvmWrite, units := [] }] } }
  have hx : Frame [] [.cfg, .nvmw] u x := .upd .refl rfl id
  have hnvmw : u.nvmw = s.nvmw := h.frame.part .nvmw rfl
  refine ⟨x, ?_, h.runs hx rfl, ?_, rfl, h.frame.get rfl, h.frame.get rfl, h.frame.get rfl⟩
  · change u.nvStart = _
    unfold State.nvStart
    dsimp only
    rw [hru, if_neg (by decide), if_neg (by rw [h.frame.get rfl]; exact hlen)]
  · change u.nvmw.tasks ++ _ = _
    rw [hnvmw]
    rfl

/-! ### IMAGE_LOAD (R405) -/

theorem Started.loadRefusal_eq (h : Started k Job.imageLoad s u) (hfree : ∀ j, j < 4 → s.jobActive j = false) :
    u.loadRefusal = s.loadRefusal := by
  have hnone : s.findJob Job.restructure = none := State.findJob_none fun n hn ha => absurd ha (by simp [hfree n hn])
  have hlmem : u.lmem = s.lmem := h.frame.part .lmem rfl
  unfold State.loadRefusal State.genTerminal State.imgLeaves State.lmBytes State.lmByte
  rw [h.findJob_other (by decide), hnone, h.frame.get rfl, h.frame.get rfl, h.frame.flag rfl, h.frame.flag rfl, h.frame.get rfl,
    h.frame.post_eq rfl, hlmem]

/-- START of an IMAGE_LOAD that is accepted: its source is held. -/
theorem Started.load (h : Started k Job.imageLoad s u) (hfree : ∀ j, j < 4 → s.jobActive j = false) (hr : s.loadRefusal = 0) :
    ∃ x, u.ownerStart Job.imageLoad = (x, true) ∧ JobRuns k 5 x ∧ x.cfg.loadSrc = s.get F.CFG_IMG_SRC ∧
      x.cfg.loadAddr = s.get F.CFG_IMG_ADDR_ADDR ∧ x.cfg.loadTicks = 0 := by
  let x : State := { u with cfg := { u.cfg with
    loadSrc := u.get F.CFG_IMG_SRC, loadAddr := u.get F.CFG_IMG_ADDR_ADDR, loadTicks := 0 } }
  have hx : Frame [] [.cfg] u x := .cfg .refl rfl rfl
  refine ⟨x, ?_, h.runs hx rfl, h.frame.get rfl, h.frame.get rfl, rfl⟩
  change u.loadStart = _
  unfold State.loadStart
  dsimp only
  rw [h.loadRefusal_eq hfree, hr, if_neg (by decide)]

/-- START of an IMAGE_LOAD that is refused. -/
theorem Started.loadRefused (h : Started k Job.imageLoad s u) (hfree : ∀ j, j < 4 → s.jobActive j = false) (hr : s.loadRefusal ≠ 0)
    (hlt : s.loadRefusal < 32) :
    ∃ x, u.ownerStart Job.imageLoad = (x, false) ∧ JobFailed k 5 4 (x.startFail k JobReason.owner) ∧
      (x.startFail k JobReason.owner).get F.CFG_IMG_STATUS_RESULT = 2 ∧
      (x.startFail k JobReason.owner).get F.CFG_IMG_STATUS_REASON = s.loadRefusal := by
  let u1 := u.put F.CFG_IMG_STATUS_RESULT 2
  let x := u1.put F.CFG_IMG_STATUS_REASON s.loadRefusal
  have h1 : u1.Wf := State.put_wf h.wf
  have hx : Frame [.reg A.CFG_IMG_STATUS] [] u x := .put (.put .refl rfl) rfl
  obtain ⟨hfailed, hframe⟩ := h.fails hx rfl
  refine ⟨x, ?_, hfailed, ?_, ?_⟩
  · change u.loadStart = _
    unfold State.loadStart
    dsimp only
    rw [h.loadRefusal_eq hfree, if_pos (by simpa using hr)]
    rfl
  · exact (hframe.get (covers_endSpans h.slot (by decide))).trans
      ((State.get_put_ne h1 (by decide) (by decide)).trans (State.get_put_self h.wf (by decide)))
  · exact (hframe.get (covers_endSpans h.slot (by decide))).trans ((State.get_put_self h1 (by decide)).trans (Nat.mod_eq_of_lt hlt))

end

end Sys2Proof.Machine
end

section
/-!
The owners of BIST_RUN, CAL_RUN, RESTRUCTURE, DEFECT_REBUILD, LIFECYCLE and REC_CHECKPOINT (R219, R406, R407, R417, R453, R458,
R471).
-/

namespace Sys2Proof.Machine

section
variable {s u : State} {k : Nat}

/-! ### BIST_RUN (R453) -/

/-- The power-on self-test as it starts: layer memory is empty, and the job that asked for it is on record. -/
theorem State.postStart_content (s : State) (job : Bool) : (s.postStart job).lmem = [] ∧ (s.postStart job).bst.jobPost = job := by
  refine ⟨?_, rfl⟩
  let s1 := ((s.migrateAbandon.put F.BST_STATUS_POST 1).put F.LMC_STATUS_POST 1).tilesEmpty 3
  have h2 : Frame [.reg A.PWR_DOM] [] s1 (Machine.forUpto 17 (fun p s => s.setMem p true) s1) := .forUpto s1 fun p s _ => s.setMem_frame p true
  have hlmem : (Machine.forUpto 17 (fun p s => s.setMem p true) s1).lmem = s1.lmem := h2.part .lmem rfl
  exact hlmem

/-- START of a BIST_RUN that tests the module: the power-on self-test runs for the job. -/
theorem Started.bist (h : Started k Job.bistRun s u) (hmode : s.get F.BST_RUN_MODE = 1) (hopen : s.lcOpen = true) (hpower : s.power = 3)
    (hpost : s.post = false) :
    ∃ x, u.ownerStart Job.bistRun = (x, true) ∧ JobRuns k 3 x ∧ x.post = true ∧ x.get (F.PWR_JOBn_STATUS_COMMITTED k) = 1 ∧
      x.bst.jobPost = true ∧ x.get F.BST_STATUS_GROUP = 1 ∧ x.lmem = [] := by
  have hmodeu : u.get F.BST_RUN_MODE = 1 := (h.frame.get rfl).trans hmode
  have hlc : u.lcOpen = true := by
    rw [← hopen]
    unfold State.lcOpen State.lc
    rw [h.frame.get rfl]
  have hpow : u.power = 3 := (h.frame.get rfl).trans hpower
  have hpostu : u.post = false := (h.frame.post_eq rfl).trans hpost
  have hr : u.bistRefusal 1 = 0 := by simp [State.bistRefusal, hlc, hpow, hpostu, Power.idle]
  let v := u.put F.BST_RUN_STATUS_REASON 0
  have hv : v.Wf := State.put_wf h.wf
  have hvframe : Frame [.reg A.BST_RUN_STATUS] [] u v := .put .refl rfl
  obtain ⟨hframe, hpostv, hgroup, -⟩ := State.postStart_effect hv true
  obtain ⟨hlmem, hjob⟩ := v.postStart_content true
  have hstart : u.bistStart = ((v.postStart true).jobCommitOf Job.bistRun, true) := by
    unfold State.bistStart
    dsimp only
    rw [hmodeu, hr, if_neg (by decide), if_pos rfl]
  have hwf := hframe.wf hv
  have hslots := (hvframe.sameSlots rfl).trans (hframe.sameSlots rfl)
  generalize v.postStart true = p at *
  have hfind : p.findJob Job.bistRun = some k := (hslots.findJob _).trans h.findJob
  rw [State.jobCommitOf_eq hfind] at hstart
  have hcommit := p.jobCommit_frame k
  have hsame := State.jobCommit_same hwf k h.slot
  refine ⟨_, hstart, ⟨?_, ?_, ?_⟩, ?_, State.get_put_self hwf (jobCommitted_ok k), ?_, ?_, ?_⟩
  · exact hsame.1.trans ((hslots.jobState h.slot).trans h.state)
  · exact hsame.2.trans ((hslots.jobType h.slot).trans h.type)
  · refine (State.get_put_ne hwf (jobCommitted_ok k) (.inr (.inl (Nat.le_of_ble_eq_true rfl)))).trans ?_
    exact (hslots.get h.slot rfl).trans h.reason
  · exact (hcommit.post_eq (covers_jobReg h.slot (by decide))).trans hpostv
  · have hbst : (p.jobCommit k).bst = p.bst := hcommit.part .bst rfl
    exact (congrArg Bst.jobPost hbst).trans hjob
  · exact (hcommit.get (covers_jobReg h.slot (by decide))).trans hgroup
  · have hmem : (p.jobCommit k).lmem = p.lmem := hcommit.part .lmem rfl
    exact hmem.trans hlmem

/-- START of a BIST_RUN that the state of life does not open. -/
theorem Started.bistRefused (h : Started k Job.bistRun s u) (hmode : s.get F.BST_RUN_MODE = 1) (hopen : s.lcOpen = false) :
    ∃ x, u.ownerStart Job.bistRun = (x, false) ∧ JobFailed k 3 4 (x.startFail k JobReason.owner) ∧
      (x.startFail k JobReason.owner).get F.BST_RUN_STATUS_REASON = 1 := by
  have hmodeu : u.get F.BST_RUN_MODE = 1 := (h.frame.get rfl).trans hmode
  have hlc : u.lcOpen = false := by
    rw [← hopen]
    unfold State.lcOpen State.lc
    rw [h.frame.get rfl]
  have hr : u.bistRefusal 1 = 1 := by simp [State.bistRefusal, hlc]
  let x := u.put F.BST_RUN_STATUS_REASON 1
  have hx : Frame [.reg A.BST_RUN_STATUS] [] u x := .put .refl rfl
  obtain ⟨hfailed, hframe⟩ := h.fails hx rfl
  refine ⟨x, ?_, hfailed, (hframe.get (covers_endSpans h.slot (by decide))).trans (State.get_put_self h.wf (by decide))⟩
  change u.bistStart = _
  unfold State.bistStart
  dsimp only
  rw [hmodeu, hr, if_pos (by decide)]

/-! ### CAL_RUN (R458) -/

/-- The state in which the run of a LINK item alone is set up. -/
def State.calLinkAlone (s : State) : State :=
  let s1 := (s.put F.CAL_STATUS_ACCEPTED 0).put F.CAL_STATUS_FAILED 0
  ({ s1 with cal := { s1.cal with job := some (s.reg A.CAL_RUN), todo := [], vals := [] } }).calBegin
    { item := CalIt.link, auto := false, u := true, d := s1.portD0 }

theorem State.calLinkAlone_frame (s : State) : Frame [⟨A.CAL_CTRL, 0⟩] [.cal] s s.calLinkAlone :=
  .op (State.calBegin_frame _ _) (.cal (.put (.put .refl rfl) rfl) rfl) rfl

/-- A LINK item begins. -/
theorem State.calNext_link (hport : s.portU0 = true) (htodo : s.cal.todo = [CalIt.link]) :
    s.calNext = ({ s with cal := { s.cal with todo := [] } }).calBegin { item := CalIt.link, auto := false, u := true, d := s.portD0 } := by
  have hneeds : ∀ t : State, t.portU0 = true → t.calNeeds CalIt.link = t := fun t ht => by
    unfold State.calNeeds
    rw [if_neg (by simp [CalIt.link, CalIt.precharge]), if_neg (by simp [ht])]
  have hbegin : ∀ (t : State) (it : CalItem), (t.calBegin it).portU0 = t.portU0 := fun t it => by
    unfold State.portU0
    rw [(t.calBegin_frame it).get rfl, (t.calBegin_frame it).get rfl]
  unfold State.calNext
  rw [htodo]
  dsimp only
  rw [hport]
  exact hneeds _ ((hbegin _ _).trans hport)

/-- START of a CAL_RUN of the LINK item alone. -/
theorem State.calRunStart_link (hw : (s.reg A.CAL_RUN).toNat % 16 = 1) (hport : s.portU0 = true) (hrun : s.cal.run = none) :
    s.calRunStart = (s.calLinkAlone, true) := by
  have hstate : s.get F.LNK_U_STATUS_STATE = 7 := by
    simp only [State.portU0, Bool.and_eq_true, beq_iff_eq] at hport
    exact hport.1
  have hitems : wordGet (s.reg A.CAL_RUN) 3 0 = 1 := by simp [wordGet, hw]
  have hbit : bitOf (s.reg A.CAL_RUN).toNat 0 = true ∧ bitOf (s.reg A.CAL_RUN).toNat 1 = false ∧
      bitOf (s.reg A.CAL_RUN).toNat 2 = false ∧ bitOf (s.reg A.CAL_RUN).toNat 3 = false := by
    simp only [bitOf, beq_iff_eq, beq_eq_false_iff_ne]
    omega
  obtain ⟨h0, h1, h2, h3⟩ := hbit
  have htodo : ((List.range 4).filter fun i => bitOf (s.reg A.CAL_RUN).toNat i) = [CalIt.link] := by
    simp [List.range_succ, h0, h1, h2, h3, CalIt.link]
  let s1 := (s.put F.CAL_STATUS_ACCEPTED 0).put F.CAL_STATUS_FAILED 0
  have hs1 : Frame [.reg A.CAL_STATUS] [] s s1 := .put (.put .refl rfl) rfl
  have hport1 : s1.portU0 = true := by
    rw [← hport]
    unfold State.portU0
    rw [hs1.get rfl, hs1.get rfl]
  have hnone : s1.cal.run = none := hrun
  unfold State.calRunStart
  dsimp only
  rw [if_neg (by rw [hitems]; decide), if_neg (by simp [h2]), if_neg (by simp [h3]), if_neg (by simp [h1]), if_neg (by simp [hstate]),
    if_neg (by simp [h3]), if_neg (by simp [h3]), htodo]
  change (match s1.cal.run with | some it => _ | none => _) = _
  rw [hnone]
  exact congrArg (·, true) (State.calNext_link (s := { s1 with cal := { s1.cal with job := some (s.reg A.CAL_RUN), todo := [CalIt.link], vals := [] } })
    hport1 rfl)

/-- START of a CAL_RUN of the LINK item. -/
theorem Started.calRun (h : Started k Job.calRun s u) (hw : (s.reg A.CAL_RUN).toNat % 16 = 1) (hport : s.portU0 = true)
    (hrun : s.cal.run = none) :
    ∃ x, u.ownerStart Job.calRun = (x, true) ∧ JobRuns k 4 x ∧ x.cal.job = some (s.reg A.CAL_RUN) ∧ x.cal.todo = [] ∧
      x.get F.CAL_STATUS_BUSY = 1 ∧ x.get F.CAL_STATUS_ACCEPTED = 0 ∧ x.get F.CAL_STATUS_FAILED = 0 ∧
      (x.cal.run.map fun i => i.item) = some 0 := by
  have hreg : u.reg A.CAL_RUN = s.reg A.CAL_RUN := h.frame.reg _ rfl
  have hcal : u.cal = s.cal := h.frame.part .cal rfl
  have hportu : u.portU0 = true := by
    rw [← hport]
    unfold State.portU0
    rw [h.frame.get rfl, h.frame.get rfl]
  have hstart : u.calRunStart = (u.calLinkAlone, true) := State.calRunStart_link (by rw [hreg]; exact hw) hportu (by rw [hcal]; exact hrun)
  have h1 := State.put_wf (f := F.CAL_STATUS_ACCEPTED) (v := 0) h.wf
  have h2 := State.put_wf (f := F.CAL_STATUS_FAILED) (v := 0) h1
  have hput : ∀ f : Field, u.calLinkAlone.get f = (((u.put F.CAL_STATUS_ACCEPTED 0).put F.CAL_STATUS_FAILED 0).put F.CAL_STATUS_BUSY 1).get f :=
    fun _ => rfl
  refine ⟨_, hstart, h.runs u.calLinkAlone_frame rfl, congrArg some hreg, rfl, ?_, ?_, ?_, rfl⟩
  · exact (hput _).trans (State.get_put_self h2 (by decide))
  · refine (hput _).trans ((State.get_put_ne h2 (by decide) (by decide)).trans ((State.get_put_ne h1 (by decide) (by decide)).trans ?_))
    exact State.get_put_self h.wf (by decide)
  · exact (hput _).trans ((State.get_put_ne h2 (by decide) (by decide)).trans (State.get_put_self h1 (by decide)))

/-! ### RESTRUCTURE (R406, R407) -/

theorem Started.rsRefusal_eq (h : Started k Job.restructure s u) (hfree : ∀ j, j < 4 → s.jobActive j = false) :
    u.rsRefusal = s.rsRefusal := by
  have hnone : s.findJob Job.imageLoad = none := State.findJob_none fun n hn ha => absurd ha (by simp [hfree n hn])
  have hcfg : u.cfg = s.cfg := h.frame.part .cfg rfl
  have hdiffers : ∀ m, u.safetyDiffers m = s.safetyDiffers m := by
    intro m
    have hreg : ∀ a ∈ safetyRegs, u.reg a = s.reg a := fun a ha => h.frame.reg a (by
      have hall : safetyRegs.all (fun a => !covers slotSpans a) = true := rfl
      simpa using List.all_eq_true.1 hall a ha)
    unfold State.safetyDiffers
    rw [Bool.eq_iff_iff, List.any_eq_true, List.any_eq_true]
    refine exists_congr fun p => and_congr_right fun hp => ?_
    rw [hreg _ (List.fst_mem_of_mem_zipIdx hp)]
  unfold State.rsRefusal State.genTerminal State.nPh State.rail
  rw [hcfg, h.findJob_other (by decide), hnone, h.frame.flag rfl, h.frame.get rfl, h.frame.post_eq rfl, h.frame.get rfl, h.frame.get rfl,
    h.frame.flag rfl, h.frame.get rfl]
  simp only [hdiffers]

/-- START of a RESTRUCTURE with light to lose: the island is asked for the oasis. -/
theorem Started.restructure (h : Started k Job.restructure s u) (hfree : ∀ j, j < 4 → s.jobActive j = false) (hr : s.rsRefusal = 0)
    (hloaded : s.get F.CFG_STATUS_LOADED = 1) (hrun : s.ras.running = true) (hheld : s.saf.held = false) :
    ∃ x, u.ownerStart Job.restructure = (x, true) ∧ JobRuns k 6 x ∧ x.get F.CFG_RS_STATUS_PHASE = 1 ∧
      x.get F.SAF_STATE_REQ_CFG = 1 ∧ x.cfg.rsInstants = 0 ∧ x.cfg.rsNow = false := by
  have hnow : (!u.flag F.CFG_STATUS_LOADED || !u.ras.running) = false := by
    have hflag : u.flag F.CFG_STATUS_LOADED = true := by
      rw [h.frame.flag rfl, State.flag, hloaded]
      rfl
    have hras : u.ras = s.ras := h.frame.part .ras rfl
    rw [hflag, hras, hrun]
    rfl
  let v : State := { u with cfg := { u.cfg with rsInstants := 0, rsNow := false } }
  let w := v.put F.CFG_RS_STATUS_PHASE 1
  have hw : Frame [.reg A.CFG_RS_STATUS] [.cfg] u w := .put (.cfg .refl rfl rfl) rfl
  have hwwf := hw.wf h.wf
  have hsaf : w.saf = s.saf := Eq.trans (hw.part .saf rfl) (h.frame.part .saf rfl)
  have hreq : Frame islandSpans islandParts w (w.cfgRequest true) := State.cfgRequest_frame w true
  have hx : Frame (.reg A.CFG_RS_STATUS :: islandSpans) (.cfg :: islandParts) u (w.cfgRequest true) :=
    .op hreq (hw.mono rfl) rfl
  have hcfg : (w.cfgRequest true).cfg = w.cfg := hreq.part .cfg rfl
  refine ⟨w.cfgRequest true, ?_, h.runs hx rfl, ?_, ?_, ?_, ?_⟩
  · change u.rsStart = _
    unfold State.rsStart
    dsimp only
    rw [h.rsRefusal_eq hfree, hr, if_neg (by decide), hnow, if_neg (by decide)]
  · exact (hreq.get rfl).trans (State.get_put_self (s := v) h.wf (by decide))
  · exact State.cfgRequest_shown hwwf true (by rw [hsaf]; exact hheld)
  · exact congrArg Cfg.rsInstants hcfg
  · exact congrArg Cfg.rsNow hcfg

/-- START of a RESTRUCTURE with the raster stopped: the swap is due at once. -/
theorem Started.restructureNow (h : Started k Job.restructure s u) (hfree : ∀ j, j < 4 → s.jobActive j = false) (hr : s.rsRefusal = 0)
    (hrun : s.ras.running = false) :
    ∃ x, u.ownerStart Job.restructure = (x, true) ∧ JobRuns k 6 x ∧ x.cfg.rsNow = true ∧
      x.get F.SAF_STATE_REQ_CFG = s.get F.SAF_STATE_REQ_CFG := by
  have hnow : (!u.flag F.CFG_STATUS_LOADED || !u.ras.running) = true := by
    have hras : u.ras = s.ras := h.frame.part .ras rfl
    rw [hras, hrun]
    simp
  let x : State := { u with cfg := { u.cfg with rsInstants := 0, rsNow := true } }
  have hx : Frame [] [.cfg] u x := .cfg .refl rfl rfl
  refine ⟨x, ?_, h.runs hx rfl, rfl, (hx.get rfl).trans (h.frame.get rfl)⟩
  change u.rsStart = _
  unfold State.rsStart
  dsimp only
  rw [h.rsRefusal_eq hfree, hr, if_neg (by decide), hnow, if_pos rfl]

/-! ### DEFECT_REBUILD (R219) -/

/-- START of a RESTORE: its mode is held. -/
theorem Started.restore (h : Started k Job.defectRebuild s u) (hmode : s.get F.HLT_REBUILD_MODE = 2) :
    ∃ x, u.ownerStart Job.defectRebuild = (x, true) ∧ JobRuns k 7 x ∧ x.hlt.rebuildMode = 2 ∧ x.hlt.map = s.hlt.map := by
  have hmodeu : u.get F.HLT_REBUILD_MODE = 2 := (h.frame.get rfl).trans hmode
  have hhlt : u.hlt = s.hlt := h.frame.part .hlt rfl
  let x : State := { u with hlt := { u.hlt with rebuildMode := 2 } }
  have hx : Frame [] [.hlt] u x := .hlt .refl rfl
  have hmap : u.hlt.map = s.hlt.map := congrArg Hlt.map hhlt
  refine ⟨x, ?_, h.runs hx rfl, rfl, hmap⟩
  change u.rebuildStart = _
  unfold State.rebuildStart
  dsimp only
  rw [hmodeu, if_neg (by decide), if_neg (by decide), if_neg (by decide)]

/-! ### LIFECYCLE (R417) -/

theorem Started.lcRefusal_eq (h : Started k Job.lifecycle s u) (target : Nat) : u.lcRefusal target = s.lcRefusal target := by
  have hcfg : u.cfg = s.cfg := h.frame.part .cfg rfl
  have hlc : u.lc = s.lc := h.frame.get rfl
  have hkey : u.kAuth = s.kAuth := by
    unfold State.kAuth State.keysZero
    rw [hcfg, hlc]
  have htoken : u.tokenOk target = s.tokenOk target := by
    unfold State.tokenOk State.tokenBytes
    rw [hkey, h.frame.reg _ rfl, h.frame.reg _ rfl, h.frame.reg _ rfl, h.frame.reg _ rfl]
  unfold State.lcRefusal State.keysIn
  rw [hlc, htoken, hcfg, h.frame.get rfl, h.frame.get rfl, h.frame.flag rfl]

theorem wordPut_full (w : Word) (v : Word) : wordPut w 31 0 v.toNat = v := by
  apply BitVec.eq_of_getLsbD_eq
  intro i hi
  rw [wordPut_getLsbD (by decide) (by decide)]
  rw [if_pos (by omega)]
  rfl

/-- A fresh challenge is shown. -/
theorem State.newChallenge_shown (hs : s.Wf) : s.newChallenge.reg A.CFG_CHAL1 = Config.challenge s.cfg.draws := by
  have h1 := State.put_wf (f := F.CFG_CHAL0_CHAL) (v := Config.unitId.toNat) hs
  exact (State.reg_setReg_same h1).trans (wordPut_full _ _)

/-- START of a LIFECYCLE that is accepted: its target is held, and its task joins the writers. -/
theorem Started.lifecycle (h : Started k Job.lifecycle s u) (hr : s.lcRefusal (s.get F.CFG_LC_TARGET) = 0) :
    ∃ x, u.ownerStart Job.lifecycle = (x, true) ∧ JobRuns k 8 x ∧ x.get F.CFG_LC_REASON = 0 ∧
      x.cfg.lcTarget = s.get F.CFG_LC_TARGET ∧ x.nvmw.tasks = s.nvmw.tasks ++ [{ owner := 8, units := [] }] ∧
      x.reg A.CFG_CHAL1 = Config.challenge s.cfg.draws ∧ x.cfg.fuses = s.cfg.fuses := by
  have hcfg : u.cfg = s.cfg := h.frame.part .cfg rfl
  have hnvmw : u.nvmw = s.nvmw := h.frame.part .nvmw rfl
  have htarget : u.get F.CFG_LC_TARGET = s.get F.CFG_LC_TARGET := h.frame.get rfl
  have hnew := u.newChallenge_frame
  have hnewwf := hnew.wf h.wf
  have hchal := State.newChallenge_shown h.wf
  have hfuses : u.newChallenge.cfg.fuses = u.cfg.fuses := rfl
  have hwriters : u.newChallenge.nvmw = u.nvmw := rfl
  have hstart : u.lcStart = ({ u.newChallenge.put F.CFG_LC_REASON 0 with
      cfg := { u.newChallenge.cfg with lcTarget := s.get F.CFG_LC_TARGET },
      nvmw := { u.newChallenge.nvmw with tasks := u.newChallenge.nvmw.tasks ++ [{ owner := Job.lifecycle, units := [] }] } }, true) := by
    unfold State.lcStart
    dsimp only
    rw [htarget, h.lcRefusal_eq, hr, if_pos rfl]
  generalize u.newChallenge = v at *
  have hx : Frame [.window 15] [.cfg, .nvmw] v { v.put F.CFG_LC_REASON 0 with
      cfg := { v.cfg with lcTarget := s.get F.CFG_LC_TARGET },
      nvmw := { v.nvmw with tasks := v.nvmw.tasks ++ [{ owner := Job.lifecycle, units := [] }] } } :=
    .upd (t := v.put F.CFG_LC_REASON 0) (.put .refl rfl) rfl id
  have hall : Frame [.window 15] [.cfg, .nvmw] u _ := (hnew.mono rfl).trans hx
  refine ⟨_, hstart, h.runs hall rfl, State.get_put_self hnewwf (by decide), rfl, ?_, ?_, ?_⟩
  · change v.nvmw.tasks ++ _ = _
    rw [hwriters, hnvmw]
    rfl
  · refine (State.reg_put_ne (by decide)).trans (hchal.trans ?_)
    rw [hcfg]
  · exact hfuses.trans (congrArg Cfg.fuses hcfg)

/-- START of a LIFECYCLE with a wrong token: it counts, and a challenge is drawn. -/
theorem Started.lifecycleToken (h : Started k Job.lifecycle s u) (hr : s.lcRefusal (s.get F.CFG_LC_TARGET) = 5) :
    ∃ x, u.ownerStart Job.lifecycle = (x, false) ∧ JobFailed k 8 4 (x.startFail k JobReason.owner) ∧
      (x.startFail k JobReason.owner).get F.CFG_LC_REASON = 5 ∧
      (x.startFail k JobReason.owner).get F.CFG_LC_TRIES = min (s.get F.CFG_LC_TRIES + 1) 3 ∧
      (x.startFail k JobReason.owner).cfg.fuses = s.cfg.fuses := by
  have hcfg : u.cfg = s.cfg := h.frame.part .cfg rfl
  have htarget : u.get F.CFG_LC_TARGET = s.get F.CFG_LC_TARGET := h.frame.get rfl
  have hnew := u.newChallenge_frame
  have hnewwf := hnew.wf h.wf
  have hfuses : u.newChallenge.cfg.fuses = u.cfg.fuses := rfl
  have htries : u.newChallenge.get F.CFG_LC_TRIES = s.get F.CFG_LC_TRIES :=
    (State.get_put_addr (by decide)).trans ((State.get_put_addr (by decide)).trans (h.frame.get rfl))
  have hstart : u.lcStart = ((u.newChallenge.put F.CFG_LC_TRIES (min (u.newChallenge.get F.CFG_LC_TRIES + 1) 3)).put F.CFG_LC_REASON 5,
      false) := by
    unfold State.lcStart
    dsimp only
    rw [htarget, h.lcRefusal_eq, hr, if_neg (by decide), if_pos (by decide)]
  generalize u.newChallenge = v at *
  have h1 := State.put_wf (f := F.CFG_LC_TRIES) (v := min (v.get F.CFG_LC_TRIES + 1) 3) hnewwf
  have hx : Frame [.window 15] [.cfg] u ((v.put F.CFG_LC_TRIES (min (v.get F.CFG_LC_TRIES + 1) 3)).put F.CFG_LC_REASON 5) :=
    .put (.put hnew rfl) rfl
  obtain ⟨hfailed, hframe⟩ := h.fails hx rfl
  refine ⟨_, hstart, hfailed, ?_, ?_, ?_⟩
  · exact (hframe.get (covers_endSpans h.slot (by decide))).trans (State.get_put_self h1 (by decide))
  · refine (hframe.get (covers_endSpans h.slot (by decide))).trans ((State.get_put_ne h1 (by decide) (by decide)).trans ?_)
    refine (State.get_put_self hnewwf (by decide)).trans ?_
    rw [htries]
    exact Nat.mod_eq_of_lt (Nat.lt_of_le_of_lt (Nat.min_le_right _ _) (by decide))
  · have hlast : ((((v.put F.CFG_LC_TRIES (min (v.get F.CFG_LC_TRIES + 1) 3)).put F.CFG_LC_REASON 5).startFail k JobReason.owner)).cfg = v.cfg :=
      hframe.part .cfg rfl
    exact (congrArg Cfg.fuses hlast).trans (hfuses.trans (congrArg Cfg.fuses hcfg))

/-! ### REC_CHECKPOINT (R471) -/

/-- START of a REC_CHECKPOINT: the checkpoint is asked for. -/
theorem Started.checkpoint (h : Started k Job.recCheckpoint s u) (hrun : s.get F.REC_STATUS_CP_RUN = 0) :
    ∃ x, u.ownerStart Job.recCheckpoint = (x, true) ∧ JobRuns k 9 x ∧ x.recd.cpReq = true ∧ x.get F.REC_STATUS_CP_PENDING = 0 := by
  have hflag : u.flag F.REC_STATUS_CP_RUN = false := by
    rw [h.frame.flag rfl, State.flag, hrun]
    rfl
  let x : State := { u.put F.REC_STATUS_CP_PENDING 0 with recd := { u.recd with cpReq := true } }
  have hx : Frame [.reg A.REC_STATUS] [.recd] u x := .recd (.put .refl rfl) rfl
  refine ⟨x, ?_, h.runs hx rfl, rfl, State.get_put_self h.wf (by decide)⟩
  change u.checkpointStart = _
  unfold State.checkpointStart
  rw [hflag, if_neg (by decide)]

end

end Sys2Proof.Machine
end

section
/-!
A START that finds no power, and SUSPEND and RESUME (R438, R439, R440, R456).
-/

namespace Sys2Proof.Machine

section
variable {s : State} {k ty : Nat}

/-! ### A START without power (R439) -/

/-- A LIFECYCLE that is refused without its owner draws its challenge too. -/
theorem State.jobStart_challenge (hs : s.Wf) (hk : k < 4) (hr : s.startRefusal k Job.lifecycle = 3) :
    (s.jobStart k Job.lifecycle).reg A.CFG_CHAL1 = Config.challenge s.cfg.draws := by
  obtain ⟨-, hframe⟩ := State.jobStart_fails hs hk (by decide) hr (by decide) (by decide)
  have hcfg : (s.jobBegun k Job.lifecycle).cfg = s.cfg := (State.jobBegun_begun hs k (by decide)).frame.part .cfg rfl
  have hnotice : (s.jobBegun k Job.lifecycle).startNotice Job.lifecycle = (s.jobBegun k Job.lifecycle).newChallenge := by
    unfold State.startNotice
    rw [if_neg fun h => absurd h.1 (by decide), if_pos rfl]
  rw [hframe.reg _ (covers_endSpans hk (by decide)), hnotice, State.newChallenge_shown (State.jobBegun_begun hs k (by decide)).wf, hcfg]

/-- A START that is refused without its owner touches its slot alone, unless it draws a challenge or meets a scan. -/
theorem State.jobStart_slotOnly (hs : s.Wf) (hk : k < 4) (hty : ty < 16) (hr : s.startRefusal k ty = 3) (hne : ty ≠ Job.lifecycle)
    (hscan : s.lmc.scan = none) : RegsBut [A.PWR_JOBn_STATUS k, A.GLB_IRQ_STATUS, A.GLB_IRQ_RAW] s (s.jobStart k ty) := by
  obtain ⟨-, hframe⟩ := State.jobStart_fails hs hk hty hr (by decide) (by decide)
  have hbegun := (State.jobBegun_begun hs k hty).frame
  have hlmc : (s.jobBegun k ty).lmc = s.lmc := hbegun.part .lmc rfl
  have hnotice : (s.jobBegun k ty).startNotice ty = s.jobBegun k ty := by
    unfold State.startNotice
    rw [if_neg (by simp [hlmc, hscan]), if_neg hne]
  rw [hnotice] at hframe
  have hslot : within [.reg (A.PWR_JOBn_STATUS k)] (endSpans k) = true := by simp [within, Span.reg]
  have hbegun' : Frame (endSpans k) [.pwr, .lnk] s (s.jobBegun k ty) := hbegun.mono (by rw [hslot]; rfl)
  have hself : within (endSpans k) (endSpans k) = true := by simp [within, Span.reg]
  have hall : Frame (endSpans k) [.pwr, .lnk] s (s.jobStart k ty) := .op hframe hbegun' (by rw [hself]; rfl)
  exact hall.regsBut (by rw [Bool.and_eq_true]; exact ⟨hself, rfl⟩)

/-! ### SUSPEND (R438, R439) -/

theorem setSuspend_on (s : State) (hk : k < 4) : (s.setSuspend k true).pwr.suspend.getLsbD k = true := by
  change (s.pwr.suspend ||| BitVec.ofNat 4 (2 ^ k)).getLsbD k = true
  interval_cases k <;> simp

/-- A job with a suspension point waits for it. -/
theorem State.jobSuspend_waits (hty : s.jobType k ∈ [1, 2, 3, 4, 5]) : s.jobSuspend k = s.setSuspend k true := by
  simp only [List.mem_cons, List.not_mem_nil, or_false] at hty
  have hpoint : s.hasSuspension (s.jobType k) = true := by
    unfold State.hasSuspension
    rcases hty with h | h | h | h | h <;> rw [h] <;> rfl
  unfold State.jobSuspend
  dsimp only
  rw [hpoint, if_neg (by decide), if_neg]
  rintro ⟨h, -⟩
  rw [h] at hty
  exact absurd hty (by decide)

/-- A LIFECYCLE and a REC_CHECKPOINT have none. -/
theorem State.jobSuspend_ignored (hty : s.jobType k = 8 ∨ s.jobType k = 9) : s.jobSuspend k = s.cmdIgnored k := by
  have hpoint : s.hasSuspension (s.jobType k) = false := by
    unfold State.hasSuspension
    rcases hty with h | h <;> rw [h] <;> rfl
  unfold State.jobSuspend
  dsimp only
  rw [hpoint, if_pos (by decide)]

/-! ### RESUME (R438, R440, R456) -/

/-- The item that a CAL_RUN measures is a PRECHARGE, and the raster or PIX is off. -/
def State.prechargeDark (s : State) : Prop :=
  (∃ it, s.cal.run = some it ∧ it.item = 1 ∧ it.auto = false) ∧ (s.ras.running = false ∨ s.pixOn = false)

theorem State.calResume_lit (h : ¬ s.prechargeDark) : s.calResume = s := by
  unfold State.calResume
  by_cases hitem : (s.cal.run.any fun it => it.item == CalIt.precharge && !it.auto) = true
  · have hlit : (s.ras.running && s.pixOn) = true := by
      by_contra hoff
      obtain ⟨it, hrun, hit⟩ := (Option.any_eq_true _ _).1 hitem
      simp only [Bool.and_eq_true, beq_iff_eq, Bool.not_eq_true'] at hit
      simp only [Bool.not_eq_true, Bool.and_eq_false_iff] at hoff
      exact h ⟨⟨it, hrun, hit⟩, hoff⟩
    rw [if_pos hitem, if_pos hlit]
  · rw [if_neg hitem]

theorem State.calResume_dark (h : s.prechargeDark) : s.calResume = s.calJobFail CalIt.precharge CalReason.raster := by
  obtain ⟨⟨it, hrun, hitem, hauto⟩, hoff⟩ := h
  have hany : (s.cal.run.any fun it => it.item == CalIt.precharge && !it.auto) = true := by
    rw [hrun]
    simp [hitem, hauto, CalIt.precharge]
  unfold State.calResume State.calFail
  rw [if_pos hany, if_neg (by rcases hoff with h | h <;> simp [h]), hrun]
  dsimp only
  rw [hauto, if_pos (by decide), hitem]
  rfl

/-- The slot of a job that goes on. -/
def State.slotResumed (s : State) (k : Nat) : State := s.put (F.PWR_JOBn_STATUS_STATE k) Job.running

theorem State.slotResumed_frame (s : State) (k : Nat) : Frame [.reg (A.PWR_JOBn_STATUS k)] [] s (s.slotResumed k) := .put .refl writes_slot

theorem State.slotResumed_dark (s : State) (k : Nat) (hk : k < 4) : (s.slotResumed k).prechargeDark ↔ s.prechargeDark := by
  have hpix : (s.slotResumed k).pixOn = s.pixOn := by
    have hdom : A.PWR_DOM ≠ A.PWR_JOBn_STATUS k := by interval_cases k <;> decide
    have hflag : (s.slotResumed k).flag F.PWR_DOM_PIX = s.flag F.PWR_DOM_PIX :=
      (s.slotResumed_frame k).flag (covers_reg_cons (L := []) hdom)
    unfold State.pixOn
    rw [hflag]
    rfl
  unfold State.prechargeDark
  rw [hpix]
  rfl

/-- A suspended job goes on from where it stood. -/
theorem State.jobResume_runs (hs : s.Wf) (hk : k < 4) (hty : s.jobType k ≠ Job.bistRun)
    (hlit : ¬ (s.jobType k = Job.calRun ∧ s.prechargeDark)) :
    (s.jobResume k).jobState k = 1 ∧ RegsBut [A.PWR_JOBn_STATUS k] s (s.jobResume k) := by
  have heq : s.jobResume k = s.slotResumed k := by
    unfold State.jobResume
    dsimp only
    rw [if_neg hty]
    by_cases hcal : s.jobType k = Job.calRun
    · rw [if_pos hcal]
      exact State.calResume_lit fun hdark => hlit ⟨hcal, (s.slotResumed_dark k hk).1 hdark⟩
    · rw [if_neg hcal]
      rfl
  rw [heq]
  exact ⟨State.get_put_self hs (jobState_ok k), (s.slotResumed_frame k).regsBut (by simp [within, Span.reg])⟩

/-- RESUME of a CAL_RUN whose PRECHARGE item has no raster or PIX: it fails. -/
theorem State.jobResume_fails (hs : s.Wf) (hty : s.jobType k = Job.calRun) (hdark : s.prechargeDark) (hsus : s.jobState k = 2)
    (hfind : s.findJob Job.calRun = some k) :
    (s.jobResume k).jobState k = 5 ∧ (s.jobResume k).get F.CAL_STATUS_REASON = 3 ∧
      ((s.jobResume k).reg A.GLB_IRQ_STATUS).getLsbD 19 = true := by
  have hk := State.findJob_lt hfind
  let u := s.slotResumed k
  have hu := s.slotResumed_frame k
  have huwf : u.Wf := hu.wf hs
  have hustate : u.jobState k = 1 := State.get_put_self hs (jobState_ok k)
  have hfindu : u.findJob Job.calRun = some k := by
    rw [← hfind]
    refine List.find?_congr fun n _ => ?_
    by_cases hnk : n = k
    · subst hnk
      have htype : u.jobType n = s.jobType n := State.get_put_ne hs (jobState_ok n) (.inr (.inr (Nat.le_of_ble_eq_true rfl)))
      rw [htype, State.jobActive_running hustate, State.jobActive_suspended hsus]
    · have hget : ∀ f : Field, f.addr = A.PWR_JOBn_STATUS n → u.get f = s.get f := fun f hf =>
        State.get_put_addr (hf ▸ jobReg_inj hnk)
      have hst : u.jobState n = s.jobState n := hget _ rfl
      have htype : u.jobType n = s.jobType n := hget _ rfl
      unfold State.jobActive
      rw [hst, htype]
  let v := (u.calIdle.setBit F.CAL_STATUS_FAILED CalIt.precharge).put F.CAL_STATUS_REASON CalReason.raster
  have hflag : Frame [⟨A.CAL_CTRL, 0⟩] [.cal] u (u.calIdle.setBit F.CAL_STATUS_FAILED CalIt.precharge) :=
    .op (State.setBit_frame _ (by decide) _) u.calIdle_frame rfl
  have hreason : v.get F.CAL_STATUS_REASON = 3 := State.get_put_self (hflag.wf huwf) (by decide)
  have hw : Frame (irqSpans ++ [⟨A.CAL_CTRL, 0⟩]) [.cal, .lnk] u (u.calFlag CalIt.precharge CalReason.raster).calJobOver :=
    .op (State.calJobOver_frame _) (u.calFlag_frame _ _) rfl
  have hwreason : (u.calFlag CalIt.precharge CalReason.raster).calJobOver.get F.CAL_STATUS_REASON = 3 :=
    (State.get_irq (s := v) (by decide) (by decide)).trans hreason
  have heq : s.jobResume k = (u.calFlag CalIt.precharge CalReason.raster).calJobOver.jobEnd k Job.failed := by
    unfold State.jobResume
    dsimp only
    rw [if_neg (by rw [hty]; decide), if_pos hty]
    refine (State.calResume_dark ((s.slotResumed_dark k hk).2 hdark)).trans ?_
    exact State.jobEndOf_eq (ty := Job.calRun) (((hw.sameSlots rfl).findJob _).trans hfindu) _
  have hwwf := hw.wf huwf
  rw [heq]
  generalize (u.calFlag CalIt.precharge CalReason.raster).calJobOver = w at *
  exact ⟨State.jobEnd_state hwwf k (by decide), ((w.jobEnd_frame k _).get (covers_endSpans hk (by decide))).trans hwreason,
    State.jobEnd_event hwwf k _⟩

end

end Sys2Proof.Machine
end

section
/-!
CANCEL (R219, R410, R438, R440, R468, R469): the unit in progress completes, then the work of the job is given up.
-/

namespace Sys2Proof.Machine

/-! ### What a unit that completes leaves of the slots -/

/-- The types of the slots and the power part are in `t` as in `s`. -/
structure TypesKept (s t : State) : Prop where
  wf : s.Wf → t.Wf
  jobType : s.Wf → ∀ n, n < 4 → t.jobType n = s.jobType n
  pwr : t.pwr = s.pwr

namespace TypesKept

variable {s t u : State}

theorem refl : TypesKept s s := ⟨id, fun _ _ _ => rfl, rfl⟩

theorem trans (h : TypesKept s t) (h' : TypesKept t u) : TypesKept s u :=
  ⟨h'.wf ∘ h.wf, fun hs n hn => (h'.jobType (h.wf hs) n hn).trans (h.jobType hs n hn), h'.pwr.trans h.pwr⟩

theorem of_frame {L : List Span} {ps : List Part} (h : Frame L ps s t) (hd : jobRegs.any (covers L) = false)
    (hp : ps.contains .pwr = false) : TypesKept s t :=
  ⟨h.wf, fun _ _ hn => (h.sameSlots hd).jobType hn, h.part .pwr hp⟩

theorem op {L : List Span} {ps : List Part} (h' : Frame L ps t u) (h : TypesKept s t) (hd : jobRegs.any (covers L) = false)
    (hp : ps.contains .pwr = false) : TypesKept s u := h.trans (.of_frame h' hd hp)

theorem ite {c : Prop} [Decidable c] {a b : State} (ha : TypesKept s a) (hb : TypesKept s b) : TypesKept s (if c then a else b) := by
  split
  · exact ha
  · exact hb

theorem foldl {α : Type} {f : State → α → State} (hf : ∀ s x, TypesKept s (f s x)) : ∀ (xs : List α) (s : State),
    TypesKept s (xs.foldl f s)
  | [], _ => .refl
  | x :: xs, s => (hf s x).trans (foldl hf xs _)

/-- The job of a type passes its commit point. -/
theorem jobCommitOf (h : TypesKept s t) (ty : Nat) : TypesKept s (t.jobCommitOf ty) := by
  unfold State.jobCommitOf
  split
  · next k _ => exact h.trans ⟨State.put_wf, fun ht n hn => (State.jobCommit_same ht k hn).2, rfl⟩
  · exact h

/-- The job of a type ends. -/
theorem jobEndOf (h : TypesKept s t) (ty st : Nat) : TypesKept s (t.jobEndOf ty st) := by
  unfold State.jobEndOf
  split
  · next k _ =>
    refine h.trans ⟨fun ht => State.jobEnd_wf ht k st, fun ht n _ => ?_, (t.jobEnd_frame k st).part .pwr rfl⟩
    by_cases hnk : n = k
    · subst hnk
      exact State.jobEnd_beside ht st rfl (Nat.le_of_ble_eq_true rfl)
    · exact State.jobEnd_other t st hnk rfl
  · exact h

end TypesKept

/-! ### The unit in progress (R410, R468) -/

theorem State.adopt_typesKept (s : State) (v : CalVal) : TypesKept s (s.adopt v) := by
  unfold State.adopt
  refine .ite (.of_frame (s.adoptLink_frame v) rfl rfl) (.ite ?_ (.ite ?_ ?_))
  · exact .op (State.loadTaps_frame _) (.of_frame (L := []) (ps := [.cal]) (.cal .refl rfl) rfl rfl) rfl rfl
  · exact .of_frame (.forUpto s fun p s _ => s.setIsns_frame p _) rfl rfl
  · exact .of_frame (L := [.reg A.THM_STATUS]) (ps := [.cal]) (.cal (.put .refl rfl) rfl) rfl rfl

theorem State.calCommit_typesKept (s : State) : TypesKept s s.calCommit := by
  have hadopt : TypesKept s (s.cal.vals.foldl (fun s v => s.adopt v) s) := .foldl State.adopt_typesKept _ s
  exact (TypesKept.jobCommitOf (.op (State.calJobOver_frame _) hadopt rfl rfl) _).jobEndOf _ _

theorem State.calStored_typesKept (s : State) : TypesKept s s.calStored := by
  have hgen : Frame [.reg A.CAL_GEN] [] s ((s.put F.CAL_GEN_SOURCE (s.calTarget.1 + 1)).put F.CAL_GEN_GEN s.calTarget.2) :=
    .put (.put .refl rfl) rfl
  exact (TypesKept.of_frame hgen rfl rfl).trans (State.calCommit_typesKept _)

theorem State.nvResult_frame (s : State) (result reason : Nat) : Frame [.reg A.CFG_NVM_STATUS] [] s (s.nvResult result reason) :=
  .ite (.put (.put .refl rfl) rfl) (.put .refl rfl)

theorem State.rebuildResult_frame (s : State) (result reason : Nat) : Frame [.window 8] [] s (s.rebuildResult result reason) :=
  .put (.put .refl rfl) rfl

theorem State.nvDrop_typesKept (s : State) (owner : Nat) : TypesKept s (s.nvDrop owner) := .of_frame (s.nvDrop_frame owner) rfl rfl

theorem State.nvDone_typesKept (s : State) : TypesKept s s.nvDone :=
  (TypesKept.jobCommitOf (.op (State.nvResult_frame _ 1 0) (s.nvDrop_typesKept Job.nvmWrite) rfl rfl) _).jobEndOf _ _

theorem State.rebuildDone_typesKept (s : State) : TypesKept s s.rebuildDone :=
  (TypesKept.jobCommitOf (.of_frame (s.rebuildResult_frame 1 0) rfl rfl) _).jobEndOf _ _

theorem State.taskDone_typesKept (s : State) (owner : Nat) : TypesKept s (s.taskDone owner) :=
  .ite (.of_frame s.floorDone_frame rfl rfl) (.ite (.ite s.nvDone_typesKept .refl)
    (.ite ((s.nvDrop_typesKept owner).trans (State.calStored_typesKept _))
      (.ite ((s.nvDrop_typesKept owner).trans (State.rebuildDone_typesKept _)) (s.nvDrop_typesKept owner))))

theorem State.unitWrite_typesKept (s : State) : TypesKept s s.unitWrite := .of_frame s.unitWrite_frame rfl rfl

theorem State.unitDone_typesKept (s : State) : TypesKept s s.unitDone := by
  unfold State.unitDone
  split
  · exact .refl
  · next u _ =>
    split
    · exact s.unitWrite_typesKept
    · next t ts _ =>
      extract_lets r nr s1 s2
      have h0 : TypesKept s { s with nvmw := { s.nvmw with tasks := { t with units := t.units.drop 1 } :: ts } } :=
        .of_frame (L := []) (ps := [.nvmw]) (.nvmw .refl rfl rfl) rfl rfl
      have h1 : TypesKept s s1 := h0.trans (State.unitWrite_typesKept _)
      have h2 : TypesKept s s2 := .ite (h1.jobCommitOf _) h1
      exact .ite s.unitWrite_typesKept (.ite (.of_frame (L := []) (ps := [.recd, .nvmw]) (.upd .refl rfl id) rfl rfl)
        (.ite (h2.trans (s2.taskDone_typesKept _)) h2))

/-! The checkpoint. -/

theorem State.cpNext_frame (s : State) : Frame [.reg A.REC_STATUS] [.recd] s s.cpNext := by
  unfold State.cpNext
  extract_lets s1 r s2
  have h2 : Frame [.reg A.REC_STATUS] [.recd] s s2 := .recd (.put .refl rfl) rfl
  exact .ite (.recd (.put h2 rfl) rfl) h2

theorem State.setFrozen_frame (s : State) (b : RecBank) : Frame [] [.recd] s (s.setFrozen b) := .ite (.recd .refl rfl) (.recd .refl rfl)

theorem State.setCollect_frame (s : State) (b : RecBank) : Frame [] [.recd] s (s.setCollect b) := .ite (.recd .refl rfl) (.recd .refl rfl)

/-- The registers of the recorder and of the events. -/
abbrev recSpans : List Span := irqSpans ++ [.window 0x13]

theorem State.cpCommit_typesKept (s : State) : TypesKept s s.cpCommit := by
  unfold State.cpCommit
  extract_lets t s1 b r s2 s3 s4 s5
  have h1 : Frame recSpans [.recd, .lnk] s s1 := .put (.put .refl rfl) rfl
  have h2 : Frame recSpans [.recd, .lnk] s s2 := .op (State.setFrozen_frame _ _) (.recd h1 rfl) rfl
  have h3 : Frame recSpans [.recd, .lnk] s s3 := .irq (.inc (.put (.put h2 rfl) rfl) rfl) rfl
  have h4 : Frame recSpans [.recd, .lnk] s s4 := .ite (.put h3 rfl) h3
  have h5 : TypesKept s s5 := (TypesKept.jobCommitOf (.of_frame h4 rfl rfl) _).jobEndOf _ _
  exact .op s5.cpNext_frame h5 rfl rfl

theorem State.cpUnit_typesKept (s : State) : TypesKept s s.cpUnit := by
  unfold State.cpUnit
  split
  · next u _ =>
    have hwrite : Frame [.reg A.CFG_NVM_STATUS] [.nvm, .nvmw, .unit] s
        { (s.nvWrite u.1 u.2).put F.CFG_NVM_STATUS_UNIT 0 with nvmw := { s.nvmw with unit := none } } :=
      .upd (.put (.op (s.nvWrite_frame u.1 u.2) .refl rfl) rfl) rfl id
    exact .ite ((TypesKept.of_frame hwrite rfl rfl).trans (State.cpCommit_typesKept _)) .refl
  · exact .refl

/-- The unit in progress completes. -/
theorem State.unitSettle_typesKept (s : State) (ty : Nat) : TypesKept s (s.unitSettle ty) :=
  .ite s.cpUnit_typesKept (.ite (.ite (s.unitDone_typesKept.trans (State.cpUnit_typesKept _)) s.unitDone_typesKept) .refl)

theorem State.unitSettle_idle {s : State} (hunit : s.nvmw.unit = none) (hlast : s.recd.cpLast = none) (ty : Nat) : s.unitSettle ty = s := by
  unfold State.unitSettle
  rw [hunit, hlast, if_neg (by simp), if_neg (by simp)]

/-! ### The work of the job is given up -/

/-- The slots and the power part are in `t` as in `s`, and the events of `s` stand. -/
structure SlotsLeft (s t : State) : Prop where
  slots : SameSlots s t
  pwr : t.pwr = s.pwr
  events : s.Wf → ∀ n, (s.reg A.GLB_IRQ_STATUS).getLsbD n = true → (t.reg A.GLB_IRQ_STATUS).getLsbD n = true

theorem Frame.slotsLeft {L : List Span} {ps : List Part} {s t : State} (h : Frame L ps s t) (hd : jobRegs.any (covers L) = false)
    (hp : (ps.contains .pwr || ps.contains .events) = false) : SlotsLeft s t := by
  rw [Bool.or_eq_false_iff] at hp
  exact ⟨h.sameSlots hd, h.part .pwr hp.1, h.events hp.2⟩

theorem SlotsLeft.ite {c : Prop} [Decidable c] {s a b : State} (ha : SlotsLeft s a) (hb : SlotsLeft s b) :
    SlotsLeft s (if c then a else b) := by
  split
  · exact ha
  · exact hb

/-- The registers that the rotation of the banks touches. -/
abbrev rotateSpans : List Span := [.window 2, .reg A.PWR_DOM, .reg A.BST_RUN_STATUS]

theorem State.bistCancel_frame (s : State) : Frame rotateSpans [.lmc, .freeCount, .flt, .bst] s s.bistCancel := by
  unfold State.bistCancel
  split
  · exact .upd .refl rfl id
  · obtain ⟨u, hu, heq⟩ := State.migrateAbandon_steps { s with lmc := { s.lmc with rotate := none } }
    rw [heq]
    exact .op (State.rotationGo_frame _) (.op (State.nomadRest_frame u) (.op hu (.lmc .refl rfl) rfl) rfl) rfl

theorem State.calCancel_frame (s : State) : Frame [⟨A.CAL_CTRL, 0⟩] [.cal, .nvmw] s s.calCancel := by
  unfold State.calCancel
  split
  · extract_lets s0
    have h0 : Frame [⟨A.CAL_CTRL, 0⟩] [.cal, .nvmw] s s0 := by
      unfold s0
      split
      · exact .ite .refl (.mono s.calIdle_frame rfl)
      · exact .refl
    exact .op (State.calJobOver_frame _) (.nvmw h0 rfl rfl) rfl
  · exact .refl

theorem State.cpAbort_frame (s : State) (result reason : Nat) : Frame recSpans [.recd, .flt, .nvmw, .lnk] s (s.cpAbort result reason) := by
  unfold State.cpAbort
  extract_lets b lost s0 s1 r s2 s3 s4
  have h0 : Frame recSpans [.recd, .flt, .nvmw, .lnk] s s0 :=
    .put (.op (State.setFrozen_frame _ _) (.op (s.setCollect_frame b) .refl rfl) rfl) rfl
  have h1 : Frame recSpans [.recd, .flt, .nvmw, .lnk] s s1 := .ite (.raise h0 rfl) h0
  have h3 : Frame recSpans [.recd, .flt, .nvmw, .lnk] s s3 := .put (.put (.nvmw h1 rfl rfl) rfl) rfl
  have h4 : Frame recSpans [.recd, .flt, .nvmw, .lnk] s s4 := .ite (.irq (.raise h3 rfl) rfl) h3
  exact .ite (.op s4.cpNext_frame h4 rfl) (.recd .refl rfl)

theorem State.jobWorkEnd_left (s : State) (ty : Nat) (cancel : Bool) : SlotsLeft s (s.jobWorkEnd ty cancel) := by
  have hscan : Frame [] [.lmc] s { s with lmc := { s.lmc with scan := none } } := .lmc .refl rfl
  have hnv : ∀ r, Frame [.reg A.CFG_NVM_STATUS] [.nvmw] s ((s.nvDrop ty).nvResult r 0) := fun r =>
    .op (State.nvResult_frame _ r 0) (.mono (s.nvDrop_frame ty) rfl) rfl
  have hrebuild : ∀ r, Frame [.window 8] [.nvmw] s ((s.nvDrop ty).rebuildResult r 0) := fun r =>
    .op (State.rebuildResult_frame _ r 0) (.mono (s.nvDrop_frame ty) rfl) rfl
  have hself : Frame [] [] s s := .refl
  exact .ite (hscan.slotsLeft rfl rfl) (.ite ((hnv _).slotsLeft rfl rfl) (.ite (s.bistCancel_frame.slotsLeft rfl rfl)
    (.ite (s.calCancel_frame.slotsLeft rfl rfl) (.ite ((s.rsEnd_frame _ 0).slotsLeft rfl rfl) (.ite ((hrebuild _).slotsLeft rfl rfl)
    (.ite ((s.nvDrop_frame Job.lifecycle).slotsLeft rfl rfl) (.ite ((s.cpAbort_frame _ _).slotsLeft rfl rfl)
      (hself.slotsLeft rfl rfl))))))))

/-! ### CANCEL -/

section
variable {s : State} {k : Nat}

/-- A job that is cancelled: no unit of it has ended it. -/
def State.jobCancelled (s : State) (k ty : Nat) : State := (s.jobEnd k Job.cancelled).jobWorkEnd ty true

theorem State.jobCancelled_effect (hs : s.Wf) (hk : k < 4) (ty : Nat) :
    (s.jobCancelled k ty).jobState k = 4 ∧ (s.jobCancelled k ty).jobType k = s.jobType k ∧ (s.jobCancelled k ty).pwr = s.pwr ∧
      ((s.jobCancelled k ty).reg A.GLB_IRQ_STATUS).getLsbD 19 = true ∧
      ∀ j, j < 4 → j ≠ k → (s.jobCancelled k ty).jobState j = s.jobState j := by
  have hwf := State.jobEnd_wf hs k Job.cancelled
  obtain ⟨hslots, hpwr, hevents⟩ := (s.jobEnd k Job.cancelled).jobWorkEnd_left ty true
  have hend : (s.jobEnd k Job.cancelled).pwr = s.pwr := (s.jobEnd_frame k Job.cancelled).part .pwr rfl
  refine ⟨(hslots.jobState hk).trans (State.jobEnd_state hs k (by decide)), (hslots.jobType hk).trans ?_, hpwr.trans hend,
    hevents hwf 19 (State.jobEnd_event hs k _), fun j hj hne => (hslots.jobState hj).trans (State.jobEnd_other s _ hne rfl)⟩
  exact State.jobEnd_beside hs _ rfl (Nat.le_of_ble_eq_true rfl)

theorem State.jobStop_cancel (hactive : s.jobActive k = true) :
    s.jobStop k true = if (s.unitSettle (s.jobType k)).jobActive k then (s.unitSettle (s.jobType k)).jobCancelled k (s.jobType k)
      else s.unitSettle (s.jobType k) := by
  unfold State.jobStop
  rw [if_pos hactive]
  rfl

/-- A job that is stopped by a CANCEL is over. -/
theorem State.jobStop_over (hs : s.Wf) (hk : k < 4) (hactive : s.jobActive k = true) :
    (s.jobStop k true).jobActive k = false ∧ (s.jobStop k true).jobType k = s.jobType k ∧ (s.jobStop k true).pwr = s.pwr := by
  obtain ⟨hwf, htype, hpwr⟩ := s.unitSettle_typesKept (s.jobType k)
  rw [State.jobStop_cancel hactive]
  split
  · obtain ⟨hstate, htype', hpwr', -, -⟩ := State.jobCancelled_effect (hwf hs) hk (s.jobType k)
    refine ⟨?_, htype'.trans (htype hs k hk), hpwr'.trans hpwr⟩
    unfold State.jobActive
    rw [hstate]
    rfl
  · next hover => exact ⟨Bool.eq_false_iff.2 hover, htype hs k hk, hpwr⟩

/-- With no unit in progress the job is CANCELLED. -/
theorem State.jobStop_idle (hs : s.Wf) (hk : k < 4) (hactive : s.jobActive k = true) (hunit : s.nvmw.unit = none)
    (hlast : s.recd.cpLast = none) :
    (s.jobStop k true).jobState k = 4 ∧ ((s.jobStop k true).reg A.GLB_IRQ_STATUS).getLsbD 19 = true ∧
      ∀ j, j < 4 → j ≠ k → (s.jobStop k true).jobState j = s.jobState j := by
  rw [State.jobStop_cancel hactive, State.unitSettle_idle hunit hlast, if_pos hactive]
  obtain ⟨hstate, -, -, hevent, hother⟩ := State.jobCancelled_effect hs hk (s.jobType k)
  exact ⟨hstate, hevent, hother⟩

end

end Sys2Proof.Machine
end

section
/-!
The job commands follow their table (R438, R439).
-/

namespace Sys2Proof.Machine

section
variable {who : Initiator} {n : BitVec 2} {c : Instr} {ty : Nat} {s : State}

/-! ### A START and its owner -/

theorem Starts.exec_start (h : Starts who n c ty) (hw : s.writable (A.PWR_JOBn_CMD n.toNat)) (hidle : s.jobActive n.toNat = false) :
    exec c s = .next (s.jobStart n.toNat ty).accepted := by
  rw [h.exec_eq hw, State.jobCommand_start hidle]

/-- A START that is refused without its owner. -/
theorem Starts.fails (h : Starts who n c ty) (hs : s.Wf) (hw : s.writable (A.PWR_JOBn_CMD n.toNat)) (hidle : s.jobActive n.toNat = false)
    {r : Nat} (hr : s.startRefusal n.toNat ty = r) (h0 : r ≠ 0) (h16 : r < 16) :
    Completes c s fun t => JobFailed n.toNat ty r t := by
  obtain ⟨hfailed, -⟩ := State.jobStart_fails hs n.isLt h.lt hr h0 h16
  have hexec := h.exec_start hw hidle
  generalize s.jobStart n.toNat ty = x at *
  exact ⟨_, hexec, hfailed⟩

/-- A START without power. -/
theorem Starts.powerless (h : Starts who n c ty) (hs : s.Wf) (hw : s.writable (A.PWR_JOBn_CMD n.toNat))
    (hfree : ∀ j, j < 4 → s.jobActive j = false) (h1 : 1 ≤ ty) (h9 : ty ≤ 9) (hasleep : s.awake = false) :
    Completes c s fun t => JobFailed n.toNat ty 3 t ∧ (ty = 8 → t.reg A.CFG_CHAL1 = Config.challenge s.cfg.draws) ∧
      (ty ≠ 8 → s.lmc.scan = none → RegsBut [A.PWR_JOBn_STATUS n.toNat, A.GLB_IRQ_STATUS, A.GLB_IRQ_RAW] s t) := by
  have hr : s.startRefusal n.toNat ty = 3 := by
    rw [State.startRefusal_free h1 h9 hfree, hasleep]
    rfl
  obtain ⟨hfailed, -⟩ := State.jobStart_fails hs n.isLt h.lt hr (by decide) (by decide)
  have hchallenge : ty = 8 → (s.jobStart n.toNat ty).reg A.CFG_CHAL1 = Config.challenge s.cfg.draws := by
    rintro rfl
    exact State.jobStart_challenge hs n.isLt hr
  have hslot := fun hne => State.jobStart_slotOnly hs n.isLt h.lt hr hne
  have hexec := h.exec_start hw (hfree _ n.isLt)
  generalize s.jobStart n.toNat ty = x at *
  exact ⟨_, hexec, hfailed, hchallenge, hslot⟩

theorem State.startRefusal_none (h1 : 1 ≤ ty) (h9 : ty ≤ 9) (hfree : ∀ j, j < 4 → s.jobActive j = false) (hawake : s.awake = true) (k : Nat) :
    s.startRefusal k ty = 0 := by
  rw [State.startRefusal_free h1 h9 hfree, hawake]
  rfl

/-- A START that its owner accepts. -/
theorem Starts.accepts (h : Starts who n c ty) (hw : s.writable (A.PWR_JOBn_CMD n.toNat)) (hfree : ∀ j, j < 4 → s.jobActive j = false)
    (hawake : s.awake = true) (h19 : 1 ≤ ty ∧ ty ≤ 9) {P : State → Prop} (hport : ∀ x, P x → P x.accepted)
    (hx : ∃ x, (s.jobStarted n.toNat ty).ownerStart ty = (x, true) ∧ P x) : Completes c s P := by
  obtain ⟨x, howner, hx⟩ := hx
  have hexec := h.exec_start hw (hfree _ n.isLt)
  rw [State.jobStart_accepts (State.startRefusal_none h19.1 h19.2 hfree hawake _) howner] at hexec
  exact ⟨_, hexec, hport _ hx⟩

/-- A START that its owner refuses. -/
theorem Starts.denies (h : Starts who n c ty) (hw : s.writable (A.PWR_JOBn_CMD n.toNat)) (hfree : ∀ j, j < 4 → s.jobActive j = false)
    (hawake : s.awake = true) (h19 : 1 ≤ ty ∧ ty ≤ 9) {P : State → Prop} (hport : ∀ x, P x → P x.accepted)
    (hx : ∃ x, (s.jobStarted n.toNat ty).ownerStart ty = (x, false) ∧ P (x.startFail n.toNat JobReason.owner)) : Completes c s P := by
  obtain ⟨x, howner, hx⟩ := hx
  have hexec := h.exec_start hw (hfree _ n.isLt)
  rw [State.jobStart_denies (State.startRefusal_none h19.1 h19.2 hfree hawake _) howner] at hexec
  exact ⟨_, hexec, hport _ hx⟩

/-! ### SUSPEND, RESUME and CANCEL -/

theorem suspendJob_waits (hw : s.writable (A.PWR_JOBn_CMD n.toNat)) (hrun : s.jobState n.toNat = 1)
    (hty : s.jobType n.toNat ∈ [1, 2, 3, 4, 5]) :
    Completes (.suspendJob who n) s fun t =>
      t.pwr.suspend.getLsbD n.toNat = true ∧ t.jobState n.toNat = 1 ∧ t.regs = s.regs := by
  obtain ⟨hexec, -, -⟩ := slotCommand_eq (who := who) hw
  rw [State.jobCommand_suspend hrun, State.jobSuspend_waits hty] at hexec
  exact ⟨_, hexec, setSuspend_on s n.isLt, hrun, rfl⟩

theorem resumeJob_runs (hs : s.Wf) (hw : s.writable (A.PWR_JOBn_CMD n.toNat)) (hsus : s.jobState n.toNat = 2)
    (hty : s.jobType n.toNat ≠ Job.bistRun) (hlit : ¬ (s.jobType n.toNat = Job.calRun ∧ s.prechargeDark)) :
    Completes (.resumeJob who n) s fun t => t.jobState n.toNat = 1 ∧ RegsBut [A.PWR_JOBn_STATUS n.toNat] s t := by
  obtain ⟨-, hexec, -⟩ := slotCommand_eq (who := who) hw
  have hruns := State.jobResume_runs hs n.isLt hty hlit
  rw [State.jobCommand_resume hsus] at hexec
  generalize s.jobResume n.toNat = x at *
  exact ⟨_, hexec, hruns⟩

theorem resumeJob_fails (hs : s.Wf) (hw : s.writable (A.PWR_JOBn_CMD n.toNat)) (hsus : s.jobState n.toNat = 2)
    (hty : s.jobType n.toNat = Job.calRun) (hdark : s.prechargeDark) (hfind : s.findJob Job.calRun = some n.toNat) :
    Completes (.resumeJob who n) s fun t =>
      t.jobState n.toNat = 5 ∧ t.get F.CAL_STATUS_REASON = 3 ∧ (t.reg A.GLB_IRQ_STATUS).getLsbD 19 = true := by
  obtain ⟨-, hexec, -⟩ := slotCommand_eq (who := who) hw
  have hfails := State.jobResume_fails hs hty hdark hsus hfind
  rw [State.jobCommand_resume hsus] at hexec
  generalize s.jobResume n.toNat = x at *
  exact ⟨_, hexec, hfails⟩

theorem cancelJob_over (hs : s.Wf) (hw : s.writable (A.PWR_JOBn_CMD n.toNat)) (hactive : s.jobActive n.toNat = true) :
    Completes (.cancelJob who n) s fun t =>
      t.jobActive n.toNat = false ∧ t.jobType n.toNat = s.jobType n.toNat ∧ t.pwr.suspend.getLsbD n.toNat = false ∧
      (s.nvmw.unit = none → s.recd.cpLast = none → t.jobState n.toNat = 4 ∧ (t.reg A.GLB_IRQ_STATUS).getLsbD 19 = true ∧
        ∀ j, j < 4 → j ≠ n.toNat → t.jobState j = s.jobState j) := by
  obtain ⟨-, -, hexec⟩ := slotCommand_eq (who := who) hw
  have hs' : (s.setSuspend n.toNat false).Wf := hs
  obtain ⟨hover, htype, hpwr⟩ := State.jobStop_over hs' n.isLt hactive
  have hsus : ((s.setSuspend n.toNat false).jobStop n.toNat true).pwr.suspend.getLsbD n.toNat = false := by
    rw [hpwr]
    exact setSuspend_off s n.isLt
  have hidle := State.jobStop_idle hs' n.isLt hactive
  rw [State.jobCommand_cancel hactive] at hexec
  generalize (s.setSuspend n.toNat false).jobStop n.toNat true = x at *
  exact ⟨_, hexec, hover, htype, hsus, hidle⟩

end

/-- Settles O50: each command of the table is a lemma about the slot, and each type of job a lemma about its owner. -/
theorem jobCommandsFollowTheTable : Obligations.JobCommandsFollowTheTable := by
  intro who n s hs hw k ignored named starts free failed runs
  obtain ⟨hsuspend, hresume, hcancel⟩ := slotCommand_eq (who := who) hw
  have hk : k < 4 := n.isLt
  refine ⟨fun c ty hstarts => ?_, fun c hc hidle => ?_, fun hrun => ⟨suspendJob_waits hw hrun, fun hty => ?_, ?_⟩,
    fun hsus => ⟨?_, fun hty hlit => resumeJob_runs hs hw hsus hty hlit, fun hdark hfind => resumeJob_fails hs hw hsus hdark.1 hdark.2 hfind⟩,
    cancelJob_over hs hw⟩
  · have h : Starts who n c ty := hstarts
    have hstart : free → ∀ {ty}, ty < 16 → Started k ty s (s.jobStarted k ty) := fun hfree _ hty =>
      State.jobStarted_started hs hk hty hfree
    refine ⟨fun hactive => ?_, fun hidle => ⟨fun hty => ?_, fun h1 h9 hbusy => ?_, fun h1 h9 hfree hasleep => ?_⟩, fun hfree hawake => ?_⟩
    · rw [h.exec_eq hw, State.jobCommand_start_active hactive]
      rfl
    · exact h.fails hs hw hidle (State.startRefusal_type hty) (by decide) (by decide)
    · obtain ⟨j, hj, hne, hactive, htype⟩ := hbusy
      exact h.fails hs hw hidle (State.startRefusal_busy h1 h9 hj hne hactive htype) (by decide) (by decide)
    · exact h.powerless hs hw hfree h1 h9 hasleep
    · refine ⟨?_, ?_, ?_, ?_, ?_, ?_, ?_, ?_, ?_, ?_, ?_, ?_, ?_, ?_⟩
      · rintro rfl hr hlen
        exact h.accepts hw hfree hawake (by decide) (fun _ hx => hx) ((hstart hfree h.lt).scan hr hlen)
      · rintro rfl hr
        exact h.denies hw hfree hawake (by decide) (fun _ hx => hx) ((hstart hfree h.lt).scanRefused hr)
      · rintro rfl hr hlen
        exact h.accepts hw hfree hawake (by decide) (fun _ hx => hx) ((hstart hfree h.lt).nvWrite hr hlen)
      · rintro rfl hmode hopen hpower hpost
        exact h.accepts hw hfree hawake (by decide) (fun _ hx => hx) ((hstart hfree h.lt).bist hmode hopen hpower hpost)
      · rintro rfl hmode hopen
        exact h.denies hw hfree hawake (by decide) (fun _ hx => hx) ((hstart hfree h.lt).bistRefused hmode hopen)
      · rintro rfl hitems hport hrun
        exact h.accepts hw hfree hawake (by decide) (fun _ hx => hx) ((hstart hfree h.lt).calRun hitems hport hrun)
      · rintro rfl hr
        exact h.accepts hw hfree hawake (by decide) (fun _ hx => hx) ((hstart hfree h.lt).load hfree hr)
      · rintro rfl hr hlt
        exact h.denies hw hfree hawake (by decide) (fun _ hx => hx) ((hstart hfree h.lt).loadRefused hfree hr hlt)
      · rintro rfl hr hloaded hrun hheld
        exact h.accepts hw hfree hawake (by decide) (fun _ hx => hx) ((hstart hfree h.lt).restructure hfree hr hloaded hrun hheld)
      · rintro rfl hr hrun
        exact h.accepts hw hfree hawake (by decide) (fun _ hx => hx) ((hstart hfree h.lt).restructureNow hfree hr hrun)
      · rintro rfl hmode
        exact h.accepts hw hfree hawake (by decide) (fun _ hx => hx) ((hstart hfree h.lt).restore hmode)
      · rintro rfl hr
        exact h.accepts hw hfree hawake (by decide) (fun _ hx => hx) ((hstart hfree h.lt).lifecycle hr)
      · rintro rfl hr
        exact h.denies hw hfree hawake (by decide) (fun _ hx => hx) ((hstart hfree h.lt).lifecycleToken hr)
      · rintro rfl hrun
        exact h.accepts hw hfree hawake (by decide) (fun _ hx => hx) ((hstart hfree h.lt).checkpoint hrun)
  · have hcmd : ∀ cmd ∈ [2, 3, 4], Host.Outcome.next (s.jobCommand k cmd 0).accepted = (.next ignored : Host.Outcome State Fault Refusal) :=
      fun cmd hcmd => by rw [State.jobCommand_inactive hidle hcmd]; rfl
    simp only [List.mem_cons, List.not_mem_nil, or_false] at hc
    rcases hc with rfl | rfl | rfl
    · exact hsuspend.trans (hcmd 2 (by decide))
    · exact hresume.trans (hcmd 3 (by decide))
    · exact hcancel.trans (hcmd 4 (by decide))
  · rw [hsuspend, State.jobCommand_suspend hrun, State.jobSuspend_ignored hty]
    rfl
  · rw [hresume, State.jobCommand_resume_running hrun]
  · rw [hsuspend, State.jobCommand_suspend_suspended hsus]

end Sys2Proof.Machine
end
